-- ==== Sys2Proof/Word.lean ====
section
/-! DEFINITION. Word types, finite maps kept as lists, and the plainest arithmetic on them. -/

/-- `l` sorted by `le`, elements that are equal under it in their old order. -/
def List.sortedBy {α : Type} (l : List α) (le : α → α → Bool) : List α :=
  l.foldr (fun a m => m.takeWhile (fun b => !(le a b)) ++ a :: m.dropWhile (fun b => !(le a b))) []

namespace Sys2Proof

abbrev W64 := BitVec 64
abbrev W32 := BitVec 32
abbrev Byte := BitVec 8
/-- A register field of an instruction word (R142). -/
abbrev R6 := BitVec 6
/-- A stall count (R145). -/
abbrev St := BitVec 3
abbrev Bit := BitVec 1

/-- Sparse data by key. The first entry of a key is the one that counts. -/
abbrev Map (α : Type) := List (Nat × α)

/-- The value at key `k`, if one is listed. -/
def Map.find? {α : Type} : Map α → Nat → Option α
  | [], _ => none
  | (j, v) :: m, k => if j = k then some v else Map.find? m k

/-- The value at key `k`, or `d` when none is listed. -/
def Map.get {α : Type} (m : Map α) (k : Nat) (d : α) : α := (Map.find? m k).getD d

/-- `m` with key `k` holding `v`; a new key is listed last. -/
def Map.put {α : Type} : Map α → Nat → α → Map α
  | [], k, v => [(k, v)]
  | (j, w) :: m, k, v => if j = k then (k, v) :: m else (j, w) :: Map.put m k v

/-- `m` without key `k`. -/
def Map.del {α : Type} (m : Map α) (k : Nat) : Map α := List.filter (fun p => p.1 ≠ k) m

/-- `2 ^ 64` as a number. -/
def pow64 : Nat := 18446744073709551616

/-- The bits `hi : lo` of a 64-bit word as a number. -/
def bitsOf (x : W64) (hi lo : Nat) : Nat := x.toNat / 2 ^ lo % 2 ^ (hi + 1 - lo)

/-- All ones, the word that several instructions write for "none". -/
def ones64 : W64 := BitVec.allOnes 64

/-- A message: the header of Table 2.3 and its payload (R45). -/
structure Msg where
  key      : W64
  cls      : Nat
  srcCtx   : Nat
  srcDev   : Nat
  phase    : Nat
  origin   : Nat
  replyKey : W64
  replyCls : Nat
  vf       : Nat
  payload  : List Byte
  deriving DecidableEq, Repr

/-- A RoCE v2 request as the engine reads it from a frame (R376). `verb`: 0 SEND, 1 RDMA WRITE,
2 RDMA READ, anything else a verb the engine does not support. -/
structure RoceReq where
  queuePair : Nat
  reliable  : Bool
  verb      : Nat
  addr      : W64
  data      : List Byte
  deriving DecidableEq, Repr

/-- An arriving Ethernet frame, as far as the port looks at it (R53, R376). -/
structure Frame where
  isUdp   : Bool
  isPtp   : Bool
  ipv6    : Bool
  srcAddr : Nat
  srcPort : Nat
  dstPort : Nat
  udpLen  : Nat
  payload : List Byte
  roce    : Option RoceReq
  deriving DecidableEq, Repr

/-- A 64-bit word of a core's matrix state: word `i` of a tile or an accumulator, of the metadata memory or the scale memory. -/
inductive MatWord where
  | tile (t i : Nat)
  | acc (a i : Nat)
  | side (i : Nat)
  | scale (i : Nat)
  deriving DecidableEq, Repr

/-- Where an uncorrectable error strikes (R419): a memory word by its key, a context's registers,
or a word of one core's matrix state. -/
inductive ErrSite where
  | word (key : Nat)
  | context (ctx : Nat)
  | matrix (core : Nat) (word : MatWord)
  deriving DecidableEq, Repr

end Sys2Proof
end

