-- ==== Sys2Proof/Syntax.lean ====
section
/-! DEFINITION. The syntax of Ralrath 2: one constructor per row of spec/opcode_table.json.

An instruction row carries the fields its form uses (R142 to R149) and its stall count `st`; the
names are those of the manual, `od` being the order field OR and `ha`, `hb` the two hold bits of F.
An event row carries the operands that say what it acts on. -/

namespace Sys2Proof

/-- The instructions (R156) and the events (spec/95_what_each_step_holds.md). -/
inductive Instr where
  | powerOnReset
  | bootRomVerify
  | firstStageBoot
  | cleozLoading
  | computeRelease
  | attestationRequest
  | thermalTrip (temp : Nat)
  | i3cReset
  | throttleStep (die : Nat) (temp : Nat) (excess : Nat)
  | powerModeChange
  | ethernetFrame (port : Nat) (frame : Frame)
  | cxlPortTrain (port : Nat) (rate : Nat) (kind : Nat)
  | cxlLinkDown (port : Nat)
  | towlineTrain (port : Nat) (lanes : Nat) (partner : Nat)
  | towlineMessage (msg : Msg) (target : Nat)
  | towlineReissue (id : Nat)
  | stretchNotice (win : Nat)
  | refreshAdvance (die : Nat)
  | quietSweep
  | homeAccess (id : Nat)
  | storeAck (id : Nat)
  | tagWaitTimeout (id : Nat)
  | barrierWaitTimeout (core : Nat) (slot : Nat)
  | joinLimitExpire (core : Nat) (slot : Nat)
  | backoffReissue (id : Nat)
  | cacheEviction (cluster : Nat) (line : Nat)
  | helperLive (core : Nat) (slot : Nat)
  | helperCloseEnd (core : Nat) (slot : Nat)
  | faultSave (core : Nat) (slot : Nat)
  | faultRecordDrain (cluster : Nat)
  | migration (core : Nat) (slot : Nat)
  | helperRestore (frame : Nat)
  | chunkRequest (cluster : Nat) (handle : Nat)
  | chunkGrant (die : Nat)
  | placementGrant (die : Nat)
  | groupComplete (handle : Nat) (group : Nat)
  | launchReady (handle : Nat)
  | launchDependenceFail (handle : Nat)
  | launchEnd (handle : Nat)
  | splitChange (cluster : Nat)
  | serveWrite (word : Nat) (val : W64)
  | serveWithdraw (cluster : Nat)
  | priorityRaise (handle : Nat)
  | priorityWithdraw (handle : Nat)
  | preemption (die : Nat)
  | quantumExpire
  | earlySliceEnd
  | sliceSwitch
  | engineCommandTake (core : Nat) (ctr : Nat)
  | engineOpComplete (core : Nat) (ctr : Nat)
  | engineFault (core : Nat) (ctr : Nat)
  | vectorCommandStart (core : Nat)
  | vectorCommandDone (core : Nat) (slot : Nat)
  | messageArrive (slice : Nat)
  | sliceInputStallAlert (slice : Nat)
  | mooringComplete (cls : Nat) (key : W64)
  | mailboxSlotFreed (cls : Nat) (key : W64)
  | layupRequest (core : Nat)
  | unmoorOrder (cls : Nat) (key : W64)
  | unmoorComplete (cls : Nat) (key : W64)
  | idleLimitExpire (cls : Nat) (key : W64)
  | shiftComplete (cls : Nat) (key : W64)
  | sluiceStamp (group : Nat)
  | sluiceApply (group : Nat)
  | groupActivate (group : Nat)
  | groupReconfigure (group : Nat)
  | groupResynchronise (group : Nat)
  | groupDelete (group : Nat)
  | blockRinse (stack : Nat) (pool : Nat) (index : Nat) (fails : Nat)
  | patrolScrub (loc : Nat) (seen : W64)
  | uncorrectableError (site : ErrSite)
  | shootdown
  | shootdownDone
  | resumeContext (val : W64)
  | resumeEnd (val : W64)
  | engactRetry (core : Nat) (ctr : Nat)
  | engactAbandon (core : Nat) (ctr : Nat)
  | operandRecordInvalidate (val : W64)
  | keyGenerate (slot : Nat)
  | keyDestroy (slot : Nat)
  | wsLoadingEnter (die : Nat)
  | wsLoadingLeave (die : Nat)
  | poolEnable (stack : Nat) (pool : Nat)
  | poolDisable (stack : Nat) (pool : Nat)
  | classRegister (cls : Nat)
  | classWithdraw (cls : Nat)
  | classWithdrawDone (cls : Nat)
  | directoryResume (dir : Nat)
  | journalControl (val : W64)
  | registerWrite (addr : Nat) (val : W64)
  | add (d : R6) (a : R6) (b : R6) (st : St)
  | sub (d : R6) (a : R6) (b : R6) (st : St)
  | addw (d : R6) (a : R6) (b : R6) (st : St)
  | subw (d : R6) (a : R6) (b : R6) (st : St)
  | mul (d : R6) (a : R6) (b : R6) (st : St)
  | mulh (d : R6) (a : R6) (b : R6) (st : St)
  | mulhz (d : R6) (a : R6) (b : R6) (st : St)
  | mulw (d : R6) (a : R6) (b : R6) (st : St)
  | div (d : R6) (a : R6) (b : R6) (st : St)
  | divz (d : R6) (a : R6) (b : R6) (st : St)
  | rem (d : R6) (a : R6) (b : R6) (st : St)
  | remz (d : R6) (a : R6) (b : R6) (st : St)
  | and (d : R6) (a : R6) (b : R6) (st : St)
  | or (d : R6) (a : R6) (b : R6) (st : St)
  | xor (d : R6) (a : R6) (b : R6) (st : St)
  | andn (d : R6) (a : R6) (b : R6) (st : St)
  | shl (d : R6) (a : R6) (b : R6) (st : St)
  | shr (d : R6) (a : R6) (b : R6) (st : St)
  | shra (d : R6) (a : R6) (b : R6) (st : St)
  | ror (d : R6) (a : R6) (b : R6) (st : St)
  | slt (d : R6) (a : R6) (b : R6) (st : St)
  | sltz (d : R6) (a : R6) (b : R6) (st : St)
  | seq (d : R6) (a : R6) (b : R6) (st : St)
  | sne (d : R6) (a : R6) (b : R6) (st : St)
  | min (d : R6) (a : R6) (b : R6) (st : St)
  | max (d : R6) (a : R6) (b : R6) (st : St)
  | minz (d : R6) (a : R6) (b : R6) (st : St)
  | maxz (d : R6) (a : R6) (b : R6) (st : St)
  | clz (d : R6) (a : R6) (st : St)
  | ctz (d : R6) (a : R6) (st : St)
  | popc (d : R6) (a : R6) (st : St)
  | brev (d : R6) (a : R6) (st : St)
  | sel (d : R6) (a : R6) (b : R6) (c : R6) (st : St)
  | bfxs (d : R6) (a : R6) (p : R6) (n : BitVec 7) (st : St)
  | bfxz (d : R6) (a : R6) (p : R6) (n : BitVec 7) (st : St)
  | bfins (d : R6) (a : R6) (b : R6) (p : R6) (n : BitVec 7) (st : St)
  | lea (d : R6) (a : R6) (b : R6) (k : BitVec 2) (st : St)
  | fadd (d : R6) (a : R6) (b : R6) (st : St)
  | fsub (d : R6) (a : R6) (b : R6) (st : St)
  | fmul (d : R6) (a : R6) (b : R6) (st : St)
  | fdiv (d : R6) (a : R6) (b : R6) (st : St)
  | fmin (d : R6) (a : R6) (b : R6) (st : St)
  | fmax (d : R6) (a : R6) (b : R6) (st : St)
  | fsqrt (d : R6) (a : R6) (st : St)
  | ffma (d : R6) (a : R6) (b : R6) (c : R6) (st : St)
  | flt (d : R6) (a : R6) (b : R6) (st : St)
  | fle (d : R6) (a : R6) (b : R6) (st : St)
  | feq (d : R6) (a : R6) (b : R6) (st : St)
  | fclass (d : R6) (a : R6) (st : St)
  | fcvtif (d : R6) (a : R6) (st : St)
  | fcvtifX (d : R6) (a : R6) (fmt : BitVec 4) (st : St)
  | fcvtfi (d : R6) (a : R6) (st : St)
  | fcvtfiX (d : R6) (a : R6) (fmt : BitVec 4) (st : St)
  | fcvth (d : R6) (a : R6) (fmt : BitVec 4) (sat : Bit) (st : St)
  | fcvte (d : R6) (a : R6) (fmt : BitVec 4) (st : St)
  | addi (d : R6) (a : R6) (imm8 : Byte) (st : St)
  | addiLit (d : R6) (a : R6) (lit : W64) (st : St)
  | andi (d : R6) (a : R6) (imm8 : Byte) (st : St)
  | andiLit (d : R6) (a : R6) (lit : W64) (st : St)
  | ori (d : R6) (a : R6) (imm8 : Byte) (st : St)
  | oriLit (d : R6) (a : R6) (lit : W64) (st : St)
  | xori (d : R6) (a : R6) (imm8 : Byte) (st : St)
  | xoriLit (d : R6) (a : R6) (lit : W64) (st : St)
  | shli (d : R6) (a : R6) (imm8 : Byte) (st : St)
  | shliLit (d : R6) (a : R6) (lit : W64) (st : St)
  | shri (d : R6) (a : R6) (imm8 : Byte) (st : St)
  | shriLit (d : R6) (a : R6) (lit : W64) (st : St)
  | shrai (d : R6) (a : R6) (imm8 : Byte) (st : St)
  | shraiLit (d : R6) (a : R6) (lit : W64) (st : St)
  | slti (d : R6) (a : R6) (imm8 : Byte) (st : St)
  | sltiLit (d : R6) (a : R6) (lit : W64) (st : St)
  | sltzi (d : R6) (a : R6) (imm8 : Byte) (st : St)
  | sltziLit (d : R6) (a : R6) (lit : W64) (st : St)
  | muli (d : R6) (a : R6) (imm8 : Byte) (st : St)
  | muliLit (d : R6) (a : R6) (lit : W64) (st : St)
  | li (d : R6) (imm14 : BitVec 14) (st : St)
  | liLit (d : R6) (lit : W64) (st : St)
  | br (off20 : BitVec 20) (st : St)
  | beqz (d : R6) (off14 : BitVec 14) (st : St)
  | bnez (d : R6) (off14 : BitVec 14) (st : St)
  | bltz (d : R6) (off14 : BitVec 14) (st : St)
  | bgez (d : R6) (off14 : BitVec 14) (st : St)
  | beq (a : R6) (b : R6) (imm : W32) (st : St)
  | bne (a : R6) (b : R6) (imm : W32) (st : St)
  | blt (a : R6) (b : R6) (imm : W32) (st : St)
  | blo (a : R6) (b : R6) (imm : W32) (st : St)
  | call (off20 : BitVec 20) (st : St)
  | callr (d : R6) (a : R6) (st : St)
  | jmpr (a : R6) (st : St)
  | ret (st : St)
  | start (d : R6) (a : R6) (b : R6) (st : St)
  | startX (d : R6) (a : R6) (b : R6) (c : R6) (w : R6) (mig : Bit) (st : St)
  | startm (d : R6) (st : St)
  | startmX (d : R6) (cls : BitVec 16) (has : Bit) (st : St)
  | startw (d : R6) (a : R6) (st : St)
  | startwX (d : R6) (a : R6) (mig : Bit) (st : St)
  | finish (st : St)
  | fail (a : R6) (st : St)
  | idle (st : St)
  | join (d : R6) (a : R6) (st : St)
  | joinX (d : R6) (a : R6) (imm : W32) (st : St)
  | joinany (d : R6) (st : St)
  | joinanyX (d : R6) (imm : W32) (st : St)
  | hstat (d : R6) (a : R6) (st : St)
  | hstatX (d : R6) (a : R6) (st : St)
  | popw (d : R6) (a : R6) (st : St)
  | pushw (d : R6) (a : R6) (st : St)
  | launch (d : R6) (a : R6) (st : St)
  | launchX (d : R6) (a : R6) (imm : W32) (st : St)
  | lwait (d : R6) (a : R6) (st : St)
  | lwaitX (d : R6) (a : R6) (e : R6) (st : St)
  | widf (d : R6) (a : R6) (b : R6) (st : St)
  | widr (d : R6) (a : R6) (b : R6) (st : St)
  | mfk (d : R6) (a : R6) (st : St)
  | mtk (d : R6) (a : R6) (st : St)
  | trap (a : R6) (st : St)
  | brk (st : St)
  | sysc (d : R6) (a : R6) (st : St)
  | eret (st : St)
  | ldb (d : R6) (a : R6) (imm8 : Byte) (st : St)
  | ldbLit (d : R6) (a : R6) (lit : W64) (st : St)
  | ldbX (d : R6) (a : R6) (sc : BitVec 2) (od : BitVec 2) (sy : BitVec 2) (ph : Bit) (imm : W32) (st : St)
  | ldbXlit (d : R6) (a : R6) (sc : BitVec 2) (od : BitVec 2) (sy : BitVec 2) (ph : Bit) (lit : W64) (st : St)
  | ldbz (d : R6) (a : R6) (imm8 : Byte) (st : St)
  | ldbzLit (d : R6) (a : R6) (lit : W64) (st : St)
  | ldbzX (d : R6) (a : R6) (sc : BitVec 2) (od : BitVec 2) (sy : BitVec 2) (ph : Bit) (imm : W32) (st : St)
  | ldbzXlit (d : R6) (a : R6) (sc : BitVec 2) (od : BitVec 2) (sy : BitVec 2) (ph : Bit) (lit : W64) (st : St)
  | ldh (d : R6) (a : R6) (imm8 : Byte) (st : St)
  | ldhLit (d : R6) (a : R6) (lit : W64) (st : St)
  | ldhX (d : R6) (a : R6) (sc : BitVec 2) (od : BitVec 2) (sy : BitVec 2) (ph : Bit) (imm : W32) (st : St)
  | ldhXlit (d : R6) (a : R6) (sc : BitVec 2) (od : BitVec 2) (sy : BitVec 2) (ph : Bit) (lit : W64) (st : St)
  | ldhz (d : R6) (a : R6) (imm8 : Byte) (st : St)
  | ldhzLit (d : R6) (a : R6) (lit : W64) (st : St)
  | ldhzX (d : R6) (a : R6) (sc : BitVec 2) (od : BitVec 2) (sy : BitVec 2) (ph : Bit) (imm : W32) (st : St)
  | ldhzXlit (d : R6) (a : R6) (sc : BitVec 2) (od : BitVec 2) (sy : BitVec 2) (ph : Bit) (lit : W64) (st : St)
  | ldw (d : R6) (a : R6) (imm8 : Byte) (st : St)
  | ldwLit (d : R6) (a : R6) (lit : W64) (st : St)
  | ldwX (d : R6) (a : R6) (sc : BitVec 2) (od : BitVec 2) (sy : BitVec 2) (ph : Bit) (imm : W32) (st : St)
  | ldwXlit (d : R6) (a : R6) (sc : BitVec 2) (od : BitVec 2) (sy : BitVec 2) (ph : Bit) (lit : W64) (st : St)
  | ldwz (d : R6) (a : R6) (imm8 : Byte) (st : St)
  | ldwzLit (d : R6) (a : R6) (lit : W64) (st : St)
  | ldwzX (d : R6) (a : R6) (sc : BitVec 2) (od : BitVec 2) (sy : BitVec 2) (ph : Bit) (imm : W32) (st : St)
  | ldwzXlit (d : R6) (a : R6) (sc : BitVec 2) (od : BitVec 2) (sy : BitVec 2) (ph : Bit) (lit : W64) (st : St)
  | ldd (d : R6) (a : R6) (imm8 : Byte) (st : St)
  | lddLit (d : R6) (a : R6) (lit : W64) (st : St)
  | lddX (d : R6) (a : R6) (sc : BitVec 2) (od : BitVec 2) (sy : BitVec 2) (ph : Bit) (imm : W32) (st : St)
  | lddXlit (d : R6) (a : R6) (sc : BitVec 2) (od : BitVec 2) (sy : BitVec 2) (ph : Bit) (lit : W64) (st : St)
  | stb (d : R6) (a : R6) (imm8 : Byte) (st : St)
  | stbLit (d : R6) (a : R6) (lit : W64) (st : St)
  | stbX (d : R6) (a : R6) (sc : BitVec 2) (od : BitVec 2) (sy : BitVec 2) (ph : Bit) (imm : W32) (st : St)
  | stbXlit (d : R6) (a : R6) (sc : BitVec 2) (od : BitVec 2) (sy : BitVec 2) (ph : Bit) (lit : W64) (st : St)
  | sth (d : R6) (a : R6) (imm8 : Byte) (st : St)
  | sthLit (d : R6) (a : R6) (lit : W64) (st : St)
  | sthX (d : R6) (a : R6) (sc : BitVec 2) (od : BitVec 2) (sy : BitVec 2) (ph : Bit) (imm : W32) (st : St)
  | sthXlit (d : R6) (a : R6) (sc : BitVec 2) (od : BitVec 2) (sy : BitVec 2) (ph : Bit) (lit : W64) (st : St)
  | stw (d : R6) (a : R6) (imm8 : Byte) (st : St)
  | stwLit (d : R6) (a : R6) (lit : W64) (st : St)
  | stwX (d : R6) (a : R6) (sc : BitVec 2) (od : BitVec 2) (sy : BitVec 2) (ph : Bit) (imm : W32) (st : St)
  | stwXlit (d : R6) (a : R6) (sc : BitVec 2) (od : BitVec 2) (sy : BitVec 2) (ph : Bit) (lit : W64) (st : St)
  | std (d : R6) (a : R6) (imm8 : Byte) (st : St)
  | stdLit (d : R6) (a : R6) (lit : W64) (st : St)
  | stdX (d : R6) (a : R6) (sc : BitVec 2) (od : BitVec 2) (sy : BitVec 2) (ph : Bit) (imm : W32) (st : St)
  | stdXlit (d : R6) (a : R6) (sc : BitVec 2) (od : BitVec 2) (sy : BitVec 2) (ph : Bit) (lit : W64) (st : St)
  | ldfe (d : R6) (a : R6) (st : St)
  | ldfeX (d : R6) (a : R6) (e : R6) (sc : BitVec 2) (od : BitVec 2) (ph : Bit) (imm : W32) (st : St)
  | ldff (d : R6) (a : R6) (st : St)
  | ldffX (d : R6) (a : R6) (e : R6) (sc : BitVec 2) (od : BitVec 2) (ph : Bit) (imm : W32) (st : St)
  | ldtag (d : R6) (a : R6) (st : St)
  | ldtagX (d : R6) (a : R6) (sc : BitVec 2) (od : BitVec 2) (ph : Bit) (imm : W32) (st : St)
  | stef (d : R6) (a : R6) (b : R6) (st : St)
  | stefX (d : R6) (a : R6) (b : R6) (sc : BitVec 2) (od : BitVec 2) (ph : Bit) (imm : W32) (st : St)
  | stff (d : R6) (a : R6) (b : R6) (st : St)
  | stffX (d : R6) (a : R6) (b : R6) (sc : BitVec 2) (od : BitVec 2) (ph : Bit) (imm : W32) (st : St)
  | tclr (a : R6) (st : St)
  | tclrX (a : R6) (sc : BitVec 2) (od : BitVec 2) (ph : Bit) (imm : W32) (st : St)
  | tfill (a : R6) (st : St)
  | tfillX (a : R6) (sc : BitVec 2) (od : BitVec 2) (ph : Bit) (imm : W32) (st : St)
  | aadd (d : R6) (a : R6) (b : R6) (st : St)
  | aaddX (d : R6) (a : R6) (b : R6) (sc : BitVec 2) (od : BitVec 2) (ph : Bit) (imm : W32) (st : St)
  | amin (d : R6) (a : R6) (b : R6) (st : St)
  | aminX (d : R6) (a : R6) (b : R6) (sc : BitVec 2) (od : BitVec 2) (ph : Bit) (imm : W32) (st : St)
  | amax (d : R6) (a : R6) (b : R6) (st : St)
  | amaxX (d : R6) (a : R6) (b : R6) (sc : BitVec 2) (od : BitVec 2) (ph : Bit) (imm : W32) (st : St)
  | aminz (d : R6) (a : R6) (b : R6) (st : St)
  | aminzX (d : R6) (a : R6) (b : R6) (sc : BitVec 2) (od : BitVec 2) (ph : Bit) (imm : W32) (st : St)
  | aand (d : R6) (a : R6) (b : R6) (st : St)
  | aandX (d : R6) (a : R6) (b : R6) (sc : BitVec 2) (od : BitVec 2) (ph : Bit) (imm : W32) (st : St)
  | aor (d : R6) (a : R6) (b : R6) (st : St)
  | aorX (d : R6) (a : R6) (b : R6) (sc : BitVec 2) (od : BitVec 2) (ph : Bit) (imm : W32) (st : St)
  | axor (d : R6) (a : R6) (b : R6) (st : St)
  | axorX (d : R6) (a : R6) (b : R6) (sc : BitVec 2) (od : BitVec 2) (ph : Bit) (imm : W32) (st : St)
  | aswp (d : R6) (a : R6) (b : R6) (st : St)
  | aswpX (d : R6) (a : R6) (b : R6) (sc : BitVec 2) (od : BitVec 2) (ph : Bit) (imm : W32) (st : St)
  | acas (d : R6) (a : R6) (b : R6) (st : St)
  | acasX (d : R6) (a : R6) (b : R6) (c : R6) (sc : BitVec 2) (od : BitVec 2) (ph : Bit) (imm : W32) (st : St)
  | aaddf (d : R6) (a : R6) (b : R6) (st : St)
  | aaddfX (d : R6) (a : R6) (b : R6) (sc : BitVec 2) (od : BitVec 2) (ph : Bit) (imm : W32) (st : St)
  | amaxf (d : R6) (a : R6) (b : R6) (st : St)
  | amaxfX (d : R6) (a : R6) (b : R6) (sc : BitVec 2) (od : BitVec 2) (ph : Bit) (imm : W32) (st : St)
  | ainc (d : R6) (a : R6) (b : R6) (st : St)
  | aincX (d : R6) (a : R6) (b : R6) (sc : BitVec 2) (od : BitVec 2) (ph : Bit) (imm : W32) (st : St)
  | fence (st : St)
  | fenceX (st : St)
  | fencelb (st : St)
  | fencelbX (st : St)
  | winwait (d : R6) (a : R6) (st : St)
  | winwaitX (d : R6) (a : R6) (st : St)
  | ackwait (st : St)
  | ackwaitX (st : St)
  | acq (d : R6) (a : R6) (st : St)
  | acqX (d : R6) (a : R6) (sc : BitVec 2) (imm : W32) (st : St)
  | rel (d : R6) (a : R6) (st : St)
  | relX (d : R6) (a : R6) (sc : BitVec 2) (imm : W32) (st : St)
  | bind (d : R6) (a : R6) (b : R6) (st : St)
  | bindX (d : R6) (a : R6) (b : R6) (st : St)
  | unbind (a : R6) (st : St)
  | unbindX (a : R6) (st : St)
  | tlwait (a : R6) (b : R6) (st : St)
  | tlwaitX (a : R6) (b : R6) (st : St)
  | tlread (d : R6) (a : R6) (st : St)
  | tlreadX (d : R6) (a : R6) (st : St)
  | tladd (d : R6) (a : R6) (b : R6) (st : St)
  | tladdX (d : R6) (a : R6) (b : R6) (sc : BitVec 2) (st : St)
  | qwait (a : R6) (st : St)
  | qwaitX (a : R6) (st : St)
  | qflip (st : St)
  | qflipX (st : St)
  | qread (d : R6) (st : St)
  | qreadX (d : R6) (st : St)
  | barc (d : R6) (a : R6) (st : St)
  | barcX (d : R6) (a : R6) (st : St)
  | barh (d : R6) (a : R6) (st : St)
  | barhX (d : R6) (a : R6) (st : St)
  | pref (a : R6) (st : St)
  | prefX (a : R6) (imm : W32) (st : St)
  | cwb (a : R6) (b : R6) (st : St)
  | cwbX (a : R6) (b : R6) (imm : W32) (st : St)
  | cinv (a : R6) (b : R6) (st : St)
  | cinvX (a : R6) (b : R6) (imm : W32) (st : St)
  | vmand (d : R6) (a : R6) (b : R6) (st : St)
  | vmandX (d : R6) (a : R6) (b : R6) (fmt : BitVec 4) (st : St)
  | vmor (d : R6) (a : R6) (b : R6) (st : St)
  | vmorX (d : R6) (a : R6) (b : R6) (fmt : BitVec 4) (st : St)
  | vmxor (d : R6) (a : R6) (b : R6) (st : St)
  | vmxorX (d : R6) (a : R6) (b : R6) (fmt : BitVec 4) (st : St)
  | vmnot (d : R6) (a : R6) (st : St)
  | vmnotX (d : R6) (a : R6) (fmt : BitVec 4) (st : St)
  | vmpop (d : R6) (a : R6) (st : St)
  | vmpopX (d : R6) (a : R6) (fmt : BitVec 4) (mk : St) (st : St)
  | vmfirst (d : R6) (a : R6) (st : St)
  | vmfirstX (d : R6) (a : R6) (fmt : BitVec 4) (mk : St) (st : St)
  | viota (d : R6) (st : St)
  | viotaX (d : R6) (fmt : BitVec 4) (mk : St) (mp : Bit) (tp : Bit) (st : St)
  | vmov (d : R6) (a : R6) (st : St)
  | vmovX (d : R6) (a : R6) (fmt : BitVec 4) (mk : St) (mp : Bit) (tp : Bit) (st : St)
  | vbcast (d : R6) (a : R6) (st : St)
  | vbcastX (d : R6) (a : R6) (fmt : BitVec 4) (mk : St) (mp : Bit) (tp : Bit) (st : St)
  | vextr (d : R6) (a : R6) (b : R6) (st : St)
  | vextrX (d : R6) (a : R6) (b : R6) (fmt : BitVec 4) (st : St)
  | vins (d : R6) (a : R6) (b : R6) (st : St)
  | vinsX (d : R6) (a : R6) (b : R6) (fmt : BitVec 4) (st : St)
  | vperm (d : R6) (a : R6) (b : R6) (st : St)
  | vpermX (d : R6) (a : R6) (b : R6) (fmt : BitVec 4) (mk : St) (mp : Bit) (tp : Bit) (st : St)
  | vslideu (d : R6) (a : R6) (b : R6) (st : St)
  | vslideuX (d : R6) (a : R6) (b : R6) (fmt : BitVec 4) (mk : St) (mp : Bit) (tp : Bit) (st : St)
  | vslided (d : R6) (a : R6) (b : R6) (st : St)
  | vslidedX (d : R6) (a : R6) (b : R6) (fmt : BitVec 4) (mk : St) (mp : Bit) (tp : Bit) (st : St)
  | vcompr (d : R6) (a : R6) (st : St)
  | vcomprX (d : R6) (a : R6) (fmt : BitVec 4) (mk : St) (tp : Bit) (st : St)
  | vexpnd (d : R6) (a : R6) (st : St)
  | vexpndX (d : R6) (a : R6) (fmt : BitVec 4) (mk : St) (mp : Bit) (tp : Bit) (st : St)
  | vredsum (d : R6) (a : R6) (b : R6) (st : St)
  | vredsumX (d : R6) (a : R6) (b : R6) (fmt : BitVec 4) (mk : St) (st : St)
  | vredmax (d : R6) (a : R6) (b : R6) (st : St)
  | vredmaxX (d : R6) (a : R6) (b : R6) (fmt : BitVec 4) (mk : St) (st : St)
  | vredmin (d : R6) (a : R6) (b : R6) (st : St)
  | vredminX (d : R6) (a : R6) (b : R6) (fmt : BitVec 4) (mk : St) (st : St)
  | vld (d : R6) (a : R6) (st : St)
  | vldX (d : R6) (a : R6) (fmt : BitVec 4) (mk : St) (mp : Bit) (tp : Bit) (ph : Bit) (imm : W32) (st : St)
  | vst (d : R6) (a : R6) (st : St)
  | vstX (d : R6) (a : R6) (fmt : BitVec 4) (mk : St) (ph : Bit) (imm : W32) (st : St)
  | vlds (d : R6) (a : R6) (b : R6) (st : St)
  | vldsX (d : R6) (a : R6) (b : R6) (fmt : BitVec 4) (mk : St) (mp : Bit) (tp : Bit) (ph : Bit) (imm : W32) (st : St)
  | vsts (d : R6) (a : R6) (b : R6) (st : St)
  | vstsX (d : R6) (a : R6) (b : R6) (fmt : BitVec 4) (mk : St) (ph : Bit) (imm : W32) (st : St)
  | vgath (d : R6) (a : R6) (b : R6) (st : St)
  | vgathX (d : R6) (a : R6) (b : R6) (fmt : BitVec 4) (mk : St) (mp : Bit) (tp : Bit) (ph : Bit) (imm : W32) (st : St)
  | vscat (d : R6) (a : R6) (b : R6) (st : St)
  | vscatX (d : R6) (a : R6) (b : R6) (fmt : BitVec 4) (mk : St) (ph : Bit) (imm : W32) (st : St)
  | vcvtp (d : R6) (a : R6) (b : R6) (fmt : BitVec 4) (mk : St) (mp : Bit) (tp : Bit) (sat : Bit) (sr : Bit) (st : St)
  | vcvtu (d : R6) (a : R6) (b : R6) (fmt : BitVec 4) (mk : St) (mp : Bit) (tp : Bit) (sat : Bit) (sr : Bit) (st : St)
  | vcvti (d : R6) (a : R6) (fmt : BitVec 4) (mk : St) (mp : Bit) (tp : Bit) (sat : Bit) (sr : Bit) (st : St)
  | vqscale (d : R6) (a : R6) (e : R6) (fmt : BitVec 4) (tp : Bit) (sat : Bit) (sr : Bit) (st : St)
  | vtag (d : R6) (st : St)
  | vtagX (d : R6) (fmt : BitVec 4) (st : St)
  | vtagr (d : R6) (a : R6) (st : St)
  | vtagrX (d : R6) (a : R6) (st : St)
  | vmerge3 (d : R6) (a : R6) (b : R6) (st : St)
  | vmerge3X (d : R6) (a : R6) (b : R6) (fmt : BitVec 4) (mk : St) (mp : Bit) (tp : Bit) (st : St)
  | vsync (st : St)
  | vsyncX (st : St)
  | vadd (d : R6) (a : R6) (b : R6) (ha : Bit) (hb : Bit) (st : St)
  | vaddX (d : R6) (a : R6) (b : R6) (ha : Bit) (hb : Bit) (fmt : BitVec 4) (mk : St) (mp : Bit) (tp : Bit) (st : St)
  | vsub (d : R6) (a : R6) (b : R6) (ha : Bit) (hb : Bit) (st : St)
  | vsubX (d : R6) (a : R6) (b : R6) (ha : Bit) (hb : Bit) (fmt : BitVec 4) (mk : St) (mp : Bit) (tp : Bit) (st : St)
  | vmul (d : R6) (a : R6) (b : R6) (ha : Bit) (hb : Bit) (st : St)
  | vmulX (d : R6) (a : R6) (b : R6) (ha : Bit) (hb : Bit) (fmt : BitVec 4) (mk : St) (mp : Bit) (tp : Bit) (st : St)
  | vfma (d : R6) (a : R6) (b : R6) (ha : Bit) (hb : Bit) (st : St)
  | vfmaX (d : R6) (a : R6) (b : R6) (ha : Bit) (hb : Bit) (c : R6) (hc : Bit) (fmt : BitVec 4) (mk : St) (mp : Bit) (tp : Bit) (st : St)
  | vfnma (d : R6) (a : R6) (b : R6) (ha : Bit) (hb : Bit) (st : St)
  | vfnmaX (d : R6) (a : R6) (b : R6) (ha : Bit) (hb : Bit) (c : R6) (hc : Bit) (fmt : BitVec 4) (mk : St) (mp : Bit) (tp : Bit) (st : St)
  | vmin (d : R6) (a : R6) (b : R6) (ha : Bit) (hb : Bit) (st : St)
  | vminX (d : R6) (a : R6) (b : R6) (ha : Bit) (hb : Bit) (fmt : BitVec 4) (mk : St) (mp : Bit) (tp : Bit) (st : St)
  | vmax (d : R6) (a : R6) (b : R6) (ha : Bit) (hb : Bit) (st : St)
  | vmaxX (d : R6) (a : R6) (b : R6) (ha : Bit) (hb : Bit) (fmt : BitVec 4) (mk : St) (mp : Bit) (tp : Bit) (st : St)
  | vabs (d : R6) (a : R6) (ha : Bit) (st : St)
  | vabsX (d : R6) (a : R6) (ha : Bit) (fmt : BitVec 4) (mk : St) (mp : Bit) (tp : Bit) (st : St)
  | vneg (d : R6) (a : R6) (ha : Bit) (st : St)
  | vnegX (d : R6) (a : R6) (ha : Bit) (fmt : BitVec 4) (mk : St) (mp : Bit) (tp : Bit) (st : St)
  | vrcp (d : R6) (a : R6) (ha : Bit) (st : St)
  | vrcpX (d : R6) (a : R6) (ha : Bit) (fmt : BitVec 4) (mk : St) (mp : Bit) (tp : Bit) (st : St)
  | vrsq (d : R6) (a : R6) (ha : Bit) (st : St)
  | vrsqX (d : R6) (a : R6) (ha : Bit) (fmt : BitVec 4) (mk : St) (mp : Bit) (tp : Bit) (st : St)
  | vexp2 (d : R6) (a : R6) (ha : Bit) (st : St)
  | vexp2X (d : R6) (a : R6) (ha : Bit) (fmt : BitVec 4) (mk : St) (mp : Bit) (tp : Bit) (st : St)
  | vlog2 (d : R6) (a : R6) (ha : Bit) (st : St)
  | vlog2X (d : R6) (a : R6) (ha : Bit) (fmt : BitVec 4) (mk : St) (mp : Bit) (tp : Bit) (st : St)
  | vtanh (d : R6) (a : R6) (ha : Bit) (st : St)
  | vtanhX (d : R6) (a : R6) (ha : Bit) (fmt : BitVec 4) (mk : St) (mp : Bit) (tp : Bit) (st : St)
  | vand (d : R6) (a : R6) (b : R6) (ha : Bit) (hb : Bit) (st : St)
  | vandX (d : R6) (a : R6) (b : R6) (ha : Bit) (hb : Bit) (fmt : BitVec 4) (mk : St) (mp : Bit) (tp : Bit) (st : St)
  | vor (d : R6) (a : R6) (b : R6) (ha : Bit) (hb : Bit) (st : St)
  | vorX (d : R6) (a : R6) (b : R6) (ha : Bit) (hb : Bit) (fmt : BitVec 4) (mk : St) (mp : Bit) (tp : Bit) (st : St)
  | vxor (d : R6) (a : R6) (b : R6) (ha : Bit) (hb : Bit) (st : St)
  | vxorX (d : R6) (a : R6) (b : R6) (ha : Bit) (hb : Bit) (fmt : BitVec 4) (mk : St) (mp : Bit) (tp : Bit) (st : St)
  | vshl (d : R6) (a : R6) (b : R6) (ha : Bit) (hb : Bit) (st : St)
  | vshlX (d : R6) (a : R6) (b : R6) (ha : Bit) (hb : Bit) (fmt : BitVec 4) (mk : St) (mp : Bit) (tp : Bit) (st : St)
  | vshr (d : R6) (a : R6) (b : R6) (ha : Bit) (hb : Bit) (st : St)
  | vshrX (d : R6) (a : R6) (b : R6) (ha : Bit) (hb : Bit) (fmt : BitVec 4) (mk : St) (mp : Bit) (tp : Bit) (st : St)
  | vshra (d : R6) (a : R6) (b : R6) (ha : Bit) (hb : Bit) (st : St)
  | vshraX (d : R6) (a : R6) (b : R6) (ha : Bit) (hb : Bit) (fmt : BitVec 4) (mk : St) (mp : Bit) (tp : Bit) (st : St)
  | vcmpeq (d : R6) (a : R6) (b : R6) (ha : Bit) (hb : Bit) (st : St)
  | vcmpeqX (d : R6) (a : R6) (b : R6) (ha : Bit) (hb : Bit) (fmt : BitVec 4) (mk : St) (mp : Bit) (tp : Bit) (st : St)
  | vcmplt (d : R6) (a : R6) (b : R6) (ha : Bit) (hb : Bit) (st : St)
  | vcmpltX (d : R6) (a : R6) (b : R6) (ha : Bit) (hb : Bit) (fmt : BitVec 4) (mk : St) (mp : Bit) (tp : Bit) (st : St)
  | vcmple (d : R6) (a : R6) (b : R6) (ha : Bit) (hb : Bit) (st : St)
  | vcmpleX (d : R6) (a : R6) (b : R6) (ha : Bit) (hb : Bit) (fmt : BitVec 4) (mk : St) (mp : Bit) (tp : Bit) (st : St)
  | vclaim (d : R6) (a : R6) (st : St)
  | vreneg (d : R6) (st : St)
  | vrelease (st : St)
  | mma (d : R6) (a : R6) (b : R6) (c : R6) (e : R6) (fmt : BitVec 4) (n : Byte) (as : Bit) (bs : Bit) (z : Bit) (st : St)
  | mmag (d : R6) (a : R6) (b : R6) (c : R6) (e : R6) (fmt : BitVec 4) (n : Byte) (as : Bit) (bs : Bit) (z : Bit) (st : St)
  | mmas (d : R6) (a : R6) (b : R6) (c : R6) (e : R6) (fmt : BitVec 4) (n : Byte) (as : Bit) (bs : Bit) (moff : R6) (z : Bit) (st : St)
  | mmax (d : R6) (a : R6) (b : R6) (c : R6) (fmt : BitVec 4) (n : Byte) (as : Bit) (z : Bit) (st : St)
  | mmamx (d : R6) (a : R6) (b : R6) (c : R6) (e : R6) (fmt : BitVec 4) (n : Byte) (as : Bit) (bs : Bit) (sa : BitVec 7) (sb : BitVec 7) (z : Bit) (st : St)
  | mmaws (d : R6) (a : R6) (b : R6) (c : R6) (e : R6) (fmt : BitVec 4) (n : Byte) (as : Bit) (bs : Bit) (sa : BitVec 7) (sb : BitVec 7) (z : Bit) (st : St)
  | tld (d : R6) (a : R6) (st : St)
  | tldX (d : R6) (a : R6) (fmt : BitVec 4) (imm : W32) (st : St)
  | tst (d : R6) (a : R6) (b : R6) (st : St)
  | tstX (d : R6) (a : R6) (b : R6) (fmt : BitVec 4) (imm : W32) (st : St)
  | tzero (d : R6) (st : St)
  | tzeroX (d : R6) (fmt : BitVec 4) (st : St)
  | aclr (d : R6) (st : St)
  | aclrX (d : R6) (st : St)
  | ald (d : R6) (a : R6) (st : St)
  | aldX (d : R6) (a : R6) (imm : W32) (st : St)
  | ast (d : R6) (a : R6) (b : R6) (st : St)
  | astX (d : R6) (a : R6) (b : R6) (imm : W32) (st : St)
  | aread (d : R6) (a : R6) (b : R6) (fmt : BitVec 4) (st : St)
  | mdld (d : R6) (a : R6) (b : R6) (st : St)
  | mdldX (d : R6) (a : R6) (b : R6) (off : Byte) (st : St)
  | scld (d : R6) (a : R6) (b : R6) (st : St)
  | scldX (d : R6) (a : R6) (b : R6) (off : BitVec 7) (st : St)
  | orld (d : R6) (a : R6) (b : R6) (st : St)
  | orldX (d : R6) (a : R6) (b : R6) (st : St)
  | gangcfg (a : R6) (st : St)
  | cpy (d : R6) (a : R6) (b : R6) (st : St)
  | cpyX (d : R6) (a : R6) (b : R6) (c : R6) (od : BitVec 2) (ph : Bit) (ctx : BitVec 2) (st : St)
  | cpyt (d : R6) (a : R6) (b : R6) (st : St)
  | cpytX (d : R6) (a : R6) (b : R6) (c : R6) (od : BitVec 2) (ph : Bit) (ctx : BitVec 2) (tv : Bit) (st : St)
  | cpyg (d : R6) (a : R6) (b : R6) (st : St)
  | cpygX (d : R6) (a : R6) (b : R6) (c : R6) (e : R6) (fmt : BitVec 4) (od : BitVec 2) (ph : Bit) (ctx : BitVec 2) (st : St)
  | barge (d : R6) (a : R6) (b : R6) (st : St)
  | bargeX (d : R6) (a : R6) (b : R6) (c : R6) (od : BitVec 2) (ph : Bit) (st : St)
  | bargem (d : R6) (a : R6) (b : R6) (st : St)
  | bargemX (d : R6) (a : R6) (b : R6) (c : R6) (e : R6) (od : BitVec 2) (ph : Bit) (cl : Bit) (st : St)
  | send (d : R6) (a : R6) (st : St)
  | sendX (d : R6) (a : R6) (ph : Bit) (st : St)
  | sendx (d : R6) (a : R6) (b : R6) (st : St)
  | sendxX (d : R6) (a : R6) (b : R6) (ph : Bit) (st : St)
  | msginfo (d : R6) (st : St)
  | msginfoX (d : R6) (st : St)
  | aidle (st : St)
  | aidleX (st : St)
  | aerase (d : R6) (a : R6) (b : R6) (st : St)
  | aeraseX (d : R6) (a : R6) (b : R6) (st : St)
  | migrate (d : R6) (a : R6) (b : R6) (st : St)
  | migrateX (d : R6) (a : R6) (b : R6) (c : R6) (st : St)
  | balloc (d : R6) (a : R6) (st : St)
  | ballocX (d : R6) (a : R6) (e : R6) (loose : Bit) (st : St)
  | bfree (d : R6) (a : R6) (st : St)
  | bfreeX (d : R6) (a : R6) (st : St)
  | bshare (d : R6) (a : R6) (b : R6) (st : St)
  | bshareX (d : R6) (a : R6) (b : R6) (loose : Bit) (st : St)
  | btrunc (d : R6) (a : R6) (b : R6) (st : St)
  | btruncX (d : R6) (a : R6) (b : R6) (st : St)
  | bquery (d : R6) (a : R6) (st : St)
  | bqueryX (d : R6) (a : R6) (e : R6) (st : St)
  | bseqnew (d : R6) (a : R6) (b : R6) (st : St)
  | bseqnewX (d : R6) (a : R6) (b : R6) (st : St)
  | bseqdrop (d : R6) (a : R6) (st : St)
  | bseqdropX (d : R6) (a : R6) (st : St)
  | ptx (d : R6) (a : R6) (b : R6) (st : St)
  | ptxX (d : R6) (a : R6) (b : R6) (st : St)
  | ptfill (d : R6) (a : R6) (b : R6) (st : St)
  | ptfillX (d : R6) (a : R6) (b : R6) (c : R6) (st : St)
  | ptinv (a : R6) (b : R6) (st : St)
  | ptinvX (a : R6) (b : R6) (st : St)
  | attnq (d : R6) (a : R6) (st : St)
  | attnqX (d : R6) (a : R6) (od : BitVec 2) (ph : Bit) (st : St)
  | refwait (d : R6) (a : R6) (st : St)
  | refwaitX (d : R6) (a : R6) (guard : BitVec 11) (st : St)
  | mcst (d : R6) (a : R6) (b : R6) (st : St)
  | mcstX (d : R6) (a : R6) (b : R6) (c : R6) (od : BitVec 2) (ph : Bit) (st : St)
  | mcstc (d : R6) (a : R6) (b : R6) (st : St)
  | mcstcX (d : R6) (a : R6) (b : R6) (c : R6) (e : R6) (od : BitVec 2) (ph : Bit) (st : St)
  | mcseq (d : R6) (a : R6) (st : St)
  | mcseqX (d : R6) (a : R6) (st : St)
  | illegalInstruction (word : W32)
  | windowBoundary
  | stretchNoticeArrive (dev : Nat) (win : Nat) (withdrawn : Nat)
  | launchHandleExpire (handle : Nat)
  | keyZeroiseComplete (slot : Nat)
  | syscResult (core : Nat) (slot : Nat) (val : W64)
  | cleozInterrupt (core : Nat)
  | timeDomainLeave
  | timeDomainRejoin
  | ethernetPortEnable (phys : Nat) (split : Nat)
  | fusedMinimumRaise (svn : Nat)
  | rootKeyRevoke
  | corePowerGating (core : Nat)
  | towlineRouteDown (port : Nat)
  deriving DecidableEq, Repr

end Sys2Proof
end

