-- ==== Sys2Proof/WellFormed.lean ====
section
/-! DEFINITION. The checks of R155 step 1 that the instruction words alone decide: register numbers
(R150), format codes, windows, immediates and the reserved fields. A term that fails one is an illegal
instruction (cause 0x01). -/

namespace Sys2Proof

/-- A wait limit: IMM32 is no displacement there, and bits 31:29, which belong to modifiers, are zero (R149). -/
def limitOk (imm : W32) : Bool := decide (imm.toNat < 2 ^ 29)

/-- A register number inside its file (Table 6.4). -/
def regOk (r : R6) (count : Nat) : Bool := decide (r.toNat < count)

/-- Is `f` one of the format codes listed? -/
def fmtIn (l : List Nat) (f : BitVec 4) : Bool := l.contains f.toNat

/-- FMT codes 12 to 15 are illegal (R148). -/
def fmtOk (f : BitVec 4) : Bool := decide (f.toNat ≤ 11)
def fmtInt : BitVec 4 → Bool := fmtIn [0, 1, 2, 3]
/-- Targets of FCVTH (Table 8.5). -/
def fmtNarrow : BitVec 4 → Bool := fmtIn [4, 5, 6, 7, 8]
def fmtNarrowE : BitVec 4 → Bool := fmtIn [4, 5, 6, 7, 8, 11]
def fmtMask : BitVec 4 → Bool := fmtIn [0, 10]
/-- The strided and indexed vector accesses take RAW, I32 and FP32 (R265). -/
def fmtWord : BitVec 4 → Bool := fmtIn [0, 3, 9]
def fmtMerge : BitVec 4 → Bool := fmtIn [0, 9]
def fmtEqual : BitVec 4 → Bool := fmtIn [9, 3, 7, 2, 8, 5, 1, 6]
def fmtQ : BitVec 4 → Bool := fmtIn [4, 5, 6]
/-- Operand formats of the dense products (R283). -/
def fmtMat : BitVec 4 → Bool := fmtIn [1, 4, 5, 6, 7, 8]
/-- Operand formats of the scaled products (R288). -/
def fmtMx : BitVec 4 → Bool := fmtIn [1, 4, 5, 6]
def fmtTile : BitVec 4 → Bool := fmtIn [0, 1, 4, 5, 6, 7, 8]
/-- Targets of AREAD (R293). -/
def fmtRead : BitVec 4 → Bool := fmtIn [1, 2, 3, 5, 6, 7, 8, 9]
/-- Index widths of CPYG (R303). -/
def fmtIdx : BitVec 4 → Bool := fmtIn [0, 2, 3]

/-- A vector instruction that names no mask has MP 0 (R251). -/
def maskOk (mk : BitVec 3) (mp : Bit) : Bool := mk != 0 || mp == 0
/-- Field position and length of R190. -/
def bfOk (p : R6) (n : BitVec 7) : Bool := decide (1 ≤ n.toNat ∧ p.toNat + n.toNat ≤ 64)
def shiftOk8 (x : Byte) : Bool := decide (x.toNat < 64)
def shiftOk64 (x : W64) : Bool := decide (x.toNat < 64)
/-- Window sizes of R13. -/
def windowOk (w : R6) : Bool := decide (w.toNat ≤ 48 ∧ w.toNat % 6 = 0)
/-- STARTM without the class flag leaves the class field zero. (DEDUCED, log entry 27.) -/
def clsOk (cls : BitVec 16) (has : Bit) : Bool := has == 1 || cls == 0
/-- Software timelines (R238). -/
def softTl (a : R6) : Bool := decide (8 ≤ a.toNat ∧ a.toNat ≤ 15)
/-- A group of three registers ends at v47 or below (R252). -/
def group3 (r : R6) : Bool := decide (r.toNat + 2 < 48)
/-- A loose BSHARE names s0 (R315). -/
def shareOk (a : R6) (loose : Bit) : Bool := loose == 0 || a == 0
/-- The targets of VCVTP, with the scale and `.sr` only on floating-point pairs (R267). -/
def cvtpOk (f : BitVec 4) (b : R6) (sr : Bit) : Bool :=
  fmtIn [4, 5, 6, 7, 8] f || (fmtIn [1, 2] f && b == 0 && sr == 0)
/-- The targets of VCVTU (R267). -/
def cvtuOk (f : BitVec 4) (b : R6) (sr : Bit) : Bool :=
  fmtIn [7, 8, 9] f || (fmtIn [2, 3] f && b == 0 && sr == 0)
/-- A matrix operand over `n` steps of `per` tiles (R279, R280): a tile operand stays below t8 and
has no pitch register. -/
def matOp (r : R6) (n : Byte) (pair : Bit) (pitch : R6) (per : Nat) : Bool :=
  n != 0 && (pair == 1 || (pitch == 0 && decide (r.toNat + n.toNat * per ≤ 8)))

/-- Does the instruction pass every check that its words alone decide? Events carry none. (DEDUCED, log entry 27.) -/
def Instr.wf : Instr → Bool
  | .powerOnReset => true
  | .bootRomVerify => true
  | .firstStageBoot => true
  | .cleozLoading => true
  | .computeRelease => true
  | .attestationRequest => true
  | .thermalTrip _ => true
  | .i3cReset => true
  | .throttleStep _ _ _ => true
  | .powerModeChange => true
  | .ethernetFrame _ _ => true
  | .cxlPortTrain _ _ _ => true
  | .cxlLinkDown _ => true
  | .towlineTrain _ _ _ => true
  | .towlineMessage _ _ => true
  | .towlineReissue _ => true
  | .stretchNotice _ => true
  | .refreshAdvance _ => true
  | .quietSweep => true
  | .homeAccess _ => true
  | .storeAck _ => true
  | .tagWaitTimeout _ => true
  | .barrierWaitTimeout _ _ => true
  | .joinLimitExpire _ _ => true
  | .backoffReissue _ => true
  | .cacheEviction _ _ => true
  | .helperLive _ _ => true
  | .helperCloseEnd _ _ => true
  | .faultSave _ _ => true
  | .faultRecordDrain _ => true
  | .migration _ _ => true
  | .helperRestore _ => true
  | .chunkRequest _ _ => true
  | .chunkGrant _ => true
  | .placementGrant _ => true
  | .groupComplete _ _ => true
  | .launchReady _ => true
  | .launchDependenceFail _ => true
  | .launchEnd _ => true
  | .splitChange _ => true
  | .serveWrite _ _ => true
  | .serveWithdraw _ => true
  | .priorityRaise _ => true
  | .priorityWithdraw _ => true
  | .preemption _ => true
  | .quantumExpire => true
  | .earlySliceEnd => true
  | .sliceSwitch => true
  | .engineCommandTake _ _ => true
  | .engineOpComplete _ _ => true
  | .engineFault _ _ => true
  | .vectorCommandStart _ => true
  | .vectorCommandDone _ _ => true
  | .messageArrive _ => true
  | .sliceInputStallAlert _ => true
  | .mooringComplete _ _ => true
  | .mailboxSlotFreed _ _ => true
  | .layupRequest _ => true
  | .unmoorOrder _ _ => true
  | .unmoorComplete _ _ => true
  | .idleLimitExpire _ _ => true
  | .shiftComplete _ _ => true
  | .sluiceStamp _ => true
  | .sluiceApply _ => true
  | .groupActivate _ => true
  | .groupReconfigure _ => true
  | .groupResynchronise _ => true
  | .groupDelete _ => true
  | .blockRinse _ _ _ _ => true
  | .patrolScrub _ _ => true
  | .uncorrectableError _ => true
  | .shootdown => true
  | .shootdownDone => true
  | .resumeContext _ => true
  | .resumeEnd _ => true
  | .engactRetry _ _ => true
  | .engactAbandon _ _ => true
  | .operandRecordInvalidate _ => true
  | .keyGenerate _ => true
  | .keyDestroy _ => true
  | .wsLoadingEnter _ => true
  | .wsLoadingLeave _ => true
  | .poolEnable _ _ => true
  | .poolDisable _ _ => true
  | .classRegister _ => true
  | .classWithdraw _ => true
  | .classWithdrawDone _ => true
  | .directoryResume _ => true
  | .journalControl _ => true
  | .registerWrite _ _ => true
  | .add _ _ _ _ => true
  | .sub _ _ _ _ => true
  | .addw _ _ _ _ => true
  | .subw _ _ _ _ => true
  | .mul _ _ _ _ => true
  | .mulh _ _ _ _ => true
  | .mulhz _ _ _ _ => true
  | .mulw _ _ _ _ => true
  | .div _ _ _ _ => true
  | .divz _ _ _ _ => true
  | .rem _ _ _ _ => true
  | .remz _ _ _ _ => true
  | .and _ _ _ _ => true
  | .or _ _ _ _ => true
  | .xor _ _ _ _ => true
  | .andn _ _ _ _ => true
  | .shl _ _ _ _ => true
  | .shr _ _ _ _ => true
  | .shra _ _ _ _ => true
  | .ror _ _ _ _ => true
  | .slt _ _ _ _ => true
  | .sltz _ _ _ _ => true
  | .seq _ _ _ _ => true
  | .sne _ _ _ _ => true
  | .min _ _ _ _ => true
  | .max _ _ _ _ => true
  | .minz _ _ _ _ => true
  | .maxz _ _ _ _ => true
  | .clz _ _ _ => true
  | .ctz _ _ _ => true
  | .popc _ _ _ => true
  | .brev _ _ _ => true
  | .sel _ _ _ _ _ => true
  | .bfxs _ _ p n _ => bfOk p n
  | .bfxz _ _ p n _ => bfOk p n
  | .bfins _ _ _ p n _ => bfOk p n
  | .lea _ _ _ _ _ => true
  | .fadd _ _ _ _ => true
  | .fsub _ _ _ _ => true
  | .fmul _ _ _ _ => true
  | .fdiv _ _ _ _ => true
  | .fmin _ _ _ _ => true
  | .fmax _ _ _ _ => true
  | .fsqrt _ _ _ => true
  | .ffma _ _ _ _ _ => true
  | .flt _ _ _ _ => true
  | .fle _ _ _ _ => true
  | .feq _ _ _ _ => true
  | .fclass _ _ _ => true
  | .fcvtif _ _ _ => true
  | .fcvtifX _ _ fmt _ => fmtInt fmt
  | .fcvtfi _ _ _ => true
  | .fcvtfiX _ _ fmt _ => fmtInt fmt
  | .fcvth _ _ fmt _ _ => fmtNarrow fmt
  | .fcvte _ _ fmt _ => fmtNarrowE fmt
  | .addi _ _ _ _ => true
  | .addiLit _ _ _ _ => true
  | .andi _ _ _ _ => true
  | .andiLit _ _ _ _ => true
  | .ori _ _ _ _ => true
  | .oriLit _ _ _ _ => true
  | .xori _ _ _ _ => true
  | .xoriLit _ _ _ _ => true
  | .shli _ _ imm8 _ => shiftOk8 imm8
  | .shliLit _ _ lit _ => shiftOk64 lit
  | .shri _ _ imm8 _ => shiftOk8 imm8
  | .shriLit _ _ lit _ => shiftOk64 lit
  | .shrai _ _ imm8 _ => shiftOk8 imm8
  | .shraiLit _ _ lit _ => shiftOk64 lit
  | .slti _ _ _ _ => true
  | .sltiLit _ _ _ _ => true
  | .sltzi _ _ _ _ => true
  | .sltziLit _ _ _ _ => true
  | .muli _ _ _ _ => true
  | .muliLit _ _ _ _ => true
  | .li _ _ _ => true
  | .liLit _ _ _ => true
  | .br _ _ => true
  | .beqz _ _ _ => true
  | .bnez _ _ _ => true
  | .bltz _ _ _ => true
  | .bgez _ _ _ => true
  | .beq _ _ _ _ => true
  | .bne _ _ _ _ => true
  | .blt _ _ _ _ => true
  | .blo _ _ _ _ => true
  | .call _ _ => true
  | .callr _ _ _ => true
  | .jmpr _ _ => true
  | .ret _ => true
  | .start _ _ _ _ => true
  | .startX _ _ _ _ w _ _ => windowOk w
  | .startm _ _ => true
  | .startmX _ cls has _ => clsOk cls has
  | .startw _ _ _ => true
  | .startwX _ _ _ _ => true
  | .finish _ => true
  | .fail _ _ => true
  | .idle _ => true
  | .join _ _ _ => true
  | .joinX _ _ imm _ => limitOk imm
  | .joinany _ _ => true
  | .joinanyX _ imm _ => limitOk imm
  | .hstat _ _ _ => true
  | .hstatX _ _ _ => true
  | .popw _ _ _ => true
  | .pushw _ _ _ => true
  | .launch _ _ _ => true
  | .launchX _ _ _ _ => true
  | .lwait _ _ _ => true
  | .lwaitX _ _ _ _ => true
  | .widf _ _ _ _ => true
  | .widr _ _ _ _ => true
  | .mfk _ a _ => regOk a 20
  | .mtk d _ _ => regOk d 20
  | .trap _ _ => true
  | .brk _ => true
  | .sysc _ _ _ => true
  | .eret _ => true
  | .ldb _ _ _ _ => true
  | .ldbLit _ _ _ _ => true
  | .ldbX _ _ _ _ sy _ _ _ => sy != 2#2
  | .ldbXlit _ _ _ _ sy _ _ _ => sy != 2#2
  | .ldbz _ _ _ _ => true
  | .ldbzLit _ _ _ _ => true
  | .ldbzX _ _ _ _ sy _ _ _ => sy != 2#2
  | .ldbzXlit _ _ _ _ sy _ _ _ => sy != 2#2
  | .ldh _ _ _ _ => true
  | .ldhLit _ _ _ _ => true
  | .ldhX _ _ _ _ sy _ _ _ => sy != 2#2
  | .ldhXlit _ _ _ _ sy _ _ _ => sy != 2#2
  | .ldhz _ _ _ _ => true
  | .ldhzLit _ _ _ _ => true
  | .ldhzX _ _ _ _ sy _ _ _ => sy != 2#2
  | .ldhzXlit _ _ _ _ sy _ _ _ => sy != 2#2
  | .ldw _ _ _ _ => true
  | .ldwLit _ _ _ _ => true
  | .ldwX _ _ _ _ sy _ _ _ => sy != 2#2
  | .ldwXlit _ _ _ _ sy _ _ _ => sy != 2#2
  | .ldwz _ _ _ _ => true
  | .ldwzLit _ _ _ _ => true
  | .ldwzX _ _ _ _ sy _ _ _ => sy != 2#2
  | .ldwzXlit _ _ _ _ sy _ _ _ => sy != 2#2
  | .ldd _ _ _ _ => true
  | .lddLit _ _ _ _ => true
  | .lddX _ _ _ _ sy _ _ _ => sy != 2#2
  | .lddXlit _ _ _ _ sy _ _ _ => sy != 2#2
  | .stb _ _ _ _ => true
  | .stbLit _ _ _ _ => true
  | .stbX _ _ _ _ sy _ _ _ => sy != 1#2 && sy != 3#2
  | .stbXlit _ _ _ _ sy _ _ _ => sy != 1#2 && sy != 3#2
  | .sth _ _ _ _ => true
  | .sthLit _ _ _ _ => true
  | .sthX _ _ _ _ sy _ _ _ => sy != 1#2 && sy != 3#2
  | .sthXlit _ _ _ _ sy _ _ _ => sy != 1#2 && sy != 3#2
  | .stw _ _ _ _ => true
  | .stwLit _ _ _ _ => true
  | .stwX _ _ _ _ sy _ _ _ => sy != 1#2 && sy != 3#2
  | .stwXlit _ _ _ _ sy _ _ _ => sy != 1#2 && sy != 3#2
  | .std _ _ _ _ => true
  | .stdLit _ _ _ _ => true
  | .stdX _ _ _ _ sy _ _ _ => sy != 1#2 && sy != 3#2
  | .stdXlit _ _ _ _ sy _ _ _ => sy != 1#2 && sy != 3#2
  | .ldfe _ _ _ => true
  | .ldfeX _ _ _ _ _ _ _ _ => true
  | .ldff _ _ _ => true
  | .ldffX _ _ _ _ _ _ _ _ => true
  | .ldtag _ _ _ => true
  | .ldtagX _ _ _ _ _ _ _ => true
  | .stef _ _ _ _ => true
  | .stefX _ _ _ _ _ _ _ _ => true
  | .stff _ _ _ _ => true
  | .stffX _ _ _ _ _ _ _ _ => true
  | .tclr _ _ => true
  | .tclrX _ _ _ _ _ _ => true
  | .tfill _ _ => true
  | .tfillX _ _ _ _ _ _ => true
  | .aadd _ _ _ _ => true
  | .aaddX _ _ _ _ _ _ _ _ => true
  | .amin _ _ _ _ => true
  | .aminX _ _ _ _ _ _ _ _ => true
  | .amax _ _ _ _ => true
  | .amaxX _ _ _ _ _ _ _ _ => true
  | .aminz _ _ _ _ => true
  | .aminzX _ _ _ _ _ _ _ _ => true
  | .aand _ _ _ _ => true
  | .aandX _ _ _ _ _ _ _ _ => true
  | .aor _ _ _ _ => true
  | .aorX _ _ _ _ _ _ _ _ => true
  | .axor _ _ _ _ => true
  | .axorX _ _ _ _ _ _ _ _ => true
  | .aswp _ _ _ _ => true
  | .aswpX _ _ _ _ _ _ _ _ => true
  | .acas _ _ _ _ => true
  | .acasX _ _ _ _ _ _ _ _ _ => true
  | .aaddf _ _ _ _ => true
  | .aaddfX _ _ _ _ _ _ _ _ => true
  | .amaxf _ _ _ _ => true
  | .amaxfX _ _ _ _ _ _ _ _ => true
  | .ainc _ _ _ _ => true
  | .aincX _ _ _ _ _ _ _ _ => true
  | .fence _ => true
  | .fenceX _ => true
  | .fencelb _ => true
  | .fencelbX _ => true
  | .winwait _ _ _ => true
  | .winwaitX _ _ _ => true
  | .ackwait _ => true
  | .ackwaitX _ => true
  | .acq _ _ _ => true
  | .acqX _ _ _ _ _ => true
  | .rel _ _ _ => true
  | .relX _ _ _ _ _ => true
  | .bind _ _ _ _ => true
  | .bindX _ _ _ _ => true
  | .unbind _ _ => true
  | .unbindX _ _ => true
  | .tlwait a _ _ => regOk a 16
  | .tlwaitX a _ _ => regOk a 16
  | .tlread _ a _ => regOk a 16
  | .tlreadX _ a _ => regOk a 16
  | .tladd _ a _ _ => regOk a 16 && softTl a
  | .tladdX _ a _ _ _ => regOk a 16 && softTl a
  | .qwait _ _ => true
  | .qwaitX _ _ => true
  | .qflip _ => true
  | .qflipX _ => true
  | .qread _ _ => true
  | .qreadX _ _ => true
  | .barc _ _ _ => true
  | .barcX _ _ _ => true
  | .barh _ _ _ => true
  | .barhX _ _ _ => true
  | .pref _ _ => true
  | .prefX _ _ _ => true
  | .cwb _ _ _ => true
  | .cwbX _ _ _ _ => true
  | .cinv _ _ _ => true
  | .cinvX _ _ _ _ => true
  | .vmand d a b _ => regOk d 48 && regOk a 48 && regOk b 48
  | .vmandX d a b fmt _ => regOk d 48 && regOk a 48 && regOk b 48 && fmtMask fmt
  | .vmor d a b _ => regOk d 48 && regOk a 48 && regOk b 48
  | .vmorX d a b fmt _ => regOk d 48 && regOk a 48 && regOk b 48 && fmtMask fmt
  | .vmxor d a b _ => regOk d 48 && regOk a 48 && regOk b 48
  | .vmxorX d a b fmt _ => regOk d 48 && regOk a 48 && regOk b 48 && fmtMask fmt
  | .vmnot d a _ => regOk d 48 && regOk a 48
  | .vmnotX d a fmt _ => regOk d 48 && regOk a 48 && fmtMask fmt
  | .vmpop _ a _ => regOk a 48
  | .vmpopX _ a fmt _ _ => regOk a 48 && fmtOk fmt
  | .vmfirst _ a _ => regOk a 48
  | .vmfirstX _ a fmt _ _ => regOk a 48 && fmtOk fmt
  | .viota d _ => regOk d 48
  | .viotaX d fmt mk mp _ _ => regOk d 48 && fmtInt fmt && maskOk mk mp
  | .vmov d a _ => regOk d 48 && regOk a 48
  | .vmovX d a fmt mk mp _ _ => regOk d 48 && regOk a 48 && fmtOk fmt && maskOk mk mp
  | .vbcast d _ _ => regOk d 48
  | .vbcastX d _ fmt mk mp _ _ => regOk d 48 && fmtOk fmt && maskOk mk mp
  | .vextr _ a _ _ => regOk a 48
  | .vextrX _ a _ fmt _ => regOk a 48 && fmtOk fmt
  | .vins d _ _ _ => regOk d 48
  | .vinsX d _ _ fmt _ => regOk d 48 && fmtOk fmt
  | .vperm d a b _ => regOk d 48 && regOk a 48 && regOk b 48
  | .vpermX d a b fmt mk mp _ _ => regOk d 48 && regOk a 48 && regOk b 48 && fmtOk fmt && maskOk mk mp
  | .vslideu d a _ _ => regOk d 48 && regOk a 48
  | .vslideuX d a _ fmt mk mp _ _ => regOk d 48 && regOk a 48 && fmtOk fmt && maskOk mk mp
  | .vslided d a _ _ => regOk d 48 && regOk a 48
  | .vslidedX d a _ fmt mk mp _ _ => regOk d 48 && regOk a 48 && fmtOk fmt && maskOk mk mp
  | .vcompr d a _ => regOk d 48 && regOk a 48
  | .vcomprX d a fmt _ _ _ => regOk d 48 && regOk a 48 && fmtOk fmt
  | .vexpnd d a _ => regOk d 48 && regOk a 48
  | .vexpndX d a fmt mk mp _ _ => regOk d 48 && regOk a 48 && fmtOk fmt && maskOk mk mp
  | .vredsum _ a _ _ => regOk a 48
  | .vredsumX _ a _ fmt _ _ => regOk a 48 && fmtOk fmt
  | .vredmax _ a _ _ => regOk a 48
  | .vredmaxX _ a _ fmt _ _ => regOk a 48 && fmtOk fmt
  | .vredmin _ a _ _ => regOk a 48
  | .vredminX _ a _ fmt _ _ => regOk a 48 && fmtOk fmt
  | .vld d _ _ => regOk d 48
  | .vldX d _ fmt mk mp _ _ _ _ => regOk d 48 && fmtOk fmt && maskOk mk mp
  | .vst d _ _ => regOk d 48
  | .vstX d _ fmt _ _ _ _ => regOk d 48 && fmtOk fmt
  | .vlds d _ _ _ => regOk d 48
  | .vldsX d _ _ fmt mk mp _ _ _ _ => regOk d 48 && fmtWord fmt && maskOk mk mp
  | .vsts d _ _ _ => regOk d 48
  | .vstsX d _ _ fmt _ _ _ _ => regOk d 48 && fmtWord fmt
  | .vgath d _ b _ => regOk d 48 && regOk b 48
  | .vgathX d _ b fmt mk mp _ _ _ _ => regOk d 48 && regOk b 48 && fmtWord fmt && maskOk mk mp
  | .vscat d _ b _ => regOk d 48 && regOk b 48
  | .vscatX d _ b fmt _ _ _ _ => regOk d 48 && regOk b 48 && fmtWord fmt
  | .vcvtp d a b fmt mk mp _ _ sr _ => regOk d 48 && regOk a 48 && cvtpOk fmt b sr && maskOk mk mp
  | .vcvtu d a b fmt mk mp _ _ sr _ => regOk d 48 && regOk a 48 && cvtuOk fmt b sr && maskOk mk mp
  | .vcvti d a fmt mk mp _ _ _ _ => regOk d 48 && regOk a 48 && fmtEqual fmt && maskOk mk mp
  | .vqscale d a e fmt _ _ _ _ => regOk d 48 && regOk a 48 && regOk e 48 && fmtQ fmt
  | .vtag d _ => regOk d 48
  | .vtagX d fmt _ => regOk d 48 && fmtOk fmt
  | .vtagr _ a _ => regOk a 48
  | .vtagrX _ a _ => regOk a 48
  | .vmerge3 d a b _ => regOk d 48 && regOk a 48 && regOk b 48 && group3 d && group3 a && group3 b
  | .vmerge3X d a b fmt mk mp _ _ => regOk d 48 && regOk a 48 && regOk b 48 && group3 d && group3 a && group3 b && fmtMerge fmt && maskOk mk mp
  | .vsync _ => true
  | .vsyncX _ => true
  | .vadd d a b _ _ _ => regOk d 48 && regOk a 48 && regOk b 48
  | .vaddX d a b _ _ fmt mk mp _ _ => regOk d 48 && regOk a 48 && regOk b 48 && fmtOk fmt && maskOk mk mp
  | .vsub d a b _ _ _ => regOk d 48 && regOk a 48 && regOk b 48
  | .vsubX d a b _ _ fmt mk mp _ _ => regOk d 48 && regOk a 48 && regOk b 48 && fmtOk fmt && maskOk mk mp
  | .vmul d a b _ _ _ => regOk d 48 && regOk a 48 && regOk b 48
  | .vmulX d a b _ _ fmt mk mp _ _ => regOk d 48 && regOk a 48 && regOk b 48 && fmtOk fmt && maskOk mk mp
  | .vfma d a b _ _ _ => regOk d 48 && regOk a 48 && regOk b 48
  | .vfmaX d a b _ _ c _ fmt mk mp _ _ => regOk d 48 && regOk a 48 && regOk b 48 && regOk c 48 && fmtOk fmt && maskOk mk mp
  | .vfnma d a b _ _ _ => regOk d 48 && regOk a 48 && regOk b 48
  | .vfnmaX d a b _ _ c _ fmt mk mp _ _ => regOk d 48 && regOk a 48 && regOk b 48 && regOk c 48 && fmtOk fmt && maskOk mk mp
  | .vmin d a b _ _ _ => regOk d 48 && regOk a 48 && regOk b 48
  | .vminX d a b _ _ fmt mk mp _ _ => regOk d 48 && regOk a 48 && regOk b 48 && fmtOk fmt && maskOk mk mp
  | .vmax d a b _ _ _ => regOk d 48 && regOk a 48 && regOk b 48
  | .vmaxX d a b _ _ fmt mk mp _ _ => regOk d 48 && regOk a 48 && regOk b 48 && fmtOk fmt && maskOk mk mp
  | .vabs d a _ _ => regOk d 48 && regOk a 48
  | .vabsX d a _ fmt mk mp _ _ => regOk d 48 && regOk a 48 && fmtOk fmt && maskOk mk mp
  | .vneg d a _ _ => regOk d 48 && regOk a 48
  | .vnegX d a _ fmt mk mp _ _ => regOk d 48 && regOk a 48 && fmtOk fmt && maskOk mk mp
  | .vrcp d a _ _ => regOk d 48 && regOk a 48
  | .vrcpX d a _ fmt mk mp _ _ => regOk d 48 && regOk a 48 && fmtOk fmt && maskOk mk mp
  | .vrsq d a _ _ => regOk d 48 && regOk a 48
  | .vrsqX d a _ fmt mk mp _ _ => regOk d 48 && regOk a 48 && fmtOk fmt && maskOk mk mp
  | .vexp2 d a _ _ => regOk d 48 && regOk a 48
  | .vexp2X d a _ fmt mk mp _ _ => regOk d 48 && regOk a 48 && fmtOk fmt && maskOk mk mp
  | .vlog2 d a _ _ => regOk d 48 && regOk a 48
  | .vlog2X d a _ fmt mk mp _ _ => regOk d 48 && regOk a 48 && fmtOk fmt && maskOk mk mp
  | .vtanh d a _ _ => regOk d 48 && regOk a 48
  | .vtanhX d a _ fmt mk mp _ _ => regOk d 48 && regOk a 48 && fmtOk fmt && maskOk mk mp
  | .vand d a b _ _ _ => regOk d 48 && regOk a 48 && regOk b 48
  | .vandX d a b _ _ fmt mk mp _ _ => regOk d 48 && regOk a 48 && regOk b 48 && fmtOk fmt && maskOk mk mp
  | .vor d a b _ _ _ => regOk d 48 && regOk a 48 && regOk b 48
  | .vorX d a b _ _ fmt mk mp _ _ => regOk d 48 && regOk a 48 && regOk b 48 && fmtOk fmt && maskOk mk mp
  | .vxor d a b _ _ _ => regOk d 48 && regOk a 48 && regOk b 48
  | .vxorX d a b _ _ fmt mk mp _ _ => regOk d 48 && regOk a 48 && regOk b 48 && fmtOk fmt && maskOk mk mp
  | .vshl d a b _ _ _ => regOk d 48 && regOk a 48 && regOk b 48
  | .vshlX d a b _ _ fmt mk mp _ _ => regOk d 48 && regOk a 48 && regOk b 48 && fmtOk fmt && maskOk mk mp
  | .vshr d a b _ _ _ => regOk d 48 && regOk a 48 && regOk b 48
  | .vshrX d a b _ _ fmt mk mp _ _ => regOk d 48 && regOk a 48 && regOk b 48 && fmtOk fmt && maskOk mk mp
  | .vshra d a b _ _ _ => regOk d 48 && regOk a 48 && regOk b 48
  | .vshraX d a b _ _ fmt mk mp _ _ => regOk d 48 && regOk a 48 && regOk b 48 && fmtOk fmt && maskOk mk mp
  | .vcmpeq d a b _ _ _ => regOk d 48 && regOk a 48 && regOk b 48
  | .vcmpeqX d a b _ _ fmt mk mp _ _ => regOk d 48 && regOk a 48 && regOk b 48 && fmtOk fmt && maskOk mk mp
  | .vcmplt d a b _ _ _ => regOk d 48 && regOk a 48 && regOk b 48
  | .vcmpltX d a b _ _ fmt mk mp _ _ => regOk d 48 && regOk a 48 && regOk b 48 && fmtOk fmt && maskOk mk mp
  | .vcmple d a b _ _ _ => regOk d 48 && regOk a 48 && regOk b 48
  | .vcmpleX d a b _ _ fmt mk mp _ _ => regOk d 48 && regOk a 48 && regOk b 48 && fmtOk fmt && maskOk mk mp
  | .vclaim _ _ _ => true
  | .vreneg _ _ => true
  | .vrelease _ => true
  | .mma d a b c e fmt n as bs _ _ => regOk d 32 && fmtMat fmt && matOp a n as c 1 && matOp b n bs e 1
  | .mmag d a b c e fmt n as bs _ _ => regOk d 32 && fmtMat fmt && matOp a n as c 1 && matOp b n bs e 1 && as == 1#1
  | .mmas d a b c e fmt n as bs _ _ _ => regOk d 32 && fmtMat fmt && matOp a n as c 1 && matOp b n bs e 2
  | .mmax d a b c fmt n as _ _ => regOk d 32 && regOk b 48 && fmtMat fmt && matOp a n as c 1
  | .mmamx d a b c e fmt n as bs _ _ _ _ => regOk d 32 && fmtMx fmt && matOp a n as c 1 && matOp b n bs e 1
  | .mmaws d a b c e fmt n as bs _ _ _ _ => regOk d 32 && fmtMx fmt && matOp a n as c 1 && matOp b n bs e 1
  | .tld d _ _ => regOk d 8
  | .tldX d _ fmt _ _ => regOk d 8 && fmtTile fmt
  | .tst _ _ b _ => regOk b 8
  | .tstX _ _ b fmt _ _ => regOk b 8 && fmtTile fmt
  | .tzero d _ => regOk d 8
  | .tzeroX d fmt _ => regOk d 8 && fmtTile fmt
  | .aclr d _ => regOk d 32
  | .aclrX d _ => regOk d 32
  | .ald d _ _ => regOk d 32
  | .aldX d _ _ _ => regOk d 32
  | .ast _ _ b _ => regOk b 32
  | .astX _ _ b _ _ => regOk b 32
  | .aread d a _ fmt _ => regOk d 48 && regOk a 32 && fmtRead fmt
  | .mdld _ _ _ _ => true
  | .mdldX _ _ _ _ _ => true
  | .scld _ _ _ _ => true
  | .scldX _ _ _ _ _ => true
  | .orld _ _ _ _ => true
  | .orldX _ _ _ _ => true
  | .gangcfg _ _ => true
  | .cpy _ _ _ _ => true
  | .cpyX _ _ _ _ _ _ _ _ => true
  | .cpyt _ _ _ _ => true
  | .cpytX _ _ _ _ _ _ _ _ _ => true
  | .cpyg _ _ _ _ => true
  | .cpygX _ _ _ _ _ fmt _ _ _ _ => fmtIdx fmt
  | .barge _ _ _ _ => true
  | .bargeX _ _ _ _ _ _ _ => true
  | .bargem _ _ _ _ => true
  | .bargemX _ _ _ _ _ _ _ _ _ => true
  | .send _ _ _ => true
  | .sendX _ _ _ _ => true
  | .sendx _ _ _ _ => true
  | .sendxX _ _ _ _ _ => true
  | .msginfo _ _ => true
  | .msginfoX _ _ => true
  | .aidle _ => true
  | .aidleX _ => true
  | .aerase _ _ _ _ => true
  | .aeraseX _ _ _ _ => true
  | .migrate _ _ _ _ => true
  | .migrateX _ _ _ _ _ => true
  | .balloc _ _ _ => true
  | .ballocX _ _ _ _ _ => true
  | .bfree _ _ _ => true
  | .bfreeX _ _ _ => true
  | .bshare _ _ _ _ => true
  | .bshareX _ a _ loose _ => shareOk a loose
  | .btrunc _ _ _ _ => true
  | .btruncX _ _ _ _ => true
  | .bquery _ _ _ => true
  | .bqueryX _ _ _ _ => true
  | .bseqnew _ _ _ _ => true
  | .bseqnewX _ _ _ _ => true
  | .bseqdrop _ _ _ => true
  | .bseqdropX _ _ _ => true
  | .ptx _ _ _ _ => true
  | .ptxX _ _ _ _ => true
  | .ptfill _ _ _ _ => true
  | .ptfillX _ _ _ _ _ => true
  | .ptinv _ _ _ => true
  | .ptinvX _ _ _ => true
  | .attnq _ _ _ => true
  | .attnqX _ _ _ _ _ => true
  | .refwait _ _ _ => true
  | .refwaitX _ _ _ _ => true
  | .mcst _ _ _ _ => true
  | .mcstX _ _ _ _ _ _ _ => true
  | .mcstc _ _ _ _ => true
  | .mcstcX _ _ _ _ _ _ _ _ => true
  | .mcseq _ _ _ => true
  | .mcseqX _ _ _ => true
  | .illegalInstruction _ => true
  | .windowBoundary => true
  | .stretchNoticeArrive _ _ _ => true
  | .launchHandleExpire _ => true
  | .keyZeroiseComplete _ => true
  | .syscResult _ _ _ => true
  | .cleozInterrupt _ => true
  | .timeDomainLeave => true
  | .timeDomainRejoin => true
  | .ethernetPortEnable _ _ => true
  | .fusedMinimumRaise _ => true
  | .rootKeyRevoke => true
  | .corePowerGating _ => true
  | .towlineRouteDown _ => true

end Sys2Proof
end

