-- ==== Sys2Proof/Decode.lean ====
section
/-! DEFINITION. Decoding (R142 to R149, R156, R157), total on any bytes and rejecting by name, and after
it the encoder. Both are written from the encoding tables of the manual. Helpers for byte order and
bit fields stand here too. -/

namespace Sys2Proof

/-- Why some bytes are no instruction. All but `tooShort` are illegal instructions (cause 0x01). -/
inductive DecodeError where
  /-- Fewer bytes than the framing of Table 6.1 asks for. -/
  | tooShort
  /-- A major that Table 6.9 lists as illegal. -/
  | illegalMajor
  /-- A function, or a form, that the major does not permit (R143, R156). -/
  | illegalForm
  /-- A field that the instruction leaves unused is not zero (R143, R148). -/
  | fieldNotZero
  /-- A register number, format, immediate or other operand outside its range. -/
  | illegalOperand
  deriving DecidableEq, Repr

/-- An instruction cut into the fields of R142 and R148. `top` is bits 31:29 of word 1. -/
structure Raw where
  len : BitVec 2 := 0
  st  : St := 0
  op  : BitVec 7 := 0
  d   : R6 := 0
  a   : R6 := 0
  b   : R6 := 0
  f   : BitVec 2 := 0
  c   : R6 := 0
  e   : R6 := 0
  msk : BitVec 3 := 0
  mp  : Bit := 0
  tp  : Bit := 0
  fmt : BitVec 4 := 0
  sc  : BitVec 2 := 0
  od  : BitVec 2 := 0
  sy  : BitVec 2 := 0
  hc  : Bit := 0
  ph  : Bit := 0
  top : BitVec 3 := 0
  imm : W32 := 0
  lit : W64 := 0
  deriving DecidableEq, Repr

/-- The parts of an I-format immediate that lie in F and B (R146), and of the J and G offsets. -/
def hi8 (x : Byte) : BitVec 2 := x.extractLsb' 6 2
def lo8 (x : Byte) : R6 := x.extractLsb' 0 6
def hi14 (x : BitVec 14) : BitVec 2 := x.extractLsb' 12 2
def mid14 (x : BitVec 14) : R6 := x.extractLsb' 6 6
def lo14 (x : BitVec 14) : R6 := x.extractLsb' 0 6
def hi20 (x : BitVec 20) : BitVec 2 := x.extractLsb' 18 2
def b20 (x : BitVec 20) : R6 := x.extractLsb' 12 6
def a20 (x : BitVec 20) : R6 := x.extractLsb' 6 6
def lo20 (x : BitVec 20) : R6 := x.extractLsb' 0 6

/-- The sum of fields, each a position and a value. -/
def packSum : List (Nat × Nat) → Nat
  | [] => 0
  | (p, v) :: l => v * 2 ^ p + packSum l

/-- A 32-bit word made of fields, each a position and a value. -/
def packImm (l : List (Nat × Nat)) : W32 := BitVec.ofNat 32 (packSum l)

/-- Accept `i` when `r` holds nothing outside the fields that `used` keeps. -/
def keep (r used : Raw) (i : Instr) : Except DecodeError Instr :=
  if r = used then .ok i else .error .fieldNotZero


/-- Major 0x01 of Table 6.9. -/
def major01 (r : Raw) : Except DecodeError Instr :=
  match r.len.toNat, r.f.toNat with
  | 0, 0 => keep r { st := r.st, op := r.op, d := r.d, a := r.a, b := r.b } (.add r.d r.a r.b r.st)
  | 0, 1 => keep r { st := r.st, op := r.op, d := r.d, a := r.a, b := r.b, f := r.f } (.sub r.d r.a r.b r.st)
  | 0, 2 => keep r { st := r.st, op := r.op, d := r.d, a := r.a, b := r.b, f := r.f } (.addw r.d r.a r.b r.st)
  | 0, 3 => keep r { st := r.st, op := r.op, d := r.d, a := r.a, b := r.b, f := r.f } (.subw r.d r.a r.b r.st)
  | _, _ => .error .illegalForm

/-- Major 0x02 of Table 6.9. -/
def major02 (r : Raw) : Except DecodeError Instr :=
  match r.len.toNat, r.f.toNat with
  | 0, 0 => keep r { st := r.st, op := r.op, d := r.d, a := r.a, b := r.b } (.mul r.d r.a r.b r.st)
  | 0, 1 => keep r { st := r.st, op := r.op, d := r.d, a := r.a, b := r.b, f := r.f } (.mulh r.d r.a r.b r.st)
  | 0, 2 => keep r { st := r.st, op := r.op, d := r.d, a := r.a, b := r.b, f := r.f } (.mulhz r.d r.a r.b r.st)
  | 0, 3 => keep r { st := r.st, op := r.op, d := r.d, a := r.a, b := r.b, f := r.f } (.mulw r.d r.a r.b r.st)
  | _, _ => .error .illegalForm

/-- Major 0x03 of Table 6.9. -/
def major03 (r : Raw) : Except DecodeError Instr :=
  match r.len.toNat, r.f.toNat with
  | 0, 0 => keep r { st := r.st, op := r.op, d := r.d, a := r.a, b := r.b } (.div r.d r.a r.b r.st)
  | 0, 1 => keep r { st := r.st, op := r.op, d := r.d, a := r.a, b := r.b, f := r.f } (.divz r.d r.a r.b r.st)
  | 0, 2 => keep r { st := r.st, op := r.op, d := r.d, a := r.a, b := r.b, f := r.f } (.rem r.d r.a r.b r.st)
  | 0, 3 => keep r { st := r.st, op := r.op, d := r.d, a := r.a, b := r.b, f := r.f } (.remz r.d r.a r.b r.st)
  | _, _ => .error .illegalForm

/-- Major 0x04 of Table 6.9. -/
def major04 (r : Raw) : Except DecodeError Instr :=
  match r.len.toNat, r.f.toNat with
  | 0, 0 => keep r { st := r.st, op := r.op, d := r.d, a := r.a, b := r.b } (.and r.d r.a r.b r.st)
  | 0, 1 => keep r { st := r.st, op := r.op, d := r.d, a := r.a, b := r.b, f := r.f } (.or r.d r.a r.b r.st)
  | 0, 2 => keep r { st := r.st, op := r.op, d := r.d, a := r.a, b := r.b, f := r.f } (.xor r.d r.a r.b r.st)
  | 0, 3 => keep r { st := r.st, op := r.op, d := r.d, a := r.a, b := r.b, f := r.f } (.andn r.d r.a r.b r.st)
  | _, _ => .error .illegalForm

/-- Major 0x05 of Table 6.9. -/
def major05 (r : Raw) : Except DecodeError Instr :=
  match r.len.toNat, r.f.toNat with
  | 0, 0 => keep r { st := r.st, op := r.op, d := r.d, a := r.a, b := r.b } (.shl r.d r.a r.b r.st)
  | 0, 1 => keep r { st := r.st, op := r.op, d := r.d, a := r.a, b := r.b, f := r.f } (.shr r.d r.a r.b r.st)
  | 0, 2 => keep r { st := r.st, op := r.op, d := r.d, a := r.a, b := r.b, f := r.f } (.shra r.d r.a r.b r.st)
  | 0, 3 => keep r { st := r.st, op := r.op, d := r.d, a := r.a, b := r.b, f := r.f } (.ror r.d r.a r.b r.st)
  | _, _ => .error .illegalForm

/-- Major 0x06 of Table 6.9. -/
def major06 (r : Raw) : Except DecodeError Instr :=
  match r.len.toNat, r.f.toNat with
  | 0, 0 => keep r { st := r.st, op := r.op, d := r.d, a := r.a, b := r.b } (.slt r.d r.a r.b r.st)
  | 0, 1 => keep r { st := r.st, op := r.op, d := r.d, a := r.a, b := r.b, f := r.f } (.sltz r.d r.a r.b r.st)
  | 0, 2 => keep r { st := r.st, op := r.op, d := r.d, a := r.a, b := r.b, f := r.f } (.seq r.d r.a r.b r.st)
  | 0, 3 => keep r { st := r.st, op := r.op, d := r.d, a := r.a, b := r.b, f := r.f } (.sne r.d r.a r.b r.st)
  | _, _ => .error .illegalForm

/-- Major 0x07 of Table 6.9. -/
def major07 (r : Raw) : Except DecodeError Instr :=
  match r.len.toNat, r.f.toNat with
  | 0, 0 => keep r { st := r.st, op := r.op, d := r.d, a := r.a, b := r.b } (.min r.d r.a r.b r.st)
  | 0, 1 => keep r { st := r.st, op := r.op, d := r.d, a := r.a, b := r.b, f := r.f } (.max r.d r.a r.b r.st)
  | 0, 2 => keep r { st := r.st, op := r.op, d := r.d, a := r.a, b := r.b, f := r.f } (.minz r.d r.a r.b r.st)
  | 0, 3 => keep r { st := r.st, op := r.op, d := r.d, a := r.a, b := r.b, f := r.f } (.maxz r.d r.a r.b r.st)
  | _, _ => .error .illegalForm

/-- Major 0x08 of Table 6.9. -/
def major08 (r : Raw) : Except DecodeError Instr :=
  match r.len.toNat, r.f.toNat with
  | 0, 0 => keep r { st := r.st, op := r.op, d := r.d, a := r.a } (.clz r.d r.a r.st)
  | 0, 1 => keep r { st := r.st, op := r.op, d := r.d, a := r.a, f := r.f } (.ctz r.d r.a r.st)
  | 0, 2 => keep r { st := r.st, op := r.op, d := r.d, a := r.a, f := r.f } (.popc r.d r.a r.st)
  | 0, 3 => keep r { st := r.st, op := r.op, d := r.d, a := r.a, f := r.f } (.brev r.d r.a r.st)
  | _, _ => .error .illegalForm

/-- Major 0x09 of Table 6.9. -/
def major09 (r : Raw) : Except DecodeError Instr :=
  match r.len.toNat, r.f.toNat with
  | 1, 0 => keep r { len := r.len, st := r.st, op := r.op, d := r.d, a := r.a, b := r.b, c := r.c } (.sel r.d r.a r.b r.c r.st)
  | _, _ => .error .illegalForm

/-- Major 0x0A of Table 6.9. -/
def major0A (r : Raw) : Except DecodeError Instr :=
  match r.len.toNat, r.f.toNat with
  | 1, 0 => keep r { len := r.len, st := r.st, op := r.op, d := r.d, a := r.a, imm := packImm [(0, (r.imm.extractLsb' 0 6).toNat), (6, (r.imm.extractLsb' 6 7).toNat)] } (.bfxs r.d r.a (r.imm.extractLsb' 0 6) (r.imm.extractLsb' 6 7) r.st)
  | 1, 1 => keep r { len := r.len, st := r.st, op := r.op, d := r.d, a := r.a, f := r.f, imm := packImm [(0, (r.imm.extractLsb' 0 6).toNat), (6, (r.imm.extractLsb' 6 7).toNat)] } (.bfxz r.d r.a (r.imm.extractLsb' 0 6) (r.imm.extractLsb' 6 7) r.st)
  | 1, 2 => keep r { len := r.len, st := r.st, op := r.op, d := r.d, a := r.a, b := r.b, f := r.f, imm := packImm [(0, (r.imm.extractLsb' 0 6).toNat), (6, (r.imm.extractLsb' 6 7).toNat)] } (.bfins r.d r.a r.b (r.imm.extractLsb' 0 6) (r.imm.extractLsb' 6 7) r.st)
  | _, _ => .error .illegalForm

/-- Major 0x0B of Table 6.9. -/
def major0B (r : Raw) : Except DecodeError Instr :=
  match r.len.toNat with
  | 0 => keep r { st := r.st, op := r.op, d := r.d, a := r.a, b := r.b, f := r.f } (.lea r.d r.a r.b r.f r.st)
  | _ => .error .illegalForm

/-- Major 0x0C of Table 6.9. -/
def major0C (r : Raw) : Except DecodeError Instr :=
  match r.len.toNat, r.f.toNat with
  | 0, 0 => keep r { st := r.st, op := r.op, d := r.d, a := r.a, b := r.b } (.fadd r.d r.a r.b r.st)
  | 0, 1 => keep r { st := r.st, op := r.op, d := r.d, a := r.a, b := r.b, f := r.f } (.fsub r.d r.a r.b r.st)
  | 0, 2 => keep r { st := r.st, op := r.op, d := r.d, a := r.a, b := r.b, f := r.f } (.fmul r.d r.a r.b r.st)
  | 0, 3 => keep r { st := r.st, op := r.op, d := r.d, a := r.a, b := r.b, f := r.f } (.fdiv r.d r.a r.b r.st)
  | _, _ => .error .illegalForm

/-- Major 0x0D of Table 6.9. -/
def major0D (r : Raw) : Except DecodeError Instr :=
  match r.len.toNat, r.f.toNat with
  | 0, 0 => keep r { st := r.st, op := r.op, d := r.d, a := r.a, b := r.b } (.fmin r.d r.a r.b r.st)
  | 0, 1 => keep r { st := r.st, op := r.op, d := r.d, a := r.a, b := r.b, f := r.f } (.fmax r.d r.a r.b r.st)
  | 0, 2 => keep r { st := r.st, op := r.op, d := r.d, a := r.a, f := r.f } (.fsqrt r.d r.a r.st)
  | 1, 3 => keep r { len := r.len, st := r.st, op := r.op, d := r.d, a := r.a, b := r.b, f := r.f, c := r.c } (.ffma r.d r.a r.b r.c r.st)
  | _, _ => .error .illegalForm

/-- Major 0x0E of Table 6.9. -/
def major0E (r : Raw) : Except DecodeError Instr :=
  match r.len.toNat, r.f.toNat with
  | 0, 0 => keep r { st := r.st, op := r.op, d := r.d, a := r.a, b := r.b } (.flt r.d r.a r.b r.st)
  | 0, 1 => keep r { st := r.st, op := r.op, d := r.d, a := r.a, b := r.b, f := r.f } (.fle r.d r.a r.b r.st)
  | 0, 2 => keep r { st := r.st, op := r.op, d := r.d, a := r.a, b := r.b, f := r.f } (.feq r.d r.a r.b r.st)
  | 0, 3 => keep r { st := r.st, op := r.op, d := r.d, a := r.a, f := r.f } (.fclass r.d r.a r.st)
  | _, _ => .error .illegalForm

/-- Major 0x0F of Table 6.9. -/
def major0F (r : Raw) : Except DecodeError Instr :=
  match r.len.toNat, r.f.toNat with
  | 0, 0 => keep r { st := r.st, op := r.op, d := r.d, a := r.a } (.fcvtif r.d r.a r.st)
  | 1, 0 => keep r { len := r.len, st := r.st, op := r.op, d := r.d, a := r.a, fmt := r.fmt } (.fcvtifX r.d r.a r.fmt r.st)
  | 0, 1 => keep r { st := r.st, op := r.op, d := r.d, a := r.a, f := r.f } (.fcvtfi r.d r.a r.st)
  | 1, 1 => keep r { len := r.len, st := r.st, op := r.op, d := r.d, a := r.a, f := r.f, fmt := r.fmt } (.fcvtfiX r.d r.a r.fmt r.st)
  | 1, 2 => keep r { len := r.len, st := r.st, op := r.op, d := r.d, a := r.a, f := r.f, fmt := r.fmt, imm := packImm [(30, (r.imm.extractLsb' 30 1).toNat)] } (.fcvth r.d r.a r.fmt (r.imm.extractLsb' 30 1) r.st)
  | 1, 3 => keep r { len := r.len, st := r.st, op := r.op, d := r.d, a := r.a, f := r.f, fmt := r.fmt } (.fcvte r.d r.a r.fmt r.st)
  | _, _ => .error .illegalForm

/-- Major 0x10 of Table 6.9. -/
def major10 (r : Raw) : Except DecodeError Instr :=
  match r.len.toNat with
  | 0 => keep r { st := r.st, op := r.op, d := r.d, a := r.a, b := r.b, f := r.f } (.addi r.d r.a (r.f ++ r.b) r.st)
  | 2 => keep r { len := r.len, st := r.st, op := r.op, d := r.d, a := r.a, lit := r.lit } (.addiLit r.d r.a r.lit r.st)
  | _ => .error .illegalForm

/-- Major 0x11 of Table 6.9. -/
def major11 (r : Raw) : Except DecodeError Instr :=
  match r.len.toNat with
  | 0 => keep r { st := r.st, op := r.op, d := r.d, a := r.a, b := r.b, f := r.f } (.andi r.d r.a (r.f ++ r.b) r.st)
  | 2 => keep r { len := r.len, st := r.st, op := r.op, d := r.d, a := r.a, lit := r.lit } (.andiLit r.d r.a r.lit r.st)
  | _ => .error .illegalForm

/-- Major 0x12 of Table 6.9. -/
def major12 (r : Raw) : Except DecodeError Instr :=
  match r.len.toNat with
  | 0 => keep r { st := r.st, op := r.op, d := r.d, a := r.a, b := r.b, f := r.f } (.ori r.d r.a (r.f ++ r.b) r.st)
  | 2 => keep r { len := r.len, st := r.st, op := r.op, d := r.d, a := r.a, lit := r.lit } (.oriLit r.d r.a r.lit r.st)
  | _ => .error .illegalForm

/-- Major 0x13 of Table 6.9. -/
def major13 (r : Raw) : Except DecodeError Instr :=
  match r.len.toNat with
  | 0 => keep r { st := r.st, op := r.op, d := r.d, a := r.a, b := r.b, f := r.f } (.xori r.d r.a (r.f ++ r.b) r.st)
  | 2 => keep r { len := r.len, st := r.st, op := r.op, d := r.d, a := r.a, lit := r.lit } (.xoriLit r.d r.a r.lit r.st)
  | _ => .error .illegalForm

/-- Major 0x14 of Table 6.9. -/
def major14 (r : Raw) : Except DecodeError Instr :=
  match r.len.toNat with
  | 0 => keep r { st := r.st, op := r.op, d := r.d, a := r.a, b := r.b, f := r.f } (.shli r.d r.a (r.f ++ r.b) r.st)
  | 2 => keep r { len := r.len, st := r.st, op := r.op, d := r.d, a := r.a, lit := r.lit } (.shliLit r.d r.a r.lit r.st)
  | _ => .error .illegalForm

/-- Major 0x15 of Table 6.9. -/
def major15 (r : Raw) : Except DecodeError Instr :=
  match r.len.toNat with
  | 0 => keep r { st := r.st, op := r.op, d := r.d, a := r.a, b := r.b, f := r.f } (.shri r.d r.a (r.f ++ r.b) r.st)
  | 2 => keep r { len := r.len, st := r.st, op := r.op, d := r.d, a := r.a, lit := r.lit } (.shriLit r.d r.a r.lit r.st)
  | _ => .error .illegalForm

/-- Major 0x16 of Table 6.9. -/
def major16 (r : Raw) : Except DecodeError Instr :=
  match r.len.toNat with
  | 0 => keep r { st := r.st, op := r.op, d := r.d, a := r.a, b := r.b, f := r.f } (.shrai r.d r.a (r.f ++ r.b) r.st)
  | 2 => keep r { len := r.len, st := r.st, op := r.op, d := r.d, a := r.a, lit := r.lit } (.shraiLit r.d r.a r.lit r.st)
  | _ => .error .illegalForm

/-- Major 0x17 of Table 6.9. -/
def major17 (r : Raw) : Except DecodeError Instr :=
  match r.len.toNat with
  | 0 => keep r { st := r.st, op := r.op, d := r.d, a := r.a, b := r.b, f := r.f } (.slti r.d r.a (r.f ++ r.b) r.st)
  | 2 => keep r { len := r.len, st := r.st, op := r.op, d := r.d, a := r.a, lit := r.lit } (.sltiLit r.d r.a r.lit r.st)
  | _ => .error .illegalForm

/-- Major 0x18 of Table 6.9. -/
def major18 (r : Raw) : Except DecodeError Instr :=
  match r.len.toNat with
  | 0 => keep r { st := r.st, op := r.op, d := r.d, a := r.a, b := r.b, f := r.f } (.sltzi r.d r.a (r.f ++ r.b) r.st)
  | 2 => keep r { len := r.len, st := r.st, op := r.op, d := r.d, a := r.a, lit := r.lit } (.sltziLit r.d r.a r.lit r.st)
  | _ => .error .illegalForm

/-- Major 0x19 of Table 6.9. -/
def major19 (r : Raw) : Except DecodeError Instr :=
  match r.len.toNat with
  | 0 => keep r { st := r.st, op := r.op, d := r.d, a := r.a, b := r.b, f := r.f } (.muli r.d r.a (r.f ++ r.b) r.st)
  | 2 => keep r { len := r.len, st := r.st, op := r.op, d := r.d, a := r.a, lit := r.lit } (.muliLit r.d r.a r.lit r.st)
  | _ => .error .illegalForm

/-- Major 0x1A of Table 6.9. -/
def major1A (r : Raw) : Except DecodeError Instr :=
  match r.len.toNat with
  | 0 => keep r { st := r.st, op := r.op, d := r.d, a := r.a, b := r.b, f := r.f } (.li r.d (r.f ++ r.b ++ r.a) r.st)
  | 2 => keep r { len := r.len, st := r.st, op := r.op, d := r.d, lit := r.lit } (.liLit r.d r.lit r.st)
  | _ => .error .illegalForm

/-- Major 0x20 of Table 6.9. -/
def major20 (r : Raw) : Except DecodeError Instr :=
  match r.len.toNat with
  | 0 => keep r { st := r.st, op := r.op, d := r.d, a := r.a, b := r.b, f := r.f } (.br (r.f ++ r.b ++ r.a ++ r.d) r.st)
  | _ => .error .illegalForm

/-- Major 0x21 of Table 6.9. -/
def major21 (r : Raw) : Except DecodeError Instr :=
  match r.len.toNat with
  | 0 => keep r { st := r.st, op := r.op, d := r.d, a := r.a, b := r.b, f := r.f } (.beqz r.d (r.f ++ r.b ++ r.a) r.st)
  | _ => .error .illegalForm

/-- Major 0x22 of Table 6.9. -/
def major22 (r : Raw) : Except DecodeError Instr :=
  match r.len.toNat with
  | 0 => keep r { st := r.st, op := r.op, d := r.d, a := r.a, b := r.b, f := r.f } (.bnez r.d (r.f ++ r.b ++ r.a) r.st)
  | _ => .error .illegalForm

/-- Major 0x23 of Table 6.9. -/
def major23 (r : Raw) : Except DecodeError Instr :=
  match r.len.toNat with
  | 0 => keep r { st := r.st, op := r.op, d := r.d, a := r.a, b := r.b, f := r.f } (.bltz r.d (r.f ++ r.b ++ r.a) r.st)
  | _ => .error .illegalForm

/-- Major 0x24 of Table 6.9. -/
def major24 (r : Raw) : Except DecodeError Instr :=
  match r.len.toNat with
  | 0 => keep r { st := r.st, op := r.op, d := r.d, a := r.a, b := r.b, f := r.f } (.bgez r.d (r.f ++ r.b ++ r.a) r.st)
  | _ => .error .illegalForm

/-- Major 0x25 of Table 6.9. -/
def major25 (r : Raw) : Except DecodeError Instr :=
  match r.len.toNat, r.f.toNat with
  | 1, 0 => keep r { len := r.len, st := r.st, op := r.op, a := r.a, b := r.b, imm := r.imm } (.beq r.a r.b r.imm r.st)
  | 1, 1 => keep r { len := r.len, st := r.st, op := r.op, a := r.a, b := r.b, f := r.f, imm := r.imm } (.bne r.a r.b r.imm r.st)
  | 1, 2 => keep r { len := r.len, st := r.st, op := r.op, a := r.a, b := r.b, f := r.f, imm := r.imm } (.blt r.a r.b r.imm r.st)
  | 1, 3 => keep r { len := r.len, st := r.st, op := r.op, a := r.a, b := r.b, f := r.f, imm := r.imm } (.blo r.a r.b r.imm r.st)
  | _, _ => .error .illegalForm

/-- Major 0x26 of Table 6.9. -/
def major26 (r : Raw) : Except DecodeError Instr :=
  match r.len.toNat with
  | 0 => keep r { st := r.st, op := r.op, d := r.d, a := r.a, b := r.b, f := r.f } (.call (r.f ++ r.b ++ r.a ++ r.d) r.st)
  | _ => .error .illegalForm

/-- Major 0x27 of Table 6.9. -/
def major27 (r : Raw) : Except DecodeError Instr :=
  match r.len.toNat, r.f.toNat with
  | 0, 0 => keep r { st := r.st, op := r.op, d := r.d, a := r.a } (.callr r.d r.a r.st)
  | 0, 1 => keep r { st := r.st, op := r.op, a := r.a, f := r.f } (.jmpr r.a r.st)
  | 0, 2 => keep r { st := r.st, op := r.op, f := r.f } (.ret r.st)
  | _, _ => .error .illegalForm

/-- Major 0x28 of Table 6.9. -/
def major28 (r : Raw) : Except DecodeError Instr :=
  match r.len.toNat, r.f.toNat with
  | 0, 0 => keep r { st := r.st, op := r.op, d := r.d, a := r.a, b := r.b } (.start r.d r.a r.b r.st)
  | 1, 0 => keep r { len := r.len, st := r.st, op := r.op, d := r.d, a := r.a, b := r.b, c := r.c, imm := packImm [(0, (r.imm.extractLsb' 0 6).toNat), (8, (r.imm.extractLsb' 8 1).toNat)] } (.startX r.d r.a r.b r.c (r.imm.extractLsb' 0 6) (r.imm.extractLsb' 8 1) r.st)
  | 0, 1 => keep r { st := r.st, op := r.op, d := r.d, f := r.f } (.startm r.d r.st)
  | 1, 1 => keep r { len := r.len, st := r.st, op := r.op, d := r.d, f := r.f, imm := packImm [(0, (r.imm.extractLsb' 0 16).toNat), (16, (r.imm.extractLsb' 16 1).toNat)] } (.startmX r.d (r.imm.extractLsb' 0 16) (r.imm.extractLsb' 16 1) r.st)
  | 0, 2 => keep r { st := r.st, op := r.op, d := r.d, a := r.a, f := r.f } (.startw r.d r.a r.st)
  | 1, 2 => keep r { len := r.len, st := r.st, op := r.op, d := r.d, a := r.a, f := r.f, imm := packImm [(8, (r.imm.extractLsb' 8 1).toNat)] } (.startwX r.d r.a (r.imm.extractLsb' 8 1) r.st)
  | _, _ => .error .illegalForm

/-- Major 0x29 of Table 6.9. -/
def major29 (r : Raw) : Except DecodeError Instr :=
  match r.len.toNat, r.f.toNat with
  | 0, 0 => keep r { st := r.st, op := r.op } (.finish r.st)
  | 0, 1 => keep r { st := r.st, op := r.op, a := r.a, f := r.f } (.fail r.a r.st)
  | 0, 2 => keep r { st := r.st, op := r.op, f := r.f } (.idle r.st)
  | _, _ => .error .illegalForm

/-- Major 0x2A of Table 6.9. -/
def major2A (r : Raw) : Except DecodeError Instr :=
  match r.len.toNat, r.f.toNat with
  | 0, 0 => keep r { st := r.st, op := r.op, d := r.d, a := r.a } (.join r.d r.a r.st)
  | 1, 0 => keep r { len := r.len, st := r.st, op := r.op, d := r.d, a := r.a, imm := r.imm } (.joinX r.d r.a r.imm r.st)
  | 0, 1 => keep r { st := r.st, op := r.op, d := r.d, f := r.f } (.joinany r.d r.st)
  | 1, 1 => keep r { len := r.len, st := r.st, op := r.op, d := r.d, f := r.f, imm := r.imm } (.joinanyX r.d r.imm r.st)
  | 0, 2 => keep r { st := r.st, op := r.op, d := r.d, a := r.a, f := r.f } (.hstat r.d r.a r.st)
  | 1, 2 => keep r { len := r.len, st := r.st, op := r.op, d := r.d, a := r.a, f := r.f } (.hstatX r.d r.a r.st)
  | _, _ => .error .illegalForm

/-- Major 0x2B of Table 6.9. -/
def major2B (r : Raw) : Except DecodeError Instr :=
  match r.len.toNat, r.f.toNat with
  | 0, 0 => keep r { st := r.st, op := r.op, d := r.d, a := r.a } (.popw r.d r.a r.st)
  | 0, 1 => keep r { st := r.st, op := r.op, d := r.d, a := r.a, f := r.f } (.pushw r.d r.a r.st)
  | _, _ => .error .illegalForm

/-- Major 0x2C of Table 6.9. -/
def major2C (r : Raw) : Except DecodeError Instr :=
  match r.len.toNat, r.f.toNat with
  | 0, 0 => keep r { st := r.st, op := r.op, d := r.d, a := r.a } (.launch r.d r.a r.st)
  | 1, 0 => keep r { len := r.len, st := r.st, op := r.op, d := r.d, a := r.a, imm := r.imm } (.launchX r.d r.a r.imm r.st)
  | 0, 1 => keep r { st := r.st, op := r.op, d := r.d, a := r.a, f := r.f } (.lwait r.d r.a r.st)
  | 1, 1 => keep r { len := r.len, st := r.st, op := r.op, d := r.d, a := r.a, f := r.f, e := r.e } (.lwaitX r.d r.a r.e r.st)
  | _, _ => .error .illegalForm

/-- Major 0x2D of Table 6.9. -/
def major2D (r : Raw) : Except DecodeError Instr :=
  match r.len.toNat, r.f.toNat with
  | 0, 0 => keep r { st := r.st, op := r.op, d := r.d, a := r.a, b := r.b } (.widf r.d r.a r.b r.st)
  | 0, 1 => keep r { st := r.st, op := r.op, d := r.d, a := r.a, b := r.b, f := r.f } (.widr r.d r.a r.b r.st)
  | _, _ => .error .illegalForm

/-- Major 0x2E of Table 6.9. -/
def major2E (r : Raw) : Except DecodeError Instr :=
  match r.len.toNat, r.f.toNat with
  | 0, 0 => keep r { st := r.st, op := r.op, d := r.d, a := r.a } (.mfk r.d r.a r.st)
  | 0, 1 => keep r { st := r.st, op := r.op, d := r.d, a := r.a, f := r.f } (.mtk r.d r.a r.st)
  | _, _ => .error .illegalForm

/-- Major 0x2F of Table 6.9. -/
def major2F (r : Raw) : Except DecodeError Instr :=
  match r.len.toNat, r.f.toNat with
  | 0, 0 => keep r { st := r.st, op := r.op, a := r.a } (.trap r.a r.st)
  | 0, 1 => keep r { st := r.st, op := r.op, f := r.f } (.brk r.st)
  | 0, 2 => keep r { st := r.st, op := r.op, d := r.d, a := r.a, f := r.f } (.sysc r.d r.a r.st)
  | 0, 3 => keep r { st := r.st, op := r.op, f := r.f } (.eret r.st)
  | _, _ => .error .illegalForm

/-- Major 0x30 of Table 6.9. -/
def major30 (r : Raw) : Except DecodeError Instr :=
  match r.len.toNat, r.f.toNat with
  | 0, _ => keep r { st := r.st, op := r.op, d := r.d, a := r.a, b := r.b, f := r.f } (.ldb r.d r.a (r.f ++ r.b) r.st)
  | 2, _ => keep r { len := r.len, st := r.st, op := r.op, d := r.d, a := r.a, lit := r.lit } (.ldbLit r.d r.a r.lit r.st)
  | 1, 0 => keep r { len := r.len, st := r.st, op := r.op, d := r.d, a := r.a, sc := r.sc, od := r.od, sy := r.sy, ph := r.ph, imm := r.imm } (.ldbX r.d r.a r.sc r.od r.sy r.ph r.imm r.st)
  | 3, 0 => keep r { len := r.len, st := r.st, op := r.op, d := r.d, a := r.a, sc := r.sc, od := r.od, sy := r.sy, ph := r.ph, lit := r.lit } (.ldbXlit r.d r.a r.sc r.od r.sy r.ph r.lit r.st)
  | _, _ => .error .illegalForm

/-- Major 0x31 of Table 6.9. -/
def major31 (r : Raw) : Except DecodeError Instr :=
  match r.len.toNat, r.f.toNat with
  | 0, _ => keep r { st := r.st, op := r.op, d := r.d, a := r.a, b := r.b, f := r.f } (.ldbz r.d r.a (r.f ++ r.b) r.st)
  | 2, _ => keep r { len := r.len, st := r.st, op := r.op, d := r.d, a := r.a, lit := r.lit } (.ldbzLit r.d r.a r.lit r.st)
  | 1, 0 => keep r { len := r.len, st := r.st, op := r.op, d := r.d, a := r.a, sc := r.sc, od := r.od, sy := r.sy, ph := r.ph, imm := r.imm } (.ldbzX r.d r.a r.sc r.od r.sy r.ph r.imm r.st)
  | 3, 0 => keep r { len := r.len, st := r.st, op := r.op, d := r.d, a := r.a, sc := r.sc, od := r.od, sy := r.sy, ph := r.ph, lit := r.lit } (.ldbzXlit r.d r.a r.sc r.od r.sy r.ph r.lit r.st)
  | _, _ => .error .illegalForm

/-- Major 0x32 of Table 6.9. -/
def major32 (r : Raw) : Except DecodeError Instr :=
  match r.len.toNat, r.f.toNat with
  | 0, _ => keep r { st := r.st, op := r.op, d := r.d, a := r.a, b := r.b, f := r.f } (.ldh r.d r.a (r.f ++ r.b) r.st)
  | 2, _ => keep r { len := r.len, st := r.st, op := r.op, d := r.d, a := r.a, lit := r.lit } (.ldhLit r.d r.a r.lit r.st)
  | 1, 0 => keep r { len := r.len, st := r.st, op := r.op, d := r.d, a := r.a, sc := r.sc, od := r.od, sy := r.sy, ph := r.ph, imm := r.imm } (.ldhX r.d r.a r.sc r.od r.sy r.ph r.imm r.st)
  | 3, 0 => keep r { len := r.len, st := r.st, op := r.op, d := r.d, a := r.a, sc := r.sc, od := r.od, sy := r.sy, ph := r.ph, lit := r.lit } (.ldhXlit r.d r.a r.sc r.od r.sy r.ph r.lit r.st)
  | _, _ => .error .illegalForm

/-- Major 0x33 of Table 6.9. -/
def major33 (r : Raw) : Except DecodeError Instr :=
  match r.len.toNat, r.f.toNat with
  | 0, _ => keep r { st := r.st, op := r.op, d := r.d, a := r.a, b := r.b, f := r.f } (.ldhz r.d r.a (r.f ++ r.b) r.st)
  | 2, _ => keep r { len := r.len, st := r.st, op := r.op, d := r.d, a := r.a, lit := r.lit } (.ldhzLit r.d r.a r.lit r.st)
  | 1, 0 => keep r { len := r.len, st := r.st, op := r.op, d := r.d, a := r.a, sc := r.sc, od := r.od, sy := r.sy, ph := r.ph, imm := r.imm } (.ldhzX r.d r.a r.sc r.od r.sy r.ph r.imm r.st)
  | 3, 0 => keep r { len := r.len, st := r.st, op := r.op, d := r.d, a := r.a, sc := r.sc, od := r.od, sy := r.sy, ph := r.ph, lit := r.lit } (.ldhzXlit r.d r.a r.sc r.od r.sy r.ph r.lit r.st)
  | _, _ => .error .illegalForm

/-- Major 0x34 of Table 6.9. -/
def major34 (r : Raw) : Except DecodeError Instr :=
  match r.len.toNat, r.f.toNat with
  | 0, _ => keep r { st := r.st, op := r.op, d := r.d, a := r.a, b := r.b, f := r.f } (.ldw r.d r.a (r.f ++ r.b) r.st)
  | 2, _ => keep r { len := r.len, st := r.st, op := r.op, d := r.d, a := r.a, lit := r.lit } (.ldwLit r.d r.a r.lit r.st)
  | 1, 0 => keep r { len := r.len, st := r.st, op := r.op, d := r.d, a := r.a, sc := r.sc, od := r.od, sy := r.sy, ph := r.ph, imm := r.imm } (.ldwX r.d r.a r.sc r.od r.sy r.ph r.imm r.st)
  | 3, 0 => keep r { len := r.len, st := r.st, op := r.op, d := r.d, a := r.a, sc := r.sc, od := r.od, sy := r.sy, ph := r.ph, lit := r.lit } (.ldwXlit r.d r.a r.sc r.od r.sy r.ph r.lit r.st)
  | _, _ => .error .illegalForm

/-- Major 0x35 of Table 6.9. -/
def major35 (r : Raw) : Except DecodeError Instr :=
  match r.len.toNat, r.f.toNat with
  | 0, _ => keep r { st := r.st, op := r.op, d := r.d, a := r.a, b := r.b, f := r.f } (.ldwz r.d r.a (r.f ++ r.b) r.st)
  | 2, _ => keep r { len := r.len, st := r.st, op := r.op, d := r.d, a := r.a, lit := r.lit } (.ldwzLit r.d r.a r.lit r.st)
  | 1, 0 => keep r { len := r.len, st := r.st, op := r.op, d := r.d, a := r.a, sc := r.sc, od := r.od, sy := r.sy, ph := r.ph, imm := r.imm } (.ldwzX r.d r.a r.sc r.od r.sy r.ph r.imm r.st)
  | 3, 0 => keep r { len := r.len, st := r.st, op := r.op, d := r.d, a := r.a, sc := r.sc, od := r.od, sy := r.sy, ph := r.ph, lit := r.lit } (.ldwzXlit r.d r.a r.sc r.od r.sy r.ph r.lit r.st)
  | _, _ => .error .illegalForm

/-- Major 0x36 of Table 6.9. -/
def major36 (r : Raw) : Except DecodeError Instr :=
  match r.len.toNat, r.f.toNat with
  | 0, _ => keep r { st := r.st, op := r.op, d := r.d, a := r.a, b := r.b, f := r.f } (.ldd r.d r.a (r.f ++ r.b) r.st)
  | 2, _ => keep r { len := r.len, st := r.st, op := r.op, d := r.d, a := r.a, lit := r.lit } (.lddLit r.d r.a r.lit r.st)
  | 1, 0 => keep r { len := r.len, st := r.st, op := r.op, d := r.d, a := r.a, sc := r.sc, od := r.od, sy := r.sy, ph := r.ph, imm := r.imm } (.lddX r.d r.a r.sc r.od r.sy r.ph r.imm r.st)
  | 3, 0 => keep r { len := r.len, st := r.st, op := r.op, d := r.d, a := r.a, sc := r.sc, od := r.od, sy := r.sy, ph := r.ph, lit := r.lit } (.lddXlit r.d r.a r.sc r.od r.sy r.ph r.lit r.st)
  | _, _ => .error .illegalForm

/-- Major 0x37 of Table 6.9. -/
def major37 (r : Raw) : Except DecodeError Instr :=
  match r.len.toNat, r.f.toNat with
  | 0, _ => keep r { st := r.st, op := r.op, d := r.d, a := r.a, b := r.b, f := r.f } (.stb r.d r.a (r.f ++ r.b) r.st)
  | 2, _ => keep r { len := r.len, st := r.st, op := r.op, d := r.d, a := r.a, lit := r.lit } (.stbLit r.d r.a r.lit r.st)
  | 1, 0 => keep r { len := r.len, st := r.st, op := r.op, d := r.d, a := r.a, sc := r.sc, od := r.od, sy := r.sy, ph := r.ph, imm := r.imm } (.stbX r.d r.a r.sc r.od r.sy r.ph r.imm r.st)
  | 3, 0 => keep r { len := r.len, st := r.st, op := r.op, d := r.d, a := r.a, sc := r.sc, od := r.od, sy := r.sy, ph := r.ph, lit := r.lit } (.stbXlit r.d r.a r.sc r.od r.sy r.ph r.lit r.st)
  | _, _ => .error .illegalForm

/-- Major 0x38 of Table 6.9. -/
noncomputable def major38 (r : Raw) : Except DecodeError Instr :=
  match r.len.toNat, r.f.toNat with
  | 0, _ => keep r { st := r.st, op := r.op, d := r.d, a := r.a, b := r.b, f := r.f } (.sth r.d r.a (r.f ++ r.b) r.st)
  | 2, _ => keep r { len := r.len, st := r.st, op := r.op, d := r.d, a := r.a, lit := r.lit } (.sthLit r.d r.a r.lit r.st)
  | 1, 0 => keep r { len := r.len, st := r.st, op := r.op, d := r.d, a := r.a, sc := r.sc, od := r.od, sy := r.sy, ph := r.ph, imm := r.imm } (.sthX r.d r.a r.sc r.od r.sy r.ph r.imm r.st)
  | 3, 0 => keep r { len := r.len, st := r.st, op := r.op, d := r.d, a := r.a, sc := r.sc, od := r.od, sy := r.sy, ph := r.ph, lit := r.lit } (.sthXlit r.d r.a r.sc r.od r.sy r.ph r.lit r.st)
  | _, _ => .error .illegalForm

/-- Major 0x39 of Table 6.9. -/
noncomputable def major39 (r : Raw) : Except DecodeError Instr :=
  match r.len.toNat, r.f.toNat with
  | 0, _ => keep r { st := r.st, op := r.op, d := r.d, a := r.a, b := r.b, f := r.f } (.stw r.d r.a (r.f ++ r.b) r.st)
  | 2, _ => keep r { len := r.len, st := r.st, op := r.op, d := r.d, a := r.a, lit := r.lit } (.stwLit r.d r.a r.lit r.st)
  | 1, 0 => keep r { len := r.len, st := r.st, op := r.op, d := r.d, a := r.a, sc := r.sc, od := r.od, sy := r.sy, ph := r.ph, imm := r.imm } (.stwX r.d r.a r.sc r.od r.sy r.ph r.imm r.st)
  | 3, 0 => keep r { len := r.len, st := r.st, op := r.op, d := r.d, a := r.a, sc := r.sc, od := r.od, sy := r.sy, ph := r.ph, lit := r.lit } (.stwXlit r.d r.a r.sc r.od r.sy r.ph r.lit r.st)
  | _, _ => .error .illegalForm

/-- Major 0x3A of Table 6.9. -/
noncomputable def major3A (r : Raw) : Except DecodeError Instr :=
  match r.len.toNat, r.f.toNat with
  | 0, _ => keep r { st := r.st, op := r.op, d := r.d, a := r.a, b := r.b, f := r.f } (.std r.d r.a (r.f ++ r.b) r.st)
  | 2, _ => keep r { len := r.len, st := r.st, op := r.op, d := r.d, a := r.a, lit := r.lit } (.stdLit r.d r.a r.lit r.st)
  | 1, 0 => keep r { len := r.len, st := r.st, op := r.op, d := r.d, a := r.a, sc := r.sc, od := r.od, sy := r.sy, ph := r.ph, imm := r.imm } (.stdX r.d r.a r.sc r.od r.sy r.ph r.imm r.st)
  | 3, 0 => keep r { len := r.len, st := r.st, op := r.op, d := r.d, a := r.a, sc := r.sc, od := r.od, sy := r.sy, ph := r.ph, lit := r.lit } (.stdXlit r.d r.a r.sc r.od r.sy r.ph r.lit r.st)
  | _, _ => .error .illegalForm

/-- Major 0x3B of Table 6.9. -/
noncomputable def major3B (r : Raw) : Except DecodeError Instr :=
  match r.len.toNat, r.f.toNat with
  | 0, 0 => keep r { st := r.st, op := r.op, d := r.d, a := r.a } (.ldfe r.d r.a r.st)
  | 1, 0 => keep r { len := r.len, st := r.st, op := r.op, d := r.d, a := r.a, e := r.e, sc := r.sc, od := r.od, ph := r.ph, imm := r.imm } (.ldfeX r.d r.a r.e r.sc r.od r.ph r.imm r.st)
  | 0, 1 => keep r { st := r.st, op := r.op, d := r.d, a := r.a, f := r.f } (.ldff r.d r.a r.st)
  | 1, 1 => keep r { len := r.len, st := r.st, op := r.op, d := r.d, a := r.a, f := r.f, e := r.e, sc := r.sc, od := r.od, ph := r.ph, imm := r.imm } (.ldffX r.d r.a r.e r.sc r.od r.ph r.imm r.st)
  | 0, 2 => keep r { st := r.st, op := r.op, d := r.d, a := r.a, f := r.f } (.ldtag r.d r.a r.st)
  | 1, 2 => keep r { len := r.len, st := r.st, op := r.op, d := r.d, a := r.a, f := r.f, sc := r.sc, od := r.od, ph := r.ph, imm := r.imm } (.ldtagX r.d r.a r.sc r.od r.ph r.imm r.st)
  | _, _ => .error .illegalForm

/-- Major 0x3C of Table 6.9. -/
noncomputable def major3C (r : Raw) : Except DecodeError Instr :=
  match r.len.toNat, r.f.toNat with
  | 0, 0 => keep r { st := r.st, op := r.op, d := r.d, a := r.a, b := r.b } (.stef r.d r.a r.b r.st)
  | 1, 0 => keep r { len := r.len, st := r.st, op := r.op, d := r.d, a := r.a, b := r.b, sc := r.sc, od := r.od, ph := r.ph, imm := r.imm } (.stefX r.d r.a r.b r.sc r.od r.ph r.imm r.st)
  | 0, 1 => keep r { st := r.st, op := r.op, d := r.d, a := r.a, b := r.b, f := r.f } (.stff r.d r.a r.b r.st)
  | 1, 1 => keep r { len := r.len, st := r.st, op := r.op, d := r.d, a := r.a, b := r.b, f := r.f, sc := r.sc, od := r.od, ph := r.ph, imm := r.imm } (.stffX r.d r.a r.b r.sc r.od r.ph r.imm r.st)
  | 0, 2 => keep r { st := r.st, op := r.op, a := r.a, f := r.f } (.tclr r.a r.st)
  | 1, 2 => keep r { len := r.len, st := r.st, op := r.op, a := r.a, f := r.f, sc := r.sc, od := r.od, ph := r.ph, imm := r.imm } (.tclrX r.a r.sc r.od r.ph r.imm r.st)
  | 0, 3 => keep r { st := r.st, op := r.op, a := r.a, f := r.f } (.tfill r.a r.st)
  | 1, 3 => keep r { len := r.len, st := r.st, op := r.op, a := r.a, f := r.f, sc := r.sc, od := r.od, ph := r.ph, imm := r.imm } (.tfillX r.a r.sc r.od r.ph r.imm r.st)
  | _, _ => .error .illegalForm

/-- Major 0x3D of Table 6.9. -/
noncomputable def major3D (r : Raw) : Except DecodeError Instr :=
  match r.len.toNat, r.f.toNat with
  | 0, 0 => keep r { st := r.st, op := r.op, d := r.d, a := r.a, b := r.b } (.aadd r.d r.a r.b r.st)
  | 1, 0 => keep r { len := r.len, st := r.st, op := r.op, d := r.d, a := r.a, b := r.b, sc := r.sc, od := r.od, ph := r.ph, imm := r.imm } (.aaddX r.d r.a r.b r.sc r.od r.ph r.imm r.st)
  | 0, 1 => keep r { st := r.st, op := r.op, d := r.d, a := r.a, b := r.b, f := r.f } (.amin r.d r.a r.b r.st)
  | 1, 1 => keep r { len := r.len, st := r.st, op := r.op, d := r.d, a := r.a, b := r.b, f := r.f, sc := r.sc, od := r.od, ph := r.ph, imm := r.imm } (.aminX r.d r.a r.b r.sc r.od r.ph r.imm r.st)
  | 0, 2 => keep r { st := r.st, op := r.op, d := r.d, a := r.a, b := r.b, f := r.f } (.amax r.d r.a r.b r.st)
  | 1, 2 => keep r { len := r.len, st := r.st, op := r.op, d := r.d, a := r.a, b := r.b, f := r.f, sc := r.sc, od := r.od, ph := r.ph, imm := r.imm } (.amaxX r.d r.a r.b r.sc r.od r.ph r.imm r.st)
  | 0, 3 => keep r { st := r.st, op := r.op, d := r.d, a := r.a, b := r.b, f := r.f } (.aminz r.d r.a r.b r.st)
  | 1, 3 => keep r { len := r.len, st := r.st, op := r.op, d := r.d, a := r.a, b := r.b, f := r.f, sc := r.sc, od := r.od, ph := r.ph, imm := r.imm } (.aminzX r.d r.a r.b r.sc r.od r.ph r.imm r.st)
  | _, _ => .error .illegalForm

/-- Major 0x3E of Table 6.9. -/
noncomputable def major3E (r : Raw) : Except DecodeError Instr :=
  match r.len.toNat, r.f.toNat with
  | 0, 0 => keep r { st := r.st, op := r.op, d := r.d, a := r.a, b := r.b } (.aand r.d r.a r.b r.st)
  | 1, 0 => keep r { len := r.len, st := r.st, op := r.op, d := r.d, a := r.a, b := r.b, sc := r.sc, od := r.od, ph := r.ph, imm := r.imm } (.aandX r.d r.a r.b r.sc r.od r.ph r.imm r.st)
  | 0, 1 => keep r { st := r.st, op := r.op, d := r.d, a := r.a, b := r.b, f := r.f } (.aor r.d r.a r.b r.st)
  | 1, 1 => keep r { len := r.len, st := r.st, op := r.op, d := r.d, a := r.a, b := r.b, f := r.f, sc := r.sc, od := r.od, ph := r.ph, imm := r.imm } (.aorX r.d r.a r.b r.sc r.od r.ph r.imm r.st)
  | 0, 2 => keep r { st := r.st, op := r.op, d := r.d, a := r.a, b := r.b, f := r.f } (.axor r.d r.a r.b r.st)
  | 1, 2 => keep r { len := r.len, st := r.st, op := r.op, d := r.d, a := r.a, b := r.b, f := r.f, sc := r.sc, od := r.od, ph := r.ph, imm := r.imm } (.axorX r.d r.a r.b r.sc r.od r.ph r.imm r.st)
  | 0, 3 => keep r { st := r.st, op := r.op, d := r.d, a := r.a, b := r.b, f := r.f } (.aswp r.d r.a r.b r.st)
  | 1, 3 => keep r { len := r.len, st := r.st, op := r.op, d := r.d, a := r.a, b := r.b, f := r.f, sc := r.sc, od := r.od, ph := r.ph, imm := r.imm } (.aswpX r.d r.a r.b r.sc r.od r.ph r.imm r.st)
  | _, _ => .error .illegalForm

/-- Major 0x3F of Table 6.9. -/
noncomputable def major3F (r : Raw) : Except DecodeError Instr :=
  match r.len.toNat, r.f.toNat with
  | 0, 0 => keep r { st := r.st, op := r.op, d := r.d, a := r.a, b := r.b } (.acas r.d r.a r.b r.st)
  | 1, 0 => keep r { len := r.len, st := r.st, op := r.op, d := r.d, a := r.a, b := r.b, c := r.c, sc := r.sc, od := r.od, ph := r.ph, imm := r.imm } (.acasX r.d r.a r.b r.c r.sc r.od r.ph r.imm r.st)
  | 0, 1 => keep r { st := r.st, op := r.op, d := r.d, a := r.a, b := r.b, f := r.f } (.aaddf r.d r.a r.b r.st)
  | 1, 1 => keep r { len := r.len, st := r.st, op := r.op, d := r.d, a := r.a, b := r.b, f := r.f, sc := r.sc, od := r.od, ph := r.ph, imm := r.imm } (.aaddfX r.d r.a r.b r.sc r.od r.ph r.imm r.st)
  | 0, 2 => keep r { st := r.st, op := r.op, d := r.d, a := r.a, b := r.b, f := r.f } (.amaxf r.d r.a r.b r.st)
  | 1, 2 => keep r { len := r.len, st := r.st, op := r.op, d := r.d, a := r.a, b := r.b, f := r.f, sc := r.sc, od := r.od, ph := r.ph, imm := r.imm } (.amaxfX r.d r.a r.b r.sc r.od r.ph r.imm r.st)
  | 0, 3 => keep r { st := r.st, op := r.op, d := r.d, a := r.a, b := r.b, f := r.f } (.ainc r.d r.a r.b r.st)
  | 1, 3 => keep r { len := r.len, st := r.st, op := r.op, d := r.d, a := r.a, b := r.b, f := r.f, sc := r.sc, od := r.od, ph := r.ph, imm := r.imm } (.aincX r.d r.a r.b r.sc r.od r.ph r.imm r.st)
  | _, _ => .error .illegalForm

/-- Major 0x40 of Table 6.9. -/
noncomputable def major40 (r : Raw) : Except DecodeError Instr :=
  match r.len.toNat, r.f.toNat with
  | 0, 0 => keep r { st := r.st, op := r.op } (.fence r.st)
  | 1, 0 => keep r { len := r.len, st := r.st, op := r.op } (.fenceX r.st)
  | 0, 1 => keep r { st := r.st, op := r.op, f := r.f } (.fencelb r.st)
  | 1, 1 => keep r { len := r.len, st := r.st, op := r.op, f := r.f } (.fencelbX r.st)
  | 0, 2 => keep r { st := r.st, op := r.op, d := r.d, a := r.a, f := r.f } (.winwait r.d r.a r.st)
  | 1, 2 => keep r { len := r.len, st := r.st, op := r.op, d := r.d, a := r.a, f := r.f } (.winwaitX r.d r.a r.st)
  | 0, 3 => keep r { st := r.st, op := r.op, f := r.f } (.ackwait r.st)
  | 1, 3 => keep r { len := r.len, st := r.st, op := r.op, f := r.f } (.ackwaitX r.st)
  | _, _ => .error .illegalForm

/-- Major 0x41 of Table 6.9. -/
noncomputable def major41 (r : Raw) : Except DecodeError Instr :=
  match r.len.toNat, r.f.toNat with
  | 0, 0 => keep r { st := r.st, op := r.op, d := r.d, a := r.a } (.acq r.d r.a r.st)
  | 1, 0 => keep r { len := r.len, st := r.st, op := r.op, d := r.d, a := r.a, sc := r.sc, imm := r.imm } (.acqX r.d r.a r.sc r.imm r.st)
  | 0, 1 => keep r { st := r.st, op := r.op, d := r.d, a := r.a, f := r.f } (.rel r.d r.a r.st)
  | 1, 1 => keep r { len := r.len, st := r.st, op := r.op, d := r.d, a := r.a, f := r.f, sc := r.sc, imm := r.imm } (.relX r.d r.a r.sc r.imm r.st)
  | 0, 2 => keep r { st := r.st, op := r.op, d := r.d, a := r.a, b := r.b, f := r.f } (.bind r.d r.a r.b r.st)
  | 1, 2 => keep r { len := r.len, st := r.st, op := r.op, d := r.d, a := r.a, b := r.b, f := r.f } (.bindX r.d r.a r.b r.st)
  | 0, 3 => keep r { st := r.st, op := r.op, a := r.a, f := r.f } (.unbind r.a r.st)
  | 1, 3 => keep r { len := r.len, st := r.st, op := r.op, a := r.a, f := r.f } (.unbindX r.a r.st)
  | _, _ => .error .illegalForm

/-- Major 0x42 of Table 6.9. -/
noncomputable def major42 (r : Raw) : Except DecodeError Instr :=
  match r.len.toNat, r.f.toNat with
  | 0, 0 => keep r { st := r.st, op := r.op, a := r.a, b := r.b } (.tlwait r.a r.b r.st)
  | 1, 0 => keep r { len := r.len, st := r.st, op := r.op, a := r.a, b := r.b } (.tlwaitX r.a r.b r.st)
  | 0, 1 => keep r { st := r.st, op := r.op, d := r.d, a := r.a, f := r.f } (.tlread r.d r.a r.st)
  | 1, 1 => keep r { len := r.len, st := r.st, op := r.op, d := r.d, a := r.a, f := r.f } (.tlreadX r.d r.a r.st)
  | 0, 2 => keep r { st := r.st, op := r.op, d := r.d, a := r.a, b := r.b, f := r.f } (.tladd r.d r.a r.b r.st)
  | 1, 2 => keep r { len := r.len, st := r.st, op := r.op, d := r.d, a := r.a, b := r.b, f := r.f, sc := r.sc } (.tladdX r.d r.a r.b r.sc r.st)
  | _, _ => .error .illegalForm

/-- Major 0x43 of Table 6.9. -/
noncomputable def major43 (r : Raw) : Except DecodeError Instr :=
  match r.len.toNat, r.f.toNat with
  | 0, 0 => keep r { st := r.st, op := r.op, a := r.a } (.qwait r.a r.st)
  | 1, 0 => keep r { len := r.len, st := r.st, op := r.op, a := r.a } (.qwaitX r.a r.st)
  | 0, 1 => keep r { st := r.st, op := r.op, f := r.f } (.qflip r.st)
  | 1, 1 => keep r { len := r.len, st := r.st, op := r.op, f := r.f } (.qflipX r.st)
  | 0, 2 => keep r { st := r.st, op := r.op, d := r.d, f := r.f } (.qread r.d r.st)
  | 1, 2 => keep r { len := r.len, st := r.st, op := r.op, d := r.d, f := r.f } (.qreadX r.d r.st)
  | _, _ => .error .illegalForm

/-- Major 0x44 of Table 6.9. -/
noncomputable def major44 (r : Raw) : Except DecodeError Instr :=
  match r.len.toNat, r.f.toNat with
  | 0, 0 => keep r { st := r.st, op := r.op, d := r.d, a := r.a } (.barc r.d r.a r.st)
  | 1, 0 => keep r { len := r.len, st := r.st, op := r.op, d := r.d, a := r.a } (.barcX r.d r.a r.st)
  | 0, 1 => keep r { st := r.st, op := r.op, d := r.d, a := r.a, f := r.f } (.barh r.d r.a r.st)
  | 1, 1 => keep r { len := r.len, st := r.st, op := r.op, d := r.d, a := r.a, f := r.f } (.barhX r.d r.a r.st)
  | _, _ => .error .illegalForm

/-- Major 0x45 of Table 6.9. -/
noncomputable def major45 (r : Raw) : Except DecodeError Instr :=
  match r.len.toNat, r.f.toNat with
  | 0, 0 => keep r { st := r.st, op := r.op, a := r.a } (.pref r.a r.st)
  | 1, 0 => keep r { len := r.len, st := r.st, op := r.op, a := r.a, imm := r.imm } (.prefX r.a r.imm r.st)
  | 0, 1 => keep r { st := r.st, op := r.op, a := r.a, b := r.b, f := r.f } (.cwb r.a r.b r.st)
  | 1, 1 => keep r { len := r.len, st := r.st, op := r.op, a := r.a, b := r.b, f := r.f, imm := r.imm } (.cwbX r.a r.b r.imm r.st)
  | 0, 2 => keep r { st := r.st, op := r.op, a := r.a, b := r.b, f := r.f } (.cinv r.a r.b r.st)
  | 1, 2 => keep r { len := r.len, st := r.st, op := r.op, a := r.a, b := r.b, f := r.f, imm := r.imm } (.cinvX r.a r.b r.imm r.st)
  | _, _ => .error .illegalForm

/-- Major 0x46 of Table 6.9. -/
noncomputable def major46 (r : Raw) : Except DecodeError Instr :=
  match r.len.toNat, r.f.toNat with
  | 0, 0 => keep r { st := r.st, op := r.op, d := r.d, a := r.a, b := r.b } (.vmand r.d r.a r.b r.st)
  | 1, 0 => keep r { len := r.len, st := r.st, op := r.op, d := r.d, a := r.a, b := r.b, fmt := r.fmt } (.vmandX r.d r.a r.b r.fmt r.st)
  | 0, 1 => keep r { st := r.st, op := r.op, d := r.d, a := r.a, b := r.b, f := r.f } (.vmor r.d r.a r.b r.st)
  | 1, 1 => keep r { len := r.len, st := r.st, op := r.op, d := r.d, a := r.a, b := r.b, f := r.f, fmt := r.fmt } (.vmorX r.d r.a r.b r.fmt r.st)
  | 0, 2 => keep r { st := r.st, op := r.op, d := r.d, a := r.a, b := r.b, f := r.f } (.vmxor r.d r.a r.b r.st)
  | 1, 2 => keep r { len := r.len, st := r.st, op := r.op, d := r.d, a := r.a, b := r.b, f := r.f, fmt := r.fmt } (.vmxorX r.d r.a r.b r.fmt r.st)
  | 0, 3 => keep r { st := r.st, op := r.op, d := r.d, a := r.a, f := r.f } (.vmnot r.d r.a r.st)
  | 1, 3 => keep r { len := r.len, st := r.st, op := r.op, d := r.d, a := r.a, f := r.f, fmt := r.fmt } (.vmnotX r.d r.a r.fmt r.st)
  | _, _ => .error .illegalForm

/-- Major 0x47 of Table 6.9. -/
noncomputable def major47 (r : Raw) : Except DecodeError Instr :=
  match r.len.toNat, r.f.toNat with
  | 0, 0 => keep r { st := r.st, op := r.op, d := r.d, a := r.a } (.vmpop r.d r.a r.st)
  | 1, 0 => keep r { len := r.len, st := r.st, op := r.op, d := r.d, a := r.a, msk := r.msk, fmt := r.fmt } (.vmpopX r.d r.a r.fmt r.msk r.st)
  | 0, 1 => keep r { st := r.st, op := r.op, d := r.d, a := r.a, f := r.f } (.vmfirst r.d r.a r.st)
  | 1, 1 => keep r { len := r.len, st := r.st, op := r.op, d := r.d, a := r.a, f := r.f, msk := r.msk, fmt := r.fmt } (.vmfirstX r.d r.a r.fmt r.msk r.st)
  | 0, 2 => keep r { st := r.st, op := r.op, d := r.d, f := r.f } (.viota r.d r.st)
  | 1, 2 => keep r { len := r.len, st := r.st, op := r.op, d := r.d, f := r.f, msk := r.msk, mp := r.mp, tp := r.tp, fmt := r.fmt } (.viotaX r.d r.fmt r.msk r.mp r.tp r.st)
  | _, _ => .error .illegalForm

/-- Major 0x48 of Table 6.9. -/
noncomputable def major48 (r : Raw) : Except DecodeError Instr :=
  match r.len.toNat, r.f.toNat with
  | 0, 0 => keep r { st := r.st, op := r.op, d := r.d, a := r.a } (.vmov r.d r.a r.st)
  | 1, 0 => keep r { len := r.len, st := r.st, op := r.op, d := r.d, a := r.a, msk := r.msk, mp := r.mp, tp := r.tp, fmt := r.fmt } (.vmovX r.d r.a r.fmt r.msk r.mp r.tp r.st)
  | 0, 1 => keep r { st := r.st, op := r.op, d := r.d, a := r.a, f := r.f } (.vbcast r.d r.a r.st)
  | 1, 1 => keep r { len := r.len, st := r.st, op := r.op, d := r.d, a := r.a, f := r.f, msk := r.msk, mp := r.mp, tp := r.tp, fmt := r.fmt } (.vbcastX r.d r.a r.fmt r.msk r.mp r.tp r.st)
  | 0, 2 => keep r { st := r.st, op := r.op, d := r.d, a := r.a, b := r.b, f := r.f } (.vextr r.d r.a r.b r.st)
  | 1, 2 => keep r { len := r.len, st := r.st, op := r.op, d := r.d, a := r.a, b := r.b, f := r.f, fmt := r.fmt } (.vextrX r.d r.a r.b r.fmt r.st)
  | 0, 3 => keep r { st := r.st, op := r.op, d := r.d, a := r.a, b := r.b, f := r.f } (.vins r.d r.a r.b r.st)
  | 1, 3 => keep r { len := r.len, st := r.st, op := r.op, d := r.d, a := r.a, b := r.b, f := r.f, fmt := r.fmt } (.vinsX r.d r.a r.b r.fmt r.st)
  | _, _ => .error .illegalForm

/-- Major 0x49 of Table 6.9. -/
noncomputable def major49 (r : Raw) : Except DecodeError Instr :=
  match r.len.toNat, r.f.toNat with
  | 0, 0 => keep r { st := r.st, op := r.op, d := r.d, a := r.a, b := r.b } (.vperm r.d r.a r.b r.st)
  | 1, 0 => keep r { len := r.len, st := r.st, op := r.op, d := r.d, a := r.a, b := r.b, msk := r.msk, mp := r.mp, tp := r.tp, fmt := r.fmt } (.vpermX r.d r.a r.b r.fmt r.msk r.mp r.tp r.st)
  | 0, 1 => keep r { st := r.st, op := r.op, d := r.d, a := r.a, b := r.b, f := r.f } (.vslideu r.d r.a r.b r.st)
  | 1, 1 => keep r { len := r.len, st := r.st, op := r.op, d := r.d, a := r.a, b := r.b, f := r.f, msk := r.msk, mp := r.mp, tp := r.tp, fmt := r.fmt } (.vslideuX r.d r.a r.b r.fmt r.msk r.mp r.tp r.st)
  | 0, 2 => keep r { st := r.st, op := r.op, d := r.d, a := r.a, b := r.b, f := r.f } (.vslided r.d r.a r.b r.st)
  | 1, 2 => keep r { len := r.len, st := r.st, op := r.op, d := r.d, a := r.a, b := r.b, f := r.f, msk := r.msk, mp := r.mp, tp := r.tp, fmt := r.fmt } (.vslidedX r.d r.a r.b r.fmt r.msk r.mp r.tp r.st)
  | _, _ => .error .illegalForm

/-- Major 0x4A of Table 6.9. -/
noncomputable def major4A (r : Raw) : Except DecodeError Instr :=
  match r.len.toNat, r.f.toNat with
  | 0, 0 => keep r { st := r.st, op := r.op, d := r.d, a := r.a } (.vcompr r.d r.a r.st)
  | 1, 0 => keep r { len := r.len, st := r.st, op := r.op, d := r.d, a := r.a, msk := r.msk, tp := r.tp, fmt := r.fmt } (.vcomprX r.d r.a r.fmt r.msk r.tp r.st)
  | 0, 1 => keep r { st := r.st, op := r.op, d := r.d, a := r.a, f := r.f } (.vexpnd r.d r.a r.st)
  | 1, 1 => keep r { len := r.len, st := r.st, op := r.op, d := r.d, a := r.a, f := r.f, msk := r.msk, mp := r.mp, tp := r.tp, fmt := r.fmt } (.vexpndX r.d r.a r.fmt r.msk r.mp r.tp r.st)
  | _, _ => .error .illegalForm

/-- Major 0x4B of Table 6.9. -/
noncomputable def major4B (r : Raw) : Except DecodeError Instr :=
  match r.len.toNat, r.f.toNat with
  | 0, 0 => keep r { st := r.st, op := r.op, d := r.d, a := r.a, b := r.b } (.vredsum r.d r.a r.b r.st)
  | 1, 0 => keep r { len := r.len, st := r.st, op := r.op, d := r.d, a := r.a, b := r.b, msk := r.msk, fmt := r.fmt } (.vredsumX r.d r.a r.b r.fmt r.msk r.st)
  | 0, 1 => keep r { st := r.st, op := r.op, d := r.d, a := r.a, b := r.b, f := r.f } (.vredmax r.d r.a r.b r.st)
  | 1, 1 => keep r { len := r.len, st := r.st, op := r.op, d := r.d, a := r.a, b := r.b, f := r.f, msk := r.msk, fmt := r.fmt } (.vredmaxX r.d r.a r.b r.fmt r.msk r.st)
  | 0, 2 => keep r { st := r.st, op := r.op, d := r.d, a := r.a, b := r.b, f := r.f } (.vredmin r.d r.a r.b r.st)
  | 1, 2 => keep r { len := r.len, st := r.st, op := r.op, d := r.d, a := r.a, b := r.b, f := r.f, msk := r.msk, fmt := r.fmt } (.vredminX r.d r.a r.b r.fmt r.msk r.st)
  | _, _ => .error .illegalForm

/-- Major 0x4C of Table 6.9. -/
noncomputable def major4C (r : Raw) : Except DecodeError Instr :=
  match r.len.toNat, r.f.toNat with
  | 0, 0 => keep r { st := r.st, op := r.op, d := r.d, a := r.a } (.vld r.d r.a r.st)
  | 1, 0 => keep r { len := r.len, st := r.st, op := r.op, d := r.d, a := r.a, msk := r.msk, mp := r.mp, tp := r.tp, fmt := r.fmt, ph := r.ph, imm := r.imm } (.vldX r.d r.a r.fmt r.msk r.mp r.tp r.ph r.imm r.st)
  | 0, 1 => keep r { st := r.st, op := r.op, d := r.d, a := r.a, f := r.f } (.vst r.d r.a r.st)
  | 1, 1 => keep r { len := r.len, st := r.st, op := r.op, d := r.d, a := r.a, f := r.f, msk := r.msk, fmt := r.fmt, ph := r.ph, imm := r.imm } (.vstX r.d r.a r.fmt r.msk r.ph r.imm r.st)
  | 0, 2 => keep r { st := r.st, op := r.op, d := r.d, a := r.a, b := r.b, f := r.f } (.vlds r.d r.a r.b r.st)
  | 1, 2 => keep r { len := r.len, st := r.st, op := r.op, d := r.d, a := r.a, b := r.b, f := r.f, msk := r.msk, mp := r.mp, tp := r.tp, fmt := r.fmt, ph := r.ph, imm := r.imm } (.vldsX r.d r.a r.b r.fmt r.msk r.mp r.tp r.ph r.imm r.st)
  | 0, 3 => keep r { st := r.st, op := r.op, d := r.d, a := r.a, b := r.b, f := r.f } (.vsts r.d r.a r.b r.st)
  | 1, 3 => keep r { len := r.len, st := r.st, op := r.op, d := r.d, a := r.a, b := r.b, f := r.f, msk := r.msk, fmt := r.fmt, ph := r.ph, imm := r.imm } (.vstsX r.d r.a r.b r.fmt r.msk r.ph r.imm r.st)
  | _, _ => .error .illegalForm

/-- Major 0x4D of Table 6.9. -/
noncomputable def major4D (r : Raw) : Except DecodeError Instr :=
  match r.len.toNat, r.f.toNat with
  | 0, 0 => keep r { st := r.st, op := r.op, d := r.d, a := r.a, b := r.b } (.vgath r.d r.a r.b r.st)
  | 1, 0 => keep r { len := r.len, st := r.st, op := r.op, d := r.d, a := r.a, b := r.b, msk := r.msk, mp := r.mp, tp := r.tp, fmt := r.fmt, ph := r.ph, imm := r.imm } (.vgathX r.d r.a r.b r.fmt r.msk r.mp r.tp r.ph r.imm r.st)
  | 0, 1 => keep r { st := r.st, op := r.op, d := r.d, a := r.a, b := r.b, f := r.f } (.vscat r.d r.a r.b r.st)
  | 1, 1 => keep r { len := r.len, st := r.st, op := r.op, d := r.d, a := r.a, b := r.b, f := r.f, msk := r.msk, fmt := r.fmt, ph := r.ph, imm := r.imm } (.vscatX r.d r.a r.b r.fmt r.msk r.ph r.imm r.st)
  | _, _ => .error .illegalForm

/-- Major 0x4E of Table 6.9. -/
noncomputable def major4E (r : Raw) : Except DecodeError Instr :=
  match r.len.toNat, r.f.toNat with
  | 1, 0 => keep r { len := r.len, st := r.st, op := r.op, d := r.d, a := r.a, b := r.b, msk := r.msk, mp := r.mp, tp := r.tp, fmt := r.fmt, imm := packImm [(30, (r.imm.extractLsb' 30 1).toNat), (31, (r.imm.extractLsb' 31 1).toNat)] } (.vcvtp r.d r.a r.b r.fmt r.msk r.mp r.tp (r.imm.extractLsb' 30 1) (r.imm.extractLsb' 31 1) r.st)
  | 1, 1 => keep r { len := r.len, st := r.st, op := r.op, d := r.d, a := r.a, b := r.b, f := r.f, msk := r.msk, mp := r.mp, tp := r.tp, fmt := r.fmt, imm := packImm [(30, (r.imm.extractLsb' 30 1).toNat), (31, (r.imm.extractLsb' 31 1).toNat)] } (.vcvtu r.d r.a r.b r.fmt r.msk r.mp r.tp (r.imm.extractLsb' 30 1) (r.imm.extractLsb' 31 1) r.st)
  | 1, 2 => keep r { len := r.len, st := r.st, op := r.op, d := r.d, a := r.a, f := r.f, msk := r.msk, mp := r.mp, tp := r.tp, fmt := r.fmt, imm := packImm [(30, (r.imm.extractLsb' 30 1).toNat), (31, (r.imm.extractLsb' 31 1).toNat)] } (.vcvti r.d r.a r.fmt r.msk r.mp r.tp (r.imm.extractLsb' 30 1) (r.imm.extractLsb' 31 1) r.st)
  | 1, 3 => keep r { len := r.len, st := r.st, op := r.op, d := r.d, a := r.a, f := r.f, e := r.e, tp := r.tp, fmt := r.fmt, imm := packImm [(30, (r.imm.extractLsb' 30 1).toNat), (31, (r.imm.extractLsb' 31 1).toNat)] } (.vqscale r.d r.a r.e r.fmt r.tp (r.imm.extractLsb' 30 1) (r.imm.extractLsb' 31 1) r.st)
  | _, _ => .error .illegalForm

/-- Major 0x4F of Table 6.9. -/
noncomputable def major4F (r : Raw) : Except DecodeError Instr :=
  match r.len.toNat, r.f.toNat with
  | 0, 0 => keep r { st := r.st, op := r.op, d := r.d } (.vtag r.d r.st)
  | 1, 0 => keep r { len := r.len, st := r.st, op := r.op, d := r.d, fmt := r.fmt } (.vtagX r.d r.fmt r.st)
  | 0, 1 => keep r { st := r.st, op := r.op, d := r.d, a := r.a, f := r.f } (.vtagr r.d r.a r.st)
  | 1, 1 => keep r { len := r.len, st := r.st, op := r.op, d := r.d, a := r.a, f := r.f } (.vtagrX r.d r.a r.st)
  | 0, 2 => keep r { st := r.st, op := r.op, d := r.d, a := r.a, b := r.b, f := r.f } (.vmerge3 r.d r.a r.b r.st)
  | 1, 2 => keep r { len := r.len, st := r.st, op := r.op, d := r.d, a := r.a, b := r.b, f := r.f, msk := r.msk, mp := r.mp, tp := r.tp, fmt := r.fmt } (.vmerge3X r.d r.a r.b r.fmt r.msk r.mp r.tp r.st)
  | 0, 3 => keep r { st := r.st, op := r.op, f := r.f } (.vsync r.st)
  | 1, 3 => keep r { len := r.len, st := r.st, op := r.op, f := r.f } (.vsyncX r.st)
  | _, _ => .error .illegalForm

/-- Major 0x50 of Table 6.9. -/
noncomputable def major50 (r : Raw) : Except DecodeError Instr :=
  match r.len.toNat with
  | 0 => keep r { st := r.st, op := r.op, d := r.d, a := r.a, b := r.b, f := r.f } (.vadd r.d r.a r.b (r.f.extractLsb' 0 1) (r.f.extractLsb' 1 1) r.st)
  | 1 => keep r { len := r.len, st := r.st, op := r.op, d := r.d, a := r.a, b := r.b, f := r.f, msk := r.msk, mp := r.mp, tp := r.tp, fmt := r.fmt } (.vaddX r.d r.a r.b (r.f.extractLsb' 0 1) (r.f.extractLsb' 1 1) r.fmt r.msk r.mp r.tp r.st)
  | _ => .error .illegalForm

/-- Major 0x51 of Table 6.9. -/
noncomputable def major51 (r : Raw) : Except DecodeError Instr :=
  match r.len.toNat with
  | 0 => keep r { st := r.st, op := r.op, d := r.d, a := r.a, b := r.b, f := r.f } (.vsub r.d r.a r.b (r.f.extractLsb' 0 1) (r.f.extractLsb' 1 1) r.st)
  | 1 => keep r { len := r.len, st := r.st, op := r.op, d := r.d, a := r.a, b := r.b, f := r.f, msk := r.msk, mp := r.mp, tp := r.tp, fmt := r.fmt } (.vsubX r.d r.a r.b (r.f.extractLsb' 0 1) (r.f.extractLsb' 1 1) r.fmt r.msk r.mp r.tp r.st)
  | _ => .error .illegalForm

/-- Major 0x52 of Table 6.9. -/
noncomputable def major52 (r : Raw) : Except DecodeError Instr :=
  match r.len.toNat with
  | 0 => keep r { st := r.st, op := r.op, d := r.d, a := r.a, b := r.b, f := r.f } (.vmul r.d r.a r.b (r.f.extractLsb' 0 1) (r.f.extractLsb' 1 1) r.st)
  | 1 => keep r { len := r.len, st := r.st, op := r.op, d := r.d, a := r.a, b := r.b, f := r.f, msk := r.msk, mp := r.mp, tp := r.tp, fmt := r.fmt } (.vmulX r.d r.a r.b (r.f.extractLsb' 0 1) (r.f.extractLsb' 1 1) r.fmt r.msk r.mp r.tp r.st)
  | _ => .error .illegalForm

/-- Major 0x53 of Table 6.9. -/
noncomputable def major53 (r : Raw) : Except DecodeError Instr :=
  match r.len.toNat with
  | 0 => keep r { st := r.st, op := r.op, d := r.d, a := r.a, b := r.b, f := r.f } (.vfma r.d r.a r.b (r.f.extractLsb' 0 1) (r.f.extractLsb' 1 1) r.st)
  | 1 => keep r { len := r.len, st := r.st, op := r.op, d := r.d, a := r.a, b := r.b, f := r.f, c := r.c, msk := r.msk, mp := r.mp, tp := r.tp, fmt := r.fmt, hc := r.hc } (.vfmaX r.d r.a r.b (r.f.extractLsb' 0 1) (r.f.extractLsb' 1 1) r.c r.hc r.fmt r.msk r.mp r.tp r.st)
  | _ => .error .illegalForm

/-- Major 0x54 of Table 6.9. -/
noncomputable def major54 (r : Raw) : Except DecodeError Instr :=
  match r.len.toNat with
  | 0 => keep r { st := r.st, op := r.op, d := r.d, a := r.a, b := r.b, f := r.f } (.vfnma r.d r.a r.b (r.f.extractLsb' 0 1) (r.f.extractLsb' 1 1) r.st)
  | 1 => keep r { len := r.len, st := r.st, op := r.op, d := r.d, a := r.a, b := r.b, f := r.f, c := r.c, msk := r.msk, mp := r.mp, tp := r.tp, fmt := r.fmt, hc := r.hc } (.vfnmaX r.d r.a r.b (r.f.extractLsb' 0 1) (r.f.extractLsb' 1 1) r.c r.hc r.fmt r.msk r.mp r.tp r.st)
  | _ => .error .illegalForm

/-- Major 0x55 of Table 6.9. -/
noncomputable def major55 (r : Raw) : Except DecodeError Instr :=
  match r.len.toNat with
  | 0 => keep r { st := r.st, op := r.op, d := r.d, a := r.a, b := r.b, f := r.f } (.vmin r.d r.a r.b (r.f.extractLsb' 0 1) (r.f.extractLsb' 1 1) r.st)
  | 1 => keep r { len := r.len, st := r.st, op := r.op, d := r.d, a := r.a, b := r.b, f := r.f, msk := r.msk, mp := r.mp, tp := r.tp, fmt := r.fmt } (.vminX r.d r.a r.b (r.f.extractLsb' 0 1) (r.f.extractLsb' 1 1) r.fmt r.msk r.mp r.tp r.st)
  | _ => .error .illegalForm

/-- Major 0x56 of Table 6.9. -/
noncomputable def major56 (r : Raw) : Except DecodeError Instr :=
  match r.len.toNat with
  | 0 => keep r { st := r.st, op := r.op, d := r.d, a := r.a, b := r.b, f := r.f } (.vmax r.d r.a r.b (r.f.extractLsb' 0 1) (r.f.extractLsb' 1 1) r.st)
  | 1 => keep r { len := r.len, st := r.st, op := r.op, d := r.d, a := r.a, b := r.b, f := r.f, msk := r.msk, mp := r.mp, tp := r.tp, fmt := r.fmt } (.vmaxX r.d r.a r.b (r.f.extractLsb' 0 1) (r.f.extractLsb' 1 1) r.fmt r.msk r.mp r.tp r.st)
  | _ => .error .illegalForm

/-- Major 0x57 of Table 6.9. -/
noncomputable def major57 (r : Raw) : Except DecodeError Instr :=
  match r.len.toNat with
  | 0 => keep r { st := r.st, op := r.op, d := r.d, a := r.a, f := 0#1 ++ r.f.extractLsb' 0 1 } (.vabs r.d r.a (r.f.extractLsb' 0 1) r.st)
  | 1 => keep r { len := r.len, st := r.st, op := r.op, d := r.d, a := r.a, f := 0#1 ++ r.f.extractLsb' 0 1, msk := r.msk, mp := r.mp, tp := r.tp, fmt := r.fmt } (.vabsX r.d r.a (r.f.extractLsb' 0 1) r.fmt r.msk r.mp r.tp r.st)
  | _ => .error .illegalForm

/-- Major 0x58 of Table 6.9. -/
noncomputable def major58 (r : Raw) : Except DecodeError Instr :=
  match r.len.toNat with
  | 0 => keep r { st := r.st, op := r.op, d := r.d, a := r.a, f := 0#1 ++ r.f.extractLsb' 0 1 } (.vneg r.d r.a (r.f.extractLsb' 0 1) r.st)
  | 1 => keep r { len := r.len, st := r.st, op := r.op, d := r.d, a := r.a, f := 0#1 ++ r.f.extractLsb' 0 1, msk := r.msk, mp := r.mp, tp := r.tp, fmt := r.fmt } (.vnegX r.d r.a (r.f.extractLsb' 0 1) r.fmt r.msk r.mp r.tp r.st)
  | _ => .error .illegalForm

/-- Major 0x59 of Table 6.9. -/
noncomputable def major59 (r : Raw) : Except DecodeError Instr :=
  match r.len.toNat with
  | 0 => keep r { st := r.st, op := r.op, d := r.d, a := r.a, f := 0#1 ++ r.f.extractLsb' 0 1 } (.vrcp r.d r.a (r.f.extractLsb' 0 1) r.st)
  | 1 => keep r { len := r.len, st := r.st, op := r.op, d := r.d, a := r.a, f := 0#1 ++ r.f.extractLsb' 0 1, msk := r.msk, mp := r.mp, tp := r.tp, fmt := r.fmt } (.vrcpX r.d r.a (r.f.extractLsb' 0 1) r.fmt r.msk r.mp r.tp r.st)
  | _ => .error .illegalForm

/-- Major 0x5A of Table 6.9. -/
noncomputable def major5A (r : Raw) : Except DecodeError Instr :=
  match r.len.toNat with
  | 0 => keep r { st := r.st, op := r.op, d := r.d, a := r.a, f := 0#1 ++ r.f.extractLsb' 0 1 } (.vrsq r.d r.a (r.f.extractLsb' 0 1) r.st)
  | 1 => keep r { len := r.len, st := r.st, op := r.op, d := r.d, a := r.a, f := 0#1 ++ r.f.extractLsb' 0 1, msk := r.msk, mp := r.mp, tp := r.tp, fmt := r.fmt } (.vrsqX r.d r.a (r.f.extractLsb' 0 1) r.fmt r.msk r.mp r.tp r.st)
  | _ => .error .illegalForm

/-- Major 0x5B of Table 6.9. -/
noncomputable def major5B (r : Raw) : Except DecodeError Instr :=
  match r.len.toNat with
  | 0 => keep r { st := r.st, op := r.op, d := r.d, a := r.a, f := 0#1 ++ r.f.extractLsb' 0 1 } (.vexp2 r.d r.a (r.f.extractLsb' 0 1) r.st)
  | 1 => keep r { len := r.len, st := r.st, op := r.op, d := r.d, a := r.a, f := 0#1 ++ r.f.extractLsb' 0 1, msk := r.msk, mp := r.mp, tp := r.tp, fmt := r.fmt } (.vexp2X r.d r.a (r.f.extractLsb' 0 1) r.fmt r.msk r.mp r.tp r.st)
  | _ => .error .illegalForm

/-- Major 0x5C of Table 6.9. -/
noncomputable def major5C (r : Raw) : Except DecodeError Instr :=
  match r.len.toNat with
  | 0 => keep r { st := r.st, op := r.op, d := r.d, a := r.a, f := 0#1 ++ r.f.extractLsb' 0 1 } (.vlog2 r.d r.a (r.f.extractLsb' 0 1) r.st)
  | 1 => keep r { len := r.len, st := r.st, op := r.op, d := r.d, a := r.a, f := 0#1 ++ r.f.extractLsb' 0 1, msk := r.msk, mp := r.mp, tp := r.tp, fmt := r.fmt } (.vlog2X r.d r.a (r.f.extractLsb' 0 1) r.fmt r.msk r.mp r.tp r.st)
  | _ => .error .illegalForm

/-- Major 0x5D of Table 6.9. -/
noncomputable def major5D (r : Raw) : Except DecodeError Instr :=
  match r.len.toNat with
  | 0 => keep r { st := r.st, op := r.op, d := r.d, a := r.a, f := 0#1 ++ r.f.extractLsb' 0 1 } (.vtanh r.d r.a (r.f.extractLsb' 0 1) r.st)
  | 1 => keep r { len := r.len, st := r.st, op := r.op, d := r.d, a := r.a, f := 0#1 ++ r.f.extractLsb' 0 1, msk := r.msk, mp := r.mp, tp := r.tp, fmt := r.fmt } (.vtanhX r.d r.a (r.f.extractLsb' 0 1) r.fmt r.msk r.mp r.tp r.st)
  | _ => .error .illegalForm

/-- Major 0x5E of Table 6.9. -/
noncomputable def major5E (r : Raw) : Except DecodeError Instr :=
  match r.len.toNat with
  | 0 => keep r { st := r.st, op := r.op, d := r.d, a := r.a, b := r.b, f := r.f } (.vand r.d r.a r.b (r.f.extractLsb' 0 1) (r.f.extractLsb' 1 1) r.st)
  | 1 => keep r { len := r.len, st := r.st, op := r.op, d := r.d, a := r.a, b := r.b, f := r.f, msk := r.msk, mp := r.mp, tp := r.tp, fmt := r.fmt } (.vandX r.d r.a r.b (r.f.extractLsb' 0 1) (r.f.extractLsb' 1 1) r.fmt r.msk r.mp r.tp r.st)
  | _ => .error .illegalForm

/-- Major 0x5F of Table 6.9. -/
noncomputable def major5F (r : Raw) : Except DecodeError Instr :=
  match r.len.toNat with
  | 0 => keep r { st := r.st, op := r.op, d := r.d, a := r.a, b := r.b, f := r.f } (.vor r.d r.a r.b (r.f.extractLsb' 0 1) (r.f.extractLsb' 1 1) r.st)
  | 1 => keep r { len := r.len, st := r.st, op := r.op, d := r.d, a := r.a, b := r.b, f := r.f, msk := r.msk, mp := r.mp, tp := r.tp, fmt := r.fmt } (.vorX r.d r.a r.b (r.f.extractLsb' 0 1) (r.f.extractLsb' 1 1) r.fmt r.msk r.mp r.tp r.st)
  | _ => .error .illegalForm

/-- Major 0x60 of Table 6.9. -/
noncomputable def major60 (r : Raw) : Except DecodeError Instr :=
  match r.len.toNat with
  | 0 => keep r { st := r.st, op := r.op, d := r.d, a := r.a, b := r.b, f := r.f } (.vxor r.d r.a r.b (r.f.extractLsb' 0 1) (r.f.extractLsb' 1 1) r.st)
  | 1 => keep r { len := r.len, st := r.st, op := r.op, d := r.d, a := r.a, b := r.b, f := r.f, msk := r.msk, mp := r.mp, tp := r.tp, fmt := r.fmt } (.vxorX r.d r.a r.b (r.f.extractLsb' 0 1) (r.f.extractLsb' 1 1) r.fmt r.msk r.mp r.tp r.st)
  | _ => .error .illegalForm

/-- Major 0x61 of Table 6.9. -/
noncomputable def major61 (r : Raw) : Except DecodeError Instr :=
  match r.len.toNat with
  | 0 => keep r { st := r.st, op := r.op, d := r.d, a := r.a, b := r.b, f := r.f } (.vshl r.d r.a r.b (r.f.extractLsb' 0 1) (r.f.extractLsb' 1 1) r.st)
  | 1 => keep r { len := r.len, st := r.st, op := r.op, d := r.d, a := r.a, b := r.b, f := r.f, msk := r.msk, mp := r.mp, tp := r.tp, fmt := r.fmt } (.vshlX r.d r.a r.b (r.f.extractLsb' 0 1) (r.f.extractLsb' 1 1) r.fmt r.msk r.mp r.tp r.st)
  | _ => .error .illegalForm

/-- Major 0x62 of Table 6.9. -/
noncomputable def major62 (r : Raw) : Except DecodeError Instr :=
  match r.len.toNat with
  | 0 => keep r { st := r.st, op := r.op, d := r.d, a := r.a, b := r.b, f := r.f } (.vshr r.d r.a r.b (r.f.extractLsb' 0 1) (r.f.extractLsb' 1 1) r.st)
  | 1 => keep r { len := r.len, st := r.st, op := r.op, d := r.d, a := r.a, b := r.b, f := r.f, msk := r.msk, mp := r.mp, tp := r.tp, fmt := r.fmt } (.vshrX r.d r.a r.b (r.f.extractLsb' 0 1) (r.f.extractLsb' 1 1) r.fmt r.msk r.mp r.tp r.st)
  | _ => .error .illegalForm

/-- Major 0x63 of Table 6.9. -/
noncomputable def major63 (r : Raw) : Except DecodeError Instr :=
  match r.len.toNat with
  | 0 => keep r { st := r.st, op := r.op, d := r.d, a := r.a, b := r.b, f := r.f } (.vshra r.d r.a r.b (r.f.extractLsb' 0 1) (r.f.extractLsb' 1 1) r.st)
  | 1 => keep r { len := r.len, st := r.st, op := r.op, d := r.d, a := r.a, b := r.b, f := r.f, msk := r.msk, mp := r.mp, tp := r.tp, fmt := r.fmt } (.vshraX r.d r.a r.b (r.f.extractLsb' 0 1) (r.f.extractLsb' 1 1) r.fmt r.msk r.mp r.tp r.st)
  | _ => .error .illegalForm

/-- Major 0x64 of Table 6.9. -/
noncomputable def major64 (r : Raw) : Except DecodeError Instr :=
  match r.len.toNat with
  | 0 => keep r { st := r.st, op := r.op, d := r.d, a := r.a, b := r.b, f := r.f } (.vcmpeq r.d r.a r.b (r.f.extractLsb' 0 1) (r.f.extractLsb' 1 1) r.st)
  | 1 => keep r { len := r.len, st := r.st, op := r.op, d := r.d, a := r.a, b := r.b, f := r.f, msk := r.msk, mp := r.mp, tp := r.tp, fmt := r.fmt } (.vcmpeqX r.d r.a r.b (r.f.extractLsb' 0 1) (r.f.extractLsb' 1 1) r.fmt r.msk r.mp r.tp r.st)
  | _ => .error .illegalForm

/-- Major 0x65 of Table 6.9. -/
noncomputable def major65 (r : Raw) : Except DecodeError Instr :=
  match r.len.toNat with
  | 0 => keep r { st := r.st, op := r.op, d := r.d, a := r.a, b := r.b, f := r.f } (.vcmplt r.d r.a r.b (r.f.extractLsb' 0 1) (r.f.extractLsb' 1 1) r.st)
  | 1 => keep r { len := r.len, st := r.st, op := r.op, d := r.d, a := r.a, b := r.b, f := r.f, msk := r.msk, mp := r.mp, tp := r.tp, fmt := r.fmt } (.vcmpltX r.d r.a r.b (r.f.extractLsb' 0 1) (r.f.extractLsb' 1 1) r.fmt r.msk r.mp r.tp r.st)
  | _ => .error .illegalForm

/-- Major 0x66 of Table 6.9. -/
noncomputable def major66 (r : Raw) : Except DecodeError Instr :=
  match r.len.toNat with
  | 0 => keep r { st := r.st, op := r.op, d := r.d, a := r.a, b := r.b, f := r.f } (.vcmple r.d r.a r.b (r.f.extractLsb' 0 1) (r.f.extractLsb' 1 1) r.st)
  | 1 => keep r { len := r.len, st := r.st, op := r.op, d := r.d, a := r.a, b := r.b, f := r.f, msk := r.msk, mp := r.mp, tp := r.tp, fmt := r.fmt } (.vcmpleX r.d r.a r.b (r.f.extractLsb' 0 1) (r.f.extractLsb' 1 1) r.fmt r.msk r.mp r.tp r.st)
  | _ => .error .illegalForm

/-- Major 0x67 of Table 6.9. -/
noncomputable def major67 (r : Raw) : Except DecodeError Instr :=
  match r.len.toNat, r.f.toNat with
  | 0, 0 => keep r { st := r.st, op := r.op, d := r.d, a := r.a } (.vclaim r.d r.a r.st)
  | 0, 1 => keep r { st := r.st, op := r.op, d := r.d, f := r.f } (.vreneg r.d r.st)
  | 0, 2 => keep r { st := r.st, op := r.op, f := r.f } (.vrelease r.st)
  | _, _ => .error .illegalForm

/-- Major 0x68 of Table 6.9. -/
noncomputable def major68 (r : Raw) : Except DecodeError Instr :=
  match r.len.toNat, r.f.toNat with
  | 1, 0 => keep r { len := r.len, st := r.st, op := r.op, d := r.d, a := r.a, b := r.b, c := r.c, e := r.e, fmt := r.fmt, imm := packImm [(0, (r.imm.extractLsb' 0 8).toNat), (8, (r.imm.extractLsb' 8 1).toNat), (9, (r.imm.extractLsb' 9 1).toNat), (29, (r.imm.extractLsb' 29 1).toNat)] } (.mma r.d r.a r.b r.c r.e r.fmt (r.imm.extractLsb' 0 8) (r.imm.extractLsb' 8 1) (r.imm.extractLsb' 9 1) (r.imm.extractLsb' 29 1) r.st)
  | 1, 1 => keep r { len := r.len, st := r.st, op := r.op, d := r.d, a := r.a, b := r.b, f := r.f, c := r.c, e := r.e, fmt := r.fmt, imm := packImm [(0, (r.imm.extractLsb' 0 8).toNat), (8, (r.imm.extractLsb' 8 1).toNat), (9, (r.imm.extractLsb' 9 1).toNat), (29, (r.imm.extractLsb' 29 1).toNat)] } (.mmag r.d r.a r.b r.c r.e r.fmt (r.imm.extractLsb' 0 8) (r.imm.extractLsb' 8 1) (r.imm.extractLsb' 9 1) (r.imm.extractLsb' 29 1) r.st)
  | _, _ => .error .illegalForm

/-- Major 0x69 of Table 6.9. -/
noncomputable def major69 (r : Raw) : Except DecodeError Instr :=
  match r.len.toNat, r.f.toNat with
  | 1, 0 => keep r { len := r.len, st := r.st, op := r.op, d := r.d, a := r.a, b := r.b, c := r.c, e := r.e, fmt := r.fmt, imm := packImm [(0, (r.imm.extractLsb' 0 8).toNat), (8, (r.imm.extractLsb' 8 1).toNat), (9, (r.imm.extractLsb' 9 1).toNat), (10, (r.imm.extractLsb' 10 6).toNat), (29, (r.imm.extractLsb' 29 1).toNat)] } (.mmas r.d r.a r.b r.c r.e r.fmt (r.imm.extractLsb' 0 8) (r.imm.extractLsb' 8 1) (r.imm.extractLsb' 9 1) (r.imm.extractLsb' 10 6) (r.imm.extractLsb' 29 1) r.st)
  | 1, 1 => keep r { len := r.len, st := r.st, op := r.op, d := r.d, a := r.a, b := r.b, f := r.f, c := r.c, fmt := r.fmt, imm := packImm [(0, (r.imm.extractLsb' 0 8).toNat), (8, (r.imm.extractLsb' 8 1).toNat), (29, (r.imm.extractLsb' 29 1).toNat)] } (.mmax r.d r.a r.b r.c r.fmt (r.imm.extractLsb' 0 8) (r.imm.extractLsb' 8 1) (r.imm.extractLsb' 29 1) r.st)
  | _, _ => .error .illegalForm

/-- Major 0x6A of Table 6.9. -/
noncomputable def major6A (r : Raw) : Except DecodeError Instr :=
  match r.len.toNat, r.f.toNat with
  | 1, 0 => keep r { len := r.len, st := r.st, op := r.op, d := r.d, a := r.a, b := r.b, c := r.c, e := r.e, fmt := r.fmt, imm := packImm [(0, (r.imm.extractLsb' 0 8).toNat), (8, (r.imm.extractLsb' 8 1).toNat), (9, (r.imm.extractLsb' 9 1).toNat), (10, (r.imm.extractLsb' 10 7).toNat), (17, (r.imm.extractLsb' 17 7).toNat), (29, (r.imm.extractLsb' 29 1).toNat)] } (.mmamx r.d r.a r.b r.c r.e r.fmt (r.imm.extractLsb' 0 8) (r.imm.extractLsb' 8 1) (r.imm.extractLsb' 9 1) (r.imm.extractLsb' 10 7) (r.imm.extractLsb' 17 7) (r.imm.extractLsb' 29 1) r.st)
  | 1, 1 => keep r { len := r.len, st := r.st, op := r.op, d := r.d, a := r.a, b := r.b, f := r.f, c := r.c, e := r.e, fmt := r.fmt, imm := packImm [(0, (r.imm.extractLsb' 0 8).toNat), (8, (r.imm.extractLsb' 8 1).toNat), (9, (r.imm.extractLsb' 9 1).toNat), (10, (r.imm.extractLsb' 10 7).toNat), (17, (r.imm.extractLsb' 17 7).toNat), (29, (r.imm.extractLsb' 29 1).toNat)] } (.mmaws r.d r.a r.b r.c r.e r.fmt (r.imm.extractLsb' 0 8) (r.imm.extractLsb' 8 1) (r.imm.extractLsb' 9 1) (r.imm.extractLsb' 10 7) (r.imm.extractLsb' 17 7) (r.imm.extractLsb' 29 1) r.st)
  | _, _ => .error .illegalForm

/-- Major 0x6B of Table 6.9. -/
noncomputable def major6B (r : Raw) : Except DecodeError Instr :=
  match r.len.toNat, r.f.toNat with
  | 0, 0 => keep r { st := r.st, op := r.op, d := r.d, a := r.a } (.tld r.d r.a r.st)
  | 1, 0 => keep r { len := r.len, st := r.st, op := r.op, d := r.d, a := r.a, fmt := r.fmt, imm := r.imm } (.tldX r.d r.a r.fmt r.imm r.st)
  | 0, 1 => keep r { st := r.st, op := r.op, d := r.d, a := r.a, b := r.b, f := r.f } (.tst r.d r.a r.b r.st)
  | 1, 1 => keep r { len := r.len, st := r.st, op := r.op, d := r.d, a := r.a, b := r.b, f := r.f, fmt := r.fmt, imm := r.imm } (.tstX r.d r.a r.b r.fmt r.imm r.st)
  | 0, 2 => keep r { st := r.st, op := r.op, d := r.d, f := r.f } (.tzero r.d r.st)
  | 1, 2 => keep r { len := r.len, st := r.st, op := r.op, d := r.d, f := r.f, fmt := r.fmt } (.tzeroX r.d r.fmt r.st)
  | _, _ => .error .illegalForm

/-- Major 0x6C of Table 6.9. -/
noncomputable def major6C (r : Raw) : Except DecodeError Instr :=
  match r.len.toNat, r.f.toNat with
  | 0, 0 => keep r { st := r.st, op := r.op, d := r.d } (.aclr r.d r.st)
  | 1, 0 => keep r { len := r.len, st := r.st, op := r.op, d := r.d } (.aclrX r.d r.st)
  | 0, 1 => keep r { st := r.st, op := r.op, d := r.d, a := r.a, f := r.f } (.ald r.d r.a r.st)
  | 1, 1 => keep r { len := r.len, st := r.st, op := r.op, d := r.d, a := r.a, f := r.f, imm := r.imm } (.aldX r.d r.a r.imm r.st)
  | 0, 2 => keep r { st := r.st, op := r.op, d := r.d, a := r.a, b := r.b, f := r.f } (.ast r.d r.a r.b r.st)
  | 1, 2 => keep r { len := r.len, st := r.st, op := r.op, d := r.d, a := r.a, b := r.b, f := r.f, imm := r.imm } (.astX r.d r.a r.b r.imm r.st)
  | 1, 3 => keep r { len := r.len, st := r.st, op := r.op, d := r.d, a := r.a, b := r.b, f := r.f, fmt := r.fmt } (.aread r.d r.a r.b r.fmt r.st)
  | _, _ => .error .illegalForm

/-- Major 0x6D of Table 6.9. -/
noncomputable def major6D (r : Raw) : Except DecodeError Instr :=
  match r.len.toNat, r.f.toNat with
  | 0, 0 => keep r { st := r.st, op := r.op, d := r.d, a := r.a, b := r.b } (.mdld r.d r.a r.b r.st)
  | 1, 0 => keep r { len := r.len, st := r.st, op := r.op, d := r.d, a := r.a, b := r.b, imm := packImm [(0, (r.imm.extractLsb' 0 8).toNat)] } (.mdldX r.d r.a r.b (r.imm.extractLsb' 0 8) r.st)
  | 0, 1 => keep r { st := r.st, op := r.op, d := r.d, a := r.a, b := r.b, f := r.f } (.scld r.d r.a r.b r.st)
  | 1, 1 => keep r { len := r.len, st := r.st, op := r.op, d := r.d, a := r.a, b := r.b, f := r.f, imm := packImm [(0, (r.imm.extractLsb' 0 7).toNat)] } (.scldX r.d r.a r.b (r.imm.extractLsb' 0 7) r.st)
  | 0, 2 => keep r { st := r.st, op := r.op, d := r.d, a := r.a, b := r.b, f := r.f } (.orld r.d r.a r.b r.st)
  | 1, 2 => keep r { len := r.len, st := r.st, op := r.op, d := r.d, a := r.a, b := r.b, f := r.f } (.orldX r.d r.a r.b r.st)
  | _, _ => .error .illegalForm

/-- Major 0x6E of Table 6.9. -/
noncomputable def major6E (r : Raw) : Except DecodeError Instr :=
  match r.len.toNat, r.f.toNat with
  | 0, 0 => keep r { st := r.st, op := r.op, a := r.a } (.gangcfg r.a r.st)
  | _, _ => .error .illegalForm

/-- Major 0x70 of Table 6.9. -/
noncomputable def major70 (r : Raw) : Except DecodeError Instr :=
  match r.len.toNat, r.f.toNat with
  | 0, 0 => keep r { st := r.st, op := r.op, d := r.d, a := r.a, b := r.b } (.cpy r.d r.a r.b r.st)
  | 1, 0 => keep r { len := r.len, st := r.st, op := r.op, d := r.d, a := r.a, b := r.b, c := r.c, od := r.od, ph := r.ph, imm := packImm [(0, (r.imm.extractLsb' 0 2).toNat)] } (.cpyX r.d r.a r.b r.c r.od r.ph (r.imm.extractLsb' 0 2) r.st)
  | 0, 1 => keep r { st := r.st, op := r.op, d := r.d, a := r.a, b := r.b, f := r.f } (.cpyt r.d r.a r.b r.st)
  | 1, 1 => keep r { len := r.len, st := r.st, op := r.op, d := r.d, a := r.a, b := r.b, f := r.f, c := r.c, od := r.od, ph := r.ph, imm := packImm [(0, (r.imm.extractLsb' 0 2).toNat), (4, (r.imm.extractLsb' 4 1).toNat)] } (.cpytX r.d r.a r.b r.c r.od r.ph (r.imm.extractLsb' 0 2) (r.imm.extractLsb' 4 1) r.st)
  | 0, 2 => keep r { st := r.st, op := r.op, d := r.d, a := r.a, b := r.b, f := r.f } (.cpyg r.d r.a r.b r.st)
  | 1, 2 => keep r { len := r.len, st := r.st, op := r.op, d := r.d, a := r.a, b := r.b, f := r.f, c := r.c, e := r.e, fmt := r.fmt, od := r.od, ph := r.ph, imm := packImm [(0, (r.imm.extractLsb' 0 2).toNat)] } (.cpygX r.d r.a r.b r.c r.e r.fmt r.od r.ph (r.imm.extractLsb' 0 2) r.st)
  | _, _ => .error .illegalForm

/-- Major 0x71 of Table 6.9. -/
noncomputable def major71 (r : Raw) : Except DecodeError Instr :=
  match r.len.toNat, r.f.toNat with
  | 0, 0 => keep r { st := r.st, op := r.op, d := r.d, a := r.a, b := r.b } (.barge r.d r.a r.b r.st)
  | 1, 0 => keep r { len := r.len, st := r.st, op := r.op, d := r.d, a := r.a, b := r.b, c := r.c, od := r.od, ph := r.ph } (.bargeX r.d r.a r.b r.c r.od r.ph r.st)
  | 0, 1 => keep r { st := r.st, op := r.op, d := r.d, a := r.a, b := r.b, f := r.f } (.bargem r.d r.a r.b r.st)
  | 1, 1 => keep r { len := r.len, st := r.st, op := r.op, d := r.d, a := r.a, b := r.b, f := r.f, c := r.c, e := r.e, od := r.od, ph := r.ph, imm := packImm [(0, (r.imm.extractLsb' 0 1).toNat)] } (.bargemX r.d r.a r.b r.c r.e r.od r.ph (r.imm.extractLsb' 0 1) r.st)
  | _, _ => .error .illegalForm

/-- Major 0x72 of Table 6.9. -/
noncomputable def major72 (r : Raw) : Except DecodeError Instr :=
  match r.len.toNat, r.f.toNat with
  | 0, 0 => keep r { st := r.st, op := r.op, d := r.d, a := r.a } (.send r.d r.a r.st)
  | 1, 0 => keep r { len := r.len, st := r.st, op := r.op, d := r.d, a := r.a, ph := r.ph } (.sendX r.d r.a r.ph r.st)
  | 0, 1 => keep r { st := r.st, op := r.op, d := r.d, a := r.a, b := r.b, f := r.f } (.sendx r.d r.a r.b r.st)
  | 1, 1 => keep r { len := r.len, st := r.st, op := r.op, d := r.d, a := r.a, b := r.b, f := r.f, ph := r.ph } (.sendxX r.d r.a r.b r.ph r.st)
  | 0, 2 => keep r { st := r.st, op := r.op, d := r.d, f := r.f } (.msginfo r.d r.st)
  | 1, 2 => keep r { len := r.len, st := r.st, op := r.op, d := r.d, f := r.f } (.msginfoX r.d r.st)
  | 0, 3 => keep r { st := r.st, op := r.op, f := r.f } (.aidle r.st)
  | 1, 3 => keep r { len := r.len, st := r.st, op := r.op, f := r.f } (.aidleX r.st)
  | _, _ => .error .illegalForm

/-- Major 0x73 of Table 6.9. -/
noncomputable def major73 (r : Raw) : Except DecodeError Instr :=
  match r.len.toNat, r.f.toNat with
  | 0, 0 => keep r { st := r.st, op := r.op, d := r.d, a := r.a, b := r.b } (.aerase r.d r.a r.b r.st)
  | 1, 0 => keep r { len := r.len, st := r.st, op := r.op, d := r.d, a := r.a, b := r.b } (.aeraseX r.d r.a r.b r.st)
  | 0, 1 => keep r { st := r.st, op := r.op, d := r.d, a := r.a, b := r.b, f := r.f } (.migrate r.d r.a r.b r.st)
  | 1, 1 => keep r { len := r.len, st := r.st, op := r.op, d := r.d, a := r.a, b := r.b, f := r.f, c := r.c } (.migrateX r.d r.a r.b r.c r.st)
  | _, _ => .error .illegalForm

/-- Major 0x74 of Table 6.9. -/
noncomputable def major74 (r : Raw) : Except DecodeError Instr :=
  match r.len.toNat, r.f.toNat with
  | 0, 0 => keep r { st := r.st, op := r.op, d := r.d, a := r.a } (.balloc r.d r.a r.st)
  | 1, 0 => keep r { len := r.len, st := r.st, op := r.op, d := r.d, a := r.a, e := r.e, imm := packImm [(0, (r.imm.extractLsb' 0 1).toNat)] } (.ballocX r.d r.a r.e (r.imm.extractLsb' 0 1) r.st)
  | 0, 1 => keep r { st := r.st, op := r.op, d := r.d, a := r.a, f := r.f } (.bfree r.d r.a r.st)
  | 1, 1 => keep r { len := r.len, st := r.st, op := r.op, d := r.d, a := r.a, f := r.f } (.bfreeX r.d r.a r.st)
  | 0, 2 => keep r { st := r.st, op := r.op, d := r.d, a := r.a, b := r.b, f := r.f } (.bshare r.d r.a r.b r.st)
  | 1, 2 => keep r { len := r.len, st := r.st, op := r.op, d := r.d, a := r.a, b := r.b, f := r.f, imm := packImm [(0, (r.imm.extractLsb' 0 1).toNat)] } (.bshareX r.d r.a r.b (r.imm.extractLsb' 0 1) r.st)
  | 0, 3 => keep r { st := r.st, op := r.op, d := r.d, a := r.a, b := r.b, f := r.f } (.btrunc r.d r.a r.b r.st)
  | 1, 3 => keep r { len := r.len, st := r.st, op := r.op, d := r.d, a := r.a, b := r.b, f := r.f } (.btruncX r.d r.a r.b r.st)
  | _, _ => .error .illegalForm

/-- Major 0x75 of Table 6.9. -/
noncomputable def major75 (r : Raw) : Except DecodeError Instr :=
  match r.len.toNat, r.f.toNat with
  | 0, 0 => keep r { st := r.st, op := r.op, d := r.d, a := r.a } (.bquery r.d r.a r.st)
  | 1, 0 => keep r { len := r.len, st := r.st, op := r.op, d := r.d, a := r.a, e := r.e } (.bqueryX r.d r.a r.e r.st)
  | 0, 1 => keep r { st := r.st, op := r.op, d := r.d, a := r.a, b := r.b, f := r.f } (.bseqnew r.d r.a r.b r.st)
  | 1, 1 => keep r { len := r.len, st := r.st, op := r.op, d := r.d, a := r.a, b := r.b, f := r.f } (.bseqnewX r.d r.a r.b r.st)
  | 0, 2 => keep r { st := r.st, op := r.op, d := r.d, a := r.a, f := r.f } (.bseqdrop r.d r.a r.st)
  | 1, 2 => keep r { len := r.len, st := r.st, op := r.op, d := r.d, a := r.a, f := r.f } (.bseqdropX r.d r.a r.st)
  | _, _ => .error .illegalForm

/-- Major 0x76 of Table 6.9. -/
noncomputable def major76 (r : Raw) : Except DecodeError Instr :=
  match r.len.toNat, r.f.toNat with
  | 0, 0 => keep r { st := r.st, op := r.op, d := r.d, a := r.a, b := r.b } (.ptx r.d r.a r.b r.st)
  | 1, 0 => keep r { len := r.len, st := r.st, op := r.op, d := r.d, a := r.a, b := r.b } (.ptxX r.d r.a r.b r.st)
  | 0, 1 => keep r { st := r.st, op := r.op, d := r.d, a := r.a, b := r.b, f := r.f } (.ptfill r.d r.a r.b r.st)
  | 1, 1 => keep r { len := r.len, st := r.st, op := r.op, d := r.d, a := r.a, b := r.b, f := r.f, c := r.c } (.ptfillX r.d r.a r.b r.c r.st)
  | 0, 2 => keep r { st := r.st, op := r.op, a := r.a, b := r.b, f := r.f } (.ptinv r.a r.b r.st)
  | 1, 2 => keep r { len := r.len, st := r.st, op := r.op, a := r.a, b := r.b, f := r.f } (.ptinvX r.a r.b r.st)
  | _, _ => .error .illegalForm

/-- Major 0x77 of Table 6.9. -/
noncomputable def major77 (r : Raw) : Except DecodeError Instr :=
  match r.len.toNat, r.f.toNat with
  | 0, 0 => keep r { st := r.st, op := r.op, d := r.d, a := r.a } (.attnq r.d r.a r.st)
  | 1, 0 => keep r { len := r.len, st := r.st, op := r.op, d := r.d, a := r.a, od := r.od, ph := r.ph } (.attnqX r.d r.a r.od r.ph r.st)
  | 0, 1 => keep r { st := r.st, op := r.op, d := r.d, a := r.a, f := r.f } (.refwait r.d r.a r.st)
  | 1, 1 => keep r { len := r.len, st := r.st, op := r.op, d := r.d, a := r.a, f := r.f, imm := packImm [(0, (r.imm.extractLsb' 0 11).toNat)] } (.refwaitX r.d r.a (r.imm.extractLsb' 0 11) r.st)
  | _, _ => .error .illegalForm

/-- Major 0x78 of Table 6.9. -/
noncomputable def major78 (r : Raw) : Except DecodeError Instr :=
  match r.len.toNat, r.f.toNat with
  | 0, 0 => keep r { st := r.st, op := r.op, d := r.d, a := r.a, b := r.b } (.mcst r.d r.a r.b r.st)
  | 1, 0 => keep r { len := r.len, st := r.st, op := r.op, d := r.d, a := r.a, b := r.b, c := r.c, od := r.od, ph := r.ph } (.mcstX r.d r.a r.b r.c r.od r.ph r.st)
  | 0, 1 => keep r { st := r.st, op := r.op, d := r.d, a := r.a, b := r.b, f := r.f } (.mcstc r.d r.a r.b r.st)
  | 1, 1 => keep r { len := r.len, st := r.st, op := r.op, d := r.d, a := r.a, b := r.b, f := r.f, c := r.c, e := r.e, od := r.od, ph := r.ph } (.mcstcX r.d r.a r.b r.c r.e r.od r.ph r.st)
  | 0, 2 => keep r { st := r.st, op := r.op, d := r.d, a := r.a, f := r.f } (.mcseq r.d r.a r.st)
  | 1, 2 => keep r { len := r.len, st := r.st, op := r.op, d := r.d, a := r.a, f := r.f } (.mcseqX r.d r.a r.st)
  | _, _ => .error .illegalForm

def illegalMajor (_ : Raw) : Except DecodeError Instr := .error .illegalMajor

/-- The opcode map (R156): one decoder for each major opcode, 0x00 to 0x7F. -/
noncomputable def majors : List (Raw → Except DecodeError Instr) :=
  [illegalMajor, major01, major02, major03, major04, major05, major06, major07, major08, major09, major0A, major0B, major0C, major0D, major0E, major0F] ++
  [major10, major11, major12, major13, major14, major15, major16, major17, major18, major19, major1A, illegalMajor, illegalMajor, illegalMajor, illegalMajor, illegalMajor] ++
  [major20, major21, major22, major23, major24, major25, major26, major27, major28, major29, major2A, major2B, major2C, major2D, major2E, major2F] ++
  [major30, major31, major32, major33, major34, major35, major36, major37, major38, major39, major3A, major3B, major3C, major3D, major3E, major3F] ++
  [major40, major41, major42, major43, major44, major45, major46, major47, major48, major49, major4A, major4B, major4C, major4D, major4E, major4F] ++
  [major50, major51, major52, major53, major54, major55, major56, major57, major58, major59, major5A, major5B, major5C, major5D, major5E, major5F] ++
  [major60, major61, major62, major63, major64, major65, major66, major67, major68, major69, major6A, major6B, major6C, major6D, major6E, illegalMajor] ++
  [major70, major71, major72, major73, major74, major75, major76, major77, major78, illegalMajor, illegalMajor, illegalMajor, illegalMajor, illegalMajor, illegalMajor, illegalMajor]

/-- From fields to an instruction: the major's own fields, then the checks of `Instr.wf`. (DESIGN CHOICE, log entry 58.) -/
noncomputable def decodeRaw (r : Raw) : Except DecodeError Instr :=
  match (majors.getD r.op.toNat illegalMajor) r with
  | .ok i => if i.wf then .ok i else .error .illegalOperand
  | .error e => .error e

/-- The fields of word 0 (R142). -/
def Raw.ofWord0 (w : W32) : Raw :=
  { len := w.extractLsb' 0 2, st := w.extractLsb' 2 3, op := w.extractLsb' 5 7, d := w.extractLsb' 12 6,
    a := w.extractLsb' 18 6, b := w.extractLsb' 24 6, f := w.extractLsb' 30 2 }

/-- The fields of word 1 (R148) and IMM32 added to those of word 0. -/
def Raw.withExt (r : Raw) (w i : W32) : Raw :=
  { r with c := w.extractLsb' 0 6, e := w.extractLsb' 6 6, msk := w.extractLsb' 12 3, mp := w.extractLsb' 15 1,
           tp := w.extractLsb' 16 1, fmt := w.extractLsb' 17 4, sc := w.extractLsb' 21 2, od := w.extractLsb' 23 2,
           sy := w.extractLsb' 25 2, hc := w.extractLsb' 27 1, ph := w.extractLsb' 28 1, top := w.extractLsb' 29 3,
           imm := i }

/-- A literal: bits 31:0 stand in the first word (R142). -/
def Raw.withLit (r : Raw) (lo hi : W32) : Raw := { r with lit := hi ++ lo }

/-- How many words the framing of Table 6.1 gives. -/
def wordsOf (len : BitVec 2) : Nat := if len = 0 then 1 else if len = 3 then 5 else 3

/-- The fields of an instruction's words, and the words that follow it. -/
def rawOfWords : List W32 → Except DecodeError (Raw × List W32)
  | [] => .error .tooShort
  | w :: ws =>
    let r := Raw.ofWord0 w
    if r.len = 0 then .ok (r, ws)
    else if r.len = 1 then
      match ws with
      | x :: i :: rest => .ok (r.withExt x i, rest)
      | _ => .error .tooShort
    else if r.len = 2 then
      match ws with
      | lo :: hi :: rest => .ok (r.withLit lo hi, rest)
      | _ => .error .tooShort
    else
      match ws with
      | x :: i :: lo :: hi :: rest => .ok ((r.withExt x i).withLit lo hi, rest)
      | _ => .error .tooShort

/-- Words into an instruction and the words that follow it. (DESIGN CHOICE, log entry 58.) -/
noncomputable def decodeWords (ws : List W32) : Except DecodeError (Instr × List W32) :=
  match rawOfWords ws with
  | .error e => .error e
  | .ok (r, rest) =>
    match decodeRaw r with
    | .error e => .error e
    | .ok i => .ok (i, rest)

/-- Four bytes, the lowest address first, as a word (R142: little-endian). -/
def wordOfBytes (b0 b1 b2 b3 : Byte) : W32 := b3 ++ b2 ++ b1 ++ b0

/-- The whole words of a run of bytes. -/
def wordsOfBytes : List Byte → List W32
  | b0 :: b1 :: b2 :: b3 :: rest => wordOfBytes b0 b1 b2 b3 :: wordsOfBytes rest
  | _ => []

/-- The bytes of a word, the lowest address first. -/
def bytesOfWord (w : W32) : List Byte :=
  [w.extractLsb' 0 8, w.extractLsb' 8 8, w.extractLsb' 16 8, w.extractLsb' 24 8]

/-- The decoder: bytes into an instruction, or the reason why they are none. -/
noncomputable def decode (bytes : List Byte) : Except DecodeError Instr :=
  match decodeWords (wordsOfBytes bytes) with
  | .ok (i, _) => .ok i
  | .error e => .error e

/-- The longest instruction, in words. -/
def longestWords : Nat := 5

/-- The words of a number whose bits are counted as spec/opcode_table.json counts them, zeros above
`nbits`. -/
def tableWords (nbits w : Nat) : List W32 :=
  (List.range longestWords).map fun k => BitVec.ofNat 32 (w % 2 ^ nbits / 2 ^ (32 * k))

/-- The bytes of such an instruction as memory holds them. -/
def tableBytes (nbits w : Nat) : List Byte := ((tableWords nbits w).map bytesOfWord).flatten

/-- What the decoder reads from such a number. -/
noncomputable def decodeTableWord (nbits w : Nat) : Option Instr :=
  match decode (tableBytes nbits w) with
  | .ok i => some i
  | .error _ => none

/-! The encoder. -/

/-- The fields of an instruction; an event has none. -/
def encodeRaw : Instr → Option Raw
  | .powerOnReset => none
  | .bootRomVerify => none
  | .firstStageBoot => none
  | .cleozLoading => none
  | .computeRelease => none
  | .attestationRequest => none
  | .thermalTrip _ => none
  | .i3cReset => none
  | .throttleStep _ _ _ => none
  | .powerModeChange => none
  | .ethernetFrame _ _ => none
  | .cxlPortTrain _ _ _ => none
  | .cxlLinkDown _ => none
  | .towlineTrain _ _ _ => none
  | .towlineMessage _ _ => none
  | .towlineReissue _ => none
  | .stretchNotice _ => none
  | .refreshAdvance _ => none
  | .quietSweep => none
  | .homeAccess _ => none
  | .storeAck _ => none
  | .tagWaitTimeout _ => none
  | .barrierWaitTimeout _ _ => none
  | .joinLimitExpire _ _ => none
  | .backoffReissue _ => none
  | .cacheEviction _ _ => none
  | .helperLive _ _ => none
  | .helperCloseEnd _ _ => none
  | .faultSave _ _ => none
  | .faultRecordDrain _ => none
  | .migration _ _ => none
  | .helperRestore _ => none
  | .chunkRequest _ _ => none
  | .chunkGrant _ => none
  | .placementGrant _ => none
  | .groupComplete _ _ => none
  | .launchReady _ => none
  | .launchDependenceFail _ => none
  | .launchEnd _ => none
  | .splitChange _ => none
  | .serveWrite _ _ => none
  | .serveWithdraw _ => none
  | .priorityRaise _ => none
  | .priorityWithdraw _ => none
  | .preemption _ => none
  | .quantumExpire => none
  | .earlySliceEnd => none
  | .sliceSwitch => none
  | .engineCommandTake _ _ => none
  | .engineOpComplete _ _ => none
  | .engineFault _ _ => none
  | .vectorCommandStart _ => none
  | .vectorCommandDone _ _ => none
  | .messageArrive _ => none
  | .sliceInputStallAlert _ => none
  | .mooringComplete _ _ => none
  | .mailboxSlotFreed _ _ => none
  | .layupRequest _ => none
  | .unmoorOrder _ _ => none
  | .unmoorComplete _ _ => none
  | .idleLimitExpire _ _ => none
  | .shiftComplete _ _ => none
  | .sluiceStamp _ => none
  | .sluiceApply _ => none
  | .groupActivate _ => none
  | .groupReconfigure _ => none
  | .groupResynchronise _ => none
  | .groupDelete _ => none
  | .blockRinse _ _ _ _ => none
  | .patrolScrub _ _ => none
  | .uncorrectableError _ => none
  | .shootdown => none
  | .shootdownDone => none
  | .resumeContext _ => none
  | .resumeEnd _ => none
  | .engactRetry _ _ => none
  | .engactAbandon _ _ => none
  | .operandRecordInvalidate _ => none
  | .keyGenerate _ => none
  | .keyDestroy _ => none
  | .wsLoadingEnter _ => none
  | .wsLoadingLeave _ => none
  | .poolEnable _ _ => none
  | .poolDisable _ _ => none
  | .classRegister _ => none
  | .classWithdraw _ => none
  | .classWithdrawDone _ => none
  | .directoryResume _ => none
  | .journalControl _ => none
  | .registerWrite _ _ => none
  | .add d a b st => some { st := st, op := 1, d := d, a := a, b := b }
  | .sub d a b st => some { st := st, op := 1, d := d, a := a, b := b, f := 1 }
  | .addw d a b st => some { st := st, op := 1, d := d, a := a, b := b, f := 2 }
  | .subw d a b st => some { st := st, op := 1, d := d, a := a, b := b, f := 3 }
  | .mul d a b st => some { st := st, op := 2, d := d, a := a, b := b }
  | .mulh d a b st => some { st := st, op := 2, d := d, a := a, b := b, f := 1 }
  | .mulhz d a b st => some { st := st, op := 2, d := d, a := a, b := b, f := 2 }
  | .mulw d a b st => some { st := st, op := 2, d := d, a := a, b := b, f := 3 }
  | .div d a b st => some { st := st, op := 3, d := d, a := a, b := b }
  | .divz d a b st => some { st := st, op := 3, d := d, a := a, b := b, f := 1 }
  | .rem d a b st => some { st := st, op := 3, d := d, a := a, b := b, f := 2 }
  | .remz d a b st => some { st := st, op := 3, d := d, a := a, b := b, f := 3 }
  | .and d a b st => some { st := st, op := 4, d := d, a := a, b := b }
  | .or d a b st => some { st := st, op := 4, d := d, a := a, b := b, f := 1 }
  | .xor d a b st => some { st := st, op := 4, d := d, a := a, b := b, f := 2 }
  | .andn d a b st => some { st := st, op := 4, d := d, a := a, b := b, f := 3 }
  | .shl d a b st => some { st := st, op := 5, d := d, a := a, b := b }
  | .shr d a b st => some { st := st, op := 5, d := d, a := a, b := b, f := 1 }
  | .shra d a b st => some { st := st, op := 5, d := d, a := a, b := b, f := 2 }
  | .ror d a b st => some { st := st, op := 5, d := d, a := a, b := b, f := 3 }
  | .slt d a b st => some { st := st, op := 6, d := d, a := a, b := b }
  | .sltz d a b st => some { st := st, op := 6, d := d, a := a, b := b, f := 1 }
  | .seq d a b st => some { st := st, op := 6, d := d, a := a, b := b, f := 2 }
  | .sne d a b st => some { st := st, op := 6, d := d, a := a, b := b, f := 3 }
  | .min d a b st => some { st := st, op := 7, d := d, a := a, b := b }
  | .max d a b st => some { st := st, op := 7, d := d, a := a, b := b, f := 1 }
  | .minz d a b st => some { st := st, op := 7, d := d, a := a, b := b, f := 2 }
  | .maxz d a b st => some { st := st, op := 7, d := d, a := a, b := b, f := 3 }
  | .clz d a st => some { st := st, op := 8, d := d, a := a }
  | .ctz d a st => some { st := st, op := 8, d := d, a := a, f := 1 }
  | .popc d a st => some { st := st, op := 8, d := d, a := a, f := 2 }
  | .brev d a st => some { st := st, op := 8, d := d, a := a, f := 3 }
  | .sel d a b c st => some { len := 1, st := st, op := 9, d := d, a := a, b := b, c := c }
  | .bfxs d a p n st => some { len := 1, st := st, op := 10, d := d, a := a, imm := packImm [(0, p.toNat), (6, n.toNat)] }
  | .bfxz d a p n st => some { len := 1, st := st, op := 10, d := d, a := a, f := 1, imm := packImm [(0, p.toNat), (6, n.toNat)] }
  | .bfins d a b p n st => some { len := 1, st := st, op := 10, d := d, a := a, b := b, f := 2, imm := packImm [(0, p.toNat), (6, n.toNat)] }
  | .lea d a b k st => some { st := st, op := 11, d := d, a := a, b := b, f := k }
  | .fadd d a b st => some { st := st, op := 12, d := d, a := a, b := b }
  | .fsub d a b st => some { st := st, op := 12, d := d, a := a, b := b, f := 1 }
  | .fmul d a b st => some { st := st, op := 12, d := d, a := a, b := b, f := 2 }
  | .fdiv d a b st => some { st := st, op := 12, d := d, a := a, b := b, f := 3 }
  | .fmin d a b st => some { st := st, op := 13, d := d, a := a, b := b }
  | .fmax d a b st => some { st := st, op := 13, d := d, a := a, b := b, f := 1 }
  | .fsqrt d a st => some { st := st, op := 13, d := d, a := a, f := 2 }
  | .ffma d a b c st => some { len := 1, st := st, op := 13, d := d, a := a, b := b, f := 3, c := c }
  | .flt d a b st => some { st := st, op := 14, d := d, a := a, b := b }
  | .fle d a b st => some { st := st, op := 14, d := d, a := a, b := b, f := 1 }
  | .feq d a b st => some { st := st, op := 14, d := d, a := a, b := b, f := 2 }
  | .fclass d a st => some { st := st, op := 14, d := d, a := a, f := 3 }
  | .fcvtif d a st => some { st := st, op := 15, d := d, a := a }
  | .fcvtifX d a fmt st => some { len := 1, st := st, op := 15, d := d, a := a, fmt := fmt }
  | .fcvtfi d a st => some { st := st, op := 15, d := d, a := a, f := 1 }
  | .fcvtfiX d a fmt st => some { len := 1, st := st, op := 15, d := d, a := a, f := 1, fmt := fmt }
  | .fcvth d a fmt sat st => some { len := 1, st := st, op := 15, d := d, a := a, f := 2, fmt := fmt, imm := packImm [(30, sat.toNat)] }
  | .fcvte d a fmt st => some { len := 1, st := st, op := 15, d := d, a := a, f := 3, fmt := fmt }
  | .addi d a imm8 st => some { st := st, op := 16, d := d, a := a, b := lo8 imm8, f := hi8 imm8 }
  | .addiLit d a lit st => some { len := 2, st := st, op := 16, d := d, a := a, lit := lit }
  | .andi d a imm8 st => some { st := st, op := 17, d := d, a := a, b := lo8 imm8, f := hi8 imm8 }
  | .andiLit d a lit st => some { len := 2, st := st, op := 17, d := d, a := a, lit := lit }
  | .ori d a imm8 st => some { st := st, op := 18, d := d, a := a, b := lo8 imm8, f := hi8 imm8 }
  | .oriLit d a lit st => some { len := 2, st := st, op := 18, d := d, a := a, lit := lit }
  | .xori d a imm8 st => some { st := st, op := 19, d := d, a := a, b := lo8 imm8, f := hi8 imm8 }
  | .xoriLit d a lit st => some { len := 2, st := st, op := 19, d := d, a := a, lit := lit }
  | .shli d a imm8 st => some { st := st, op := 20, d := d, a := a, b := lo8 imm8, f := hi8 imm8 }
  | .shliLit d a lit st => some { len := 2, st := st, op := 20, d := d, a := a, lit := lit }
  | .shri d a imm8 st => some { st := st, op := 21, d := d, a := a, b := lo8 imm8, f := hi8 imm8 }
  | .shriLit d a lit st => some { len := 2, st := st, op := 21, d := d, a := a, lit := lit }
  | .shrai d a imm8 st => some { st := st, op := 22, d := d, a := a, b := lo8 imm8, f := hi8 imm8 }
  | .shraiLit d a lit st => some { len := 2, st := st, op := 22, d := d, a := a, lit := lit }
  | .slti d a imm8 st => some { st := st, op := 23, d := d, a := a, b := lo8 imm8, f := hi8 imm8 }
  | .sltiLit d a lit st => some { len := 2, st := st, op := 23, d := d, a := a, lit := lit }
  | .sltzi d a imm8 st => some { st := st, op := 24, d := d, a := a, b := lo8 imm8, f := hi8 imm8 }
  | .sltziLit d a lit st => some { len := 2, st := st, op := 24, d := d, a := a, lit := lit }
  | .muli d a imm8 st => some { st := st, op := 25, d := d, a := a, b := lo8 imm8, f := hi8 imm8 }
  | .muliLit d a lit st => some { len := 2, st := st, op := 25, d := d, a := a, lit := lit }
  | .li d imm14 st => some { st := st, op := 26, d := d, a := lo14 imm14, b := mid14 imm14, f := hi14 imm14 }
  | .liLit d lit st => some { len := 2, st := st, op := 26, d := d, lit := lit }
  | .br off20 st => some { st := st, op := 32, d := lo20 off20, a := a20 off20, b := b20 off20, f := hi20 off20 }
  | .beqz d off14 st => some { st := st, op := 33, d := d, a := lo14 off14, b := mid14 off14, f := hi14 off14 }
  | .bnez d off14 st => some { st := st, op := 34, d := d, a := lo14 off14, b := mid14 off14, f := hi14 off14 }
  | .bltz d off14 st => some { st := st, op := 35, d := d, a := lo14 off14, b := mid14 off14, f := hi14 off14 }
  | .bgez d off14 st => some { st := st, op := 36, d := d, a := lo14 off14, b := mid14 off14, f := hi14 off14 }
  | .beq a b imm st => some { len := 1, st := st, op := 37, a := a, b := b, imm := imm }
  | .bne a b imm st => some { len := 1, st := st, op := 37, a := a, b := b, f := 1, imm := imm }
  | .blt a b imm st => some { len := 1, st := st, op := 37, a := a, b := b, f := 2, imm := imm }
  | .blo a b imm st => some { len := 1, st := st, op := 37, a := a, b := b, f := 3, imm := imm }
  | .call off20 st => some { st := st, op := 38, d := lo20 off20, a := a20 off20, b := b20 off20, f := hi20 off20 }
  | .callr d a st => some { st := st, op := 39, d := d, a := a }
  | .jmpr a st => some { st := st, op := 39, a := a, f := 1 }
  | .ret st => some { st := st, op := 39, f := 2 }
  | .start d a b st => some { st := st, op := 40, d := d, a := a, b := b }
  | .startX d a b c w mig st => some { len := 1, st := st, op := 40, d := d, a := a, b := b, c := c, imm := packImm [(0, w.toNat), (8, mig.toNat)] }
  | .startm d st => some { st := st, op := 40, d := d, f := 1 }
  | .startmX d cls has st => some { len := 1, st := st, op := 40, d := d, f := 1, imm := packImm [(0, cls.toNat), (16, has.toNat)] }
  | .startw d a st => some { st := st, op := 40, d := d, a := a, f := 2 }
  | .startwX d a mig st => some { len := 1, st := st, op := 40, d := d, a := a, f := 2, imm := packImm [(8, mig.toNat)] }
  | .finish st => some { st := st, op := 41 }
  | .fail a st => some { st := st, op := 41, a := a, f := 1 }
  | .idle st => some { st := st, op := 41, f := 2 }
  | .join d a st => some { st := st, op := 42, d := d, a := a }
  | .joinX d a imm st => some { len := 1, st := st, op := 42, d := d, a := a, imm := imm }
  | .joinany d st => some { st := st, op := 42, d := d, f := 1 }
  | .joinanyX d imm st => some { len := 1, st := st, op := 42, d := d, f := 1, imm := imm }
  | .hstat d a st => some { st := st, op := 42, d := d, a := a, f := 2 }
  | .hstatX d a st => some { len := 1, st := st, op := 42, d := d, a := a, f := 2 }
  | .popw d a st => some { st := st, op := 43, d := d, a := a }
  | .pushw d a st => some { st := st, op := 43, d := d, a := a, f := 1 }
  | .launch d a st => some { st := st, op := 44, d := d, a := a }
  | .launchX d a imm st => some { len := 1, st := st, op := 44, d := d, a := a, imm := imm }
  | .lwait d a st => some { st := st, op := 44, d := d, a := a, f := 1 }
  | .lwaitX d a e st => some { len := 1, st := st, op := 44, d := d, a := a, f := 1, e := e }
  | .widf d a b st => some { st := st, op := 45, d := d, a := a, b := b }
  | .widr d a b st => some { st := st, op := 45, d := d, a := a, b := b, f := 1 }
  | .mfk d a st => some { st := st, op := 46, d := d, a := a }
  | .mtk d a st => some { st := st, op := 46, d := d, a := a, f := 1 }
  | .trap a st => some { st := st, op := 47, a := a }
  | .brk st => some { st := st, op := 47, f := 1 }
  | .sysc d a st => some { st := st, op := 47, d := d, a := a, f := 2 }
  | .eret st => some { st := st, op := 47, f := 3 }
  | .ldb d a imm8 st => some { st := st, op := 48, d := d, a := a, b := lo8 imm8, f := hi8 imm8 }
  | .ldbLit d a lit st => some { len := 2, st := st, op := 48, d := d, a := a, lit := lit }
  | .ldbX d a sc od sy ph imm st => some { len := 1, st := st, op := 48, d := d, a := a, sc := sc, od := od, sy := sy, ph := ph, imm := imm }
  | .ldbXlit d a sc od sy ph lit st => some { len := 3, st := st, op := 48, d := d, a := a, sc := sc, od := od, sy := sy, ph := ph, lit := lit }
  | .ldbz d a imm8 st => some { st := st, op := 49, d := d, a := a, b := lo8 imm8, f := hi8 imm8 }
  | .ldbzLit d a lit st => some { len := 2, st := st, op := 49, d := d, a := a, lit := lit }
  | .ldbzX d a sc od sy ph imm st => some { len := 1, st := st, op := 49, d := d, a := a, sc := sc, od := od, sy := sy, ph := ph, imm := imm }
  | .ldbzXlit d a sc od sy ph lit st => some { len := 3, st := st, op := 49, d := d, a := a, sc := sc, od := od, sy := sy, ph := ph, lit := lit }
  | .ldh d a imm8 st => some { st := st, op := 50, d := d, a := a, b := lo8 imm8, f := hi8 imm8 }
  | .ldhLit d a lit st => some { len := 2, st := st, op := 50, d := d, a := a, lit := lit }
  | .ldhX d a sc od sy ph imm st => some { len := 1, st := st, op := 50, d := d, a := a, sc := sc, od := od, sy := sy, ph := ph, imm := imm }
  | .ldhXlit d a sc od sy ph lit st => some { len := 3, st := st, op := 50, d := d, a := a, sc := sc, od := od, sy := sy, ph := ph, lit := lit }
  | .ldhz d a imm8 st => some { st := st, op := 51, d := d, a := a, b := lo8 imm8, f := hi8 imm8 }
  | .ldhzLit d a lit st => some { len := 2, st := st, op := 51, d := d, a := a, lit := lit }
  | .ldhzX d a sc od sy ph imm st => some { len := 1, st := st, op := 51, d := d, a := a, sc := sc, od := od, sy := sy, ph := ph, imm := imm }
  | .ldhzXlit d a sc od sy ph lit st => some { len := 3, st := st, op := 51, d := d, a := a, sc := sc, od := od, sy := sy, ph := ph, lit := lit }
  | .ldw d a imm8 st => some { st := st, op := 52, d := d, a := a, b := lo8 imm8, f := hi8 imm8 }
  | .ldwLit d a lit st => some { len := 2, st := st, op := 52, d := d, a := a, lit := lit }
  | .ldwX d a sc od sy ph imm st => some { len := 1, st := st, op := 52, d := d, a := a, sc := sc, od := od, sy := sy, ph := ph, imm := imm }
  | .ldwXlit d a sc od sy ph lit st => some { len := 3, st := st, op := 52, d := d, a := a, sc := sc, od := od, sy := sy, ph := ph, lit := lit }
  | .ldwz d a imm8 st => some { st := st, op := 53, d := d, a := a, b := lo8 imm8, f := hi8 imm8 }
  | .ldwzLit d a lit st => some { len := 2, st := st, op := 53, d := d, a := a, lit := lit }
  | .ldwzX d a sc od sy ph imm st => some { len := 1, st := st, op := 53, d := d, a := a, sc := sc, od := od, sy := sy, ph := ph, imm := imm }
  | .ldwzXlit d a sc od sy ph lit st => some { len := 3, st := st, op := 53, d := d, a := a, sc := sc, od := od, sy := sy, ph := ph, lit := lit }
  | .ldd d a imm8 st => some { st := st, op := 54, d := d, a := a, b := lo8 imm8, f := hi8 imm8 }
  | .lddLit d a lit st => some { len := 2, st := st, op := 54, d := d, a := a, lit := lit }
  | .lddX d a sc od sy ph imm st => some { len := 1, st := st, op := 54, d := d, a := a, sc := sc, od := od, sy := sy, ph := ph, imm := imm }
  | .lddXlit d a sc od sy ph lit st => some { len := 3, st := st, op := 54, d := d, a := a, sc := sc, od := od, sy := sy, ph := ph, lit := lit }
  | .stb d a imm8 st => some { st := st, op := 55, d := d, a := a, b := lo8 imm8, f := hi8 imm8 }
  | .stbLit d a lit st => some { len := 2, st := st, op := 55, d := d, a := a, lit := lit }
  | .stbX d a sc od sy ph imm st => some { len := 1, st := st, op := 55, d := d, a := a, sc := sc, od := od, sy := sy, ph := ph, imm := imm }
  | .stbXlit d a sc od sy ph lit st => some { len := 3, st := st, op := 55, d := d, a := a, sc := sc, od := od, sy := sy, ph := ph, lit := lit }
  | .sth d a imm8 st => some { st := st, op := 56, d := d, a := a, b := lo8 imm8, f := hi8 imm8 }
  | .sthLit d a lit st => some { len := 2, st := st, op := 56, d := d, a := a, lit := lit }
  | .sthX d a sc od sy ph imm st => some { len := 1, st := st, op := 56, d := d, a := a, sc := sc, od := od, sy := sy, ph := ph, imm := imm }
  | .sthXlit d a sc od sy ph lit st => some { len := 3, st := st, op := 56, d := d, a := a, sc := sc, od := od, sy := sy, ph := ph, lit := lit }
  | .stw d a imm8 st => some { st := st, op := 57, d := d, a := a, b := lo8 imm8, f := hi8 imm8 }
  | .stwLit d a lit st => some { len := 2, st := st, op := 57, d := d, a := a, lit := lit }
  | .stwX d a sc od sy ph imm st => some { len := 1, st := st, op := 57, d := d, a := a, sc := sc, od := od, sy := sy, ph := ph, imm := imm }
  | .stwXlit d a sc od sy ph lit st => some { len := 3, st := st, op := 57, d := d, a := a, sc := sc, od := od, sy := sy, ph := ph, lit := lit }
  | .std d a imm8 st => some { st := st, op := 58, d := d, a := a, b := lo8 imm8, f := hi8 imm8 }
  | .stdLit d a lit st => some { len := 2, st := st, op := 58, d := d, a := a, lit := lit }
  | .stdX d a sc od sy ph imm st => some { len := 1, st := st, op := 58, d := d, a := a, sc := sc, od := od, sy := sy, ph := ph, imm := imm }
  | .stdXlit d a sc od sy ph lit st => some { len := 3, st := st, op := 58, d := d, a := a, sc := sc, od := od, sy := sy, ph := ph, lit := lit }
  | .ldfe d a st => some { st := st, op := 59, d := d, a := a }
  | .ldfeX d a e sc od ph imm st => some { len := 1, st := st, op := 59, d := d, a := a, e := e, sc := sc, od := od, ph := ph, imm := imm }
  | .ldff d a st => some { st := st, op := 59, d := d, a := a, f := 1 }
  | .ldffX d a e sc od ph imm st => some { len := 1, st := st, op := 59, d := d, a := a, f := 1, e := e, sc := sc, od := od, ph := ph, imm := imm }
  | .ldtag d a st => some { st := st, op := 59, d := d, a := a, f := 2 }
  | .ldtagX d a sc od ph imm st => some { len := 1, st := st, op := 59, d := d, a := a, f := 2, sc := sc, od := od, ph := ph, imm := imm }
  | .stef d a b st => some { st := st, op := 60, d := d, a := a, b := b }
  | .stefX d a b sc od ph imm st => some { len := 1, st := st, op := 60, d := d, a := a, b := b, sc := sc, od := od, ph := ph, imm := imm }
  | .stff d a b st => some { st := st, op := 60, d := d, a := a, b := b, f := 1 }
  | .stffX d a b sc od ph imm st => some { len := 1, st := st, op := 60, d := d, a := a, b := b, f := 1, sc := sc, od := od, ph := ph, imm := imm }
  | .tclr a st => some { st := st, op := 60, a := a, f := 2 }
  | .tclrX a sc od ph imm st => some { len := 1, st := st, op := 60, a := a, f := 2, sc := sc, od := od, ph := ph, imm := imm }
  | .tfill a st => some { st := st, op := 60, a := a, f := 3 }
  | .tfillX a sc od ph imm st => some { len := 1, st := st, op := 60, a := a, f := 3, sc := sc, od := od, ph := ph, imm := imm }
  | .aadd d a b st => some { st := st, op := 61, d := d, a := a, b := b }
  | .aaddX d a b sc od ph imm st => some { len := 1, st := st, op := 61, d := d, a := a, b := b, sc := sc, od := od, ph := ph, imm := imm }
  | .amin d a b st => some { st := st, op := 61, d := d, a := a, b := b, f := 1 }
  | .aminX d a b sc od ph imm st => some { len := 1, st := st, op := 61, d := d, a := a, b := b, f := 1, sc := sc, od := od, ph := ph, imm := imm }
  | .amax d a b st => some { st := st, op := 61, d := d, a := a, b := b, f := 2 }
  | .amaxX d a b sc od ph imm st => some { len := 1, st := st, op := 61, d := d, a := a, b := b, f := 2, sc := sc, od := od, ph := ph, imm := imm }
  | .aminz d a b st => some { st := st, op := 61, d := d, a := a, b := b, f := 3 }
  | .aminzX d a b sc od ph imm st => some { len := 1, st := st, op := 61, d := d, a := a, b := b, f := 3, sc := sc, od := od, ph := ph, imm := imm }
  | .aand d a b st => some { st := st, op := 62, d := d, a := a, b := b }
  | .aandX d a b sc od ph imm st => some { len := 1, st := st, op := 62, d := d, a := a, b := b, sc := sc, od := od, ph := ph, imm := imm }
  | .aor d a b st => some { st := st, op := 62, d := d, a := a, b := b, f := 1 }
  | .aorX d a b sc od ph imm st => some { len := 1, st := st, op := 62, d := d, a := a, b := b, f := 1, sc := sc, od := od, ph := ph, imm := imm }
  | .axor d a b st => some { st := st, op := 62, d := d, a := a, b := b, f := 2 }
  | .axorX d a b sc od ph imm st => some { len := 1, st := st, op := 62, d := d, a := a, b := b, f := 2, sc := sc, od := od, ph := ph, imm := imm }
  | .aswp d a b st => some { st := st, op := 62, d := d, a := a, b := b, f := 3 }
  | .aswpX d a b sc od ph imm st => some { len := 1, st := st, op := 62, d := d, a := a, b := b, f := 3, sc := sc, od := od, ph := ph, imm := imm }
  | .acas d a b st => some { st := st, op := 63, d := d, a := a, b := b }
  | .acasX d a b c sc od ph imm st => some { len := 1, st := st, op := 63, d := d, a := a, b := b, c := c, sc := sc, od := od, ph := ph, imm := imm }
  | .aaddf d a b st => some { st := st, op := 63, d := d, a := a, b := b, f := 1 }
  | .aaddfX d a b sc od ph imm st => some { len := 1, st := st, op := 63, d := d, a := a, b := b, f := 1, sc := sc, od := od, ph := ph, imm := imm }
  | .amaxf d a b st => some { st := st, op := 63, d := d, a := a, b := b, f := 2 }
  | .amaxfX d a b sc od ph imm st => some { len := 1, st := st, op := 63, d := d, a := a, b := b, f := 2, sc := sc, od := od, ph := ph, imm := imm }
  | .ainc d a b st => some { st := st, op := 63, d := d, a := a, b := b, f := 3 }
  | .aincX d a b sc od ph imm st => some { len := 1, st := st, op := 63, d := d, a := a, b := b, f := 3, sc := sc, od := od, ph := ph, imm := imm }
  | .fence st => some { st := st, op := 64 }
  | .fenceX st => some { len := 1, st := st, op := 64 }
  | .fencelb st => some { st := st, op := 64, f := 1 }
  | .fencelbX st => some { len := 1, st := st, op := 64, f := 1 }
  | .winwait d a st => some { st := st, op := 64, d := d, a := a, f := 2 }
  | .winwaitX d a st => some { len := 1, st := st, op := 64, d := d, a := a, f := 2 }
  | .ackwait st => some { st := st, op := 64, f := 3 }
  | .ackwaitX st => some { len := 1, st := st, op := 64, f := 3 }
  | .acq d a st => some { st := st, op := 65, d := d, a := a }
  | .acqX d a sc imm st => some { len := 1, st := st, op := 65, d := d, a := a, sc := sc, imm := imm }
  | .rel d a st => some { st := st, op := 65, d := d, a := a, f := 1 }
  | .relX d a sc imm st => some { len := 1, st := st, op := 65, d := d, a := a, f := 1, sc := sc, imm := imm }
  | .bind d a b st => some { st := st, op := 65, d := d, a := a, b := b, f := 2 }
  | .bindX d a b st => some { len := 1, st := st, op := 65, d := d, a := a, b := b, f := 2 }
  | .unbind a st => some { st := st, op := 65, a := a, f := 3 }
  | .unbindX a st => some { len := 1, st := st, op := 65, a := a, f := 3 }
  | .tlwait a b st => some { st := st, op := 66, a := a, b := b }
  | .tlwaitX a b st => some { len := 1, st := st, op := 66, a := a, b := b }
  | .tlread d a st => some { st := st, op := 66, d := d, a := a, f := 1 }
  | .tlreadX d a st => some { len := 1, st := st, op := 66, d := d, a := a, f := 1 }
  | .tladd d a b st => some { st := st, op := 66, d := d, a := a, b := b, f := 2 }
  | .tladdX d a b sc st => some { len := 1, st := st, op := 66, d := d, a := a, b := b, f := 2, sc := sc }
  | .qwait a st => some { st := st, op := 67, a := a }
  | .qwaitX a st => some { len := 1, st := st, op := 67, a := a }
  | .qflip st => some { st := st, op := 67, f := 1 }
  | .qflipX st => some { len := 1, st := st, op := 67, f := 1 }
  | .qread d st => some { st := st, op := 67, d := d, f := 2 }
  | .qreadX d st => some { len := 1, st := st, op := 67, d := d, f := 2 }
  | .barc d a st => some { st := st, op := 68, d := d, a := a }
  | .barcX d a st => some { len := 1, st := st, op := 68, d := d, a := a }
  | .barh d a st => some { st := st, op := 68, d := d, a := a, f := 1 }
  | .barhX d a st => some { len := 1, st := st, op := 68, d := d, a := a, f := 1 }
  | .pref a st => some { st := st, op := 69, a := a }
  | .prefX a imm st => some { len := 1, st := st, op := 69, a := a, imm := imm }
  | .cwb a b st => some { st := st, op := 69, a := a, b := b, f := 1 }
  | .cwbX a b imm st => some { len := 1, st := st, op := 69, a := a, b := b, f := 1, imm := imm }
  | .cinv a b st => some { st := st, op := 69, a := a, b := b, f := 2 }
  | .cinvX a b imm st => some { len := 1, st := st, op := 69, a := a, b := b, f := 2, imm := imm }
  | .vmand d a b st => some { st := st, op := 70, d := d, a := a, b := b }
  | .vmandX d a b fmt st => some { len := 1, st := st, op := 70, d := d, a := a, b := b, fmt := fmt }
  | .vmor d a b st => some { st := st, op := 70, d := d, a := a, b := b, f := 1 }
  | .vmorX d a b fmt st => some { len := 1, st := st, op := 70, d := d, a := a, b := b, f := 1, fmt := fmt }
  | .vmxor d a b st => some { st := st, op := 70, d := d, a := a, b := b, f := 2 }
  | .vmxorX d a b fmt st => some { len := 1, st := st, op := 70, d := d, a := a, b := b, f := 2, fmt := fmt }
  | .vmnot d a st => some { st := st, op := 70, d := d, a := a, f := 3 }
  | .vmnotX d a fmt st => some { len := 1, st := st, op := 70, d := d, a := a, f := 3, fmt := fmt }
  | .vmpop d a st => some { st := st, op := 71, d := d, a := a }
  | .vmpopX d a fmt mk st => some { len := 1, st := st, op := 71, d := d, a := a, msk := mk, fmt := fmt }
  | .vmfirst d a st => some { st := st, op := 71, d := d, a := a, f := 1 }
  | .vmfirstX d a fmt mk st => some { len := 1, st := st, op := 71, d := d, a := a, f := 1, msk := mk, fmt := fmt }
  | .viota d st => some { st := st, op := 71, d := d, f := 2 }
  | .viotaX d fmt mk mp tp st => some { len := 1, st := st, op := 71, d := d, f := 2, msk := mk, mp := mp, tp := tp, fmt := fmt }
  | .vmov d a st => some { st := st, op := 72, d := d, a := a }
  | .vmovX d a fmt mk mp tp st => some { len := 1, st := st, op := 72, d := d, a := a, msk := mk, mp := mp, tp := tp, fmt := fmt }
  | .vbcast d a st => some { st := st, op := 72, d := d, a := a, f := 1 }
  | .vbcastX d a fmt mk mp tp st => some { len := 1, st := st, op := 72, d := d, a := a, f := 1, msk := mk, mp := mp, tp := tp, fmt := fmt }
  | .vextr d a b st => some { st := st, op := 72, d := d, a := a, b := b, f := 2 }
  | .vextrX d a b fmt st => some { len := 1, st := st, op := 72, d := d, a := a, b := b, f := 2, fmt := fmt }
  | .vins d a b st => some { st := st, op := 72, d := d, a := a, b := b, f := 3 }
  | .vinsX d a b fmt st => some { len := 1, st := st, op := 72, d := d, a := a, b := b, f := 3, fmt := fmt }
  | .vperm d a b st => some { st := st, op := 73, d := d, a := a, b := b }
  | .vpermX d a b fmt mk mp tp st => some { len := 1, st := st, op := 73, d := d, a := a, b := b, msk := mk, mp := mp, tp := tp, fmt := fmt }
  | .vslideu d a b st => some { st := st, op := 73, d := d, a := a, b := b, f := 1 }
  | .vslideuX d a b fmt mk mp tp st => some { len := 1, st := st, op := 73, d := d, a := a, b := b, f := 1, msk := mk, mp := mp, tp := tp, fmt := fmt }
  | .vslided d a b st => some { st := st, op := 73, d := d, a := a, b := b, f := 2 }
  | .vslidedX d a b fmt mk mp tp st => some { len := 1, st := st, op := 73, d := d, a := a, b := b, f := 2, msk := mk, mp := mp, tp := tp, fmt := fmt }
  | .vcompr d a st => some { st := st, op := 74, d := d, a := a }
  | .vcomprX d a fmt mk tp st => some { len := 1, st := st, op := 74, d := d, a := a, msk := mk, tp := tp, fmt := fmt }
  | .vexpnd d a st => some { st := st, op := 74, d := d, a := a, f := 1 }
  | .vexpndX d a fmt mk mp tp st => some { len := 1, st := st, op := 74, d := d, a := a, f := 1, msk := mk, mp := mp, tp := tp, fmt := fmt }
  | .vredsum d a b st => some { st := st, op := 75, d := d, a := a, b := b }
  | .vredsumX d a b fmt mk st => some { len := 1, st := st, op := 75, d := d, a := a, b := b, msk := mk, fmt := fmt }
  | .vredmax d a b st => some { st := st, op := 75, d := d, a := a, b := b, f := 1 }
  | .vredmaxX d a b fmt mk st => some { len := 1, st := st, op := 75, d := d, a := a, b := b, f := 1, msk := mk, fmt := fmt }
  | .vredmin d a b st => some { st := st, op := 75, d := d, a := a, b := b, f := 2 }
  | .vredminX d a b fmt mk st => some { len := 1, st := st, op := 75, d := d, a := a, b := b, f := 2, msk := mk, fmt := fmt }
  | .vld d a st => some { st := st, op := 76, d := d, a := a }
  | .vldX d a fmt mk mp tp ph imm st => some { len := 1, st := st, op := 76, d := d, a := a, msk := mk, mp := mp, tp := tp, fmt := fmt, ph := ph, imm := imm }
  | .vst d a st => some { st := st, op := 76, d := d, a := a, f := 1 }
  | .vstX d a fmt mk ph imm st => some { len := 1, st := st, op := 76, d := d, a := a, f := 1, msk := mk, fmt := fmt, ph := ph, imm := imm }
  | .vlds d a b st => some { st := st, op := 76, d := d, a := a, b := b, f := 2 }
  | .vldsX d a b fmt mk mp tp ph imm st => some { len := 1, st := st, op := 76, d := d, a := a, b := b, f := 2, msk := mk, mp := mp, tp := tp, fmt := fmt, ph := ph, imm := imm }
  | .vsts d a b st => some { st := st, op := 76, d := d, a := a, b := b, f := 3 }
  | .vstsX d a b fmt mk ph imm st => some { len := 1, st := st, op := 76, d := d, a := a, b := b, f := 3, msk := mk, fmt := fmt, ph := ph, imm := imm }
  | .vgath d a b st => some { st := st, op := 77, d := d, a := a, b := b }
  | .vgathX d a b fmt mk mp tp ph imm st => some { len := 1, st := st, op := 77, d := d, a := a, b := b, msk := mk, mp := mp, tp := tp, fmt := fmt, ph := ph, imm := imm }
  | .vscat d a b st => some { st := st, op := 77, d := d, a := a, b := b, f := 1 }
  | .vscatX d a b fmt mk ph imm st => some { len := 1, st := st, op := 77, d := d, a := a, b := b, f := 1, msk := mk, fmt := fmt, ph := ph, imm := imm }
  | .vcvtp d a b fmt mk mp tp sat sr st => some { len := 1, st := st, op := 78, d := d, a := a, b := b, msk := mk, mp := mp, tp := tp, fmt := fmt, imm := packImm [(30, sat.toNat), (31, sr.toNat)] }
  | .vcvtu d a b fmt mk mp tp sat sr st => some { len := 1, st := st, op := 78, d := d, a := a, b := b, f := 1, msk := mk, mp := mp, tp := tp, fmt := fmt, imm := packImm [(30, sat.toNat), (31, sr.toNat)] }
  | .vcvti d a fmt mk mp tp sat sr st => some { len := 1, st := st, op := 78, d := d, a := a, f := 2, msk := mk, mp := mp, tp := tp, fmt := fmt, imm := packImm [(30, sat.toNat), (31, sr.toNat)] }
  | .vqscale d a e fmt tp sat sr st => some { len := 1, st := st, op := 78, d := d, a := a, f := 3, e := e, tp := tp, fmt := fmt, imm := packImm [(30, sat.toNat), (31, sr.toNat)] }
  | .vtag d st => some { st := st, op := 79, d := d }
  | .vtagX d fmt st => some { len := 1, st := st, op := 79, d := d, fmt := fmt }
  | .vtagr d a st => some { st := st, op := 79, d := d, a := a, f := 1 }
  | .vtagrX d a st => some { len := 1, st := st, op := 79, d := d, a := a, f := 1 }
  | .vmerge3 d a b st => some { st := st, op := 79, d := d, a := a, b := b, f := 2 }
  | .vmerge3X d a b fmt mk mp tp st => some { len := 1, st := st, op := 79, d := d, a := a, b := b, f := 2, msk := mk, mp := mp, tp := tp, fmt := fmt }
  | .vsync st => some { st := st, op := 79, f := 3 }
  | .vsyncX st => some { len := 1, st := st, op := 79, f := 3 }
  | .vadd d a b ha hb st => some { st := st, op := 80, d := d, a := a, b := b, f := hb ++ ha }
  | .vaddX d a b ha hb fmt mk mp tp st => some { len := 1, st := st, op := 80, d := d, a := a, b := b, f := hb ++ ha, msk := mk, mp := mp, tp := tp, fmt := fmt }
  | .vsub d a b ha hb st => some { st := st, op := 81, d := d, a := a, b := b, f := hb ++ ha }
  | .vsubX d a b ha hb fmt mk mp tp st => some { len := 1, st := st, op := 81, d := d, a := a, b := b, f := hb ++ ha, msk := mk, mp := mp, tp := tp, fmt := fmt }
  | .vmul d a b ha hb st => some { st := st, op := 82, d := d, a := a, b := b, f := hb ++ ha }
  | .vmulX d a b ha hb fmt mk mp tp st => some { len := 1, st := st, op := 82, d := d, a := a, b := b, f := hb ++ ha, msk := mk, mp := mp, tp := tp, fmt := fmt }
  | .vfma d a b ha hb st => some { st := st, op := 83, d := d, a := a, b := b, f := hb ++ ha }
  | .vfmaX d a b ha hb c hc fmt mk mp tp st => some { len := 1, st := st, op := 83, d := d, a := a, b := b, f := hb ++ ha, c := c, msk := mk, mp := mp, tp := tp, fmt := fmt, hc := hc }
  | .vfnma d a b ha hb st => some { st := st, op := 84, d := d, a := a, b := b, f := hb ++ ha }
  | .vfnmaX d a b ha hb c hc fmt mk mp tp st => some { len := 1, st := st, op := 84, d := d, a := a, b := b, f := hb ++ ha, c := c, msk := mk, mp := mp, tp := tp, fmt := fmt, hc := hc }
  | .vmin d a b ha hb st => some { st := st, op := 85, d := d, a := a, b := b, f := hb ++ ha }
  | .vminX d a b ha hb fmt mk mp tp st => some { len := 1, st := st, op := 85, d := d, a := a, b := b, f := hb ++ ha, msk := mk, mp := mp, tp := tp, fmt := fmt }
  | .vmax d a b ha hb st => some { st := st, op := 86, d := d, a := a, b := b, f := hb ++ ha }
  | .vmaxX d a b ha hb fmt mk mp tp st => some { len := 1, st := st, op := 86, d := d, a := a, b := b, f := hb ++ ha, msk := mk, mp := mp, tp := tp, fmt := fmt }
  | .vabs d a ha st => some { st := st, op := 87, d := d, a := a, f := 0#1 ++ ha }
  | .vabsX d a ha fmt mk mp tp st => some { len := 1, st := st, op := 87, d := d, a := a, f := 0#1 ++ ha, msk := mk, mp := mp, tp := tp, fmt := fmt }
  | .vneg d a ha st => some { st := st, op := 88, d := d, a := a, f := 0#1 ++ ha }
  | .vnegX d a ha fmt mk mp tp st => some { len := 1, st := st, op := 88, d := d, a := a, f := 0#1 ++ ha, msk := mk, mp := mp, tp := tp, fmt := fmt }
  | .vrcp d a ha st => some { st := st, op := 89, d := d, a := a, f := 0#1 ++ ha }
  | .vrcpX d a ha fmt mk mp tp st => some { len := 1, st := st, op := 89, d := d, a := a, f := 0#1 ++ ha, msk := mk, mp := mp, tp := tp, fmt := fmt }
  | .vrsq d a ha st => some { st := st, op := 90, d := d, a := a, f := 0#1 ++ ha }
  | .vrsqX d a ha fmt mk mp tp st => some { len := 1, st := st, op := 90, d := d, a := a, f := 0#1 ++ ha, msk := mk, mp := mp, tp := tp, fmt := fmt }
  | .vexp2 d a ha st => some { st := st, op := 91, d := d, a := a, f := 0#1 ++ ha }
  | .vexp2X d a ha fmt mk mp tp st => some { len := 1, st := st, op := 91, d := d, a := a, f := 0#1 ++ ha, msk := mk, mp := mp, tp := tp, fmt := fmt }
  | .vlog2 d a ha st => some { st := st, op := 92, d := d, a := a, f := 0#1 ++ ha }
  | .vlog2X d a ha fmt mk mp tp st => some { len := 1, st := st, op := 92, d := d, a := a, f := 0#1 ++ ha, msk := mk, mp := mp, tp := tp, fmt := fmt }
  | .vtanh d a ha st => some { st := st, op := 93, d := d, a := a, f := 0#1 ++ ha }
  | .vtanhX d a ha fmt mk mp tp st => some { len := 1, st := st, op := 93, d := d, a := a, f := 0#1 ++ ha, msk := mk, mp := mp, tp := tp, fmt := fmt }
  | .vand d a b ha hb st => some { st := st, op := 94, d := d, a := a, b := b, f := hb ++ ha }
  | .vandX d a b ha hb fmt mk mp tp st => some { len := 1, st := st, op := 94, d := d, a := a, b := b, f := hb ++ ha, msk := mk, mp := mp, tp := tp, fmt := fmt }
  | .vor d a b ha hb st => some { st := st, op := 95, d := d, a := a, b := b, f := hb ++ ha }
  | .vorX d a b ha hb fmt mk mp tp st => some { len := 1, st := st, op := 95, d := d, a := a, b := b, f := hb ++ ha, msk := mk, mp := mp, tp := tp, fmt := fmt }
  | .vxor d a b ha hb st => some { st := st, op := 96, d := d, a := a, b := b, f := hb ++ ha }
  | .vxorX d a b ha hb fmt mk mp tp st => some { len := 1, st := st, op := 96, d := d, a := a, b := b, f := hb ++ ha, msk := mk, mp := mp, tp := tp, fmt := fmt }
  | .vshl d a b ha hb st => some { st := st, op := 97, d := d, a := a, b := b, f := hb ++ ha }
  | .vshlX d a b ha hb fmt mk mp tp st => some { len := 1, st := st, op := 97, d := d, a := a, b := b, f := hb ++ ha, msk := mk, mp := mp, tp := tp, fmt := fmt }
  | .vshr d a b ha hb st => some { st := st, op := 98, d := d, a := a, b := b, f := hb ++ ha }
  | .vshrX d a b ha hb fmt mk mp tp st => some { len := 1, st := st, op := 98, d := d, a := a, b := b, f := hb ++ ha, msk := mk, mp := mp, tp := tp, fmt := fmt }
  | .vshra d a b ha hb st => some { st := st, op := 99, d := d, a := a, b := b, f := hb ++ ha }
  | .vshraX d a b ha hb fmt mk mp tp st => some { len := 1, st := st, op := 99, d := d, a := a, b := b, f := hb ++ ha, msk := mk, mp := mp, tp := tp, fmt := fmt }
  | .vcmpeq d a b ha hb st => some { st := st, op := 100, d := d, a := a, b := b, f := hb ++ ha }
  | .vcmpeqX d a b ha hb fmt mk mp tp st => some { len := 1, st := st, op := 100, d := d, a := a, b := b, f := hb ++ ha, msk := mk, mp := mp, tp := tp, fmt := fmt }
  | .vcmplt d a b ha hb st => some { st := st, op := 101, d := d, a := a, b := b, f := hb ++ ha }
  | .vcmpltX d a b ha hb fmt mk mp tp st => some { len := 1, st := st, op := 101, d := d, a := a, b := b, f := hb ++ ha, msk := mk, mp := mp, tp := tp, fmt := fmt }
  | .vcmple d a b ha hb st => some { st := st, op := 102, d := d, a := a, b := b, f := hb ++ ha }
  | .vcmpleX d a b ha hb fmt mk mp tp st => some { len := 1, st := st, op := 102, d := d, a := a, b := b, f := hb ++ ha, msk := mk, mp := mp, tp := tp, fmt := fmt }
  | .vclaim d a st => some { st := st, op := 103, d := d, a := a }
  | .vreneg d st => some { st := st, op := 103, d := d, f := 1 }
  | .vrelease st => some { st := st, op := 103, f := 2 }
  | .mma d a b c e fmt n as bs z st => some { len := 1, st := st, op := 104, d := d, a := a, b := b, c := c, e := e, fmt := fmt, imm := packImm [(0, n.toNat), (8, as.toNat), (9, bs.toNat), (29, z.toNat)] }
  | .mmag d a b c e fmt n as bs z st => some { len := 1, st := st, op := 104, d := d, a := a, b := b, f := 1, c := c, e := e, fmt := fmt, imm := packImm [(0, n.toNat), (8, as.toNat), (9, bs.toNat), (29, z.toNat)] }
  | .mmas d a b c e fmt n as bs moff z st => some { len := 1, st := st, op := 105, d := d, a := a, b := b, c := c, e := e, fmt := fmt, imm := packImm [(0, n.toNat), (8, as.toNat), (9, bs.toNat), (10, moff.toNat), (29, z.toNat)] }
  | .mmax d a b c fmt n as z st => some { len := 1, st := st, op := 105, d := d, a := a, b := b, f := 1, c := c, fmt := fmt, imm := packImm [(0, n.toNat), (8, as.toNat), (29, z.toNat)] }
  | .mmamx d a b c e fmt n as bs sa sb z st => some { len := 1, st := st, op := 106, d := d, a := a, b := b, c := c, e := e, fmt := fmt, imm := packImm [(0, n.toNat), (8, as.toNat), (9, bs.toNat), (10, sa.toNat), (17, sb.toNat), (29, z.toNat)] }
  | .mmaws d a b c e fmt n as bs sa sb z st => some { len := 1, st := st, op := 106, d := d, a := a, b := b, f := 1, c := c, e := e, fmt := fmt, imm := packImm [(0, n.toNat), (8, as.toNat), (9, bs.toNat), (10, sa.toNat), (17, sb.toNat), (29, z.toNat)] }
  | .tld d a st => some { st := st, op := 107, d := d, a := a }
  | .tldX d a fmt imm st => some { len := 1, st := st, op := 107, d := d, a := a, fmt := fmt, imm := imm }
  | .tst d a b st => some { st := st, op := 107, d := d, a := a, b := b, f := 1 }
  | .tstX d a b fmt imm st => some { len := 1, st := st, op := 107, d := d, a := a, b := b, f := 1, fmt := fmt, imm := imm }
  | .tzero d st => some { st := st, op := 107, d := d, f := 2 }
  | .tzeroX d fmt st => some { len := 1, st := st, op := 107, d := d, f := 2, fmt := fmt }
  | .aclr d st => some { st := st, op := 108, d := d }
  | .aclrX d st => some { len := 1, st := st, op := 108, d := d }
  | .ald d a st => some { st := st, op := 108, d := d, a := a, f := 1 }
  | .aldX d a imm st => some { len := 1, st := st, op := 108, d := d, a := a, f := 1, imm := imm }
  | .ast d a b st => some { st := st, op := 108, d := d, a := a, b := b, f := 2 }
  | .astX d a b imm st => some { len := 1, st := st, op := 108, d := d, a := a, b := b, f := 2, imm := imm }
  | .aread d a b fmt st => some { len := 1, st := st, op := 108, d := d, a := a, b := b, f := 3, fmt := fmt }
  | .mdld d a b st => some { st := st, op := 109, d := d, a := a, b := b }
  | .mdldX d a b off st => some { len := 1, st := st, op := 109, d := d, a := a, b := b, imm := packImm [(0, off.toNat)] }
  | .scld d a b st => some { st := st, op := 109, d := d, a := a, b := b, f := 1 }
  | .scldX d a b off st => some { len := 1, st := st, op := 109, d := d, a := a, b := b, f := 1, imm := packImm [(0, off.toNat)] }
  | .orld d a b st => some { st := st, op := 109, d := d, a := a, b := b, f := 2 }
  | .orldX d a b st => some { len := 1, st := st, op := 109, d := d, a := a, b := b, f := 2 }
  | .gangcfg a st => some { st := st, op := 110, a := a }
  | .cpy d a b st => some { st := st, op := 112, d := d, a := a, b := b }
  | .cpyX d a b c od ph ctx st => some { len := 1, st := st, op := 112, d := d, a := a, b := b, c := c, od := od, ph := ph, imm := packImm [(0, ctx.toNat)] }
  | .cpyt d a b st => some { st := st, op := 112, d := d, a := a, b := b, f := 1 }
  | .cpytX d a b c od ph ctx tv st => some { len := 1, st := st, op := 112, d := d, a := a, b := b, f := 1, c := c, od := od, ph := ph, imm := packImm [(0, ctx.toNat), (4, tv.toNat)] }
  | .cpyg d a b st => some { st := st, op := 112, d := d, a := a, b := b, f := 2 }
  | .cpygX d a b c e fmt od ph ctx st => some { len := 1, st := st, op := 112, d := d, a := a, b := b, f := 2, c := c, e := e, fmt := fmt, od := od, ph := ph, imm := packImm [(0, ctx.toNat)] }
  | .barge d a b st => some { st := st, op := 113, d := d, a := a, b := b }
  | .bargeX d a b c od ph st => some { len := 1, st := st, op := 113, d := d, a := a, b := b, c := c, od := od, ph := ph }
  | .bargem d a b st => some { st := st, op := 113, d := d, a := a, b := b, f := 1 }
  | .bargemX d a b c e od ph cl st => some { len := 1, st := st, op := 113, d := d, a := a, b := b, f := 1, c := c, e := e, od := od, ph := ph, imm := packImm [(0, cl.toNat)] }
  | .send d a st => some { st := st, op := 114, d := d, a := a }
  | .sendX d a ph st => some { len := 1, st := st, op := 114, d := d, a := a, ph := ph }
  | .sendx d a b st => some { st := st, op := 114, d := d, a := a, b := b, f := 1 }
  | .sendxX d a b ph st => some { len := 1, st := st, op := 114, d := d, a := a, b := b, f := 1, ph := ph }
  | .msginfo d st => some { st := st, op := 114, d := d, f := 2 }
  | .msginfoX d st => some { len := 1, st := st, op := 114, d := d, f := 2 }
  | .aidle st => some { st := st, op := 114, f := 3 }
  | .aidleX st => some { len := 1, st := st, op := 114, f := 3 }
  | .aerase d a b st => some { st := st, op := 115, d := d, a := a, b := b }
  | .aeraseX d a b st => some { len := 1, st := st, op := 115, d := d, a := a, b := b }
  | .migrate d a b st => some { st := st, op := 115, d := d, a := a, b := b, f := 1 }
  | .migrateX d a b c st => some { len := 1, st := st, op := 115, d := d, a := a, b := b, f := 1, c := c }
  | .balloc d a st => some { st := st, op := 116, d := d, a := a }
  | .ballocX d a e loose st => some { len := 1, st := st, op := 116, d := d, a := a, e := e, imm := packImm [(0, loose.toNat)] }
  | .bfree d a st => some { st := st, op := 116, d := d, a := a, f := 1 }
  | .bfreeX d a st => some { len := 1, st := st, op := 116, d := d, a := a, f := 1 }
  | .bshare d a b st => some { st := st, op := 116, d := d, a := a, b := b, f := 2 }
  | .bshareX d a b loose st => some { len := 1, st := st, op := 116, d := d, a := a, b := b, f := 2, imm := packImm [(0, loose.toNat)] }
  | .btrunc d a b st => some { st := st, op := 116, d := d, a := a, b := b, f := 3 }
  | .btruncX d a b st => some { len := 1, st := st, op := 116, d := d, a := a, b := b, f := 3 }
  | .bquery d a st => some { st := st, op := 117, d := d, a := a }
  | .bqueryX d a e st => some { len := 1, st := st, op := 117, d := d, a := a, e := e }
  | .bseqnew d a b st => some { st := st, op := 117, d := d, a := a, b := b, f := 1 }
  | .bseqnewX d a b st => some { len := 1, st := st, op := 117, d := d, a := a, b := b, f := 1 }
  | .bseqdrop d a st => some { st := st, op := 117, d := d, a := a, f := 2 }
  | .bseqdropX d a st => some { len := 1, st := st, op := 117, d := d, a := a, f := 2 }
  | .ptx d a b st => some { st := st, op := 118, d := d, a := a, b := b }
  | .ptxX d a b st => some { len := 1, st := st, op := 118, d := d, a := a, b := b }
  | .ptfill d a b st => some { st := st, op := 118, d := d, a := a, b := b, f := 1 }
  | .ptfillX d a b c st => some { len := 1, st := st, op := 118, d := d, a := a, b := b, f := 1, c := c }
  | .ptinv a b st => some { st := st, op := 118, a := a, b := b, f := 2 }
  | .ptinvX a b st => some { len := 1, st := st, op := 118, a := a, b := b, f := 2 }
  | .attnq d a st => some { st := st, op := 119, d := d, a := a }
  | .attnqX d a od ph st => some { len := 1, st := st, op := 119, d := d, a := a, od := od, ph := ph }
  | .refwait d a st => some { st := st, op := 119, d := d, a := a, f := 1 }
  | .refwaitX d a guard st => some { len := 1, st := st, op := 119, d := d, a := a, f := 1, imm := packImm [(0, guard.toNat)] }
  | .mcst d a b st => some { st := st, op := 120, d := d, a := a, b := b }
  | .mcstX d a b c od ph st => some { len := 1, st := st, op := 120, d := d, a := a, b := b, c := c, od := od, ph := ph }
  | .mcstc d a b st => some { st := st, op := 120, d := d, a := a, b := b, f := 1 }
  | .mcstcX d a b c e od ph st => some { len := 1, st := st, op := 120, d := d, a := a, b := b, f := 1, c := c, e := e, od := od, ph := ph }
  | .mcseq d a st => some { st := st, op := 120, d := d, a := a, f := 2 }
  | .mcseqX d a st => some { len := 1, st := st, op := 120, d := d, a := a, f := 2 }
  | .illegalInstruction _ => none
  | .windowBoundary => none
  | .stretchNoticeArrive _ _ _ => none
  | .launchHandleExpire _ => none
  | .keyZeroiseComplete _ => none
  | .syscResult _ _ _ => none
  | .cleozInterrupt _ => none
  | .timeDomainLeave => none
  | .timeDomainRejoin => none
  | .ethernetPortEnable _ _ => none
  | .fusedMinimumRaise _ => none
  | .rootKeyRevoke => none
  | .corePowerGating _ => none
  | .towlineRouteDown _ => none

/-- Word 0 of some fields. -/
def Raw.word0 (r : Raw) : W32 :=
  packImm [(0, r.len.toNat), (2, r.st.toNat), (5, r.op.toNat), (12, r.d.toNat), (18, r.a.toNat), (24, r.b.toNat),
    (30, r.f.toNat)]

/-- Word 1 of some fields. -/
def Raw.word1 (r : Raw) : W32 :=
  packImm [(0, r.c.toNat), (6, r.e.toNat), (12, r.msk.toNat), (15, r.mp.toNat), (16, r.tp.toNat), (17, r.fmt.toNat),
    (21, r.sc.toNat), (23, r.od.toNat), (25, r.sy.toNat), (27, r.hc.toNat), (28, r.ph.toNat), (29, r.top.toNat)]

/-- The words of some fields (Table 6.1). -/
def Raw.words (r : Raw) : List W32 :=
  let l := [r.lit.extractLsb' 0 32, r.lit.extractLsb' 32 32]
  if r.len = 0 then [r.word0]
  else if r.len = 1 then [r.word0, r.word1, r.imm]
  else if r.len = 2 then r.word0 :: l
  else [r.word0, r.word1, r.imm] ++ l

/-- The words of an instruction; an event has none. -/
def encode (i : Instr) : List W32 :=
  match encodeRaw i with
  | some r => r.words
  | none => []

/-- The bytes of an instruction as memory holds them. -/
def encodeBytes (i : Instr) : List Byte := ((encode i).map bytesOfWord).flatten

/-- Has the instruction words at all, and does it pass the checks that they decide? -/
def Instr.encodable (i : Instr) : Bool := i.wf && (encodeRaw i).isSome

end Sys2Proof
end

