-- ==== Sys2Proof/Config.lean ====
section
/-! DEFINITION. The free values: what the manual leaves to the hardware, or does not state. None has a
body, so no proof can rest on a number. See log entries 12 and 13. -/

namespace Sys2Proof.Config

/-- A fresh number that nothing constrains, one for each value of the counter `State.fresh`. -/
opaque freeNat : Nat → Nat

/-- The random part of a back-off (R224), before it is brought into its range. -/
opaque backoff : Nat → Nat

/-- The rounding of a function-unit result (R258) where the interval that the model computes does not
decide it: function number, operand encoding. -/
opaque functionUnit : Nat → Nat → Nat

/-- How many sequences a table area of this length holds (R313, Table 22.6), the length in 64 KiB. -/
opaque seqCapacity : Nat → Nat

end Sys2Proof.Config
end

