-- ==== Sys2Proof/Machine/Numbers.lean ====
section
/-! DEFINITION. Number formats, rounding and exact arithmetic (R163 to R174, R194 to R196, R258). Values
are exact dyadic numbers; one rounding at the end gives the encoding. -/

namespace Sys2Proof.Machine

/-- The value of an encoding: NaN, an infinity, or (−1)^neg × m × 2^e. -/
inductive Num where
  | nan
  | inf (neg : Bool)
  | fin (neg : Bool) (m : Nat) (e : Int)
  deriving DecidableEq, Repr

/-- A floating-point layout (Table 7.2): exponent and fraction bits, bias, largest finite code,
canonical NaN. -/
structure Layout where
  ebits : Nat
  mbits : Nat
  bias  : Nat
  top   : Nat
  nan   : Nat
  /-- Has infinities. -/
  infs  : Bool

def layout (fmt : Nat) : Layout :=
  match fmt with
  | 4 => ⟨2, 1, 1, 0x7, 0x7, false⟩
  | 5 => ⟨4, 3, 7, 0x7E, 0x7F, false⟩
  | 6 => ⟨5, 2, 15, 0x7B, 0x7E, true⟩
  | 7 => ⟨5, 10, 15, 0x7BFF, 0x7E00, true⟩
  | 8 => ⟨8, 7, 127, 0x7F7F, 0x7FC0, true⟩
  | _ => ⟨8, 23, 127, 0x7F7FFFFF, 0x7FC00000, true⟩

/-- Element width in bits (Table 7.1); RAW and MASK move as 32 bits (R249). -/
def fmtWidth (fmt : Nat) : Nat :=
  match fmt with
  | 1 | 5 | 6 | 11 => 8
  | 2 | 7 | 8 => 16
  | 4 => 4
  | _ => 32

def isFloatFmt (fmt : Nat) : Bool := fmt == 7 || fmt == 8 || fmt == 9
def isIntFmt (fmt : Nat) : Bool := fmt == 1 || fmt == 2 || fmt == 3

/-- The value of an encoding (R164, R167). -/
def numOf (fmt x : Nat) : Num :=
  if fmt = 11 then
    if x % 256 = 255 then .nan else .fin false 1 ((x % 256 : Nat) - 127)
  else
    let l := layout fmt
    let x := x % 2 ^ (1 + l.ebits + l.mbits)
    let neg := x / 2 ^ (l.ebits + l.mbits) == 1
    let mag := x % 2 ^ (l.ebits + l.mbits)
    let e := mag / 2 ^ l.mbits
    let f := mag % 2 ^ l.mbits
    if l.infs && mag == l.top + 1 then .inf neg
    else if decide (l.top < mag) then .nan
    else if e = 0 then .fin neg f (1 - l.bias - l.mbits)
    else .fin neg (2 ^ l.mbits + f) ((e : Int) - l.bias - l.mbits)

/-- How to round: to nearest even, or stochastically with the draw u (R172). -/
inductive Rounding where
  | rne
  | sr (u : Nat)

/-- `m × 2^e` rounded to an integer multiple of 2^q: the multiple. -/
def quantise (rd : Rounding) (m : Nat) (e q : Int) : Nat :=
  if q ≤ e then m * 2 ^ (e - q).toNat
  else
    let d := (q - e).toNat
    let n := m / 2 ^ d
    let r := m % 2 ^ d
    match rd with
    | .rne => if 2 * r > 2 ^ d ∨ (2 * r = 2 ^ d ∧ n % 2 = 1) then n + 1 else n
    | .sr u => if u < r * 65536 / 2 ^ d then n + 1 else n

/-- The magnitude code of `m × 2^e` as if the exponent range were unbounded (R170). Codes rise with
the magnitude. -/
def magCode (l : Layout) (rd : Rounding) (m : Nat) (e : Int) : Nat :=
  if m = 0 then 0
  else
    let q := max ((Nat.log2 m : Int) + e - l.mbits) (1 - (l.bias : Int) - l.mbits)
    let n := quantise rd m e q
    -- exponent field 0 for the subnormal quantum; a carry out of the fraction adds to the field
    (q - (1 - (l.bias : Int) - l.mbits)).toNat * 2 ^ l.mbits + n

def signBit (l : Layout) (neg : Bool) : Nat := if neg then 2 ^ (l.ebits + l.mbits) else 0

/-- The encoding of a value in a format, with the outcomes of Table 7.4. -/
def encodeNum (fmt : Nat) (rd : Rounding) (sat : Bool) (x : Num) : Nat :=
  let l := layout fmt
  match x with
  | .nan => l.nan
  | .inf neg =>
    if sat || fmt == 4 then signBit l neg + l.top
    else if l.infs then signBit l neg + l.top + 1
    else l.nan
  | .fin neg m e =>
    let c := magCode l rd m e
    if c ≤ l.top then signBit l neg + c
    else if sat || fmt == 4 then signBit l neg + l.top
    else if l.infs then signBit l neg + l.top + 1
    else l.nan

def rne (fmt : Nat) (x : Num) : Nat := encodeNum fmt .rne false x
/-- Rounds a value to binary32 and reads it back. -/
def round32 (x : Num) : Num := numOf 9 (rne 9 x)

/-! ## Exact arithmetic (R165, R166) -/

def Num.neg : Num → Num
  | .nan => .nan
  | .inf s => .inf (!s)
  | .fin s m e => .fin (!s) m e

def Num.abs : Num → Num
  | .nan => .nan
  | .inf _ => .inf false
  | .fin _ m e => .fin false m e

/-- The signed multiple of 2^q that a finite value is, for q at or below its exponent. -/
def scaled (neg : Bool) (m : Nat) (e q : Int) : Int :=
  let v : Int := (m * 2 ^ (e - q).toNat : Nat)
  if neg then -v else v

/-- Exact sum; an exact zero is +0 unless both operands are −0. -/
def Num.add : Num → Num → Num
  | .nan, _ => .nan
  | _, .nan => .nan
  | .inf a, .inf b => if a = b then .inf a else .nan
  | .inf a, _ => .inf a
  | _, .inf b => .inf b
  | .fin a m e, .fin b n f =>
    let q := min e f
    let v := scaled a m e q + scaled b n f q
    if v = 0 then .fin (a && b && m == 0 && n == 0) 0 q else .fin (decide (v < 0)) v.natAbs q

def Num.sub (x y : Num) : Num := x.add y.neg

def Num.mul : Num → Num → Num
  | .nan, _ => .nan
  | _, .nan => .nan
  | .inf a, .inf b => .inf (a != b)
  | .inf a, .fin b n _ => if n = 0 then .nan else .inf (a != b)
  | .fin a m _, .inf b => if m = 0 then .nan else .inf (a != b)
  | .fin a m e, .fin b n f => .fin (a != b) (m * n) (e + f)

/-- Quotient bits enough for every format, with a sticky last bit. -/
def Num.div : Num → Num → Num
  | .nan, _ => .nan
  | _, .nan => .nan
  | .inf _, .inf _ => .nan
  | .inf a, .fin b _ _ => .inf (a != b)
  | .fin a _ _, .inf b => .fin (a != b) 0 0
  | .fin a m e, .fin b n f =>
    if n = 0 then (if m = 0 then .nan else .inf (a != b))
    else
      let v := m * 2 ^ 64
      .fin (a != b) (2 * (v / n) + (if v % n = 0 then 0 else 1)) (e - f - 65)

/-- The integer square root of `n`, bit by bit from bit `k − 1` down, `r` found so far. -/
def isqrtFrom (n : Nat) : Nat → Nat → Nat
  | 0, r => r
  | k + 1, r => isqrtFrom n k (if (r + 2 ^ k) * (r + 2 ^ k) ≤ n then r + 2 ^ k else r)

def isqrt (n : Nat) : Nat := isqrtFrom n (Nat.log2 n / 2 + 1) 0

/-- √ with a sticky last bit; −0 stays, values below −0 give NaN (R194). -/
def Num.sqrt : Num → Num
  | .nan => .nan
  | .inf a => if a then .nan else .inf false
  | .fin a m e =>
    if m = 0 then .fin a 0 0
    else if a then .nan
    else
      let odd := e % 2 = 1
      let m := if odd then 2 * m else m
      let e := if odd then e - 1 else e
      let v := m * 2 ^ 128
      let r := isqrt v
      .fin false (2 * r + (if r * r = v then 0 else 1)) (e / 2 - 65)

/-- 1 ÷ √ (Table 10.3). -/
def Num.rsqrt : Num → Num
  | .nan => .nan
  | .inf a => if a then .nan else .fin false 0 0
  | .fin a m e =>
    if m = 0 then .inf a
    else if a then .nan
    else
      let odd := e % 2 = 1
      let m := if odd then 2 * m else m
      let e := if odd then e - 1 else e
      let v := 2 ^ 256 / m
      let r := isqrt v
      .fin false (2 * r + (if r * r * m = 2 ^ 256 then 0 else 1)) (-(e / 2) - 129)

/-- Order of two values; `none` with a NaN, −0 equal to +0. -/
def Num.cmp : Num → Num → Option Ordering
  | .nan, _ => none
  | _, .nan => none
  | .inf a, .inf b => some (if a = b then .eq else if a then .lt else .gt)
  | .inf a, _ => some (if a then .lt else .gt)
  | _, .inf b => some (if b then .gt else .lt)
  | .fin a m e, .fin b n f => some (compare (scaled a m e (min e f)) (scaled b n f (min e f)))

def Num.isNeg : Num → Bool
  | .nan => false
  | .inf a => a
  | .fin a _ _ => a

/-- Minimum and maximum of R165: the other operand beside one NaN, −0 below +0. -/
def Num.min (x y : Num) : Num :=
  match x.cmp y with
  | none => if x = .nan then y else x
  | some .lt => x
  | some .gt => y
  | some .eq => if x.isNeg then x else y
def Num.max (x y : Num) : Num :=
  match x.cmp y with
  | none => if x = .nan then y else x
  | some .lt => y
  | some .gt => x
  | some .eq => if x.isNeg then y else x

/-- Multiplies by 2^k. -/
def Num.scale (x : Num) (k : Int) : Num :=
  match x with
  | .fin a m e => .fin a m (e + k)
  | x => x

/-- Exact sum of products (R175): NaN and infinities by the IEEE rules, and an exact zero is −0 only
when every product is −0. -/
def sumExact : List Num → Num
  | [] => .fin false 0 0
  | [x] => x
  | x :: xs => x.add (sumExact xs)

/-! ## Integers (R171) -/

/-- Signed value of the low `w` bits. -/
def sintOf (w x : Nat) : Int :=
  let v := x % 2 ^ w
  if 2 ^ (w - 1) ≤ v then (v : Int) - 2 ^ w else v
/-- The low `w` bits of an integer. -/
def intBits (w : Nat) (v : Int) : Nat := (v % 2 ^ w).toNat
def clampInt (w : Nat) (v : Int) : Int := max (-(2 ^ (w - 1))) (min v (2 ^ (w - 1) - 1))
def numOfInt (v : Int) : Num := .fin (decide (v < 0)) v.natAbs 0

/-- Float to integer: rounded, clamped to `w` bits, NaN gives 0 (R171). -/
def intOfNum (w : Nat) (rd : Rounding) (x : Num) : Int :=
  match x with
  | .nan => 0
  | .inf a => if a then -(2 ^ (w - 1)) else 2 ^ (w - 1) - 1
  | .fin a m e =>
    let n : Int := quantise rd m e 0
    clampInt w (if a then -n else n)

/-! ## Function units (R258)

Fixed-point intervals of 256 fraction bits. When both ends of the interval round to one encoding, that is
the result; otherwise it is the free value of `Config.functionUnit` (DEDUCED, log entry 13). -/

def fxOne : Nat := 2 ^ 256
/-- ⌊ln 2 × 2^256⌋. -/
def fxLn2 : Nat := 80260960185991308862233904206310070533990667611589946606122867505419956976171

/-- exp(x) for 0 ≤ x < 1 in fixed point, by Horner's rule over `k` terms of its series. -/
def fxExp (x : Nat) : Nat → Nat → Nat
  | 0, acc => acc
  | k + 1, acc => fxExp x k (fxOne + x * acc / fxOne / (k + 1))

/-- 2^f for 0 ≤ f < 1 in fixed point. -/
def fxExp2 (f : Nat) : Nat := fxExp (f * fxLn2 / fxOne) 70 fxOne

/-- atanh(x) ÷ x by its series in x², Horner's rule over `k` terms: Σ (x²)^i ÷ (2i + 1). -/
def fxAtanhQ (x2 : Nat) : Nat → Nat → Nat
  | 0, acc => acc
  | k + 1, acc => fxAtanhQ x2 k (fxOne / (2 * k + 1) + x2 * acc / fxOne)

/-- ln(m ÷ 2^k) for 2^k ≤ m < 2^(k+1), in fixed point. -/
def fxLn (m k : Nat) : Nat :=
  let x := (m - 2 ^ k) * fxOne / (m + 2 ^ k)
  2 * (x * fxAtanhQ (x * x / fxOne) 90 0 / fxOne)

/-- Picks the rounding of a value known to lie in [v − 2^40, v + 2^40] × 2^e. (DEDUCED, log entry 13.) -/
def decided (fn fmt code : Nat) (neg : Bool) (v : Nat) (e : Int) : Nat :=
  let lo := rne fmt (.fin neg (v - 2 ^ 40) e)
  let hi := rne fmt (.fin neg (v + 2 ^ 40) e)
  if lo = hi then lo else Config.functionUnit fn code % 2 ^ fmtWidth fmt

/-- 2^x (R182, R258). (DEDUCED, log entry 13.) -/
def exp2Code (fmt code : Nat) : Nat :=
  match numOf fmt code with
  | .nan => rne fmt .nan
  | .inf a => if a then 0 else rne fmt (.inf false)
  | .fin a m e =>
    if m = 0 then rne fmt (.fin false 1 0)
    else if (Nat.log2 m : Int) + e ≥ 10 then (if a then 0 else rne fmt (.inf false))
    else if (Nat.log2 m : Int) + e < -60 then rne fmt (.fin false 1 0)
    else
      let v : Int := if 0 ≤ e + 256 then (m * 2 ^ (e + 256).toNat : Nat) else (m / 2 ^ (-(e + 256)).toNat : Nat)
      let v := if a then -v else v
      let n := v / (fxOne : Int)
      let f := (v % (fxOne : Int)).toNat
      if f = 0 then rne fmt (.fin false 1 n) else decided 0 fmt code false (fxExp2 f) (n - 256)

/-- log2 x (R258). (DEDUCED, log entry 13.) -/
def log2Code (fmt code : Nat) : Nat :=
  match numOf fmt code with
  | .nan => rne fmt .nan
  | .inf a => if a then rne fmt .nan else rne fmt (.inf false)
  | .fin a m e =>
    if m = 0 then rne fmt (.inf true)
    else if a then rne fmt .nan
    else
      let k := Nat.log2 m
      let n : Int := k + e
      if m = 2 ^ k then rne fmt (numOfInt n)
      else
        let l : Int := (fxLn m k * fxOne / fxLn2 : Nat)
        let v := n * (fxOne : Int) + l
        decided 1 fmt code (decide (v < 0)) v.natAbs (-256)

/-- tanh x (R258). (DEDUCED, log entry 13.) -/
def tanhCode (fmt code : Nat) : Nat :=
  match numOf fmt code with
  | .nan => rne fmt .nan
  | .inf a => rne fmt (.fin a 1 0)
  | .fin a m e =>
    if m = 0 then code % 2 ^ fmtWidth fmt
    else if (Nat.log2 m : Int) + e ≥ 5 then rne fmt (.fin a 1 0)
    else if (Nat.log2 m : Int) + e < -30 then code % 2 ^ fmtWidth fmt
    else
      -- y = 2|x| ÷ ln 2, so that e^(2|x|) = 2^y
      let y := (if 0 ≤ e + 257 then m * 2 ^ (e + 257).toNat else m / 2 ^ (-(e + 257)).toNat) * fxOne / fxLn2
      let t := fxExp2 (y % fxOne) * 2 ^ (y / fxOne)
      decided 2 fmt code a ((t - fxOne) * fxOne / (t + fxOne)) (-256)

end Sys2Proof.Machine
end

