-- ==== Sys2Proof/Machine/Flags.lean ====
section
/-! DEFINITION. Conditions and status values: the machine has no flags register, so a comparison or a
class is a value in a register (R187, R195, R205). -/

namespace Sys2Proof.Machine

/-- A condition as the 64-bit value 0 or 1. -/
def flag (b : Bool) : W64 := if b then 1 else 0

/-- FLT, FLE and FEQ (R195). -/
def ltNum (x y : Num) : Bool := x.cmp y == some .lt
def leNum (x y : Num) : Bool := x.cmp y == some .lt || x.cmp y == some .eq
def eqNum (x y : Num) : Bool := x.cmp y == some .eq

/-- The one-hot class of Table 8.4. -/
def classOf (x : Nat) : W64 :=
  let sub := decide (x % 2 ^ 31 < 2 ^ 23)
  match numOf 9 x with
  | .nan => 0x100
  | .inf a => if a then 0x001 else 0x080
  | .fin a m _ =>
    if m = 0 then (if a then 0x008 else 0x010)
    else if sub then (if a then 0x004 else 0x020)
    else (if a then 0x002 else 0x040)

/-- The result layout of Table 8.6. -/
def statusWord (out : Nat) (lost : Bool) (code num : Nat) : W64 :=
  BitVec.ofNat 64 (out + (if lost then 8 else 0) + code % 65536 * 65536 + num % 2 ^ 32 * 2 ^ 32)

/-- TVAL of a format tag mismatch (Table 6.8): operand number, file, expected and found code. -/
def tagTval (operand file expected found : Nat) : W64 :=
  BitVec.ofNat 64 (operand + file * 256 + expected * 4096 + found * 65536)

end Sys2Proof.Machine
end

