-- ==== Sys2Proof/Machine/Hash.lean ====
section
/-! DEFINITION. The hash functions that the manual names: SHAKE128 and SHAKE256 (FIPS 202), and the verification of an
XMSS-SHAKE_20_256 signature (RFC 8391), for R373, R421 and R422. The manual gives their names, and the definitions of those
standards are followed from general knowledge (PRESUMED, log entry 17). -/

namespace Sys2Proof.Machine

/-! ## Keccak -/

/-- The walk on which the lanes get their turns: from (1, 0), the step from (x, y) is to (y, 2x + 3y). -/
def keccakWalk : Nat → Nat × Nat → List Nat
  | 0, _ => []
  | n + 1, (x, y) => (x + 5 * y) :: keccakWalk n (y, (2 * x + 3 * y) % 5)

/-- Rotation of a lane: the triangular number of its place on the walk; lane 0 is not on it. -/
def keccakTurn (lane : Nat) : Nat :=
  match (keccakWalk 24 (1, 0)).idxOf? lane with
  | some i => (i + 1) * (i + 2) / 2 % 64
  | none => 0

/-- The rotations of the 25 lanes. -/
def keccakTurns : List Nat := (List.range 25).map keccakTurn

/-- `n` bits of the feedback register of x^8 + x^6 + x^5 + x^4 + 1. -/
def keccakBits : Nat → Nat → List Bool
  | 0, _ => []
  | n + 1, r => (r % 2 == 1) :: keccakBits n (if 128 ≤ r then (2 * r) ^^^ 0x171 else 2 * r)

/-- The constants of `n` rounds: of seven bits each, bit j at place 2^j − 1. -/
def keccakRounds : Nat → List Bool → List W64
  | 0, _ => []
  | n + 1, bs => BitVec.ofNat 64 (((List.range 7).map fun j => if bs.getD j false then 2 ^ (2 ^ j - 1) else 0).sum) :: keccakRounds n (bs.drop 7)

/-- One round on the 25 lanes. -/
def keccakRound (a : List W64) (rc : W64) : List W64 :=
  -- the parity of each column, and what it adds to the columns beside it
  let parity := (List.range 5).map fun x => ((List.range 5).map fun y => a.getD (x + 5 * y) 0).foldl (· ^^^ ·) 0
  let extra := (List.range 5).map fun x => parity.getD ((x + 4) % 5) 0 ^^^ (parity.getD ((x + 1) % 5) 0).rotateLeft 1
  let turned := a.zipIdx.map fun p => (p.1 ^^^ extra.getD (p.2 % 5) 0).rotateLeft (keccakTurns.getD p.2 0)
  -- lane (x, y) of the next array comes from lane (x + 3y, x), and is mixed with the two behind it in its row
  let moved (x y : Nat) : W64 := turned.getD ((x % 5 + 3 * y) % 5 + 5 * (x % 5)) 0
  let mixed := (List.range 25).map fun i => moved (i % 5) (i / 5) ^^^ (~~~ (moved (i % 5 + 1) (i / 5)) &&& moved (i % 5 + 2) (i / 5))
  mixed.modify 0 (· ^^^ rc)

/-- (DESIGN CHOICE, log entry 17.) -/
def keccak (a : List W64) : List W64 := (keccakRounds 24 (keccakBits 168 1)).foldl keccakRound a

/-- A lane from its bytes, the first least significant. -/
def laneOf : List Byte → W64
  | [] => 0
  | b :: bs => b.setWidth 64 ||| (laneOf bs <<< 8)

/-- Takes `n` blocks of `rate` bytes into the state. -/
def absorb (rate : Nat) : Nat → List Byte → List W64 → List W64
  | 0, _, a => a
  | n + 1, m, a =>
    let mix := (List.range 25).map fun i => a.getD i 0 ^^^ (if 8 * i < rate then laneOf ((m.drop (8 * i)).take 8) else 0)
    absorb rate n (m.drop rate) (keccak mix)

/-- The first `n` bytes, at most 32, that SHAKE gives with this rate. -/
def shake (rate : Nat) (m : List Byte) (n : Nat) : List Byte :=
  let k := m.length / rate + 1
  let zeros := k * rate - m.length - 1
  let pad : List Byte := if zeros = 0 then [0x9F] else 0x1F :: (List.replicate (zeros - 1) 0 ++ [0x80])
  ((absorb rate k (m ++ pad) (List.replicate 25 0)).flatMap fun w => (List.range 8).map fun i => w.extractLsb' (8 * i) 8).take n

def shake128 (m : List Byte) (n : Nat) : List Byte := shake 168 m n
/-- (DESIGN CHOICE, log entry 17.) -/
def shake256 (m : List Byte) (n : Nat) : List Byte := shake 136 m n

/-- The SHAKE256 digest of `8 * w` bytes as words, the first byte of each least significant. (DESIGN CHOICE, log entry 17.) -/
def digestWords (m : List Byte) (w : Nat) : List W64 :=
  let d := shake256 m (8 * w)
  (List.range w).map fun i => laneOf ((d.drop (8 * i)).take 8)

/-- The 256-bit SHAKE256 digest of a public key (R373). (DESIGN CHOICE, log entry 17.) -/
def keyDigest (key : List Byte) : BitVec 256 := BitVec.ofNat 256 (((digestWords key 4).zipIdx.map fun p => p.1.toNat * 2 ^ (64 * p.2)).sum)

/-! ## XMSS-SHAKE_20_256 -/

/-- A number as `n` bytes, the most significant first. -/
def bigBytes (v : Nat) : Nat → List Byte
  | 0 => []
  | n + 1 => BitVec.ofNat 8 (v / 256 ^ n) :: bigBytes v n

/-- The four keyed hash functions: F, H, H_msg and PRF under their numbers. -/
def xmssHash (f : Nat) (key m : List Byte) : List Byte := shake128 (bigBytes f 32 ++ key ++ m) 32

/-- A hash address of layer 0, tree 0: its type, three words, and which key or mask it asks for. -/
def xmssAddr (type a b c mask : Nat) : List Byte := List.replicate 12 0 ++ ([type, a, b, c, mask].flatMap fun w => bigBytes w 4)

def xorBytes (a b : List Byte) : List Byte := (a.zip b).map fun p => p.1 ^^^ p.2

/-- `n` steps of chain `chain` of one-time key `key` from step `i` up. -/
def wotsChain (seed : List Byte) (key chain : Nat) : Nat → Nat → List Byte → List Byte
  | 0, _, x => x
  | n + 1, i, x =>
    let k := xmssHash 3 seed (xmssAddr 0 key chain i 0)
    let m := xmssHash 3 seed (xmssAddr 0 key chain i 1)
    wotsChain seed key chain n (i + 1) (xmssHash 0 k (xorBytes x m))

/-- The hash of two nodes at an address. -/
def xmssNode (seed : List Byte) (type a height index : Nat) (l r : List Byte) : List Byte :=
  let p (mask : Nat) : List Byte := xmssHash 3 seed (xmssAddr type a height index mask)
  xmssHash 1 (p 0) (xorBytes l (p 1) ++ xorBytes r (p 2))

/-- One level of an L-tree: pairs are hashed, and a node left over goes up. -/
def ltreeLevel (seed : List Byte) (key height : Nat) : Nat → List (List Byte) → List (List Byte)
  | i, l :: r :: ns => xmssNode seed 1 key height i l r :: ltreeLevel seed key height (i + 1) ns
  | _, ns => ns

/-- The seven levels over 67 nodes. -/
def ltree (seed : List Byte) (key : Nat) (ns : List (List Byte)) : List Byte :=
  ((List.range 7).foldl (fun ns h => ltreeLevel seed key h 0 ns) ns).headD []

/-- The 64 digits of a message digest and the three of its checksum. -/
def wotsDigits (m : List Byte) : List Nat :=
  let nibbles (l : List Byte) : List Nat := l.flatMap fun b => [b.toNat / 16, b.toNat % 16]
  let d := nibbles m
  d ++ (nibbles (bigBytes ((d.map fun x => 15 - x).sum * 16) 2)).take 3

/-- Bytes as a number, the first most significant. -/
def bigNat (l : List Byte) : Nat := l.foldl (fun n b => n * 256 + b.toNat) 0

/-- The way up the tree from a leaf. -/
def xmssClimb (seed : List Byte) : Nat → Nat → List (List Byte) → List Byte → List Byte
  | _, _, [], x => x
  | k, i, a :: as, x =>
    xmssClimb seed (k + 1) (i / 2) as (if i % 2 = 0 then xmssNode seed 2 0 k (i / 2) x a else xmssNode seed 2 0 k (i / 2) a x)

/-- Does a signature verify a message under a public key of 68 bytes: object identifier 9, root, seed? (DESIGN CHOICE, log entry 17). -/
def xmssVerify (key m sig : List Byte) : Bool :=
  let part (l : List Byte) (at_ n : Nat) : List Byte := (l.drop at_).take n
  let root := part key 4 32
  let seed := part key 36 32
  let i := bigNat (part sig 0 4)
  let digest := xmssHash 2 (part sig 4 32 ++ root ++ bigBytes i 32) m
  let pk := (wotsDigits digest).zipIdx.map fun p => wotsChain seed i p.2 (15 - p.1) p.1 (part sig (36 + 32 * p.2) 32)
  key.length == 68 && sig.length == 2820 && bigNat (part key 0 4) == 9 && decide (i < 2 ^ 20) &&
    xmssClimb seed 0 i ((List.range 20).map fun k => part sig (2180 + 32 * k) 32) (ltree seed i pk) == root

end Sys2Proof.Machine
end

