-- ==== Sys2Proof/Machine/State.lean ====
section
/-! DEFINITION. The state of the GW460, as plain data. INVENTORY.md lists every piece with its rule and
its reset value. Records that belong to a numbered unit are kept in maps by number; a number that is not
listed holds the reset value of its record. -/

namespace Sys2Proof.Machine

/-- Reasons to stop with a fault. -/
inductive Fault where
  /-- No definition raises it: every stop that the manual describes is a trap, an engine fault or a
  message to Cleoz, each of which is a next state. Safe. -/
  | neverRaised
  deriving DecidableEq, Repr

/-- Reasons to refuse a step. -/
inductive Refusal where
  /-- Raised by `exec` for a row of the table that has no meaning here. Safe: nothing is claimed of it. -/
  | notModelled (mnemonic : String)
  deriving DecidableEq, Repr

/-! ## Contexts -/

/-- The states of Table 1.1 in which a context holds a slot. -/
inductive Life where
  | starting | live | closing
  deriving DecidableEq, Repr

/-- Which instruction started a helper. -/
inductive StartForm where
  | control | start | startm | startw
  deriving DecidableEq, Repr

/-- One binding of R95. -/
structure Binding where
  word : W64
  base : W64
  len  : W64
  deriving DecidableEq, Repr

/-- The actor that a handler serves (R48), its mailbox slot and the mark of AIDLE (R309). -/
structure ActorRef where
  cls   : Nat
  key   : W64
  slot  : Nat
  aidle : Bool
  phase : Nat
  /-- Whether this module counts the message as its traffic (R107). -/
  counted : Bool
  deriving DecidableEq, Repr

/-- A page fault or permission fault as a record needs it (Table 22.4). -/
structure FaultInfo where
  cause : Nat
  va    : W64
  kind  : Nat
  level : Nat
  pte   : W64
  deriving DecidableEq, Repr

/-- What a context waits for (R7). The instruction runs again from its start once the wait is over. -/
inductive Wait where
  /-- Interlocked results of these registers (R145, R348). -/
  | regs (rs : List Nat)
  /-- The access with this number, an acquire (R92) or a holding access. -/
  | access (id : Nat)
  /-- ACKWAIT and the other waits for a zero store-acknowledge counter. -/
  | acks
  /-- FENCE: every earlier load returned as well. -/
  | fence
  /-- FENCELB: every earlier access to the core's own local memory. -/
  | fenceLocal
  /-- Room in the queue of an engine context (R129). -/
  | engine (ctr : Nat)
  /-- Room in the vector command queue (R247). -/
  | vector
  /-- VSYNC: the busy flag (R272). -/
  | busy
  /-- TLWAIT, and a command with order acq. -/
  | timeline (ctr : Nat) (n : Nat)
  /-- JOIN of a helper number (R206), with the cycle at which its limit expires. -/
  | join (num : Nat) (limit : Option Nat)
  | joinAny (limit : Option Nat)
  | launch (handle : Nat)
  /-- POPW and STARTW: a chunk of the launch (R26). -/
  | item (handle : Nat)
  /-- POPW and STARTW: the turn, in this cycle, of the core from which they are to steal (R28). -/
  | turn (core : Nat)
  /-- PUSHW: room in a core's work queue (R25, R30). -/
  | room (core : Nat)
  /-- SYSC: until Cleoz answers (R216). -/
  | service (dst st : Nat)
  /-- IDLE: an event on the core (R127). -/
  | idle
  /-- An acquire that has not returned, before any later access (R92). -/
  | acquire
  /-- An interlocked result that goes to s0 (R151). -/
  | result
  /-- CWB, CINV and REL: the context's own earlier stores are merged into the cluster cache (R96, R244). -/
  | merged
  /-- QWAIT: a sweep that begins after sweep number `sweep` (R239). -/
  | quiet (phase : Nat) (sweep : Nat)
  /-- MMAG: an arrival has been made and is waiting. -/
  | barrier
  /-- REFWAIT, and SEND whose image lies in a bank under refresh: until this time in nanoseconds (R70, R323). -/
  | refresh (untilNs : Nat)
  /-- SEND and LAUNCH: a Towline route to the module that holds the image or the header (R73). -/
  | route (dev : Nat)
  /-- An instruction word of another module's memory: a Towline route there (R73). -/
  | fetch (dev : Nat)
  /-- Until the engine has accepted or checked command `num` of counter `ctr` (R288, R290, R312). -/
  | accept (ctr : Nat) (num : Nat)
  /-- SEND: room in the bulk plane towards a slice (R306). -/
  | plane (slice : Nat)
  /-- MCST and MCSTC with acq: until the store with this number is applied here (R324). -/
  | sluice (group : Nat) (id : Nat)
  /-- GANGCFG: a matrix queue without commands, and no context of the core at MMAG (R285). -/
  | gangFree
  /-- An engine context without commands: block requests behind block commands (R312). -/
  | engineEmpty (ctr : Nat)
  /-- MCST and MCSTC with destination s0: until the store is stamped (R140, R151). -/
  | stamp (group : Nat) (id : Nat)
  /-- A page fault: until FAULT_SAVE (R403) or, in a control context, Cleoz. -/
  | fault
  deriving DecidableEq, Repr

/-- What an instruction still waits for whose context goes on (R245). -/
inductive PendOp where
  /-- An acquire in flight (R92). -/
  | access (id : Nat)
  /-- WINWAIT (R234). -/
  | window (n : Nat)
  /-- BARC (`isC`) or BARH with operand `v`: its arrival waits for the counted accesses numbered below `after` (R91). -/
  | arrive (isC : Bool) (v after : Nat)
  /-- The arrival has been made. -/
  | barrier (isC : Bool) (v : Nat)
  /-- TLADD of `x` to a counter, behind the counted accesses numbered below `after` (R238). -/
  | add (ctr : Nat) (x : W64) (after : Nat)
  /-- BALLOC of operand `x`, and BSEQNEW: requests to a block engine with their place in the core's queue (R312, R314). -/
  | alloc (loose : Bool) (x : W64) (id : Nat)
  | seqNew (a b : W64) (id : Nat)
  /-- AERASE, which its directory's growth holds, with its place among the held operations (R310, R414). -/
  | erase (key : W64) (cls : Nat) (turn : Option Nat)
  deriving DecidableEq, Repr

/-- Such an instruction: its address, the places that its results go to, the cycle of its issue, the one from which its
wait counts, and the one up to which its stall count held the context. -/
structure Pend where
  op     : PendOp
  pc     : W64
  dst    : Option Nat
  dst2   : Option Nat := none
  issued : Nat
  since  : Nat
  until_ : Nat
  deriving DecidableEq, Repr

/-- A fixed-latency write, the oldest first (R145): what the register held before it, and when it takes effect. -/
structure Late where
  reg   : Nat
  old   : W64
  ready : Nat
  deriving DecidableEq, Repr

/-- Everything a context holds (R6, R10, R150, Table 6.7). -/
structure Ctx where
  life     : Life := .live
  form     : StartForm := .control
  pc       : W64 := 0
  /-- s0–s63 under 0–63, ss0–ss15 under 64–79; unlisted registers hold 0. -/
  regs     : Map W64 := []
  /-- In a position-translation miss handler (R85). -/
  inMiss   : Bool := false
  /-- k registers held per context, by number; unlisted ones hold the reset value of Table 6.7. -/
  kregs    : Map W64 := []
  /-- Window size w (R13). -/
  window   : Nat := 0
  /-- Bits of v0–v47, lane 0 lowest; an unlisted register holds all ones (R168). -/
  vregs    : Map (BitVec 8192) := []
  /-- Format tags; an unlisted register is RAW (R168). -/
  vtags    : Map Nat := []
  /-- VGRANT.LANES, VGRANT.YIELD, the request of R254 and the short-claim mark of R255. -/
  lanes    : Nat := 0
  yield    : Bool := false
  reqLanes : Nat := 32
  short    : Bool := false
  /-- Operand-buffer holds: register and instructions left (R253). -/
  holds    : List (Nat × Nat) := []
  /-- Lane generators that differ from the seeded value of R172. -/
  gens     : Map Nat := []
  late     : List Late := []
  /-- Earliest cycle of the next issue (R145, R350). -/
  nextIssue : Nat := 0
  wait     : Option Wait := none
  /-- Cycle from which the wait counts towards a limit (R242). -/
  waitFrom : Nat := 0
  /-- Instructions whose results are under way otherwise than by an access (R245), the oldest first. -/
  pend     : List Pend := []
  bindings : List Binding := []
  mig      : Bool := false
  migCnt   : Map Nat := []
  hnum     : Nat := 0
  starter  : Nat := 0
  /-- LOST of Table 8.6. -/
  lost     : Bool := false
  /-- Clusters of the placed set (R63). -/
  placed   : List Nat := []
  asid     : Nat := 0
  priv     : Bool := false
  inTrap   : Bool := false
  /-- The miss handler was entered inside the Cleoz trap handler and runs above it. (DESIGN CHOICE, log entry 3.) -/
  missTop  : Bool := false
  actor    : Option ActorRef := none
  /-- Launch handle and work identifier of the item held: the one started with, or the last one popped (R11, R26). -/
  item     : Option (Nat × Nat) := none
  /-- Engine operations of the item: counter and number (R11). -/
  ops      : List (Nat × Nat) := []
  /-- The item that STARTW started the helper with, once POPW has popped another (R11), and the engine operations
  issued for items since. -/
  own      : Option (Nat × Nat) := none
  ownOps   : List (Nat × Nat) := []
  /-- Ended by FAIL, and the failure code (R11). -/
  failed   : Bool := false
  code     : Nat := 0
  gang     : Bool := false
  /-- Counted accesses of the starter numbered below this must be acknowledged first (R203). -/
  startAfter : Nat := 0
  startOrder : Nat := 0
  /-- A trap to be taken at the next instruction boundary of a control context (R12): cause, TVAL. -/
  dueTrap  : Option (Nat × W64) := none
  /-- The fault that FAULT_SAVE is to record (R403). -/
  fault    : Option FaultInfo := none
  /-- Counted accesses numbered below this stand before the last release (R91, R248). -/
  relMark  : Nat := 0
  deriving DecidableEq, Repr

/-! ## Accesses in flight -/

/-- Functions of Table 9.2. -/
inductive AtomFn where
  | add | min | max | minz | and | or | xor | swp | cas | addf | maxf | inc
  deriving DecidableEq, Repr

/-- What an access does at the place where it is performed (R221 to R230). -/
inductive MemOp where
  | load | store | ldfe | ldff | ldtag | stef | stff | tclr | tfill
  | atomic (f : AtomFn)
  | acq | rel
  deriving DecidableEq, Repr

/-- An access issued and not yet acknowledged (R87, R88). -/
structure Flight where
  id      : Nat
  ctx     : Nat
  /-- Helper number of the issuing context (R205): a save and a restore keep it, but not the slot. -/
  hnum    : Nat
  pc      : W64
  op      : MemOp
  va      : W64
  key     : Nat
  size    : Nat
  sext    : Bool
  dst     : Option Nat
  dst2    : Option Nat
  x       : W64
  y       : W64
  sync    : Nat
  scope   : Nat
  order   : Nat
  /-- Counts towards the store-acknowledge counter (R87). -/
  counted : Bool
  /-- Uses the cluster cache, where that has capacity when the access is performed (R66, R93). -/
  cached  : Bool
  /-- Enters through the local alias (R104). -/
  alias_  : Bool
  remote  : Bool
  vf      : Nat
  phase   : Nat
  window  : Nat
  issued  : Nat
  /-- Performed, its acknowledgement under way. -/
  performed : Bool
  /-- Waits at its home for the tag, with its place in arrival order (R224). -/
  waiting : Option Nat
  /-- How often a full list has refused it, and the cycle at which its back-off ends (R224). -/
  refused : Nat
  backoff : Nat
  /-- The cycle in which it began to wait or back off (R77, R224). -/
  since   : Nat
  /-- The cycle up to which its stall count held the context. -/
  until_  : Nat
  /-- The number of the next access when its address was translated (R401). -/
  xlAt    : Nat := 0
  deriving DecidableEq, Repr

/-! ## Engine and vector commands -/

/-- A matrix operand (R280, R281): first tile register, or the two words of a pair. -/
inductive MatSrc where
  | tile (t : Nat)
  | pair (x y : W64)
  deriving DecidableEq, Repr

/-- Which product of 0x68 to 0x6A. -/
inductive MatKind where
  | mma | mmag | mmas | mmamx | mmaws
  deriving DecidableEq, Repr

/-- A command to an engine context (R276, R300). -/
inductive EngOp where
  /-- An operation without effect: a trapped command (R155), or a copy of length 0. -/
  | empty
  | cpy (dst src : W64) (len : Nat) (tag : Option Bool)
  | cpyg (dst src list : W64) (size count width : Nat)
  | barge (dst src : W64) (len : Nat)
  /-- Keys at which the destinations' copies begin, in snake order. -/
  | bargem (dests : List Nat) (src : W64) (len : Nat)
  | attnq (a : W64)
  | bfree (h : W64)
  | btrunc (seq : W64) (n : W64)
  | bseqdrop (seq : W64)
  /-- `o1`, `o2`: metadata offset, or the offsets of the two scale sets. -/
  | mma (k : MatKind) (d : Nat) (a b : MatSrc) (fmt n : Nat) (z : Bool) (o1 o2 : Nat)
  | mmax (d : Nat) (a : MatSrc) (entries : List W32) (fmt n : Nat) (z : Bool)
  | tld (d : Nat) (a : W64) (fmt : Nat)
  | tst (a : W64) (t : Nat)
  | tzero (d fmt : Nat)
  | aclr (d : Nat)
  | ald (d : Nat) (a : W64)
  | ast (a : W64) (acc : Nat)
  | aread (vd acc first fmt vl : Nat)
  | mdld (a : W64) (len off : Nat)
  | scld (a : W64) (len off : Nat)
  | orld (first count : Nat)
  deriving DecidableEq, Repr

/-- What an operation writes once it has read its sources: bytes by key, none for one that it leaves out, the destination
pieces, the tag that whole words get, and where it met poison. -/
structure Plan where
  out   : List (Nat × Option Byte)
  dest  : List (Nat × Nat)
  tag   : Option Bool := none
  bad   : Option W64 := none
  /-- Words that lack a byte because its source was poisoned, with the address of the source word. -/
  bads  : List (Nat × W64) := []
  /-- Words that are not written become poisoned (R322, status 2). -/
  spoil : Bool := false
  /-- A word that only the end of the operation writes (R322). -/
  last  : Option Nat := none
  /-- Destination bytes with the source bytes that the operation has read once it has written any of them. -/
  uses  : List (List Nat × List Nat) := []
  deriving DecidableEq, Repr

/-- A command with what it carries from its issue. -/
structure EngCmd where
  num    : Nat
  op     : EngOp
  issuer : Nat
  hnum   : Nat
  pc     : W64
  /-- It leaves the queue once the issuer's counted accesses numbered below this are acknowledged (R98). -/
  after  : Nat
  vf     : Nat
  asid   : Nat
  priv   : Bool
  phase  : Nat
  /-- What an ATTNQ read when it began (R322): the descriptor's eight words, the status, the block size and the blocks' handles.
  The records that an MMAX uses (R290). -/
  blocks : List W64
  /-- Accepted or checked by its engine (R288, R312). -/
  accepted : Bool
  /-- Register place that receives the number when the engine accepts the command (R312). -/
  dst    : Option Nat
  /-- Stretch window of its accesses (R111, R112). -/
  window : Nat
  /-- What addresses that the engine finds later are checked against (R47, R62, R63): the issuer's placed set, whether it
  migrates, and the actor that it serves. -/
  placed : List Nat := []
  mig    : Bool := false
  actor  : Option ActorRef := none
  /-- Columns of the issuer's gang, whose members an MMAG steps with (R284). -/
  gang   : Nat := 0
  /-- Source bytes read before the rest, by key; none for one of a poisoned word (R114). -/
  got    : Map (Option Byte) := []
  /-- Pages that fault are passed over: so the accesses before a fault are found, which are performed (R407). -/
  skip   : Bool := false
  /-- Destination words written before the rest (R114). -/
  put    : List Nat := []
  /-- What is still to be written, once the last read has been issued (R355), and the number of the next access then. -/
  plan   : Option Plan := none
  planAt : Nat := 0
  /-- Pages whose accesses have all been made, which a retry does not translate again (R407): written or read, address,
  key. -/
  pages  : List (Bool × Nat × Nat) := []
  deriving DecidableEq, Repr

/-- Element functions of Table 10.2. -/
inductive VFun where
  | add | sub | mul | fma | fnma | min | max | abs | neg | rcp | rsq | exp2 | log2 | tanh
  | and | or | xor | shl | shr | shra | cmpeq | cmplt | cmple
  deriving DecidableEq, Repr

/-- Reductions of R264. -/
inductive VRed where
  | sum | max | min
  deriving DecidableEq, Repr

/-- A vector command (R247): register numbers, formats and the scalar values it carries. -/
inductive VOp where
  | elem (f : VFun) (d a b c fmt : Nat)
  | mask (f : Nat) (d a b : Nat)
  | mpop (dst a fmt : Nat)
  | mfirst (dst a fmt : Nat)
  | iota (d fmt : Nat)
  | mov (d a fmt : Nat)
  | bcast (d fmt : Nat) (x : W64)
  | extr (dst a fmt : Nat) (i : W64)
  | ins (d fmt : Nat) (x i : W64)
  | perm (d a b fmt : Nat)
  | slideu (d a fmt : Nat) (n : W64)
  | slided (d a fmt : Nat) (n : W64)
  | compr (d a fmt : Nat)
  | expnd (d a fmt : Nat)
  | red (f : VRed) (dst a fmt : Nat) (start : W64)
  /-- A checked load or store: element index, home key, uses the cluster cache. -/
  | load (d fmt : Nat) (at_ : List (Nat × Nat × Bool)) (va : W64)
  | store (d fmt : Nat) (at_ : List (Nat × Nat × Bool)) (va : W64)
  | cvtp (d a src fmt : Nat) (scale : Option Nat) (sat sr : Bool)
  | cvtu (d a src fmt : Nat) (scale : Option Nat) (sat sr : Bool)
  | cvti (d a src fmt : Nat) (sr : Bool)
  /-- `keep`: both destinations are one register, and D's result remains (DESIGN CHOICE, log entry 12). -/
  | qscale (d e a src fmt : Nat) (sr keep : Bool)
  | merge (d a b : Nat)
  /-- VTAG: the tag alone changes, in the core's copy. -/
  | tag (d : Nat)
  | claim (dst : Nat) (x : W64)
  | reneg (dst : Nat)
  | release
  deriving DecidableEq, Repr

structure VCmd where
  ctx  : Nat
  op   : VOp
  msk  : Nat
  mp   : Nat
  tp   : Nat
  phase : Nat
  /-- Stretch window of its accesses (R112). -/
  window : Nat
  /-- A memory command starts once the context's counted accesses numbered below this are acknowledged (R248). -/
  after  : Nat
  /-- The number of the next access at its issue. -/
  num    : Nat := 0
  /-- The item that its context held at its issue (R19, R26). -/
  item   : Option (Nat × Nat) := none
  /-- The cycle in which the pool started it. -/
  began  : Nat := 0
  /-- Elements of a load read before the rest, by index: bits, and whether their word was poisoned (R70). -/
  got    : Map (Nat × Bool) := []
  deriving DecidableEq, Repr

/-! ## Cores, clusters, dies, stacks -/

/-- An end record (R205); `vf` is the virtual function of the helper. -/
structure EndRec where
  vf        : Nat
  num       : Nat
  out       : Nat
  code      : Nat
  starter   : Nat
  collected : Bool
  form      : StartForm
  deriving DecidableEq, Repr

/-- An entry of a work queue (R25). -/
structure Run where
  handle : Nat
  first  : Nat
  count  : Nat
  deriving DecidableEq, Repr

/-- An entry of the position translation buffer (R84), the most recently used first. -/
structure PtEntry where
  vf : Nat
  seq : Nat
  blk : Nat
  addr : W64
  size : Nat
  deriving DecidableEq, Repr

/-- A TLB entry (R398, R399). `shift` is the log2 of the page size. -/
structure TlbEntry where
  vf    : Nat
  asid  : Nat
  page  : Nat
  shift : Nat
  pte   : W64
  dset  : Bool
  deriving DecidableEq, Repr

/-- A destination range that TLWAIT invalidates (R100). -/
structure DoneRange where
  ctr : Nat
  num : Nat
  key : Nat
  len : Nat
  deriving DecidableEq, Repr

/-- A barrier generation: its number, its arrivals (context, mask or count), and those held for the next. -/
structure Barrier where
  gen      : Nat := 0
  arrivals : List (Nat × Nat) := []
  held     : List (Nat × Nat) := []
  deriving DecidableEq, Repr

structure CoreSt where
  vfid     : Nat := 0
  gangMask : Nat := 0
  tl       : Map W64 := []
  nextNum  : Map Nat := []
  queues   : Map (List EngCmd) := []
  running  : Map EngCmd := []
  /-- The command that a busy engine context has taken behind its current one (R355). -/
  taken    : Map EngCmd := []
  /-- The cycle in which each engine context last took a command from its queue (R355). -/
  engTook  : Map Nat := []
  stopped  : Map FaultInfo := []
  doneDst  : List DoneRange := []
  vqueue   : List VCmd := []
  vrunning : List VCmd := []
  /-- The cycle in which the pool last took a command from the core's queue (R353). -/
  vtook    : Option Nat := none
  tiles    : Map (BitVec 16384) := []
  tileTags : Map Nat := []
  accs     : Map (BitVec 32768) := []
  sideMem  : BitVec 131072 := 0
  scaleMem : BitVec 65536 := 0
  /-- Operand record cache: index and the record's four words, the most recently used first. -/
  orCache  : List (Nat × List W64) := []
  ptb      : List PtEntry := []
  ends     : List EndRec := []
  nextHelper : Nat := 1
  /-- Requests to a block engine of helpers that have ended (R312): helper number, request. -/
  asked    : List (Nat × PendOp) := []
  workq    : List Run := []
  /-- The cycle in which a thief last took from the queue (R28). -/
  robbedAt : Option Nat := none
  barh     : Barrier := {}
  /-- The context at MMAG, its command, which R133 compares, and whether the barrier has let it go. -/
  mmag     : Option (Nat × EngOp × Bool) := none
  idleMark : Bool := false
  lastSlot : Nat := 10
  /-- The cycle in which the core last issued (R7). -/
  issuedAt : Option Nat := none
  itlb     : List TlbEntry := []
  dtlb     : List TlbEntry := []
  gated    : Bool := false
  /-- Where a pre-empted core's matrix state lies (R385), until the first helper resumes. -/
  matSaved : Option Nat := none
  /-- Words of matrix state with an uncorrectable error that no command has met or overwritten yet (R419). -/
  matErr   : List MatWord := []
  deriving DecidableEq, Repr

/-- A line of a cluster cache (R66): key of its first byte, data, dirty-byte mask. -/
structure Line where
  key   : Nat
  data  : BitVec 512
  dirty : BitVec 64
  deriving DecidableEq, Repr

structure FaultRec where
  ring  : Nat
  words : List W64
  deriving DecidableEq, Repr

structure Cluster where
  split    : Nat := 0
  /-- A DSPLIT write not yet applied (R64). -/
  dsplit   : Option Nat := none
  lines    : List Line := []
  tlb      : List TlbEntry := []
  /-- Every translation that the cluster has held since the shoot-down of its page: lines filled under it may still be in the
  cache (R401). -/
  seen     : List TlbEntry := []
  barc     : Barrier := {}
  refused  : Nat := 0
  overflow : List FaultRec := []
  serving  : Bool := false
  /-- A withdrawal of SERVE that waits for the groups held (R427). -/
  withdraw : Bool := false
  /-- The placement group that holds the cluster: handle and group. -/
  held     : Option (Nat × Nat) := none
  /-- The gang length that a gang launch is still to give the cluster's cores (R285). -/
  gangDue  : Option Nat := none
  /-- Scratchpad that a pre-emption saved: split, bytes, EMPTY words, poisoned words (R385). -/
  padSaved : Option (Nat × List Host.Cell × List Nat × List Nat) := none
  duty     : Nat := 8
  throttleNs : Nat := 0
  /-- Column of the core whose vector command the pool took last (R353). -/
  vlast    : Nat := 7
  deriving DecidableEq, Repr

structure Die where
  bank      : Nat := 0
  /-- Time at which the current refresh window began (Table 3.3). -/
  bankFrom  : Nat := 0
  loading   : Bool := true
  /-- Number of the next access when WSLOAD was last written (R411). -/
  loadMark  : Nat := 0
  /-- Chunk requests in the order of service: cycle, cluster, handle (R24). -/
  requests  : List (Nat × Nat × Nat) := []
  /-- Duty in eighths, and when it last changed (R425). -/
  duty      : Nat := 8
  dutyAt    : Nat := 0
  /-- The junction passed THROT and has not fallen 3 °C below it since. -/
  hot       : Bool := false
  deriving DecidableEq, Repr

/-- A block's state (R82): generation, references, and whether it is rinsed or draining. -/
structure Block where
  gen     : Nat := 1
  table_  : Nat := 0
  loose   : Nat := 0
  rinsing : Bool := false
  retired : Bool := false
  vf      : Nat := 0
  /-- Engine operations that were in flight at its release and touch it: virtual function, core, counter, number. -/
  drain   : List (Nat × Nat × Nat × Nat) := []
  deriving DecidableEq, Repr

structure Seq where
  vf      : Nat
  num     : Nat
  pool    : Nat
  entries : List W64
  deriving DecidableEq, Repr

structure Stack where
  /-- Blocks by pool × 2^40 + index; an unlisted block is generation 1 on the rinsed list. -/
  blocks  : Map Block := []
  /-- Rinsed lists by pool, the head first. -/
  rinsed  : Map (List Nat) := []
  /-- Quota charged by 16 × virtual function + pool. -/
  charged : Map Nat := []
  seqs    : List Seq := []
  deriving DecidableEq, Repr

/-! ## Actors -/

inductive MoorState where
  | mooring | moored | shifting | unmooring
  deriving DecidableEq, Repr

/-- An entry of the mooring table (R38). -/
structure Moor where
  cls      : Nat
  key      : W64
  st       : MoorState
  /-- The berth core and offset, once chosen (R41). -/
  berth    : Option (Nat × Nat)
  /-- The core on which lay-ups make room for it (R41). -/
  chosen   : Option Nat := none
  size     : Nat
  chamber  : List Msg
  /-- Pending messages in order: slot, place in the core's arrival order, message (R46, R48). -/
  mailbox  : List (Nat × Nat × Msg)
  busy     : Bool
  /-- Slot of the message being handled. -/
  handled  : Option Nat
  /-- Time at which the actor became idle-eligible (R44). -/
  eligible : Option Nat
  reserved : Bool
  /-- Target run of an ordered shift (R51). -/
  target   : Option (Nat × Nat)
  /-- PTPTIME from which the idle limit counts. -/
  lastBusy : Nat
  /-- Its directory operation is held while the directory grows; its place among those held (R414). -/
  held     : Option Nat
  deriving DecidableEq, Repr

/-- A class in use: the words of its record (Table 19.3). -/
structure ClassRec where
  num    : Nat
  entry  : W64
  size   : Nat
  init   : Bool
  tier   : Nat
  place  : Nat
  vf     : Nat
  idle   : W64
  first  : Nat
  count  : Nat
  hslice : Nat
  /-- Key of the template's first byte. -/
  tphys  : Nat
  /-- Withdrawn, and waiting for its actors to be laid up (R414). -/
  leaving : Bool
  deriving DecidableEq, Repr

structure Slice where
  admission : List Msg := []
  /-- Messages in the bulk plane on their way to the slice, in arrival order. -/
  input     : List Msg := []
  stoppedAt : Option Nat := none
  deriving DecidableEq, Repr

/-! ## Launches -/

inductive LState where
  | queued | ready | active | draining | ended
  deriving DecidableEq, Repr

/-- A placement group that holds a cluster set: group, die, clusters, next rank and end. -/
structure Placed where
  group    : Nat
  die      : Nat
  clusters : List Nat
  next     : Nat
  stop     : Nat
  deriving DecidableEq, Repr

structure Launch where
  handle   : Nat
  /-- Core whose context executed LAUNCH. -/
  core     : Nat
  vf       : Nat
  asid     : Nat
  /-- Whether the launching context was privileged, for the bitmap's pages. -/
  priv     : Bool
  phase    : Nat
  entry    : W64
  widths   : List Nat
  extents  : List Nat
  clevel   : Nat
  plevel   : Nat
  prio     : Nat
  gang     : Bool
  args     : W64
  bitmap   : W64
  producer : Nat
  shift    : Nat
  mode     : Nat
  window   : Nat
  claim    : Nat
  split    : Nat
  setSize  : Nat
  minChunk : Nat
  gangLen  : Nat
  st       : LState
  /-- Translated place of the bitmap words, found at LAUNCH (R211). -/
  bitAddr  : W64
  zeroed   : Bool
  dies     : List Nat
  /-- Placement groups, or die parts, still to be placed: group, first rank, end rank. -/
  pending  : List (Nat × Nat × Nat)
  placed   : List Placed
  /-- Items finished and items added by PUSHW, by completion group. -/
  finished : Map Nat
  pushed   : Map Nat
  bits     : List Nat
  /-- Items popped or started and not finished. -/
  running  : Nat
  failed   : Bool
  failCode : Nat
  failWid  : Option Nat
  depFail  : Bool
  /-- Placement groups discarded (R21). -/
  discarded : List Nat
  endedAt  : Nat
  /-- Effective priority in force (R384). -/
  eff      : Nat
  /-- Checkpoint regions that Cleoz names: key and length (R422). -/
  regions  : List (Nat × Nat)
  deriving DecidableEq, Repr

/-- An item whose helper has ended or gone on (R11, R26): it counts as done once the counted accesses
numbered below `after` and the engine operations `ops` are complete. -/
structure Settle where
  handle : Nat
  wid    : Nat
  ctx    : Nat
  hnum   : Nat
  after  : Nat
  ops    : List (Nat × Nat)
  deriving DecidableEq, Repr

/-! ## Sluices, links, boot, saved contexts -/

/-- A store of MCST or MCSTC: offset in the region, expected value of MCSTC, value. -/
structure SStore where
  id    : Nat
  /-- The issuing context; 65536 for another module's. -/
  ctx   : Nat
  hnum  : Nat
  dst   : Nat
  off   : Nat
  expect : Option W64
  val   : W64
  after : Nat
  phase : Nat
  vf    : Nat
  /-- Stretch window of the store (R111, R112). -/
  window : Nat
  deriving DecidableEq, Repr

structure Group where
  /-- Stores on their way to the sequencer, in arrival order. -/
  waiting : List SStore := []
  gen     : Nat := 0
  stamped : Nat := 0
  applied : Nat := 0
  /-- Stamped stores with their numbers, the newest first, at most 4,096 (R108). -/
  history : List (Nat × SStore) := []
  /-- Stamped stores that this member has not applied, in order (R109). -/
  missing : List SStore := []
  /-- Has every member reported active (R416)? -/
  open_   : Bool := false
  /-- The sequencer in force: SEQDEV when the group was activated or last reconfigured (R416). -/
  seqDev  : Nat := 0
  /-- The sequencer member's copy of the region, by offset, once a store has been stamped: what a lagged member takes over (R109, R416).
  (DESIGN CHOICE, log entry 62.) -/
  copy    : Option (List Host.Cell) := none
  deriving DecidableEq, Repr

structure Route where
  addr : Nat
  ipv6 : Bool
  port : Nat
  used : Nat
  deriving DecidableEq, Repr

/-- Why a logical port drops a frame (R53, R54, R56, R376). -/
inductive EthDrop where
  | length | payload | flags | netClass | noClass | quota | reply | roce | mtu
  deriving DecidableEq, Repr

structure EthPort where
  enabled : Bool := false
  routes  : Map Route := []
  /-- Dropped frames by cause. -/
  drops   : List (EthDrop × Nat) := []
  ipv4    : Bool := false
  ipv6    : Bool := false
  deriving DecidableEq, Repr

/-- What has left by Ethernet (R54): port, the client's address with its family and its UDP port, the virtual function
and its UDP port, bytes. -/
structure Datagram where
  port  : Nat
  addr  : Nat
  ipv6  : Bool
  dport : Nat
  sport : Nat
  vf    : Nat
  bytes : List Byte
  deriving DecidableEq, Repr

structure TowPort where
  up      : Bool := false
  lanes   : Nat := 0
  partner : Nat := 0
  /-- It stays down for its partner's number, and that is reported (R378). -/
  report  : Bool := false
  /-- It has been up since the module was reset, so that Cleoz may configure its reserved slots (R378). -/
  seen    : Bool := false
  deriving DecidableEq, Repr

structure CxlPort where
  trained : Bool := false
  rate    : Nat := 0
  /-- It fell back to 32 GT/s, which is reported (R377). -/
  fallback : Bool := false
  /-- Where its expander's memory begins in the second tier. -/
  base    : Nat := 0
  failed  : Bool := false
  deriving DecidableEq, Repr

/-- A queue pair of the RoCE engine and the address space that owns it (R376). -/
structure QueuePair where
  num  : Nat
  vf   : Nat
  asid : Nat
  /-- Path MTU, 1,024 to 4,096 bytes. -/
  mtu  : Nat
  deriving DecidableEq, Repr

/-- A boot image in flash (R373): its public key of 68 bytes, the image itself, its security version, and its signature of
2,820 bytes. -/
structure Image where
  readable : Bool := false
  key      : List Byte := []
  body     : List Byte := []
  svn      : BitVec 6 := 0
  sig      : List Byte := []
  /-- Digest of the key under which this first stage verifies the Cleoz image (R372; its place is a DESIGN CHOICE, log entry 61). -/
  trusts   : BitVec 256 := 0
  deriving DecidableEq, Repr

/-- A root-key slot in fuses (R373): the digest, once it is programmed, and the revocation fuse. -/
structure KeySlot where
  digest  : Option (BitVec 256) := none
  revoked : Bool := false
  deriving DecidableEq, Repr

structure Boot where
  stage    : Nat := 0
  err      : Nat := 0
  copy     : Nat := 0
  attExh   : Bool := false
  svn      : Nat := 0
  /-- The action of stage 2 has succeeded. -/
  loaded   : Bool := false
  images   : List Image := [{}, {}]
  cleoz    : Image := {}
  minSvn   : Nat := 0
  slots    : List KeySlot := [{}, {}]
  attIndex : Nat := 0
  /-- Digest of the key under which the first stage that has booted verifies the Cleoz image (R372). -/
  trusted  : BitVec 256 := 0
  /-- The public part of the device's attestation key, indices claimed and not signed with yet, and the signatures made: index, report,
  bytes (R375). -/
  attKey   : List Byte := []
  claimed  : List Nat := []
  signed   : List (Nat × List Byte × List Byte) := []
  /-- Fewer than 4,096 indices remain. -/
  attAlert : Bool := false
  tripped  : Bool := false
  deriving DecidableEq, Repr

/-- A saved context: where its frame lies and what the frame cannot change (R405, R406). -/
structure Saved where
  frame  : Nat
  /-- Its CTXID at the save. -/
  id     : Nat
  core   : Nat
  vf     : Nat
  kind   : Nat
  ctx    : Ctx
  gang   : Option (Nat × Nat)
  resumed : Bool
  /-- Its save stored its core's matrix state, and its cluster's scratchpad, which are given back before it resumes (R385). -/
  mat     : Bool := false
  pad     : Bool := false
  /-- Abandoned accesses that are issued again on restore, where the context had gone on (R77). -/
  redo   : List Flight
  deriving DecidableEq, Repr

/-- A trap record for Cleoz (R12, DESIGN CHOICE, log entry 14). -/
structure TrapRec where
  ctx   : Nat
  hnum  : Nat
  cause : Nat
  pc    : W64
  tval  : W64
  deriving DecidableEq, Repr

/-- Interrupts raised to Cleoz. -/
inductive Interrupt where
  | sliceInput (slice : Nat)
  | directory (dir : Nat)
  | sluice (group : Nat)
  | fabric (what : Nat)
  deriving DecidableEq, Repr

/-- The state of one virtual function that a slice switch saves (R390, Table 21.5). -/
structure VfImage where
  vf      : Nat
  ctxs    : Map Ctx
  cores   : Map CoreSt
  clusters : Map Cluster
  moors   : List Moor
  slices  : Map Slice
  /-- Bytes of local memories and scratchpads, their EMPTY words. -/
  mem     : List Host.Cell
  empties : List Nat
  settling : List Settle
  /-- Abandoned accesses that are issued again on restore (R77). -/
  redo    : List Flight
  /-- Poisoned words of local memories and scratchpads. -/
  poison  : List Nat
  deriving DecidableEq, Repr

/-- What comes next when it is not the default (DESIGN CHOICE, log entry 5). -/
inductive Choice where
  /-- An event row. -/
  | event (i : Instr)
  /-- The context of this CTXID issues, if it is ready. -/
  | issue (ctx : Nat)
  /-- At most this many cycles pass, PTPTIME slewed by this many parts in 10,000 (R379). -/
  | elapse (cycles : Nat) (slew : Int)
  /-- Cleoz installs a resident program: core, entry, address space, privileged (R8, R371). -/
  | install (core : Nat) (entry : W64) (asid : Nat) (priv : Bool)
  /-- Cleoz stops a control context (R8). -/
  | stop (core : Nat)
  /-- A system core stores bytes at a physical key. -/
  | store (key : Nat) (bytes : List Byte)
  /-- AMOSWAP.D of a system core (R400). -/
  | swap (key : Nat) (val : W64)
  /-- The security engine's attestation key, which each device holds (R375); it is set once. -/
  | attestKey (key : List Byte)
  /-- A walker has set A of the leaf for a write of a context, and not yet D (R399). -/
  | walkA (ctx va : Nat)
  /-- A single-bit error is corrected in a unit (R417, R418). -/
  | corrected (source unit : Nat)
  /-- Every member of a group has applied the last stamped number, and the group goes on with its new list (R416). -/
  | groupMove (group : Nat)
  /-- Cleoz gives a virtual function its UDP port (R53). -/
  | udpPort (vf port : Nat)
  /-- Cleoz chooses what a logical Ethernet port accepts (R53). -/
  | accept (port : Nat) (ipv4 ipv6 : Bool)
  /-- Cleoz opens a queue pair (R376). -/
  | queuePair (q : QueuePair)
  /-- Boot flash as it stands: copies A and B, the Cleoz image (R372, R373). -/
  | flash (a b c : Image)
  /-- The fuses of an empty root-key slot are programmed (R373). -/
  | program (slot : Nat) (digest : BitVec 256)
  /-- The security engine signs a request's report with the oldest index that it has claimed (R375): the signature. -/
  | sign (report sig : List Byte)
  /-- What PTP finds: this module's offset from the grandmaster and its greatest control-flit latency, in nanoseconds (R112, R379). -/
  | clock (offset latency : Nat)
  /-- Another module leaves the time domain, or is in it (R307, R379). -/
  | member (dev : Nat) (inside : Bool)
  /-- The home of a remote access refuses it: its retry list or its reply cache is full (R73, R124). -/
  | refuse (id : Nat)
  /-- A stretch or gap request answered from outside: a store of another module for a group. -/
  | remoteStore (group : Nat) (x : SStore)
  /-- Every member of a sluice group has reported active (R416). -/
  | groupOpen (group : Nat)
  /-- Another module has handled the message in this place among those sent to other modules (R50), or has dropped it, whose
  class is not registered there (R36). -/
  | delivered (place : Nat)
  | dropped (place : Nat)
  /-- An access of another module arrives at the home of a word here (R73). -/
  | remoteAccess (op : MemOp) (key size : Nat) (x y : W64) (sync scope : Nat)
  /-- An engine context's operation reads some words of its sources, or writes some of its destinations, before the others
  (R114, R302, R355). `ahead` means the command taken behind the running one. -/
  | engRead (core ctr : Nat) (ahead : Bool) (keys : List Nat)
  | engWrite (core ctr : Nat) (ahead : Bool) (keys : List Nat)
  /-- Cleoz orders a shift of an actor (Table 2.1). -/
  | shift (vf cls : Nat) (key : W64) (core : Nat)
  /-- Cleoz names the checkpoint regions of a launch, or asks for an input digest (R422). -/
  | regions (handle : Nat) (l : List (Nat × Nat))
  | digest (key len : Nat)
  deriving DecidableEq, Repr

/-! ## The machine -/

structure State where
  /-- The model's clock in core cycles, and PTPTIME (R111). -/
  cycle      : Nat
  ptp        : Nat
  /-- Fraction of a nanosecond that PTPTIME has not counted, in units of 1 / 2,850,000. -/
  ptpFrac    : Nat
  /-- CTXID of the context whose instruction `exec` performs. -/
  cur        : Nat
  /-- Word 0 of the instruction that issues, for TVAL (Table 6.8). -/
  word0      : W32
  agenda     : List Choice
  fresh      : Nat
  /-- Address of the Cleoz trap handler (DESIGN CHOICE, log entry 3). -/
  cleozTrap  : W64
  ctxs       : Map Ctx
  cores      : Map CoreSt
  clusters   : Map Cluster
  dies       : Map Die
  hbm        : Map Stack
  mem        : List Host.Cell
  empties    : List Nat
  poison     : List Nat
  poisonRanges : List (Nat × Nat)
  flights    : List Flight
  nextId     : Nat
  /-- Administration registers by address; an unlisted one holds its reset value. -/
  admin      : Map W64
  boot       : Boot
  launches   : List Launch
  settling   : List Settle
  nextHandle : Nat
  moors      : List Moor
  slices     : Map Slice
  classes    : List ClassRec
  arrival    : Nat
  groups     : Map Group
  eth        : Map EthPort
  udpPorts   : Map Nat
  queuePairs : List QueuePair
  sent       : List Datagram
  toCleoz    : List Frame
  /-- PTP messages at the timing unit: port, frame, PTPTIME of its arrival (R376). -/
  timing     : List (Nat × Frame × Nat)
  tow        : Map TowPort
  /-- Messages sent to other modules and not handled there yet: port, device, message. -/
  towOut     : List (Nat × Nat × Msg)
  inbound    : Map (List Msg)
  cxl        : Map CxlPort
  device     : Nat
  inDomain   : Bool
  /-- Other modules that are outside the time domain (R307, R379). -/
  apart      : List Nat
  /-- Offset from the grandmaster and control-flit latency, in nanoseconds (R112, R379). -/
  offset     : Nat
  latency    : Nat
  /-- Unwithdrawn stretch notices: device, window (R112). -/
  notices    : List (Nat × Nat)
  stretches  : Nat
  sweeps     : Nat
  /-- PTPTIME of the last sweep (R106). -/
  sweepAt    : Nat
  /-- Result of the last sweep by virtual function × 2 + phase, and activity bits since. -/
  quietRep   : List Nat
  /-- The number of the last sweep that reported each quiet (R107). -/
  quietAt    : Map Nat
  activity   : List Nat
  saved      : List Saved
  records    : List TrapRec
  /-- Corrected errors by unit, those of the last hour by time, and the time of the last rate alert (R418). -/
  errors     : Map Nat
  errTimes   : Map (List Nat)
  alerts     : Map Nat
  errDrops   : Nat
  interrupts : List Interrupt
  images     : List VfImage
  keys       : Map Nat
  /-- No virtual function is resident (R372). -/
  noVf       : Bool
  quantum    : Nat
  /-- That entry as the scheduler read it (R389). -/
  sliceWord  : W64
  sliceFrom  : Nat
  /-- Time since which the resident virtual function has had no work (R389). -/
  idleFrom   : Nat
  journal    : Nat
  /-- Journal entries that replay has used, by offset (R423). -/
  replayed   : List Nat
  /-- The shoot-down that GO names has been carried to every core (R401), and the number of the next access then. -/
  sdBegun    : Bool
  sdMark     : Nat
  powerMode  : Nat
  windowLog  : Nat
  /-- The window in which SCHMODE was last written: a new WLEN waits for its end (R393). -/
  winAsked   : Nat
  /-- What the last AMOSWAP.D of a system core returned (R400). -/
  sysOld     : W64
  lagged     : List Nat
  deriving DecidableEq, Repr

/-- A control context right after reset. (DESIGN CHOICE, log entry 2.) -/
def Ctx.reset : Ctx := {}

/-- The machine right after power-on (R372): held in the ROM stage, every tag FULL, every
weight-store die in loading mode, no program resident. Values without a rule: DESIGN CHOICE, log entry 2. (DESIGN CHOICE, log entry 1.) -/
def State.reset : State :=
  { cycle := 0, ptp := 0, ptpFrac := 0, cur := 0, word0 := 0, agenda := [], fresh := 0, cleozTrap := 0, ctxs := [], cores := [],
    clusters := [], dies := [], hbm := [], mem := [], empties := [], poison := [], poisonRanges := [],
    flights := [], nextId := 1, admin := [], boot := {}, launches := [], settling := [], nextHandle := 1, moors := [], slices := [],
    classes := [], arrival := 0, groups := [], eth := [], udpPorts := [], queuePairs := [], sent := [],
    toCleoz := [], timing := [], tow := [], towOut := [], inbound := [], cxl := [], device := 0, inDomain := true, apart := [], offset := 0, latency := 0,
    notices := [], stretches := 0, sweeps := 0, sweepAt := 0, quietRep := [], quietAt := [], activity := [], saved := [], records := [],
    errors := [], errTimes := [], alerts := [], errDrops := 0, interrupts := [], images := [], keys := [], noVf := true, quantum := 0, sliceWord := 0,
    sliceFrom := 0, idleFrom := 0, journal := 0, replayed := [], sdBegun := false, sdMark := 0, powerMode := 0, windowLog := 2, winAsked := 0, sysOld := 0, lagged := [] }

end Sys2Proof.Machine
end

