-- ==== Sys2Proof/Machine/Ops.lean ====
section
/-! DEFINITION. The named operations over contexts, registers and memory, taking a trap, and the return
from one. Every instruction's meaning goes through them. -/

namespace Sys2Proof.Machine

abbrev Result := Host.Outcome State Fault Refusal

/-- Length in bytes and stall count of the instruction performed. -/
structure Op where
  len : Nat
  st  : St

/-! ## Geometry (R2, R6) -/

def coreOf (ctx : Nat) : Nat := ctx % 4096
def slotOf (ctx : Nat) : Nat := ctx / 4096
/-- CTXID (R6); 45056, no context's, for numbers that no core or slot has. -/
def ctxId (core slot : Nat) : Nat := if core < 4096 ∧ slot ≤ 10 then core + 4096 * slot else 45056
def dieOf (core : Nat) : Nat := core / 1024
/-- Cluster index of a core (R2). -/
def clusterOf (core : Nat) : Nat := core / 1024 * 128 + core / 32 % 32 * 4 + core % 32 / 8
/-- Column of a core within its cluster. -/
def colOf (core : Nat) : Nat := core % 8
/-- The cores of a cluster, by column. -/
def coresOf (cluster : Nat) : List Nat :=
  (List.range 8).map fun j => cluster / 128 * 1024 + cluster % 128 / 4 * 32 + cluster % 4 * 8 + j
/-- The clusters of a die. -/
def clustersOf (die : Nat) : List Nat := (List.range 128).map (die * 128 + ·)

/-! ## Units of the state -/

def State.ctx (s : State) (id : Nat) : Ctx := s.ctxs.get id Ctx.reset
def State.setCtx (s : State) (id : Nat) (c : Ctx) : State := { s with ctxs := s.ctxs.put id c }
def State.modCtx (s : State) (id : Nat) (f : Ctx → Ctx) : State := s.setCtx id (f (s.ctx id))
def State.freeCtx (s : State) (id : Nat) : State := { s with ctxs := s.ctxs.del id }
/-- The issuing context. -/
def State.me (s : State) : Ctx := s.ctx s.cur
def State.setMe (s : State) (c : Ctx) : State := s.setCtx s.cur c
def State.modMe (s : State) (f : Ctx → Ctx) : State := s.modCtx s.cur f
def State.core (s : State) (i : Nat) : CoreSt := s.cores.get i {}
def State.setCore (s : State) (i : Nat) (c : CoreSt) : State := { s with cores := s.cores.put i c }
def State.modCore (s : State) (i : Nat) (f : CoreSt → CoreSt) : State := s.setCore i (f (s.core i))
def State.myCore (s : State) : Nat := coreOf s.cur
def State.cluster (s : State) (i : Nat) : Cluster := s.clusters.get i {}
def State.modCluster (s : State) (i : Nat) (f : Cluster → Cluster) : State :=
  { s with clusters := s.clusters.put i (f (s.cluster i)) }
def State.die (s : State) (i : Nat) : Die := s.dies.get i {}
def State.modDie (s : State) (i : Nat) (f : Die → Die) : State := { s with dies := s.dies.put i (f (s.die i)) }
def State.stack (s : State) (i : Nat) : Stack := s.hbm.get i {}
def State.modStack (s : State) (i : Nat) (f : Stack → Stack) : State := { s with hbm := s.hbm.put i (f (s.stack i)) }
def State.slice (s : State) (i : Nat) : Slice := s.slices.get i {}
def State.modSlice (s : State) (i : Nat) (f : Slice → Slice) : State := { s with slices := s.slices.put i (f (s.slice i)) }
def State.group (s : State) (i : Nat) : Group := s.groups.get i {}
def State.modGroup (s : State) (i : Nat) (f : Group → Group) : State := { s with groups := s.groups.put i (f (s.group i)) }
def State.ethPort (s : State) (i : Nat) : EthPort := s.eth.get i {}
def State.modEth (s : State) (i : Nat) (f : EthPort → EthPort) : State := { s with eth := s.eth.put i (f (s.ethPort i)) }
def State.towPort (s : State) (i : Nat) : TowPort := s.tow.get i {}

/-- Virtual function of a core's work (k14). -/
def State.vfOf (s : State) (ctx : Nat) : Nat := (s.core (coreOf ctx)).vfid
def isHelper (ctx : Nat) : Bool := slotOf ctx != 0
/-- Privileged: Cleoz code, or the Cleoz trap handler (R152). (DESIGN CHOICE, log entry 3.) -/
def Ctx.privileged (c : Ctx) : Bool := c.priv || c.inTrap

/-! ## Scalar registers (R85, R150, R151) -/

/-- Does the miss handler run, not a trap handler that interrupted it? (DESIGN CHOICE, log entry 3.) -/
def Ctx.inView (c : Ctx) : Bool := c.inMiss && (!c.inTrap || c.missTop)

/-- The place of register number `r` in the context's view: in a miss handler s48–s63 are ss0–ss15. -/
def Ctx.regKey (c : Ctx) (r : R6) : Nat :=
  if c.inView && decide (48 ≤ r.toNat) then r.toNat + 16 else r.toNat

/-- Contents of a place; s0 reads 0. -/
def Ctx.regAt (c : Ctx) (k : Nat) : W64 := if k = 0 then 0 else c.regs.get k 0

/-- Writes a place; a write to s0 is discarded (R151). Later writes overtake a late one. (DEDUCED, log entry 23.) -/
def Ctx.setAt (c : Ctx) (k : Nat) (v : W64) : Ctx :=
  if k = 0 then c else { c with regs := c.regs.put k v, late := c.late.filter (·.reg ≠ k) }

/-- The oldest of the writes of a place that stand, in issue order, behind every one that has reached its latency; none where the
last one has. (DEDUCED, log entry 23.) -/
def Ctx.lateAt (c : Ctx) (k now : Nat) : Option Late :=
  ((c.late.reverse.filter (·.reg == k)).takeWhile fun l => decide (now < l.ready)).getLast?

/-- What a reader finds in a place at a cycle (R145): what the last write that has reached its latency left. (DEDUCED, log entry 23.) -/
def Ctx.readAt (c : Ctx) (k now : Nat) : W64 :=
  match c.lateAt k now with
  | some l => l.old
  | none => c.regAt k

/-- The writes that a reader may still not find: neither they nor a later one of the place have reached their latency. (DEDUCED, log entry 23.) -/
def pruneLate (now : Nat) : List Late → List Late
  | [] => []
  | l :: ls =>
    if now < l.ready ∧ (ls.any fun m => m.reg == l.reg && decide (m.ready ≤ now)) = false then l :: pruneLate now ls else pruneLate now ls

/-- Writes with a latency of `lat` cycles (R145): until then readers find what they would have found without it. (DEDUCED, log
entry 23.) -/
def Ctx.setLate (c : Ctx) (k : Nat) (v : W64) (now lat : Nat) : Ctx :=
  if k = 0 then c
  else { c with regs := c.regs.put k v, late := pruneLate now c.late ++ [{ reg := k, old := c.regAt k, ready := now + lat }] }

/-- Waits of an instruction that could not issue at all (R7, R129, R348): it has not taken the cycle. -/
def Wait.unissued : Wait → Bool
  | .regs _ | .engine _ | .vector | .acquire | .merged | .turn _ | .fetch _ => true
  | _ => false

/-- The cycle in which the issuing context's instruction has issued: that of its first attempt, if it is performed again after a
wait (R145). -/
def State.issuedIn (s : State) : Nat :=
  match s.me.wait with
  | some w => if w.unissued then s.cycle else s.me.waitFrom
  | none => s.cycle

/-- What the issuing context reads from register `r`. -/
def State.rd (s : State) (r : R6) : W64 := s.me.readAt (s.me.regKey r) s.issuedIn
def State.wr (s : State) (r : R6) (v : W64) : State := s.modMe fun c => c.setAt (c.regKey r) v
def State.wrLate (s : State) (r : R6) (v : W64) (lat : Nat) : State :=
  s.modMe fun c => if lat ≤ 1 then c.setAt (c.regKey r) v else c.setLate (c.regKey r) v s.cycle lat

/-! ## k registers held per context (R152, Table 6.7) -/

/-- (DESIGN CHOICE, log entry 2.) -/
def kReset (k : Nat) : W64 := if k = 4 then 0xFFFF else 0
def Ctx.k (c : Ctx) (n : Nat) : W64 := c.kregs.get n (kReset n)
def Ctx.setK (c : Ctx) (n : Nat) (v : W64) : Ctx := { c with kregs := c.kregs.put n v }
def Ctx.phase (c : Ctx) : Nat := (c.k 3).toNat % 2

/-- Seeded state of lane generator `l` (R172). -/
def seedGen (seed : W64) (l : Nat) : Nat :=
  let g := (seed.toNat % 2 ^ 32) ^^^ (seed.toNat / 2 ^ 32) ^^^ (l * 0x9E3779B9 % 2 ^ 32)
  if g = 0 then 1 else g
/-- State of a lane generator. Until SRSEED is first written it is what the value that k18 holds would seed: the manual gives
only what a write sets (DESIGN CHOICE, log entry 62). -/
def Ctx.gen (c : Ctx) (l : Nat) : Nat := c.gens.get l (seedGen (c.k 18) l)

/-! ## Counters that follow from what is under way -/

/-- Has a context, by its virtual function, core and helper number, counted accesses numbered below `n` that are unacknowledged, or that
a save or a slice switch has abandoned and its restore issues again (R77, R91)? (DESIGN CHOICE, log entry 26). -/
def State.owes (s : State) (vf core hnum n : Nat) : Bool :=
  let due (f : Flight) : Bool := f.hnum == hnum && f.counted && decide (f.id < n)
  s.flights.any (fun f => coreOf f.ctx == core && f.vf == vf && due f) ||
    (s.saved.any fun x => x.core == core && x.vf == vf && x.redo.any due) ||
    s.images.any fun x => x.vf == vf && x.redo.any fun f => coreOf f.ctx == core && due f

/-- Are counted accesses of a context that are numbered below `n` unacknowledged (R91)? -/
def State.unacked (s : State) (ctx n : Nat) : Bool := s.owes (s.vfOf ctx) (coreOf ctx) (s.ctx ctx).hnum n

/-- Is the access a release (R91, Table 6.2)? -/
def Flight.isRelease (f : Flight) : Bool := f.order == 2 || f.order == 3 || f.op == .rel

/-- The store-acknowledge counter of a context (R87); a release is added when it leaves the network interface (R91). -/
def State.acks (s : State) (ctx : Nat) : Nat :=
  (s.flights.filter fun f => f.ctx == ctx && f.counted && !(f.isRelease && s.unacked ctx f.id)).length

/-- The commands of an engine context in issue order: the running one, the one taken behind it, the queue (R355). -/
def CoreSt.engCmds (c : CoreSt) (ctr : Nat) : List EngCmd :=
  (c.running.find? ctr).toList ++ (c.taken.find? ctr).toList ++ c.queues.get ctr []
/-- The commands of every engine context of a core. -/
def CoreSt.cmds (c : CoreSt) : List EngCmd := c.running.map (·.2) ++ c.taken.map (·.2) ++ c.queues.flatMap (·.2)

/-- Is the command an AREAD, whose data the busy flag covers (R293)? -/
def EngCmd.isAread (q : EngCmd) : Bool :=
  match q.op with
  | .aread _ _ _ _ _ => true
  | _ => false

/-- The busy flag of a context (R248). -/
def State.busy (s : State) (ctx : Nat) : Bool :=
  let c := s.core (coreOf ctx)
  c.vqueue.any (·.ctx == ctx) || c.vrunning.any (·.ctx == ctx) ||
    (c.engCmds 0).any fun q => q.issuer == ctx && q.isAread

/-- The scalar register that a command's result goes to, if it has one. -/
def VOp.dst? : VOp → Option Nat
  | .mpop d _ _ | .mfirst d _ _ | .extr d _ _ _ | .red _ d _ _ _ | .claim d _ | .reneg d => some d
  | _ => none

/-- Does place `k` of a context await an interlocked result (R145)? -/
def State.awaited (s : State) (ctx k : Nat) : Bool :=
  k != 0 &&
    (s.flights.any (fun f => f.ctx == ctx && !f.performed && (f.dst == some k || f.dst2 == some k)) ||
     (((s.core (coreOf ctx)).vqueue ++ (s.core (coreOf ctx)).vrunning).any fun q => q.ctx == ctx && q.op.dst? == some k) ||
     (s.groups.any fun g => g.2.waiting.any fun x => x.ctx == ctx && x.dst == k) || (s.ctx ctx).pend.any fun p => p.dst == some k || p.dst2 == some k)

/-- Has an acquire of the context not returned (R92)? -/
def Ctx.acquiring (c : Ctx) : Bool :=
  c.pend.any fun p => match p.op with
    | .add _ _ _ | .alloc _ _ _ | .seqNew _ _ _ | .erase _ _ _ => false
    | _ => true

/-! ## Issue, waiting and completion -/

/-- The context waits; it issues the instruction again when the wait is over. -/
def State.hold (s : State) (w : Wait) : State :=
  s.modMe fun c => { c with wait := some w, waitFrom := if c.wait.any (!·.unissued) then c.waitFrom else s.cycle }

/-- Is the instruction already waiting with this wait? -/
def State.waits (s : State) : Option Wait := s.me.wait

/-- The instruction is done: the next one follows, held for the stall count (R145). -/
def State.finish (s : State) (o : Op) : State :=
  s.modMe fun c => { c with pc := c.pc + BitVec.ofNat 64 o.len, wait := none, nextIssue := s.cycle + 1 + o.st.toNat }

/-- A taken branch (R197, R350). -/
def State.branch (s : State) (o : Op) (target : W64) : State :=
  s.modMe fun c => { c with pc := target, wait := none, nextIssue := s.cycle + 1 + max o.st.toNat 2 }

/-! ## Engine commands -/

/-- Marks traffic of the context's virtual function and phase (R106). -/
def State.active (s : State) (vf phase : Nat) : State :=
  if s.activity.contains (vf * 2 + phase) then s else { s with activity := (vf * 2 + phase) :: s.activity }

/-- Window length L in nanoseconds (R111); WLEN takes effect at a window boundary (R393). (DEDUCED, log entry 54.) -/
def State.winLen (s : State) : Nat := 1000 * 2 ^ s.windowLog
def State.winNum (s : State) : Nat := s.ptp / s.winLen

/-- A command of a context. -/
def State.commandOf (s : State) (ctx num : Nat) (ph : Bit) (op : EngOp) (accepted : Bool) (dst : Option Nat) : EngCmd :=
  let c := s.ctx ctx
  { num := num, op := op, issuer := ctx, hnum := c.hnum, pc := c.pc, after := s.nextId, vf := s.vfOf ctx,
    asid := c.asid, priv := c.privileged, phase := (c.phase + ph.toNat) % 2, blocks := [], accepted := accepted, dst := dst,
    window := s.winNum, placed := c.placed, mig := c.mig, actor := c.actor, gang := (s.core (coreOf ctx)).gangMask }
/-- A command as it leaves the issuing context. -/
def State.command (s : State) (num : Nat) (ph : Bit) (op : EngOp) (accepted : Bool) (dst : Option Nat) : EngCmd :=
  s.commandOf s.cur num ph op accepted dst

/-- It enters its queue under its number, which the next one follows (R99); its virtual function has traffic of its phase (R106). -/
def State.enterQueue (s : State) (core ctr : Nat) (q : EngCmd) : State :=
  let s := s.modCore core fun c => { c with queues := c.queues.put ctr (c.queues.get ctr [] ++ [q]), nextNum := c.nextNum.put ctr (q.num + 1) }
  s.active q.vf q.phase

/-! ## Launch records -/

def State.launch? (s : State) (h : Nat) : Option Launch := s.launches.find? (·.handle == h)
def State.setLaunch (s : State) (l : Launch) : State :=
  { s with launches := s.launches.map fun m => if m.handle == l.handle then l else m }
/-! ## Failure of a launch (R21) -/

/-- Completion groups whose bit may still be set: none once the launch has failed. A group that was itself discarded for a failed
dependence, in a launch that has not failed, may open until that launch ends, and its consumers are discarded then: R21 gives the moment for
a failed launch alone (DESIGN CHOICE, log entry 62). -/
def Launch.canOpen (l : Launch) (g : Nat) : Bool := l.bits.contains g || (!l.failed && l.st != .ended)

/-- Active becomes Draining once the last rank has been handed out (R382). -/
def Launch.drained (l : Launch) : Launch :=
  if l.pending.all (fun q => decide (q.2.2 ≤ q.2.1)) && l.placed.all (fun p => decide (p.stop ≤ p.next)) && l.st == .active
  then { l with st := .draining } else l

/-- Discards the consumer groups that wait on a group that can no longer complete. -/
def discardWaiters (p : Launch) (c : Launch) : Launch :=
  if c.mode = 2 ∧ c.producer = p.handle then
    let dead := (c.pending.filter fun q => !(p.canOpen (q.1 / 2 ^ c.shift))).map (·.1)
    Launch.drained { c with pending := c.pending.filter (fun q => !(dead.contains q.1)), discarded := c.discarded ++ dead,
                            depFail := c.depFail || dead != [] }
  else c

/-- The first failure of a launch: no further chunks, queued items discarded, waiting consumer groups
discarded (R21). (DEDUCED, log entry 43.) -/
def State.failLaunch (s : State) (h code : Nat) (wid : Option Nat) : State :=
  match s.launch? h with
  | none => s
  | some l =>
    if l.failed = true ∨ l.st = .ended then s
    else
      let l := { l with failed := true, failCode := code, failWid := wid, pending := [],
                        placed := l.placed.map (fun p => { p with next := p.stop }),
                        st := if l.st = .active ∨ l.st = .ready then .draining else l.st }
      let s := s.setLaunch l
      let cut (m : Map CoreSt) : Map CoreSt := m.map fun (p : Nat × CoreSt) => (p.1, { p.2 with workq := p.2.workq.filter (·.handle ≠ h) })
      let image (x : VfImage) : VfImage := { x with cores := cut x.cores }
      let s := { s with cores := cut s.cores, images := s.images.map image }
      { s with launches := s.launches.map (discardWaiters l) }

/-- A helper of a launch ends by FAIL: the item that it holds failed, and the one that STARTW started it with, which may be another
launch's (R21). (DEDUCED, log entry 43.) -/
def State.failItem (s : State) (c : Ctx) (code : Nat) : State :=
  match c.item.toList ++ c.own.toList with
  | [] => if c.form = .startw then s.failLaunch (c.k 2).toNat code none else s
  | items => items.foldl (fun s i => s.failLaunch i.1 code (some i.2)) s

/-! ## Traps (R12, R85, R154) and the return from one (R217) -/

/-- The core hears an event that ends IDLE (R127). -/
def State.wakeIdle (s : State) (core : Nat) : State :=
  s.modCore core fun c => { c with idleMark := true }

/-- Is it a release that has not taken effect (R91, R98): a TLADD, the arrival of BARC or BARH, or a request to a block engine? -/
def Pend.isRelease (p : Pend) : Bool :=
  match p.op with
  | .add _ _ _ | .arrive _ _ _ | .alloc _ _ _ | .seqNew _ _ _ => true
  | _ => false

/-- Place of a block request in its core's queue (R312). -/
def PendOp.request? : PendOp → Option Nat
  | .alloc _ _ id | .seqNew _ _ id => some id
  | _ => none
def Pend.request? (p : Pend) : Option Nat := p.op.request?

/-- The item with which STARTW started the helper, and with which its gang is known. -/
def Ctx.startItem (c : Ctx) : Option (Nat × Nat) := c.own.or c.item

/-- A context that ends is at the wired barrier no more (R133). One that the barrier has let go has executed its MMAG with the others:
the command enters the queue then, so that their joint step finds it (R284). (DEDUCED, log entry 30.) -/
def State.leaveMmag (s : State) (ctx : Nat) : State :=
  let core := coreOf ctx
  match (s.core core).mmag with
  | some (id, op, go) =>
    if id = ctx then
      let s := s.modCore core fun c => { c with mmag := none }
      if go then
        let num := (s.core core).nextNum.get 0 1
        (s.enterQueue core 0 (s.commandOf ctx num 0 op true none)).modCtx ctx fun c =>
          { c with ops := if c.startItem.isSome then c.ops ++ [(0, num)] else c.ops }
      else s
    else s
  | none => s

/-- A helper goes to Closing (R9, R11); its releases still take effect (R91). A failure is its launch's at once (R21). -/
def State.close (s : State) (ctx : Nat) (failed : Bool) (code : Nat) : State :=
  if (s.ctx ctx).life = .closing then s
  else
    let s := s.leaveMmag ctx
    let c := s.ctx ctx
    let s := s.setCtx ctx { c with life := .closing, failed := failed, code := code % 65536, wait := none, inMiss := false, fault := none, pend := c.pend.filter Pend.isRelease }
    if failed then s.failItem c (code % 65536) else s

/-- Takes a trap: TCAUSE, TPCV and TVAL are written, and the fate is that of R12. A restartable page fault inside a miss
handler writes TPCV too (R154), so that the handler's ERET then returns to the instruction that faulted; what R85 wants of
TPCV there is not stated (DESIGN CHOICE, log entry 61). (DESIGN CHOICE, log entry 3.) (DESIGN CHOICE, log entry 14). -/
def State.takeTrap (s : State) (ctx : Nat) (cause : Nat) (tval pc : W64) (info : Option FaultInfo) : State :=
  let s := s.modCtx ctx fun c =>
    let c : Ctx := ((c.setK 11 (BitVec.ofNat 64 cause)).setK 12 pc).setK 13 tval
    { c with wait := none, pc := pc }
  let c := s.ctx ctx
  if cause = 0x0A ∧ c.k 6 ≠ 0 ∧ c.inMiss = false then
    s.setCtx ctx { c with inMiss := true, missTop := c.inTrap, pc := c.k 6 }
  else if isHelper ctx = false then
    s.setCtx ctx { c with inTrap := true, missTop := false, pc := s.cleozTrap }
  else if cause = 0x04 then
    s.setCtx ctx { c with wait := some .fault, fault := info }
  else
    ({ s with records := s.records ++ [{ ctx := ctx, hnum := c.hnum, cause := cause, pc := pc, tval := tval }] } : State).close
      ctx true (0x0100 + cause)

/-- The issuing context traps at its instruction. -/
def State.trap (s : State) (cause : Nat) (tval : W64) : State := s.takeTrap s.cur cause tval s.me.pc none

/-- No stall is left of an instruction that traps (R145): one whose stall count holds its context up to `until_`, which nothing that
the context has issued since goes beyond. -/
def State.dropStall (s : State) (ctx until_ : Nat) : State :=
  s.modCtx ctx fun c => { c with nextIssue := if c.nextIssue = until_ then min until_ (s.cycle + 1) else c.nextIssue }

/-- Ends a context as by FAIL because of an event found later; a control context enters the Cleoz trap
handler at its next instruction boundary (R12). `hnum` guards against a slot that holds another helper. Two points are
the model's: an event whose helper is Closing or Saved by then is dropped, and of two events before one boundary of a
control context the later one is the trap that it takes. (DESIGN CHOICE, log entry 61.) -/
def State.endAsFail (s : State) (ctx hnum cause : Nat) (tval : W64) : State :=
  if isHelper ctx = false then s.modCtx ctx fun c => { c with dueTrap := some (cause, tval) }
  else match s.ctxs.find? ctx with
    | some c => if c.hnum = hnum then s.close ctx true (0x0100 + cause) else s
    | none => s

/-- ERET (R217): it leaves the handler that runs, the one entered last, if any; with a misaligned TPCV it traps. (DESIGN CHOICE, log entry 3.) -/
def State.eret (s : State) (o : Op) (word : W64) : State :=
  let c := s.me
  if c.inTrap || c.inMiss then
    if (c.k 12).toNat % 4 ≠ 0 then s.trap 0x03 (c.k 12)
    else
      (s.branch o (c.k 12)).modMe fun c => if c.inView then { c with inMiss := false, missTop := false } else { c with inTrap := false }
  else s.trap 0x01 word

/-! ## Reading and writing bytes

`mem` lists (key, byte) by rising key, no byte 0: what an unlisted key reads as (DESIGN CHOICE, log entry 1). -/

/-- What a key that is not listed reads as. (DESIGN CHOICE, log entry 1.) -/
def unlisted : Byte := 0

/-- (DESIGN CHOICE, log entry 1.) -/
def memGet : List Host.Cell → Nat → Byte
  | [], _ => unlisted
  | (j, v) :: m, k => if j < k then memGet m k else if j = k then v else unlisted

def memSet : List Host.Cell → Nat → Byte → List Host.Cell
  | [], k, v => if v = unlisted then [] else [(k, v)]
  | (j, w) :: m, k, v =>
    if j < k then (j, w) :: memSet m k v
    else if j = k then (if v = unlisted then m else (k, v) :: m)
    else (if v = unlisted then (j, w) :: m else (k, v) :: (j, w) :: m)

/-- The canonical form: keys rising strictly, no entry equal to `unlisted`. (DESIGN CHOICE, log entry 1.) -/
def memWf : List Host.Cell → Bool
  | [] => true
  | [(_, v)] => v != unlisted
  | (j, v) :: (k, w) :: m => v != unlisted && decide (j < k) && memWf ((k, w) :: m)

/-- `n` bytes from `k` up as a number, the lowest address least significant (R142, R249). -/
def memNat (m : List Host.Cell) (k : Nat) : Nat → Nat
  | 0 => 0
  | n + 1 => (memGet m k).toNat + 256 * memNat m (k + 1) n

/-- Stores the low `n` bytes of `v` from `k` up. -/
def memPut (m : List Host.Cell) (k v : Nat) : Nat → List Host.Cell
  | 0 => m
  | n + 1 => memPut (memSet m k (BitVec.ofNat 8 v)) (k + 1) (v / 256) n

def memPutBytes (m : List Host.Cell) (k : Nat) : List Byte → List Host.Cell
  | [] => m
  | b :: bs => memPutBytes (memSet m k b) (k + 1) bs

def memBytes (m : List Host.Cell) (k n : Nat) : List Byte := (List.range n).map fun i => memGet m (k + i)

def State.read (s : State) (k n : Nat) : Nat := memNat s.mem k n
def State.write (s : State) (k n v : Nat) : State := { s with mem := memPut s.mem k v n }
def State.read64 (s : State) (k : Nat) : W64 := BitVec.ofNat 64 (s.read k 8)
def State.write64 (s : State) (k : Nat) (v : W64) : State := s.write k 8 v.toNat
def State.writeBytes (s : State) (k : Nat) (bs : List Byte) : State := { s with mem := memPutBytes s.mem k bs }

/-- Writes the bytes of `v` whose bit of `mask` is set: a write-back of dirty bytes. -/
def memMerge (m : List Host.Cell) (k v mask : Nat) : Nat → List Host.Cell
  | 0 => m
  | n + 1 => memMerge (if mask % 2 = 1 then memSet m k (BitVec.ofNat 8 v) else m) (k + 1) (v / 256) (mask / 2) n

/-! ## Tags and poison, by the word that holds a key (R74, R79) -/

def wordKey (k : Nat) : Nat := k / 8 * 8

/-- Puts `k` into a rising list without repeats. -/
def insertKey : List Nat → Nat → List Nat
  | [], k => [k]
  | j :: l, k => if j < k then j :: insertKey l k else if j = k then j :: l else k :: j :: l

def State.isFull (s : State) (k : Nat) : Bool := !(s.empties.contains (wordKey k))
def State.setTag (s : State) (k : Nat) (full : Bool) : State :=
  { s with empties := if full then s.empties.filter (· ≠ wordKey k) else insertKey s.empties (wordKey k) }
def State.isPoisoned (s : State) (k : Nat) : Bool :=
  s.poison.contains (wordKey k) || s.poisonRanges.any fun r => decide (r.1 ≤ wordKey k) && decide (wordKey k < r.2)
def State.setPoison (s : State) (k : Nat) (p : Bool) : State :=
  { s with poison := if p then insertKey s.poison (wordKey k) else s.poison.filter (· ≠ wordKey k) }

/-- Word keys that `n` bytes from `k` up touch. -/
def wordsIn (k n : Nat) : List Nat :=
  if n = 0 then [] else (List.range ((k + n - 1) / 8 - k / 8 + 1)).map fun i => (k / 8 + i) * 8
/-- Word keys that they cover whole. -/
def wholeWordsIn (k n : Nat) : List Nat := (wordsIn k n).filter fun w => decide (k ≤ w) && decide (w + 8 ≤ k + n)

def State.anyPoison (s : State) (k n : Nat) : Bool := (wordsIn k n).any s.isPoisoned
/-- Stores of whole words clear poison (R79, R223). (DEDUCED, log entry 32.) -/
def State.clearPoison (s : State) (k n : Nat) : State := (wholeWordsIn k n).foldl (fun s w => s.setPoison w false) s

/-! ## Fresh values -/

/-- (DESIGN CHOICE, log entry 12.) -/
def State.freshNat (s : State) : State × Nat := ({ s with fresh := s.fresh + 1 }, Config.freeNat s.fresh)

/-- Writes two destinations. Where both are one register, which value remains is not stated (DESIGN CHOICE, log entry 12). -/
def State.wr2 (s : State) (d : R6) (v : W64) (e : R6) (w : W64) : State :=
  if d = e then
    let (s, n) := s.freshNat
    s.wr d (if n % 2 = 0 then v else w)
  else (s.wr e w).wr d v

/-! ## Administration registers -/

/-- Reset values of Tables 21.1, 22.2 to 22.9 and 23.1 that are not 0. -/
def adminReset (a : Nat) : W64 :=
  if a = 0xFF00000000000 then 0xF14      -- SCHMODE: WLEN 2, MSGRES 1, WSLOAD 0xF
  else if a = 0xFF00500000040 then 0x6E5F -- THERM: THROT 95, TRIP 110
  else if a / 0x10000 = 0xFF0040000 ∧ a % 0x1000 = 0x100 then 1024 -- RXPOOL
  else 0

def schBase : Nat := 0xFF00000000000
def tffBase : Nat := 0xFF00100000000
def blkBase (stack : Nat) : Nat := 0xFF00200000000 + stack * 0x10000
def keyBase : Nat := 0xFF00300000000
def towBase (port : Nat) : Nat := 0xFF00400000000 + port * 0x1000
def fleetBase : Nat := 0xFF00500000000
def moorBase : Nat := 0xFF00600000000
def sluiceBase (g : Nat) : Nat := 0xFF00700000000 + 64 * g

def State.reg (s : State) (a : Nat) : W64 := s.admin.get a (adminReset a)
def State.setReg (s : State) (a : Nat) (v : W64) : State := { s with admin := s.admin.put a v }
/-- Bits `hi : lo` of an administration register as a number. -/
def State.regBits (s : State) (a hi lo : Nat) : Nat := bitsOf (s.reg a) hi lo
/-- Does Cleoz run: it is started in stage 2 (R372)? -/
def State.cleozRuns (s : State) : Bool := s.boot.stage == 2 || s.boot.stage == 3
/-- Replaces bits `hi : lo` of a word. -/
def putBits (x : W64) (hi lo v : Nat) : W64 :=
  BitVec.ofNat 64 (x.toNat - bitsOf x hi lo * 2 ^ lo + v % 2 ^ (hi + 1 - lo) * 2 ^ lo)
def State.setRegBits (s : State) (a hi lo v : Nat) : State := s.setReg a (putBits (s.reg a) hi lo v)


/-! ## Checks before step 6 (R155) -/

/-- TVAL of cause 0x08: the register number, file 0. Of several sources that are read within their latency it names the first as the
instruction lists them: the manual does not say (DESIGN CHOICE, log entry 62). -/
def State.underrun (s : State) (srcs : List R6) : Option R6 :=
  if (s.me.k 5).toNat % 2 = 1 then srcs.find? fun r => (s.me.lateAt (s.me.regKey r) s.cycle).isSome else none

/-- The registers among these that await an interlocked result. -/
def State.awaiting (s : State) (rs : List R6) : List Nat :=
  (rs.map s.me.regKey).filter (s.awaited s.cur)

/-- The context may not execute the instruction: cause 0x01 comes before every other check (R155). -/
def State.onlyIf (ok : Bool) (run : State → Result) (s : State) : Result :=
  if ok then run s else .next (s.trap 0x01 (s.word0.setWidth 64))

/-- The steps that every instruction shares: it waits for interlocked registers (R348), a stall underrun
traps (R145), and otherwise `body` runs. -/
def State.issue (s : State) (srcs dsts : List R6) (body : State → State) : Result :=
  let w := s.awaiting (srcs ++ dsts)
  if w ≠ [] then .next (s.hold (.regs w))
  else match s.underrun srcs with
    | some r => .next (s.trap 0x08 (r.setWidth 64))
    | none => .next (body s)

/-- The same for an instruction that lack of room keeps from issuing, and with it from the check of R145 (R129, R247). -/
def State.issueIn (s : State) (room : Bool) (w : Wait) (srcs dsts : List R6) (body : State → State) : Result :=
  if s.awaiting (srcs ++ dsts) = [] ∧ room = false then .next (s.hold w) else s.issue srcs dsts body

/-- Does the queue of an engine context, or of the vector pool, hold two commands (R129, R247)? -/
def State.queueFull (s : State) : Option Nat → Bool
  | some n => decide (2 ≤ ((s.core s.myCore).queues.get n []).length)
  | none => decide (2 ≤ (s.core s.myCore).vqueue.length)

/-- The same for a command to such a queue. -/
def State.issueTo (s : State) (ctr : Option Nat) (srcs dsts : List R6) (body : State → State) : Result :=
  s.issueIn (!(s.queueFull ctr)) (match ctr with
    | some n => .engine n
    | none => .vector) srcs dsts body

/-- The same for an instruction that makes an access or orders accesses: no earlier acquire may be under way (R92). -/
def State.issueAcc (s : State) (srcs dsts : List R6) (body : State → State) : Result :=
  if s.me.acquiring then .next (s.hold .acquire) else s.issue srcs dsts body

/-- The same for an engine command, which orders accesses too. -/
def State.issueEng (s : State) (ctr : Nat) (srcs dsts : List R6) (body : State → State) : Result :=
  if s.me.acquiring then .next (s.hold .acquire) else s.issueTo (some ctr) srcs dsts body

/-- An instruction of R245's interlocked class is done but for its result; a destination of s0 holds the context until
then (R151). -/
def State.pendOn (s : State) (o : Op) (d : R6) (op : PendOp) (e : Option R6 := none) : State :=
  let p : Pend := { op := op, pc := s.me.pc, dst := some (s.me.regKey d), dst2 := e.map s.me.regKey, issued := s.cycle, since := s.cycle, until_ := s.cycle + 1 + o.st.toNat }
  (s.finish o).modMe fun c => { c with pend := c.pend ++ [p], wait := if d = 0 then some .result else none,
                                       waitFrom := if d = 0 then s.cycle else c.waitFrom }

/-- A result for a place, if there is one. -/
def Ctx.give (c : Ctx) (k : Option Nat) (v : W64) : Ctx :=
  match k with
  | some k => c.setAt k v
  | none => c

/-- The result of such an instruction arrives. -/
def State.deliver (s : State) (ctx : Nat) (p : Pend) (v : W64) : State :=
  s.modCtx ctx fun c => { c.give p.dst v with pend := c.pend.erase p }

/-- Two results arrive; the second place may be left as it is. Where both places are one, which value remains is not stated (DESIGN
CHOICE, log entry 12). -/
def State.deliver2 (s : State) (ctx : Nat) (p : Pend) (v : W64) : Option W64 → State
  | none => s.deliver ctx p v
  | some w =>
    if p.dst = p.dst2 then
      let (s, n) := s.freshNat
      s.deliver ctx p (if n % 2 = 0 then v else w)
    else s.modCtx ctx fun c => { (c.give p.dst v).give p.dst2 w with pend := c.pend.erase p }

end Sys2Proof.Machine
end

