-- ==== Sys2Proof/Machine/Operands.lean ====
section
/-! DEFINITION. Operand forms: effective addresses, the address space and its windows (R58 to R64, R428),
translation (R395 to R399), the cluster cache (R66, R67) and the checks that an address meets. -/

namespace Sys2Proof.Machine

/-! ## Effective addresses (R147, R220) -/

def sext8 (x : Byte) : W64 := x.signExtend 64
def sext32 (x : W32) : W64 := x.signExtend 64
def sext14 (x : BitVec 14) : W64 := x.signExtend 64
def sext20 (x : BitVec 20) : W64 := x.signExtend 64
/-- M format: imm8 scaled by the access size. -/
def scaledDisp (x : Byte) (size : Nat) : W64 := sext8 x * BitVec.ofNat 64 size
/-- J, G and 0x25: offsets in 4-byte units from the branch. -/
def branchTarget (pc off : W64) : W64 := pc + 4 * off

/-! ## The address space (Table 3.1) -/

def aliasBase : Nat := 0xFFFFFFFFFFFE0000
def meshBase : Nat := 0xFFF0000000000000
def sramBase : Nat := 0xFFF1000000000000
def weightBase : Nat := 0xFFF2000000000000

/-- Where an address leads (R58). -/
inductive Place where
  | translated
  | local_ (off : Nat)
  | mesh (core off : Nat)
  | sram (cluster off : Nat)
  | weight (die off : Nat)
  | unmapped
  deriving DecidableEq, Repr

def placeOf (a : Nat) : Place :=
  if a < 2 ^ 52 then .translated
  else if aliasBase ≤ a then .local_ (a - aliasBase)
  else if meshBase ≤ a ∧ a < meshBase + 0x20000000 then .mesh ((a - meshBase) / 0x20000) ((a - meshBase) % 0x20000)
  else if sramBase ≤ a ∧ a < sramBase + 0x40000000 then .sram ((a - sramBase) / 0x200000) ((a - sramBase) % 0x200000)
  else if weightBase ≤ a ∧ a < weightBase + 0x400000000 then .weight ((a - weightBase) / 0x100000000) ((a - weightBase) % 0x100000000)
  else .unmapped

/-- Key of local memory (the core mesh address is the key of the storage, R61). -/
def localKey (core off : Nat) : Nat := meshBase + core * 0x20000 + off
/-- Keys of CXL and of a remote module's memory; local HBM has its physical address. (DEDUCED, log entry 18.) -/
def cxlKey (pa : Nat) : Nat := 2 ^ 52 + pa
/-- (DESIGN CHOICE, log entry 15.) -/
def remoteKey (dev pa : Nat) : Nat := 2 ^ 54 * (dev + 1) + pa

/-- (DESIGN CHOICE, log entry 15.) -/
def keyDev (key : Nat) : Nat := key / 2 ^ 54 - 1

/-- The Towline port that leads to a device, if one is up. (DESIGN CHOICE, log entry 15.) -/
def State.routeTo (s : State) (dev : Nat) : Option Nat :=
  ((s.tow.filter fun p => p.2.up && p.2.partner == dev).map (·.1)).head?

/-- Scratchpad size S of a cluster (R64). -/
def State.scratch (s : State) (cluster : Nat) : Nat := (s.cluster cluster).split * 0x40000
/-- Berth area of a core in bytes (R45). -/
def State.berthSize (s : State) (core : Nat) : Nat := s.regBits (moorBase + 0x1000 + 8 * core) 4 0 * 0x1000
/-- Is offset `off` of a core's local memory in its berth area? -/
def State.inBerth (s : State) (core off : Nat) : Bool := decide (0x20000 - s.berthSize core ≤ off)

/-- A trap: cause and TVAL. -/
abbrev Cause := Nat × W64

/-- The first unit-crossing fault of a range (R428), before any other check. -/
def rangeFault (a len : Nat) : Option Cause :=
  let e := a + (len - 1)
  if len = 0 then none
  else if e ≥ 2 ^ 64 then some (0x05, BitVec.ofNat 64 a)
  else
    match placeOf a, placeOf e with
    | .translated, .translated => none
    | .local_ _, .local_ _ => none
    | .weight _ _, .weight _ _ => none
    | .mesh i _, .mesh j _ => if i = j then none else some (0x06, BitVec.ofNat 64 (meshBase + (i + 1) * 0x20000))
    | .sram i _, .sram j _ => if i = j then none else some (0x06, BitVec.ofNat 64 (sramBase + (i + 1) * 0x200000))
    | _, _ => some (0x05, BitVec.ofNat 64 a)

/-- Placed set, scratchpad size and the local alias of a migratable helper (R62 to R64). -/
def State.windowFault (s : State) (c : Ctx) (a len : Nat) : Option Cause :=
  let t : Cause := (0x06, BitVec.ofNat 64 a)
  match placeOf a with
  | .local_ _ => if c.mig then some t else none
  | .mesh i _ => if c.placed.contains (clusterOf i) then none else some t
  | .sram i o => if c.placed.contains i && decide (o + len ≤ s.scratch i) then none else some t
  | _ => none

/-- A range of the berth area that the context may not touch (R47). `own` are the offsets that a handler
may touch: its state and its message slot. -/
def State.berthFault (s : State) (ctx : Nat) (c : Ctx) (a len : Nat) : Option Cause :=
  let t : Cause := (0x14, BitVec.ofNat 64 a)
  let own (core off : Nat) : Bool :=
    match c.actor with
    | none => false
    | some r =>
      s.moors.any fun m => m.cls == r.cls && m.key == r.key &&
        match m.berth with
        | some (k, o) => k == core &&
            ((decide (o ≤ off) && decide (off + len ≤ o + m.size)) ||
             (decide (o + m.size + r.slot * 128 ≤ off) && decide (off + len ≤ o + m.size + r.slot * 128 + 128)))
        | none => false
  if !(isHelper ctx) then none
  else match placeOf a with
    | .local_ o => if s.inBerth (coreOf ctx) (o + len - 1) && !(own (coreOf ctx) o) then some t else none
    | .mesh i o => if s.inBerth i (o + len - 1) && !(own i o) then some t else none
    | _ => none

/-- The weight-store rules of R69 for an access that is not a copy engine's. -/
def State.weightFault (s : State) (vf a : Nat) (write : Bool) : Option Cause :=
  match placeOf a with
  | .weight d _ =>
    if write || (s.die d).loading || s.regBits (tffBase + 0x718) (8 * d + 4) (8 * d) != vf then
      some (0x05, BitVec.ofNat 64 a)
    else none
  | _ => none

/-! ## Translation (R395 to R399) -/

/-- What an access needs of its page, and its KIND in a fault record (Table 22.4). -/
structure Acc where
  r : Bool
  w : Bool
  x : Bool
  kind : Nat

def accLoad : Acc := ⟨true, false, false, 0⟩
def accStore : Acc := ⟨false, true, false, 1⟩
def accFetch : Acc := ⟨false, false, true, 2⟩
def accAtomic : Acc := ⟨true, true, false, 3⟩
/-- A tag instruction that changes a tag and reads no data. -/
def accTag : Acc := ⟨false, true, false, 3⟩
def accERead : Acc := ⟨true, false, false, 4⟩
def accEWrite : Acc := ⟨false, true, false, 5⟩

/-- Usable CXL memory: 1,512 GB for each trained expander (R74, R377; DEDUCED, log entry 21). (DEDUCED, log entry 18.) -/
def State.cxlSize (s : State) : Nat := 1512000000000 * (s.cxl.filter fun p => p.2.trained).length

/-- Does a range of a target lie in its memory (R72)? Another module is taken to have every CXL expander that R74 lets it
have. (DEDUCED, log entry 21). -/
def State.inMemory (s : State) (tgt pa len : Nat) : Bool :=
  match tgt with
  | 0 => decide (pa / 0x1000000000 < 16) && decide (pa % 0x1000000000 + len ≤ 0xB2D05E000)
  | 1 => decide (pa + len ≤ s.cxlSize)
  | _ => (decide (pa / 2 ^ 51 = 1) && decide (pa % 2 ^ 51 + len ≤ 6048000000000)) || (decide (pa / 0x1000000000 < 16) && decide (pa % 0x1000000000 + len ≤ 0xB2D05E000))

/-- The result of a walk: a leaf with its place and page size, or where and why it stopped. -/
inductive Walk where
  | leaf (pte : W64) (at_ shift : Nat)
  | stop (cause level : Nat) (pte : W64)

/-- A walk from level `4 − fuel` down (R396, R397). -/
def State.walkFrom (s : State) (va : Nat) : Nat → Nat → Walk
  | 0, _ => .stop 0x05 4 0
  | fuel + 1, node =>
    let level := 4 - fuel
    let shift := 16 + 9 * fuel
    let at_ := node + 8 * (va / 2 ^ shift % 512)
    let e := s.read64 at_
    let bit (i : Nat) : Bool := bitsOf e i i == 1
    let tgt := bitsOf e 9 8
    let pa := bitsOf e 51 12 * 0x1000
    if !(bit 0) then .stop 0x04 level e
    else if bit 11 || bitsOf e 53 52 != 0 || (tgt != 2 && bitsOf e 63 54 != 0) || tgt == 3 then .stop 0x05 level e
    else if bit 1 then
      if level = 1 || pa % 2 ^ shift != 0 || !(s.inMemory tgt pa (2 ^ shift)) then .stop 0x05 level e
      else .leaf e at_ shift
    else if level = 4 || tgt != 0 then .stop 0x05 level e
    else s.walkFrom va fuel pa

/-- A walk of an address space (R395). -/
def State.walk (s : State) (vf asid va : Nat) : Walk :=
  let e := s.regBits tffBase 51 6 * 64 + 16 * asid
  let root := s.read64 e
  if s.regBits (tffBase + 8) 16 0 ≤ asid ∨ bitsOf root 0 0 = 0 ∨ bitsOf (s.read64 (e + 8)) 4 0 ≠ vf then .stop 0x05 1 root
  else s.walkFrom va 4 (bitsOf root 51 12 * 0x1000)

/-- A translated access: its key, whether its line may be cached, whether it is remote. -/
structure Xl where
  key    : Nat
  cached : Bool
  remote : Bool

/-- Permission of a leaf (R397). -/
def leafAllows (pte : W64) (acc : Acc) (priv : Bool) : Bool :=
  (!acc.r || bitsOf pte 2 2 == 1) && (!acc.w || bitsOf pte 3 3 == 1) && (!acc.x || bitsOf pte 4 4 == 1) &&
    (bitsOf pte 10 10 == 0 || priv) && !(bitsOf pte 5 5 == 1 && bitsOf pte 9 8 == 2)

def leafXl (pte : W64) (shift va : Nat) : Xl :=
  let pa := bitsOf pte 51 12 * 0x1000 + va % 2 ^ shift
  match bitsOf pte 9 8 with
  | 0 => ⟨pa, bitsOf pte 5 5 == 1, false⟩
  | 1 => ⟨cxlKey pa, bitsOf pte 5 5 == 1, false⟩
  | _ => ⟨remoteKey (bitsOf pte 63 54) pa, false, true⟩

def TlbEntry.hits (t : TlbEntry) (vf asid va : Nat) : Bool :=
  t.vf == vf && t.asid == asid && va / 2 ^ t.shift == t.page

/-- A usable entry: for a write it was installed with D set (R399). -/
def tlbFind (l : List TlbEntry) (vf asid va : Nat) (w : Bool) : Option TlbEntry :=
  l.find? fun t => t.hits vf asid va && (!w || t.dset)

/-- Installs an entry first, in place of an older one for the page (DESIGN CHOICE, log entry 11). -/
def tlbPut (l : List TlbEntry) (t : TlbEntry) (cap : Nat) : List TlbEntry :=
  (t :: l.filter fun u => !(u.vf == t.vf && u.asid == t.asid && u.shift == t.shift && u.page == t.page)).take cap

/-- A cluster may hold lines under a translation from now on (R401). -/
def State.noteSeen (s : State) (cl : Nat) (t : TlbEntry) : State :=
  s.modCluster cl fun c => { c with seen := if c.seen.contains t then c.seen else t :: c.seen }

/-- (DESIGN CHOICE, log entry 11.) -/
def State.tlbInstall (s : State) (core : Nat) (fetch : Bool) (t : TlbEntry) (second : Bool) : State :=
  let s := s.modCore core fun c =>
    if fetch then { c with itlb := tlbPut c.itlb t 64 } else { c with dtlb := tlbPut c.dtlb t 64 }
  if second then (s.modCluster (clusterOf core) fun c => { c with tlb := tlbPut c.tlb t 4096 }).noteSeen (clusterOf core) t else s

/-- The home slice of a key (R72), 0 to 63: the rule for local HBM, or for CXL, of the module that the word is on. -/
def homeSlice (key : Nat) : Nat :=
  let pa := if key < 2 ^ 54 then key else key % 2 ^ 52
  if key < 2 ^ 52 ∨ (2 ^ 54 ≤ key ∧ pa < 2 ^ 51) then
    let st := pa / 0x1000000000 % 16
    st / 4 * 16 + st % 4 * 4 + pa / 256 % 4
  else pa / 256 % 64

/-- The home slice beside a core (R31). -/
def sliceBeside (core : Nat) : Nat := dieOf core * 16 + clusterOf core % 128 / 8

/-! ## The cluster cache (R66, R67) -/

/-- Capacity in lines while the split is k. -/
def cacheLines (split : Nat) : Nat := (8 - split) * 4096

def lineKey (k : Nat) : Nat := k / 64 * 64

def State.findLine (s : State) (cl key : Nat) : Option Line := (s.cluster cl).lines.find? (·.key == lineKey key)

/-- Writes a line's dirty bytes to its home. -/
def State.flushLine (s : State) (l : Line) : State :=
  { s with mem := memMerge s.mem l.key l.data.toNat l.dirty.toNat 64 }

/-- Writes back, and if asked invalidates, the lines of a cluster that satisfy `p`. -/
def State.writeBack (s : State) (cl : Nat) (p : Line → Bool) (inval : Bool) : State :=
  let ls := (s.cluster cl).lines
  let s := (ls.filter fun l => p l && l.dirty != 0).foldl State.flushLine s
  let kept := ls.filter fun l => !(p l)
  let clean := ls.map fun l => if p l then { l with dirty := 0 } else l
  s.modCluster cl fun c => { c with lines := if inval then kept else clean }

/-- Drops the clean lines of a cluster (R19, R212). (DEDUCED, log entry 48.) -/
def State.dropClean (s : State) (cl : Nat) : State :=
  s.modCluster cl fun c => { c with lines := c.lines.filter (·.dirty ≠ 0) }

/-- Does a line overlap `len` bytes from key `k` up? -/
def Line.meets (l : Line) (k len : Nat) : Bool := decide (l.key < k + len) && decide (k < l.key + 64)

/-- Recalls a line from every cluster that holds it dirty (R67). -/
def State.recall (s : State) (key : Nat) : State :=
  (s.clusters.filter fun p => p.2.lines.any fun l => l.key == lineKey key && l.dirty != 0).foldl
    (fun s p => s.writeBack p.1 (·.key == lineKey key) true) s

/-! ## Translation (R395 to R399) -/

/-- A leaf with A set, and D for a write (R399). -/
def markPte (pte : W64) (acc : Acc) : W64 := pte ||| 0x40 ||| (if acc.w then 0x80 else 0)

/-- Lines that clusters hold dirty. -/
def State.dirtyLines (s : State) : Nat := (s.clusters.map fun p => (p.2.lines.filter (·.dirty != 0)).length).sum

/-- One walk, which sets A, and D for a write, in its leaf by an ACAS at the entry's home, where the line is recalled first (R67), and
whether it restarts: where the entry is no longer what the walk has read (R399). -/
def State.walkOnce (s : State) (vf asid va : Nat) (acc : Acc) (priv : Bool) : State × Walk × Bool :=
  match s.walk vf asid va with
  | .leaf pte at_ shift =>
    let r := s.recall at_
    if leafAllows pte acc priv = false ∨ markPte pte acc = pte then (s, .leaf pte at_ shift, false)
    else if r.read64 at_ = pte then (r.write64 at_ (markPte pte acc), .leaf (markPte pte acc) at_ shift, false)
    else (r, .leaf pte at_ shift, true)
  | .stop cause level pte => (s, .stop cause level pte, false)

/-- A walk with its restarts, at most `n`. -/
def State.walkedIn (vf asid va : Nat) (acc : Acc) (priv : Bool) : Nat → State → State × Walk
  | 0, s => let r := s.walkOnce vf asid va acc priv; (r.1, r.2.1)
  | n + 1, s =>
    let r := s.walkOnce vf asid va acc priv
    if r.2.2 then State.walkedIn vf asid va acc priv n r.1 else (r.1, r.2.1)

/-- The same. Each restart has recalled a dirty line, so that there are never more of them than such lines. -/
def State.walked (s : State) (vf asid va : Nat) (acc : Acc) (priv : Bool) : State × Walk := State.walkedIn vf asid va acc priv s.dirtyLines s

/-- Translates one address for a core (R396 to R399): the TLBs, then a walk that sets A, and D for a
write. The fault carries what a record needs. -/
def State.translate (s : State) (core vf asid : Nat) (priv : Bool) (va : Nat) (acc : Acc) : State × Except FaultInfo Xl :=
  let done (s : State) (pte : W64) (shift : Nat) : State × Except FaultInfo Xl :=
    if leafAllows pte acc priv then (s, .ok (leafXl pte shift va))
    else (s, .error { cause := 0x05, va := BitVec.ofNat 64 va, kind := acc.kind, level := 4 - (shift - 16) / 9, pte := pte })
  let c := s.core core
  match tlbFind (if acc.x then c.itlb else c.dtlb) vf asid va acc.w with
  | some t => done s t.pte t.shift
  | none =>
    match tlbFind (s.cluster (clusterOf core)).tlb vf asid va acc.w with
    | some t => done (s.tlbInstall core acc.x t false) t.pte t.shift
    | none =>
      match s.walked vf asid va acc priv with
      | (s, .stop cause level pte) =>
        (s, .error { cause := cause, va := BitVec.ofNat 64 va, kind := acc.kind, level := level, pte := pte })
      | (s, .leaf pte _ shift) =>
        if leafAllows pte acc priv then
          let t : TlbEntry := { vf := vf, asid := asid, page := va / 2 ^ shift, shift := shift, pte := pte, dset := bitsOf pte 7 7 == 1 }
          done (s.tlbInstall core acc.x t true) pte shift
        else done s pte shift

/-! ## Filling the cluster cache -/

/-- Makes room for one more line: the oldest leaves (DESIGN CHOICE, log entry 10). -/
def State.makeRoom (s : State) (cl : Nat) : State :=
  match (s.cluster cl).lines with
  | [] => s
  | l :: ls =>
    if (l :: ls).length < cacheLines (s.cluster cl).split then s
    else (if l.dirty = 0 then s else s.flushLine l).modCluster cl fun c => { c with lines := c.lines.tail }

/-- The line that holds a key, filled from its home if it is absent. -/
def State.fillLine (s : State) (cl key : Nat) : State × Line :=
  match s.findLine cl key with
  | some l => (s, l)
  | none =>
    let s := s.makeRoom cl
    let l : Line := { key := lineKey key, data := BitVec.ofNat 512 (s.read (lineKey key) 64), dirty := 0 }
    (s.modCluster cl fun c => { c with lines := c.lines ++ [l] }, l)

/-- (DESIGN CHOICE, log entry 10.) -/
def State.putLine (s : State) (cl : Nat) (l : Line) : State :=
  s.modCluster cl fun c => { c with lines := c.lines.map fun m => if m.key == l.key then l else m }

/-- Reads `n` bytes through the cluster cache. -/
def State.cacheRead (s : State) (cl key n : Nat) : State × Nat :=
  let (s, l) := s.fillLine cl key
  (s, l.data.toNat / 2 ^ (8 * (key % 64)) % 2 ^ (8 * n))

/-- Merges `n` bytes into a line and its dirty-byte mask. -/
def State.cacheWrite (s : State) (cl key n v : Nat) : State :=
  let (s, l) := s.fillLine cl key
  let sh := 8 * (key % 64)
  let old := l.data.toNat / 2 ^ sh % 2 ^ (8 * n)
  s.putLine cl { l with data := BitVec.ofNat 512 (l.data.toNat - old * 2 ^ sh + v % 2 ^ (8 * n) * 2 ^ sh),
                        dirty := l.dirty ||| BitVec.ofNat 64 ((2 ^ n - 1) * 2 ^ (key % 64)) }

/-- Do the cluster's accesses use its cache (R66: none at k = 8)? -/
def State.hasCache (s : State) (cl : Nat) : Bool := decide (0 < cacheLines (s.cluster cl).split)

/-! ## The checks of one access (Table 9.4) -/

/-- What came of the checks: an access may go on with its key, or it traps. -/
inductive Checked where
  | ok (s : State) (x : Xl) (alias_ : Bool)
  | trap (cause : Nat) (tval : W64)
  | page (s : State) (f : FaultInfo)

/-- The checks of Table 9.4 in their order, up to the page and the weight store. -/
def State.checkAccess (s : State) (ctx a size : Nat) (acc : Acc) (tagged : Bool) : Checked :=
  let c := s.ctx ctx
  let t (r : Option Cause) (k : Checked) : Checked := match r with
    | some (n, v) => .trap n v
    | none => k
  let mis : Option Cause := if a % size ≠ 0 then some (0x03, BitVec.ofNat 64 a) else none
  t (rangeFault a size) (match placeOf a with
  | .unmapped => .trap 0x05 (BitVec.ofNat 64 a)
  | .translated =>
    t mis (match s.translate (coreOf ctx) (s.vfOf ctx) c.asid c.privileged a acc with
      | (s', .ok x) => .ok s' x false
      | (s', .error f) => if f.cause = 0x04 then .page s' f else .trap 0x05 (BitVec.ofNat 64 a))
  | .local_ o => t (s.windowFault c a size) (t mis (t (s.berthFault ctx c a size) (.ok s ⟨localKey (coreOf ctx) o, false, false⟩ true)))
  | .mesh _ _ => t (s.windowFault c a size) (t mis (t (s.berthFault ctx c a size) (.ok s ⟨a, false, false⟩ false)))
  | .sram _ _ => t (s.windowFault c a size) (t mis (.ok s ⟨a, false, false⟩ false))
  | .weight _ _ => t mis (t (s.weightFault (s.vfOf ctx) a (acc.w || tagged)) (.ok s ⟨a, false, false⟩ false)))

/-- The issuing context takes the outcome of a failed check. -/
def State.pageTrap (s : State) (f : FaultInfo) : State := s.takeTrap s.cur f.cause f.va s.me.pc (some f)

end Sys2Proof.Machine
end

