-- ==== Sys2Proof/Machine/Work.lean ====
section
/-! DEFINITION. Work identifiers, launches, work queues, stealing and the start of helpers: the shared
operations behind R10 to R31 and R200 to R213. -/

namespace Sys2Proof.Machine

/-! ## Work identifiers (R14, R15) -/

/-- Field values of an identifier, field 1 first. -/
def fieldsOf : List Nat → Nat → List Nat
  | [], _ => []
  | w :: ws, x => x / 2 ^ ws.sum % 2 ^ w :: fieldsOf ws x

/-- Mixed-radix number of the fields given. -/
def mixed : List Nat → List Nat → Nat → Nat
  | f :: fs, e :: es, acc => mixed fs es (acc * e + f)
  | _, _, acc => acc

/-- Field values of a number in mixed radix, the last extent fastest. -/
def unmix : List Nat → Nat → List Nat
  | [], _ => []
  | e :: es, r => r / es.prod % e :: unmix es r

def packFields : List Nat → List Nat → Nat → Nat
  | w :: ws, f :: fs, acc => packFields ws fs (acc * 2 ^ w + f)
  | _, _, acc => acc

def Launch.fieldCount (l : Launch) : Nat := (l.widths.filter (· ≠ 0)).length
def Launch.ws (l : Launch) : List Nat := l.widths.take l.fieldCount
def Launch.es (l : Launch) : List Nat := l.extents.take l.fieldCount
/-- Is a value an item of the launch? -/
def Launch.isItem (l : Launch) (wid : Nat) : Bool :=
  decide (wid < 2 ^ l.ws.sum) && ((fieldsOf l.ws wid).zip l.es).all fun p => decide (p.1 < p.2)
/-- Group number at level `k` (R15). -/
def Launch.groupAt (l : Launch) (k wid : Nat) : Nat := mixed ((fieldsOf l.ws wid).take k) (l.es.take k) 0
def Launch.widOfRank (l : Launch) (r : Nat) : Nat := packFields l.ws (unmix l.es r) 0
def Launch.rank (l : Launch) (wid : Nat) : Nat := l.groupAt l.fieldCount wid
def Launch.groups (l : Launch) (k : Nat) : Nat := (l.es.take k).prod
def Launch.items (l : Launch) : Nat := l.es.prod
/-- Items of one group at level `k`. -/
def Launch.perGroup (l : Launch) (k : Nat) : Nat := (l.es.drop k).prod

/-! ## Launch records -/

/-- A launch that has not ended, of a virtual function. -/
def State.running? (s : State) (vf h : Nat) : Option Launch :=
  s.launches.find? fun l => l.handle == h && l.vf == vf && l.st != .ended

/-- The placement group of a launch that holds a cluster. -/
def Launch.setOf (l : Launch) (cl : Nat) : Option Placed := l.placed.find? fun p => p.clusters.contains cl

/-! ## Items -/

/-- Has everything that an item waits for under R11 completed? -/
def State.isSettled (s : State) (x : Settle) : Bool :=
  !(s.owes (s.vfOf x.ctx) (coreOf x.ctx) x.hnum x.after) &&
    !(((s.core (coreOf x.ctx)).vqueue ++ (s.core (coreOf x.ctx)).vrunning).any fun q => q.item == some (x.handle, x.wid)) &&
    x.ops.all fun o => decide (o.2 ≤ ((s.core (coreOf x.ctx)).tl.get o.1 0).toNat)

/-- Does the context hold an item of a launch? -/
def Ctx.holdsOf (c : Ctx) (h : Nat) : Bool := c.item.any (·.1 == h) || c.own.any (·.1 == h)

/-- What is left of a helper's items when POPW goes on: the item popped before goes to settling, the one that STARTW
started it with stays until it ends (R11, R26). -/
def State.dropItem (s : State) (ctx : Nat) : State :=
  let c := s.ctx ctx
  match c.item with
  | none => s
  | some (h, wid) =>
    if c.form = .startw ∧ c.own = none then s.modCtx ctx fun c => { c with own := some (h, wid), ownOps := c.ops, item := none, ops := [] }
    else
      let x : Settle := { handle := h, wid := wid, ctx := ctx, hnum := c.hnum, after := s.nextId, ops := c.ops }
      ({ s with settling := s.settling ++ [x] } : State).modCtx ctx fun c => { c with ownOps := c.ownOps ++ c.ops, item := none, ops := [] }

/-- What the items of a context that ends or is ended wait for. -/
def Ctx.settles (c : Ctx) (id after : Nat) : List Settle :=
  let one (x : Option (Nat × Nat)) (ops : List (Nat × Nat)) : List Settle :=
    x.toList.map fun (h, wid) => { handle := h, wid := wid, ctx := id, hnum := c.hnum, after := after, ops := ops }
  one c.item c.ops ++ one c.own (c.ownOps ++ c.ops)
/-- They go to settling. -/
def State.settleItem (s : State) (id : Nat) (c : Ctx) : State := { s with settling := s.settling ++ c.settles id s.nextId }

/-- Moves settled items into the finished counts of their launches. -/
def State.settle (s : State) : State :=
  let done := s.settling.filter s.isSettled
  let s := { s with settling := s.settling.filter fun x => !(s.isSettled x) }
  done.foldl (fun s x =>
    match s.launch? x.handle with
    | none => s
    | some l =>
      let g := l.groupAt l.clevel x.wid
      s.setLaunch { l with finished := l.finished.put g (l.finished.get g 0 + 1), running := l.running - 1 }) s

/-- Resident virtual function (SCHSTAT.RESVF); 32 while none is (R372). -/
def State.resident (s : State) : Nat := if s.noVf then 32 else s.regBits (schBase + 0x18) 4 0
def State.setResident (s : State) (vf : Nat) : State := ({ s with noVf := false } : State).setRegBits (schBase + 0x18) 4 0 vf

/-! ## The journal (R421, R423) -/


/-- One journal entry (R421): kind, die, virtual function, body words. -/
def State.journalAdd (s : State) (kind die vf : Nat) (body : List W64) : State :=
  let ctl := fleetBase + 0x38
  if s.regBits ctl 0 0 = 0 ∨ s.regBits ctl 2 2 = 1 then s
  else
    let size := if kind ≤ 2 then 192 else 64
    let base := s.regBits (fleetBase + 0x28) 51 16 * 0x10000
    if s.regBits (fleetBase + 0x30) 39 16 * 0x10000 < s.journal + size then s.setRegBits ctl 2 2 1
    else
      let at_ := base + s.journal
      let s := (s.write64 at_ (BitVec.ofNat 64 (kind + die * 256 + vf * 65536))).write64 (at_ + 8) (BitVec.ofNat 64 s.ptp)
      let s := body.zipIdx.foldl (fun s p => s.write64 (at_ + 16 + 8 * p.2) p.1) s
      ({ s with journal := s.journal + size } : State).setRegBits ctl 63 32 (s.regBits ctl 63 32 + 1)

/-- Bytes of an entry of a kind. -/
def journalSize (kind : Nat) : Nat := if kind ≤ 2 then 192 else 64

/-- Offsets of the first `n` entries from offset `o` up; where no entry stands they end. -/
def State.journalEntries (s : State) (base : Nat) : Nat → Nat → List Nat
  | 0, _ => []
  | n + 1, o =>
    let k := s.read (base + o) 1
    if k = 0 ∨ 7 < k then [] else o :: s.journalEntries base n (o + journalSize k)

/-- How many entries replay reads at most: COUNT, or after a reset, which leaves COUNT 0, all that the area can hold
(DESIGN CHOICE, log entry 62). -/
def State.journalLen (s : State) : Nat :=
  let n := s.regBits (fleetBase + 0x38) 63 32
  if n = 0 then s.regBits (fleetBase + 0x30) 39 16 * 1024 else n

/-- Replays one recorded decision: the body of the first unused entry of a kind that `p` accepts. -/
def State.replay (s : State) (kind : Nat) (p : (Nat → W64) → Bool) : State × Option (Nat → W64) :=
  let base := s.regBits (fleetBase + 0x28) 51 16 * 0x10000
  let body (o : Nat) : Nat → W64 := fun i => s.read64 (base + o + 16 + 8 * i)
  match (s.journalEntries base s.journalLen 0).find? fun o =>
      !(s.replayed.contains o) && s.read (base + o) 1 == kind && p (body o) with
  | some o => ({ s with replayed := s.replayed ++ [o] }, some (body o))
  | none => (s, none)

def State.replaying (s : State) : Bool := s.regBits (fleetBase + 0x38) 1 1 == 1

/-! ## Work queues and stealing (R25 to R28) -/

/-- First column and length of the gang that a mask names. -/
def gangFirst (mask : Nat) : Nat := ((List.range 8).find? fun i => mask / 2 ^ i % 2 = 1).getD 0
def gangCols (mask : Nat) : List Nat := (List.range 8).filter fun i => mask / 2 ^ i % 2 = 1
/-- The cores of the gang that a core belongs to (R30). -/
def State.gangCores (s : State) (core : Nat) : List Nat :=
  (gangCols (s.core core).gangMask).map fun c => (coresOf (clusterOf core)).getD c 0

/-- The core whose queue serves a core for a launch: for a gang launch, its gang's first member (R30). -/
def State.queueCore (s : State) (core : Nat) (l : Launch) : Nat :=
  if l.gang then (s.gangCores core).headD core else core

/-- Takes the first item of a launch from a queue: where the front entry is another launch's, the launch's first entry
(DESIGN CHOICE, log entry 61). -/
def popRun (h : Nat) : List Run → Option (Nat × List Run)
  | [] => none
  | r :: q =>
    if r.handle = h then
      some (r.first, if r.count ≤ 1 then q else { r with first := r.first + 1, count := r.count - 1 } :: q)
    else (popRun h q).map fun p => (p.1, r :: p.2)

/-- Column distances +1, −1, +2, −2 and so on within a cluster. -/
def nearCols (col : Nat) : List Nat :=
  ((List.range 14).map fun i => if i % 2 = 0 then (col : Int) + (i / 2 + 1 : Nat) else (col : Int) - (i / 2 + 1 : Nat)).filterMap
    fun c => if 0 ≤ c ∧ c < 8 then some c.toNat else none

/-- Victims in the order of R27: own cluster by distance, then the set's clusters by distance. -/
def victims (core : Nat) (set : List Nat) : List Nat :=
  let cl := clusterOf core
  let own := (nearCols (colOf core)).map fun c => (coresOf cl).getD c 0
  let dist (x : Nat) : Nat := 2 * (max x cl - min x cl) + (if x < cl then 0 else 1)
  own ++ ((set.filter (· ≠ cl)).sortedBy fun a b => decide (dist a ≤ dist b)).flatMap coresOf

/-- The last entry of a launch in a queue. -/
def backRun (h : Nat) (q : List Run) : Option Run := (q.reverse.find? (·.handle == h))

/-- Takes the last ⌊h ÷ 2⌋ ranks, or the one item, of a queue's back entry (R27); where that is another launch's, of the
launch's last entry (DESIGN CHOICE, log entry 61). -/
def stealFrom (h : Nat) (q : List Run) : Option (Run × List Run) :=
  match backRun h q with
  | none => none
  | some r =>
    let n := max 1 (r.count / 2)
    let rest := q.reverse
    let rest := (if r.count ≤ n then rest.erase r else (rest.replace r { r with count := r.count - n })).reverse
    some ({ r with first := r.first + r.count - n, count := n }, rest)

/-- Removes `n` ranks from rank `r` up from the back of a launch's last entry. -/
def cutBack (h r n : Nat) (q : List Run) : Option (List Run) :=
  match backRun h q with
  | none => none
  | some x =>
    if x.first + x.count = r + n ∧ x.first ≤ r then
      let rest := q.reverse
      some (if x.first = r then rest.erase x else rest.replace x { x with count := x.count - n }).reverse
    else none

/-- Moves a stolen run, and records the steal. The cluster of a thief that takes from another one first invalidates its
clean lines (R19, R211). -/
def State.moveRun (s : State) (core v : Nat) (r : Run) (q : List Run) : State :=
  let s := if clusterOf v = clusterOf core then s else s.dropClean (clusterOf core)
  let s := (s.modCore v fun c => { c with workq := q, robbedAt := some s.cycle }).modCore core fun c => { c with workq := c.workq ++ [r], idleMark := true }
  s.journalAdd 4 (dieOf core) ((s.core core).vfid)
    [BitVec.ofNat 64 r.handle, BitVec.ofNat 64 core, BitVec.ofNat 64 v, BitVec.ofNat 64 r.first, BitVec.ofNat 64 r.count]

/-- A recorded steal as it can be performed now: victim, run, what is left of the victim's queue (R423). -/
def State.recorded (s : State) (h : Nat) (b : Nat → W64) : Option (Nat × Run × List Run) :=
  (cutBack h (b 3).toNat (b 4).toNat (s.core (b 2).toNat).workq).map fun q =>
    ((b 2).toNat, { handle := h, first := (b 3).toNat, count := (b 4).toNat }, q)

/-- Is a journal body a steal of a launch by a core? -/
def isSteal (core h : Nat) (b : Nat → W64) : Bool := b 0 == BitVec.ofNat 64 h && b 1 == BitVec.ofNat 64 core

/-- The next recorded steal that can be performed, and its mark. -/
def State.replaySteal (s : State) (core h : Nat) : State × Option (Nat → W64) :=
  s.replay 4 fun b => isSteal core h b && (s.recorded h b).isSome

/-- What a core would steal now: victim, run, what is left of the victim's queue (R27); while replaying, only recorded
steals (R423). -/
def State.nextSteal (s : State) (core h : Nat) (set : List Nat) : Option (Nat × Run × List Run) :=
  if s.replaying then (s.replaySteal core h).2.bind (s.recorded h)
  else (victims core set).findSome? fun v => (stealFrom h (s.core v).workq).map fun p => (v, p)

/-- Does the record hold a steal that cannot be performed yet? -/
def State.stealsLater (s : State) (core h : Nat) : Bool := s.replaying && (s.replay 4 (isSteal core h)).2.isSome

/-- A thief pushes what it steals onto its own queue. -/
def State.steal (s : State) (core h : Nat) (set : List Nat) : State :=
  match s.nextSteal core h set with
  | some (v, r, q) => (if s.replaying then (s.replaySteal core h).1 else s).moveRun core v r q
  | none => s

/-- Does the launch still have ranks to hand out in groups that the core's set holds (R26)? Those of a group that a pre-emption has
suspended (R385) still count as within reach of its former set, which the manual does not say (DESIGN CHOICE, log entry 62). -/
def Launch.unassigned (l : Launch) (cl : Nat) : Bool :=
  match l.setOf cl with
  | some p => decide (p.next < p.stop)
  | none => false

/-- What POPW and STARTW find. -/
inductive Pop where
  | item (rank : Nat)
  | none_
  | wait
  /-- A steal waits for the turn of its victim in this cycle (R28). -/
  | turn (victim : Nat)

/-- The clusters within which a core steals for a launch (R27). -/
def State.stealSet (s : State) (core : Nat) (l : Launch) : List Nat :=
  let _ := s
  match l.setOf (clusterOf core) with
  | some p => p.clusters
  | none => [clusterOf core]

/-- Pops an item of a launch for a core, stealing when its queue holds none (R26, R27); a gang's queue is its first
member's (R30), and a core in no gang has no part in a gang launch. A steal takes place behind the turn of its victim, which
pops no more in that cycle (R28); while the own queue has no room for the run the pop waits (DESIGN CHOICE, log entry 62). -/
def State.pop (s : State) (core : Nat) (l : Launch) : State × Pop :=
  let core := s.queueCore core l
  let cl := clusterOf core
  if l.gang && (s.cluster cl).gangDue.isSome then (s, .wait)
  else if l.gang && (s.gangCores core).isEmpty then (s, .none_)
  else match popRun l.handle (s.core core).workq with
  | some (r, q) => if (s.core core).robbedAt = some s.cycle then (s, .wait) else (s.modCore core fun c => { c with workq := q }, .item r)
  | none =>
    match s.nextSteal core l.handle (s.stealSet core l) with
    | none => (s, if l.unassigned cl || s.stealsLater core l.handle then .wait else .none_)
    | some (v, _, _) =>
      if 16 ≤ (s.core core).workq.length then (s, .wait)
      else if s.me.wait ≠ some (.turn v) then (s, .turn v)
      else
        let s := s.steal core l.handle (s.stealSet core l)
        match popRun l.handle (s.core core).workq with
        | some (r, q) => (s.modCore core fun c => { c with workq := q }, .item r)
        | none => (s, .wait)

/-! ## Starting helpers (R10, R153, R200) -/

/-- The lowest free helper slot of a core. -/
def State.freeSlot (s : State) (core : Nat) : Option Nat :=
  ((List.range 10).map (· + 1)).find? fun n => (s.ctxs.find? (ctxId core n)).isNone

/-- A new helper in Starting: it takes a number, copies k4 to k8 and k18 from the control context that starts it
(R153), and holds until its starter's earlier writes are acknowledged; it is traffic of its phase (R106, R137). -/
def State.startHelper (s : State) (core slot : Nat) (f : Ctx → Ctx) : State × Nat :=
  let n := (s.core core).nextHelper
  let k := s.me
  let copy (c : Ctx) (i : Nat) : Ctx := c.setK i (k.k i)
  let c : Ctx := [4, 5, 6, 7, 8, 18].foldl copy
    { life := .starting, form := .start, hnum := n, starter := s.cur, asid := k.asid,
      startAfter := s.nextId, startOrder := s.nextId }
  let s := (s.modCore core fun c => { c with nextHelper := if n ≥ 0xFFFFFFFE then 1 else n + 1 }).modMe fun c => { c with relMark := s.nextId }
  let h := f c
  (({ s.setCtx (ctxId core slot) h with nextId := s.nextId + 1 } : State).active (s.vfOf s.cur) h.phase, n)

def Ctx.withRegs (c : Ctx) (l : List (Nat × W64)) : Ctx := l.foldl (fun c p => c.setAt p.1 p.2) c

/-- Layout of START's and STARTW's result (R200). -/
def startResult (slot num : Nat) : W64 := BitVec.ofNat 64 (slot + num * 2 ^ 32)

/-- The helper of one item of a launch (Table 1.2, R201). -/
def itemHelper (l : Launch) (wid member : Nat) (set : List Nat) (mig : Bool) (c : Ctx) : Ctx :=
  let c := (c.setK 1 (BitVec.ofNat 64 wid)).setK 2 (BitVec.ofNat 64 l.handle)
  let c := (c.setK 3 (BitVec.ofNat 64 l.phase)).withRegs
    [(1, BitVec.ofNat 64 wid), (2, l.args), (3, BitVec.ofNat 64 l.handle), (4, BitVec.ofNat 64 member)]
  { c with form := .startw, pc := l.entry, window := l.window, mig := mig, asid := l.asid, placed := set,
           item := some (l.handle, wid), gang := l.gang, reqLanes := if l.claim = 0 then 32 else l.claim }

/-- Blocks of register storage that a cluster's contexts hold, in units of one register's 32 lanes (R254). -/
def State.poolUsed (s : State) (cl : Nat) : Nat :=
  (s.ctxs.filter fun p => decide (clusterOf (coreOf p.1) = cl) && p.2.life != .starting).foldl
    (fun n p => n + p.2.window * (max 32 p.2.lanes) / 32) 0

end Sys2Proof.Machine
end

