-- ==== Sys2Proof/Machine/Flow.lean ====
section
/-! DEFINITION. Branches, helpers, work queues, launches, k registers, traps and return: majors 0x20 to
0x2F (R197 to R218). -/

namespace Sys2Proof.Machine

/-! ## Branches (R144, R197 to R199) -/

/-- A conditional branch: to `target` when `cond` holds, else on. -/
def branchIf (o : Op) (srcs : List R6) (cond : State → Bool) (off : W64) (s : State) : Result :=
  s.issue srcs [] fun s => if cond s then s.branch o (branchTarget s.me.pc off) else s.finish o

/-- A jump to a register's value; a misaligned target traps with cause 0x03 and links nothing. -/
def jumpTo (o : Op) (link : Option R6) (srcs : List R6) (target : State → W64) (s : State) : Result :=
  s.issue srcs link.toList fun s =>
    let t := target s
    if t.toNat % 4 ≠ 0 then s.trap 0x03 t
    else
      let ret := s.me.pc + BitVec.ofNat 64 o.len
      ((match link with
        | some d => s.wr d ret
        | none => s)).branch o t

/-! ## Helpers (R200 to R209) -/

/-- START, STARTM, STARTW and IDLE are illegal in a helper (R8), which comes before every other check (R155). -/
def controlOnly (run : State → Result) (s : State) : Result := s.onlyIf (!(isHelper s.cur)) run

def clearIdle (s : State) : State := s.modCore s.myCore fun c => { c with idleMark := false }

/-- START (R200): entry A, s1 = B, s2 = `c`, window `w`. -/
def startOp (o : Op) (d a b : R6) (c : Option R6) (w : Nat) (mig : Bool) (s : State) : Result :=
  s |> controlOnly fun s => s.issueAcc ([a, b] ++ c.toList) [d] fun s =>
    let entry := s.rd a
    if entry.toNat % 4 ≠ 0 then s.trap 0x03 entry
    else
      let s := clearIdle s
      let core := s.myCore
      match s.freeSlot core with
      | none => (s.wr d 0).finish o
      | some slot =>
        let x := s.rd b
        let y := match c with
          | some c => s.rd c
          | none => 0
        let p := s.me.k 3
        let (s, n) := s.startHelper core slot fun h =>
          { (h.setK 3 p).withRegs [(1, x), (2, y)] with
            pc := entry, window := w, mig := mig, placed := [clusterOf core] }
        (s.wr d (startResult slot n)).finish o

/-- Starts the helpers of one item: on every member for a gang, else on the issuing core (R201). -/
def startItem (l : Launch) (mig : Bool) (rank : Nat) (cores : List Nat) (s : State) : State × W64 :=
  let wid := l.widOfRank rank
  let set := match l.setOf (clusterOf s.myCore) with
    | some p => p.clusters
    | none => [clusterOf s.myCore]
  let first := s.myCore
  let r := cores.zipIdx.foldl (fun (acc : State × W64) (p : Nat × Nat) =>
    match acc.1.freeSlot p.1 with
    | none => acc
    | some slot =>
      let (s, n) := acc.1.startHelper p.1 slot (itemHelper l wid p.2 set mig)
      (s, if p.1 = first then startResult slot n else acc.2)) (s, 0)
  (match r.1.launch? l.handle with
   | some l =>
     let g := l.groupAt l.clevel wid
     r.1.setLaunch { l with running := l.running + cores.length, pushed := l.pushed.put g (l.pushed.get g 0 + (cores.length - 1)) }
   | none => r.1, r.2)

/-- STARTW (R201). On a core in no gang a gang launch has no item within reach. Where no slot is free, 0 is written whether or not
an item is within reach, and all ones where the handle names no launch: the manual gives no order between its cases (DESIGN CHOICE, log
entry 62). -/
def startwOp (o : Op) (d a : R6) (mig : Bool) (s : State) : Result :=
  s |> controlOnly fun s => s.issueAcc [a] [d] fun s =>
    let s := clearIdle s
    let core := s.myCore
    let h := (if a = 0 then s.me.k 2 else s.rd a).toNat
    match s.running? (s.vfOf s.cur) h with
    | none => (s.wr d ones64).finish o
    | some l =>
      let members := if l.gang then s.gangCores core else [core]
      if members = [] then (s.wr d ones64).finish o
      else if l.gang && members.head? != some core then (s.wr d 0).finish o
      else if members.any fun c => (s.freeSlot c).isNone then (s.wr d 0).finish o
      else match s.pop core l with
        | (s, .none_) => (s.wr d ones64).finish o
        | (s, .wait) => s.hold (.item h)
        | (s, .turn v) => s.hold (.turn v)
        | (s, .item r) =>
          let (s, v) := startItem l mig r members s
          (s.wr d v).finish o

/-- Actors that STARTM may pick on a core, with the arrival order of their oldest message (R48). -/
def State.eligibleActors (s : State) (core : Nat) (cls : Option Nat) : List (Nat × Moor) :=
  s.moors.filterMap fun m =>
    match m.st, m.berth, m.mailbox with
    | .moored, some (c, _), (_, n, _) :: _ =>
      if c = core ∧ m.busy = false ∧ (cls = none ∨ cls = some m.cls) then some (n, m) else none
    | _, _, _ => none

def oldest : List (Nat × Moor) → Option Moor
  | [] => none
  | p :: ps => match ps.foldl (fun (b : Nat × Moor) q => if q.1 < b.1 then q else b) p with
    | (_, m) => some m

def State.setMoor (s : State) (m : Moor) : State :=
  { s with moors := s.moors.map fun n => if n.cls == m.cls && n.key == m.key then m else n }

/-- The clusters of an actor handler's placed set (R63). -/
def State.actorSet (s : State) (cls core : Nat) : List Nat :=
  match s.classes.find? (·.num == cls) with
  | some r => if r.place = 1 then (List.range r.count).map (r.first + ·) else [clusterOf core]
  | none => [clusterOf core]

/-- STARTM (R48, R127, R202). -/
def startmOp (o : Op) (d : R6) (cls : Option Nat) (s : State) : Result :=
  s |> controlOnly fun s => s.issueAcc [] [d] fun s =>
    let s := clearIdle s
    let core := s.myCore
    match oldest (s.eligibleActors core cls), s.freeSlot core with
    | some m, some slot =>
      match m.berth, m.mailbox with
      | some (_, off), (sl, _, msg) :: rest =>
        let state := aliasBase + off
        let at_ := state + m.size + sl * 128
        let rec_ := s.classes.find? (·.num == m.cls)
        let s := s.setMoor { m with busy := true, handled := some sl, mailbox := rest }
        let set := s.actorSet m.cls core
        let (s, _) := s.startHelper core slot fun h =>
          { (h.setK 3 (BitVec.ofNat 64 msg.phase)).withRegs
              [(1, BitVec.ofNat 64 at_), (2, BitVec.ofNat 64 state), (3, m.key),
               (4, BitVec.ofNat 64 (m.cls + msg.srcCtx * 65536))] with
            form := .startm, pc := (rec_.map (·.entry)).getD 0, placed := set,
            actor := some { cls := m.cls, key := m.key, slot := sl, aidle := false, phase := msg.phase, counted := msg.origin != 1 } }
        (s.wr d (BitVec.ofNat 64 slot)).finish o
      | _, _ => (s.wr d 0).finish o
    | _, _ => (s.wr d 0).finish o

/-- FINISH and FAIL (R204): illegal in a control context. -/
def endHelper (srcs : List R6) (failed : Bool) (code : State → Nat) (s : State) : Result :=
  s.onlyIf (isHelper s.cur) fun s => s.issue srcs [] fun s => s.close s.cur failed (code s)

/-- IDLE (R127). -/
def idleOp (o : Op) (s : State) : Result :=
  s |> controlOnly fun s => s.issue [] [] fun s =>
    if (s.core s.myCore).idleMark then (clearIdle s).finish o else s.hold .idle

/-- The end record of a helper number of a core (R205). A record, and a saved helper, of another virtual function is not found: the core
keeps records and numbers across slice switches, as Table 21.5 names neither, and a context finds those of its own virtual function (DESIGN
CHOICE, log entry 62). -/
def State.endRec? (s : State) (core num : Nat) : Option EndRec :=
  (s.core core).ends.find? fun r => r.vf == (s.core core).vfid && r.num == num

/-- Is it a record that JOINANY of a context may return: not collected, and of a helper that the context started (R207)? -/
def EndRec.isFor (vf ctx : Nat) (r : EndRec) : Bool :=
  r.vf == vf && !r.collected && r.starter == ctx && (r.form == .start || r.form == .startw)

/-- OUT of a helper that has not ended: Starting, Live, Saved or Closing (Table 8.6). -/
def State.outOf (s : State) (core num : Nat) : Option Nat :=
  match List.find? (fun (p : Nat × Ctx) => decide (coreOf p.1 = core) && isHelper p.1 && p.2.hnum == num) s.ctxs with
  | some (_, c) => some (match c.life with
    | .starting => 5
    | .live => 6
    | .closing => 7)
  | none => if s.saved.any fun f => f.core == core && f.vf == (s.core core).vfid && f.ctx.hnum == num then some 7 else none

/-- (DEDUCED, log entry 22.) -/
def EndRec.word (r : EndRec) (lost : Bool) : W64 := statusWord r.out lost (if r.out = 1 then r.code else 0) r.num

/-- Cycle at which a wait limit of `n` cycles, 0 for none, expires. -/
def limitFrom (s : State) (n : Nat) : Option Nat := if n = 0 then none else some (s.cycle + n)

/-- Has JOIN_LIMIT_EXPIRE ended this wait? -/
def expired : Option Wait → Bool
  | some (.join _ (some 0)) => true
  | some (.joinAny (some 0)) => true
  | _ => false

/-- JOIN (R206). (DEDUCED, log entry 22.) -/
def joinOp (o : Op) (d a : R6) (limit : Nat) (s : State) : Result :=
  s.issue [a] [d] fun s =>
    let num := (s.rd a).toNat / 2 ^ 32
    let done (v : W64) : State := (s.wr d v).finish o
    match s.endRec? s.myCore num with
    | some r => done (r.word false)
    | none =>
      if (s.outOf s.myCore num).isSome && s.me.hnum != num then
        if expired s.waits then done (statusWord 4 false 0 num)
        else match s.waits with
          | some (.join n l) => s.hold (.join n l)
          | _ => s.hold (.join num (limitFrom s limit))
      else done (statusWord 3 false 0 num)

/-- Does a helper that this context started by START or STARTW still run on the core? -/
def State.hasChildren (s : State) (ctx : Nat) : Bool :=
  let mine (c : Ctx) : Bool := c.starter == ctx && (c.form == .start || c.form == .startw)
  (s.ctxs.any fun p => coreOf p.1 == coreOf ctx && isHelper p.1 && mine p.2) ||
    s.saved.any fun f => f.core == coreOf ctx && f.vf == s.vfOf ctx && mine f.ctx

/-- JOINANY (R207). Three points are the model's: of a gang's first member it leaves out the helpers that its STARTW started on the other
members' cores, while an overwrite of their records sets its LOST all the same, and NUM is 0 where its limit has expired (DESIGN CHOICE,
log entry 62). -/
def joinAnyOp (o : Op) (d : R6) (limit : Nat) (s : State) : Result :=
  s.issue [] [d] fun s =>
    let lost := s.me.lost
    let done (s : State) (v : W64) : State := ((s.modMe fun c => { c with lost := false }).wr d v).finish o
    match (s.core s.myCore).ends.find? (EndRec.isFor (s.vfOf s.cur) s.cur) with
    | some r =>
      done (s.modCore s.myCore fun c => { c with ends := c.ends.replace r { r with collected := true } }) (r.word lost)
    | none =>
      if s.hasChildren s.cur then
        if expired s.waits then done s (statusWord 4 lost 0 0)
        else match s.waits with
          | some (.joinAny l) => s.hold (.joinAny l)
          | _ => s.hold (.joinAny (limitFrom s limit))
      else done s (statusWord 3 lost 0 0)

/-- HSTAT (R208). -/
def hstatOp (o : Op) (d a : R6) (s : State) : Result :=
  s.issue [a] [d] fun s =>
    let num := (s.rd a).toNat / 2 ^ 32
    let v := match s.endRec? s.myCore num, s.outOf s.myCore num with
      | _, some out => statusWord out false 0 num
      | some r, none => r.word false
      | none, none => statusWord 3 false 0 num
    (s.wr d v).finish o

/-! ## Work queues (R210) -/

/-- The item that a helper's previous POPW popped counts as done (R26). -/
def State.popped (s : State) : State := if isHelper s.cur ∧ (s.me.form ≠ .startw ∨ s.me.own.isSome) then s.dropItem s.cur else s

/-- POPW (R26, R30, R210). An item that a control context pops is never counted as done: the manual says when only for
a helper's (DESIGN CHOICE, log entry 61). In a helper of a gang the item is that member's alone, and starts nothing on the
others: the manual does not say what POPW does inside a gang item (DESIGN CHOICE, log entry 62). -/
def popwOp (o : Op) (d a : R6) (s : State) : Result :=
  s.issueAcc [a] [d] fun s =>
    let h := (if a = 0 then s.me.k 2 else s.rd a).toNat
    match s.running? (s.vfOf s.cur) h with
    | none => (s.popped.wr d ones64).finish o
    | some l =>
      match s.pop s.myCore l with
      | (s, .wait) => s.hold (.item h)
      | (s, .turn v) => s.hold (.turn v)
      | (s, .none_) => (s.popped.wr d ones64).finish o
      | (s, .item r) =>
        let wid := l.widOfRank r
        let s := match s.launch? h with
          | some l => s.setLaunch { l with running := l.running + 1 }
          | none => s
        let s := if isHelper s.cur then
            (s.dropItem s.cur).modMe fun c => { c.setK 1 (BitVec.ofNat 64 wid) with item := some (h, wid) }
          else s
        (s.wr d (BitVec.ofNat 64 wid)).finish o

/-- PUSHW (R29, R210): as the cluster may start its first item of the launch by it, clean lines are invalidated (R19, R211). (DESIGN CHOICE, log
entry 24.) (DEDUCED, log entry 48.) -/
def pushwOp (o : Op) (d a : R6) (s : State) : Result :=
  s.issueAcc [a] [d] fun s =>
    let wid := (s.rd a).toNat
    match s.running? (s.vfOf s.cur) (s.me.k 2).toNat with
    | none => (s.wr d 1).finish o
    | some l =>
      let g := l.groupAt l.clevel wid
      if !(l.isItem wid) || l.bits.contains g || l.failed then (s.wr d 1).finish o
      else if (s.core (s.queueCore s.myCore l)).workq.length ≥ 16 then s.hold (.room (s.queueCore s.myCore l))
      else
        let s := s.setLaunch { l with pushed := l.pushed.put g (l.pushed.get g 0 + 1) }
        let s := s.modCore (s.queueCore s.myCore l) fun c =>
          { c with workq := c.workq ++ [{ handle := l.handle, first := l.rank wid, count := 1 }], idleMark := true }
        ((s.dropClean (clusterOf s.myCore)).wr d 0).finish o

/-! ## Launches (R211, R212) -/

/-- The header of Table 19.2 from its eleven words, as a record with handle 0. -/
def headerOf (s : State) (w : List W64) : Launch :=
  let word (i : Nat) : W64 := w.getD i 0
  let half (i : Nat) : Nat := (word (2 + i / 2)).toNat / 2 ^ (32 * (i % 2)) % 2 ^ 32
  let flags := word 1
  { handle := 0, core := s.myCore, vf := s.vfOf s.cur, asid := s.me.asid, priv := s.me.privileged, phase := s.me.phase, entry := word 0,
    widths := (List.range 6).map fun i => bitsOf flags (6 * i + 5) (6 * i),
    extents := (List.range 6).map half, clevel := bitsOf flags 38 36, plevel := bitsOf flags 41 39,
    prio := bitsOf flags 43 42, gang := bitsOf flags 44 44 == 1, args := word 5, bitmap := word 6,
    producer := (word 7).toNat, shift := bitsOf (word 8) 5 0,
    mode := if bitsOf (word 8) 9 8 = 3 then 1 else bitsOf (word 8) 9 8, window := bitsOf (word 9) 5 0,
    claim := bitsOf (word 9) 16 8, split := min 8 (bitsOf (word 10) 3 0), setSize := 2 ^ bitsOf (word 10) 5 4,
    minChunk := max 1 (bitsOf (word 10) 31 16), gangLen := bitsOf (word 10) 35 32, st := .queued,
    bitAddr := word 6, zeroed := false, dies := [], pending := [], placed := [], finished := [], pushed := [],
    bits := [], running := 0, failed := false, failCode := 0, failWid := none, depFail := false, discarded := [],
    endedAt := 0, eff := bitsOf flags 43 42, regions := [] }

/-- The lowest refusal code of Table 1.3 that a header meets, 0 for none. `tail` tells of a nonzero byte
in +88 to +127. -/
def refusal (s : State) (l : Launch) (tail : Bool) : Nat :=
  let n := l.fieldCount
  let prod := s.launches.find? fun p => p.handle == l.producer && p.vf == l.vf &&
    (p.st != .ended || decide (s.ptp ≤ p.endedAt + 1000000))
  if l.widths.any (32 < ·) || decide (63 < l.widths.sum) then 0x01
  else if n = 0 || (l.widths.drop n).any (· ≠ 0) then 0x02
  else if ((l.extents.zip l.widths).zipIdx.any fun p =>
      if p.2 < n then decide (p.1.1 < 1) || decide (2 ^ p.1.2 < p.1.1) || decide (2 ^ 32 ≤ p.1.1) else p.1.1 != 0) then 0x03
  else if n < l.clevel || n < l.plevel then 0x04
  else if tail then 0x05
  else if l.bitmap.toNat % 8 ≠ 0 || (0 < l.clevel && l.bitmap == 0) then 0x06
  else if l.mode ≠ 0 && prod.isNone then 0x07
  else if l.mode = 2 && (l.plevel = 0 || (match prod with
      | some p => p.bitmap == 0 || decide (p.groups p.clevel ≤ (l.groups l.plevel - 1) / 2 ^ l.shift)
      | none => true)) then 0x08
  else if l.window % 6 ≠ 0 || 48 < l.window then 0x09
  else if l.gang && (l.gangLen < 2 || 8 < l.gangLen || l.setSize * 8 < l.gangLen) then 0x0A
  else if 32 ≤ (s.launches.filter fun p => p.vf == l.vf && p.prio == l.prio && p.st != .ended).length then 0x0B
  else if l.entry.toNat % 4 ≠ 0 then 0x0C
  else 0

def refusalWord (code : Nat) : W64 := BitVec.ofNat 64 (2 ^ 63 + code)

/-- Words in the completion bitmap (R18). -/
def Launch.bitWords (l : Launch) : Nat := (l.groups l.clevel + 63) / 64

/-- The addresses at which the bitmap's pages begin, its own first. -/
def Launch.bitPages (l : Launch) : List Nat :=
  if l.bitmap = 0 then []
  else
    let a := l.bitmap.toNat
    (List.range ((a + 8 * l.bitWords - 1) / 0x10000 - a / 0x10000 + 1)).map fun i =>
      if i = 0 then a else (a / 0x10000 + i) * 0x10000

/-- Translates an address that must be translated memory (R58). -/
def State.pageOf (s : State) (ctx a : Nat) (acc : Acc) : State × Except FaultInfo Xl :=
  if placeOf a = .translated then s.translate (coreOf ctx) (s.vfOf ctx) (s.ctx ctx).asid (s.ctx ctx).privileged a acc
  else (s, .error { cause := 0x05, va := BitVec.ofNat 64 a, kind := acc.kind, level := 0, pte := 0 })

/-- Translates the first addresses of some pages; of the faults, a page fault comes first (Table 8.7). -/
def translateAll (ctx : Nat) (acc : Acc) : List Nat → State → State × Option FaultInfo
  | [], s => (s, none)
  | a :: as, s =>
    match s.pageOf ctx a acc with
    | (s, .ok _) => translateAll ctx acc as s
    | (s, .error f) =>
      if f.cause = 0x04 then (s, some f)
      else match translateAll ctx acc as s with
        | (s, some g) => (s, some (if g.cause = 0x04 then g else f))
        | (s, none) => (s, some f)

/-- The addresses at which a header's pages begin, its own first. -/
def headerPages (a : Nat) : List Nat := if a / 0x10000 = (a + 127) / 0x10000 then [a] else [a, (a + 127) / 0x10000 * 0x10000]

/-- What keeps LAUNCH from its header. -/
inductive HeaderStop where
  | fault (f : FaultInfo)
  /-- A remote page without a route to its module (R73). -/
  | route (dev : Nat)
  deriving DecidableEq, Repr

/-- Reads the header's words through translation; a remote one goes over Towline (R73). (DEDUCED, log entry 20.) -/
def readHeader (ctx : Nat) (a : Nat) : List Nat → State → State × Except HeaderStop (List W64)
  | [], s => (s, .ok [])
  | i :: is, s =>
    match s.pageOf ctx (a + 8 * i) accLoad with
    | (s, .error f) => (s, .error (.fault f))
    | (s, .ok x) =>
      if x.remote = true ∧ s.routeTo (keyDev x.key) = none then (s, .error (.route (keyDev x.key)))
      else match readHeader ctx a is s with
      | (s', .ok ws) => (s', .ok (s.read64 x.key :: ws))
      | (s', .error f) => (s', .error f)

/-- A launch as it is accepted: its placement groups wait, but those that can no longer start (R21). (DESIGN CHOICE, log entry 19.) -/
def State.accept (s : State) (l : Launch) : State :=
  let per := l.perGroup l.plevel
  let l := if l.plevel = 0 then l
    else { l with pending := (List.range (l.groups l.plevel)).map fun g => (g, g * per, (g + 1) * per) }
  let l := match s.launch? l.producer with
    | some p => discardWaiters p l
    | none => l
  { s with nextHandle := l.handle + 1, launches := s.launches ++ [l] }

/-- LAUNCH (R16, R211). (DESIGN CHOICE, log entry 19.) -/
def launchOp (o : Op) (d a : R6) (disp : W64) (s : State) : Result :=
  s.issueAcc [a] [d] fun s =>
    if s.acks s.cur ≠ 0 then s.hold .acks
    else
      let addr := (s.rd a + disp).toNat
      let done (s : State) (v : W64) : State := (s.wr d v).finish o
      if placeOf addr ≠ .translated ∨ addr % 64 ≠ 0 then done s (refusalWord 0x05)
      else
        let s := s.writeBack (clusterOf s.myCore) (fun _ => true) false
        let named (f : FaultInfo) : FaultInfo := { f with va := if f.cause = 0x05 then BitVec.ofNat 64 addr else f.va }
        match translateAll s.cur accLoad (headerPages addr) s with
        | (s, some f) => s.pageTrap (named f)
        | (s, none) =>
        match readHeader s.cur addr (List.range 16) s with
        | (s, .error (.fault f)) => s.pageTrap (named f)
        | (s, .error (.route dev)) => s.hold (.route dev)
        | (s, .ok ws) =>
          let l := headerOf s ws
          match refusal s l ((ws.drop 11).any (· ≠ 0)) with
          | 0 =>
            match translateAll s.cur accStore l.bitPages s with
            | (s, some f) => s.pageTrap f
            | (s, none) =>
              let h := s.nextHandle
              let s := (s.accept { l with handle := h }).active l.vf l.phase
              done (s.journalAdd 2 (dieOf s.myCore) l.vf (BitVec.ofNat 64 h :: ws)) (BitVec.ofNat 64 h)
          | code => done s (refusalWord code)

/-- LWAIT (R212). `e` receives the first failing work identifier in the extended form. A launch with both a failed item and groups
discarded for a failed dependence answers status 1: the manual gives no precedence (DESIGN CHOICE, log entry 62). -/
def lwaitOp (o : Op) (d : R6) (e : Option R6) (a : R6) (s : State) : Result :=
  s.issueAcc [a] ([d] ++ e.toList) fun s =>
    let h := (s.rd a).toNat
    let done (s : State) (v w : W64) : State :=
      (match e with
        | some e => s.wr2 d v e w
        | none => s.wr d v).finish o
    match s.launches.find? fun l => l.handle == h && l.vf == s.vfOf s.cur with
    | none => done s 3 ones64
    | some l =>
      if l.st ≠ .ended then s.hold (.launch h)
      else if l.failed then
        done s (BitVec.ofNat 64 (1 + l.failCode % 65536 * 65536)) (match l.failWid with
          | some w => BitVec.ofNat 64 w
          | none => ones64)
      else if l.depFail then done s 2 ones64
      else done (s.dropClean (clusterOf s.myCore)) 0 ones64

/-- WIDF and WIDR (R213). -/
def widOp (o : Op) (d a b : R6) (f : Launch → Nat → Nat → Option Nat) (s : State) : Result :=
  s.issue [a, b] [d] fun s =>
    let v := match s.launch? (s.me.k 2).toNat with
      | none => ones64
      | some l =>
        if s.me.k 2 = 0 || !(l.isItem (s.rd a).toNat) then ones64
        else match f l (s.rd a).toNat (s.rd b).toNat with
          | some n => BitVec.ofNat 64 n
          | none => ones64
    (s.wr d v).finish o

def widField (l : Launch) (wid f : Nat) : Option Nat :=
  if 1 ≤ f ∧ f ≤ l.fieldCount then some ((fieldsOf l.ws wid).getD (f - 1) 0) else none
def widGroup (l : Launch) (wid k : Nat) : Option Nat :=
  if k ≤ l.fieldCount then some (l.groupAt k wid) else none

/-! ## k registers (R152, R214) -/

/-- WSREF (Table 3.3). -/
def State.wsref (s : State) (die : Nat) : W64 :=
  let d := s.die die
  BitVec.ofNat 64 (d.bank + (1500 - (s.ptp - d.bankFrom)) * 2 ^ 16 + (d.bank + 1) % 32 * 2 ^ 27 + (if d.loading then 2 ^ 32 else 0))

/-- ENGSTAT: commands waiting in each queue (Table 6.7). BLK counts commands alone, and not the requests of BALLOC and BSEQNEW that
stand among them: the manual does not say (DESIGN CHOICE, log entry 62). -/
def State.engstat (s : State) (core : Nat) : W64 :=
  let c := s.core core
  let q (i : Nat) : Nat := (c.queues.get i []).length
  BitVec.ofNat 64 (q 0 + q 1 * 4 + q 2 * 16 + q 3 * 64 + q 4 * 256 + c.vqueue.length * 1024 + q 5 * 4096 + q 6 * 16384 + q 7 * 65536)

/-- What MFK reads. -/
def State.kread (s : State) (n : Nat) : W64 :=
  let core := s.myCore
  let c := s.core core
  match n with
  | 0 => BitVec.ofNat 64 (core + slotOf s.cur * 4096)
  | 9 => BitVec.ofNat 64 s.winNum
  | 10 => BitVec.ofNat 64 s.ptp
  | 14 => BitVec.ofNat 64 (c.vfid % 32)
  | 15 => BitVec.ofNat 64 (if c.gangMask = 0 then 0 else c.gangMask + (colOf core - gangFirst c.gangMask) * 256)
  | 16 => s.engstat core
  | 17 => s.wsref (dieOf core)
  | 19 => BitVec.ofNat 64 (s.me.lanes + (if s.me.yield then 65536 else 0))
  | n => s.me.k n

def mfkOp (o : Op) (d k : R6) (s : State) : Result :=
  s.issue [] [d] fun s => (s.wr d (s.kread k.toNat)).finish o

/-- May the context write k register `n` (Table 6.6)? -/
def mayWriteK (priv : Bool) (n : Nat) : Bool :=
  [3, 5, 6, 7, 8, 11, 12, 13, 18].contains n || (priv && [1, 2, 4, 14].contains n)

/-- The bits of a k register that are not marked zero (Table 6.7). -/
def kMask (n : Nat) : Nat :=
  match n with
  | 3 | 5 => 1
  | 4 | 8 => 2 ^ 32 - 1
  | 7 => 2 ^ 16 - 1
  | 11 => 255
  | 14 => 31
  | _ => 2 ^ 64 - 1

/-- MTK (R214). A write of SRSEED takes effect at once, also for an .sr conversion of the context that the pool has not performed
yet: the manual does not say which seed that one uses (DESIGN CHOICE, log entry 62). -/
def mtkOp (o : Op) (k a : R6) (s : State) : Result :=
  let n := k.toNat
  if !(mayWriteK s.me.privileged n) then .next (s.trap 0x02 (s.word0.setWidth 64))
  else s.issue [a] [] fun s =>
    let v := BitVec.ofNat 64 ((s.rd a).toNat % (kMask n + 1))
    if n = 6 ∧ v.toNat % 4 ≠ 0 then s.trap 0x03 v
    else if n = 14 then (s.modCore s.myCore fun c => { c with vfid := v.toNat }).finish o
    else (s.modMe fun c => { c.setK n v with gens := if n = 18 then [] else c.gens }).finish o

/-! ## The instructions -/

/-- BR (R198). -/
def execBr (off20 : BitVec 20) (st : St) (s : State) : Result :=
  branchIf ⟨4, st⟩ [] (fun _ => true) (sext20 off20) s

/-- BEQZ (R197). -/
def execBeqz (d : R6) (off14 : BitVec 14) (st : St) (s : State) : Result :=
  branchIf ⟨4, st⟩ [d] (fun s => s.rd d == 0) (sext14 off14) s

/-- BNEZ (R197). -/
def execBnez (d : R6) (off14 : BitVec 14) (st : St) (s : State) : Result :=
  branchIf ⟨4, st⟩ [d] (fun s => s.rd d != 0) (sext14 off14) s

/-- BLTZ (R197). -/
def execBltz (d : R6) (off14 : BitVec 14) (st : St) (s : State) : Result :=
  branchIf ⟨4, st⟩ [d] (fun s => (s.rd d).slt 0) (sext14 off14) s

/-- BGEZ (R197). -/
def execBgez (d : R6) (off14 : BitVec 14) (st : St) (s : State) : Result :=
  branchIf ⟨4, st⟩ [d] (fun s => !((s.rd d).slt 0)) (sext14 off14) s

/-- BEQ (R197). -/
def execBeq (a : R6) (b : R6) (imm : W32) (st : St) (s : State) : Result :=
  branchIf ⟨12, st⟩ [a, b] (fun s => s.rd a == s.rd b) (sext32 imm) s

/-- BNE (R197). -/
def execBne (a : R6) (b : R6) (imm : W32) (st : St) (s : State) : Result :=
  branchIf ⟨12, st⟩ [a, b] (fun s => s.rd a != s.rd b) (sext32 imm) s

/-- BLT (R197). -/
def execBlt (a : R6) (b : R6) (imm : W32) (st : St) (s : State) : Result :=
  branchIf ⟨12, st⟩ [a, b] (fun s => (s.rd a).slt (s.rd b)) (sext32 imm) s

/-- BLO (R197). -/
def execBlo (a : R6) (b : R6) (imm : W32) (st : St) (s : State) : Result :=
  branchIf ⟨12, st⟩ [a, b] (fun s => (s.rd a).ult (s.rd b)) (sext32 imm) s

/-- CALL (R198). -/
def execCall (off20 : BitVec 20) (st : St) (s : State) : Result :=
  jumpTo ⟨4, st⟩ (some 63) [] (fun s => branchTarget s.me.pc (sext20 off20)) s

/-- CALLR (R199). -/
def execCallr (d : R6) (a : R6) (st : St) (s : State) : Result :=
  jumpTo ⟨4, st⟩ (some d) [a] (fun s => s.rd a) s

/-- JMPR (R199). -/
def execJmpr (a : R6) (st : St) (s : State) : Result :=
  jumpTo ⟨4, st⟩ none [a] (fun s => s.rd a) s

/-- RET (R199). -/
def execRet (st : St) (s : State) : Result :=
  jumpTo ⟨4, st⟩ none [63] (fun s => s.rd 63) s

/-- START (R200). -/
def execStart (d : R6) (a : R6) (b : R6) (st : St) (s : State) : Result :=
  startOp ⟨4, st⟩ d a b none 0 false s

/-- START_X (R200). -/
def execStartX (d : R6) (a : R6) (b : R6) (c : R6) (w : R6) (mig : Bit) (st : St) (s : State) : Result :=
  startOp ⟨12, st⟩ d a b (some c) w.toNat (mig == 1) s

/-- STARTM (R202). -/
def execStartm (d : R6) (st : St) (s : State) : Result :=
  startmOp ⟨4, st⟩ d none s

/-- STARTM_X (R202). -/
def execStartmX (d : R6) (cls : BitVec 16) (has : Bit) (st : St) (s : State) : Result :=
  startmOp ⟨12, st⟩ d (if has = 1 then some cls.toNat else none) s

/-- STARTW (R201). -/
def execStartw (d : R6) (a : R6) (st : St) (s : State) : Result :=
  startwOp ⟨4, st⟩ d a false s

/-- STARTW_X (R201). -/
def execStartwX (d : R6) (a : R6) (mig : Bit) (st : St) (s : State) : Result :=
  startwOp ⟨12, st⟩ d a (mig == 1) s

/-- FINISH (R204). -/
def execFinish (st : St) (s : State) : Result :=
  let _ := st; endHelper [] false (fun _ => 0) s

/-- FAIL (R204). -/
def execFail (a : R6) (st : St) (s : State) : Result :=
  let _ := st; endHelper [a] true (fun s => (s.rd a).toNat % 65536) s

/-- IDLE (R127, R204). -/
def execIdle (st : St) (s : State) : Result :=
  idleOp ⟨4, st⟩ s

/-- JOIN (R206). -/
def execJoin (d : R6) (a : R6) (st : St) (s : State) : Result :=
  joinOp ⟨4, st⟩ d a 0 s

/-- JOIN_X (R206). -/
def execJoinX (d : R6) (a : R6) (imm : W32) (st : St) (s : State) : Result :=
  joinOp ⟨12, st⟩ d a imm.toNat s

/-- JOINANY (R207). -/
def execJoinany (d : R6) (st : St) (s : State) : Result :=
  joinAnyOp ⟨4, st⟩ d 0 s

/-- JOINANY_X (R207). -/
def execJoinanyX (d : R6) (imm : W32) (st : St) (s : State) : Result :=
  joinAnyOp ⟨12, st⟩ d imm.toNat s

/-- HSTAT (R208). -/
def execHstat (d : R6) (a : R6) (st : St) (s : State) : Result :=
  hstatOp ⟨4, st⟩ d a s

/-- HSTAT_X (R208). -/
def execHstatX (d : R6) (a : R6) (st : St) (s : State) : Result :=
  hstatOp ⟨12, st⟩ d a s

/-- POPW (R26, R210). -/
def execPopw (d : R6) (a : R6) (st : St) (s : State) : Result :=
  popwOp ⟨4, st⟩ d a s

/-- PUSHW (R29, R210). -/
def execPushw (d : R6) (a : R6) (st : St) (s : State) : Result :=
  pushwOp ⟨4, st⟩ d a s

/-- LAUNCH (R211). -/
def execLaunch (d : R6) (a : R6) (st : St) (s : State) : Result :=
  launchOp ⟨4, st⟩ d a 0 s

/-- LAUNCH_X (R211). -/
def execLaunchX (d : R6) (a : R6) (imm : W32) (st : St) (s : State) : Result :=
  launchOp ⟨12, st⟩ d a (sext32 imm) s

/-- LWAIT (R212). -/
def execLwait (d : R6) (a : R6) (st : St) (s : State) : Result :=
  lwaitOp ⟨4, st⟩ d none a s

/-- LWAIT_X (R212). -/
def execLwaitX (d : R6) (a : R6) (e : R6) (st : St) (s : State) : Result :=
  lwaitOp ⟨12, st⟩ d (some e) a s

/-- WIDF (R213). -/
def execWidf (d : R6) (a : R6) (b : R6) (st : St) (s : State) : Result :=
  widOp ⟨4, st⟩ d a b widField s

/-- WIDR (R213). -/
def execWidr (d : R6) (a : R6) (b : R6) (st : St) (s : State) : Result :=
  widOp ⟨4, st⟩ d a b widGroup s

/-- MFK (R214). -/
def execMfk (d : R6) (a : R6) (st : St) (s : State) : Result :=
  mfkOp ⟨4, st⟩ d a s

/-- MTK (R214). -/
def execMtk (d : R6) (a : R6) (st : St) (s : State) : Result :=
  mtkOp ⟨4, st⟩ d a s

/-- TRAP (R215). -/
def execTrap (a : R6) (st : St) (s : State) : Result :=
  let _ := st; s.issue [a] [] fun s => s.trap 0x0F (s.rd a)

/-- BRK (R215). -/
def execBrk (st : St) (s : State) : Result :=
  let _ := st; s.issue [] [] fun s => s.trap 0x10 0

/-- SYSC (R216). -/
def execSysc (d : R6) (a : R6) (st : St) (s : State) : Result :=
  s.issue [a] [d] fun s => if s.acks s.cur ≠ 0 then s.hold .acks else s.hold (.service (s.me.regKey d) st.toNat)

/-- ERET (R217). -/
def execEret (st : St) (s : State) : Result :=
  s.issue [] [] fun s => s.eret ⟨4, st⟩ (s.word0.setWidth 64)

end Sys2Proof.Machine
end

