-- ==== Sys2Proof/Machine/Memory.lean ====
section
/-! DEFINITION. Loads, stores, tags, atomics, fences, bindings, timelines, phase quiet, barriers and cache
maintenance: majors 0x30 to 0x45 (R219 to R246), and what an access does at its home (R88, R224). -/

namespace Sys2Proof.Machine

/-! ## Issuing an access -/

/-- What an access needs of its page. -/
def MemOp.acc (op : MemOp) (sync : Nat) : Acc :=
  match op with
  | .load => if sync = 1 then accAtomic else accLoad
  | .ldff | .ldtag => accLoad
  | .store => if sync = 0 then accStore else accTag
  | .stef | .stff | .rel | .tclr | .tfill => accTag
  | .ldfe | .acq | .atomic _ => accAtomic

/-- What an instruction asks of memory. `x` and `y` are its operands. -/
structure Req where
  op    : MemOp
  sext  : Bool := false
  dst   : Option R6 := none
  dst2  : Option R6 := none
  x     : State → W64 := fun _ => 0
  y     : State → W64 := fun _ => 0
  sync  : Nat := 0
  scope : Nat := 0
  order : Nat := 0
  ph    : Bit := 0
  /-- The context is held until the access is done. -/
  holds : Bool := false

/-- Order acq or ar; order rel or ar (Table 6.2). -/
def isAcq (order : Nat) : Bool := order == 1 || order == 3
def isRel (order : Nat) : Bool := order == 2 || order == 3

def MemOp.isTagged (op : MemOp) (sync : Nat) : Bool :=
  sync != 0 || (match op with
    | .load | .store | .atomic _ => false
    | _ => true)

/-- Does the access count under R87? LDFF changes nothing, and does not. -/
def MemOp.counts (op : MemOp) (sync : Nat) : Bool :=
  match op with
  | .load => sync == 1
  | .ldtag | .ldff => false
  | _ => true

/-- Whether the access uses the cluster cache, if that has capacity (R66, R93, R105, Table 4.2). -/
def usesCache (c : Ctx) (cacheable : Bool) (q : Req) : Bool :=
  cacheable && !c.mig &&
    (match q.op with
     | .load | .store => q.sync == 0 && !(q.order != 0 && decide (2 ≤ q.scope))
     | .atomic _ => decide (q.scope ≤ 1)
     | _ => false)

/-- Does an access need the reply cache (R412): is it an atomic or tagged? -/
def MemOp.replied (op : MemOp) (sync : Nat) : Bool := op.isTagged sync || (match op with
  | .atomic _ => true
  | _ => false)

/-- Is the reply cache of the port to a device off? -/
def State.portCacheOff (s : State) (dev : Nat) : Bool :=
  match s.routeTo dev with
  | some p => s.regBits (towBase p + 0x108) 0 0 == 0
  | none => false

/-- Atomics and tagged accesses need the reply cache of the port (R412). -/
def State.replyCacheOff (s : State) (x : Xl) (q : Req) : Bool :=
  x.remote && q.op.replied q.sync && s.portCacheOff (keyDev x.key)

/-- The counters of R31. -/
def Ctx.countHome (c : Ctx) (core key : Nat) : Ctx :=
  let h := homeSlice key
  if c.mig && decide (key < 2 ^ 53) && h != sliceBeside core then
    { c with migCnt := c.migCnt.put h (min 65535 (c.migCnt.get h 0 + 1)) }
  else c

/-- The place that an acquire in flight holds in its context (R92). -/
def acquirePend (pc : W64) (id now st : Nat) : Pend := { op := .access id, pc := pc, dst := none, issued := now, since := now, until_ := now + 1 + st }

/-- Puts an access in flight (R87, R91). -/
def State.launchAccess (s : State) (o : Op) (a : W64) (size : Nat) (x : Xl) (alias_ : Bool) (q : Req) : State :=
  let c := s.me
  let vf := s.vfOf s.cur
  let phase := (c.phase + q.ph.toNat) % 2
  let f : Flight :=
    { id := s.nextId, ctx := s.cur, hnum := c.hnum, pc := c.pc, op := q.op, va := a, key := x.key, size := size, sext := q.sext,
      dst := q.dst.map c.regKey, dst2 := q.dst2.map c.regKey, x := q.x s, y := q.y s, sync := q.sync,
      scope := q.scope, order := q.order, counted := q.op.counts q.sync, cached := usesCache c x.cached q,
      alias_ := alias_, remote := x.remote, vf := vf, phase := phase, window := s.winNum, issued := s.cycle,
      performed := false, waiting := none, refused := 0, backoff := 0, since := s.cycle, until_ := s.cycle + 1 + o.st.toNat,
      xlAt := s.nextId }
  let s : State := ({ s with flights := s.flights ++ [f], nextId := s.nextId + 1 } : State).active vf phase
  if f.isRelease then s.modMe fun c => { c with relMark := s.nextId } else s

/-- Is the access one that an order acq or ar makes a holding instruction: a store or a reduction (R245)? -/
def MemOp.held (op : MemOp) (dst : Option R6) : Bool :=
  match op with
  | .store => true
  | .atomic _ => dst.getD 0 == 0
  | _ => false

/-- The common form of every scalar access: the checks of Table 9.4, then the access is in flight and the
context goes on, or is held. Any other access than a store or a reduction holds, with order acq or ar, later accesses alone (R92,
R245). (DEDUCED, log entry 7.) -/
def accessOp (o : Op) (srcs dsts : List R6) (addr : State → W64) (size : Nat) (acc : Acc) (q : Req) (s : State) : Result :=
  s.issueAcc srcs dsts fun s =>
    let a := addr s
    match s.checkAccess s.cur a.toNat size acc (q.op.isTagged q.sync) with
    | .trap c v => s.trap c v
    | .page s f => s.pageTrap f
    | .ok s x alias_ =>
      if s.replyCacheOff x q then s.trap 0x05 a
      else
        let id := s.nextId
        let pc := s.me.pc
        let s := s.launchAccess o a size x alias_ q
        let core := s.myCore
        let s := (s.finish o).modMe fun c => c.countHome core x.key
        if q.holds || (isAcq q.order && q.op.held q.dst) then s.modMe fun c => { c with wait := some (.access id), waitFrom := s.cycle }
        else if isAcq q.order || q.op == .acq then s.modMe fun c => { c with pend := c.pend ++ [acquirePend pc id s.cycle o.st.toNat] }
        else s

/-- A load: a destination of s0 still waits for the result (R151, R221). -/
def loadOp (o : Op) (d a : R6) (disp : W64) (size : Nat) (sext : Bool) (sc od sy : Nat) (ph : Bit) : State → Result :=
  accessOp o [a] [d] (fun s => s.rd a + disp) size (MemOp.acc .load sy)
    { op := .load, sext := sext, dst := some d, sync := sy, scope := sc, order := od, ph := ph, holds := d == 0 }

def storeOp (o : Op) (d a : R6) (disp : W64) (size : Nat) (sc od sy : Nat) (ph : Bit) : State → Result :=
  accessOp o [a, d] [] (fun s => s.rd a + disp) size (MemOp.acc .store sy)
    { op := .store, x := fun s => s.rd d, sync := sy, scope := sc, order := od, ph := ph }

/-- LDFE and LDFF (R225): a data destination of s0 still waits for the result (R151); E is not written when it is s0. -/
def ldtestOp (o : Op) (op : MemOp) (d : R6) (e : R6) (a : R6) (disp : W64) (sc od : Nat) (ph : Bit) : State → Result :=
  accessOp o [a] [d, e] (fun s => s.rd a + disp) 8 (if op = .ldfe then accAtomic else accLoad)
    { op := op, dst := some d, dst2 := some e, scope := sc, order := od, ph := ph, holds := d == 0 }

def ldtagOp (o : Op) (d a : R6) (disp : W64) (sc od : Nat) (ph : Bit) : State → Result :=
  accessOp o [a] [d] (fun s => s.rd a + disp) 8 accLoad
    { op := .ldtag, dst := some d, scope := sc, order := od, ph := ph, holds := d == 0 }

/-- STEF and STFF (R226). -/
def sttestOp (o : Op) (op : MemOp) (d a b : R6) (disp : W64) (sc od : Nat) (ph : Bit) : State → Result :=
  accessOp o [a, b] [d] (fun s => s.rd a + disp) 8 accTag
    { op := op, dst := some d, x := fun s => s.rd b, scope := sc, order := od, ph := ph, holds := d == 0 }

/-- TCLR and TFILL (R228). -/
def tagOp (o : Op) (op : MemOp) (a : R6) (disp : W64) (sc od : Nat) (ph : Bit) : State → Result :=
  accessOp o [a] [] (fun s => s.rd a + disp) 8 accTag { op := op, scope := sc, order := od, ph := ph }

def AtomFn.size : AtomFn → Nat
  | .addf | .maxf => 4
  | _ => 8

/-- An atomic; a destination of s0 makes it a reduction, for which the context does not wait (R230, R231). -/
def atomicOp (o : Op) (f : AtomFn) (d a b : R6) (c : R6) (disp : W64) (sc od : Nat) (ph : Bit) : State → Result :=
  accessOp o [a, b, c] [d] (fun s => s.rd a + disp) f.size accAtomic
    { op := .atomic f, dst := some d, x := fun s => s.rd b, y := fun s => s.rd c, scope := sc, order := od, ph := ph }

/-! ## At the home (R88, R90, R224 to R230) -/

/-- New value of Table 9.2. -/
def AtomFn.apply (f : AtomFn) (old x y : W64) : W64 :=
  match f with
  | .add => old + x
  | .min => if old.slt x then old else x
  | .max => if old.slt x then x else old
  | .minz => if old.ult x then old else x
  | .and => old &&& x
  | .or => old ||| x
  | .xor => old ^^^ x
  | .swp => x
  | .cas => if old = y then x else old
  | .addf => BitVec.ofNat 64 (rne 9 ((numOf 9 old.toNat).add (numOf 9 x.toNat)))
  | .maxf => BitVec.ofNat 64 (rne 9 ((numOf 9 old.toNat).max (numOf 9 x.toNat)))
  | .inc => if x.ule old then 0 else old + 1

/-- Does a tagged access find its tag (Table 3.4)? -/
def State.tagMet (s : State) (f : Flight) : Bool :=
  match f.op with
  | .acq => s.isFull f.key
  | .rel => !(s.isFull f.key)
  | .load | .store => if f.sync = 0 then true else if f.sync = 2 then !(s.isFull f.key) else s.isFull f.key
  | _ => true

/-- The access's data as its destination receives it. -/
def Flight.extend (f : Flight) (v : Nat) : W64 :=
  if f.sext then (BitVec.ofInt 64 (if 2 ^ (8 * f.size - 1) ≤ v then (v : Int) - 2 ^ (8 * f.size) else v)) else BitVec.ofNat 64 v

def State.replyTo (s : State) (ctx : Nat) (dst : Option Nat) (v : W64) : State :=
  match dst with
  | some k => s.modCtx ctx fun c => c.setAt k v
  | none => s

/-- A reply with two destinations; where they are one register, which value remains is free (DESIGN CHOICE, log entry 12). -/
def State.replyBoth (s : State) (ctx : Nat) (d : Option Nat) (v : W64) (e : Option Nat) (w : W64) : State :=
  if d = e ∧ d.isSome then
    let (s, n) := s.freshNat
    s.replyTo ctx d (if n % 2 = 0 then v else w)
  else (s.replyTo ctx d v).replyTo ctx e w

/-- Is the access performed in the cluster cache? Not while that has no capacity (R66). -/
def State.inCache (s : State) (f : Flight) : Bool := f.cached && s.hasCache (clusterOf (coreOf f.ctx))

/-- Reads where the access is performed: the cluster cache, or the home after any recall (R67, R93). -/
def State.fetchData (s : State) (f : Flight) : State × Nat :=
  if s.inCache f then s.cacheRead (clusterOf (coreOf f.ctx)) f.key f.size else (s, s.read f.key f.size)

def State.storeData (s : State) (f : Flight) (v : Nat) : State :=
  let s := if s.inCache f then s.cacheWrite (clusterOf (coreOf f.ctx)) f.key f.size v else s.write f.key f.size v
  s.clearPoison f.key f.size

/-- Does the home recall the line before the access (R67, R93)? -/
def State.recalls (s : State) (f : Flight) : Bool :=
  !(s.inCache f) && (f.op.isTagged f.sync || (match f.op with
    | .atomic _ => decide (2 ≤ f.scope)
    | .load | .store => f.order != 0 && decide (2 ≤ f.scope)
    | _ => false))

/-- Translated ranges behind a virtual range, page by page; pages without an entry, and addresses that are not translated, are left out. -/
def State.keysOf (s : State) (vf asid a len : Nat) : List (Nat × Nat) :=
  if len = 0 then []
  else (List.range ((a + len - 1) / 0x10000 - a / 0x10000 + 1)).filterMap fun i =>
    let lo := max a ((a / 0x10000 + i) * 0x10000)
    let hi := min (a + len) ((a / 0x10000 + i + 1) * 0x10000)
    match if placeOf lo = .translated then s.walk vf asid lo else .stop 0x05 0 0 with
    | .leaf pte _ shift => some ((leafXl pte shift lo).key, hi - lo)
    | .stop _ _ _ => none

def meetsAny (rs : List (Nat × Nat)) (l : Line) : Bool := rs.any fun r => l.meets r.1 r.2

/-- The ranges that a context has bound to a word (R95). -/
def State.boundTo (s : State) (ctx : Nat) (word : W64) : List (Nat × Nat) :=
  ((s.ctx ctx).bindings.filter (·.word == word)).flatMap fun b =>
    s.keysOf (s.vfOf ctx) (s.ctx ctx).asid b.base.toNat b.len.toNat

def State.dropFlight (s : State) (id : Nat) : State := { s with flights := s.flights.filter (·.id ≠ id) }

/-- An access is performed: an uncounted one is gone, a counted one awaits its acknowledgement. -/
def State.landed (s : State) (f : Flight) : State :=
  if f.counted then
    { s with flights := s.flights.map fun g => if g.id == f.id then { g with performed := true, waiting := none } else g }
  else s.dropFlight f.id

/-- An access of another module, which has no context here. -/
def Flight.isForeign (f : Flight) : Bool := decide (65536 ≤ f.ctx)

/-- Poison met: a reduction ends its issuer, any other access traps it (R223, R232). (DEDUCED, log entry 7.) -/
def State.poisonStop (s : State) (f : Flight) : State :=
  let s := s.dropFlight f.id
  if f.isForeign then s
  else match f.op, f.dst with
  | .atomic _, some 0 => s.endAsFail f.ctx (s.ctx f.ctx).hnum 0x0C f.va
  | _, _ => (s.dropStall f.ctx f.until_).takeTrap f.ctx 0x0C f.va f.pc none

/-- Performs an access whose tag is met (R221, R225 to R230, R96), without serving waiters. (DEDUCED, log entry 7.) -/
def State.performNow (s : State) (f : Flight) : State :=
  let s := if s.recalls f then s.recall f.key else s
  let poisoned := s.anyPoison f.key f.size
  let full := s.isFull f.key
  match f.op with
  | .load | .acq | .ldfe | .ldff =>
    if poisoned then s.poisonStop f
    else
      let (s, v) := s.fetchData f
      let empties := f.op == .acq || (f.op == .load && f.sync == 1) || (f.op == .ldfe && full)
      let s := if empties then s.setTag f.key false else s
      let s := s.replyBoth f.ctx f.dst (f.extend v) f.dst2 (if full then 1 else 0)
      let s := if f.op = .acq ∧ 2 ≤ f.scope then
          s.writeBack (clusterOf (coreOf f.ctx)) (meetsAny (s.boundTo f.ctx f.va)) true
        else s
      s.landed f
  | .store | .rel =>
    let s := s.storeData f f.x.toNat
    ((if f.op == .rel || f.sync == 2 then s.setTag f.key true else s)).landed f
  | .ldtag =>
    let v : W64 := BitVec.ofNat 64 ((if full then 1 else 0) + (if poisoned then 2 else 0))
    (s.replyTo f.ctx f.dst v).landed f
  | .stef | .stff =>
    if full == (f.op == .stff) then
      (((s.storeData f f.x.toNat).setTag f.key true).replyTo f.ctx f.dst 1).landed f
    else (s.replyTo f.ctx f.dst 0).landed f
  | .tclr => (s.setTag f.key false).landed f
  | .tfill => (s.setTag f.key true).landed f
  | .atomic fn =>
    if poisoned then s.poisonStop f
    else
      let (s, v) := s.fetchData f
      let old : W64 := BitVec.ofNat 64 v
      ((s.storeData f (fn.apply old f.x f.y).toNat).replyTo f.ctx f.dst old).landed f

/-- The first waiting access of a word, in arrival order, that its tag now lets go (R224). -/
def State.nextServed (s : State) (key : Nat) : Option Flight :=
  ((s.flights.filter fun f => f.waiting.isSome && wordKey f.key == wordKey key && s.tagMet f).sortedBy
    fun a b => decide (a.waiting.getD 0 ≤ b.waiting.getD 0)).head?

/-- Serves the waiters of a word until none can go. -/
def State.serve (s : State) (key : Nat) : Nat → State
  | 0 => s
  | n + 1 =>
    match s.nextServed key with
    | some f => State.serve (s.performNow f) key n
    | none => s

/-- Places in the waiting list of a key's home (R224). -/
def waitPlaces (key : Nat) : Nat :=
  if sramBase ≤ key ∧ key < weightBase then 64 else if meshBase ≤ key ∧ key < sramBase then 32 else 1024

/-- Do two keys wait in one list? A remote module's slices have their own (R73). -/
def sameHome (j k : Nat) : Bool :=
  match placeOf j, placeOf k with
  | .mesh c o, .mesh d p => c == d && o / 8 % 16 == p / 8 % 16
  | .sram c _, .sram d _ => c == d
  | .mesh _ _, _ => false
  | .sram _ _, _ => false
  | _, .mesh _ _ => false
  | _, .sram _ _ => false
  | _, _ => j / 2 ^ 54 == k / 2 ^ 54 && homeSlice j == homeSlice k

/-- Cycles of back-off after a refusal, of which `n` went before (R224): both ends of a remote range are 16 times as large. -/
def backoffTime (n : Nat) (remote : Bool) (r : Nat) : Nat :=
  let lo := 32 * 2 ^ min n 5
  if remote then 16 * lo + r % (16 * (lo - 1) + 1) else lo + r % lo

/-- A full list or reply cache refuses the access, and it backs off (R224, R73). -/
def State.backOff (s : State) (f : Flight) : State :=
  let since := if f.refused = 0 then s.cycle else f.since
  { s with fresh := s.fresh + 1,
           flights := s.flights.map fun g =>
             if g.id == f.id then { g with refused := f.refused + 1, backoff := s.cycle + backoffTime f.refused (f.remote || f.isForeign) (Config.backoff s.fresh), since := since }
             else g }

/-- The access waits for its tag, or a full list refuses it (R224, R73). (DEDUCED, log entry 20.) -/
def State.enqueueTag (s : State) (f : Flight) : State :=
  let n := (s.flights.filter fun g => g.waiting.isSome && sameHome g.key f.key).length
  let since := if f.refused = 0 then s.cycle else f.since
  if n < waitPlaces f.key then
    { s with arrival := s.arrival + 1,
             flights := s.flights.map fun g => if g.id == f.id then { g with waiting := some s.arrival, since := since } else g }
  else s.backOff f

/-- Does an access come to a port whose reply cache it needs, and which is off (R412)? -/
def State.crossesOff (s : State) (f : Flight) : Bool := f.remote && f.op.replied f.sync && s.portCacheOff (keyDev f.key)

/-- An access arrives where it is performed. One that found no port at its issue is refused at the port (R412; DEDUCED, log
entry 20). -/
def State.arrive (s : State) (f : Flight) : State :=
  if s.crossesOff f then ((s.dropFlight f.id).dropStall f.ctx f.until_).takeTrap f.ctx 0x05 f.va f.pc none
  else if s.tagMet f then (s.performNow f).serve f.key s.flights.length else s.enqueueTag f

/-- Is a word in the weight-store bank under refresh, where a read waits until the window ends (R70)? -/
def State.bankBusy (s : State) (key : Nat) : Bool :=
  match placeOf key with
  | .weight d o => (s.die d).bank == o / 0x8000000
  | _ => false

/-- May the access arrive now? It is not performed or waiting; no earlier access of its context to the
line and stream is unacknowledged (R102, R104); a release has every earlier counted one behind it (R91); a
remote one has a route; a weight-store bank is not under refresh (R70). (DEDUCED, log entry 20.) -/
def State.mayArrive (s : State) (f : Flight) : Bool :=
  !f.performed && f.waiting.isNone && decide (f.refused = 0 ∨ f.backoff ≤ s.cycle) &&
    !(s.flights.any fun g => g.ctx == f.ctx && decide (g.id < f.id) &&
        ((lineKey g.key == lineKey f.key && g.alias_ == f.alias_) ||
         (g.counted && f.isRelease))) &&
    (!f.remote || (s.routeTo (keyDev f.key)).isSome) &&
    !(s.bankBusy f.key)

/-- The homing module refuses an atomic or tagged access that reaches it: its retry list or reply cache is full (R73, R124). (DESIGN CHOICE, log entry 15.) (DEDUCED, log entry 20). -/
def State.refuseRemote (s : State) (id : Nat) : State :=
  match s.flights.find? (·.id == id) with
  | some f => if f.remote = true ∧ s.mayArrive f = true ∧ ((f.op ≠ .load ∧ f.op ≠ .store) ∨ f.sync ≠ 0) then s.backOff f else s
  | none => s

/-! ## Barriers (R240, R241) -/

/-- Where the arrivals of a barrier stand: columns for BARC, slots for BARH. -/
def arrivalBits (isC : Bool) (l : List (Nat × Nat)) : Nat :=
  (List.range 11).foldl (fun n i =>
    if l.any (fun p => (if isC then colOf (coreOf p.1) else slotOf p.1 % 16) == i) then n + 2 ^ i else n) 0

def State.barrier (s : State) (isC : Bool) (core : Nat) : Barrier :=
  if isC then (s.cluster (clusterOf core)).barc else (s.core core).barh

def State.setBarrier (s : State) (isC : Bool) (core : Nat) (b : Barrier) : State :=
  if isC then s.modCluster (clusterOf core) fun c => { c with barc := b } else s.modCore core fun c => { c with barh := b }

/-- Is a generation complete? -/
def Barrier.closes (isC : Bool) (l : List (Nat × Nat)) (v : Nat) : Bool :=
  if isC then arrivalBits isC l == v else l.length == v

/-- Is the instruction one that has arrived at this barrier? -/
def Pend.isBarrier (isC : Bool) (p : Pend) : Bool :=
  match p.op with
  | .barrier b _ => b == isC
  | _ => false

/-- A context traps at an instruction whose result was under way; that is dropped. -/
def State.trapPend (s : State) (ctx cause : Nat) (v : W64) (which : Pend → Bool) : State :=
  match (s.ctx ctx).pend.find? which with
  | some p =>
    let s := s.modCtx ctx fun c => { c with pend := c.pend.erase p }
    if (s.ctx ctx).life = .closing then s else (s.dropStall ctx p.until_).takeTrap ctx cause v p.pc none
  | none => s

/-- A barrier returns its generation number to a context. -/
def State.deliverBarrier (s : State) (isC : Bool) (ctx : Nat) (gen : W64) : State :=
  match (s.ctx ctx).pend.find? (·.isBarrier isC) with
  | some p => s.deliver ctx p gen
  | none => s

/-- A context joins the generation; a difference traps every arrival (cause 0x13), and the generation that ends so leaves the
number as it is, which the manual does not say (DESIGN CHOICE, log entry 62). -/
def State.joinBarrier (s : State) (isC : Bool) (core ctx v : Nat) : State :=
  let b := s.barrier isC core
  let col := colOf (coreOf ctx)
  if isC && b.arrivals.any (fun p => colOf (coreOf p.1) == col) then
    s.setBarrier isC core { b with held := b.held ++ [(ctx, v)] }
  else
    let l := b.arrivals ++ [(ctx, v)]
    let bad := (match b.arrivals with
      | [] => false
      | p :: _ => p.2 != v) || (isC && v / 2 ^ col % 2 == 0)
    if bad then
      let t := BitVec.ofNat 64 (arrivalBits isC l)
      l.foldl (fun s p => s.trapPend p.1 0x13 t (·.isBarrier isC)) (s.setBarrier isC core { b with arrivals := [] })
    else if Barrier.closes isC l v then
      l.foldl (fun s p => s.deliverBarrier isC p.1 (BitVec.ofNat 64 b.gen))
        (s.setBarrier isC core { b with gen := (b.gen + 1) % 2 ^ 32, arrivals := [] })
    else s.setBarrier isC core { b with arrivals := l }

/-- Held arrivals join in their order, at most `n` times; where a generation closes, those held again go first (R240). -/
def State.rejoin (isC : Bool) (core : Nat) : Nat → List (Nat × Nat) → State → State
  | _, [], s => s
  | 0, l, s => s.setBarrier isC core { s.barrier isC core with held := (s.barrier isC core).held ++ l }
  | n + 1, p :: l, s =>
    let s := s.joinBarrier isC core p.1 p.2
    let b := s.barrier isC core
    if b.arrivals = [] then State.rejoin isC core n (b.held ++ l) (s.setBarrier isC core { b with held := [] })
    else State.rejoin isC core n l s

/-- An arrival; where it closes its generation, those held join the next one, and none before (R240). Those held while a generation ends by
a mismatch join the barrier that has restarted empty at once: the manual does not say (DESIGN CHOICE, log entry 62). -/
def State.arriveAt (s : State) (isC : Bool) (core ctx v : Nat) : State :=
  let s := s.joinBarrier isC core ctx v
  let b := s.barrier isC core
  if b.arrivals = [] then State.rejoin isC core ((b.held.length + 1) * (b.held.length + 1)) b.held (s.setBarrier isC core { b with held := [] })
  else s

/-- The arrivals of a helper that ends stay, without a context to return to: under its number and 65536 (DESIGN CHOICE, log entry 62). -/
def State.leaveArrivals (s : State) (ctx : Nat) : State :=
  let core := coreOf ctx
  let g (l : List (Nat × Nat)) : List (Nat × Nat) := l.map fun p => if p.1 = ctx then (ctx + 65536, p.2) else p
  let f (b : Barrier) : Barrier := { b with arrivals := g b.arrivals, held := g b.held }
  let s := s.setBarrier true core (f (s.barrier true core))
  s.setBarrier false core (f (s.barrier false core))

/-- Withdraws a context's arrival from every barrier (R242, R284). -/
def State.withdraw (s : State) (ctx : Nat) : State :=
  let core := coreOf ctx
  let f (b : Barrier) : Barrier :=
    { b with arrivals := b.arrivals.filter (·.1 ≠ ctx), held := b.held.filter (·.1 ≠ ctx) }
  let s := s.setBarrier true core (f (s.barrier true core))
  let s := s.setBarrier false core (f (s.barrier false core))
  s.modCore core fun c => { c with mmag := if (c.mmag.map (·.1)) = some ctx then none else c.mmag }

/-- BARC and BARH: the arrival, a release, follows the context's earlier counted accesses; the return is an acquire (R91,
R92, R240, R241). That a source read too soon (0x08) comes before BARH's count (0x01) is the model's order (DESIGN CHOICE, log entry 62). -/
def barrierOp (o : Op) (isC : Bool) (d a : R6) (s : State) : Result :=
  s.issueAcc [a] [d] fun s =>
    let v := if isC then (s.rd a).toNat % 256 else (s.rd a).toNat % 16
    if !isC && (v < 1 || 11 < v) then s.trap 0x01 (s.word0.setWidth 64)
    else (s.modMe fun c => { c with relMark := s.nextId }).pendOn o d (.arrive isC v s.nextId)

/-! ## Fences, bindings, timelines, quiet -/

/-- Accesses of a context to its core's own local memory. -/
def Flight.isOwnLocal (f : Flight) : Bool :=
  match placeOf f.key with
  | .mesh c _ => c == coreOf f.ctx
  | _ => false

/-- Is a condition of R94 or R104 met? -/
def State.fenceMet (s : State) (ctx : Nat) (w : Wait) : Bool :=
  match w with
  | .acks => s.acks ctx == 0
  | .fence => !(s.flights.any (·.ctx == ctx))
  | .fenceLocal => !(s.flights.any fun f => f.ctx == ctx && f.isOwnLocal)
  | _ => true

def fenceOp (o : Op) (w : Wait) (s : State) : Result :=
  s.issueAcc [] [] fun s => if s.fenceMet s.cur w then s.finish o else s.hold w

/-- Stretch windows of the module's accesses that are not acknowledged (R112), those of engine commands which a slice switch
has stopped included. A store of MCST or MCSTC counts until it is stamped: the rule gives a sluiced store no acknowledgement
(DESIGN CHOICE, log entry 61). -/
def State.ownWindows (s : State) : List Nat :=
  ((s.flights.filter fun f => !f.isForeign).map (·.window)) ++
    s.cores.flatMap (fun (p : Nat × CoreSt) =>
      (p.2.vqueue ++ p.2.vrunning).map (·.window) ++ p.2.cmds.map (·.window)) ++
    s.images.flatMap (fun x => x.cores.flatMap fun (p : Nat × CoreSt) => p.2.cmds.map (·.window)) ++
    s.groups.flatMap fun (p : Nat × Group) => (p.2.waiting.filter fun x => decide (x.ctx < 65536)).map (·.window)

/-- Has the module reached a boundary (R112, R379)? A window of its own that has an access left has its notice by then. -/
def State.reached (s : State) (n : Nat) : Bool :=
  s.inDomain && decide (n * s.winLen ≤ s.ptp) && !(s.notices.any fun p => decide (p.2 + 2 ≤ n)) &&
    !(s.ownWindows.any fun w => decide (w + 2 ≤ n))

/-- WINWAIT (R234): later accesses wait for it, and readers of its result. -/
def winwaitOp (o : Op) (d a : R6) (s : State) : Result :=
  s.issueAcc [a] [d] fun s => s.pendOn o d (.window (s.rd a).toNat)

/-- BIND (R236). (DESIGN CHOICE, log entry 57.) -/
def bindOp (o : Op) (d a b : R6) (s : State) : Result :=
  s.issueAcc [a, b, d] [] fun s =>
    let x : Binding := { word := s.rd a, base := s.rd b, len := s.rd d }
    if x.base.toNat % 64 ≠ 0 || x.len.toNat % 64 ≠ 0 then s.trap 0x03 x.base
    else if x.len = 0 || decide (0x4000000 < x.len.toNat) then s.trap 0x05 x.word
    else if s.me.bindings.contains x then s.finish o
    else if 4 ≤ s.me.bindings.length then s.trap 0x05 x.word
    else (s.modMe fun c => { c with bindings := c.bindings ++ [x] }).finish o

/-- (DESIGN CHOICE, log entry 57.) -/
def unbindOp (o : Op) (a : R6) (s : State) : Result :=
  s.issueAcc [a] [] fun s =>
    let w := s.rd a
    (s.modMe fun c => { c with bindings := c.bindings.filter (·.word ≠ w) }).finish o

/-- A timeline counter. -/
def State.timeline (s : State) (core ctr : Nat) : W64 := (s.core core).tl.get ctr 0

/-- The acquire of R100: lines of the destination ranges of operations 1 to `n` are written back and
invalidated. -/
def State.acquireTo (s : State) (core ctr n : Nat) : State :=
  let rs := ((s.core core).doneDst.filter fun r => r.ctr == ctr && decide (r.num ≤ n)).map fun r => (r.key, r.len)
  s.writeBack (clusterOf core) (meetsAny rs) true

def tlwaitOp (o : Op) (a b : R6) (s : State) : Result :=
  s.issueAcc [b] [] fun s =>
    let n := s.rd b
    if n.ule (s.timeline s.myCore a.toNat) then (s.acquireTo s.myCore a.toNat n.toNat).finish o
    else s.hold (.timeline a.toNat n.toNat)

def tlreadOp (o : Op) (d a : R6) (s : State) : Result :=
  s.issue [] [d] fun s => (s.wr d (s.timeline s.myCore a.toNat)).finish o

/-- TLADD (R238): the addition follows the context's earlier counted accesses, and the context goes on. -/
def tladdOp (o : Op) (d a b : R6) (s : State) : Result :=
  s.issueAcc [b] [d] fun s => (s.modMe fun c => { c with relMark := s.nextId }).pendOn o d (.add a.toNat (s.rd b) s.nextId)

/-- Brings one pending instruction of a context forward. -/
def State.advancePend (s : State) (ctx : Nat) (p : Pend) : State :=
  let core := coreOf ctx
  match p.op with
  | .access n => if s.flights.any fun f => f.id == n && !f.performed then s else s.modCtx ctx fun c => { c with pend := c.pend.erase p }
  | .window n => if s.reached n then s.deliver ctx p (BitVec.ofNat 64 s.winNum) else s
  | .arrive isC v after =>
    if s.unacked ctx after then s
    else
      let s := s.modCtx ctx fun c => { c with pend := c.pend.replace p { p with op := .barrier isC v, since := s.cycle } }
      s.arriveAt isC core ctx v
  | .barrier _ _ => s
  | .add ctr x after =>
    if s.unacked ctx after then s
    else
      let v := s.timeline core ctr + x
      (s.modCore core fun c => { c with tl := c.tl.put ctr v }).deliver ctx p v
  | .alloc _ _ _ | .seqNew _ _ _ | .erase _ _ _ => s

/-- Brings the pending instructions of a context forward, the oldest first. -/
def State.advancePends (s : State) (ctx : Nat) : State := (s.ctx ctx).pend.foldl (fun s p => s.advancePend ctx p) s

/-- Did the last sweep find a phase quiet (R106)? -/
def State.quietNow (s : State) (vf phase : Nat) : Bool := s.quietRep.contains (vf * 2 + phase)

/-- Has a sweep after sweep number `n` found a phase quiet (R239)? Its report holds, whatever later sweeps find. -/
def State.quietSince (s : State) (vf phase n : Nat) : Bool := decide (n < s.quietAt.get (vf * 2 + phase) 0)

def qwaitOp (o : Op) (a : R6) (s : State) : Result :=
  s.issueAcc [a] [] fun s =>
    let p := (s.rd a).toNat % 2
    match s.waits with
    | some (.quiet q n) =>
      if s.quietSince (s.vfOf s.cur) q n then s.finish o else s.hold (.quiet q n)
    | _ => s.hold (.quiet p s.sweeps)

def qflipOp (o : Op) (s : State) : Result :=
  s.issue [] [] fun s => (s.modMe fun c => c.setK 3 (BitVec.ofNat 64 (1 - c.phase))).finish o

def qreadOp (o : Op) (d : R6) (s : State) : Result :=
  s.issue [] [d] fun s =>
    let q (p : Nat) : Nat := if s.quietNow (s.vfOf s.cur) p then 1 else 0
    (s.wr d (BitVec.ofNat 64 (q 0 + q 1 * 2 + s.sweeps % 2 ^ 32 * 2 ^ 32))).finish o

/-! ## ACQ, REL and cache maintenance -/

def acqOp (o : Op) (d a : R6) (disp : W64) (sc : Nat) : State → Result :=
  accessOp o [a] [d] (fun s => s.rd a + disp) 8 accAtomic { op := .acq, dst := some d, scope := sc, holds := d == 0 }

/-- Has a context an earlier access that is still to be merged into the cluster cache? -/
def State.unmerged (s : State) (ctx : Nat) : Bool := s.flights.any fun f => f.ctx == ctx && f.cached && !f.performed

/-- REL: step 1 of R96, behind the context's own stores, then a filling write behind every earlier counted access. -/
def relOp (o : Op) (d a : R6) (disp : W64) (sc : Nat) (s : State) : Result :=
  s.issueAcc [a, d] [] fun s =>
    let w := s.rd a + disp
    match s.checkAccess s.cur w.toNat 8 accTag true with
    | .trap c v => s.trap c v
    | .page s f => s.pageTrap f
    | .ok s x alias_ =>
      let q : Req := { op := .rel, x := fun s => s.rd d, scope := sc }
      if s.replyCacheOff x q then s.trap 0x05 w
      else if 2 ≤ sc ∧ s.unmerged s.cur = true then s.hold .merged
      else
        let s := if 2 ≤ sc then s.writeBack (clusterOf s.myCore) (meetsAny (s.boundTo s.cur w)) false else s
        let id := s.nextId
        let s := s.launchAccess o w 8 x alias_ q
        let core := s.myCore
        (s.finish o).modMe fun c => { c.countHome core x.key with wait := some (.access id), waitFrom := s.cycle }

/-- PREF: a fetch into the cluster cache that never traps (R243). -/
def prefOp (o : Op) (a : R6) (disp : W64) (s : State) : Result :=
  s.issue [a] [] fun s =>
    let w := (s.rd a + disp).toNat
    let s := match placeOf w, s.walk (s.vfOf s.cur) s.me.asid w with
      | .translated, .leaf pte _ shift =>
        let x := leafXl pte shift w
        if x.cached && leafAllows pte accLoad s.me.privileged && s.hasCache (clusterOf s.myCore) then
          ((s.noteSeen (clusterOf s.myCore) { vf := s.vfOf s.cur, asid := s.me.asid, page := w / 2 ^ shift, shift := shift, pte := pte,
                                              dset := bitsOf pte 7 7 == 1 }).fillLine (clusterOf s.myCore) x.key).1
        else s
      | _, _ => s
    s.finish o

/-- CWB and CINV (R244), behind the context's own stores (R93). (DESIGN CHOICE, log entry 57.) -/
def cacheOp (o : Op) (inval : Bool) (a b : R6) (disp : W64) (s : State) : Result :=
  s.issueAcc [a, b] [] fun s =>
    let w := s.rd a + disp
    let len := (s.rd b).toNat
    if 0x4000000 < len then s.trap 0x05 w
    else if s.unmerged s.cur then s.hold .merged
    else
      let rs := s.keysOf (s.vfOf s.cur) s.me.asid w.toNat (max 1 len)
      (s.writeBack (clusterOf s.myCore) (meetsAny rs) inval).finish o

/-! ## The instructions -/

/-- LDB (R221). -/
def execLdb (d : R6) (a : R6) (imm8 : Byte) (st : St) (s : State) : Result :=
  loadOp ⟨4, st⟩ d a (scaledDisp imm8 1) 1 true 0 0 0 0 s

/-- LDB_LIT (R221). -/
def execLdbLit (d : R6) (a : R6) (lit : W64) (st : St) (s : State) : Result :=
  loadOp ⟨12, st⟩ d a lit 1 true 0 0 0 0 s

/-- LDB_X (R221). -/
def execLdbX (d : R6) (a : R6) (sc : BitVec 2) (od : BitVec 2) (sy : BitVec 2) (ph : Bit) (imm : W32) (st : St) (s : State) : Result :=
  loadOp ⟨12, st⟩ d a (sext32 imm) 1 true sc.toNat od.toNat sy.toNat ph s

/-- LDB_XLIT (R221). -/
def execLdbXlit (d : R6) (a : R6) (sc : BitVec 2) (od : BitVec 2) (sy : BitVec 2) (ph : Bit) (lit : W64) (st : St) (s : State) : Result :=
  loadOp ⟨20, st⟩ d a lit 1 true sc.toNat od.toNat sy.toNat ph s

/-- LDBZ (R221). -/
def execLdbz (d : R6) (a : R6) (imm8 : Byte) (st : St) (s : State) : Result :=
  loadOp ⟨4, st⟩ d a (scaledDisp imm8 1) 1 false 0 0 0 0 s

/-- LDBZ_LIT (R221). -/
def execLdbzLit (d : R6) (a : R6) (lit : W64) (st : St) (s : State) : Result :=
  loadOp ⟨12, st⟩ d a lit 1 false 0 0 0 0 s

/-- LDBZ_X (R221). -/
def execLdbzX (d : R6) (a : R6) (sc : BitVec 2) (od : BitVec 2) (sy : BitVec 2) (ph : Bit) (imm : W32) (st : St) (s : State) : Result :=
  loadOp ⟨12, st⟩ d a (sext32 imm) 1 false sc.toNat od.toNat sy.toNat ph s

/-- LDBZ_XLIT (R221). -/
def execLdbzXlit (d : R6) (a : R6) (sc : BitVec 2) (od : BitVec 2) (sy : BitVec 2) (ph : Bit) (lit : W64) (st : St) (s : State) : Result :=
  loadOp ⟨20, st⟩ d a lit 1 false sc.toNat od.toNat sy.toNat ph s

/-- LDH (R221). -/
def execLdh (d : R6) (a : R6) (imm8 : Byte) (st : St) (s : State) : Result :=
  loadOp ⟨4, st⟩ d a (scaledDisp imm8 2) 2 true 0 0 0 0 s

/-- LDH_LIT (R221). -/
def execLdhLit (d : R6) (a : R6) (lit : W64) (st : St) (s : State) : Result :=
  loadOp ⟨12, st⟩ d a lit 2 true 0 0 0 0 s

/-- LDH_X (R221). -/
def execLdhX (d : R6) (a : R6) (sc : BitVec 2) (od : BitVec 2) (sy : BitVec 2) (ph : Bit) (imm : W32) (st : St) (s : State) : Result :=
  loadOp ⟨12, st⟩ d a (sext32 imm) 2 true sc.toNat od.toNat sy.toNat ph s

/-- LDH_XLIT (R221). -/
def execLdhXlit (d : R6) (a : R6) (sc : BitVec 2) (od : BitVec 2) (sy : BitVec 2) (ph : Bit) (lit : W64) (st : St) (s : State) : Result :=
  loadOp ⟨20, st⟩ d a lit 2 true sc.toNat od.toNat sy.toNat ph s

/-- LDHZ (R221). -/
def execLdhz (d : R6) (a : R6) (imm8 : Byte) (st : St) (s : State) : Result :=
  loadOp ⟨4, st⟩ d a (scaledDisp imm8 2) 2 false 0 0 0 0 s

/-- LDHZ_LIT (R221). -/
def execLdhzLit (d : R6) (a : R6) (lit : W64) (st : St) (s : State) : Result :=
  loadOp ⟨12, st⟩ d a lit 2 false 0 0 0 0 s

/-- LDHZ_X (R221). -/
def execLdhzX (d : R6) (a : R6) (sc : BitVec 2) (od : BitVec 2) (sy : BitVec 2) (ph : Bit) (imm : W32) (st : St) (s : State) : Result :=
  loadOp ⟨12, st⟩ d a (sext32 imm) 2 false sc.toNat od.toNat sy.toNat ph s

/-- LDHZ_XLIT (R221). -/
def execLdhzXlit (d : R6) (a : R6) (sc : BitVec 2) (od : BitVec 2) (sy : BitVec 2) (ph : Bit) (lit : W64) (st : St) (s : State) : Result :=
  loadOp ⟨20, st⟩ d a lit 2 false sc.toNat od.toNat sy.toNat ph s

/-- LDW (R221). -/
def execLdw (d : R6) (a : R6) (imm8 : Byte) (st : St) (s : State) : Result :=
  loadOp ⟨4, st⟩ d a (scaledDisp imm8 4) 4 true 0 0 0 0 s

/-- LDW_LIT (R221). -/
def execLdwLit (d : R6) (a : R6) (lit : W64) (st : St) (s : State) : Result :=
  loadOp ⟨12, st⟩ d a lit 4 true 0 0 0 0 s

/-- LDW_X (R221). -/
def execLdwX (d : R6) (a : R6) (sc : BitVec 2) (od : BitVec 2) (sy : BitVec 2) (ph : Bit) (imm : W32) (st : St) (s : State) : Result :=
  loadOp ⟨12, st⟩ d a (sext32 imm) 4 true sc.toNat od.toNat sy.toNat ph s

/-- LDW_XLIT (R221). -/
def execLdwXlit (d : R6) (a : R6) (sc : BitVec 2) (od : BitVec 2) (sy : BitVec 2) (ph : Bit) (lit : W64) (st : St) (s : State) : Result :=
  loadOp ⟨20, st⟩ d a lit 4 true sc.toNat od.toNat sy.toNat ph s

/-- LDWZ (R221). -/
def execLdwz (d : R6) (a : R6) (imm8 : Byte) (st : St) (s : State) : Result :=
  loadOp ⟨4, st⟩ d a (scaledDisp imm8 4) 4 false 0 0 0 0 s

/-- LDWZ_LIT (R221). -/
def execLdwzLit (d : R6) (a : R6) (lit : W64) (st : St) (s : State) : Result :=
  loadOp ⟨12, st⟩ d a lit 4 false 0 0 0 0 s

/-- LDWZ_X (R221). -/
def execLdwzX (d : R6) (a : R6) (sc : BitVec 2) (od : BitVec 2) (sy : BitVec 2) (ph : Bit) (imm : W32) (st : St) (s : State) : Result :=
  loadOp ⟨12, st⟩ d a (sext32 imm) 4 false sc.toNat od.toNat sy.toNat ph s

/-- LDWZ_XLIT (R221). -/
def execLdwzXlit (d : R6) (a : R6) (sc : BitVec 2) (od : BitVec 2) (sy : BitVec 2) (ph : Bit) (lit : W64) (st : St) (s : State) : Result :=
  loadOp ⟨20, st⟩ d a lit 4 false sc.toNat od.toNat sy.toNat ph s

/-- LDD (R221). -/
def execLdd (d : R6) (a : R6) (imm8 : Byte) (st : St) (s : State) : Result :=
  loadOp ⟨4, st⟩ d a (scaledDisp imm8 8) 8 false 0 0 0 0 s

/-- LDD_LIT (R221). -/
def execLddLit (d : R6) (a : R6) (lit : W64) (st : St) (s : State) : Result :=
  loadOp ⟨12, st⟩ d a lit 8 false 0 0 0 0 s

/-- LDD_X (R221). -/
def execLddX (d : R6) (a : R6) (sc : BitVec 2) (od : BitVec 2) (sy : BitVec 2) (ph : Bit) (imm : W32) (st : St) (s : State) : Result :=
  loadOp ⟨12, st⟩ d a (sext32 imm) 8 false sc.toNat od.toNat sy.toNat ph s

/-- LDD_XLIT (R221). -/
def execLddXlit (d : R6) (a : R6) (sc : BitVec 2) (od : BitVec 2) (sy : BitVec 2) (ph : Bit) (lit : W64) (st : St) (s : State) : Result :=
  loadOp ⟨20, st⟩ d a lit 8 false sc.toNat od.toNat sy.toNat ph s

/-- STB (R221). -/
def execStb (d : R6) (a : R6) (imm8 : Byte) (st : St) (s : State) : Result :=
  storeOp ⟨4, st⟩ d a (scaledDisp imm8 1) 1 0 0 0 0 s

/-- STB_LIT (R221). -/
def execStbLit (d : R6) (a : R6) (lit : W64) (st : St) (s : State) : Result :=
  storeOp ⟨12, st⟩ d a lit 1 0 0 0 0 s

/-- STB_X (R221). -/
def execStbX (d : R6) (a : R6) (sc : BitVec 2) (od : BitVec 2) (sy : BitVec 2) (ph : Bit) (imm : W32) (st : St) (s : State) : Result :=
  storeOp ⟨12, st⟩ d a (sext32 imm) 1 sc.toNat od.toNat sy.toNat ph s

/-- STB_XLIT (R221). -/
def execStbXlit (d : R6) (a : R6) (sc : BitVec 2) (od : BitVec 2) (sy : BitVec 2) (ph : Bit) (lit : W64) (st : St) (s : State) : Result :=
  storeOp ⟨20, st⟩ d a lit 1 sc.toNat od.toNat sy.toNat ph s

/-- STH (R221). -/
def execSth (d : R6) (a : R6) (imm8 : Byte) (st : St) (s : State) : Result :=
  storeOp ⟨4, st⟩ d a (scaledDisp imm8 2) 2 0 0 0 0 s

/-- STH_LIT (R221). -/
def execSthLit (d : R6) (a : R6) (lit : W64) (st : St) (s : State) : Result :=
  storeOp ⟨12, st⟩ d a lit 2 0 0 0 0 s

/-- STH_X (R221). -/
def execSthX (d : R6) (a : R6) (sc : BitVec 2) (od : BitVec 2) (sy : BitVec 2) (ph : Bit) (imm : W32) (st : St) (s : State) : Result :=
  storeOp ⟨12, st⟩ d a (sext32 imm) 2 sc.toNat od.toNat sy.toNat ph s

/-- STH_XLIT (R221). -/
def execSthXlit (d : R6) (a : R6) (sc : BitVec 2) (od : BitVec 2) (sy : BitVec 2) (ph : Bit) (lit : W64) (st : St) (s : State) : Result :=
  storeOp ⟨20, st⟩ d a lit 2 sc.toNat od.toNat sy.toNat ph s

/-- STW (R221). -/
def execStw (d : R6) (a : R6) (imm8 : Byte) (st : St) (s : State) : Result :=
  storeOp ⟨4, st⟩ d a (scaledDisp imm8 4) 4 0 0 0 0 s

/-- STW_LIT (R221). -/
def execStwLit (d : R6) (a : R6) (lit : W64) (st : St) (s : State) : Result :=
  storeOp ⟨12, st⟩ d a lit 4 0 0 0 0 s

/-- STW_X (R221). -/
def execStwX (d : R6) (a : R6) (sc : BitVec 2) (od : BitVec 2) (sy : BitVec 2) (ph : Bit) (imm : W32) (st : St) (s : State) : Result :=
  storeOp ⟨12, st⟩ d a (sext32 imm) 4 sc.toNat od.toNat sy.toNat ph s

/-- STW_XLIT (R221). -/
def execStwXlit (d : R6) (a : R6) (sc : BitVec 2) (od : BitVec 2) (sy : BitVec 2) (ph : Bit) (lit : W64) (st : St) (s : State) : Result :=
  storeOp ⟨20, st⟩ d a lit 4 sc.toNat od.toNat sy.toNat ph s

/-- STD (R221). -/
def execStd (d : R6) (a : R6) (imm8 : Byte) (st : St) (s : State) : Result :=
  storeOp ⟨4, st⟩ d a (scaledDisp imm8 8) 8 0 0 0 0 s

/-- STD_LIT (R221). -/
def execStdLit (d : R6) (a : R6) (lit : W64) (st : St) (s : State) : Result :=
  storeOp ⟨12, st⟩ d a lit 8 0 0 0 0 s

/-- STD_X (R221). -/
def execStdX (d : R6) (a : R6) (sc : BitVec 2) (od : BitVec 2) (sy : BitVec 2) (ph : Bit) (imm : W32) (st : St) (s : State) : Result :=
  storeOp ⟨12, st⟩ d a (sext32 imm) 8 sc.toNat od.toNat sy.toNat ph s

/-- STD_XLIT (R221). -/
def execStdXlit (d : R6) (a : R6) (sc : BitVec 2) (od : BitVec 2) (sy : BitVec 2) (ph : Bit) (lit : W64) (st : St) (s : State) : Result :=
  storeOp ⟨20, st⟩ d a lit 8 sc.toNat od.toNat sy.toNat ph s

/-- LDFE (R225). -/
def execLdfe (d : R6) (a : R6) (st : St) (s : State) : Result :=
  ldtestOp ⟨4, st⟩ .ldfe d 0 a 0 0 0 0 s

/-- LDFE_X (R225). -/
def execLdfeX (d : R6) (a : R6) (e : R6) (sc : BitVec 2) (od : BitVec 2) (ph : Bit) (imm : W32) (st : St) (s : State) : Result :=
  ldtestOp ⟨12, st⟩ .ldfe d e a (sext32 imm) sc.toNat od.toNat ph s

/-- LDFF (R225). -/
def execLdff (d : R6) (a : R6) (st : St) (s : State) : Result :=
  ldtestOp ⟨4, st⟩ .ldff d 0 a 0 0 0 0 s

/-- LDFF_X (R225). -/
def execLdffX (d : R6) (a : R6) (e : R6) (sc : BitVec 2) (od : BitVec 2) (ph : Bit) (imm : W32) (st : St) (s : State) : Result :=
  ldtestOp ⟨12, st⟩ .ldff d e a (sext32 imm) sc.toNat od.toNat ph s

/-- LDTAG (R227). -/
def execLdtag (d : R6) (a : R6) (st : St) (s : State) : Result :=
  ldtagOp ⟨4, st⟩ d a 0 0 0 0 s

/-- LDTAG_X (R227). -/
def execLdtagX (d : R6) (a : R6) (sc : BitVec 2) (od : BitVec 2) (ph : Bit) (imm : W32) (st : St) (s : State) : Result :=
  ldtagOp ⟨12, st⟩ d a (sext32 imm) sc.toNat od.toNat ph s

/-- STEF (R226). -/
def execStef (d : R6) (a : R6) (b : R6) (st : St) (s : State) : Result :=
  sttestOp ⟨4, st⟩ .stef d a b 0 0 0 0 s

/-- STEF_X (R226). -/
def execStefX (d : R6) (a : R6) (b : R6) (sc : BitVec 2) (od : BitVec 2) (ph : Bit) (imm : W32) (st : St) (s : State) : Result :=
  sttestOp ⟨12, st⟩ .stef d a b (sext32 imm) sc.toNat od.toNat ph s

/-- STFF (R226). -/
def execStff (d : R6) (a : R6) (b : R6) (st : St) (s : State) : Result :=
  sttestOp ⟨4, st⟩ .stff d a b 0 0 0 0 s

/-- STFF_X (R226). -/
def execStffX (d : R6) (a : R6) (b : R6) (sc : BitVec 2) (od : BitVec 2) (ph : Bit) (imm : W32) (st : St) (s : State) : Result :=
  sttestOp ⟨12, st⟩ .stff d a b (sext32 imm) sc.toNat od.toNat ph s

/-- TCLR (R228). -/
def execTclr (a : R6) (st : St) (s : State) : Result :=
  tagOp ⟨4, st⟩ .tclr a 0 0 0 0 s

/-- TCLR_X (R228). -/
def execTclrX (a : R6) (sc : BitVec 2) (od : BitVec 2) (ph : Bit) (imm : W32) (st : St) (s : State) : Result :=
  tagOp ⟨12, st⟩ .tclr a (sext32 imm) sc.toNat od.toNat ph s

/-- TFILL (R228). -/
def execTfill (a : R6) (st : St) (s : State) : Result :=
  tagOp ⟨4, st⟩ .tfill a 0 0 0 0 s

/-- TFILL_X (R228). -/
def execTfillX (a : R6) (sc : BitVec 2) (od : BitVec 2) (ph : Bit) (imm : W32) (st : St) (s : State) : Result :=
  tagOp ⟨12, st⟩ .tfill a (sext32 imm) sc.toNat od.toNat ph s

/-- AADD (R230). -/
def execAadd (d : R6) (a : R6) (b : R6) (st : St) (s : State) : Result :=
  atomicOp ⟨4, st⟩ .add d a b 0 0 0 0 0 s

/-- AADD_X (R230). -/
def execAaddX (d : R6) (a : R6) (b : R6) (sc : BitVec 2) (od : BitVec 2) (ph : Bit) (imm : W32) (st : St) (s : State) : Result :=
  atomicOp ⟨12, st⟩ .add d a b 0 (sext32 imm) sc.toNat od.toNat ph s

/-- AMIN (R230). -/
def execAmin (d : R6) (a : R6) (b : R6) (st : St) (s : State) : Result :=
  atomicOp ⟨4, st⟩ .min d a b 0 0 0 0 0 s

/-- AMIN_X (R230). -/
def execAminX (d : R6) (a : R6) (b : R6) (sc : BitVec 2) (od : BitVec 2) (ph : Bit) (imm : W32) (st : St) (s : State) : Result :=
  atomicOp ⟨12, st⟩ .min d a b 0 (sext32 imm) sc.toNat od.toNat ph s

/-- AMAX (R230). -/
def execAmax (d : R6) (a : R6) (b : R6) (st : St) (s : State) : Result :=
  atomicOp ⟨4, st⟩ .max d a b 0 0 0 0 0 s

/-- AMAX_X (R230). -/
def execAmaxX (d : R6) (a : R6) (b : R6) (sc : BitVec 2) (od : BitVec 2) (ph : Bit) (imm : W32) (st : St) (s : State) : Result :=
  atomicOp ⟨12, st⟩ .max d a b 0 (sext32 imm) sc.toNat od.toNat ph s

/-- AMINZ (R230). -/
def execAminz (d : R6) (a : R6) (b : R6) (st : St) (s : State) : Result :=
  atomicOp ⟨4, st⟩ .minz d a b 0 0 0 0 0 s

/-- AMINZ_X (R230). -/
def execAminzX (d : R6) (a : R6) (b : R6) (sc : BitVec 2) (od : BitVec 2) (ph : Bit) (imm : W32) (st : St) (s : State) : Result :=
  atomicOp ⟨12, st⟩ .minz d a b 0 (sext32 imm) sc.toNat od.toNat ph s

/-- AAND (R230). -/
def execAand (d : R6) (a : R6) (b : R6) (st : St) (s : State) : Result :=
  atomicOp ⟨4, st⟩ .and d a b 0 0 0 0 0 s

/-- AAND_X (R230). -/
def execAandX (d : R6) (a : R6) (b : R6) (sc : BitVec 2) (od : BitVec 2) (ph : Bit) (imm : W32) (st : St) (s : State) : Result :=
  atomicOp ⟨12, st⟩ .and d a b 0 (sext32 imm) sc.toNat od.toNat ph s

/-- AOR (R230). -/
def execAor (d : R6) (a : R6) (b : R6) (st : St) (s : State) : Result :=
  atomicOp ⟨4, st⟩ .or d a b 0 0 0 0 0 s

/-- AOR_X (R230). -/
def execAorX (d : R6) (a : R6) (b : R6) (sc : BitVec 2) (od : BitVec 2) (ph : Bit) (imm : W32) (st : St) (s : State) : Result :=
  atomicOp ⟨12, st⟩ .or d a b 0 (sext32 imm) sc.toNat od.toNat ph s

/-- AXOR (R230). -/
def execAxor (d : R6) (a : R6) (b : R6) (st : St) (s : State) : Result :=
  atomicOp ⟨4, st⟩ .xor d a b 0 0 0 0 0 s

/-- AXOR_X (R230). -/
def execAxorX (d : R6) (a : R6) (b : R6) (sc : BitVec 2) (od : BitVec 2) (ph : Bit) (imm : W32) (st : St) (s : State) : Result :=
  atomicOp ⟨12, st⟩ .xor d a b 0 (sext32 imm) sc.toNat od.toNat ph s

/-- ASWP (R230). -/
def execAswp (d : R6) (a : R6) (b : R6) (st : St) (s : State) : Result :=
  atomicOp ⟨4, st⟩ .swp d a b 0 0 0 0 0 s

/-- ASWP_X (R230). -/
def execAswpX (d : R6) (a : R6) (b : R6) (sc : BitVec 2) (od : BitVec 2) (ph : Bit) (imm : W32) (st : St) (s : State) : Result :=
  atomicOp ⟨12, st⟩ .swp d a b 0 (sext32 imm) sc.toNat od.toNat ph s

/-- ACAS (R230). -/
def execAcas (d : R6) (a : R6) (b : R6) (st : St) (s : State) : Result :=
  atomicOp ⟨4, st⟩ .cas d a b 0 0 0 0 0 s

/-- ACAS_X (R230). -/
def execAcasX (d : R6) (a : R6) (b : R6) (c : R6) (sc : BitVec 2) (od : BitVec 2) (ph : Bit) (imm : W32) (st : St) (s : State) : Result :=
  atomicOp ⟨12, st⟩ .cas d a b c (sext32 imm) sc.toNat od.toNat ph s

/-- AADDF (R230). -/
def execAaddf (d : R6) (a : R6) (b : R6) (st : St) (s : State) : Result :=
  atomicOp ⟨4, st⟩ .addf d a b 0 0 0 0 0 s

/-- AADDF_X (R230). -/
def execAaddfX (d : R6) (a : R6) (b : R6) (sc : BitVec 2) (od : BitVec 2) (ph : Bit) (imm : W32) (st : St) (s : State) : Result :=
  atomicOp ⟨12, st⟩ .addf d a b 0 (sext32 imm) sc.toNat od.toNat ph s

/-- AMAXF (R230). -/
def execAmaxf (d : R6) (a : R6) (b : R6) (st : St) (s : State) : Result :=
  atomicOp ⟨4, st⟩ .maxf d a b 0 0 0 0 0 s

/-- AMAXF_X (R230). -/
def execAmaxfX (d : R6) (a : R6) (b : R6) (sc : BitVec 2) (od : BitVec 2) (ph : Bit) (imm : W32) (st : St) (s : State) : Result :=
  atomicOp ⟨12, st⟩ .maxf d a b 0 (sext32 imm) sc.toNat od.toNat ph s

/-- AINC (R230). -/
def execAinc (d : R6) (a : R6) (b : R6) (st : St) (s : State) : Result :=
  atomicOp ⟨4, st⟩ .inc d a b 0 0 0 0 0 s

/-- AINC_X (R230). -/
def execAincX (d : R6) (a : R6) (b : R6) (sc : BitVec 2) (od : BitVec 2) (ph : Bit) (imm : W32) (st : St) (s : State) : Result :=
  atomicOp ⟨12, st⟩ .inc d a b 0 (sext32 imm) sc.toNat od.toNat ph s

/-- FENCE (R233). -/
def execFence (st : St) (s : State) : Result :=
  fenceOp ⟨4, st⟩ .fence s

/-- FENCE_X (R233). -/
def execFenceX (st : St) (s : State) : Result :=
  fenceOp ⟨12, st⟩ .fence s

/-- FENCELB (R233). -/
def execFencelb (st : St) (s : State) : Result :=
  fenceOp ⟨4, st⟩ .fenceLocal s

/-- FENCELB_X (R233). -/
def execFencelbX (st : St) (s : State) : Result :=
  fenceOp ⟨12, st⟩ .fenceLocal s

/-- ACKWAIT (R233). -/
def execAckwait (st : St) (s : State) : Result :=
  fenceOp ⟨4, st⟩ .acks s

/-- ACKWAIT_X (R233). -/
def execAckwaitX (st : St) (s : State) : Result :=
  fenceOp ⟨12, st⟩ .acks s

/-- WINWAIT (R234). -/
def execWinwait (d : R6) (a : R6) (st : St) (s : State) : Result :=
  winwaitOp ⟨4, st⟩ d a s

/-- WINWAIT_X (R234). -/
def execWinwaitX (d : R6) (a : R6) (st : St) (s : State) : Result :=
  winwaitOp ⟨12, st⟩ d a s

/-- ACQ (R235). -/
def execAcq (d : R6) (a : R6) (st : St) (s : State) : Result :=
  acqOp ⟨4, st⟩ d a 0 0 s

/-- ACQ_X (R235). -/
def execAcqX (d : R6) (a : R6) (sc : BitVec 2) (imm : W32) (st : St) (s : State) : Result :=
  acqOp ⟨12, st⟩ d a (sext32 imm) sc.toNat s

/-- REL (R235). -/
def execRel (d : R6) (a : R6) (st : St) (s : State) : Result :=
  relOp ⟨4, st⟩ d a 0 0 s

/-- REL_X (R235). -/
def execRelX (d : R6) (a : R6) (sc : BitVec 2) (imm : W32) (st : St) (s : State) : Result :=
  relOp ⟨12, st⟩ d a (sext32 imm) sc.toNat s

/-- BIND (R236). -/
def execBind (d : R6) (a : R6) (b : R6) (st : St) (s : State) : Result :=
  bindOp ⟨4, st⟩ d a b s

/-- BIND_X (R236). -/
def execBindX (d : R6) (a : R6) (b : R6) (st : St) (s : State) : Result :=
  bindOp ⟨12, st⟩ d a b s

/-- UNBIND (R236). -/
def execUnbind (a : R6) (st : St) (s : State) : Result :=
  unbindOp ⟨4, st⟩ a s

/-- UNBIND_X (R236). -/
def execUnbindX (a : R6) (st : St) (s : State) : Result :=
  unbindOp ⟨12, st⟩ a s

/-- TLWAIT (R237). -/
def execTlwait (a : R6) (b : R6) (st : St) (s : State) : Result :=
  tlwaitOp ⟨4, st⟩ a b s

/-- TLWAIT_X (R237). -/
def execTlwaitX (a : R6) (b : R6) (st : St) (s : State) : Result :=
  tlwaitOp ⟨12, st⟩ a b s

/-- TLREAD (R238). -/
def execTlread (d : R6) (a : R6) (st : St) (s : State) : Result :=
  tlreadOp ⟨4, st⟩ d a s

/-- TLREAD_X (R238). -/
def execTlreadX (d : R6) (a : R6) (st : St) (s : State) : Result :=
  tlreadOp ⟨12, st⟩ d a s

/-- TLADD (R238). -/
def execTladd (d : R6) (a : R6) (b : R6) (st : St) (s : State) : Result :=
  tladdOp ⟨4, st⟩ d a b s

/-- TLADD_X (R238). -/
def execTladdX (d : R6) (a : R6) (b : R6) (sc : BitVec 2) (st : St) (s : State) : Result :=
  let _ := sc; tladdOp ⟨12, st⟩ d a b s

/-- QWAIT (R239). -/
def execQwait (a : R6) (st : St) (s : State) : Result :=
  qwaitOp ⟨4, st⟩ a s

/-- QWAIT_X (R239). -/
def execQwaitX (a : R6) (st : St) (s : State) : Result :=
  qwaitOp ⟨12, st⟩ a s

/-- QFLIP (R239). -/
def execQflip (st : St) (s : State) : Result :=
  qflipOp ⟨4, st⟩ s

/-- QFLIP_X (R239). -/
def execQflipX (st : St) (s : State) : Result :=
  qflipOp ⟨12, st⟩ s

/-- QREAD (R239). -/
def execQread (d : R6) (st : St) (s : State) : Result :=
  qreadOp ⟨4, st⟩ d s

/-- QREAD_X (R239). -/
def execQreadX (d : R6) (st : St) (s : State) : Result :=
  qreadOp ⟨12, st⟩ d s

/-- BARC (R240). -/
def execBarc (d : R6) (a : R6) (st : St) (s : State) : Result :=
  barrierOp ⟨4, st⟩ true d a s

/-- BARC_X (R240). -/
def execBarcX (d : R6) (a : R6) (st : St) (s : State) : Result :=
  barrierOp ⟨12, st⟩ true d a s

/-- BARH (R241). -/
def execBarh (d : R6) (a : R6) (st : St) (s : State) : Result :=
  barrierOp ⟨4, st⟩ false d a s

/-- BARH_X (R241). -/
def execBarhX (d : R6) (a : R6) (st : St) (s : State) : Result :=
  barrierOp ⟨12, st⟩ false d a s

/-- PREF (R243). -/
def execPref (a : R6) (st : St) (s : State) : Result :=
  prefOp ⟨4, st⟩ a 0 s

/-- PREF_X (R243). -/
def execPrefX (a : R6) (imm : W32) (st : St) (s : State) : Result :=
  prefOp ⟨12, st⟩ a (sext32 imm) s

/-- CWB (R244). -/
def execCwb (a : R6) (b : R6) (st : St) (s : State) : Result :=
  cacheOp ⟨4, st⟩ false a b 0 s

/-- CWB_X (R244). -/
def execCwbX (a : R6) (b : R6) (imm : W32) (st : St) (s : State) : Result :=
  cacheOp ⟨12, st⟩ false a b (sext32 imm) s

/-- CINV (R244). -/
def execCinv (a : R6) (b : R6) (st : St) (s : State) : Result :=
  cacheOp ⟨4, st⟩ true a b 0 s

/-- CINV_X (R244). -/
def execCinvX (a : R6) (b : R6) (imm : W32) (st : St) (s : State) : Result :=
  cacheOp ⟨12, st⟩ true a b (sext32 imm) s

end Sys2Proof.Machine
end

