-- ==== Sys2Proof/Machine/Vector.lean ====
section
/-! DEFINITION. The vector pool: majors 0x46 to 0x67 (R247 to R274). An instruction is checked at issue and
becomes a command; `performV` is what the pool does with it. -/

namespace Sys2Proof.Machine

/-! ## Lanes, elements, masks (R249 to R251) -/

/-- Lane count G. -/
def Ctx.laneCount (c : Ctx) : Nat := if c.lanes = 0 then 32 else c.lanes
/-- Vector length VL of a format at G lanes. -/
def vlen (g fmt : Nat) : Nat := g * 32 / fmtWidth fmt
/-- Element `i` of width `w`. -/
def eltAt (x w i : Nat) : Nat := x / 2 ^ (w * i) % 2 ^ w
def Ctx.vbits (c : Ctx) (r : Nat) : Nat := (c.vregs.get r (BitVec.allOnes 8192)).toNat
def Ctx.vtag (c : Ctx) (r : Nat) : Nat := c.vtags.get r 0

/-- What an instruction does with one destination element (R251). -/
inductive Elt where
  | val (x : Nat)
  | off
  | tail
  | keep

/-- The element's new bits, from its old ones. -/
def Elt.bits (w mp tp old : Nat) : Elt → Nat
  | .val x => x % 2 ^ w
  | .off => if mp = 1 then 2 ^ w - 1 else old % 2 ^ w
  | .tail => if tp = 1 then 2 ^ w - 1 else old % 2 ^ w
  | .keep => old % 2 ^ w

/-- Writes elements 0 and up of width `w`; what lies above them stays. -/
def mergeElts (w mp tp : Nat) : List Elt → Nat → Nat
  | [], old => old
  | e :: es, old => e.bits w mp tp old + 2 ^ w * mergeElts w mp tp es (old / 2 ^ w)

def Ctx.putElts (c : Ctx) (q : VCmd) (d w : Nat) (es : List Elt) : Ctx :=
  { c with vregs := c.vregs.put d (BitVec.ofNat 8192 (mergeElts w q.mp q.tp es (c.vbits d))) }

/-- Is element `i` active under the command's mask (R250)? The caller keeps `i` below VL. -/
def Ctx.isActive (c : Ctx) (q : VCmd) (i : Nat) : Bool := q.msk == 0 || eltAt (c.vbits q.msk) 1 i == 1

/-- Active elements get `f i`, the others follow the mask policy. -/
def Ctx.fill (c : Ctx) (q : VCmd) (n : Nat) (f : Nat → Nat) : List Elt :=
  (List.range n).map fun i => if c.isActive q i then .val (f i) else .off

/-! ## Element functions (Table 10.2, R258) -/

def vInt (f : VFun) (w a b c : Nat) : Nat :=
  let x := sintOf w a
  let y := sintOf w b
  match f with
  | .add => intBits w (x + y)
  | .sub => intBits w (x - y)
  | .mul => intBits w (x * y)
  | .fma => intBits w (x * y + sintOf w c)
  | .fnma => intBits w (sintOf w c - x * y)
  | .min => intBits w (min x y)
  | .max => intBits w (max x y)
  | .abs => intBits w x.natAbs
  | .neg => intBits w (-x)
  | .shl => a * 2 ^ (b % w) % 2 ^ w
  | .shr => a / 2 ^ (b % w)
  | .shra => intBits w (x / 2 ^ (b % w))
  | .cmpeq => if x = y then 1 else 0
  | .cmplt => if x < y then 1 else 0
  | .cmple => if x ≤ y then 1 else 0
  | _ => 0

def vFloat (f : VFun) (fmt a b c : Nat) : Nat :=
  let x := numOf fmt a
  let y := numOf fmt b
  let z := numOf fmt c
  match f with
  | .add => rne fmt (x.add y)
  | .sub => rne fmt (x.sub y)
  | .mul => rne fmt (x.mul y)
  | .fma => rne fmt ((x.mul y).add z)
  | .fnma => rne fmt (z.add (x.mul y).neg)
  | .min => rne fmt (x.min y)
  | .max => rne fmt (x.max y)
  | .abs => rne fmt x.abs
  | .neg => rne fmt x.neg
  | .rcp => rne fmt ((Num.fin false 1 0).div x)
  | .rsq => rne fmt x.rsqrt
  | .exp2 => exp2Code fmt a
  | .log2 => log2Code fmt a
  | .tanh => tanhCode fmt a
  | .cmpeq => if eqNum x y then 1 else 0
  | .cmplt => if ltNum x y then 1 else 0
  | .cmple => if leNum x y then 1 else 0
  | _ => 0

/-- D[i] of Table 10.2 in an operation format. -/
def vfun (f : VFun) (fmt a b c : Nat) : Nat :=
  match f with
  | .and => a &&& b
  | .or => a ||| b
  | .xor => a ^^^ b
  | f => if isIntFmt fmt then vInt f (fmtWidth fmt) a b c else vFloat f fmt a b c

def VFun.isCmp : VFun → Bool
  | .cmpeq | .cmplt | .cmple => true
  | _ => false

/-- Formats that a function accepts (Table 10.2). -/
def VFun.accepts (f : VFun) (fmt : Nat) : Bool :=
  match f with
  | .and | .or | .xor => true
  | .shl | .shr | .shra => isIntFmt fmt
  | .rcp | .rsq | .exp2 | .log2 | .tanh => isFloatFmt fmt
  | _ => isIntFmt fmt || isFloatFmt fmt

/-! ## Reductions (R181, R264) -/

/-- Combines neighbours; a last element without a partner moves on unchanged. -/
def pairUp (f : Nat → Nat → Nat) : List Nat → List Nat
  | a :: b :: l => f a b :: pairUp f l
  | l => l

/-- The tree: at most `fuel` levels. -/
def treeFold (f : Nat → Nat → Nat) : Nat → List Nat → Option Nat
  | 0, l => l.head?
  | fuel + 1, l => if l.length ≤ 1 then l.head? else treeFold f fuel (pairUp f l)

def redStep (f : VRed) (fmt a b : Nat) : Nat :=
  if isIntFmt fmt then
    let w := fmtWidth fmt
    vInt (match f with
      | .sum => .add
      | .max => .max
      | .min => .min) w a b 0
  else vFloat (match f with
      | .sum => .add
      | .max => .max
      | .min => .min) 9 a b 0

/-- The result register's value: a tree over the active elements, the start value last. (DEDUCED, log entry 28.) -/
def reduceElts (f : VRed) (fmt : Nat) (start : W64) (l : List Nat) : W64 :=
  if isIntFmt fmt then
    let w := fmtWidth fmt
    let s := start.toNat % 2 ^ w
    BitVec.ofInt 64 (sintOf w (match treeFold (redStep f fmt) 16 l with
      | some t => redStep f fmt t s
      | none => s))
  else
    let s := start.toNat % 2 ^ 32
    BitVec.ofNat 64 (match treeFold (redStep f fmt) 16 (l.map fun x => rne 9 (numOf fmt x)) with
      | some t => redStep f fmt t s
      | none => s)

/-! ## Conversions (R171 to R174, R267 to R269) -/

/-- Ratio r of Table 10.4, for a wide and a narrow format. -/
def ratio (wide narrow : Nat) : Option Nat :=
  match wide, narrow with
  | 9, 7 | 9, 8 | 7, 5 | 7, 6 | 8, 5 | 8, 6 | 3, 2 | 2, 1 => some 2
  | 9, 5 | 9, 6 | 7, 4 | 8, 4 | 3, 1 => some 4
  | 9, 4 => some 8
  | _, _ => none
/-- VCVTU also widens E8M0 to FP32. -/
def ratioUp (wide narrow : Nat) : Option Nat := if wide = 9 ∧ narrow = 11 then some 4 else ratio wide narrow

/-- Do the two formats form a pair of VCVTI (R268)? -/
def equalPair (f g : Nat) : Bool :=
  [(3, 9), (9, 3), (2, 7), (7, 2), (2, 8), (8, 2), (1, 5), (5, 1), (1, 6), (6, 1)].contains (f, g)

/-- One element of VCVTP or VCVTU. `scale` is the E8M0 scale, `none` when B names s0. -/
def convElt (dst src : Nat) (up : Bool) (scale : Option Nat) (sat : Bool) (rd : Rounding) (x : Nat) : Nat :=
  if isIntFmt dst then
    let v := sintOf (fmtWidth src) x
    intBits (fmtWidth dst) (if sat then clampInt (fmtWidth dst) v else v)
  else
    match scale with
    | none => encodeNum dst rd sat (numOf src x)
    | some e =>
      if e % 256 = 255 then encodeNum dst rd sat .nan
      else encodeNum dst rd sat ((numOf src x).scale (if up then (e % 256 : Nat) - 127 else 127 - (e % 256 : Nat)))

/-- One element of VCVTI. -/
def convEqual (dst src : Nat) (rd : Rounding) (x : Nat) : Nat :=
  if isIntFmt dst then intBits (fmtWidth dst) (intOfNum (fmtWidth dst) rd (numOf src x))
  else encodeNum dst rd false (numOfInt (sintOf (fmtWidth src) x))

/-- One step of a lane generator (R172). -/
def genStep (g : Nat) : Nat :=
  let g := (g ^^^ (g * 2 ^ 13)) % 2 ^ 32
  let g := g ^^^ (g / 2 ^ 17)
  (g ^^^ (g * 2 ^ 5)) % 2 ^ 32

/-- Advances a lane's generator: the context, and how to round. -/
def Ctx.draw (c : Ctx) (sr : Bool) (lane : Nat) : Ctx × Rounding :=
  if sr then
    let g := genStep (c.gen lane)
    ({ c with gens := c.gens.put lane g }, .sr (g / 2 ^ 16))
  else (c, .rne)

/-- Converts the active elements in ascending order, drawing where .sr asks for it. -/
def Ctx.convAll (c : Ctx) (q : VCmd) (sr : Bool) (lane : Nat → Nat) (f : Rounding → Nat → Nat) : List Nat → Ctx × List Elt
  | [] => (c, [])
  | i :: is =>
    if c.isActive q i then
      let (c, rd) := c.draw sr (lane i)
      let v := f rd i
      let (c, es) := Ctx.convAll c q sr lane f is
      (c, .val v :: es)
    else
      let (c, es) := Ctx.convAll c q sr lane f is
      (c, .off :: es)

/-- Writes a list of elements over a group of registers, `vl` to each. -/
def Ctx.putGroup (c : Ctx) (q : VCmd) (w vl : Nat) : Nat → Nat → List Elt → Ctx
  | 0, _, _ => c
  | n + 1, d, es => Ctx.putGroup (c.putElts q d w (es.take vl)) q w vl n (d + 1) (es.drop vl)

/-- Scale of a block of VQSCALE: 255 when it holds an infinity or a NaN. -/
def blockScale (emax : Nat) (l : List Num) : Nat :=
  if l.any (fun x => match x with
      | .fin _ _ _ => false
      | _ => true) then 255
  else
    let mags := l.filterMap fun x => match x with
      | .fin _ m e => if m = 0 then none else some ((Nat.log2 m : Int) + e)
      | _ => none
    match mags.max? with
    | none => 127
    | some t => (max 0 (min 254 (t - emax + 127))).toNat

/-! ## The merge of R182 -/

/-- c of a triple, as an FP32 code. -/
def mergeScale (m1 m : Nat) : Nat :=
  if numOf 9 m1 = .inf true then 0 else exp2Code 9 (rne 9 ((numOf 9 m1).sub (numOf 9 m)))

/-- RNE(x2 × c2 + RNE(x1 × c1)). -/
def mergeSum (x1 c1 x2 c2 : Nat) : Nat :=
  rne 9 (((numOf 9 x2).mul (numOf 9 c2)).add (round32 ((numOf 9 x1).mul (numOf 9 c1))))

/-- MERGE of two triples with a one-element o. -/
def merge3 (a b : Nat × Nat × Nat) : Nat × Nat × Nat :=
  let m := rne 9 ((numOf 9 a.1).max (numOf 9 b.1))
  let c1 := mergeScale a.1 m
  let c2 := mergeScale b.1 m
  (m, mergeSum a.2.1 c1 b.2.1 c2, mergeSum a.2.2 c1 b.2.2 c2)

/-! ## What the pool does with a register command -/

/-- Sources 0 and up for the active elements of an expand. -/
def expand (act : Nat → Bool) (src : Nat → Nat) : List Nat → Nat → List Elt
  | [], _ => []
  | i :: is, n => if act i then .val (src n) :: expand act src is (n + 1) else .off :: expand act src is n

/-- Performs a command that touches registers of its context alone: the context after it, and the scalar
result if there is one. (DEDUCED, log entry 28.) -/
def performV (c : Ctx) (q : VCmd) : Ctx × Option W64 :=
  let g := c.laneCount
  let elt (r w i : Nat) : Nat := eltAt (c.vbits r) w i
  match q.op with
  | .elem f d a b e fmt =>
    let w := fmtWidth fmt
    let vl := vlen g fmt
    let v (i : Nat) : Nat := vfun f fmt (elt a w i) (elt b w i) (elt e w i)
    if f.isCmp then (c.putElts q d 1 (c.fill q vl v ++ List.replicate (32 * g - vl) .tail), none)
    else (c.putElts q d w (c.fill q vl v), none)
  | .mask f d a b =>
    let v (i : Nat) : Elt := .val (match f with
      | 0 => elt a 1 i &&& elt b 1 i
      | 1 => elt a 1 i ||| elt b 1 i
      | 2 => elt a 1 i ^^^ elt b 1 i
      | _ => 1 - elt a 1 i)
    (c.putElts q d 1 ((List.range (32 * g)).map v), none)
  | .mpop _ a fmt =>
    let n := if fmt = 0 then 32 * g else vlen g fmt
    (c, some (BitVec.ofNat 64 ((List.range n).filter fun i => elt a 1 i == 1 && c.isActive q i).length))
  | .mfirst _ a fmt =>
    let n := if fmt = 0 then 32 * g else vlen g fmt
    (c, some (match (List.range n).find? fun i => elt a 1 i == 1 && c.isActive q i with
      | some i => BitVec.ofNat 64 i
      | none => ones64))
  | .iota d fmt => (c.putElts q d (fmtWidth fmt) (c.fill q (vlen g fmt) fun i => i), none)
  | .mov d a fmt =>
    let w := fmtWidth fmt
    (c.putElts q d w (c.fill q (vlen g fmt) (elt a w)), none)
  | .bcast d fmt x =>
    if fmt = 10 then (c.putElts q d 1 (c.fill q (32 * g) fun _ => x.toNat % 2), none)
    else (c.putElts q d (fmtWidth fmt) (c.fill q (vlen g fmt) fun _ => x.toNat), none)
  | .extr _ a fmt i =>
    let w := fmtWidth fmt
    (c, some (if vlen g fmt ≤ i.toNat then ones64
      else if isIntFmt fmt then BitVec.ofInt 64 (sintOf w (elt a w i.toNat)) else BitVec.ofNat 64 (elt a w i.toNat)))
  | .ins d fmt x i =>
    (c.putElts q d (fmtWidth fmt) ((List.range (vlen g fmt)).map fun j => if j = i.toNat then .val x.toNat else .keep), none)
  | .perm d a b fmt =>
    let w := fmtWidth fmt
    let vl := vlen g fmt
    (c.putElts q d w (c.fill q vl fun i => let j := elt b w i; if j < vl then elt a w j else 0), none)
  | .slideu d a fmt n =>
    let w := fmtWidth fmt
    (c.putElts q d w ((List.range (vlen g fmt)).map fun i =>
      if i < n.toNat then .tail else if c.isActive q i then .val (elt a w (i - n.toNat)) else .off), none)
  | .slided d a fmt n =>
    let w := fmtWidth fmt
    let vl := vlen g fmt
    (c.putElts q d w ((List.range vl).map fun i =>
      if vl ≤ i + n.toNat then .tail else if c.isActive q i then .val (elt a w (i + n.toNat)) else .off), none)
  | .compr d a fmt =>
    let w := fmtWidth fmt
    let vl := vlen g fmt
    let got := ((List.range vl).filter (c.isActive q)).map fun i => Elt.val (elt a w i)
    (c.putElts q d w (got ++ List.replicate (vl - got.length) .tail), none)
  | .expnd d a fmt =>
    let w := fmtWidth fmt
    (c.putElts q d w (expand (c.isActive q) (elt a w) (List.range (vlen g fmt)) 0), none)
  | .red f _ a fmt start =>
    let w := fmtWidth fmt
    (c, some (reduceElts f fmt start (((List.range (vlen g fmt)).filter (c.isActive q)).map (elt a w))))
  | .cvtp d a src fmt scale sat sr =>
    let w := fmtWidth src
    let vl := vlen g src
    let r := (ratio src fmt).getD 1
    let x (j : Nat) : Nat := elt (a + j / vl) w (j % vl)
    let (c, es) := c.convAll q sr (fun j => j % vl * w / 32) (fun rd j => convElt fmt src false scale sat rd (x j)) (List.range (r * vl))
    (c.putElts q d (fmtWidth fmt) es, none)
  | .cvtu d a src fmt scale sat sr =>
    let w := fmtWidth src
    let vl := vlen g fmt
    let r := (ratioUp fmt src).getD 1
    let (c, es) := c.convAll q sr (fun j => j * w / 32) (fun rd j => convElt fmt src true scale sat rd (elt a w j)) (List.range (r * vl))
    (c.putGroup q (fmtWidth fmt) vl r d es, none)
  | .cvti d a src fmt sr =>
    let w := fmtWidth src
    let (c, es) := c.convAll q sr (fun j => j * w / 32) (fun rd j => convEqual fmt src rd (elt a w j)) (List.range (vlen g fmt))
    (c.putElts q d w es, none)
  | .qscale d e a src fmt sr keep =>
    let w := fmtWidth src
    let vl := vlen g src
    let r := (ratio src fmt).getD 1
    let emax := if fmt = 5 then 8 else if fmt = 6 then 15 else 2
    let x (j : Nat) : Num := numOf src (elt (a + j / vl) w (j % vl))
    let blocks := r * vl / 32
    let scales := (List.range blocks).map fun b => blockScale emax ((List.range 32).map fun i => x (32 * b + i))
    let one (rd : Rounding) (j : Nat) : Nat :=
      let s := scales.getD (j / 32) 127
      if s = 255 then encodeNum fmt rd true .nan else encodeNum fmt rd true ((x j).scale (127 - s))
    let (c, es) := c.convAll q sr (fun j => j % vl * w / 32) one (List.range (r * vl))
    let c := c.putElts q d (fmtWidth fmt) es
    (if keep then c else c.putElts q e 8 (scales.map .val ++ List.replicate (4 * g - blocks) .tail), none)
  | .merge d a b =>
    let t (r i : Nat) : Nat × Nat × Nat := (elt r 32 i, elt (r + 1) 32 i, elt (r + 2) 32 i)
    let m (i : Nat) : Nat × Nat × Nat := merge3 (t a i) (t b i)
    let c1 := c.fill q g fun i => (m i).1
    let c2 := c.fill q g fun i => (m i).2.1
    let c3 := c.fill q g fun i => (m i).2.2
    (((c.putElts q d 32 c1).putElts q (d + 1) 32 c2).putElts q (d + 2) 32 c3, none)
  | .tag _ | .load _ _ _ _ | .store _ _ _ _ | .claim _ _ | .reneg _ | .release => (c, none)

/-! ## Claims (R254, R255, R131) -/

/-- Register storage that the contexts of a cluster leave free, in blocks. -/
def State.blocksFree (s : State) (cl : Nat) : Nat := 768 - s.poolUsed cl

/-- Blocks that the windows of helpers in Starting want, of those that `p` picks. -/
def State.startingBlocks (s : State) (cl : Nat) (p : Ctx → Bool) : Nat :=
  ((s.ctxs.filter fun q => clusterOf (coreOf q.1) == cl && q.2.life == .starting && p q.2).map fun q => q.2.window).sum

/-- The largest grant that a request and the storage allow, once the waiting windows are served (R255). -/
def State.grantFor (s : State) (ctx : Nat) : Nat :=
  let c := s.ctx ctx
  let cl := clusterOf (coreOf ctx)
  let room := (s.blocksFree cl - s.startingBlocks cl fun _ => true) + c.window * c.laneCount / 32
  max 32 (min c.reqLanes (32 * (room / max 1 c.window)))

/-- Elements at or beyond the smaller lane count become all ones (R131); the holds are dropped (R253). -/
def Ctx.regrant (c : Ctx) (g : Nat) : Ctx :=
  let old := c.laneCount
  if old = g then { c with lanes := g }
  else
    let n := 32 * min old g
    let vs := (List.range c.window).foldl (fun vs r =>
      vs.put r (BitVec.ofNat 8192 (c.vbits r % 2 ^ n + (2 ^ 8192 - 2 ^ n)))) c.vregs
    { c with lanes := g, vregs := vs, holds := [] }

/-- Does a helper of a cluster wait in Starting for a window that does not fit? -/
def State.windowWaits (s : State) (cl : Nat) : Bool :=
  decide (s.blocksFree cl < s.startingBlocks cl fun _ => true)

/-- Raises the yield request of a cluster. -/
def State.raiseYield (s : State) (cl : Nat) : State :=
  { s with ctxs := s.ctxs.map fun (p : Nat × Ctx) =>
      if clusterOf (coreOf p.1) = cl ∧ 32 < p.2.lanes ∧ p.2.short = false then (p.1, { p.2 with yield := true }) else p }

/-- Withdraws it once no claim is short and no window waits. -/
def State.lowerYield (s : State) (cl : Nat) : State :=
  if s.windowWaits cl || (s.ctxs.any fun p => clusterOf (coreOf p.1) == cl && p.2.short) then s
  else { s with ctxs := s.ctxs.map fun (p : Nat × Ctx) =>
      if clusterOf (coreOf p.1) = cl ∧ p.2.yield then (p.1, { p.2 with yield := false }) else p }

/-- VCLAIM at the pool: the state, and the grant. -/
def State.claimLanes (s : State) (ctx : Nat) (x : W64) : State × W64 :=
  let cl := clusterOf (coreOf ctx)
  let req := max 32 (min 256 ((x.toNat + 31) / 32 * 32))
  let s := s.modCtx ctx fun c => { c with reqLanes := req }
  let g := s.grantFor ctx
  let s := s.modCtx ctx fun c => { c.regrant g with short := decide (g < req) }
  ((if g < req then s.raiseYield cl else s).lowerYield cl, BitVec.ofNat 64 g)

/-- VRENEG at the pool. -/
def State.renegLanes (s : State) (ctx : Nat) : State × W64 :=
  let cl := clusterOf (coreOf ctx)
  let c := s.ctx ctx
  if c.lanes = 0 then (s, 32)
  else if c.yield then
    ((s.modCtx ctx fun c => { c.regrant 32 with yield := false, short := false }).lowerYield cl, 32)
  else
    let g := max c.lanes (s.grantFor ctx)
    let s := s.modCtx ctx fun c => { c.regrant g with short := decide (g < c.reqLanes) }
    ((if g < c.reqLanes then s.raiseYield cl else s).lowerYield cl, BitVec.ofNat 64 g)

/-- VRELEASE at the pool. -/
def State.releaseLanes (s : State) (ctx : Nat) : State :=
  (s.modCtx ctx fun c => { c with lanes := 0, yield := false, short := false, holds := [] }).lowerYield (clusterOf (coreOf ctx))

/-! ## Vector memory at the pool (R265, R266) -/

/-- One element read: its bits, and whether its word is poisoned. A cache without capacity is passed by (R66). -/
def State.eltRead (s : State) (cl key : Nat) (cached : Bool) (size : Nat) : State × Nat × Bool :=
  let bad := s.isPoisoned key
  if cached && s.hasCache cl then
    let (s, v) := s.cacheRead cl key size
    (s, v, bad)
  else (s, s.read key size, bad)

/-- One element written: FP4 keeps the other nibble of its byte. -/
def State.eltWrite (s : State) (cl i key : Nat) (cached : Bool) (w v : Nat) : State :=
  let put (s : State) (n v : Nat) : State := if cached && s.hasCache cl then s.cacheWrite cl key n v else s.write key n v
  if w = 4 then
    let (s, old, _) := s.eltRead cl key cached 1
    put s 1 (if i % 2 = 0 then old / 16 * 16 + v % 16 else old % 16 + v % 16 * 16)
  else put s (w / 8) v

/-- Reads the checked elements of a load in ascending order, those apart that it has read before: the state, index and bits of
each element that has data, and whether poison was met. -/
def loadElts (cl w : Nat) (got : Map (Nat × Bool)) : List (Nat × Nat × Bool) → State → State × List (Nat × Nat) × Bool
  | [], s => (s, [], false)
  | (i, key, cached) :: l, s =>
    let (s, v, bad) := match got.find? i with
      | some r => (s, r)
      | none => s.eltRead cl key cached (max 1 (w / 8))
    let (s, vs, bads) := loadElts cl w got l s
    let v := if w = 4 then v / 16 ^ (i % 2) % 16 else v
    (s, (if bad then vs else (i, v) :: vs), bad || bads)

/-- Performs a load or a store. -/
def State.performMem (s : State) (q : VCmd) : State :=
  let cl := clusterOf (coreOf q.ctx)
  let c := s.ctx q.ctx
  match q.op with
  | .load d fmt at_ va =>
    let w := fmtWidth fmt
    let (s, vs, bad) := loadElts cl w q.got at_ s
    let es := (List.range (vlen c.laneCount fmt)).map fun i =>
      match vs.find? (·.1 == i) with
      | some p => Elt.val p.2
      | none => if at_.any (·.1 == i) then .keep else .off
    let s := s.modCtx q.ctx fun c => c.putElts q d w es
    if bad then s.endAsFail q.ctx c.hnum 0x0C va else s
  | .store d fmt at_ _ =>
    let w := fmtWidth fmt
    at_.foldl (fun s p => s.eltWrite cl p.1 p.2.1 p.2.2 w (eltAt (c.vbits d) w p.1)) s
  | _ => s

/-- Performs a vector command whole. (DEDUCED, log entry 9.) -/
def State.performVector (s : State) (q : VCmd) : State :=
  let give (s : State) (v : W64) : State := match q.op.dst? with
    | some k => s.modCtx q.ctx fun c => c.setAt k v
    | none => s
  match q.op with
  | .claim _ x => let (s, v) := s.claimLanes q.ctx x; give s v
  | .reneg _ => let (s, v) := s.renegLanes q.ctx; give s v
  | .release => s.releaseLanes q.ctx
  | .load _ _ _ _ | .store _ _ _ _ => s.performMem q
  | _ =>
    let (c, v) := performV (s.ctx q.ctx) q
    let s := s.setCtx q.ctx c
    match v with
    | some v => give s v
    | none => s

/-! ## Issue (R247, R248, R253, R155) -/

/-- Modifiers of word 1. -/
structure VMod where
  fmt : Nat := 0
  msk : Nat := 0
  mp  : Nat := 0
  tp  : Nat := 0
  ph  : Bit := 0

/-- A tag mismatch: the operand number and the expected code where the manual states them, the code found. -/
structure TagFault where
  operand  : Option Nat
  expected : Option Nat
  found    : Nat

/-- Traps with cause 0x07. Where several operands mismatch, or the manual states no number, TVAL is free
within what is stated (DESIGN CHOICE, log entry 12). -/
def State.tagTrap (s : State) (fs : List TagFault) : State :=
  let (s, n) := s.freshNat
  match fs[n % fs.length]? with
  | none => s
  | some f =>
    let (s, x) := s.freshNat
    s.trap 0x07 (tagTval (f.operand.getD (x % 64)) 1 (f.expected.getD (x / 64 % 16)) f.found)

/-- Traps with cause 0x09: TVAL is one of the registers named outside the window. (DESIGN CHOICE, log entry 12.) (DEDUCED, log entry 31). -/
def State.windowTrap (s : State) (outs : List Nat) : State :=
  let (s, n) := s.freshNat
  s.trap 0x09 (BitVec.ofNat 64 (outs.getD (n % outs.length) (n % 64)))

/-- An operand that must carry a tag. -/
def Ctx.wants (c : Ctx) (operand r expected : Nat) : List TagFault :=
  if c.vtag r = expected then [] else [⟨some operand, some expected, c.vtag r⟩]
/-- The mask operand must carry MASK. -/
def Ctx.wantsMask (c : Ctx) (mk : Nat) : List TagFault := if mk = 0 then [] else c.wants 5 mk 10
/-- An FMT that is not 0 must be the tag of source A. -/
def Ctx.wantsFmt (c : Ctx) (r fmt : Nat) : List TagFault := if fmt = 0 then [] else c.wants 1 r fmt

/-- Does an AREAD of the context still have to deliver its registers (R293)? -/
def State.areadPending (s : State) (ctx : Nat) : Bool :=
  ((s.core (coreOf ctx)).engCmds 0).any fun q => q.issuer == ctx && q.isAread

/-- Operand-buffer holds after an instruction that reads `srcs` (register, marked held) and writes `dsts`. -/
def nextHolds (holds : List (Nat × Nat)) (srcs : List (Nat × Bool)) (dsts : List Nat) : List (Nat × Nat) :=
  let used := holds.filterMap fun h =>
    if srcs.any (·.1 == h.1) then (if h.2 ≤ 1 then none else some (h.1, h.2 - 1)) else some h
  let new := (srcs.filter (·.2)).map fun p => (p.1, 2)
  let all := (used.filter fun h => !(new.any (·.1 == h.1))) ++ new
  let all := all.drop (all.length - 2)
  all.filter fun h => !(dsts.contains h.1)

/-- Places a command in the core's queue, which has room (`vecOp`). `tags` are the result tags. (DEDUCED, log entry 9.) -/
def State.sendV (s : State) (o : Op) (m : VMod) (srcs : List (Nat × Bool)) (tags : List (Nat × Nat)) (op : VOp) : State :=
  if s.areadPending s.cur then s.hold .busy
  else
    let phase := (s.me.phase + m.ph.toNat) % 2
    let q : VCmd := { ctx := s.cur, op := op, msk := m.msk, mp := m.mp, tp := m.tp, phase := phase, window := s.winNum, after := s.me.relMark,
                      num := s.nextId, item := s.me.item }
    let s := (s.modCore s.myCore fun c => { c with vqueue := c.vqueue ++ [q] }).active (s.vfOf s.cur) phase
    let s := s.modMe fun c => { c with vtags := tags.foldl (fun t p => t.put p.1 p.2) c.vtags,
                                       holds := nextHolds c.holds srcs (tags.map (·.1)) }
    let s := s.finish o
    -- a destination of s0 still waits for the result (R151)
    if op.dst? = some 0 then s.modMe fun c => { c with wait := some .busy, waitFrom := s.cycle } else s

/-- Steps 4 and 5 of R155: the window registers named, `regs`, and the tags. -/
def State.vecChecks (regs : List Nat) (faults : Ctx → List TagFault) (body : State → State) (s : State) : State :=
  let outs := regs.filter (s.me.window ≤ ·)
  if outs ≠ [] ∨ s.me.window = 0 then s.windowTrap outs
  else
    let fs := faults s.me
    if fs ≠ [] then s.tagTrap fs else body s

/-- Steps 3 to 5 of R155, then the command, which a full queue keeps from issuing (R247). -/
def vecOp (o : Op) (srcs dsts : List R6) (regs : List Nat) (faults : Ctx → List TagFault) (body : State → State) (s : State) : Result :=
  let _ := o
  s.issueTo none srcs dsts (State.vecChecks regs faults body)

/-- The same for an instruction that is no command. -/
def vecHere (srcs dsts : List R6) (regs : List Nat) (body : State → State) (s : State) : Result :=
  s.issue srcs dsts (State.vecChecks regs (fun _ => []) body)

/-! ## The shared forms -/

/-- The mask register among the registers named. -/
def VMod.mask (m : VMod) : List Nat := if m.msk = 0 then [] else [m.msk]

/-- Majors 0x50 to 0x66 (R257, R169, R168). `srcs`: the data sources A, B, C in order, with their hold marks. -/
def elemOp (o : Op) (f : VFun) (d : R6) (srcs : List (R6 × Bit)) (m : VMod) : State → Result :=
  let rs := srcs.map fun p => p.1.toNat
  let a := rs.getD 0 0
  let opFmt (c : Ctx) : Nat := if m.fmt = 0 then c.vtag a else m.fmt
  let faults (c : Ctx) : List TagFault :=
    (rs.zipIdx.flatMap fun p =>
      if c.vtag p.1 ≠ opFmt c then [⟨some (p.2 + 1), some (opFmt c), c.vtag p.1⟩]
      else if f.accepts (c.vtag p.1) then [] else [⟨some (p.2 + 1), none, c.vtag p.1⟩]) ++ c.wantsMask m.msk
  vecOp o [] [] (d.toNat :: rs ++ m.mask) faults fun s =>
    let fmt := opFmt s.me
    s.sendV o m (srcs.map fun p => (p.1.toNat, p.2 == 1)) [(d.toNat, if f.isCmp then 10 else fmt)]
      (.elem f d.toNat a (rs.getD 1 0) (rs.getD 2 0) fmt)

/-- VMAND, VMOR, VMXOR, VMNOT (R259). -/
def maskOp (o : Op) (f : Nat) (d : R6) (srcs : List R6) : State → Result :=
  let rs := srcs.map (·.toNat)
  vecOp o [] [] (d.toNat :: rs) (fun c => rs.zipIdx.flatMap fun p => c.wants (p.2 + 1) p.1 10) fun s =>
    s.sendV o {} (rs.map fun r => (r, false)) [(d.toNat, 10)] (.mask f d.toNat (rs.getD 0 0) (rs.getD 1 0))

/-- VMPOP and VMFIRST (R260). -/
def maskScanOp (o : Op) (first : Bool) (d a : R6) (m : VMod) : State → Result :=
  vecOp o [] [d] (a.toNat :: m.mask) (fun c => c.wants 1 a.toNat 10 ++ c.wantsMask m.msk) fun s =>
    let k := s.me.regKey d
    s.sendV o m [(a.toNat, false)] [] (if first then .mfirst k a.toNat m.fmt else .mpop k a.toNat m.fmt)

/-- VIOTA (R260). -/
def iotaOp (o : Op) (d : R6) (m : VMod) : State → Result :=
  let fmt := if m.fmt = 0 then 3 else m.fmt
  vecOp o [] [] (d.toNat :: m.mask) (fun c => c.wantsMask m.msk) fun s =>
    s.sendV o m [] [(d.toNat, fmt)] (.iota d.toNat fmt)

/-- VMOV, VCOMPR and VEXPND (R261, R263): D takes A's tag. -/
def moveOp (o : Op) (mk : Nat → Nat → Nat → VOp) (d a : R6) (m : VMod) : State → Result :=
  vecOp o [] [] (d.toNat :: a.toNat :: m.mask) (fun c => c.wantsFmt a.toNat m.fmt ++ c.wantsMask m.msk) fun s =>
    let t := s.me.vtag a.toNat
    s.sendV o m [(a.toNat, false)] [(d.toNat, t)] (mk d.toNat a.toNat t)

/-- VBCAST (R261). -/
def bcastOp (o : Op) (d a : R6) (m : VMod) : State → Result :=
  vecOp o [a] [] (d.toNat :: m.mask) (fun c => c.wantsMask m.msk) fun s =>
    s.sendV o m [] [(d.toNat, m.fmt)] (.bcast d.toNat m.fmt (s.rd a))

/-- VEXTR (R261). -/
def extrOp (o : Op) (d a b : R6) (m : VMod) : State → Result :=
  vecOp o [b] [d] [a.toNat] (fun c => c.wantsFmt a.toNat m.fmt) fun s =>
    s.sendV o m [(a.toNat, false)] [] (.extr (s.me.regKey d) a.toNat (s.me.vtag a.toNat) (s.rd b))

/-- VINS (R261): D keeps its tag. The manual states no operand number for D. -/
def insOp (o : Op) (d a b : R6) (m : VMod) : State → Result :=
  vecOp o [a, b] [] [d.toNat]
    (fun c => if m.fmt = 0 ∨ c.vtag d.toNat = m.fmt then [] else [⟨none, some m.fmt, c.vtag d.toNat⟩]) fun s =>
    let t := s.me.vtag d.toNat
    s.sendV o m [] [(d.toNat, t)] (.ins d.toNat t (s.rd a) (s.rd b))

/-- The integer format of an element width (R262). -/
def indexFmt (fmt : Nat) : Nat := match fmtWidth fmt with
  | 8 => 1
  | 16 => 2
  | _ => 3

/-- VPERM (R262). An FP4 source has no integer format of its width: the expected code is then free. -/
def permOp (o : Op) (d a b : R6) (m : VMod) : State → Result :=
  vecOp o [] [] (d.toNat :: a.toNat :: b.toNat :: m.mask)
    (fun c => c.wantsFmt a.toNat m.fmt ++
      (if c.vtag a.toNat = 4 then [⟨some 2, none, c.vtag b.toNat⟩] else c.wants 2 b.toNat (indexFmt (c.vtag a.toNat))) ++
      c.wantsMask m.msk) fun s =>
    let t := s.me.vtag a.toNat
    s.sendV o m [(a.toNat, false), (b.toNat, false)] [(d.toNat, t)] (.perm d.toNat a.toNat b.toNat t)

/-- VSLIDEU and VSLIDED (R262). -/
def slideOp (o : Op) (up : Bool) (d a b : R6) (m : VMod) : State → Result :=
  vecOp o [b] [] (d.toNat :: a.toNat :: m.mask) (fun c => c.wantsFmt a.toNat m.fmt ++ c.wantsMask m.msk) fun s =>
    let t := s.me.vtag a.toNat
    s.sendV o m [(a.toNat, false)] [(d.toNat, t)]
      (if up then .slideu d.toNat a.toNat t (s.rd b) else .slided d.toNat a.toNat t (s.rd b))

/-- VREDSUM, VREDMAX, VREDMIN (R264). -/
def redOp (o : Op) (f : VRed) (d a b : R6) (m : VMod) : State → Result :=
  vecOp o [b] [d] (a.toNat :: m.mask)
    (fun c => c.wantsFmt a.toNat m.fmt ++
      (if isIntFmt (c.vtag a.toNat) || isFloatFmt (c.vtag a.toNat) then [] else [⟨some 1, none, c.vtag a.toNat⟩]) ++
      c.wantsMask m.msk) fun s =>
    s.sendV o m [(a.toNat, false)] [] (.red f (s.me.regKey d) a.toNat (s.me.vtag a.toNat) (s.rd b))

/-- VTAG (R270). -/
def vtagOp (o : Op) (d : R6) (fmt : Nat) : State → Result :=
  vecOp o [] [] [d.toNat] (fun _ => []) fun s => s.sendV o {} [] [(d.toNat, fmt)] (.tag d.toNat)

/-- VTAGR (R270): from the core's copy, a latency of 1 cycle. -/
def vtagrOp (o : Op) (d a : R6) : State → Result :=
  vecHere [] [d] [a.toNat] fun s => (s.wr d (BitVec.ofNat 64 (s.me.vtag a.toNat))).finish o

/-- A group of `r` registers from `n` up. (DEDUCED, log entry 31.) -/
def groupOf (n r : Nat) : List Nat := (List.range r).map (n + ·)

/-- VCVTP and VCVTU (R252, R267). A source outside the window is the one that cause 0x09 reports. (DEDUCED, log entry 28.) -/
def cvtOp (o : Op) (up : Bool) (d a b : R6) (m : VMod) (sat sr : Bit) (s : State) : Result :=
  let t := s.me.vtag a.toNat
  let inside := decide (a.toNat < s.me.window)
  let pair := if inside then (if up then ratioUp m.fmt t else ratio t m.fmt) else none
  let r := pair.getD 1
  -- step 1: the group ends at v47 or below, and B names s0 on an E8M0 pair
  if 48 < (if up then d.toNat else a.toNat) + r ∨ (pair.isSome ∧ t = 11 ∧ b ≠ 0) then .next (s.trap 0x01 (s.word0.setWidth 64))
  else
    let ds := if up then groupOf d.toNat r else [d.toNat]
    let as := if up then [a.toNat] else groupOf a.toNat r
    let expected := if isIntFmt m.fmt then 3 else 9
    vecOp o [b] [] (if inside then ds ++ as ++ m.mask else [a.toNat])
      (fun c => (if pair.isNone then [⟨some 1, some expected, t⟩]
          else as.flatMap fun x => if c.vtag x = t then [] else [⟨some 1, some t, c.vtag x⟩]) ++ c.wantsMask m.msk)
      (fun s =>
        let scale := if b = 0 then none else some ((s.rd b).toNat % 256)
        s.sendV o m [(a.toNat, false)] (ds.map fun x => (x, m.fmt))
          (if up then .cvtu d.toNat a.toNat t m.fmt scale (sat == 1) (sr == 1)
           else .cvtp d.toNat a.toNat t m.fmt scale (sat == 1) (sr == 1))) s

/-- VCVTI (R268). Where FMT has two partners the expected code is free. -/
def cvtiOp (o : Op) (d a : R6) (m : VMod) (sr : Bit) : State → Result :=
  let partner : Option Nat := match m.fmt with
    | 9 => some 3
    | 3 => some 9
    | 7 | 8 => some 2
    | 5 | 6 => some 1
    | _ => none
  vecOp o [] [] (d.toNat :: a.toNat :: m.mask)
    (fun c => (if equalPair m.fmt (c.vtag a.toNat) then [] else [⟨some 1, partner, c.vtag a.toNat⟩]) ++ c.wantsMask m.msk) fun s =>
    s.sendV o m [(a.toNat, false)] [(d.toNat, m.fmt)] (.cvti d.toNat a.toNat (s.me.vtag a.toNat) m.fmt (sr == 1))

/-- VQSCALE (R252, R269). The manual states no expected code for its source group. (DESIGN CHOICE, log entry 12.) -/
def qscaleOp (o : Op) (d a e : R6) (m : VMod) (sr : Bit) (s : State) : Result :=
  let t := s.me.vtag a.toNat
  let pair := if a.toNat < s.me.window then ratio t m.fmt else none
  let r := pair.getD 1
  if 48 < a.toNat + r then .next (s.trap 0x01 (s.word0.setWidth 64))
  else
    let as := groupOf a.toNat r
    vecOp o [] [] (if a.toNat < s.me.window then [d.toNat, e.toNat] ++ as else [a.toNat])
      (fun c => if pair.isNone then [⟨some 1, none, t⟩] else as.flatMap fun x => if c.vtag x = t then [] else [⟨some 1, some t, c.vtag x⟩])
      (fun s =>
        let (s, n) := if d = e then s.freshNat else (s, 0)
        let keep := d = e ∧ n % 2 = 0
        s.sendV o m [(a.toNat, false)] (if keep then [(d.toNat, m.fmt)] else [(d.toNat, m.fmt), (e.toNat, 11)])
          (.qscale d.toNat e.toNat a.toNat t m.fmt (sr == 1) keep)) s

/-- VMERGE3 (R271). -/
def mergeOp (o : Op) (d a b : R6) (m : VMod) : State → Result :=
  let as := groupOf a.toNat 3
  let bs := groupOf b.toNat 3
  let ds := groupOf d.toNat 3
  vecOp o [] [] (ds ++ as ++ bs ++ m.mask)
    (fun c => (as.flatMap fun x => c.wants 1 x 9) ++ (bs.flatMap fun x => c.wants 2 x 9) ++ c.wantsMask m.msk) fun s =>
    s.sendV o m [(a.toNat, false), (b.toNat, false)] (ds.map fun x => (x, 9)) (.merge d.toNat a.toNat b.toNat)

/-- VSYNC (R272). -/
def vsyncOp (o : Op) : State → Result :=
  vecHere [] [] [] fun s => if s.busy s.cur then s.hold .busy else s.finish o

/-- VCLAIM, VRENEG and VRELEASE (R254). -/
def claimOp (o : Op) (d a : Option R6) (mk : State → Nat → VOp) : State → Result :=
  vecOp o a.toList d.toList [] (fun _ => []) fun s =>
    s.sendV o {} [] [] (mk s (match d with
      | some d => s.me.regKey d
      | none => 0))

/-! ## Vector memory at issue (R265, R266) -/

/-- Place in R266's order of a check that an element of `size` bytes from `a` up fails. A cause 0x05 of the range stands first: its
first byte is unmapped, or its end lies outside the first byte's window (R58, R428). -/
def memRank (cause a size : Nat) : Nat :=
  match cause with
  | 0x05 => if placeOf a = .unmapped ∨ (rangeFault a size).any (·.1 == 0x05) = true then 1 else 6
  | 0x06 => 2
  | 0x03 => 3
  | 0x14 => 4
  | _ => 5

/-- What the checks of the elements gave: the elements that passed, and the failures with their ranks. -/
structure VChecked where
  state : State
  good  : List (Nat × Nat × Bool) := []
  bad   : List (Nat × Checked) := []

/-- Checks the elements (index, address) in ascending order. -/
def checkElts (size : Nat) (acc : Acc) : List (Nat × Nat) → VChecked → VChecked
  | [], r => r
  | (i, a) :: l, r =>
    match r.state.checkAccess r.state.cur a size acc false with
    | .ok s x _ =>
      let cached := x.cached && !s.me.mig
      checkElts size acc l { r with state := s, good := r.good ++ [(i, x.key, cached)] }
    | .trap c v => checkElts size acc l { r with bad := r.bad ++ [(memRank c a size, .trap c v)] }
    | .page s f => checkElts size acc l { r with bad := r.bad ++ [(5, .page s f)] }

/-- The failure that comes first in R266's order. -/
def firstBad (l : List (Nat × Checked)) : Option Checked :=
  ((List.range 7).findSome? fun r => l.find? (·.1 == r)).map (·.2)

/-- A vector load or store. `offset` gives element `i`'s distance from the address; `idx` is the index
register of VGATH and VSCAT; `whole` marks VLD and VST, whose address itself must be aligned. (DEDUCED, log entry 9.) -/
def vmemOp (o : Op) (store whole : Bool) (d a : R6) (srcs : List R6) (idx : Option R6) (disp : W64) (m : VMod)
    (offset : State → Nat → Nat → W64) : State → Result :=
  let fmtOf (c : Ctx) : Nat := if store && m.fmt == 0 then c.vtag d.toNat else m.fmt
  let faults (c : Ctx) : List TagFault :=
    (if store ∧ m.fmt ≠ 0 ∧ c.vtag d.toNat ≠ m.fmt then [⟨none, some m.fmt, c.vtag d.toNat⟩] else []) ++
    (match idx with
      | some b => c.wants 2 b.toNat 3
      | none => []) ++ c.wantsMask m.msk
  fun s => if s.me.acquiring then .next (s.hold .acquire) else s |> vecOp o (a :: srcs) [] (d.toNat :: (idx.map (·.toNat)).toList ++ m.mask) faults fun s =>
    if s.busy s.cur then s.hold .busy
    else
      let fmt := fmtOf s.me
      -- the strided and indexed forms move 32-bit elements
      let w := if whole then fmtWidth fmt else 32
      let size := max 1 (w / 8)
      let base := s.rd a + disp
      let q : VCmd := { ctx := s.cur, op := .release, msk := m.msk, mp := 0, tp := 0, phase := 0, window := 0, after := 0 }
      let vl := s.me.laneCount * 32 / w
      let elts := ((List.range vl).filter (s.me.isActive q)).map fun i => (i, (base + offset s i w).toNat)
      let r := checkElts size (if store then accStore else accLoad) elts { state := s }
      let bad := r.bad ++ (if whole ∧ base.toNat % size ≠ 0 then [(3, .trap 0x03 base)] else [])
      match firstBad bad with
      | some (.trap c v) => s.trap c v
      | some (.page _ f) => s.pageTrap f
      | _ =>
        let s := r.state
        let srcsV := (idx.map fun b => (b.toNat, false)).toList
        if store then s.sendV o m srcsV [] (.store d.toNat (if whole then fmt else 3) r.good base)
        else s.sendV o m srcsV [(d.toNat, m.fmt)] (.load d.toNat (if whole then fmt else 3) r.good base)

def unitOffset (_ : State) (i w : Nat) : W64 := BitVec.ofNat 64 (i * w / 8)
def strideOffset (b : R6) (s : State) (i _ : Nat) : W64 := BitVec.ofNat 64 i * s.rd b
def indexOffset (b : R6) (s : State) (i _ : Nat) : W64 :=
  BitVec.ofInt 64 (sintOf 32 (eltAt (s.me.vbits b.toNat) 32 i) * 4)

/-! ## The instructions -/

/-- VMAND (R259). -/
def execVmand (d : R6) (a : R6) (b : R6) (st : St) (s : State) : Result :=
  maskOp ⟨4, st⟩ 0 d [a, b] s

/-- VMAND_X (R259). -/
def execVmandX (d : R6) (a : R6) (b : R6) (fmt : BitVec 4) (st : St) (s : State) : Result :=
  let _ := fmt; maskOp ⟨12, st⟩ 0 d [a, b] s

/-- VMOR (R259). -/
def execVmor (d : R6) (a : R6) (b : R6) (st : St) (s : State) : Result :=
  maskOp ⟨4, st⟩ 1 d [a, b] s

/-- VMOR_X (R259). -/
def execVmorX (d : R6) (a : R6) (b : R6) (fmt : BitVec 4) (st : St) (s : State) : Result :=
  let _ := fmt; maskOp ⟨12, st⟩ 1 d [a, b] s

/-- VMXOR (R259). -/
def execVmxor (d : R6) (a : R6) (b : R6) (st : St) (s : State) : Result :=
  maskOp ⟨4, st⟩ 2 d [a, b] s

/-- VMXOR_X (R259). -/
def execVmxorX (d : R6) (a : R6) (b : R6) (fmt : BitVec 4) (st : St) (s : State) : Result :=
  let _ := fmt; maskOp ⟨12, st⟩ 2 d [a, b] s

/-- VMNOT (R259). -/
def execVmnot (d : R6) (a : R6) (st : St) (s : State) : Result :=
  maskOp ⟨4, st⟩ 3 d [a] s

/-- VMNOT_X (R259). -/
def execVmnotX (d : R6) (a : R6) (fmt : BitVec 4) (st : St) (s : State) : Result :=
  let _ := fmt; maskOp ⟨12, st⟩ 3 d [a] s

/-- VMPOP (R260). -/
def execVmpop (d : R6) (a : R6) (st : St) (s : State) : Result :=
  maskScanOp ⟨4, st⟩ false d a {} s

/-- VMPOP_X (R260). -/
def execVmpopX (d : R6) (a : R6) (fmt : BitVec 4) (mk : St) (st : St) (s : State) : Result :=
  maskScanOp ⟨12, st⟩ false d a { fmt := fmt.toNat, msk := mk.toNat } s

/-- VMFIRST (R260). -/
def execVmfirst (d : R6) (a : R6) (st : St) (s : State) : Result :=
  maskScanOp ⟨4, st⟩ true d a {} s

/-- VMFIRST_X (R260). -/
def execVmfirstX (d : R6) (a : R6) (fmt : BitVec 4) (mk : St) (st : St) (s : State) : Result :=
  maskScanOp ⟨12, st⟩ true d a { fmt := fmt.toNat, msk := mk.toNat } s

/-- VIOTA (R260). -/
def execViota (d : R6) (st : St) (s : State) : Result :=
  iotaOp ⟨4, st⟩ d {} s

/-- VIOTA_X (R260). -/
def execViotaX (d : R6) (fmt : BitVec 4) (mk : St) (mp : Bit) (tp : Bit) (st : St) (s : State) : Result :=
  iotaOp ⟨12, st⟩ d { fmt := fmt.toNat, msk := mk.toNat, mp := mp.toNat, tp := tp.toNat } s

/-- VMOV (R261). -/
def execVmov (d : R6) (a : R6) (st : St) (s : State) : Result :=
  moveOp ⟨4, st⟩ .mov d a {} s

/-- VMOV_X (R261). -/
def execVmovX (d : R6) (a : R6) (fmt : BitVec 4) (mk : St) (mp : Bit) (tp : Bit) (st : St) (s : State) : Result :=
  moveOp ⟨12, st⟩ .mov d a { fmt := fmt.toNat, msk := mk.toNat, mp := mp.toNat, tp := tp.toNat } s

/-- VBCAST (R261). -/
def execVbcast (d : R6) (a : R6) (st : St) (s : State) : Result :=
  bcastOp ⟨4, st⟩ d a {} s

/-- VBCAST_X (R261). -/
def execVbcastX (d : R6) (a : R6) (fmt : BitVec 4) (mk : St) (mp : Bit) (tp : Bit) (st : St) (s : State) : Result :=
  bcastOp ⟨12, st⟩ d a { fmt := fmt.toNat, msk := mk.toNat, mp := mp.toNat, tp := tp.toNat } s

/-- VEXTR (R261). -/
def execVextr (d : R6) (a : R6) (b : R6) (st : St) (s : State) : Result :=
  extrOp ⟨4, st⟩ d a b {} s

/-- VEXTR_X (R261). -/
def execVextrX (d : R6) (a : R6) (b : R6) (fmt : BitVec 4) (st : St) (s : State) : Result :=
  extrOp ⟨12, st⟩ d a b { fmt := fmt.toNat } s

/-- VINS (R261). -/
def execVins (d : R6) (a : R6) (b : R6) (st : St) (s : State) : Result :=
  insOp ⟨4, st⟩ d a b {} s

/-- VINS_X (R261). -/
def execVinsX (d : R6) (a : R6) (b : R6) (fmt : BitVec 4) (st : St) (s : State) : Result :=
  insOp ⟨12, st⟩ d a b { fmt := fmt.toNat } s

/-- VPERM (R262). -/
def execVperm (d : R6) (a : R6) (b : R6) (st : St) (s : State) : Result :=
  permOp ⟨4, st⟩ d a b {} s

/-- VPERM_X (R262). -/
def execVpermX (d : R6) (a : R6) (b : R6) (fmt : BitVec 4) (mk : St) (mp : Bit) (tp : Bit) (st : St) (s : State) : Result :=
  permOp ⟨12, st⟩ d a b { fmt := fmt.toNat, msk := mk.toNat, mp := mp.toNat, tp := tp.toNat } s

/-- VSLIDEU (R262). -/
def execVslideu (d : R6) (a : R6) (b : R6) (st : St) (s : State) : Result :=
  slideOp ⟨4, st⟩ true d a b {} s

/-- VSLIDEU_X (R262). -/
def execVslideuX (d : R6) (a : R6) (b : R6) (fmt : BitVec 4) (mk : St) (mp : Bit) (tp : Bit) (st : St) (s : State) : Result :=
  slideOp ⟨12, st⟩ true d a b { fmt := fmt.toNat, msk := mk.toNat, mp := mp.toNat, tp := tp.toNat } s

/-- VSLIDED (R262). -/
def execVslided (d : R6) (a : R6) (b : R6) (st : St) (s : State) : Result :=
  slideOp ⟨4, st⟩ false d a b {} s

/-- VSLIDED_X (R262). -/
def execVslidedX (d : R6) (a : R6) (b : R6) (fmt : BitVec 4) (mk : St) (mp : Bit) (tp : Bit) (st : St) (s : State) : Result :=
  slideOp ⟨12, st⟩ false d a b { fmt := fmt.toNat, msk := mk.toNat, mp := mp.toNat, tp := tp.toNat } s

/-- VCOMPR (R263). -/
def execVcompr (d : R6) (a : R6) (st : St) (s : State) : Result :=
  moveOp ⟨4, st⟩ .compr d a {} s

/-- VCOMPR_X (R263). -/
def execVcomprX (d : R6) (a : R6) (fmt : BitVec 4) (mk : St) (tp : Bit) (st : St) (s : State) : Result :=
  moveOp ⟨12, st⟩ .compr d a { fmt := fmt.toNat, msk := mk.toNat, tp := tp.toNat } s

/-- VEXPND (R263). -/
def execVexpnd (d : R6) (a : R6) (st : St) (s : State) : Result :=
  moveOp ⟨4, st⟩ .expnd d a {} s

/-- VEXPND_X (R263). -/
def execVexpndX (d : R6) (a : R6) (fmt : BitVec 4) (mk : St) (mp : Bit) (tp : Bit) (st : St) (s : State) : Result :=
  moveOp ⟨12, st⟩ .expnd d a { fmt := fmt.toNat, msk := mk.toNat, mp := mp.toNat, tp := tp.toNat } s

/-- VREDSUM (R264). -/
def execVredsum (d : R6) (a : R6) (b : R6) (st : St) (s : State) : Result :=
  redOp ⟨4, st⟩ .sum d a b {} s

/-- VREDSUM_X (R264). -/
def execVredsumX (d : R6) (a : R6) (b : R6) (fmt : BitVec 4) (mk : St) (st : St) (s : State) : Result :=
  redOp ⟨12, st⟩ .sum d a b { fmt := fmt.toNat, msk := mk.toNat } s

/-- VREDMAX (R264). -/
def execVredmax (d : R6) (a : R6) (b : R6) (st : St) (s : State) : Result :=
  redOp ⟨4, st⟩ .max d a b {} s

/-- VREDMAX_X (R264). -/
def execVredmaxX (d : R6) (a : R6) (b : R6) (fmt : BitVec 4) (mk : St) (st : St) (s : State) : Result :=
  redOp ⟨12, st⟩ .max d a b { fmt := fmt.toNat, msk := mk.toNat } s

/-- VREDMIN (R264). -/
def execVredmin (d : R6) (a : R6) (b : R6) (st : St) (s : State) : Result :=
  redOp ⟨4, st⟩ .min d a b {} s

/-- VREDMIN_X (R264). -/
def execVredminX (d : R6) (a : R6) (b : R6) (fmt : BitVec 4) (mk : St) (st : St) (s : State) : Result :=
  redOp ⟨12, st⟩ .min d a b { fmt := fmt.toNat, msk := mk.toNat } s

/-- VLD (R265, R266). -/
def execVld (d : R6) (a : R6) (st : St) (s : State) : Result :=
  vmemOp ⟨4, st⟩ false true d a [] none 0 {} unitOffset s

/-- VLD_X (R265, R266). -/
def execVldX (d : R6) (a : R6) (fmt : BitVec 4) (mk : St) (mp : Bit) (tp : Bit) (ph : Bit) (imm : W32) (st : St) (s : State) : Result :=
  vmemOp ⟨12, st⟩ false true d a [] none (sext32 imm) { fmt := fmt.toNat, msk := mk.toNat, mp := mp.toNat, tp := tp.toNat, ph := ph } unitOffset s

/-- VST (R265, R266). -/
def execVst (d : R6) (a : R6) (st : St) (s : State) : Result :=
  vmemOp ⟨4, st⟩ true true d a [] none 0 {} unitOffset s

/-- VST_X (R265, R266). -/
def execVstX (d : R6) (a : R6) (fmt : BitVec 4) (mk : St) (ph : Bit) (imm : W32) (st : St) (s : State) : Result :=
  vmemOp ⟨12, st⟩ true true d a [] none (sext32 imm) { fmt := fmt.toNat, msk := mk.toNat, ph := ph } unitOffset s

/-- VLDS (R265, R266). -/
def execVlds (d : R6) (a : R6) (b : R6) (st : St) (s : State) : Result :=
  vmemOp ⟨4, st⟩ false false d a [b] none 0 {} (strideOffset b) s

/-- VLDS_X (R265, R266). -/
def execVldsX (d : R6) (a : R6) (b : R6) (fmt : BitVec 4) (mk : St) (mp : Bit) (tp : Bit) (ph : Bit) (imm : W32) (st : St) (s : State) : Result :=
  vmemOp ⟨12, st⟩ false false d a [b] none (sext32 imm) { fmt := fmt.toNat, msk := mk.toNat, mp := mp.toNat, tp := tp.toNat, ph := ph } (strideOffset b) s

/-- VSTS (R265, R266). -/
def execVsts (d : R6) (a : R6) (b : R6) (st : St) (s : State) : Result :=
  vmemOp ⟨4, st⟩ true false d a [b] none 0 {} (strideOffset b) s

/-- VSTS_X (R265, R266). -/
def execVstsX (d : R6) (a : R6) (b : R6) (fmt : BitVec 4) (mk : St) (ph : Bit) (imm : W32) (st : St) (s : State) : Result :=
  vmemOp ⟨12, st⟩ true false d a [b] none (sext32 imm) { fmt := fmt.toNat, msk := mk.toNat, ph := ph } (strideOffset b) s

/-- VGATH (R265, R266). -/
def execVgath (d : R6) (a : R6) (b : R6) (st : St) (s : State) : Result :=
  vmemOp ⟨4, st⟩ false false d a [] (some b) 0 {} (indexOffset b) s

/-- VGATH_X (R265, R266). -/
def execVgathX (d : R6) (a : R6) (b : R6) (fmt : BitVec 4) (mk : St) (mp : Bit) (tp : Bit) (ph : Bit) (imm : W32) (st : St) (s : State) : Result :=
  vmemOp ⟨12, st⟩ false false d a [] (some b) (sext32 imm) { fmt := fmt.toNat, msk := mk.toNat, mp := mp.toNat, tp := tp.toNat, ph := ph } (indexOffset b) s

/-- VSCAT (R265, R266). -/
def execVscat (d : R6) (a : R6) (b : R6) (st : St) (s : State) : Result :=
  vmemOp ⟨4, st⟩ true false d a [] (some b) 0 {} (indexOffset b) s

/-- VSCAT_X (R265, R266). -/
def execVscatX (d : R6) (a : R6) (b : R6) (fmt : BitVec 4) (mk : St) (ph : Bit) (imm : W32) (st : St) (s : State) : Result :=
  vmemOp ⟨12, st⟩ true false d a [] (some b) (sext32 imm) { fmt := fmt.toNat, msk := mk.toNat, ph := ph } (indexOffset b) s

/-- VCVTP (R267). -/
def execVcvtp (d : R6) (a : R6) (b : R6) (fmt : BitVec 4) (mk : St) (mp : Bit) (tp : Bit) (sat : Bit) (sr : Bit) (st : St) (s : State) : Result :=
  cvtOp ⟨12, st⟩ false d a b { fmt := fmt.toNat, msk := mk.toNat, mp := mp.toNat, tp := tp.toNat } sat sr s

/-- VCVTU (R267). -/
def execVcvtu (d : R6) (a : R6) (b : R6) (fmt : BitVec 4) (mk : St) (mp : Bit) (tp : Bit) (sat : Bit) (sr : Bit) (st : St) (s : State) : Result :=
  cvtOp ⟨12, st⟩ true d a b { fmt := fmt.toNat, msk := mk.toNat, mp := mp.toNat, tp := tp.toNat } sat sr s

/-- VCVTI (R268). -/
def execVcvti (d : R6) (a : R6) (fmt : BitVec 4) (mk : St) (mp : Bit) (tp : Bit) (sat : Bit) (sr : Bit) (st : St) (s : State) : Result :=
  let _ := sat; cvtiOp ⟨12, st⟩ d a { fmt := fmt.toNat, msk := mk.toNat, mp := mp.toNat, tp := tp.toNat } sr s

/-- VQSCALE (R269). -/
def execVqscale (d : R6) (a : R6) (e : R6) (fmt : BitVec 4) (tp : Bit) (sat : Bit) (sr : Bit) (st : St) (s : State) : Result :=
  let _ := sat; qscaleOp ⟨12, st⟩ d a e { fmt := fmt.toNat, tp := tp.toNat } sr s

/-- VTAG (R270). -/
def execVtag (d : R6) (st : St) (s : State) : Result :=
  vtagOp ⟨4, st⟩ d 0 s

/-- VTAG_X (R270). -/
def execVtagX (d : R6) (fmt : BitVec 4) (st : St) (s : State) : Result :=
  vtagOp ⟨12, st⟩ d fmt.toNat s

/-- VTAGR (R270). -/
def execVtagr (d : R6) (a : R6) (st : St) (s : State) : Result :=
  vtagrOp ⟨4, st⟩ d a s

/-- VTAGR_X (R270). -/
def execVtagrX (d : R6) (a : R6) (st : St) (s : State) : Result :=
  vtagrOp ⟨12, st⟩ d a s

/-- VMERGE3 (R271). -/
def execVmerge3 (d : R6) (a : R6) (b : R6) (st : St) (s : State) : Result :=
  mergeOp ⟨4, st⟩ d a b {} s

/-- VMERGE3_X (R271). -/
def execVmerge3X (d : R6) (a : R6) (b : R6) (fmt : BitVec 4) (mk : St) (mp : Bit) (tp : Bit) (st : St) (s : State) : Result :=
  mergeOp ⟨12, st⟩ d a b { fmt := fmt.toNat, msk := mk.toNat, mp := mp.toNat, tp := tp.toNat } s

/-- VSYNC (R272). -/
def execVsync (st : St) (s : State) : Result :=
  vsyncOp ⟨4, st⟩ s

/-- VSYNC_X (R272). -/
def execVsyncX (st : St) (s : State) : Result :=
  vsyncOp ⟨12, st⟩ s

/-- VCLAIM (R254). -/
def execVclaim (d : R6) (a : R6) (st : St) (s : State) : Result :=
  claimOp ⟨4, st⟩ (some d) (some a) (fun s k => .claim k (s.rd a)) s

/-- VRENEG (R254). -/
def execVreneg (d : R6) (st : St) (s : State) : Result :=
  claimOp ⟨4, st⟩ (some d) none (fun _ k => .reneg k) s

/-- VRELEASE (R254). -/
def execVrelease (st : St) (s : State) : Result :=
  claimOp ⟨4, st⟩ none none (fun _ _ => .release) s

/-- VADD (R257). -/
def execVadd (d : R6) (a : R6) (b : R6) (ha : Bit) (hb : Bit) (st : St) (s : State) : Result :=
  elemOp ⟨4, st⟩ .add d [(a, ha), (b, hb)] {} s

/-- VADD_X (R257). -/
def execVaddX (d : R6) (a : R6) (b : R6) (ha : Bit) (hb : Bit) (fmt : BitVec 4) (mk : St) (mp : Bit) (tp : Bit) (st : St) (s : State) : Result :=
  elemOp ⟨12, st⟩ .add d [(a, ha), (b, hb)] { fmt := fmt.toNat, msk := mk.toNat, mp := mp.toNat, tp := tp.toNat } s

/-- VSUB (R257). -/
def execVsub (d : R6) (a : R6) (b : R6) (ha : Bit) (hb : Bit) (st : St) (s : State) : Result :=
  elemOp ⟨4, st⟩ .sub d [(a, ha), (b, hb)] {} s

/-- VSUB_X (R257). -/
def execVsubX (d : R6) (a : R6) (b : R6) (ha : Bit) (hb : Bit) (fmt : BitVec 4) (mk : St) (mp : Bit) (tp : Bit) (st : St) (s : State) : Result :=
  elemOp ⟨12, st⟩ .sub d [(a, ha), (b, hb)] { fmt := fmt.toNat, msk := mk.toNat, mp := mp.toNat, tp := tp.toNat } s

/-- VMUL (R257). -/
def execVmul (d : R6) (a : R6) (b : R6) (ha : Bit) (hb : Bit) (st : St) (s : State) : Result :=
  elemOp ⟨4, st⟩ .mul d [(a, ha), (b, hb)] {} s

/-- VMUL_X (R257). -/
def execVmulX (d : R6) (a : R6) (b : R6) (ha : Bit) (hb : Bit) (fmt : BitVec 4) (mk : St) (mp : Bit) (tp : Bit) (st : St) (s : State) : Result :=
  elemOp ⟨12, st⟩ .mul d [(a, ha), (b, hb)] { fmt := fmt.toNat, msk := mk.toNat, mp := mp.toNat, tp := tp.toNat } s

/-- VFMA (R257). -/
def execVfma (d : R6) (a : R6) (b : R6) (ha : Bit) (hb : Bit) (st : St) (s : State) : Result :=
  elemOp ⟨4, st⟩ .fma d [(a, ha), (b, hb), (0, 0)] {} s

/-- VFMA_X (R257). -/
def execVfmaX (d : R6) (a : R6) (b : R6) (ha : Bit) (hb : Bit) (c : R6) (hc : Bit) (fmt : BitVec 4) (mk : St) (mp : Bit) (tp : Bit) (st : St) (s : State) : Result :=
  elemOp ⟨12, st⟩ .fma d [(a, ha), (b, hb), (c, hc)] { fmt := fmt.toNat, msk := mk.toNat, mp := mp.toNat, tp := tp.toNat } s

/-- VFNMA (R257). -/
def execVfnma (d : R6) (a : R6) (b : R6) (ha : Bit) (hb : Bit) (st : St) (s : State) : Result :=
  elemOp ⟨4, st⟩ .fnma d [(a, ha), (b, hb), (0, 0)] {} s

/-- VFNMA_X (R257). -/
def execVfnmaX (d : R6) (a : R6) (b : R6) (ha : Bit) (hb : Bit) (c : R6) (hc : Bit) (fmt : BitVec 4) (mk : St) (mp : Bit) (tp : Bit) (st : St) (s : State) : Result :=
  elemOp ⟨12, st⟩ .fnma d [(a, ha), (b, hb), (c, hc)] { fmt := fmt.toNat, msk := mk.toNat, mp := mp.toNat, tp := tp.toNat } s

/-- VMIN (R257). -/
def execVmin (d : R6) (a : R6) (b : R6) (ha : Bit) (hb : Bit) (st : St) (s : State) : Result :=
  elemOp ⟨4, st⟩ .min d [(a, ha), (b, hb)] {} s

/-- VMIN_X (R257). -/
def execVminX (d : R6) (a : R6) (b : R6) (ha : Bit) (hb : Bit) (fmt : BitVec 4) (mk : St) (mp : Bit) (tp : Bit) (st : St) (s : State) : Result :=
  elemOp ⟨12, st⟩ .min d [(a, ha), (b, hb)] { fmt := fmt.toNat, msk := mk.toNat, mp := mp.toNat, tp := tp.toNat } s

/-- VMAX (R257). -/
def execVmax (d : R6) (a : R6) (b : R6) (ha : Bit) (hb : Bit) (st : St) (s : State) : Result :=
  elemOp ⟨4, st⟩ .max d [(a, ha), (b, hb)] {} s

/-- VMAX_X (R257). -/
def execVmaxX (d : R6) (a : R6) (b : R6) (ha : Bit) (hb : Bit) (fmt : BitVec 4) (mk : St) (mp : Bit) (tp : Bit) (st : St) (s : State) : Result :=
  elemOp ⟨12, st⟩ .max d [(a, ha), (b, hb)] { fmt := fmt.toNat, msk := mk.toNat, mp := mp.toNat, tp := tp.toNat } s

/-- VABS (R257). -/
def execVabs (d : R6) (a : R6) (ha : Bit) (st : St) (s : State) : Result :=
  elemOp ⟨4, st⟩ .abs d [(a, ha)] {} s

/-- VABS_X (R257). -/
def execVabsX (d : R6) (a : R6) (ha : Bit) (fmt : BitVec 4) (mk : St) (mp : Bit) (tp : Bit) (st : St) (s : State) : Result :=
  elemOp ⟨12, st⟩ .abs d [(a, ha)] { fmt := fmt.toNat, msk := mk.toNat, mp := mp.toNat, tp := tp.toNat } s

/-- VNEG (R257). -/
def execVneg (d : R6) (a : R6) (ha : Bit) (st : St) (s : State) : Result :=
  elemOp ⟨4, st⟩ .neg d [(a, ha)] {} s

/-- VNEG_X (R257). -/
def execVnegX (d : R6) (a : R6) (ha : Bit) (fmt : BitVec 4) (mk : St) (mp : Bit) (tp : Bit) (st : St) (s : State) : Result :=
  elemOp ⟨12, st⟩ .neg d [(a, ha)] { fmt := fmt.toNat, msk := mk.toNat, mp := mp.toNat, tp := tp.toNat } s

/-- VRCP (R258). -/
def execVrcp (d : R6) (a : R6) (ha : Bit) (st : St) (s : State) : Result :=
  elemOp ⟨4, st⟩ .rcp d [(a, ha)] {} s

/-- VRCP_X (R258). -/
def execVrcpX (d : R6) (a : R6) (ha : Bit) (fmt : BitVec 4) (mk : St) (mp : Bit) (tp : Bit) (st : St) (s : State) : Result :=
  elemOp ⟨12, st⟩ .rcp d [(a, ha)] { fmt := fmt.toNat, msk := mk.toNat, mp := mp.toNat, tp := tp.toNat } s

/-- VRSQ (R258). -/
def execVrsq (d : R6) (a : R6) (ha : Bit) (st : St) (s : State) : Result :=
  elemOp ⟨4, st⟩ .rsq d [(a, ha)] {} s

/-- VRSQ_X (R258). -/
def execVrsqX (d : R6) (a : R6) (ha : Bit) (fmt : BitVec 4) (mk : St) (mp : Bit) (tp : Bit) (st : St) (s : State) : Result :=
  elemOp ⟨12, st⟩ .rsq d [(a, ha)] { fmt := fmt.toNat, msk := mk.toNat, mp := mp.toNat, tp := tp.toNat } s

/-- VEXP2 (R258). -/
def execVexp2 (d : R6) (a : R6) (ha : Bit) (st : St) (s : State) : Result :=
  elemOp ⟨4, st⟩ .exp2 d [(a, ha)] {} s

/-- VEXP2_X (R258). -/
def execVexp2X (d : R6) (a : R6) (ha : Bit) (fmt : BitVec 4) (mk : St) (mp : Bit) (tp : Bit) (st : St) (s : State) : Result :=
  elemOp ⟨12, st⟩ .exp2 d [(a, ha)] { fmt := fmt.toNat, msk := mk.toNat, mp := mp.toNat, tp := tp.toNat } s

/-- VLOG2 (R258). -/
def execVlog2 (d : R6) (a : R6) (ha : Bit) (st : St) (s : State) : Result :=
  elemOp ⟨4, st⟩ .log2 d [(a, ha)] {} s

/-- VLOG2_X (R258). -/
def execVlog2X (d : R6) (a : R6) (ha : Bit) (fmt : BitVec 4) (mk : St) (mp : Bit) (tp : Bit) (st : St) (s : State) : Result :=
  elemOp ⟨12, st⟩ .log2 d [(a, ha)] { fmt := fmt.toNat, msk := mk.toNat, mp := mp.toNat, tp := tp.toNat } s

/-- VTANH (R258). -/
def execVtanh (d : R6) (a : R6) (ha : Bit) (st : St) (s : State) : Result :=
  elemOp ⟨4, st⟩ .tanh d [(a, ha)] {} s

/-- VTANH_X (R258). -/
def execVtanhX (d : R6) (a : R6) (ha : Bit) (fmt : BitVec 4) (mk : St) (mp : Bit) (tp : Bit) (st : St) (s : State) : Result :=
  elemOp ⟨12, st⟩ .tanh d [(a, ha)] { fmt := fmt.toNat, msk := mk.toNat, mp := mp.toNat, tp := tp.toNat } s

/-- VAND (R257). -/
def execVand (d : R6) (a : R6) (b : R6) (ha : Bit) (hb : Bit) (st : St) (s : State) : Result :=
  elemOp ⟨4, st⟩ .and d [(a, ha), (b, hb)] {} s

/-- VAND_X (R257). -/
def execVandX (d : R6) (a : R6) (b : R6) (ha : Bit) (hb : Bit) (fmt : BitVec 4) (mk : St) (mp : Bit) (tp : Bit) (st : St) (s : State) : Result :=
  elemOp ⟨12, st⟩ .and d [(a, ha), (b, hb)] { fmt := fmt.toNat, msk := mk.toNat, mp := mp.toNat, tp := tp.toNat } s

/-- VOR (R257). -/
def execVor (d : R6) (a : R6) (b : R6) (ha : Bit) (hb : Bit) (st : St) (s : State) : Result :=
  elemOp ⟨4, st⟩ .or d [(a, ha), (b, hb)] {} s

/-- VOR_X (R257). -/
def execVorX (d : R6) (a : R6) (b : R6) (ha : Bit) (hb : Bit) (fmt : BitVec 4) (mk : St) (mp : Bit) (tp : Bit) (st : St) (s : State) : Result :=
  elemOp ⟨12, st⟩ .or d [(a, ha), (b, hb)] { fmt := fmt.toNat, msk := mk.toNat, mp := mp.toNat, tp := tp.toNat } s

/-- VXOR (R257). -/
def execVxor (d : R6) (a : R6) (b : R6) (ha : Bit) (hb : Bit) (st : St) (s : State) : Result :=
  elemOp ⟨4, st⟩ .xor d [(a, ha), (b, hb)] {} s

/-- VXOR_X (R257). -/
def execVxorX (d : R6) (a : R6) (b : R6) (ha : Bit) (hb : Bit) (fmt : BitVec 4) (mk : St) (mp : Bit) (tp : Bit) (st : St) (s : State) : Result :=
  elemOp ⟨12, st⟩ .xor d [(a, ha), (b, hb)] { fmt := fmt.toNat, msk := mk.toNat, mp := mp.toNat, tp := tp.toNat } s

/-- VSHL (R257). -/
def execVshl (d : R6) (a : R6) (b : R6) (ha : Bit) (hb : Bit) (st : St) (s : State) : Result :=
  elemOp ⟨4, st⟩ .shl d [(a, ha), (b, hb)] {} s

/-- VSHL_X (R257). -/
def execVshlX (d : R6) (a : R6) (b : R6) (ha : Bit) (hb : Bit) (fmt : BitVec 4) (mk : St) (mp : Bit) (tp : Bit) (st : St) (s : State) : Result :=
  elemOp ⟨12, st⟩ .shl d [(a, ha), (b, hb)] { fmt := fmt.toNat, msk := mk.toNat, mp := mp.toNat, tp := tp.toNat } s

/-- VSHR (R257). -/
def execVshr (d : R6) (a : R6) (b : R6) (ha : Bit) (hb : Bit) (st : St) (s : State) : Result :=
  elemOp ⟨4, st⟩ .shr d [(a, ha), (b, hb)] {} s

/-- VSHR_X (R257). -/
def execVshrX (d : R6) (a : R6) (b : R6) (ha : Bit) (hb : Bit) (fmt : BitVec 4) (mk : St) (mp : Bit) (tp : Bit) (st : St) (s : State) : Result :=
  elemOp ⟨12, st⟩ .shr d [(a, ha), (b, hb)] { fmt := fmt.toNat, msk := mk.toNat, mp := mp.toNat, tp := tp.toNat } s

/-- VSHRA (R257). -/
def execVshra (d : R6) (a : R6) (b : R6) (ha : Bit) (hb : Bit) (st : St) (s : State) : Result :=
  elemOp ⟨4, st⟩ .shra d [(a, ha), (b, hb)] {} s

/-- VSHRA_X (R257). -/
def execVshraX (d : R6) (a : R6) (b : R6) (ha : Bit) (hb : Bit) (fmt : BitVec 4) (mk : St) (mp : Bit) (tp : Bit) (st : St) (s : State) : Result :=
  elemOp ⟨12, st⟩ .shra d [(a, ha), (b, hb)] { fmt := fmt.toNat, msk := mk.toNat, mp := mp.toNat, tp := tp.toNat } s

/-- VCMPEQ (R257). -/
def execVcmpeq (d : R6) (a : R6) (b : R6) (ha : Bit) (hb : Bit) (st : St) (s : State) : Result :=
  elemOp ⟨4, st⟩ .cmpeq d [(a, ha), (b, hb)] {} s

/-- VCMPEQ_X (R257). -/
def execVcmpeqX (d : R6) (a : R6) (b : R6) (ha : Bit) (hb : Bit) (fmt : BitVec 4) (mk : St) (mp : Bit) (tp : Bit) (st : St) (s : State) : Result :=
  elemOp ⟨12, st⟩ .cmpeq d [(a, ha), (b, hb)] { fmt := fmt.toNat, msk := mk.toNat, mp := mp.toNat, tp := tp.toNat } s

/-- VCMPLT (R257). -/
def execVcmplt (d : R6) (a : R6) (b : R6) (ha : Bit) (hb : Bit) (st : St) (s : State) : Result :=
  elemOp ⟨4, st⟩ .cmplt d [(a, ha), (b, hb)] {} s

/-- VCMPLT_X (R257). -/
def execVcmpltX (d : R6) (a : R6) (b : R6) (ha : Bit) (hb : Bit) (fmt : BitVec 4) (mk : St) (mp : Bit) (tp : Bit) (st : St) (s : State) : Result :=
  elemOp ⟨12, st⟩ .cmplt d [(a, ha), (b, hb)] { fmt := fmt.toNat, msk := mk.toNat, mp := mp.toNat, tp := tp.toNat } s

/-- VCMPLE (R257). -/
def execVcmple (d : R6) (a : R6) (b : R6) (ha : Bit) (hb : Bit) (st : St) (s : State) : Result :=
  elemOp ⟨4, st⟩ .cmple d [(a, ha), (b, hb)] {} s

/-- VCMPLE_X (R257). -/
def execVcmpleX (d : R6) (a : R6) (b : R6) (ha : Bit) (hb : Bit) (fmt : BitVec 4) (mk : St) (mp : Bit) (tp : Bit) (st : St) (s : State) : Result :=
  elemOp ⟨12, st⟩ .cmple d [(a, ha), (b, hb)] { fmt := fmt.toNat, msk := mk.toNat, mp := mp.toNat, tp := tp.toNat } s

end Sys2Proof.Machine
end

