-- ==== Sys2Proof/Machine/Queues.lean ====
section
/-! DEFINITION. Engine queues and what the engines share: numbers and releases (R98, R99, R129, R300), the
checks of a command's ranges (R301, R428), and an engine's own reads and writes of memory (R277, R301). -/

namespace Sys2Proof.Machine

/-! ## Issue -/

/-- Issues a command to the engine context of a counter: it takes the next number and enters the queue, which
holds two, and has room (`State.issueEng`) but for a command that has waited elsewhere since. `d` receives the number. With `accept` the context waits until the
engine has accepted or checked the command, and the number is written then; with `acq` it waits until the
counter has passed the number (R299). -/
def State.sendEng (s : State) (o : Op) (ctr : Nat) (d : Option R6) (ph : Bit) (op : EngOp) (accept acq : Bool) : State :=
  let core := s.core s.myCore
  let queue := core.queues.get ctr []
  if 2 ≤ queue.length then s.hold (.engine ctr)
  else
    let num := core.nextNum.get ctr 1
    let q := s.command num ph op (!accept) (if accept then d.map s.me.regKey else none)
    let s := s.enterQueue s.myCore ctr q
    let s := match d with
      | some d => if accept then s else s.wr d (BitVec.ofNat 64 num)
      | none => s
    let s := (s.finish o).modMe fun c => { c with ops := if c.startItem.isSome then c.ops ++ [(ctr, num)] else c.ops, relMark := q.after }
    if accept then s.modMe fun c => { c with wait := some (.accept ctr num), waitFrom := s.cycle }
    else if acq then s.modMe fun c => { c with wait := some (.timeline ctr num), waitFrom := s.cycle }
    else s

/-! ## Issue-time checks of ranges -/

/-- A range that a command names: first address, length, alignment, and whether it is written. -/
structure Rng where
  a     : Nat
  len   : Nat
  align : Nat := 1
  w     : Bool := false

/-- A range that is read from, or written to, the weight store against R69, die by die. TVAL is the first address of the
part that fails (DEDUCED, log entry 29). -/
def State.weightRange (s : State) (vf a len : Nat) (write : Bool) : Option Cause :=
  (s.weightFault vf a write).or
    (if a / 0x100000000 = (a + len - 1) / 0x100000000 then none else s.weightFault vf ((a + len - 1) / 0x100000000 * 0x100000000) write)

/-- The first cause of R301 among some ranges, in the order 0x05 unmapped, 0x06, 0x03, 0x14. Where several ranges fail one check, TVAL
names the first that the command lists, the destination first (of BARGEM the source): the manual orders only the 0x03 of CPYT (DESIGN
CHOICE, log entry 62). -/
def State.rangesBefore (s : State) (rs : List Rng) : Option Cause :=
  let c := s.me
  let only (n : Nat) (x : Option Cause) : Option Cause := match x with
    | some (m, v) => if m = n then some (m, v) else none
    | none => none
  (rs.findSome? fun r => only 0x05 (rangeFault r.a r.len)).or <|
  (rs.findSome? fun r => (only 0x06 (rangeFault r.a r.len)).or (if r.len = 0 then none else s.windowFault c r.a r.len)).or <|
  (rs.findSome? fun r => if r.a % r.align = 0 then none else some (0x03, BitVec.ofNat 64 r.a)).or <|
  (rs.findSome? fun r => if r.len = 0 then none else s.berthFault s.cur c r.a r.len)

/-- The last one, 0x05 weight store. `weight`: a write to the weight store traps as well; without it the range is a copy's
destination. -/
def State.rangesWeight (s : State) (weight : Bool) (rs : List Rng) : Option Cause :=
  rs.findSome? fun r => if r.len = 0 ∨ (r.w && !weight) = true then none else s.weightRange (s.vfOf s.cur) r.a r.len r.w

/-- The first cause of R301 among some ranges. -/
def State.rangesFault (s : State) (weight : Bool) (rs : List Rng) : Option Cause := (s.rangesBefore rs).or (s.rangesWeight weight rs)

/-! ## An engine's reads and writes -/

/-- Why an operation does not go on: a fault, a route or another member that it waits for, or source pieces of which some
words lie in a weight-store bank under refresh (R70). -/
inductive EngStop where
  | fault (f : FaultInfo)
  | wait
  | refresh (ps : List (Nat × Nat))

/-- What an attempt to perform an operation gives: its whole effect, or what it is to write, or why it does not go on. -/
inductive EngOut where
  | done (s : State)
  | write (s : State) (p : Plan)
  | stop (e : EngStop)

/-- Splits a range at the boundaries of the smallest page. -/
def chunks (a len : Nat) : List (Nat × Nat) :=
  if len = 0 then []
  else (List.range ((a + len - 1) / 0x10000 - a / 0x10000 + 1)).map fun i =>
    let lo := max a ((a / 0x10000 + i) * 0x10000)
    (lo, min (a + len) ((a / 0x10000 + i + 1) * 0x10000) - lo)

/-- A fault that an engine meets without a walk. -/
def engFault (a : Nat) (acc : Acc) : FaultInfo := { cause := 0x05, va := BitVec.ofNat 64 a, kind := acc.kind, level := 0, pte := 0 }

/-- The key of an address for an engine. Writes to a weight store need loading mode, reads the opposite and the
die's owner (R69). -/
def State.engKey (s : State) (core : Nat) (q : EngCmd) (acc : Acc) (a : Nat) : State × Except FaultInfo Nat :=
  match placeOf a with
  | .translated =>
    match s.translate core q.vf q.asid q.priv a acc with
    | (s, .ok x) => (s, .ok x.key)
    | (s, .error f) => (s, .error f)
  | .local_ o => (s, .ok (localKey core o))
  | .weight d _ =>
    if acc.w then (if (s.die d).loading then (s, .ok a) else (s, .error (engFault a acc)))
    else if (s.die d).loading || s.regBits (tffBase + 0x718) (8 * d + 4) (8 * d) != q.vf then (s, .error (engFault a acc))
    else (s, .ok a)
  | .mesh _ _ | .sram _ _ => (s, .ok a)
  | .unmapped => (s, .error (engFault a acc))

/-- Stands for the key of a page that is passed over, plus its address. -/
def nowhere : Nat := 2 ^ 80
/-- Is a key such a one? -/
def isNowhere (k : Nat) : Bool := decide (nowhere ≤ k)

/-- The key of an address: that of a page whose accesses have all been made stays (R407); where the command passes over what faults,
a key that stands for it. -/
def State.engKeyOr (s : State) (core : Nat) (q : EngCmd) (acc : Acc) (a : Nat) : State × Except FaultInfo Nat :=
  match q.pages.find? fun p => p.1 == acc.w && p.2.1 == a with
  | some p => (s, .ok p.2.2)
  | none =>
    match s.engKey core q acc a with
    | (s, .error f) => (s, if q.skip then .ok (nowhere + a) else .error f)
    | r => r

/-- Keys of the pieces of some ranges, in order; the first failure stops. -/
def State.engKeys (core : Nat) (q : EngCmd) (acc : Acc) : List (Nat × Nat) → State → State × Except FaultInfo (List (Nat × Nat))
  | [], s => (s, .ok [])
  | p :: ps, s =>
    match s.engKeyOr core q acc p.1 with
    | (s, .error f) => (s, .error f)
    | (s, .ok k) =>
      match State.engKeys core q acc ps s with
      | (s, .error f) => (s, .error f)
      | (s, .ok ks) => (s, .ok ((k, p.2) :: ks))

/-- Is a key one of a remote module's memory? -/
def isRemoteKey (k : Nat) : Bool := decide (2 ^ 54 ≤ k) && (decide (k < meshBase) || decide (2 ^ 64 ≤ k)) && !(isNowhere k)

/-- Has every remote piece a route? -/
def State.routed (s : State) (ps : List (Nat × Nat)) : Bool :=
  ps.all fun p => !(isRemoteKey p.1) || (s.routeTo (keyDev p.1)).isSome

/-- Does an operation read words one byte at a time where it likes? The manual says of CPY alone that aligned words are read
indivisibly (R302); a TLD may read single bytes (R340). (DESIGN CHOICE, log entry 8.) -/
def EngOp.byBytes : EngOp → Bool
  | .tld _ _ _ => true
  | _ => false

/-- Has an operation read a whole word? -/
def EngCmd.hasRead (q : EngCmd) (w : Nat) : Bool := (List.range 8).all fun i => (q.got.find? (w + i)).isSome

/-- Are words of some source pieces, not read yet, in a bank under refresh (R70, R358)? -/
def State.refreshing (s : State) (q : EngCmd) (ps : List (Nat × Nat)) : Bool :=
  (ps.flatMap fun p => wordsIn p.1 p.2).any fun w => s.bankBusy w && !(q.hasRead w)

/-- The pieces of a source range, each with a route. -/
def State.engPieces (s : State) (core : Nat) (q : EngCmd) (a len : Nat) : State × Except EngStop (List (Nat × Nat)) :=
  match s.engKeys core q accERead (chunks a len) with
  | (s, .ok ps) => if s.routed ps then (s, .ok ps) else (s, .error .wait)
  | (s, .error f) => (s, .error (.fault f))

/-- A command whose pieces are known reads them: once no bank that it still needs is under refresh, and after the issuing cluster's cache
has written back their dirty bytes (R70, R98). -/
def State.engReads (core : Nat) (q : EngCmd) : State × Except EngStop (List (Nat × Nat)) → State × Except EngStop (List (Nat × Nat))
  | (s, .ok ps) =>
    if s.refreshing q ps && !q.skip then (s, .error (.refresh ps)) else (s.writeBack (clusterOf core) (meetsAny ps) false, .ok ps)
  | r => r

/-- A source range: its keys. -/
def State.engSource (s : State) (core : Nat) (q : EngCmd) (a len : Nat) : State × Except EngStop (List (Nat × Nat)) :=
  State.engReads core q (s.engPieces core q a len)

/-- A destination range. -/
def State.engDest (s : State) (core : Nat) (q : EngCmd) (a len : Nat) : State × Except EngStop (List (Nat × Nat)) :=
  match s.engKeys core q accEWrite (chunks a len) with
  | (s, .ok ps) => if s.routed ps then (s, .ok ps) else (s, .error .wait)
  | (s, .error f) => (s, .error (.fault f))

/-- The checks of a range that the engine finds only later: those that issue makes of a range it knows (R301, R428), with
the issuer's placed set, migration and actor (R47, R62, R63). Only a copy engine writes the weight store (R69). -/
def State.laterFault (s : State) (q : EngCmd) (a len : Nat) (write : Bool) : Bool :=
  let c : Ctx := { placed := q.placed, mig := q.mig, actor := q.actor }
  len != 0 && ((rangeFault a len).isSome || (s.windowFault c a len).isSome || (s.berthFault q.issuer c a len).isSome ||
    match placeOf a with
    | .weight _ _ => write
    | _ => false)

/-- A source range that the engine finds only later. The cause of its engine fault is 0x05, whichever check fails: R407 gives
engine faults no other (DESIGN CHOICE, log entry 61). -/
def State.laterPieces (s : State) (core : Nat) (q : EngCmd) (a len : Nat) : State × Except EngStop (List (Nat × Nat)) :=
  if s.laterFault q a len false then
    (if q.skip then (s, .ok ((chunks a len).map fun p => (nowhere + p.1, p.2))) else (s, .error (.fault (engFault (a % 2 ^ 64) accERead))))
  else s.engPieces core q a len

/-- Such a range as it is read. (DESIGN CHOICE, log entry 61.) -/
def State.laterSource (s : State) (core : Nat) (q : EngCmd) (a len : Nat) : State × Except EngStop (List (Nat × Nat)) :=
  State.engReads core q (s.laterPieces core q a len)

/-- The keys of the bytes of some pieces. -/
def byteKeys (ps : List (Nat × Nat)) : List Nat := ps.flatMap fun p => (List.range p.2).map (p.1 + ·)

/-- The bytes at some keys; none for a byte of a poisoned word. -/
def State.fetchBytes (s : State) (ks : List Nat) : List (Option Byte) :=
  ks.map fun k => if s.isPoisoned k then none else some (memGet s.mem k)

/-- The bytes at some keys for an operation, which may have read some words before (R114). Where it passes over what it cannot read
now, that is none. -/
def State.fetchFor (s : State) (q : EngCmd) (ks : List Nat) : List (Option Byte) :=
  ks.map fun k => match q.got.find? k with
    | some b => b
    | none => if s.isPoisoned k || isNowhere k || (q.skip && s.bankBusy k) then none else some (memGet s.mem k)

/-- The operation has read some bytes: those that it had not read before are kept as they are now. -/
def State.keepBytes (s : State) (q : EngCmd) (ks : List Nat) : EngCmd :=
  { q with got := (ks.filter fun k => (q.got.find? k).isNone).foldl (fun m k => m.put k (if s.isPoisoned k then none else some (memGet s.mem k))) q.got }

/-- The operation reads some words now, or single bytes where it may, those in a bank under refresh apart; a byte that it has read
stays as it was. (DESIGN CHOICE, log entry 8.) -/
def State.readEarly (s : State) (core : Nat) (q : EngCmd) (ks : List Nat) : State × EngCmd :=
  let bytes := if q.op.byBytes then ks else (ks.filter (· % 8 == 0)).flatMap fun w => (List.range 8).map (w + ·)
  let new := bytes.filter fun k => (q.got.find? k).isNone && !(s.bankBusy k) && s.routed [(k, 1)]
  let s := s.writeBack (clusterOf core) (meetsAny (new.map fun k => (k, 1))) false
  (s, s.keepBytes q new)

/-- Bytes as a number, the first least significant. -/
def bytesNat : List Byte → Nat
  | [] => 0
  | b :: bs => b.toNat + 256 * bytesNat bs

/-- The low `n` bytes of a number. -/
def natBytes (v : Nat) : Nat → List Byte
  | 0 => []
  | n + 1 => BitVec.ofNat 8 v :: natBytes (v / 256) n

/-- Writes the bytes that are there. -/
def putPairs : List (Nat × Option Byte) → List Host.Cell → List Host.Cell
  | [], m => m
  | (k, some b) :: l, m => putPairs l (memSet m k b)
  | (_, none) :: l, m => putPairs l m

/-- Words among `ws` that get data, and of which no byte is missing. -/
def soundWords (ws : List Nat) (l : List (Nat × Option Byte)) : List Nat :=
  ws.filter fun w => (l.any fun p => wordKey p.1 == w) && !(l.any fun p => p.2.isNone && wordKey p.1 == w)

/-- Performs the writes of a plan to the words that `sel` picks (DEDUCED, log entry 32). -/
def State.perform (s : State) (p : Plan) (sel : Nat → Bool) : State :=
  let out := p.out.filter fun x => sel (wordKey x.1)
  let s := { s with mem := putPairs out s.mem }
  let whole := (p.dest.flatMap fun d => wholeWordsIn d.1 d.2).filter sel
  let ws := soundWords whole out
  let s := ws.foldl (fun s w =>
    let s := s.setPoison w false
    match p.tag with
    | some t => (s.setTag w t).serve w s.flights.length
    | none => s) s
  if p.spoil then (whole.filter fun w => !(ws.contains w)).foldl (fun s w => s.setPoison w true) s else s

/-- The part of a plan that pages which fault do not touch (R407): the words that no byte is missing from. -/
def Plan.sound (p : Plan) : Plan :=
  let bad (w : Nat) : Bool := isNowhere w || p.out.any fun x => x.2.isNone && wordKey x.1 == w
  { p with out := p.out.filter fun x => !(bad (wordKey x.1)), dest := p.dest.filter fun d => !(isNowhere d.1),
           bad := none, bads := [], spoil := false }

/-- The words of a plan that `sel` picks are performed for a virtual function. What one writes to a weight store that another
owns is enciphered under its own key, and is a free value to the owner (R80; DESIGN CHOICE, log entry 17). -/
def State.performFor (s : State) (vf : Nat) (p : Plan) (sel : Nat → Bool) : State :=
  let s := s.perform p sel
  let foreign (k : Nat) : Bool := match placeOf k with
    | .weight d _ => s.regBits (tffBase + 0x718) (8 * d + 4) (8 * d) != vf
    | _ => false
  (p.out.filter fun x => x.2.isSome && sel (wordKey x.1) && foreign x.1).foldl (fun s x =>
    let (s, r) := s.freshNat
    { s with mem := memSet s.mem x.1 (BitVec.ofNat 8 r) }) s

/-- The address of the source word for want of which one of the words that `sel` picks is not whole. -/
def Plan.badOf (p : Plan) (sel : Nat → Bool) : Option W64 := (p.bads.find? fun x => sel x.1).map (·.2)

/-- Writes bytes; whole words lose their poison, and with `tag` get that tag and serve their waiters. (DEDUCED, log entry 32.) -/
def State.putBytes (s : State) (ps : List (Nat × Nat)) (vs : List (Option Byte)) (tag : Option Bool) : State :=
  s.perform { out := (byteKeys ps).zip vs, dest := ps, tag := tag } fun _ => true

/-- One plan after another. -/
def Plan.append (p r : Plan) : Plan :=
  { p with out := p.out ++ r.out, dest := p.dest ++ r.dest, bad := p.bad.or r.bad, bads := p.bads ++ r.bads, uses := p.uses ++ r.uses }

/-- Words at some destination keys that lack a byte of a source range from `a` up, with the address of the source word. -/
def lacking (ks : List Nat) (a : Nat) (vs : List (Option Byte)) : List (Nat × W64) :=
  (ks.zip vs).zipIdx.filterMap fun p => if p.1.2.isNone then some (wordKey p.1.1, BitVec.ofNat 64 ((a + p.2) / 8 * 8)) else none

/-- The address, within a range from `a` up, of the first byte that was poisoned. -/
def poisonAt (a : Nat) (vs : List (Option Byte)) : Option W64 :=
  (vs.findIdx? (·.isNone)).map fun i => BitVec.ofNat 64 ((a + i) / 8 * 8)

/-- The issuer of a command that met poison ends as by FAIL (R277, R301). -/
def State.poisoned (s : State) (q : EngCmd) (at_ : Option W64) : State :=
  match at_ with
  | some a => s.endAsFail q.issuer q.hnum 0x0C a
  | none => s

/-- Remembers destination ranges for the acquire of R100. -/
def State.noteDest (s : State) (core ctr : Nat) (q : EngCmd) (ps : List (Nat × Nat)) : State :=
  s.modCore core fun c => { c with doneDst := c.doneDst ++ ps.map fun p => { ctr := ctr, num := q.num, key := p.1, len := p.2 } }

end Sys2Proof.Machine
end

