-- ==== Sys2Proof/Machine/Actors.lean ====
section
/-! DEFINITION. Actors and messages: the mooring slices, berths, mailboxes and lay-up directories (R36 to R57),
and the messages of majors 0x72 and 0x73 (R306 to R311). -/

namespace Sys2Proof.Machine

/-! ## Pairs, slices and classes (R36, R37) -/

/-- The hash of a pair. -/
def pairHash (cls : Nat) (key : W64) : Nat := ((key ^^^ BitVec.ofNat 64 (cls * 2 ^ 48)) * 0x9E3779B97F4A7C15).toNat
/-- The home mooring slice of a pair, 0 to 63. -/
def homeMooring (cls : Nat) (key : W64) : Nat := pairHash cls key / 2 ^ 58

/-- The record of a class in use. -/
def State.class? (s : State) (cls : Nat) : Option ClassRec := s.classes.find? (·.num == cls)
/-- The record that messages of a virtual function may use. -/
def State.classFor (s : State) (vf cls : Nat) : Option ClassRec :=
  s.classes.find? fun c => c.num == cls && c.vf == vf && !c.leaving

def State.moor? (s : State) (cls : Nat) (key : W64) : Option Moor := s.moors.find? fun m => m.cls == cls && m.key == key
def State.dropMoor (s : State) (m : Moor) : State :=
  { s with moors := s.moors.filter fun n => !(n.cls == m.cls && n.key == m.key) }
/-- Entries of a slice in use (R38). -/
def State.entriesOf (s : State) (slice : Nat) : Nat := (s.moors.filter fun m => homeMooring m.cls m.key == slice).length
/-- Messages in the chambers of a slice (R39). -/
def State.chambersOf (s : State) (slice : Nat) : Nat :=
  ((s.moors.filter fun m => homeMooring m.cls m.key == slice).map (·.chamber.length)).sum

/-! ## Berths (R41, R45) -/

/-- Length of the run of a state of `size` bytes. -/
def runLen (size : Nat) : Nat := (size + 63) / 64 * 64 + 512

/-- Runs held on a core, those reserved for a shift among them: offset, length. -/
def State.runsOn (s : State) (core : Nat) : List (Nat × Nat) :=
  s.moors.flatMap fun m =>
    let own (p : Option (Nat × Nat)) : List (Nat × Nat) := match p with
      | some (c, o) => if c = core then [(o, runLen m.size)] else []
      | none => []
    own m.berth ++ own m.target

/-- Runs of the actors that lay-ups may free. -/
def State.idleRuns (s : State) (core : Nat) : List (Nat × Nat) :=
  s.moors.filterMap fun m => match m.st, m.berth, m.eligible with
    | .moored, some (c, o), some _ => if c = core then some (o, runLen m.size) else none
    | _, _, _ => none

/-- Offsets at which a run of `len` bytes fits beside some runs. -/
def State.freeOffsets (s : State) (core len : Nat) (runs : List (Nat × Nat)) : List Nat :=
  let b := s.berthSize core
  ((List.range (b / 64)).map fun i => 0x20000 - b + 64 * i).filter fun o =>
    decide (o + len ≤ 0x20000) && runs.all fun r => decide (o + len ≤ r.1) || decide (r.1 + r.2 ≤ o)

def freeSpace (s : State) (core : Nat) (runs : List (Nat × Nat)) : Nat := s.berthSize core - (runs.map (·.2)).sum

/-- The 64 cores beside home slice `i`. -/
def beside (i : Nat) : List Nat := (List.range 8).flatMap fun c => coresOf (i / 16 * 128 + i % 16 * 8 + c)

/-- Candidate cores in the groups in which R41 tries them. -/
def candidates (r : ClassRec) (slice : Nat) : List (List Nat) :=
  match r.place with
  | 0 => [beside slice, ((clustersOf (slice / 16)).flatMap coresOf).filter fun c => !((beside slice).contains c)]
  | 1 => [(List.range r.count).flatMap fun i => coresOf (r.first + i)]
  | _ => [beside r.hslice]

/-- The core with the most free berth space among some, the lowest index on a tie. -/
def bestCore (l : List (Nat × Nat)) : Option Nat :=
  (l.foldl (fun (b : Option (Nat × Nat)) p => match b with
    | none => some p
    | some q => if q.2 < p.2 ∨ (q.2 = p.2 ∧ p.1 < q.1) then some p else b) none).map (·.1)

/-- The core that can take a state now, and else the one that can after lay-ups (R41). -/
def State.chooseCore (s : State) (r : ClassRec) (slice : Nat) : Option (Nat × Bool) :=
  let now (c : Nat) : List (Nat × Nat) := s.runsOn c
  let later (c : Nat) : List (Nat × Nat) := (s.runsOn c).filter fun x => !((s.idleRuns c).contains x)
  (candidates r slice).findSome? fun cs =>
    let pick (runs : Nat → List (Nat × Nat)) : Option Nat :=
      bestCore ((cs.filter fun c => s.freeOffsets c (runLen r.size) (runs c) ≠ []).map fun c => (c, freeSpace s c (runs c)))
    match pick now with
    | some c => some (c, true)
    | none => (pick later).map fun c => (c, false)

/-- Takes one of the offsets at which a run fits on a core: on an empty area the first (DEDUCED from Table 13.6, DEDUCED, log entry 41),
else which one is free (DESIGN CHOICE, log entry 12). -/
def State.takeRun (s : State) (core len : Nat) : State × Option Nat :=
  let os := s.freeOffsets core len (s.runsOn core)
  if os = [] ∨ s.runsOn core = [] then (s, os.head?)
  else
    let (s, n) := s.freshNat
    (s, os[n % os.length]?)

/-- Key of mailbox slot `i` of a run. -/
def slotKey (core off size i : Nat) : Nat := localKey core (off + (size + 63) / 64 * 64 + 128 * i)

/-- Sets the four first words of a new run EMPTY (R45). -/
def State.emptySlots (s : State) (core off size : Nat) : State :=
  (List.range 4).foldl (fun s i => s.setTag (slotKey core off size i) false) s

/-! ## Messages in memory (Table 2.3) -/

def msgHeader (m : Msg) : List Nat :=
  [m.key.toNat,
   m.cls % 65536 + m.srcCtx % 65536 * 2 ^ 16 + m.srcDev % 1024 * 2 ^ 32 + m.payload.length * 2 ^ 42 + m.phase % 2 * 2 ^ 49 + m.origin % 4 * 2 ^ 50,
   m.replyKey.toNat, m.replyCls % 65536 + m.vf % 32 * 2 ^ 16]

/-- The 128 bytes of a mailbox slot. -/
def msgBytes (m : Msg) : List Byte :=
  ((msgHeader m).flatMap fun w => natBytes w 8) ++ m.payload ++ List.replicate (96 - m.payload.length) 0

/-- Writes a message into a slot, then sets its first word FULL (R46). -/
def State.writeSlot (s : State) (k : Nat) (m : Msg) : State :=
  let s := (s.writeBytes k (msgBytes m)).clearPoison k 128
  (s.setTag k true).serve k s.flights.length

/-- A free mailbox slot of an actor: one whose first word is EMPTY. Of several the manual does not say which a message takes: the
lowest here (DESIGN CHOICE, log entry 62). -/
def State.freeMailSlot (s : State) (m : Moor) (core off : Nat) : Option Nat :=
  (List.range 4).find? fun i =>
    !(s.isFull (slotKey core off m.size i)) && m.handled != some i && !(m.mailbox.any (·.1 == i))

/-- Moves chamber messages into free slots, in order; at most `n`. (DEDUCED, log entry 41.) -/
def State.drainChamber (s : State) (m : Moor) : Nat → State × Moor
  | 0 => (s, m)
  | n + 1 =>
    match m.chamber, m.berth with
    | msg :: rest, some (core, off) =>
      match s.freeMailSlot m core off with
      | some i =>
        let s := s.writeSlot (slotKey core off m.size i) msg
        let m := { m with chamber := rest, mailbox := m.mailbox ++ [(i, s.arrival, msg)] }
        State.drainChamber (({ s with arrival := s.arrival + 1 } : State).wakeIdle core) m n
      | none => (s, m)
    | _, _ => (s, m)

/-! ## Lay-up directories (R42 to R44, R413) -/

def ClassRec.dir (r : ClassRec) : Nat := 2 * r.vf + r.tier
def dirReg (d i : Nat) : Nat := moorBase + 32 * d + 8 * i
def State.dirLog (s : State) (d : Nat) : Nat := s.regBits (dirReg d 1) 5 0
/-- Is a directory held for growth (R414)? -/
def State.dirHeld (s : State) (d : Nat) : Bool := s.regBits (dirReg d 3) 0 0 == 1

/-- Key of slot `i` of a directory: HBM for an even number, CXL for an odd one. -/
def State.dirSlot (s : State) (d i : Nat) : Nat :=
  let a := s.regBits (dirReg d 0) 51 6 * 64 + i * (64 * s.regBits (dirReg d 1) 23 16)
  if d % 2 = 0 then a else cxlKey a

/-- The slots that a pair probes, at most 32. -/
def State.probes (s : State) (d cls : Nat) (key : W64) : List Nat :=
  let b := s.dirLog d
  if b = 0 then []
  else (List.range 32).map fun n => s.dirSlot d ((pairHash cls key / 2 ^ (64 - b) + n) % 2 ^ b)

def State.slotValid (s : State) (k : Nat) : Bool := bitsOf (s.read64 (k + 8)) 63 63 == 1
/-- The slot that holds a laid-up actor. -/
def State.dirFind (s : State) (d cls : Nat) (key : W64) : Option Nat :=
  (s.probes d cls key).find? fun k => s.slotValid k && s.read64 k == key && bitsOf (s.read64 (k + 8)) 15 0 == cls

/-- The free slot that an insertion takes; none when 32 probes find none or occupancy would pass 7/8. -/
def State.dirFree (s : State) (d cls : Nat) (key : W64) : Option Nat :=
  if 7 * 2 ^ s.dirLog d < 8 * ((s.reg (dirReg d 2)).toNat + 1) then none
  else (s.probes d cls key).find? fun k => !(s.slotValid k)

def State.dirCount (s : State) (d : Nat) (up : Bool) : State :=
  let n := (s.reg (dirReg d 2)).toNat
  s.setReg (dirReg d 2) (BitVec.ofNat 64 (if up then n + 1 else n - 1))

/-- Frees a record: VALID is cleared, and the other fields stay (Table 13.6). -/
def State.dirDrop (s : State) (d k : Nat) : State :=
  (s.write64 (k + 8) (s.read64 (k + 8) &&& 0x7FFFFFFFFFFFFFFF)).dirCount d false

/-- Copies `n` bytes of whole words with their tags and poison. -/
def State.copyWords (s : State) (src dst n : Nat) : State :=
  let s := s.writeBytes dst (memBytes s.mem src n)
  (wholeWordsIn src n).foldl (fun s w =>
    let t := dst + (w - src)
    (s.setTag t (s.isFull w)).setPoison t (s.isPoisoned w)) s

/-! ## A message at its slice (Table 2.1, R40) -/

/-- Counts a refused message in its sender's cluster (R36). -/
def State.refuse (s : State) (m : Msg) : State :=
  if m.origin = 0 then s.modCluster (clusterOf (coreOf m.srcCtx)) fun c => { c with refused := c.refused + 1 } else s

def newMoor (s : State) (r : ClassRec) (key : W64) (chamber : List Msg) : Moor :=
  { cls := r.num, key := key, st := .mooring, berth := none, size := r.size, chamber := chamber, mailbox := [], busy := false,
    handled := none, eligible := none, reserved := false, target := none, lastBusy := s.ptp, held := none }

/-- The core that an entry's berth goes to, and whether it can take it now; while replaying, the recorded one (R423). -/
def State.pickCore (s : State) (r : ClassRec) (key : W64) : Option (Nat × Bool) :=
  if s.replaying then
    match (s.replay 5 fun b => b 0 == BitVec.ofNat 64 r.num && b 1 == key).2 with
    | some b => some ((b 2).toNat, s.freeOffsets (b 2).toNat (runLen r.size) (s.runsOn (b 2).toNat) != [])
    | none => none
  else s.chooseCore r (homeMooring r.num key)

/-- Records a berth choice, or uses the recorded one up (R421, R423). -/
def State.noteBerth (s : State) (r : ClassRec) (key : W64) (core : Nat) : State :=
  if s.replaying then (s.replay 5 fun b => b 0 == BitVec.ofNat 64 r.num && b 1 == key).1
  else s.journalAdd 5 (dieOf core) r.vf [BitVec.ofNat 64 r.num, key, BitVec.ofNat 64 core]

/-- An entry takes a run on a core, if one is free there now. -/
def State.takeBerth (s : State) (r : ClassRec) (m : Moor) (c : Nat) : State × Moor :=
  match s.takeRun c (runLen m.size) with
  | (s, some o) => ((s.noteBerth r m.key c).emptySlots c o m.size, { m with berth := some (c, o), chosen := none })
  | (s, none) => (s, m)

/-- An entry that waits for a berth takes one on the core that it has chosen; without one it chooses (R41). -/
def State.findBerth (s : State) (m : Moor) : State × Moor :=
  match m.berth, m.chosen, s.class? m.cls with
  | none, some c, some r => s.takeBerth r m c
  | none, none, some r =>
    match s.pickCore r m.key with
    | some (c, true) => s.takeBerth r m c
    | some (c, false) => (s, { m with chosen := some c })
    | none => (s, m)
  | _, _, _ => (s, m)

/-- Entries without a chosen core try again when a lay-up completes, or an actor becomes idle-eligible, on a candidate core (R41). In
which order several do is not stated: here in the order in which they became entries (DESIGN CHOICE, log entry 62). -/
def State.retryMoorings (s : State) (core : Nat) : State :=
  s.moors.foldl (fun s m =>
    let here := match s.class? m.cls with
      | some r => (candidates r (homeMooring m.cls m.key)).any (·.contains core)
      | none => false
    if m.st = .mooring ∧ m.berth = none ∧ m.chosen = none ∧ here = true then
      let (s, m) := s.findBerth m
      s.setMoor m
    else s) s

/-- Allocates an entry for a pair. -/
def State.startMooring (s : State) (r : ClassRec) (key : W64) (chamber : List Msg) : State :=
  let (s, m) := s.findBerth (newMoor s r key chamber)
  { s with moors := s.moors ++ [m] }

/-- Serves the admission queue while an entry is free and the chamber pool has room (R39, R40): the head's actor gets the
entry and every queued message for it; messages of a class that has been withdrawn are refused. Where the pool has no room for all
of the head's messages, the whole queue waits: the manual does not say (DESIGN CHOICE, log entry 62). At most `n` actors. -/
def State.letIn (s : State) (slice : Nat) : Nat → State
  | 0 => s
  | n + 1 =>
    match (s.slice slice).admission with
    | [] => s
    | h :: rest =>
      let same (m : Msg) : Bool := m.cls == h.cls && m.key == h.key
      let ms := h :: rest.filter same
      let t := s.modSlice slice fun x => { x with admission := rest.filter (!same ·) }
      if 4096 ≤ s.entriesOf slice then s
      else match s.classFor h.vf h.cls with
        | none => State.letIn (ms.foldl State.refuse t) slice n
        | some r => if 8192 < s.chambersOf slice + ms.length then s else State.letIn (t.startMooring r h.key ms) slice n

/-- Every slice serves its admission queue. -/
def State.letAll (s : State) : State :=
  s.slices.foldl (fun s p => s.letIn p.1 p.2.admission.length) s

/-- Does the slice have a place for the message (R40)? -/
def State.hasPlace (s : State) (slice : Nat) (m : Msg) : Bool :=
  match s.moor? m.cls m.key with
  | some e =>
    let direct := match e.st, e.berth, e.chamber with
      | .moored, some (c, o), [] => (s.freeMailSlot e c o).isSome
      | _, _, _ => false
    direct || decide (s.chambersOf slice < 8192)
  | none =>
    if s.entriesOf slice < 4096 ∧ (s.slice slice).admission = [] then decide (s.chambersOf slice < 8192)
    else decide ((s.slice slice).admission.length < 256)

/-- A message that has a place enters mailbox, chamber or admission queue. (DEDUCED, log entry 41.) -/
def State.acceptMsg (s : State) (slice : Nat) (r : ClassRec) (m : Msg) : State :=
  match s.moor? m.cls m.key with
  | some e =>
    let e := { e with chamber := e.chamber ++ [m], eligible := none }
    if e.st = .moored then
      let (s, e) := s.drainChamber e 4
      s.setMoor e
    else s.setMoor e
  | none =>
    if s.entriesOf slice < 4096 ∧ (s.slice slice).admission = [] then s.startMooring r m.key [m]
    else s.modSlice slice fun x => { x with admission := x.admission ++ [m] }

/-! ## Sending (R54, R306, R307) -/

/-- A message enters the bulk plane towards its home slice. Messages of different contexts may arrive in any order (R52); that
they arrive in the order of their SENDs is the model's (DESIGN CHOICE, log entry 61). -/
def State.postMsg (s : State) (m : Msg) : State :=
  (s.modSlice (homeMooring m.cls m.key) fun x => { x with input := x.input ++ [m] }).active m.vf m.phase

/-- Counts a dropped or refused frame, by cause. -/
def State.ethDrop (s : State) (port : Nat) (why : EthDrop) : State :=
  s.modEth port fun e =>
    { e with drops := if e.drops.any (·.1 == why) then e.drops.map fun d => if d.1 = why then (why, d.2 + 1) else d else e.drops ++ [(why, 1)] }

/-- A reply by Ethernet (R54): sent through its route, or dropped and counted. One whose handle is above 0x3_FFFF names no
port, and is counted at port 0 (DESIGN CHOICE, log entry 61). -/
def State.ethReply (s : State) (m : Msg) : State :=
  let handle := m.key.toNat % 2 ^ 32
  let port := handle / 65536
  if 0x3FFFF < handle then s.ethDrop 0 .reply
  else
    let e := s.ethPort port
    match e.enabled, e.routes.find? (handle % 65536) with
    | true, some r =>
      let s := { s with arrival := s.arrival + 1 }
      let s := s.modEth port fun e => { e with routes := e.routes.put (handle % 65536) { r with used := s.arrival } }
      let d : Datagram := { port := port, addr := r.addr, ipv6 := r.ipv6, dport := r.port, sport := s.udpPorts.get m.vf 0, vf := m.vf,
                            bytes := natBytes (m.key.toNat / 2 ^ 32) 4 ++ natBytes m.payload.length 1 ++ [0, 0, 0] ++ m.payload }
      { s with sent := s.sent ++ [d] }
    | _, _ => s.ethDrop port .reply

/-- Why a message image is not read now. -/
inductive ImageStop where
  /-- SEND and SENDX trap with a cause and a TVAL (R326). -/
  | trap (c : Cause)
  /-- SEND and SENDX trap at a page (R400). -/
  | page (f : FaultInfo)
  /-- The image lies in a weight-store bank under refresh (R70), or behind a route that is not up (R73). -/
  | wait (w : Wait)

/-- What an image waits for: the route to a remote piece, or the end of the window of the bank under refresh that holds a word of it.
Its reads wait for one window, and are all performed at its end (R70). (DEDUCED, log entry 20.) -/
def State.imageWait (s : State) (ps : List (Nat × Nat)) : Option Wait :=
  let refreshed := match s.waits with
    | some (.refresh _) => true
    | _ => false
  match ps.find? fun p => !(s.routed [p]), (ps.flatMap fun p => wordsIn p.1 p.2).find? s.bankBusy with
  | some p, _ => some (.route (keyDev p.1))
  | none, some w => if refreshed then none else some (.refresh ((s.die ((w - weightBase) / 0x100000000)).bankFrom + 1500))
  | none, none => none

/-- Why a range of a message image is not read, but for poison, in the order of Table 12.5: every 0x05 (an unmapped address, the weight
store, a page that may not be read), 0x06, 0x03, 0x14, a page fault; then a wait. Else the pieces of the range. -/
def State.imagePieces (s : State) (a len : Nat) : State × Except ImageStop (List (Nat × Nat)) :=
  let q := s.command 0 0 .empty true none
  let r : Rng := { a := a, len := len, align := 8 }
  let c := s.rangesBefore [r]
  let pages : List (State × FaultInfo) := (chunks a len).filterMap fun p => match State.engKeys s.myCore q accLoad [p] s with
    | (t, .error f) => some (t, f)
    | _ => none
  match (c.filter (·.1 == 0x05)).or (s.rangesWeight true [r]), pages.find? (·.2.cause == 0x05), c, pages with
  | some c, _, _, _ => (s, .error (.trap c))
  | none, some (t, f), _, _ => (t, .error (.page f))
  | none, none, some c, _ => (s, .error (.trap c))
  | none, none, none, (t, f) :: _ => (t, .error (.page f))
  | none, none, none, [] =>
    match State.engKeys s.myCore q accLoad (chunks a len) s with
    | (t, .error f) => (t, .error (.page f))
    | (t, .ok ps) =>
      match t.imageWait ps with
      | some w => (t, .error (.wait w))
      | none => (t, .ok ps)

/-- Reads a range of the issuing context's memory for SEND, after its checks. -/
def State.readImage (s : State) (a len : Nat) : State × Except ImageStop (List Byte) :=
  match s.imagePieces a len with
  | (s, .error e) => (s, .error e)
  | (s, .ok ps) =>
    let s := s.writeBack (clusterOf s.myCore) (meetsAny ps) false
    let vs := s.fetchBytes (byteKeys ps)
    match poisonAt a vs with
    | some x => (s, .error (.trap (0x0C, x)))
    | none => (s, .ok (vs.map (·.getD 0)))

def wordAt (bs : List Byte) (i : Nat) : W64 := BitVec.ofNat 64 (bytesNat ((bs.drop (8 * i)).take 8))

/-- The message of an image, with the fields that the hardware fills (R135), and whether the image is refused. -/
def State.msgOf (s : State) (bs : List Byte) (ph : Bit) (origin : Nat) : Msg :=
  { key := wordAt bs 0, cls := bitsOf (wordAt bs 1) 15 0, srcCtx := s.cur, srcDev := s.device,
    phase := (s.me.phase + ph.toNat) % 2, origin := origin, replyKey := wordAt bs 2, replyCls := bitsOf (wordAt bs 3) 15 0,
    vf := s.vfOf s.cur, payload := (bs.drop 32).take (bitsOf (wordAt bs 1) 48 42) }

def badHeader (bs : List Byte) : Bool :=
  decide (96 < bitsOf (wordAt bs 1) 48 42) || bitsOf (wordAt bs 1) 63 52 != 0 || bitsOf (wordAt bs 3) 63 21 != 0

/-- The context traps, or waits to send the image again. -/
def State.imageStop (s : State) (e : ImageStop) : State :=
  match e with
  | .trap (c, v) => s.trap c v
  | .page f => s.pageTrap f
  | .wait w => s.hold w

/-- The image at `a`: `k` receives the message, or `none` when it is refused. -/
def State.withImage (s : State) (a : Nat) (ph : Bit) (origin : Nat) (k : State → Option Msg → State) : State :=
  match s.readImage a 32 with
  | (s, .error e) => s.imageStop e
  | (s, .ok h) =>
    if badHeader h then k s none
    else
      match s.readImage a (32 + bitsOf (wordAt h 1) 48 42) with
      | (s, .error e) => s.imageStop e
      | (s, .ok bs) => k s (some (s.msgOf bs ph origin))

/-- Sends within the module: it waits at entry while the plane has no room, which can be so only while the
slice's input is stopped; whether it is so then is free. (DESIGN CHOICE, log entry 12.) -/
def State.sendLocal (s : State) (o : Op) (d : R6) (m : Msg) : State :=
  if m.cls = 0xFFFF then (((s.ethReply m).active m.vf m.phase).wr d 0).finish o
  else
    match (s.slice (homeMooring m.cls m.key)).stoppedAt with
    | none => ((s.postMsg m).wr d 0).finish o
    | some _ =>
      let (s, n) := s.freshNat
      if n % 2 = 0 then s.hold (.plane (homeMooring m.cls m.key)) else ((s.postMsg m).wr d 0).finish o

/-- SEND (R306). -/
def sendOp (o : Op) (d a : R6) (ph : Bit) (s : State) : Result :=
  s.issueAcc [a] [d] fun s =>
    if s.acks s.cur ≠ 0 then s.hold .acks
    else s.withImage (s.rd a).toNat ph 0 fun s m => match m with
      | none => (s.wr d 1).finish o
      | some m => s.sendLocal o d m

/-- SENDX (R307). (DESIGN CHOICE, log entry 34.) (DEDUCED, log entry 40). -/
def sendxOp (o : Op) (d a b : R6) (ph : Bit) (s : State) : Result :=
  s.issueAcc [a, b] [d] fun s =>
    let dev := (s.rd b).toNat % 1024
    if s.acks s.cur ≠ 0 then s.hold .acks
    else if dev = s.device then s.withImage (s.rd a).toNat ph 0 fun s m => match m with
      | none => (s.wr d 1).finish o
      | some m => s.sendLocal o d m
    else s.withImage (s.rd a).toNat ph 1 fun s m => match m with
      | none => (s.wr d 1).finish o
      | some m =>
        if m.cls = 0xFFFF then (s.wr d 1).finish o
        else match s.inDomain && !(s.apart.contains dev), s.routeTo dev with
          | true, some p => (({ s with towOut := s.towOut ++ [(p, dev, m)] } : State).active m.vf m.phase |>.wr d 0).finish o
          | _, _ => (s.wr d 2).finish o

/-! ## MSGINFO, AIDLE, AERASE, MIGRATE (R308 to R311) -/

/-- Table 12.2. -/
def State.msgInfo (s : State) : W64 :=
  match s.me.actor with
  | none => ones64
  | some r =>
    match s.moor? r.cls r.key with
    | none => ones64
    | some m =>
      BitVec.ofNat 64 (min 3 m.mailbox.length + min 255 m.chamber.length * 2 ^ 8 + (if r.aidle then 2 ^ 16 else 0) +
        (if m.st = .shifting then 2 ^ 17 else 0) + ((m.berth.map (·.1)).getD 0) * 2 ^ 32)

def msginfoOp (o : Op) (d : R6) (s : State) : Result :=
  s.issue [] [d] fun s => (s.wr d s.msgInfo).finish o

def aidleOp (o : Op) (s : State) : Result :=
  s.issue [] [] fun s =>
    match s.me.actor with
    | none => s.trap 0x01 (s.word0.setWidth 64)
    | some r => (s.modMe fun c => { c with actor := some { r with aidle := true } }).finish o

/-- Frees an entry and its berth, and serves the admission queue. -/
def State.freeEntry (s : State) (m : Moor) : State :=
  let slice := homeMooring m.cls m.key
  (s.dropMoor m).letIn slice (s.slice slice).admission.length

/-- Places of the operations of a directory that its growth holds: of its actors' entries, and of AERASEs (R414). -/
def State.heldTurns (s : State) (d : Nat) : List Nat :=
  let of (cls : Nat) : Bool := (s.class? cls).any (·.dir == d)
  (s.moors.filter fun m => of m.cls).filterMap (·.held) ++
    s.ctxs.flatMap fun (p : Nat × Ctx) => p.2.pend.filterMap fun x => match x.op with
      | .erase _ cls turn => if of cls then turn else none
      | _ => none

/-- May an operation use directory `d` now: none that was held before it is still to be performed (R414)? (DESIGN CHOICE, log entry 56). -/
def State.dirTurn (s : State) (d : Nat) (turn : Option Nat) : Bool :=
  (s.heldTurns d).all fun u => match turn with
    | some t => decide (t ≤ u)
    | none => false

/-- What AERASE does and answers (R310). -/
def State.eraseAnswer (s : State) (r : ClassRec) (key : W64) : State × W64 :=
  match s.moor? r.num key with
  | some m => if m.st = .moored ∧ m.busy = false ∧ m.mailbox = [] ∧ m.chamber = [] then (s.freeEntry m, 0) else (s, 1)
  | none =>
    match s.dirFind r.dir r.num key with
    | some k => (s.dirDrop r.dir k, 0)
    | none => (s, 0)

/-- AERASE (R310): while its directory grows, or operations held before it are to come, the answer is under way. -/
def aeraseOp (o : Op) (d a b : R6) (s : State) : Result :=
  s.issueAcc [a, b] [d] fun s =>
    let key := s.rd a
    let cls := (s.rd b).toNat % 65536
    match s.classFor (s.vfOf s.cur) cls with
    | none => (s.wr d 2).finish o
    | some r =>
      if s.dirHeld r.dir || !(s.dirTurn r.dir none) then
        ({ s with arrival := s.arrival + 1 } : State).pendOn o d (.erase key cls (some s.arrival))
      else
        let (s, v) := s.eraseAnswer r key
        (s.wr d v).finish o

/-- The slice answers an AERASE once the directory is resumed and its turn has come (R310, R414). -/
def State.answerErase (s : State) (ctx : Nat) (p : Pend) : State :=
  match p.op with
  | .erase key cls turn =>
    match s.classFor (s.vfOf ctx) cls with
    | none => s.deliver ctx p 2
    | some r =>
      if s.dirHeld r.dir then
        if turn.isSome then s
        else ({ s with arrival := s.arrival + 1 } : State).modCtx ctx fun c => { c with pend := c.pend.replace p { p with op := .erase key cls (some s.arrival) } }
      else if s.dirTurn r.dir turn then
        let (t, v) := s.eraseAnswer r key
        t.deliver ctx p v
      else s
  | _ => s

/-- The cores to which MIGRATE may shift an actor. -/
def shiftTargets (r : ClassRec) (slice : Nat) : List Nat := (candidates r slice).flatten

/-- Orders a shift: the status of R311. -/
def State.orderShift (s : State) (vf cls : Nat) (key : W64) (core : Nat) : State × W64 :=
  match s.classFor vf cls with
  | none => (s, 4)
  | some r =>
    match s.moor? cls key with
    | none => (s, 1)
    | some m =>
      if m.st = .shifting then (s, 2)
      else if m.st ≠ .moored then (s, 1)
      else if (m.berth.map (·.1)) = some core then (s, 0)
      else if !((shiftTargets r (homeMooring cls key)).contains core) then (s, 3)
      else match s.takeRun core (runLen m.size) with
        | (s, none) => (s, 3)
        | (s, some o) => (s.setMoor { m with st := .shifting, target := some (core, o) }, 0)

def migrateOp (o : Op) (d a b c : R6) (s : State) : Result :=
  s.issueAcc [a, b, c] [d] fun s =>
    let (s, v) := s.orderShift (s.vfOf s.cur) ((s.rd b).toNat % 65536) (s.rd a) ((s.rd c).toNat % 4096)
    (s.wr d v).finish o

/-! ## The instructions -/

/-- SEND (R306). -/
def execSend (d : R6) (a : R6) (st : St) (s : State) : Result :=
  sendOp ⟨4, st⟩ d a 0 s

/-- SEND_X (R306). -/
def execSendX (d : R6) (a : R6) (ph : Bit) (st : St) (s : State) : Result :=
  sendOp ⟨12, st⟩ d a ph s

/-- SENDX (R307). -/
def execSendx (d : R6) (a : R6) (b : R6) (st : St) (s : State) : Result :=
  sendxOp ⟨4, st⟩ d a b 0 s

/-- SENDX_X (R307). -/
def execSendxX (d : R6) (a : R6) (b : R6) (ph : Bit) (st : St) (s : State) : Result :=
  sendxOp ⟨12, st⟩ d a b ph s

/-- MSGINFO (R308). -/
def execMsginfo (d : R6) (st : St) (s : State) : Result :=
  msginfoOp ⟨4, st⟩ d s

/-- MSGINFO_X (R308). -/
def execMsginfoX (d : R6) (st : St) (s : State) : Result :=
  msginfoOp ⟨12, st⟩ d s

/-- AIDLE (R309). -/
def execAidle (st : St) (s : State) : Result :=
  aidleOp ⟨4, st⟩ s

/-- AIDLE_X (R309). -/
def execAidleX (st : St) (s : State) : Result :=
  aidleOp ⟨12, st⟩ s

/-- AERASE (R310). -/
def execAerase (d : R6) (a : R6) (b : R6) (st : St) (s : State) : Result :=
  aeraseOp ⟨4, st⟩ d a b s

/-- AERASE_X (R310). -/
def execAeraseX (d : R6) (a : R6) (b : R6) (st : St) (s : State) : Result :=
  aeraseOp ⟨12, st⟩ d a b s

/-- MIGRATE (R311). -/
def execMigrate (d : R6) (a : R6) (b : R6) (st : St) (s : State) : Result :=
  migrateOp ⟨4, st⟩ d a b 0 s

/-- MIGRATE_X (R311). -/
def execMigrateX (d : R6) (a : R6) (b : R6) (c : R6) (st : St) (s : State) : Result :=
  migrateOp ⟨12, st⟩ d a b c s

end Sys2Proof.Machine
end

