-- ==== Sys2Proof/Machine/Matrix.lean ====
section
/-! DEFINITION. The matrix slice: majors 0x68 to 0x6E (R275 to R297). An instruction is checked at issue and
becomes a command of the matrix engine context; `matEffect` is what the engine does with it. -/

namespace Sys2Proof.Machine

/-! ## Tiles and accumulators (R275) -/

/-- K length of one tile. -/
def tileK (fmt : Nat) : Nat :=
  match fmt with
  | 4 => 128
  | 7 | 8 => 32
  | _ => 64

def CoreSt.tile (c : CoreSt) (t : Nat) : BitVec 16384 := c.tiles.get t 0
def CoreSt.tileTag (c : CoreSt) (t : Nat) : Nat := c.tileTags.get t 0
def CoreSt.acc (c : CoreSt) (a : Nat) : BitVec 32768 := c.accs.get a 0

/-- Is a word of matrix state in `n` tiles from `t` up, in `n` elements of an accumulator from `lo` up, in `n` bytes of the metadata
memory from `off` up, in `n` bytes of the scale memory? -/
def matInTiles (t n : Nat) : MatWord → Bool
  | .tile x _ => decide (t ≤ x) && decide (x < t + n)
  | _ => false
def matInAcc (a lo n : Nat) : MatWord → Bool
  | .acc x i => x == a && decide (lo < 2 * i + 2) && decide (2 * i < lo + n)
  | _ => false
def matInSide (off n : Nat) : MatWord → Bool
  | .side i => decide (off < 8 * i + 8) && decide (8 * i < off + n)
  | _ => false
def matInScale (off n : Nat) : MatWord → Bool
  | .scale i => decide (off < 8 * i + 8) && decide (8 * i < off + n)
  | _ => false
/-- Is it a word that a core has (R275)? -/
def matExists : MatWord → Bool
  | .tile t i => decide (t < 8) && decide (i < 256)
  | .acc a i => decide (a < 32) && decide (i < 512)
  | .side i => decide (i < 2048)
  | .scale i => decide (i < 1024)

/-- What is written has no error any more (R419). (DESIGN CHOICE, log entry 46.) -/
def CoreSt.mend (c : CoreSt) (p : MatWord → Bool) : CoreSt := { c with matErr := c.matErr.filter fun w => !(p w) }

def CoreSt.setTile (c : CoreSt) (t : Nat) (x : BitVec 16384) (tag : Nat) : CoreSt :=
  { c with tiles := c.tiles.put t x, tileTags := c.tileTags.put t tag }.mend (matInTiles t 1)
def CoreSt.setAcc (c : CoreSt) (a : Nat) (x : BitVec 32768) : CoreSt := { c with accs := c.accs.put a x }.mend (matInAcc a 0 1024)

/-- Row `r` of a tile, 64 bytes. -/
def tileRow (x : BitVec 16384) (r : Nat) : Nat := x.toNat / 2 ^ (512 * r) % 2 ^ 512
/-- Element `e` = 32i + j of an accumulator. -/
def accElt (x : BitVec 32768) (e : Nat) : Nat := x.toNat / 2 ^ (32 * e) % 2 ^ 32
/-- An accumulator from its elements, element 0 first. -/
def packAcc : List Nat → Nat
  | [] => 0
  | e :: es => e % 2 ^ 32 + 2 ^ 32 * packAcc es

/-! ## Sums (R175 to R180) -/

/-- The value of a matrix operand element. -/
def matNum (fmt x : Nat) : Num := if fmt = 1 then numOfInt (sintOf 8 x) else numOf fmt x

/-- Exact sum of some products; integer sums have no −0. -/
def exactSum (fmt : Nat) (l : List (Nat × Nat)) : Num :=
  if fmt = 1 then numOfInt ((l.map fun p => sintOf 8 p.1 * sintOf 8 p.2).sum)
  else sumExact (l.map fun p => (matNum fmt p.1).mul (matNum fmt p.2))

/-- Group length G of R175. -/
def groupLen (fmt : Nat) : Nat := if fmt = 7 ∨ fmt = 8 then 16 else 32

/-- acc ← RNE(acc + RNE(s)) for one group after another; `l` are the groups' products. -/
def sumGroups (fmt : Nat) (acc : Nat) (l : List (List (Nat × Nat))) : Nat :=
  if fmt = 1 then
    l.foldl (fun acc g => (acc + intBits 32 ((g.map fun p => sintOf 8 p.1 * sintOf 8 p.2).sum)) % 2 ^ 32) acc
  else l.foldl (fun acc g => rne 9 ((numOf 9 acc).add (round32 (exactSum fmt g)))) acc

/-- The power of two of an E8M0 scale; 0xFF is NaN. -/
def mxScale (e : Nat) (x : Num) : Num := if e % 256 = 255 then .nan else x.scale ((e % 256 : Nat) - 127)

/-- R177: groups with their scales. -/
def sumMx (fmt : Nat) (acc : Nat) (l : List (List (Nat × Nat) × Nat × Nat)) : Nat :=
  l.foldl (fun acc g => rne 9 ((numOf 9 acc).add (round32 (mxScale g.2.2 (mxScale g.2.1 (exactSum fmt g.1)))))) acc

/-- R178: spans, each with its groups and its two FP32 scales. -/
def sumWide (fmt : Nat) (acc : Nat) (l : List (List (List (Nat × Nat)) × Nat × Nat)) : Nat :=
  l.foldl (fun acc sp =>
    let p := sp.1.foldl (fun p g => rne 9 ((numOf 9 p).add (round32 (exactSum fmt g)))) 0
    rne 9 ((numOf 9 acc).add (((numOf 9 p).mul (numOf 9 sp.2.1)).mul (numOf 9 sp.2.2)))) acc

/-- An operand: the bits of row `r` of tile `t`. -/
abbrev Rows := Nat → Nat → Nat

/-- Element `k` of the K run of a row. -/
def rowElt (fmt : Nat) (x : Rows) (r k : Nat) : Nat := eltAt (x (k / tileK fmt) r) (fmtWidth fmt) (k % tileK fmt)

/-- The products of group `g` for output (i, j). -/
def denseGroup (fmt : Nat) (a b : Rows) (i j g : Nat) : List (Nat × Nat) :=
  (List.range (groupLen fmt)).map fun n =>
    (rowElt fmt a i (g * groupLen fmt + n), rowElt fmt b j (g * groupLen fmt + n))

def denseGroups (fmt : Nat) (n : Nat) (a b : Rows) (i j : Nat) : List (List (Nat × Nat)) :=
  (List.range (n * tileK fmt / groupLen fmt)).map (denseGroup fmt a b i j)

/-- Bytes of metadata per step (Table 11.3). -/
def metaStep (fmt : Nat) : Nat :=
  match fmt with
  | 4 => 1024
  | 7 | 8 => 256
  | _ => 512

/-- R286: the products of dense group `g` of a step, for output (i, j). A product left out is +0: both its
factors read 0. `md` is the metadata of the row for the step. -/
def sparseGroup (fmt : Nat) (a b : Rows) (md : Nat → Nat → Nat) (i j g : Nat) : List (Nat × Nat) :=
  let kt := tileK fmt
  (List.range (groupLen fmt / 4)).flatMap fun n =>
    let q := (g * (groupLen fmt / 4) + n)       -- group of four in the whole run
    let s := q / (kt / 2)                       -- its step
    let p := q % (kt / 2)
    let nib := md s i / 2 ^ (4 * p) % 16
    let one (h idx : Nat) : Nat × Nat :=
      let k := 4 * p + idx                      -- dense position in the step
      (eltAt (a s i) (fmtWidth fmt) (2 * p + h), eltAt (b (2 * s + k / kt) j) (fmtWidth fmt) (k % kt))
    [one 0 (nib % 4), one 1 (nib / 4), (0, 0), (0, 0)]

/-- All 1,024 elements of an accumulator. -/
def outputs (f : Nat → Nat → Nat) : BitVec 32768 :=
  BitVec.ofNat 32768 (packAcc ((List.range 1024).map fun e => f (e / 32) (e % 32)))

/-! ## Scale sets (R287, R288) -/

/-- A scale set found in scale memory: where its entries begin and its COUNT. -/
structure ScaleSet where
  at_   : Nat
  count : Nat

def scaleBits (m : BitVec 65536) (byte n : Nat) : Nat := m.toNat / 2 ^ (8 * byte) % 2 ^ (8 * n)

/-- Checks one set: offset, KIND, ROWS, COUNT. -/
def scaleSet (m : BitVec 65536) (off kind rows count size : Nat) : Except Cause ScaleSet :=
  if 8192 < off + 8 then .error (0x05, BitVec.ofNat 64 off)
  else
    let h := scaleBits m off 8
    if h % 65536 ≠ count ∨ h / 2 ^ 16 % 256 ≠ rows ∨ h / 2 ^ 24 % 16 ≠ kind then .error (0x0E, BitVec.ofNat 64 (h % 65536))
    else if 8192 < off + 8 + rows * count * size then .error (0x05, BitVec.ofNat 64 off)
    else .ok { at_ := off + 8, count := count }

/-- The two sets of MMAMX and MMAWS. -/
def scaleSets (m : BitVec 65536) (wide : Bool) (k oa ob : Nat) : Except Cause (ScaleSet × ScaleSet) :=
  let count := (k + (if wide then 127 else 31)) / (if wide then 128 else 32)
  let size := if wide then 4 else 1
  let kind := if wide then 2 else 1
  match scaleSet m (64 * oa) kind 32 count size with
  | .error e => .error e
  | .ok a =>
    let off := if ob = 0 then (a.at_ + 32 * count * size + 63) / 64 * 64 else 64 * ob
    match scaleSet m off kind (if wide then 1 else 32) count size with
    | .error e => .error e
    | .ok b => .ok (a, b)

def ScaleSet.entry (x : ScaleSet) (m : BitVec 65536) (row p size : Nat) : Nat :=
  scaleBits m (x.at_ + (row * x.count + p) * size) size

/-- Does a matrix operand of `n` tiles read a word of matrix state? -/
def MatSrc.readsWord (n : Nat) (w : MatWord) : MatSrc → Bool
  | .tile t => matInTiles t n w
  | .pair _ _ => false

/-- Does an operation read a word of its core's matrix state (R419)? (DESIGN CHOICE, log entry 46). -/
def CoreSt.readsWord (c : CoreSt) (op : EngOp) (w : MatWord) : Bool :=
  match op with
  | .mma k d a b fmt n z o1 o2 =>
    a.readsWord n w || b.readsWord (if k = .mmas then 2 * n else n) w || (!z && matInAcc d 0 1024 w) ||
      (k == .mmas && matInSide (256 * o1) (n * metaStep fmt) w) ||
      ((k == .mmamx || k == .mmaws) && match scaleSets c.scaleMem (k = .mmaws) (n * tileK fmt) o1 o2 with
        | .ok (x, y) =>
          let size := if k = .mmaws then 4 else 1
          matInScale (x.at_ - 8) (8 + 32 * x.count * size) w || matInScale (y.at_ - 8) (8 + (if k = .mmaws then 1 else 32) * y.count * size) w
        | .error _ => false)
  | .mmax d a _ _ n z => a.readsWord n w || (!z && matInAcc d 0 1024 w)
  | .tst _ t => matInTiles t 1 w
  | .ast _ x => matInAcc x 0 1024 w
  | .aread _ x first _ vl => matInAcc x first vl w
  | _ => false

/-! ## Pair operands (R281, R282) -/

/-- Address of row `r` of tile `t`. -/
def pairRow (x y : W64) (t r : Nat) : Nat :=
  let l := x.toNat + t * bitsOf y 31 16 * 2048 + r * bitsOf y 15 0
  let b := l / 64 % 32
  l - b * 64 + (b + r * bitsOf y 34 32) % 32 * 64

/-- Addresses of every row of `n` tiles. -/
def pairRows (x y : W64) (n : Nat) : List Nat := (List.range n).flatMap fun t => (List.range 32).map (pairRow x y t)

/-- The unit of the cluster or weight-store window that a row of a pair operand begins in, as the first address beyond it;
none outside the two windows. -/
def pairUnit (a : Nat) : Option Nat :=
  match placeOf a with
  | .sram cl _ => some (sramBase + (cl + 1) * 0x200000)
  | .weight _ _ => some (weightBase + 0x400000000)
  | _ => none

/-- The issue-time causes of a pair operand of `n` tiles: stage 1, 2 or 3 of R282, and stage 4, a weight store that R69 lets
the context not read. TVAL is the address beyond the unit for rows of two clusters (R428), else X. (DEDUCED, log entry 29.) -/
def State.pairFault (s : State) (x y : W64) (n stage : Nat) : Option Cause :=
  let rows := pairRows x y n
  let at_ (b : Bool) (c : Nat) : Option Cause := if b then some (c, x) else none
  match stage, placeOf x.toNat with
  | 1, .sram _ _ => at_ (bitsOf y 63 35 != 0 || rows.any fun a => match placeOf (a + 63) with
      | .sram _ _ => false
      | _ => true) 0x05
  | 1, .weight _ _ => at_ (bitsOf y 63 35 != 0 || rows.any fun a => match placeOf (a + 63) with
      | .weight _ _ => false
      | _ => true) 0x05
  | 1, _ => some (0x05, x)
  | 2, .sram cl _ =>
    if rows.any fun a => pairUnit (a + 63) != pairUnit x.toNat then some (0x06, BitVec.ofNat 64 ((pairUnit x.toNat).getD 0))
    else at_ (!(s.me.placed.contains cl) || rows.any fun a => decide (s.scratch cl < (a - sramBase) % 0x200000 + 64)) 0x06
  | 3, _ => at_ (x.toNat % 64 != 0 || bitsOf y 15 0 % 64 != 0) 0x03
  | 4, .weight _ _ => rows.findSome? fun a => s.weightFault (s.vfOf s.cur) a false
  | _, _ => none

/-- (DEDUCED, log entry 29.) -/
def MatSrc.fault (s : State) (n stage : Nat) : MatSrc → Option Cause
  | .tile _ => none
  | .pair x y => s.pairFault x y n stage

/-- The first step-6 cause of a product's operands, A before B in each stage. -/
def State.matFault (s : State) (l : List (MatSrc × Nat)) : Option Cause :=
  ([1, 2, 3, 4] : List Nat).findSome? fun st => l.findSome? fun p => p.1.fault s p.2 st

/-! ## Reading operands in the engine -/

/-- The 64 bytes at each of some addresses, in order: the words that the engine reads, and the first poisoned address. -/
def State.readRows (core : Nat) (q : EngCmd) : List Nat → State → State × Except EngStop (List Nat × Option W64)
  | [], s => (s, .ok ([], none))
  | a :: as, s =>
    match s.engSource core q a 64 with
    | (s, .error f) => (s, .error f)
    | (s, .ok ps) =>
      let vs := s.fetchFor q (byteKeys ps)
      match State.readRows core q as s with
      | (s, .error f) => (s, .error f)
      | (s, .ok (rs, bad)) => (s, .ok (bytesNat (vs.map (·.getD 0)) :: rs, (poisonAt a vs).or bad))

/-- The rows of an operand whose addresses are known: those of a bank under refresh are waited for together (R358). -/
def State.readPair (s : State) (core : Nat) (q : EngCmd) (x y : W64) (n : Nat) : State × Except EngStop (Rows × Option W64) :=
  let rows := pairRows x y n
  match placeOf x.toNat with
  | .weight _ _ =>
    if s.refreshing q (rows.map fun a => (a, 64)) then (s, .error (.refresh (rows.map fun a => (a, 64)))) else
    match State.readRows core q rows s with
    | (s, .error f) => (s, .error f)
    | (s, .ok (rs, bad)) => (s, .ok (fun i r => rs.getD (32 * i + r) 0, bad))
  | _ =>
    match State.readRows core q rows s with
    | (s, .error f) => (s, .error f)
    | (s, .ok (rs, bad)) => (s, .ok (fun i r => rs.getD (32 * i + r) 0, bad))

/-- An operand of `n` tiles as rows. -/
def State.operand (s : State) (core : Nat) (q : EngCmd) (src : MatSrc) (n : Nat) : State × Except EngStop (Rows × Option W64) :=
  match src with
  | .tile t => (s, .ok (fun i r => tileRow ((s.core core).tile (t + i)) r, none))
  | .pair x y => s.readPair core q x y n

/-! ## Operand records (R289, R290, R409) -/

/-- The physical address of a record in the table of a virtual function. -/
def State.recordAddr (s : State) (vf idx : Nat) : Nat := s.regBits (tffBase + 0x800 + 16 * vf) 51 6 * 64 + 32 * idx

/-- A record's four words from the table; `none` beyond it. -/
def State.recordOf (s : State) (vf idx : Nat) : Option (List W64) :=
  if s.regBits (tffBase + 0x808 + 16 * vf) 23 0 ≤ idx then none
  else some ((List.range 4).map fun i => s.read64 (s.recordAddr vf idx + 8 * i))

/-- The first poisoned word of a record that is fetched from the table (R277). -/
def State.recordPoison (s : State) (vf idx : Nat) : Option W64 :=
  if s.regBits (tffBase + 0x808 + 16 * vf) 23 0 ≤ idx then none
  else ((wordsIn (s.recordAddr vf idx) 32).find? s.isPoisoned).map (BitVec.ofNat 64)

/-- Puts a record first in a core's cache of 64. -/
def State.cacheRecord (s : State) (core idx : Nat) (ws : List W64) : State :=
  s.modCore core fun c => { c with orCache := ((idx, ws) :: c.orCache.filter (·.1 ≠ idx)).take 64 }

/-- Finds a record in the cache, or fetches it. -/
def State.findRecord (s : State) (core vf idx : Nat) : State × Option (List W64) :=
  match (s.core core).orCache.find? (·.1 == idx) with
  | some (_, ws) => (s.cacheRecord core idx ws, some ws)
  | none =>
    match s.recordOf vf idx with
    | some ws => (s.cacheRecord core idx ws, some ws)
    | none => (s, none)

/-- Is a record the one that an entry asks for? -/
def recordOk (ws : List W64) (key fmt lo hi : Nat) : Bool :=
  let k := ws.getD 2 0
  bitsOf k 63 63 == 1 && bitsOf k 15 0 == key && bitsOf (ws.getD 1 0) 38 35 == fmt && decide (lo ≤ key) && decide (key ≤ hi)

/-- The four checks of R290: the records of the entries, or the trap. A record that is poisoned in the table ends the
issuer (R277): cause 0x0C stands for that here. KEYSET is what k4 of the issuer's slot holds as the engine begins, which after the
issuer's end may be another helper's or the reset value: the manual does not say (DESIGN CHOICE, log entry 62). -/
def State.checkRecords (core : Nat) (q : EngCmd) (fmt : Nat) : List W32 → State → State × Except Cause (List (List W64))
  | [], s => (s, .ok [])
  | e :: es, s =>
    let idx := e.toNat % 65536
    let key := e.toNat / 65536
    let ks := (s.ctx q.issuer).k 4
    let bad : Except Cause (List (List W64)) := .error (0x0D, BitVec.ofNat 64 (idx + key * 2 ^ 32))
    if let (none, some x) := ((s.core core).orCache.find? (·.1 == idx), s.recordPoison q.vf idx) then (s, .error (0x0C, x)) else
    match s.findRecord core q.vf idx with
    | (s, none) => (s, bad)
    | (s, some ws) =>
      if recordOk ws key fmt (bitsOf ks 15 0) (bitsOf ks 31 16) then
        match State.checkRecords core q fmt es s with
        | (s, .ok l) => (s, .ok (ws :: l))
        | (s, .error c) => (s, .error c)
      else (s, bad)

/-- What the engine checks when it begins a command (R288, R290): the records that it then uses, or the trap. -/
def matCheck (core : Nat) (q : EngCmd) (s : State) : State × Except Cause (List W64) :=
  match q.op with
  | .mma k _ _ _ fmt n _ oa ob =>
    if k = .mmamx ∨ k = .mmaws then
      match scaleSets (s.core core).scaleMem (k = .mmaws) (n * tileK fmt) oa ob with
      | .error c => (s, .error c)
      | .ok _ => (s, .ok [])
    else (s, .ok [])
  | .mmax _ _ es fmt _ _ =>
    match State.checkRecords core q fmt es s with
    | (s, .error c) => (s, .error c)
    | (s, .ok l) => (s, .ok l.flatten)
  | _ => (s, .ok [])

/-! ## What the engine does -/

/-- Puts a result into an accumulator unless poison was met. -/
def State.product (s : State) (core : Nat) (q : EngCmd) (d : Nat) (bad : Option W64) (x : BitVec 32768) : State :=
  if bad.isSome then s.poisoned q bad else s.modCore core fun c => c.setAcc d x

/-- A product of 0x68 or 0x6A. -/
def mmaEffect (core : Nat) (q : EngCmd) (k : MatKind) (d : Nat) (a b : MatSrc) (fmt n : Nat) (z : Bool) (o1 o2 : Nat) (s : State) : EngOut :=
  let nb := if k = .mmas then 2 * n else n
  match s.operand core q a n with
  | (_, .error e) => .stop e
  | (s, .ok (ra, bad1)) =>
    match s.operand core q b nb with
    | (_, .error e) => .stop e
    | (s, .ok (rb, bad2)) =>
      let c := s.core core
      let old := c.acc d
      let start (i j : Nat) : Nat := if z then 0 else accElt old (32 * i + j)
      let groups := n * tileK fmt / groupLen fmt
      let out (i j : Nat) : Nat :=
        match k with
        | .mmas =>
          let md (st r : Nat) : Nat :=
            c.sideMem.toNat / 2 ^ (8 * (o1 * 256 + st * metaStep fmt + metaStep fmt / 32 * r)) % 2 ^ (8 * (metaStep fmt / 32))
          sumGroups fmt (start i j) ((List.range (2 * groups)).map (sparseGroup fmt ra rb md i j))
        | .mmamx =>
          match scaleSets c.scaleMem false (n * tileK fmt) o1 o2 with
          | .ok (sa, sb) =>
            sumMx fmt (start i j) ((List.range groups).map fun g =>
              (denseGroup fmt ra rb i j g, sa.entry c.scaleMem i g 1, sb.entry c.scaleMem j g 1))
          | .error _ => start i j
        | .mmaws =>
          match scaleSets c.scaleMem true (n * tileK fmt) o1 o2 with
          | .ok (sa, sb) =>
            sumWide fmt (start i j) ((List.range ((n * tileK fmt + 127) / 128)).map fun p =>
              (((List.range 4).filter (fun g => decide (4 * p + g < groups))).map (fun g => denseGroup fmt ra rb i j (4 * p + g)),
               sa.entry c.scaleMem i p 4, sb.entry c.scaleMem 0 p 4))
          | .error _ => start i j
        | _ => sumGroups fmt (start i j) (denseGroups fmt n ra rb i j)
      .done (s.product core q d (bad1.or bad2) (outputs out))

/-- A B operand that a record gives: its rows are checked only now, against the issuer's placed set, the scratchpad size and
the two windows, or are translated (R281, R289). A virtual function reads the weight store that it owns (R69). -/
def State.recordRows (s : State) (core : Nat) (q : EngCmd) (x y : W64) (n : Nat) : State × Except EngStop (Rows × Option W64) :=
  match (pairRows x y n).find? fun a => s.laterFault q a 64 false || (match placeOf a with
      | .local_ _ | .mesh _ _ => true
      | _ => false) || pairUnit a != pairUnit x.toNat with
  | some a => (s, .error (.fault (engFault (a % 2 ^ 64) accERead)))
  | none => s.readPair core q x y n

/-- Reads the B operands of the records. -/
def readRecords (core : Nat) (q : EngCmd) (n : Nat) : List (List W64) → State → State × Except EngStop (List Rows × Option W64)
  | [], s => (s, .ok ([], none))
  | ws :: l, s =>
    match s.recordRows core q (ws.getD 0 0) (ws.getD 1 0) n with
    | (s, .error f) => (s, .error f)
    | (s, .ok (r, bad)) =>
      match readRecords core q n l s with
      | (s, .error f) => (s, .error f)
      | (s, .ok (rs, bads)) => (s, .ok (r :: rs, bad.or bads))

/-- MMAX: the records that the check found (R290, R409). -/
def mmaxEffect (core : Nat) (q : EngCmd) (d : Nat) (a : MatSrc) (fmt n : Nat) (z : Bool) (s : State) : EngOut :=
  let recs := (List.range 4).map fun o => (List.range 4).map fun i => q.blocks.getD (4 * o + i) 0
  match s.operand core q a n with
  | (_, .error e) => .stop e
  | (s, .ok (ra, bad1)) =>
    match readRecords core q n recs s with
    | (_, .error e) => .stop e
    | (s, .ok (rbs, bad2)) =>
      let old := (s.core core).acc d
      let out (i j : Nat) : Nat :=
        sumGroups fmt (if z then 0 else accElt old (32 * i + j)) (denseGroups fmt n ra (rbs.getD (i / 8) fun _ _ => 0) i j)
      .done (s.product core q d (bad1.or bad2) (outputs out))

/-- Reads `len` bytes and hands them on, unless poison was met (R277). -/
def loadInto (core : Nat) (q : EngCmd) (a : W64) (len : Nat) (put : Nat → CoreSt → CoreSt) (s : State) : EngOut :=
  match s.engSource core q a.toNat len with
  | (_, .error e) => .stop e
  | (s, .ok ps) =>
    let vs := s.fetchFor q (byteKeys ps)
    match poisonAt a.toNat vs with
    | some x => .done (s.poisoned q (some x))
    | none => .done (s.modCore core (put (bytesNat (vs.map (·.getD 0)))))

/-- Stores `len` bytes of a value. -/
def storeFrom (core : Nat) (q : EngCmd) (a : W64) (len v : Nat) (s : State) : EngOut :=
  match s.engDest core q a.toNat len with
  | (_, .error e) => .stop e
  | (s, .ok ps) => .write s { out := (byteKeys ps).zip ((natBytes v len).map some), dest := ps }

/-- Replaces `n` bytes of a memory of `w` bits from byte `off` up. -/
def putBytesAt {w : Nat} (m : BitVec w) (off n v : Nat) : BitVec w :=
  BitVec.ofNat w (m.toNat - m.toNat / 2 ^ (8 * off) % 2 ^ (8 * n) * 2 ^ (8 * off) + v % 2 ^ (8 * n) * 2 ^ (8 * off))

/-- AREAD's elements (R293). -/
def areadElts (x : BitVec 32768) (first fmt vl : Nat) : List Elt :=
  (List.range vl).map fun i =>
    let e := first + i
    if 1024 ≤ e then .keep
    else if isIntFmt fmt then .val (accElt x e) else .val (rne fmt (numOf 9 (accElt x e)))

/-- ORLD: copies records into the cache; with a poisoned one among them the cache stays as it was (R277). -/
def orldEffect (core : Nat) (q : EngCmd) (first : Nat) (n : Nat) (s : State) : State :=
  match (List.range n).findSome? fun i => s.recordPoison q.vf (first + i) with
  | some x => s.poisoned q (some x)
  | none => (List.range n).foldl (fun s i => match s.recordOf q.vf (first + i) with
    | some ws => s.cacheRecord core (first + i) ws
    | none => s) s

/-- The effect of a matrix command. -/
def matEffect (core : Nat) (q : EngCmd) (s : State) : EngOut :=
  match q.op with
  | .mma k d a b fmt n z o1 o2 => mmaEffect core q k d a b fmt n z o1 o2 s
  | .mmax d a _ fmt n z => mmaxEffect core q d a fmt n z s
  | .tld d a fmt => loadInto core q a 2048 (fun v c => c.setTile d (BitVec.ofNat 16384 v) fmt) s
  | .tst a t => storeFrom core q a 2048 ((s.core core).tile t).toNat s
  | .tzero d fmt => .done (s.modCore core fun c => c.setTile d 0 fmt)
  | .aclr d => .done (s.modCore core fun c => c.setAcc d 0)
  | .ald d a => loadInto core q a 4096 (fun v c => c.setAcc d (BitVec.ofNat 32768 v)) s
  | .ast a x => storeFrom core q a 4096 ((s.core core).acc x).toNat s
  | .aread v x first fmt vl =>
    let es := areadElts ((s.core core).acc x) first fmt vl
    .done (s.modCtx q.issuer fun c =>
      { c with vregs := c.vregs.put v (BitVec.ofNat 8192 (mergeElts (fmtWidth fmt) 0 0 es (c.vbits v))) })
  | .mdld a len off => loadInto core q a len (fun v c => { c with sideMem := putBytesAt c.sideMem (64 * off) len v }.mend (matInSide (64 * off) len)) s
  | .scld a len off => loadInto core q a len (fun v c => { c with scaleMem := putBytesAt c.scaleMem (64 * off) len v }.mend (matInScale (64 * off) len)) s
  | .orld first n => .done (orldEffect core q first n s)
  | _ => .done s

/-! ## Issue -/

/-- The tag that a tile has for the next command of the core: commands act in issue order (R134, R168), so the last TLD or
TZERO of the tile before it gives the tag, whether or not it is complete. -/
def CoreSt.pendingTag (c : CoreSt) (t : Nat) : Nat :=
  (c.engCmds 0).foldl (fun tag q => match q.op with
    | .tld d _ f | .tzero d f => if d = t then f else tag
    | _ => tag) (c.tileTag t)

/-- TVAL of a tile whose tag is not FMT (R280). -/
def State.tileFault (s : State) (src : MatSrc) (operand n fmt : Nat) : List TagFault :=
  match src with
  | .tile t => (List.range n).flatMap fun i =>
      let tag := (s.core s.myCore).pendingTag (t + i)
      if tag = fmt then [] else [⟨some operand, some fmt, tag⟩]
  | .pair _ _ => []

/-- Traps with cause 0x07 for a tile register. (DESIGN CHOICE, log entry 12.) -/
def State.tileTrap (s : State) (fs : List TagFault) : State :=
  let (s, n) := s.freshNat
  match fs[n % fs.length]? with
  | none => s
  | some f =>
    let (s, x) := s.freshNat
    s.trap 0x07 (tagTval (f.operand.getD (x % 64)) 2 (f.expected.getD (x / 64 % 16)) f.found)

/-- The same for MMAX, whose entries come from a vector register: where a tile and that register mismatch, which of the two TVAL
names is free (DESIGN CHOICE, log entry 12). -/
def State.mmaxTrap (s : State) (fs gs : List TagFault) : State :=
  let (s, n) := if fs = [] ∨ gs = [] then (s, if fs = [] then 1 else 0) else s.freshNat
  if n % 2 = 0 then s.tileTrap fs
  else match gs with
    | [] => s
    | g :: _ => s.trap 0x07 (tagTval (g.operand.getD 2) 1 (g.expected.getD 3) g.found)

/-- Source registers of a matrix operand, and the operand. -/
def matRegs (r p : R6) (pair : Bit) : List R6 := if pair = 1 then [r, p] else []
def State.matSrc (s : State) (r p : R6) (pair : Bit) : MatSrc := if pair = 1 then .pair (s.rd r) (s.rd p) else .tile r.toNat

/-- MMA, MMAS, MMAMX and MMAWS (R283, R286, R288). -/
def mmaOp (o : Op) (k : MatKind) (d a b c e : R6) (fmt : BitVec 4) (n : Byte) (as bs : Bit) (o1 o2 : Nat) (z : Bit) (s : State) : Result :=
  s.issueEng 0 (matRegs a c as ++ matRegs b e bs) [] fun s =>
    let x := s.matSrc a c as
    let y := s.matSrc b e bs
    let nb := if k = .mmas then 2 * n.toNat else n.toNat
    let fs := s.tileFault x 1 n.toNat fmt.toNat ++ s.tileFault y 2 nb fmt.toNat
    if fs ≠ [] then s.tileTrap fs
    else match s.matFault [(x, n.toNat), (y, nb)] with
      | some (t, v) => s.trap t v
      | none =>
        let end_ := o1 * 256 + n.toNat * metaStep fmt.toNat
        if k = .mmas ∧ 16384 < end_ then s.trap 0x05 (BitVec.ofNat 64 end_)
        else s.sendEng o 0 none 0 (.mma k d.toNat x y fmt.toNat n.toNat (z == 1) o1 o2) (k = .mmamx || k = .mmaws) false

/-- What R133 compares: the A operand, the step count, the format and the zero start. (DEDUCED, log entry 30.) -/
def sameStep : EngOp → EngOp → Bool
  | .mma _ _ a _ fmt n z _ _, .mma _ _ a' _ fmt' n' z' _ _ => a == a' && fmt == fmt' && n == n' && z == z'
  | _, _ => false

/-- Column bits of some cores of one cluster. (DEDUCED, log entry 30.) -/
def colBits (cores : List Nat) : W64 := BitVec.ofNat 64 ((cores.map fun c => 2 ^ colOf c).sum)

/-- The members of a core's gang that wait at the wired barrier: core and arrival. One that the barrier has let go has arrived at no
further MMAG. (DEDUCED, log entry 30.) -/
def State.gangArrivals (s : State) (core : Nat) : List (Nat × Nat × EngOp × Bool) :=
  (s.gangCores core).filterMap fun c => ((s.core c).mmag.filter (!·.2.2)).map fun m => (c, m)

/-- The wired barrier of MMAG (R133, R284): once every member has arrived they compare, and go on or all trap. (DEDUCED, log entry 30.) -/
def State.gangJoin (s : State) (core : Nat) : State :=
  let cores := s.gangCores core
  let arrivals := s.gangArrivals core
  match arrivals with
  | [] => s
  | (_, _, op, _) :: rest =>
    if arrivals.length ≠ cores.length then s
    else if rest.all fun p => sameStep op p.2.2.1 then
      cores.foldl (fun s c => s.modCore c fun x => { x with mmag := x.mmag.map fun m => (m.1, m.2.1, true) }) s
    else
      let t := colBits (arrivals.map (·.1))
      arrivals.foldl (fun s p =>
        (s.modCore p.1 fun x => { x with mmag := none }).takeTrap p.2.1 0x13 t (s.ctx p.2.1).pc none) s

/-- MMAG (R284). -/
def mmagOp (o : Op) (d a b c e : R6) (fmt : BitVec 4) (n : Byte) (as bs : Bit) (z : Bit) (s : State) : Result :=
  s.issueEng 0 (matRegs a c as ++ matRegs b e bs) [] fun s =>
    let core := s.myCore
    match (s.core core).mmag with
    | some (ctx, op, go) =>
      if ctx = s.cur ∧ go then
        let t := s.sendEng o 0 none 0 op false false
        if t.me.wait = some (.engine 0) then t else t.modCore core fun c => { c with mmag := none }
      else s.hold .barrier
    | none =>
      let x := s.matSrc a c as
      let y := s.matSrc b e bs
      let fs := s.tileFault x 1 n.toNat fmt.toNat ++ s.tileFault y 2 n.toNat fmt.toNat
      let mask := (s.core core).gangMask
      let differ := (s.gangCores core).filter fun c => (s.core c).gangMask != mask
      if fs ≠ [] then s.tileTrap fs
      else match s.matFault [(x, n.toNat), (y, n.toNat)] with
        | some (t, v) => s.trap t v
        | none =>
          if mask = 0 then
            let (s, x) := s.freshNat
            s.trap 0x13 (BitVec.ofNat 64 x)
          else if differ ≠ [] then s.trap 0x13 (colBits differ)
          else
            let op : EngOp := .mma .mmag d.toNat x y fmt.toNat n.toNat (z == 1) 0 0
            let s := s.modMe fun c => { c with wait := some .barrier, waitFrom := s.cycle }
            (s.modCore core fun c => { c with mmag := some (s.cur, op, false) }).gangJoin core

/-- MMAX (R290): the entries are elements 0 to 3 of v[B], tagged I32 or RAW. -/
def mmaxOp (o : Op) (d a b c : R6) (fmt : BitVec 4) (n : Byte) (as z : Bit) (s : State) : Result :=
  s.issueEng 0 (matRegs a c as) [] fun s =>
    if s.me.window ≤ b.toNat then s.trap 0x09 (b.setWidth 64)
    else if s.busy s.cur then s.hold .busy
    else
      let x := s.matSrc a c as
      let fs := s.tileFault x 1 n.toNat fmt.toNat
      let tag := s.me.vtag b.toNat
      let gs : List TagFault := if tag ≠ 0 ∧ tag ≠ 3 then [⟨some 2, some 3, tag⟩] else []
      if fs ++ gs ≠ [] then s.mmaxTrap fs gs
      else match s.matFault [(x, n.toNat)] with
        | some (t, v) => s.trap t v
        | none =>
          let es := (List.range 4).map fun i => BitVec.ofNat 32 (eltAt (s.me.vbits b.toNat) 32 i)
          s.sendEng o 0 none 0 (.mmax d.toNat x es fmt.toNat n.toNat (z == 1)) true false

/-- A matrix command that names a memory range of its own (R291, R292). -/
def matMemOp (o : Op) (d : Option R6) (a : R6) (disp : W64) (len : Nat) (store : Bool) (faults : State → List TagFault)
    (mk : W64 → EngOp) (s : State) : Result :=
  s.issueEng 0 [a] d.toList fun s =>
    let fs := faults s
    let x := s.rd a + disp
    if fs ≠ [] then s.tileTrap fs
    else match s.rangesFault true [{ a := x.toNat, len := len, align := 64, w := store }] with
      | some (t, v) => s.trap t v
      | none => s.sendEng o 0 d 0 (mk x) false false

/-- TLD (R291). -/
def tldOp (o : Op) (d a : R6) (fmt : BitVec 4) (disp : W64) : State → Result :=
  matMemOp o none a disp 2048 false (fun _ => []) fun x => .tld d.toNat x fmt.toNat
/-- TST: FMT is 0 or the tag of tile B. -/
def tstOp (o : Op) (d a b : R6) (fmt : BitVec 4) (disp : W64) : State → Result :=
  matMemOp o (some d) a disp 2048 true
    (fun s => if fmt = 0 then [] else s.tileFault (.tile b.toNat) 2 1 fmt.toNat) fun x => .tst x b.toNat
def aldOp (o : Op) (d a : R6) (disp : W64) : State → Result :=
  matMemOp o none a disp 4096 false (fun _ => []) fun x => .ald d.toNat x
def astOp (o : Op) (d a b : R6) (disp : W64) : State → Result :=
  matMemOp o (some d) a disp 4096 true (fun _ => []) fun x => .ast x b.toNat

/-- TZERO and ACLR. -/
def matRegOp (o : Op) (op : EngOp) (s : State) : Result :=
  s.issueTo (some 0) [] [] fun s => s.sendEng o 0 none 0 op false false

/-- AREAD (R293): D's tag becomes FMT at issue, VL is that of the core's copy of the grant. The context's
earlier vector commands come first. -/
def areadOp (o : Op) (d a b : R6) (fmt : BitVec 4) (s : State) : Result :=
  s.issueTo (some 0) [b] [] fun s =>
    if s.me.window ≤ d.toNat then s.trap 0x09 (d.setWidth 64)
    else if s.busy s.cur then s.hold .busy
    else
      let vl := vlen s.me.laneCount fmt.toNat
      let op : EngOp := .aread d.toNat a.toNat (s.rd b).toNat fmt.toNat vl
      let s := s.modMe fun c => { c with vtags := c.vtags.put d.toNat fmt.toNat, holds := c.holds.filter (·.1 ≠ d.toNat) }
      s.sendEng o 0 none 0 op false false

/-- MDLD and SCLD (R294): `cap` is the size of the memory. -/
def sideOp (o : Op) (d a b : R6) (off cap : Nat) (mk : W64 → Nat → EngOp) (s : State) : Result :=
  s.issueEng 0 [a, b] [d] fun s =>
    let x := s.rd a
    let len := (s.rd b).toNat
    match s.rangesFault true [{ a := x.toNat, len := max 1 len, align := 64 }] with
    | some (t, v) => s.trap t v
    | none =>
      if len = 0 ∨ len % 64 ≠ 0 ∨ cap < 64 * off + len then s.trap 0x05 x
      else s.sendEng o 0 (some d) 0 (mk x len) false false

/-- ORLD (R294). -/
def orldOp (o : Op) (d a b : R6) (s : State) : Result :=
  s.issueEng 0 [a, b] [d] fun s =>
    let n := (s.rd b).toNat
    if n < 1 ∨ 64 < n then s.trap 0x05 (s.rd a)
    else s.sendEng o 0 (some d) 0 (.orld (s.rd a).toNat n) false false

/-- GANGMASK of a column and a mask: member index in bits 10:8 by `State.kread`. -/
def maskOk8 (m col : Nat) : Bool :=
  m == 0 || (((List.range 8).any fun lo => (List.range 9).any fun n => decide (2 ≤ n) && decide (lo + n ≤ 8) && m == (2 ^ n - 1) * 2 ^ lo) &&
    m / 2 ^ col % 2 == 1)

/-- GANGCFG (R285). -/
def gangcfgOp (o : Op) (a : R6) (s : State) : Result :=
  s.onlyIf (!(isHelper s.cur)) fun s => s.issue [a] [] fun s =>
    let core := s.myCore
    let c := s.core core
    let m := (s.rd a).toNat % 256
    if !(maskOk8 m (colOf core)) then s.trap 0x13 (BitVec.ofNat 64 m)
    else if c.queues.get 0 [] ≠ [] ∨ c.mmag.isSome then s.hold .gangFree
    else (s.modCore core fun c => { c with gangMask := m }).finish o

/-! ## The instructions -/

/-- MMA (R283). -/
def execMma (d : R6) (a : R6) (b : R6) (c : R6) (e : R6) (fmt : BitVec 4) (n : Byte) (as : Bit) (bs : Bit) (z : Bit) (st : St) (s : State) : Result :=
  mmaOp ⟨12, st⟩ .mma d a b c e fmt n as bs 0 0 z s

/-- MMAG (R284). -/
def execMmag (d : R6) (a : R6) (b : R6) (c : R6) (e : R6) (fmt : BitVec 4) (n : Byte) (as : Bit) (bs : Bit) (z : Bit) (st : St) (s : State) : Result :=
  mmagOp ⟨12, st⟩ d a b c e fmt n as bs z s

/-- MMAS (R286). -/
def execMmas (d : R6) (a : R6) (b : R6) (c : R6) (e : R6) (fmt : BitVec 4) (n : Byte) (as : Bit) (bs : Bit) (moff : R6) (z : Bit) (st : St) (s : State) : Result :=
  mmaOp ⟨12, st⟩ .mmas d a b c e fmt n as bs moff.toNat 0 z s

/-- MMAX (R290). -/
def execMmax (d : R6) (a : R6) (b : R6) (c : R6) (fmt : BitVec 4) (n : Byte) (as : Bit) (z : Bit) (st : St) (s : State) : Result :=
  mmaxOp ⟨12, st⟩ d a b c fmt n as z s

/-- MMAMX (R288). -/
def execMmamx (d : R6) (a : R6) (b : R6) (c : R6) (e : R6) (fmt : BitVec 4) (n : Byte) (as : Bit) (bs : Bit) (sa : BitVec 7) (sb : BitVec 7) (z : Bit) (st : St) (s : State) : Result :=
  mmaOp ⟨12, st⟩ .mmamx d a b c e fmt n as bs sa.toNat sb.toNat z s

/-- MMAWS (R288). -/
def execMmaws (d : R6) (a : R6) (b : R6) (c : R6) (e : R6) (fmt : BitVec 4) (n : Byte) (as : Bit) (bs : Bit) (sa : BitVec 7) (sb : BitVec 7) (z : Bit) (st : St) (s : State) : Result :=
  mmaOp ⟨12, st⟩ .mmaws d a b c e fmt n as bs sa.toNat sb.toNat z s

/-- TLD (R291). -/
def execTld (d : R6) (a : R6) (st : St) (s : State) : Result :=
  tldOp ⟨4, st⟩ d a 0 0 s

/-- TLD_X (R291). -/
def execTldX (d : R6) (a : R6) (fmt : BitVec 4) (imm : W32) (st : St) (s : State) : Result :=
  tldOp ⟨12, st⟩ d a fmt (sext32 imm) s

/-- TST (R291). -/
def execTst (d : R6) (a : R6) (b : R6) (st : St) (s : State) : Result :=
  tstOp ⟨4, st⟩ d a b 0 0 s

/-- TST_X (R291). -/
def execTstX (d : R6) (a : R6) (b : R6) (fmt : BitVec 4) (imm : W32) (st : St) (s : State) : Result :=
  tstOp ⟨12, st⟩ d a b fmt (sext32 imm) s

/-- TZERO (R291). -/
def execTzero (d : R6) (st : St) (s : State) : Result :=
  matRegOp ⟨4, st⟩ (.tzero d.toNat 0) s

/-- TZERO_X (R291). -/
def execTzeroX (d : R6) (fmt : BitVec 4) (st : St) (s : State) : Result :=
  matRegOp ⟨12, st⟩ (.tzero d.toNat fmt.toNat) s

/-- ACLR (R292). -/
def execAclr (d : R6) (st : St) (s : State) : Result :=
  matRegOp ⟨4, st⟩ (.aclr d.toNat) s

/-- ACLR_X (R292). -/
def execAclrX (d : R6) (st : St) (s : State) : Result :=
  matRegOp ⟨12, st⟩ (.aclr d.toNat) s

/-- ALD (R292). -/
def execAld (d : R6) (a : R6) (st : St) (s : State) : Result :=
  aldOp ⟨4, st⟩ d a 0 s

/-- ALD_X (R292). -/
def execAldX (d : R6) (a : R6) (imm : W32) (st : St) (s : State) : Result :=
  aldOp ⟨12, st⟩ d a (sext32 imm) s

/-- AST (R292). -/
def execAst (d : R6) (a : R6) (b : R6) (st : St) (s : State) : Result :=
  astOp ⟨4, st⟩ d a b 0 s

/-- AST_X (R292). -/
def execAstX (d : R6) (a : R6) (b : R6) (imm : W32) (st : St) (s : State) : Result :=
  astOp ⟨12, st⟩ d a b (sext32 imm) s

/-- AREAD (R293). -/
def execAread (d : R6) (a : R6) (b : R6) (fmt : BitVec 4) (st : St) (s : State) : Result :=
  areadOp ⟨12, st⟩ d a b fmt s

/-- MDLD (R294). -/
def execMdld (d : R6) (a : R6) (b : R6) (st : St) (s : State) : Result :=
  sideOp ⟨4, st⟩ d a b 0 16384 (fun x l => .mdld x l 0) s

/-- MDLD_X (R294). -/
def execMdldX (d : R6) (a : R6) (b : R6) (off : Byte) (st : St) (s : State) : Result :=
  sideOp ⟨12, st⟩ d a b off.toNat 16384 (fun x l => .mdld x l off.toNat) s

/-- SCLD (R294). -/
def execScld (d : R6) (a : R6) (b : R6) (st : St) (s : State) : Result :=
  sideOp ⟨4, st⟩ d a b 0 8192 (fun x l => .scld x l 0) s

/-- SCLD_X (R294). -/
def execScldX (d : R6) (a : R6) (b : R6) (off : BitVec 7) (st : St) (s : State) : Result :=
  sideOp ⟨12, st⟩ d a b off.toNat 8192 (fun x l => .scld x l off.toNat) s

/-- ORLD (R294). -/
def execOrld (d : R6) (a : R6) (b : R6) (st : St) (s : State) : Result :=
  orldOp ⟨4, st⟩ d a b s

/-- ORLD_X (R294). -/
def execOrldX (d : R6) (a : R6) (b : R6) (st : St) (s : State) : Result :=
  orldOp ⟨12, st⟩ d a b s

/-- GANGCFG (R285). -/
def execGangcfg (a : R6) (st : St) (s : State) : Result :=
  gangcfgOp ⟨4, st⟩ a s

end Sys2Proof.Machine
end

