-- ==== Sys2Proof/Machine/Blocks.lean ====
section
/-! DEFINITION. Blocks, sequences and the position translation buffer: majors 0x74 to 0x76 (R81 to R86, R312 to
R320), and what the block engine does with a command (R408). -/

namespace Sys2Proof.Machine

/-! ## Handles and pools (R81, Table 22.6) -/

/-- The parts of a block handle. -/
structure Handle where
  gen   : Nat
  stack : Nat
  pool  : Nat
  index : Nat

def handleOf (h : W64) : Handle := ⟨bitsOf h 63 48, bitsOf h 47 44, bitsOf h 43 40, bitsOf h 39 0⟩
def handleWord (gen stack pool index : Nat) : W64 :=
  BitVec.ofNat 64 (index % 2 ^ 40 + pool % 16 * 2 ^ 40 + stack % 16 * 2 ^ 44 + gen * 2 ^ 48)

/-- Block size of a POOLCFG.SIZE code. -/
def blockSizeOf (code : Nat) : Nat :=
  match code with
  | 0 => 0x4000
  | 1 => 0x10000
  | 2 => 0x40000
  | _ => 0x200000

def poolReg (stack pool i : Nat) : Nat := blkBase stack + 32 * pool + 8 * i
def State.poolOn (s : State) (stack pool : Nat) : Bool := s.regBits (poolReg stack pool 0) 2 2 == 1
def State.blockSize (s : State) (stack pool : Nat) : Nat := blockSizeOf (s.regBits (poolReg stack pool 0) 1 0)
def State.poolCount (s : State) (stack pool : Nat) : Nat := s.regBits (poolReg stack pool 2) 39 0
/-- Blocks that a virtual function may hold in a pool. -/
def State.quotaLimit (s : State) (stack vf pool : Nat) : Nat := s.regBits (blkBase stack + 0x200 + 8 * (16 * vf + pool)) 31 0
/-- Blocks charged to it. -/
def State.charged (s : State) (stack vf pool : Nat) : Nat := (s.stack stack).charged.get (16 * vf + pool) 0
def State.setCharged (s : State) (stack vf pool n : Nat) : State :=
  s.modStack stack fun t => { t with charged := t.charged.put (16 * vf + pool) n }
/-- Physical address of a block. -/
def State.blockAddr (s : State) (stack pool index : Nat) : Nat :=
  s.regBits (poolReg stack pool 1) 51 14 * 0x4000 + index * s.blockSize stack pool
/-- Virtual base of a pool in a virtual function. -/
def State.poolVbase (s : State) (stack vf pool : Nat) : Nat :=
  s.regBits (blkBase stack + 0x1200 + 8 * (16 * vf + pool)) 51 14 * 0x4000

def blockId (pool index : Nat) : Nat := pool * 2 ^ 40 + index
def State.block (s : State) (stack pool index : Nat) : Block := (s.stack stack).blocks.get (blockId pool index) {}
def State.setBlock (s : State) (stack pool index : Nat) (b : Block) : State :=
  s.modStack stack fun t => { t with blocks := t.blocks.put (blockId pool index) b }
def State.rinsedList (s : State) (stack pool : Nat) : List Nat := (s.stack stack).rinsed.get pool []
def State.setRinsed (s : State) (stack pool : Nat) (l : List Nat) : State :=
  s.modStack stack fun t => { t with rinsed := t.rinsed.put pool l }

/-- The reference count of R312. -/
def Block.refs (b : Block) : Nat := b.table_ + b.loose

/-- What a handle meets (R312, Table 12.5): no such block, stale, no quota. A block without references is
released or on the rinsed list. -/
def State.handleFault (s : State) (vf : Nat) (w : W64) : Option Cause :=
  let h := handleOf w
  let b := s.block h.stack h.pool h.index
  if !(s.poolOn h.stack h.pool) || decide (s.poolCount h.stack h.pool ≤ h.index) then some (0x05, w)
  else if b.gen ≠ h.gen ∨ b.refs = 0 then some (0x0B, w)
  else if s.quotaLimit h.stack vf h.pool = 0 then some (0x05, w)
  else none

/-! ## Sequences (R83) -/

def State.seq? (s : State) (vf num : Nat) : Option Seq := (s.stack (num % 16)).seqs.find? fun q => q.vf == vf && q.num == num
def State.setSeq (s : State) (q : Seq) : State :=
  s.modStack (q.num % 16) fun t => { t with seqs := t.seqs.map fun r => if r.vf == q.vf && r.num == q.num then q else r }
def State.dropSeq (s : State) (vf num : Nat) : State :=
  s.modStack (num % 16) fun t => { t with seqs := t.seqs.filter fun r => !(r.vf == vf && r.num == num) }

/-! ## Which ranges an engine operation touches (R82) -/

/-- Indices of a gather's list, as far as its pages are mapped. -/
def State.indicesOf (s : State) (q : EngCmd) (list : W64) (width count : Nat) : List Nat :=
  (List.range count).map fun i =>
    match s.keysOf q.vf q.asid (list.toNat + width * i) width with
    | (k, n) :: _ => bytesNat ((s.fetchFor q (byteKeys [(k, n)])).map (·.getD 0))
    | [] => 0

def MatSrc.ranges (n : Nat) : MatSrc → List (Nat × Nat)
  | .tile _ => []
  | .pair x y => (pairRows x y n).map fun a => (a, 64)

/-- The address ranges of an operation, 0x0 to 0xF_FFFF_FFFF_FFFF among them translated. -/
def State.opRanges (s : State) (q : EngCmd) : List (Nat × Nat) :=
  match q.op with
  | .cpy d a n _ => [(d.toNat, n), (a.toNat, n)]
  | .cpyg d a l z m w =>
    (d.toNat, m * z) :: (l.toNat, m * w) :: (s.indicesOf q l w m).map fun x => (a.toNat + x * z, z)
  | .barge d a n => [(d.toNat, n), (a.toNat, n)]
  | .bargem _ a n => [(a.toNat, n)]
  | .mma k _ a b _ n _ _ _ => a.ranges n ++ b.ranges (if k = .mmas then 2 * n else n)
  | .mmax _ a _ _ n _ =>
    a.ranges n ++ (List.range 4).flatMap fun o => (MatSrc.pair (q.blocks.getD (4 * o) 0) (q.blocks.getD (4 * o + 1) 0)).ranges n
  | .tld _ a _ => [(a.toNat, 2048)]
  | .tst a _ => [(a.toNat, 2048)]
  | .ald _ a | .ast a _ => [(a.toNat, 4096)]
  | .mdld a n _ | .scld a n _ => [(a.toNat, n)]
  | .attnq a =>
    [(a.toNat, 64), ((q.blocks.getD 0 0).toNat, 4 * bitsOf (q.blocks.getD 3 0) 41 32),
     ((q.blocks.getD 4 0).toNat, 16 + 4 * bitsOf (q.blocks.getD 3 0) 41 32)]
  | _ => []

/-- Does an operation touch a block: through a mapped range, or as an attention request that reads it? -/
def State.opTouches (s : State) (q : EngCmd) (stack pool index : Nat) : Bool :=
  let lo := s.blockAddr stack pool index
  let hi := lo + s.blockSize stack pool
  ((s.opRanges q).any fun r => (s.keysOf q.vf q.asid r.1 r.2).any fun k => decide (k.1 < hi) && decide (lo < k.1 + k.2)) ||
    (match q.op with
     | .attnq _ => (q.blocks.drop 10).any fun w =>
         let h := handleOf w
         h.stack == stack && h.pool == pool && h.index == index
     | _ => false)

/-- The operations in flight that touch a block, from their issue on (R106): virtual function, core, counter, number. (DESIGN CHOICE, log entry 61.) -/
def State.touching (s : State) (stack pool index : Nat) : List (Nat × Nat × Nat × Nat) :=
  let of (cores : Map CoreSt) : List (Nat × Nat × Nat × Nat) := cores.flatMap fun (p : Nat × CoreSt) =>
    ((p.2.running ++ p.2.taken ++ p.2.queues.flatMap fun x => x.2.map fun q => (x.1, q)).filter fun r =>
      s.opTouches r.2 stack pool index).map fun r => (r.2.vf, p.1, r.1, r.2.num)
  of s.cores ++ s.images.flatMap fun x => of x.cores

/-! ## References (R314 to R316) -/

/-- A block whose count is zero is released: its quota charge goes back, and it drains (R82, R316). -/
def State.release (s : State) (stack pool index : Nat) : State :=
  let b := s.block stack pool index
  let s := s.setCharged stack b.vf pool (s.charged stack b.vf pool - 1)
  s.setBlock stack pool index { b with rinsing := true, drain := s.touching stack pool index }

/-- Drops one reference of a handle, a table entry's or a loose one. -/
def State.dropRef (s : State) (loose : Bool) (w : W64) : State :=
  let h := handleOf w
  let b := s.block h.stack h.pool h.index
  let b := if loose then { b with loose := b.loose - 1 } else { b with table_ := b.table_ - 1 }
  let s := s.setBlock h.stack h.pool h.index b
  if b.refs = 0 then s.release h.stack h.pool h.index else s

/-- Removes the entries of a sequence from block `n` up from every buffer of the device (R84). -/
def State.ptbPurge (s : State) (vf seq n : Nat) : State :=
  { s with cores := s.cores.map fun (p : Nat × CoreSt) =>
      (p.1, { p.2 with ptb := p.2.ptb.filter fun e => !(e.vf == vf && e.seq == seq && decide (n ≤ e.blk)) }) }

/-- Cuts a table to `n` entries. -/
def State.cutSeq (s : State) (q : Seq) (n : Nat) : State :=
  let s := s.setSeq { q with entries := q.entries.take n }
  ((q.entries.drop n).foldl (fun s h => s.dropRef false h) s).ptbPurge q.vf q.num n

/-- What the block engine does when it takes a command: it accepts and performs it, or the command traps. Every core's position
translation buffer loses the entries of BTRUNC and BSEQDROP at once, where the manual lets a PTX before the acknowledgement still
return the old address (DESIGN CHOICE, log entry 62). -/
def blkCheck (q : EngCmd) (s : State) : Except Cause State :=
  match q.op with
  | .bfree w =>
    match s.handleFault q.vf w with
    | some c => .error c
    | none =>
      let h := handleOf w
      if (s.block h.stack h.pool h.index).loose = 0 then .error (0x05, w) else .ok (s.dropRef true w)
  | .btrunc w n =>
    match s.seq? q.vf (w.toNat % 2 ^ 24) with
    | none => .error (0x05, w)
    | some x => .ok (if x.entries.length ≤ n.toNat then s else s.cutSeq x n.toNat)
  | .bseqdrop w =>
    match s.seq? q.vf (w.toNat % 2 ^ 24) with
    | none => .error (0x05, w)
    | some x => .ok ((s.cutSeq x 0).dropSeq x.vf x.num)
  | _ => .ok s

/-! ## Requests (R312 to R317) -/

/-- Is a request behind a command that the core's block engine context has not accepted? -/
def State.engineIdle (s : State) (core ctr : Nat) : Bool :=
  ((s.core core).engCmds ctr).isEmpty

/-- Requests of a core's contexts under way, those of helpers that have ended too: helper number, place in the queue. -/
def State.requests (s : State) (core : Nat) : List (Nat × Nat) :=
  ((List.range 11).flatMap fun i => ((s.ctx (ctxId core i)).pend.filterMap Pend.request?).map fun n => ((s.ctx (ctxId core i)).hnum, n)) ++
    (s.core core).asked.filterMap fun a => a.2.request?.map fun n => (a.1, n)

/-- Has a request of a helper number left its core's queue: the context's earlier writes are acknowledged (R98), and the block commands
before it are complete? -/
def State.requestFree (s : State) (core hnum id : Nat) : Bool :=
  !(s.owes (s.core core).vfid core hnum id) && ((s.core core).engCmds 7).all fun q => decide (id < q.after)

/-- Have the requests of a core that stand in its queue before place `id` left it (R312)? One that has, and waits for a rinsed block
(R314), lets those behind it pass (DESIGN CHOICE, log entry 25). -/
def State.requestsGone (s : State) (core id : Nat) : Bool :=
  (s.requests core).all fun r => decide (id ≤ r.2) || s.requestFree core r.1 r.2

/-- Is a request of a helper number next at its block engine? -/
def State.requestNext (s : State) (core hnum id : Nat) : Bool := s.requestFree core hnum id && s.requestsGone core id
/-- The same of a context. -/
def State.requestTurn (s : State) (ctx id : Nat) : Bool := s.requestNext (coreOf ctx) (s.ctx ctx).hnum id

/-- BSHARE and BQUERY pass through the block engine queue, as releases, and hold the context until the engine has checked the handle (R312). -/
def blkRequest (srcs dsts : List R6) (body : State → State) (s : State) : Result :=
  s.issueAcc srcs dsts fun s =>
    if s.acks s.cur ≠ 0 then s.hold .acks
    else if !(s.engineIdle s.myCore 7 && s.requestsGone s.myCore s.nextId) then s.hold (.engineEmpty 7)
    else body s

/-- BALLOC and BSEQNEW: the context goes on, and the answer, two values or one, is interlocked (R312). -/
def askOp (o : Op) (srcs : List R6) (d e : R6) (op : State → Nat → PendOp) (answer : State → Option (State × W64 × Option W64)) (s : State) : Result :=
  s.issueAcc srcs [d, e] fun s =>
    let id := s.nextId
    let later : State := (({ s with nextId := id + 1 } : State).modMe fun c => { c with relMark := id + 1 }).pendOn o d (op s id) (some e)
    if s.requestTurn s.cur id then
      match answer s with
      | some (s, v, some w) => (s.wr2 d v e w).finish o
      | some (s, v, none) => (s.wr d v).finish o
      | none => later
    else later

/-- The pools that an allocation tries, in order: stack, pool. -/
def poolOrder (home pool : Nat) : List (Nat × Nat) :=
  let die := home / 4
  let mine := (List.range 4).map (4 * die + ·)
  ((home :: mine.filter (· ≠ home)) ++ (List.range 16).filter fun t => t / 4 ≠ die).map fun t => (t, pool)

/-- What an allocation finds. -/
inductive Alloc where
  | quota
  | wait
  | got (s : State) (h : W64)

/-- Takes the head of the first usable rinsed list (R314). (DESIGN CHOICE, log entry 25.) -/
def State.allocate (s : State) (vf : Nat) (loose : Bool) (pools : List (Nat × Nat)) : Alloc :=
  let under := pools.filter fun p => decide (s.charged p.1 vf p.2 < s.quotaLimit p.1 vf p.2)
  if under = [] then .quota
  else
    match under.findSome? fun p => match s.rinsedList p.1 p.2 with
        | i :: rest => some (p.1, p.2, i, rest)
        | [] => none with
    | none => .wait
    | some (t, p, i, rest) =>
      let b := s.block t p i
      let s := (s.setRinsed t p rest).setCharged t vf p (s.charged t vf p + 1)
      .got (s.setBlock t p i { b with table_ := if loose then 0 else 1, loose := if loose then 1 else 0, vf := vf, rinsing := false })
        (handleWord b.gen t p i)

/-- The answer to a BALLOC: the handle or a status, and the entry's index; none while every usable rinsed list is empty (R314).
(DESIGN CHOICE, log entry 25.) -/
def State.allocAnswer (s : State) (vf : Nat) (loose : Bool) (x : W64) : Option (State × W64 × Option W64) :=
  if loose then
    let t := bitsOf x 7 4
    let p := bitsOf x 3 0
    if s.quotaLimit t vf p = 0 then some (s, 0x04, none)
    else match s.allocate vf true [(t, p)] with
      | .quota => some (s, 0x01, none)
      | .wait => none
      | .got s h => some (s, h, some 0)
  else match s.seq? vf (x.toNat % 2 ^ 24) with
    | none => some (s, 0x03, none)
    | some q =>
      if 2 ^ 20 ≤ q.entries.length then some (s, 0x02, none)
      else match s.allocate vf false (poolOrder (q.num % 16) q.pool) with
        | .quota => some (s, 0x01, none)
        | .wait => none
        | .got s h => some (s.setSeq { q with entries := q.entries ++ [h] }, h, some (BitVec.ofNat 64 q.entries.length))

/-- BALLOC (R314): D the handle or a status, E the entry's index. (DESIGN CHOICE, log entry 25.) -/
def ballocOp (o : Op) (d : R6) (e : R6) (a : R6) (loose : Bool) : State → Result :=
  askOp o [a] d e (fun s id => .alloc loose (s.rd a) id) fun s => s.allocAnswer (s.vfOf s.cur) loose (s.rd a)

/-- BSHARE (R315). A full table is found before a count at its limit, which the manual does not order (DESIGN CHOICE, log entry 34). -/
def bshareOp (o : Op) (d a b : R6) (loose : Bool) (s : State) : Result :=
  blkRequest [a, b] [d] (fun s =>
    let w := s.rd b
    let vf := s.vfOf s.cur
    let status (s : State) (n : W64) : State := (s.wr d n).finish o
    match s.handleFault vf w with
    | some (c, v) => s.trap c v
    | none =>
      let h := handleOf w
      let blk := s.block h.stack h.pool h.index
      if loose then
        if 65535 ≤ blk.refs then status s 0x07
        else status (s.setBlock h.stack h.pool h.index { blk with loose := blk.loose + 1 }) 0
      else match s.seq? vf ((s.rd a).toNat % 2 ^ 24) with
        | none => status s 0x03
        | some q =>
          if 2 ^ 20 ≤ q.entries.length then status s 0x02
          else if 65535 ≤ blk.refs then status s 0x07
          else status ((s.setBlock h.stack h.pool h.index { blk with table_ := blk.table_ + 1 }).setSeq { q with entries := q.entries ++ [w] }) 0) s

/-- BQUERY (R317): D the pool's virtual base, E the block size. -/
def bqueryOp (o : Op) (d e a : R6) (s : State) : Result :=
  blkRequest [a] [d, e] (fun s =>
    let w := s.rd a
    let vf := s.vfOf s.cur
    match s.handleFault vf w with
    | some (c, v) => s.trap c v
    | none =>
      let h := handleOf w
      (s.wr2 d (BitVec.ofNat 64 (s.poolVbase h.stack vf h.pool)) e (BitVec.ofNat 64 (s.blockSize h.stack h.pool))).finish o) s

/-- The status of BSEQNEW (R313). (DESIGN CHOICE, log entry 34.) -/
def State.seqNewStatus (s : State) (vf num pool : Nat) : Nat :=
  let t := num % 16
  let len := s.regBits (blkBase t + 0x2208) 39 16
  if len = 0 then 0x06
  else if s.quotaLimit t vf pool = 0 then 0x04
  else if (s.seq? vf num).isSome then 0x05
  else if Config.seqCapacity len ≤ (s.stack t).seqs.length then 0x06
  else 0

/-- The answer to a BSEQNEW. -/
def State.seqNewAnswer (s : State) (vf : Nat) (a b : W64) : State × W64 :=
  let num := a.toNat % 2 ^ 24
  let pool := b.toNat % 16
  let n := s.seqNewStatus vf num pool
  (if n = 0 then s.modStack (num % 16) fun t => { t with seqs := t.seqs ++ [{ vf := vf, num := num, pool := pool, entries := [] }] } else s, BitVec.ofNat 64 n)

/-- BSEQNEW (R313). -/
def bseqnewOp (o : Op) (d a b : R6) : State → Result :=
  askOp o [a, b] d 0 (fun s id => .seqNew (s.rd a) (s.rd b) id) fun s =>
    let (t, v) := s.seqNewAnswer (s.vfOf s.cur) (s.rd a) (s.rd b)
    some (t, v, none)

/-- The block engine answers a request whose turn it is. -/
def State.answerBlock (s : State) (ctx : Nat) (p : Pend) : State :=
  match p.op with
  | .alloc loose x id =>
    if s.requestTurn ctx id then
      match s.allocAnswer (s.vfOf ctx) loose x with
      | some (t, v, w) => t.deliver2 ctx p v w
      | none => s
    else s
  | .seqNew a b id =>
    if s.requestTurn ctx id then
      let (t, v) := s.seqNewAnswer (s.vfOf ctx) a b
      t.deliver ctx p v
    else s
  | _ => s

/-- The block engine answers a request of a helper that has ended: nothing receives the value. (DESIGN CHOICE, log entry 25.) -/
def State.answerAsked (s : State) (core : Nat) (a : Nat × PendOp) : State :=
  let gone (s : State) : State := s.modCore core fun c => { c with asked := c.asked.erase a }
  match a.2 with
  | .alloc loose x id =>
    if s.requestNext core a.1 id then
      match s.allocAnswer (s.core core).vfid loose x with
      | some (t, _, _) => gone t
      | none => s
    else s
  | .seqNew x y id => if s.requestNext core a.1 id then gone (s.seqNewAnswer (s.core core).vfid x y).1 else s
  | _ => s

/-! ## Commands (R312, R316) -/

/-- A command enters the block engine queue, which holds two, requests that have not left it among them (R129, R312). -/
def blkCommand (o : Op) (srcs : List R6) (d : R6) (op : State → EngOp) (s : State) : Result :=
  let waiting := ((s.core s.myCore).queues.get 7 []).length + ((s.requests s.myCore).filter fun r => !(s.requestFree s.myCore r.1 r.2)).length
  if s.me.acquiring then .next (s.hold .acquire)
  else s.issueIn (decide (waiting < 2)) (.engine 7) srcs [d] fun s => s.sendEng o 7 (some d) 0 (op s) true false

def bfreeOp (o : Op) (d a : R6) : State → Result := blkCommand o [a] d fun s => .bfree (s.rd a)
def btruncOp (o : Op) (d a b : R6) : State → Result := blkCommand o [a, b] d fun s => .btrunc (s.rd a) (s.rd b)
def bseqdropOp (o : Op) (d a : R6) : State → Result := blkCommand o [a] d fun s => .bseqdrop (s.rd a)

/-! ## Position translation (R84, R318 to R320) -/

def PtEntry.isFor (e : PtEntry) (vf seq blk : Nat) : Bool := e.vf == vf && e.seq == seq && e.blk == blk

/-- PTX: fixed latency 2; a hit becomes the most recently used entry. -/
def ptxOp (o : Op) (d a b : R6) (s : State) : Result :=
  s.issue [a, b] [d] fun s =>
    let seq := (s.rd a).toNat % 2 ^ 24
    let blk := (s.rd b).toNat % 2 ^ 20
    let vf := s.vfOf s.cur
    match (s.core s.myCore).ptb.find? (·.isFor vf seq blk) with
    | some e =>
      ((s.modCore s.myCore fun c => { c with ptb := e :: c.ptb.filter fun x => !(x.isFor vf seq blk) }).wrLate d e.addr 2).finish o
    | none => s.trap 0x0A (BitVec.ofNat 64 (seq * 2 ^ 24 + blk))

def blockSizes : List Nat := [0x4000, 0x10000, 0x40000, 0x200000]

/-- PTFILL. -/
def ptfillOp (o : Op) (d a b c : R6) (s : State) : Result :=
  s.issue [d, a, b, c] [] fun s =>
    let size := (s.rd c).toNat
    let addr := s.rd b
    if !(blockSizes.contains size) then s.trap 0x05 (s.rd c)
    else if addr.toNat % size ≠ 0 then s.trap 0x03 addr
    else
      let e : PtEntry := { vf := s.vfOf s.cur, seq := (s.rd d).toNat % 2 ^ 24, blk := (s.rd a).toNat % 2 ^ 20, addr := addr, size := size }
      (s.modCore s.myCore fun c => { c with ptb := (e :: c.ptb.filter fun x => !(x.isFor e.vf e.seq e.blk)).take 64 }).finish o

/-- PTINV. -/
def ptinvOp (o : Op) (a b : R6) (s : State) : Result :=
  s.issue [a, b] [] fun s =>
    let vf := s.vfOf s.cur
    let gone (e : PtEntry) : Bool :=
      s.rd a == ones64 || (e.vf == vf && e.seq == (s.rd a).toNat % 2 ^ 24 && (s.rd b == ones64 || e.blk == (s.rd b).toNat % 2 ^ 20))
    (s.modCore s.myCore fun c => { c with ptb := c.ptb.filter fun e => !(gone e) }).finish o

/-! ## The instructions -/

/-- BALLOC (R314). -/
def execBalloc (d : R6) (a : R6) (st : St) (s : State) : Result :=
  ballocOp ⟨4, st⟩ d 0 a false s

/-- BALLOC_X (R314). -/
def execBallocX (d : R6) (a : R6) (e : R6) (loose : Bit) (st : St) (s : State) : Result :=
  ballocOp ⟨12, st⟩ d e a (loose == 1) s

/-- BFREE (R316). -/
def execBfree (d : R6) (a : R6) (st : St) (s : State) : Result :=
  bfreeOp ⟨4, st⟩ d a s

/-- BFREE_X (R316). -/
def execBfreeX (d : R6) (a : R6) (st : St) (s : State) : Result :=
  bfreeOp ⟨12, st⟩ d a s

/-- BSHARE (R315). -/
def execBshare (d : R6) (a : R6) (b : R6) (st : St) (s : State) : Result :=
  bshareOp ⟨4, st⟩ d a b false s

/-- BSHARE_X (R315). -/
def execBshareX (d : R6) (a : R6) (b : R6) (loose : Bit) (st : St) (s : State) : Result :=
  bshareOp ⟨12, st⟩ d a b (loose == 1) s

/-- BTRUNC (R316). -/
def execBtrunc (d : R6) (a : R6) (b : R6) (st : St) (s : State) : Result :=
  btruncOp ⟨4, st⟩ d a b s

/-- BTRUNC_X (R316). -/
def execBtruncX (d : R6) (a : R6) (b : R6) (st : St) (s : State) : Result :=
  btruncOp ⟨12, st⟩ d a b s

/-- BQUERY (R317). -/
def execBquery (d : R6) (a : R6) (st : St) (s : State) : Result :=
  bqueryOp ⟨4, st⟩ d 0 a s

/-- BQUERY_X (R317). -/
def execBqueryX (d : R6) (a : R6) (e : R6) (st : St) (s : State) : Result :=
  bqueryOp ⟨12, st⟩ d e a s

/-- BSEQNEW (R313). -/
def execBseqnew (d : R6) (a : R6) (b : R6) (st : St) (s : State) : Result :=
  bseqnewOp ⟨4, st⟩ d a b s

/-- BSEQNEW_X (R313). -/
def execBseqnewX (d : R6) (a : R6) (b : R6) (st : St) (s : State) : Result :=
  bseqnewOp ⟨12, st⟩ d a b s

/-- BSEQDROP (R316). -/
def execBseqdrop (d : R6) (a : R6) (st : St) (s : State) : Result :=
  bseqdropOp ⟨4, st⟩ d a s

/-- BSEQDROP_X (R316). -/
def execBseqdropX (d : R6) (a : R6) (st : St) (s : State) : Result :=
  bseqdropOp ⟨12, st⟩ d a s

/-- PTX (R318). -/
def execPtx (d : R6) (a : R6) (b : R6) (st : St) (s : State) : Result :=
  ptxOp ⟨4, st⟩ d a b s

/-- PTX_X (R318). -/
def execPtxX (d : R6) (a : R6) (b : R6) (st : St) (s : State) : Result :=
  ptxOp ⟨12, st⟩ d a b s

/-- PTFILL (R319). -/
def execPtfill (d : R6) (a : R6) (b : R6) (st : St) (s : State) : Result :=
  ptfillOp ⟨4, st⟩ d a b 0 s

/-- PTFILL_X (R319). -/
def execPtfillX (d : R6) (a : R6) (b : R6) (c : R6) (st : St) (s : State) : Result :=
  ptfillOp ⟨12, st⟩ d a b c s

/-- PTINV (R320). -/
def execPtinv (a : R6) (b : R6) (st : St) (s : State) : Result :=
  ptinvOp ⟨4, st⟩ a b s

/-- PTINV_X (R320). -/
def execPtinvX (a : R6) (b : R6) (st : St) (s : State) : Result :=
  ptinvOp ⟨12, st⟩ a b s

end Sys2Proof.Machine
end

