-- ==== Sys2Proof/Machine/Engines.lean ====
section
/-! DEFINITION. Copies, barges, attention requests, REFWAIT and sluiced stores: majors 0x70, 0x71, 0x77 and 0x78
(R298 to R305, R321 to R325), and what those engines do with a command. -/

namespace Sys2Proof.Machine

/-! ## Copies and gathers (R302, R303) -/

/-- What a range that was read holds: its bytes' keys, the bytes, and the address of the first poisoned word. -/
structure Got where
  keys : List Nat
  vals : List (Option Byte)
  bad  : Option W64

/-- The bytes of a source range that begins at `a`, once it may be read. -/
def gotFrom (q : EngCmd) (a : Nat) : State × Except EngStop (List (Nat × Nat)) → State × Except EngStop Got
  | (s, .error e) => (s, .error e)
  | (s, .ok ps) =>
    let vs := s.fetchFor q (byteKeys ps)
    (s, .ok { keys := byteKeys ps, vals := vs, bad := poisonAt a vs })

/-- Reads a range that issue checked, or one that is found only now. -/
def State.readKnown (s : State) (core : Nat) (q : EngCmd) (a n : Nat) : State × Except EngStop Got := gotFrom q a (s.engSource core q a n)
def State.readLater (s : State) (core : Nat) (q : EngCmd) (a n : Nat) : State × Except EngStop Got := gotFrom q a (s.laterSource core q a n)

/-- What copying `n` bytes that have been read at `a` into a range at `d` writes; `list` are the keys of the index that led to them. -/
def State.copyPlan (s : State) (core : Nat) (q : EngCmd) (d a n : Nat) (tag : Option Bool) (list : List Nat) (got : Got) : EngOut :=
  match s.engDest core q d n with
  | (_, .error e) => .stop e
  | (s, .ok ds) =>
    let ks := byteKeys ds
    .write s { out := ks.zip got.vals, dest := ds, tag := tag, bads := lacking ks a got.vals,
               uses := (if list = [] then [] else [(ks, list)]) ++ (ks.zip got.keys).map fun p => ([p.1], [p.2]) }

/-- Copies `n` bytes. -/
def copyInto (core : Nat) (q : EngCmd) (d a n : Nat) (tag : Option Bool) (s : State) : EngOut :=
  match s.readKnown core q a n with
  | (_, .error e) => .stop e
  | (s, .ok got) => s.copyPlan core q d a n tag [] got

/-- The indices of a gather's list: `none` for an index of which a byte is poisoned. -/
def indexList (w : Nat) (vs : List (Option Byte)) (m : Nat) : List (Option Nat) :=
  (List.range m).map fun i =>
    let bs := (vs.drop (w * i)).take w
    if bs.any (·.isNone) then none else some (bytesNat (bs.map (·.getD 0)))

/-- The pieces of CPYG's source records, of which those that a bank under refresh holds up let the others be read meanwhile (R70). -/
def recordPieces (core : Nat) (q : EngCmd) (a z : Nat) : List (Option Nat) → State → State × Except EngStop (List (Nat × Nat))
  | [], s => (s, .ok [])
  | none :: l, s => recordPieces core q a z l s
  | some x :: l, s =>
    match s.laterPieces core q (a + x * z) z with
    | (s, .error e) => (s, .error e)
    | (s, .ok ps) =>
      match recordPieces core q a z l s with
      | (s, .error e) => (s, .error e)
      | (s, .ok qs) => (s, .ok (ps ++ qs))

/-- What a record whose index cannot be used writes: nothing, and its destination is not accessed (R301). `list` are the keys of the index,
`at_` its address: a word that the record shares with another has met the poison too. -/
def State.voidRecord (s : State) (core : Nat) (q : EngCmd) (d n at_ : Nat) (list : List Nat) : Plan :=
  let ps := match (s.engDest core { q with skip := true } d n).2 with
    | .ok ps => ps
    | .error _ => (chunks d n).map fun p => (nowhere + p.1, p.2)
  let ks := byteKeys ps
  { out := ks.map fun k => (k, none), dest := [], bads := ks.map fun k => (wordKey k, BitVec.ofNat 64 (at_ / 8 * 8)), uses := [(ks, list)] }

/-- CPYG's records, by place and index: a record whose index was poisoned is not written. `list` are the keys of the index list at `at_`,
`w` the bytes of an index. -/
def gatherRecords (core : Nat) (q : EngCmd) (d a z w at_ : Nat) (list : List Nat) : List (Option Nat × Nat) → Plan → State → EngOut
  | [], p, s => .write s p
  | (none, i) :: l, p, s =>
    gatherRecords core q d a z w at_ list l (p.append (s.voidRecord core q (d + i * z) z (at_ + w * i) ((list.drop (w * i)).take w))) s
  | (some x, i) :: l, p, s =>
    match s.readLater core q (a + x * z) z with
    | (_, .error e) => .stop e
    | (s, .ok got) =>
      match s.copyPlan core q (d + i * z) (a + x * z) z none ((list.drop (w * i)).take w) got with
      | .write s r => gatherRecords core q d a z w at_ list l (p.append r) s
      | out => out

/-- CPYG. -/
def gatherEffect (core : Nat) (q : EngCmd) (d a l : W64) (z m w : Nat) (s : State) : EngOut :=
  match s.readKnown core q l.toNat (m * w) with
  | (_, .error e) => .stop e
  | (s, .ok got) =>
    let xs := indexList w got.vals m
    match State.engReads core q (recordPieces core q a.toNat z xs s) with
    | (_, .error e) => .stop e
    | (s, .ok _) => gatherRecords core q d.toNat a.toNat z w l.toNat got.keys xs.zipIdx { out := [], dest := [] } s

/-! ## Barges (R304, R305) -/

/-- BARGE: every destination page maps to one remote module. Where a page does not, the fault names the first address of the range
(R304 gives none; DESIGN CHOICE, log entry 62). -/
def bargeEffect (core : Nat) (q : EngCmd) (d a : Nat) (n : Nat) (s : State) : EngOut :=
  match s.engKeys core q accEWrite (chunks d n) with
  | (_, .error f) => .stop (.fault f)
  | (s, .ok ds) =>
    let devs := (ds.filter fun p => !(isNowhere p.1)).map fun p => if isRemoteKey p.1 then some (keyDev p.1) else none
    if devs.all fun x => x.isSome && devs.head? == some x then copyInto core q d a n none s
    else .stop (.fault (engFault d accEWrite))

/-- BARGEM: a copy at each destination, in snake order. -/
def bargemEffect (core : Nat) (q : EngCmd) (dests : List Nat) (a : Nat) (n : Nat) (s : State) : EngOut :=
  match s.readKnown core q a n with
  | (_, .error e) => .stop e
  | (s, .ok got) =>
    let ds := dests.map fun k => (k, n)
    .write s { out := ds.flatMap fun d => (byteKeys [d]).zip got.vals, dest := ds, bads := ds.flatMap fun d => lacking (byteKeys [d]) a got.vals,
               uses := ds.flatMap fun d => ((byteKeys [d]).zip got.keys).map fun p => ([p.1], [p.2]) }

/-- Place of row and column in snake order. -/
def snakeOf (row col width : Nat) : Nat := row * width + (if row % 2 = 0 then col else width - 1 - col)

/-- The cores or clusters of a placed set that a mask selects, in snake order. (DESIGN CHOICE, log entry 33.) -/
def bargemTargets (placed : List Nat) (mask : Nat) (clusters : Bool) : List Nat :=
  let set := if clusters then placed else placed.flatMap coresOf
  let all := set.sortedBy fun a b => decide (a ≤ b)
  let chosen := (all.zipIdx.filter fun p => mask / 2 ^ p.2 % 2 = 1).map (·.1)
  let at_ (x : Nat) : Nat := if clusters then snakeOf (x / 4) (x % 4) 4 else snakeOf (x / 32) (x % 32) 32
  chosen.sortedBy fun a b => decide (at_ a ≤ at_ b)

/-- Key of offset `off` of a destination. -/
def bargemKey (clusters : Bool) (off x : Nat) : Nat := if clusters then sramBase + x * 0x200000 + off else localKey x off

/-- The offset's faults (R305). TVAL of the 0x14 is the offset, as of the 0x05: the rule names it for that alone (DESIGN CHOICE, log
entry 62). -/
def State.bargemFault (s : State) (clusters : Bool) (a len : Nat) (ts : List Nat) : Option Cause :=
  if ts = [] ∨ len = 0 then none
  else if (if clusters then ts.any fun x => decide (s.scratch x < a + len) else decide (0x20000 < a + len)) then some (0x05, BitVec.ofNat 64 a)
  else if !clusters && ts.any fun x => s.inBerth x (a + len - 1) then some (0x14, BitVec.ofNat 64 a)
  else none

/-! ## Attention requests (R321, R322) -/

/-- Fields of the descriptor's eight words. -/
structure Attn where
  q      : W64
  seq    : Nat
  first  : Nat
  count  : Nat
  stride : Nat
  voff   : Nat
  hd     : Nat
  fmt    : Nat
  out    : W64

def attnOf (ws : List W64) : Attn :=
  let w (i : Nat) : W64 := ws.getD i 0
  { q := w 0, seq := bitsOf (w 1) 23 0, first := bitsOf (w 2) 31 0, count := bitsOf (w 2) 63 32,
    stride := bitsOf (w 3) 15 0, voff := bitsOf (w 3) 31 16, hd := bitsOf (w 3) 41 32, fmt := bitsOf (w 3) 45 42, out := w 4 }

/-- Bytes of a vector of HD elements in the record's format. -/
def Attn.bytes (x : Attn) : Nat := x.hd * fmtWidth x.fmt / 8

/-- Are the fields that do not depend on the block size within their limits? -/
def attnFieldsOk (ws : List W64) : Bool :=
  let x := attnOf ws
  let w (i : Nat) : W64 := ws.getD i 0
  x.q.toNat % 64 == 0 && x.out.toNat % 64 == 0 && bitsOf (w 1) 63 24 == 0 && decide (1 ≤ x.count) &&
    bitsOf (w 3) 63 46 == 0 && w 5 == 0 && w 6 == 0 && w 7 == 0 && decide (1 ≤ x.stride) && x.stride % 64 == 0 &&
    decide (16 ≤ x.hd) && decide (x.hd ≤ 512) && x.hd % 16 == 0 && (x.fmt == 5 || x.fmt == 6 || x.fmt == 7 || x.fmt == 8) &&
    decide (x.bytes ≤ x.stride) && decide (x.voff + x.bytes ≤ x.stride)

/-- The status of a request that reads nothing; the block size and the handles of the blocks of one that does. (DESIGN CHOICE, log entry 34.) -/
def State.attnPlan (s : State) (vf : Nat) (ws : List W64) : Nat × Nat × List W64 :=
  let x := attnOf ws
  if !(attnFieldsOk ws) then (4, 0, [])
  else match s.seq? vf x.seq with
    | none => (3, 0, [])
    | some q =>
      let size := s.blockSize (q.num % 16) q.pool
      if size % x.stride ≠ 0 then (4, 0, [])
      else
        let t := size / x.stride
        let lo := x.first / t
        let hi := (x.first + x.count - 1) / t
        if q.entries.length ≤ hi then (1, 0, []) else (0, size, (q.entries.drop lo).take (hi + 1 - lo))

/-- Reads the descriptor, and with it the table entries: the words that the request then keeps. -/
def State.attnBegin (s : State) (core : Nat) (q : EngCmd) (a : W64) : State × Except EngStop (List W64 × Option W64) :=
  match s.readKnown core q a.toNat 64 with
  | (s, .error e) => (s, .error e)
  | (s, .ok got) =>
    let ws := (List.range 8).map fun i => BitVec.ofNat 64 (bytesNat (((got.vals.drop (8 * i)).take 8).map (·.getD 0)))
    let p := s.attnPlan q.vf ws
    (s, .ok (ws ++ BitVec.ofNat 64 p.1 :: BitVec.ofNat 64 p.2.1 :: p.2.2, got.bad))

/-- `n` elements of a format from physical memory as numbers; `none` when a word is poisoned. -/
def State.percolate (s : State) (q : EngCmd) (fmt k n : Nat) : Option (List Nat) :=
  let vs := s.fetchFor q (byteKeys [(k, n * fmtWidth fmt / 8)])
  if vs.any (·.isNone) then none
  else
    let x := bytesNat (vs.map (·.getD 0))
    some ((List.range n).map fun i => rne 9 (numOf fmt (x / 2 ^ (fmtWidth fmt * i))))

/-- A triple (m, l, o) of R182. -/
abbrev Triple := Nat × Nat × List Nat

/-- MERGE of two triples. -/
def mergeTriple (a b : Triple) : Triple :=
  let r := merge3 (a.1, a.2.1, 0) (b.1, b.2.1, 0)
  (r.1, r.2.1, (a.2.2.zip b.2.2).map fun p => (merge3 (a.1, a.2.1, p.1) (b.1, b.2.1, p.2)).2.2)

def emptyTriple (n : Nat) : Triple := (0xFF800000, 0, List.replicate n 0)

/-- The triple of one position; `none` when its data are poisoned. -/
def State.positionTriple (s : State) (q : EngCmd) (x : Attn) (qs : List Nat) (k : Nat) : Option Triple :=
  match s.percolate q x.fmt k x.hd, s.percolate q x.fmt (k + x.voff) x.hd with
  | some ks, some vs => some (rne 9 (sumExact ((qs.zip ks).map fun p => (numOf 9 p.1).mul (numOf 9 p.2))), 0x3F800000, vs)
  | _, _ => none

/-- Merges the triples of a block's records. -/
def State.blockTriple (s : State) (q : EngCmd) (x : Attn) (qs : List Nat) : List Nat → Triple → Option Triple
  | [], t => some t
  | k :: ks, t => match s.positionTriple q x qs k with
    | some p => State.blockTriple s q x qs ks (mergeTriple t p)
    | none => none

/-- Physical addresses of a request's records, block by block. -/
def State.attnRecords (s : State) (x : Attn) (size : Nat) (hs : List W64) : List (List Nat) :=
  let t := size / x.stride
  let lo := x.first / t
  hs.zipIdx.map fun p =>
    let h := handleOf p.1
    let b := lo + p.2
    ((List.range t).filter fun r => decide (x.first ≤ b * t + r) && decide (b * t + r < x.first + x.count)).map
      fun r => s.blockAddr h.stack h.pool h.index + r * x.stride

/-- The triple of the request: blocks in ascending order. -/
def State.attnTriple (s : State) (q : EngCmd) (x : Attn) (qs : List Nat) (blocks : List (List Nat)) : Option Triple :=
  let each := blocks.map fun ks => s.blockTriple q x qs ks (emptyTriple x.hd)
  if each.any (·.isNone) then none
  else match each.filterMap id with
    | [] => none
    | t :: ts => some (ts.foldl mergeTriple t)

/-- Keys of the bytes that a request's records hold: keys and values (R322). -/
def attnReads (x : Attn) (records : List (List Nat)) : List Nat := byteKeys (records.flatten.flatMap fun k => [(k, x.bytes), (k + x.voff, x.bytes)])

/-- What the request writes at the address of the result area: 32-bit words, and the status last (R322). Every byte of it comes
from those that the request has read, at `read`. -/
def State.attnWrite (s : State) (core : Nat) (q : EngCmd) (a : Nat) (ws : List Nat) (status : Nat) (poison : Bool) (read : List Nat) : EngOut :=
  if s.laterFault q a (8 + 4 * ws.length) true then .stop (.fault (engFault a accEWrite)) else
  match s.engDest core q a (8 + 4 * ws.length) with
  | (_, .error e) => .stop e
  | (s, .ok ds) =>
    let body := if poison then List.replicate (4 * ws.length) none else (ws.flatMap fun w => natBytes w 4).map some
    .write s { out := (byteKeys ds).zip ((natBytes status 8).map some ++ body), dest := ds, spoil := poison, last := ds.head?.map (·.1),
               uses := [(byteKeys ds, read)] }

/-- ATTNQ: what the offload unit and the percolators do. (DEDUCED, log entry 32.) -/
def attnEffect (core : Nat) (q : EngCmd) (a : W64) (s : State) : EngOut :=
  let got : State × Except EngStop (List W64 × Option W64) :=
    if q.blocks = [] then s.attnBegin core q a else (s, .ok (q.blocks, none))
  match got with
  | (_, .error e) => .stop e
  | (s, .ok (_, some x)) => .done (s.poisoned q (some x))
  | (s, .ok (ws, none)) =>
    let x := attnOf ws
    match (ws.getD 8 0).toNat with
    | 0 =>
      match s.readLater core q x.q.toNat (4 * x.hd) with
      | (_, .error e) => .stop e
      | (s, .ok got) =>
        if got.bad.isSome then .done (s.poisoned q got.bad)
        else
          let qs := (List.range x.hd).map fun i => bytesNat (((got.vals.drop (4 * i)).take 4).map (·.getD 0))
          let records := s.attnRecords x (ws.getD 9 0).toNat (ws.drop 10)
          let read := got.keys ++ attnReads x records
          match s.attnTriple q x qs records with
          | some (m, l, o) => s.attnWrite core q x.out.toNat (m :: l :: o) 0 false read
          | none => s.attnWrite core q x.out.toNat (List.replicate (2 + x.hd) 0) 2 true read
    | n => s.attnWrite core q x.out.toNat [] n false []

/-! ## The engines' part -/

/-- The effect of an operation of an engine context. -/
def engEffect (core : Nat) (q : EngCmd) (s : State) : EngOut :=
  match q.op with
  | .cpy d a n tag => if n = 0 then .done s else copyInto core q d.toNat a.toNat n tag s
  | .cpyg d a l z m w => gatherEffect core q d a l z m w s
  | .barge d a n => if n = 0 then .done s else bargeEffect core q d.toNat a.toNat n s
  | .bargem ds a n => if ds = [] ∨ n = 0 then .done s else bargemEffect core q ds a.toNat n s
  | .attnq a => attnEffect core q a s
  | .empty | .bfree _ | .btrunc _ _ | .bseqdrop _ => .done s
  | .mma _ _ _ _ _ _ _ _ _ | .mmax _ _ _ _ _ _ | .tld _ _ _ | .tst _ _ | .tzero _ _ | .aclr _ | .ald _ _ | .ast _ _
  | .aread _ _ _ _ _ | .mdld _ _ _ | .scld _ _ _ | .orld _ _ => matEffect core q s

/-! ## Issue -/

/-- CPY and CPYT (R302). `tag` is the tag that CPYT sets. -/
def cpyOp (o : Op) (d a b c : R6) (ctx : Nat) (tag : Option Bool) (od : Nat) (ph : Bit) (s : State) : Result :=
  s.issueEng (1 + ctx) [a, b, c] [d] fun s =>
    let len := (s.rd c).toNat
    let al := if tag.isSome then 8 else 1
    let dst := (s.rd a).toNat
    let src := (s.rd b).toNat
    if 2 ^ 32 ≤ len then s.trap 0x05 (s.rd c)
    else match s.rangesFault tag.isSome [{ a := dst, len := len, align := al, w := true }, { a := src, len := len, align := al },
        { a := len, len := 0, align := al }] with
      | some (t, v) => s.trap t v
      | none => s.sendEng o (1 + ctx) (some d) ph (.cpy (s.rd a) (s.rd b) len tag) false (isAcq od)

/-- CPYG (R303). -/
def cpygOp (o : Op) (d a b c e : R6) (width ctx od : Nat) (ph : Bit) (s : State) : Result :=
  s.issueEng (1 + ctx) [a, b, c, e] [d] fun s =>
    let z := bitsOf (s.rd e) 31 0
    let m := bitsOf (s.rd e) 63 32
    if z < 1 ∨ 65536 < z ∨ 2 ^ 24 < m then s.trap 0x05 (s.rd e)
    else match s.rangesFault false [{ a := (s.rd a).toNat, len := m * z, w := true }, { a := (s.rd c).toNat, len := m * width, align := width }] with
      | some (t, v) => s.trap t v
      | none => s.sendEng o (1 + ctx) (some d) ph (.cpyg (s.rd a) (s.rd b) (s.rd c) z m width) false (isAcq od)

/-- BARGE (R304). -/
def bargeOp (o : Op) (d a b c : R6) (od : Nat) (ph : Bit) (s : State) : Result :=
  s.issueEng 5 [a, b, c] [d] fun s =>
    let len := (s.rd c).toNat
    if 2 ^ 32 ≤ len then s.trap 0x05 (s.rd c)
    else match s.rangesFault true [{ a := (s.rd a).toNat, len := len, w := true }, { a := (s.rd b).toNat, len := len }] with
      | some (t, v) => s.trap t v
      | none => s.sendEng o 5 (some d) ph (.barge (s.rd a) (s.rd b) len) false (isAcq od)

/-- BARGEM (R305). (DESIGN CHOICE, log entry 33.) -/
def bargemOp (o : Op) (d a b c e : R6) (cl : Bool) (od : Nat) (ph : Bit) (s : State) : Result :=
  s.issueEng 5 [a, b, c, e] [d] fun s =>
    let len := (s.rd c).toNat
    let off := (s.rd a).toNat
    let ts := bargemTargets s.me.placed (s.rd e).toNat cl
    if 2 ^ 32 ≤ len then s.trap 0x05 (s.rd c)
    else match s.rangesBefore [{ a := (s.rd b).toNat, len := len }], s.bargemFault cl off len ts, s.rangesWeight true [{ a := (s.rd b).toNat, len := len }] with
      | some (0x05, v), _, _ => s.trap 0x05 v
      | _, some (0x05, v), _ => s.trap 0x05 v
      | some (t, v), _, _ => s.trap t v
      | none, some (t, v), _ => s.trap t v
      | none, none, some (t, v) => s.trap t v
      | none, none, none => s.sendEng o 5 (some d) ph (.bargem (ts.map (bargemKey cl off)) (s.rd b) len) false (isAcq od)

/-- ATTNQ (R321). -/
def attnqOp (o : Op) (d a : R6) (od : Nat) (ph : Bit) (s : State) : Result :=
  s.issueEng 6 [a] [d] fun s =>
    match s.rangesFault true [{ a := (s.rd a).toNat, len := 64, align := 64 }] with
    | some (t, v) => s.trap t v
    | none => s.sendEng o 6 (some d) ph (.attnq (s.rd a)) false (isAcq od)

/-- The time until which REFWAIT waits, if it waits (R323). -/
def State.refreshEnd (s : State) (bank guard : Nat) : Option Nat :=
  let d := s.die (dieOf s.myCore)
  let g := min guard 1500
  let k := (bank + 32 - d.bank % 32) % 32
  if k = 0 then some (d.bankFrom + 1500)
  else if d.bankFrom + 1500 * k ≤ s.ptp + g then some (d.bankFrom + 1500 * (k + 1))
  else none

/-- REFWAIT (R323). -/
def refwaitOp (o : Op) (d a : R6) (guard : Nat) (s : State) : Result :=
  s.issue [a] [d] fun s =>
    let done : State := (s.wr d (s.wsref (dieOf s.myCore))).finish o
    match s.waits with
    | some (.refresh t) => if t ≤ s.ptp then done else s.hold (.refresh t)
    | _ => match s.refreshEnd ((s.rd a).toNat % 32) guard with
      | some t => if t ≤ s.ptp then done else s.hold (.refresh t)
      | none => done

/-! ## Sluices (R140, R324, R325) -/

/-- Is a group available on this module (R140)? (DEDUCED, log entry 35). -/
def State.sluiceOn (s : State) (g : Nat) : Bool :=
  s.regBits (sluiceBase g) 0 0 == 1 && (s.regBits (sluiceBase g) 2 1 == 1 || s.regBits (sluiceBase g) 2 1 == 3)
def State.sluiceVbase (s : State) (g : Nat) : Nat := s.regBits (sluiceBase g + 8) 51 6 * 64
def State.sluiceLen (s : State) (g : Nat) : Nat := s.regBits (sluiceBase g + 0x10) 39 6 * 64

/-- MCST and MCSTC: the store goes to the group's sequencer. (DEDUCED, log entry 35.) -/
def sluiceOp (o : Op) (d a b : R6) (srcs : List R6) (expect : State → Option W64) (val : State → W64) (od : Nat) (ph : Bit) (s : State) : Result :=
  s.issueAcc ([a, b] ++ srcs) [d] fun s =>
    let g := (s.rd a).toNat % 256
    let w := s.rd b
    if !(s.sluiceOn g) then s.trap 0x12 (BitVec.ofNat 64 g)
    else if w.toNat % 8 ≠ 0 then s.trap 0x03 w
    else if w.toNat < s.sluiceVbase g ∨ s.sluiceVbase g + s.sluiceLen g ≤ w.toNat then s.trap 0x05 w
    else
      let x : SStore :=
        { id := s.nextId, ctx := s.cur, hnum := s.me.hnum, dst := s.me.regKey d, off := w.toNat - s.sluiceVbase g, expect := expect s, val := val s,
          after := if isRel od then s.nextId else 0, phase := (s.me.phase + ph.toNat) % 2, vf := s.vfOf s.cur,
          window := s.winNum }
      let s := (({ s with nextId := s.nextId + 1 } : State).modGroup g fun t => { t with waiting := t.waiting ++ [x] }).active x.vf x.phase
      let s := (s.finish o).modMe fun c => { c with relMark := if isRel od then x.after else c.relMark }
      if isAcq od then s.modMe fun c => { c with wait := some (.sluice g x.id), waitFrom := s.cycle }
      else if d = 0 then s.modMe fun c => { c with wait := some (.stamp g x.id), waitFrom := s.cycle }
      else s

/-- MCSEQ. (DEDUCED, log entry 35.) -/
def mcseqOp (o : Op) (d a : R6) (s : State) : Result :=
  s.issue [a] [d] fun s =>
    let g := (s.rd a).toNat % 256
    if !(s.sluiceOn g) then s.trap 0x12 (BitVec.ofNat 64 g)
    else (s.wr d (BitVec.ofNat 64 ((s.group g).gen * 2 ^ 32 + (s.group g).applied))).finish o

/-! ## The instructions -/

/-- CPY (R302). -/
def execCpy (d : R6) (a : R6) (b : R6) (st : St) (s : State) : Result :=
  cpyOp ⟨4, st⟩ d a b 0 0 none 0 0 s

/-- CPY_X (R302). -/
def execCpyX (d : R6) (a : R6) (b : R6) (c : R6) (od : BitVec 2) (ph : Bit) (ctx : BitVec 2) (st : St) (s : State) : Result :=
  cpyOp ⟨12, st⟩ d a b c ctx.toNat none od.toNat ph s

/-- CPYT (R302). -/
def execCpyt (d : R6) (a : R6) (b : R6) (st : St) (s : State) : Result :=
  cpyOp ⟨4, st⟩ d a b 0 0 (some false) 0 0 s

/-- CPYT_X (R302). -/
def execCpytX (d : R6) (a : R6) (b : R6) (c : R6) (od : BitVec 2) (ph : Bit) (ctx : BitVec 2) (tv : Bit) (st : St) (s : State) : Result :=
  cpyOp ⟨12, st⟩ d a b c ctx.toNat (some (tv == 1)) od.toNat ph s

/-- CPYG (R303). -/
def execCpyg (d : R6) (a : R6) (b : R6) (st : St) (s : State) : Result :=
  cpygOp ⟨4, st⟩ d a b 0 0 4 0 0 0 s

/-- CPYG_X (R303). -/
def execCpygX (d : R6) (a : R6) (b : R6) (c : R6) (e : R6) (fmt : BitVec 4) (od : BitVec 2) (ph : Bit) (ctx : BitVec 2) (st : St) (s : State) : Result :=
  cpygOp ⟨12, st⟩ d a b c e (if fmt = 2 then 2 else 4) ctx.toNat od.toNat ph s

/-- BARGE (R304). -/
def execBarge (d : R6) (a : R6) (b : R6) (st : St) (s : State) : Result :=
  bargeOp ⟨4, st⟩ d a b 0 0 0 s

/-- BARGE_X (R304). -/
def execBargeX (d : R6) (a : R6) (b : R6) (c : R6) (od : BitVec 2) (ph : Bit) (st : St) (s : State) : Result :=
  bargeOp ⟨12, st⟩ d a b c od.toNat ph s

/-- BARGEM (R305). -/
def execBargem (d : R6) (a : R6) (b : R6) (st : St) (s : State) : Result :=
  bargemOp ⟨4, st⟩ d a b 0 0 false 0 0 s

/-- BARGEM_X (R305). -/
def execBargemX (d : R6) (a : R6) (b : R6) (c : R6) (e : R6) (od : BitVec 2) (ph : Bit) (cl : Bit) (st : St) (s : State) : Result :=
  bargemOp ⟨12, st⟩ d a b c e (cl == 1) od.toNat ph s

/-- ATTNQ (R321). -/
def execAttnq (d : R6) (a : R6) (st : St) (s : State) : Result :=
  attnqOp ⟨4, st⟩ d a 0 0 s

/-- ATTNQ_X (R321). -/
def execAttnqX (d : R6) (a : R6) (od : BitVec 2) (ph : Bit) (st : St) (s : State) : Result :=
  attnqOp ⟨12, st⟩ d a od.toNat ph s

/-- REFWAIT (R323). -/
def execRefwait (d : R6) (a : R6) (st : St) (s : State) : Result :=
  refwaitOp ⟨4, st⟩ d a 0 s

/-- REFWAIT_X (R323). -/
def execRefwaitX (d : R6) (a : R6) (guard : BitVec 11) (st : St) (s : State) : Result :=
  refwaitOp ⟨12, st⟩ d a guard.toNat s

/-- MCST (R324). -/
def execMcst (d : R6) (a : R6) (b : R6) (st : St) (s : State) : Result :=
  sluiceOp ⟨4, st⟩ d a b [] (fun _ => none) (fun _ => 0) 0 0 s

/-- MCST_X (R324). -/
def execMcstX (d : R6) (a : R6) (b : R6) (c : R6) (od : BitVec 2) (ph : Bit) (st : St) (s : State) : Result :=
  sluiceOp ⟨12, st⟩ d a b [c] (fun _ => none) (fun s => s.rd c) od.toNat ph s

/-- MCSTC (R324). -/
def execMcstc (d : R6) (a : R6) (b : R6) (st : St) (s : State) : Result :=
  sluiceOp ⟨4, st⟩ d a b [] (fun _ => some 0) (fun _ => 0) 0 0 s

/-- MCSTC_X (R324). -/
def execMcstcX (d : R6) (a : R6) (b : R6) (c : R6) (e : R6) (od : BitVec 2) (ph : Bit) (st : St) (s : State) : Result :=
  sluiceOp ⟨12, st⟩ d a b [c, e] (fun s => some (s.rd c)) (fun s => s.rd e) od.toNat ph s

/-- MCSEQ (R325). -/
def execMcseq (d : R6) (a : R6) (st : St) (s : State) : Result :=
  mcseqOp ⟨4, st⟩ d a s

/-- MCSEQ_X (R325). -/
def execMcseqX (d : R6) (a : R6) (st : St) (s : State) : Result :=
  mcseqOp ⟨12, st⟩ d a s

end Sys2Proof.Machine
end

