-- ==== Sys2Proof/Machine/Frames.lean ====
section
/-! DEFINITION. Saving a context to a frame and restoring it, fault records and their rings, and the matrix area
of pre-emption (R385, R403 to R406, Tables 21.8, 22.4 and 22.5). -/

namespace Sys2Proof.Machine

/-! ## Fault rings (R403, R404) -/

/-- The ring of an address space. -/
def ringOf (asid : Nat) : Nat := (asid % 32) ^^^ (asid / 32 % 32) ^^^ (asid / 1024 % 32) ^^^ (asid / 32768 % 2)

def ringReg (r i : Nat) : Nat := tffBase + 0x100 + 32 * r + 8 * i

/-- Has the ring room for one more record? -/
def State.ringRoom (s : State) (r : Nat) : Bool :=
  let n := s.regBits (ringReg r 1) 3 0
  let waiting := (s.regBits (ringReg r 3) 31 0 + 2 ^ 32 - s.regBits (ringReg r 2) 31 0) % 2 ^ 32
  n != 0 && decide (waiting < 2 ^ n)

/-- Writes a record and advances TAIL; word 6 receives its number. -/
def State.ringWrite (s : State) (r : Nat) (ws : List W64) : State :=
  let tail := s.regBits (ringReg r 3) 31 0
  let at_ := s.regBits (ringReg r 0) 51 6 * 64 + 64 * (tail % 2 ^ s.regBits (ringReg r 1) 3 0)
  let ws := ws.set 6 (BitVec.ofNat 64 ((tail + 1) % 2 ^ 32))
  let s := ws.zipIdx.foldl (fun s p => s.write64 (at_ + 8 * p.2) p.1) s
  (s.clearPoison at_ 64).setRegBits (ringReg r 3) 31 0 (tail + 1)

/-- Has the ring room for a record of a cluster, and waits no earlier one of the cluster for that ring? -/
def State.recordFits (s : State) (cl r : Nat) : Bool := s.ringRoom r && !((s.cluster cl).overflow.any (·.ring == r))

/-- Is there a place for a record of a cluster, in its ring or its overflow queue? -/
def State.recordRoom (s : State) (cl r : Nat) : Bool :=
  s.recordFits cl r || decide ((s.cluster cl).overflow.length < 64)

/-- Writes a record, or puts it behind those that wait in the cluster. (DEDUCED, log entry 44.) -/
def State.pushRecord (s : State) (cl r : Nat) (ws : List W64) : State :=
  if s.recordFits cl r then s.ringWrite r ws
  else s.modCluster cl fun c => { c with overflow := c.overflow ++ [{ ring := r, words := ws }] }

/-- The record of a context's fault. -/
def contextRecord (id asid vf : Nat) (f : FaultInfo) (frame : Nat) (pc : W64) : List W64 :=
  [f.va, BitVec.ofNat 64 (id % 65536 + asid % 65536 * 2 ^ 16 + vf % 32 * 2 ^ 32 + f.kind % 8 * 2 ^ 37 + f.level % 8 * 2 ^ 44 + f.cause % 256 * 2 ^ 48),
   BitVec.ofNat 64 frame, pc, 0, f.pte, 0, 0]

/-- The record of an engine fault. -/
def engineRecord (core ctr : Nat) (q : EngCmd) (f : FaultInfo) : List W64 :=
  [f.va, BitVec.ofNat 64 (core % 4096 + 0xF000 + q.asid % 65536 * 2 ^ 16 + q.vf % 32 * 2 ^ 32 + f.kind % 8 * 2 ^ 37 + ctr % 16 * 2 ^ 40 +
      f.level % 8 * 2 ^ 44 + f.cause % 256 * 2 ^ 48),
   0, 0, BitVec.ofNat 64 q.num, f.pte, 0, BitVec.ofNat 64 (q.issuer % 65536 + q.hnum % 2 ^ 32 * 2 ^ 16)]

/-! ## Frames (Table 22.5) -/

/-- A field of a frame: offset, bytes, value. -/
abbrev FrameField := Nat × Nat × Nat

/-- k registers that a context holds as written values (Table 6.6). -/
def heldK : List Nat := [1, 2, 3, 4, 5, 6, 7, 8, 11, 12, 13, 18]

def frameK (id : Nat) (c : Ctx) (n : Nat) : Nat :=
  if n = 0 then id else if n = 19 then c.lanes + (if c.yield then 65536 else 0)
  else if heldK.contains n then (c.k n).toNat else 0

/-- The fields of a frame; every other byte is zero. `gang`: the first member's frame and the columns of the gang, to which GMASK adds
the member's index (R30). -/
def frameFields (id vf kind : Nat) (c : Ctx) (gang : Option (Nat × Nat)) : List FrameField :=
  let flag (b : Bool) (i : Nat) : Nat := if b then 2 ^ i else 0
  let g := c.laneCount
  let binding (i : Nat) : List FrameField := match c.bindings[i]? with
    | some b => [(0x360 + 24 * i, 8, b.word.toNat), (0x368 + 24 * i, 8, b.base.toNat), (0x370 + 24 * i, 8, b.len.toNat)]
    | none => []
  [(0x000, 8, c.pc.toNat),
   (0x008, 8, id % 65536 + c.asid % 65536 * 2 ^ 16 + vf % 32 * 2 ^ 32 + kind % 8 * 2 ^ 37 + c.window % 64 * 2 ^ 40 + c.lanes % 512 * 2 ^ 46 +
      flag c.mig 55 + flag c.inMiss 56 + flag c.actor.isSome 57 + flag c.gang 58),
   (0x010, 4, c.hnum), (0x018, 8, c.reqLanes)] ++
  ((List.range 64).map fun i => (0x040 + 8 * i, 8, (c.regAt i).toNat)) ++
  ((List.range 16).map fun i => (0x240 + 8 * i, 8, (c.regAt (64 + i)).toNat)) ++
  ((List.range 20).map fun n => (0x2C0 + 8 * n, 8, frameK id c n)) ++
  (List.range 4).flatMap binding ++
  ((List.range 64).map fun h => (0x3C0 + 2 * h, 2, c.migCnt.get h 0)) ++
  ((List.range c.window).map fun n => (0x440 + 4 * n * g, 4 * g, c.vbits n)) ++
  ((List.range c.window).map fun n => (0xC440 + n, 1, c.vtag n)) ++
  ((List.range 256).map fun l => (0xC480 + 4 * l, 4, c.gen l)) ++
  (match c.actor with
   | some r => [(0xC880, 8, r.key.toNat), (0xC888, 8, r.cls + r.slot * 65536)]
   | none => []) ++
  (match gang with
   | some (f, m) => [(0xC890, 8, f), (0xC898, 8, m + 256 * (colOf (coreOf id) - gangFirst m))]
   | none => [])

/-- Removes what `n` bytes from key `k` up hold: they read zero. -/
def State.zeroRange (s : State) (k n : Nat) : State := { s with mem := s.mem.filter fun c => !(decide (k ≤ c.1) && decide (c.1 < k + n)) }

def State.putFields (s : State) (a : Nat) (l : List FrameField) : State := l.foldl (fun s f => s.write (a + f.1) f.2.1 f.2.2) s

/-- Writes a frame. -/
def State.writeFrame (s : State) (a : Nat) (l : List FrameField) : State :=
  ((s.zeroRange a 0x10000).putFields a l).clearPoison a 0x10000

/-- Offsets at which Cleoz may change a frame: PC, SCALAR and KREGS (R406). -/
def frameFree (o : Nat) : Bool := decide (o < 8) || (decide (0x40 ≤ o) && decide (o < 0x240)) || (decide (0x2C0 ≤ o) && decide (o < 0x360))

/-- Does a frame hold what was saved, but for those? -/
def State.frameKept (s : State) (a : Nat) (l : List FrameField) : Bool :=
  l.all (fun f => frameFree f.1 || s.read (a + f.1) f.2.1 == f.2.2 % 2 ^ (8 * f.2.1)) &&
    (s.mem.filter fun c => decide (a ≤ c.1) && decide (c.1 < a + 0x10000)).all fun c =>
      frameFree (c.1 - a) || l.any fun f => decide (f.1 ≤ c.1 - a) && decide (c.1 - a < f.1 + f.2.1)

/-- The context that a frame gives back. (DESIGN CHOICE, log entry 16.) -/
def State.fromFrame (s : State) (f : Saved) : Ctx :=
  let c := { f.ctx with pc := s.read64 f.frame, gens := (List.range 256).map fun l => (l, f.ctx.gen l) }
  let c : Ctx := (List.range 64).foldl (fun (c : Ctx) i => if i = 0 then c else { c with regs := c.regs.put i (s.read64 (f.frame + 0x40 + 8 * i)) }) c
  heldK.foldl (fun (c : Ctx) n => c.setK n (BitVec.ofNat 64 (s.read (f.frame + 0x2C0 + 8 * n) 8))) c

/-- Frames of a virtual function that hold no saved context (R405). -/
def State.freeFrames (s : State) (vf : Nat) : List Nat :=
  let base := s.regBits (tffBase + 0x500 + 16 * vf) 51 16 * 0x10000
  ((List.range (s.regBits (tffBase + 0x508 + 16 * vf) 15 0)).map (base + 0x10000 * ·)).filter fun a => !(s.saved.any (·.frame == a))

/-! ## Saving (R385, R403, R405) -/

/-- Accesses that a save abandons: they wait for a tag, or back off (R77, R224). (DESIGN CHOICE, log entry 26.) -/
def Flight.abandoned (f : Flight) : Bool := f.waiting.isSome || (decide (0 < f.refused) && !f.performed)

/-- Has the wired barrier let a context at MMAG go? -/
def State.released (s : State) (id : Nat) : Bool :=
  match (s.core (coreOf id)).mmag with
  | some (c, _, go) => c == id && go
  | none => false

/-- Has every fixed-latency write of a context taken effect (R351)? -/
def Ctx.writesDone (c : Ctx) (now : Nat) : Bool := c.late.all fun l => decide (l.ready ≤ now)

/-- Is the context at an instruction boundary where it can be saved: nothing of it is under way but what a save
abandons, its busy flag is clear, no stamp and no answer is outstanding? (DESIGN CHOICE, log entry 26). (DESIGN CHOICE, log entry 38.) -/
def State.saveable (s : State) (id : Nat) : Bool :=
  let c := s.ctx id
  let held := match c.wait with
    | some (.accept _ _) => true
    | some (.service _ _) => true
    | _ => false
  c.life == .live && !held && !(s.released id) && !(c.pend.any fun p => match p.op with
    | .add _ _ _ => true
    | _ => false) && c.writesDone s.cycle && c.dueTrap.isNone && !(s.busy id) && (s.flights.all fun f => f.ctx != id || f.abandoned) &&
    !(s.groups.any fun g => g.2.waiting.any fun x => x.ctx == id && x.dst != 0)

/-- The access of a context that is abandoned and after which it has issued nothing: it is the instruction at PC (R405). That of a context which took a page
fault is the faulting one (R403). -/
def State.lastAccess (s : State) (id : Nat) : Option Flight :=
  if (s.ctx id).wait = some .fault then none else s.flights.find? fun f => f.ctx == id && f.until_ == (s.ctx id).nextIssue

/-- The other abandoned accesses of a context, to be issued again on restore (R77). (DESIGN CHOICE, log entry 26.) -/
def State.redoOf (s : State) (id : Nat) : List Flight :=
  s.flights.filter fun f => f.ctx == id && (f.until_ != (s.ctx id).nextIssue || (s.ctx id).wait == some .fault)

/-- A pending instruction as it is saved: its arrival is made again. One that still waits for earlier writes waits for them after the
restore too (R91). -/
def Pend.again (p : Pend) : Pend :=
  match p.op with
  | .barrier isC v => { p with op := .arrive isC v 0 }
  | .erase key cls _ => { p with op := .erase key cls none }
  | _ => p

/-- Waits behind an instruction that is done which go on after the save: for a timeline number, or a sluiced store (R299, R324). -/
def Wait.outlasts : Wait → Bool
  | .timeline _ _ | .sluice _ _ | .stamp _ _ => true
  | _ => false

/-- A context as it is saved. An abandoned access, or an arrival that waits, after which nothing has issued is the
instruction at PC (R405); the others are made again on restore. What is left of a fixed-latency distance at the next
instruction stays, so that the stall check finds it after the save; the value before the write does not (R351).
(DESIGN CHOICE, log entry 26.) -/
def State.savedCtx (s : State) (id : Nat) : Ctx :=
  let c := s.ctx id
  let ps := c.pend.filter fun p => match p.op with
    | .access _ => false
    | _ => true
  let last (p : Pend) : Bool := p.until_ == c.nextIssue && c.wait != some .fault
  let (pc, next) := match s.lastAccess id, ps.find? last with
    | some f, _ => (f.pc, f.issued)
    | none, some p => (p.pc, p.issued)
    | none, none => (c.pc, c.nextIssue)
  { c with pc := pc, wait := c.wait.filter Wait.outlasts, fault := none, holds := [], nextIssue := 0,
           pend := (ps.filter fun p => !(last p)).map Pend.again,
           late := (pruneLate next c.late).map fun l => { l with old := c.regAt l.reg, ready := l.ready - next } }

/-- A saved context goes on at a cycle. -/
def Ctx.resumed (c : Ctx) (now : Nat) : Ctx :=
  { c with life := .live, nextIssue := now, late := c.late.map fun l => { l with ready := l.ready + now } }

/-- The slot of a context becomes free. -/
def State.vacate (s : State) (id : Nat) : State :=
  let s := (s.withdraw id).freeCtx id
  let s := { s with flights := s.flights.filter (·.ctx ≠ id) }
  (if isHelper id then s.wakeIdle (coreOf id) else s).lowerYield (clusterOf (coreOf id))

/-- Saves a context into a frame. `mat`, `pad`: its core's matrix state and its cluster's scratchpad are saved with it. -/
def State.save (s : State) (id frame kind : Nat) (gang : Option (Nat × Nat)) (mat pad : Bool) : State :=
  let vf := s.vfOf id
  let c := s.savedCtx id
  let redo := s.redoOf id
  let s := s.writeFrame frame (frameFields id vf kind c gang)
  ({ s with saved := s.saved ++ [{ frame := frame, id := id, core := coreOf id, vf := vf, kind := kind, ctx := c, gang := gang, resumed := false, mat := mat, pad := pad, redo := redo }] } : State).vacate id

/-- The members of the gang item that a context runs (R30). -/
def State.members (s : State) (id : Nat) : List Nat :=
  let c := s.ctx id
  if c.gang then (s.ctxs.filter fun p => p.2.gang && p.2.startItem == c.startItem && p.2.startItem.isSome).map (·.1) else [id]

/-! ## Matrix state in the pre-emption area (Table 21.8) -/

def State.matArea (s : State) (vf core : Nat) : Nat := (s.reg (schBase + 0x100 + 16 * vf)).toNat + 0x98000000 + core * 0x2C000

def matFields (c : CoreSt) : List FrameField :=
  ((List.range 32).map fun i => (0x1000 * i, 4096, (c.acc i).toNat)) ++
  ((List.range 8).map fun i => (0x20000 + 0x800 * i, 2048, (c.tile i).toNat)) ++
  [(0x24000, 16384, c.sideMem.toNat), (0x28000, 8192, c.scaleMem.toNat)] ++
  ((List.range 8).map fun i => (0x2A000 + i, 1, c.tileTag i))

/-- Writes a core's matrix state to the area and clears its operand record cache; `back`: a helper of the core is saved, before whose
return it is written back. -/
def State.saveMatrix (s : State) (core : Nat) (back : Bool) : State :=
  let a := s.matArea (s.core core).vfid core
  let s := ((s.zeroRange a 0x2C000).putFields a (matFields (s.core core))).clearPoison a 0x2C000
  s.modCore core fun c => { c with orCache := [], matSaved := if back then some a else c.matSaved }

/-- The tags of the tile registers in an area. No register carries one above 11 (R163): what a byte above that gives is a free value
among the others (DESIGN CHOICE, log entry 16). -/
def State.areaTags (s : State) (a : Nat) : State × List Nat :=
  let bytes := (List.range 8).map fun i => s.read (a + 0x2A000 + i) 1
  if bytes.all fun b => decide (b < 12) then (s, bytes)
  else
    let (s, r) := s.freshNat
    (s, bytes.zipIdx.map fun p => if p.1 < 12 then p.1 else r / 12 ^ p.2 % 12)

/-- Writes it back before the first helper saved from the core resumes. -/
def State.restoreMatrix (s : State) (core : Nat) : State :=
  match (s.core core).matSaved with
  | none => s
  | some a =>
    let (s, tags) := s.areaTags a
    s.modCore core fun c =>
      let c := (List.range 32).foldl (fun (c : CoreSt) i => c.setAcc i (BitVec.ofNat 32768 (s.read (a + 0x1000 * i) 4096))) c
      let c := (List.range 8).foldl (fun (c : CoreSt) i =>
        c.setTile i (BitVec.ofNat 16384 (s.read (a + 0x20000 + 0x800 * i) 2048)) (tags.getD i 0)) c
      { c with sideMem := BitVec.ofNat 131072 (s.read (a + 0x24000) 16384), scaleMem := BitVec.ofNat 65536 (s.read (a + 0x28000) 8192), matSaved := none }

/-- May the gang of a core change: its matrix queue is empty, and no context of it is at the wired barrier (R285)? -/
def State.gangFree (s : State) (core : Nat) : Bool := ((s.core core).queues.get 0 []).isEmpty && (s.core core).mmag.isNone

/-- Are a core's matrix queue and engine empty, and no context at the wired barrier? -/
def State.matrixIdle (s : State) (core : Nat) : Bool := s.engineIdle core 0 && (s.core core).mmag.isNone

/-! ## Scratchpad splits (R64, R65) -/

/-- Changes a cluster's split: the cache is written back and emptied, and new scratchpad bytes are zeroed, FULL. (DEDUCED, log entry 36.) -/
def State.setSplit (s : State) (cl k : Nat) : State :=
  let old := (s.cluster cl).split
  let s := s.writeBack cl (fun _ => true) true
  let lo := sramBase + cl * 0x200000 + old * 0x40000
  let n := (k - old) * 0x40000
  let s := s.zeroRange lo n
  let s := { s with empties := s.empties.filter fun w => !(decide (lo ≤ w) && decide (w < lo + n)),
                    poison := s.poison.filter fun w => !(decide (lo ≤ w) && decide (w < lo + n)) }
  s.modCluster cl fun c => { c with split := k }

def cellsIn (m : List Host.Cell) (lo n : Nat) : List Host.Cell := m.filter fun c => decide (lo ≤ c.1) && decide (c.1 < lo + n)
def keysIn (l : List Nat) (lo n : Nat) : List Nat := l.filter fun w => decide (lo ≤ w) && decide (w < lo + n)

/-- Puts bytes and EMPTY words back. -/
def State.putCells (s : State) (cells : List Host.Cell) (empties : List Nat) : State :=
  let s := cells.foldl (fun (s : State) c => { s with mem := memSet s.mem c.1 c.2 }) s
  { s with empties := empties.foldl insertKey s.empties }

/-- What a slice switch or a pre-emption writes into the save area of a virtual function (R385, R390, Table 21.5): the manual gives the sizes of
the parts and no layout, so that every byte of the area may get any value (DESIGN CHOICE, log entry 16). -/
def State.writeSave (s : State) (vf : Nat) : State :=
  let lo := bitsOf (s.reg (schBase + 0x100 + 16 * vf)) 51 0
  let n := 0x98000000
  let (s, r) := s.freshNat
  ({ s with mem := (List.range n).foldl (fun m i => memSet m (lo + i) (BitVec.ofNat 8 (r / 256 ^ i))) s.mem } : State).clearPoison lo n

/-- Saves a cluster's scratchpad before a pre-emption changes its split (R385). (DESIGN CHOICE, log entry 16.) -/
def State.savePad (s : State) (cl : Nat) : State :=
  let lo := sramBase + cl * 0x200000
  let n := s.scratch cl
  (s.writeSave s.resident).modCluster cl fun c => { c with padSaved := some (c.split, cellsIn s.mem lo n, keysIn s.empties lo n, keysIn s.poison lo n) }

/-- A saved helper's cluster gets its scratchpad back. -/
def State.restorePad (s : State) (cl : Nat) : State :=
  match (s.cluster cl).padSaved with
  | none => s
  | some (k, cells, empties, poison) =>
    let s := s.setSplit cl k
    let lo := sramBase + cl * 0x200000
    let s := s.zeroRange lo (k * 0x40000)
    let out (w : Nat) : Bool := !(decide (lo ≤ w) && decide (w < lo + k * 0x40000))
    let s := { s with empties := s.empties.filter out, poison := poison.foldl insertKey (s.poison.filter out) }
    (s.putCells cells empties).modCluster cl fun c => { c with padSaved := none }

/-! ## Restoring (R383, R405, R406) -/

/-- Issues an abandoned access of a context again: its address is checked and translated anew (R77, R401). It keeps its place among the
accesses of its context, so that the releases behind it go on waiting for it (R91, R98). (DESIGN CHOICE, log entry 26.) -/
def State.reissue (s : State) (id : Nat) (f : Flight) : State :=
  match s.checkAccess id f.va.toNat f.size (f.op.acc f.sync) (f.op.isTagged f.sync) with
  | .trap c v => s.takeTrap id c v f.pc none
  | .page s g => s.takeTrap id g.cause g.va f.pc (some g)
  | .ok s x al =>
    let g := { f with ctx := id, key := x.key, alias_ := al, remote := x.remote, window := s.winNum, issued := s.cycle, until_ := 0,
                      waiting := none, refused := 0, backoff := 0, xlAt := s.nextId }
    let s : State := { s with flights := s.flights ++ [g] }
    if isAcq f.order || f.op == .acq then s.modCtx id fun c => { c with pend := c.pend ++ [acquirePend f.pc f.id s.cycle 0] } else s

/-- Puts a saved context into a slot; k0 takes the slot and the frame is free. A gang's core gets the GANGMASK of the frame
(R30, R285). -/
def State.place (s : State) (f : Saved) (slot : Nat) : State :=
  let c := s.fromFrame f
  let s := { s with saved := s.saved.filter fun g => g.frame != f.frame }
  let s := match f.gang with
    | some g => s.modCore f.core fun c => { c with gangMask := g.2 }
    | none => s
  f.redo.foldl (fun s g => s.reissue (ctxId f.core slot) g) (s.setCtx (ctxId f.core slot) (c.resumed s.cycle))

end Sys2Proof.Machine
end

