-- ==== Sys2Proof/Machine/EventsMemory.lean ====
section
/-! DEFINITION. Events of the memory system, of time and of errors: accesses at their homes, acknowledgements,
waits that expire, evictions, sweeps, windows, refresh, shoot-downs, scrubbing and errors. An event whose
condition does not hold changes nothing. -/

namespace Sys2Proof.Machine

/-! ## Error records (R418 to R420, Table 23.2) -/

/-- Is there memory behind `n` bytes from key `k` up: of this module within R2's sizes, or of another one (R72)? -/
def State.present (s : State) (k n : Nat) : Bool :=
  if isRemoteKey k then decide (keyDev k < 1024) && s.inMemory 2 (k % 2 ^ 54) n
  else match placeOf k with
    | .translated => s.inMemory 0 k n
    | .unmapped => decide (k < 2 ^ 53) && s.inMemory 1 (k - 2 ^ 52) n
    | .local_ _ => false
    | _ => n == 0 || (rangeFault k n).isNone

/-- The port whose expander holds an address of the second tier (R377). -/
def State.expander (s : State) (pa : Nat) : Nat :=
  ((List.find? (fun (p : Nat × CxlPort) => p.2.trained && decide (p.2.base ≤ pa) && decide (pa < p.2.base + 1512000000000)) s.cxl).map (·.1)).getD 0

/-- SOURCE and UNIT of a key. -/
def State.errorUnit (s : State) (k : Nat) : Nat × Nat :=
  match placeOf k with
  | .mesh c _ => (0, c)
  | .sram c _ => (1, c)
  | .weight d _ => (2, d)
  | _ => if k < 2 ^ 52 then (3, k / 0x1000000000 % 16) else (4, s.expander (k - 2 ^ 52))

/-- How many units of a SOURCE there are (R2): cores, clusters, dies, stacks, expanders, cores again for register state, ports. -/
def sourceUnits (source : Nat) : Nat := ([4096, 512, 4, 16, 4, 4096, 16] : List Nat).getD source 0

/-- The virtual function that owns the memory at a key, 0 where none does (Table 23.2). -/
def State.ownerOf (s : State) (k : Nat) (blockVf : Option Nat) : Nat :=
  match placeOf k with
  | .mesh _ _ | .sram _ _ => if s.noVf then 0 else s.resident
  | .weight d _ => s.regBits (tffBase + 0x718) (8 * d + 4) (8 * d)
  | _ => blockVf.getD 0

/-- The block that a physical address lies in: handle and reference count. -/
def State.blockAt (s : State) (k : Nat) : W64 × Nat :=
  let stack := k / 0x1000000000 % 16
  let hit (p : Nat) : Bool :=
    decide (k < 2 ^ 52) && s.poolOn stack p && decide (s.blockAddr stack p 0 ≤ k) && decide (k < s.blockAddr stack p (s.poolCount stack p))
  match (List.range 16).find? hit with
  | some p =>
    let i := (k - s.blockAddr stack p 0) / s.blockSize stack p
    let b := s.block stack p i
    (handleWord b.gen stack p i, b.refs)
  | none => (0, 0)

/-- Writes an error record, or counts a dropped one when the ring is full or off. (DEDUCED, log entry 39.) -/
def State.errorRecord (s : State) (addr : Nat) (source kind vf unit : Nat) (handle : W64) (refs : Nat) : State :=
  let n := s.regBits (fleetBase + 8) 3 0
  let tail := s.regBits (fleetBase + 0x18) 31 0
  let waiting := (tail + 2 ^ 32 - s.regBits (fleetBase + 0x10) 31 0) % 2 ^ 32
  if n = 0 ∨ 2 ^ n ≤ waiting then { s with errDrops := s.errDrops + 1 }
  else
    let at_ := s.regBits fleetBase 51 6 * 64 + 64 * (tail % 2 ^ n)
    let ws : List W64 := [BitVec.ofNat 64 addr, BitVec.ofNat 64 (source + kind * 16 + vf % 32 * 256 + unit % 65536 * 65536), handle,
      BitVec.ofNat 64 refs, BitVec.ofNat 64 s.ptp, BitVec.ofNat 64 ((tail + 1) % 2 ^ 32), 0, 0]
    let s := ws.zipIdx.foldl (fun s p => s.write64 (at_ + 8 * p.2) p.1) s
    s.setRegBits (fleetBase + 0x18) 31 0 (tail + 1)

/-- A corrected error counts towards its unit, a core's in local memory and register state alike, and may write a rate alert (R418). (DEDUCED, log entry 39.) -/
def State.corrected (s : State) (source unit : Nat) : State :=
  let hour := 3600000000000
  let u := (if source = 5 then 0 else source) * 65536 + unit
  let times := s.ptp :: (s.errTimes.get u []).filter fun t => decide (s.ptp < t + hour)
  let s := { s with errors := s.errors.put u (s.errors.get u 0 + 1), errTimes := s.errTimes.put u times }
  let thr := s.regBits (fleetBase + 0x20) 31 0
  let recent := match s.alerts.find? u with
    | some t => decide (s.ptp < t + hour)
    | none => false
  if thr = 0 ∨ times.length < thr ∨ recent = true then s
  else ({ s with alerts := s.alerts.put u s.ptp } : State).errorRecord 0 source 2 0 unit 0 0

/-! ## Windows (R112) -/

/-- Accesses of a window that are not acknowledged. -/
def State.windowCount (s : State) (n : Nat) : Nat := (s.ownWindows.filter (· == n)).length

/-- Withdraws the module's own notices whose windows have no access left, and counts them as stretches. -/
def State.withdrawNotices (s : State) : State :=
  let done := s.notices.filter fun p => p.1 == s.device && s.windowCount p.2 == 0
  { s with notices := s.notices.filter fun p => !(done.contains p), stretches := s.stretches + done.length }

/-! ## Accesses -/

def State.flight? (s : State) (id : Nat) : Option Flight := s.flights.find? (·.id == id)

/-- HOME_ACCESS (R88): the first arrival of an access. (DEDUCED, log entry 7.) -/
def execHomeAccess (id : Nat) (s : State) : Result :=
  match s.flight? id with
  | some f => if f.refused = 0 ∧ s.mayArrive f = true then .next (s.arrive f).withdrawNotices else .next s
  | none => .next s

/-- BACKOFF_REISSUE (R224): a refused access, after its back-off. (DEDUCED, log entry 20.) -/
def execBackoffReissue (id : Nat) (s : State) : Result :=
  match s.flight? id with
  | some f => if 0 < f.refused ∧ s.mayArrive f = true then .next (s.arrive f).withdrawNotices else .next s
  | none => .next s

/-- STORE_ACK (R87): the counter falls by one. (DEDUCED, log entry 7.) -/
def execStoreAck (id : Nat) (s : State) : Result :=
  match s.flight? id with
  | some f => if f.performed then .next (s.dropFlight id).withdrawNotices else .next s
  | none => .next s

/-- TAG_WAIT_TIMEOUT (R77, R224): TWLIMIT cycles after it began to wait or back off, the access ends with cause 0x11, tag and data unchanged. -/
def execTagWaitTimeout (id : Nat) (s : State) : Result :=
  match s.flight? id with
  | some f =>
    let lim := ((s.ctx f.ctx).k 8).toNat
    if f.abandoned ∧ lim ≠ 0 ∧ f.since + lim ≤ s.cycle then .next (((s.dropFlight id).dropStall f.ctx f.until_).takeTrap f.ctx 0x11 f.va f.pc none)
    else .next s
  | none => .next s

/-- TOWLINE_REISSUE (R73): a reissue leaves memory as one delivery does, and the reply cache answers a repeated
atomic or tagged access, so nothing changes but time. -/
def execTowlineReissue (id : Nat) (s : State) : Result :=
  let _ := id
  .next s

/-- CACHE_EVICTION (R66). (DESIGN CHOICE, log entry 10.) -/
def execCacheEviction (cluster line : Nat) (s : State) : Result :=
  if (s.cluster cluster).lines.any (·.key == line) then .next (s.writeBack cluster (·.key == line) true) else .next s

/-! ## Waits that expire -/

/-- An arrival of a context at BARC or BARH whose limit of `n` cycles has passed. -/
def State.lateArrival (s : State) (c : Ctx) (n : Nat) : Option Pend :=
  c.pend.find? fun p => (p.isBarrier true || p.isBarrier false) && decide (p.since + n ≤ s.cycle)

/-- Has the limit passed for a context at MMAG? -/
def State.lateAtMmag (s : State) (id n : Nat) : Bool :=
  (s.ctx id).wait == some .barrier && decide ((s.ctx id).waitFrom + n ≤ s.cycle) && !(s.released id)

/-- BARRIER_WAIT_TIMEOUT (R242, R284). -/
def execBarrierWaitTimeout (core slot : Nat) (s : State) : Result :=
  let id := ctxId core slot
  let c := s.ctx id
  let lim := (c.k 8).toNat
  if lim = 0 then .next s
  else match s.lateArrival c lim with
    | some p => .next ((s.withdraw id).trapPend id 0x11 0 (· == p))
    | none => if s.lateAtMmag id lim then .next ((s.withdraw id).takeTrap id 0x11 0 c.pc none) else .next s

/-- JOIN_LIMIT_EXPIRE (R206): the instruction issues again and returns OUT = 4. -/
def execJoinLimitExpire (core slot : Nat) (s : State) : Result :=
  let id := ctxId core slot
  match (s.ctx id).wait with
  | some (.join n (some t)) => if t ≤ s.cycle then .next (s.modCtx id fun c => { c with wait := some (.join n (some 0)) }) else .next s
  | some (.joinAny (some t)) => if t ≤ s.cycle then .next (s.modCtx id fun c => { c with wait := some (.joinAny (some 0)) }) else .next s
  | _ => .next s

/-! ## Phase quiet (R50, R106, R137) -/

def State.launchesOf (s : State) : List (Nat × Nat) := (s.launches.filter (·.st != .ended)).map fun l => (l.vf, l.phase)

/-- Messages that are not yet in a mailbox or handled. -/
def State.messagesIn (s : State) : List Msg :=
  s.slices.flatMap (fun (p : Nat × Slice) => p.2.input ++ p.2.admission) ++ s.inbound.flatMap (·.2) ++
    s.moors.flatMap fun m => m.chamber ++ m.mailbox.map (·.2.2)

/-- Virtual function and phase of the messages that this module counts (R50, R107). (DEDUCED, log entry 40.) -/
def State.messagesOf (s : State) : List (Nat × Nat) :=
  ((s.messagesIn.filter fun m => m.origin != 1) ++ s.towOut.map (·.2.2)).map fun m => (m.vf, m.phase)

/-- The phase that a helper counts in: its own, or that of the message it handles (R50, R137). Whether a handler that has executed QFLIP
counts in its new phase as well is not stated: it does not (DESIGN CHOICE, log entry 62). -/
def Ctx.counts (c : Ctx) : List Nat :=
  match c.actor with
  | some r => if r.counted then [r.phase] else []
  | none => [c.phase]

/-- Does a context wait in QWAIT, where it counts no traffic of its own (R239)? -/
def Ctx.inQwait (c : Ctx) : Bool :=
  match c.wait with
  | some (.quiet _ _) => true
  | _ => false

/-- Virtual function and phase of the engine and vector commands of some cores. -/
def commandsOf (cores : Map CoreSt) : List (Nat × Nat) :=
  cores.flatMap fun (p : Nat × CoreSt) =>
    p.2.cmds.map (fun q => (q.vf, q.phase)) ++
      (p.2.vqueue ++ p.2.vrunning).map fun q => (p.2.vfid, q.phase)

/-- Virtual function and phase of all traffic in flight (R106), that of the slices which a switch has saved included. A helper that waits
in QWAIT counts none of its own (R239); the message that a handler handles counts even then (R50). A
store of MCST or MCSTC counts until it is stamped: the manual says until it completes, and not which of stamp and
application that is (DESIGN CHOICE, log entry 61). (DEDUCED, log entry 40.) -/
def State.traffic (s : State) : List (Nat × Nat) :=
  (s.flights.filter fun f => !f.isForeign).map (fun f => (f.vf, f.phase)) ++ s.messagesOf ++ s.launchesOf ++ commandsOf s.cores ++
    s.groups.flatMap (fun (p : Nat × Group) => (p.2.waiting.filter fun x => decide (x.ctx < 65536)).map fun x => (x.vf, x.phase)) ++
    s.images.flatMap (fun x => commandsOf x.cores) ++
    (s.ctxs.filter fun p => isHelper p.1 && (!p.2.inQwait || p.2.actor.isSome)).flatMap (fun p => p.2.counts.map fun n => (s.vfOf p.1, n)) ++
    s.saved.flatMap (fun f => (f.ctx.counts ++ f.redo.map (·.phase)).map fun n => (f.vf, n)) ++
    s.images.flatMap (fun x => x.redo.map fun f => (f.vf, f.phase)) ++
    s.images.flatMap fun x => ((x.ctxs.filter fun p => isHelper p.1).flatMap (fun p => p.2.counts.map fun n => (x.vf, n))) ++
      ((x.slices.flatMap (fun (p : Nat × Slice) => p.2.input ++ p.2.admission) ++
        x.moors.flatMap fun m => m.chamber ++ m.mailbox.map (·.2.2)).filter fun m => m.origin != 1).map fun m => (m.vf, m.phase)

/-- QUIET_SWEEP (R106). -/
def execQuietSweep (s : State) : Result :=
  let busy := s.traffic
  let quiet := (List.range 64).filter fun n => !(busy.contains (n / 2, n % 2)) && !(s.activity.contains n)
  .next { s with quietRep := quiet, quietAt := quiet.foldl (fun m n => m.put n (s.sweeps + 1)) s.quietAt, activity := [],
                 sweeps := s.sweeps + 1, sweepAt := s.ptp }

/-! ## Time -/

/-- WINDOW_BOUNDARY (R112, R393): PTPTIME has come to the end of the window in which SCHMODE was written, where a new window
length takes effect. (DEDUCED, log entry 54.) -/
def execWindowBoundary (s : State) : Result :=
  if s.winAsked < s.winNum then .next { s with windowLog := s.regBits schBase 2 1 } else .next s

/-- STRETCH_NOTICE (R112). -/
def execStretchNotice (win : Nat) (s : State) : Result :=
  if (win + 1) * s.winLen + s.winLen / 2 ≤ s.ptp ∧ s.windowCount win ≠ 0 ∧ s.notices.contains (s.device, win) = false then
    .next { s with notices := s.notices ++ [(s.device, win)] }
  else .next s

/-- STRETCH_NOTICE_ARRIVE (R112): a notice, or its withdrawal, from another module. -/
def execStretchNoticeArrive (dev win withdrawn : Nat) (s : State) : Result :=
  if dev = s.device ∨ 1024 ≤ dev then .next s
  else if withdrawn = 0 then .next (if s.notices.contains (dev, win) then s else { s with notices := s.notices ++ [(dev, win)] })
  else .next { s with notices := s.notices.filter (· ≠ (dev, win)) }

/-- Do offset and control-flit latency keep to the limits of R112? -/
def State.inLimits (s : State) : Bool := decide (16 * s.offset < s.winLen) && decide (4 * s.latency < s.winLen)

/-- TIME_DOMAIN_LEAVE (R379): an offset or a latency that breaks the limits. -/
def execTimeDomainLeave (s : State) : Result := if s.inLimits then .next s else .next { s with inDomain := false }
/-- TIME_DOMAIN_REJOIN (R379). -/
def execTimeDomainRejoin (s : State) : Result := if s.inLimits then .next { s with inDomain := true } else .next s

/-- REFRESH_ADVANCE (R70). -/
def execRefreshAdvance (die : Nat) (s : State) : Result :=
  let d := s.die die
  if die < 4 ∧ d.bankFrom + 1500 ≤ s.ptp then
    .next (s.modDie die fun d => { d with bank := (d.bank + 1) % 32, bankFrom := d.bankFrom + 1500 })
  else .next s

/-! ## Weight-store modes (R411) -/

/-- Do some bytes from address `a` up reach into a die's weight store? -/
def inWeight (die a n : Nat) : Bool := decide (a < weightBase + (die + 1) * 0x100000000) && decide (weightBase + die * 0x100000000 < a + n)

/-- Is a read of a die's weight store to be performed that was issued before the access numbered `mark`: a scalar one, or a vector load
that is queued or under way? A command's reads are issued by its engine, which has none under way between two steps. -/
def State.readsWeight (s : State) (die mark : Nat) : Bool :=
  (s.flights.any fun f => !f.performed && decide (f.id < mark) && inWeight die f.key f.size) ||
    s.cores.any fun (p : Nat × CoreSt) => (p.2.vqueue ++ p.2.vrunning).any fun q => decide (q.num < mark) && match q.op with
      | .load _ _ l _ => l.any fun e => inWeight die e.2.1 1
      | _ => false

/-- Is a copy under way, and not stopped by a fault, that writes a die's weight store? -/
def State.writesWeight (s : State) (die : Nat) : Bool :=
  s.cores.any fun (p : Nat × CoreSt) => (p.2.running ++ p.2.taken).any fun r => (p.2.stopped.find? r.1).isNone && (match r.2.op with
    | .cpy d _ n _ => inWeight die d.toNat n
    | .cpyg d _ _ z m _ => inWeight die d.toNat (m * z)
    | _ => false)

def State.setLoading (s : State) (die : Nat) (b : Bool) : State := s.modDie die fun d => { d with loading := b }

/-- WS_LOADING_ENTER (R411). -/
def execWsLoadingEnter (die : Nat) (s : State) : Result :=
  if die < 4 ∧ s.regBits schBase (8 + die) (8 + die) = 1 ∧ (s.die die).loading = false ∧ s.readsWeight die (s.die die).loadMark = false then .next (s.setLoading die true)
  else .next s

/-- WS_LOADING_LEAVE (R411): copy writes that are under way come first. -/
def execWsLoadingLeave (die : Nat) (s : State) : Result :=
  if die < 4 ∧ s.regBits schBase (8 + die) (8 + die) = 0 ∧ (s.die die).loading = true ∧ s.writesWeight die = false then .next (s.setLoading die false)
  else .next s

/-! ## Scratchpad splits -/

/-- Does an item of a launch run on a cluster? (DEDUCED, log entry 36). -/
def State.itemsOn (s : State) (cl : Nat) : Bool :=
  (s.cluster cl).held.isSome || s.ctxs.any fun p => clusterOf (coreOf p.1) == cl && (p.2.item.isSome || p.2.own.isSome)

/-- SPLIT_CHANGE (R64, R65): a DSPLIT write reaches a cluster. (DEDUCED, log entry 36.) -/
def execSplitChange (cluster : Nat) (s : State) : Result :=
  match (s.cluster cluster).dsplit with
  | some k =>
    if s.itemsOn cluster then .next s
    else .next ((s.setSplit cluster k).modCluster cluster fun c => { c with dsplit := none })
  | none => .next s

/-! ## Shoot-downs (R401, R402) -/

def sdctl : Nat := tffBase + 0x10

/-- Does an entry meet the request in SDCTL, SDADDR and SDLEN? (DEDUCED, log entry 37). -/
def State.sdHits (s : State) (t : TlbEntry) : Bool :=
  let lo := s.regBits (tffBase + 0x18) 51 16 * 0x10000
  let hi := lo + s.regBits (tffBase + 0x20) 51 16 * 0x10000
  let p := t.page * 2 ^ t.shift
  t.vf == s.regBits sdctl 4 0 && (s.regBits sdctl 32 32 == 1 || t.asid == s.regBits sdctl 31 16) &&
    (s.regBits sdctl 33 33 == 1 || (decide (p < hi) && decide (lo < p + 2 ^ t.shift)))

/-- Physical ranges of the request: those behind the entries that it invalidates, those behind the translations that the clusters have had
and under which their caches may hold lines, and those that the tables name now; none where it names every page or every address space.
(DEDUCED, log entry 37.) -/
def State.sdRanges (s : State) : Option (List (Nat × Nat)) :=
  let lo := s.regBits (tffBase + 0x18) 51 16 * 0x10000
  let len := s.regBits (tffBase + 0x20) 51 16 * 0x10000
  if s.regBits sdctl 33 32 ≠ 0 then none
  else
    let es := (s.cores.flatMap (fun (p : Nat × CoreSt) => p.2.itlb ++ p.2.dtlb) ++
      s.clusters.flatMap fun (p : Nat × Cluster) => p.2.tlb ++ p.2.seen).filter s.sdHits
    let part (t : TlbEntry) : Nat × Nat :=
      let a := max lo (t.page * 2 ^ t.shift)
      ((leafXl t.pte t.shift a).key, min (lo + len) ((t.page + 1) * 2 ^ t.shift) - a)
    some (es.map part ++ s.keysOf (s.regBits sdctl 4 0) (s.regBits sdctl 31 16) lo len)

/-- Is a cluster cache's line in the range of the request? -/
def State.sdLine (s : State) (l : Line) : Bool := match s.sdRanges with
  | some rs => meetsAny rs l
  | none => true

/-- Every cluster cache writes back and invalidates its lines of the range of the request. (DEDUCED, log entry 37.) -/
def State.sdWriteBack (s t : State) : State := (s.clusters.map (·.1)).foldl (fun t c => t.writeBack c s.sdLine true) t

/-- SHOOTDOWN (R401). With WB every cluster cache writes back and invalidates its lines of the range; without it the lines stay, and the
clusters go on to know the translations that led to them. (DEDUCED, log entry 37.) -/
def execShootdown (s : State) : Result :=
  if s.regBits sdctl 63 63 = 1 ∧ s.sdBegun = false then
    let keep (l : List TlbEntry) : List TlbEntry := l.filter fun t => !(s.sdHits t)
    let wb := s.regBits sdctl 34 34 = 1
    let s1 := { s with sdBegun := true, sdMark := s.nextId + 1, nextId := s.nextId + 1,
                       cores := s.cores.map fun (p : Nat × CoreSt) => (p.1, { p.2 with itlb := keep p.2.itlb, dtlb := keep p.2.dtlb }),
                       clusters := s.clusters.map fun (p : Nat × Cluster) =>
                         (p.1, { p.2 with tlb := keep p.2.tlb }) }
    if wb then .next (s.sdWriteBack s1) else .next s1
  else .next s

/-- Does a virtual address of an address space meet the request? -/
def State.sdMeets (s : State) (vf asid va n : Nat) : Bool :=
  let lo := s.regBits (tffBase + 0x18) 51 16 * 0x10000
  let hi := lo + s.regBits (tffBase + 0x20) 51 16 * 0x10000
  placeOf va == .translated && vf == s.regBits sdctl 4 0 && (s.regBits sdctl 32 32 == 1 || asid == s.regBits sdctl 31 16) &&
    (s.regBits sdctl 33 33 == 1 || (decide (va < hi) && decide (lo < va + n)))

/-- Has every access been performed that may have used an invalidated entry: one whose address was translated before the request? (DEDUCED,
log entry 37). -/
def State.sdQuiet (s : State) : Bool :=
  let vf := s.regBits sdctl 4 0
  let asid (a : Nat) : Bool := s.regBits sdctl 32 32 == 1 || a == s.regBits sdctl 31 16
  (s.flights.all fun f => f.performed || f.isForeign || decide (s.sdMark ≤ f.xlAt) || !(s.sdMeets f.vf (s.ctx f.ctx).asid f.va.toNat f.size)) &&
    (s.cores.all fun (p : Nat × CoreSt) => p.2.cmds.all fun q => q.vf != vf || !(asid q.asid) || q.plan.isNone || decide (s.sdMark ≤ q.planAt)) &&
    s.cores.all fun (p : Nat × CoreSt) => p.2.vfid != vf || (p.2.vqueue ++ p.2.vrunning).all fun q => decide (s.sdMark ≤ q.num) || !(asid (s.ctx q.ctx).asid) || match q.op with
      | .load _ _ l _ => l.isEmpty
      | .store _ _ l _ => l.isEmpty
      | _ => true

/-- SHOOTDOWN_DONE (R402). With WB the lines that accesses under the invalidated entries have left since are written back first (R401). (DEDUCED, log entry 37.) -/
def execShootdownDone (s : State) : Result :=
  if s.regBits sdctl 63 63 = 1 ∧ s.sdBegun = true ∧ s.sdQuiet = true then
    let s := if s.regBits sdctl 34 34 = 1 then
        let t := s.sdWriteBack s
        { t with clusters := t.clusters.map fun (p : Nat × Cluster) => (p.1, { p.2 with seen := p.2.seen.filter fun e => !(s.sdHits e) }) }
      else s
    .next ((({ s with sdBegun := false } : State).setRegBits sdctl 63 63 0).setRegBits (tffBase + 0x28) 31 0 (s.regBits (tffBase + 0x28) 31 0 + 1))
  else .next s

/-- CORE_POWER_GATING (R401): a core none of whose contexts is ready loses its TLBs. -/
def execCorePowerGating (core : Nat) (s : State) : Result :=
  if 4096 ≤ core ∨ (s.ctxs.any fun p => coreOf p.1 == core && p.2.life == .live && p.2.wait.isNone) = true then .next s
  else .next (s.modCore core fun c => { c with gated := true, itlb := [], dtlb := [] })

/-! ## Errors -/

/-- PATROL_SCRUB (R417): the corrected value `seen` is rewritten if the word still holds it. A word of another module counts there. -/
def execPatrolScrub (loc : Nat) (seen : W64) (s : State) : Result :=
  let k := wordKey loc
  if s.present k 8 = false then .next s
  else
    let s1 := if s.read64 k = seen then s.write64 k seen else s
    .next (if isRemoteKey k then s1 else s1.corrected (s.errorUnit k).1 (s.errorUnit k).2)

/-- The physical address that a record gives for a key. -/
def physAddr (k : Nat) : Nat := if 2 ^ 52 ≤ k ∧ k < 2 ^ 53 then k - 2 ^ 52 else k

/-- UNCORRECTABLE_ERROR (R419): memory words are poisoned, and the module that has them writes the record; a context loses its state;
matrix state stops the issuer of the next command that reads it. (DESIGN CHOICE, log entry 46.) -/
def execUncorrectableError (site : ErrSite) (s : State) : Result :=
  match site with
  | .word k =>
    let w := wordKey k
    if s.present w 8 = false then .next s
    else
      let b := s.blockAt w
      let u := s.errorUnit w
      let vf := s.ownerOf w (if b.2 = 0 then none else some (s.block (handleOf b.1).stack (handleOf b.1).pool (handleOf b.1).index).vf)
      if isRemoteKey w then .next (s.setPoison w true)
      else .next ((s.setPoison w true).errorRecord (physAddr w) u.1 1 vf u.2 b.1 b.2)
  | .context id =>
    if (s.ctxs.find? id).isNone then .next s
    else .next ((s.endAsFail id (s.ctx id).hnum 0x0C 0).errorRecord 0 5 1 (s.vfOf id) (coreOf id) 0 0)
  | .matrix core word =>
    if 4096 ≤ core ∨ matExists word = false then .next s
    else .next ((s.modCore core fun c => { c with matErr := if c.matErr.contains word then c.matErr else c.matErr ++ [word] }).errorRecord 0 5 1 (s.core core).vfid core 0 0)

end Sys2Proof.Machine
end

