-- ==== Sys2Proof/Machine/EventsActors.lean ====
section
/-! DEFINITION. Events of the mooring slices, the lay-up directories, the actor classes, and the ports (R38 to R56,
R366, R376 to R378, R414). An event whose condition does not hold changes nothing. -/

namespace Sys2Proof.Machine

/-! ## Messages at a slice (R38 to R40) -/

/-- Journal entry of an arrival (Table 23.3). -/
def State.journalMsg (s : State) (slice : Nat) (m : Msg) : State :=
  s.journalAdd 1 (slice / 16) m.vf (BitVec.ofNat 64 slice :: (List.range 16).map (wordAt (msgBytes m)))

/-- (DESIGN CHOICE, log entry 59.) -/
def State.notInterrupt (s : State) (i : Interrupt) : State := { s with interrupts := s.interrupts.filter (· ≠ i) }
/-- (DESIGN CHOICE, log entry 59.) -/
def State.interrupt (s : State) (i : Interrupt) : State :=
  if s.interrupts.contains i then s else { s with interrupts := s.interrupts ++ [i] }

/-- MESSAGE_ARRIVE (R38): a message for which the slice has no place stops its input (R40). -/
def execMessageArrive (slice : Nat) (s : State) : Result :=
  match (s.slice slice).input with
  | [] => .next s
  | m :: rest =>
    let take (s : State) : State := (s.modSlice slice fun x => { x with input := rest, stoppedAt := none }).notInterrupt (.sliceInput slice)
    match s.classFor m.vf m.cls with
    | none => .next (((take s).journalMsg slice m).refuse m)
    | some r =>
      if s.hasPlace slice m then .next (((take s).journalMsg slice m).acceptMsg slice r m)
      else if (s.slice slice).stoppedAt.isSome then .next s
      else .next (s.modSlice slice fun x => { x with stoppedAt := some s.ptp })

/-- SLICE_INPUT_STALL_ALERT (R40). -/
def execSliceInputStallAlert (slice : Nat) (s : State) : Result :=
  match (s.slice slice).stoppedAt with
  | some t => if t + 100000 ≤ s.ptp then .next (s.interrupt (.sliceInput slice)) else .next s
  | none => .next s

/-! ## Mooring (R41, R42, R45) -/

/-- Creates a state of `n` bytes at a key: zero, or the template's bytes with their poison, every word FULL (R42). TPHYS
holds physical address bits and names no target: the one that TEMPLATE leads to at registration is meant (DEDUCED, log entry 61). -/
def State.createState (s : State) (r : ClassRec) (k : Nat) : State :=
  let ws := wholeWordsIn k r.size
  let s := if r.init then s.writeBytes k (memBytes s.mem r.tphys r.size)
    else { s with mem := s.mem.filter fun c => !(decide (k ≤ c.1) && decide (c.1 < k + r.size)) }
  ws.foldl (fun s w => (s.setTag w true).setPoison w (r.init && s.isPoisoned (r.tphys + (w - k)))) s

/-- Brings an actor's state into its berth: from its record, or created. -/
def State.fetchState (s : State) (r : ClassRec) (m : Moor) (k : Nat) : State :=
  match s.dirFind r.dir m.cls m.key with
  | some slot => (s.copyWords (slot + 64) k r.size).dirDrop r.dir slot
  | none => s.createState r k

/-- Can an actor's state be had: its record, or the template, which in another module's memory needs a route (R42, R73)? (DEDUCED, log entry 20). -/
def State.stateHere (s : State) (r : ClassRec) (m : Moor) : Bool :=
  (s.dirFind r.dir m.cls m.key).isSome || !r.init || s.routed [(r.tphys, 1)]

/-- Holds the directory operation of an entry while its directory grows (R414). (DESIGN CHOICE, log entry 56.) -/
def State.holdOp (s : State) (m : Moor) : State :=
  if m.held.isSome then s else ({ s with arrival := s.arrival + 1 } : State).setMoor { m with held := some s.arrival }

/-- MOORING_COMPLETE (R42): an entry without a berth takes one on its chosen core once lay-ups have made room (R41). -/
def execMooringComplete (cls : Nat) (key : W64) (s : State) : Result :=
  match s.moor? cls key, s.class? cls with
  | some m, some r =>
    if m.st ≠ .mooring then .next s
    else
      let (s, m) := if m.chosen.isSome then s.findBerth m else (s, m)
      match m.berth with
      | none => .next s
      | some (c, o) =>
        if s.dirHeld r.dir then .next ((s.setMoor m).holdOp m)
        else if s.dirTurn r.dir m.held = false ∨ s.stateHere r m = false then .next (s.setMoor m)
        else
          let s := s.fetchState r m (localKey c o)
          let (s, m) := s.drainChamber { m with st := .moored, lastBusy := s.ptp, held := none } 4
          .next (s.setMoor m)
  | _, _ => .next s

/-- Does a handler of the actor still run, or stand saved? -/
def State.handling (s : State) (m : Moor) : Bool :=
  let mine (c : Ctx) : Bool := match c.actor with
    | some r => r.cls == m.cls && r.key == m.key
    | none => false
  s.ctxs.any (fun p => mine p.2) || s.saved.any fun f => mine f.ctx

/-- MAILBOX_SLOT_FREED (R49): the handler has left Closing. How soon after that the busy mark clears the manual does not say: here by this
row, some time after the helper slot is free, and clearing it ends no IDLE (DESIGN CHOICE, log entry 62). -/
def execMailboxSlotFreed (cls : Nat) (key : W64) (s : State) : Result :=
  match s.moor? cls key with
  | some m =>
    match m.handled, m.berth with
    | some i, some (c, o) =>
      if m.busy = false ∨ s.handling m = true then .next s
      else
        let s := s.setTag (slotKey c o m.size i) false
        let m := { m with busy := false, handled := none, lastBusy := s.ptp }
        if m.st = .moored then
          let (s, m) := s.drainChamber m 4
          .next (s.setMoor m)
        else .next (s.setMoor m)
    | _, _ => .next s
  | none => .next s

/-! ## Lay-up (R43, R44) -/

/-- Does an entry wait for space that lay-ups on a core would free? (DESIGN CHOICE, log entry 56). -/
def State.wantsSpace (s : State) (core : Nat) : Bool :=
  s.moors.any fun m => m.st == .mooring && m.berth.isNone && m.chosen == some core && (s.freeOffsets core (runLen m.size) (s.runsOn core)).isEmpty

/-- The actor of a core that has been idle-eligible longest, the lowest offset on a tie, among those that may be laid up: time,
offset, entry. (DESIGN CHOICE, log entry 56.) -/
def State.oldestIdle (s : State) (core : Nat) : Option Moor :=
  let l := s.moors.filterMap fun m => match m.st, m.berth, m.eligible, m.reserved with
    | .moored, some (c, o), some t, false =>
      if c = core ∧ m.busy = false ∧ m.mailbox = [] ∧ m.chamber = [] then some (t, o, m) else none
    | _, _, _, _ => none
  ((l.sortedBy fun a b => decide (a.1 < b.1) || (a.1 == b.1 && decide (a.2.1 ≤ b.2.1))).head?).map (·.2.2)

/-- LAYUP_REQUEST (R44). (DESIGN CHOICE, log entry 56.) -/
def execLayupRequest (core : Nat) (s : State) : Result :=
  if s.wantsSpace core then
    match s.oldestIdle core with
    | some m => .next (s.setMoor { m with reserved := true })
    | none => .next s
  else .next s

/-- UNMOOR_ORDER (R44): refused once a message has cleared eligibility. -/
def execUnmoorOrder (cls : Nat) (key : W64) (s : State) : Result :=
  match s.moor? cls key with
  | some m =>
    if m.reserved = false then .next s
    else if m.st = .moored ∧ m.eligible.isSome = true ∧ m.busy = false ∧ m.mailbox = [] ∧ m.chamber = [] then
      .next (s.setMoor { m with st := .unmooring, reserved := false })
    else .next (s.setMoor { m with reserved := false })
  | none => .next s

/-- Asks Cleoz to grow a directory (R43, R414). -/
def State.growDir (s : State) (d : Nat) : State := (s.setRegBits (dirReg d 3) 0 0 1).interrupt (.directory d)

/-- Writes an actor's record into a directory slot, the state with its tags (Table 2.2). -/
def State.layUp (s : State) (r : ClassRec) (m : Moor) (src slot : Nat) : State :=
  let s := s.writeBytes slot (List.replicate 64 0)
  let s := (s.write64 slot m.key).write64 (slot + 8) (BitVec.ofNat 64 (m.cls % 65536 + m.size / 64 * 65536 + 2 ^ 63))
  ((s.clearPoison slot 64).copyWords src (slot + 64) m.size).dirCount r.dir true

/-- UNMOOR_COMPLETE (R44). -/
def execUnmoorComplete (cls : Nat) (key : W64) (s : State) : Result :=
  match s.moor? cls key, s.class? cls with
  | some m, some r =>
    match m.berth with
    | none => .next s
    | some (c, o) =>
      if m.st ≠ .unmooring then .next s
      else if s.dirHeld r.dir then .next (s.holdOp m)
      else if s.dirTurn r.dir m.held = false then .next s
      else match s.dirFree r.dir cls key with
        | none => .next ((s.growDir r.dir).holdOp m)
        | some slot =>
          let s := s.layUp r m (localKey c o) slot
          if m.chamber = [] then .next ((s.freeEntry m).retryMoorings c)
          else
            let m := { m with st := .mooring, berth := none, chosen := none, eligible := none, held := none }
            let (s, m) := (s.setMoor m).findBerth m
            .next ((s.setMoor m).retryMoorings c)
  | _, _ => .next s

/-- IDLE_LIMIT_EXPIRE (R44). (DEDUCED, log entry 41.) -/
def execIdleLimitExpire (cls : Nat) (key : W64) (s : State) : Result :=
  match s.moor? cls key, s.class? cls with
  | some m, some r =>
    if m.st = .moored ∧ m.busy = false ∧ m.mailbox = [] ∧ m.chamber = [] ∧ m.eligible = none ∧ r.idle ≠ 0 ∧
        m.lastBusy + 1000 * r.idle.toNat ≤ s.ptp then
      .next ((s.setMoor { m with eligible := some s.ptp }).retryMoorings ((m.berth.map (·.1)).getD 4096))
    else .next s
  | _, _ => .next s

/-! ## Shifts (R51) -/

/-- Carries pending messages, in order, into slots of the new run, the lowest numbers first: the manual does not say which (DESIGN
CHOICE, log entry 62). -/
def carry (oc oo nc no size : Nat) : List (Nat × Nat × Msg) → Nat → State → State × List (Nat × Nat × Msg)
  | [], _, s => (s, [])
  | (i, _, m) :: l, n, s =>
    let k := slotKey nc no size n
    let s := (s.copyWords (slotKey oc oo size i) k 128).setTag k true
    let at_ := s.arrival
    let (s, l) := carry oc oo nc no size l (n + 1) { s with arrival := s.arrival + 1 }
    (s, (n, at_, m) :: l)

/-- SHIFT_COMPLETE (R51): once any handler has left Closing. A shift neither clears eligibility nor starts the idle limit afresh (R44). (DESIGN CHOICE, log entry 61.) -/
def execShiftComplete (cls : Nat) (key : W64) (s : State) : Result :=
  match s.moor? cls key with
  | some m =>
    match m.berth, m.target with
    | some (c, o), some (c', o') =>
      if m.st ≠ .shifting ∨ m.busy = true then .next s
      else
        let s := (s.copyWords (localKey c o) (localKey c' o') m.size).emptySlots c' o' m.size
        let (s, box) := carry c o c' o' m.size m.mailbox 0 s
        let s := if box = [] then s else s.wakeIdle c'
        let (s, m) := s.drainChamber { m with st := .moored, berth := some (c', o'), target := none, mailbox := box } 4
        .next (s.setMoor m)
    | _, _ => .next s
  | none => .next s

/-! ## Classes and directories (R366, R413, R414) -/

def clscmd : Nat := moorBase + 0x808
/-- Is a command of CLSCMD for a class under way? -/
def State.clsGoing (s : State) (op cls : Nat) : Bool :=
  s.regBits clscmd 63 63 == 1 && s.regBits clscmd 17 16 == op && s.regBits clscmd 15 0 == cls
def State.clsDone (s : State) : State := s.setRegBits clscmd 63 63 0

/-- Does a class record meet R366 in its own fields? -/
def classOk (w : Nat → W64) (cls : Nat) : Bool :=
  let place := bitsOf (w 1) 27 26
  let init := bitsOf (w 1) 24 24
  let size := bitsOf (w 4) 19 16
  bitsOf (w 0) 1 0 == 0 && bitsOf (w 1) 15 0 == cls && cls != 0xFFFF && decide (1 ≤ bitsOf (w 1) 23 16) && decide (bitsOf (w 1) 23 16 ≤ 128) &&
    bitsOf (w 1) 31 28 == 0 && bitsOf (w 1) 63 37 == 0 && bitsOf (w 2) 5 0 == 0 && (init == 1 || w 2 == 0) &&
    decide ((w 2).toNat + 64 * bitsOf (w 1) 23 16 ≤ 2 ^ 52) && bitsOf (w 4) 15 9 == 0 && bitsOf (w 4) 63 20 == 0 &&
    (place != 1 || ((size == 1 || size == 2 || size == 4 || size == 8) && bitsOf (w 4) 8 0 % size == 0)) && place != 3 &&
    decide ((w 5).toNat < 2 ^ 52) && (place == 2 || (w 5 == 0 && bitsOf (w 6) 5 0 == 0)) && bitsOf (w 6) 63 6 == 0 &&
    (init == 1 || bitsOf (w 7) 51 6 == 0) && bitsOf (w 7) 5 0 == 0 && bitsOf (w 7) 63 52 == 0

/-- Where an address of an address space leads, and its leaf. -/
def State.leafAt (s : State) (vf asid a : Nat) : Option (Nat × W64) :=
  match s.walk vf asid a with
  | .leaf pte _ shift => some ((leafXl pte shift a).key, pte)
  | .stop _ _ _ => none

/-- Where one leads in local HBM or CXL memory. -/
def State.localLeaf (s : State) (vf asid a : Nat) : Option (Nat × W64) :=
  (s.leafAt vf asid a).filter fun p => bitsOf p.2 9 8 != 2

/-- Where a template begins, if TPHYS follows from TEMPLATE in an address space of the virtual function: its pages are readable and
contiguous (R366). It may lie in another module: the rule asks local memory of HOMEADDR alone. (DEDUCED, log entry 49.) -/
def State.templateAt (s : State) (w : Nat → W64) (asid : Nat) : Option Nat :=
  let leaf (a : Nat) : Option (Nat × W64) := (s.leafAt (bitsOf (w 1) 36 32) asid a).filter fun p => leafAllows p.2 accLoad false
  let k := (leaf (w 2).toNat).map (·.1)
  k.filter fun k => k % 2 ^ 52 == bitsOf (w 7) 51 6 * 64 && (chunks (w 2).toNat (64 * bitsOf (w 1) 23 16)).all fun p =>
    (leaf p.1).any fun x => x.1 == k + (p.1 - (w 2).toNat)

/-- Do HSLICE and TPHYS follow from HOMEADDR and TEMPLATE in an address space: the template's key, 0 without a template? HOMEADDR
need only translate to local HBM or CXL memory. -/
def State.resolves (s : State) (w : Nat → W64) (asid : Nat) : Option Nat :=
  if bitsOf (w 1) 27 26 = 2 ∧ (s.localLeaf (bitsOf (w 1) 36 32) asid (w 5).toNat).map (fun p => homeSlice p.1) ≠ some (bitsOf (w 6) 5 0) then none
  else if bitsOf (w 1) 24 24 = 1 then s.templateAt w asid
  else some 0

/-- The checks of R366 that need the page tables: the record names no address space, so one of the virtual function's in
which it resolves is enough (DEDUCED, log entry 49). -/
def State.classResolves (s : State) (w : Nat → W64) : Option Nat :=
  if bitsOf (w 1) 27 26 ≠ 2 ∧ bitsOf (w 1) 24 24 ≠ 1 then some 0
  else (List.range (s.regBits (tffBase + 8) 16 0)).findSome? (s.resolves w)

def classRec (w : Nat → W64) (cls template : Nat) : ClassRec :=
  { num := cls, entry := w 0, size := 64 * bitsOf (w 1) 23 16, init := bitsOf (w 1) 24 24 == 1, tier := bitsOf (w 1) 25 25,
    place := bitsOf (w 1) 27 26, vf := bitsOf (w 1) 36 32, idle := w 3, first := bitsOf (w 4) 8 0, count := bitsOf (w 4) 19 16,
    hslice := bitsOf (w 6) 5 0, tphys := template, leaving := false }

/-- CLASS_REGISTER (R414): a record that breaks R366 is not registered. (DEDUCED, log entry 49.) -/
def execClassRegister (cls : Nat) (s : State) : Result :=
  if s.clsGoing 1 cls = false then .next s
  else
    let w (i : Nat) : W64 := s.read64 (s.regBits (moorBase + 0x800) 51 6 * 64 + 64 * cls + 8 * i)
    match s.classResolves w with
    | some k => if classOk w cls = true ∧ s.class? cls = none then .next ({ s with classes := s.classes ++ [classRec w cls k] } : State).clsDone else .next s.clsDone
    | none => .next s.clsDone

/-- CLASS_WITHDRAW (R414): acceptance stops at once. -/
def execClassWithdraw (cls : Nat) (s : State) : Result :=
  if s.clsGoing 2 cls = false then .next s
  else if (s.class? cls).isNone then .next s.clsDone
  else
    let leave (c : ClassRec) : ClassRec := if c.num = cls then { c with leaving := true } else c
    .next { s with classes := s.classes.map leave }

/-- CLASS_WITHDRAW_DONE (R414). -/
def execClassWithdrawDone (cls : Nat) (s : State) : Result :=
  match s.class? cls with
  | some r =>
    if r.leaving = true ∧ (s.moors.any (·.cls == cls)) = false ∧ (s.images.any fun x => x.moors.any (·.cls == cls)) = false then
      .next ({ s with classes := s.classes.filter (·.num ≠ cls) } : State).clsDone
    else .next s
  | none => .next s

/-- DIRECTORY_RESUME (R414): the slices use the new table. -/
def execDirectoryResume (dir : Nat) (s : State) : Result :=
  if 64 ≤ dir then .next s
  else
  let b := s.dirLog dir
  let n := if b = 0 then 0 else ((List.range (2 ^ b)).filter fun i => s.slotValid (s.dirSlot dir i)).length
  .next (((s.setRegBits (dirReg dir 3) 0 0 0).setReg (dirReg dir 2) (BitVec.ofNat 64 n)).notInterrupt (.directory dir))

/-! ## Ethernet (R53, R376) -/

/-- Pages of a range in an address space with the permission an access needs; A, and D for a write, are set. -/
def State.rocePages (s : State) (vf asid : Nat) (acc : Acc) : List (Nat × Nat) → State × Option (List (Nat × Nat))
  | [] => (s, some [])
  | (a, n) :: l =>
    match s.walked vf asid a acc false with
    | (s, .leaf pte _ shift) =>
      if leafAllows pte acc false then
        match State.rocePages s vf asid acc l with
        | (s, some ks) => (s, some (((leafXl pte shift a).key, n) :: ks))
        | r => r
      else (s, none)
    | (s, .stop _ _ _) => (s, none)

/-- The RoCE v2 engine, which drops a request for another module's memory to which no route is up (R73): SEND and RDMA WRITE put data into memory, RDMA READ answers with it, in parts of the path MTU. What it
answers for a poisoned byte is free (DESIGN CHOICE, log entry 12). (DEDUCED, log entry 50.) -/
def State.roce (s : State) (port : Nat) (f : Frame) (r : RoceReq) : State :=
  match s.queuePairs.find? (·.num == r.queuePair) with
  | none => s.ethDrop port .roce
  | some q =>
    let a := r.addr.toNat
    if r.reliable = false ∨ 2 < r.verb ∨ 2 ^ 52 < a + r.data.length then s.ethDrop port .roce
    else if r.verb ≠ 2 ∧ q.mtu < r.data.length then s.ethDrop port .mtu
    else
      let acc := if r.verb = 2 then accERead else accEWrite
      match s.rocePages q.vf q.asid acc (chunks a r.data.length) with
      | (s, none) => s.ethDrop port .roce
      | (s, some ps) =>
        if s.routed ps = false then s.ethDrop port .roce
        else if r.verb = 2 then
          let (s, n) := s.freshNat
          let bs := (s.fetchBytes (byteKeys ps)).zipIdx.map fun b => b.1.getD (BitVec.ofNat 8 (n / 256 ^ b.2))
          let parts := (List.range (max 1 ((bs.length + q.mtu - 1) / q.mtu))).map fun i => (bs.drop (i * q.mtu)).take q.mtu
          { s with sent := s.sent ++ parts.map fun b =>
              { port := port, addr := f.srcAddr, ipv6 := f.ipv6, dport := 4791, sport := 4791, vf := q.vf, bytes := b } }
        else
          s.putBytes ps (r.data.map some) none

/-- Number of the route entry for a client: its own, else one unused longest. (DEDUCED, log entry 50.) -/
def EthPort.routeFor (e : EthPort) (addr : Nat) (ipv6 : Bool) (port : Nat) : Nat :=
  match List.find? (fun (p : Nat × Route) => p.2.addr == addr && p.2.ipv6 == ipv6 && p.2.port == port) e.routes with
  | some (i, _) => i
  | none =>
    if e.routes.length < 65536 then e.routes.length
    else ((e.routes.sortedBy fun a b => decide (a.2.used ≤ b.2.used)).head?.map (·.1)).getD 0

/-- Inbound quota of a virtual function in messages (Table 21.1). -/
def State.inboundQuota (s : State) (vf : Nat) : Nat := 16 * s.regBits (schBase + 0x108 + 16 * vf) 63 52

/-- A message waits in the inbound area of its virtual function (R56). Table 21.1 places that area in memory and states no layout: the
messages wait in `inbound` alone, and the bytes at VFIN.BASE stay (DESIGN CHOICE, log entry 62). -/
def State.holdInbound (s : State) (m : Msg) : State := { s with inbound := s.inbound.put m.vf (s.inbound.get m.vf [] ++ [m]) }

/-- Why R53 drops an actor datagram; where several causes hold, the first in its list is counted (DESIGN CHOICE, log entry 61). -/
def State.datagramDrop (s : State) (vf : Nat) (f : Frame) : Option EthDrop :=
  let b (i : Nat) : Nat := (f.payload.getD i 0).toNat
  let cls := bigNat (f.payload.take 2)
  if f.udpLen ≠ 24 + b 2 ∨ f.payload.length ≠ 16 + b 2 then some .length
  else if 96 < b 2 then some .payload
  else if b 3 ≠ 0 then some .flags
  else if cls = 0xFFFF then some .netClass
  else if s.classFor vf cls = none then some .noClass
  else none

/-- An actor datagram (R53). SRCDEV is not stated for it, and free (DESIGN CHOICE, log entry 12); nor is the byte order of the
client tag, which is the least significant byte first here (DESIGN CHOICE, log entry 61). -/
def State.datagram (s : State) (port vf : Nat) (f : Frame) : State :=
  match s.datagramDrop vf f with
  | some why => s.ethDrop port why
  | none =>
    let i := (s.ethPort port).routeFor f.srcAddr f.ipv6 f.srcPort
    let s := { s with arrival := s.arrival + 1 }
    let s := s.modEth port fun e => { e with routes := e.routes.put i { addr := f.srcAddr, ipv6 := f.ipv6, port := f.srcPort, used := s.arrival } }
    let (s, n) := s.freshNat
    let m : Msg :=
      { key := BitVec.ofNat 64 (bigNat ((f.payload.drop 4).take 8)), cls := bigNat (f.payload.take 2), srcCtx := 0xF000 + port,
        srcDev := n % 1024, phase := 0, origin := 2,
        replyKey := BitVec.ofNat 64 (port * 0x10000 + i + bytesNat ((f.payload.drop 12).take 4) * 2 ^ 32), replyCls := 0xFFFF,
        vf := vf, payload := f.payload.drop 16 }
    if vf = s.resident then s.postMsg m
    else if (s.inbound.get vf []).length < s.inboundQuota vf then (s.holdInbound m).active vf 0
    else s.ethDrop port .quota

/-- The virtual function to whose actor port a frame goes on a logical port that accepts it (R53). -/
def State.actorFrame (s : State) (port : Nat) (f : Frame) : Option Nat :=
  if f.isUdp && (if f.ipv6 then (s.ethPort port).ipv6 else (s.ethPort port).ipv4) then
    (List.find? (fun (p : Nat × Nat) => p.2 == f.dstPort) s.udpPorts).map (·.1)
  else none

/-- ETHERNET_FRAME (R376): RoCE v2, actor datagrams, PTP with its timestamp, and the rest, in this order. A datagram to port 4791
that is no RoCE request is refused and counted. (DEDUCED, log entry 50.) -/
def execEthernetFrame (port : Nat) (frame : Frame) (s : State) : Result :=
  if (s.ethPort port).enabled = false then .next s
  else if frame.isUdp = true ∧ frame.dstPort = 4791 then
    match frame.roce with
    | some r => .next (s.roce port frame r)
    | none => .next (s.ethDrop port .roce)
  else match s.actorFrame port frame with
    | some vf => .next (s.datagram port vf frame)
    | none =>
      if frame.isPtp then .next { s with timing := s.timing ++ [(port, frame, s.ptp)] } else .next { s with toCleoz := s.toCleoz ++ [frame] }

/-- ETHERNET_PORT_ENABLE (R376): the route tables start afresh. The data paths are held in reset until stage 3 (R372). -/
def execEthernetPortEnable (phys split : Nat) (s : State) : Result :=
  let on (s : State) (p : Nat) : State := s.modEth p fun e => { e with enabled := true, routes := [] }
  if 2 ≤ phys ∨ s.boot.stage ≠ 3 then .next s
  else if split = 0 then .next ((on s (2 * phys)).modEth (2 * phys + 1) fun e => { e with enabled := false, routes := [] })
  else .next (on (on s (2 * phys)) (2 * phys + 1))

/-! ## Towline and CXL (R55, R56, R377, R378) -/

/-- TOWLINE_MESSAGE (R55, R56): beyond the quota it is refused, and its sender reissues it. -/
def execTowlineMessage (msg : Msg) (target : Nat) (s : State) : Result :=
  let m := { msg with origin := 1 }
  if target ≠ s.device ∨ s.boot.stage ≠ 3 ∨ 32 ≤ m.vf then .next s
  else if m.vf = s.resident then
    .next (s.modSlice (homeMooring m.cls m.key) fun x => { x with input := x.input ++ [m] })
  else if (s.inbound.get m.vf []).length < s.inboundQuota m.vf then .next (s.holdInbound m)
  else .next s

/-- Are the ports that Cleoz trains in stage 2 out of reset (R372; that they are so from Cleoz's loading on is DEDUCED from Table
20.1, DESIGN CHOICE, log entry 4)? -/
def State.portsLive (s : State) : Bool := s.cleozRuns

/-- TOWLINE_TRAIN (R378): a number that this module holds, or another partner, keeps the port down. Whether a number that another
port reports is held by the same partner the row does not say: that is free (DESIGN CHOICE, log entry 61). -/
def execTowlineTrain (port lanes partner : Nat) (s : State) : Result :=
  if 16 ≤ port ∨ s.portsLive = false then .next s
  else
    let n := if lanes = 8 then 8 else if 4 ≤ lanes then 4 else 0
    let put (s : State) (twice : Bool) : State :=
      let up := n != 0 && !twice
      { s with tow := s.tow.put port { up := up, lanes := n, partner := partner, report := twice, seen := (s.towPort port).seen || up } }
    if partner = s.device then .next (put s true)
    else if s.tow.any fun p => p.1 != port && p.2.up && p.2.partner == partner then
      let (s, r) := s.freshNat
      .next (put s (r % 2 == 1))
    else .next (put s false)

/-- TOWLINE_ROUTE_DOWN (R378). -/
def execTowlineRouteDown (port : Nat) (s : State) : Result :=
  if 16 ≤ port then .next s else .next { s with tow := s.tow.put port { s.towPort port with up := false } }

/-- CXL_PORT_TRAIN (R377): `kind` is the expander's CXL type. A port that has trained stays as it is until the module is reset. (DEDUCED, log entry 18.) -/
def execCxlPortTrain (port rate kind : Nat) (s : State) : Result :=
  let c := s.cxl.get port {}
  if 4 ≤ port ∨ s.portsLive = false ∨ c.trained = true ∨ c.failed = true then .next s
  else
    .next { s with cxl := s.cxl.put port { trained := kind == 3 && (rate == 64 || rate == 32), rate := rate, fallback := kind == 3 && rate == 32,
                                           base := s.cxlSize, failed := false } }

/-- CXL_LINK_DOWN (R377): every word homed on the expander is poisoned. (DEDUCED, log entry 18.) -/
def execCxlLinkDown (port : Nat) (s : State) : Result :=
  let c := s.cxl.get port {}
  if c.trained = false ∨ c.failed = true then .next s
  else
    .next { s with cxl := s.cxl.put port { c with failed := true },
                   poisonRanges := s.poisonRanges ++ [(cxlKey c.base, cxlKey (c.base + 1512000000000))] }

end Sys2Proof.Machine
end

