-- ==== Sys2Proof/Machine/EventsEngines.lean ====
section
/-! DEFINITION. Events of the engine contexts, the vector pool, the sluices and the block engines (R82, R99, R108 to
R110, R353 to R356, R407 to R409, R416). An event whose condition does not hold changes nothing. -/

namespace Sys2Proof.Machine

/-! ## Engine contexts (R98, R99, R355) -/

def State.engHead (s : State) (core ctr : Nat) : Option EngCmd := ((s.core core).queues.get ctr []).head?
def State.engNow (s : State) (core ctr : Nat) : Option EngCmd := (s.core core).running.find? ctr

def State.engAhead (s : State) (core ctr : Nat) : Option EngCmd := (s.core core).taken.find? ctr

/-- Is the issuer of a command still there? -/
def State.issuerHere (s : State) (q : EngCmd) : Bool := match s.ctxs.find? q.issuer with
  | some c => c.hnum == q.hnum
  | none => false

def State.setRunning (s : State) (core ctr : Nat) (q : EngCmd) : State := s.modCore core fun c => { c with running := c.running.put ctr q }
def State.setTaken (s : State) (core ctr : Nat) (q : EngCmd) : State := s.modCore core fun c => { c with taken := c.taken.put ctr q }

/-- The words that an attention request keeps, with its descriptor: what it has kept, or what it can read now; none where it can read
nothing yet (R322). -/
def State.attnKeep (s : State) (core : Nat) (q : EngCmd) : State × List W64 :=
  match q.op, q.blocks with
  | .attnq a, [] => match s.attnBegin core q a with
    | (t, .ok (ws, none)) => (t, ws)
    | _ => (s, [])
  | _, ws => (s, ws)

/-- What the engine finds when it begins a command: the words that the command keeps, or a trap. -/
def State.engBegin (s : State) (core ctr : Nat) (q : EngCmd) : State × Except Cause (List W64) :=
  match ctr with
  | 0 => matCheck core q s
  | 6 => let (s, ws) := s.attnKeep core q; (s, .ok ws)
  | 7 => match blkCheck q s with
    | .ok s => (s, .ok [])
    | .error c => (s, .error c)
  | _ => (s, .ok [])

/-- The engine begins a command: what is kept of it from then on. A command that traps here becomes an empty operation
(R155, R288, R312), and one whose operand record is poisoned ends its issuer (R277). -/
def State.begin_ (s : State) (core ctr : Nat) (q : EngCmd) : State × EngCmd :=
  match s.engBegin core ctr q with
  | (s, .error (cause, v)) =>
    let s := if s.issuerHere q = false then s
      else if cause = 0x0C then (s.modCtx q.issuer fun c => { c with wait := none }).poisoned q (some v)
      else (s.dropStall q.issuer (s.ctx q.issuer).nextIssue).takeTrap q.issuer cause v q.pc none
    (s, { q with op := .empty, accepted := true })
  | (s, .ok ws) =>
    (match q.dst with
     | some k => if s.issuerHere q then s.modCtx q.issuer fun c => c.setAt k (BitVec.ofNat 64 q.num) else s
     | none => s, { q with accepted := true, blocks := ws })

/-- An operation at the engine; one that reads words of matrix state with an uncorrectable error ends its issuer (R419). (DESIGN
CHOICE, log entry 8.) (DESIGN CHOICE, log entry 46). -/
def State.attempt (s : State) (core ctr : Nat) (q : EngCmd) : EngOut :=
  let met := if ctr = 0 then (s.core core).matErr.filter ((s.core core).readsWord q.op) else []
  match q.plan with
  | some p => .write s p
  | none =>
    if met ≠ [] then .done ((s.modCore core fun c => c.mend met.contains).endAsFail q.issuer q.hnum 0x0C 0)
    else engEffect core q s

/-- The end of an operation: what it has not written yet is written (R99), poison that it met ends its issuer (R301), and
an acquire of its number finds its destinations (R100). -/
def finishOp (core ctr : Nat) (q : EngCmd) : EngOut → Option State
  | .done s => some s
  | .write s p =>
    let left (w : Nat) : Bool := !(q.put.contains w)
    some (((s.performFor q.vf p left).poisoned q (p.bad.or (p.badOf left))).noteDest core ctr q p.dest)
  | .stop _ => none

/-- The counter passes an operation; the command taken behind it is the engine's current one. A matrix command begins only
then: it may need what the one before it has loaded (R134). -/
def State.passOp (s : State) (core ctr n : Nat) : State :=
  let s := s.modCore core fun c => { c with running := c.running.del ctr, tl := c.tl.put ctr (BitVec.ofNat 64 n) }
  match s.engAhead core ctr with
  | none => s
  | some q =>
    let (s, q) := if ctr = 0 then s.begin_ core ctr q else (s, q)
    (s.modCore core fun c => { c with taken := c.taken.del ctr }).setRunning core ctr q

def EngOp.isMmag : EngOp → Bool
  | .mma .mmag _ _ _ _ _ _ _ _ => true
  | _ => false

/-- The members that a command of MMAG steps with: the gang of its issuer when it was issued (R284). (DEDUCED, log entry 30.) -/
def EngCmd.members (q : EngCmd) (core : Nat) : List Nat := (gangCols q.gang).map fun c => (coresOf (clusterOf core)).getD c 0

/-- Performs the joint step of some members, each with its own command (R284). -/
def jointStep : List Nat → State → Option State
  | [], s => some s
  | k :: ks, s =>
    match s.engNow k 0 with
    | some q =>
      if q.op.isMmag then
        match finishOp k 0 q (s.attempt k 0 q) with
        | some s => jointStep ks (s.passOp k 0 q.num)
        | none => none
      else none
    | none => none

/-- Can an operation take its last step now: nothing that it is still to read or join keeps it (R355)? -/
def State.lastStep (s : State) (core ctr : Nat) (q : EngCmd) : Bool :=
  if q.op.isMmag then (jointStep (q.members core) s).isSome
  else match s.attempt core ctr q with
    | .stop _ => false
    | _ => true

/-- May the engine take its next command: the issuer's earlier writes are acknowledged (R98), no request that stands before it in
the block engine queue is still there (R312), and the engine is idle, or has none taken yet and has issued the last read of its
current one, for the matrix engine begun its last step (R355)? -/
def State.engReady (s : State) (core ctr : Nat) : Bool :=
  (match s.engHead core ctr with
   | some q => !(s.owes q.vf (coreOf q.issuer) q.hnum q.after) && (ctr != 7 || s.requestsGone core q.after)
   | none => false) &&
  (match s.engNow core ctr with
   | none => true
   | some q => (s.engAhead core ctr).isNone && ((s.core core).stopped.find? ctr).isNone && s.lastStep core ctr q)

/-- The command that an engine context runs, or the one taken behind it that has begun too. -/
def State.engCmd (s : State) (core ctr : Nat) (ahead : Bool) : Option EngCmd :=
  if ahead then (if ctr = 0 then none else s.engAhead core ctr) else s.engNow core ctr
def State.setEngCmd (s : State) (core ctr : Nat) (ahead : Bool) (q : EngCmd) : State :=
  if ahead then s.setTaken core ctr q else s.setRunning core ctr q

/-- An attention request whose descriptor could not be read when it began keeps its words once it can (R322). (DESIGN CHOICE, log entry 8.) -/
def State.latch (s : State) (core ctr : Nat) (ahead : Bool) : State :=
  match s.engCmd core ctr ahead with
  | some q => let (s, ws) := s.attnKeep core q; s.setEngCmd core ctr ahead { q with blocks := ws }
  | none => s

/-- The pages of an operation whose accesses have all been made: each byte of a source page is read, each word of a destination page
written. A retry goes on behind them (R407). (DESIGN CHOICE, log entry 8.) -/
def State.donePages (s : State) (core : Nat) (q : EngCmd) : List (Bool × Nat × Nat) :=
  let part (acc : Acc) (done : Nat × Nat → Bool) : List (Bool × Nat × Nat) :=
    ((s.opRanges q).flatMap fun r => chunks r.1 r.2).filterMap fun p => match (s.engKey core q acc p.1).2 with
      | .ok k => if done (k, p.2) then some (acc.w, p.1, k) else none
      | .error _ => none
  q.pages ++ part accERead (fun p => (byteKeys [p]).all fun k => (q.got.find? k).isSome) ++
    part accEWrite (fun p => (wordsIn p.1 p.2).all q.put.contains)

/-- An operation has made some accesses. -/
def State.accessed (s : State) (core ctr : Nat) (ahead : Bool) (q : EngCmd) : State :=
  s.setEngCmd core ctr ahead { q with pages := s.donePages core q }

/-- The engine has issued the last read of its current command: what it will write no longer changes. -/
def State.lastRead (s : State) (core ctr : Nat) : State :=
  if ctr = 0 then s
  else
    let s := s.latch core ctr false
    match s.engNow core ctr with
    | some q => match s.attempt core ctr q with
      | .write t p => t.setRunning core ctr { q with plan := some p, planAt := s.nextId }
      | _ => s
    | none => s

/-- ENGINE_COMMAND_TAKE (R355). -/
def execEngineCommandTake (core ctr : Nat) (s : State) : Result :=
  match s.engHead core ctr with
  | none => .next s
  | some q =>
    if s.engReady core ctr = false then .next s
    else
      let s := (s.lastRead core ctr).modCore core fun c =>
        { c with queues := c.queues.put ctr (c.queues.get ctr []).tail, engTook := c.engTook.put ctr s.cycle }
      match s.engNow core ctr with
      | none => let (s, q) := s.begin_ core ctr q; .next (s.setRunning core ctr q)
      | some _ => if ctr = 0 then .next (s.setTaken core ctr q) else let (s, q) := s.begin_ core ctr q; .next (s.setTaken core ctr q)

/-- The member whose bank of the weight store is under refresh, and the pieces, in a joint step (R358). -/
def State.opRefresh (s : State) (core ctr : Nat) (q : EngCmd) : Option (List (Nat × Nat)) :=
  match s.attempt core ctr q with
  | .stop (.refresh ps) => some ps
  | _ => none

/-- Words of the shared operand of an MMAG, which the cluster reads once for every member (R284). -/
def EngOp.sharedWords : EngOp → List Nat
  | .mma .mmag _ (.pair x y) _ _ n _ _ _ => (pairRows x y n).flatMap fun a => wordsIn a 64
  | _ => []

/-- Every member's engine has the same words of the shared operand. -/
def State.shareRows (s : State) (core : Nat) (q : EngCmd) : State :=
  let new := q.op.sharedWords.flatMap fun w => (List.range 8).filterMap fun i => (q.got.find? (w + i)).map fun b => (w + i, b)
  (q.members core).foldl (fun s k => match s.engNow k 0 with
    | some r => if r.op.isMmag then s.setRunning k 0 { r with got := new.foldl (fun m p => m.put p.1 p.2) r.got } else s
    | none => s) s

/-- An operation whose engine context is not stopped reads some words before the others (R114); those that the members of a gang share, once all of them are at the
step. (DESIGN CHOICE, log entry 8.) -/
def State.engRead (s : State) (core ctr : Nat) (ahead : Bool) (ws : List Nat) : State :=
  let s := s.latch core ctr ahead
  match s.engCmd core ctr ahead, (s.core core).stopped.find? ctr with
  | some q, none =>
    let shared := q.op.sharedWords
    let joint := (q.members core).all fun k => (s.engNow k 0).any (·.op.isMmag)
    let (s, q) := s.readEarly core q (ws.filter fun w => joint || !(shared.contains w))
    let s := s.accessed core ctr ahead q
    if ctr = 0 ∧ q.op.isMmag = true then s.shareRows core q else s
  | _, _ => s

/-- An operation that meets a bank under refresh reads what its other banks hold meanwhile (R70, R358). -/
def State.readOthers (s : State) (core ctr : Nat) : State :=
  match s.engNow core ctr with
  | some q => match s.opRefresh core ctr q with
    | some ps => s.engRead core ctr false (if q.op.byBytes then byteKeys ps else ps.flatMap fun p => wordsIn p.1 p.2)
    | none => s
  | none => s

/-- ENGINE_OP_COMPLETE (R99). (DESIGN CHOICE, log entry 8.) -/
def execEngineOpComplete (core ctr : Nat) (s : State) : Result :=
  match s.engNow core ctr, (s.core core).stopped.find? ctr with
  | some q, none =>
    if q.op.isMmag then
      match jointStep (q.members core) s with
      | some s => .next s.withdrawNotices
      | none => .next ((q.members core).foldl (fun s k => s.readOthers k 0) s)
    else match finishOp core ctr q (s.attempt core ctr q) with
      | some s => .next (s.passOp core ctr q.num).withdrawNotices
      | none => .next (s.readOthers core ctr)
  | _, _ => .next s

/-- What an operation writes, and where a page of it faults or a bank under refresh holds up some of its source, what it writes beside
that. -/
def State.attemptPart (s : State) (core ctr : Nat) (q : EngCmd) : EngOut :=
  match s.attempt core ctr q with
  | .stop e =>
    match s.attempt core ctr { q with skip := true } with
    | .write s p => .write s p.sound
    | _ => .stop e
  | out => out

/-- The source bytes that an operation has read once it has written some words. -/
def Plan.readFor (p : Plan) (ws : List Nat) : List Nat :=
  p.uses.flatMap fun g => if g.1.any fun k => ws.contains (wordKey k) then g.2 else []

/-- An operation writes some words before the others (R114): in number order where a word is also one of the operation
before it (R300), and of ATTNQ the status word last. The source bytes that these words come from are read then, and no second time.
Where a page of it faults, the accesses before the fault are performed (R301, R407). Poison that it meets with these words ends the issuer
now. (DESIGN CHOICE, log entry 8.) -/
def State.engWrite (s : State) (core ctr : Nat) (ahead : Bool) (ws : List Nat) : State :=
  let s := s.latch core ctr ahead
  match s.engCmd core ctr ahead, (s.core core).stopped.find? ctr with
  | some q, none =>
    match s.attemptPart core ctr q with
    | .write s p =>
      let before (w : Nat) : Bool := ahead && (match s.engNow core ctr with
        | some r => !(r.put.contains w) && (r.plan.any fun p => p.out.any fun x => wordKey x.1 == w)
        | none => false)
      let now := ws.filter fun w => !(q.put.contains w) && (p.out.any fun x => wordKey x.1 == w) && p.last != some w && !(before w)
      let q := s.keepBytes q (p.readFor now)
      ((s.performFor q.vf p now.contains).accessed core ctr ahead { q with put := q.put ++ now }).poisoned q (p.badOf now.contains)
    | _ => s
  | _, _ => s

/-- ENGINE_FAULT (R407). (DESIGN CHOICE, log entry 8.) -/
def execEngineFault (core ctr : Nat) (s : State) : Result :=
  match s.engNow core ctr, (s.core core).stopped.find? ctr with
  | some q, none =>
    match s.attempt core ctr q with
    | .stop (.fault f) =>
      if s.recordRoom (clusterOf core) (ringOf q.asid) then
        .next ((s.modCore core fun c => { c with stopped := c.stopped.put ctr f }).pushRecord (clusterOf core) (ringOf q.asid)
          (engineRecord core ctr q f))
      else .next s
    | _ => .next s
  | _, _ => .next s

/-- ENGACT_RETRY (R407). (DESIGN CHOICE, log entry 8.) -/
def execEngactRetry (core ctr : Nat) (s : State) : Result :=
  if ((s.core core).stopped.find? ctr).isNone then .next s
  else .next ((s.modCore core fun c => { c with stopped := c.stopped.del ctr }).latch core ctr false)

/-- ENGACT_ABANDON (R407): the operation writes no more, and its live issuer ends as by FAIL. -/
def execEngactAbandon (core ctr : Nat) (s : State) : Result :=
  match s.engNow core ctr, (s.core core).stopped.find? ctr with
  | some q, some f =>
    let s := (s.setRunning core ctr { q with op := .empty, plan := none }).modCore core fun c => { c with stopped := c.stopped.del ctr }
    .next (s.endAsFail q.issuer q.hnum f.cause f.va)
  | _, _ => .next s

/-! ## The vector pool (R248, R353) -/

/-- Lanes of the commands that a cluster's pool performs. -/
def State.lanesBusy (s : State) (cl : Nat) : Nat :=
  ((coresOf cl).flatMap fun k => (s.core k).vrunning.map fun q => (s.ctx q.ctx).laneCount).sum

/-- Is it a load or a store? -/
def VOp.isMem : VOp → Bool
  | .load _ _ _ _ | .store _ _ _ _ => true
  | _ => false

/-- May the pool take the command at the head of a core's queue now: none was taken from it in this cycle, the context's
command before it is done, its lanes fit, and, for a load or a store, the writes before the last release are acknowledged (R248)? -/
def State.vready (s : State) (core : Nat) : Bool :=
  let c := s.core core
  c.vtook != some s.cycle && match c.vqueue with
    | [] => false
    | q :: _ => decide (s.lanesBusy (clusterOf core) + (s.ctx q.ctx).laneCount ≤ 512) && !(c.vrunning.any (·.ctx == q.ctx)) &&
      !(q.op.isMem && s.unacked q.ctx q.after)

/-- The core whose command the pool of a cluster takes next: round robin over those whose command it may take (R353).
That a command which does not fit lets the cores behind it go first is the model's reading (DEDUCED, log entry 9). -/
def State.poolNext (s : State) (cl : Nat) : Option Nat :=
  ((List.range 8).map fun i => (coresOf cl).getD (((s.cluster cl).vlast + 1 + i) % 8) 0).find? s.vready

/-- VECTOR_COMMAND_START (R353). (DEDUCED, log entry 9.) -/
def execVectorCommandStart (core : Nat) (s : State) : Result :=
  match (s.core core).vqueue with
  | [] => .next s
  | q :: rest =>
    if s.poolNext (clusterOf core) = some core then
      .next ((s.modCore core fun c => { c with vqueue := rest, vrunning := c.vrunning ++ [{ q with began := s.cycle }], vtook := some s.cycle }).modCluster (clusterOf core)
        fun c => { c with vlast := colOf core })
    else .next s

/-- Elements of a load that it has not read. -/
def VCmd.unread (q : VCmd) : List (Nat × Nat × Bool) :=
  match q.op with
  | .load _ _ l _ => l.filter fun e => (q.got.find? e.1).isNone
  | _ => []

/-- Has every remote element of a load or a store a route (R73)? -/
def State.vrouted (s : State) (q : VCmd) : Bool :=
  match q.op with
  | .load _ _ _ _ => s.routed (q.unread.map fun e => (e.2.1, 1))
  | .store _ _ l _ => s.routed (l.map fun e => (e.2.1, 1))
  | _ => true

/-- Does a load wait for a weight-store bank under refresh (R70), or a load or a store for a route? -/
def State.vloadWaits (s : State) (q : VCmd) : Bool := (q.unread.any fun e => s.bankBusy e.2.1) || !(s.vrouted q)

/-- The elements of a load in the weight store whose banks are not under refresh. -/
def State.vreadable (s : State) (q : VCmd) : List (Nat × Nat × Bool) :=
  q.unread.filter fun e => !(s.bankBusy e.2.1) && (match placeOf e.2.1 with
    | .weight _ _ => true
    | _ => false)

/-- Can a command that the pool has started go on: its lanes are occupied for the cycle in which it started at least (R353), and one
that waits for a bank or a route has elements of other banks to read (R70)? -/
def State.vdone (s : State) (q : VCmd) : Bool := decide (q.began < s.cycle) && (!(s.vloadWaits q) || !(s.vreadable q).isEmpty)

/-- A load reads the elements of other banks meanwhile. -/
def State.vreadOthers (s : State) (q : VCmd) : VCmd :=
  let w := match q.op with
    | .load _ fmt _ _ => fmtWidth fmt
    | _ => 8
  { q with got := (s.vreadable q).foldl (fun m e => m.put e.1 (s.read e.2.1 (max 1 (w / 8)), s.isPoisoned e.2.1)) q.got }

/-- VECTOR_COMMAND_DONE (R248). (DEDUCED, log entry 9.) -/
def execVectorCommandDone (core slot : Nat) (s : State) : Result :=
  match (s.core core).vrunning.find? (·.ctx == ctxId core slot) with
  | none => .next s
  | some q =>
    if s.vdone q = false then .next s
    else if s.vloadWaits q then
      .next (s.modCore core fun c => { c with vrunning := c.vrunning.replace q (s.vreadOthers q) })
    else .next ((s.performVector q).modCore core fun c => { c with vrunning := c.vrunning.erase q }).withdrawNotices

/-! ## Sluices (R108 to R110, R324, R416) -/

def grpcmd (g : Nat) : Nat := sluiceBase g + 0x30
/-- STATE of Table 22.9. -/
def State.grpState (s : State) (g : Nat) : Nat := s.regBits (sluiceBase g) 2 1
def State.setGrpState (s : State) (g n : Nat) : State := s.setRegBits (sluiceBase g) 2 1 n
/-- The command that GO has started, 0 for none. -/
def State.grpGoing (s : State) (g : Nat) : Nat := if s.regBits (grpcmd g) 63 63 = 1 then s.regBits (grpcmd g) 2 0 else 0
def State.grpDone (s : State) (g : Nat) : State := s.setRegBits (grpcmd g) 63 63 0
/-- GRPSEQ shows the generation and the highest applied number. -/
def State.showSeq (s : State) (g : Nat) : State :=
  s.setReg (sluiceBase g + 0x38) (BitVec.ofNat 64 ((s.group g).gen * 2 ^ 32 + (s.group g).applied))

/-- Does this module hold the group's sequencer: is it the one in force (R416)? -/
def State.isSequencer (s : State) (g : Nat) : Bool := (s.group g).seqDev == s.device
/-- The module that SEQDEV names. -/
def State.seqNamed (s : State) (g : Nat) : Nat := s.regBits (sluiceBase g) 17 8

/-- The store that the sequencer takes next: its earlier writes are acknowledged (R98), and it reaches the sequencer. -/
def State.nextStamp (s : State) (g : Nat) : Option SStore :=
  if s.isSequencer g || (s.towPort (s.regBits (sluiceBase g) 7 4)).up then
    (s.group g).waiting.find? fun x => !(s.owes x.vf (coreOf x.ctx) x.hnum x.after)
  else none

/-- Key of offset `off` in this member's copy. -/
def State.grpKey (s : State) (g off : Nat) : Nat := s.regBits (sluiceBase g + 0x18) 51 6 * 64 + off
/-- Length of the replicated region. -/
def State.grpLen (s : State) (g : Nat) : Nat := s.regBits (sluiceBase g + 0x10) 39 6 * 64

/-- The region as it stands here, by offset. -/
def State.grpRegion (s : State) (g : Nat) : List Host.Cell :=
  (cellsIn s.mem (s.grpKey g 0) (s.grpLen g)).map fun c => (c.1 - s.grpKey g 0, c.2)

/-- A store is applied to a copy of the region: MCSTC's condition is on the copy's own bytes (R110, R324). -/
def SStore.applyTo (x : SStore) (m : List Host.Cell) (k : Nat) : List Host.Cell :=
  match x.expect with
  | none => memPut m k x.val.toNat 8
  | some e => if memNat m k 8 = e.toNat then memPut m k x.val.toNat 8 else m

/-- SLUICE_STAMP (R108). The sequencer member's copy, of which only the stamped stores are known here, begins as this member's and
follows them (DESIGN CHOICE, log entry 62). -/
def execSluiceStamp (group : Nat) (s : State) : Result :=
  let t := s.group group
  match s.nextStamp group with
  | some x =>
    if s.grpState group = 1 ∧ t.open_ = true ∧ s.grpGoing group ≠ 2 then
      let n := t.stamped + 1
      let s := s.modGroup group fun t =>
        { t with waiting := t.waiting.filter (·.id ≠ x.id), stamped := n, history := ((n, x) :: t.history).take 4096, missing := t.missing ++ [x],
                 copy := some (x.applyTo (t.copy.getD (s.grpRegion group)) x.off) }
      .next (if x.dst = 0 then s else s.modCtx x.ctx fun c => c.setAt x.dst (BitVec.ofNat 64 (t.gen * 2 ^ 32 + n)))
    else .next s
  | none => .next s

/-- Applies a store to this member's copy; tags are unchanged. MCSTC compares the bytes that a poisoned word holds, and a store that is
not made leaves the poison: the manual does not say (DESIGN CHOICE, log entry 62). -/
def State.applyStore (s : State) (g : Nat) (x : SStore) : State :=
  let k := s.grpKey g x.off
  let write : State := (s.write64 k x.val).clearPoison k 8
  match x.expect with
  | none => write
  | some e => if s.read64 k = e then write else s

/-- SLUICE_APPLY (R108, R109). -/
def execSluiceApply (group : Nat) (s : State) : Result :=
  let t := s.group group
  if t.stamped ≤ t.applied ∨ (s.grpState group ≠ 1 ∧ s.grpState group ≠ 3) then .next s
  else match t.history.find? (·.1 == t.applied + 1) with
    | some (_, x) => .next (((s.applyStore group x).modGroup group fun t => { t with applied := t.applied + 1, missing := t.missing.tail }).showSeq group)
    | none => .next (({ s with interrupts := s.interrupts ++ [.sluice group] } : State).setGrpState group 2)

/-- GROUP_ACTIVATE (R416). -/
def execGroupActivate (group : Nat) (s : State) : Result :=
  if s.grpGoing group = 1 ∧ s.regBits (sluiceBase group) 0 0 = 1 then
    .next ((((s.modGroup group fun t => { t with gen := 1, stamped := 0, applied := 0, history := [], missing := [], open_ := false, seqDev := s.seqNamed group, copy := none }).setGrpState group 1).grpDone group).showSeq group)
  else .next s

/-- Is this module in the group's member list? -/
def State.isMember (s : State) (g : Nat) : Bool :=
  let a := s.regBits (sluiceBase g + 0x20) 51 6 * 64
  (List.range (s.regBits (sluiceBase g + 0x28) 6 0)).any fun i => s.read (a + 2 * i) 2 == s.device

/-- GROUP_RECONFIGURE (R109, R416): once this member has applied every stamped number. -/
def execGroupReconfigure (group : Nat) (s : State) : Result :=
  let t := s.group group
  if s.grpGoing group = 2 ∧ t.applied = t.stamped then
    let s := s.modGroup group fun t =>
      { t with gen := t.gen + 1, stamped := 0, applied := 0, history := [], missing := [], seqDev := s.seqNamed group }
    .next (((s.setGrpState group (if s.isMember group then 1 else 0)).grpDone group).showSeq group)
  else .next s

/-- A group whose sequencer in force is on another module goes on with its new list, and with its new sequencer, which may be this
module: once this member has applied every stamped number it raises its generation and numbers from 1 again, and one left out returns to
STATE 0, a lagged one too (R109, R416). The generation of a group that this module joins only now is the group's, which this module does
not hold: a free value (DESIGN CHOICE, log entry 62). -/
def State.groupMove (s : State) (g : Nat) : State :=
  let t := s.group g
  let st := s.grpState g
  if (st != 0 && s.isSequencer g) || s.grpGoing g != 0 || st == 3 || s.regBits (sluiceBase g) 0 0 == 0 ||
      (st == 1 && t.applied != t.stamped) then s
  else if s.isMember g = false then (s.modGroup g fun t => { t with seqDev := s.seqNamed g }).setGrpState g 0
  else if st = 2 then s
  else
    let (s, n) := if st = 1 then (s, t.gen) else s.freshNat
    ((s.modGroup g fun t =>
      { t with gen := n % 2 ^ 32 + 1, stamped := 0, applied := 0, history := [], missing := [], seqDev := s.seqNamed g,
               copy := if st = 1 then t.copy else none }).setGrpState g 1).showSeq g

/-- The sequencer member's copy of the region is copied over this member's, which loses its poison; at the sequencer's own member the
stores that it has not applied are applied (R109, R416). (DESIGN CHOICE, log entry 62.) -/
def State.takeRegion (s : State) (g : Nat) : State :=
  let t := s.group g
  let k := s.grpKey g 0
  let out (w : Nat) : Bool := !(decide (k ≤ w) && decide (w < k + s.grpLen g))
  match s.isSequencer g, t.copy with
  | false, some m =>
    { s with mem := m.foldl (fun m c => memSet m (k + c.1) c.2) (s.mem.filter fun c => out c.1), poison := s.poison.filter out }
  | _, _ => t.missing.foldl (fun s x => s.applyStore g x) s

/-- GROUP_RESYNCHRONISE (R109, R416): this member's copy becomes the sequencer member's as of the last stamped number. -/
def execGroupResynchronise (group : Nat) (s : State) : Result :=
  if s.grpGoing group = 3 ∧ s.grpState group = 2 then
    let s := s.takeRegion group
    .next ((((s.modGroup group fun t => { t with applied := t.stamped, missing := [] }).setGrpState group 1).grpDone group).showSeq group)
  else .next s

/-- GROUP_DELETE (R324, R416): a store that is not stamped gives all ones. -/
def execGroupDelete (group : Nat) (s : State) : Result :=
  if s.grpGoing group = 4 then
    let s := (s.group group).waiting.foldl (fun s x => if x.dst = 0 then s else s.modCtx x.ctx fun c => c.setAt x.dst ones64) s
    .next ((((s.modGroup group fun _ => {}).setGrpState group 0).grpDone group).showSeq group)
  else .next s

/-! ## Blocks (R82, R408, R420) -/

/-- Zeroes a range of memory, its tags FULL and its poison gone; waiters are served. -/
def State.rinseRange (s : State) (a n : Nat) : State :=
  let inside (w : Nat) : Bool := decide (a ≤ w) && decide (w < a + n)
  let ws := s.empties.filter inside
  let s := { s.zeroRange a n with empties := s.empties.filter fun w => !(inside w), poison := s.poison.filter fun w => !(inside w) }
  ws.foldl (fun s w => s.serve w s.flights.length) s

/-- A timeline counter as a virtual function has it: on the core, or in its image. -/
def State.timelineOf (s : State) (vf core ctr : Nat) : Nat :=
  match s.images.find? (·.vf == vf) with
  | some x => ((x.cores.get core {}).tl.get ctr 0).toNat
  | none => (s.timeline core ctr).toNat

/-- Have the operations that a released block drains completed? -/
def State.drained (s : State) (b : Block) : Bool := b.drain.all fun d => decide (d.2.2.2 ≤ s.timelineOf d.1 d.2.1 d.2.2.1)

/-- BLOCK_RINSE (R82, R420): `fails` is not 0 when the block still fails read-back. -/
def execBlockRinse (stack pool index fails : Nat) (s : State) : Result :=
  let b := s.block stack pool index
  if b.rinsing = false ∨ b.retired = true ∨ s.drained b = false then .next s
  else
    let g := if b.gen = 0xFFFF then 1 else b.gen + 1
    let s := s.rinseRange (s.blockAddr stack pool index) (s.blockSize stack pool)
    let b : Block := { b with gen := g, drain := [] }
    if fails = 0 then
      .next ((s.setBlock stack pool index { b with rinsing := false }).setRinsed stack pool (s.rinsedList stack pool ++ [index]))
    else .next ((s.setBlock stack pool index { b with retired := true }).errorRecord (s.blockAddr stack pool index) 3 3 b.vf stack
      (handleWord g stack pool index) 0)

/-- Blocks of a pool that are referenced, rinsing or retired (POOLSTAT.LIVE). -/
def State.poolLive (s : State) (stack pool : Nat) : Nat :=
  ((s.stack stack).blocks.filter fun p => decide (p.1 / 2 ^ 40 = pool) && (decide (0 < p.2.refs) || p.2.rinsing)).length
/-- May a pool's configuration change (R408)? -/
def State.poolIdle (s : State) (stack pool : Nat) : Bool :=
  s.poolLive stack pool == 0 && (List.range 32).all fun v => s.charged stack v pool == 0

/-- POOL_ENABLE (R408); the blocks stand on the rinsed list by rising index. (DESIGN CHOICE, log entry 2.) -/
def execPoolEnable (stack pool : Nat) (s : State) : Result :=
  if s.cleozRuns = false ∨ s.poolIdle stack pool = false ∨ 16 ≤ stack ∨ 16 ≤ pool then .next s
  else
    let s := s.setRegBits (poolReg stack pool 0) 2 2 1
    let n := s.poolCount stack pool
    let s := s.rinseRange (s.blockAddr stack pool 0) (n * s.blockSize stack pool)
    let s := s.modStack stack fun t => { t with blocks := t.blocks.filter fun p => !(decide (p.1 / 2 ^ 40 = pool)) }
    .next (s.setRinsed stack pool (List.range n))

/-- POOL_DISABLE (R408). -/
def execPoolDisable (stack pool : Nat) (s : State) : Result :=
  if s.cleozRuns = false ∨ s.poolIdle stack pool = false ∨ 16 ≤ stack ∨ 16 ≤ pool then .next s
  else .next ((s.setRegBits (poolReg stack pool 0) 2 2 0).setRinsed stack pool [])

/-- OPERAND_RECORD_INVALIDATE (R409). -/
def execOperandRecordInvalidate (val : W64) (s : State) : Result :=
  let idx := bitsOf val 39 16
  if s.cleozRuns = false then .next s
  else .next { s with cores := s.cores.map fun (p : Nat × CoreSt) =>
            if p.2.vfid = bitsOf val 4 0 then (p.1, { p.2 with orCache := p.2.orCache.filter fun r => !(idx == 0xFFFFFF || r.1 == idx) }) else p }

end Sys2Proof.Machine
end

