-- ==== Sys2Proof/Machine/EventsWork.lean ====
section
/-! DEFINITION. Events of contexts, helpers, launches and the scheduler: the life of a helper (R9 to R12), faults and
frames (R403 to R406), migration (R31), dispatch (R18 to R25), priorities and pre-emption (R383 to R387), slices
(R389 to R391), and the answers of Cleoz. An event whose condition does not hold changes nothing. -/

namespace Sys2Proof.Machine

/-! ## Starting and ending (R9, R13, R205, R254) -/

/-- Have the starter's earlier writes been acknowledged (R203)? -/
def State.mayLive (s : State) (id : Nat) : Bool :=
  let c := s.ctx id
  (s.ctxs.find? id).isSome && c.life == .starting && !(s.unacked c.starter c.startAfter)

/-- Can the pool hold the window now, with those of the helpers that started earlier (R13, R255)? -/
def State.windowFits (s : State) (id : Nat) : Bool :=
  let c := s.ctx id
  let cl := clusterOf (coreOf id)
  c.window == 0 || decide (s.startingBlocks cl (fun d => decide (d.startOrder < c.startOrder)) + c.window ≤ s.blocksFree cl)

/-- Does the launch of a helper give it an initial claim (R254)? -/
def State.initialClaim (s : State) (c : Ctx) : Bool :=
  match c.item with
  | some (h, _) => c.window != 0 && (match s.launch? h with
    | some l => l.claim != 0
    | none => false)
  | none => false

/-- HELPER_LIVE: a window that does not fit raises the yield request (R255). -/
def execHelperLive (core slot : Nat) (s : State) : Result :=
  let id := ctxId core slot
  if s.mayLive id = false then .next s
  else if s.windowFits id = false then .next (s.raiseYield (clusterOf core))
  else
    let s := s.modCtx id fun c => { c with life := .live, nextIssue := s.cycle }
    .next ((if s.initialClaim (s.ctx id) then (s.claimLanes id (BitVec.ofNat 64 (s.ctx id).reqLanes)).1 else s).lowerYield (clusterOf core))

/-- An uncollected record of a starter is lost (R207); the starter is here, or in the image of its virtual function. -/
def State.markLost (s : State) (vf starter : Nat) : State :=
  let mark (m : Map Ctx) : Map Ctx := match m.find? starter with
    | some c => m.put starter { c with lost := true }
    | none => m
  if vf = s.vfOf starter then { s with ctxs := mark s.ctxs }
  else { s with images := s.images.map fun x => if x.vf = vf then { x with ctxs := mark x.ctxs } else x }

/-- Writes an end record among the core's last 32; an uncollected record that it overwrites is lost (R205, R207). -/
def State.endRecord (s : State) (core : Nat) (r : EndRec) : State :=
  match (s.core core).ends with
  | [] => s.modCore core fun c => { c with ends := [r] }
  | x :: rest =>
    if (x :: rest).length < 32 then s.modCore core fun c => { c with ends := c.ends ++ [r] }
    else
      let s := s.modCore core fun c => { c with ends := rest ++ [r] }
      if x.collected = false ∧ (x.form = .start ∨ x.form = .startw) then s.markLost x.vf x.starter else s

def endRecOf (vf : Nat) (c : Ctx) (out code : Nat) : EndRec :=
  { vf := vf, num := c.hnum, out := out, code := code, starter := c.starter, collected := false, form := c.form }

/-- An actor whose handler ended by FINISH after AIDLE becomes idle-eligible (R44, R309); one that is so already keeps its time. -/
def State.idleActor (s : State) (c : Ctx) (failed : Bool) : State :=
  match c.actor with
  | some r =>
    match s.moor? r.cls r.key with
    | some m =>
      if r.aidle ∧ failed = false then
        (s.setMoor { m with eligible := some (m.eligible.getD s.ptp) }).retryMoorings ((m.berth.map (·.1)).getD 4096)
      else s
    | none => s
  | none => s

/-- Contexts that wait at MMAG in the gang of a core and are members of a gang item (R30, R133). (DEDUCED, log entry 30.) -/
def State.gangWaiters (s : State) (core : Nat) (item : Option (Nat × Nat)) : List Nat :=
  (s.gangCores core).filterMap fun c => match (s.core c).mmag with
    | some (id, _, false) => if (s.ctx id).gang = true ∧ item.isSome = true ∧ (s.ctx id).startItem = item then some id else none
    | _ => none

/-- A member of an item that ends while others of the item wait at the wired barrier traps them, TVAL its own column (R133, Table 6.8). (DEDUCED, log entry 30.)
A member is a helper that a gang launch started: of a gang that GANGCFG alone made, the manual does not say which helper of a
core is its member, and no helper's end traps there (DESIGN CHOICE, log entry 62). -/
def State.breakGang (s : State) (core : Nat) (item : Option (Nat × Nat)) : State :=
  (s.gangWaiters core item).foldl (fun s id => (s.withdraw id).takeTrap id 0x13 (colBits [core]) (s.ctx id).pc none) s

/-- May a Closing helper end: its store-acknowledge counter is zero and its busy flag clear (Table 1.1), and its fixed-latency writes have
taken effect (R351)? -/
def State.mayEnd (s : State) (id : Nat) : Bool :=
  (s.ctxs.find? id).isSome && (s.ctx id).life == .closing && s.acks id == 0 && !(s.busy id) && (s.ctx id).writesDone s.cycle

/-- What a helper has asked of the block engine and not got yet stays in its core's queue when it ends, without a register to answer
(R312). (DESIGN CHOICE, log entry 25.) -/
def State.leaveRequests (s : State) (id : Nat) : State :=
  let c := s.ctx id
  s.modCore (coreOf id) fun x => { x with asked := x.asked ++ (c.pend.filter fun p => p.request?.isSome).map fun p => (c.hnum, p.op) }

/-- HELPER_CLOSE_END (R9, R205): the releases that wait for the helper's writes take effect first, as none is unacknowledged (R91). -/
def execHelperCloseEnd (core slot : Nat) (s : State) : Result :=
  let id := ctxId core slot
  if s.mayEnd id = false then .next s
  else
    let s := s.advancePends id
    let c := s.ctx id
    let s := ((s.leaveRequests id).settleItem id c).endRecord core (endRecOf (s.vfOf id) c (if c.failed then 1 else 0) c.code)
    let s := ((s.idleActor c c.failed).leaveArrivals id).vacate id
    let s := { s with groups := s.groups.map fun (p : Nat × Group) =>
                 (p.1, { p.2 with waiting := p.2.waiting.map fun x => if x.ctx = id then { x with dst := 0 } else x }) }
    .next (if c.gang then s.breakGang core c.startItem else s)

/-! ## Faults and frames (R403 to R406) -/

/-- Saves contexts into frames, each under the kind that `kind` gives; of a gang the matrix state is saved too. -/
def saveAll (kind : Nat → Nat) (gang : Option (Nat × Nat)) : List (Nat × Nat) → State → State
  | [], s => s
  | (id, frame) :: l, s => saveAll kind gang l (s.save id frame (kind id) gang gang.isSome false)

/-- A gang's link in its frames: the first member's frame and GANGMASK. -/
def State.gangLink (s : State) (id : Nat) (l : List (Nat × Nat)) : Option (Nat × Nat) :=
  if (s.ctx id).gang then (l.head?.map fun p => (p.2, (s.core (coreOf id)).gangMask)) else none

/-- May a context that took cause 0x04, and its gang, be saved now? A member's arrival at the wired barrier is withdrawn
(R284). -/
def State.maySave (s : State) (id : Nat) : Bool :=
  let ms := s.members id
  isHelper id && (s.ctx id).wait == some .fault && !(s.flights.any fun f => f.ctx == id && f.counted) && ms.all (fun m => s.saveable m && (!(s.ctx m).gang || s.engineIdle (coreOf m) 0)) &&
    decide (ms.length ≤ (s.freeFrames (s.vfOf id)).length) && s.recordRoom (clusterOf (coreOf id)) (ringOf (s.ctx id).asid)

/-- FAULT_SAVE (R403): each member of a gang receives its own frame, and its matrix state goes to the area (R275). -/
def execFaultSave (core slot : Nat) (s : State) : Result :=
  let id := ctxId core slot
  if s.maySave id = false then .next s
  else
    let c := s.ctx id
    let vf := s.vfOf id
    let l := (s.members id).zip (s.freeFrames vf)
    let frame := ((l.find? (·.1 == id)).map (·.2)).getD 0
    let s := if c.gang then (l.map fun p => coreOf p.1).foldl (fun s k => s.saveMatrix k true) s else s
    let s := saveAll (fun m => if m = id then 0 else 2) (s.gangLink id l) l s
    match c.fault with
    | some f => .next (s.pushRecord (clusterOf core) (ringOf c.asid) (contextRecord id c.asid vf f frame (s.read64 frame)))
    | none => .next s

/-- FAULT_RECORD_DRAIN (R404): the first waiting record whose ring has room. (DEDUCED, log entry 44.) -/
def execFaultRecordDrain (cluster : Nat) (s : State) : Result :=
  match (s.cluster cluster).overflow.find? fun r => s.ringRoom r.ring with
  | some r => .next ((s.ringWrite r.ring r.words).modCluster cluster fun c => { c with overflow := c.overflow.erase r })
  | none => .next s

/-- The saved context that a RESUME value names. -/
def State.framed (s : State) (val : W64) : Option Saved := s.saved.find? fun f => f.frame == bitsOf val 51 16 * 0x10000

/-- RESUME_CONTEXT (R406): a frame changed where Cleoz may not change it is ignored. -/
def execResumeContext (val : W64) (s : State) : Result :=
  match s.framed val with
  | some f =>
    if bitsOf val 1 0 = 0 ∧ s.frameKept f.frame (frameFields f.id f.vf f.kind f.ctx f.gang) = true then
      .next { s with saved := s.saved.map fun g => if g.frame == f.frame then { g with resumed := true } else g }
    else .next s
  | none => .next s

/-- The saved members of a gang, or the one context. -/
def State.savedGang (s : State) (f : Saved) : List Saved :=
  match f.gang with
  | some g => s.saved.filter fun x => x.gang == some g && x.vf == f.vf
  | none => [f]

/-- The items of a saved context that is ended go to settling: to its virtual function's, which may be in an image. -/
def State.settleSaved (s : State) (f : Saved) : State :=
  if f.vf = (s.core f.core).vfid then s.settleItem f.id f.ctx
  else { s with images := s.images.map fun x =>
           if x.vf = f.vf then { x with settling := x.settling ++ f.ctx.settles f.id s.nextId } else x }

/-- Ends a saved context as by FAIL. -/
def State.endSaved (s : State) (code : Nat) (f : Saved) : State :=
  let s := ({ s with saved := s.saved.filter fun g => g.frame != f.frame } : State).failItem f.ctx code
  (s.settleSaved f).endRecord f.core (endRecOf f.vf f.ctx 1 code)

/-- RESUME_END (R406). -/
def execResumeEnd (val : W64) (s : State) : Result :=
  match s.framed val with
  | some f =>
    if bitsOf val 1 0 = 1 then .next ((s.savedGang f).foldl (fun s g => s.endSaved (s.regBits (tffBase + 0x720) 15 0) g) s) else .next s
  | none => .next s

/-! ## Effective priority (R384) -/

/-- May a placement group start: is its producer's bit set (R20)? -/
def State.isOpen (s : State) (l : Launch) (g : Nat) : Bool :=
  l.mode != 2 || (match s.launch? l.producer with
    | some p => p.bits.contains (g / 2 ^ l.shift)
    | none => false)

/-- The producer that a launch waits on. -/
def State.waitsOn (s : State) (l : Launch) : Option Launch :=
  let w := (l.mode == 1 && l.st == .queued) || (l.mode == 2 && l.st != .ended && (match l.pending with
    | q :: _ => !(s.isOpen l q.1)
    | [] => false))
  if w then (s.launch? l.producer).filter (·.st != .ended) else none

/-- The launches that a waiting launch raises, over at most `n` links. -/
def State.chain (s : State) : Nat → Launch → List Nat
  | 0, _ => []
  | n + 1, l => match s.waitsOn l with
    | some p => p.handle :: State.chain s n p
    | none => []

/-- The effective priority that the waits now in force give a launch. -/
def State.wanted (s : State) (p : Launch) : Nat :=
  ((s.launches.filter fun l => l.st != .ended && (s.chain 8 l).contains p.handle).map (·.prio)).foldl max p.prio

/-- Effective priority: a raise ends with the wait that made it (R384). (DEDUCED, log entry 45.) -/
def State.effNow (s : State) (l : Launch) : Nat := min l.eff (s.wanted l)

/-- PRIORITY_RAISE (R384): a waiting launch raises its producers. -/
def execPriorityRaise (handle : Nat) (s : State) : Result :=
  match s.launch? handle with
  | none => .next s
  | some l =>
    let hs := (s.chain 8 l).filter fun h => (s.launch? h).any fun p => decide (p.eff < l.prio)
    if hs = [] then .next s
    else
      let raise (p : Launch) : Launch := if hs.contains p.handle then { p with eff := l.prio } else p
      let s := { s with launches := s.launches.map raise }
      .next (s.setRegBits (schBase + 0x20) 63 32 (s.regBits (schBase + 0x20) 63 32 + 1))

/-- PRIORITY_WITHDRAW (R384). -/
def execPriorityWithdraw (handle : Nat) (s : State) : Result :=
  match s.launch? handle with
  | none => .next s
  | some p => .next (s.setLaunch { p with eff := min p.eff (s.wanted p) })

/-- Effective priority of a helper: one that START or STARTM started counts at 1 (R384). -/
def State.effOf (s : State) (c : Ctx) : Nat :=
  let h := if c.form = .startw then ((c.startItem.map (·.1)).getD (c.k 2).toNat) else 0
  match s.launch? h with
  | some l => s.effNow l
  | none => 1

/-! ## Placement (R22, R23, R383, R427) -/

/-- Dies with a serving cluster. -/
def State.servingDies (s : State) : List Nat :=
  (List.range 4).filter fun d => (clustersOf d).any fun c => (s.cluster c).serving

/-- Parts of `n` ranks, the first `n mod k` one longer. (DESIGN CHOICE, log entry 42.) -/
def rankParts (n k : Nat) : List (Nat × Nat × Nat) :=
  (List.range k).map fun i => (i, i * (n / k) + min i (n % k), (i + 1) * (n / k) + min (i + 1) (n % k))

/-- Fixes the dies of a Ready launch. Where no die served when it became Ready, they are those that serve when the launch
first takes part in a grant (DESIGN CHOICE, log entry 61). -/
def State.fixDies (s : State) (l : Launch) : Launch :=
  if l.dies ≠ [] then l
  else
    let ds := s.servingDies
    { l with dies := ds, pending := if l.plevel = 0 ∧ l.failed = false then rankParts l.items ds.length else l.pending }

/-- Die of a placement group, or of a part. -/
def Launch.dieFor (l : Launch) (g : Nat) : Nat := if l.dies = [] then 4 else l.dies.getD (g % l.dies.length) 4

/-- The cluster sets of a die that are free, or that `p` admits. -/
def State.sets (s : State) (die size : Nat) (p : Nat → Bool) : List (List Nat) :=
  (((List.range (128 / size)).map fun i => (List.range size).map fun j => die * 128 + i * size + j)).filter fun cs =>
    cs.all fun c => (s.cluster c).serving && p c
/-- No placement group holds the cluster (R427). -/
def State.isFree (s : State) (c : Nat) : Bool := (s.cluster c).held.isNone && !(s.cluster c).withdraw

/-- Does an item of another launch still run on a cluster? -/
def State.othersOn (s : State) (h cl : Nat) : Bool :=
  (s.ctxs.any fun p => clusterOf (coreOf p.1) == cl && (p.2.item.any (·.1 != h) || p.2.own.any (·.1 != h)))

/-- Can the launch begin on these clusters now (R65)? -/
def State.canBegin (s : State) (l : Launch) (cs : List Nat) : Bool :=
  cs.all fun c => (s.cluster c).split == l.split || !(s.othersOn l.handle c)

/-- Can the range unit reach the bitmap at an address: its page is in this module, or a Towline route leads there (R73)? -/
def State.bitRouted (s : State) (l : Launch) (a : Nat) : Bool :=
  match (s.translate l.core l.vf l.asid l.priv a accStore).2 with
  | .ok x => s.routed [(x.key, 8)]
  | .error _ => true

/-- Can it zero the bitmap now, if that is still to be done (R18)? (DEDUCED, log entry 20). -/
def State.bitmapRouted (s : State) (l : Launch) : Bool := l.zeroed || l.bitPages.all (s.bitRouted l)

/-- A group of a launch that a die can give a set to: one that a pre-emption suspended, on its own clusters, or the
next one that waits. (DEDUCED, log entry 45.) -/
def State.grantable (s : State) (die : Nat) (l : Launch) : Option (Bool × Placed) :=
  let suspended (p : Placed) : Bool := p.die == die && decide (p.next < p.stop) &&
    p.clusters.all fun c => (s.cluster c).serving && s.isFree c && !(s.othersOn l.handle c)
  match l.placed.find? suspended with
  | some p => some (true, p)
  | none =>
    if s.bitmapRouted l = false then none
    else match l.pending.find? fun q => l.dieFor q.1 == die && s.isOpen l q.1 && decide (q.2.1 < q.2.2) with
    | some q =>
      match (s.sets die (if l.plevel = 0 then 1 else l.setSize) s.isFree).filter (s.canBegin l) with
      | cs :: _ => some (false, { group := q.1, die := die, clusters := cs, next := q.2.1, stop := q.2.2 })
      | [] => none
    | none => none

/-- The range unit zeroes the bitmap; a page that cannot be written fails the launch (R18). -/
def State.zeroBitmap (s : State) (l : Launch) : State :=
  let one (s : State) (i : Nat) : State :=
    match s.translate l.core l.vf l.asid l.priv (l.bitmap.toNat + 8 * i) accStore with
    | (s, .ok x) => (s.write64 x.key 0).clearPoison x.key 8
    | (s, .error f) => s.failLaunch l.handle (0x0100 + f.cause) none
  let s := s.setLaunch { l with zeroed := true }
  if l.bitmap = 0 then s else (List.range l.bitWords).foldl one s

/-- Gangs of length `L` from column 0 up (R285). -/
def State.setGangs (s : State) (len cl : Nat) : State :=
  (List.range (8 / len * len)).foldl (fun s j =>
    s.modCore ((coresOf cl).getD j 0) fun c => { c with gangMask := (2 ^ len - 1) * 2 ^ (j / len * len) }) s

/-- A cluster gets the gangs that it is due once no command in a matrix queue and no context at MMAG of their columns stands in the way, as
GANGCFG does (R285). -/
def State.applyGangs (s : State) (cl : Nat) : State :=
  match (s.cluster cl).gangDue with
  | some len =>
    if ((coresOf cl).take (8 / len * len)).all s.gangFree then (s.setGangs len cl).modCluster cl fun c => { c with gangDue := none } else s
  | none => s

/-- The gangs of a launch are due in a cluster. -/
def State.dueGangs (s : State) (l : Launch) (cl : Nat) : State :=
  if l.gang then (s.modCluster cl fun c => { c with gangDue := some l.gangLen }).applyGangs cl else s

/-- A placement group takes a set: the launch is Active, its bitmap is zero, the clusters have its split (R18, R65). -/
def State.giveSet (s : State) (h : Nat) (p : Placed) : State :=
  match s.launch? h with
  | none => s
  | some l =>
    let s := if l.zeroed then s else s.zeroBitmap l
    match s.launch? h with
    | none => s
    | some l =>
      if l.failed then s
      else
        let rest := if l.plevel = 0 then l.pending else l.pending.filter (·.1 ≠ p.group)
        let s := s.setLaunch { l with st := .active, placed := l.placed ++ [p], pending := rest }
        let s := p.clusters.foldl (fun s c => (if (s.cluster c).split = l.split then s else s.setSplit c l.split).modCluster c
          fun x => { x with held := some (h, p.group) }) s
        p.clusters.foldl (fun s c => s.dueGangs l c) s

/-- A suspended group takes its set back, for a gang launch with its gangs (R285). (DEDUCED, log entry 45.) -/
def State.retakeSet (s : State) (h : Nat) (p : Placed) : State :=
  p.clusters.foldl (fun s c =>
    let s := (s.restorePad c).modCluster c fun x => { x with held := some (h, p.group) }
    match s.launch? h with
    | some l => s.dueGangs l c
    | none => s) s

/-- Launches as they win: the highest effective priority first, then the smaller handle (R383). -/
def ranked (l : List Launch) : List Launch :=
  l.sortedBy fun a b => decide (b.eff < a.eff) || (a.eff == b.eff && decide (a.handle ≤ b.handle))
/-- The launch that wins among some. -/
def winner (l : List Launch) : Option Launch := (ranked l).head?

/-- Launches that take part on a die, their dies fixed. -/
def State.waitingLaunches (s : State) : List Launch :=
  (s.launches.filter fun l => (l.st == .ready || l.st == .active) && l.vf == s.resident && !l.failed).map fun l => s.fixDies { l with eff := s.effNow l }

/-- Is a slice switch under way? (DEDUCED, log entry 55.) -/
def State.switching (s : State) : Bool := s.regBits (schBase + 0x18) 8 8 == 1

/-- PLACEMENT_GRANT (R383). -/
def execPlacementGrant (die : Nat) (s : State) : Result :=
  if s.switching then .next s
  else match winner (s.waitingLaunches.filter fun l => (s.grantable die l).isSome) with
  | none => .next s
  | some l =>
    match s.grantable die l with
    | none => .next s
    | some (true, p) => .next (s.retakeSet l.handle p)
    | some (false, p) => .next ((s.setLaunch l).giveSet l.handle p)

/-- Is a group of a launch that holds a set done with it: no rank, no queued run and no item of it is left? -/
def State.setDone (s : State) (l : Launch) (p : Placed) : Bool :=
  let on (core : Nat) : Bool := p.clusters.contains (clusterOf core)
  decide (p.stop ≤ p.next) && !(s.cores.any fun (c : Nat × CoreSt) => on c.1 && c.2.workq.any (·.handle == l.handle)) &&
    !(s.ctxs.any fun (c : Nat × Ctx) => on (coreOf c.1) && c.2.holdsOf l.handle) &&
    !(s.saved.any fun f => on f.core && f.ctx.holdsOf l.handle) && !(s.settling.any fun x => x.handle == l.handle && on (coreOf x.ctx))

/-- Frees the sets whose groups are done (R383), of launches of the resident virtual function. -/
def State.releaseSets (s : State) : State :=
  s.launches.foldl (fun s l =>
    let done := if l.vf = s.resident then l.placed.filter (s.setDone l) else []
    if done = [] then s
    else
      let s := s.setLaunch { l with placed := l.placed.filter fun p => !(done.contains p) }
      { s with clusters := s.clusters.map fun (c : Nat × Cluster) =>
          if done.any fun p => p.clusters.contains c.1 && c.2.held == some (l.handle, p.group) then (c.1, { c.2 with held := none, gangDue := none }) else c }) s

/-- SERVE_WRITE (R427), which is Cleoz's (R372). -/
def execServeWrite (word : Nat) (val : W64) (s : State) : Result :=
  if s.cleozRuns = true ∧ word < 8 then
    .next ((List.range 64).foldl (fun (s : State) i =>
      let cl := 64 * word + i
      if val.toNat / 2 ^ i % 2 = 1 then s.modCluster cl fun c => { c with serving := true, withdraw := false }
      else if (s.cluster cl).serving = false then s
      else s.modCluster cl fun c => if c.held.isSome then { c with withdraw := true } else { c with serving := false })
      (s.setReg (schBase + 0x40 + 8 * word) val))
  else .next s

/-- SERVE_WITHDRAW (R427). -/
def execServeWithdraw (cluster : Nat) (s : State) : Result :=
  let c := s.cluster cluster
  if c.withdraw = true ∧ c.held = none then .next (s.modCluster cluster fun c => { c with serving := false, withdraw := false }) else .next s

/-! ## Chunks (R24, R25) -/

/-- The cores of a cluster that hold queues for a launch, by column. -/
def servingCores (l : Launch) (cl : Nat) : List Nat :=
  if l.gang then (List.range (8 / max 1 l.gangLen)).map fun i => (coresOf cl).getD (i * l.gangLen) 0 else coresOf cl

/-- The group of a launch for which a cluster serves now. -/
def State.servedBy (s : State) (l : Launch) (cl : Nat) : Option Placed :=
  match (s.cluster cl).held with
  | some (h, g) => if h = l.handle then l.placed.find? fun p => p.group == g && p.clusters.contains cl else none
  | none => none

/-- Does a cluster want a chunk? -/
def State.wantsChunk (s : State) (cl : Nat) (l : Launch) : Bool :=
  let cs := servingCores l cl
  let n := (cs.map fun c => ((s.core c).workq.map (·.count)).sum).sum
  !l.failed && (s.cluster cl).gangDue.isNone && (match s.servedBy l cl with
    | some p => decide (p.next < p.stop)
    | none => false) && decide (n < 8) && cs.all (fun c => decide ((s.core c).workq.length < 16)) &&
    !((s.die (cl / 128)).requests.any fun r => r.2 == (cl, l.handle))

/-- A request takes its place: behind those of earlier cycles, and by cluster among those of one cycle (R24). -/
def addRequest (r : Nat × Nat × Nat) (l : List (Nat × Nat × Nat)) : List (Nat × Nat × Nat) :=
  let before (x : Nat × Nat × Nat) : Bool := decide (x.1 < r.1 ∨ x.2.1 ≤ r.2.1)
  l.takeWhile before ++ r :: l.dropWhile before

/-- CHUNK_REQUEST (R24). -/
def execChunkRequest (cluster handle : Nat) (s : State) : Result :=
  match s.launch? handle with
  | some l =>
    if s.wantsChunk cluster l then .next (s.modDie (cluster / 128) fun d => { d with requests := addRequest (s.cycle, cluster, handle) d.requests }) else .next s
  | none => .next s

/-- Clusters of a die that serve a launch. -/
def State.serversOn (s : State) (die : Nat) (l : Launch) : Nat :=
  ((clustersOf die).filter fun c => (s.servedBy l c).isSome).length

/-- Pushes a core's run of a chunk. -/
def pushRuns (h : Nat) : List (Nat × Nat) → Nat → State → State
  | [], _, s => s
  | (core, n) :: l, first, s =>
    pushRuns h l (first + n) (if n = 0 then s
      else s.modCore core fun c => { c with workq := c.workq ++ [{ handle := h, first := first, count := n }], idleMark := true })

/-- The next rank of a group, in all its sets (R23: the sets of a die's part share its ranks). -/
def Launch.advance (l : Launch) (g next : Nat) : Launch :=
  Launch.drained { l with placed := l.placed.map fun p => if p.group == g then { p with next := next } else p,
                          pending := if l.plevel = 0 then l.pending.map fun q => if q.1 == g then (q.1, next, q.2.2) else q else l.pending }

/-- Length of a chunk (R24). -/
def chunkLen (m remaining a : Nat) : Nat := min remaining (max m ((remaining + 2 * a - 1) / (2 * a)))

/-- The recorded chunk of a request, and its mark (R423). -/
def State.replayChunk (s : State) (cl h : Nat) : State × Option Nat :=
  match (s.launch? h).bind fun l => s.servedBy l cl with
  | none => (s, none)
  | some p =>
    match s.replay 3 fun b => b 0 == BitVec.ofNat 64 h && b 1 == BitVec.ofNat 64 cl && b 2 == BitVec.ofNat 64 p.next with
    | (s, some b) => (s, some (min (b 3).toNat (p.stop - p.next)))
    | (s, none) => (s, none)

/-- The request that a die serves next: the first; while replaying, the first one whose chunk is recorded (R423), or one that is
dropped. -/
def State.nextRequest (s : State) (die : Nat) : Option (Nat × Nat × Nat) :=
  let rs := (s.die die).requests
  if s.replaying then
    rs.find? fun r => (s.replayChunk r.2.1 r.2.2).2.isSome || (match (s.launch? r.2.2).bind fun l => s.servedBy l r.2.1 with
      | some p => decide (p.stop ≤ p.next)
      | none => true)
  else rs.head?

/-- CHUNK_GRANT (R24, R25, R211), in a cycle after the request and while every queue that receives a run has a free
entry; while replaying, the recorded chunk (R423). (DEDUCED, log entry 48.) -/
def execChunkGrant (die : Nat) (s : State) : Result :=
  if s.switching then .next s
  else match s.nextRequest die with
  | none => .next s
  | some (at_, cl, h) =>
    let pop (s : State) : State := s.modDie die fun d => { d with requests := d.requests.erase (at_, cl, h) }
    if s.cycle ≤ at_ then .next s
    else match s.launch? h with
    | none => .next (pop s)
    | some l =>
      match s.servedBy l cl with
      | none => .next (pop s)
      | some p =>
        if p.stop ≤ p.next ∨ l.failed = true then .next (pop s)
        else if (servingCores l cl).any fun c => decide (16 ≤ (s.core c).workq.length) then .next s
        else
          let (s, n) := if s.replaying then
              match s.replayChunk cl h with
              | (s, some n) => (s, n)
              | (s, none) => (s, 0)
            else (s, chunkLen l.minChunk (p.stop - p.next) (s.serversOn die l))
          if n = 0 then .next s
          else
            let cs := servingCores l cl
            let q := cs.length
            let s := (pop s).setLaunch (l.advance p.group (p.next + n))
            let s := pushRuns h (cs.zipIdx.map fun c => (c.1, n / q + (if c.2 < n % q then 1 else 0))) p.next (s.dropClean cl)
            .next (s.journalAdd 3 die l.vf [BitVec.ofNat 64 h, BitVec.ofNat 64 cl, BitVec.ofNat 64 p.next, BitVec.ofNat 64 n])

/-! ## Completion (R18 to R21, R382) -/

/-- Is every item of a completion group finished and its bit not set? -/
def Launch.completes (l : Launch) (g : Nat) : Bool :=
  !l.failed && !(l.bits.contains g) && l.finished.get g 0 == l.perGroup l.clevel + l.pushed.get g 0

/-- Can the range unit reach the word of a group's bit (R73)? (DEDUCED, log entry 20). -/
def State.bitReached (s : State) (l : Launch) (g : Nat) : Bool := l.bitmap == 0 || s.bitRouted l (l.bitmap.toNat + 8 * (g / 64))

/-- GROUP_COMPLETE (R18, R19): every cluster writes back, then the bit is set. -/
def execGroupComplete (handle group : Nat) (s : State) : Result :=
  match s.launch? handle with
  | some l =>
    if l.completes group = false ∨ l.groups l.clevel ≤ group ∨ s.bitReached l group = false then .next s
    else
      let s := (s.clusters.map (·.1)).foldl (fun s c => s.writeBack c (fun _ => true) false) s
      if l.bitmap = 0 then .next (s.setLaunch { l with bits := l.bits ++ [group] })
      else
        match s.translate l.core l.vf l.asid l.priv (l.bitmap.toNat + 8 * (group / 64)) accStore with
        | (s, .ok x) =>
          let s := s.recall x.key
          let s := s.write64 x.key (s.read64 x.key ||| BitVec.ofNat 64 (2 ^ (group % 64)))
          .next (s.setLaunch { l with bits := l.bits ++ [group] })
        | (s, .error f) => .next (s.failLaunch handle (0x0100 + f.cause) none)
  | none => .next s

/-- Has a launch ended with success? -/
def Launch.succeeded (l : Launch) : Bool := l.st == .ended && !l.failed && !l.depFail

/-- Is the dependence of a Queued launch met (Table 21.2)? -/
def State.depMet (s : State) (l : Launch) : Bool :=
  match l.mode with
  | 0 => true
  | 1 => (s.launch? l.producer).any (·.succeeded)
  | _ => l.pending.any fun q => s.isOpen l q.1

/-- LAUNCH_READY (R382). -/
def execLaunchReady (handle : Nat) (s : State) : Result :=
  match s.launch? handle with
  | some l => if l.st = .queued ∧ s.depMet l = true then .next (s.setLaunch (s.fixDies { l with st := .ready })) else .next s
  | none => .next s

/-- Has the dependence of a Queued launch failed? -/
def State.depFails (s : State) (l : Launch) : Bool :=
  match l.mode with
  | 0 => false
  | 1 => (s.launch? l.producer).any fun p => p.st == .ended && !p.succeeded
  | _ => l.pending.isEmpty

/-- A launch ends: the consumer groups that wait on it are discarded (R21). -/
def State.endLaunch (s : State) (l : Launch) : State :=
  let l := { l with st := .ended, endedAt := s.ptp, placed := [], pending := [] }
  let s := s.setLaunch l
  { s with launches := s.launches.map (discardWaiters l) }

/-- Checkpoint entries of a launch (R422). -/
def State.checkpoints (s : State) (l : Launch) : State :=
  l.regions.zipIdx.foldl (fun s r =>
    s.journalAdd 7 (dieOf l.core) l.vf (BitVec.ofNat 64 l.handle :: BitVec.ofNat 64 r.2 :: digestWords (memBytes s.mem r.1.1 r.1.2) 2)) s

/-- LAUNCH_DEPENDENCE_FAIL (R21). -/
def execLaunchDependenceFail (handle : Nat) (s : State) : Result :=
  match s.launch? handle with
  | some l => if l.st = .queued ∧ s.depFails l = true then .next ((s.checkpoints l).endLaunch { l with depFail := true }) else .next s
  | none => .next s

/-- Is nothing of a Draining launch left to do? Of a virtual function that is switched out, its image holds what there is. -/
def State.isDrained (s : State) (l : Launch) : Bool :=
  l.st == .draining && l.running == 0 && !(s.images.any fun x => x.vf == l.vf) && !(s.cores.any fun (c : Nat × CoreSt) => c.2.workq.any (·.handle == l.handle)) &&
    !(s.settling.any (·.handle == l.handle)) && !(l.finished.any fun p => l.completes p.1)

/-- LAUNCH_END (R382). -/
def execLaunchEnd (handle : Nat) (s : State) : Result :=
  match s.launch? handle with
  | some l =>
    if s.isDrained l then
      let s := { s with clusters := s.clusters.map fun (c : Nat × Cluster) =>
        match c.2.held with
        | some (h, _) => if h = handle then (c.1, { c.2 with held := none, gangDue := none }) else c
        | none => c }
      .next ((s.checkpoints l).endLaunch l)
    else .next s
  | none => .next s

/-- LAUNCH_HANDLE_EXPIRE (R381). -/
def execLaunchHandleExpire (handle : Nat) (s : State) : Result :=
  match s.launch? handle with
  | some l =>
    if l.st = .ended ∧ l.endedAt + 1000000 < s.ptp ∧ (s.launches.any fun c => c.mode != 0 && c.producer == handle && c.st != .ended) = false then
      .next { s with launches := s.launches.filter (·.handle ≠ handle) }
    else .next s
  | none => .next s

/-! ## Restoring (R383, R385, R406) -/

/-- The sets of a launch's size, on a die, that hold a cluster: at most one. -/
def Launch.setWith (l : Launch) (cl : Nat) : List Nat :=
  let size := if l.plevel = 0 then 1 else l.setSize
  if cl % 128 / size < 128 / size then (List.range size).map fun j => cl / 128 * 128 + cl % 128 / size * size + j else []

/-- A group of a launch that waits for a set of a die. -/
def State.waitingGroup (s : State) (die : Nat) (l : Launch) : Option (Nat × Nat × Nat) :=
  l.pending.find? fun q => l.dieFor q.1 == die && s.isOpen l q.1 && decide (q.2.1 < q.2.2)

/-- Does a launch wait for the set that holds a cluster (R383): it would be given that set; or a group of it that a pre-emption suspended
waits to have it back; or, while no set can be given to it, a group of it may take any set of the die, this one among them? (DEDUCED, log
entry 45). -/
def State.waitsForSet (s : State) (l : Launch) (cl : Nat) : Bool :=
  let die := cl / 128
  let back (p : Placed) : Bool := p.die == die && decide (p.next < p.stop) && p.clusters.contains cl && (s.cluster cl).held != some (l.handle, p.group) &&
    p.clusters.all fun c => (s.cluster c).serving
  let set := l.setWith cl
  l.placed.any back || (match s.grantable die l with
    | some (_, p) => p.clusters.contains cl
    | none => (s.waitingGroup die l).isSome && set != [] && set.all fun c => (s.cluster c).serving && !(s.cluster c).withdraw)

/-- Does a launch of higher effective priority wait for the set of a core (R383)? (DEDUCED, log entry 45). -/
def State.outbid (s : State) (core prio : Nat) : Bool :=
  s.waitingLaunches.any fun l => decide (prio < l.eff) && s.waitsForSet l (clusterOf core)

/-- Can what was saved with a context, its cluster's scratchpad and its core's matrix state, come back now? A split changes under no other
launch (R65, R385). -/
def State.mayReturn (s : State) (f : Saved) : Bool :=
  let cl := clusterOf f.core
  (!f.pad || (s.cluster cl).padSaved.isNone || (match f.ctx.startItem with
    | some (h, _) => ((s.cluster cl).held.all fun x => x.1 == h) && !(s.othersOn h cl)
    | none => (s.cluster cl).held.isNone && !(s.itemsOn cl))) &&
  (!f.mat || (s.core f.core).matSaved.isNone || s.engineIdle f.core 0)

/-- Blocks of the vector pool that the window of a saved context takes. -/
def Saved.blocks (f : Saved) : Nat := f.ctx.window * f.ctx.laneCount / 32

/-- May a saved context go back to its core now? The pool has room for the windows of its whole gang, whose members share a cluster, beside
those of helpers that start (R255). (DEDUCED, log entry 45). -/
def State.mayPlace (s : State) (f : Saved) : Bool :=
  let cl := clusterOf f.core
  (f.resumed || f.kind == 1) && f.vf == s.resident && (s.freeSlot f.core).isSome && s.mayReturn f && !(s.outbid f.core (s.effOf f.ctx)) &&
    (let n := ((s.savedGang f).map Saved.blocks).sum
     decide (n + (if n = 0 then 0 else s.startingBlocks cl fun _ => true) ≤ s.blocksFree cl)) &&
    f.gang.all fun g => (s.core f.core).gangMask == g.2 || s.matrixIdle f.core

/-- Puts one saved context back: the matrix state and the scratchpad that were saved with it first (R385), and its launch holds the set
again where that is free. (DESIGN CHOICE, log entry 16.) -/
def State.restoreOne (s : State) (f : Saved) : State :=
  match s.freeSlot f.core with
  | none => s
  | some slot =>
    let s := if f.mat then s.restoreMatrix f.core else s
    let s := if f.pad then s.restorePad (clusterOf f.core) else s
    let s := match f.ctx.startItem with
      | some (h, _) =>
        match s.launch? h with
        | some l => match l.setOf (clusterOf f.core) with
          | some p => if p.clusters.all fun c => (s.cluster c).held.isNone then
              p.clusters.foldl (fun (s : State) c => s.modCluster c fun x => { x with held := some (h, p.group) }) s
            else s
          | none => s
        | none => s
      | none => s
    (s.place f slot).lowerYield (clusterOf f.core)

/-- HELPER_RESTORE (R406): a gang only when every member can go back. -/
def execHelperRestore (frame : Nat) (s : State) : Result :=
  match s.saved.find? (·.frame == frame) with
  | some f => if (s.savedGang f).all s.mayPlace then .next ((s.savedGang f).foldl State.restoreOne s) else .next s
  | none => .next s

/-! ## Pre-emption (R385) -/

/-- Helpers on the cores of some clusters. -/
def State.helpersOn (s : State) (cs : List Nat) : List Nat :=
  (s.ctxs.filter fun p => isHelper p.1 && cs.contains (clusterOf (coreOf p.1))).map (·.1)
/-- Those that are Live (R9). (DEDUCED, log entry 45.) -/
def State.liveOn (s : State) (cs : List Nat) : List Nat := (s.helpersOn cs).filter fun id => (s.ctx id).life == .live

/-- Has the launch that holds a cluster, if one does, a lower effective priority? The helpers that it has there or will start there count
so, and none is taken from the raised launch itself. (DEDUCED, log entry 45.) -/
def State.heldBelow (s : State) (eff c : Nat) : Bool :=
  match (s.cluster c).held with
  | some (h, _) => (s.launch? h).all fun m => decide (s.effNow m < eff)
  | none => true

/-- May a raised launch take a set: every live helper on it has lower effective priority (R385)? Not one that is being withdrawn
from serving (R427). -/
def State.mayTake (s : State) (l : Launch) (cs : List Nat) : Bool :=
  (s.liveOn cs).all (fun id => decide (s.effOf (s.ctx id) < l.eff)) && cs.all fun c => !(s.cluster c).withdraw && s.heldBelow l.eff c

/-- The set with the fewest live helpers, the lowest on a tie. (DEDUCED, log entry 45.) -/
def State.victimSet (s : State) (die : Nat) (l : Launch) : Option (List Nat) :=
  let size := if l.plevel = 0 then 1 else l.setSize
  (((s.sets die size fun _ => true).filter (s.mayTake l)).sortedBy
    fun a b => decide ((s.liveOn a).length ≤ (s.liveOn b).length)).head?

/-- What a raised launch takes by pre-emption on a die: its group that waits, and the set. At level 0 the one group waits no more once a
cluster of the die serves it. (DEDUCED, log entry 45.) -/
def State.takes (s : State) (die : Nat) (l : Launch) : Option Placed :=
  if l.prio < l.eff ∧ s.grantable die l = none ∧ s.sets die (if l.plevel = 0 then 1 else l.setSize) s.isFree = [] ∧
      (l.plevel ≠ 0 ∨ (l.placed.any (·.die == die)) = false) ∧ s.bitmapRouted l = true then
    match s.waitingGroup die l, s.victimSet die l with
    | some q, some cs => some { group := q.1, die := die, clusters := cs, next := q.2.1, stop := q.2.2 }
    | _, _ => none
  else none

/-- The raised launch for which a die must pre-empt, its group and the set to take: the first, as they win, for which there is a set.
(DEDUCED, log entry 45.) -/
def State.preempt? (s : State) (die : Nat) : Option (Launch × Placed) :=
  (ranked s.waitingLaunches).findSome? fun l => (s.takes die l).map fun p => (l, p)

/-- Are the helpers of a set at boundaries where they can be saved, its matrix queues empty with no control context at MMAG (R285), and
frames free? -/
def State.setReady (s : State) (cs : List Nat) : Bool :=
  let hs := s.helpersOn cs
  hs.all s.saveable && (cs.flatMap coresOf).all (fun k => s.engineIdle k 0 && (s.core k).mmag.all fun m => isHelper m.1) && decide (hs.length ≤ (s.freeFrames s.resident).length)

/-- Has the cluster another split than a launch is to have? -/
def State.otherSplit (s : State) (split cl : Nat) : Bool := (s.cluster cl).split != split

/-- The matrix state of a set is saved, and the scratchpads of its clusters that have another split: before the return of a helper that
has been saved from it they are given back, of those too that faults had saved before (R385). (DESIGN CHOICE, log entry 16.) -/
def State.saveSet (s : State) (cs : List Nat) (split : Nat) : State :=
  let other := s.otherSplit split
  let s := (cs.filter other).foldl State.savePad s
  let on (f : Saved) : Bool := f.vf == s.resident && cs.contains (clusterOf f.core)
  let s := (cs.flatMap coresOf).foldl (fun s k => s.saveMatrix k ((s.helpersOn cs).any (fun id => coreOf id == k) || s.saved.any fun f => f.core == k && f.vf == s.resident)) s
  { s with saved := s.saved.map fun f => if on f then { f with mat := true, pad := f.pad || other (clusterOf f.core) } else f }

/-- PREEMPTION (R385). (DEDUCED, log entry 45.) -/
def execPreemption (die : Nat) (s : State) : Result :=
  if s.switching then .next s
  else match s.preempt? die with
  | none => .next s
  | some (l, p) =>
    if s.setReady p.clusters = false then .next s
    else
      let hs := s.helpersOn p.clusters
      let fs := hs.zip (s.freeFrames s.resident)
      let links := fs.map fun q => (q, s.gangLink q.1 (fs.filter fun r => (s.members q.1).contains r.1))
      let s := s.saveSet p.clusters l.split
      let s := links.foldl (fun s q => s.save q.1.1 q.1.2 1 q.2 true (s.otherSplit l.split (clusterOf (coreOf q.1.1)))) s
      let s := s.setRegBits (schBase + 0x20) 31 0 (s.regBits (schBase + 0x20) 31 0 + hs.length)
      .next ((s.setLaunch l).giveSet l.handle p)

/-! ## Migration (R31) -/

/-- The home slice whose counter has passed the threshold. -/
def Ctx.migrates (c : Ctx) : Option Nat :=
  let t := (c.k 7).toNat % 65536
  if c.life = .live ∧ c.mig = true ∧ t ≠ 0 then (List.range 64).find? fun h => decide (t < c.migCnt.get h 0) else none

/-- Has the helper an engine operation in flight? -/
def State.engineBusy (s : State) (id : Nat) : Bool :=
  let c := s.core (coreOf id)
  c.cmds.any fun q => q.issuer == id && q.hnum == (s.ctx id).hnum

/-- The core that a migrating helper goes to: the lowest beside the slice, in the placed set, with a free slot. -/
def State.migTarget (s : State) (c : Ctx) (h : Nat) : Option (Nat × Nat) :=
  let cs := ((beside h).filter fun k => c.placed.contains (clusterOf k)).sortedBy fun a b => decide (a ≤ b)
  cs.findSome? fun k => (s.freeSlot k).map fun n => (k, n)

/-- MIGRATION (R31). Which number a helper has on its new core is not stated: it takes that core's next one, which the core's next START
then does not (DESIGN CHOICE, log entry 62). -/
def execMigration (core slot : Nat) (s : State) : Result :=
  let id := ctxId core slot
  let c := s.ctx id
  match c.migrates with
  | none => .next s
  | some h =>
    let target := if c.window ≠ 0 ∨ s.engineBusy id = true then none else s.migTarget c h
    match target with
    | none => .next (s.modCtx id fun c => { c with migCnt := c.migCnt.map fun (p : Nat × Nat) => (p.1, p.2 / 2) })
    | some (k, n) =>
      if s.saveable id = false ∨ (s.flights.any (·.ctx == id)) = true ∨ c.wait.any Wait.outlasts = true then .next s
      else
        let num := (s.core k).nextHelper
        let moved := { (s.savedCtx id).resumed s.cycle with hnum := num, migCnt := [], ops := [], ownOps := [] }
        let vf := s.vfOf id
        let s := (s.endRecord core (endRecOf (s.vfOf id) c 2 0)).vacate id
        let s := s.modCore k fun x => { x with vfid := vf, nextHelper := if num ≥ 0xFFFFFFFE then 1 else num + 1 }
        .next (s.setCtx (ctxId k n) moved)

/-! ## Slices (R389 to R391) -/

/-- The quantum table's entries in use: index and word. An entry whose key slot is not loaded is skipped (R410). -/
def State.quanta (s : State) : List (Nat × W64) :=
  let base := (s.reg (schBase + 8)).toNat
  (((List.range (min 64 (s.regBits (schBase + 0x10) 6 0))).map fun i => (i, s.read64 (base + 8 * i)))).filter fun p =>
    bitsOf p.2 6 6 == 1 && s.keys.get (bitsOf p.2 4 0) 0 == 1

/-- The entry that follows the one in force, cyclically; the first of all while no virtual function has been resident (R389).
(DEDUCED, log entry 47.) -/
def State.nextQuantum (s : State) : Option (Nat × W64) :=
  (if s.noVf then none else s.quanta.find? fun p => decide (s.quantum < p.1)).or s.quanta.head?

/-- Feeds the inbound area of a virtual function to the home slices (R56). -/
def State.feedInbound (s : State) (vf : Nat) : State :=
  let ms := s.inbound.get vf []
  ms.foldl (fun s m => s.postMsg m) { s with inbound := s.inbound.put vf [] }

/-- Starts a switch, if there is another entry to go to. A one-entry table of no other virtual function than the resident one only
sets RESVF, and the virtual function's inbound messages go to their slices (R56, R389). (DEDUCED, log entry 47.) -/
def State.beginSwitch (s : State) : State :=
  match s.quanta with
  | [] => s
  | [p] =>
    if s.noVf = true ∨ bitsOf p.2 4 0 = s.resident then
      (({ s with quantum := p.1, sliceWord := p.2 } : State).setResident (bitsOf p.2 4 0)).feedInbound (bitsOf p.2 4 0)
    else s.setRegBits (schBase + 0x18) 8 8 1
  | _ => s.setRegBits (schBase + 0x18) 8 8 1

/-- QUANTUM_EXPIRE (R389): the table is read anew when the slice in force ends. (DEDUCED, log entry 47.) -/
def execQuantumExpire (s : State) : Result :=
  let len := 1000 * max 5000 (bitsOf s.sliceWord 39 8)
  if s.switching = false ∧ (s.noVf = true ∨ s.sliceFrom + len ≤ s.ptp) then .next s.beginSwitch else .next s

/-- Has the resident virtual function a queued launch, a live helper, a pending message or an engine operation? (DEDUCED, log entry 52). -/
def State.sliceBusy (s : State) : Bool :=
  let vf := s.resident
  (s.launches.any fun l => l.vf == vf && l.st != .ended) || (s.ctxs.any fun p => isHelper p.1) ||
    (s.messagesIn.any fun m => m.vf == vf) ||
    s.cores.any fun (p : Nat × CoreSt) => !p.2.cmds.isEmpty

/-- EARLY_SLICE_END (R389). (DEDUCED, log entry 52.) -/
def execEarlySliceEnd (s : State) : Result :=
  if s.switching = false ∧ bitsOf s.sliceWord 5 5 = 1 ∧ s.sliceBusy = false ∧ s.idleFrom + 100000 ≤ s.ptp then .next s.beginSwitch
  else .next s

/-- The parts of local memories and scratchpads. -/
def isOnPackage (k : Nat) : Bool := decide (meshBase ≤ k) && decide (k < weightBase)

/-- Can every context be saved and every queue stand still (R390)? Copies and the other engines stop where they are, with no write of
one that has issued its last read on the way, so that none keeps a translation (R402). (DEDUCED, log entry 55.) (DEDUCED, log entry 37). -/
def State.maySwitch (s : State) : Bool :=
  s.ctxs.all (fun p => match p.2.life with
    | .live => s.saveable p.1
    | .starting => true
    | .closing => s.acks p.1 == 0 && !(s.busy p.1)) &&
    s.cores.all (fun (p : Nat × CoreSt) => s.engineIdle p.1 0 && p.2.vqueue.isEmpty && p.2.vrunning.isEmpty && p.2.cmds.all (·.plan.isNone)) &&
    s.flights.all Flight.abandoned

/-- What the device keeps of a core, a cluster when its translations and caches are cleared. -/
def CoreSt.cleared (c : CoreSt) : CoreSt :=
  { c with ptb := [], orCache := [], itlb := [], dtlb := [], barh := { gen := c.barh.gen }, mmag := none, vtook := none, issuedAt := none }
/-- End records and helper numbers are the core's own, whichever virtual function is resident (R200, R205). (DESIGN CHOICE, log entry 62.) -/
def CoreSt.keeping (c old : CoreSt) : CoreSt := { c with ends := old.ends, nextHelper := old.nextHelper }
def Cluster.cleared (c : Cluster) : Cluster := { c with lines := [], tlb := [], seen := [], held := none, gangDue := none, padSaved := none, barc := {} }

/-- The image of the resident virtual function. Arrivals at barriers are made again on restore. (DESIGN CHOICE, log entry 16.) -/
def State.image (s : State) : VfImage :=
  { vf := s.resident,
    ctxs := s.ctxs.map fun (p : Nat × Ctx) => (p.1, match p.2.life with
      | .live => s.savedCtx p.1
      | _ => p.2),
    cores := s.cores.map fun (p : Nat × CoreSt) => (p.1, p.2.cleared),
    clusters := s.clusters.map fun (p : Nat × Cluster) => (p.1, { p.2 with lines := [], tlb := [], seen := [], barc := { gen := p.2.barc.gen } }),
    moors := s.moors, slices := s.slices, mem := s.mem.filter fun c => isOnPackage c.1,
    empties := s.empties.filter isOnPackage, settling := s.settling,
    redo := (s.ctxs.filter fun p => p.2.life == .live).flatMap fun p => s.redoOf p.1, poison := s.poison.filter isOnPackage }

/-- Clears what a switch clears. A split stays until a launch or Cleoz changes it (R64). -/
def State.emptied (s : State) (vf : Nat) : State :=
  { s with ctxs := [], cores := s.cores.map fun (p : Nat × CoreSt) => (p.1, ({ vfid := vf } : CoreSt).keeping p.2),
           clusters := s.clusters.map fun (p : Nat × Cluster) => (p.1, p.2.cleared),
           dies := s.dies.map fun (p : Nat × Die) => (p.1, { p.2 with requests := [] }), moors := [], slices := [],
           mem := s.mem.filter fun c => !(isOnPackage c.1), empties := s.empties.filter fun k => !(isOnPackage k),
           poison := s.poison.filter fun k => !(isOnPackage k), flights := s.flights.filter Flight.isForeign, settling := [] }

/-- Restores an image; serving bits, refusals and record queues are the module's own. (DESIGN CHOICE, log entry 16.) -/
def State.restoreImage (s : State) (x : VfImage) : State :=
  let s := { s with ctxs := x.ctxs.map fun (p : Nat × Ctx) => (p.1, if p.2.life = .live then p.2.resumed s.cycle else p.2), cores := x.cores.foldl (fun m p => m.put p.1 (p.2.keeping (s.core p.1))) s.cores, moors := x.moors, slices := x.slices,
                    settling := x.settling, images := s.images.filter (·.vf ≠ x.vf) }
  let s := x.clusters.foldl (fun (s : State) (p : Nat × Cluster) => s.modCluster p.1 fun c =>
    { c with split := p.2.split, held := p.2.held, gangDue := p.2.gangDue, padSaved := p.2.padSaved, barc := p.2.barc }) s
  let s := s.putCells x.mem x.empties
  x.redo.foldl (fun s f => s.reissue f.ctx f) { s with poison := x.poison.foldl insertKey s.poison }

/-- SLICE_SWITCH (R390). -/
def execSliceSwitch (s : State) : Result :=
  if s.switching = false ∨ s.maySwitch = false then .next s
  else match s.nextQuantum with
    | none => .next (s.setRegBits (schBase + 0x18) 8 8 0)
    | some (i, w) =>
      let vf := bitsOf w 4 0
      let s := (s.clusters.map (·.1)).foldl (fun s c => s.writeBack c (fun _ => true) true) s
      let s := if s.noVf then s else { s.writeSave s.resident with images := s.images ++ [s.image] }
      let s := s.emptied vf
      let s := match s.images.find? (·.vf == vf) with
        | some x => s.restoreImage x
        | none => s
      let s := { s with quantum := i, sliceWord := w, sliceFrom := s.ptp, idleFrom := s.ptp }
      let s := (s.setResident vf).setRegBits (schBase + 0x18) 8 8 0
      .next ((s.setRegBits (schBase + 0x18) 63 32 (s.regBits (schBase + 0x18) 63 32 + 1)).feedInbound vf)

/-! ## Cleoz and illegal encodings -/

/-- SYSC_RESULT (R216). (DESIGN CHOICE, log entry 38.) -/
def execSyscResult (core slot : Nat) (val : W64) (s : State) : Result :=
  let id := ctxId core slot
  match (s.ctx id).wait with
  | some (.service dst st) =>
    .next (s.modCtx id fun c => { c.setAt dst val with pc := c.pc + 4, wait := none, nextIssue := s.cycle + 1 + st })
  | _ => .next s

/-- CLEOZ_INTERRUPT (R127). -/
def execCleozInterrupt (core : Nat) (s : State) : Result := if core < 4096 then .next (s.wakeIdle core) else .next s

/-- ILLEGAL_INSTRUCTION (R156): TVAL is word 0. -/
def execIllegalInstruction (word : W32) (s : State) : Result := .next (s.trap 0x01 (word.setWidth 64))

end Sys2Proof.Machine
end

