-- ==== Sys2Proof/Machine/EventsAdmin.lean ====
section
/-! DEFINITION. Administration registers as Cleoz writes them (R380, R394, Tables 21.1, 22.2 and 22.6 to 22.9, 23.1), keys,
the journal, boot, attestation, heat and power (R372 to R375, R410, R421, R425). An event whose condition does not
hold changes nothing. -/

namespace Sys2Proof.Machine

/-! ## Writes -/

/-- Ones in bits `hi : lo`. -/
def ones (hi lo : Nat) : W64 := BitVec.ofNat 64 ((2 ^ (hi + 1 - lo) - 1) * 2 ^ lo)

/-- Writes the fields that a mask covers; zero and read-only fields stay. -/
def State.writeMasked (s : State) (a : Nat) (mask v : W64) : State := s.setReg a ((s.reg a &&& ~~~mask) ||| (v &&& mask))

/-- Goes on after an event. -/
def thenState (s : State) : Result → State
  | .next t => t
  | .fault _ => s
  | .refused _ => s

/-- Scheduler control block (Table 21.1). Every write of SCHMODE writes DSPLIT (R64); one that sets a die's WSLOAD bit marks the reads that
were issued before it (R411). (DEDUCED, log entry 36.) -/
def State.writeSched (s : State) (off : Nat) (v : W64) : State :=
  let a := schBase + off
  if off = 0 then
    let asked (d : Nat) : Bool := bitsOf v (8 + d) (8 + d) == 1 && s.regBits a (8 + d) (8 + d) == 0
    let s := ((List.range 4).filter asked).foldl (fun s d => s.modDie d fun x => { x with loadMark := s.nextId + 1 }) { s with winAsked := s.winNum }
    let s := { s with nextId := s.nextId + 1 }
    (List.range 512).foldl (fun s c => s.modCluster c fun x => { x with dsplit := some (min 8 (bitsOf v 15 12)) })
      (s.writeMasked a (ones 2 0 ||| ones 5 4 ||| ones 15 8) v)
  else if off = 8 then s.setReg a v
  else if off = 0x10 then s.writeMasked a (ones 6 0) v
  else if 0x40 ≤ off ∧ off < 0x80 then thenState s (execServeWrite ((off - 0x40) / 8) v s)
  else if 0x100 ≤ off ∧ off < 0x300 then
    if off % 16 = 0 then s.setReg a v else s.writeMasked a (ones 63 12) v
  else s

/-- What the memory has in `n` bytes from `lo` up was enciphered under another key: each byte reads as a free value (R80; DESIGN
CHOICE, log entry 17). -/
def State.garble (s : State) (lo n : Nat) : State :=
  (List.range n).foldl (fun s i =>
    let (s, r) := s.freshNat
    { s with mem := memSet s.mem (lo + i) (BitVec.ofNat 8 r) }) s

/-- WSOWNER: each die's owner changes only while the die is in loading mode (R411). What an earlier owner left there is under that
owner's key (R80). (DESIGN CHOICE, log entry 17.) -/
def State.writeOwners (s : State) (v : W64) : State :=
  (List.range 4).foldl (fun s d =>
    let old := s.regBits (tffBase + 0x718) (8 * d + 4) (8 * d)
    if (s.die d).loading = false ∨ bitsOf v (8 * d + 4) (8 * d) = old then s
    else (s.writeMasked (tffBase + 0x718) (ones (8 * d + 4) (8 * d)) v).garble (weightBase + d * 0x100000000) 0x100000000) s

/-- Translation, faults and frames (Table 22.2). -/
def State.writeTff (s : State) (off : Nat) (v : W64) : State :=
  let a := tffBase + off
  if off = 0 then s.writeMasked a (ones 51 6) v
  else if off = 8 then s.writeMasked a (ones 16 0) v
  else if off = 0x10 then
    if s.regBits a 63 63 = 1 then s
    else ({ s with sdBegun := false } : State).writeMasked a (ones 4 0 ||| ones 34 16 ||| ones 63 63) v
  else if off = 0x18 ∨ off = 0x20 then s.writeMasked a (ones 51 16) v
  else if 0x100 ≤ off ∧ off < 0x500 then
    match off % 32 with
    | 0 => s.writeMasked a (ones 51 6) v
    | 8 => s.writeMasked a (ones 3 0) v
    | 16 => s.writeMasked a (ones 31 0) v
    | _ => s
  else if 0x500 ≤ off ∧ off < 0x700 then
    if off % 16 = 0 then s.writeMasked a (ones 51 16) v else s.writeMasked a (ones 15 0) v
  else if off = 0x700 then
    let s := s.writeMasked a (ones 1 0 ||| ones 51 16) v
    thenState s (if bitsOf v 1 0 = 0 then execResumeContext v s else execResumeEnd v s)
  else if off = 0x708 then
    let s := s.writeMasked a (ones 11 0 ||| ones 20 16) v
    thenState s (if bitsOf v 20 20 = 0 then execEngactRetry (bitsOf v 11 0) (bitsOf v 19 16) s else execEngactAbandon (bitsOf v 11 0) (bitsOf v 19 16) s)
  else if off = 0x710 then
    let s := s.writeMasked a (ones 4 0 ||| ones 39 16) v
    thenState s (execOperandRecordInvalidate v s)
  else if off = 0x718 then s.writeOwners v
  else if off = 0x720 then s.writeMasked a (ones 15 0) v
  else if 0x800 ≤ off ∧ off < 0xA00 then
    if off % 16 = 0 then s.writeMasked a (ones 51 6) v else s.writeMasked a (ones 23 0) v
  else s

/-- Block engine of a stack (Table 22.6): a pool's configuration changes only while it is idle (R408). -/
def State.writeBlk (s : State) (stack off : Nat) (v : W64) : State :=
  let a := blkBase stack + off
  let pool := off / 32
  if off < 0x200 then
    if s.poolIdle stack pool = false then s
    else match off % 32 with
      | 0 =>
        let was := s.poolOn stack pool
        let s := s.writeMasked a (ones 1 0) v
        if bitsOf v 2 2 = 1 then (if was then s else thenState s (execPoolEnable stack pool s))
        else thenState s (execPoolDisable stack pool s)
      | 8 => s.writeMasked a (ones 51 14) v
      | 16 => s.writeMasked a (ones 39 0) v
      | _ => s
  else if off < 0x1200 then s.writeMasked a (ones 31 0) v
  else if off < 0x2200 then s.writeMasked a (ones 51 14) v
  else if off = 0x2200 then s.writeMasked a (ones 51 16) v
  else if off = 0x2208 then s.writeMasked a (ones 39 16) v
  else s

/-! ## Keys (R410) -/

/-- KEY_GENERATE. -/
def execKeyGenerate (slot : Nat) (s : State) : Result :=
  if s.cleozRuns = true ∧ slot < 32 ∧ s.keys.get slot 0 = 0 then .next { s with keys := s.keys.put slot 1 } else .next s

/-- Does a virtual function own a die's weight store? -/
def State.ownsWeights (s : State) (vf : Nat) : Bool :=
  (List.range 4).any fun d => s.regBits (tffBase + 0x718) (8 * d + 4) (8 * d) == vf

/-- KEY_DESTROY: ignored while the virtual function is resident or owns a weight-store die. -/
def execKeyDestroy (slot : Nat) (s : State) : Result :=
  if s.cleozRuns = true ∧ s.keys.get slot 0 = 1 ∧ slot ≠ s.resident ∧ s.ownsWeights slot = false then .next { s with keys := s.keys.put slot 2 } else .next s

/-- KEY_ZEROISE_COMPLETE. -/
def execKeyZeroiseComplete (slot : Nat) (s : State) : Result :=
  if s.keys.get slot 0 = 2 then .next { s with keys := s.keys.put slot 0 } else .next s

/-! ## Towline, mooring, sluices, fleet -/

/-- Is traffic of a virtual function in flight on a port? -/
def State.portBusy (s : State) (port vf : Nat) : Bool :=
  (s.flights.any fun f => f.remote && f.vf == vf) || s.towOut.any fun p => p.1 == port && p.2.2.vf == vf

/-- Towline port block (Table 22.7, R412); reserved slots are configured once the port has been up, the reply cache while it is (R378). -/
def State.writeTow (s : State) (port off : Nat) (v : W64) : State :=
  let a := towBase port + off
  if off < 0x100 then
    let n := bitsOf v 7 0
    let sum := ((List.range 32).map fun i => if 8 * i = off then n else s.regBits (towBase port + 8 * i) 7 0).sum
    if ((s.towPort port).up && s.portBusy port (off / 8)) || decide (1024 < sum) || !(s.towPort port).seen then s
    else (s.writeMasked a (ones 7 0) v).setReg (towBase port + 0x100) (BitVec.ofNat 64 (1024 - sum))
  else if off = 0x108 then (if (s.towPort port).up then s.writeMasked a (ones 0 0) v else s)
  else s

/-- Entries of the mooring tables, those that a slice switch has saved among them. -/
def State.allMoors (s : State) : List Moor := s.moors ++ s.images.flatMap (·.moors)

/-- May Cleoz place a directory anew (R414)? -/
def State.dirFreeToMove (s : State) (d : Nat) : Bool :=
  s.dirHeld d || (s.reg (dirReg d 2) == 0 && !(s.allMoors.any fun m => (m.st == .mooring || m.st == .unmooring) && (match s.class? m.cls with
    | some r => r.dir == d
    | none => false)))

/-- Does an actor stand on a core, or has a mooring chosen it? -/
def State.berthUsed (s : State) (core : Nat) : Bool :=
  let on (p : Option (Nat × Nat)) : Bool := p.any (·.1 == core)
  s.allMoors.any fun m => on m.berth || on m.target || m.chosen == some core

/-- Mooring administration block (Table 22.8). (DEDUCED, log entry 49.) -/
def State.writeMoor (s : State) (off : Nat) (v : W64) : State :=
  let a := moorBase + off
  if off < 0x800 then
    if s.dirFreeToMove (off / 32) = false then s
    else match off % 32 with
      | 0 => s.writeMasked a (ones 51 6) v
      | 8 => s.writeMasked a (ones 5 0 ||| ones 23 16) v
      | _ => s
  else if off = 0x800 then s.writeMasked a (ones 51 6) v
  else if off = 0x808 then
    if s.regBits a 63 63 = 1 then s
    else
      let s := s.writeMasked a (ones 17 0 ||| ones 63 63) v
      if bitsOf v 17 16 = 2 then thenState s (execClassWithdraw (bitsOf v 15 0) s)
      else if bitsOf v 17 16 = 1 then s else s.clsDone
  else if off = 0x810 then
    if bitsOf v 6 0 < 64 then thenState s (execDirectoryResume (bitsOf v 6 0) (s.writeMasked a (ones 6 0) v)) else s
  else if 0x1000 ≤ off ∧ off < 0x9000 then
    if s.berthUsed ((off - 0x1000) / 8) ∨ 16 < bitsOf v 4 0 then s else s.writeMasked a (ones 4 0) v
  else s

/-- Sluice group entries (Table 22.9, R416): an entry is configured, that is has EN set or is written with it set, only while its
port is up (R378); a command may be written at any time. (DEDUCED, log entry 49.) -/
def State.writeSluice (s : State) (off : Nat) (v : W64) : State :=
  let g := off / 64
  let a := sluiceBase g + off % 64
  let entry := if off % 64 = 0 then v else s.reg (sluiceBase g)
  if bitsOf entry 0 0 = 1 ∧ (s.towPort (bitsOf entry 7 4)).up = false ∧ off % 64 ≠ 0x30 then s
  else match off % 64 with
  | 0x00 => s.writeMasked a (ones 0 0 ||| ones 22 4) v
  | 0x08 => s.writeMasked a (ones 51 6) v
  | 0x10 => s.writeMasked a (ones 39 6) v
  | 0x18 => s.writeMasked a (ones 51 6) v
  | 0x20 => s.writeMasked a (ones 51 6) v
  | 0x28 => s.writeMasked a (ones 6 0) v
  | 0x30 =>
    if s.regBits a 63 63 = 1 then s
    else
      let s := s.writeMasked a (ones 2 0 ||| ones 63 63) v
      if s.grpGoing g = 2 then s.setGrpState g 3
      else if 1 ≤ bitsOf v 2 0 ∧ bitsOf v 2 0 ≤ 4 then s else s.grpDone g
  | _ => s

/-- JOURNAL_CONTROL (R421): starting either begins at the first entry; a journal with OVF set is not replayed. (DEDUCED, log entry 49.) -/
def execJournalControl (val : W64) (s : State) : Result :=
  let a := fleetBase + 0x38
  if s.cleozRuns = false ∨ bitsOf val 1 0 = 3 ∨ (bitsOf val 1 1 = 1 ∧ s.regBits a 2 2 = 1) then .next s
  else
    let start := bitsOf val 0 0 = 1 ∧ s.regBits a 0 0 = 0
    let s := if start then (({ s with journal := 0 } : State).setRegBits a 63 32 0).setRegBits a 2 2 0 else s
    let s := if bitsOf val 1 1 = 1 ∧ s.regBits a 1 1 = 0 then { s with replayed := [] } else s
    .next (s.writeMasked a (ones 1 0) val)

/-- Fleet block (Table 23.1). -/
def State.writeFleet (s : State) (off : Nat) (v : W64) : State :=
  let a := fleetBase + off
  match off with
  | 0x00 => s.writeMasked a (ones 51 6) v
  | 0x08 => s.writeMasked a (ones 3 0) v
  | 0x10 => s.writeMasked a (ones 31 0) v
  | 0x20 => s.writeMasked a (ones 31 0) v
  | 0x28 => s.writeMasked a (ones 51 16) v
  | 0x30 => s.writeMasked a (ones 39 16) v
  | 0x38 => thenState s (execJournalControl v s)
  | 0x40 => s.writeMasked a (ones 15 0) v
  | _ => s

/-- An aligned 64-bit write of Cleoz to an administration address; any other has no effect (R380, R394). (DEDUCED, log entry 49.) -/
def State.writeAdmin (s : State) (addr : Nat) (v : W64) : State :=
  let off (base : Nat) : Nat := addr - base
  if addr % 8 ≠ 0 then s
  else if schBase ≤ addr ∧ addr < schBase + 0x300 then s.writeSched (off schBase) v
  else if tffBase ≤ addr ∧ addr < tffBase + 0xA00 then s.writeTff (off tffBase) v
  else if blkBase 0 ≤ addr ∧ addr < blkBase 16 then s.writeBlk (off (blkBase 0) / 0x10000) (off (blkBase 0) % 0x10000) v
  else if keyBase ≤ addr ∧ addr < keyBase + 256 then
    match bitsOf v 63 60 with
    | 1 => thenState s (execKeyGenerate (off keyBase / 8) s)
    | 2 => thenState s (execKeyDestroy (off keyBase / 8) s)
    | _ => s
  else if towBase 0 ≤ addr ∧ addr < towBase 16 then s.writeTow (off (towBase 0) / 0x1000) (off (towBase 0) % 0x1000) v
  else if fleetBase ≤ addr ∧ addr < fleetBase + 0x48 then s.writeFleet (off fleetBase) v
  else if moorBase ≤ addr ∧ addr < moorBase + 0x9000 then s.writeMoor (off moorBase) v
  else if sluiceBase 0 ≤ addr ∧ addr < sluiceBase 256 then s.writeSluice (off (sluiceBase 0)) v
  else s

/-- Does an address lie in an administration block? -/
def inAdmin (addr : Nat) : Bool :=
  (decide (schBase ≤ addr) && decide (addr < schBase + 0x300)) || (decide (tffBase ≤ addr) && decide (addr < tffBase + 0xA00)) ||
  (decide (blkBase 0 ≤ addr) && decide (addr < blkBase 16)) || (decide (keyBase ≤ addr) && decide (addr < keyBase + 256)) ||
  (decide (towBase 0 ≤ addr) && decide (addr < towBase 16)) || (decide (fleetBase ≤ addr) && decide (addr < fleetBase + 0x48)) ||
  (decide (moorBase ≤ addr) && decide (addr < moorBase + 0x9000)) || (decide (sluiceBase 0 ≤ addr) && decide (addr < sluiceBase 256))

/-- What a register shows: beside what was written, the counts that the hardware keeps (Tables 22.2 and 22.6), and of a key slot its
state (R410). -/
def State.shown (s : State) (addr : Nat) : W64 :=
  let off := (addr - blkBase 0) % 0x10000
  let stack := (addr - blkBase 0) / 0x10000
  if keyBase ≤ addr ∧ addr < keyBase + 256 then BitVec.ofNat 64 (s.keys.get ((addr - keyBase) / 8) 0)
  else if tffBase + 0x500 ≤ addr ∧ addr < tffBase + 0x700 ∧ (addr - tffBase) % 16 = 8 then
    s.reg addr ||| BitVec.ofNat 64 ((s.freeFrames ((addr - tffBase - 0x500) / 16)).length * 2 ^ 32)
  else if blkBase 0 ≤ addr ∧ addr < blkBase 16 then
    if off < 0x200 ∧ off % 32 = 24 then
      BitVec.ofNat 64 ((s.rinsedList stack (off / 32)).length + s.poolLive stack (off / 32) * 2 ^ 32)
    else if 0x200 ≤ off ∧ off < 0x1200 then
      s.reg addr ||| BitVec.ofNat 64 (s.charged stack ((off - 0x200) / 128) ((off - 0x200) / 8 % 16) * 2 ^ 32)
    else s.reg addr
  else s.reg addr

/-- What a load from an administration address gives (R380, R394): the register for an aligned 64-bit load of privileged Cleoz code on
a system core, else all ones. -/
def State.readAdmin (s : State) (addr size : Nat) (system privileged : Bool) : W64 :=
  if !(inAdmin addr && addr % 8 == 0 && size == 8 && system && privileged) then ones64
  else s.shown addr

/-- The lines that call Cleoz while a fault ring or the error ring holds records it has not consumed (R404, R419). -/
def State.ringLine (s : State) (r : Nat) : Bool := s.regBits (ringReg r 3) 31 0 != s.regBits (ringReg r 2) 31 0
def State.errorLine (s : State) : Bool := s.regBits (fleetBase + 0x18) 31 0 != s.regBits (fleetBase + 0x10) 31 0

/-- REGISTER_WRITE (R380, R394) by Cleoz, which runs from stage 2 on (R372); a module that a trip holds in reset takes none (R425). -/
def execRegisterWrite (addr : Nat) (val : W64) (s : State) : Result :=
  if s.boot.tripped = true ∨ s.cleozRuns = false then .next s else .next (s.writeAdmin addr val)

/-! ## Boot (R372 to R374) -/

/-- What a reset leaves: flash, fuses, the attestation counter, the module's number, and what the model has ahead. An index that is
claimed and not signed with is lost (R375). -/
def State.afterReset (s : State) : State :=
  let b := s.boot
  let bt : Boot := { images := b.images, cleoz := b.cleoz, minSvn := b.minSvn, slots := b.slots, attIndex := b.attIndex, attKey := b.attKey, signed := b.signed, attExh := b.attExh, attAlert := b.attAlert }
  { State.reset with agenda := s.agenda, fresh := s.fresh, device := s.device, cleozTrap := s.cleozTrap,
                     boot := bt }

/-- POWER_ON_RESET (R372); a module that a trip holds restarts by I3C_RESET alone (R425). -/
def execPowerOnReset (s : State) : Result := if s.boot.tripped then .next s else .next s.afterReset

/-- Does an image carry a key and a signature of R373's lengths, and does the signature over the image with its security version verify?
That the version follows the image as one byte is the model's (DESIGN CHOICE, log entry 17). -/
def Image.sigOk (i : Image) : Bool := i.key.length == 68 && i.sig.length == 2820 && xmssVerify i.key (i.body ++ [i.svn.setWidth 8]) i.sig

/-- The code of the first check that an image fails, 0 for none (R373, Table 20.2): the key's digest is that of a programmed slot which
is not revoked, the signature verifies, the security version is not below the fused minimum. (DESIGN CHOICE, log entry 17.) -/
def Boot.imageCode (b : Boot) (i : Image) : Nat :=
  if i.readable = false then 4
  else match b.slots.filter fun k => k.digest == some (keyDigest i.key) with
    | [] => 1
    | ks =>
      if ks.all (·.revoked) then 3
      else if i.sigOk = false then 1
      else if i.svn.toNat < b.minSvn then 2
      else 0

/-- Is the Cleoz image accepted: the same rules, with the key that the running first stage trusts (R372)? (DESIGN CHOICE, log entry 17). (DESIGN CHOICE, log entry 61.) -/
def Boot.cleozOk (b : Boot) : Bool :=
  let i := b.cleoz
  i.readable && b.trusted == keyDigest i.key && i.sigOk && decide (b.minSvn ≤ i.svn.toNat)

/-- The boot status register (Table 20.2), which I3C and privileged Cleoz code read. -/
def State.bootStatus (s : State) : W32 :=
  let b := s.boot
  BitVec.ofNat 32 (b.stage % 16 + b.err % 256 * 2 ^ 4 + b.copy % 2 * 2 ^ 12 + (if b.attExh then 2 ^ 13 else 0) + b.svn % 64 * 2 ^ 14)

/-- BOOT_ROM_VERIFY (R373, R374): the first stage that runs from then on is the image that has been verified, whatever flash holds later.
(DESIGN CHOICE, log entry 4.) -/
def execBootRomVerify (s : State) : Result :=
  let b := s.boot
  if b.stage ≠ 0 then .next s
  else
    let a := b.images.getD 0 {}
    let c := b.images.getD 1 {}
    if b.imageCode a = 0 then .next { s with boot := { b with stage := 1, copy := 0, svn := a.svn.toNat, trusted := a.trusts } }
    else if b.imageCode c = 0 then .next { s with boot := { b with stage := 1, copy := 1, svn := c.svn.toNat, trusted := c.trusts } }
    else .next { s with boot := { b with stage := 15, err := b.imageCode c } }

/-- FIRST_STAGE_BOOT (R372): key slots are empty. -/
def execFirstStageBoot (s : State) : Result :=
  let b := s.boot
  if b.stage ≠ 1 then .next s
  else if b.cleozOk then .next { s with keys := [], boot := { b with stage := 2, loaded := false } }
  else .next { s with boot := { b with stage := 15, err := 5 } }

/-- CLEOZ_LOADING (R372): Cleoz runs; the ports train by rows of their own. -/
def execCleozLoading (s : State) : Result :=
  if s.boot.stage = 2 then .next { s with boot := { s.boot with loaded := true } } else .next s

/-- What Cleoz has set of a cluster before the compute dies leave reset: its split, whether it serves, its duty. (DESIGN CHOICE, log entry 4.) -/
def Cluster.released (c : Cluster) : Cluster :=
  { split := c.split, dsplit := c.dsplit, serving := c.serving, withdraw := c.withdraw, duty := c.duty, throttleNs := c.throttleNs }

/-- COMPUTE_RELEASE (R372): every tag FULL, every weight store in loading mode, no virtual function resident; what Cleoz wrote in stage 2
stays. -/
def execComputeRelease (s : State) : Result :=
  if s.boot.stage = 2 ∧ s.boot.loaded = true then
    .next { s with boot := { s.boot with stage := 3 }, noVf := true, ctxs := [], cores := [], empties := [],
                   clusters := s.clusters.map fun p => (p.1, p.2.released), dies := s.dies.map fun p => (p.1, { p.2 with loading := true }) }
  else .next s

/-- Has a first stage booted? -/
def Boot.running (b : Boot) : Bool := decide (1 ≤ b.stage) && b.stage != 15

/-- ATTESTATION_REQUEST (R375): the counter moves on, and the index that it has left is claimed. (DESIGN CHOICE, log entry 17.) -/
def execAttestationRequest (s : State) : Result :=
  let b := s.boot
  if b.running = false then .next s
  else if 2 ^ 20 ≤ b.attIndex then .next { s with boot := { b with attExh := true } }
  else
    .next { s with boot := { b with attIndex := b.attIndex + 1, claimed := b.claimed ++ [b.attIndex], attExh := b.attIndex + 1 == 2 ^ 20,
                                    attAlert := decide (2 ^ 20 < b.attIndex + 1 + 4096) } }

/-- Is a signature one that the engine makes with an index: it carries the index in its first four bytes, and verifies under the public
part of the attestation key? (DESIGN CHOICE, log entry 17). -/
def Boot.signsAs (b : Boot) (i : Nat) (report sig : List Byte) : Bool :=
  b.attKey.length == 68 && sig.length == 2820 && sig.take 4 == (natBytes i 4).reverse && xmssVerify b.attKey report sig

/-- The engine signs a report with the oldest claimed index: the manual names XMSS-SHAKE_20_256, and which of the signatures that verify
it makes depends on the secret key, which no instruction reads (R375). (DESIGN CHOICE, log entry 17.) -/
def State.sign (s : State) (report sig : List Byte) : State :=
  let b := s.boot
  match b.claimed with
  | [] => s
  | i :: rest => if b.signsAs i report sig then { s with boot := { b with claimed := rest, signed := b.signed ++ [(i, report, sig)] } } else s

/-- FUSED_MINIMUM_RAISE (R373). -/
def execFusedMinimumRaise (svn : Nat) (s : State) : Result :=
  if s.boot.running = true ∧ s.boot.minSvn < svn ∧ svn < 64 then .next { s with boot := { s.boot with minSvn := svn } } else .next s

/-- ROOT_KEY_REVOKE (R373). -/
def execRootKeyRevoke (s : State) : Result :=
  match s.boot.slots with
  | k0 :: k1 :: rest =>
    if s.boot.running = true ∧ k1.digest.isSome = true then
      .next { s with boot := { s.boot with slots := { k0 with revoked := true } :: k1 :: rest } }
    else .next s
  | _ => .next s

/-! ## Heat and power (R388, R393, R425) -/

def therm : Nat := fleetBase + 0x40
/-- THROT, and TRIP, which acts as THROT + 5 where it is lower. (DESIGN CHOICE, log entry 51.) -/
def State.throt (s : State) : Nat := s.regBits therm 7 0
def State.tripAt (s : State) : Nat := max (s.regBits therm 15 8) (s.throt + 5)

/-- THERMAL_TRIP: the module is held in reset. -/
def execThermalTrip (temp : Nat) (s : State) : Result :=
  if s.tripAt ≤ temp then
    let t := s.afterReset
    .next { t with boot := { t.boot with stage := 15, err := 6, tripped := true } }
  else .next s

/-- I3C_RESET: restarts a module that a trip holds. -/
def execI3cReset (s : State) : Result := if s.boot.tripped then .next s.afterReset else .next s

/-- THROTTLE_STEP: `excess` is not 0 while the power estimate exceeds the cap. Every cluster of the die has its duty. (DESIGN CHOICE, log entry 51.) -/
def execThrottleStep (die temp excess : Nat) (s : State) : Result :=
  let d := s.die die
  if s.ptp < d.dutyAt + 100000 ∨ 4 ≤ die ∨ s.boot.tripped = true then .next s
  else
    let hot := if s.throt < temp then true else if temp + 3 ≤ s.throt then false else d.hot
    let duty := if hot = true ∨ excess ≠ 0 then max 1 (d.duty - 1) else min 8 (d.duty + 1)
    let s := s.modDie die fun d => { d with duty := duty, dutyAt := s.ptp, hot := hot }
    .next ((clustersOf die).foldl (fun s c => s.modCluster c fun x =>
      { x with duty := duty, throttleNs := x.throttleNs + (if x.duty < 8 then 100000 else 0) }) s)

/-- POWER_MODE_CHANGE (R393). -/
def execPowerModeChange (s : State) : Result := .next { s with powerMode := s.regBits schBase 0 0 }

end Sys2Proof.Machine
end

