-- ==== Sys2Proof/Machine/Scalar.lean ====
section
/-! DEFINITION. Integer, select, bit-field, immediate and scalar floating-point instructions: majors 0x01
to 0x1A (R185 to R196). -/

namespace Sys2Proof.Machine

/-! ## Functions of Table 8.2 -/

/-- The low 32 bits of a value, sign-extended (R185). -/
def sextW (x : Nat) : W64 := (BitVec.ofNat 32 x).signExtend 64

def fnAdd (a b : W64) : W64 := a + b
def fnSub (a b : W64) : W64 := a - b
def fnAddw (a b : W64) : W64 := sextW (a.toNat + b.toNat)
def fnSubw (a b : W64) : W64 := sextW (a - b).toNat
def fnMul (a b : W64) : W64 := a * b
def fnMulh (a b : W64) : W64 := BitVec.ofInt 64 (a.toInt * b.toInt / 2 ^ 64)
def fnMulhz (a b : W64) : W64 := BitVec.ofNat 64 (a.toNat * b.toNat / 2 ^ 64)
def fnMulw (a b : W64) : W64 := sextW (a.toNat * b.toNat)
/-- Division truncates towards zero; a divisor of 0 gives all ones (R188). -/
def fnDiv (a b : W64) : W64 := if b = 0 then ones64 else BitVec.ofInt 64 (Int.tdiv a.toInt b.toInt)
def fnDivz (a b : W64) : W64 := if b = 0 then ones64 else BitVec.ofNat 64 (a.toNat / b.toNat)
def fnRem (a b : W64) : W64 := if b = 0 then ones64 else BitVec.ofInt 64 (Int.tmod a.toInt b.toInt)
def fnRemz (a b : W64) : W64 := if b = 0 then ones64 else BitVec.ofNat 64 (a.toNat % b.toNat)
def fnAnd (a b : W64) : W64 := a &&& b
def fnOr (a b : W64) : W64 := a ||| b
def fnXor (a b : W64) : W64 := a ^^^ b
def fnAndn (a b : W64) : W64 := a &&& ~~~b
/-- Shift counts are B[5:0] (R187). -/
def fnShl (a b : W64) : W64 := a <<< (b.toNat % 64)
def fnShr (a b : W64) : W64 := a >>> (b.toNat % 64)
def fnShra (a b : W64) : W64 := a.sshiftRight (b.toNat % 64)
def fnRor (a b : W64) : W64 := a.rotateRight (b.toNat % 64)
def fnSlt (a b : W64) : W64 := flag (a.slt b)
def fnSltz (a b : W64) : W64 := flag (a.ult b)
def fnSeq (a b : W64) : W64 := flag (a == b)
def fnSne (a b : W64) : W64 := flag (a != b)
def fnMin (a b : W64) : W64 := if a.slt b then a else b
def fnMax (a b : W64) : W64 := if a.slt b then b else a
def fnMinz (a b : W64) : W64 := if a.ult b then a else b
def fnMaxz (a b : W64) : W64 := if a.ult b then b else a
/-- Number of zero bits of `x` from bit `i` down. -/
def zerosDown (x : W64) : Nat → Nat
  | 0 => 0
  | i + 1 => if x.getLsbD i then 0 else zerosDown x i + 1
/-- Number of zero bits of `x` from bit `64 − n` up. -/
def zerosUp (x : W64) : Nat → Nat
  | 0 => 0
  | n + 1 => if x.getLsbD (63 - n) then 0 else zerosUp x n + 1
def onesBelow (x : W64) : Nat → Nat
  | 0 => 0
  | i + 1 => onesBelow x i + (if x.getLsbD i then 1 else 0)
def fnClz (a : W64) : W64 := BitVec.ofNat 64 (zerosDown a 64)
def fnCtz (a : W64) : W64 := BitVec.ofNat 64 (zerosUp a 64)
def fnPopc (a : W64) : W64 := BitVec.ofNat 64 (onesBelow a 64)
def fnBrev (a : W64) : W64 := a.reverse
/-- Bit fields (R190). -/
def fnBfxz (a : W64) (p n : Nat) : W64 := BitVec.ofNat 64 (a.toNat / 2 ^ p % 2 ^ n)
def fnBfxs (a : W64) (p n : Nat) : W64 := BitVec.ofInt 64 (sintOf n (a.toNat / 2 ^ p))
def fnBfins (a b : W64) (p n : Nat) : W64 :=
  let m := BitVec.ofNat 64 ((2 ^ n - 1) * 2 ^ p)
  (b &&& ~~~m) ||| ((a <<< p) &&& m)

/-! ## Binary32 functions (R194 to R196) -/

/-- The binary32 value in bits 31:0 (R185). -/
def f32 (x : W64) : Num := numOf 9 x.toNat
def of32 (x : Num) : W64 := BitVec.ofNat 64 (rne 9 x)
def fnFadd (a b : W64) : W64 := of32 ((f32 a).add (f32 b))
def fnFsub (a b : W64) : W64 := of32 ((f32 a).sub (f32 b))
def fnFmul (a b : W64) : W64 := of32 ((f32 a).mul (f32 b))
def fnFdiv (a b : W64) : W64 := of32 ((f32 a).div (f32 b))
def fnFmin (a b : W64) : W64 := of32 ((f32 a).min (f32 b))
def fnFmax (a b : W64) : W64 := of32 ((f32 a).max (f32 b))
def fnFsqrt (a : W64) : W64 := of32 (f32 a).sqrt
def fnFfma (a b c : W64) : W64 := of32 (((f32 a).mul (f32 b)).add (f32 c))
def fnFlt (a b : W64) : W64 := flag (ltNum (f32 a) (f32 b))
def fnFle (a b : W64) : W64 := flag (leNum (f32 a) (f32 b))
def fnFeq (a b : W64) : W64 := flag (eqNum (f32 a) (f32 b))
/-- Integer width that an FMT names for the scalar conversions (Table 8.5). -/
def convWidth (fmt : BitVec 4) : Nat := if fmt = 0 then 64 else fmtWidth fmt.toNat
def fnFcvtif (fmt : BitVec 4) (a : W64) : W64 := of32 (numOfInt (sintOf (convWidth fmt) a.toNat))
def fnFcvtfi (fmt : BitVec 4) (a : W64) : W64 := BitVec.ofInt 64 (intOfNum (convWidth fmt) .rne (f32 a))
def fnFcvth (fmt : BitVec 4) (sat : Bit) (a : W64) : W64 :=
  BitVec.ofNat 64 (encodeNum fmt.toNat .rne (sat == 1) (f32 a))
def fnFcvte (fmt : BitVec 4) (a : W64) : W64 := of32 (numOf fmt.toNat (a.toNat % 2 ^ fmtWidth fmt.toNat))

/-! ## The shared operations -/

/-- An instruction that computes a register from registers: `lat` is its latency in Table 18.1 (1 for an
interlocked result, which is there when a reader issues). -/
def aluOp (o : Op) (d : R6) (srcs : List R6) (lat : Nat) (f : State → W64) (s : State) : Result :=
  s.issue srcs [d] fun s => (s.wrLate d (f s) lat).finish o

def alu2 (o : Op) (d a b : R6) (lat : Nat) (f : W64 → W64 → W64) : State → Result :=
  aluOp o d [a, b] lat fun s => f (s.rd a) (s.rd b)

def alu1 (o : Op) (d a : R6) (lat : Nat) (f : W64 → W64) : State → Result :=
  aluOp o d [a] lat fun s => f (s.rd a)

/-- The immediate forms (R192): B is the immediate or the literal. -/
def aluImm (o : Op) (d a : R6) (imm : W64) (lat : Nat) (f : W64 → W64 → W64) : State → Result :=
  aluOp o d [a] lat fun s => f (s.rd a) imm

/-! ## The instructions -/

/-- ADD (R187). -/
def execAdd (d : R6) (a : R6) (b : R6) (st : St) (s : State) : Result :=
  alu2 ⟨4, st⟩ d a b 1 fnAdd s

/-- SUB (R187). -/
def execSub (d : R6) (a : R6) (b : R6) (st : St) (s : State) : Result :=
  alu2 ⟨4, st⟩ d a b 1 fnSub s

/-- ADDW (R187). -/
def execAddw (d : R6) (a : R6) (b : R6) (st : St) (s : State) : Result :=
  alu2 ⟨4, st⟩ d a b 1 fnAddw s

/-- SUBW (R187). -/
def execSubw (d : R6) (a : R6) (b : R6) (st : St) (s : State) : Result :=
  alu2 ⟨4, st⟩ d a b 1 fnSubw s

/-- MUL (R187). -/
def execMul (d : R6) (a : R6) (b : R6) (st : St) (s : State) : Result :=
  alu2 ⟨4, st⟩ d a b 4 fnMul s

/-- MULH (R187). -/
def execMulh (d : R6) (a : R6) (b : R6) (st : St) (s : State) : Result :=
  alu2 ⟨4, st⟩ d a b 4 fnMulh s

/-- MULHZ (R187). -/
def execMulhz (d : R6) (a : R6) (b : R6) (st : St) (s : State) : Result :=
  alu2 ⟨4, st⟩ d a b 4 fnMulhz s

/-- MULW (R187). -/
def execMulw (d : R6) (a : R6) (b : R6) (st : St) (s : State) : Result :=
  alu2 ⟨4, st⟩ d a b 4 fnMulw s

/-- DIV (R188). -/
def execDiv (d : R6) (a : R6) (b : R6) (st : St) (s : State) : Result :=
  alu2 ⟨4, st⟩ d a b 1 fnDiv s

/-- DIVZ (R188). -/
def execDivz (d : R6) (a : R6) (b : R6) (st : St) (s : State) : Result :=
  alu2 ⟨4, st⟩ d a b 1 fnDivz s

/-- REM (R188). -/
def execRem (d : R6) (a : R6) (b : R6) (st : St) (s : State) : Result :=
  alu2 ⟨4, st⟩ d a b 1 fnRem s

/-- REMZ (R188). -/
def execRemz (d : R6) (a : R6) (b : R6) (st : St) (s : State) : Result :=
  alu2 ⟨4, st⟩ d a b 1 fnRemz s

/-- AND (R187). -/
def execAnd (d : R6) (a : R6) (b : R6) (st : St) (s : State) : Result :=
  alu2 ⟨4, st⟩ d a b 1 fnAnd s

/-- OR (R187). -/
def execOr (d : R6) (a : R6) (b : R6) (st : St) (s : State) : Result :=
  alu2 ⟨4, st⟩ d a b 1 fnOr s

/-- XOR (R187). -/
def execXor (d : R6) (a : R6) (b : R6) (st : St) (s : State) : Result :=
  alu2 ⟨4, st⟩ d a b 1 fnXor s

/-- ANDN (R187). -/
def execAndn (d : R6) (a : R6) (b : R6) (st : St) (s : State) : Result :=
  alu2 ⟨4, st⟩ d a b 1 fnAndn s

/-- SHL (R187). -/
def execShl (d : R6) (a : R6) (b : R6) (st : St) (s : State) : Result :=
  alu2 ⟨4, st⟩ d a b 1 fnShl s

/-- SHR (R187). -/
def execShr (d : R6) (a : R6) (b : R6) (st : St) (s : State) : Result :=
  alu2 ⟨4, st⟩ d a b 1 fnShr s

/-- SHRA (R187). -/
def execShra (d : R6) (a : R6) (b : R6) (st : St) (s : State) : Result :=
  alu2 ⟨4, st⟩ d a b 1 fnShra s

/-- ROR (R187). -/
def execRor (d : R6) (a : R6) (b : R6) (st : St) (s : State) : Result :=
  alu2 ⟨4, st⟩ d a b 1 fnRor s

/-- SLT (R187). -/
def execSlt (d : R6) (a : R6) (b : R6) (st : St) (s : State) : Result :=
  alu2 ⟨4, st⟩ d a b 1 fnSlt s

/-- SLTZ (R187). -/
def execSltz (d : R6) (a : R6) (b : R6) (st : St) (s : State) : Result :=
  alu2 ⟨4, st⟩ d a b 1 fnSltz s

/-- SEQ (R187). -/
def execSeq (d : R6) (a : R6) (b : R6) (st : St) (s : State) : Result :=
  alu2 ⟨4, st⟩ d a b 1 fnSeq s

/-- SNE (R187). -/
def execSne (d : R6) (a : R6) (b : R6) (st : St) (s : State) : Result :=
  alu2 ⟨4, st⟩ d a b 1 fnSne s

/-- MIN (R187). -/
def execMin (d : R6) (a : R6) (b : R6) (st : St) (s : State) : Result :=
  alu2 ⟨4, st⟩ d a b 1 fnMin s

/-- MAX (R187). -/
def execMax (d : R6) (a : R6) (b : R6) (st : St) (s : State) : Result :=
  alu2 ⟨4, st⟩ d a b 1 fnMax s

/-- MINZ (R187). -/
def execMinz (d : R6) (a : R6) (b : R6) (st : St) (s : State) : Result :=
  alu2 ⟨4, st⟩ d a b 1 fnMinz s

/-- MAXZ (R187). -/
def execMaxz (d : R6) (a : R6) (b : R6) (st : St) (s : State) : Result :=
  alu2 ⟨4, st⟩ d a b 1 fnMaxz s

/-- CLZ (R187). -/
def execClz (d : R6) (a : R6) (st : St) (s : State) : Result :=
  alu1 ⟨4, st⟩ d a 1 fnClz s

/-- CTZ (R187). -/
def execCtz (d : R6) (a : R6) (st : St) (s : State) : Result :=
  alu1 ⟨4, st⟩ d a 1 fnCtz s

/-- POPC (R187). -/
def execPopc (d : R6) (a : R6) (st : St) (s : State) : Result :=
  alu1 ⟨4, st⟩ d a 1 fnPopc s

/-- BREV (R187). -/
def execBrev (d : R6) (a : R6) (st : St) (s : State) : Result :=
  alu1 ⟨4, st⟩ d a 1 fnBrev s

/-- SEL (R189). -/
def execSel (d : R6) (a : R6) (b : R6) (c : R6) (st : St) (s : State) : Result :=
  aluOp ⟨12, st⟩ d [a, b, c] 1 (fun s => if s.rd c ≠ 0 then s.rd a else s.rd b) s

/-- BFXS (R190). -/
def execBfxs (d : R6) (a : R6) (p : R6) (n : BitVec 7) (st : St) (s : State) : Result :=
  alu1 ⟨12, st⟩ d a 1 (fun x => fnBfxs x p.toNat n.toNat) s

/-- BFXZ (R190). -/
def execBfxz (d : R6) (a : R6) (p : R6) (n : BitVec 7) (st : St) (s : State) : Result :=
  alu1 ⟨12, st⟩ d a 1 (fun x => fnBfxz x p.toNat n.toNat) s

/-- BFINS (R190). -/
def execBfins (d : R6) (a : R6) (b : R6) (p : R6) (n : BitVec 7) (st : St) (s : State) : Result :=
  alu2 ⟨12, st⟩ d a b 1 (fun x y => fnBfins x y p.toNat n.toNat) s

/-- LEA (R191). -/
def execLea (d : R6) (a : R6) (b : R6) (k : BitVec 2) (st : St) (s : State) : Result :=
  alu2 ⟨4, st⟩ d a b 1 (fun x y => x + (y <<< k.toNat)) s

/-- FADD (R194). -/
def execFadd (d : R6) (a : R6) (b : R6) (st : St) (s : State) : Result :=
  alu2 ⟨4, st⟩ d a b 4 fnFadd s

/-- FSUB (R194). -/
def execFsub (d : R6) (a : R6) (b : R6) (st : St) (s : State) : Result :=
  alu2 ⟨4, st⟩ d a b 4 fnFsub s

/-- FMUL (R194). -/
def execFmul (d : R6) (a : R6) (b : R6) (st : St) (s : State) : Result :=
  alu2 ⟨4, st⟩ d a b 4 fnFmul s

/-- FDIV (R194). -/
def execFdiv (d : R6) (a : R6) (b : R6) (st : St) (s : State) : Result :=
  alu2 ⟨4, st⟩ d a b 1 fnFdiv s

/-- FMIN (R194). -/
def execFmin (d : R6) (a : R6) (b : R6) (st : St) (s : State) : Result :=
  alu2 ⟨4, st⟩ d a b 4 fnFmin s

/-- FMAX (R194). -/
def execFmax (d : R6) (a : R6) (b : R6) (st : St) (s : State) : Result :=
  alu2 ⟨4, st⟩ d a b 4 fnFmax s

/-- FSQRT (R194). -/
def execFsqrt (d : R6) (a : R6) (st : St) (s : State) : Result :=
  alu1 ⟨4, st⟩ d a 1 fnFsqrt s

/-- FFMA (R194). -/
def execFfma (d : R6) (a : R6) (b : R6) (c : R6) (st : St) (s : State) : Result :=
  aluOp ⟨12, st⟩ d [a, b, c] 4 (fun s => fnFfma (s.rd a) (s.rd b) (s.rd c)) s

/-- FLT (R195). -/
def execFlt (d : R6) (a : R6) (b : R6) (st : St) (s : State) : Result :=
  alu2 ⟨4, st⟩ d a b 4 fnFlt s

/-- FLE (R195). -/
def execFle (d : R6) (a : R6) (b : R6) (st : St) (s : State) : Result :=
  alu2 ⟨4, st⟩ d a b 4 fnFle s

/-- FEQ (R195). -/
def execFeq (d : R6) (a : R6) (b : R6) (st : St) (s : State) : Result :=
  alu2 ⟨4, st⟩ d a b 4 fnFeq s

/-- FCLASS (R195). -/
def execFclass (d : R6) (a : R6) (st : St) (s : State) : Result :=
  alu1 ⟨4, st⟩ d a 4 (fun x => classOf (x.toNat % 2 ^ 32)) s

/-- FCVTIF (R196). -/
def execFcvtif (d : R6) (a : R6) (st : St) (s : State) : Result :=
  alu1 ⟨4, st⟩ d a 4 (fnFcvtif 0) s

/-- FCVTFI (R196). -/
def execFcvtfi (d : R6) (a : R6) (st : St) (s : State) : Result :=
  alu1 ⟨4, st⟩ d a 4 (fnFcvtfi 0) s

/-- FCVTIF_X (R196). -/
def execFcvtifX (d : R6) (a : R6) (fmt : BitVec 4) (st : St) (s : State) : Result :=
  alu1 ⟨12, st⟩ d a 4 (fnFcvtif fmt) s

/-- FCVTFI_X (R196). -/
def execFcvtfiX (d : R6) (a : R6) (fmt : BitVec 4) (st : St) (s : State) : Result :=
  alu1 ⟨12, st⟩ d a 4 (fnFcvtfi fmt) s

/-- FCVTH (R196). -/
def execFcvth (d : R6) (a : R6) (fmt : BitVec 4) (sat : Bit) (st : St) (s : State) : Result :=
  alu1 ⟨12, st⟩ d a 4 (fnFcvth fmt sat) s

/-- FCVTE (R196). -/
def execFcvte (d : R6) (a : R6) (fmt : BitVec 4) (st : St) (s : State) : Result :=
  alu1 ⟨12, st⟩ d a 4 (fnFcvte fmt) s

/-- ADDI (R192). -/
def execAddi (d : R6) (a : R6) (imm8 : Byte) (st : St) (s : State) : Result :=
  aluImm ⟨4, st⟩ d a (sext8 imm8) 1 fnAdd s

/-- ADDI_LIT (R192). -/
def execAddiLit (d : R6) (a : R6) (lit : W64) (st : St) (s : State) : Result :=
  aluImm ⟨12, st⟩ d a lit 1 fnAdd s

/-- ANDI (R192). -/
def execAndi (d : R6) (a : R6) (imm8 : Byte) (st : St) (s : State) : Result :=
  aluImm ⟨4, st⟩ d a (sext8 imm8) 1 fnAnd s

/-- ANDI_LIT (R192). -/
def execAndiLit (d : R6) (a : R6) (lit : W64) (st : St) (s : State) : Result :=
  aluImm ⟨12, st⟩ d a lit 1 fnAnd s

/-- ORI (R192). -/
def execOri (d : R6) (a : R6) (imm8 : Byte) (st : St) (s : State) : Result :=
  aluImm ⟨4, st⟩ d a (sext8 imm8) 1 fnOr s

/-- ORI_LIT (R192). -/
def execOriLit (d : R6) (a : R6) (lit : W64) (st : St) (s : State) : Result :=
  aluImm ⟨12, st⟩ d a lit 1 fnOr s

/-- XORI (R192). -/
def execXori (d : R6) (a : R6) (imm8 : Byte) (st : St) (s : State) : Result :=
  aluImm ⟨4, st⟩ d a (sext8 imm8) 1 fnXor s

/-- XORI_LIT (R192). -/
def execXoriLit (d : R6) (a : R6) (lit : W64) (st : St) (s : State) : Result :=
  aluImm ⟨12, st⟩ d a lit 1 fnXor s

/-- SHLI (R192). -/
def execShli (d : R6) (a : R6) (imm8 : Byte) (st : St) (s : State) : Result :=
  aluImm ⟨4, st⟩ d a (imm8.setWidth 64) 1 fnShl s

/-- SHLI_LIT (R192). -/
def execShliLit (d : R6) (a : R6) (lit : W64) (st : St) (s : State) : Result :=
  aluImm ⟨12, st⟩ d a lit 1 fnShl s

/-- SHRI (R192). -/
def execShri (d : R6) (a : R6) (imm8 : Byte) (st : St) (s : State) : Result :=
  aluImm ⟨4, st⟩ d a (imm8.setWidth 64) 1 fnShr s

/-- SHRI_LIT (R192). -/
def execShriLit (d : R6) (a : R6) (lit : W64) (st : St) (s : State) : Result :=
  aluImm ⟨12, st⟩ d a lit 1 fnShr s

/-- SHRAI (R192). -/
def execShrai (d : R6) (a : R6) (imm8 : Byte) (st : St) (s : State) : Result :=
  aluImm ⟨4, st⟩ d a (imm8.setWidth 64) 1 fnShra s

/-- SHRAI_LIT (R192). -/
def execShraiLit (d : R6) (a : R6) (lit : W64) (st : St) (s : State) : Result :=
  aluImm ⟨12, st⟩ d a lit 1 fnShra s

/-- SLTI (R192). -/
def execSlti (d : R6) (a : R6) (imm8 : Byte) (st : St) (s : State) : Result :=
  aluImm ⟨4, st⟩ d a (sext8 imm8) 1 fnSlt s

/-- SLTI_LIT (R192). -/
def execSltiLit (d : R6) (a : R6) (lit : W64) (st : St) (s : State) : Result :=
  aluImm ⟨12, st⟩ d a lit 1 fnSlt s

/-- SLTZI (R192). -/
def execSltzi (d : R6) (a : R6) (imm8 : Byte) (st : St) (s : State) : Result :=
  aluImm ⟨4, st⟩ d a (sext8 imm8) 1 fnSltz s

/-- SLTZI_LIT (R192). -/
def execSltziLit (d : R6) (a : R6) (lit : W64) (st : St) (s : State) : Result :=
  aluImm ⟨12, st⟩ d a lit 1 fnSltz s

/-- MULI (R192). -/
def execMuli (d : R6) (a : R6) (imm8 : Byte) (st : St) (s : State) : Result :=
  aluImm ⟨4, st⟩ d a (sext8 imm8) 4 fnMul s

/-- MULI_LIT (R192). -/
def execMuliLit (d : R6) (a : R6) (lit : W64) (st : St) (s : State) : Result :=
  aluImm ⟨12, st⟩ d a lit 4 fnMul s

/-- LI (R193). -/
def execLi (d : R6) (imm14 : BitVec 14) (st : St) (s : State) : Result :=
  aluOp ⟨4, st⟩ d [] 1 (fun _ => sext14 imm14) s

/-- LI_LIT (R193). -/
def execLiLit (d : R6) (lit : W64) (st : St) (s : State) : Result :=
  aluOp ⟨12, st⟩ d [] 1 (fun _ => lit) s

end Sys2Proof.Machine
end

