-- ==== Sys2Proof/Machine/Dispatch.lean ====
section
/-! DEFINITION. One arm per row of the opcode table. -/

namespace Sys2Proof.Machine

/-- What an instruction or an event does. -/
def exec (i : Instr) (s : State) : Host.Outcome State Fault Refusal :=
  match i with
  | .powerOnReset => Sys2Proof.Machine.execPowerOnReset s
  | .bootRomVerify => Sys2Proof.Machine.execBootRomVerify s
  | .firstStageBoot => Sys2Proof.Machine.execFirstStageBoot s
  | .cleozLoading => Sys2Proof.Machine.execCleozLoading s
  | .computeRelease => Sys2Proof.Machine.execComputeRelease s
  | .attestationRequest => Sys2Proof.Machine.execAttestationRequest s
  | .thermalTrip temp => Sys2Proof.Machine.execThermalTrip temp s
  | .i3cReset => Sys2Proof.Machine.execI3cReset s
  | .throttleStep die temp excess => Sys2Proof.Machine.execThrottleStep die temp excess s
  | .powerModeChange => Sys2Proof.Machine.execPowerModeChange s
  | .ethernetFrame port frame => Sys2Proof.Machine.execEthernetFrame port frame s
  | .cxlPortTrain port rate kind => Sys2Proof.Machine.execCxlPortTrain port rate kind s
  | .cxlLinkDown port => Sys2Proof.Machine.execCxlLinkDown port s
  | .towlineTrain port lanes partner => Sys2Proof.Machine.execTowlineTrain port lanes partner s
  | .towlineMessage msg target => Sys2Proof.Machine.execTowlineMessage msg target s
  | .towlineReissue id => Sys2Proof.Machine.execTowlineReissue id s
  | .stretchNotice win => Sys2Proof.Machine.execStretchNotice win s
  | .refreshAdvance die => Sys2Proof.Machine.execRefreshAdvance die s
  | .quietSweep => Sys2Proof.Machine.execQuietSweep s
  | .homeAccess id => Sys2Proof.Machine.execHomeAccess id s
  | .storeAck id => Sys2Proof.Machine.execStoreAck id s
  | .tagWaitTimeout id => Sys2Proof.Machine.execTagWaitTimeout id s
  | .barrierWaitTimeout core slot => Sys2Proof.Machine.execBarrierWaitTimeout core slot s
  | .joinLimitExpire core slot => Sys2Proof.Machine.execJoinLimitExpire core slot s
  | .backoffReissue id => Sys2Proof.Machine.execBackoffReissue id s
  | .cacheEviction cluster line => Sys2Proof.Machine.execCacheEviction cluster line s
  | .helperLive core slot => Sys2Proof.Machine.execHelperLive core slot s
  | .helperCloseEnd core slot => Sys2Proof.Machine.execHelperCloseEnd core slot s
  | .faultSave core slot => Sys2Proof.Machine.execFaultSave core slot s
  | .faultRecordDrain cluster => Sys2Proof.Machine.execFaultRecordDrain cluster s
  | .migration core slot => Sys2Proof.Machine.execMigration core slot s
  | .helperRestore frame => Sys2Proof.Machine.execHelperRestore frame s
  | .chunkRequest cluster handle => Sys2Proof.Machine.execChunkRequest cluster handle s
  | .chunkGrant die => Sys2Proof.Machine.execChunkGrant die s
  | .placementGrant die => Sys2Proof.Machine.execPlacementGrant die s
  | .groupComplete handle group => Sys2Proof.Machine.execGroupComplete handle group s
  | .launchReady handle => Sys2Proof.Machine.execLaunchReady handle s
  | .launchDependenceFail handle => Sys2Proof.Machine.execLaunchDependenceFail handle s
  | .launchEnd handle => Sys2Proof.Machine.execLaunchEnd handle s
  | .splitChange cluster => Sys2Proof.Machine.execSplitChange cluster s
  | .serveWrite word val => Sys2Proof.Machine.execServeWrite word val s
  | .serveWithdraw cluster => Sys2Proof.Machine.execServeWithdraw cluster s
  | .priorityRaise handle => Sys2Proof.Machine.execPriorityRaise handle s
  | .priorityWithdraw handle => Sys2Proof.Machine.execPriorityWithdraw handle s
  | .preemption die => Sys2Proof.Machine.execPreemption die s
  | .quantumExpire => Sys2Proof.Machine.execQuantumExpire s
  | .earlySliceEnd => Sys2Proof.Machine.execEarlySliceEnd s
  | .sliceSwitch => Sys2Proof.Machine.execSliceSwitch s
  | .engineCommandTake core ctr => Sys2Proof.Machine.execEngineCommandTake core ctr s
  | .engineOpComplete core ctr => Sys2Proof.Machine.execEngineOpComplete core ctr s
  | .engineFault core ctr => Sys2Proof.Machine.execEngineFault core ctr s
  | .vectorCommandStart core => Sys2Proof.Machine.execVectorCommandStart core s
  | .vectorCommandDone core slot => Sys2Proof.Machine.execVectorCommandDone core slot s
  | .messageArrive slice => Sys2Proof.Machine.execMessageArrive slice s
  | .sliceInputStallAlert slice => Sys2Proof.Machine.execSliceInputStallAlert slice s
  | .mooringComplete cls key => Sys2Proof.Machine.execMooringComplete cls key s
  | .mailboxSlotFreed cls key => Sys2Proof.Machine.execMailboxSlotFreed cls key s
  | .layupRequest core => Sys2Proof.Machine.execLayupRequest core s
  | .unmoorOrder cls key => Sys2Proof.Machine.execUnmoorOrder cls key s
  | .unmoorComplete cls key => Sys2Proof.Machine.execUnmoorComplete cls key s
  | .idleLimitExpire cls key => Sys2Proof.Machine.execIdleLimitExpire cls key s
  | .shiftComplete cls key => Sys2Proof.Machine.execShiftComplete cls key s
  | .sluiceStamp group => Sys2Proof.Machine.execSluiceStamp group s
  | .sluiceApply group => Sys2Proof.Machine.execSluiceApply group s
  | .groupActivate group => Sys2Proof.Machine.execGroupActivate group s
  | .groupReconfigure group => Sys2Proof.Machine.execGroupReconfigure group s
  | .groupResynchronise group => Sys2Proof.Machine.execGroupResynchronise group s
  | .groupDelete group => Sys2Proof.Machine.execGroupDelete group s
  | .blockRinse stack pool index fails => Sys2Proof.Machine.execBlockRinse stack pool index fails s
  | .patrolScrub loc seen => Sys2Proof.Machine.execPatrolScrub loc seen s
  | .uncorrectableError site => Sys2Proof.Machine.execUncorrectableError site s
  | .shootdown => Sys2Proof.Machine.execShootdown s
  | .shootdownDone => Sys2Proof.Machine.execShootdownDone s
  | .resumeContext val => Sys2Proof.Machine.execResumeContext val s
  | .resumeEnd val => Sys2Proof.Machine.execResumeEnd val s
  | .engactRetry core ctr => Sys2Proof.Machine.execEngactRetry core ctr s
  | .engactAbandon core ctr => Sys2Proof.Machine.execEngactAbandon core ctr s
  | .operandRecordInvalidate val => Sys2Proof.Machine.execOperandRecordInvalidate val s
  | .keyGenerate slot => Sys2Proof.Machine.execKeyGenerate slot s
  | .keyDestroy slot => Sys2Proof.Machine.execKeyDestroy slot s
  | .wsLoadingEnter die => Sys2Proof.Machine.execWsLoadingEnter die s
  | .wsLoadingLeave die => Sys2Proof.Machine.execWsLoadingLeave die s
  | .poolEnable stack pool => Sys2Proof.Machine.execPoolEnable stack pool s
  | .poolDisable stack pool => Sys2Proof.Machine.execPoolDisable stack pool s
  | .classRegister cls => Sys2Proof.Machine.execClassRegister cls s
  | .classWithdraw cls => Sys2Proof.Machine.execClassWithdraw cls s
  | .classWithdrawDone cls => Sys2Proof.Machine.execClassWithdrawDone cls s
  | .directoryResume dir => Sys2Proof.Machine.execDirectoryResume dir s
  | .journalControl val => Sys2Proof.Machine.execJournalControl val s
  | .registerWrite addr val => Sys2Proof.Machine.execRegisterWrite addr val s
  | .add d a b st => Sys2Proof.Machine.execAdd d a b st s
  | .sub d a b st => Sys2Proof.Machine.execSub d a b st s
  | .addw d a b st => Sys2Proof.Machine.execAddw d a b st s
  | .subw d a b st => Sys2Proof.Machine.execSubw d a b st s
  | .mul d a b st => Sys2Proof.Machine.execMul d a b st s
  | .mulh d a b st => Sys2Proof.Machine.execMulh d a b st s
  | .mulhz d a b st => Sys2Proof.Machine.execMulhz d a b st s
  | .mulw d a b st => Sys2Proof.Machine.execMulw d a b st s
  | .div d a b st => Sys2Proof.Machine.execDiv d a b st s
  | .divz d a b st => Sys2Proof.Machine.execDivz d a b st s
  | .rem d a b st => Sys2Proof.Machine.execRem d a b st s
  | .remz d a b st => Sys2Proof.Machine.execRemz d a b st s
  | .and d a b st => Sys2Proof.Machine.execAnd d a b st s
  | .or d a b st => Sys2Proof.Machine.execOr d a b st s
  | .xor d a b st => Sys2Proof.Machine.execXor d a b st s
  | .andn d a b st => Sys2Proof.Machine.execAndn d a b st s
  | .shl d a b st => Sys2Proof.Machine.execShl d a b st s
  | .shr d a b st => Sys2Proof.Machine.execShr d a b st s
  | .shra d a b st => Sys2Proof.Machine.execShra d a b st s
  | .ror d a b st => Sys2Proof.Machine.execRor d a b st s
  | .slt d a b st => Sys2Proof.Machine.execSlt d a b st s
  | .sltz d a b st => Sys2Proof.Machine.execSltz d a b st s
  | .seq d a b st => Sys2Proof.Machine.execSeq d a b st s
  | .sne d a b st => Sys2Proof.Machine.execSne d a b st s
  | .min d a b st => Sys2Proof.Machine.execMin d a b st s
  | .max d a b st => Sys2Proof.Machine.execMax d a b st s
  | .minz d a b st => Sys2Proof.Machine.execMinz d a b st s
  | .maxz d a b st => Sys2Proof.Machine.execMaxz d a b st s
  | .clz d a st => Sys2Proof.Machine.execClz d a st s
  | .ctz d a st => Sys2Proof.Machine.execCtz d a st s
  | .popc d a st => Sys2Proof.Machine.execPopc d a st s
  | .brev d a st => Sys2Proof.Machine.execBrev d a st s
  | .sel d a b c st => Sys2Proof.Machine.execSel d a b c st s
  | .bfxs d a p n st => Sys2Proof.Machine.execBfxs d a p n st s
  | .bfxz d a p n st => Sys2Proof.Machine.execBfxz d a p n st s
  | .bfins d a b p n st => Sys2Proof.Machine.execBfins d a b p n st s
  | .lea d a b k st => Sys2Proof.Machine.execLea d a b k st s
  | .fadd d a b st => Sys2Proof.Machine.execFadd d a b st s
  | .fsub d a b st => Sys2Proof.Machine.execFsub d a b st s
  | .fmul d a b st => Sys2Proof.Machine.execFmul d a b st s
  | .fdiv d a b st => Sys2Proof.Machine.execFdiv d a b st s
  | .fmin d a b st => Sys2Proof.Machine.execFmin d a b st s
  | .fmax d a b st => Sys2Proof.Machine.execFmax d a b st s
  | .fsqrt d a st => Sys2Proof.Machine.execFsqrt d a st s
  | .ffma d a b c st => Sys2Proof.Machine.execFfma d a b c st s
  | .flt d a b st => Sys2Proof.Machine.execFlt d a b st s
  | .fle d a b st => Sys2Proof.Machine.execFle d a b st s
  | .feq d a b st => Sys2Proof.Machine.execFeq d a b st s
  | .fclass d a st => Sys2Proof.Machine.execFclass d a st s
  | .fcvtif d a st => Sys2Proof.Machine.execFcvtif d a st s
  | .fcvtifX d a fmt st => Sys2Proof.Machine.execFcvtifX d a fmt st s
  | .fcvtfi d a st => Sys2Proof.Machine.execFcvtfi d a st s
  | .fcvtfiX d a fmt st => Sys2Proof.Machine.execFcvtfiX d a fmt st s
  | .fcvth d a fmt sat st => Sys2Proof.Machine.execFcvth d a fmt sat st s
  | .fcvte d a fmt st => Sys2Proof.Machine.execFcvte d a fmt st s
  | .addi d a imm8 st => Sys2Proof.Machine.execAddi d a imm8 st s
  | .addiLit d a lit st => Sys2Proof.Machine.execAddiLit d a lit st s
  | .andi d a imm8 st => Sys2Proof.Machine.execAndi d a imm8 st s
  | .andiLit d a lit st => Sys2Proof.Machine.execAndiLit d a lit st s
  | .ori d a imm8 st => Sys2Proof.Machine.execOri d a imm8 st s
  | .oriLit d a lit st => Sys2Proof.Machine.execOriLit d a lit st s
  | .xori d a imm8 st => Sys2Proof.Machine.execXori d a imm8 st s
  | .xoriLit d a lit st => Sys2Proof.Machine.execXoriLit d a lit st s
  | .shli d a imm8 st => Sys2Proof.Machine.execShli d a imm8 st s
  | .shliLit d a lit st => Sys2Proof.Machine.execShliLit d a lit st s
  | .shri d a imm8 st => Sys2Proof.Machine.execShri d a imm8 st s
  | .shriLit d a lit st => Sys2Proof.Machine.execShriLit d a lit st s
  | .shrai d a imm8 st => Sys2Proof.Machine.execShrai d a imm8 st s
  | .shraiLit d a lit st => Sys2Proof.Machine.execShraiLit d a lit st s
  | .slti d a imm8 st => Sys2Proof.Machine.execSlti d a imm8 st s
  | .sltiLit d a lit st => Sys2Proof.Machine.execSltiLit d a lit st s
  | .sltzi d a imm8 st => Sys2Proof.Machine.execSltzi d a imm8 st s
  | .sltziLit d a lit st => Sys2Proof.Machine.execSltziLit d a lit st s
  | .muli d a imm8 st => Sys2Proof.Machine.execMuli d a imm8 st s
  | .muliLit d a lit st => Sys2Proof.Machine.execMuliLit d a lit st s
  | .li d imm14 st => Sys2Proof.Machine.execLi d imm14 st s
  | .liLit d lit st => Sys2Proof.Machine.execLiLit d lit st s
  | .br off20 st => Sys2Proof.Machine.execBr off20 st s
  | .beqz d off14 st => Sys2Proof.Machine.execBeqz d off14 st s
  | .bnez d off14 st => Sys2Proof.Machine.execBnez d off14 st s
  | .bltz d off14 st => Sys2Proof.Machine.execBltz d off14 st s
  | .bgez d off14 st => Sys2Proof.Machine.execBgez d off14 st s
  | .beq a b imm st => Sys2Proof.Machine.execBeq a b imm st s
  | .bne a b imm st => Sys2Proof.Machine.execBne a b imm st s
  | .blt a b imm st => Sys2Proof.Machine.execBlt a b imm st s
  | .blo a b imm st => Sys2Proof.Machine.execBlo a b imm st s
  | .call off20 st => Sys2Proof.Machine.execCall off20 st s
  | .callr d a st => Sys2Proof.Machine.execCallr d a st s
  | .jmpr a st => Sys2Proof.Machine.execJmpr a st s
  | .ret st => Sys2Proof.Machine.execRet st s
  | .start d a b st => Sys2Proof.Machine.execStart d a b st s
  | .startX d a b c w mig st => Sys2Proof.Machine.execStartX d a b c w mig st s
  | .startm d st => Sys2Proof.Machine.execStartm d st s
  | .startmX d cls has st => Sys2Proof.Machine.execStartmX d cls has st s
  | .startw d a st => Sys2Proof.Machine.execStartw d a st s
  | .startwX d a mig st => Sys2Proof.Machine.execStartwX d a mig st s
  | .finish st => Sys2Proof.Machine.execFinish st s
  | .fail a st => Sys2Proof.Machine.execFail a st s
  | .idle st => Sys2Proof.Machine.execIdle st s
  | .join d a st => Sys2Proof.Machine.execJoin d a st s
  | .joinX d a imm st => Sys2Proof.Machine.execJoinX d a imm st s
  | .joinany d st => Sys2Proof.Machine.execJoinany d st s
  | .joinanyX d imm st => Sys2Proof.Machine.execJoinanyX d imm st s
  | .hstat d a st => Sys2Proof.Machine.execHstat d a st s
  | .hstatX d a st => Sys2Proof.Machine.execHstatX d a st s
  | .popw d a st => Sys2Proof.Machine.execPopw d a st s
  | .pushw d a st => Sys2Proof.Machine.execPushw d a st s
  | .launch d a st => Sys2Proof.Machine.execLaunch d a st s
  | .launchX d a imm st => Sys2Proof.Machine.execLaunchX d a imm st s
  | .lwait d a st => Sys2Proof.Machine.execLwait d a st s
  | .lwaitX d a e st => Sys2Proof.Machine.execLwaitX d a e st s
  | .widf d a b st => Sys2Proof.Machine.execWidf d a b st s
  | .widr d a b st => Sys2Proof.Machine.execWidr d a b st s
  | .mfk d a st => Sys2Proof.Machine.execMfk d a st s
  | .mtk d a st => Sys2Proof.Machine.execMtk d a st s
  | .trap a st => Sys2Proof.Machine.execTrap a st s
  | .brk st => Sys2Proof.Machine.execBrk st s
  | .sysc d a st => Sys2Proof.Machine.execSysc d a st s
  | .eret st => Sys2Proof.Machine.execEret st s
  | .ldb d a imm8 st => Sys2Proof.Machine.execLdb d a imm8 st s
  | .ldbLit d a lit st => Sys2Proof.Machine.execLdbLit d a lit st s
  | .ldbX d a sc od sy ph imm st => Sys2Proof.Machine.execLdbX d a sc od sy ph imm st s
  | .ldbXlit d a sc od sy ph lit st => Sys2Proof.Machine.execLdbXlit d a sc od sy ph lit st s
  | .ldbz d a imm8 st => Sys2Proof.Machine.execLdbz d a imm8 st s
  | .ldbzLit d a lit st => Sys2Proof.Machine.execLdbzLit d a lit st s
  | .ldbzX d a sc od sy ph imm st => Sys2Proof.Machine.execLdbzX d a sc od sy ph imm st s
  | .ldbzXlit d a sc od sy ph lit st => Sys2Proof.Machine.execLdbzXlit d a sc od sy ph lit st s
  | .ldh d a imm8 st => Sys2Proof.Machine.execLdh d a imm8 st s
  | .ldhLit d a lit st => Sys2Proof.Machine.execLdhLit d a lit st s
  | .ldhX d a sc od sy ph imm st => Sys2Proof.Machine.execLdhX d a sc od sy ph imm st s
  | .ldhXlit d a sc od sy ph lit st => Sys2Proof.Machine.execLdhXlit d a sc od sy ph lit st s
  | .ldhz d a imm8 st => Sys2Proof.Machine.execLdhz d a imm8 st s
  | .ldhzLit d a lit st => Sys2Proof.Machine.execLdhzLit d a lit st s
  | .ldhzX d a sc od sy ph imm st => Sys2Proof.Machine.execLdhzX d a sc od sy ph imm st s
  | .ldhzXlit d a sc od sy ph lit st => Sys2Proof.Machine.execLdhzXlit d a sc od sy ph lit st s
  | .ldw d a imm8 st => Sys2Proof.Machine.execLdw d a imm8 st s
  | .ldwLit d a lit st => Sys2Proof.Machine.execLdwLit d a lit st s
  | .ldwX d a sc od sy ph imm st => Sys2Proof.Machine.execLdwX d a sc od sy ph imm st s
  | .ldwXlit d a sc od sy ph lit st => Sys2Proof.Machine.execLdwXlit d a sc od sy ph lit st s
  | .ldwz d a imm8 st => Sys2Proof.Machine.execLdwz d a imm8 st s
  | .ldwzLit d a lit st => Sys2Proof.Machine.execLdwzLit d a lit st s
  | .ldwzX d a sc od sy ph imm st => Sys2Proof.Machine.execLdwzX d a sc od sy ph imm st s
  | .ldwzXlit d a sc od sy ph lit st => Sys2Proof.Machine.execLdwzXlit d a sc od sy ph lit st s
  | .ldd d a imm8 st => Sys2Proof.Machine.execLdd d a imm8 st s
  | .lddLit d a lit st => Sys2Proof.Machine.execLddLit d a lit st s
  | .lddX d a sc od sy ph imm st => Sys2Proof.Machine.execLddX d a sc od sy ph imm st s
  | .lddXlit d a sc od sy ph lit st => Sys2Proof.Machine.execLddXlit d a sc od sy ph lit st s
  | .stb d a imm8 st => Sys2Proof.Machine.execStb d a imm8 st s
  | .stbLit d a lit st => Sys2Proof.Machine.execStbLit d a lit st s
  | .stbX d a sc od sy ph imm st => Sys2Proof.Machine.execStbX d a sc od sy ph imm st s
  | .stbXlit d a sc od sy ph lit st => Sys2Proof.Machine.execStbXlit d a sc od sy ph lit st s
  | .sth d a imm8 st => Sys2Proof.Machine.execSth d a imm8 st s
  | .sthLit d a lit st => Sys2Proof.Machine.execSthLit d a lit st s
  | .sthX d a sc od sy ph imm st => Sys2Proof.Machine.execSthX d a sc od sy ph imm st s
  | .sthXlit d a sc od sy ph lit st => Sys2Proof.Machine.execSthXlit d a sc od sy ph lit st s
  | .stw d a imm8 st => Sys2Proof.Machine.execStw d a imm8 st s
  | .stwLit d a lit st => Sys2Proof.Machine.execStwLit d a lit st s
  | .stwX d a sc od sy ph imm st => Sys2Proof.Machine.execStwX d a sc od sy ph imm st s
  | .stwXlit d a sc od sy ph lit st => Sys2Proof.Machine.execStwXlit d a sc od sy ph lit st s
  | .std d a imm8 st => Sys2Proof.Machine.execStd d a imm8 st s
  | .stdLit d a lit st => Sys2Proof.Machine.execStdLit d a lit st s
  | .stdX d a sc od sy ph imm st => Sys2Proof.Machine.execStdX d a sc od sy ph imm st s
  | .stdXlit d a sc od sy ph lit st => Sys2Proof.Machine.execStdXlit d a sc od sy ph lit st s
  | .ldfe d a st => Sys2Proof.Machine.execLdfe d a st s
  | .ldfeX d a e sc od ph imm st => Sys2Proof.Machine.execLdfeX d a e sc od ph imm st s
  | .ldff d a st => Sys2Proof.Machine.execLdff d a st s
  | .ldffX d a e sc od ph imm st => Sys2Proof.Machine.execLdffX d a e sc od ph imm st s
  | .ldtag d a st => Sys2Proof.Machine.execLdtag d a st s
  | .ldtagX d a sc od ph imm st => Sys2Proof.Machine.execLdtagX d a sc od ph imm st s
  | .stef d a b st => Sys2Proof.Machine.execStef d a b st s
  | .stefX d a b sc od ph imm st => Sys2Proof.Machine.execStefX d a b sc od ph imm st s
  | .stff d a b st => Sys2Proof.Machine.execStff d a b st s
  | .stffX d a b sc od ph imm st => Sys2Proof.Machine.execStffX d a b sc od ph imm st s
  | .tclr a st => Sys2Proof.Machine.execTclr a st s
  | .tclrX a sc od ph imm st => Sys2Proof.Machine.execTclrX a sc od ph imm st s
  | .tfill a st => Sys2Proof.Machine.execTfill a st s
  | .tfillX a sc od ph imm st => Sys2Proof.Machine.execTfillX a sc od ph imm st s
  | .aadd d a b st => Sys2Proof.Machine.execAadd d a b st s
  | .aaddX d a b sc od ph imm st => Sys2Proof.Machine.execAaddX d a b sc od ph imm st s
  | .amin d a b st => Sys2Proof.Machine.execAmin d a b st s
  | .aminX d a b sc od ph imm st => Sys2Proof.Machine.execAminX d a b sc od ph imm st s
  | .amax d a b st => Sys2Proof.Machine.execAmax d a b st s
  | .amaxX d a b sc od ph imm st => Sys2Proof.Machine.execAmaxX d a b sc od ph imm st s
  | .aminz d a b st => Sys2Proof.Machine.execAminz d a b st s
  | .aminzX d a b sc od ph imm st => Sys2Proof.Machine.execAminzX d a b sc od ph imm st s
  | .aand d a b st => Sys2Proof.Machine.execAand d a b st s
  | .aandX d a b sc od ph imm st => Sys2Proof.Machine.execAandX d a b sc od ph imm st s
  | .aor d a b st => Sys2Proof.Machine.execAor d a b st s
  | .aorX d a b sc od ph imm st => Sys2Proof.Machine.execAorX d a b sc od ph imm st s
  | .axor d a b st => Sys2Proof.Machine.execAxor d a b st s
  | .axorX d a b sc od ph imm st => Sys2Proof.Machine.execAxorX d a b sc od ph imm st s
  | .aswp d a b st => Sys2Proof.Machine.execAswp d a b st s
  | .aswpX d a b sc od ph imm st => Sys2Proof.Machine.execAswpX d a b sc od ph imm st s
  | .acas d a b st => Sys2Proof.Machine.execAcas d a b st s
  | .acasX d a b c sc od ph imm st => Sys2Proof.Machine.execAcasX d a b c sc od ph imm st s
  | .aaddf d a b st => Sys2Proof.Machine.execAaddf d a b st s
  | .aaddfX d a b sc od ph imm st => Sys2Proof.Machine.execAaddfX d a b sc od ph imm st s
  | .amaxf d a b st => Sys2Proof.Machine.execAmaxf d a b st s
  | .amaxfX d a b sc od ph imm st => Sys2Proof.Machine.execAmaxfX d a b sc od ph imm st s
  | .ainc d a b st => Sys2Proof.Machine.execAinc d a b st s
  | .aincX d a b sc od ph imm st => Sys2Proof.Machine.execAincX d a b sc od ph imm st s
  | .fence st => Sys2Proof.Machine.execFence st s
  | .fenceX st => Sys2Proof.Machine.execFenceX st s
  | .fencelb st => Sys2Proof.Machine.execFencelb st s
  | .fencelbX st => Sys2Proof.Machine.execFencelbX st s
  | .winwait d a st => Sys2Proof.Machine.execWinwait d a st s
  | .winwaitX d a st => Sys2Proof.Machine.execWinwaitX d a st s
  | .ackwait st => Sys2Proof.Machine.execAckwait st s
  | .ackwaitX st => Sys2Proof.Machine.execAckwaitX st s
  | .acq d a st => Sys2Proof.Machine.execAcq d a st s
  | .acqX d a sc imm st => Sys2Proof.Machine.execAcqX d a sc imm st s
  | .rel d a st => Sys2Proof.Machine.execRel d a st s
  | .relX d a sc imm st => Sys2Proof.Machine.execRelX d a sc imm st s
  | .bind d a b st => Sys2Proof.Machine.execBind d a b st s
  | .bindX d a b st => Sys2Proof.Machine.execBindX d a b st s
  | .unbind a st => Sys2Proof.Machine.execUnbind a st s
  | .unbindX a st => Sys2Proof.Machine.execUnbindX a st s
  | .tlwait a b st => Sys2Proof.Machine.execTlwait a b st s
  | .tlwaitX a b st => Sys2Proof.Machine.execTlwaitX a b st s
  | .tlread d a st => Sys2Proof.Machine.execTlread d a st s
  | .tlreadX d a st => Sys2Proof.Machine.execTlreadX d a st s
  | .tladd d a b st => Sys2Proof.Machine.execTladd d a b st s
  | .tladdX d a b sc st => Sys2Proof.Machine.execTladdX d a b sc st s
  | .qwait a st => Sys2Proof.Machine.execQwait a st s
  | .qwaitX a st => Sys2Proof.Machine.execQwaitX a st s
  | .qflip st => Sys2Proof.Machine.execQflip st s
  | .qflipX st => Sys2Proof.Machine.execQflipX st s
  | .qread d st => Sys2Proof.Machine.execQread d st s
  | .qreadX d st => Sys2Proof.Machine.execQreadX d st s
  | .barc d a st => Sys2Proof.Machine.execBarc d a st s
  | .barcX d a st => Sys2Proof.Machine.execBarcX d a st s
  | .barh d a st => Sys2Proof.Machine.execBarh d a st s
  | .barhX d a st => Sys2Proof.Machine.execBarhX d a st s
  | .pref a st => Sys2Proof.Machine.execPref a st s
  | .prefX a imm st => Sys2Proof.Machine.execPrefX a imm st s
  | .cwb a b st => Sys2Proof.Machine.execCwb a b st s
  | .cwbX a b imm st => Sys2Proof.Machine.execCwbX a b imm st s
  | .cinv a b st => Sys2Proof.Machine.execCinv a b st s
  | .cinvX a b imm st => Sys2Proof.Machine.execCinvX a b imm st s
  | .vmand d a b st => Sys2Proof.Machine.execVmand d a b st s
  | .vmandX d a b fmt st => Sys2Proof.Machine.execVmandX d a b fmt st s
  | .vmor d a b st => Sys2Proof.Machine.execVmor d a b st s
  | .vmorX d a b fmt st => Sys2Proof.Machine.execVmorX d a b fmt st s
  | .vmxor d a b st => Sys2Proof.Machine.execVmxor d a b st s
  | .vmxorX d a b fmt st => Sys2Proof.Machine.execVmxorX d a b fmt st s
  | .vmnot d a st => Sys2Proof.Machine.execVmnot d a st s
  | .vmnotX d a fmt st => Sys2Proof.Machine.execVmnotX d a fmt st s
  | .vmpop d a st => Sys2Proof.Machine.execVmpop d a st s
  | .vmpopX d a fmt mk st => Sys2Proof.Machine.execVmpopX d a fmt mk st s
  | .vmfirst d a st => Sys2Proof.Machine.execVmfirst d a st s
  | .vmfirstX d a fmt mk st => Sys2Proof.Machine.execVmfirstX d a fmt mk st s
  | .viota d st => Sys2Proof.Machine.execViota d st s
  | .viotaX d fmt mk mp tp st => Sys2Proof.Machine.execViotaX d fmt mk mp tp st s
  | .vmov d a st => Sys2Proof.Machine.execVmov d a st s
  | .vmovX d a fmt mk mp tp st => Sys2Proof.Machine.execVmovX d a fmt mk mp tp st s
  | .vbcast d a st => Sys2Proof.Machine.execVbcast d a st s
  | .vbcastX d a fmt mk mp tp st => Sys2Proof.Machine.execVbcastX d a fmt mk mp tp st s
  | .vextr d a b st => Sys2Proof.Machine.execVextr d a b st s
  | .vextrX d a b fmt st => Sys2Proof.Machine.execVextrX d a b fmt st s
  | .vins d a b st => Sys2Proof.Machine.execVins d a b st s
  | .vinsX d a b fmt st => Sys2Proof.Machine.execVinsX d a b fmt st s
  | .vperm d a b st => Sys2Proof.Machine.execVperm d a b st s
  | .vpermX d a b fmt mk mp tp st => Sys2Proof.Machine.execVpermX d a b fmt mk mp tp st s
  | .vslideu d a b st => Sys2Proof.Machine.execVslideu d a b st s
  | .vslideuX d a b fmt mk mp tp st => Sys2Proof.Machine.execVslideuX d a b fmt mk mp tp st s
  | .vslided d a b st => Sys2Proof.Machine.execVslided d a b st s
  | .vslidedX d a b fmt mk mp tp st => Sys2Proof.Machine.execVslidedX d a b fmt mk mp tp st s
  | .vcompr d a st => Sys2Proof.Machine.execVcompr d a st s
  | .vcomprX d a fmt mk tp st => Sys2Proof.Machine.execVcomprX d a fmt mk tp st s
  | .vexpnd d a st => Sys2Proof.Machine.execVexpnd d a st s
  | .vexpndX d a fmt mk mp tp st => Sys2Proof.Machine.execVexpndX d a fmt mk mp tp st s
  | .vredsum d a b st => Sys2Proof.Machine.execVredsum d a b st s
  | .vredsumX d a b fmt mk st => Sys2Proof.Machine.execVredsumX d a b fmt mk st s
  | .vredmax d a b st => Sys2Proof.Machine.execVredmax d a b st s
  | .vredmaxX d a b fmt mk st => Sys2Proof.Machine.execVredmaxX d a b fmt mk st s
  | .vredmin d a b st => Sys2Proof.Machine.execVredmin d a b st s
  | .vredminX d a b fmt mk st => Sys2Proof.Machine.execVredminX d a b fmt mk st s
  | .vld d a st => Sys2Proof.Machine.execVld d a st s
  | .vldX d a fmt mk mp tp ph imm st => Sys2Proof.Machine.execVldX d a fmt mk mp tp ph imm st s
  | .vst d a st => Sys2Proof.Machine.execVst d a st s
  | .vstX d a fmt mk ph imm st => Sys2Proof.Machine.execVstX d a fmt mk ph imm st s
  | .vlds d a b st => Sys2Proof.Machine.execVlds d a b st s
  | .vldsX d a b fmt mk mp tp ph imm st => Sys2Proof.Machine.execVldsX d a b fmt mk mp tp ph imm st s
  | .vsts d a b st => Sys2Proof.Machine.execVsts d a b st s
  | .vstsX d a b fmt mk ph imm st => Sys2Proof.Machine.execVstsX d a b fmt mk ph imm st s
  | .vgath d a b st => Sys2Proof.Machine.execVgath d a b st s
  | .vgathX d a b fmt mk mp tp ph imm st => Sys2Proof.Machine.execVgathX d a b fmt mk mp tp ph imm st s
  | .vscat d a b st => Sys2Proof.Machine.execVscat d a b st s
  | .vscatX d a b fmt mk ph imm st => Sys2Proof.Machine.execVscatX d a b fmt mk ph imm st s
  | .vcvtp d a b fmt mk mp tp sat sr st => Sys2Proof.Machine.execVcvtp d a b fmt mk mp tp sat sr st s
  | .vcvtu d a b fmt mk mp tp sat sr st => Sys2Proof.Machine.execVcvtu d a b fmt mk mp tp sat sr st s
  | .vcvti d a fmt mk mp tp sat sr st => Sys2Proof.Machine.execVcvti d a fmt mk mp tp sat sr st s
  | .vqscale d a e fmt tp sat sr st => Sys2Proof.Machine.execVqscale d a e fmt tp sat sr st s
  | .vtag d st => Sys2Proof.Machine.execVtag d st s
  | .vtagX d fmt st => Sys2Proof.Machine.execVtagX d fmt st s
  | .vtagr d a st => Sys2Proof.Machine.execVtagr d a st s
  | .vtagrX d a st => Sys2Proof.Machine.execVtagrX d a st s
  | .vmerge3 d a b st => Sys2Proof.Machine.execVmerge3 d a b st s
  | .vmerge3X d a b fmt mk mp tp st => Sys2Proof.Machine.execVmerge3X d a b fmt mk mp tp st s
  | .vsync st => Sys2Proof.Machine.execVsync st s
  | .vsyncX st => Sys2Proof.Machine.execVsyncX st s
  | .vadd d a b ha hb st => Sys2Proof.Machine.execVadd d a b ha hb st s
  | .vaddX d a b ha hb fmt mk mp tp st => Sys2Proof.Machine.execVaddX d a b ha hb fmt mk mp tp st s
  | .vsub d a b ha hb st => Sys2Proof.Machine.execVsub d a b ha hb st s
  | .vsubX d a b ha hb fmt mk mp tp st => Sys2Proof.Machine.execVsubX d a b ha hb fmt mk mp tp st s
  | .vmul d a b ha hb st => Sys2Proof.Machine.execVmul d a b ha hb st s
  | .vmulX d a b ha hb fmt mk mp tp st => Sys2Proof.Machine.execVmulX d a b ha hb fmt mk mp tp st s
  | .vfma d a b ha hb st => Sys2Proof.Machine.execVfma d a b ha hb st s
  | .vfmaX d a b ha hb c hc fmt mk mp tp st => Sys2Proof.Machine.execVfmaX d a b ha hb c hc fmt mk mp tp st s
  | .vfnma d a b ha hb st => Sys2Proof.Machine.execVfnma d a b ha hb st s
  | .vfnmaX d a b ha hb c hc fmt mk mp tp st => Sys2Proof.Machine.execVfnmaX d a b ha hb c hc fmt mk mp tp st s
  | .vmin d a b ha hb st => Sys2Proof.Machine.execVmin d a b ha hb st s
  | .vminX d a b ha hb fmt mk mp tp st => Sys2Proof.Machine.execVminX d a b ha hb fmt mk mp tp st s
  | .vmax d a b ha hb st => Sys2Proof.Machine.execVmax d a b ha hb st s
  | .vmaxX d a b ha hb fmt mk mp tp st => Sys2Proof.Machine.execVmaxX d a b ha hb fmt mk mp tp st s
  | .vabs d a ha st => Sys2Proof.Machine.execVabs d a ha st s
  | .vabsX d a ha fmt mk mp tp st => Sys2Proof.Machine.execVabsX d a ha fmt mk mp tp st s
  | .vneg d a ha st => Sys2Proof.Machine.execVneg d a ha st s
  | .vnegX d a ha fmt mk mp tp st => Sys2Proof.Machine.execVnegX d a ha fmt mk mp tp st s
  | .vrcp d a ha st => Sys2Proof.Machine.execVrcp d a ha st s
  | .vrcpX d a ha fmt mk mp tp st => Sys2Proof.Machine.execVrcpX d a ha fmt mk mp tp st s
  | .vrsq d a ha st => Sys2Proof.Machine.execVrsq d a ha st s
  | .vrsqX d a ha fmt mk mp tp st => Sys2Proof.Machine.execVrsqX d a ha fmt mk mp tp st s
  | .vexp2 d a ha st => Sys2Proof.Machine.execVexp2 d a ha st s
  | .vexp2X d a ha fmt mk mp tp st => Sys2Proof.Machine.execVexp2X d a ha fmt mk mp tp st s
  | .vlog2 d a ha st => Sys2Proof.Machine.execVlog2 d a ha st s
  | .vlog2X d a ha fmt mk mp tp st => Sys2Proof.Machine.execVlog2X d a ha fmt mk mp tp st s
  | .vtanh d a ha st => Sys2Proof.Machine.execVtanh d a ha st s
  | .vtanhX d a ha fmt mk mp tp st => Sys2Proof.Machine.execVtanhX d a ha fmt mk mp tp st s
  | .vand d a b ha hb st => Sys2Proof.Machine.execVand d a b ha hb st s
  | .vandX d a b ha hb fmt mk mp tp st => Sys2Proof.Machine.execVandX d a b ha hb fmt mk mp tp st s
  | .vor d a b ha hb st => Sys2Proof.Machine.execVor d a b ha hb st s
  | .vorX d a b ha hb fmt mk mp tp st => Sys2Proof.Machine.execVorX d a b ha hb fmt mk mp tp st s
  | .vxor d a b ha hb st => Sys2Proof.Machine.execVxor d a b ha hb st s
  | .vxorX d a b ha hb fmt mk mp tp st => Sys2Proof.Machine.execVxorX d a b ha hb fmt mk mp tp st s
  | .vshl d a b ha hb st => Sys2Proof.Machine.execVshl d a b ha hb st s
  | .vshlX d a b ha hb fmt mk mp tp st => Sys2Proof.Machine.execVshlX d a b ha hb fmt mk mp tp st s
  | .vshr d a b ha hb st => Sys2Proof.Machine.execVshr d a b ha hb st s
  | .vshrX d a b ha hb fmt mk mp tp st => Sys2Proof.Machine.execVshrX d a b ha hb fmt mk mp tp st s
  | .vshra d a b ha hb st => Sys2Proof.Machine.execVshra d a b ha hb st s
  | .vshraX d a b ha hb fmt mk mp tp st => Sys2Proof.Machine.execVshraX d a b ha hb fmt mk mp tp st s
  | .vcmpeq d a b ha hb st => Sys2Proof.Machine.execVcmpeq d a b ha hb st s
  | .vcmpeqX d a b ha hb fmt mk mp tp st => Sys2Proof.Machine.execVcmpeqX d a b ha hb fmt mk mp tp st s
  | .vcmplt d a b ha hb st => Sys2Proof.Machine.execVcmplt d a b ha hb st s
  | .vcmpltX d a b ha hb fmt mk mp tp st => Sys2Proof.Machine.execVcmpltX d a b ha hb fmt mk mp tp st s
  | .vcmple d a b ha hb st => Sys2Proof.Machine.execVcmple d a b ha hb st s
  | .vcmpleX d a b ha hb fmt mk mp tp st => Sys2Proof.Machine.execVcmpleX d a b ha hb fmt mk mp tp st s
  | .vclaim d a st => Sys2Proof.Machine.execVclaim d a st s
  | .vreneg d st => Sys2Proof.Machine.execVreneg d st s
  | .vrelease st => Sys2Proof.Machine.execVrelease st s
  | .mma d a b c e fmt n as bs z st => Sys2Proof.Machine.execMma d a b c e fmt n as bs z st s
  | .mmag d a b c e fmt n as bs z st => Sys2Proof.Machine.execMmag d a b c e fmt n as bs z st s
  | .mmas d a b c e fmt n as bs moff z st => Sys2Proof.Machine.execMmas d a b c e fmt n as bs moff z st s
  | .mmax d a b c fmt n as z st => Sys2Proof.Machine.execMmax d a b c fmt n as z st s
  | .mmamx d a b c e fmt n as bs sa sb z st => Sys2Proof.Machine.execMmamx d a b c e fmt n as bs sa sb z st s
  | .mmaws d a b c e fmt n as bs sa sb z st => Sys2Proof.Machine.execMmaws d a b c e fmt n as bs sa sb z st s
  | .tld d a st => Sys2Proof.Machine.execTld d a st s
  | .tldX d a fmt imm st => Sys2Proof.Machine.execTldX d a fmt imm st s
  | .tst d a b st => Sys2Proof.Machine.execTst d a b st s
  | .tstX d a b fmt imm st => Sys2Proof.Machine.execTstX d a b fmt imm st s
  | .tzero d st => Sys2Proof.Machine.execTzero d st s
  | .tzeroX d fmt st => Sys2Proof.Machine.execTzeroX d fmt st s
  | .aclr d st => Sys2Proof.Machine.execAclr d st s
  | .aclrX d st => Sys2Proof.Machine.execAclrX d st s
  | .ald d a st => Sys2Proof.Machine.execAld d a st s
  | .aldX d a imm st => Sys2Proof.Machine.execAldX d a imm st s
  | .ast d a b st => Sys2Proof.Machine.execAst d a b st s
  | .astX d a b imm st => Sys2Proof.Machine.execAstX d a b imm st s
  | .aread d a b fmt st => Sys2Proof.Machine.execAread d a b fmt st s
  | .mdld d a b st => Sys2Proof.Machine.execMdld d a b st s
  | .mdldX d a b off st => Sys2Proof.Machine.execMdldX d a b off st s
  | .scld d a b st => Sys2Proof.Machine.execScld d a b st s
  | .scldX d a b off st => Sys2Proof.Machine.execScldX d a b off st s
  | .orld d a b st => Sys2Proof.Machine.execOrld d a b st s
  | .orldX d a b st => Sys2Proof.Machine.execOrldX d a b st s
  | .gangcfg a st => Sys2Proof.Machine.execGangcfg a st s
  | .cpy d a b st => Sys2Proof.Machine.execCpy d a b st s
  | .cpyX d a b c od ph ctx st => Sys2Proof.Machine.execCpyX d a b c od ph ctx st s
  | .cpyt d a b st => Sys2Proof.Machine.execCpyt d a b st s
  | .cpytX d a b c od ph ctx tv st => Sys2Proof.Machine.execCpytX d a b c od ph ctx tv st s
  | .cpyg d a b st => Sys2Proof.Machine.execCpyg d a b st s
  | .cpygX d a b c e fmt od ph ctx st => Sys2Proof.Machine.execCpygX d a b c e fmt od ph ctx st s
  | .barge d a b st => Sys2Proof.Machine.execBarge d a b st s
  | .bargeX d a b c od ph st => Sys2Proof.Machine.execBargeX d a b c od ph st s
  | .bargem d a b st => Sys2Proof.Machine.execBargem d a b st s
  | .bargemX d a b c e od ph cl st => Sys2Proof.Machine.execBargemX d a b c e od ph cl st s
  | .send d a st => Sys2Proof.Machine.execSend d a st s
  | .sendX d a ph st => Sys2Proof.Machine.execSendX d a ph st s
  | .sendx d a b st => Sys2Proof.Machine.execSendx d a b st s
  | .sendxX d a b ph st => Sys2Proof.Machine.execSendxX d a b ph st s
  | .msginfo d st => Sys2Proof.Machine.execMsginfo d st s
  | .msginfoX d st => Sys2Proof.Machine.execMsginfoX d st s
  | .aidle st => Sys2Proof.Machine.execAidle st s
  | .aidleX st => Sys2Proof.Machine.execAidleX st s
  | .aerase d a b st => Sys2Proof.Machine.execAerase d a b st s
  | .aeraseX d a b st => Sys2Proof.Machine.execAeraseX d a b st s
  | .migrate d a b st => Sys2Proof.Machine.execMigrate d a b st s
  | .migrateX d a b c st => Sys2Proof.Machine.execMigrateX d a b c st s
  | .balloc d a st => Sys2Proof.Machine.execBalloc d a st s
  | .ballocX d a e loose st => Sys2Proof.Machine.execBallocX d a e loose st s
  | .bfree d a st => Sys2Proof.Machine.execBfree d a st s
  | .bfreeX d a st => Sys2Proof.Machine.execBfreeX d a st s
  | .bshare d a b st => Sys2Proof.Machine.execBshare d a b st s
  | .bshareX d a b loose st => Sys2Proof.Machine.execBshareX d a b loose st s
  | .btrunc d a b st => Sys2Proof.Machine.execBtrunc d a b st s
  | .btruncX d a b st => Sys2Proof.Machine.execBtruncX d a b st s
  | .bquery d a st => Sys2Proof.Machine.execBquery d a st s
  | .bqueryX d a e st => Sys2Proof.Machine.execBqueryX d a e st s
  | .bseqnew d a b st => Sys2Proof.Machine.execBseqnew d a b st s
  | .bseqnewX d a b st => Sys2Proof.Machine.execBseqnewX d a b st s
  | .bseqdrop d a st => Sys2Proof.Machine.execBseqdrop d a st s
  | .bseqdropX d a st => Sys2Proof.Machine.execBseqdropX d a st s
  | .ptx d a b st => Sys2Proof.Machine.execPtx d a b st s
  | .ptxX d a b st => Sys2Proof.Machine.execPtxX d a b st s
  | .ptfill d a b st => Sys2Proof.Machine.execPtfill d a b st s
  | .ptfillX d a b c st => Sys2Proof.Machine.execPtfillX d a b c st s
  | .ptinv a b st => Sys2Proof.Machine.execPtinv a b st s
  | .ptinvX a b st => Sys2Proof.Machine.execPtinvX a b st s
  | .attnq d a st => Sys2Proof.Machine.execAttnq d a st s
  | .attnqX d a od ph st => Sys2Proof.Machine.execAttnqX d a od ph st s
  | .refwait d a st => Sys2Proof.Machine.execRefwait d a st s
  | .refwaitX d a guard st => Sys2Proof.Machine.execRefwaitX d a guard st s
  | .mcst d a b st => Sys2Proof.Machine.execMcst d a b st s
  | .mcstX d a b c od ph st => Sys2Proof.Machine.execMcstX d a b c od ph st s
  | .mcstc d a b st => Sys2Proof.Machine.execMcstc d a b st s
  | .mcstcX d a b c e od ph st => Sys2Proof.Machine.execMcstcX d a b c e od ph st s
  | .mcseq d a st => Sys2Proof.Machine.execMcseq d a st s
  | .mcseqX d a st => Sys2Proof.Machine.execMcseqX d a st s
  | .illegalInstruction word => Sys2Proof.Machine.execIllegalInstruction word s
  | .windowBoundary => Sys2Proof.Machine.execWindowBoundary s
  | .stretchNoticeArrive dev win withdrawn => Sys2Proof.Machine.execStretchNoticeArrive dev win withdrawn s
  | .launchHandleExpire handle => Sys2Proof.Machine.execLaunchHandleExpire handle s
  | .keyZeroiseComplete slot => Sys2Proof.Machine.execKeyZeroiseComplete slot s
  | .syscResult core slot val => Sys2Proof.Machine.execSyscResult core slot val s
  | .cleozInterrupt core => Sys2Proof.Machine.execCleozInterrupt core s
  | .timeDomainLeave => Sys2Proof.Machine.execTimeDomainLeave s
  | .timeDomainRejoin => Sys2Proof.Machine.execTimeDomainRejoin s
  | .ethernetPortEnable phys split => Sys2Proof.Machine.execEthernetPortEnable phys split s
  | .fusedMinimumRaise svn => Sys2Proof.Machine.execFusedMinimumRaise svn s
  | .rootKeyRevoke => Sys2Proof.Machine.execRootKeyRevoke s
  | .corePowerGating core => Sys2Proof.Machine.execCorePowerGating core s
  | .towlineRouteDown port => Sys2Proof.Machine.execTowlineRouteDown port s

end Sys2Proof.Machine
end

