-- ==== Sys2Proof/Machine/Control.lean ====
section
/-! DEFINITION. What happens around an instruction: waits that end, the events that are due, instruction fetch, the
choice of the context that issues, and what Cleoz and the outside world do. `Step.lean` puts these together. -/

namespace Sys2Proof.Machine

/-! ## Waits (R7) -/

/-- Is an accepted command of this number still in the queue or running? -/
def State.unaccepted (s : State) (core ctr num : Nat) : Bool :=
  ((s.core core).engCmds ctr).any fun q => q.num == num && !q.accepted

/-- Is there an item of a launch for a core, or no chunk to wait for (R26)? -/
def State.itemReady (s : State) (core vf h : Nat) : Bool :=
  match s.running? vf h with
  | none => true
  | some l =>
    let core := s.queueCore core l
    let cl := clusterOf core
    !(l.gang && (s.cluster cl).gangDue.isSome) && ((l.gang && (s.gangCores core).isEmpty) || (popRun h (s.core core).workq).isSome ||
      (match s.nextSteal core h (s.stealSet core l) with
       | some _ => decide ((s.core core).workq.length < 16)
       | none => !(l.unassigned cl) && !(s.stealsLater core h)))

/-- Is a wait over? (DESIGN CHOICE, log entry 24). -/
def State.waitOver (s : State) (id : Nat) (w : Wait) : Bool :=
  let core := coreOf id
  match w with
  | .regs rs => !(rs.any (s.awaited id))
  | .access n => !(s.flights.any fun f => f.id == n && (!f.performed || f.op.held (f.dst.map (BitVec.ofNat 6))))
  | .acks => s.fenceMet id .acks
  | .fence => s.fenceMet id .fence
  | .fenceLocal => s.fenceMet id .fenceLocal
  | .engine ctr => decide (((s.core core).queues.get ctr []).length < 2) && (s.core core).engTook.find? ctr != some s.cycle
  | .vector => decide ((s.core core).vqueue.length < 2)
  | .busy => !(s.busy id)
  | .timeline ctr n => decide (n ≤ (s.timeline core ctr).toNat)
  | .join num l => expired (some (.join num l)) || (s.endRec? core num).isSome || (s.outOf core num).isNone
  | .joinAny l =>
    expired (some (.joinAny l)) || !(s.hasChildren id) ||
      (s.core core).ends.any (EndRec.isFor (s.vfOf id) id)
  | .launch h => !(s.launches.any fun l => l.handle == h && l.vf == s.vfOf id && l.st != .ended)
  | .item h => s.itemReady core (s.vfOf id) h
  | .turn _ => true
  | .room k => decide ((s.core k).workq.length < 16)
  | .service _ _ => false
  | .idle => (s.core core).idleMark
  | .acquire => !((s.ctx id).acquiring)
  | .result => !((s.ctx id).pend.any (·.dst == some 0))
  | .merged => !(s.unmerged id)
  | .quiet p n => s.quietSince (s.vfOf id) p n
  | .barrier => s.released id || (s.core core).mmag.isNone
  | .refresh t => decide (t ≤ s.ptp)
  | .route dev | .fetch dev => (s.routeTo dev).isSome
  | .accept ctr n => !(s.unaccepted core ctr n)
  | .plane slice => (s.slice slice).stoppedAt.isNone
  | .sluice g n => !((s.group g).waiting.any (·.id == n)) &&
      !((s.group g).history.any fun p => p.2.id == n && decide ((s.group g).applied < p.1))
  | .gangFree => s.gangFree core
  | .engineEmpty ctr => s.engineIdle core ctr && (ctr != 7 || s.requestsGone core s.nextId)
  | .stamp g n => !((s.group g).waiting.any (·.id == n))
  | .fault => false

/-- Waits of an instruction that is done otherwise: their end lets the next instruction go. -/
def Wait.after : Wait → Bool
  | .access _ | .accept _ _ | .timeline _ _ | .sluice _ _ | .stamp _ _ | .busy | .result => true
  | _ => false

/-- Ends such a wait; a wait for a timeline counter acquires (R100, R299). -/
def State.wake (s : State) (p : Nat × Ctx) : State :=
  match p.2.wait with
  | some w =>
    if w.after && s.waitOver p.1 w then
      (match w with
       | .timeline ctr n => s.acquireTo (coreOf p.1) ctr n
       | _ => s).modCtx p.1 fun c => { c with wait := none }
    else s
  | none => s

/-- The block engines and the mooring slices answer what a context has asked of them and not got yet (R310, R312). -/
def State.answerPends (s : State) (ctx : Nat) : State :=
  (s.ctx ctx).pend.foldl (fun s p => (s.answerBlock ctx p).answerErase ctx p) s

/-- What follows from what is under way without a choice: items settle, sets are released, results arrive, waits end. (DEDUCED, log entry 52.) -/
def State.settled (s : State) : State :=
  let s := (s.settle.releaseSets.letAll).withdrawNotices
  let s := (s.clusters.map (·.1)).foldl State.applyGangs s
  let s := if s.sliceBusy then { s with idleFrom := s.ptp } else s
  let s := s.cores.foldl (fun s (p : Nat × CoreSt) => p.2.asked.foldl (fun s a => s.answerAsked p.1 a) s) s
  let s := (s.ctxs.map (·.1)).foldl (fun s id => (s.advancePends id).answerPends id) s
  s.ctxs.foldl State.wake s

/-! ## Readiness (R7) -/

/-- Is the context ready, but for a turn that it waits for? A helper that is about to migrate issues no more (R31). While a slice
switch stops the machine only a context that a barrier has let go does. (DEDUCED, log entry 55.) -/
def State.couldIssue (s : State) (id : Nat) : Bool :=
  match s.ctxs.find? id with
  | none => false
  | some c =>
    s.boot.stage == 3 && c.life == .live && decide (c.nextIssue ≤ s.cycle) && ((!s.switching && c.migrates.isNone) || s.released id) &&
      (match c.wait with
       | none => true
       | some w => s.waitOver id w)

/-- Does a context wait for a turn (R28)? -/
def State.waitsTurn (s : State) (id : Nat) : Option Nat :=
  match (s.ctx id).wait with
  | some (.turn v) => some v
  | _ => none

/-- Has a core had its turn in this cycle: it has issued, or cannot (R28)? Contexts that wait for another core's turn do not count. -/
def State.hadTurn (s : State) (core : Nat) : Bool :=
  (s.core core).issuedAt == some s.cycle || decide ((s.cluster (clusterOf core)).duty ≤ s.cycle % 8) ||
    !((List.range 11).any fun i => s.couldIssue (ctxId core i) && (s.waitsTurn (ctxId core i)).isNone)

/-- Is the context ready? (DEDUCED, log entry 55). -/
def State.isReady (s : State) (id : Nat) : Bool :=
  s.couldIssue id && (match s.waitsTurn id with
    | some v => s.hadTurn v
    | none => true)

/-- A core's choice among its ready contexts: round robin, after the slot that issued last; none in a cycle in which it
has issued (R7), or which its cluster's duty of so many eighths leaves out (R388): the last ones of every eight (DESIGN CHOICE, log entry
51). -/
def State.nextOn (s : State) (core : Nat) : Option Nat :=
  let c := s.core core
  if c.issuedAt = some s.cycle ∨ (s.cluster (clusterOf core)).duty ≤ s.cycle % 8 then none
  else ((List.range 11).map fun i => ctxId core ((c.lastSlot + 1 + i) % 11)).find? s.isReady

/-- May the context issue now? (DESIGN CHOICE, log entry 5). -/
def State.mayIssue (s : State) (id : Nat) : Bool := s.nextOn (coreOf id) == some id

/-- The context that issues next: within a cycle the cores take their turns in the order of the list. (DESIGN CHOICE, log entry 5.) -/
def State.nextReady (s : State) : Option Nat := (s.ctxs.map (·.1)).find? s.mayIssue

/-! ## Time -/

/-- `n` core cycles pass, at 1.9 cycles a nanosecond, or 1.5 in the efficiency mode (R393); PTPTIME is slewed by at most 100
parts per million (R379). (DESIGN CHOICE, log entry 6.) -/
def State.slewed (s : State) (n : Nat) (slew : Int) : State :=
  let f := s.ptpFrac + n * (100000 + max (-10) (min 10 slew)).toNat * (if s.powerMode = 1 then 19 else 15)
  { s with cycle := s.cycle + n, ptp := s.ptp + f / 2850000, ptpFrac := f % 2850000 }

/-- (DESIGN CHOICE, log entry 6.) -/
def State.advance (s : State) (n : Nat) : State := s.slewed n 0

/-- Cycles until something may happen when nothing can now: the next one when a core has issued in this one or a cluster is throttled, else those
to the next context that a stall holds, else 10 ns. (DESIGN CHOICE, log entry 6.) -/
def State.idleCycles (s : State) : Nat :=
  let held := s.ctxs.filterMap fun (p : Nat × Ctx) =>
    if p.2.life = .live ∧ p.2.wait = none ∧ s.cycle < p.2.nextIssue then some (p.2.nextIssue - s.cycle) else none
  if (s.cores.any fun (p : Nat × CoreSt) => p.2.issuedAt == some s.cycle) || s.clusters.any fun (p : Nat × Cluster) => decide (p.2.duty < 8) then 1 else max 1 (held.foldl min 19)

/-! ## Fetch (R144) -/

/-- What a fetch stops at. -/
inductive FetchStop where
  | trap (c : Cause)
  | page (f : FaultInfo)
  | route (dev : Nat)
  deriving DecidableEq, Repr

/-- One instruction word. A word of another module comes over Towline (R73), once: an instruction that waits has been fetched. (DEDUCED,
log entry 53.) (DEDUCED, log entry 20). -/
def State.fetchWord (s : State) (a : Nat) : State × Except FetchStop W32 :=
  match placeOf a with
  | .translated =>
    match s.translate s.myCore (s.vfOf s.cur) s.me.asid s.me.privileged a accFetch with
    | (s, .ok x) =>
      if x.remote = true ∧ s.routeTo (keyDev x.key) = none ∧ (s.me.wait.any fun w => !w.unissued) = false then (s, .error (.route (keyDev x.key)))
      else if s.isPoisoned x.key then (s, .error (.trap (0x0C, BitVec.ofNat 64 a))) else (s, .ok (BitVec.ofNat 32 (s.read x.key 4)))
    | (s, .error f) => (s, .error (.page f))
  | _ => (s, .error (.trap (0x05, BitVec.ofNat 64 a)))

/-- Words at some addresses; the first fault stops. -/
def fetchList : List Nat → State → State × Except FetchStop (List W32)
  | [], s => (s, .ok [])
  | a :: l, s =>
    match s.fetchWord a with
    | (s, .error e) => (s, .error e)
    | (s, .ok w) =>
      match fetchList l s with
      | (s, .error e) => (s, .error e)
      | (s, .ok ws) => (s, .ok (w :: ws))

/-- A fetch that fails traps (R144), or waits for its route. (DEDUCED, log entry 53.) -/
def State.fetchTrap (s : State) (e : FetchStop) : State :=
  match e with
  | .trap (c, v) => s.trap c v
  | .page f => s.pageTrap f
  | .route dev => s.hold (.fetch dev)

/-- The words of the instruction at the issuing context's program counter, as many as LEN of its first word says, before any is decoded: of
a word of an illegal major or function a fault of a further word comes first, where the manual gives no order (DESIGN CHOICE, log entry
62). (DEDUCED, log entry 53.) -/
def State.fetch (s : State) : State × Except FetchStop (List W32) :=
  let at_ (i : Nat) : Nat := (s.me.pc + BitVec.ofNat 64 (4 * i)).toNat
  match s.fetchWord (at_ 0) with
  | (s, .error e) => (s, .error e)
  | (s, .ok w) =>
    match fetchList ((List.range (wordsOf (w.extractLsb' 0 2) - 1)).map fun i => at_ (i + 1)) s with
    | (s, .error e) => (s, .error e)
    | (s, .ok ws) => (s, .ok (w :: ws))

/-! ## Issue -/

/-- The context `id` has its core in this cycle. -/
def State.beginIssue (s : State) (id : Nat) : State :=
  ({ s with cur := id, word0 := 0 } : State).modCore (coreOf id) fun c => { c with gated := false }

/-- The core has issued in this cycle, unless the instruction is held before its issue. -/
def State.took (s : State) (id : Nat) : State :=
  if (s.ctx id).wait.any Wait.unissued then s
  else s.modCore (coreOf id) fun c => { c with lastSlot := slotOf id, issuedAt := some s.cycle }

/-- The words that were fetched, run: TVAL of an illegal instruction is word 0. (DESIGN CHOICE, log entry 58.) -/
noncomputable def State.runWords (s : State) (ws : List W32) : Result :=
  let s := { s with word0 := ws.headD 0 }
  match decodeWords ws with
  | .ok (i, _) => exec i s
  | .error _ => exec (.illegalInstruction s.word0) s

/-- The issuing context runs one instruction, or takes the trap that is due at its boundary (R12). -/
noncomputable def State.runOne (s : State) : Result :=
  match s.me.dueTrap with
  | some (cause, v) => .next ((s.modMe fun c => { c with dueTrap := none }).trap cause v)
  | none =>
    match s.fetch with
    | (s, .error e) => .next (s.fetchTrap e)
    | (s, .ok ws) => s.runWords ws

/-- The context `id` issues: one instruction runs, and its core's turn in this cycle is over. -/
noncomputable def State.issueTurn (s : State) (id : Nat) : Result :=
  match (s.beginIssue id).runOne with
  | .next t => .next (t.took id)
  | r => r

/-! ## Events that are due (DESIGN CHOICE, log entry 5) -/

/-- (DESIGN CHOICE, log entry 4.) -/
def State.dueBoot (s : State) : Option Instr :=
  match s.boot.stage with
  | 0 => some .bootRomVerify
  | 1 => some .firstStageBoot
  | 2 => some (if s.boot.loaded then .computeRelease else .cleozLoading)
  | _ => none

def State.dueFlight (s : State) (f : Flight) : Option Instr :=
  if f.performed then some (.storeAck f.id)
  else if s.mayArrive f then some (if f.refused = 0 then .homeAccess f.id else .backoffReissue f.id)
  else if f.abandoned && ((s.ctx f.ctx).k 8 != 0) && decide (f.since + ((s.ctx f.ctx).k 8).toNat ≤ s.cycle) then some (.tagWaitTimeout f.id)
  else none

/-- Has the limit of the wait of a context passed? -/
def State.limitPassed (s : State) (id : Nat) (c : Ctx) : Option Instr :=
  match c.wait with
  | some (.join _ (some t)) | some (.joinAny (some t)) =>
    if t ≠ 0 ∧ t ≤ s.cycle then some (.joinLimitExpire (coreOf id) (slotOf id)) else none
  | _ =>
    if c.k 8 ≠ 0 ∧ ((s.lateArrival c (c.k 8).toNat).isSome = true ∨ s.lateAtMmag id (c.k 8).toNat = true) then
      some (.barrierWaitTimeout (coreOf id) (slotOf id))
    else none

def State.dueCtx (s : State) (p : Nat × Ctx) : Option Instr :=
  let (id, c) := p
  let core := coreOf id
  let slot := slotOf id
  match c.life with
  | .starting =>
    if s.mayLive id && (s.windowFits id || decide ((s.raiseYield (clusterOf core)).ctxs ≠ s.ctxs)) then some (.helperLive core slot) else none
  | .closing => if s.mayEnd id then some (.helperCloseEnd core slot) else none
  | .live =>
    if s.maySave id then some (.faultSave core slot)
    else match c.migrates with
      | some h =>
        if c.window ≠ 0 ∨ s.engineBusy id = true ∨ s.migTarget c h = none ∨ (s.saveable id = true ∧ (s.flights.any (·.ctx == id)) = false) then
          some (.migration core slot)
        else s.limitPassed id c
      | none => s.limitPassed id c

/-- An engine context that can complete, read on beside a bank under refresh, fault or take. A command behind a running one is taken
by choice only: the default lets the running one complete first. -/
def State.dueEngine (s : State) (core ctr : Nat) : Option Instr :=
  match s.engNow core ctr, (s.core core).stopped.find? ctr with
  | none, _ => if s.engReady core ctr then some (.engineCommandTake core ctr) else none
  | some _, some _ => none
  | some q, none =>
    let fault : Option Instr := match s.attempt core ctr q with
      | .stop (.fault _) => if s.recordRoom (clusterOf core) (ringOf q.asid) then some (.engineFault core ctr) else none
      | _ => none
    let reads (k : Nat) : Bool := match s.engNow k ctr with
      | some q => (s.opRefresh k ctr q).any fun ps => ps.any fun p => (wordsIn p.1 p.2).any fun w => !(s.bankBusy w) && !(q.hasRead w)
      | none => false
    if (if q.op.isMmag then (jointStep (q.members core) s).isSome || (q.members core).any reads
        else (finishOp core ctr q (s.attempt core ctr q)).isSome || reads core) then some (.engineOpComplete core ctr)
    else fault

def State.dueCore (s : State) (p : Nat × CoreSt) : Option Instr :=
  let (core, c) := p
  let vec : Option Instr := match c.vrunning.find? fun q => s.vdone q with
    | some q => some (.vectorCommandDone core (slotOf q.ctx))
    | none => if s.poolNext (clusterOf core) = some core then some (.vectorCommandStart core) else none
  (vec.or ((List.range 8).findSome? fun ctr =>
    if (c.engCmds ctr).isEmpty then none else s.dueEngine core ctr)).or
  (if s.wantsSpace core && (s.oldestIdle core).isSome &&
      !(s.moors.any fun m => (m.reserved || m.st == .unmooring) && m.berth.map (·.1) == some core) then some (.layupRequest core) else none)

def State.dueCluster (s : State) (p : Nat × Cluster) : Option Instr :=
  let (cl, c) := p
  if c.dsplit.isSome && !(s.itemsOn cl) then some (.splitChange cl)
  else if c.withdraw && c.held.isNone then some (.serveWithdraw cl)
  else match c.overflow, c.held with
    | r :: l, _ => if (r :: l).any fun r => s.ringRoom r.ring then some (.faultRecordDrain cl) else none
    | [], some (h, _) => (s.launch? h).bind fun l => if s.wantsChunk cl l then some (.chunkRequest cl h) else none
    | [], none => none

noncomputable def State.dueLaunch (s : State) (l : Launch) : Option Instr :=
  if l.st = .ended then
    if l.endedAt + 1000000 < s.ptp ∧ (s.launches.any fun c => c.mode != 0 && c.producer == l.handle && c.st != .ended) = false then
      some (.launchHandleExpire l.handle)
    else none
  else if l.st = .queued ∧ s.depMet l = true then some (.launchReady l.handle)
  else if l.st = .queued ∧ s.depFails l = true then some (.launchDependenceFail l.handle)
  else if s.wanted l < l.eff then some (.priorityWithdraw l.handle)
  else if ((s.chain 8 l).any fun h => (s.launch? h).any fun p => decide (p.eff < l.prio)) then some (.priorityRaise l.handle)
  else match List.find? (fun (p : Nat × Nat) => l.completes p.1 && decide (p.1 < l.groups l.clevel) && s.bitReached l p.1) l.finished with
    | some p => some (.groupComplete l.handle p.1)
    | none => if s.isDrained l then some (.launchEnd l.handle) else none

/-- Does a chunk request wait for a decision that replay has not recorded (R423)? -/
def State.chunkStalls (s : State) (die : Nat) : Bool :=
  match execChunkGrant die s with
  | .next t => decide ((t.die die).requests = (s.die die).requests)
  | _ => true

def State.dueDie (s : State) (die : Nat) : Option Instr :=
  let d := s.die die
  if d.bankFrom + 1500 ≤ s.ptp then some (.refreshAdvance die)
  else if s.regBits schBase (8 + die) (8 + die) = 1 ∧ d.loading = false ∧ s.readsWeight die d.loadMark = false then some (.wsLoadingEnter die)
  else if s.regBits schBase (8 + die) (8 + die) = 0 ∧ d.loading = true ∧ s.writesWeight die = false then some (.wsLoadingLeave die)
  else if s.launches.isEmpty || s.switching then none
  else if d.requests ≠ [] ∧ s.chunkStalls die = false then some (.chunkGrant die)
  else if (winner (s.waitingLaunches.filter fun l => (s.grantable die l).isSome)).isSome then some (.placementGrant die)
  else match s.preempt? die with
    | some (_, p) => if s.setReady p.clusters then some (.preemption die) else none
    | none => none

def State.dueMoor (s : State) (m : Moor) : Option Instr :=
  let held := match s.class? m.cls with
    | some r => if s.dirHeld r.dir then m.held.isSome else !(s.dirTurn r.dir m.held)
    | none => true
  let here := (s.class? m.cls).any fun r => s.stateHere r m
  let fits := m.berth.isSome || m.chosen.any fun c => !(s.freeOffsets c (runLen m.size) (s.runsOn c)).isEmpty
  if m.reserved then some (.unmoorOrder m.cls m.key)
  else if m.st = .mooring ∧ held = false ∧ fits = true ∧ here = true then some (.mooringComplete m.cls m.key)
  else if m.st = .unmooring ∧ held = false ∧ m.berth.isSome = true then some (.unmoorComplete m.cls m.key)
  else if m.busy && m.handled.isSome && m.berth.isSome && !(s.handling m) then some (.mailboxSlotFreed m.cls m.key)
  else if m.st = .shifting ∧ m.busy = false ∧ m.berth.isSome = true ∧ m.target.isSome = true then some (.shiftComplete m.cls m.key)
  else match s.class? m.cls with
    | some r =>
      if m.st = .moored ∧ m.busy = false ∧ m.mailbox = [] ∧ m.chamber = [] ∧ m.eligible = none ∧ r.idle ≠ 0 ∧ m.lastBusy + 1000 * r.idle.toNat ≤ s.ptp then
        some (.idleLimitExpire m.cls m.key)
      else none
    | none => none

def State.dueSlice (s : State) (p : Nat × Slice) : Option Instr :=
  match p.2.input with
  | [] => none
  | m :: _ =>
    if p.2.stoppedAt.isNone || (s.classFor m.vf m.cls).isNone || s.hasPlace p.1 m then some (.messageArrive p.1)
    else match p.2.stoppedAt with
      | some t => if t + 100000 ≤ s.ptp ∧ s.interrupts.contains (.sliceInput p.1) = false then some (.sliceInputStallAlert p.1) else none
      | none => none

/-- Sluice groups that have a state or a command. -/
def State.groupsHere (s : State) : List Nat :=
  s.groups.map (·.1) ++ (s.admin.filter fun (p : Nat × W64) => decide (sluiceBase 0 ≤ p.1 ∧ p.1 < sluiceBase 256)).map fun (p : Nat × W64) => (p.1 - sluiceBase 0) / 64

def State.dueGroup (s : State) (g : Nat) : Option Instr :=
  let t := s.group g
  let st := s.grpState g
  match s.grpGoing g with
  | 4 => some (.groupDelete g)
  | 1 => if s.regBits (sluiceBase g) 0 0 = 1 then some (.groupActivate g) else none
  | n =>
    if t.applied < t.stamped ∧ (st = 1 ∨ st = 3) then some (.sluiceApply g)
    else if n = 2 ∧ t.applied = t.stamped then some (.groupReconfigure g)
    else if n = 3 ∧ st = 2 then some (.groupResynchronise g)
    else if n ≠ 2 ∧ st = 1 ∧ t.open_ = true ∧ (s.nextStamp g).isSome = true then some (.sluiceStamp g)
    else none

def State.dueClass (s : State) : Option Instr :=
  let cls := s.regBits clscmd 15 0
  if s.clsGoing 1 cls then some (.classRegister cls)
  else (s.classes.find? fun c => c.leaving && !(s.moors.any (·.cls == c.num)) && !(s.images.any fun x => x.moors.any (·.cls == c.num))).map
    fun c => .classWithdrawDone c.num

def State.dueBlock (s : State) (p : Nat × Stack) : Option Instr :=
  (List.find? (fun (b : Nat × Block) => b.2.rinsing && !b.2.retired && s.drained b.2) p.2.blocks).map fun b =>
    .blockRinse p.1 (b.1 / 2 ^ 40) (b.1 % 2 ^ 40) 0

/-- Is a one-entry or longer quantum table due for a change (R389)? (DEDUCED, log entry 47). -/
def State.quantumDue (s : State) : Bool :=
  match s.quanta with
  | [] => false
  | [p] => s.noVf || (bitsOf p.2 4 0 != s.resident && decide (s.sliceFrom + 1000 * max 5000 (bitsOf s.sliceWord 39 8) ≤ s.ptp))
  | _ => s.noVf || decide (s.sliceFrom + 1000 * max 5000 (bitsOf s.sliceWord 39 8) ≤ s.ptp)

/-- A stretch window of which a notice is due (R112). -/
def State.dueWindow (s : State) : Option Nat :=
  s.ownWindows.find? fun w => decide ((w + 1) * s.winLen + s.winLen / 2 ≤ s.ptp) && !(s.notices.contains (s.device, w))

noncomputable def State.dueModule (s : State) : Option Instr :=
  if s.dueWindow.isSome then s.dueWindow.map .stretchNotice
  else if s.inDomain = true ∧ s.inLimits = false then some .timeDomainLeave
  else if s.inDomain = false ∧ s.inLimits = true then some .timeDomainRejoin
  else if s.switching then (if s.maySwitch then some .sliceSwitch else none)
  else if s.quantumDue then some .quantumExpire
  else if 2 ≤ s.quanta.length ∧ bitsOf s.sliceWord 5 5 = 1 ∧ s.sliceBusy = false ∧ s.idleFrom + 100000 ≤ s.ptp then some .earlySliceEnd
  else if s.regBits sdctl 63 63 = 1 ∧ s.sdBegun = false then some .shootdown
  else if s.regBits sdctl 63 63 = 1 ∧ s.sdQuiet = true then some .shootdownDone
  else if s.windowLog ≠ s.regBits schBase 2 1 ∧ s.winAsked < s.winNum then some .windowBoundary
  else if s.powerMode ≠ s.regBits schBase 0 0 then some .powerModeChange
  else if s.sweepAt + (if s.ctxs.any fun p => (match p.2.wait with
      | some (.quiet _ _) => true
      | _ => false) then 1000 else 100000) ≤ s.ptp then some .quietSweep
  else (List.find? (fun (p : Nat × Nat) => p.2 == 2) s.keys).map fun p => .keyZeroiseComplete p.1

/-- What happens when nothing is due and no context can issue: time passes. (DESIGN CHOICE, log entry 5.) -/
def State.quietly (s : State) : State := s.advance s.idleCycles

/-- The event that happens next by itself, if one is due. (DESIGN CHOICE, log entry 5.) (DESIGN CHOICE, log entry 58). -/
noncomputable def State.due (s : State) : Option Instr :=
  if s.boot.stage ≠ 3 then s.dueBoot
  else
    (s.flights.findSome? s.dueFlight).or <| (s.cores.findSome? s.dueCore).or <| (s.ctxs.findSome? s.dueCtx).or <|
    (s.slices.findSome? s.dueSlice).or <| (s.moors.findSome? s.dueMoor).or <| (s.groupsHere.findSome? s.dueGroup).or <|
    (s.hbm.findSome? s.dueBlock).or <| s.dueClass.or <| (s.launches.findSome? s.dueLaunch).or <|
    (s.clusters.findSome? s.dueCluster).or <| ((List.range 4).findSome? s.dueDie).or <|
    ((s.saved.find? fun f => !s.switching && (s.savedGang f).all s.mayPlace).map fun f => .helperRestore f.frame).or s.dueModule

/-! ## Cleoz and the outside world (log entries 4, 5, 17) -/

/-- Cleoz installs a program of the resident virtual function on a core that has none (R8, R371). (DESIGN CHOICE, log entry 4.) -/
def State.install (s : State) (core : Nat) (entry : W64) (asid : Nat) (priv : Bool) : State :=
  if s.boot.stage ≠ 3 ∨ s.noVf = true ∨ entry.toNat % 4 ≠ 0 ∨ (s.ctxs.find? (ctxId core 0)).isSome = true ∨ 4096 ≤ core then s
  else
    (s.modCore core fun c => { c with vfid := s.resident }).setCtx (ctxId core 0)
      { Ctx.reset with pc := entry, asid := asid % 65536, priv := priv, placed := clustersOf (dieOf core), nextIssue := s.cycle }

/-- A system core stores bytes, at their home; lines that clusters hold dirty stay (R66, R67). (DESIGN CHOICE, log entry 60.) -/
def State.sysStore (s : State) (k : Nat) (bs : List Byte) : State :=
  if s.present k bs.length = false ∨ s.boot.running = false then s else
  (s.writeBytes k bs).clearPoison k bs.length

/-- AMOSWAP.D of a system core, which the I/O die performs at the home (R400): the old value goes to the system core. (DESIGN CHOICE, log entry 60.) -/
def State.sysSwap (s : State) (k : Nat) (v : W64) : State :=
  if s.present k 8 = false ∨ k % 8 ≠ 0 ∨ s.boot.running = false then s
  else
    let s := s.recall k
    ({ s with sysOld := s.read64 k } : State).sysStore k (natBytes v.toNat 8)

/-- A walker for an access of a context that writes has set A in its leaf and not D yet (R399). -/
def State.walkA (s : State) (ctx va : Nat) : State :=
  match s.walk (s.vfOf ctx) (s.ctx ctx).asid va with
  | .leaf pte _ _ =>
    if (s.ctxs.find? ctx).isSome && leafAllows pte accStore (s.ctx ctx).privileged then
      (s.walked (s.vfOf ctx) (s.ctx ctx).asid va accLoad (s.ctx ctx).privileged).1
    else s
  | .stop _ _ _ => s

/-- An access of another module to a word of this one or of its own memory (R73): it waits for its tag, or backs off, as any
other, but it is that module's traffic (R107) and belongs to no context here. (DESIGN CHOICE, log entry 15.) -/
def State.foreignAccess (s : State) (op : MemOp) (k size : Nat) (x y : W64) (sync scope : Nat) : State :=
  if s.boot.stage ≠ 3 ∨ s.present k size = false ∨ k % size ≠ 0 then s
  else
    { s with nextId := s.nextId + 1,
             flights := s.flights ++ [{ id := s.nextId, ctx := 65536 + s.nextId, hnum := 2 ^ 32, pc := 0, op := op, va := BitVec.ofNat 64 k, key := k, size := size,
                                        sext := false, dst := none, dst2 := none, x := x, y := y, sync := sync, scope := max 2 scope, order := 0,
                                        counted := true, cached := false, alias_ := false, remote := false, vf := 32, phase := 0,
                                        window := s.winNum, issued := s.cycle, performed := false, waiting := none, refused := 0,
                                        backoff := 0, since := s.cycle, until_ := 0 }] }

/-- A message sent to another module that may be the next to leave the traffic: of those that one context has sent to one actor there,
the first (R52, R55). -/
def State.awayNext (s : State) (n : Nat) : Option Msg :=
  let same (x y : Nat × Nat × Msg) : Bool := x.2.1 == y.2.1 && x.2.2.vf == y.2.2.vf && x.2.2.srcCtx == y.2.2.srcCtx && x.2.2.cls == y.2.2.cls && x.2.2.key == y.2.2.key
  match s.towOut[n]? with
  | some x => if (s.towOut.take n).any (same x) then none else some x.2.2
  | none => none
def State.leftAway (s : State) (n : Nat) : State := { s with towOut := s.towOut.eraseIdx n }

/-- Another module has handled a message. -/
def State.handledAway (s : State) (n : Nat) : State := if (s.awayNext n).isSome then s.leftAway n else s
/-- Another module has dropped a message, whose class is not registered there: it counts in the sending cluster (R36). (DEDUCED, log entry 40.) -/
def State.droppedAway (s : State) (n : Nat) : State :=
  match s.awayNext n with
  | some m => (s.leftAway n).modCluster (clusterOf (coreOf m.srcCtx)) fun c => { c with refused := c.refused + 1 }
  | none => s

/-- Is a choice an act of Cleoz, or traffic of ports that it trains (R372)? (DESIGN CHOICE, log entry 4). -/
def Choice.needsCleoz : Choice → Bool
  | .udpPort _ _ | .accept _ _ _ | .queuePair _ | .shift _ _ _ _ | .regions _ _ | .digest _ _ | .remoteStore _ _ | .groupOpen _ => true
  | _ => false

/-- What happens at a choice. Instructions take place only by issue. (DESIGN CHOICE, log entry 5.) (DESIGN CHOICE, log entry 6). (DESIGN CHOICE, log entry 60.) -/
def State.choose (s : State) (c : Choice) (run : State → Nat → Result) : Result :=
  if (s.boot.tripped = true ∧ c ≠ .event .i3cReset) ∨ (c.needsCleoz = true ∧ s.cleozRuns = false) then .next s
  else match c with
  | .event i => if (encodeRaw i).isSome then .next s
    else match i with
      | .illegalInstruction _ => .next s
      | _ => exec i s
  | .issue id => if s.mayIssue id then run s id else .next s
  | .elapse n slew => .next (if s.nextReady.isSome then s else s.slewed (min n s.idleCycles) slew)
  | .install core entry asid priv => .next (s.install core entry asid priv)
  | .stop core => .next (if core < 4096 ∧ s.saveable (ctxId core 0) = true then s.vacate (ctxId core 0) else s)
  | .store k bs => .next (s.sysStore k bs)
  | .swap k v => .next (s.sysSwap k v)
  | .attestKey key => .next (if s.boot.attKey = [] then { s with boot := { s.boot with attKey := key } } else s)
  | .walkA ctx va => .next (s.walkA ctx va)
  | .corrected source unit => .next (if unit < sourceUnits source then s.corrected source unit else s)
  | .groupMove g => .next (s.groupMove g)
  | .udpPort vf port =>
    if [4791, 319, 320].contains port || s.udpPorts.any (fun (p : Nat × Nat) => p.2 == port && p.1 != vf) || decide (65536 ≤ port) || decide (32 ≤ vf) then .next s
    else .next { s with udpPorts := s.udpPorts.put vf port }
  | .accept port v4 v6 => .next (if 4 ≤ port then s else s.modEth port fun e => { e with ipv4 := v4, ipv6 := v6 })
  | .queuePair q => if 32 ≤ q.vf ∨ q.mtu < 1024 ∨ 4096 < q.mtu then .next s else .next { s with queuePairs := s.queuePairs.filter (·.num ≠ q.num) ++ [q] }
  | .flash a b c => .next { s with boot := { s.boot with images := [a, b], cleoz := c } }
  | .program slot d =>
    let put (k : KeySlot) : KeySlot := if k.digest.isNone then { k with digest := some d } else k
    .next { s with boot := { s.boot with slots := s.boot.slots.modify slot put } }
  | .sign report sig => .next (s.sign report sig)
  | .clock offset latency => .next { s with offset := offset, latency := latency }
  | .member dev inside => if 1024 ≤ dev then .next s else .next { s with apart := if inside then s.apart.filter (· ≠ dev) else if s.apart.contains dev then s.apart else s.apart ++ [dev] }
  | .refuse id => .next (s.refuseRemote id)
  | .remoteStore g x => if 256 ≤ g then .next s else .next (s.modGroup g fun t => { t with waiting := t.waiting ++ [{ x with ctx := 65536 }] })
  | .groupOpen g => if 256 ≤ g then .next s else .next (s.modGroup g fun t => { t with open_ := true })
  | .delivered n => .next (s.handledAway n)
  | .dropped n => .next (s.droppedAway n)
  | .engRead core ctr ahead ws => .next (s.engRead core ctr ahead ws)
  | .engWrite core ctr ahead ws => .next (s.engWrite core ctr ahead ws)
  | .remoteAccess op k n x y sync sc => .next (s.foreignAccess op k n x y sync sc)
  | .shift vf cls key core => .next (s.orderShift vf cls key core).1
  | .regions h l =>
    match s.launch? h with
    | some x => .next (s.setLaunch { x with regions := l })
    | none => .next s
  | .digest k n =>
    .next (s.journalAdd 6 0 s.resident (BitVec.ofNat 64 k :: BitVec.ofNat 64 n :: digestWords (memBytes s.mem k n) 2))

/-! ## Placing one instruction before the program counter -/

/-- A leaf for 16 GiB from address 0 up: V, LEAF, R, W, X, A, D (R397). -/
def plainLeaf : W64 := 0xDF

/-- Tables of address space 0: the ASID table at 0x10000, the root node at 0x20000, a level-2 node at 0x30000. -/
def plainTables : List (Nat × W64) :=
  [(0x10000, 0x20001), (0x20000, 0x30001), (0x30000, plainLeaf)]

/-- The released machine in which the control context of core 0 issues next, its instruction's bytes at 0x40000,
an address that translates to itself. (DESIGN CHOICE, log entry 4.) -/
def State.placed (s : State) (bytes : List Byte) : State :=
  let s := { s with boot := { s.boot with stage := 3 }, noVf := false, agenda := [.issue 0] }
  let s := (s.setReg tffBase 0x10000).setReg (tffBase + 8) 1
  let s := plainTables.foldl (fun s p => s.write64 p.1 p.2) s
  let s := (s.modCore 0 fun c => { c with vfid := 0, itlb := [], lastSlot := 10, issuedAt := none }).modCluster 0 fun c => { c with tlb := [], duty := 8 }
  let s := s.modCtx 0 fun c =>
    { c with life := .live, form := .control, pc := 0x40000, asid := 0, wait := none, nextIssue := 0, dueTrap := none, placed := clustersOf 0 }
  (s.writeBytes 0x40000 bytes).clearPoison 0x40000 20

end Sys2Proof.Machine
end

