-- ==== Sys2Proof/Machine/Step.lean ====
section
/-! DEFINITION. One step of the machine, and the placing of one instruction where a step fetches it. -/

namespace Sys2Proof.Machine

/-- What happens when nothing is chosen: an event that is due, else the next ready context issues, else time passes. (DESIGN CHOICE, log entry 5.) -/
noncomputable def State.default (s : State) : Result :=
  match s.due with
  | some i => exec i s
  | none =>
    match s.nextReady with
    | some id => s.issueTurn id
    | none => .next s.quietly

/-- One step: the choice at the head of the agenda, or the default. (DESIGN CHOICE, log entry 5.) (DESIGN CHOICE, log entry 58). -/
noncomputable def step (s : State) : Host.Outcome State Fault Refusal :=
  let s := s.settled
  match s.agenda with
  | c :: rest => ({ s with agenda := rest } : State).choose c State.issueTurn
  | [] => s.default

/-- `s` with the instruction whose bits are `w` as the one that the next step issues. (DESIGN CHOICE, log entry 4.) -/
def State.withFetchWord (s : State) (nbits w : Nat) : State := s.placed (tableBytes nbits w)

end Sys2Proof.Machine
end

