-- ==== Sys2Proof/Safety.lean ====
section
/-! DEFINITION. What a safe run is, and the terms in which statements say what an instruction changes. -/

namespace Sys2Proof

/-- A step that ends neither in a fault nor in a refusal. -/
def Answers (r : Host.Outcome Machine.State Machine.Fault Machine.Refusal) : Prop := ∃ t, r = .next t

/-- A run of `n` steps that stops nowhere. -/
def SafeRun (s : Machine.State) (n : Nat) : Prop := ∃ t, core.run n s = .next t

namespace Machine

/-- Nothing holds an instruction with these sources and destinations: no register awaits an interlocked result
(R348), and no source is read within its latency while the stall check is on (R145). -/
abbrev State.Clear (s : State) (srcs dsts : List R6) : Prop := s.awaiting (srcs ++ dsts) = [] ∧ s.underrun srcs = none

/-- The same for an instruction that makes an access or orders accesses: no acquire of its context is under way either (R92). -/
abbrev State.Open (s : State) (srcs dsts : List R6) : Prop := s.Clear srcs dsts ∧ s.me.acquiring = false

/-- Counted accesses numbered below `n` of the context of a virtual function and core with a helper number are not acknowledged (R91):
they are in flight, or a save or a slice switch has abandoned them and its restore issues them again (R77). -/
def State.Owed (s : State) (vf core hnum n : Nat) : Prop :=
  (∃ f ∈ s.flights, coreOf f.ctx = core ∧ f.vf = vf ∧ f.hnum = hnum ∧ f.counted = true ∧ f.id < n) ∨
    (∃ x ∈ s.saved, x.core = core ∧ x.vf = vf ∧ ∃ f ∈ x.redo, f.hnum = hnum ∧ f.counted = true ∧ f.id < n) ∨
    ∃ x ∈ s.images, x.vf = vf ∧ ∃ f ∈ x.redo, coreOf f.ctx = core ∧ f.hnum = hnum ∧ f.counted = true ∧ f.id < n

/-- The same of a context. -/
abbrev State.OwedBy (s : State) (ctx n : Nat) : Prop := s.Owed (s.vfOf ctx) (coreOf ctx) (s.ctx ctx).hnum n

/-- `t` differs from `s` at most in the issuing context. -/
structure OnlyMe (s t : State) : Prop where
  rest   : { t with ctxs := s.ctxs } = s
  others : ∀ id, id ≠ s.cur → t.ctx id = s.ctx id

/-- The issuing context goes on at `pc`, issues no earlier than cycle `at_`, and nothing else changes. -/
structure Goes (s t : State) (pc : W64) (at_ : Nat) : Prop where
  only : OnlyMe s t
  me   : { t.me with pc := s.me.pc, wait := s.me.wait, nextIssue := s.me.nextIssue } = s.me
  next : t.me.pc = pc ∧ t.me.wait = none ∧ t.me.nextIssue = at_

/-- Register `d` of the issuing context receives `v` with latency `lat`, a write to s0 is discarded, the context goes
on at `pc` no earlier than cycle `at_`, and nothing else changes. -/
structure WritesTo (s t : State) (d : R6) (v : W64) (lat : Nat) (pc : W64) (at_ : Nat) : Prop where
  only   : OnlyMe s t
  me     : { t.me with pc := s.me.pc, wait := s.me.wait, nextIssue := s.me.nextIssue, regs := s.me.regs, late := s.me.late } = s.me
  next   : t.me.pc = pc ∧ t.me.wait = none ∧ t.me.nextIssue = at_
  value  : s.me.regKey d ≠ 0 → t.me.regAt (s.me.regKey d) = v
  kept   : ∀ k, k = 0 ∨ k ≠ s.me.regKey d → t.me.regAt k = s.me.regAt k
  /-- From the next cycle on a reader finds, until the latency is over, what it would have found without this write. -/
  seen   : s.me.regKey d ≠ 0 → ∀ now, s.cycle < now →
    t.me.readAt (s.me.regKey d) now = if now < s.cycle + lat then s.me.readAt (s.me.regKey d) now else v
  unseen : ∀ k, k = 0 ∨ k ≠ s.me.regKey d → ∀ now, s.cycle ≤ now → t.me.readAt k now = s.me.readAt k now

/-- The same for an instruction of `len` bytes that does not branch: the next one follows it, held for its stall count. -/
abbrev Writes (s t : State) (d : R6) (v : W64) (lat len : Nat) (st : St) : Prop :=
  WritesTo s t d v lat (s.me.pc + BitVec.ofNat 64 len) (s.cycle + 1 + st.toNat)

/-- `i` completes at `s` by writing `v` to register `d`, and changes nothing else. -/
def Computes (s : State) (i : Instr) (d : R6) (v : W64) (lat len : Nat) (st : St) : Prop :=
  ∃ t, exec i s = .next t ∧ Writes s t d v lat len st

/-- An instruction of `len` bytes without another effect. -/
abbrev Passes (s t : State) (len : Nat) (st : St) : Prop := Goes s t (s.me.pc + BitVec.ofNat 64 len) (s.cycle + 1 + st.toNat)

/-- The issuing context waits, at the same instruction, and nothing else changes. The time of its first attempt is kept, unless the
instruction could not issue before. -/
structure Waits (s t : State) (w : Wait) : Prop where
  only : OnlyMe s t
  me   : { t.me with wait := s.me.wait, waitFrom := s.me.waitFrom } = s.me
  held : t.me.wait = some w ∧ t.me.waitFrom = (if s.me.wait.any (!·.unissued) then s.me.waitFrom else s.cycle)

/-- The entry for an instruction of the issuing context whose result, for register place `dst`, is under way as `op`. -/
def State.pending (s : State) (op : PendOp) (dst : Option Nat) (st : St) (dst2 : Option Nat := none) : Pend :=
  { op := op, pc := s.me.pc, dst := dst, dst2 := dst2, issued := s.cycle, since := s.cycle, until_ := s.cycle + 1 + st.toNat }

/-- The access `f` is in flight and nothing else differs from `u`, which the checks of the address left. The issuing context goes on
after `len` bytes: `held` holds it until the access is done, and an acquire that does not hold it keeps its later accesses back. -/
structure Sends (s u t : State) (f : Flight) (len : Nat) (st : St) (held acq : Bool) : Prop where
  flights : t.flights = s.flights ++ [f] ∧ t.nextId = s.nextId + 1 ∧ f.id = s.nextId ∧ f.ctx = s.cur ∧ f.hnum = s.me.hnum ∧ f.pc = s.me.pc ∧ f.issued = s.cycle ∧
    f.performed = false ∧ f.waiting = none ∧ f.refused = 0
  frame   : { t with ctxs := u.ctxs, flights := u.flights, nextId := u.nextId, activity := u.activity } = u
  others  : ∀ id, id ≠ s.cur → t.ctx id = s.ctx id
  me      : t.me = { s.me with pc := s.me.pc + BitVec.ofNat 64 len, nextIssue := s.cycle + 1 + st.toNat, migCnt := t.me.migCnt,
                               wait := if held then some (.access s.nextId) else none, waitFrom := if held then s.cycle else s.me.waitFrom,
                               relMark := if f.isRelease then s.nextId + 1 else s.me.relMark,
                               pend := s.me.pend ++ if acq && !held then [s.pending (.access s.nextId) none st] else [] }

/-- Does the access to `x` need a reply cache that is off (R412)? `needs` says that it is an atomic or a tagged access. -/
def State.CacheOff (s : State) (x : Xl) (needs : Bool) : Prop :=
  x.remote = true ∧ needs = true ∧ ∃ p, s.routeTo (keyDev x.key) = some p ∧ s.regBits (towBase p + 0x108) 0 0 = 0

/-- `u` differs from `s` at most in memory and in what cores and clusters keep of translations and cache lines. -/
structure OnlyTables (s u : State) : Prop where
  rest     : { u with mem := s.mem, cores := s.cores, clusters := s.clusters } = s
  cores    : ∀ k, { u.core k with itlb := (s.core k).itlb, dtlb := (s.core k).dtlb } = s.core k
  clusters : ∀ k, { u.cluster k with tlb := (s.cluster k).tlb, seen := (s.cluster k).seen, lines := (s.cluster k).lines } = s.cluster k

/-- Does a TLB of a core or of its cluster answer for an access (R398, R399)? -/
def State.tlbHit (s : State) (core vf asid a : Nat) (acc : Acc) : Bool :=
  (tlbFind (if acc.x then (s.core core).itlb else (s.core core).dtlb) vf asid a acc.w).isSome ||
    (tlbFind (s.cluster (clusterOf core)).tlb vf asid a acc.w).isSome

/-- Memory in `u` after a walk from `s` that ends in a leaf, the word at `at_` (R399). If the leaf has A, and D for a write, nothing changes.
Else the clusters give back what they hold dirty of its 64-byte line, and nothing else changes by that (R67, R79); if the word is then
still what the walk has read, it gets A, and D for a write, and every byte outside its eight stays; if not, `again` says what the walk
does that starts anew. -/
def State.MarksLeaf (s u : State) (vf asid a : Nat) (acc : Acc) (again : State → Prop) : Prop :=
  ∀ pte at_ shift, s.walk vf asid a = .leaf pte at_ shift →
    let new := pte ||| 0x40 ||| (if acc.w then 0x80 else 0)
    let r := s.recall at_
    ((∀ p ∈ s.clusters, ∀ l ∈ p.2.lines, l.key = lineKey at_ → l.dirty = 0) → r.mem = s.mem) ∧
    (memWf s.mem = true → ∀ k, k < lineKey at_ ∨ lineKey at_ + 64 ≤ k → memGet r.mem k = memGet s.mem k) ∧
    (new = pte → u.mem = s.mem) ∧
    (new ≠ pte → r.read64 at_ = pte → u.mem = (r.write64 at_ new).mem ∧
      (memWf s.mem = true → u.read64 at_ = new ∧ ∀ k, k < at_ ∨ at_ + 8 ≤ k → memGet u.mem k = memGet r.mem k)) ∧
    (new ≠ pte → r.read64 at_ ≠ pte → again r)

/-- The same with at most `n` restarts. -/
def State.WalkMarks (u : State) (vf asid a : Nat) (acc : Acc) : Nat → State → Prop
  | 0, s => s.MarksLeaf u vf asid a acc fun r => u.mem = r.mem
  | n + 1, s => s.MarksLeaf u vf asid a acc (State.WalkMarks u vf asid a acc n)

/-- Memory in `u` after the checks of an access of the issuing context to `a` have passed: as before at a window address and on a TLB hit,
else as the walk leaves it, which restarts at most once for every line that a cluster holds dirty (R399). -/
def State.Marks (s u : State) (a : Nat) (acc : Acc) : Prop :=
  let hit := s.tlbHit s.myCore (s.vfOf s.cur) s.me.asid a acc
  (placeOf a ≠ .translated ∨ hit = true → u.mem = s.mem) ∧
  (placeOf a = .translated → hit = false → State.WalkMarks u (s.vfOf s.cur) s.me.asid a acc s.dirtyLines s)

/-- What an access instruction does at an address: the traps of the checks, and else an access in flight whose fields
`f` gives from the key, the cluster-cache mark of the page and the local-alias mark. -/
def Accesses (s : State) (i : Instr) (a : W64) (size : Nat) (acc : Acc) (tagged needs held acq : Bool) (len : Nat) (st : St)
    (f : Flight → Prop) : Prop :=
  (∀ c v, s.checkAccess s.cur a.toNat size acc tagged = .trap c v → exec i s = .next (s.trap c v)) ∧
  (∀ u g, s.checkAccess s.cur a.toNat size acc tagged = .page u g →
    exec i s = .next (u.takeTrap u.cur g.cause g.va u.me.pc (some g))) ∧
  (∀ u x al, s.checkAccess s.cur a.toNat size acc tagged = .ok u x al → OnlyTables s u ∧ s.Marks u a.toNat acc ∧
    (u.CacheOff x needs → exec i s = .next (u.trap 0x05 a)) ∧
    (¬ u.CacheOff x needs → ∃ t g, exec i s = .next t ∧ Sends s u t g len st held acq ∧ f g ∧ g.va = a ∧ g.key = x.key ∧ g.size = size ∧
      g.alias_ = al ∧ g.remote = x.remote ∧ g.vf = s.vfOf s.cur))

/-- The context goes on after `len` bytes while the instruction's results, for `d` and for `e` where there is one, are under way as
`op`; with a destination `d` of s0 it waits for them (R151, R245). A release orders what is issued before it (R91). Nothing else
changes. -/
structure Pends (s t : State) (d : R6) (op : PendOp) (len : Nat) (st : St) (e : Option R6 := none) : Prop where
  only : OnlyMe s t
  me   : t.me = { s.me with pc := s.me.pc + BitVec.ofNat 64 len, nextIssue := s.cycle + 1 + st.toNat,
                            wait := if d = 0 then some .result else none, waitFrom := if d = 0 then s.cycle else s.me.waitFrom,
                            relMark := if (s.pending op none st).isRelease then s.nextId else s.me.relMark,
                            pend := s.me.pend ++ [s.pending op (some (s.me.regKey d)) st (e.map s.me.regKey)] }

/-- What a result that arrives does: register place `k` receives `v`, the pending instruction `p` is done, and nothing else changes. -/
structure Arrives (s t : State) (ctx : Nat) (p : Pend) (v : W64) : Prop where
  rest   : { t with ctxs := s.ctxs } = s
  others : ∀ id, id ≠ ctx → t.ctx id = s.ctx id
  gone   : (t.ctx ctx).pend = (s.ctx ctx).pend.erase p
  value  : ∀ k, p.dst = some k → k ≠ 0 → (t.ctx ctx).regAt k = v
  kept   : ∀ j, p.dst ≠ some j → (t.ctx ctx).regAt j = (s.ctx ctx).regAt j

/-- The vector command `q` is queued on the issuing core, the registers in `tags` carry their new tags, the context goes
on after `len` bytes (held until the result arrives if it goes to s0), and nothing else changes. -/
structure Queued (s t : State) (q : VCmd) (tags : List (Nat × Nat)) (len : Nat) (st : St) : Prop where
  queue  : t.core s.myCore = { s.core s.myCore with vqueue := (s.core s.myCore).vqueue ++ [q] }
  cores  : ∀ k, k ≠ s.myCore → t.core k = s.core k
  frame  : { t with ctxs := s.ctxs, cores := s.cores, activity := s.activity } = s
  others : ∀ id, id ≠ s.cur → t.ctx id = s.ctx id
  me     : t.me = { s.me with pc := s.me.pc + BitVec.ofNat 64 len, nextIssue := s.cycle + 1 + st.toNat, holds := t.me.holds,
                              vtags := tags.foldl (fun m p => m.put p.1 p.2) s.me.vtags,
                              wait := if q.op.dst? = some 0 then some .busy else none,
                              waitFrom := if q.op.dst? = some 0 then s.cycle else s.me.waitFrom }

/-- The command that the issuing context queues for an operation. -/
def State.vcommand (s : State) (op : VOp) (m : VMod) : VCmd :=
  { ctx := s.cur, op := op, msk := m.msk, mp := m.mp, tp := m.tp, phase := ((s.me.k 3).toNat % 2 + m.ph.toNat) % 2,
    window := s.ptp / (1000 * 2 ^ s.windowLog), after := s.me.relMark, num := s.nextId, item := s.me.item }

/-- The command is queued when no AREAD of the context is under way, and is waited for otherwise. -/
def Enqueues (s u : State) (i : Instr) (op : VOp) (m : VMod) (tags : List (Nat × Nat)) (len : Nat) (st : St) : Prop :=
  (u.areadPending u.cur = true → ∃ t, exec i s = .next t ∧ Waits u t .busy) ∧
  (u.areadPending u.cur = false → ∃ t, exec i s = .next t ∧ Queued u t (u.vcommand op m) tags len st)

/-- Steps 3 to 5 of R155 for a vector instruction that names the registers `regs`: a register outside the window traps with
cause 0x09, a wrong tag with cause 0x07, and else `goes` holds. -/
def WindowChecks (s : State) (i : Instr) (regs : List Nat) (tagsOk : Prop) (goes : Prop) : Prop :=
  ((∃ r ∈ regs, s.me.window ≤ r) → ∃ r ∈ regs, s.me.window ≤ r ∧
    exec i s = .next (({ s with fresh := s.fresh + 1 } : State).trap 0x09 (BitVec.ofNat 64 r))) ∧
  (s.me.window = 0 → ∃ v, exec i s = .next (({ s with fresh := s.fresh + 1 } : State).trap 0x09 v)) ∧
  (s.me.window ≠ 0 → (∀ r ∈ regs, r < s.me.window) →
    (¬ tagsOk → ∃ v, exec i s = .next (({ s with fresh := s.fresh + 2 } : State).trap 0x07 v)) ∧ (tagsOk → goes))

/-- The same for an instruction that needs a place in the core's vector queue: with the queue full it waits before these checks (R247). -/
def VectorChecks (s : State) (i : Instr) (regs : List Nat) (tagsOk : Prop) (goes : Prop) : Prop :=
  (2 ≤ (s.core s.myCore).vqueue.length → ∃ t, exec i s = .next t ∧ Waits s t .vector) ∧
  ((s.core s.myCore).vqueue.length < 2 → WindowChecks s i regs tagsOk goes)

/-- The mask operand carries MASK, or there is none. -/
abbrev State.maskOk (s : State) (m : VMod) : Prop := m.msk = 0 ∨ s.me.vtag m.msk = 10

/-- The command `q` is queued at engine context `ctr` of the issuing core, and takes its number there. Register `d`
receives the number unless the engine has to accept the command first; the context goes on after `len` bytes, or waits
with `wait` there; an item of a launch notes the operation; and nothing else changes. -/
structure Commanded (s t : State) (ctr : Nat) (q : EngCmd) (d : Option R6) (wait : Option Wait) (len : Nat) (st : St) : Prop where
  core   : t.core s.myCore = { s.core s.myCore with queues := (s.core s.myCore).queues.put ctr ((s.core s.myCore).queues.get ctr [] ++ [q]),
                                                    nextNum := (s.core s.myCore).nextNum.put ctr (q.num + 1) }
  cores  : ∀ k, k ≠ s.myCore → t.core k = s.core k
  frame  : { t with ctxs := s.ctxs, cores := s.cores, activity := s.activity } = s
  others : ∀ id, id ≠ s.cur → t.ctx id = s.ctx id
  me     : t.me = { (match d with
                      | some d => s.me.setAt (s.me.regKey d) (BitVec.ofNat 64 q.num)
                      | none => s.me) with
                    pc := s.me.pc + BitVec.ofNat 64 len, nextIssue := s.cycle + 1 + st.toNat, wait := wait,
                    waitFrom := if wait.isSome then s.cycle else s.me.waitFrom, relMark := q.after,
                    ops := if s.me.startItem.isSome then s.me.ops ++ [(ctr, q.num)] else s.me.ops }

/-- The command for `op` takes the next number of counter `ctr`. With `accept` the context waits until the engine has accepted it, and
the number is written then; with `acq` it waits for the counter. -/
def Commands (s u : State) (i : Instr) (ctr : Nat) (d : Option R6) (ph : Bit) (op : EngOp) (accept acq : Bool) (len : Nat) (st : St) : Prop :=
  let n := (u.core u.myCore).nextNum.get ctr 1
  ∃ t, exec i s = .next t ∧
    Commanded u t ctr (u.command n ph op (!accept) (if accept then d.map u.me.regKey else none)) (if accept then none else d)
      (if accept then some (.accept ctr n) else if acq then some (.timeline ctr n) else none) len st

/-- An instruction that needs a place in the queue of an engine context: with the queue full it waits before every check of its
operands (R129), and else `goes` holds. -/
def Roomed (s : State) (i : Instr) (ctr : Nat) (goes : Prop) : Prop :=
  (2 ≤ ((s.core s.myCore).queues.get ctr []).length → ∃ t, exec i s = .next t ∧ Waits s t (.engine ctr)) ∧
  (((s.core s.myCore).queues.get ctr []).length < 2 → goes)

/-- An instruction whose checks give `fault` traps with it, and else `goes` holds. -/
def Guarded (s : State) (i : Instr) (fault : Option Cause) (goes : Prop) : Prop :=
  (∀ c v, fault = some (c, v) → exec i s = .next (s.trap c v)) ∧ (fault = none → goes)

/-- The event `i` takes the machine to `t` when its condition holds, and changes nothing otherwise. -/
def Happens (s : State) (i : Instr) (cond : Prop) (t : State) : Prop := (cond → exec i s = .next t) ∧ (¬ cond → exec i s = .next s)

end Machine

end Sys2Proof
end

