-- ==== Sys2Proof/Certificates/Slice0/Obligations.lean ====
section
/-! DEFINITION. The statements about the GW460 model: what instructions and events do, and what every step keeps. -/

open Sys2Proof Sys2Proof.Machine

/-- The integer functions of Table 8.2. Each of the 32 instructions of majors 0x01 to 0x08, when nothing holds it,
completes by writing f(A, B) of Table 8.2 to D with the latency of its class, all ones for a divisor of 0, and
changes nothing else. (R187, R188) -/
def Obligations.IntegerFunctions : Prop :=
  ∀ (s : State) (d a b : R6) (st : St), s.Clear [a, b] [d] →
    let A := s.rd a
    let B := s.rd b
    (∀ p ∈ ([(.add d a b st, A + B, 1),
      (.sub d a b st, A - B, 1),
      (.addw d a b st, (A.setWidth 32 + B.setWidth 32).signExtend 64, 1),
      (.subw d a b st, (A.setWidth 32 - B.setWidth 32).signExtend 64, 1),
      (.mul d a b st, A * B, 4),
      (.mulh d a b st, ((A.signExtend 128 * B.signExtend 128) >>> 64).setWidth 64, 4),
      (.mulhz d a b st, ((A.setWidth 128 * B.setWidth 128) >>> 64).setWidth 64, 4),
      (.mulw d a b st, (A.setWidth 32 * B.setWidth 32).signExtend 64, 4),
      (.div d a b st, if B = 0 then BitVec.allOnes 64 else A.sdiv B, 1),
      (.divz d a b st, if B = 0 then BitVec.allOnes 64 else A.udiv B, 1),
      (.rem d a b st, if B = 0 then BitVec.allOnes 64 else A.srem B, 1),
      (.remz d a b st, if B = 0 then BitVec.allOnes 64 else A.umod B, 1),
      (.and d a b st, A &&& B, 1),
      (.or d a b st, A ||| B, 1),
      (.xor d a b st, A ^^^ B, 1),
      (.andn d a b st, A &&& ~~~B, 1),
      (.shl d a b st, A <<< (B.toNat % 64), 1),
      (.shr d a b st, A >>> (B.toNat % 64), 1),
      (.shra d a b st, A.sshiftRight (B.toNat % 64), 1),
      (.ror d a b st, A.rotateRight (B.toNat % 64), 1),
      (.slt d a b st, if A.toInt < B.toInt then 1 else 0, 1),
      (.sltz d a b st, if A.toNat < B.toNat then 1 else 0, 1),
      (.seq d a b st, if A = B then 1 else 0, 1),
      (.sne d a b st, if A = B then 0 else 1, 1),
      (.min d a b st, if A.toInt < B.toInt then A else B, 1),
      (.max d a b st, if A.toInt < B.toInt then B else A, 1),
      (.minz d a b st, if A.toNat < B.toNat then A else B, 1),
      (.maxz d a b st, if A.toNat < B.toNat then B else A, 1)] : List (Instr × W64 × Nat)), Computes s p.1 d p.2.1 p.2.2 4 st) ∧
    (s.Clear [a] [d] → ∀ p ∈ ([(.clz d a st, A.clz),
      (.ctz d a st, A.ctz),
      (.popc d a st, A.cpop),
      (.brev d a st, A.reverse)] : List (Instr × W64)), Computes s p.1 d p.2 1 4 st)

/-- SEL, LEA, the bit-field and the scalar floating-point instructions. SEL, LEA, BFXS, BFXZ and BFINS complete with
the results of R189 to R191, and a bit field that is empty or passes bit 63 is no well-formed instruction.
Majors 0x0C to 0x0F complete with one rounding to nearest even of the exact result, comparisons write 0 for a
NaN, FCLASS writes the one bit of Table 8.4, and the conversions use the formats of Table 8.5. (R189, R190,
R191, R194, R195, R196) -/
def Obligations.FieldsAndFloats : Prop :=
  ((∀ (s : State) (d a b c p : R6) (n : BitVec 7) (k : BitVec 2) (st : St),
    (s.Clear [a, b, c] [d] → Computes s (.sel d a b c st) d (if s.rd c ≠ 0 then s.rd a else s.rd b) 1 12 st) ∧
    (s.Clear [a, b] [d] → Computes s (.lea d a b k st) d (s.rd a + s.rd b * 2 ^ k.toNat) 1 4 st) ∧
    ((Instr.bfxs d a p n st).wf = true ↔ 1 ≤ n.toNat ∧ p.toNat + n.toNat ≤ 64) ∧
    ((Instr.bfxz d a p n st).wf = true ↔ 1 ≤ n.toNat ∧ p.toNat + n.toNat ≤ 64) ∧
    ((Instr.bfins d a b p n st).wf = true ↔ 1 ≤ n.toNat ∧ p.toNat + n.toNat ≤ 64) ∧
    (1 ≤ n.toNat ∧ p.toNat + n.toNat ≤ 64 →
      (s.Clear [a] [d] → Computes s (.bfxs d a p n st) d (((s.rd a).extractLsb' p.toNat n.toNat).signExtend 64) 1 12 st ∧
        Computes s (.bfxz d a p n st) d (((s.rd a).extractLsb' p.toNat n.toNat).setWidth 64) 1 12 st) ∧
      (s.Clear [a, b] [d] → ∃ v, Computes s (.bfins d a b p n st) d v 1 12 st ∧
        ∀ i < 64, v.getLsbD i = if p.toNat ≤ i ∧ i < p.toNat + n.toNat then (s.rd a).getLsbD (i - p.toNat) else (s.rd b).getLsbD i)))) ∧
  ((∀ (s : State) (d a b c : R6) (fmt : BitVec 4) (sat : Bit) (st : St),
    let A := s.rd a
    let B := s.rd b
    let width := if fmt = 0 then 64 else fmtWidth fmt.toNat
    (s.Clear [a, b] [d] →
      (∀ p ∈ ([(.fadd d a b st, (f32 A).add (f32 B), 4),
        (.fsub d a b st, (f32 A).sub (f32 B), 4),
        (.fmul d a b st, (f32 A).mul (f32 B), 4),
        (.fdiv d a b st, (f32 A).div (f32 B), 1),
        (.fmin d a b st, (f32 A).min (f32 B), 4),
        (.fmax d a b st, (f32 A).max (f32 B), 4)] : List (Instr × Machine.Num × Nat)), Computes s p.1 d (BitVec.ofNat 64 (rne 9 p.2.1)) p.2.2 4 st) ∧
      (f32 A ≠ .nan → f32 B ≠ .nan →
        Computes s (.flt d a b st) d (flag ((f32 A).cmp (f32 B) = some .lt)) 4 4 st ∧
        Computes s (.fle d a b st) d (flag ((f32 A).cmp (f32 B) ≠ some .gt)) 4 4 st ∧
        Computes s (.feq d a b st) d (flag ((f32 A).cmp (f32 B) = some .eq)) 4 4 st) ∧
      (f32 A = .nan ∨ f32 B = .nan → ∀ i ∈ [Instr.flt d a b st, .fle d a b st, .feq d a b st], Computes s i d 0 4 4 st)) ∧
    (s.Clear [a, b, c] [d] → Computes s (.ffma d a b c st) d (BitVec.ofNat 64 (rne 9 (((f32 A).mul (f32 B)).add (f32 (s.rd c))))) 4 12 st) ∧
    (s.Clear [a] [d] →
      Computes s (.fsqrt d a st) d (BitVec.ofNat 64 (rne 9 (f32 A).sqrt)) 1 4 st ∧
      (∃ k, Computes s (.fclass d a st) d (BitVec.ofNat 64 (2 ^ k)) 4 4 st ∧ k ≤ 8 ∧ (k = 8 ↔ f32 A = .nan) ∧ (k = 0 ↔ f32 A = .inf true) ∧
        (k = 7 ↔ f32 A = .inf false) ∧
        (let neg := A.toNat / 2 ^ 31 % 2 = 1
         let e := A.toNat / 2 ^ 23 % 256
         let m := A.toNat % 2 ^ 23
         (k = 1 ↔ neg ∧ 1 ≤ e ∧ e ≤ 254) ∧ (k = 6 ↔ ¬ neg ∧ 1 ≤ e ∧ e ≤ 254) ∧ (k = 2 ↔ neg ∧ e = 0 ∧ m ≠ 0) ∧
          (k = 5 ↔ ¬ neg ∧ e = 0 ∧ m ≠ 0)) ∧ (k = 3 ↔ A.toNat % 2 ^ 32 = 2 ^ 31) ∧ (k = 4 ↔ A.toNat % 2 ^ 32 = 0)) ∧
      Computes s (.fcvtif d a st) d (BitVec.ofNat 64 (rne 9 (numOfInt A.toInt))) 4 4 st ∧
      Computes s (.fcvtfi d a st) d (BitVec.ofInt 64 (intOfNum 64 .rne (f32 A))) 4 4 st ∧
      Computes s (.fcvtifX d a fmt st) d (BitVec.ofNat 64 (rne 9 (numOfInt (sintOf width A.toNat)))) 4 12 st ∧
      Computes s (.fcvtfiX d a fmt st) d (BitVec.ofInt 64 (intOfNum width .rne (f32 A))) 4 12 st ∧
      Computes s (.fcvth d a fmt sat st) d (BitVec.ofNat 64 (encodeNum fmt.toNat .rne (sat = 1) (f32 A))) 4 12 st ∧
      Computes s (.fcvte d a fmt st) d (BitVec.ofNat 64 (rne 9 (numOf fmt.toNat (A.toNat % 2 ^ fmtWidth fmt.toNat)))) 4 12 st)))

/-- The immediate forms and LI. Majors 0x10 to 0x1A compute what the register form computes, with B replaced by the
sign-extended immediate or the literal; a shift by 64 or more is no well-formed instruction. (R192, R193) -/
def Obligations.ImmediateForms : Prop :=
  ∀ (s : State) (d a : R6) (imm : Byte) (imm14 : BitVec 14) (lit : W64) (st : St),
    (s.Clear [] [d] → Computes s (.li d imm14 st) d (imm14.signExtend 64) 1 4 st ∧ Computes s (.liLit d lit st) d lit 1 12 st) ∧
    (s.Clear [a] [d] →
      let A := s.rd a
      (let I := imm.signExtend 64
       ∀ p ∈ ([(.addi d a imm st, A + I, 1),
        (.andi d a imm st, A &&& I, 1),
        (.ori d a imm st, A ||| I, 1),
        (.xori d a imm st, A ^^^ I, 1),
        (.slti d a imm st, if A.toInt < I.toInt then 1 else 0, 1),
        (.sltzi d a imm st, if A.toNat < I.toNat then 1 else 0, 1),
        (.muli d a imm st, A * I, 4)] : List (Instr × W64 × Nat)), Computes s p.1 d p.2.1 p.2.2 4 st) ∧
      (let I := lit
       ∀ p ∈ ([(.addiLit d a lit st, A + I, 1),
        (.andiLit d a lit st, A &&& I, 1),
        (.oriLit d a lit st, A ||| I, 1),
        (.xoriLit d a lit st, A ^^^ I, 1),
        (.sltiLit d a lit st, if A.toInt < I.toInt then 1 else 0, 1),
        (.sltziLit d a lit st, if A.toNat < I.toNat then 1 else 0, 1),
        (.muliLit d a lit st, A * I, 4)] : List (Instr × W64 × Nat)), Computes s p.1 d p.2.1 p.2.2 12 st) ∧
      (imm.toNat < 64 → let N := imm.toNat
       ∀ p ∈ ([(.shli d a imm st, A <<< N), (.shri d a imm st, A >>> N), (.shrai d a imm st, A.sshiftRight N)] : List (Instr × W64)), Computes s p.1 d p.2 1 4 st) ∧
      (lit.toNat < 64 → let N := lit.toNat
       ∀ p ∈ ([(.shliLit d a lit st, A <<< N), (.shriLit d a lit st, A >>> N), (.shraiLit d a lit st, A.sshiftRight N)] : List (Instr × W64)), Computes s p.1 d p.2 1 12 st)) ∧
    (64 ≤ imm.toNat → ∀ i ∈ [Instr.shli d a imm st, .shri d a imm st, .shrai d a imm st], i.wf = false) ∧
    (64 ≤ lit.toNat → ∀ i ∈ [Instr.shliLit d a lit st, .shriLit d a lit st, .shraiLit d a lit st], i.wf = false)

/-- Rounding a value that a format holds gives its encoding back. For every floating-point format and every encoding
of it that is not NaN, rounding the value of the encoding to the format gives the encoding. (R164, R167, R170) -/
def Obligations.FormatsRoundTrip : Prop :=
  ∀ fmt ∈ [4, 5, 6, 7, 8, 9], ∀ x < 2 ^ (1 + (layout fmt).ebits + (layout fmt).mbits),
    numOf fmt x ≠ .nan → rne fmt (numOf fmt x) = x

/-- What holds a register instruction at issue. An instruction of majors 0x01 to 0x08 waits while a register that it
reads or writes awaits an interlocked result; otherwise, with the stall check on, a source within its latency
traps with cause 0x08 and its register number in TVAL, and with the check off or no source within its latency
the instruction completes. (R145, R348) -/
def Obligations.IssueRules : Prop :=
  ∀ (s : State) (d a b : R6) (st : St), ∀ p ∈ ([Instr.add d a b st, .sub d a b st, .addw d a b st, .subw d a b st, .mul d a b st,
      .mulh d a b st, .mulhz d a b st, .mulw d a b st, .div d a b st, .divz d a b st, .rem d a b st, .remz d a b st, .and d a b st,
      .or d a b st, .xor d a b st, .andn d a b st, .shl d a b st, .shr d a b st, .shra d a b st, .ror d a b st, .slt d a b st,
      .sltz d a b st, .seq d a b st, .sne d a b st, .min d a b st, .max d a b st, .minz d a b st, .maxz d a b st].map (fun i => (i, [a, b])) ++
      [Instr.clz d a st, .ctz d a st, .popc d a st, .brev d a st].map (fun i => (i, [a])) : List (Instr × List R6)),
    (s.awaiting (p.2 ++ [d]) ≠ [] → ∃ t, exec p.1 s = .next t ∧ Waits s t (.regs (s.awaiting (p.2 ++ [d])))) ∧
    (s.awaiting (p.2 ++ [d]) = [] →
      let late := fun r : R6 => ∃ l, (s.me.late.filter (·.reg = s.me.regKey r)).getLast? = some l ∧ s.cycle < l.ready
      ((s.me.k 5).toNat % 2 = 1 → (∃ r ∈ p.2, late r) → ∃ r ∈ p.2, late r ∧ exec p.1 s = .next (s.trap 0x08 (r.setWidth 64))) ∧
      (((s.me.k 5).toNat % 2 = 0 ∨ ¬ ∃ r ∈ p.2, late r) → ∃ v lat, Computes s p.1 d v lat 4 st))

/-- Branches, calls, jumps and returns. Each branch that nothing holds goes to its target when its condition holds
and on otherwise; CALL and CALLR write the return address; a misaligned register target traps with cause 0x03
and leaves D unchanged. (R197, R198, R199) -/
def Obligations.Branches : Prop :=
  ∀ (s : State) (d a b : R6) (off20 : BitVec 20) (off14 : BitVec 14) (imm : W32) (st : St),
    let pc := s.me.pc
    let late := s.cycle + 1 + max st.toNat 2
    let goTo20 := pc + 4 * off20.signExtend 64
    (s.Clear [] [] → ∃ t, exec (.br off20 st) s = .next t ∧ Goes s t goTo20 late) ∧
    (s.Clear [d] [] → ∀ p ∈ ([(.beqz d off14 st, s.rd d = 0), (.bnez d off14 st, s.rd d ≠ 0), (.bltz d off14 st, (s.rd d).toInt < 0),
        (.bgez d off14 st, 0 ≤ (s.rd d).toInt)] : List (Instr × Bool)),
      ∃ t, exec p.1 s = .next t ∧ if p.2 then Goes s t (pc + 4 * off14.signExtend 64) late else Passes s t 4 st) ∧
    (s.Clear [a, b] [] → ∀ p ∈ ([(.beq a b imm st, s.rd a = s.rd b), (.bne a b imm st, s.rd a ≠ s.rd b),
        (.blt a b imm st, (s.rd a).toInt < (s.rd b).toInt), (.blo a b imm st, (s.rd a).toNat < (s.rd b).toNat)] : List (Instr × Bool)),
      ∃ t, exec p.1 s = .next t ∧ if p.2 then Goes s t (pc + 4 * imm.signExtend 64) late else Passes s t 12 st) ∧
    (s.Clear [] [63] →
      if goTo20.toNat % 4 = 0 then ∃ t, exec (.call off20 st) s = .next t ∧ WritesTo s t 63 (pc + 4) 1 goTo20 late
      else exec (.call off20 st) s = .next (s.trap 0x03 goTo20)) ∧
    (s.Clear [a] [d] →
      if (s.rd a).toNat % 4 = 0 then ∃ t, exec (.callr d a st) s = .next t ∧ WritesTo s t d (pc + 4) 1 (s.rd a) late
      else exec (.callr d a st) s = .next (s.trap 0x03 (s.rd a))) ∧
    (s.Clear [a] [] →
      if (s.rd a).toNat % 4 = 0 then ∃ t, exec (.jmpr a st) s = .next t ∧ Goes s t (s.rd a) late
      else exec (.jmpr a st) s = .next (s.trap 0x03 (s.rd a))) ∧
    (s.Clear [63] [] →
      if (s.rd 63).toNat % 4 = 0 then ∃ t, exec (.ret st) s = .next t ∧ Goes s t (s.rd 63) late
      else exec (.ret st) s = .next (s.trap 0x03 (s.rd 63)))

/-- START. START in a helper traps with cause 0x01 before every other check; in a control context, with an aligned
entry and a free slot, puts a helper in Starting with its registers into the lowest free slot and writes slot
and helper number; with no free slot it writes 0; a misaligned entry traps with cause 0x03. (R200, R203) -/
def Obligations.HelperStart : Prop :=
  ∀ (s : State) (d a b c w : R6) (mig : Bit) (st : St),
    let core := s.myCore
    let quiet := s.modCore core fun k => { k with idleMark := false }
    ∀ p ∈ ([(.start d a b st, [a, b], 0, 0, false, 4), (.startX d a b c w mig st, [a, b, c], s.rd c, w.toNat, mig == 1, 12)] :
        List (Instr × List R6 × W64 × Nat × Bool × Nat)),
      (isHelper s.cur = true → exec p.1 s = .next (s.trap 0x01 (s.word0.setWidth 64))) ∧
      (isHelper s.cur = false → s.Open p.2.1 [d] → (s.rd a).toNat % 4 ≠ 0 → exec p.1 s = .next (s.trap 0x03 (s.rd a))) ∧
      (isHelper s.cur = false → s.Open p.2.1 [d] → (s.rd a).toNat % 4 = 0 →
        (s.freeSlot core = none → ∃ t, exec p.1 s = .next t ∧ Writes quiet t d 0 1 p.2.2.2.2.2 st) ∧
        ∀ slot, s.freeSlot core = some slot →
          let n := (s.core core).nextHelper
          ∃ t, exec p.1 s = .next t ∧ t.mem = s.mem ∧ t.flights = s.flights ∧ t.launches = s.launches ∧
            (∀ id, id ≠ s.cur → id ≠ ctxId core slot → t.ctx id = s.ctx id) ∧
            t.me.regAt (s.me.regKey d) = (if s.me.regKey d = 0 then 0 else BitVec.ofNat 64 (slot + n * 2 ^ 32)) ∧
            (∀ k, k ≠ s.me.regKey d → t.me.regAt k = s.me.regAt k) ∧
            t.me.pc = s.me.pc + BitVec.ofNat 64 p.2.2.2.2.2 ∧
            (let h := t.ctx (ctxId core slot)
             h.life = .starting ∧ h.form = .start ∧ h.pc = s.rd a ∧ h.hnum = n ∧ h.starter = s.cur ∧ h.window = p.2.2.2.1 ∧
             h.mig = p.2.2.2.2.1 ∧ h.placed = [clusterOf core] ∧ h.startAfter = s.nextId ∧ h.asid = s.me.asid ∧
             h.regAt 1 = s.rd b ∧ h.regAt 2 = p.2.2.1 ∧ (∀ k, k ≠ 1 → k ≠ 2 → h.regAt k = 0) ∧ h.k 3 = s.me.k 3 ∧
             ∀ k ∈ [4, 5, 6, 7, 8, 18], h.k k = s.me.k k))

/-- FINISH, FAIL, IDLE, JOIN, JOINANY and HSTAT. FINISH and FAIL put the issuing helper into Closing, FAIL with the
failure code in the low 16 bits of its register and with the failure of the item that the helper holds, or of
its launch where a STARTW helper holds none (the model’s choice, log entry 43), and trap with cause 0x01 in a
control context; IDLE goes on once its core has heard an event and waits otherwise, and traps in a helper. JOIN
returns the end record of the helper named by bits 63:32 of A, waits while that helper has not ended and answers
OUT 3 with the number of the operand for an unknown number and for the helper’s own (the model’s reading, log
entry 22); JOINANY collects the oldest record of its own helpers, waits where it has none yet and such a helper
has not ended, and answers OUT 3 without any, or OUT 4 at its limit, NUM being 0 then (the model’s choice, log
entry 62); the records and helpers are those of the issuing virtual function (the model’s choice, log entry 62);
HSTAT answers at once with OUT 5, 6 or 7 for a helper that has not ended. (R11, R127, R204, R205, R206, R207,
R208) -/
def Obligations.HelperEndAndStatus : Prop :=
  ((∀ (s : State) (a : R6) (st : St),
    (isHelper s.cur = true → s.me.life = .live →
      let left := if (s.core s.myCore).mmag.any (·.1 == s.cur) then s.modCore s.myCore fun c => { c with mmag := none } else s
      (s.Clear [] [] → ∃ t, exec (.finish st) s = .next t ∧ OnlyMe left t ∧ t.me.life = .closing ∧ t.me.failed = false ∧ t.me.inMiss = false ∧
        t.me.regs = s.me.regs) ∧
      (s.Clear [a] [] → let code := (s.rd a).toNat % 65536
        ∃ u, OnlyMe left u ∧ u.me.life = .closing ∧ u.me.failed = true ∧ u.me.inMiss = false ∧ u.me.code = code ∧ u.me.regs = s.me.regs ∧
          exec (.fail a st) s = .next (match s.me.item.or s.me.own with
            | some (h, w) => u.failLaunch h code (some w)
            | none => if s.me.form = .startw then u.failLaunch (s.me.k 2).toNat code none else u))) ∧
    (isHelper s.cur = false →
      exec (.finish st) s = .next (s.trap 0x01 (s.word0.setWidth 64)) ∧
      exec (.fail a st) s = .next (s.trap 0x01 (s.word0.setWidth 64)) ∧
      (s.Clear [] [] →
        ((s.core s.myCore).idleMark = true → ∃ t, exec (.idle st) s = .next t ∧
            Passes (s.modCore s.myCore fun k => { k with idleMark := false }) t 4 st) ∧
         ((s.core s.myCore).idleMark = false → ∃ t, exec (.idle st) s = .next t ∧ Waits s t .idle))) ∧
    (isHelper s.cur = true → exec (.idle st) s = .next (s.trap 0x01 (s.word0.setWidth 64))))) ∧
  ((∀ (s : State) (d a : R6) (imm : W32) (st : St),
    let num := (s.rd a).toNat / 2 ^ 32
    let ends := (s.core s.myCore).ends
    let named (r : EndRec) : Bool := r.vf == s.vfOf s.cur && r.num == num
    let mine (r : EndRec) : Bool := r.vf == s.vfOf s.cur && !r.collected && r.starter == s.cur && (r.form == .start || r.form == .startw)
    (s.Clear [a] [d] → ∀ p ∈ ([(.join d a st, 0, 4), (.joinX d a imm st, imm.toNat, 12)] : List (Instr × Nat × Nat)),
      (∀ r, ends.find? named = some r → Computes s p.1 d
        (BitVec.ofNat 64 (r.out + (if r.out = 1 then r.code else 0) % 65536 * 65536 + r.num % 2 ^ 32 * 2 ^ 32)) 1 p.2.2 st) ∧
      (ends.find? named = none → (s.outOf s.myCore num = none ∨ s.me.hnum = num) →
        Computes s p.1 d (BitVec.ofNat 64 (3 + num % 2 ^ 32 * 2 ^ 32)) 1 p.2.2 st) ∧
      (ends.find? named = none → s.outOf s.myCore num ≠ none → s.me.hnum ≠ num → s.me.wait = none →
        ∃ t, exec p.1 s = .next t ∧ Waits s t (.join num (if p.2.1 = 0 then none else some (s.cycle + p.2.1)))) ∧
      (ends.find? named = none → s.outOf s.myCore num ≠ none → s.me.hnum ≠ num → s.me.wait = some (.join num (some 0)) →
        Computes s p.1 d (BitVec.ofNat 64 (4 + num % 2 ^ 32 * 2 ^ 32)) 1 p.2.2 st)) ∧
    (s.Clear [] [d] → ∀ p ∈ ([(.joinany d st, 0, 4), (.joinanyX d imm st, imm.toNat, 12)] : List (Instr × Nat × Nat)),
      let lost := if s.me.lost then 8 else 0
      let heard := s.modMe fun c => { c with lost := false }
      (∀ r, ends.find? mine = some r →
        ∃ t, exec p.1 s = .next t ∧
          Writes ((s.modCore s.myCore fun c => { c with ends := c.ends.replace r { r with collected := true } }).modMe
            fun c => { c with lost := false }) t d
            (BitVec.ofNat 64 (r.out + lost + (if r.out = 1 then r.code else 0) % 65536 * 65536 + r.num % 2 ^ 32 * 2 ^ 32)) 1 p.2.2 st) ∧
      (ends.find? mine = none → s.hasChildren s.cur = false → ∃ t, exec p.1 s = .next t ∧ Writes heard t d (BitVec.ofNat 64 (3 + lost)) 1 p.2.2 st) ∧
      (ends.find? mine = none → s.hasChildren s.cur = true → s.me.wait = none →
        ∃ t, exec p.1 s = .next t ∧ Waits s t (.joinAny (if p.2.1 = 0 then none else some (s.cycle + p.2.1)))) ∧
      (ends.find? mine = none → s.hasChildren s.cur = true → s.me.wait = some (.joinAny (some 0)) →
        ∃ t, exec p.1 s = .next t ∧ Writes heard t d (BitVec.ofNat 64 (4 + lost)) 1 p.2.2 st)) ∧
    (s.Clear [a] [d] → ∀ p ∈ ([(.hstat d a st, 4), (.hstatX d a st, 12)] : List (Instr × Nat)),
      (∀ out, s.outOf s.myCore num = some out → Computes s p.1 d (BitVec.ofNat 64 (out + num % 2 ^ 32 * 2 ^ 32)) 1 p.2 st) ∧
      (∀ r, s.outOf s.myCore num = none → ends.find? named = some r → Computes s p.1 d
        (BitVec.ofNat 64 (r.out + (if r.out = 1 then r.code else 0) % 65536 * 65536 + r.num % 2 ^ 32 * 2 ^ 32)) 1 p.2 st) ∧
      (s.outOf s.myCore num = none → ends.find? named = none → Computes s p.1 d (BitVec.ofNat 64 (3 + num % 2 ^ 32 * 2 ^ 32)) 1 p.2 st))))

/-- STARTM. STARTM picks, among the moored actors of its core (and class) with a pending message and no running
handler, the one whose oldest message came first; it marks the actor busy and starts a helper with the registers
of R48 in the lowest free slot, and writes the slot; with nothing eligible or no slot it writes 0. (R48, R127,
R202) -/
def Obligations.HandlerStart : Prop :=
  ∀ (s : State) (d : R6) (cls : BitVec 16) (has : Bit) (st : St),
    let core := s.myCore
    let quiet := s.modCore core fun k => { k with idleMark := false }
    ∀ p ∈ ([(.startm d st, none, 4), (.startmX d cls has st, if has = 1 then some cls.toNat else none, 12)] : List (Instr × Option Nat × Nat)),
      (isHelper s.cur = true → exec p.1 s = .next (s.trap 0x01 (s.word0.setWidth 64))) ∧
      (isHelper s.cur = false → s.Open [] [d] → (oldest (s.eligibleActors core p.2.1) = none ∨ s.freeSlot core = none) →
        ∃ t, exec p.1 s = .next t ∧ Writes quiet t d 0 1 p.2.2 st) ∧
      (∀ m slot off sl ord msg rest, isHelper s.cur = false → s.Open [] [d] → oldest (s.eligibleActors core p.2.1) = some m → s.freeSlot core = some slot →
        m.berth = some (core, off) → m.mailbox = (sl, ord, msg) :: rest →
        ∃ t, exec p.1 s = .next t ∧ t.mem = s.mem ∧ t.me.pc = s.me.pc + BitVec.ofNat 64 p.2.2 ∧
          t.me.regAt (s.me.regKey d) = (if s.me.regKey d = 0 then 0 else BitVec.ofNat 64 slot) ∧
          (∀ k, k ≠ s.me.regKey d → t.me.regAt k = s.me.regAt k) ∧
          (∀ id, id ≠ s.cur → id ≠ ctxId core slot → t.ctx id = s.ctx id) ∧
          t.moors = s.moors.map (fun n => if n.cls == m.cls && n.key == m.key then
            { m with busy := true, handled := some sl, mailbox := rest } else n) ∧
          (let h := t.ctx (ctxId core slot)
           h.life = .starting ∧ h.form = .startm ∧ h.regAt 1 = BitVec.ofNat 64 (0xFFFFFFFFFFFE0000 + off + m.size + sl * 128) ∧
           h.regAt 2 = BitVec.ofNat 64 (0xFFFFFFFFFFFE0000 + off) ∧ h.regAt 3 = m.key ∧
           h.regAt 4 = BitVec.ofNat 64 (m.cls + msg.srcCtx * 65536) ∧ h.k 3 = BitVec.ofNat 64 msg.phase))

/-- POPW, STARTW, PUSHW, WIDF and WIDR. A pop takes the first item of the front entry of the core’s queue; with no
item of the launch there it takes the last half, or the one item, of the back entry of the first victim in the
order of R27, and pops the first of what it has moved to its own queue; with no victim nothing is within reach
once no rank is unassigned; a gang pops from its first member’s queue, and a core in no gang pops nothing of a
gang launch. POPW and STARTW write all ones when the handle names no running launch of the context’s virtual
function or no item is within reach, wait for a chunk under way or for the turn of the core that they steal
from, and otherwise POPW writes the identifier of the item popped and STARTW starts its helper and writes slot
and number; STARTW writes 0 without a free slot and, for a gang launch, on a core of a gang that is not its
first member, and all ones on a core in no gang; where several of its cases hold, their order is the model’s
choice (log entry 62). PUSHW writes 1 and pushes nothing unless the identifier is an item of the running launch
in k2 whose group is open, waits while the queue is full (the model’s choice, log entry 24), and otherwise
invalidates the clean lines of the cluster cache (the model’s reading, log entry 48), appends the item to the
queue of its core, for a gang that of its first member, counts it for its group and writes 0; WIDF and WIDR
write the field or the group number, and all ones outside their range. (R26, R27, R28, R29, R30, R201, R210,
R213) -/
def Obligations.WorkQueues : Prop :=
  (((∀ (s : State) (core : Nat) (l : Launch), l.gang = false →
    let q := (s.core core).workq
    let mine (v : Nat) : Prop := ∃ r ∈ (s.core v).workq, r.handle = l.handle
    let cl := clusterOf core
    let reach (v : Nat) : Prop := v ≠ core ∧ (clusterOf v = cl ∨ ∃ p, l.setOf cl = some p ∧ clusterOf v ∈ p.clusters)
    let far (x y : Nat) : Nat := 2 * (max x y - min x y)
    -- the place of a victim in the search: columns +1, -1, +2, … of the own cluster, then other clusters by distance
    let place (v : Nat) : Nat := if clusterOf v = cl then far (colOf v) (colOf core) + (if colOf v < colOf core then 1 else 0)
      else 100 + 8 * (far (clusterOf v) cl + (if clusterOf v < cl then 0 else 1)) + colOf v
    (∀ r rest, q = r :: rest → r.handle = l.handle → (s.core core).robbedAt ≠ some s.cycle →
      s.pop core l = (s.modCore core fun c =>
        { c with workq := if r.count ≤ 1 then rest else { r with first := r.first + 1, count := r.count - 1 } :: rest }, .item r.first)) ∧
    (s.replaying = false → ¬ mine core →
      ((∀ v, reach v → ¬ mine v) → s.pop core l = (s, if l.unassigned cl then .wait else .none_)) ∧
      (∀ v, reach v → mine v → (∀ w, reach w → mine w → place v ≤ place w) → q.length < 16 →
        (s.me.wait ≠ some (.turn v) → s.pop core l = (s, .turn v)) ∧
        (∀ front r, s.me.wait = some (.turn v) → (s.core v).workq = front ++ [r] → r.handle = l.handle → 1 ≤ r.count →
          let n := if r.count = 1 then 1 else r.count / 2
          ∃ t, s.pop core l = (t, .item (r.first + r.count - n)) ∧
            (t.core v).workq = (if r.count = 1 then front else front ++ [{ r with count := r.count - n }]) ∧
            (t.core core).workq = q ++ (if n = 1 then [] else [{ r with first := r.first + r.count - n + 1, count := n - 1 }]) ∧
            ∀ k, k ≠ v → k ≠ core → (t.core k).workq = (s.core k).workq)))) ∧
  (∀ (s : State) (core : Nat) (l : Launch), l.gang = true →
    (s.gangCores core = [] → (s.cluster (clusterOf core)).gangDue = none → s.pop core l = (s, .none_)) ∧
    (∀ first members r rest, s.gangCores core = first :: members → (s.cluster (clusterOf first)).gangDue = none →
      (s.core first).workq = r :: rest → r.handle = l.handle → (s.core first).robbedAt ≠ some s.cycle →
      s.pop core l = (s.modCore first fun c =>
        { c with workq := if r.count ≤ 1 then rest else { r with first := r.first + 1, count := r.count - 1 } :: rest }, .item r.first))) ∧
  (∀ (s : State) (d a : R6) (mig : Bit) (st : St),
    let h := (if a = 0 then s.me.k 2 else s.rd a).toNat
    let core := s.myCore
    let quiet := s.modCore core fun k => { k with idleMark := false }
    let past (u : State) := if isHelper s.cur = true ∧ (u.me.form ≠ .startw ∨ u.me.own.isSome = true) then u.dropItem s.cur else u
    (s.Open [a] [d] → s.running? (s.vfOf s.cur) h = none → exec (.popw d a st) s = .next (((past s).wr d (BitVec.allOnes 64)).finish ⟨4, st⟩)) ∧
    (∀ l, s.Open [a] [d] → s.running? (s.vfOf s.cur) h = some l → ∀ u,
      (s.pop core l = (u, .wait) → ∃ t, exec (.popw d a st) s = .next t ∧ Waits u t (.item h)) ∧
      (∀ v, s.pop core l = (u, .turn v) → ∃ t, exec (.popw d a st) s = .next t ∧ Waits u t (.turn v)) ∧
      (s.pop core l = (u, .none_) → exec (.popw d a st) s =
        .next (((past u).wr d (BitVec.allOnes 64)).finish ⟨4, st⟩)) ∧
      (∀ r, s.pop core l = (u, .item r) → isHelper s.cur = false → exec (.popw d a st) s =
        .next (((match u.launch? h with
          | some l => u.setLaunch { l with running := l.running + 1 }
          | none => u).wr d (BitVec.ofNat 64 (l.widOfRank r))).finish ⟨4, st⟩)) ∧
      (∀ r, s.pop core l = (u, .item r) → isHelper s.cur = true → exec (.popw d a st) s =
        .next (((((match u.launch? h with
          | some l => u.setLaunch { l with running := l.running + 1 }
          | none => u).dropItem s.cur).modMe fun c => { c.setK 1 (BitVec.ofNat 64 (l.widOfRank r)) with item := some (h, l.widOfRank r) }).wr d
            (BitVec.ofNat 64 (l.widOfRank r))).finish ⟨4, st⟩))) ∧
    (∀ p ∈ ([(.startw d a st, false, 4), (.startwX d a mig st, mig == 1, 12)] : List (Instr × Bool × Nat)),
      (isHelper s.cur = true → exec p.1 s = .next (s.trap 0x01 (s.word0.setWidth 64))) ∧
      (isHelper s.cur = false → s.Open [a] [d] →
        (s.running? (s.vfOf s.cur) h = none → ∃ t, exec p.1 s = .next t ∧ Writes quiet t d (BitVec.allOnes 64) 1 p.2.2 st) ∧
        (∀ l, s.running? (s.vfOf s.cur) h = some l →
          let members := if l.gang then s.gangCores core else [core]
          (members = [] → ∃ t, exec p.1 s = .next t ∧ Writes quiet t d (BitVec.allOnes 64) 1 p.2.2 st) ∧
          (members ≠ [] → l.gang = true ∧ members.head? ≠ some core ∨ (∃ c ∈ members, s.freeSlot c = none) →
            ∃ t, exec p.1 s = .next t ∧ Writes quiet t d 0 1 p.2.2 st) ∧
          (members ≠ [] → (l.gang = true → members.head? = some core) → (∀ c ∈ members, s.freeSlot c ≠ none) → ∀ u,
            (quiet.pop core l = (u, .none_) → ∃ t, exec p.1 s = .next t ∧ Writes u t d (BitVec.allOnes 64) 1 p.2.2 st) ∧
            (quiet.pop core l = (u, .wait) → ∃ t, exec p.1 s = .next t ∧ Waits u t (.item h)) ∧
            (∀ v, quiet.pop core l = (u, .turn v) → ∃ t, exec p.1 s = .next t ∧ Waits u t (.turn v)) ∧
            (∀ r, quiet.pop core l = (u, .item r) → ∃ t, exec p.1 s = .next t ∧
              Writes (startItem l p.2.1 r members u).1 t d (startItem l p.2.1 r members u).2 1 p.2.2 st)))))))) ∧
  ((∀ (s : State) (d a b : R6) (st : St),
    (s.Open [a] [d] →
      let wid := (s.rd a).toNat
      let l? := s.running? (s.vfOf s.cur) (s.me.k 2).toNat
      (l? = none → Computes s (.pushw d a st) d 1 1 4 st) ∧
      (∀ l, l? = some l →
        let g := l.groupAt l.clevel wid
        let core := s.queueCore s.myCore l
        (l.isItem wid = false ∨ g ∈ l.bits ∨ l.failed = true → Computes s (.pushw d a st) d 1 1 4 st) ∧
        (l.isItem wid = true → g ∉ l.bits → l.failed = false → 16 ≤ (s.core core).workq.length →
          ∃ t, exec (.pushw d a st) s = .next t ∧ Waits s t (.room core)) ∧
        (l.isItem wid = true → g ∉ l.bits → l.failed = false → (s.core core).workq.length < 16 →
          ∃ t, exec (.pushw d a st) s = .next t ∧
            Writes (((s.setLaunch { l with pushed := l.pushed.put g (l.pushed.get g 0 + 1) }).modCore core fun c =>
              { c with workq := c.workq ++ [{ handle := l.handle, first := l.rank wid, count := 1 }], idleMark := true }).dropClean
              (clusterOf s.myCore)) t d 0 1 4 st))) ∧
    (s.Clear [a, b] [d] →
      let wid := (s.rd a).toNat
      let n := (s.rd b).toNat
      (s.me.k 2 = 0 ∨ s.launch? (s.me.k 2).toNat = none →
        Computes s (.widf d a b st) d (BitVec.allOnes 64) 1 4 st ∧ Computes s (.widr d a b st) d (BitVec.allOnes 64) 1 4 st) ∧
      (∀ l, s.me.k 2 ≠ 0 → s.launch? (s.me.k 2).toNat = some l →
        Computes s (.widf d a b st) d (if l.isItem wid = true ∧ 1 ≤ n ∧ n ≤ l.fieldCount then
          BitVec.ofNat 64 ((fieldsOf l.ws wid).getD (n - 1) 0) else BitVec.allOnes 64) 1 4 st ∧
        Computes s (.widr d a b st) d (if l.isItem wid = true ∧ n ≤ l.fieldCount then BitVec.ofNat 64 (l.groupAt n wid)
          else BitVec.allOnes 64) 1 4 st))))

/-- LAUNCH and LWAIT. A header is refused with the lowest code of Table 1.3 whose condition it meets. LAUNCH waits
for the context’s acknowledgements, refuses an address that is untranslated or unaligned with code 0x05, writes
back the cluster’s dirty lines, traps where a page of its header does not translate, waits for the route to a
header in another module, and then writes a refusal or, with its bitmap pages writable, queues the launch and
writes its handle; LWAIT writes status 3 at once for an unknown handle, waits for the end, and then writes the
status, a failed item’s before that of discarded groups (the model’s choice, log entry 62), and the first
failure; where both destinations of LWAIT are one register, which of the two stays is left open (log entry 12).
(R14, R16, R20, R211, R212, R363, R381) -/
def Obligations.LaunchAndWait : Prop :=
  (∀ (s : State) (l : Launch) (tail : Bool), l.widths.length = 6 → l.extents.length = 6 →
    let w (i : Nat) : Nat := l.widths.getD i 0
    let e (i : Nat) : Nat := l.extents.getD i 0
    let n := ((List.range 6).filter fun i => w i ≠ 0).length
    let producer := s.launches.find? fun p => p.handle = l.producer ∧ p.vf = l.vf ∧ (p.st ≠ .ended ∨ s.ptp ≤ p.endedAt + 1000000)
    let groups (p : Launch) (k : Nat) : Nat := (p.extents.take k).prod
    let refused : List Prop := [
      (∃ i, i < 6 ∧ 32 < w i) ∨ 63 < l.widths.sum,
      n = 0 ∨ ∃ i j, i < j ∧ j < 6 ∧ w i = 0 ∧ w j ≠ 0,
      ∃ i, i < 6 ∧ if i < n then e i < 1 ∨ 2 ^ w i < e i ∨ 2 ^ 32 ≤ e i else e i ≠ 0,
      n < l.clevel ∨ n < l.plevel,
      tail = true,
      l.bitmap.toNat % 8 ≠ 0 ∨ 0 < l.clevel ∧ l.bitmap = 0,
      l.mode ≠ 0 ∧ producer = none,
      l.mode = 2 ∧ (l.plevel = 0 ∨ ∃ p, producer = some p ∧ (p.bitmap = 0 ∨ groups p p.clevel ≤ (groups l l.plevel - 1) / 2 ^ l.shift)),
      l.window % 6 ≠ 0 ∨ 48 < l.window,
      l.gang = true ∧ (l.gangLen < 2 ∨ 8 < l.gangLen ∨ l.setSize * 8 < l.gangLen),
      32 ≤ (s.launches.filter fun p => p.vf = l.vf ∧ p.prio = l.prio ∧ p.st ≠ .ended).length,
      l.entry.toNat % 4 ≠ 0]
    (∀ k, k < 12 → refused.getD k False → (∀ j, j < k → ¬ refused.getD j False) → refusal s l tail = k + 1) ∧
    ((∀ k, k < 12 → ¬ refused.getD k False) → refusal s l tail = 0)) ∧
  (∀ (s : State) (d a e : R6) (imm : W32) (st : St),
    (s.Open [a] [d] → ∀ p ∈ ([(.launch d a st, 0, 4), (.launchX d a imm st, imm.signExtend 64, 12)] : List (Instr × W64 × Nat)),
      let addr := (s.rd a + p.2.1).toNat
      (s.acks s.cur ≠ 0 → ∃ t, exec p.1 s = .next t ∧ Waits s t .acks) ∧
      (s.acks s.cur = 0 → placeOf addr ≠ .translated ∨ addr % 64 ≠ 0 → Computes s p.1 d 0x8000000000000005 1 p.2.2 st) ∧
      (s.acks s.cur = 0 → placeOf addr = .translated → addr % 64 = 0 → ∀ u f,
        translateAll s.cur accLoad (headerPages addr) (s.writeBack (clusterOf s.myCore) (fun _ => true) false) = (u, some f) →
        let g := { f with va := if f.cause = 0x05 then BitVec.ofNat 64 addr else f.va }
        exec p.1 s = .next (u.takeTrap u.cur g.cause g.va u.me.pc (some g))) ∧
      (s.acks s.cur = 0 → placeOf addr = .translated → addr % 64 = 0 → ∀ w u ws,
        translateAll s.cur accLoad (headerPages addr) (s.writeBack (clusterOf s.myCore) (fun _ => true) false) = (w, none) →
        (∀ v dev, readHeader s.cur addr (List.range 16) w = (v, .error (.route dev)) → ∃ t, exec p.1 s = .next t ∧ Waits v t (.route dev)) ∧
        (readHeader s.cur addr (List.range 16) w = (u, .ok ws) →
        let l := headerOf u ws
        let code := refusal u l ((ws.drop 11).any (· ≠ 0))
        (code ≠ 0 → ∃ t, exec p.1 s = .next t ∧ Writes u t d (BitVec.ofNat 64 (2 ^ 63 + code)) 1 p.2.2 st) ∧
        (∀ v, code = 0 → translateAll u.cur accStore l.bitPages u = (v, none) →
          let r := ((v.accept { l with handle := v.nextHandle }).active l.vf l.phase).journalAdd 2 (dieOf v.myCore) l.vf (BitVec.ofNat 64 v.nextHandle :: ws)
          ∃ t, exec p.1 s = .next t ∧ Writes r t d (BitVec.ofNat 64 v.nextHandle) 1 p.2.2 st) ∧
        (∀ v f, code = 0 → translateAll u.cur accStore l.bitPages u = (v, some f) → exec p.1 s = .next (v.takeTrap v.cur f.cause f.va v.me.pc (some f)))))) ∧
    (s.Open [a] [d] → s.Open [a] [d, e] →
      let h := (s.rd a).toNat
      let l? := s.launches.find? fun l => l.handle == h && l.vf == s.vfOf s.cur
      (l? = none → Computes s (.lwait d a st) d 3 1 4 st) ∧
      (∀ l, l? = some l → l.st ≠ .ended → ∀ i ∈ [Instr.lwait d a st, .lwaitX d a e st], ∃ t, exec i s = .next t ∧ Waits s t (.launch h)) ∧
      (∀ l, l? = some l → l.st = .ended →
        let status := if l.failed then BitVec.ofNat 64 (1 + l.failCode % 65536 * 65536) else if l.depFail then 2 else 0
        let wid := if l.failed then (match l.failWid with
          | some w => BitVec.ofNat 64 w
          | none => BitVec.allOnes 64) else BitVec.allOnes 64
        let u := if l.failed || l.depFail then s else s.modCluster (clusterOf s.myCore) fun c => { c with lines := c.lines.filter (·.dirty ≠ 0) }
        (∃ t, exec (.lwait d a st) s = .next t ∧ Writes u t d status 1 4 st) ∧
        (d ≠ e → ∃ t, exec (.lwaitX d a e st) s = .next t ∧ Writes (u.wr e wid) t d status 1 12 st) ∧
        (d = e → ∃ t, exec (.lwaitX d a e st) s = .next t ∧
          (Writes { u with fresh := u.fresh + 1 } t d status 1 12 st ∨ Writes { u with fresh := u.fresh + 1 } t d wid 1 12 st))) ∧
      (l? = none → d ≠ e → ∃ t, exec (.lwaitX d a e st) s = .next t ∧ Writes (s.wr e (BitVec.allOnes 64)) t d 3 1 12 st)))

/-- MFK and MTK. MFK writes the named k register, where BLK of ENGSTAT counts block commands alone (the model’s
choice, log entry 62); MTK writes the bits of a register that the context may write and keeps the others, and
traps with cause 0x02 where Table 6.6 gives no right and with cause 0x03 for a misaligned handler address.
(R152, R214) -/
def Obligations.SpecialRegisters : Prop :=
  ∀ (s : State) (d k a : R6) (st : St),
    let core := s.myCore
    let u := s.core core
    (s.Clear [] [d] →
      (∀ p ∈ ([(0, BitVec.ofNat 64 s.cur), (9, BitVec.ofNat 64 (s.ptp / (1000 * 2 ^ s.windowLog))), (10, BitVec.ofNat 64 s.ptp),
          (14, BitVec.ofNat 64 (u.vfid % 32)),
          (15, BitVec.ofNat 64 (if u.gangMask = 0 then 0 else u.gangMask + (core % 8 - gangFirst u.gangMask) * 256)),
          (16, BitVec.ofNat 64 ((u.queues.get 0 []).length + (u.queues.get 1 []).length * 2 ^ 2 + (u.queues.get 2 []).length * 2 ^ 4 +
            (u.queues.get 3 []).length * 2 ^ 6 + (u.queues.get 4 []).length * 2 ^ 8 + u.vqueue.length * 2 ^ 10 + (u.queues.get 5 []).length * 2 ^ 12 +
            (u.queues.get 6 []).length * 2 ^ 14 + (u.queues.get 7 []).length * 2 ^ 16)),
          (17, s.wsref (core / 1024)), (19, BitVec.ofNat 64 (s.me.lanes + (if s.me.yield then 2 ^ 16 else 0)))] : List (R6 × W64)),
        Computes s (.mfk d p.1 st) d p.2 1 4 st) ∧
      (∀ n ∈ ([1, 2, 3, 5, 6, 7, 8, 11, 12, 13, 18] : List R6), Computes s (.mfk d n st) d (s.me.kregs.get n.toNat 0) 1 4 st) ∧
      Computes s (.mfk d 4 st) d (s.me.kregs.get 4 0xFFFF) 1 4 st) ∧
    (let free := [3, 5, 6, 7, 8, 11, 12, 13, 18]
     let guarded := [1, 2, 4, 14]
     let mask : Nat → W64 := fun n => if n = 3 ∨ n = 5 then 1 else if n = 4 ∨ n = 8 then 0xFFFFFFFF else if n = 7 then 0xFFFF
       else if n = 11 then 0xFF else if n = 14 then 0x1F else 0xFFFFFFFFFFFFFFFF
     let may := k.toNat ∈ free ∨ (s.me.priv = true ∨ s.me.inTrap = true) ∧ k.toNat ∈ guarded
     (¬ may → exec (.mtk k a st) s = .next (s.trap 0x02 (s.word0.setWidth 64))) ∧
     (may → s.Clear [a] [] →
       (k = 6 → (s.rd a).toNat % 4 ≠ 0 → exec (.mtk k a st) s = .next (s.trap 0x03 (s.rd a))) ∧
       (k = 14 → ∃ t, exec (.mtk k a st) s = .next t ∧ Passes (s.modCore core fun c => { c with vfid := (s.rd a &&& 0x1F).toNat }) t 4 st) ∧
       (k ≠ 14 → (k = 6 → (s.rd a).toNat % 4 = 0) → ∃ t, exec (.mtk k a st) s = .next t ∧ OnlyMe s t ∧
         t.me.k k.toNat = s.rd a &&& mask k.toNat ∧ (∀ n, n ≠ k.toNat → t.me.k n = s.me.k n) ∧ t.me.regs = s.me.regs ∧ t.me.late = s.me.late ∧
         t.me.pc = s.me.pc + 4 ∧ t.me.gens = (if k = 18 then [] else s.me.gens))))

/-- TRAP, BRK, SYSC and ERET. TRAP traps with cause 0x0F and its operand, BRK with cause 0x10 and 0; SYSC waits for
the acknowledgements and then for Cleoz; ERET leaves the Cleoz trap handler or a miss handler to TPCV, of two
nested ones the one entered last (the model’s choice, log entry 3), traps with cause 0x03 on a misaligned TPCV
and with cause 0x01 anywhere else. (R215, R216, R217) -/
def Obligations.SoftwareTraps : Prop :=
  ∀ (s : State) (d a : R6) (st : St),
    (s.Clear [a] [] → exec (.trap a st) s = .next (s.trap 0x0F (s.rd a))) ∧
    (s.Clear [] [] → exec (.brk st) s = .next (s.trap 0x10 0)) ∧
    (s.Clear [a] [d] →
      (s.acks s.cur ≠ 0 → ∃ t, exec (.sysc d a st) s = .next t ∧ Waits s t .acks) ∧
      (s.acks s.cur = 0 → ∃ t, exec (.sysc d a st) s = .next t ∧ Waits s t (.service (s.me.regKey d) st.toNat))) ∧
    (s.Clear [] [] →
      (s.me.inTrap = false → s.me.inMiss = false → exec (.eret st) s = .next (s.trap 0x01 (s.word0.setWidth 64))) ∧
      (s.me.inTrap = true ∨ s.me.inMiss = true → (s.me.k 12).toNat % 4 ≠ 0 → exec (.eret st) s = .next (s.trap 0x03 (s.me.k 12))) ∧
      (s.me.inTrap = true ∨ s.me.inMiss = true → (s.me.k 12).toNat % 4 = 0 → ∃ t, exec (.eret st) s = .next t ∧ OnlyMe s t ∧
        t.me.pc = s.me.k 12 ∧
        (s.me.inTrap = false ∨ s.me.inMiss = true ∧ s.me.missTop = true → t.me.inMiss = false ∧ t.me.inTrap = s.me.inTrap) ∧
        (s.me.inTrap = true → s.me.inMiss = false ∨ s.me.missTop = false → t.me.inTrap = false ∧ t.me.inMiss = s.me.inMiss) ∧ t.me.regs = s.me.regs ∧
        t.me.kregs = s.me.kregs ∧ t.me.wait = none))

/-- What taking a trap saves and where it goes. A trap writes TCAUSE, TPCV and TVAL of the context and drops no
stall of an earlier instruction; a translation miss with PTHND other than zero outside a miss handler enters
PTHND with the shadow registers in view, in a helper and in a control context alike; else a control context
enters the Cleoz trap handler, with its own registers in view (the model’s choice, log entry 3); else a page
fault waits to be saved; else a helper writes a trap record (the list that holds it is the model’s, log entry
14) and goes to Closing with failure code 0x0100 plus the cause. (R12, R85, R154, R217) -/
def Obligations.TrapEntry : Prop :=
  ∀ (s : State) (ctx cause : Nat) (tval pc : W64) (info : Option FaultInfo), cause < 256 →
    let c := s.ctx ctx
    let t := s.takeTrap ctx cause tval pc info
    let n := t.ctx ctx
    let handler := cause = 0x0A ∧ c.k 6 ≠ 0 ∧ c.inMiss = false
    n.k 11 = BitVec.ofNat 64 cause ∧ n.k 12 = pc ∧ n.k 13 = tval ∧ (∀ k, k ≠ 11 → k ≠ 12 → k ≠ 13 → n.k k = c.k k) ∧ n.regs = c.regs ∧ n.nextIssue = c.nextIssue ∧
    t.mem = s.mem ∧ t.flights = s.flights ∧ t.admin = s.admin ∧ (∀ id, id ≠ ctx → t.ctx id = s.ctx id) ∧
    (handler → n.pc = c.k 6 ∧ n.inMiss = true ∧ n.inView = true ∧ n.inTrap = c.inTrap ∧ n.life = c.life ∧ t.records = s.records) ∧
    (¬ handler → isHelper ctx = false → n.pc = s.cleozTrap ∧ n.inTrap = true ∧ n.inView = false ∧ n.life = c.life ∧ n.inMiss = c.inMiss ∧ t.records = s.records) ∧
    (¬ handler → isHelper ctx = true → cause = 0x04 → n.pc = pc ∧ n.wait = some .fault ∧ n.fault = info ∧ n.life = c.life ∧ t.records = s.records) ∧
    (¬ handler → isHelper ctx = true → cause ≠ 0x04 →
      t.records = s.records ++ [{ ctx := ctx, hnum := c.hnum, cause := cause, pc := pc, tval := tval }] ∧ n.life = .closing ∧
      (c.life ≠ .closing → n.failed = true ∧ n.code = 0x0100 + cause ∧ n.inMiss = false))

/-- The sized loads and stores. Each form of LDB to LDD checks A plus its displacement in the order of Table 9.4,
traps as the checks say, and else sends a load of its size and extension to the register, with its scope, order
and tag condition; the context goes on, is held for a destination of s0, and keeps its later accesses back for
an acquire; while an acquire is under way the instruction waits; the issue changes no memory on a TLB hit or at
a window address, and else only the A and D bits of the page-table entry at which the walk ends, whose line’s
dirty bytes come home first. Each form of STB to STD checks its address in the order of Table 9.4 and else sends
a store of the register’s value, counted towards the store-acknowledge counter; the context goes on, and is held
for an acquire; while an acquire is under way the instruction waits; the issue changes no memory on a TLB hit or
at a window address, and else only the A and D bits of the page-table entry at which the walk ends, whose line’s
dirty bytes come home first. (R92, R151, R220, R221, R222, R245, R246, R399, R412) -/
def Obligations.LoadsAndStores : Prop :=
  ((∀ (s : State) (d a : R6) (imm8 : Byte) (imm : W32) (lit : W64) (sc od sy : BitVec 2) (ph : Bit) (st : St),
    ∀ p ∈ ([(.ldb d a imm8 st, imm8.signExtend 64 * 1, 4, 0, 0, 0, 1, true),
      (.ldbLit d a lit st, lit, 12, 0, 0, 0, 1, true),
      (.ldbX d a sc od sy ph imm st, imm.signExtend 64, 12, sc.toNat, od.toNat, sy.toNat, 1, true),
      (.ldbXlit d a sc od sy ph lit st, lit, 20, sc.toNat, od.toNat, sy.toNat, 1, true),
      (.ldbz d a imm8 st, imm8.signExtend 64 * 1, 4, 0, 0, 0, 1, false),
      (.ldbzLit d a lit st, lit, 12, 0, 0, 0, 1, false),
      (.ldbzX d a sc od sy ph imm st, imm.signExtend 64, 12, sc.toNat, od.toNat, sy.toNat, 1, false),
      (.ldbzXlit d a sc od sy ph lit st, lit, 20, sc.toNat, od.toNat, sy.toNat, 1, false),
      (.ldh d a imm8 st, imm8.signExtend 64 * 2, 4, 0, 0, 0, 2, true),
      (.ldhLit d a lit st, lit, 12, 0, 0, 0, 2, true),
      (.ldhX d a sc od sy ph imm st, imm.signExtend 64, 12, sc.toNat, od.toNat, sy.toNat, 2, true),
      (.ldhXlit d a sc od sy ph lit st, lit, 20, sc.toNat, od.toNat, sy.toNat, 2, true),
      (.ldhz d a imm8 st, imm8.signExtend 64 * 2, 4, 0, 0, 0, 2, false),
      (.ldhzLit d a lit st, lit, 12, 0, 0, 0, 2, false),
      (.ldhzX d a sc od sy ph imm st, imm.signExtend 64, 12, sc.toNat, od.toNat, sy.toNat, 2, false),
      (.ldhzXlit d a sc od sy ph lit st, lit, 20, sc.toNat, od.toNat, sy.toNat, 2, false),
      (.ldw d a imm8 st, imm8.signExtend 64 * 4, 4, 0, 0, 0, 4, true),
      (.ldwLit d a lit st, lit, 12, 0, 0, 0, 4, true),
      (.ldwX d a sc od sy ph imm st, imm.signExtend 64, 12, sc.toNat, od.toNat, sy.toNat, 4, true),
      (.ldwXlit d a sc od sy ph lit st, lit, 20, sc.toNat, od.toNat, sy.toNat, 4, true),
      (.ldwz d a imm8 st, imm8.signExtend 64 * 4, 4, 0, 0, 0, 4, false),
      (.ldwzLit d a lit st, lit, 12, 0, 0, 0, 4, false),
      (.ldwzX d a sc od sy ph imm st, imm.signExtend 64, 12, sc.toNat, od.toNat, sy.toNat, 4, false),
      (.ldwzXlit d a sc od sy ph lit st, lit, 20, sc.toNat, od.toNat, sy.toNat, 4, false),
      (.ldd d a imm8 st, imm8.signExtend 64 * 8, 4, 0, 0, 0, 8, false),
      (.lddLit d a lit st, lit, 12, 0, 0, 0, 8, false),
      (.lddX d a sc od sy ph imm st, imm.signExtend 64, 12, sc.toNat, od.toNat, sy.toNat, 8, false),
      (.lddXlit d a sc od sy ph lit st, lit, 20, sc.toNat, od.toNat, sy.toNat, 8, false)] :
        List (Instr × W64 × Nat × Nat × Nat × Nat × Nat × Bool)),
      let (i, disp, len, scope, order, sync, size, sext) := p
      (s.me.acquiring = true → ∃ t, exec i s = .next t ∧ Waits s t .acquire) ∧
      (s.Open [a] [d] →
        Accesses s i (s.rd a + disp) size (if sync = 1 then accAtomic else accLoad) (sync ≠ 0) (sync ≠ 0) (d = 0) (order = 1 ∨ order = 3) len st fun f =>
        f.op = .load ∧ f.sext = sext ∧ f.dst = some (s.me.regKey d) ∧ f.dst2 = none ∧ f.sync = sync ∧ f.scope = scope ∧ f.order = order ∧
          f.counted = (sync == 1)))) ∧
  ((∀ (s : State) (d a : R6) (imm8 : Byte) (imm : W32) (lit : W64) (sc od sy : BitVec 2) (ph : Bit) (st : St),
    ∀ p ∈ ([(.stb d a imm8 st, imm8.signExtend 64 * 1, 4, 0, 0, 0, 1),
      (.stbLit d a lit st, lit, 12, 0, 0, 0, 1),
      (.stbX d a sc od sy ph imm st, imm.signExtend 64, 12, sc.toNat, od.toNat, sy.toNat, 1),
      (.stbXlit d a sc od sy ph lit st, lit, 20, sc.toNat, od.toNat, sy.toNat, 1),
      (.sth d a imm8 st, imm8.signExtend 64 * 2, 4, 0, 0, 0, 2),
      (.sthLit d a lit st, lit, 12, 0, 0, 0, 2),
      (.sthX d a sc od sy ph imm st, imm.signExtend 64, 12, sc.toNat, od.toNat, sy.toNat, 2),
      (.sthXlit d a sc od sy ph lit st, lit, 20, sc.toNat, od.toNat, sy.toNat, 2),
      (.stw d a imm8 st, imm8.signExtend 64 * 4, 4, 0, 0, 0, 4),
      (.stwLit d a lit st, lit, 12, 0, 0, 0, 4),
      (.stwX d a sc od sy ph imm st, imm.signExtend 64, 12, sc.toNat, od.toNat, sy.toNat, 4),
      (.stwXlit d a sc od sy ph lit st, lit, 20, sc.toNat, od.toNat, sy.toNat, 4),
      (.std d a imm8 st, imm8.signExtend 64 * 8, 4, 0, 0, 0, 8),
      (.stdLit d a lit st, lit, 12, 0, 0, 0, 8),
      (.stdX d a sc od sy ph imm st, imm.signExtend 64, 12, sc.toNat, od.toNat, sy.toNat, 8),
      (.stdXlit d a sc od sy ph lit st, lit, 20, sc.toNat, od.toNat, sy.toNat, 8)] :
        List (Instr × W64 × Nat × Nat × Nat × Nat × Nat)),
      let (i, disp, len, scope, order, sync, size) := p
      (s.me.acquiring = true → ∃ t, exec i s = .next t ∧ Waits s t .acquire) ∧
      (s.Open [a, d] [] → Accesses s i (s.rd a + disp) size (if sync = 0 then accStore else accTag) (sync ≠ 0) (sync ≠ 0) (order = 1 ∨ order = 3) (order = 1 ∨ order = 3) len st fun f =>
        f.op = .store ∧ f.x = s.rd d ∧ f.dst = none ∧ f.dst2 = none ∧ f.sync = sync ∧ f.scope = scope ∧ f.order = order ∧ f.counted = true)))

/-- LDFE, LDFF, LDTAG, STEF, STFF, TCLR and TFILL. Each tag instruction checks its 8-byte address in the order of
Table 9.4, with the weight store refused, and else sends its access with its destinations and data; the context
goes on, and is held for a destination of s0 (TCLR and TFILL never hold it); all but LDTAG and LDFF, which
change nothing, count towards the store-acknowledge counter; the issue changes no memory on a TLB hit or at a
window address, and else only the A and D bits of the page-table entry at which the walk ends, whose line’s
dirty bytes come home first, and no tag. (R220, R225, R226, R227, R228, R229, R246, R87, R151, R399, R412) -/
def Obligations.TagInstructions : Prop :=
  ∀ (s : State) (d a b e : R6) (imm : W32) (sc od : BitVec 2) (ph : Bit) (st : St),
    (s.Open [a] [d, e] → s.Open [a] [d, 0] → ∀ p ∈ ([(.ldfe d a st, 0, 4, 0, 0, accAtomic, .ldfe, 0, true),
        (.ldfeX d a e sc od ph imm st, imm.signExtend 64, 12, sc.toNat, od.toNat, accAtomic, .ldfe, e, true),
        (.ldff d a st, 0, 4, 0, 0, accLoad, .ldff, 0, false),
        (.ldffX d a e sc od ph imm st, imm.signExtend 64, 12, sc.toNat, od.toNat, accLoad, .ldff, e, false)] : List (Instr × W64 × Nat × Nat × Nat × Acc × MemOp × R6 × Bool)),
      let (i, disp, len, scope, order, acc, op, x, counts) := p
      Accesses s i (s.rd a + disp) 8 acc true true (d = 0) (order = 1 ∨ order = 3) len st fun f =>
        f.op = op ∧ f.dst = some (s.me.regKey d) ∧ f.dst2 = some (s.me.regKey x) ∧ f.scope = scope ∧ f.order = order ∧ f.sync = 0 ∧ f.sext = false ∧ f.counted = counts) ∧
    (s.Open [a] [d] → ∀ p ∈ ([(.ldtag d a st, 0, 4, 0, 0), (.ldtagX d a sc od ph imm st, imm.signExtend 64, 12, sc.toNat, od.toNat)] :
        List (Instr × W64 × Nat × Nat × Nat)),
      let (i, disp, len, scope, order) := p
      Accesses s i (s.rd a + disp) 8 accLoad true true (d = 0) (order = 1 ∨ order = 3) len st fun f =>
        f.op = .ldtag ∧ f.dst = some (s.me.regKey d) ∧ f.dst2 = none ∧ f.scope = scope ∧ f.order = order ∧ f.counted = false) ∧
    (s.Open [a, b] [d] → ∀ p ∈ ([(.stef d a b st, 0, 4, 0, 0, .stef),
        (.stefX d a b sc od ph imm st, imm.signExtend 64, 12, sc.toNat, od.toNat, .stef),
        (.stff d a b st, 0, 4, 0, 0, .stff),
        (.stffX d a b sc od ph imm st, imm.signExtend 64, 12, sc.toNat, od.toNat, .stff)] : List (Instr × W64 × Nat × Nat × Nat × MemOp)),
      let (i, disp, len, scope, order, op) := p
      Accesses s i (s.rd a + disp) 8 accTag true true (d = 0) (order = 1 ∨ order = 3) len st fun f =>
        f.op = op ∧ f.dst = some (s.me.regKey d) ∧ f.x = s.rd b ∧ f.scope = scope ∧ f.order = order ∧ f.counted = true) ∧
    (s.Open [a] [] → ∀ p ∈ ([(.tclr a st, 0, 4, 0, 0, .tclr),
        (.tclrX a sc od ph imm st, imm.signExtend 64, 12, sc.toNat, od.toNat, .tclr),
        (.tfill a st, 0, 4, 0, 0, .tfill),
        (.tfillX a sc od ph imm st, imm.signExtend 64, 12, sc.toNat, od.toNat, .tfill)] : List (Instr × W64 × Nat × Nat × Nat × MemOp)),
      let (i, disp, len, scope, order, op) := p
      Accesses s i (s.rd a + disp) 8 accTag true true false (order = 1 ∨ order = 3) len st fun f =>
        f.op = op ∧ f.dst = none ∧ f.dst2 = none ∧ f.scope = scope ∧ f.order = order ∧ f.counted = true)

/-- The atomics. Each atomic checks its address in the order of Table 9.4, needing read and write permission, and
else sends its function with operand B and, for ACAS, the expected value C; with a destination of s0 it is a
reduction, for which the context waits only with order acq or ar; the issue changes no memory on a TLB hit or at
a window address, and else only the A and D bits of the page-table entry at which the walk ends, whose line’s
dirty bytes come home first. (R220, R230, R231, R245, R246, R399, R412) -/
def Obligations.Atomics : Prop :=
  ∀ (s : State) (d a b c : R6) (imm : W32) (sc od : BitVec 2) (ph : Bit) (st : St), s.Open [a, b, c] [d] → s.Open [a, b, 0] [d] →
    ∀ p ∈ ([(.aadd d a b st, 0, 4, 0, 0, 8, .add, 0),
      (.aaddX d a b sc od ph imm st, imm.signExtend 64, 12, sc.toNat, od.toNat, 8, .add, 0),
      (.amin d a b st, 0, 4, 0, 0, 8, .min, 0),
      (.aminX d a b sc od ph imm st, imm.signExtend 64, 12, sc.toNat, od.toNat, 8, .min, 0),
      (.amax d a b st, 0, 4, 0, 0, 8, .max, 0),
      (.amaxX d a b sc od ph imm st, imm.signExtend 64, 12, sc.toNat, od.toNat, 8, .max, 0),
      (.aminz d a b st, 0, 4, 0, 0, 8, .minz, 0),
      (.aminzX d a b sc od ph imm st, imm.signExtend 64, 12, sc.toNat, od.toNat, 8, .minz, 0),
      (.aand d a b st, 0, 4, 0, 0, 8, .and, 0),
      (.aandX d a b sc od ph imm st, imm.signExtend 64, 12, sc.toNat, od.toNat, 8, .and, 0),
      (.aor d a b st, 0, 4, 0, 0, 8, .or, 0),
      (.aorX d a b sc od ph imm st, imm.signExtend 64, 12, sc.toNat, od.toNat, 8, .or, 0),
      (.axor d a b st, 0, 4, 0, 0, 8, .xor, 0),
      (.axorX d a b sc od ph imm st, imm.signExtend 64, 12, sc.toNat, od.toNat, 8, .xor, 0),
      (.aswp d a b st, 0, 4, 0, 0, 8, .swp, 0),
      (.aswpX d a b sc od ph imm st, imm.signExtend 64, 12, sc.toNat, od.toNat, 8, .swp, 0),
      (.aaddf d a b st, 0, 4, 0, 0, 4, .addf, 0),
      (.aaddfX d a b sc od ph imm st, imm.signExtend 64, 12, sc.toNat, od.toNat, 4, .addf, 0),
      (.amaxf d a b st, 0, 4, 0, 0, 4, .maxf, 0),
      (.amaxfX d a b sc od ph imm st, imm.signExtend 64, 12, sc.toNat, od.toNat, 4, .maxf, 0),
      (.ainc d a b st, 0, 4, 0, 0, 8, .inc, 0),
      (.aincX d a b sc od ph imm st, imm.signExtend 64, 12, sc.toNat, od.toNat, 8, .inc, 0),
      (.acas d a b st, 0, 4, 0, 0, 8, .cas, 0),
      (.acasX d a b c sc od ph imm st, imm.signExtend 64, 12, sc.toNat, od.toNat, 8, .cas, c)] : List (Instr × W64 × Nat × Nat × Nat × Nat × AtomFn × R6)),
      let (i, disp, len, scope, order, size, fn, z) := p
      Accesses s i (s.rd a + disp) size accAtomic false true (d = 0 ∧ (order = 1 ∨ order = 3)) (order = 1 ∨ order = 3) len st fun f =>
        f.op = .atomic fn ∧ f.dst = some (s.me.regKey d) ∧ f.dst2 = none ∧ f.x = s.rd b ∧ f.y = s.rd z ∧ f.scope = scope ∧ f.order = order ∧
          f.counted = true ∧ f.sext = false

/-- The order of the checks of an address. An address outside every unit, or an access that wraps or leaves its
unit, traps first, with cause 0x05, or 0x06 and the first address of the next unit between two local memories or
two scratchpads; a local-alias, mesh or scratchpad address then meets its window and placed set (0x06), then
alignment (0x03), then the berth (0x14); a translated address meets alignment first and then its page, a missing
entry being a page fault and anything else cause 0x05; the weight store refuses a write, a tagged access, a
loading die and a die of another virtual function, and lets its owner read. (R246, R58, R63, R69, R428) -/
def Obligations.AccessChecks : Prop :=
  ∀ (s : State) (ctx a size : Nat) (acc : Acc) (tagged : Bool), 0 < size →
    let r := s.checkAccess ctx a size acc tagged
    let A := BitVec.ofNat 64 a
    let e := a + (size - 1)
    let c := s.ctx ctx
    (placeOf a = .unmapped → r = .trap 0x05 A) ∧
    (2 ^ 64 ≤ e → r = .trap 0x05 A) ∧
    (e < 2 ^ 64 →
      (placeOf e = .unmapped → r = .trap 0x05 A) ∧
      (∀ i o j p, placeOf a = .mesh i o → placeOf e = .mesh j p → i ≠ j → r = .trap 0x06 (BitVec.ofNat 64 (meshBase + (i + 1) * 0x20000))) ∧
      (∀ i o j p, placeOf a = .sram i o → placeOf e = .sram j p → i ≠ j → r = .trap 0x06 (BitVec.ofNat 64 (sramBase + (i + 1) * 0x200000))) ∧
      (∀ o p, placeOf a = .local_ o → placeOf e = .local_ p →
        (c.mig = true → r = .trap 0x06 A) ∧
        (c.mig = false → a % size ≠ 0 → r = .trap 0x03 A) ∧
        (c.mig = false → a % size = 0 → isHelper ctx = true → c.actor = none → s.inBerth (coreOf ctx) (o + size - 1) = true → r = .trap 0x14 A) ∧
        (c.mig = false → a % size = 0 → isHelper ctx = false ∨ s.inBerth (coreOf ctx) (o + size - 1) = false →
          r = .ok s ⟨meshBase + coreOf ctx * 0x20000 + o, false, false⟩ true)) ∧
      (∀ i o p, placeOf a = .mesh i o → placeOf e = .mesh i p →
        (clusterOf i ∉ c.placed → r = .trap 0x06 A) ∧
        (clusterOf i ∈ c.placed → a % size ≠ 0 → r = .trap 0x03 A) ∧
        (clusterOf i ∈ c.placed → a % size = 0 → isHelper ctx = true → c.actor = none → s.inBerth i (o + size - 1) = true → r = .trap 0x14 A) ∧
        (clusterOf i ∈ c.placed → a % size = 0 → isHelper ctx = false ∨ s.inBerth i (o + size - 1) = false → r = .ok s ⟨a, false, false⟩ false)) ∧
      (∀ i o p, placeOf a = .sram i o → placeOf e = .sram i p →
        (i ∉ c.placed ∨ s.scratch i < o + size → r = .trap 0x06 A) ∧
        (i ∈ c.placed → o + size ≤ s.scratch i → a % size ≠ 0 → r = .trap 0x03 A) ∧
        (i ∈ c.placed → o + size ≤ s.scratch i → a % size = 0 → r = .ok s ⟨a, false, false⟩ false)) ∧
      (∀ d o f p, placeOf a = .weight d o → placeOf e = .weight f p →
        (a % size ≠ 0 → r = .trap 0x03 A) ∧
        (let owner := (s.reg 0xFF00100000718).toNat / 2 ^ (8 * d) % 32
         (a % size = 0 → acc.w = true ∨ tagged = true ∨ (s.die d).loading = true ∨ owner ≠ s.vfOf ctx → r = .trap 0x05 A) ∧
         (a % size = 0 → acc.w = false → tagged = false → (s.die d).loading = false → owner = s.vfOf ctx → r = .ok s ⟨a, false, false⟩ false))) ∧
      (placeOf a = .translated → placeOf e = .translated →
        (a % size ≠ 0 → r = .trap 0x03 A) ∧
        (a % size = 0 → ∀ u,
          (∀ x, s.translate (coreOf ctx) (s.vfOf ctx) c.asid c.privileged a acc = (u, .ok x) → r = .ok u x false) ∧
          (∀ f, s.translate (coreOf ctx) (s.vfOf ctx) c.asid c.privileged a acc = (u, .error f) →
            r = if f.cause = 0x04 then .page u f else .trap 0x05 A))))

/-- The events of an access in flight. HOME_ACCESS performs the first arrival of an access whose way is free if its
tag is met, and then serves the waiters of its word; else the access waits or backs off; an atomic or tagged
access that crosses a port with its reply cache off traps its context with cause 0x05; BACKOFF_REISSUE does the
same for a refused access; STORE_ACK removes a performed access; TAG_WAIT_TIMEOUT ends an access whose limit has
passed since it began to wait or back off with cause 0x11; TOWLINE_REISSUE changes nothing. (R73, R77, R87, R88,
R112, R224, R412) -/
def Obligations.AccessEvents : Prop :=
  ∀ (s : State) (id : Nat),
    let f? := s.flights.find? (·.id == id)
    let arrives (f : Flight) : State :=
      if f.remote && (f.op.isTagged f.sync || f.op matches .atomic _) && (match s.routeTo (keyDev f.key) with
        | some p => s.regBits (towBase p + 0x108) 0 0 == 0
        | none => false)
      then ((({ s with flights := s.flights.filter (·.id ≠ f.id) } : State).dropStall f.ctx f.until_).takeTrap f.ctx 0x05 f.va f.pc none).withdrawNotices
      else if s.tagMet f then ((s.performNow f).serve f.key s.flights.length).withdrawNotices else (s.enqueueTag f).withdrawNotices
    (∀ f, f? = some f → s.mayArrive f = true →
      (f.refused = 0 → exec (.homeAccess id) s = .next (arrives f)) ∧ (f.refused ≠ 0 → exec (.backoffReissue id) s = .next (arrives f))) ∧
    (∀ f, f? = some f → f.performed = true →
      exec (.storeAck id) s = .next { s with flights := s.flights.filter (·.id ≠ id) }.withdrawNotices) ∧
    (∀ f, f? = some f → f.abandoned = true → (s.ctx f.ctx).k 8 ≠ 0 → f.since + ((s.ctx f.ctx).k 8).toNat ≤ s.cycle →
      exec (.tagWaitTimeout id) s = .next ((({ s with flights := s.flights.filter (·.id ≠ id) } : State).dropStall f.ctx f.until_).takeTrap f.ctx 0x11 f.va f.pc none)) ∧
    (∀ c n, let u := (s.dropStall c n).ctx c
      u.nextIssue = (if (s.ctx c).nextIssue = n then min n (s.cycle + 1) else (s.ctx c).nextIssue) ∧ { u with nextIssue := (s.ctx c).nextIssue } = s.ctx c) ∧
    (f? = none → ∀ i ∈ [Instr.homeAccess id, .backoffReissue id, .storeAck id, .tagWaitTimeout id], exec i s = .next s) ∧
    exec (.towlineReissue id) s = .next s

/-- What an access does where it is performed. An access that is not performed in a cluster cache, to a line that no
cluster holds dirty: a load and an LDFF write the value, and a fe load, an LDFE that finds the word full and an
ACQ empty it, LDFE and LDFF writing the tag they found to their second register; an ACQ of scope dev or sys
leaves no line of its bound ranges in the cluster cache; a store and a REL change exactly their bytes, an ef
store and a REL fill the word, and poison goes from the words they cover whole and from no other; poison stops a
load, LDFE, LDFF, ACQ or atomic, which leaves memory and tags and traps its context with cause 0x0C, a reduction
ending its context as by FAIL instead and an access of another module doing neither; LDTAG, STEF, STFF, TCLR,
TFILL and the atomics have the effects of R225 to R230; every other byte of memory is unchanged. In a cluster
cache whose line is present, a load reads the line and a store changes its bytes of the line and marks them
dirty, and neither changes memory. (R12, R66, R96, R221, R223, R225, R226, R227, R228, R230, R232, R79) -/
def Obligations.AccessPerformed : Prop :=
  (∀ (s : State) (f : Flight), memWf s.mem = true → s.inCache f = false → (∀ k, f.dst = some k → f.dst2 ≠ some k) →
    (∀ p ∈ s.clusters, ∀ l ∈ p.2.lines, l.key ≠ lineKey f.key ∨ l.dirty = 0) →
    let t := s.performNow f
    let old := s.read f.key f.size
    let poisoned := s.anyPoison f.key f.size
    let full := s.isFull f.key
    let reg (k : Nat) : W64 := (t.ctx f.ctx).regAt k
    let kept := (∀ j, memGet t.mem j = memGet s.mem j)
    let stores (v : Nat) := (∀ j, j < f.key ∨ f.key + f.size ≤ j → memGet t.mem j = memGet s.mem j) ∧ t.read f.key f.size = v % 256 ^ f.size ∧
      ∀ w, w ∈ t.poison ↔ w ∈ s.poison ∧ w ∉ wholeWordsIn f.key f.size
    let gone : State := { s with flights := s.flights.filter (·.id ≠ f.id) }
    let loaded := ∀ k, f.dst = some k → k ≠ 0 → reg k = f.extend old
    let tagged := ∀ k, f.dst2 = some k → k ≠ 0 → reg k = if full then 1 else 0
    (f.op = .load → f.dst2 = none → poisoned = false → kept ∧ loaded ∧ t.isFull f.key = (full && f.sync != 1) ∧ (f.sync ≠ 1 → t.empties = s.empties)) ∧
    (f.op = .ldfe → poisoned = false → kept ∧ loaded ∧ tagged ∧ t.isFull f.key = false ∧ (full = false → t.empties = s.empties)) ∧
    (f.op = .ldff → poisoned = false → kept ∧ loaded ∧ tagged ∧ t.empties = s.empties) ∧
    (f.op = .acq → f.dst2 = none → poisoned = false → loaded ∧ t.isFull f.key = false ∧ (f.scope < 2 → kept) ∧
      (2 ≤ f.scope → ∀ l ∈ (t.cluster (clusterOf (coreOf f.ctx))).lines, meetsAny (s.boundTo f.ctx f.va) l = false)) ∧
    (f.op ∈ [.load, .ldfe, .ldff, .acq] → poisoned = true → t = if 65536 ≤ f.ctx then gone else (gone.dropStall f.ctx f.until_).takeTrap f.ctx 0x0C f.va f.pc none) ∧
    (f.op = .store → stores f.x.toNat ∧ t.ctxs = s.ctxs ∧ t.isFull f.key = (full || f.sync == 2) ∧ (f.sync ≠ 2 → t.empties = s.empties)) ∧
    (f.op = .rel → stores f.x.toNat ∧ t.ctxs = s.ctxs ∧ t.isFull f.key = true) ∧
    (f.op = .ldtag → kept ∧ t.empties = s.empties ∧ ∀ k, f.dst = some k → k ≠ 0 →
      reg k = BitVec.ofNat 64 ((if full then 1 else 0) + (if poisoned then 2 else 0))) ∧
    (f.op = .stef → (full = false → stores f.x.toNat ∧ t.isFull f.key = true) ∧ (full = true → kept ∧ t.empties = s.empties) ∧
      ∀ k, f.dst = some k → k ≠ 0 → reg k = if full then 0 else 1) ∧
    (f.op = .stff → (full = true → stores f.x.toNat ∧ t.isFull f.key = true) ∧ (full = false → kept ∧ t.empties = s.empties) ∧
      ∀ k, f.dst = some k → k ≠ 0 → reg k = if full then 1 else 0) ∧
    (f.op = .tclr → kept ∧ t.isFull f.key = false ∧ t.ctxs = s.ctxs) ∧ (f.op = .tfill → kept ∧ t.isFull f.key = true ∧ t.ctxs = s.ctxs) ∧
    (∀ fn, f.op = .atomic fn → poisoned = false → stores (fn.apply (BitVec.ofNat 64 old) f.x f.y).toNat ∧ t.empties = s.empties ∧
      ∀ k, f.dst = some k → k ≠ 0 → reg k = BitVec.ofNat 64 old) ∧
    (∀ fn, f.op = .atomic fn → poisoned = true → kept ∧ t.empties = s.empties ∧
      (f.dst ≠ some 0 → t = if 65536 ≤ f.ctx then gone else (gone.dropStall f.ctx f.until_).takeTrap f.ctx 0x0C f.va f.pc none) ∧
      (f.dst = some 0 → f.ctx < 65536 → isHelper f.ctx = false → (t.ctx f.ctx).dueTrap = some (0x0C, f.va) ∧ (t.ctx f.ctx).pc = (s.ctx f.ctx).pc) ∧
      (f.dst = some 0 → f.ctx < 65536 → isHelper f.ctx = true → (s.ctxs.find? f.ctx).isSome = true → (s.ctx f.ctx).life ≠ .closing →
        (t.ctx f.ctx).life = .closing ∧ (t.ctx f.ctx).failed = true ∧ (t.ctx f.ctx).code = 0x010C))) ∧
  (∀ (s : State) (f : Flight) (l : Line), s.inCache f = true → f.dst2 = none → f.sync = 0 → s.anyPoison f.key f.size = false →
    f.key % 64 + f.size ≤ 64 → s.findLine (clusterOf (coreOf f.ctx)) f.key = some l →
    let t := s.performNow f
    let off := f.key % 64
    (f.op = .load → t.mem = s.mem ∧ t.clusters = s.clusters ∧ t.empties = s.empties ∧
      ∀ k, f.dst = some k → k ≠ 0 → (t.ctx f.ctx).regAt k = f.extend (l.data.toNat / 2 ^ (8 * off) % 2 ^ (8 * f.size))) ∧
    (f.op = .store → t.mem = s.mem ∧ t.ctxs = s.ctxs ∧ t.empties = s.empties ∧ ∃ m, t.findLine (clusterOf (coreOf f.ctx)) f.key = some m ∧ m.key = l.key ∧
      ∀ j < 64, m.data.extractLsb' (8 * j) 8 = (if off ≤ j ∧ j < off + f.size then f.x.extractLsb' (8 * (j - off)) 8 else l.data.extractLsb' (8 * j) 8) ∧
        m.dirty.getLsbD j = (l.dirty.getLsbD j || decide (off ≤ j ∧ j < off + f.size))))

/-- The functions of Table 9.2. The new value of each atomic from the old value and its operands; of the floating
ones AADDF rounds the sum once to nearest even and AMAXF takes the larger value, beside one NaN the other
operand and of two zeros +0 if either is. (R230, R165, R166) -/
def Obligations.AtomicFunctions : Prop :=
  ∀ (old x y : W64),
    AtomFn.add.apply old x y = old + x ∧ AtomFn.and.apply old x y = old &&& x ∧ AtomFn.or.apply old x y = old ||| x ∧
    AtomFn.xor.apply old x y = old ^^^ x ∧ AtomFn.swp.apply old x y = x ∧ AtomFn.cas.apply old x y = (if old = y then x else old) ∧
    (AtomFn.min.apply old x y).toInt = min old.toInt x.toInt ∧ (AtomFn.max.apply old x y).toInt = max old.toInt x.toInt ∧
    (AtomFn.minz.apply old x y).toNat = min old.toNat x.toNat ∧
    AtomFn.inc.apply old x y = (if x.toNat ≤ old.toNat then 0 else old + 1) ∧
    (x = BitVec.allOnes 64 → AtomFn.inc.apply old x y = old + 1) ∧
    AtomFn.addf.apply old x y = BitVec.ofNat 64 (rne 9 ((f32 old).add (f32 x))) ∧
    (f32 old = .nan ∨ f32 x = .nan → AtomFn.addf.apply old x y = 0x7FC00000) ∧
    (let m := (AtomFn.maxf.apply old x y).toNat
     (f32 old = .nan → f32 x = .nan → m = 0x7FC00000) ∧
     (f32 old = .nan → f32 x ≠ .nan → m = x.toNat % 2 ^ 32) ∧ (f32 old ≠ .nan → f32 x = .nan → m = old.toNat % 2 ^ 32) ∧
     ((f32 old).cmp (f32 x) = some .lt → m = x.toNat % 2 ^ 32) ∧ ((f32 old).cmp (f32 x) = some .gt → m = old.toNat % 2 ^ 32) ∧
     ((f32 old).cmp (f32 x) = some .eq → m = (if old.toNat / 2 ^ 31 % 2 = 1 then x.toNat % 2 ^ 32 else old.toNat % 2 ^ 32))) ∧
    AtomFn.size .addf = 4 ∧ AtomFn.size .maxf = 4

/-- FENCE, FENCELB, ACKWAIT, WINWAIT, BIND and UNBIND. The fences go on once their condition of R94 or R104 holds
and wait otherwise; the store-acknowledge counter, for which ACKWAIT waits, has every counted access but a
release that has not left because earlier accesses are unacknowledged; the context goes on behind WINWAIT, whose
result, the window number, arrives once the module has reached the boundary and no store of an earlier window
but one is left; BIND checks alignment, length and count in this order and adds the binding; UNBIND removes
every binding of the word. (R87, R91, R94, R95, R104, R112, R233, R234, R236) -/
def Obligations.FencesAndBindings : Prop :=
  ∀ (s : State) (d a b : R6) (st : St),
    (s.Open [] [] → ∀ p ∈ ([(.fence st, 4, .fence, (s.flights.all (·.ctx != s.cur))), (.fenceX st, 12, .fence, (s.flights.all (·.ctx != s.cur))),
        (.fencelb st, 4, .fenceLocal, s.flights.all fun f => f.ctx != s.cur || !f.isOwnLocal),
        (.fencelbX st, 12, .fenceLocal, s.flights.all fun f => f.ctx != s.cur || !f.isOwnLocal),
        (.ackwait st, 4, .acks, s.acks s.cur == 0),
        (.ackwaitX st, 12, .acks, s.acks s.cur == 0)] : List (Instr × Nat × Wait × Bool)),
      let (i, len, w, met) := p
      ∃ t, exec i s = .next t ∧ if met then Passes s t len st else Waits s t w) ∧
    (s.acks s.cur = 0 ↔ ∀ f ∈ s.flights, f.ctx = s.cur → f.counted = true → f.isRelease = true ∧ s.OwedBy s.cur f.id) ∧
    (s.Open [a] [d] → ∀ p ∈ ([(.winwait d a st, 4), (.winwaitX d a st, 12)] : List (Instr × Nat)), ∃ t, exec p.1 s = .next t ∧ Pends s t d (.window (s.rd a).toNat) p.2 st) ∧
    (∀ ctx (p : Pend) n, p.op = .window n →
      if s.inDomain = true ∧ n * (1000 * 2 ^ s.windowLog) ≤ s.ptp ∧ (∀ q ∈ s.notices, n < q.2 + 2) ∧ ∀ w ∈ s.ownWindows, n < w + 2 then
        Arrives s (s.advancePend ctx p) ctx p (BitVec.ofNat 64 (s.ptp / (1000 * 2 ^ s.windowLog)))
      else s.advancePend ctx p = s) ∧
    (s.Open [a, b, d] [] → ∀ p ∈ ([(.bind d a b st, 4), (.bindX d a b st, 12)] : List (Instr × Nat)),
      let x : Binding := { word := s.rd a, base := s.rd b, len := s.rd d }
      if x.base.toNat % 64 ≠ 0 ∨ x.len.toNat % 64 ≠ 0 then exec p.1 s = .next (s.trap 0x03 x.base)
      else if x.len = 0 ∨ 0x4000000 < x.len.toNat then exec p.1 s = .next (s.trap 0x05 x.word)
      else if x ∈ s.me.bindings then ∃ t, exec p.1 s = .next t ∧ Passes s t p.2 st
      else if 4 ≤ s.me.bindings.length then exec p.1 s = .next (s.trap 0x05 x.word)
      else ∃ t, exec p.1 s = .next t ∧ Passes (s.modMe fun c => { c with bindings := c.bindings ++ [x] }) t p.2 st) ∧
    (s.Open [a] [] → ∀ p ∈ ([(.unbind a st, 4), (.unbindX a st, 12)] : List (Instr × Nat)), ∃ t, exec p.1 s = .next t ∧
      Passes (s.modMe fun c => { c with bindings := c.bindings.filter (·.word ≠ s.rd a) }) t p.2 st)

/-- TLWAIT, TLREAD, TLADD, QWAIT, QFLIP and QREAD. TLWAIT waits until its counter holds B and then acquires the
ranges of the completed operations; TLREAD writes the counter; the context goes on behind TLADD, which adds, and
returns the sum, once its earlier counted accesses are acknowledged; QWAIT waits for a sweep that begins after
it and finds the phase quiet; QFLIP inverts PHASE; QREAD writes the last report and the sweep count. (R100,
R106, R107, R137, R237, R238, R239) -/
def Obligations.TimelinesAndQuiet : Prop :=
  ∀ (s : State) (d a b : R6) (sc : BitVec 2) (st : St),
    let core := s.myCore
    let tl := (s.core core).tl.get a.toNat 0
    (s.Open [b] [] → ∀ p ∈ ([(.tlwait a b st, 4), (.tlwaitX a b st, 12)] : List (Instr × Nat)),
      if (s.rd b).toNat ≤ tl.toNat then ∃ t, exec p.1 s = .next t ∧ Passes (s.acquireTo core a.toNat (s.rd b).toNat) t p.2 st
      else ∃ t, exec p.1 s = .next t ∧ Waits s t (.timeline a.toNat (s.rd b).toNat)) ∧
    (s.Clear [] [d] → ∀ p ∈ ([(.tlread d a st, 4), (.tlreadX d a st, 12)] : List (Instr × Nat)), Computes s p.1 d tl 1 p.2 st) ∧
    (s.Open [b] [d] → ∀ p ∈ ([(.tladd d a b st, 4), (.tladdX d a b sc st, 12)] : List (Instr × Nat)),
      ∃ t, exec p.1 s = .next t ∧ Pends s t d (.add a.toNat (s.rd b) s.nextId) p.2 st) ∧
    (∀ ctx (p : Pend) ctr x after, p.op = .add ctr x after →
      let v := (s.core (coreOf ctx)).tl.get ctr 0 + x
      (s.OwedBy ctx after → s.advancePend ctx p = s) ∧
      (¬ s.OwedBy ctx after → Arrives (s.modCore (coreOf ctx) fun c => { c with tl := c.tl.put ctr v }) (s.advancePend ctx p) ctx p v)) ∧
    (s.Open [a] [] → ∀ p ∈ ([(.qwait a st, 4), (.qwaitX a st, 12)] : List (Instr × Nat)),
      (s.me.wait = none → ∃ t, exec p.1 s = .next t ∧ Waits s t (.quiet ((s.rd a).toNat % 2) s.sweeps)) ∧
      (∀ ph n, s.me.wait = some (.quiet ph n) → n < s.quietAt.get (s.vfOf s.cur * 2 + ph) 0 → ∃ t, exec p.1 s = .next t ∧ Passes s t p.2 st) ∧
      (∀ ph n, s.me.wait = some (.quiet ph n) → s.quietAt.get (s.vfOf s.cur * 2 + ph) 0 ≤ n →
        ∃ t, exec p.1 s = .next t ∧ Waits s t (.quiet ph n))) ∧
    (s.Clear [] [] → ∀ p ∈ ([(.qflip st, 4), (.qflipX st, 12)] : List (Instr × Nat)), ∃ t, exec p.1 s = .next t ∧
      Passes (s.modMe fun c => { c with kregs := c.kregs.put 3 (if s.me.phase = 0 then 1 else 0) }) t p.2 st) ∧
    (s.Clear [] [d] → ∀ p ∈ ([(.qread d st, 4), (.qreadX d st, 12)] : List (Instr × Nat)), Computes s p.1 d
      (BitVec.ofNat 64 ((if s.vfOf s.cur * 2 ∈ s.quietRep then 1 else 0) + (if s.vfOf s.cur * 2 + 1 ∈ s.quietRep then 2 else 0) +
        s.sweeps % 2 ^ 32 * 2 ^ 32)) 1 p.2 st)

/-- ACQ, REL, BARC, BARH, PREF, CWB and CINV. ACQ sends a fe read and keeps later accesses back; REL writes back its
bound lines at scope dev or sys, behind the context’s own cached accesses, sends a filling write and holds the
context; the context goes on behind a barrier instruction, which arrives at its barrier once the earlier counted
accesses are acknowledged, arrivals that are held joining only once a generation closes; PREF never traps and
waits for nothing: where its page is present, cacheable and readable it brings the line of its address into the
cluster cache, for which the oldest line leaves a full cache and writes back its dirty bytes (which line leaves
is the model’s choice, log entry 10), and changes nothing else; CWB and CINV write back the lines of their range
behind the context’s own cached accesses, and trap with cause 0x05 above 64 MiB; that the write-backs of REL,
CWB and CINV take one step is the model’s choice (log entry 57). (R66, R91, R96, R235, R240, R241, R243, R244) -/
def Obligations.BarriersAndCache : Prop :=
  ∀ (s : State) (d a b : R6) (sc : BitVec 2) (imm : W32) (st : St),
    (s.Open [a] [d] → ∀ p ∈ ([(.acq d a st, 0, 4, 0), (.acqX d a sc imm st, imm.signExtend 64, 12, sc.toNat)] : List (Instr × W64 × Nat × Nat)),
      let (i, disp, len, scope) := p
      Accesses s i (s.rd a + disp) 8 accAtomic true true (d = 0) true len st fun f =>
        f.op = .acq ∧ f.dst = some (s.me.regKey d) ∧ f.dst2 = none ∧ f.scope = scope ∧ f.order = 0 ∧ f.counted = true) ∧
    (s.Open [a, d] [] → ∀ p ∈ ([(.rel d a st, 0, 4, 0), (.relX d a sc imm st, imm.signExtend 64, 12, sc.toNat)] : List (Instr × W64 × Nat × Nat)),
      let (i, disp, len, scope) := p
      let w := s.rd a + disp
      (∀ c v, s.checkAccess s.cur w.toNat 8 accTag true = .trap c v → exec i s = .next (s.trap c v)) ∧
      (∀ u g, s.checkAccess s.cur w.toNat 8 accTag true = .page u g → exec i s = .next (u.takeTrap u.cur g.cause g.va u.me.pc (some g))) ∧
      (∀ u x al, s.checkAccess s.cur w.toNat 8 accTag true = .ok u x al → OnlyTables s u ∧ s.Marks u w.toNat accTag ∧
        (u.CacheOff x true → exec i s = .next (u.trap 0x05 w)) ∧
        (¬ u.CacheOff x true → 2 ≤ scope → (∃ g ∈ u.flights, g.ctx = u.cur ∧ g.cached = true ∧ g.performed = false) →
          ∃ t, exec i s = .next t ∧ Waits u t .merged) ∧
        (¬ u.CacheOff x true → (2 ≤ scope → ∀ g ∈ u.flights, g.ctx = u.cur → g.cached = true → g.performed = true) →
         ∃ t f, exec i s = .next t ∧
          Sends s (if 2 ≤ scope then u.writeBack (clusterOf s.myCore) (meetsAny (u.boundTo s.cur w)) false else u) t f len st true false ∧
          f.op = .rel ∧ f.va = w ∧ f.key = x.key ∧ f.size = 8 ∧ f.x = s.rd d ∧ f.scope = scope ∧ f.counted = true ∧ f.remote = x.remote ∧
          (scope < 2 → t.mem = u.mem) ∧
          (memWf u.mem = true → ∀ k, (∀ l ∈ (u.cluster (clusterOf s.myCore)).lines, meetsAny (u.boundTo s.cur w) l = true →
            k < l.key ∨ l.key + 64 ≤ k ∨ l.dirty.toNat / 2 ^ (k - l.key) % 2 = 0) → memGet t.mem k = memGet u.mem k)))) ∧
    (s.Open [a] [d] → ∀ p ∈ ([(.barc d a st, true, (s.rd a).toNat % 256, 4), (.barcX d a st, true, (s.rd a).toNat % 256, 12),
        (.barh d a st, false, (s.rd a).toNat % 16, 4), (.barhX d a st, false, (s.rd a).toNat % 16, 12)] : List (Instr × Bool × Nat × Nat)),
      let (i, isC, v, len) := p
      (isC = false ∧ (v < 1 ∨ 11 < v) → exec i s = .next (s.trap 0x01 (s.word0.setWidth 64))) ∧
      (isC = true ∨ 1 ≤ v ∧ v ≤ 11 → ∃ t, exec i s = .next t ∧ Pends s t d (.arrive isC v s.nextId) len st)) ∧
    (∀ ctx (p : Pend) isC v after, p.op = .arrive isC v after →
      s.OwedBy ctx after → s.advancePend ctx p = s) ∧
    (∀ ctx (p : Pend) isC v after, p.op = .arrive isC v after → ¬ s.OwedBy ctx after →
      s.advancePend ctx p = (s.modCtx ctx fun c => { c with pend := c.pend.replace p { p with op := .barrier isC v, since := s.cycle } }).arriveAt isC
        (coreOf ctx) ctx v) ∧
    (∀ isC core ctx v, let t := s.joinBarrier isC core ctx v
      let b := t.barrier isC core
      s.arriveAt isC core ctx v = if b.arrivals = [] then State.rejoin isC core ((b.held.length + 1) * (b.held.length + 1)) b.held
        (t.setBarrier isC core { b with held := [] }) else t) ∧
    (s.Clear [a] [] → ∀ p ∈ ([(.pref a st, 0, 4), (.prefX a imm st, imm.signExtend 64, 12)] : List (Instr × W64 × Nat)),
      let (i, disp, len) := p
      let w := (s.rd a + disp).toNat
      let cl := clusterOf s.myCore
      let fetches (x : Xl) (e : TlbEntry) : Prop := placeOf w = .translated ∧ (∃ pte at_ shift, s.walk (s.vfOf s.cur) s.me.asid w = .leaf pte at_ shift ∧
        x = leafXl pte shift w ∧ leafAllows pte accLoad s.me.privileged = true ∧
        e = { vf := s.vfOf s.cur, asid := s.me.asid, page := w / 2 ^ shift, shift := shift, pte := pte, dset := bitsOf pte 7 7 == 1 }) ∧
        x.cached = true ∧ 0 < cacheLines (s.cluster cl).split
      (∀ x e, fetches x e → ∃ t, exec i s = .next t ∧
        Passes ((s.modCluster cl fun c => { c with seen := if c.seen.contains e then c.seen else e :: c.seen }).fillLine cl x.key).1 t len st) ∧
      ((¬ ∃ x e, fetches x e) → ∃ t, exec i s = .next t ∧ Passes s t len st)) ∧
    (∀ cl key, memWf s.mem = true → 0 < cacheLines (s.cluster cl).split →
      let old := (s.cluster cl).lines
      let u := (s.fillLine cl key).1
      ((∃ l ∈ old, l.key = key / 64 * 64) → u = s) ∧
      ((∀ l ∈ old, l.key ≠ key / 64 * 64) → ∃ new : Line, new.key = key / 64 * 64 ∧ new.dirty = 0 ∧
        (∀ j, j < 64 → new.data.extractLsb' (8 * j) 8 = memGet u.mem (key / 64 * 64 + j)) ∧
        (old.length < cacheLines (s.cluster cl).split → u = s.modCluster cl fun c => { c with lines := old ++ [new] }) ∧
        (∀ l ls, old = l :: ls → cacheLines (s.cluster cl).split ≤ old.length →
          u = ({ s with mem := u.mem } : State).modCluster cl (fun c => { c with lines := ls ++ [new] }) ∧
          ∀ k, memGet u.mem k = if l.key ≤ k ∧ k < l.key + 64 ∧ l.dirty.getLsbD (k - l.key) = true then l.data.extractLsb' (8 * (k - l.key)) 8
            else memGet s.mem k))) ∧
    (s.Open [a, b] [] → ∀ p ∈ ([(.cwb a b st, 0, false, 4), (.cwbX a b imm st, imm.signExtend 64, false, 12), (.cinv a b st, 0, true, 4),
        (.cinvX a b imm st, imm.signExtend 64, true, 12)] : List (Instr × W64 × Bool × Nat)),
      let (i, disp, inval, len) := p
      let w := s.rd a + disp
      let n := (s.rd b).toNat
      if 0x4000000 < n then exec i s = .next (s.trap 0x05 w)
      else if ∃ g ∈ s.flights, g.ctx = s.cur ∧ g.cached = true ∧ g.performed = false then ∃ t, exec i s = .next t ∧ Waits s t .merged
      else ∃ t, exec i s = .next t ∧
        Passes (s.writeBack (clusterOf s.myCore) (meetsAny (s.keysOf (s.vfOf s.cur) s.me.asid w.toNat (max 1 n))) inval) t len st)

/-- The element instructions of majors 0x50 to 0x66 at issue. Each checks its registers against the window (cause
0x09), then the tags of its sources and mask (cause 0x07), and then queues its command with its operation format
and marks its destination with that format, MASK for a comparison; it waits while the queue is full or an AREAD
is under way (that every vector instruction waits for a pending AREAD, and not the readers of its registers
alone, is the model’s reading, log entry 9). (R155, R168, R169, R247, R257) -/
def Obligations.VectorElementInstructions : Prop :=
  ∀ (s : State) (d a b c : R6) (ha hb hc : Bit) (fmt : BitVec 4) (mk : BitVec 3) (mp tp : Bit) (st : St), s.Clear [] [] →
    let X : VMod := { fmt := fmt.toNat, msk := mk.toNat, mp := mp.toNat, tp := tp.toNat }
    let tag (r : R6) := s.me.vtag r.toNat
    let opFmt (m : VMod) := if m.fmt = 0 then tag a else m.fmt
    let result (f : VFun) (m : VMod) := if f = .cmpeq ∨ f = .cmplt ∨ f = .cmple then 10 else opFmt m
    let mask (m : VMod) := if m.msk = 0 then [] else [m.msk]
    (∀ p ∈ ([(.vadd d a b ha hb st, .add, {}, 4),
        (.vaddX d a b ha hb fmt mk mp tp st, .add, X, 12),
        (.vsub d a b ha hb st, .sub, {}, 4),
        (.vsubX d a b ha hb fmt mk mp tp st, .sub, X, 12),
        (.vmul d a b ha hb st, .mul, {}, 4),
        (.vmulX d a b ha hb fmt mk mp tp st, .mul, X, 12),
        (.vmin d a b ha hb st, .min, {}, 4),
        (.vminX d a b ha hb fmt mk mp tp st, .min, X, 12),
        (.vmax d a b ha hb st, .max, {}, 4),
        (.vmaxX d a b ha hb fmt mk mp tp st, .max, X, 12),
        (.vand d a b ha hb st, .and, {}, 4),
        (.vandX d a b ha hb fmt mk mp tp st, .and, X, 12),
        (.vor d a b ha hb st, .or, {}, 4),
        (.vorX d a b ha hb fmt mk mp tp st, .or, X, 12),
        (.vxor d a b ha hb st, .xor, {}, 4),
        (.vxorX d a b ha hb fmt mk mp tp st, .xor, X, 12),
        (.vshl d a b ha hb st, .shl, {}, 4),
        (.vshlX d a b ha hb fmt mk mp tp st, .shl, X, 12),
        (.vshr d a b ha hb st, .shr, {}, 4),
        (.vshrX d a b ha hb fmt mk mp tp st, .shr, X, 12),
        (.vshra d a b ha hb st, .shra, {}, 4),
        (.vshraX d a b ha hb fmt mk mp tp st, .shra, X, 12),
        (.vcmpeq d a b ha hb st, .cmpeq, {}, 4),
        (.vcmpeqX d a b ha hb fmt mk mp tp st, .cmpeq, X, 12),
        (.vcmplt d a b ha hb st, .cmplt, {}, 4),
        (.vcmpltX d a b ha hb fmt mk mp tp st, .cmplt, X, 12),
        (.vcmple d a b ha hb st, .cmple, {}, 4),
        (.vcmpleX d a b ha hb fmt mk mp tp st, .cmple, X, 12)] : List (Instr × VFun × VMod × Nat)),
      let (i, f, m, len) := p
      VectorChecks s i (d.toNat :: a.toNat :: b.toNat :: mask m)
        (tag a = opFmt m ∧ tag b = opFmt m ∧ f.accepts (opFmt m) = true ∧ s.maskOk m)
        (Enqueues s s i (.elem f d.toNat a.toNat b.toNat 0 (opFmt m)) m [(d.toNat, result f m)] len st)) ∧
    (∀ p ∈ ([(.vabs d a ha st, .abs, {}, 4),
        (.vabsX d a ha fmt mk mp tp st, .abs, X, 12),
        (.vneg d a ha st, .neg, {}, 4),
        (.vnegX d a ha fmt mk mp tp st, .neg, X, 12),
        (.vrcp d a ha st, .rcp, {}, 4),
        (.vrcpX d a ha fmt mk mp tp st, .rcp, X, 12),
        (.vrsq d a ha st, .rsq, {}, 4),
        (.vrsqX d a ha fmt mk mp tp st, .rsq, X, 12),
        (.vexp2 d a ha st, .exp2, {}, 4),
        (.vexp2X d a ha fmt mk mp tp st, .exp2, X, 12),
        (.vlog2 d a ha st, .log2, {}, 4),
        (.vlog2X d a ha fmt mk mp tp st, .log2, X, 12),
        (.vtanh d a ha st, .tanh, {}, 4),
        (.vtanhX d a ha fmt mk mp tp st, .tanh, X, 12)] : List (Instr × VFun × VMod × Nat)),
      let (i, f, m, len) := p
      VectorChecks s i (d.toNat :: a.toNat :: mask m) (tag a = opFmt m ∧ f.accepts (opFmt m) = true ∧ s.maskOk m)
        (Enqueues s s i (.elem f d.toNat a.toNat 0 0 (opFmt m)) m [(d.toNat, opFmt m)] len st)) ∧
    (∀ p ∈ ([(.vfma d a b ha hb st, .fma, {}, 0, 4),
        (.vfmaX d a b ha hb c hc fmt mk mp tp st, .fma, X, c, 12),
        (.vfnma d a b ha hb st, .fnma, {}, 0, 4),
        (.vfnmaX d a b ha hb c hc fmt mk mp tp st, .fnma, X, c, 12)] :
        List (Instr × VFun × VMod × R6 × Nat)),
      let (i, f, m, c, len) := p
      VectorChecks s i (d.toNat :: a.toNat :: b.toNat :: c.toNat :: mask m)
        (tag a = opFmt m ∧ tag b = opFmt m ∧ tag c = opFmt m ∧ f.accepts (opFmt m) = true ∧ s.maskOk m)
        (Enqueues s s i (.elem f d.toNat a.toNat b.toNat c.toNat (opFmt m)) m [(d.toNat, opFmt m)] len st))

/-- Mask, move, permutation and reduction instructions at issue. Majors 0x46 to 0x4B check their registers against
the window and their tags, and queue their command with the destination’s tag of R259 to R264; a scalar
destination receives its result when the pool performs the command; they wait while the queue is full or an
AREAD is under way (that every vector instruction waits for a pending AREAD, and not the readers of its
registers alone, is the model’s reading, log entry 9). (R155, R247, R259, R260, R261, R262, R263, R264) -/
def Obligations.VectorRegisterInstructions : Prop :=
  ∀ (s : State) (d a b : R6) (fmt : BitVec 4) (mk : BitVec 3) (mp tp : Bit) (st : St),
    let D := d.toNat
    let A := a.toNat
    let B := b.toNat
    let K := s.me.regKey d
    let X : VMod := { fmt := fmt.toNat, msk := mk.toNat, mp := mp.toNat, tp := tp.toNat }
    let M : VMod := { fmt := fmt.toNat, msk := mk.toNat }
    let F : VMod := { fmt := fmt.toNat }
    let tag (r : R6) := s.me.vtag r.toNat
    let isA (m : VMod) := m.fmt = 0 ∨ tag a = m.fmt
    let mask (m : VMod) := if m.msk = 0 then [] else [m.msk]
    let index := if fmtWidth (tag a) = 8 then 1 else if fmtWidth (tag a) = 16 then 2 else 3
    (s.Clear [] [] →
      (∀ p ∈ ([(.vmand d a b st, .mask 0 D A B, 4),
          (.vmandX d a b fmt st, .mask 0 D A B, 12),
          (.vmor d a b st, .mask 1 D A B, 4),
          (.vmorX d a b fmt st, .mask 1 D A B, 12),
          (.vmxor d a b st, .mask 2 D A B, 4),
          (.vmxorX d a b fmt st, .mask 2 D A B, 12)] : List (Instr × VOp × Nat)),
        VectorChecks s p.1 [D, A, B] (tag a = 10 ∧ tag b = 10) (Enqueues s s p.1 p.2.1 {} [(D, 10)] p.2.2 st)) ∧
      (∀ p ∈ ([(.vmnot d a st, 4), (.vmnotX d a fmt st, 12)] : List (Instr × Nat)),
        VectorChecks s p.1 [D, A] (tag a = 10) (Enqueues s s p.1 (.mask 3 D A 0) {} [(D, 10)] p.2 st)) ∧
      (∀ p ∈ ([(.viota d st, {}, 3, 4), (.viotaX d fmt mk mp tp st, X, if fmt = 0 then 3 else fmt.toNat, 12)] : List (Instr × VMod × Nat × Nat)),
        let (i, m, t, len) := p
        VectorChecks s i (D :: mask m) (s.maskOk m) (Enqueues s s i (.iota D t) m [(D, t)] len st)) ∧
      (∀ p ∈ ([(.vmov d a st, {}, .mov D A (tag a), 4), (.vmovX d a fmt mk mp tp st, X, .mov D A (tag a), 12),
          (.vcompr d a st, {}, .compr D A (tag a), 4), (.vcomprX d a fmt mk tp st, { fmt := fmt.toNat, msk := mk.toNat, tp := tp.toNat }, .compr D A (tag a), 12),
          (.vexpnd d a st, {}, .expnd D A (tag a), 4), (.vexpndX d a fmt mk mp tp st, X, .expnd D A (tag a), 12)] : List (Instr × VMod × VOp × Nat)),
        let (i, m, op, len) := p
        VectorChecks s i (D :: A :: mask m) (isA m ∧ s.maskOk m) (Enqueues s s i op m [(D, tag a)] len st)) ∧
      (∀ p ∈ ([(.vperm d a b st, {}, 4), (.vpermX d a b fmt mk mp tp st, X, 12)] : List (Instr × VMod × Nat)),
        let (i, m, len) := p
        VectorChecks s i (D :: A :: B :: mask m) (isA m ∧ tag a ≠ 4 ∧ tag b = index ∧ s.maskOk m)
          (Enqueues s s i (.perm D A B (tag a)) m [(D, tag a)] len st))) ∧
    (s.Clear [] [d] → ∀ p ∈ ([(.vmpop d a st, {}, .mpop K A 0, 4), (.vmpopX d a fmt mk st, M, .mpop K A fmt.toNat, 12),
        (.vmfirst d a st, {}, .mfirst K A 0, 4), (.vmfirstX d a fmt mk st, M, .mfirst K A fmt.toNat, 12)] : List (Instr × VMod × VOp × Nat)),
      let (i, m, op, len) := p
      VectorChecks s i (A :: mask m) (tag a = 10 ∧ s.maskOk m) (Enqueues s s i op m [] len st)) ∧
    (s.Clear [a] [] → ∀ p ∈ ([(.vbcast d a st, {}, 4), (.vbcastX d a fmt mk mp tp st, X, 12)] : List (Instr × VMod × Nat)),
      let (i, m, len) := p
      VectorChecks s i (D :: mask m) (s.maskOk m) (Enqueues s s i (.bcast D m.fmt (s.rd a)) m [(D, m.fmt)] len st)) ∧
    (s.Clear [b] [d] →
      (∀ p ∈ ([(.vextr d a b st, {}, 4), (.vextrX d a b fmt st, F, 12)] : List (Instr × VMod × Nat)),
        let (i, m, len) := p
        VectorChecks s i [A] (isA m) (Enqueues s s i (.extr K A (tag a) (s.rd b)) m [] len st)) ∧
      (∀ p ∈ ([(.vredsum d a b st, {}, .sum, 4), (.vredsumX d a b fmt mk st, M, .sum, 12), (.vredmax d a b st, {}, .max, 4),
          (.vredmaxX d a b fmt mk st, M, .max, 12), (.vredmin d a b st, {}, .min, 4), (.vredminX d a b fmt mk st, M, .min, 12)] :
          List (Instr × VMod × VRed × Nat)),
        let (i, m, f, len) := p
        VectorChecks s i (A :: mask m) (isA m ∧ tag a ∈ [1, 2, 3, 7, 8, 9] ∧ s.maskOk m)
          (Enqueues s s i (.red f K A (tag a) (s.rd b)) m [] len st))) ∧
    (s.Clear [a, b] [] → ∀ p ∈ ([(.vins d a b st, {}, 4), (.vinsX d a b fmt st, F, 12)] : List (Instr × VMod × Nat)),
      let (i, m, len) := p
      VectorChecks s i [D] (m.fmt = 0 ∨ tag d = m.fmt) (Enqueues s s i (.ins D (tag d) (s.rd a) (s.rd b)) m [(D, tag d)] len st)) ∧
    (s.Clear [b] [] → ∀ p ∈ ([(.vslideu d a b st, {}, .slideu D A (tag a) (s.rd b), 4), (.vslideuX d a b fmt mk mp tp st, X, .slideu D A (tag a) (s.rd b), 12),
        (.vslided d a b st, {}, .slided D A (tag a) (s.rd b), 4), (.vslidedX d a b fmt mk mp tp st, X, .slided D A (tag a) (s.rd b), 12)] :
        List (Instr × VMod × VOp × Nat)),
      let (i, m, op, len) := p
      VectorChecks s i (D :: A :: mask m) (isA m ∧ s.maskOk m) (Enqueues s s i op m [(D, tag a)] len st))

/-- Conversions, VMERGE3, VTAG, VTAGR, VSYNC and the lane instructions. The conversions check that their group ends
at v47 or below, their window (a source outside it is the one reported) and their format pair, and queue their
command; VTAG changes the tag alone; VTAGR writes the tag; VSYNC waits for the busy flag; VCLAIM, VRENEG and
VRELEASE queue their command; a command waits while the queue is full or an AREAD is under way (that every
vector instruction waits for a pending AREAD, and not the readers of its registers alone, is the model’s
reading, log entry 9). (R155, R252, R254, R267, R268, R269, R270, R271, R272) -/
def Obligations.VectorConversionsAndControl : Prop :=
  ∀ (s : State) (d a b e : R6) (fmt : BitVec 4) (mk : BitVec 3) (mp tp sat sr : Bit) (st : St),
    let D := d.toNat
    let A := a.toNat
    let B := b.toNat
    let F := fmt.toNat
    let X : VMod := { fmt := fmt.toNat, msk := mk.toNat, mp := mp.toNat, tp := tp.toNat }
    let tag (r : Nat) := s.me.vtag r
    let t := tag A
    let mask (m : VMod) := if m.msk = 0 then [] else [m.msk]
    let group (n r : Nat) := (List.range r).map (n + ·)
    let illegal := s.trap 0x01 (s.word0.setWidth 64)
    (∀ r, A < s.me.window → ratio t F = some r → 48 < A + r → exec (.vcvtp d a b fmt mk mp tp sat sr st) s = .next illegal) ∧
    (∀ r, s.Clear [b] [] → A < s.me.window → ratio t F = some r → A + r ≤ 48 → (t = 11 → b = 0) →
      VectorChecks s (.vcvtp d a b fmt mk mp tp sat sr st) (D :: group A r ++ mask X) ((∀ x ∈ group A r, tag x = t) ∧ s.maskOk X)
        (Enqueues s s (.vcvtp d a b fmt mk mp tp sat sr st)
          (.cvtp D A t F (if b = 0 then none else some ((s.rd b).toNat % 256)) (sat == 1) (sr == 1)) X [(D, F)] 12 st)) ∧
    (∀ r, A < s.me.window → ratioUp F t = some r → 48 < D + r ∨ t = 11 ∧ b ≠ 0 → exec (.vcvtu d a b fmt mk mp tp sat sr st) s = .next illegal) ∧
    (∀ r, s.Clear [b] [] → A < s.me.window → ratioUp F t = some r → D + r ≤ 48 → (t = 11 → b = 0) →
      VectorChecks s (.vcvtu d a b fmt mk mp tp sat sr st) (group D r ++ A :: mask X) (s.maskOk X)
        (Enqueues s s (.vcvtu d a b fmt mk mp tp sat sr st)
          (.cvtu D A t F (if b = 0 then none else some ((s.rd b).toNat % 256)) (sat == 1) (sr == 1)) X ((group D r).map fun x => (x, F)) 12 st)) ∧
    (s.Clear [b] [] → s.me.window ≤ A → (s.core s.myCore).vqueue.length < 2 →
      (A < 48 → exec (.vcvtp d a b fmt mk mp tp sat sr st) s = .next (({ s with fresh := s.fresh + 1 } : State).trap 0x09 (BitVec.ofNat 64 A))) ∧
      (D < 48 → exec (.vcvtu d a b fmt mk mp tp sat sr st) s = .next (({ s with fresh := s.fresh + 1 } : State).trap 0x09 (BitVec.ofNat 64 A)))) ∧
    (s.Clear [] [] → s.me.window ≤ A → A < 48 → (s.core s.myCore).vqueue.length < 2 →
      exec (.vqscale d a e fmt tp sat sr st) s = .next (({ s with fresh := s.fresh + 1 } : State).trap 0x09 (BitVec.ofNat 64 A))) ∧
    (s.Clear [] [] → A < 48 → ratio t F = none →
      VectorChecks s (.vqscale d a e fmt tp sat sr st) [D, e.toNat, A] (s.me.window ≤ A) True) ∧
    (s.Clear [b] [] → A < 48 → ratio t F = none →
      VectorChecks s (.vcvtp d a b fmt mk mp tp sat sr st) (D :: A :: mask X) (s.me.window ≤ A) True) ∧
    (s.Clear [b] [] → D < 48 → ratioUp F t = none →
      VectorChecks s (.vcvtu d a b fmt mk mp tp sat sr st) (D :: A :: mask X) (s.me.window ≤ A) True) ∧
    (s.Clear [] [] →
      (∀ r, A < s.me.window → ratio t F = some r → A + r ≤ 48 → d = e → ∃ keep,
        VectorChecks s (.vqscale d a e fmt tp sat sr st) ([D, e.toNat] ++ group A r) (∀ x ∈ group A r, tag x = t)
          (Enqueues s { s with fresh := s.fresh + 1 } (.vqscale d a e fmt tp sat sr st) (.qscale D e.toNat A t F (sr == 1) keep) { fmt := F, tp := tp.toNat }
            (if keep then [(D, F)] else [(D, F), (e.toNat, 11)]) 12 st)) ∧
      VectorChecks s (.vcvti d a fmt mk mp tp sat sr st) (D :: A :: mask X) (equalPair F t = true ∧ s.maskOk X)
        (Enqueues s s (.vcvti d a fmt mk mp tp sat sr st) (.cvti D A t F (sr == 1)) X [(D, F)] 12 st) ∧
      (∀ r, A < s.me.window → ratio t F = some r → A + r ≤ 48 → d ≠ e →
        VectorChecks s (.vqscale d a e fmt tp sat sr st) ([D, e.toNat] ++ group A r) (∀ x ∈ group A r, tag x = t)
          (Enqueues s s (.vqscale d a e fmt tp sat sr st) (.qscale D e.toNat A t F (sr == 1) false) { fmt := F, tp := tp.toNat } [(D, F), (e.toNat, 11)] 12 st)) ∧
      (∀ p ∈ ([(.vmerge3 d a b st, {}, 4), (.vmerge3X d a b fmt mk mp tp st, X, 12)] : List (Instr × VMod × Nat)),
        let (i, m, len) := p
        VectorChecks s i (group D 3 ++ group A 3 ++ group B 3 ++ mask m) ((∀ x ∈ group A 3 ++ group B 3, tag x = 9) ∧ s.maskOk m)
          (Enqueues s s i (.merge D A B) m ((group D 3).map fun x => (x, 9)) len st)) ∧
      (∀ p ∈ ([(.vtag d st, 0, 4), (.vtagX d fmt st, F, 12)] : List (Instr × Nat × Nat)),
        let (i, t, len) := p
        VectorChecks s i [D] True (Enqueues s s i (.tag D) {} [(D, t)] len st)) ∧
      (∀ p ∈ ([(.vsync st, 4), (.vsyncX st, 12)] : List (Instr × Nat)),
        WindowChecks s p.1 [] True ((s.busy s.cur = true → ∃ t, exec p.1 s = .next t ∧ Waits s t .busy) ∧
          (s.busy s.cur = false → ∃ t, exec p.1 s = .next t ∧ Passes s t p.2 st))) ∧
      VectorChecks s (.vrelease st) [] True (Enqueues s s (.vrelease st) .release {} [] 4 st)) ∧
    (s.Clear [] [d] →
      (∀ p ∈ ([(.vtagr d a st, 4), (.vtagrX d a st, 12)] : List (Instr × Nat)),
        WindowChecks s p.1 [A] True (Computes s p.1 d (BitVec.ofNat 64 t) 1 p.2 st)) ∧
      VectorChecks s (.vreneg d st) [] True (Enqueues s s (.vreneg d st) (.reneg (s.me.regKey d)) {} [] 4 st)) ∧
    (s.Clear [a] [d] → VectorChecks s (.vclaim d a st) [] True (Enqueues s s (.vclaim d a st) (.claim (s.me.regKey d) (s.rd a)) {} [] 4 st))

/-- Vector loads and stores at issue. VLD, VST and their strided and indexed forms wait for an acquire under way,
check window and tags, wait for the busy flag, check the address of every active element before any access, trap
with the first failure in the order of R266, and else queue a command with the checked elements, which waits
while the queue is full or an AREAD is under way (that every vector instruction waits for a pending AREAD, and
not the readers of its registers alone, is the model’s reading, log entry 9). (R130, R155, R265, R266) -/
def Obligations.VectorMemoryInstructions : Prop :=
  ∀ (s : State) (d a b : R6) (fmt : BitVec 4) (mk : BitVec 3) (mp tp ph : Bit) (imm : W32) (st : St),
    let D := d.toNat
    let L : VMod := { fmt := fmt.toNat, msk := mk.toNat, mp := mp.toNat, tp := tp.toNat, ph := ph }
    let S : VMod := { fmt := fmt.toNat, msk := mk.toNat, ph := ph }
    let unit : Nat → Nat → W64 := fun i w => BitVec.ofNat 64 (i * w / 8)
    let strided : Nat → Nat → W64 := fun i _ => BitVec.ofNat 64 i * s.rd b
    let indexed : Nat → Nat → W64 := fun i _ => BitVec.ofInt 64 (((s.me.vregs.get b.toNat (BitVec.allOnes 8192)).extractLsb' (32 * i) 32).toInt * 4)
    let tag (r : Nat) := s.me.vtag r
    let mask (m : VMod) := if m.msk = 0 then [] else [m.msk]
    let width (whole : Bool) (f : Nat) := if whole then fmtWidth f else 32
    -- the elements and what their checks gave
    let elts (m : VMod) (w : Nat) (off : Nat → Nat → W64) (base : W64) :=
      ((List.range ((if s.me.lanes = 0 then 32 else s.me.lanes) * 32 / w)).filter
        fun i => m.msk = 0 || (s.me.vregs.get m.msk (BitVec.allOnes 8192)).getLsbD i).map fun i => (i, (base + off i w).toNat)
    let found (m : VMod) (acc : Acc) (whole : Bool) (w : Nat) (off : Nat → Nat → W64) (base : W64) :=
      let r := checkElts (max 1 (w / 8)) acc (elts m w off base) { state := s }
      (r, firstBad (r.bad ++ (if whole ∧ base.toNat % max 1 (w / 8) ≠ 0 then [(3, .trap 0x03 base)] else [])))
    let goes (i : Instr) (m : VMod) (acc : Acc) (whole : Bool) (w : Nat) (off : Nat → Nat → W64) (base : W64) (op : List (Nat × Nat × Bool) → VOp)
        (tags : List (Nat × Nat)) (len : Nat) : Prop :=
      (s.busy s.cur = true → ∃ t, exec i s = .next t ∧ Waits s t .busy) ∧
      (s.busy s.cur = false →
        let r := found m acc whole w off base
        (∀ c v, r.2 = some (.trap c v) → exec i s = .next (s.trap c v)) ∧
        (∀ u g, r.2 = some (.page u g) → exec i s = .next (s.takeTrap s.cur g.cause g.va s.me.pc (some g))) ∧
        (r.2 = none → Enqueues s r.1.state i (op r.1.good) m tags len st))
    (∀ p ∈ ([(.vld d a st, {}, true, 0, unit, [a], none, 4),
        (.vldX d a fmt mk mp tp ph imm st, L, true, imm.signExtend 64, unit, [a], none, 12),
        (.vlds d a b st, {}, false, 0, strided, [a, b], none, 4),
        (.vldsX d a b fmt mk mp tp ph imm st, L, false, imm.signExtend 64, strided, [a, b], none, 12),
        (.vgath d a b st, {}, false, 0, indexed, [a], some b, 4),
        (.vgathX d a b fmt mk mp tp ph imm st, L, false, imm.signExtend 64, indexed, [a], some b, 12)] : List (Instr × VMod × Bool × W64 × (Nat → Nat → W64) × List R6 × Option R6 × Nat)),
      let (i, m, whole, disp, off, srcs, idx, len) := p
      (s.me.acquiring = true → ∃ t, exec i s = .next t ∧ Waits s t .acquire) ∧
      (s.Open srcs [] → VectorChecks s i (D :: (idx.map (·.toNat)).toList ++ mask m) ((∀ b, idx = some b → tag b.toNat = 3) ∧ s.maskOk m)
        (goes i m accLoad whole (width whole m.fmt) off (s.rd a + disp) (fun l => .load D (if whole then m.fmt else 3) l (s.rd a + disp)) [(D, m.fmt)] len))) ∧
    (∀ p ∈ ([(.vst d a st, {}, true, 0, unit, [a], none, 4),
        (.vstX d a fmt mk ph imm st, S, true, imm.signExtend 64, unit, [a], none, 12),
        (.vsts d a b st, {}, false, 0, strided, [a, b], none, 4),
        (.vstsX d a b fmt mk ph imm st, S, false, imm.signExtend 64, strided, [a, b], none, 12),
        (.vscat d a b st, {}, false, 0, indexed, [a], some b, 4),
        (.vscatX d a b fmt mk ph imm st, S, false, imm.signExtend 64, indexed, [a], some b, 12)] : List (Instr × VMod × Bool × W64 × (Nat → Nat → W64) × List R6 × Option R6 × Nat)),
      let (i, m, whole, disp, off, srcs, idx, len) := p
      let f := if m.fmt = 0 then tag D else m.fmt
      (s.me.acquiring = true → ∃ t, exec i s = .next t ∧ Waits s t .acquire) ∧
      (s.Open srcs [] → VectorChecks s i (D :: (idx.map (·.toNat)).toList ++ mask m)
        ((m.fmt = 0 ∨ tag D = m.fmt) ∧ (∀ b, idx = some b → tag b.toNat = 3) ∧ s.maskOk m)
        (goes i m accStore whole (width whole f) off (s.rd a + disp) (fun l => .store D (if whole then f else 3) l (s.rd a + disp)) [] len)))

/-- MMA, MMAS, MMAMX, MMAWS and MMAG at issue. A product traps with cause 0x07 when a tile of an operand does not
carry FMT (the tag that the last TLD or TZERO before it gives), with the causes of R282 for a pair operand, and
MMAS with cause 0x05 when its metadata end above 16,384; else its command enters the matrix queue, and MMAMX and
MMAWS wait until the engine has checked their scale sets. MMAG traps with cause 0x13 without a gang mask or when
masks differ, else waits at the wired barrier, and queues its command once the barrier lets it go. The barrier
waits until every member has arrived; then it compares their A operands, formats, step counts and zero starts,
and lets them all go where these agree, and traps each with cause 0x13 otherwise, TVAL naming the members’
columns (what is compared, and TVAL, are the model’s reading, log entry 30). With the matrix queue full an
instruction waits before its operands are checked. (R133, R155, R276, R280, R282, R283, R284, R286, R288) -/
def Obligations.MatrixProducts : Prop :=
  (∀ (s : State) (d a b c e : R6) (fmt : BitVec 4) (n : Byte) (as bs : Bit) (moff : R6) (sa sb : BitVec 7) (z : Bit) (st : St),
    let x : MatSrc := if as = 1 then .pair (s.rd a) (s.rd c) else .tile a.toNat
    let y : MatSrc := if bs = 1 then .pair (s.rd b) (s.rd e) else .tile b.toNat
    let me := s.core s.myCore
    let tagged (nb : Nat) := (as ≠ 1 → ∀ t < n.toNat, me.pendingTag (a.toNat + t) = fmt.toNat) ∧ (bs ≠ 1 → ∀ t < nb, me.pendingTag (b.toNat + t) = fmt.toNat)
    s.Open ((if as = 1 then [a, c] else []) ++ (if bs = 1 then [b, e] else [])) [] →
    (∀ p ∈ ([(.mma d a b c e fmt n as bs z st, .mma, n.toNat, 0, 0, 0, false),
        (.mmas d a b c e fmt n as bs moff z st, .mmas, 2 * n.toNat, moff.toNat, 0, moff.toNat * 256 + n.toNat * metaStep fmt.toNat, false),
        (.mmamx d a b c e fmt n as bs sa sb z st, .mmamx, n.toNat, sa.toNat, sb.toNat, 0, true),
        (.mmaws d a b c e fmt n as bs sa sb z st, .mmaws, n.toNat, sa.toNat, sb.toNat, 0, true)] :
        List (Instr × MatKind × Nat × Nat × Nat × Nat × Bool)),
      let (i, k, nb, o1, o2, metaEnd, checks) := p
      Roomed s i 0 ((¬ tagged nb → ∃ v, exec i s = .next (({ s with fresh := s.fresh + 2 } : State).trap 0x07 v)) ∧
        (tagged nb → Guarded s i (s.matFault [(x, n.toNat), (y, nb)])
          (if 16384 < metaEnd then exec i s = .next (s.trap 0x05 (BitVec.ofNat 64 metaEnd))
           else Commands s s i 0 none 0 (.mma k d.toNat x y fmt.toNat n.toNat (z == 1) o1 o2) checks false 12 st)))) ∧
    (let i : Instr := .mmag d a b c e fmt n as bs z st
     let op : EngOp := .mma .mmag d.toNat x y fmt.toNat n.toNat (z == 1) 0 0
     let differ := (s.gangCores s.myCore).filter fun k => (s.core k).gangMask != me.gangMask
     Roomed s i 0 ((me.mmag = none →
       (¬ tagged n.toNat → ∃ v, exec i s = .next (({ s with fresh := s.fresh + 2 } : State).trap 0x07 v)) ∧
       (tagged n.toNat → Guarded s i (s.matFault [(x, n.toNat), (y, n.toNat)])
         ((me.gangMask = 0 → ∃ v, exec i s = .next (({ s with fresh := s.fresh + 1 } : State).trap 0x13 v)) ∧
          (me.gangMask ≠ 0 → differ ≠ [] → exec i s = .next (s.trap 0x13 (colBits differ))) ∧
          (me.gangMask ≠ 0 → differ = [] → exec i s = .next (((s.modMe fun c => { c with wait := some .barrier, waitFrom := s.cycle }).modCore s.myCore
            fun c => { c with mmag := some (s.cur, op, false) }).gangJoin s.myCore))))) ∧
     (∀ o, me.mmag = some (s.cur, o, true) → ∃ t, exec i s = .next t ∧
       Commanded (s.modCore s.myCore fun c => { c with mmag := none }) t 0 (s.command (me.nextNum.get 0 1) 0 o true none) none none 12 st) ∧
     (∀ k o g, me.mmag = some (k, o, g) → k ≠ s.cur ∨ g = false → ∃ t, exec i s = .next t ∧ Waits s t .barrier)))) ∧
  (∀ (s : State) (core : Nat) (A : Nat → MatSrc) (F N : Nat → Nat) (Z : Nat → Bool),
    let cores := s.gangCores core
    let t := s.gangJoin core
    let arrived (c : Nat) : Prop := ∃ id k d y o1 o2, (s.core c).mmag = some (id, .mma k d (A c) y (F c) (N c) (Z c) o1 o2, false)
    let same := ∀ c ∈ cores, ∀ x ∈ cores, A c = A x ∧ F c = F x ∧ N c = N x ∧ Z c = Z x
    ((∃ c ∈ cores, ∀ m, (s.core c).mmag = some m → m.2.2 = true) → t = s) ∧
    ((∀ c ∈ cores, arrived c) → same → { t with cores := s.cores } = s ∧ (∀ c, c ∉ cores → t.core c = s.core c) ∧
      ∀ c ∈ cores, ∀ m, (s.core c).mmag = some m → t.core c = { s.core c with mmag := some (m.1, m.2.1, true) }) ∧
    ((∀ c ∈ cores, arrived c) → ¬ same → (∀ c ∈ cores, ∀ m, (s.core c).mmag = some m → coreOf m.1 = c) → ∀ c ∈ cores, ∀ m, (s.core c).mmag = some m → (t.core c).mmag = none ∧
      (t.ctx m.1).k 11 = 0x13 ∧ (t.ctx m.1).k 12 = (s.ctx m.1).pc ∧ (t.ctx m.1).k 13 = BitVec.ofNat 64 ((cores.map fun x => 2 ^ colOf x).sum)))

/-- MMAX, tile, accumulator and side-memory instructions, ORLD and GANGCFG at issue. Each, once the matrix queue has
room, checks its registers, its memory range and its lengths at issue and then enters the queue; an instruction
with a destination writes the command’s number to it; MMAX names in TVAL the register whose tag is neither I32
nor RAW, or, which is the model’s choice (log entry 12), one of it and the tiles; AREAD, before which every
earlier vector command of the context comes (the model’s reading, log entry 9), also gives its vector register
the format; GANGCFG traps in a helper with cause 0x01 and on a bad mask with cause 0x13, waits for an empty
matrix context, and sets the gang mask. (R276, R280, R285, R290, R291, R292, R293, R294) -/
def Obligations.MatrixCommands : Prop :=
  ∀ (s : State) (d a b c : R6) (fmt : BitVec 4) (n off : Byte) (soff : BitVec 7) (as z : Bit) (imm : W32) (st : St),
    let me := s.core s.myCore
    let x := s.rd a
    let xi := s.rd a + imm.signExtend 64
    let nb := (s.rd b).toNat
    (s.Open (if as = 1 then [a, c] else []) [] →
      let i : Instr := .mmax d a b c fmt n as z st
      let src : MatSrc := if as = 1 then .pair (s.rd a) (s.rd c) else .tile a.toNat
      let tagged := as ≠ 1 → ∀ t < n.toNat, me.pendingTag (a.toNat + t) = fmt.toNat
      let tag := s.me.vtag b.toNat
      Roomed s i 0 ((s.me.window ≤ b.toNat → exec i s = .next (s.trap 0x09 (b.setWidth 64))) ∧
      (b.toNat < s.me.window → s.busy s.cur = true → ∃ t, exec i s = .next t ∧ Waits s t .busy) ∧
      (b.toNat < s.me.window → s.busy s.cur = false →
        (¬ tagged → tag = 0 ∨ tag = 3 → ∃ v, exec i s = .next (({ s with fresh := s.fresh + 2 } : State).trap 0x07 v)) ∧
        -- where the tile and the register mismatch, which of the two TVAL names is free (log entry 12)
        (¬ tagged → tag ≠ 0 → tag ≠ 3 → ∃ v, exec i s = .next (({ s with fresh := s.fresh + 3 } : State).trap 0x07 v) ∨
          exec i s = .next (({ s with fresh := s.fresh + 1 } : State).trap 0x07 (tagTval 2 1 3 tag))) ∧
        (tagged → tag ≠ 0 → tag ≠ 3 → exec i s = .next (s.trap 0x07 (tagTval 2 1 3 tag))) ∧
        (tagged → tag = 0 ∨ tag = 3 → Guarded s i (s.matFault [(src, n.toNat)])
          (Commands s s i 0 none 0 (.mmax d.toNat src ((List.range 4).map fun k => (s.me.vregs.get b.toNat (BitVec.allOnes 8192)).extractLsb' (32 * k) 32)
            fmt.toNat n.toNat (z == 1)) true false 12 st))))) ∧
    (s.Open [a] [] → ∀ p ∈ ([(.tld d a st, x, 2048, .tld d.toNat x 0, 4), (.tldX d a fmt imm st, xi, 2048, .tld d.toNat xi fmt.toNat, 12),
        (.ald d a st, x, 4096, .ald d.toNat x, 4), (.aldX d a imm st, xi, 4096, .ald d.toNat xi, 12)] : List (Instr × W64 × Nat × EngOp × Nat)),
      let (i, x, size, op, len) := p
      Roomed s i 0 (Guarded s i (s.rangesFault true [{ a := x.toNat, len := size, align := 64, w := false }])
        (Commands s s i 0 none 0 op false false len st))) ∧
    (s.Open [a] [d] → ∀ p ∈ ([(.tst d a b st, x, 2048, .tst x b.toNat, True, 4),
        (.tstX d a b fmt imm st, xi, 2048, .tst xi b.toNat, fmt = 0 ∨ me.pendingTag b.toNat = fmt.toNat, 12),
        (.ast d a b st, x, 4096, .ast x b.toNat, True, 4), (.astX d a b imm st, xi, 4096, .ast xi b.toNat, True, 12)] :
        List (Instr × W64 × Nat × EngOp × Prop × Nat)),
      let (i, x, size, op, tagged, len) := p
      Roomed s i 0 ((¬ tagged → ∃ v, exec i s = .next (({ s with fresh := s.fresh + 2 } : State).trap 0x07 v)) ∧
        (tagged → Guarded s i (s.rangesFault true [{ a := x.toNat, len := size, align := 64, w := true }])
          (Commands s s i 0 (some d) 0 op false false len st)))) ∧
    (s.Clear [] [] → ∀ p ∈ ([(.tzero d st, .tzero d.toNat 0, 4), (.tzeroX d fmt st, .tzero d.toNat fmt.toNat, 12), (.aclr d st, .aclr d.toNat, 4),
        (.aclrX d st, .aclr d.toNat, 12)] : List (Instr × EngOp × Nat)),
      Roomed s p.1 0 (Commands s s p.1 0 none 0 p.2.1 false false p.2.2 st)) ∧
    (s.Clear [b] [] →
      let i : Instr := .aread d a b fmt st
      let u := s.modMe fun c => { c with vtags := c.vtags.put d.toNat fmt.toNat, holds := c.holds.filter (·.1 ≠ d.toNat) }
      let lanes := if s.me.lanes = 0 then 32 else s.me.lanes
      Roomed s i 0 ((s.me.window ≤ d.toNat → exec i s = .next (s.trap 0x09 (d.setWidth 64))) ∧
      (d.toNat < s.me.window → s.busy s.cur = true → ∃ t, exec i s = .next t ∧ Waits s t .busy) ∧
      (d.toNat < s.me.window → s.busy s.cur = false → ∃ t, exec i s = .next t ∧
        Commanded u t 0 (s.command (me.nextNum.get 0 1) 0 (.aread d.toNat a.toNat nb fmt.toNat (lanes * 32 / fmtWidth fmt.toNat)) true none) none none 12 st))) ∧
    (s.Open [a, b] [d] →
      (∀ p ∈ ([(.mdld d a b st, .mdld x nb 0, 0, 16384, 4), (.mdldX d a b off st, .mdld x nb off.toNat, off.toNat, 16384, 12),
          (.scld d a b st, .scld x nb 0, 0, 8192, 4), (.scldX d a b soff st, .scld x nb soff.toNat, soff.toNat, 8192, 12)] :
          List (Instr × EngOp × Nat × Nat × Nat)),
        let (i, op, off, cap, len) := p
        Roomed s i 0 (Guarded s i (s.rangesFault true [{ a := x.toNat, len := max 1 nb, align := 64 }])
          (if nb = 0 ∨ nb % 64 ≠ 0 ∨ cap < 64 * off + nb then exec i s = .next (s.trap 0x05 x)
           else Commands s s i 0 (some d) 0 op false false len st))) ∧
      (∀ p ∈ ([(.orld d a b st, 4), (.orldX d a b st, 12)] : List (Instr × Nat)),
        Roomed s p.1 0 (if nb < 1 ∨ 64 < nb then exec p.1 s = .next (s.trap 0x05 x)
          else Commands s s p.1 0 (some d) 0 (.orld x.toNat nb) false false p.2 st))) ∧
    (let i : Instr := .gangcfg a st
      let m := x.toNat % 256
      -- 0, or a contiguous run of at least two columns that has this core's
      let ok := m = 0 ∨ (∃ lo k, 2 ≤ k ∧ lo + k ≤ 8 ∧ m = (2 ^ k - 1) * 2 ^ lo) ∧ m.testBit (s.myCore % 8) = true
      let idle := me.queues.get 0 [] = [] ∧ me.mmag = none
      (s.cur / 4096 ≠ 0 → exec i s = .next (s.trap 0x01 (s.word0.setWidth 64))) ∧
      (s.Clear [a] [] → s.cur / 4096 = 0 → ¬ ok → exec i s = .next (s.trap 0x13 (BitVec.ofNat 64 m))) ∧
      (s.Clear [a] [] → s.cur / 4096 = 0 → ok → ¬ idle → ∃ t, exec i s = .next t ∧ Waits s t .gangFree) ∧
      (s.Clear [a] [] → s.cur / 4096 = 0 → ok → idle → ∃ t, exec i s = .next t ∧ Passes (s.modCore s.myCore fun c => { c with gangMask := m }) t 4 st))

/-- What the matrix engine writes. A dense product of two tile operands writes, for every output (i, j), the start
value plus its group sums; TZERO and ACLR write zeros; AREAD copies accumulator elements in order, narrowed for
a floating format, and leaves elements from 1,024 on; what is written loses an uncorrectable error that it had
(log entry 46, DESIGN CHOICE), and nothing else changes. (R175, R176, R275, R283, R291, R292, R293) -/
def Obligations.MatrixResults : Prop :=
  ∀ (s : State) (core : Nat) (q : EngCmd),
    (∀ d a b fmt n z, ∃ t, matEffect core { q with op := .mma .mma d (.tile a) (.tile b) fmt n z 0 0 } s = .done t ∧
      (∀ i j, i < 32 → j < 32 → accElt ((t.core core).acc d) (32 * i + j) =
        sumGroups fmt (if z then 0 else accElt ((s.core core).acc d) (32 * i + j))
          (denseGroups fmt n (fun k r => tileRow ((s.core core).tile (a + k)) r) (fun k r => tileRow ((s.core core).tile (b + k)) r) i j) % 2 ^ 32) ∧
      (∀ x, x ≠ d → (t.core core).acc x = (s.core core).acc x) ∧
      { t.core core with accs := (s.core core).accs, matErr := (s.core core).matErr } = s.core core ∧
      (t.core core).matErr = (s.core core).matErr.filter (fun w => !(matInAcc d 0 1024 w)) ∧
      (∀ k, k ≠ core → t.core k = s.core k) ∧ { t with cores := s.cores } = s) ∧
    (∀ d fmt, ∃ t, matEffect core { q with op := .tzero d fmt } s = .done t ∧ (t.core core).tile d = 0 ∧ (t.core core).tileTag d = fmt ∧
      (∀ x, x ≠ d → (t.core core).tile x = (s.core core).tile x ∧ (t.core core).tileTag x = (s.core core).tileTag x) ∧
      (∀ k, k ≠ core → t.core k = s.core k) ∧ { t with cores := s.cores } = s) ∧
    (∀ d, ∃ t, matEffect core { q with op := .aclr d } s = .done t ∧ (t.core core).acc d = 0 ∧ (∀ x, x ≠ d → (t.core core).acc x = (s.core core).acc x) ∧
      (∀ k, k ≠ core → t.core k = s.core k) ∧ { t with cores := s.cores } = s) ∧
    (∀ v x first fmt vl, vl * fmtWidth fmt ≤ 8192 → ∃ t, matEffect core { q with op := .aread v x first fmt vl } s = .done t ∧
      (∀ i, i < vl → eltAt ((t.ctx q.issuer).vbits v) (fmtWidth fmt) i =
        (if 1024 ≤ first + i then eltAt ((s.ctx q.issuer).vbits v) (fmtWidth fmt) i
         else (if isIntFmt fmt then accElt ((s.core core).acc x) (first + i) else rne fmt (numOf 9 (accElt ((s.core core).acc x) (first + i)))) %
           2 ^ fmtWidth fmt)) ∧
      (∀ r, r ≠ v → (t.ctx q.issuer).vbits r = (s.ctx q.issuer).vbits r) ∧ (∀ id, id ≠ q.issuer → t.ctx id = s.ctx id) ∧
      { t.ctx q.issuer with vregs := (s.ctx q.issuer).vregs } = s.ctx q.issuer ∧ { t with ctxs := s.ctxs } = s)

/-- What the matrix engine does with operands, loads, stores, records and scale sets. A tile operand gives its rows,
a pair operand in a cluster window the 64 bytes at each address of R281; MMA, MMAG, MMAS, MMAMX, MMAWS and MMAX
write each output’s start value plus the sums of R175, R286, R177 and R178 over what the operands gave, or,
where a word was poisoned, write nothing and end the issuer with cause 0x0C; TLD and ALD write the bytes that
their range gives to the tile, with its tag, or the accumulator, MDLD and SCLD to their bytes of the side
memory; TST and AST plan to write those of the tile or accumulator; ORLD puts each record of the table into the
cache; MMAMX and MMAWS trap on a scale set as R288 says, and an entry of MMAX on its record as R290 says. (R177,
R178, R275, R277, R281, R283, R286, R287, R288, R290, R291, R294) -/
def Obligations.MatrixEffects : Prop :=
  (∀ (s : State) (core n t : Nat) (q : EngCmd), s.operand core q (.tile t) n = (s, .ok (fun i r => tileRow ((s.core core).tile (t + i)) r, none))) ∧
  (∀ (s : State) (core n : Nat) (q : EngCmd) (x y : W64), q.got = [] → q.pages = [] → sramBase ≤ x.toNat → x.toNat < sramBase + 0x40000000 →
    (∀ l ∈ (s.cluster (clusterOf core)).lines, l.dirty = 0) →
    (∀ a ∈ pairRows x y n, sramBase ≤ a ∧ a < sramBase + 0x40000000 ∧ a % 64 = 0 ∧ ∀ k, k < 64 → s.isPoisoned (a + k) = false) →
    ∃ u ra, s.operand core q (.pair x y) n = (u, .ok (ra, none)) ∧ u.mem = s.mem ∧ u.cores = s.cores ∧
      ∀ t r k, t < n → r < 32 → k < 64 → ra t r / 2 ^ (8 * k) % 256 = (memGet s.mem (pairRow x y t r + k)).toNat) ∧
  (∀ (s u v : State) (core d n fmt o1 o2 : Nat) (q : EngCmd) (a b : MatSrc) (z : Bool) (ra rb : Rows) (bad1 bad2 : Option W64) (k : MatKind),
    q.op = .mma k d a b fmt n z o1 o2 → s.operand core q a n = (u, .ok (ra, bad1)) →
    u.operand core q b (if k = .mmas then 2 * n else n) = (v, .ok (rb, bad2)) →
    let me := v.core core
    let start (i j : Nat) : Nat := if z then 0 else accElt (me.acc d) (32 * i + j)
    let g := groupLen fmt
    let kt := tileK fmt
    let groups := n * kt / g
    let scale (at_ size : Nat) : Nat := me.scaleMem.toNat / 2 ^ (8 * at_) % 2 ^ (8 * size)
    let gives (f : Nat → Nat → Nat) : Prop := ∃ t, matEffect core q s = .done t ∧
      (∀ i j, i < 32 → j < 32 → accElt ((t.core core).acc d) (32 * i + j) = f i j % 2 ^ 32) ∧
      (∀ x, x ≠ d → (t.core core).acc x = me.acc x) ∧ { t.core core with accs := me.accs, matErr := me.matErr } = me ∧
      (∀ x, x ≠ core → t.core x = v.core x) ∧ { t with cores := v.cores } = v
    (∀ x, bad1.or bad2 = some x → matEffect core q s = .done (v.endAsFail q.issuer q.hnum 0x0C x)) ∧
    (bad1.or bad2 = none →
      (k = .mma ∨ k = .mmag → gives fun i j => sumGroups fmt (start i j) (denseGroups fmt n ra rb i j)) ∧
      (k = .mmas → gives fun i j => sumGroups fmt (start i j) ((List.range (2 * groups)).map fun x => (List.range (g / 4)).flatMap fun m =>
        let quad := x * (g / 4) + m
        let step := quad / (kt / 2)
        let p := quad % (kt / 2)
        let row := me.sideMem.toNat / 2 ^ (8 * (o1 * 256 + step * metaStep fmt + metaStep fmt / 32 * i)) % 2 ^ (8 * (metaStep fmt / 32))
        let nibble := row / 2 ^ (4 * p) % 16
        let product (h idx : Nat) : Nat × Nat := (eltAt (ra step i) (fmtWidth fmt) (2 * p + h),
          eltAt (rb (2 * step + (4 * p + idx) / kt) j) (fmtWidth fmt) ((4 * p + idx) % kt))
        [product 0 (nibble % 4), product 1 (nibble / 4), (0, 0), (0, 0)])) ∧
      (∀ x y, k = .mmamx → scaleSets me.scaleMem false (n * kt) o1 o2 = .ok (x, y) → gives fun i j => sumMx fmt (start i j)
        ((List.range groups).map fun m => (denseGroup fmt ra rb i j m, scale (x.at_ + (i * x.count + m) * 1) 1, scale (y.at_ + (j * y.count + m) * 1) 1))) ∧
      (∀ x y, k = .mmaws → scaleSets me.scaleMem true (n * kt) o1 o2 = .ok (x, y) → gives fun i j => sumWide fmt (start i j)
        ((List.range ((n * kt + 127) / 128)).map fun p =>
          (((List.range 4).filter fun m => decide (4 * p + m < groups)).map (fun m => denseGroup fmt ra rb i j (4 * p + m)),
           scale (x.at_ + (i * x.count + p) * 4) 4, scale (y.at_ + (0 * y.count + p) * 4) 4))))) ∧
  (∀ (s u v : State) (core d n fmt : Nat) (q : EngCmd) (a : MatSrc) (es : List W32) (z : Bool) (ra : Rows) (rbs : List Rows) (bad1 bad2 : Option W64),
    q.op = .mmax d a es fmt n z → s.operand core q a n = (u, .ok (ra, bad1)) →
    readRecords core q n ((List.range 4).map fun o => (List.range 4).map fun i => q.blocks.getD (4 * o + i) 0) u = (v, .ok (rbs, bad2)) →
    let me := v.core core
    (∀ x, bad1.or bad2 = some x → matEffect core q s = .done (v.endAsFail q.issuer q.hnum 0x0C x)) ∧
    (bad1.or bad2 = none → ∃ t, matEffect core q s = .done t ∧
      (∀ i j, i < 32 → j < 32 → accElt ((t.core core).acc d) (32 * i + j) =
        sumGroups fmt (if z then 0 else accElt (me.acc d) (32 * i + j)) (denseGroups fmt n ra (rbs.getD (i / 8) fun _ _ => 0) i j) % 2 ^ 32) ∧
      (∀ x, x ≠ d → (t.core core).acc x = me.acc x) ∧ (∀ x, x ≠ core → t.core x = v.core x) ∧ { t with cores := v.cores } = v)) ∧
  (∀ (s u : State) (core d len off : Nat) (tag : Nat) (q : EngCmd) (a : W64) (ps : List (Nat × Nat)),
    let vs := u.fetchFor q (byteKeys ps)
    let byte (i : Nat) : Nat := ((vs.getD i none).getD 0).toNat
    let loads (size : Nat) (goes : State → Prop) : Prop := s.engSource core q a.toNat size = (u, .ok ps) →
      (∀ x, poisonAt a.toNat vs = some x → matEffect core q s = .done (u.endAsFail q.issuer q.hnum 0x0C x)) ∧
      (poisonAt a.toNat vs = none → ∃ t, matEffect core q s = .done t ∧ (∀ x, x ≠ core → t.core x = u.core x) ∧ { t with cores := u.cores } = u ∧ goes t)
    (q.op = .tld d a tag → loads 2048 fun t => (∀ i, i < 2048 → ((t.core core).tile d).toNat / 2 ^ (8 * i) % 256 = byte i) ∧
      (t.core core).tileTag d = tag ∧ ∀ x, x ≠ d → (t.core core).tile x = (u.core core).tile x ∧ (t.core core).tileTag x = (u.core core).tileTag x) ∧
    (q.op = .ald d a → loads 4096 fun t => (∀ i, i < 4096 → ((t.core core).acc d).toNat / 2 ^ (8 * i) % 256 = byte i) ∧
      ∀ x, x ≠ d → (t.core core).acc x = (u.core core).acc x) ∧
    (q.op = .mdld a len off → 64 * off + len ≤ 16384 → loads len fun t => ∀ i, i < 16384 → (t.core core).sideMem.toNat / 2 ^ (8 * i) % 256 =
      if 64 * off ≤ i ∧ i < 64 * off + len then byte (i - 64 * off) else (u.core core).sideMem.toNat / 2 ^ (8 * i) % 256) ∧
    (q.op = .scld a len off → 64 * off + len ≤ 8192 → loads len fun t => ∀ i, i < 8192 → (t.core core).scaleMem.toNat / 2 ^ (8 * i) % 256 =
      if 64 * off ≤ i ∧ i < 64 * off + len then byte (i - 64 * off) else (u.core core).scaleMem.toNat / 2 ^ (8 * i) % 256) ∧
    (let stores (size v : Nat) : Prop := s.engDest core q a.toNat size = (u, .ok ps) → ∃ p, matEffect core q s = .write u p ∧ p.dest = ps ∧ p.tag = none ∧
        p.out.length = (byteKeys ps).length.min size ∧ ∀ i, i < p.out.length → p.out.getD i (0, none) = ((byteKeys ps).getD i 0, some (BitVec.ofNat 8 (v / 2 ^ (8 * i))))
     (q.op = .tst a d → stores 2048 ((s.core core).tile d).toNat) ∧ (q.op = .ast a d → stores 4096 ((s.core core).acc d).toNat))) ∧
  (∀ (s : State) (core first n : Nat) (q : EngCmd), q.op = .orld first n → n ≤ 64 →
    (∀ x, ((List.range n).findSome? fun i => s.recordPoison q.vf (first + i)) = some x →
      matEffect core q s = .done (s.endAsFail q.issuer q.hnum 0x0C x)) ∧
    (((List.range n).findSome? fun i => s.recordPoison q.vf (first + i)) = none → ∃ t, matEffect core q s = .done t ∧
      (∀ i ws, i < n → s.recordOf q.vf (first + i) = some ws → (first + i, ws) ∈ (t.core core).orCache) ∧
      { t.core core with orCache := (s.core core).orCache } = s.core core ∧ (∀ x, x ≠ core → t.core x = s.core x) ∧ { t with cores := s.cores } = s)) ∧
  (∀ (s : State) (core d n fmt o1 o2 : Nat) (q : EngCmd) (a b : MatSrc) (z wide : Bool),
    q.op = .mma (if wide then .mmaws else .mmamx) d a b fmt n z o1 o2 →
    let m := (s.core core).scaleMem.toNat
    let size := if wide then 4 else 1
    let count := (n * tileK fmt + (if wide then 127 else 31)) / (if wide then 128 else 32)
    let fault (off rows : Nat) : Option Cause :=
      let h := m / 2 ^ (8 * off) % 2 ^ 64
      if 8192 < off + 8 then some (0x05, BitVec.ofNat 64 off)
      else if h % 65536 ≠ count ∨ h / 2 ^ 16 % 256 ≠ rows ∨ h / 2 ^ 24 % 16 ≠ (if wide then 2 else 1) then some (0x0E, BitVec.ofNat 64 (h % 65536))
      else if 8192 < off + 8 + rows * count * size then some (0x05, BitVec.ofNat 64 off) else none
    let second := if o2 = 0 then (64 * o1 + 8 + 32 * count * size + 63) / 64 * 64 else 64 * o2
    matCheck core q s = (s, match fault (64 * o1) 32, fault second (if wide then 1 else 32) with
      | some c, _ => .error c
      | none, some c => .error c
      | none, none => .ok [])) ∧
  (∀ (s : State) (core fmt : Nat) (q : EngCmd) (e : W32) (es : List W32),
    let idx := e.toNat % 65536
    let key := e.toNat / 65536
    let set := (s.ctx q.issuer).k 4
    let cached := (s.core core).orCache.find? fun (p : Nat × List W64) => p.1 == idx
    let found := (cached.map (·.2)).or (s.recordOf q.vf idx)
    let good (ws : List W64) : Prop := (ws.getD 2 0).toNat / 2 ^ 63 = 1 ∧ (ws.getD 2 0).toNat % 65536 = key ∧ (ws.getD 1 0).toNat / 2 ^ 35 % 16 = fmt ∧
      set.toNat % 65536 ≤ key ∧ key ≤ set.toNat / 65536 % 65536
    cached.isSome = true ∨ s.recordPoison q.vf idx = none →
      ((∀ ws, found = some ws → ¬ good ws) → ∃ u, State.checkRecords core q fmt (e :: es) s = (u, .error (0x0D, BitVec.ofNat 64 (idx + key * 2 ^ 32)))) ∧
      (∀ ws, found = some ws → good ws → ∀ u l, State.checkRecords core q fmt es (s.cacheRecord core idx ws) = (u, .ok l) →
        State.checkRecords core q fmt (e :: es) s = (u, .ok (ws :: l))))

/-- CPY, CPYT, CPYG, BARGE, BARGEM and ATTNQ at issue. Each, once its queue has room, checks its length field (cause
0x05), then the ranges it names (that their order is the destination before the source, for BARGEM the source
before its destinations, which settles TVAL where several fail, is log entry 62, row R301, DESIGN CHOICE), and
then queues its command with the next number of its timeline counter, which goes to D; with order acq the
context waits for that number. (R99, R129, R299, R300, R301, R302, R303, R304, R305, R321) -/
def Obligations.EngineCommands : Prop :=
  ∀ (s : State) (d a b c e : R6) (fmt : BitVec 4) (od : BitVec 2) (ph : Bit) (ctx : BitVec 2) (tv cl : Bit) (st : St),
    let A := s.rd a
    let B := s.rd b
    let acq (o : BitVec 2) : Bool := o == 1 || o == 3
    (∀ p ∈ ([(.cpy d a b st, 0, 0, none, 0, 0, 4), (.cpyX d a b c od ph ctx st, c, ctx.toNat, none, od, ph, 12),
        (.cpyt d a b st, 0, 0, some false, 0, 0, 4), (.cpytX d a b c od ph ctx tv st, c, ctx.toNat, some (tv == 1), od, ph, 12)] :
        List (Instr × R6 × Nat × Option Bool × BitVec 2 × Bit × Nat)),
      let (i, c, ctx, tag, od, ph, len) := p
      let n := (s.rd c).toNat
      let al := if tag.isSome then 8 else 1
      s.Open [a, b, c] [d] →
        Roomed s i (1 + ctx) (if 2 ^ 32 ≤ n then exec i s = .next (s.trap 0x05 (s.rd c))
        else Guarded s i (s.rangesFault tag.isSome [{ a := A.toNat, len := n, align := al, w := true }, { a := B.toNat, len := n, align := al },
            { a := n, len := 0, align := al }])
          (Commands s s i (1 + ctx) (some d) ph (.cpy A B n tag) false (acq od) len st))) ∧
    (∀ p ∈ ([(.cpyg d a b st, 0, 0, 4, 0, 0, 0, 4), (.cpygX d a b c e fmt od ph ctx st, c, e, if fmt = 2 then 2 else 4, ctx.toNat, od, ph, 12)] :
        List (Instr × R6 × R6 × Nat × Nat × BitVec 2 × Bit × Nat)),
      let (i, c, e, w, ctx, od, ph, len) := p
      let size := (s.rd e).toNat % 2 ^ 32
      let count := (s.rd e).toNat / 2 ^ 32
      s.Open [a, b, c, e] [d] →
        Roomed s i (1 + ctx) (if size < 1 ∨ 65536 < size ∨ 2 ^ 24 < count then exec i s = .next (s.trap 0x05 (s.rd e))
        else Guarded s i (s.rangesFault false [{ a := A.toNat, len := count * size, w := true }, { a := (s.rd c).toNat, len := count * w, align := w }])
          (Commands s s i (1 + ctx) (some d) ph (.cpyg A B (s.rd c) size count w) false (acq od) len st))) ∧
    (∀ p ∈ ([(.barge d a b st, 0, 0, 0, 4), (.bargeX d a b c od ph st, c, od, ph, 12)] : List (Instr × R6 × BitVec 2 × Bit × Nat)),
      let (i, c, od, ph, len) := p
      let n := (s.rd c).toNat
      s.Open [a, b, c] [d] →
        Roomed s i 5 (if 2 ^ 32 ≤ n then exec i s = .next (s.trap 0x05 (s.rd c))
        else Guarded s i (s.rangesFault true [{ a := A.toNat, len := n, w := true }, { a := B.toNat, len := n }])
          (Commands s s i 5 (some d) ph (.barge A B n) false (acq od) len st))) ∧
    (∀ p ∈ ([(.bargem d a b st, 0, 0, false, 0, 0, 4), (.bargemX d a b c e od ph cl st, c, e, cl == 1, od, ph, 12)] :
        List (Instr × R6 × R6 × Bool × BitVec 2 × Bit × Nat)),
      let (i, c, e, cl, od, ph, len) := p
      let n := (s.rd c).toNat
      let ts := bargemTargets s.me.placed (s.rd e).toNat cl
      let src := s.rangesBefore [{ a := B.toNat, len := n }]
      let dst := s.bargemFault cl A.toNat n ts
      let five (x : Option Cause) : Option Cause := x.filter fun y => y.1 == 5
      s.Open [a, b, c, e] [d] →
        Roomed s i 5 (if 2 ^ 32 ≤ n then exec i s = .next (s.trap 0x05 (s.rd c))
        else Guarded s i ((five src).or ((five dst).or (src.or (dst.or (s.rangesWeight true [{ a := B.toNat, len := n }])))))
          (Commands s s i 5 (some d) ph (.bargem (ts.map (bargemKey cl A.toNat)) B n) false (acq od) len st))) ∧
    (s.Open [a] [d] → ∀ p ∈ ([(.attnq d a st, 0, 0, 4), (.attnqX d a od ph st, od, ph, 12)] : List (Instr × BitVec 2 × Bit × Nat)),
      let (i, od, ph, len) := p
      Roomed s i 6 (Guarded s i (s.rangesFault true [{ a := A.toNat, len := 64, align := 64 }])
        (Commands s s i 6 (some d) ph (.attnq A) false (acq od) len st)))

/-- Which cause the ranges, pair operands and barge destinations of a command give. A range is checked as R428 says;
the ranges of a command give the first cause in the order 0x05, 0x06, 0x03, 0x14 and 0x05 for the weight store;
pair operands give 0x05, 0x06 and 0x03, A before B in each, over every row (that among ranges of one cause the
first listed is named in TVAL, and A before B of a pair, is log entry 62, row R301, DESIGN CHOICE); a barge
offset gives 0x05 beyond its area and 0x14 in a berth area. That rows of two clusters give the address beyond
the unit as TVAL, and that the weight-store rule of R69 comes last for a pair operand, are the model’s readings
(log entry 29). (R47, R58, R62, R63, R64, R69, R155, R281, R282, R301, R305, R428) -/
def Obligations.EngineChecks : Prop :=
  (∀ (a len : Nat), 0 < len →
    let e := a + (len - 1)
    let window (x : Nat) : Nat := match placeOf x with
      | .translated => 0
      | .local_ _ => 1
      | .mesh _ _ => 2
      | .sram _ _ => 3
      | .weight _ _ => 4
      | .unmapped => 5
    (2 ^ 64 ≤ e → rangeFault a len = some (0x05, BitVec.ofNat 64 a)) ∧
    (e < 2 ^ 64 → window a = 5 ∨ window a ≠ window e → rangeFault a len = some (0x05, BitVec.ofNat 64 a)) ∧
    (e < 2 ^ 64 → window a = window e → window a = 0 ∨ window a = 1 ∨ window a = 4 → rangeFault a len = none) ∧
    (∀ i j o p, e < 2 ^ 64 → placeOf a = .mesh i o → placeOf e = .mesh j p → rangeFault a len =
      if i = j then none else some (0x06, BitVec.ofNat 64 (0xFFF0000000000000 + (i + 1) * 2 ^ 17))) ∧
    (∀ i j o p, e < 2 ^ 64 → placeOf a = .sram i o → placeOf e = .sram j p → rangeFault a len =
      if i = j then none else some (0x06, BitVec.ofNat 64 (0xFFF1000000000000 + (i + 1) * 2 ^ 21)))) ∧
  (∀ (s : State) (weight : Bool) (rs : List Rng), (∀ r ∈ rs, 0 < r.align) →
    let c := s.me
    let only (n : Nat) (x : Option Cause) : Option Cause := x.filter fun y => y.1 == n
    let outside (r : Rng) : Bool := match placeOf r.a with
      | .local_ _ => c.mig
      | .mesh i _ => !(c.placed.contains (clusterOf i))
      | .sram i o => !(c.placed.contains i) || decide ((s.cluster i).split * 0x40000 < o + r.len)
      | _ => false
    let weightStore (a : Nat) (w : Bool) : Bool := match placeOf a with
      | .weight d _ => w || (s.die d).loading || s.regBits (tffBase + 0x718) (8 * d + 4) (8 * d) != s.vfOf s.cur
      | _ => false
    let next (r : Rng) : Nat := (r.a + r.len - 1) / 0x100000000 * 0x100000000
    s.rangesFault weight rs =
      (rs.findSome? fun r => only 5 (rangeFault r.a r.len)).or
      ((rs.findSome? fun r => (only 6 (rangeFault r.a r.len)).or (if r.len ≠ 0 ∧ outside r = true then some (6, BitVec.ofNat 64 r.a) else none)).or
      ((rs.findSome? fun r => if r.a % r.align ≠ 0 then some (3, BitVec.ofNat 64 r.a) else none).or
      ((rs.findSome? fun r => if r.len = 0 then none else s.berthFault s.cur c r.a r.len).or
      (rs.findSome? fun r => if r.len = 0 ∨ (r.w = true ∧ weight = false) then none
        else if weightStore r.a r.w then some (5, BitVec.ofNat 64 r.a)
        else if r.a / 0x100000000 != (r.a + r.len - 1) / 0x100000000 && weightStore (next r) r.w then some (5, BitVec.ofNat 64 (next r)) else none))))) ∧
  (∀ (s : State) (ctx : Nat) (c : Ctx) (a len : Nat), c.actor = none →
    let hit (core off : Nat) : Prop := 0x20000 - s.berthSize core ≤ off + len - 1
    (ctx / 4096 = 0 → s.berthFault ctx c a len = none) ∧
    (∀ core off, ctx / 4096 ≠ 0 → placeOf a = .mesh core off → (hit core off → s.berthFault ctx c a len = some (0x14, BitVec.ofNat 64 a)) ∧
      (¬ hit core off → s.berthFault ctx c a len = none)) ∧
    (∀ off, ctx / 4096 ≠ 0 → placeOf a = .local_ off → (hit (ctx % 4096) off → s.berthFault ctx c a len = some (0x14, BitVec.ofNat 64 a)) ∧
      (¬ hit (ctx % 4096) off → s.berthFault ctx c a len = none))) ∧
  (∀ (s : State) (x y : MatSrc) (n m : Nat),
    let stage (k : Nat) : Option Cause := (x.fault s n k).or (y.fault s m k)
    s.matFault [(x, n), (y, m)] = (stage 1).or ((stage 2).or ((stage 3).or (stage 4)))) ∧
  (∀ (s : State) (x y : W64) (n t : Nat),
    let rows := pairRows x y n
    let fault (k : Nat) : Option Cause := (MatSrc.pair x y).fault s n k
    let inSram (a : Nat) : Prop := 0xFFF1000000000000 ≤ a ∧ a < 0xFFF1000040000000
    let inWeight (a : Nat) : Prop := 0xFFF2000000000000 ≤ a ∧ a < 0xFFF2000400000000
    let unit (a : Nat) : Nat := (a - 0xFFF1000000000000) / 2 ^ 21
    let free := y.toNat / 2 ^ 35 = 0
    ((MatSrc.tile t).fault s n 1 = none ∧ (MatSrc.tile t).fault s n 2 = none ∧ (MatSrc.tile t).fault s n 3 = none ∧ (MatSrc.tile t).fault s n 4 = none) ∧
    (¬ inSram x.toNat → ¬ inWeight x.toNat → fault 1 = some (0x05, x)) ∧
    (¬ free → fault 1 = some (0x05, x)) ∧
    (inSram x.toNat → (∃ a ∈ rows, ¬ inSram (a + 63)) → fault 1 = some (0x05, x)) ∧
    (inWeight x.toNat → (∃ a ∈ rows, ¬ inWeight (a + 63)) → fault 1 = some (0x05, x)) ∧
    (inSram x.toNat → free → (∀ a ∈ rows, inSram (a + 63)) → fault 1 = none) ∧
    (inWeight x.toNat → free → (∀ a ∈ rows, inWeight (a + 63)) → fault 1 = none) ∧
    (inSram x.toNat → (∀ a ∈ rows, inSram (a + 63)) → (∃ a ∈ rows, unit (a + 63) ≠ unit x.toNat) →
      fault 2 = some (0x06, BitVec.ofNat 64 (0xFFF1000000000000 + (unit x.toNat + 1) * 2 ^ 21))) ∧
    (inSram x.toNat → (∀ a ∈ rows, inSram (a + 63) ∧ unit (a + 63) = unit x.toNat) → fault 2 =
      if ¬ unit x.toNat ∈ s.me.placed ∨ ∃ a ∈ rows, (s.cluster (unit x.toNat)).split * 2 ^ 18 < (a - 0xFFF1000000000000) % 2 ^ 21 + 64
      then some (0x06, x) else none) ∧
    (inWeight x.toNat → fault 2 = none) ∧
    (fault 3 = if x.toNat % 64 ≠ 0 ∨ y.toNat % 2 ^ 16 % 64 ≠ 0 then some (0x03, x) else none) ∧
    (inSram x.toNat → fault 4 = none) ∧
    (inWeight x.toNat → fault 4 = rows.findSome? fun a => s.weightFault (s.vfOf s.cur) a false)) ∧
  (∀ (s : State) (a len : Nat) (ts : List Nat) (cl : Bool),
    (ts = [] ∨ len = 0 → s.bargemFault cl a len ts = none) ∧
    (ts ≠ [] → len ≠ 0 → cl = true → s.bargemFault cl a len ts =
      if ∃ x ∈ ts, (s.cluster x).split * 2 ^ 18 < a + len then some (0x05, BitVec.ofNat 64 a) else none) ∧
    (ts ≠ [] → len ≠ 0 → cl = false → s.bargemFault cl a len ts = if 2 ^ 17 < a + len then some (0x05, BitVec.ofNat 64 a)
      else if ∃ x ∈ ts, 2 ^ 17 - s.berthSize x ≤ a + len - 1 then some (0x14, BitVec.ofNat 64 a) else none))

/-- REFWAIT, MCST, MCSTC and MCSEQ. REFWAIT waits for the refresh window of its bank, or the one that begins within
the guard, to end, and writes WSREF; MCST and MCSTC check group, alignment and region, and hand their store to
the group’s sequencer; MCSEQ writes the generation and the highest applied number. (R70, R98, R108, R140, R151,
R323, R324, R325) -/
def Obligations.RefwaitAndSluices : Prop :=
  ∀ (s : State) (d a b c e : R6) (guard : BitVec 11) (od : BitVec 2) (ph : Bit) (st : St),
    let die := s.die (s.myCore / 1024)
    let bank := (s.rd a).toNat % 32
    let g := (s.rd a).toNat % 256
    let w := s.rd b
    (s.Clear [a] [d] → ∀ p ∈ ([(.refwait d a st, 0, 4), (.refwaitX d a guard st, guard.toNat, 12)] : List (Instr × Nat × Nat)),
      let (i, guard, len) := p
      let ahead := (bank + 32 - die.bank % 32) % 32
      let until_ := if ahead = 0 then some (die.bankFrom + 1500)
        else if die.bankFrom + 1500 * ahead ≤ s.ptp + min guard 1500 then some (die.bankFrom + 1500 * (ahead + 1)) else none
      let done := Computes s i d (s.wsref (s.myCore / 1024)) 1 len st
      (∀ t, s.me.wait = some (.refresh t) → if t ≤ s.ptp then done else ∃ u, exec i s = .next u ∧ Waits s u (.refresh t)) ∧
      (s.me.wait = none → (until_ = none → done) ∧
        (∀ t, until_ = some t → if t ≤ s.ptp then done else ∃ u, exec i s = .next u ∧ Waits s u (.refresh t)))) ∧
    (∀ p ∈ ([(.mcst d a b st, [a, b], none, 0, 0, 0, 4), (.mcstX d a b c od ph st, [a, b, c], none, s.rd c, od, ph, 12),
        (.mcstc d a b st, [a, b], some 0, 0, 0, 0, 4), (.mcstcX d a b c e od ph st, [a, b, c, e], some (s.rd c), s.rd e, od, ph, 12)] :
        List (Instr × List R6 × Option W64 × W64 × BitVec 2 × Bit × Nat)),
      let (i, srcs, expect, val, od, ph, len) := p
      let x : SStore := { id := s.nextId, ctx := s.cur, hnum := s.me.hnum, dst := s.me.regKey d, off := w.toNat - s.sluiceVbase g, expect := expect, val := val,
                          after := if od = 2 ∨ od = 3 then s.nextId else 0, phase := (s.me.phase + ph.toNat) % 2, vf := s.vfOf s.cur, window := s.winNum }
      s.Open srcs [d] →
        (s.sluiceOn g = false → exec i s = .next (s.trap 0x12 (BitVec.ofNat 64 g))) ∧
        (s.sluiceOn g = true → w.toNat % 8 ≠ 0 → exec i s = .next (s.trap 0x03 w)) ∧
        (s.sluiceOn g = true → w.toNat % 8 = 0 → w.toNat < s.sluiceVbase g ∨ s.sluiceVbase g + s.sluiceLen g ≤ w.toNat →
          exec i s = .next (s.trap 0x05 w)) ∧
        (s.sluiceOn g = true → w.toNat % 8 = 0 → s.sluiceVbase g ≤ w.toNat → w.toNat < s.sluiceVbase g + s.sluiceLen g →
          ∃ t, exec i s = .next t ∧ t.group g = { s.group g with waiting := (s.group g).waiting ++ [x] } ∧ (∀ k, k ≠ g → t.group k = s.group k) ∧
            t.nextId = s.nextId + 1 ∧ { t with ctxs := s.ctxs, groups := s.groups, nextId := s.nextId, activity := s.activity } = s ∧
            (∀ id, id ≠ s.cur → t.ctx id = s.ctx id) ∧
            (let wait : Option Wait := if od = 1 ∨ od = 3 then some (.sluice g x.id) else if d = 0 then some (.stamp g x.id) else none
             t.me = { s.me with pc := s.me.pc + BitVec.ofNat 64 len, nextIssue := s.cycle + 1 + st.toNat, wait := wait,
                                waitFrom := if wait.isSome then s.cycle else s.me.waitFrom }))) ∧
    (s.Clear [a] [d] → ∀ p ∈ ([(.mcseq d a st, 4), (.mcseqX d a st, 12)] : List (Instr × Nat)),
      (s.sluiceOn g = false → exec p.1 s = .next (s.trap 0x12 (BitVec.ofNat 64 g))) ∧
      (s.sluiceOn g = true → Computes s p.1 d (BitVec.ofNat 64 ((s.group g).gen * 2 ^ 32 + (s.group g).applied)) 1 p.2 st))

/-- What copies, gathers, barges and attention requests write. A copy that has read nothing before plans to write
every source byte to its place in the destination; of the words of the plan that are performed, whichever they
are, the bytes whose source is sound receive them and the others stay, CPYT sets the tag of each whole word, the
poison of each whole word written goes, by a plain CPY too (log entry 32, DEDUCED), and no other byte changes;
the source word for want of which a performed word is not whole ends the issuer with cause 0x0C when the
operation ends. CPYG, shown for a core’s local memory, writes record x of index i to place i; BARGE copies when
every page of its destination is of one remote module, and is an engine fault else; BARGEM, whose targets are
those its mask selects in snake order, writes the source to each; an attention request answers a status, or the
triple merged in the order of R322 at its places; that of several statuses 4 comes before 3 and 3 before 1 is
log entry 34 (DESIGN CHOICE), and that bits of E above the set are ignored log entry 33 (DESIGN CHOICE). (R78,
R98, R182, R183, R300, R301, R302, R303, R304, R305, R321, R322) -/
def Obligations.CopiesBytes : Prop :=
  (∀ (s u v : State) (core ctr : Nat) (q : EngCmd) (d a : W64) (n : Nat) (tag : Option Bool) (ps ds : List (Nat × Nat)),
    memWf v.mem = true → 0 < n → q.got = [] → q.put = [] → q.skip = false → rangeFault a.toNat n = none →
    s.engSource core q a.toNat n = (u, .ok ps) → u.engDest core q d.toNat n = (v, .ok ds) →
    (∀ k ∈ byteKeys ps, isNowhere k = false) → (byteKeys ds).Nodup → (byteKeys ds).length = (byteKeys ps).length →
    let to_ (i : Nat) : Nat := (byteKeys ds).getD i 0
    let lost (i : Nat) : Prop := u.isPoisoned ((byteKeys ps).getD i 0) = true
    ∃ p, copyInto core q d.toNat a.toNat n tag s = .write v p ∧ p.bad = none ∧ p.tag = tag ∧ p.dest = ds ∧
      (q.op = .cpy d a n tag → engEffect core q s = .write v p) ∧
      (∀ sel : Nat → Bool,
        let t := v.perform p sel
        ((∀ f ∈ v.flights, f.waiting = none) ∨ tag = none →
          (∀ i, i < (byteKeys ds).length → sel (wordKey (to_ i)) = true →
            (¬ lost i → memGet t.mem (to_ i) = memGet u.mem ((byteKeys ps).getD i 0)) ∧ (lost i → memGet t.mem (to_ i) = memGet v.mem (to_ i))) ∧
          (∀ k, k ∉ byteKeys ds ∨ sel (wordKey k) = false → memGet t.mem k = memGet v.mem k) ∧ t.ctxs = v.ctxs ∧ t.flights = v.flights ∧
          (tag = none → t.empties = v.empties) ∧
          (∀ w, w ∈ ds.flatMap (fun r => wholeWordsIn r.1 r.2) → sel w = true → (∀ i, i < (byteKeys ds).length → wordKey (to_ i) = w → ¬ lost i) →
            w ∉ t.poison ∧ (tag = some true → w ∉ t.empties) ∧ (tag = some false → w ∈ t.empties))) ∧
        ((∀ i, i < (byteKeys ds).length → sel (wordKey (to_ i)) = true → ¬ lost i) → p.badOf sel = none) ∧
        (∀ i, i < (byteKeys ds).length → sel (wordKey (to_ i)) = true → lost i → ∃ j, lost j ∧
          p.badOf sel = some (BitVec.ofNat 64 ((a.toNat + j) / 8 * 8)))) ∧
      finishOp core ctr q (.write v p) =
        some (((v.performFor q.vf p fun w => !(q.put.contains w)).poisoned q (p.badOf fun w => !(q.put.contains w))).noteDest core ctr q ds)) ∧
  (∀ (s : State) (core : Nat) (q : EngCmd) (d a l : W64) (z m w : Nat), q.op = .cpyg d a l z m w → core < 4096 → q.got = [] → q.pages = [] → q.mig = false →
    q.skip = false → q.issuer / 4096 = 0 → (∀ x ∈ (s.cluster (clusterOf core)).lines, x.dirty = 0) → 0 < z → 0 < m → w = 2 ∨ w = 4 →
    let mine (x n : Nat) : Prop := 0xFFFFFFFFFFFE0000 ≤ x ∧ x + n ≤ 2 ^ 64
    let key (x : Nat) : Nat := 0xFFF0000000000000 + core * 2 ^ 17 + (x - 0xFFFFFFFFFFFE0000)
    let index (i : Nat) : Nat := ((List.range w).map fun k => (memGet s.mem (key (l.toNat + i * w + k))).toNat * 256 ^ k).sum
    (∀ o, o < 2 ^ 17 → s.isPoisoned (key (0xFFFFFFFFFFFE0000 + o)) = false) → mine l.toNat (m * w) → mine d.toNat (m * z) →
    (∀ i, i < m → mine (a.toNat + index i * z) z) →
    ∃ v p, engEffect core q s = .write v p ∧ v.mem = s.mem ∧ p.tag = none ∧ p.bad = none ∧ p.bads = [] ∧ p.out.length = m * z ∧
      ∀ i k, i < m → k < z →
        p.out.getD (i * z + k) (0, none) = (key (d.toNat + i * z + k), some (memGet s.mem (key (a.toNat + index i * z + k))))) ∧
  (∀ (s u : State) (core : Nat) (q : EngCmd) (d a : W64) (n : Nat) (ds : List (Nat × Nat)), q.op = .barge d a n → 0 < n → q.skip = false →
    s.engKeys core q accEWrite (chunks d.toNat n) = (u, .ok ds) →
    let one : Prop := ∃ dev, ∀ p ∈ ds, isRemoteKey p.1 = true ∧ keyDev p.1 = dev
    ((∀ p ∈ ds, isNowhere p.1 = false) → one → engEffect core q s = copyInto core q d.toNat a.toNat n none u) ∧
    ((∀ p ∈ ds, isNowhere p.1 = false) → ¬ one → engEffect core q s = .stop (.fault { cause := 0x05, va := d, kind := accEWrite.kind, level := 0, pte := 0 }))) ∧
  (∀ (s u : State) (core : Nat) (q : EngCmd) (keys : List Nat) (a : W64) (n : Nat) (ps : List (Nat × Nat)), q.op = .bargem keys a n → 0 < n → keys ≠ [] →
    s.engSource core q a.toNat n = (u, .ok ps) → (byteKeys ps).length = n → (∀ x ∈ u.fetchFor q (byteKeys ps), x ≠ none) →
    ∃ p, engEffect core q s = .write u p ∧ p.tag = none ∧ p.bad = none ∧ p.bads = [] ∧ p.dest = keys.map (fun k => (k, n)) ∧
      p.out.length = keys.length * n ∧ ∀ j k, j < keys.length → k < n →
        p.out.getD (j * n + k) (0, none) = (keys.getD j 0 + k, (u.fetchFor q (byteKeys ps)).getD k none)) ∧
  (∀ (placed : List Nat) (mask : Nat) (cl : Bool),
    let set := (if cl then placed else placed.flatMap coresOf).sortedBy fun a b => decide (a ≤ b)
    let place (x : Nat) : Nat := if cl then x / 4 * 4 + (if x / 4 % 2 = 0 then x % 4 else 3 - x % 4)
      else x / 32 * 32 + (if x / 32 % 2 = 0 then x % 32 else 31 - x % 32)
    (∀ x, x ∈ bargemTargets placed mask cl ↔ ∃ i, i < set.length ∧ mask.testBit i = true ∧ set.getD i 0 = x) ∧
    (bargemTargets placed mask cl).Pairwise (fun x y => place x ≤ place y)) ∧
  (∀ (s : State) (vf : Nat) (ws : List W64),
    let x := attnOf ws
    (attnFieldsOk ws = false → (s.attnPlan vf ws).1 = 4) ∧
    (attnFieldsOk ws = true → s.seq? vf x.seq = none → (s.attnPlan vf ws).1 = 3) ∧
    (∀ e, attnFieldsOk ws = true → s.seq? vf x.seq = some e →
      let size := s.blockSize (e.num % 16) e.pool
      let t := size / x.stride
      let last := (x.first + x.count - 1) / t
      (size % x.stride ≠ 0 → (s.attnPlan vf ws).1 = 4) ∧
      (size % x.stride = 0 → e.entries.length ≤ last → (s.attnPlan vf ws).1 = 1) ∧
      (size % x.stride = 0 → last < e.entries.length →
        s.attnPlan vf ws = (0, size, (e.entries.drop (x.first / t)).take (last + 1 - x.first / t))))) ∧
  (∀ (s u v : State) (core : Nat) (q : EngCmd) (a : W64) (ws : List W64) (got : Got) (ds : List (Nat × Nat)) (st : Nat),
    q.op = .attnq a → q.blocks = ws → ws ≠ [] → (ws.getD 8 0).toNat = st →
    let x := attnOf ws
    let word (i : Nat) : Nat := ((List.range 4).map fun k => ((got.vals.getD (4 * i + k) none).getD 0).toNat * 256 ^ k).sum
    let qs := (List.range x.hd).map word
    let blocks := u.attnRecords x (ws.getD 9 0).toNat (ws.drop 10)
    (st ≠ 0 → s.laterFault q x.out.toNat 8 true = false → s.engDest core q x.out.toNat 8 = (v, .ok ds) → ∃ p, engEffect core q s = .write v p ∧
      p.out = (byteKeys ds).zip ((natBytes st 8).map some) ∧ p.dest = ds ∧ p.spoil = false) ∧
    (st = 0 → s.readLater core q x.q.toNat (4 * x.hd) = (u, .ok got) → got.bad = none → u.laterFault q x.out.toNat (16 + 4 * x.hd) true = false →
      u.engDest core q x.out.toNat (16 + 4 * x.hd) = (v, .ok ds) →
      (∀ m l o, u.attnTriple q x qs blocks = some (m, l, o) → o.length = x.hd → ∃ p, engEffect core q s = .write v p ∧ p.dest = ds ∧ p.spoil = false ∧
        p.last = ds.head?.map (·.1) ∧ p.out = (byteKeys ds).zip ((natBytes 0 8 ++ natBytes m 4 ++ natBytes l 4 ++ o.flatMap fun w => natBytes w 4).map some)) ∧
      (u.attnTriple q x qs blocks = none → ∃ p, engEffect core q s = .write v p ∧ p.dest = ds ∧ p.spoil = true ∧
        p.out = (byteKeys ds).zip ((natBytes 2 8).map some ++ List.replicate (4 * (2 + x.hd)) none)))) ∧
  (∀ (s : State) (q : EngCmd) (x : Attn) (qs : List Nat) (k : Nat) (ks : List Nat) (t : Triple) (bs : List (List Nat)),
    let elt (at_ i : Nat) : Nat := rne 9 (numOf x.fmt (bytesNat ((s.fetchFor q (byteKeys [(at_, x.hd * fmtWidth x.fmt / 8)])).map (·.getD 0)) / 2 ^ (fmtWidth x.fmt * i)))
    let sound (at_ : Nat) : Prop := ∀ b ∈ s.fetchFor q (byteKeys [(at_, x.hd * fmtWidth x.fmt / 8)]), b ≠ none
    (sound k → sound (k + x.voff) → s.positionTriple q x qs k = some
      (rne 9 (sumExact ((qs.zip ((List.range x.hd).map (elt k))).map fun p => (numOf 9 p.1).mul (numOf 9 p.2))), 0x3F800000, (List.range x.hd).map (elt (k + x.voff)))) ∧
    (¬ (sound k ∧ sound (k + x.voff)) → s.positionTriple q x qs k = none ∧ s.blockTriple q x qs (k :: ks) t = none) ∧
    (∀ p, s.positionTriple q x qs k = some p → s.blockTriple q x qs (k :: ks) t = s.blockTriple q x qs ks (mergeTriple t p)) ∧
    s.blockTriple q x qs [] t = some t ∧
    (∀ m l o m' l' o', mergeTriple (m, l, o) (m', l', o') = ((merge3 (m, l, 0) (m', l', 0)).1, (merge3 (m, l, 0) (m', l', 0)).2.1,
      (o.zip o').map fun p => (merge3 (m, l, p.1) (m', l', p.2)).2.2)) ∧
    (∀ ts : List Triple, bs.length = ts.length → (∀ i, i < bs.length → s.blockTriple q x qs (bs.getD i []) (0xFF800000, 0, List.replicate x.hd 0) = some (ts.getD i (0, 0, []))) →
      ts ≠ [] → s.attnTriple q x qs bs = some (ts.tail.foldl mergeTriple (ts.headD (0, 0, [])))))

/-- SEND, SENDX, MSGINFO, AIDLE, AERASE and MIGRATE. SEND and SENDX wait for a zero store-acknowledge counter, read
their image (trapping as an access does, and waiting while a part of it lies in a bank under refresh or behind
no route), give 1 for a malformed header, and else hand the message over with status 0: to its mooring slice, to
the Ethernet reply for class 0xFFFF, or to the Towline port of another module, with 1 for class 0xFFFF there and
2 when this module or that one is outside the time domain or no route is up; that status 1 comes before status 2
where both hold is log entry 34 (DESIGN CHOICE). MSGINFO, AIDLE, AERASE and MIGRATE do what R308 to R311 say;
the answer to an AERASE is under way while its directory grows or operations held before it are still to come.
(R54, R135, R306, R307, R308, R309, R310, R311) -/
def Obligations.Messages : Prop :=
  ∀ (s : State) (d a b c : R6) (ph : Bit) (st : St),
    let w := s.rd a
    let stops (i : Instr) (u : State) : ImageStop → Prop := fun
      | .trap c => exec i s = .next (u.trap c.1 c.2)
      | .page f => exec i s = .next (u.takeTrap u.cur f.cause f.va u.me.pc (some f))
      | .wait w => ∃ t, exec i s = .next t ∧ Waits u t w
    let image (i : Instr) (ph : Bit) (len origin : Nat) (good : State → Msg → Prop) : Prop :=
      (s.acks s.cur ≠ 0 → ∃ t, exec i s = .next t ∧ Waits s t .acks) ∧
      (s.acks s.cur = 0 →
        (∀ u x, s.readImage w.toNat 32 = (u, .error x) → stops i u x) ∧
        (∀ u h, s.readImage w.toNat 32 = (u, .ok h) → badHeader h = true → ∃ t, exec i s = .next t ∧ Writes u t d 1 1 len st) ∧
        (∀ u h, s.readImage w.toNat 32 = (u, .ok h) → badHeader h = false →
          (∀ v x, u.readImage w.toNat (32 + bitsOf (wordAt h 1) 48 42) = (v, .error x) → stops i v x) ∧
          (∀ v bs, u.readImage w.toNat (32 + bitsOf (wordAt h 1) 48 42) = (v, .ok bs) → good v (v.msgOf bs ph origin))))
    let mine (i : Instr) (len : Nat) (v : State) (m : Msg) : Prop :=
      (m.cls = 0xFFFF → ∃ t, exec i s = .next t ∧ Writes ((v.ethReply m).active m.vf m.phase) t d 0 1 len st) ∧
      (m.cls ≠ 0xFFFF → (v.slice (homeMooring m.cls m.key)).stoppedAt = none → ∃ t, exec i s = .next t ∧ Writes (v.postMsg m) t d 0 1 len st) ∧
      (m.cls ≠ 0xFFFF → (v.slice (homeMooring m.cls m.key)).stoppedAt ≠ none → ∃ t, exec i s = .next t ∧
        (Waits { v with fresh := v.fresh + 1 } t (.plane (homeMooring m.cls m.key)) ∨ Writes (({ v with fresh := v.fresh + 1 } : State).postMsg m) t d 0 1 len st))
    (s.Open [a] [d] → ∀ p ∈ ([(.send d a st, 0, 4), (.sendX d a ph st, ph, 12)] : List (Instr × Bit × Nat)),
      image p.1 p.2.1 p.2.2 0 (mine p.1 p.2.2)) ∧
    (s.Open [a, b] [d] → ∀ p ∈ ([(.sendx d a b st, 0, 4), (.sendxX d a b ph st, ph, 12)] : List (Instr × Bit × Nat)),
      let (i, ph, len) := p
      let dev := (s.rd b).toNat % 1024
      (dev = s.device → image i ph len 0 (mine i len)) ∧
      (dev ≠ s.device → image i ph len 1 fun v m =>
        (m.cls = 0xFFFF → ∃ t, exec i s = .next t ∧ Writes v t d 1 1 len st) ∧
        (m.cls ≠ 0xFFFF → v.inDomain = false ∨ v.apart.contains dev = true ∨ v.routeTo dev = none → ∃ t, exec i s = .next t ∧ Writes v t d 2 1 len st) ∧
        (∀ p, m.cls ≠ 0xFFFF → v.inDomain = true → v.apart.contains dev = false → v.routeTo dev = some p → ∃ t, exec i s = .next t ∧
          Writes (({ v with towOut := v.towOut ++ [(p, dev, m)] } : State).active m.vf m.phase) t d 0 1 len st))) ∧
    (s.Clear [] [d] → ∀ p ∈ ([(.msginfo d st, 4), (.msginfoX d st, 12)] : List (Instr × Nat)),
      ((∀ r, s.me.actor = some r → s.moor? r.cls r.key = none) → Computes s p.1 d (-1) 1 p.2 st) ∧
      (∀ r m, s.me.actor = some r → s.moor? r.cls r.key = some m → Computes s p.1 d
        (BitVec.ofNat 64 (min 3 m.mailbox.length + min 255 m.chamber.length * 2 ^ 8 + (if r.aidle then 2 ^ 16 else 0) +
          (if m.st = .shifting then 2 ^ 17 else 0) + ((m.berth.map (·.1)).getD 0) * 2 ^ 32)) 1 p.2 st)) ∧
    (s.Clear [] [] → ∀ p ∈ ([(.aidle st, 4), (.aidleX st, 12)] : List (Instr × Nat)),
      (s.me.actor = none → exec p.1 s = .next (s.trap 0x01 (s.word0.setWidth 64))) ∧
      (∀ r, s.me.actor = some r → ∃ t, exec p.1 s = .next t ∧ Passes (s.modMe fun c => { c with actor := some { r with aidle := true } }) t p.2 st)) ∧
    (s.Open [a, b] [d] → ∀ p ∈ ([(.aerase d a b st, 4), (.aeraseX d a b st, 12)] : List (Instr × Nat)),
      let (i, len) := p
      let cls := (s.rd b).toNat % 65536
      (s.classFor (s.vfOf s.cur) cls = none → Computes s i d 2 1 len st) ∧
      (∀ r, s.classFor (s.vfOf s.cur) cls = some r →
        (s.dirHeld r.dir = true ∨ s.dirTurn r.dir none = false → ∃ t, exec i s = .next t ∧
          Pends { s with arrival := s.arrival + 1 } t d (.erase w cls (some s.arrival)) len st) ∧
        (s.dirHeld r.dir = false → s.dirTurn r.dir none = true →
          (∀ m, s.moor? cls w = some m →
            if m.st = .moored ∧ m.busy = false ∧ m.mailbox = [] ∧ m.chamber = [] then ∃ t, exec i s = .next t ∧ Writes (s.freeEntry m) t d 0 1 len st
            else Computes s i d 1 1 len st) ∧
          (∀ k, s.moor? cls w = none → s.dirFind r.dir cls w = some k → ∃ t, exec i s = .next t ∧ Writes (s.dirDrop r.dir k) t d 0 1 len st) ∧
          (s.moor? cls w = none → s.dirFind r.dir cls w = none → Computes s i d 0 1 len st)))) ∧
    (∀ p ∈ ([(.migrate d a b st, 0, 4), (.migrateX d a b c st, c, 12)] : List (Instr × R6 × Nat)),
      let (i, c, len) := p
      let cls := (s.rd b).toNat % 65536
      let core := (s.rd c).toNat % 4096
      s.Open [a, b, c] [d] →
        (s.classFor (s.vfOf s.cur) cls = none → Computes s i d 4 1 len st) ∧
        (∀ r, s.classFor (s.vfOf s.cur) cls = some r →
          (s.moor? cls w = none → Computes s i d 1 1 len st) ∧
          (∀ m, s.moor? cls w = some m →
            (m.st = .shifting → Computes s i d 2 1 len st) ∧
            (m.st = .mooring ∨ m.st = .unmooring → Computes s i d 1 1 len st) ∧
            (m.st = .moored → m.berth.map (·.1) = some core → Computes s i d 0 1 len st) ∧
            (m.st = .moored → m.berth.map (·.1) ≠ some core → (shiftTargets r (homeMooring cls w)).contains core = false ∨
                s.freeOffsets core (runLen m.size) (s.runsOn core) = [] → Computes s i d 3 1 len st) ∧
            (m.st = .moored → m.berth.map (·.1) ≠ some core → (shiftTargets r (homeMooring cls w)).contains core = true →
                s.freeOffsets core (runLen m.size) (s.runsOn core) ≠ [] →
              ∃ t o, exec i s = .next t ∧ o ∈ s.freeOffsets core (runLen m.size) (s.runsOn core) ∧
                Writes (({ s with fresh := if s.runsOn core = [] then s.fresh else s.fresh + 1 } : State).setMoor { m with st := .shifting, target := some (core, o) })
                  t d 0 1 len st))))

/-- BALLOC, BSHARE, BQUERY and BSEQNEW. BALLOC and BSEQNEW act at once when the context’s earlier writes are
acknowledged and no block command or request of the core stands before them, and else are under way while the
context goes on, with the same answer when their turn comes; BALLOC gives a handle and the index of its table
entry, or a status, and is under way while no usable list has a rinsed block (that those behind it then pass is
the model’s choice, log entry 25). BSHARE and BQUERY wait for a zero store-acknowledge counter and behind the
commands and requests that the core’s block engine has not finished, then act at once: BSHARE adds a reference
or gives a status, and traps as a bad handle does; BQUERY gives the pool’s virtual base and the block size;
BSEQNEW creates an empty sequence or gives a status. An allocation takes the head of the rinsed list of the
first pool, of those under quota, that has one, in the order of R314, with a count of one and the charge on the
quota. Which status comes first where several hold is the model’s choice (log entry 34), and so is which answer
remains where both destinations of BALLOC are one register (log entry 12). (R81, R83, R98, R312, R313, R314,
R315, R317) -/
def Obligations.BlockRequests : Prop :=
  ∀ (s : State) (d a b e : R6) (loose : Bit) (st : St),
    let x := s.rd a
    let vf := s.vfOf s.cur
    let request (i : Instr) (goes : Prop) : Prop :=
      (s.acks s.cur ≠ 0 → ∃ t, exec i s = .next t ∧ Waits s t .acks) ∧
      (s.acks s.cur = 0 → s.engineIdle s.myCore 7 = false ∨ s.requestsGone s.myCore s.nextId = false → ∃ t, exec i s = .next t ∧ Waits s t (.engineEmpty 7)) ∧
      (s.acks s.cur = 0 → s.engineIdle s.myCore 7 = true → s.requestsGone s.myCore s.nextId = true → goes)
    let turn : Prop := s.requestTurn s.cur s.nextId = true
    let later (i : Instr) (d e : R6) (op : PendOp) (len : Nat) : Prop :=
      ∃ t, exec i s = .next t ∧ Pends { s with nextId := s.nextId + 1 } t d op len st (some e)
    -- two results: the other registers, and all else but the context, are those of `u`
    let two (u : State) (i : Instr) (d e : R6) (v w : W64) (len : Nat) : Prop :=
      ∃ t, exec i s = .next t ∧ OnlyMe { u with fresh := t.fresh } t ∧ (d ≠ e → t.fresh = u.fresh) ∧
        t.me.pc = u.me.pc + BitVec.ofNat 64 len ∧ t.me.wait = none ∧ t.me.nextIssue = u.cycle + 1 + st.toNat ∧
        (u.me.regKey d ≠ 0 → t.me.regAt (u.me.regKey d) = v ∨ d = e ∧ t.me.regAt (u.me.regKey d) = w) ∧
        (u.me.regKey e ≠ 0 → d ≠ e → t.me.regAt (u.me.regKey e) = w) ∧
        (∀ k, k = 0 ∨ k ≠ u.me.regKey d ∧ k ≠ u.me.regKey e → t.me.regAt k = u.me.regAt k)
    let handle (i : Instr) (w : W64) (goes : Prop) : Prop := Guarded s i (s.handleFault vf w) goes
    (∀ p ∈ ([(.balloc d a st, 0, false, 4), (.ballocX d a e loose st, e, loose == 1, 12)] : List (Instr × R6 × Bool × Nat)),
      let (i, e, loose, len) := p
      let t := bitsOf x 7 4
      let pool := bitsOf x 3 0
      let status (v : W64) : Prop := Computes s i d v 1 len st
      let alloc (l : Bool) (pools : List (Nat × Nat)) (idx : W64) (add : State → W64 → State) : Prop :=
        (s.allocate vf l pools = .quota → status 1) ∧ (s.allocate vf l pools = .wait → later i d e (.alloc loose x s.nextId) len) ∧
        (∀ u h, s.allocate vf l pools = .got u h → two (add u h) i d e h idx len)
      s.Open [a] [d, e] → (¬ turn → later i d e (.alloc loose x s.nextId) len) ∧
        (turn → (loose = true → (s.quotaLimit t vf pool = 0 → status 4) ∧ (s.quotaLimit t vf pool ≠ 0 → alloc true [(t, pool)] 0 fun u _ => u)) ∧
         (loose = false → (s.seq? vf (x.toNat % 2 ^ 24) = none → status 3) ∧
           (∀ q, s.seq? vf (x.toNat % 2 ^ 24) = some q →
             if 2 ^ 20 ≤ q.entries.length then status 2
             else alloc false (poolOrder (q.num % 16) q.pool) (BitVec.ofNat 64 q.entries.length)
               fun u h => u.setSeq { q with entries := q.entries ++ [h] }))) ∧
        -- what a request under way gets when its turn comes
        (∀ ctx (p : Pend) id, p.op = .alloc loose x id →
          (s.requestTurn ctx id = false → s.answerBlock ctx p = s) ∧
          (s.requestTurn ctx id = true →
            let v := s.vfOf ctx
            let gets (l : Bool) (pools : List (Nat × Nat)) (idx : W64) (add : State → W64 → State) : Prop :=
              (s.allocate v l pools = .quota → s.answerBlock ctx p = s.deliver2 ctx p 1 none) ∧ (s.allocate v l pools = .wait → s.answerBlock ctx p = s) ∧
              (∀ u h, s.allocate v l pools = .got u h → s.answerBlock ctx p = (add u h).deliver2 ctx p h (some idx))
            (loose = true → (s.quotaLimit t v pool = 0 → s.answerBlock ctx p = s.deliver2 ctx p 4 none) ∧
              (s.quotaLimit t v pool ≠ 0 → gets true [(t, pool)] 0 fun u _ => u)) ∧
            (loose = false → (s.seq? v (x.toNat % 2 ^ 24) = none → s.answerBlock ctx p = s.deliver2 ctx p 3 none) ∧
              (∀ q, s.seq? v (x.toNat % 2 ^ 24) = some q → if 2 ^ 20 ≤ q.entries.length then s.answerBlock ctx p = s.deliver2 ctx p 2 none
                else gets false (poolOrder (q.num % 16) q.pool) (BitVec.ofNat 64 q.entries.length) fun u h => u.setSeq { q with entries := q.entries ++ [h] }))))) ∧
    (s.Open [a, b] [d] →
      (∀ p ∈ ([(.bshare d a b st, false, 4), (.bshareX d a b loose st, loose == 1, 12)] : List (Instr × Bool × Nat)),
        let (i, loose, len) := p
        let w := s.rd b
        let h := handleOf w
        let k := s.block h.stack h.pool h.index
        let status (v : W64) : Prop := Computes s i d v 1 len st
        request i (handle i w
          ((loose = true → if 65535 ≤ k.table_ + k.loose then status 7
              else ∃ t, exec i s = .next t ∧ Writes (s.setBlock h.stack h.pool h.index { k with loose := k.loose + 1 }) t d 0 1 len st) ∧
           (loose = false → (s.seq? vf (x.toNat % 2 ^ 24) = none → status 3) ∧
             (∀ q, s.seq? vf (x.toNat % 2 ^ 24) = some q →
               if 2 ^ 20 ≤ q.entries.length then status 2 else if 65535 ≤ k.table_ + k.loose then status 7
               else ∃ t, exec i s = .next t ∧ Writes ((s.setBlock h.stack h.pool h.index { k with table_ := k.table_ + 1 }).setSeq
                 { q with entries := q.entries ++ [w] }) t d 0 1 len st))))) ∧
      (∀ p ∈ ([(.bseqnew d a b st, 4), (.bseqnewX d a b st, 12)] : List (Instr × Nat)),
        let (i, len) := p
        let num := x.toNat % 2 ^ 24
        let pool := (s.rd b).toNat % 16
        let n := s.seqNewStatus vf num pool
        (¬ turn → later i d 0 (.seqNew x (s.rd b) s.nextId) len) ∧
        (turn → (n ≠ 0 → Computes s i d (BitVec.ofNat 64 n) 1 len st) ∧
          (n = 0 → ∃ t, exec i s = .next t ∧ Writes (s.modStack (num % 16) fun k =>
            { k with seqs := k.seqs ++ [{ vf := vf, num := num, pool := pool, entries := [] }] }) t d 0 1 len st)) ∧
        (∀ ctx (p : Pend) id, p.op = .seqNew x (s.rd b) id →
          let v := s.vfOf ctx
          (s.requestTurn ctx id = false → s.answerBlock ctx p = s) ∧
          (s.requestTurn ctx id = true → s.seqNewStatus v num pool ≠ 0 →
            s.answerBlock ctx p = s.deliver ctx p (BitVec.ofNat 64 (s.seqNewStatus v num pool))) ∧
          (s.requestTurn ctx id = true → s.seqNewStatus v num pool = 0 → s.answerBlock ctx p = (s.modStack (num % 16) fun k =>
            { k with seqs := k.seqs ++ [{ vf := v, num := num, pool := pool, entries := [] }] }).deliver ctx p 0)))) ∧
    (∀ p ∈ ([(.bquery d a st, 0, 4), (.bqueryX d a e st, e, 12)] : List (Instr × R6 × Nat)),
      let (i, e, len) := p
      let h := handleOf x
      s.Open [a] [d, e] → request i (handle i x
        (two s i d e (BitVec.ofNat 64 (s.poolVbase h.stack vf h.pool)) (BitVec.ofNat 64 (s.blockSize h.stack h.pool)) len))) ∧
    -- R312: what a handle meets
    (∀ w : W64,
      let h := handleOf w
      let k := s.block h.stack h.pool h.index
      let names := s.poolOn h.stack h.pool = true ∧ h.index < s.poolCount h.stack h.pool
      (h.gen = w.toNat / 2 ^ 48 ∧ h.stack = w.toNat / 2 ^ 44 % 16 ∧ h.pool = w.toNat / 2 ^ 40 % 16 ∧ h.index = w.toNat % 2 ^ 40) ∧
      (¬ names → s.handleFault vf w = some (0x05, w)) ∧
      (names → k.gen ≠ h.gen ∨ k.table_ + k.loose = 0 → s.handleFault vf w = some (0x0B, w)) ∧
      (names → k.gen = h.gen → k.table_ + k.loose ≠ 0 → s.handleFault vf w = if s.quotaLimit h.stack vf h.pool = 0 then some (0x05, w) else none)) ∧
    -- R313: the status of a new sequence
    (∀ num pool : Nat,
      let n := s.seqNewStatus vf num pool
      let t := num % 16
      let area := (s.reg (0xFF00200000000 + t * 0x10000 + 0x2208)).toNat / 2 ^ 16 % 2 ^ 24
      (area = 0 → n = 6) ∧ (area ≠ 0 → s.quotaLimit t vf pool = 0 → n = 4) ∧
      (area ≠ 0 → s.quotaLimit t vf pool ≠ 0 →
        ((∃ q ∈ (s.stack t).seqs, q.vf = vf ∧ q.num = num) → n = 5) ∧
        ((∀ q ∈ (s.stack t).seqs, q.vf = vf → q.num ≠ num) → n = if Config.seqCapacity area ≤ (s.stack t).seqs.length then 6 else 0))) ∧
    -- R314: what an allocation takes
    (∀ (l : Bool) (pools : List (Nat × Nat)),
      let under (p : Nat × Nat) : Prop := s.charged p.1 vf p.2 < s.quotaLimit p.1 vf p.2
      ((∀ p ∈ pools, ¬ under p) → s.allocate vf l pools = .quota) ∧
      ((∃ p ∈ pools, under p) → (∀ p ∈ pools, under p → s.rinsedList p.1 p.2 = []) → s.allocate vf l pools = .wait) ∧
      (∀ before t p after i rest, pools = before ++ (t, p) :: after → under (t, p) → s.rinsedList t p = i :: rest →
        (∀ r ∈ before, under r → s.rinsedList r.1 r.2 = []) →
        ∃ u, s.allocate vf l pools = .got u (handleWord (s.block t p i).gen t p i) ∧ { u with hbm := s.hbm } = s ∧
          (∀ r, r ≠ t → u.stack r = s.stack r) ∧
          (let k := s.stack t
           let taken : Block := { s.block t p i with table_ := if l then 0 else 1, loose := if l then 1 else 0, vf := vf, rinsing := false }
           let charge := k.charged.put (16 * vf + p) (s.charged t vf p + 1)
           u.stack t = { k with rinsed := k.rinsed.put p rest, charged := charge, blocks := k.blocks.put (p * 2 ^ 40 + i) taken }))) ∧
    (∀ home pool : Nat, home < 16 → ∃ die others, poolOrder home pool = (home :: die ++ others).map (fun t => (t, pool)) ∧
      die.Pairwise (· < ·) ∧ others.Pairwise (· < ·) ∧ (∀ t, t ∈ die ↔ t ≠ home ∧ t / 4 = home / 4) ∧ ∀ t, t ∈ others ↔ t < 16 ∧ t / 4 ≠ home / 4)

/-- BFREE, BTRUNC, BSEQDROP, PTX, PTFILL and PTINV. The block commands queue at the block engine context, whose
queue holds two commands and requests, and wait until it has accepted them; when it takes one, BFREE drops a
loose reference or traps, BTRUNC cuts the table and drops the references of what it cuts, with the translations
of those blocks (that they leave the position translation buffers at once is the model’s choice, log entry 62,
row R84), and BSEQDROP cuts it to nothing and removes the sequence; a block whose last reference goes gives its
quota back and drains the operations that touch it; PTX writes the block address with latency 2 and makes the
entry the most recently used, or traps with cause 0x0A; PTFILL checks size (cause 0x05) and alignment (cause
0x03) and puts its entry first among at most 64; PTINV removes the entries that its operands name. (R82, R84,
R85, R312, R316, R318, R319, R320) -/
def Obligations.BlockCommands : Prop :=
  ∀ (s : State) (d a b c : R6) (st : St),
    let x := s.rd a
    let y := s.rd b
    let vf := s.vfOf s.cur
    let core := s.myCore
    let full : Prop := 2 ≤ ((s.core core).queues.get 7 []).length + ((s.requests core).filter fun r => !(s.requestFree core r.1 r.2)).length
    let queued (i : Instr) (op : EngOp) (len : Nat) : Prop := (full → ∃ t, exec i s = .next t ∧ Waits s t (.engine 7)) ∧
      (¬ full → Commands s s i 7 (some d) 0 op true false len st)
    (s.Open [a] [d] → ∀ p ∈ ([(.bfree d a st, .bfree x, 4), (.bfreeX d a st, .bfree x, 12), (.bseqdrop d a st, .bseqdrop x, 4),
        (.bseqdropX d a st, .bseqdrop x, 12)] : List (Instr × EngOp × Nat)),
      queued p.1 p.2.1 p.2.2) ∧
    (s.Open [a, b] [d] →
      ∀ p ∈ ([(.btrunc d a b st, 4), (.btruncX d a b st, 12)] : List (Instr × Nat)), queued p.1 (.btrunc x y) p.2) ∧
    (s.Clear [a, b] [d] →
      (∀ p ∈ ([(.ptx d a b st, 4), (.ptxX d a b st, 12)] : List (Instr × Nat)),
        let seq := x.toNat % 2 ^ 24
        let blk := y.toNat % 2 ^ 20
        let hit (e : PtEntry) : Bool := e.vf == vf && e.seq == seq && e.blk == blk
        ((s.core core).ptb.find? hit = none → exec p.1 s = .next (s.trap 0x0A (BitVec.ofNat 64 (seq * 2 ^ 24 + blk)))) ∧
        (∀ e, (s.core core).ptb.find? hit = some e → ∃ t, exec p.1 s = .next t ∧
          Writes (s.modCore core fun k => { k with ptb := e :: k.ptb.filter fun o => !(hit o) }) t d e.addr 2 p.2 st))) ∧
    (∀ p ∈ ([(.ptfill d a b st, 0, 4), (.ptfillX d a b c st, c, 12)] : List (Instr × R6 × Nat)),
      let (i, c, len) := p
      let size := (s.rd c).toNat
      let entry : PtEntry := { vf := vf, seq := (s.rd d).toNat % 2 ^ 24, blk := x.toNat % 2 ^ 20, addr := y, size := size }
      s.Clear [d, a, b, c] [] →
        (¬ (size = 0x4000 ∨ size = 0x10000 ∨ size = 0x40000 ∨ size = 0x200000) → exec i s = .next (s.trap 0x05 (s.rd c))) ∧
        (size = 0x4000 ∨ size = 0x10000 ∨ size = 0x40000 ∨ size = 0x200000 →
          (y.toNat % size ≠ 0 → exec i s = .next (s.trap 0x03 y)) ∧
          (y.toNat % size = 0 → ∃ t, exec i s = .next t ∧ Passes (s.modCore core fun k =>
            { k with ptb := (entry :: k.ptb.filter fun o => !(o.vf == entry.vf && o.seq == entry.seq && o.blk == entry.blk)).take 64 }) t len st))) ∧
    (∀ q : EngCmd, q.op = .bfree x →
      let h := handleOf x
      (∀ f, s.handleFault q.vf x = some f → blkCheck q s = .error f) ∧
      (s.handleFault q.vf x = none → blkCheck q s = if (s.block h.stack h.pool h.index).loose = 0 then .error (0x05, x) else .ok (s.dropRef true x))) ∧
    (∀ q : EngCmd, q.op = .btrunc x y ∨ q.op = .bseqdrop x →
      let found := s.seq? q.vf (x.toNat % 2 ^ 24)
      let cut (e : Seq) (n : Nat) : State := ((e.entries.drop n).foldl (fun u w => u.dropRef false w) (s.modStack (e.num % 16) fun k =>
        { k with seqs := k.seqs.map fun r => if r.vf == e.vf && r.num == e.num then { e with entries := e.entries.take n } else r })).ptbPurge e.vf e.num n
      (found = none → blkCheck q s = .error (0x05, x)) ∧
      (∀ e, found = some e → q.op = .btrunc x y → blkCheck q s = .ok (if e.entries.length ≤ y.toNat then s else cut e y.toNat)) ∧
      (∀ e, found = some e → q.op = .bseqdrop x → blkCheck q s = .ok ((cut e 0).modStack (e.num % 16) fun k =>
        { k with seqs := k.seqs.filter fun r => !(r.vf == e.vf && r.num == e.num) }))) ∧
    (∀ loose : Bool,
      let h := handleOf x
      let k := s.block h.stack h.pool h.index
      let left : Block := if loose then { k with loose := k.loose - 1 } else { k with table_ := k.table_ - 1 }
      let u := s.setBlock h.stack h.pool h.index left
      let v := u.setCharged h.stack left.vf h.pool (u.charged h.stack left.vf h.pool - 1)
      s.dropRef loose x = if left.table_ + left.loose ≠ 0 then u
        else v.setBlock h.stack h.pool h.index { left with rinsing := true, drain := v.touching h.stack h.pool h.index }) ∧
    (∀ seq n : Nat, s.ptbPurge vf seq n = { s with cores := s.cores.map fun (p : Nat × CoreSt) =>
      (p.1, { p.2 with ptb := p.2.ptb.filter fun e => !(e.vf == vf && e.seq == seq && decide (n ≤ e.blk)) }) }) ∧
    (s.Clear [a, b] [] → ∀ p ∈ ([(.ptinv a b st, 4), (.ptinvX a b st, 12)] : List (Instr × Nat)), ∃ t, exec p.1 s = .next t ∧
      Passes (s.modCore core fun k => { k with ptb := k.ptb.filter fun e =>
        !(x == -1 || (e.vf == vf && e.seq == x.toNat % 2 ^ 24 && (y == -1 || e.blk == y.toNat % 2 ^ 20))) }) t p.2 st)

/-- Waits that expire, sweeps, windows, the time domain and refresh. A barrier wait that reaches its limit k8
withdraws the arrival and traps with cause 0x11; a JOIN whose limit has passed is let go; an eviction takes
exactly the lines of its key and writes back their dirty bytes; a sweep notes every virtual function and phase
that had no traffic at or since the last sweep, with the number of the sweep, and counts; a window boundary puts
a new window length in force once the window in which SCHMODE was written is over; notices are sent, arrive and
are withdrawn; a module leaves and rejoins its domain; a die’s refresh moves on every 1,500 ns. (R66, R70, R106,
R111, R112, R206, R242, R379, R393) -/
def Obligations.WaitsAndTime : Prop :=
  ((∀ (s : State) (core slot cluster line : Nat),
    let id := if core < 4096 ∧ slot ≤ 10 then core + 4096 * slot else 45056
    let limit := ((s.ctx id).kregs.get 8 0).toNat
    (
      let late := (s.ctx id).pend.find? fun p => (p.isBarrier true || p.isBarrier false) && decide (p.since + limit ≤ s.cycle)
      (limit = 0 → exec (.barrierWaitTimeout core slot) s = .next s) ∧
      (∀ p, limit ≠ 0 → late = some p → exec (.barrierWaitTimeout core slot) s = .next ((s.withdraw id).trapPend id 0x11 0 (· == p))) ∧
      (limit ≠ 0 → late = none → Happens s (.barrierWaitTimeout core slot)
        ((s.ctx id).wait = some .barrier ∧ (s.ctx id).waitFrom + limit ≤ s.cycle ∧ s.released id = false)
        ((s.withdraw id).takeTrap id 0x11 0 (s.ctx id).pc none))) ∧
    (∀ n t, (s.ctx id).wait = some (.join n (some t)) →
      Happens s (.joinLimitExpire core slot) (t ≤ s.cycle) (s.modCtx id fun c => { c with wait := some (.join n (some 0)) })) ∧
    (∀ t, (s.ctx id).wait = some (.joinAny (some t)) →
      Happens s (.joinLimitExpire core slot) (t ≤ s.cycle) (s.modCtx id fun c => { c with wait := some (.joinAny (some 0)) })) ∧
    ((s.ctx id).wait = none → exec (.joinLimitExpire core slot) s = .next s) ∧
    (∃ t, exec (.cacheEviction cluster line) s = .next t ∧ (t.cluster cluster).lines = (s.cluster cluster).lines.filter (·.key ≠ line) ∧
      (∀ k, k ≠ cluster → t.cluster k = s.cluster k) ∧ { t with clusters := s.clusters, mem := s.mem } = s ∧
      (memWf s.mem = true → (∀ k, k < line ∨ line + 64 ≤ k → memGet t.mem k = memGet s.mem k) ∧
        ∀ l, (s.cluster cluster).lines.filter (·.key = line) = [l] → ∀ b < 64,
          memGet t.mem (line + b) = if l.dirty.getLsbD b then l.data.extractLsb' (8 * b) 8 else memGet s.mem (line + b))) ∧
    (∃ t, exec .quietSweep s = .next t ∧ t.sweeps = s.sweeps + 1 ∧ t.sweepAt = s.ptp ∧ t.activity = [] ∧
      { t with sweeps := s.sweeps, sweepAt := s.sweepAt, activity := s.activity, quietRep := s.quietRep, quietAt := s.quietAt } = s ∧
      (∀ vf ph, vf < 32 → ph < 2 → (vf * 2 + ph ∈ t.quietRep ↔ (vf, ph) ∉ s.traffic ∧ vf * 2 + ph ∉ s.activity) ∧
        (t.quietAt.get (vf * 2 + ph) 0 = if (vf, ph) ∉ s.traffic ∧ vf * 2 + ph ∉ s.activity then s.sweeps + 1 else s.quietAt.get (vf * 2 + ph) 0))))) ∧
  ((∀ (s : State) (win dev die : Nat),
    let L := 1000 * 2 ^ s.windowLog
    Happens s .windowBoundary (s.winAsked < s.ptp / L) { s with windowLog := s.regBits schBase 2 1 } ∧
    Happens s (.stretchNotice win) ((win + 1) * L + L / 2 ≤ s.ptp ∧ s.windowCount win ≠ 0 ∧ (s.device, win) ∉ s.notices)
      { s with notices := s.notices ++ [(s.device, win)] } ∧
    (dev = s.device → ∀ w, exec (.stretchNoticeArrive dev win w) s = .next s) ∧
    (1024 ≤ dev → ∀ w, exec (.stretchNoticeArrive dev win w) s = .next s) ∧
    (dev ≠ s.device → dev < 1024 → Happens s (.stretchNoticeArrive dev win 0) ((dev, win) ∉ s.notices) { s with notices := s.notices ++ [(dev, win)] }) ∧
    (dev ≠ s.device → dev < 1024 → ∀ w, w ≠ 0 → exec (.stretchNoticeArrive dev win w) s = .next { s with notices := s.notices.filter (· ≠ (dev, win)) }) ∧
    Happens s .timeDomainLeave (¬ (16 * s.offset < L ∧ 4 * s.latency < L)) { s with inDomain := false } ∧
    Happens s .timeDomainRejoin (16 * s.offset < L ∧ 4 * s.latency < L) { s with inDomain := true } ∧
    Happens s (.refreshAdvance die) (die < 4 ∧ (s.die die).bankFrom + 1500 ≤ s.ptp)
      (s.modDie die fun d => { d with bank := (d.bank + 1) % 32, bankFrom := d.bankFrom + 1500 })))

/-- Weight-store modes, splits, shoot-downs, power gating, scrubbing and errors. A die enters and leaves loading
mode as its WSLOAD bit asks, once no read of its weight store from before the WSLOAD write, or no copy into it,
is under way; a split changes once no item runs on the cluster; a shoot-down removes the TLB entries that its
request meets, with WB writes back the dirty bytes of the lines of its range and drops those lines, as it begins
and again as it is done (the latter log entry 37, DEDUCED), and is done once no access may use the entries; a
gated core loses its TLBs; a scrub leaves memory as it was and counts a corrected error; an uncorrectable error
poisons its word, marks its word of matrix state or ends its context, and the module that has it writes the
record of Table 23.2 or counts a dropped one. Which lines a shoot-down with WB takes is log entry 37 (DEDUCED);
how a record is written and that matrix state stays marked until it is written are log entries 39 (DEDUCED) and
46 (DESIGN CHOICE). (R64, R65, R69, R79, R275, R277, R401, R402, R411, R417, R418, R419) -/
def Obligations.ModesAndErrors : Prop :=
  ((∀ (s : State) (die cluster core : Nat),
    let wsload := s.regBits schBase (8 + die) (8 + die)
    -- the lines of the request’s range leave the caches of `t`, their dirty bytes for memory
    let back (t : State) : Prop :=
      let hit (l : Line) : Bool := match s.sdRanges with
        | some rs => rs.any fun r => decide (l.key < r.1 + r.2) && decide (r.1 < l.key + 64)
        | none => true
      let dirtyAt (l : Line) (a : Nat) : Prop := hit l = true ∧ l.key ≤ a ∧ a < l.key + 64 ∧ l.dirty.getLsbD (a - l.key) = true
      (∀ k, (t.cluster k).lines = (s.cluster k).lines.filter fun l => !(hit l)) ∧
      (memWf s.mem = true → ∀ a,
        ((∀ k, ∀ l ∈ (s.cluster k).lines, ¬ dirtyAt l a) → memGet t.mem a = memGet s.mem a) ∧
        ((∃ k, ∃ l ∈ (s.cluster k).lines, dirtyAt l a) →
          ∃ k, ∃ l ∈ (s.cluster k).lines, dirtyAt l a ∧ memGet t.mem a = l.data.extractLsb' (8 * (a - l.key)) 8))
    Happens s (.wsLoadingEnter die) (die < 4 ∧ wsload = 1 ∧ (s.die die).loading = false ∧ s.readsWeight die (s.die die).loadMark = false)
      (s.modDie die fun d => { d with loading := true }) ∧
    Happens s (.wsLoadingLeave die) (die < 4 ∧ wsload = 0 ∧ (s.die die).loading = true ∧ s.writesWeight die = false)
      (s.modDie die fun d => { d with loading := false }) ∧
    ((s.cluster cluster).dsplit = none → exec (.splitChange cluster) s = .next s) ∧
    (∀ k, (s.cluster cluster).dsplit = some k → Happens s (.splitChange cluster) (s.itemsOn cluster = false)
      ((s.setSplit cluster k).modCluster cluster fun c => { c with dsplit := none })) ∧
    (s.regBits sdctl 63 63 = 1 → s.sdBegun = false → ∃ t, exec .shootdown s = .next t ∧ t.sdBegun = true ∧
      (∀ k, (t.core k).itlb = (s.core k).itlb.filter (fun e => !(s.sdHits e)) ∧ (t.core k).dtlb = (s.core k).dtlb.filter (fun e => !(s.sdHits e))) ∧
      (∀ k, (t.cluster k).tlb = (s.cluster k).tlb.filter (fun e => !(s.sdHits e)) ∧ (t.cluster k).seen = (s.cluster k).seen) ∧
      { t with sdBegun := false, sdMark := s.sdMark, nextId := s.nextId, cores := s.cores, clusters := s.clusters, mem := s.mem } = s ∧
      t.sdMark = s.nextId + 1 ∧ t.nextId = s.nextId + 1 ∧
      (s.regBits sdctl 34 34 = 0 → t.mem = s.mem ∧ ∀ k, (t.cluster k).lines = (s.cluster k).lines) ∧
      (s.regBits sdctl 34 34 = 1 → back t)) ∧
    ((s.sdRanges = none ↔ s.regBits sdctl 33 32 ≠ 0) ∧ ∀ rs, s.sdRanges = some rs → ∀ k e,
      (e ∈ (s.core k).itlb ∨ e ∈ (s.core k).dtlb ∨ e ∈ (s.cluster k).tlb ∨ e ∈ (s.cluster k).seen) → s.sdHits e = true →
        let lo := s.regBits (tffBase + 0x18) 51 16 * 65536
        let a := max lo (e.page * 2 ^ e.shift)
        ((leafXl e.pte e.shift a).key, min (lo + s.regBits (tffBase + 0x20) 51 16 * 65536) ((e.page + 1) * 2 ^ e.shift) - a) ∈ rs) ∧
    (∀ e : TlbEntry, s.sdHits e = true ↔
      let lo := s.regBits (tffBase + 0x18) 51 16 * 65536
      e.vf = s.regBits sdctl 4 0 ∧ (s.regBits sdctl 32 32 = 1 ∨ e.asid = s.regBits sdctl 31 16) ∧
      (s.regBits sdctl 33 33 = 1 ∨ (e.page * 2 ^ e.shift < lo + s.regBits (tffBase + 0x20) 51 16 * 65536 ∧ lo < (e.page + 1) * 2 ^ e.shift))) ∧
    (¬ (s.regBits sdctl 63 63 = 1 ∧ s.sdBegun = false) → exec .shootdown s = .next s) ∧
    (let done : Prop := s.regBits sdctl 63 63 = 1 ∧ s.sdBegun = true ∧ s.sdQuiet = true
     (¬ done → exec .shootdownDone s = .next s) ∧
     (done → ∃ t, exec .shootdownDone s = .next t ∧ t.sdBegun = false ∧
        { t with sdBegun := s.sdBegun, admin := s.admin, mem := s.mem, clusters := s.clusters } = s ∧
        t.admin = ((s.setRegBits sdctl 63 63 0).setRegBits (tffBase + 0x28) 31 0 (s.regBits (tffBase + 0x28) 31 0 + 1)).admin ∧
        (s.regBits sdctl 34 34 = 0 → t.mem = s.mem ∧ t.clusters = s.clusters) ∧
        (s.regBits sdctl 34 34 = 1 → back t ∧ ∀ k, (t.cluster k).seen = ((s.cluster k).seen.filter fun e => !(s.sdHits e)) ∧
          { t.cluster k with lines := (s.cluster k).lines, seen := (s.cluster k).seen } = s.cluster k))) ∧
    Happens s (.corePowerGating core) (core < 4096 ∧ ∀ p ∈ s.ctxs, p.1 % 4096 = core → p.2.life = .live → p.2.wait ≠ none)
      (s.modCore core fun c => { c with gated := true, itlb := [], dtlb := [] }))) ∧
  ((∀ (s : State) (k id core : Nat) (word : MatWord) (seen : W64),
    let w := k / 8 * 8
    let there := s.present w 8
    let unit := s.errorUnit w
    let n := s.regBits (fleetBase + 8) 3 0
    let tail := s.regBits (fleetBase + 0x18) 31 0
    let slot := s.regBits fleetBase 51 6 * 64 + 64 * (tail % 2 ^ n)
    let dropped : Prop := n = 0 ∨ 2 ^ n ≤ (tail + 2 ^ 32 - s.regBits (fleetBase + 0x10) 31 0) % 2 ^ 32
    let writes (t : State) (addr source kind vf unit refs : Nat) (handle : W64) : Prop :=
      (dropped → t.mem = s.mem ∧ t.admin = s.admin ∧ t.errDrops = s.errDrops + 1) ∧
      (¬ dropped → t.errDrops = s.errDrops ∧ t.regBits (fleetBase + 0x18) 31 0 = (tail + 1) % 2 ^ 32 ∧ (∀ r, r ≠ fleetBase + 0x18 → t.reg r = s.reg r) ∧
        (memWf s.mem = true → t.read64 slot = BitVec.ofNat 64 addr ∧
          t.read64 (slot + 8) = BitVec.ofNat 64 (source + 16 * kind + 256 * (vf % 32) + 65536 * (unit % 65536)) ∧
          t.read64 (slot + 16) = handle ∧ t.read64 (slot + 24) = BitVec.ofNat 64 refs ∧ t.read64 (slot + 32) = BitVec.ofNat 64 s.ptp ∧
          t.read64 (slot + 40) = BitVec.ofNat 64 ((tail + 1) % 2 ^ 32) ∧ t.read64 (slot + 48) = 0 ∧ t.read64 (slot + 56) = 0 ∧
          ∀ a, a < slot ∨ slot + 64 ≤ a → memGet t.mem a = memGet s.mem a))
    let matrix : Prop := match word with
      | .tile t i => t < 8 ∧ i < 256
      | .acc a i => a < 32 ∧ i < 512
      | .side i => i < 2048
      | .scale i => i < 1024
    (there = false → exec (.patrolScrub k seen) s = .next s ∧ exec (.uncorrectableError (.word k)) s = .next s) ∧
    (there = true → isRemoteKey w = true → ∃ t, exec (.patrolScrub k seen) s = .next t ∧ { t with mem := s.mem } = s ∧
      (memWf s.mem = true → ∀ a, memGet t.mem a = memGet s.mem a)) ∧
    (there = true → isRemoteKey w = false → ∃ t, exec (.patrolScrub k seen) s = .next t ∧
      let u := unit.1 * 65536 + unit.2
      let times := s.ptp :: (s.errTimes.get u []).filter (fun x => decide (s.ptp < x + 3600000000000))
      let threshold := s.regBits (fleetBase + 0x20) 31 0
      let alert : Prop := threshold ≠ 0 ∧ threshold ≤ times.length ∧ ∀ x, s.alerts.find? u = some x → x + 3600000000000 ≤ s.ptp
      t.errors.get u 0 = s.errors.get u 0 + 1 ∧ t.errTimes.get u [] = times ∧
      { t with mem := s.mem, errors := s.errors, errTimes := s.errTimes, alerts := s.alerts, admin := s.admin, errDrops := s.errDrops } = s ∧
      (¬ alert → t.alerts = s.alerts ∧ t.admin = s.admin ∧ t.errDrops = s.errDrops ∧ (memWf s.mem = true → ∀ a, memGet t.mem a = memGet s.mem a)) ∧
      (alert → t.alerts.find? u = some s.ptp ∧ (s.read64 w ≠ seen → writes t 0 unit.1 2 0 unit.2 0 0))) ∧
    (there = true → ∃ t, exec (.uncorrectableError (.word k)) s = .next t ∧ t.isPoisoned k = true ∧ (∀ a, a / 8 ≠ k / 8 → t.isPoisoned a = s.isPoisoned a) ∧
      { t with poison := s.poison, mem := s.mem, admin := s.admin, errDrops := s.errDrops } = s ∧
      (isRemoteKey w = true → { t with poison := s.poison } = s) ∧
      (isRemoteKey w = false →
        let b := s.blockAt w
        let h := handleOf b.1
        writes t (if 2 ^ 52 ≤ w ∧ w < 2 ^ 53 then w - 2 ^ 52 else w) unit.1 1
          (s.ownerOf w (if b.2 = 0 then none else some (s.block h.stack h.pool h.index).vf)) unit.2 b.2 b.1)) ∧
    (4096 ≤ core ∨ ¬ matrix → exec (.uncorrectableError (.matrix core word)) s = .next s) ∧
    (core < 4096 → matrix → ∃ t, exec (.uncorrectableError (.matrix core word)) s = .next t ∧
      (∀ x, x ∈ (t.core core).matErr ↔ x = word ∨ x ∈ (s.core core).matErr) ∧ (∀ c, c ≠ core → t.core c = s.core c) ∧
      { t.core core with matErr := (s.core core).matErr } = s.core core ∧
      { t with cores := s.cores, mem := s.mem, admin := s.admin, errDrops := s.errDrops } = s ∧
      writes t 0 5 1 (s.core core).vfid core 0 0) ∧
    ((s.ctxs.find? id).isNone = true → exec (.uncorrectableError (.context id)) s = .next s) ∧
    ((s.ctxs.find? id).isSome = true → ∃ t, exec (.uncorrectableError (.context id)) s = .next t ∧
      (id / 4096 = 0 → t.ctx id = { s.ctx id with dueTrap := some (0x0C, 0) } ∧
        { t with ctxs := s.ctxs, mem := s.mem, admin := s.admin, errDrops := s.errDrops } = s) ∧
      (id / 4096 ≠ 0 → (t.ctx id).life = .closing ∧ ((s.ctx id).life ≠ .closing → (t.ctx id).failed = true ∧ (t.ctx id).code = 0x010C)) ∧
      (∀ c, c ≠ id → t.ctx c = s.ctx c) ∧
      writes t 0 5 1 (s.vfOf id) (id % 4096) 0 0)))

/-- What the vector pool computes. An element command writes to each of the VL elements of its destination the
function of its sources, a masked-off element as the mask policy says; a comparison writes mask bits, and its
tail bits as the tail policy says; VPERM and the slides take the elements that they name, a masked-off element
as the mask policy says too, and what has no source in a slide is its tail; registers other than the
destination, tags, scalar registers and the rest of the context stay. (R168, R249, R250, R251, R256, R257, R258,
R261, R262) -/
def Obligations.VectorResults : Prop :=
  ∀ (c : Ctx) (q : VCmd) (d a b e fmt n : Nat), c.lanes ≤ 256 →
    let lanes := if c.lanes = 0 then 32 else c.lanes
    let w := fmtWidth fmt
    let vl := lanes * 32 / w
    let off (w i : Nat) : Nat := if q.mp = 1 then 2 ^ w - 1 else eltAt (c.vbits d) w i
    let tail (w i : Nat) : Nat := if q.tp = 1 then 2 ^ w - 1 else eltAt (c.vbits d) w i
    let on (i : Nat) : Prop := q.msk = 0 ∨ (c.vbits q.msk).testBit i = true
    let only (op : VOp) : Prop :=
      let t := (performV c { q with op := op }).1
      { t with vregs := c.vregs } = c ∧ (∀ r, r ≠ d → t.vbits r = c.vbits r) ∧ t.vbits d / 2 ^ (32 * lanes) = c.vbits d / 2 ^ (32 * lanes)
    let at_ (op : VOp) (w i : Nat) : Nat := eltAt ((performV c { q with op := op }).1.vbits d) w i
    (∀ f, f ≠ .cmpeq → f ≠ .cmplt → f ≠ .cmple → only (.elem f d a b e fmt) ∧ ∀ i, i < vl →
      (on i → at_ (.elem f d a b e fmt) w i = vfun f fmt (eltAt (c.vbits a) w i) (eltAt (c.vbits b) w i) (eltAt (c.vbits e) w i) % 2 ^ w) ∧
      (¬ on i → at_ (.elem f d a b e fmt) w i = off w i)) ∧
    (∀ f, f = .cmpeq ∨ f = .cmplt ∨ f = .cmple → only (.elem f d a b e fmt) ∧
      (∀ i, i < vl → (on i → at_ (.elem f d a b e fmt) 1 i = vfun f fmt (eltAt (c.vbits a) w i) (eltAt (c.vbits b) w i) (eltAt (c.vbits e) w i) % 2) ∧
        (¬ on i → at_ (.elem f d a b e fmt) 1 i = off 1 i)) ∧
      (∀ i, vl ≤ i → i < 32 * lanes → at_ (.elem f d a b e fmt) 1 i = tail 1 i)) ∧
    (only (.perm d a b fmt) ∧ ∀ i, i < vl →
      (on i → at_ (.perm d a b fmt) w i = if eltAt (c.vbits b) w i < vl then eltAt (c.vbits a) w (eltAt (c.vbits b) w i) else 0) ∧
      (¬ on i → at_ (.perm d a b fmt) w i = off w i)) ∧
    (∀ x : W64, x.toNat = n → only (.slideu d a fmt x) ∧ only (.slided d a fmt x) ∧ ∀ i, i < vl →
      (i < n → at_ (.slideu d a fmt x) w i = tail w i) ∧ (n ≤ i → on i → at_ (.slideu d a fmt x) w i = eltAt (c.vbits a) w (i - n)) ∧
      (vl ≤ i + n → at_ (.slided d a fmt x) w i = tail w i) ∧ (i + n < vl → on i → at_ (.slided d a fmt x) w i = eltAt (c.vbits a) w (i + n)) ∧
      (n ≤ i → ¬ on i → at_ (.slideu d a fmt x) w i = off w i) ∧ (i + n < vl → ¬ on i → at_ (.slided d a fmt x) w i = off w i))

/-- The functions of the vector elements, and what the pool computes beside element commands. Each element function
of Table 10.2 has its value, VEXP2, VLOG2 and VTANH with the specials of Table 10.3, 2^x of an integer and log2
of a power of two exact; how their other values are found, and with them VMERGE3’s factors, is log entry 13
(DEDUCED); what VBCAST.mask writes, what .sat does on a widening conversion and how a reduction starts are log
entry 28 (DEDUCED); mask operations, VMPOP, VMFIRST, VIOTA, VMOV, VBCAST, VEXTR, VINS, VCOMPR, VEXPND, the
reductions, VCVTP, VCVTU, VCVTI, VQSCALE and VMERGE3 write what R250 to R264 and R267 to R273 say, a masked-off
element as the mask policy says and a tail as the tail policy says; a lane generator advances once for each
element that .sr converts, and no other register, tag or part of the context changes. (R172, R173, R174, R181,
R182, R250, R258, R260, R261, R263, R264, R267) -/
def Obligations.VectorRegisterResults : Prop :=
  ∀ (c : Ctx) (q : VCmd) (d e a b fmt src n : Nat) (x y : W64), c.lanes ≤ 256 →
    let lanes := if c.lanes = 0 then 32 else c.lanes
    let w := fmtWidth fmt
    let ws := fmtWidth src
    let vl := lanes * 32 / w
    let vs := lanes * 32 / ws
    let elt (r w i : Nat) : Nat := eltAt (c.vbits r) w i
    let act (i : Nat) : Bool := q.msk == 0 || (c.vbits q.msk).testBit i
    let acts : List Nat := (List.range vl).filter act
    let off (r w i : Nat) : Nat := if q.mp = 1 then 2 ^ w - 1 else elt r w i
    let tail (r w i : Nat) : Nat := if q.tp = 1 then 2 ^ w - 1 else elt r w i
    let out (op : VOp) : Ctx × Option W64 := performV c { q with op := op }
    let got (op : VOp) (r w i : Nat) : Nat := eltAt ((out op).1.vbits r) w i
    -- registers `lo` to `lo + k - 1` apart, nothing changes
    let group (op : VOp) (lo k : Nat) : Prop := { (out op).1 with vregs := c.vregs } = c ∧ ∀ r, r < lo ∨ lo + k ≤ r → (out op).1.vbits r = c.vbits r
    let only (op : VOp) : Prop := group op d 1 ∧ (out op).1.vbits d / 2 ^ (32 * lanes) = c.vbits d / 2 ^ (32 * lanes)
    (∀ u v z : Nat, (isIntFmt fmt = true →
        let i := sintOf w
        vfun .add fmt u v z = intBits w (i u + i v) ∧ vfun .sub fmt u v z = intBits w (i u - i v) ∧ vfun .mul fmt u v z = intBits w (i u * i v) ∧
        vfun .fma fmt u v z = intBits w (i u * i v + i z) ∧ vfun .fnma fmt u v z = intBits w (i z - i u * i v) ∧
        vfun .min fmt u v z = intBits w (min (i u) (i v)) ∧ vfun .max fmt u v z = intBits w (max (i u) (i v)) ∧
        vfun .abs fmt u v z = intBits w (i u).natAbs ∧ vfun .neg fmt u v z = intBits w (-(i u)) ∧ vfun .shl fmt u v z = u * 2 ^ (v % w) % 2 ^ w ∧
        vfun .shr fmt u v z = u / 2 ^ (v % w) ∧ vfun .shra fmt u v z = intBits w (i u / 2 ^ (v % w)) ∧ vfun .cmpeq fmt u v z = (if i u = i v then 1 else 0) ∧
        vfun .cmplt fmt u v z = (if i u < i v then 1 else 0) ∧ vfun .cmple fmt u v z = (if i u ≤ i v then 1 else 0)) ∧
      (isIntFmt fmt = false →
        let i := numOf fmt
        vfun .add fmt u v z = rne fmt ((i u).add (i v)) ∧ vfun .sub fmt u v z = rne fmt ((i u).sub (i v)) ∧ vfun .mul fmt u v z = rne fmt ((i u).mul (i v)) ∧
        vfun .fma fmt u v z = rne fmt (((i u).mul (i v)).add (i z)) ∧ vfun .fnma fmt u v z = rne fmt ((i z).add ((i u).mul (i v)).neg) ∧
        vfun .min fmt u v z = rne fmt ((i u).min (i v)) ∧ vfun .max fmt u v z = rne fmt ((i u).max (i v)) ∧ vfun .abs fmt u v z = rne fmt (i u).abs ∧
        vfun .neg fmt u v z = rne fmt (i u).neg ∧ vfun .rcp fmt u v z = rne fmt ((Machine.Num.fin false 1 0).div (i u)) ∧ vfun .rsq fmt u v z = rne fmt (i u).rsqrt ∧
        vfun .exp2 fmt u v z = exp2Code fmt u ∧ vfun .log2 fmt u v z = log2Code fmt u ∧ vfun .tanh fmt u v z = tanhCode fmt u ∧
        vfun .cmpeq fmt u v z = (if eqNum (i u) (i v) then 1 else 0) ∧ vfun .cmplt fmt u v z = (if ltNum (i u) (i v) then 1 else 0) ∧
        vfun .cmple fmt u v z = (if leNum (i u) (i v) then 1 else 0) ∧
        (i u = .nan → exp2Code fmt u = rne fmt .nan ∧ log2Code fmt u = rne fmt .nan ∧ tanhCode fmt u = rne fmt .nan) ∧
        (i u = .inf false → exp2Code fmt u = rne fmt (.inf false) ∧ log2Code fmt u = rne fmt (.inf false) ∧ tanhCode fmt u = rne fmt (.fin false 1 0)) ∧
        (i u = .inf true → exp2Code fmt u = 0 ∧ log2Code fmt u = rne fmt .nan ∧ tanhCode fmt u = rne fmt (.fin true 1 0)) ∧
        (∀ neg k, i u = .fin neg 0 k → exp2Code fmt u = rne fmt (.fin false 1 0) ∧ log2Code fmt u = rne fmt (.inf true) ∧ tanhCode fmt u = u % 2 ^ w) ∧
        (∀ m k, i u = .fin true m k → m ≠ 0 → log2Code fmt u = rne fmt .nan) ∧
        (∀ (m : Nat) (k : Int), i u = .fin false (2 ^ m) k → log2Code fmt u = rne fmt (numOfInt (m + k))) ∧
        (∀ (neg : Bool) (m k : Nat), i u = .fin neg m k → m ≠ 0 → exp2Code fmt u =
          if Nat.log2 m + k < 10 then rne fmt (.fin false 1 (if neg then -(m * 2 ^ k : Int) else m * 2 ^ k)) else if neg then 0 else rne fmt (.inf false)) ∧
        (∀ neg m k, i u = .fin neg m k → m ≠ 0 → 5 ≤ (Nat.log2 m : Int) + k → tanhCode fmt u = rne fmt (.fin neg 1 0)) ∧
        (∀ neg m k, i u = .fin neg m k → m ≠ 0 → (Nat.log2 m : Int) + k < -30 → tanhCode fmt u = u % 2 ^ w)) ∧
      vfun .and fmt u v z = u &&& v ∧ vfun .or fmt u v z = u ||| v ∧ vfun .xor fmt u v z = u ^^^ v) ∧
    (only (.mask n d a b) ∧ ∀ i, i < 32 * lanes → got (.mask n d a b) d 1 i = (if n = 0 then elt a 1 i &&& elt b 1 i
      else if n = 1 then elt a 1 i ||| elt b 1 i else if n = 2 then elt a 1 i ^^^ elt b 1 i else 1 - elt a 1 i)) ∧
    (let m := (List.range (if fmt = 0 then 32 * lanes else vl)).filter fun i => (c.vbits a).testBit i && act i
     out (.mpop n a fmt) = (c, some (BitVec.ofNat 64 m.length)) ∧ out (.mfirst n a fmt) = (c, some (match m with
       | i :: _ => BitVec.ofNat 64 i
       | [] => -1))) ∧
    (only (.iota d fmt) ∧ only (.mov d a fmt) ∧ (fmt ≠ 10 → only (.bcast d fmt x)) ∧ ∀ i, i < vl →
      (act i = true → got (.iota d fmt) d w i = i % 2 ^ w ∧ got (.mov d a fmt) d w i = elt a w i ∧ (fmt ≠ 10 → got (.bcast d fmt x) d w i = x.toNat % 2 ^ w)) ∧
      (act i = false → got (.iota d fmt) d w i = off d w i ∧ got (.mov d a fmt) d w i = off d w i ∧ (fmt ≠ 10 → got (.bcast d fmt x) d w i = off d w i))) ∧
    (only (.bcast d 10 x) ∧ ∀ i, i < 32 * lanes → got (.bcast d 10 x) d 1 i = if act i then x.toNat % 2 else off d 1 i) ∧
    (out (.extr n a fmt x) = (c, some (if vl ≤ x.toNat then -1
      else if isIntFmt fmt then BitVec.ofInt 64 (sintOf w (elt a w x.toNat)) else BitVec.ofNat 64 (elt a w x.toNat)))) ∧
    (only (.ins d fmt x y) ∧ ∀ i, i < vl → got (.ins d fmt x y) d w i = if i = y.toNat then x.toNat % 2 ^ w else elt d w i) ∧
    (only (.compr d a fmt) ∧ ∀ i, i < vl → got (.compr d a fmt) d w i = if i < acts.length then elt a w (acts.getD i 0) else tail d w i) ∧
    (only (.expnd d a fmt) ∧ ∀ i, i < vl → got (.expnd d a fmt) d w i =
      if act i then elt a w ((List.range i).filter act).length else off d w i) ∧
    (∀ g : VRed,
      let l := acts.map (elt a w)
      let sum : VFun := match g with
        | .sum => .add
        | .max => .max
        | .min => .min
      out (.red g n a fmt x) = (c, some (reduceElts g fmt x l)) ∧
      (isIntFmt fmt = true → ∀ t, treeFold (fun u v => vfun sum fmt u v 0) 16 l = some t →
        reduceElts g fmt x l = BitVec.ofInt 64 (sintOf w (vfun sum fmt t (x.toNat % 2 ^ w) 0))) ∧
      (isIntFmt fmt = true → l = [] → reduceElts g fmt x l = BitVec.ofInt 64 (sintOf w (x.toNat % 2 ^ w))) ∧
      (isIntFmt fmt = false → ∀ t, treeFold (fun u v => vfun sum 9 u v 0) 16 (l.map fun u => rne 9 (numOf fmt u)) = some t →
        reduceElts g fmt x l = BitVec.ofNat 64 (vfun sum 9 t (x.toNat % 2 ^ 32) 0)) ∧
      (isIntFmt fmt = false → l = [] → reduceElts g fmt x l = BitVec.ofNat 64 (x.toNat % 2 ^ 32))) ∧
    (∀ (f : Nat → Nat → Nat) (l : List Nat) (k : Nat), treeFold f (k + 1) l = (if l.length ≤ 1 then l.head? else treeFold f k (pairUp f l)) ∧
      (pairUp f l).length = (l.length + 1) / 2 ∧ (∀ i, 2 * i + 1 < l.length → (pairUp f l).getD i 0 = f (l.getD (2 * i) 0) (l.getD (2 * i + 1) 0)) ∧
      (l.length % 2 = 1 → (pairUp f l).getD (l.length / 2) 0 = l.getD (l.length - 1) 0)) ∧
    (∀ (scale : Option Nat) (sat up : Bool) (rd : Rounding) (v : Nat),
      (isIntFmt fmt = true → convElt fmt src up scale sat rd v = intBits w (if sat then max (-(2 ^ (w - 1))) (min (sintOf ws v) (2 ^ (w - 1) - 1)) else sintOf ws v)) ∧
      (isIntFmt fmt = false → convElt fmt src up none sat rd v = encodeNum fmt rd sat (numOf src v)) ∧
      (∀ k, isIntFmt fmt = false → scale = some k → convElt fmt src up scale sat rd v = encodeNum fmt rd sat
        (if k % 256 = 255 then .nan else (numOf src v).scale (if up then (k % 256 : Nat) - 127 else 127 - (k % 256 : Nat)))) ∧
      (isIntFmt fmt = true → convEqual fmt src rd v = intBits w (intOfNum w rd (numOf src v))) ∧
      (isIntFmt fmt = false → convEqual fmt src rd v = encodeNum fmt rd false (numOfInt (sintOf ws v)))) ∧
    (∀ (r : Nat) (scale : Option Nat) (sat : Bool), ratio src fmt = some r →
      let op : VOp := .cvtp d a src fmt scale sat false
      only op ∧ ∀ j, j < r * vs → got op d w j = if act j then convElt fmt src false scale sat .rne (elt (a + j / vs) ws (j % vs)) % 2 ^ w else off d w j) ∧
    (∀ (r : Nat) (scale : Option Nat) (sat : Bool), ratioUp fmt src = some r →
      let op : VOp := .cvtu d a src fmt scale sat false
      group op d r ∧ ∀ j, j < r * vl → got op (d + j / vl) w (j % vl) =
        if act j then convElt fmt src true scale sat .rne (elt a ws j) % 2 ^ w else off (d + j / vl) w (j % vl)) ∧
    (equalPair src fmt = true → only (.cvti d a src fmt false) ∧ ∀ j, j < vl → got (.cvti d a src fmt false) d w j =
      if act j then convEqual fmt src .rne (elt a ws j) % 2 ^ w else off d w j) ∧
    (∀ (lane : Nat → Nat) (f : Rounding → Nat → Nat) (i : Nat) (l : List Nat),
      let g := c.gen (lane i)
      let g1 := (g ^^^ (g * 2 ^ 13)) % 2 ^ 32
      let g2 := g1 ^^^ (g1 / 2 ^ 17)
      let g3 := (g2 ^^^ (g2 * 2 ^ 5)) % 2 ^ 32
      let u : Ctx := { c with gens := c.gens.put (lane i) g3 }
      (c.convAll q true lane f []).1 = c ∧
      (c.isActive q i = false → (c.convAll q true lane f (i :: l)).1 = (c.convAll q true lane f l).1) ∧
      (c.isActive q i = true → (c.convAll q true lane f (i :: l)).1 = (u.convAll q true lane f l).1 ∧
        (c.convAll q true lane f (i :: l)).2 = .val (f (.sr (g3 / 2 ^ 16)) i) :: (u.convAll q true lane f l).2)) ∧
    (∀ r, ratio src fmt = some r → lanes % 32 = 0 → d ≠ e → fmt = 4 ∨ fmt = 5 ∨ fmt = 6 →
      let op : VOp := .qscale d e a src fmt false false
      let emax : Nat := if fmt = 5 then 8 else if fmt = 6 then 15 else 2
      let v (j : Nat) : Machine.Num := numOf src (elt (a + j / vs) ws (j % vs))
      let k (m : Nat) : Nat := blockScale emax ((List.range 32).map fun i => v (32 * m + i))
      (∀ j, j < r * vs → got op d w j = if act j then encodeNum fmt .rne true (if k (j / 32) = 255 then .nan else (v j).scale (127 - k (j / 32))) % 2 ^ w
        else off d w j) ∧
      (∀ m, m < r * vs / 32 → got op e 8 m = k m % 256) ∧ (∀ m, r * vs / 32 ≤ m → m < 4 * lanes → got op e 8 m = tail e 8 m) ∧
      { (out op).1 with vregs := c.vregs } = c ∧ ∀ p, p ≠ d → p ≠ e → (out op).1.vbits p = c.vbits p) ∧
    (∀ (emax : Nat) (l : List Machine.Num), (.nan ∈ l ∨ .inf true ∈ l ∨ .inf false ∈ l → blockScale emax l = 255) ∧
      ((∀ z ∈ l, ∃ s k, z = .fin s 0 k) → blockScale emax l = 127) ∧
      (∀ t : Int, (∀ z ∈ l, ∃ s m k, z = .fin s m k ∧ (m = 0 ∨ (Nat.log2 m : Int) + k ≤ t)) → (∃ s m k, .fin s m k ∈ l ∧ m ≠ 0 ∧ (Nat.log2 m : Int) + k = t) →
        blockScale emax l = (max 0 (min 254 (t - emax + 127))).toNat)) ∧
    (group (.merge d a b) d 3 ∧ ∀ i, i < lanes →
      let m := merge3 (elt a 32 i, elt (a + 1) 32 i, elt (a + 2) 32 i) (elt b 32 i, elt (b + 1) 32 i, elt (b + 2) 32 i)
      (act i = true → got (.merge d a b) d 32 i = m.1 % 2 ^ 32 ∧ got (.merge d a b) (d + 1) 32 i = m.2.1 % 2 ^ 32 ∧ got (.merge d a b) (d + 2) 32 i = m.2.2 % 2 ^ 32) ∧
      (act i = false → got (.merge d a b) d 32 i = off d 32 i ∧ got (.merge d a b) (d + 1) 32 i = off (d + 1) 32 i ∧ got (.merge d a b) (d + 2) 32 i = off (d + 2) 32 i)) ∧
    (∀ m1 l1 o1 m2 l2 o2 : Nat,
      let m := rne 9 ((numOf 9 m1).max (numOf 9 m2))
      let k (z : Nat) : Nat := if numOf 9 z = .inf true then 0 else exp2Code 9 (rne 9 ((numOf 9 z).sub (numOf 9 m)))
      let both (u v : Nat) : Nat := rne 9 (((numOf 9 v).mul (numOf 9 (k m2))).add (round32 ((numOf 9 u).mul (numOf 9 (k m1)))))
      merge3 (m1, l1, o1) (m2, l2, o2) = (m, both l1 l2, both o1 o2))

/-- What vector loads, stores, gathers and scatters do at the pool. A load writes to each element that has an
address the bytes there, a nibble for FP4, leaves those of a poisoned word, and lets the others follow the mask
policy; a poisoned word ends the issuer with cause 0x0C; a store writes each element to its bytes, or its
nibble, the last one where several name the same address, and changes no other byte; no tag changes. What uses
the cluster cache reads and merges into its lines, with their dirty-byte masks, and memory stays; the rest reads
and writes memory, and no line changes. (R66, R79, R168, R250, R251, R265, R266) -/
def Obligations.VectorTransfers : Prop :=
  ∀ (s : State) (q : VCmd) (d fmt : Nat) (l : List (Nat × Nat × Bool)) (va : W64),
    let c := s.ctx q.ctx
    let cl := clusterOf (coreOf q.ctx)
    let w := fmtWidth fmt
    let n := max 1 (w / 8)
    let lanes := if c.lanes = 0 then 32 else c.lanes
    let vl := lanes * 32 / w
    let t := s.performVector q
    let old (i : Nat) : Nat := eltAt (c.vbits d) w i
    let line (u : State) (k : Nat) : Option Line := (u.cluster cl).lines.find? fun m => m.key == k / 64 * 64
    let dirty (u : State) (k : Nat) : Bool := match line u k with
      | some m => m.dirty.getLsbD (k % 64)
      | none => false
    -- a byte as the cluster sees it through its cache
    let seen (u : State) (k : Nat) : Byte := match line u k with
      | some m => m.data.extractLsb' (8 * (k % 64)) 8
      | none => memGet u.mem k
    let uncached : Prop := ∀ p ∈ l, p.2.2 = false ∨ 8 ≤ (s.cluster cl).split
    -- every element lies in one line, and the cache has room for the lines
    let cached : Prop := (∀ p ∈ l, p.2.2 = true ∧ p.2.1 % 64 + n ≤ 64) ∧ (s.cluster cl).split < 8 ∧
      (s.cluster cl).lines.length + l.length ≤ (8 - (s.cluster cl).split) * 4096
    let covered (k : Nat) : Prop := ∃ p ∈ l, p.2.1 ≤ k ∧ k < p.2.1 + n
    w = 4 ∨ w = 8 ∨ w = 16 ∨ w = 32 → c.lanes ≤ 256 → ∀ look : State → Nat → Byte,
      (uncached ∧ look = (fun u k => memGet u.mem k)) ∨ (cached ∧ look = seen) →
      (q.op = .load d fmt l va → (l.map (·.1)).Nodup →
        let read (i k : Nat) : Nat × Bool := match q.got.find? i with
          | some r => r
          | none => (((List.range n).map fun j => (look s (k + j)).toNat * 256 ^ j).sum, s.isPoisoned k)
        let data (i k : Nat) : Nat := if w = 4 then (read i k).1 / 16 ^ (i % 2) % 16 else (read i k).1 % 2 ^ w
        ∃ u, (∀ i, i < vl →
            (∀ k b, (i, k, b) ∈ l → eltAt ((u.ctx q.ctx).vbits d) w i = if (read i k).2 then old i else data i k) ∧
            ((∀ k b, (i, k, b) ∉ l) → eltAt ((u.ctx q.ctx).vbits d) w i = if q.mp = 1 then 2 ^ w - 1 else old i)) ∧
          (∀ r, r ≠ d → (u.ctx q.ctx).vbits r = c.vbits r) ∧ { u.ctx q.ctx with vregs := c.vregs } = c ∧ (∀ id, id ≠ q.ctx → u.ctx id = s.ctx id) ∧
          { u with ctxs := s.ctxs, clusters := s.clusters } = s ∧ (uncached → u.clusters = s.clusters) ∧
          (cached → (∀ k, k ≠ cl → u.cluster k = s.cluster k) ∧ ∃ new, u.cluster cl = { s.cluster cl with lines := (s.cluster cl).lines ++ new } ∧
            ∀ m ∈ new, m.dirty = 0 ∧ ∀ b < 64, m.data.extractLsb' (8 * b) 8 = memGet s.mem (m.key + b)) ∧
          ((∀ p ∈ l, (read p.1 p.2.1).2 = false) → t = u) ∧ ((∃ p ∈ l, (read p.1 p.2.1).2 = true) → t = u.endAsFail q.ctx c.hnum 0x0C va)) ∧
      (q.op = .store d fmt l va → memWf s.mem = true →
        { t with mem := s.mem, clusters := s.clusters } = s ∧
        (uncached → t.clusters = s.clusters) ∧
        (cached → t.mem = s.mem ∧ (∀ k, k ≠ cl → t.cluster k = s.cluster k) ∧ { t.cluster cl with lines := (s.cluster cl).lines } = s.cluster cl ∧
          ∀ k, dirty t k = true ↔ dirty s k = true ∨ covered k) ∧
        (∀ k, ¬ covered k → look t k = look s k) ∧
        (∀ l1 i k b l2, l = l1 ++ (i, k, b) :: l2 →
          (w ≠ 4 → ∀ j < n, (∀ p ∈ l2, k + j < p.2.1 ∨ p.2.1 + n ≤ k + j) → look t (k + j) = BitVec.ofNat 8 (old i / 256 ^ j)) ∧
          (w = 4 → (∀ p ∈ l2, p.1 % 2 ≠ i % 2 ∨ p.2.1 ≠ k) → (look t k).toNat / 16 ^ (i % 2) % 16 = old i)) ∧
        (w = 4 → ∀ k h, h < 2 → (∀ p ∈ l, p.1 % 2 ≠ h ∨ p.2.1 ≠ k) → (look t k).toNat / 16 ^ h % 16 = (look s k).toNat / 16 ^ h % 16))

/-- VECTOR_COMMAND_START and VECTOR_COMMAND_DONE. The pool takes the head of a core’s vector queue when its lanes
fit in 512, the context has no other command there, none of the core was taken in this cycle, and no core
between the one served last and this one, in turn, has such a command, and, for a load or a store, when the
writes before the context’s last release are acknowledged; a command is done in a later cycle than it started
in, has its effect then, and a scalar result reaches its register; a load waits while one of its words is in a
bank under refresh, and reads the elements of other banks meanwhile, and a load or a store waits while one of
its words is another module’s and no port leads there. That a head which does not fit lets the cores behind it
go first, and that lanes are held until a later cycle’s DONE, is log entry 9 (DEDUCED). (R70, R73, R98, R247,
R248, R353) -/
def Obligations.VectorPoolEvents : Prop :=
  ∀ (s : State) (core slot : Nat), core < 4096 →
    let c := s.core core
    let cl := core / 1024 * 128 + core / 32 % 32 * 4 + core % 32 / 8
    let fits (k : Nat) : Prop := (s.core k).vtook ≠ some s.cycle ∧ ∃ q rest, (s.core k).vqueue = q :: rest ∧
      s.lanesBusy cl + (if (s.ctx q.ctx).lanes = 0 then 32 else (s.ctx q.ctx).lanes) ≤ 512 ∧ (∀ r ∈ (s.core k).vrunning, r.ctx ≠ q.ctx) ∧
      ((∃ d f l a, q.op = .load d f l a ∨ q.op = .store d f l a) → ¬ s.OwedBy q.ctx q.after)
    let turn (i : Nat) : Nat := core - core % 8 + ((s.cluster cl).vlast + 1 + i) % 8
    (c.vqueue = [] → exec (.vectorCommandStart core) s = .next s) ∧
    (∀ q rest, c.vqueue = q :: rest → Happens s (.vectorCommandStart core)
      (fits core ∧ ∀ i < 8, turn i = core → ∀ j < i, ¬ fits (turn j))
      ((s.modCore core fun c => { c with vqueue := rest, vrunning := c.vrunning ++ [{ q with began := s.cycle }], vtook := some s.cycle }).modCluster cl
        fun c => { c with vlast := core % 8 })) ∧
    let id := if slot ≤ 10 then core + 4096 * slot else 45056
    (c.vrunning.find? (fun q => q.ctx == id) = none → exec (.vectorCommandDone core slot) s = .next s) ∧
    (∀ q, c.vrunning.find? (fun q => q.ctx == id) = some q →
      let away (k : Nat) : Prop := isRemoteKey k = true ∧ s.routeTo (keyDev k) = none
      let waits : Prop := (∃ d f l a, q.op = .load d f l a ∧ ∃ e ∈ l, q.got.find? e.1 = none ∧ (s.bankBusy e.2.1 = true ∨ away e.2.1)) ∨
        ∃ d f l a, q.op = .store d f l a ∧ ∃ e ∈ l, away e.2.1
      let free (e : Nat × Nat × Bool) : Bool := (q.got.find? e.1).isNone && !(s.bankBusy e.2.1) && decide (weightBase ≤ e.2.1) && decide (e.2.1 < weightBase + 0x400000000)
      (s.cycle ≤ q.began → exec (.vectorCommandDone core slot) s = .next s) ∧
      (∀ d f l a, q.began < s.cycle → q.op = .load d f l a → waits → l.filter free = [] → exec (.vectorCommandDone core slot) s = .next s) ∧
      (∀ d f l a, q.began < s.cycle → q.op = .load d f l a → waits → l.filter free ≠ [] → exec (.vectorCommandDone core slot) s = .next (s.modCore core fun c =>
        { c with vrunning := c.vrunning.replace q { q with got := (l.filter free).foldl (fun m e => m.put e.1 (s.read e.2.1 (max 1 (fmtWidth f / 8)), s.isPoisoned e.2.1)) q.got } })) ∧
      (∀ d f l a, q.op = .store d f l a → waits → exec (.vectorCommandDone core slot) s = .next s) ∧
      (q.began < s.cycle → ¬ waits → ∃ t, exec (.vectorCommandDone core slot) s = .next t ∧
        (t.core core).vrunning = ((s.performVector q).core core).vrunning.erase q ∧ t.ctxs = (s.performVector q).ctxs ∧ t.mem = (s.performVector q).mem ∧
        (∀ f, ∀ d a b e fmt, q.op = .elem f d a b e fmt → t.ctx q.ctx = (performV (s.ctx q.ctx) q).1 ∧ (∀ id, id ≠ q.ctx → t.ctx id = s.ctx id) ∧ t.mem = s.mem) ∧
        (∀ k v, q.op.dst? = some k → (performV (s.ctx q.ctx) q).2 = some v → k ≠ 0 → (t.ctx q.ctx).regAt k = v ∧ t.mem = s.mem)))

/-- The events of an engine context. An idle engine takes the head of its queue once the issuer’s earlier counted
accesses are acknowledged (and, for a block command, the requests before it have left the queue), and a waiting
issuer receives the number; a command that its check refuses becomes an empty operation and its issuer traps at
the command’s address; a busy engine takes one command ahead once its current one can take its last step: it has
issued its last read, and a joint step has all its members; an operation that completes writes what it has not
written yet and moves the timeline counter to its number, and the command taken behind it becomes the current
one; one that faults stops the context with a record in the fault ring; RETRY lets a stopped one go on behind
the pages whose accesses have all been made (that those pages are not translated again, and which reads are
early and kept, is the model’s choice, log entry 8), and ABANDON empties it and ends its issuer as by FAIL.
(R98, R99, R134, R155, R277, R284, R300, R301, R312, R355, R358, R407) -/
def Obligations.EngineEvents : Prop :=
  ∀ (s : State) (core ctr : Nat),
    let c := s.core core
    (c.queues.get ctr [] = [] → exec (.engineCommandTake core ctr) s = .next s) ∧
    (∀ q rest, c.queues.get ctr [] = q :: rest →
      let take : Instr := .engineCommandTake core ctr
      let acked : Prop := ¬ s.Owed q.vf (coreOf q.issuer) q.hnum q.after ∧ (ctr = 7 → s.requestsGone core q.after = true)
      let pop (u : State) : State := u.modCore core fun c => { c with queues := c.queues.put ctr (c.queues.get ctr []).tail, engTook := c.engTook.put ctr s.cycle }
      let number (s : State) : State := match q.dst with
        | some k => if s.issuerHere q then s.modCtx q.issuer fun x => x.setAt k (BitVec.ofNat 64 q.num) else s
        | none => s
      let stop (s : State) (cause : Nat) (val : W64) : State := if s.issuerHere q = false then s
        else if cause = 0x0C then (s.modCtx q.issuer fun c => { c with wait := none }).poisoned q (some val)
        else (s.dropStall q.issuer (s.ctx q.issuer).nextIssue).takeTrap q.issuer cause val q.pc none
      (¬ acked → exec take s = .next s) ∧
      (acked → c.running.find? ctr = none →
        (∀ v ws, (pop s).engBegin core ctr q = (v, .ok ws) →
          exec take s = .next ((number v).modCore core fun c => { c with running := c.running.put ctr { q with accepted := true, blocks := ws } })) ∧
        (∀ v cause val, (pop s).engBegin core ctr q = (v, .error (cause, val)) →
          exec take s = .next ((stop v cause val).modCore core fun c => { c with running := c.running.put ctr { q with op := .empty, accepted := true } }))) ∧
      (∀ r, acked → c.running.find? ctr = some r →
        ((c.taken.find? ctr).isSome = true ∨ (c.stopped.find? ctr).isSome = true → exec take s = .next s) ∧
        (c.taken.find? ctr = none → c.stopped.find? ctr = none →
          (s.lastStep core ctr r = false → exec take s = .next s) ∧
          (r.op.isMmag = true → s.lastStep core ctr r = (jointStep (r.members core) s).isSome) ∧
          (∀ e, r.op.isMmag = false → s.attempt core ctr r = .stop e → s.lastStep core ctr r = false) ∧
          (∀ v p, r.op.isMmag = false → s.attempt core ctr r = .done v ∨ s.attempt core ctr r = .write v p → s.lastStep core ctr r = true) ∧
          (ctr = 0 → s.lastStep core ctr r = true → exec take s = .next ((pop s).modCore core fun c => { c with taken := c.taken.put 0 q })) ∧
          -- what the operation is to write is fixed, once it has the words that it keeps
          (ctr ≠ 0 → s.lastStep core ctr r = true →
            let r0 : EngCmd := { r with blocks := (s.attnKeep core r).2 }
            let s0 := s.latch core ctr false
            let u := pop (match s0.attempt core ctr r0 with
              | .write v p => v.modCore core fun c => { c with running := c.running.put ctr { r0 with plan := some p, planAt := s0.nextId } }
              | _ => s0)
            (∀ w ws, u.engBegin core ctr q = (w, .ok ws) →
              exec take s = .next ((number w).modCore core fun c => { c with taken := c.taken.put ctr { q with accepted := true, blocks := ws } })) ∧
            (∀ w cause val, u.engBegin core ctr q = (w, .error (cause, val)) →
              exec take s = .next ((stop w cause val).modCore core fun c => { c with taken := c.taken.put ctr { q with op := .empty, accepted := true } })))))) ∧
    -- the words that an attention request keeps, once it can read them; pages whose accesses have all been made
    ((c.running.find? ctr = none → s.latch core ctr false = s) ∧
      ∀ q, c.running.find? ctr = some q →
        ((∀ a, q.op ≠ .attnq a) ∨ q.blocks ≠ [] → s.latch core ctr false = s) ∧
        (∀ a v ws, q.op = .attnq a → q.blocks = [] → s.attnBegin core q a = (v, .ok (ws, none)) →
          s.latch core ctr false = v.modCore core fun c => { c with running := c.running.put ctr { q with blocks := ws } }) ∧
        (∀ x, x ∈ s.donePages core q ↔ x ∈ q.pages ∨ ∃ r ∈ s.opRanges q, ∃ p ∈ chunks r.1 r.2, ∃ k, x.2 = (p.1, k) ∧
          ((x.1 = false ∧ (s.engKey core q accERead p.1).2 = .ok k ∧ ∀ b ∈ byteKeys [(k, p.2)], (q.got.find? b).isSome = true) ∨
            (x.1 = true ∧ (s.engKey core q accEWrite p.1).2 = .ok k ∧ ∀ b ∈ wordsIn k p.2, b ∈ q.put))) ∧
        (∀ acc a p, q.pages.find? (fun p => p.1 == acc.w && p.2.1 == a) = some p → s.engKeyOr core q acc a = (s, .ok p.2.2))) ∧
    (c.running.find? ctr = none → exec (.engineOpComplete core ctr) s = .next s ∧ exec (.engineFault core ctr) s = .next s) ∧
    (∀ q, c.running.find? ctr = some q → (c.stopped.find? ctr).isSome = true →
      exec (.engineOpComplete core ctr) s = .next s ∧ exec (.engineFault core ctr) s = .next s) ∧
    (∀ q k, c.running.find? ctr = some q → c.stopped.find? ctr = none → (∃ d a b f n z x y, q.op = .mma k d a b f n z x y) → k = .mmag →
      (∀ t, jointStep (q.members core) s = some t → exec (.engineOpComplete core ctr) s = .next t.withdrawNotices) ∧
      (jointStep (q.members core) s = none → exec (.engineOpComplete core ctr) s = .next ((q.members core).foldl (fun u m => u.readOthers m 0) s))) ∧
    -- the members of a gang have the same words of the operand that they share, whichever of them are read early
    (∀ q ws, c.running.find? 0 = some q → c.stopped.find? 0 = none → q.op.isMmag = true →
      let t := s.engRead core 0 false ws
      ∀ p r m, (t.core core).running.find? 0 = some p → m ∈ q.members core → (t.core m).running.find? 0 = some r → r.op.isMmag = true →
        ∀ w i b, w ∈ p.op.sharedWords → i < 8 → p.got.find? (w + i) = some b → r.got.find? (w + i) = some b) ∧
    (∀ q, c.running.find? ctr = some q → c.stopped.find? ctr = none → (∀ k d a b f n z x y, q.op ≠ .mma k d a b f n z x y ∨ k ≠ .mmag) →
      let passes (t : State) : Prop := exec (.engineOpComplete core ctr) s = .next (t.passOp core ctr q.num).withdrawNotices ∧
        (ctr ≠ 0 ∨ (t.core core).taken.find? ctr = none → ∃ u, exec (.engineOpComplete core ctr) s = .next u ∧
          (u.core core).tl.get ctr 0 = BitVec.ofNat 64 q.num ∧ (u.core core).running.find? ctr = (t.core core).taken.find? ctr ∧
          (u.core core).taken.find? ctr = none ∧ u.mem = t.mem ∧ u.ctxs = t.ctxs ∧ ∀ k, k ≠ core → u.core k = t.core k)
      (∀ t, s.attempt core ctr q = .done t → passes t ∧ exec (.engineFault core ctr) s = .next s) ∧
      (∀ t p, s.attempt core ctr q = .write t p →
        passes (((t.performFor q.vf p fun w => !(q.put.contains w)).poisoned q (p.bad.or (p.badOf fun w => !(q.put.contains w)))).noteDest core ctr q p.dest) ∧ exec (.engineFault core ctr) s = .next s) ∧
      (s.attempt core ctr q = .stop .wait → exec (.engineOpComplete core ctr) s = .next s ∧ exec (.engineFault core ctr) s = .next s) ∧
      (∀ ps, s.attempt core ctr q = .stop (.refresh ps) → exec (.engineFault core ctr) s = .next s ∧ exec (.engineOpComplete core ctr) s = .next
        (let r := (s.latch core ctr false).readEarly core { q with blocks := (s.attnKeep core q).2 }
           (if q.op.byBytes then byteKeys ps else ps.flatMap fun p => wordsIn p.1 p.2)
         r.1.modCore core fun c => { c with running := c.running.put ctr { r.2 with pages := r.1.donePages core r.2 } })) ∧
      (∀ f, s.attempt core ctr q = .stop (.fault f) → exec (.engineOpComplete core ctr) s = .next s ∧
        Happens s (.engineFault core ctr) (s.recordRoom (clusterOf core) (ringOf q.asid) = true)
          ((s.modCore core fun c => { c with stopped := c.stopped.put ctr f }).pushRecord (clusterOf core) (ringOf q.asid) (engineRecord core ctr q f)))) ∧
    Happens s (.engactRetry core ctr) ((c.stopped.find? ctr).isSome = true) ((s.modCore core fun c => { c with stopped := c.stopped.del ctr }).latch core ctr false) ∧
    (c.running.find? ctr = none ∨ c.stopped.find? ctr = none → exec (.engactAbandon core ctr) s = .next s) ∧
    (∀ q f, c.running.find? ctr = some q → c.stopped.find? ctr = some f → exec (.engactAbandon core ctr) s = .next
      (((s.modCore core fun c => { c with running := c.running.put ctr { q with op := .empty, plan := none } }).modCore core
        fun c => { c with stopped := c.stopped.del ctr }).endAsFail q.issuer q.hnum f.cause f.va))

/-- Sluiced stores and their groups. A sequencer stamps the next waiting store with the next number of the
generation, which its register receives; a member applies the stamped numbers in order, a conditional store only
where the word holds the expected value, and raises an interrupt when the number is no longer held; activation,
reconfiguration, resynchronisation and deletion act when their command is under way, clear GO and set STATE: 1
after activation and resynchronisation, 0 after deletion; where the sequencer in force is another module, a
reconfiguration that the member list shows raises a member’s generation, and a module that it leaves out returns
to STATE 0 (the generation of a group that a module only joins is free, the model’s choice, log entry 62, and so
is the copy of the sequencer’s member, which starts as this member’s at the first stamp and which
resynchronisation copies over the region, its poison with it, at any other member). (R108, R109, R110, R324,
R325, R416) -/
def Obligations.SluiceEvents : Prop :=
  ∀ (s : State) (g : Nat),
    let t := s.group g
    let base := sluiceBase g
    (∀ x, s.nextStamp g = some x → (t.seqDev = s.device ∨ (s.towPort (s.regBits base 7 4)).up = true) ∧
      ∃ l1 l2, t.waiting = l1 ++ x :: l2 ∧ ¬ s.Owed x.vf (coreOf x.ctx) x.hnum x.after ∧ ∀ y ∈ l1, s.Owed y.vf (coreOf y.ctx) y.hnum y.after) ∧
    (s.nextStamp g = none → exec (.sluiceStamp g) s = .next s) ∧
    (∀ x, s.nextStamp g = some x → Happens s (.sluiceStamp g) (s.grpState g = 1 ∧ t.open_ = true ∧ s.grpGoing g ≠ 2)
      (let u := s.modGroup g fun t =>
         { t with waiting := t.waiting.filter (·.id ≠ x.id), stamped := t.stamped + 1, history := ((t.stamped + 1, x) :: t.history).take 4096,
                  missing := t.missing ++ [x],
                  copy := some (x.applyTo (t.copy.getD (s.grpRegion g)) x.off) }
       if x.dst = 0 then u else u.modCtx x.ctx fun c => c.setAt x.dst (BitVec.ofNat 64 (t.gen * 2 ^ 32 + (t.stamped + 1))))) ∧
    (t.stamped ≤ t.applied ∨ (s.grpState g ≠ 1 ∧ s.grpState g ≠ 3) → exec (.sluiceApply g) s = .next s) ∧
    (t.applied < t.stamped → s.grpState g = 1 ∨ s.grpState g = 3 →
      (∀ n x, t.history.find? (fun p => p.1 == t.applied + 1) = some (n, x) →
        let k := s.regBits (base + 0x18) 51 6 * 64 + x.off
        ∃ u, exec (.sluiceApply g) s = .next u ∧ (u.group g).applied = t.applied + 1 ∧ (u.group g).stamped = t.stamped ∧ (u.group g).missing = t.missing.tail ∧
          u.reg (base + 0x38) = BitVec.ofNat 64 (t.gen * 2 ^ 32 + (t.applied + 1)) ∧
          (memWf s.mem = true → x.expect = none ∨ x.expect = some (s.read64 k) → u.read64 k = x.val ∧ ∀ a, a < k ∨ k + 8 ≤ a → memGet u.mem a = memGet s.mem a) ∧
          (∀ v, x.expect = some v → v ≠ s.read64 k → u.mem = s.mem)) ∧
      (t.history.find? (fun p => p.1 == t.applied + 1) = none → exec (.sluiceApply g) s = .next
        (({ s with interrupts := s.interrupts ++ [.sluice g] } : State).setRegBits base 2 1 2))) ∧
    (s.grpGoing g = 1 ∧ s.regBits base 0 0 = 1 → ∃ u, exec (.groupActivate g) s = .next u ∧
      u.group g = { t with gen := 1, stamped := 0, applied := 0, history := [], missing := [], open_ := false, seqDev := s.regBits base 17 8, copy := none } ∧
      { u with groups := s.groups, admin := s.admin } = s ∧ u.regBits base 2 1 = 1 ∧ u.regBits (base + 0x30) 63 63 = 0 ∧ u.reg (base + 0x38) = BitVec.ofNat 64 (2 ^ 32)) ∧
    (¬ (s.grpGoing g = 1 ∧ s.regBits base 0 0 = 1) → exec (.groupActivate g) s = .next s) ∧
    (s.grpGoing g = 2 ∧ t.applied = t.stamped → ∃ u, exec (.groupReconfigure g) s = .next u ∧
      u.group g = { t with gen := t.gen + 1, stamped := 0, applied := 0, history := [], missing := [], seqDev := s.regBits base 17 8 } ∧
      { u with groups := s.groups, admin := s.admin } = s ∧
      u.regBits base 2 1 = (if s.isMember g then 1 else 0) ∧ u.regBits (base + 0x30) 63 63 = 0 ∧ u.reg (base + 0x38) = BitVec.ofNat 64 ((t.gen + 1) * 2 ^ 32)) ∧
    -- a group whose sequencer in force is another module
    (let st := s.grpState g
     let moves : Prop := ¬ (st ≠ 0 ∧ t.seqDev = s.device) ∧ s.grpGoing g = 0 ∧ st ≠ 3 ∧ s.regBits base 0 0 = 1 ∧ (st = 1 → t.applied = t.stamped)
     let u := s.groupMove g
     (¬ moves → u = s) ∧
     (moves → s.isMember g = false → u.group g = { t with seqDev := s.regBits base 17 8 } ∧ u.regBits base 2 1 = 0 ∧ { u with groups := s.groups, admin := s.admin } = s) ∧
     (moves → s.isMember g = true → st = 2 → u = s) ∧
     (moves → s.isMember g = true → st = 1 → u.group g = { t with gen := t.gen % 2 ^ 32 + 1, stamped := 0, applied := 0, history := [], missing := [], seqDev := s.regBits base 17 8 } ∧
       u.regBits base 2 1 = 1 ∧ { u with groups := s.groups, admin := s.admin } = s) ∧
     (moves → s.isMember g = true → st = 0 → u.regBits base 2 1 = 1 ∧ (u.group g).applied = 0 ∧ (u.group g).stamped = 0 ∧ (u.group g).seqDev = s.regBits base 17 8 ∧ (u.group g).copy = none ∧
       u.fresh = s.fresh + 1)) ∧
    (¬ (s.grpGoing g = 2 ∧ t.applied = t.stamped) → exec (.groupReconfigure g) s = .next s) ∧
    (s.grpGoing g = 3 ∧ s.grpState g = 2 → ∃ u, exec (.groupResynchronise g) s = .next u ∧ u.group g = { t with applied := t.stamped, missing := [] } ∧
      (let k := s.grpKey g 0
       let len := s.regBits (base + 0x10) 39 6 * 64
       (∀ m, s.isSequencer g = false → t.copy = some m → memWf s.mem = true → memWf m = true → (∀ c ∈ m, c.1 < len) →
         (∀ o < len, memGet u.mem (k + o) = memGet m o ∧ (k + o) / 8 * 8 ∉ u.poison) ∧
         ∀ a, a < k ∨ k + len ≤ a → memGet u.mem a = memGet s.mem a ∧ u.isPoisoned a = s.isPoisoned a) ∧
       (s.isSequencer g = true ∨ t.copy = none → u.mem = (t.missing.foldl (fun v x => v.applyStore g x) s).mem)) ∧
      u.regBits base 2 1 = 1 ∧ u.regBits (base + 0x30) 63 63 = 0 ∧
      u.reg (base + 0x38) = BitVec.ofNat 64 (t.gen * 2 ^ 32 + t.stamped)) ∧
    (¬ (s.grpGoing g = 3 ∧ s.grpState g = 2) → exec (.groupResynchronise g) s = .next s) ∧
    (s.grpGoing g = 4 → ∃ u, exec (.groupDelete g) s = .next u ∧ u.group g = {} ∧ u.mem = s.mem ∧ u.regBits base 2 1 = 0 ∧ u.regBits (base + 0x30) 63 63 = 0 ∧
      (∀ x, t.waiting = [x] → x.dst ≠ 0 → (u.ctx x.ctx).regAt x.dst = -1)) ∧
    (s.grpGoing g ≠ 4 → exec (.groupDelete g) s = .next s)

/-- Rinsing, pools and operand records. A released block whose drained operations have completed, on their cores or
in the image of a virtual function that is not resident, is zeroed, takes the next generation, 1 after 0xFFFF,
and joins the end of its pool’s rinsed list, or, when it fails read-back, retires with a record of KIND 3 that
gives its address and handle, or a dropped one is counted (REFCNT 0 is log entry 39’s, DEDUCED); a pool with no
live block and no quota in use can be enabled, its blocks zeroed and listed by ascending index (log entry 2,
DESIGN CHOICE), or disabled, once Cleoz runs; an invalidation drops the records it names from the caches of the
virtual function’s cores. (R82, R408, R409, R419, R420) -/
def Obligations.BlockEvents : Prop :=
  ∀ (s : State) (stack pool index fails : Nat) (val : W64),
    let b := s.block stack pool index
    let ready := b.rinsing = true ∧ b.retired = false ∧ ∀ d ∈ b.drain, d.2.2.2 ≤ (match s.images.find? (fun (x : VfImage) => x.vf == d.1) with
      | some x => (x.cores.get d.2.1 {}).tl.get d.2.2.1 0
      | none => (s.core d.2.1).tl.get d.2.2.1 0).toNat
    let a := s.blockAddr stack pool index
    let n := s.blockSize stack pool
    (¬ ready → exec (.blockRinse stack pool index fails) s = .next s) ∧
    (ready → index < 2 ^ 40 → ∃ t, exec (.blockRinse stack pool index fails) s = .next t ∧
      (t.block stack pool index).gen = (if b.gen = 0xFFFF then 1 else b.gen + 1) ∧ (t.block stack pool index).retired = (fails != 0) ∧
      (fails = 0 → t.rinsedList stack pool = s.rinsedList stack pool ++ [index] ∧ (t.block stack pool index).rinsing = false ∧
        (memWf s.mem = true → (∀ f ∈ s.flights, f.waiting = none) → (∀ k, a ≤ k → k < a + n → memGet t.mem k = 0) ∧
          (∀ k, k < a ∨ a + n ≤ k → memGet t.mem k = memGet s.mem k))) ∧
      (fails ≠ 0 → t.rinsedList stack pool = s.rinsedList stack pool ∧ (t.block stack pool index).rinsing = true ∧
        let ring := s.regBits (fleetBase + 8) 3 0
        let tail := s.regBits (fleetBase + 0x18) 31 0
        let slot := s.regBits fleetBase 51 6 * 64 + 64 * (tail % 2 ^ ring)
        let dropped : Prop := ring = 0 ∨ 2 ^ ring ≤ (tail + 2 ^ 32 - s.regBits (fleetBase + 0x10) 31 0) % 2 ^ 32
        ((∀ f ∈ s.flights, f.waiting = none) → dropped → t.errDrops = s.errDrops + 1 ∧ t.regBits (fleetBase + 0x18) 31 0 = tail) ∧
        ((∀ f ∈ s.flights, f.waiting = none) → ¬ dropped → t.errDrops = s.errDrops ∧ t.regBits (fleetBase + 0x18) 31 0 = (tail + 1) % 2 ^ 32 ∧
          (memWf s.mem = true → t.read64 slot = BitVec.ofNat 64 a ∧
            t.read64 (slot + 8) = BitVec.ofNat 64 (3 + 16 * 3 + 256 * (b.vf % 32) + 65536 * (stack % 65536)) ∧
            t.read64 (slot + 16) = handleWord (if b.gen = 0xFFFF then 1 else b.gen + 1) stack pool index ∧ t.read64 (slot + 24) = 0 ∧
            t.read64 (slot + 32) = BitVec.ofNat 64 s.ptp ∧ t.read64 (slot + 40) = BitVec.ofNat 64 ((tail + 1) % 2 ^ 32) ∧
            t.read64 (slot + 48) = 0 ∧ t.read64 (slot + 56) = 0)))) ∧
    (s.cleozRuns = false ∨ s.poolIdle stack pool = false ∨ 16 ≤ stack ∨ 16 ≤ pool → exec (.poolEnable stack pool) s = .next s ∧ exec (.poolDisable stack pool) s = .next s) ∧
    (s.cleozRuns = true → s.poolIdle stack pool = true → stack < 16 → pool < 16 →
      (∃ t, exec (.poolEnable stack pool) s = .next t ∧ t.poolOn stack pool = true ∧ t.rinsedList stack pool = List.range (s.poolCount stack pool) ∧
        (∀ i, t.block stack pool (i % 2 ^ 40) = {}) ∧
        (memWf s.mem = true → (∀ f ∈ s.flights, f.waiting = none) → ∀ k, s.blockAddr stack pool 0 ≤ k → k < s.blockAddr stack pool 0 + s.poolCount stack pool * n → memGet t.mem k = 0)) ∧
      (∃ t, exec (.poolDisable stack pool) s = .next t ∧ t.poolOn stack pool = false ∧ t.rinsedList stack pool = [] ∧ t.mem = s.mem)) ∧
    (s.cleozRuns = false → exec (.operandRecordInvalidate val) s = .next s) ∧
    (s.cleozRuns = true → ∃ t, exec (.operandRecordInvalidate val) s = .next t ∧ { t with cores := s.cores } = s ∧
      ∀ k, (t.core k).orCache = if (s.core k).vfid = bitsOf val 4 0 then (s.core k).orCache.filter fun r => !(bitsOf val 39 16 == 0xFFFFFF || r.1 == bitsOf val 39 16)
        else (s.core k).orCache)

/-- The life of a helper, faults, frames, migration and the answers of Cleoz. A Starting helper becomes Live once
its starter’s earlier writes are acknowledged and the pool holds its window, with its initial claim, and raises
the yield request while it does not fit; a Closing helper without outstanding accesses leaves its slot and an
end record; a page fault saves its context to the first free frame, which has the layout of Table 22.5, and its
record, with the fields of Table 22.4, goes to the ring of its address space or waits in the cluster’s queue;
the first waiting fault record whose ring has room goes into it (log entry 44, DEDUCED); RESUME lets a saved
context go back, once its core has a slot, the pool room for the windows of its whole gang, and no launch that
outbids it waits for its set (log entry 45, DEDUCED), or ends it; a gang is saved, goes back and is ended as
one; a migrating helper moves under a new number (log entry 62, DESIGN CHOICE) and leaves a record with outcome
2, or its counters are halved; SYSC_RESULT completes its SYSC; an interrupt marks the core; an illegal encoding
traps with its word 0. (R9, R12, R31, R127, R156, R205, R216, R254, R403, R404, R405, R406) -/
def Obligations.HelperEvents : Prop :=
  ∀ (s : State) (core slot cluster frame : Nat) (val : W64) (word : W32), core < 4096 →
    let id := if slot ≤ 10 then core + 4096 * slot else 45056
    let c := s.ctx id
    -- the ring of a fault, and whether its record goes into it
    let cl := core / 1024 * 128 + core / 32 % 32 * 4 + core % 32 / 8
    let r := (c.asid % 32) ^^^ (c.asid / 32 % 32) ^^^ (c.asid / 1024 % 32) ^^^ (c.asid / 32768 % 2)
    let log := s.regBits (ringReg r 1) 3 0
    let tail := s.regBits (ringReg r 3) 31 0
    let place := s.regBits (ringReg r 0) 51 6 * 64 + 64 * (tail % 2 ^ log)
    let into : Prop := log ≠ 0 ∧ (tail + 2 ^ 32 - s.regBits (ringReg r 2) 31 0) % 2 ^ 32 < 2 ^ log ∧ ∀ x ∈ (s.cluster cl).overflow, x.ring ≠ r
    let last (t : State) (k vf : Nat) (c : Ctx) (out code : Nat) : Prop := (t.core k).ends.getLast? =
      some { vf := vf, num := c.hnum, out := out, code := code, starter := c.starter, collected := false, form := c.form }
    (s.mayLive id = false → exec (.helperLive core slot) s = .next s) ∧
    (s.mayLive id = true → s.windowFits id = false → exec (.helperLive core slot) s = .next (s.raiseYield (clusterOf core))) ∧
    (s.mayLive id = true → s.windowFits id = true → ∃ t, exec (.helperLive core slot) s = .next t ∧ (t.ctx id).life = .live ∧
      (t.ctx id).nextIssue = s.cycle ∧ (t.ctx id).regs = c.regs ∧ { t with ctxs := s.ctxs } = s ∧
      (s.initialClaim c = true → 32 ≤ (t.ctx id).lanes ∧ (t.ctx id).lanes ≤ 256 ∧ (t.ctx id).lanes % 32 = 0)) ∧
    (s.mayEnd id = false → exec (.helperCloseEnd core slot) s = .next s) ∧
    (s.mayEnd id = true → ∃ t, exec (.helperCloseEnd core slot) s = .next t ∧
      (c.gang = false → t.ctxs.find? id = none ∧ last t core (s.vfOf id) c (if c.failed then 1 else 0) c.code)) ∧
    (s.maySave id = false → exec (.faultSave core slot) s = .next s) ∧
    (s.maySave id = true → ∃ t, exec (.faultSave core slot) s = .next t ∧ (c.gang = false → t.ctxs.find? id = none ∧
      t.saved = s.saved ++ [{ frame := (s.freeFrames (s.vfOf id)).headD 0, id := id, core := core, vf := s.vfOf id, kind := 0,
                              ctx := s.savedCtx id, gang := none, resumed := false, redo := s.redoOf id }])) ∧
    -- a gang is saved whole, each member in a frame of its own that names the first
    (s.maySave id = true → c.gang = true →
      let frames := s.freeFrames (s.vfOf id)
      let mask := (s.core (id % 4096)).gangMask
      ∃ t l, exec (.faultSave core slot) s = .next t ∧ t.saved = s.saved ++ l ∧ l.map (·.id) = s.members id ∧
        l.map (·.frame) = frames.take (s.members id).length ∧
        ∀ m ∈ s.members id, t.ctxs.find? m = none ∧ ∃ x ∈ l, x.id = m ∧ x.core = m % 4096 ∧ x.vf = s.vfOf m ∧
          x.kind = (if m = id then 0 else 2) ∧ x.gang = some (frames.headD 0, mask) ∧ x.mat = true ∧ x.resumed = false ∧ x.redo = s.redoOf m ∧
          { x.ctx with yield := (s.savedCtx m).yield } = s.savedCtx m ∧
          (memWf s.mem = true → (∀ n ∈ s.members id, (s.ctx n).window ≤ 48 ∧ (s.ctx n).lanes ≤ 256) →
            ¬ into ∨ (∀ a ∈ frames, place + 64 ≤ a ∨ a + 65536 ≤ place) →
            t.read64 (x.frame + 0xC890) = BitVec.ofNat 64 (frames.headD 0) ∧
            t.read64 (x.frame + 0xC898) = BitVec.ofNat 64 (mask + 256 * (m % 8 - gangFirst mask)))) ∧
    -- the frame and the record of a fault
    (s.maySave id = true → c.gang = false → memWf s.mem = true → ∀ f, c.fault = some f → ∃ t, exec (.faultSave core slot) s = .next t ∧
      let a := (s.freeFrames (s.vfOf id)).headD 0
      let id_ := BitVec.ofNat 64 (id + 2 ^ 16 * (c.asid % 65536) + 2 ^ 32 * (s.vfOf id % 32) + 2 ^ 37 * (f.kind % 8) + 2 ^ 44 * (f.level % 8) + 2 ^ 48 * (f.cause % 256))
      (¬ into → (t.cluster cl).overflow = (s.cluster cl).overflow ++ [{ ring := r, words := [f.va, id_, BitVec.ofNat 64 a, c.pc, 0, f.pte, 0, 0] }] ∧ t.admin = s.admin) ∧
      (into → t.regBits (ringReg r 3) 31 0 = (tail + 1) % 2 ^ 32 ∧ (t.cluster cl).overflow = (s.cluster cl).overflow ∧
        t.read64 place = f.va ∧ t.read64 (place + 8) = id_ ∧ t.read64 (place + 16) = BitVec.ofNat 64 a ∧ t.read64 (place + 24) = c.pc ∧ t.read64 (place + 32) = 0 ∧
        t.read64 (place + 40) = f.pte ∧ t.read64 (place + 48) = BitVec.ofNat 64 ((tail + 1) % 2 ^ 32) ∧ t.read64 (place + 56) = 0) ∧
      let lanes := if c.lanes = 0 then 32 else c.lanes
      (c.window ≤ 48 → lanes ≤ 256 → ¬ into ∨ place + 64 ≤ a ∨ a + 65536 ≤ place →
        let flag (b : Bool) (n : Nat) : Nat := if b then 2 ^ n else 0
        t.read64 a = c.pc ∧
        t.read64 (a + 8) = BitVec.ofNat 64 (id + 2 ^ 16 * (c.asid % 65536) + 2 ^ 32 * (s.vfOf id % 32) + 2 ^ 40 * c.window + 2 ^ 46 * c.lanes +
          flag c.mig 55 + flag c.inMiss 56 + flag c.actor.isSome 57) ∧
        t.read64 (a + 0x10) = BitVec.ofNat 64 (c.hnum % 2 ^ 32) ∧ t.read64 (a + 0x18) = BitVec.ofNat 64 c.reqLanes ∧
        (∀ i, i < 64 → t.read64 (a + 0x40 + 8 * i) = c.regAt i) ∧ (∀ i, i < 16 → t.read64 (a + 0x240 + 8 * i) = c.regAt (64 + i)) ∧
        (∀ n, n < 20 → t.read64 (a + 0x2C0 + 8 * n) = if n = 0 then BitVec.ofNat 64 id
          else if n = 19 then BitVec.ofNat 64 (c.lanes + flag c.yield 16)
          else if n ∈ [1, 2, 3, 4, 5, 6, 7, 8, 11, 12, 13, 18] then c.k n else 0) ∧
        (∀ i, i < 4 → ∀ b, c.bindings.getD i { word := 0, base := 0, len := 0 } = b → t.read64 (a + 0x360 + 24 * i) = b.word ∧
          t.read64 (a + 0x368 + 24 * i) = b.base ∧ t.read64 (a + 0x370 + 24 * i) = b.len) ∧
        (∀ h, h < 64 → t.read (a + 0x3C0 + 2 * h) 2 = c.migCnt.get h 0 % 65536) ∧
        (∀ n l, n < c.window → l < lanes → t.read (a + 0x440 + 4 * (n * lanes + l)) 4 = c.vbits n / 2 ^ (32 * l) % 2 ^ 32) ∧
        (∀ n, n < 64 → t.read (a + 0xC440 + n) 1 = if n < c.window then c.vtag n % 256 else 0) ∧
        (∀ l, l < 256 → t.read (a + 0xC480 + 4 * l) 4 = c.gen l % 2 ^ 32) ∧
        (∀ x, c.actor = some x → t.read64 (a + 0xC880) = x.key ∧ t.read64 (a + 0xC888) = BitVec.ofNat 64 (x.cls + x.slot * 65536)) ∧
        (c.actor = none → t.read64 (a + 0xC880) = 0 ∧ t.read64 (a + 0xC888) = 0) ∧
        t.read64 (a + 0xC890) = 0 ∧ t.read64 (a + 0xC898) = 0 ∧
        (∀ o, (0x20 ≤ o ∧ o < 0x40) ∨ (0xC8A0 ≤ o ∧ o < 0x10000) → memGet t.mem (a + o) = 0))) ∧
    (let waiting := (s.cluster cluster).overflow.find? fun (r : FaultRec) => s.ringRoom r.ring
     (waiting = none → exec (.faultRecordDrain cluster) s = .next s) ∧
     (∀ r, waiting = some r → exec (.faultRecordDrain cluster) s = .next
       ((s.ringWrite r.ring r.words).modCluster cluster fun c => { c with overflow := c.overflow.erase r }))) ∧
    (s.framed val = none → exec (.resumeContext val) s = .next s ∧ exec (.resumeEnd val) s = .next s) ∧
    (∀ f, s.framed val = some f →
      Happens s (.resumeContext val) (bitsOf val 1 0 = 0 ∧ s.frameKept f.frame (frameFields f.id f.vf f.kind f.ctx f.gang) = true)
        { s with saved := s.saved.map fun g => if g.frame == f.frame then { g with resumed := true } else g } ∧
      (bitsOf val 1 0 ≠ 1 → exec (.resumeEnd val) s = .next s) ∧
      (bitsOf val 1 0 = 1 → ∃ t, exec (.resumeEnd val) s = .next t ∧
        (f.gang = none → t.saved = s.saved.filter (fun g => g.frame != f.frame) ∧ last t f.core f.vf f.ctx 1 (s.regBits (tffBase + 0x720) 15 0)) ∧
        -- a gang ends whole
        (f.gang.isSome = true → ((s.savedGang f).map (·.core)).Nodup →
          t.saved = s.saved.filter (fun g => !((s.savedGang f).any (·.frame == g.frame))) ∧
          ∀ x ∈ s.savedGang f, last t x.core x.vf x.ctx 1 (s.regBits (tffBase + 0x720) 15 0)))) ∧
    (s.saved.find? (fun f => f.frame == frame) = none → exec (.helperRestore frame) s = .next s) ∧
    (∀ f, s.saved.find? (fun f => f.frame == frame) = some f →
      ((∃ g ∈ s.savedGang f, s.mayPlace g = false) → exec (.helperRestore frame) s = .next s) ∧
      ((∀ g ∈ s.savedGang f, s.mayPlace g = true) → ∃ t, exec (.helperRestore frame) s = .next t ∧ (f.gang = none → f.core < 4096 → ∃ n,
        s.freeSlot f.core = some n ∧ t.saved = s.saved.filter (fun g => g.frame != f.frame) ∧
        (f.redo = [] → (t.ctx (f.core + 4096 * n)).life = .live ∧ (t.ctx (f.core + 4096 * n)).nextIssue = s.cycle)) ∧
        -- a gang goes back whole, with its GANGMASK
        (∀ g, f.gang = some g → ((s.savedGang f).map (·.core)).Nodup → (∀ x ∈ s.savedGang f, x.core < 4096) →
          t.saved = s.saved.filter (fun y => !((s.savedGang f).any (·.frame == y.frame))) ∧
          (∀ x ∈ s.savedGang f, (t.core x.core).gangMask = g.2) ∧
          ((∀ x ∈ s.savedGang f, x.redo = []) → ∀ x ∈ s.savedGang f, ∃ n, s.freeSlot x.core = some n ∧
            (t.ctx (x.core + 4096 * n)).life = .live ∧ (t.ctx (x.core + 4096 * n)).nextIssue = s.cycle ∧
            (t.ctx (x.core + 4096 * n)).hnum = x.ctx.hnum)))) ∧
    (∀ f, s.mayPlace f = true → (f.resumed = true ∨ f.kind = 1) ∧ f.vf = s.resident ∧ (∃ n, s.freeSlot f.core = some n) ∧ s.outbid f.core (s.effOf f.ctx) = false ∧
      ((s.savedGang f).map fun g => g.ctx.window * (if g.ctx.lanes = 0 then 32 else g.ctx.lanes) / 32).sum ≤ s.blocksFree (clusterOf f.core)) ∧
    (c.migrates = none → exec (.migration core slot) s = .next s) ∧
    (∀ h, c.migrates = some h →
      (c.window ≠ 0 ∨ s.engineBusy id = true ∨ s.migTarget c h = none → exec (.migration core slot) s = .next
        (s.modCtx id fun c => { c with migCnt := c.migCnt.map fun (p : Nat × Nat) => (p.1, p.2 / 2) })) ∧
      (∀ k n, c.window = 0 → s.engineBusy id = false → s.migTarget c h = some (k, n) →
        (¬ (s.saveable id = true ∧ (∀ f ∈ s.flights, f.ctx ≠ id) ∧ c.wait.any Wait.outlasts = false) → exec (.migration core slot) s = .next s) ∧
        (s.saveable id = true → (∀ f ∈ s.flights, f.ctx ≠ id) → c.wait.any Wait.outlasts = false → ∃ t, exec (.migration core slot) s = .next t ∧ t.ctxs.find? id = none ∧
          (t.ctx (k + 4096 * n)).hnum = (s.core k).nextHelper ∧ (t.ctx (k + 4096 * n)).regs = c.regs ∧ (t.ctx (k + 4096 * n)).pc = (s.savedCtx id).pc ∧ (c.pend = [] → (s.savedCtx id).pc = c.pc) ∧
          (t.core k).vfid = s.vfOf id ∧ last t core (s.vfOf id) c 2 0))) ∧
    ((∀ d st, c.wait ≠ some (.service d st)) → exec (.syscResult core slot val) s = .next s) ∧
    (∀ d st, c.wait = some (.service d st) → ∃ t, exec (.syscResult core slot val) s = .next t ∧ (t.ctx id).pc = c.pc + 4 ∧ (t.ctx id).wait = none ∧
      (t.ctx id).nextIssue = s.cycle + 1 + st ∧ (d ≠ 0 → (t.ctx id).regAt d = val) ∧ (∀ k, k = 0 ∨ k ≠ d → (t.ctx id).regAt k = c.regAt k) ∧
      (∀ j, j ≠ id → t.ctx j = s.ctx j) ∧ { t with ctxs := s.ctxs } = s) ∧
    exec (.cleozInterrupt core) s = .next (s.modCore core fun c => { c with idleMark := true }) ∧
    exec (.illegalInstruction word) s = .next (s.trap 0x01 (word.setWidth 64))

/-- The states of a launch, completion, chunks and priorities. A failure takes from a launch the ranks that it has
not handed out and its queued runs; a Queued launch becomes Ready when its dependence is met and ends when it
fails; a Draining launch with nothing left ends and frees its clusters; its handle expires 1 ms later while no
launch refers to it; a complete group sets its bit once its word can be reached; a cluster asks for a chunk,
behind the requests of earlier cycles and of lower clusters in its own, and a grant in a later cycle, once every
queue has a free entry, gives the next ranks, split over the cores by column, or over the first members of its
gangs, to their queues; a waiting launch raises its producers, and a raise is withdrawn to what the waits now
give. (R18, R19, R20, R21, R24, R25, R381, R382, R384) -/
def Obligations.LaunchEvents : Prop :=
  ∀ (s : State) (h group cluster die : Nat),
    (s.launch? h = none → exec (.launchReady h) s = .next s ∧ exec (.launchDependenceFail h) s = .next s ∧ exec (.launchEnd h) s = .next s ∧
      exec (.launchHandleExpire h) s = .next s ∧ exec (.groupComplete h group) s = .next s ∧ exec (.chunkRequest cluster h) s = .next s ∧
      exec (.priorityRaise h) s = .next s ∧ exec (.priorityWithdraw h) s = .next s) ∧
    (∀ l, s.launch? h = some l → l.handle = h →
      let holds (t : State) (p : Launch → Prop) : Prop := ∃ m, t.launch? h = some m ∧ p m
      -- the first failure: no more ranks, no queued run on a core or in the image of a function that is switched out
      (∀ code wid, l.failed = false → l.st ≠ .ended → let t := s.failLaunch h code wid
        holds t (fun m => m.failed = true ∧ m.failCode = code ∧ m.pending = [] ∧ ∀ p ∈ m.placed, p.next = p.stop) ∧ t.ctxs = s.ctxs ∧ t.mem = s.mem ∧
        (∀ k, (t.core k).workq = (s.core k).workq.filter fun r => r.handle ≠ h) ∧
        t.images.map (·.vf) = s.images.map (·.vf) ∧ ∀ x ∈ t.images, ∀ p ∈ x.cores, ∀ r ∈ p.2.workq, r.handle ≠ h) ∧
      (∀ code wid, l.failed = true ∨ l.st = .ended → s.failLaunch h code wid = s) ∧
      (¬ (l.st = .queued ∧ s.depMet l = true) → exec (.launchReady h) s = .next s) ∧
      (l.st = .queued → s.depMet l = true → ∃ t, exec (.launchReady h) s = .next t ∧ holds t (fun m => m.st = .ready) ∧ { t with launches := s.launches } = s) ∧
      (¬ (l.st = .queued ∧ s.depFails l = true) → exec (.launchDependenceFail h) s = .next s) ∧
      (l.st = .queued → s.depFails l = true → ∃ t, exec (.launchDependenceFail h) s = .next t ∧
        holds t (fun m => m.st = .ended ∧ m.depFail = true ∧ m.endedAt = s.ptp) ∧ t.ctxs = s.ctxs ∧ t.cores = s.cores ∧
        (l.regions = [] → { t with launches := s.launches } = s)) ∧
      (s.isDrained l = false → exec (.launchEnd h) s = .next s) ∧
      (s.isDrained l = true → ∃ t, exec (.launchEnd h) s = .next t ∧ holds t (fun m => m.st = .ended ∧ m.endedAt = s.ptp) ∧
        (∀ k g, (t.cluster k).held ≠ some (h, g)) ∧ t.ctxs = s.ctxs ∧ t.cores = s.cores) ∧
      Happens s (.launchHandleExpire h) (l.st = .ended ∧ l.endedAt + 1000000 < s.ptp ∧ ∀ c ∈ s.launches, c.mode ≠ 0 → c.producer = h → c.st = .ended)
        { s with launches := s.launches.filter (·.handle ≠ h) } ∧
      (l.completes group = false ∨ l.groups l.clevel ≤ group ∨ s.bitReached l group = false → exec (.groupComplete h group) s = .next s) ∧
      -- R73: the word of the bit can be reached
      (l.bitmap = 0 → s.bitReached l group = true) ∧
      (∀ v x, l.bitmap ≠ 0 → s.translate l.core l.vf l.asid l.priv (l.bitmap.toNat + 8 * (group / 64)) accStore = (v, .ok x) →
        (s.bitReached l group = true ↔ isRemoteKey x.key = false ∨ (s.routeTo (keyDev x.key)).isSome = true)) ∧
      (l.completes group = true → group < l.groups l.clevel → s.bitReached l group = true →
        let u := (s.clusters.map (·.1)).foldl (fun s c => s.writeBack c (fun _ => true) false) s
        (l.bitmap = 0 → ∃ t, exec (.groupComplete h group) s = .next t ∧ holds t (fun m => m.bits = l.bits ++ [group])) ∧
        (∀ v x, memWf s.mem = true → l.bitmap ≠ 0 → u.translate l.core l.vf l.asid l.priv (l.bitmap.toNat + 8 * (group / 64)) accStore = (v, .ok x) →
          ∃ t, exec (.groupComplete h group) s = .next t ∧ (t.read64 x.key).getLsbD (group % 64) = true ∧ holds t (fun m => m.bits = l.bits ++ [group])) ∧
        (∀ v f, l.bitmap ≠ 0 → u.translate l.core l.vf l.asid l.priv (l.bitmap.toNat + 8 * (group / 64)) accStore = (v, .error f) →
          exec (.groupComplete h group) s = .next (v.failLaunch h (0x0100 + f.cause) none))) ∧
      Happens s (.chunkRequest cluster h) (s.wantsChunk cluster l = true)
        (s.modDie (cluster / 128) fun d =>
          let before (x : Nat × Nat × Nat) : Bool := decide (x.1 < s.cycle ∨ x.2.1 ≤ cluster)
          { d with requests := d.requests.takeWhile before ++ (s.cycle, cluster, h) :: d.requests.dropWhile before }) ∧
      (let hs := (s.chain 8 l).filter fun k => (s.launch? k).any fun p => decide (p.eff < l.prio)
       (hs = [] → exec (.priorityRaise h) s = .next s) ∧
       (hs ≠ [] → ∃ t, exec (.priorityRaise h) s = .next t ∧ (∀ k ∈ hs, ∃ m, t.launch? k = some m ∧ m.eff = l.prio) ∧
         (∀ k, k ∉ hs → t.launch? k = s.launch? k))) ∧
      (∃ t, exec (.priorityWithdraw h) s = .next t ∧ holds t (fun m => m.eff = min l.eff (s.wanted l)) ∧ { t with launches := s.launches } = s)) ∧
    ((s.die die).requests = [] → exec (.chunkGrant die) s = .next s) ∧
    (s.switching = true → exec (.chunkGrant die) s = .next s) ∧
    (∀ at_ cl rest, (s.die die).requests = (at_, cl, h) :: rest → s.replaying = false → s.cycle ≤ at_ → exec (.chunkGrant die) s = .next s) ∧
    (∀ at_ cl rest, (s.die die).requests = (at_, cl, h) :: rest → s.switching = false → s.replaying = false → at_ < s.cycle →
      let pop := s.modDie die fun d => { d with requests := rest }
      (s.launch? h = none → exec (.chunkGrant die) s = .next pop) ∧
      (∀ l, s.launch? h = some l → s.servedBy l cl = none → exec (.chunkGrant die) s = .next pop) ∧
      (∀ l p, s.launch? h = some l → s.servedBy l cl = some p → p.stop ≤ p.next ∨ l.failed = true → exec (.chunkGrant die) s = .next pop) ∧
      (∀ l p, s.launch? h = some l → s.servedBy l cl = some p → p.next < p.stop → l.failed = false →
        (∃ k ∈ servingCores l cl, 16 ≤ (s.core k).workq.length) → exec (.chunkGrant die) s = .next s) ∧
      (∀ l p, s.launch? h = some l → s.servedBy l cl = some p → p.next < p.stop → l.failed = false → l.gang = false →
        (∀ k ∈ servingCores l cl, (s.core k).workq.length < 16) →
        let left := p.stop - p.next
        let a := s.serversOn die l
        let n := min left (max l.minChunk ((left + 2 * a - 1) / (2 * a)))
        0 < n → ∃ t, exec (.chunkGrant die) s = .next t ∧ (t.die die).requests = rest ∧
          (∀ j, j < 8 → let k := cl / 128 * 1024 + cl % 128 / 4 * 32 + cl % 4 * 8 + j
            let m := n / 8 + if j < n % 8 then 1 else 0
            (t.core k).workq = (s.core k).workq ++ (if m = 0 then [] else [{ handle := h, first := p.next + j * (n / 8) + min j (n % 8), count := m }]))) ∧
      -- a gang launch: the queue of each gang’s first member gets its share, and no other core a run
      (∀ l p, s.launch? h = some l → s.servedBy l cl = some p → p.next < p.stop → l.failed = false → l.gang = true → 2 ≤ l.gangLen → l.gangLen ≤ 8 →
        (∀ k ∈ servingCores l cl, (s.core k).workq.length < 16) →
        let left := p.stop - p.next
        let a := s.serversOn die l
        let n := min left (max l.minChunk ((left + 2 * a - 1) / (2 * a)))
        let gangs := 8 / l.gangLen
        let first (j : Nat) : Nat := cl / 128 * 1024 + cl % 128 / 4 * 32 + cl % 4 * 8 + j * l.gangLen
        0 < n → ∃ t, exec (.chunkGrant die) s = .next t ∧ (t.die die).requests = rest ∧
          (∀ j, j < gangs →
            let m := n / gangs + if j < n % gangs then 1 else 0
            (t.core (first j)).workq = (s.core (first j)).workq ++
              (if m = 0 then [] else [{ handle := h, first := p.next + j * (n / gangs) + min j (n % gangs), count := m }])) ∧
          ∀ k, (∀ j < gangs, k ≠ first j) → (t.core k).workq = (s.core k).workq))

/-- Placement, serving clusters, pre-emption and slices. A die gives a set to the launch that wins: a suspended
group takes its clusters back, and a new one makes its launch Active, its clusters held with the launch’s split;
SERVE sets and clears the serving bits, a held cluster serving until it is free; a pre-emption saves every
helper of its set with the cause pre-empted, and with it the matrix state of its core and, where the split
changes, the scratchpad of its cluster; a slice ends at its quantum or early, and a switch makes the next
virtual function resident, with its own contexts and actors or none, while each core keeps its end records and
helper numbers; no set, chunk or pre-emption is given while a switch is under way. What a table of one entry
does (its virtual function made resident and fed its inbound messages, or a switch begun where it names another
one) is log entry 47 (DEDUCED), which set is pre-empted log entry 45 (DEDUCED). (R22, R23, R65, R383, R385,
R389, R390, R391, R427) -/
def Obligations.SchedulerEvents : Prop :=
  ∀ (s : State) (die word cluster : Nat) (val : W64),
    let stat := schBase + 0x18
    let best := winner (s.waitingLaunches.filter fun l => (s.grantable die l).isSome)
    (best = none ∨ s.switching = true → exec (.placementGrant die) s = .next s) ∧
    (∀ l p, s.switching = false → best = some l → s.grantable die l = some (true, p) → exec (.placementGrant die) s = .next (s.retakeSet l.handle p)) ∧
    (∀ l p, s.switching = false → best = some l → s.grantable die l = some (false, p) → ∃ t, exec (.placementGrant die) s = .next t ∧
      (l.bitmap = 0 → l.gang = false → (∃ m, t.launch? l.handle = some m ∧ m.st = .active ∧ p ∈ m.placed) ∧
        ∀ c ∈ p.clusters, (t.cluster c).held = some (l.handle, p.group) ∧ (t.cluster c).split = l.split)) ∧
    (s.cleozRuns = false ∨ 8 ≤ word → exec (.serveWrite word val) s = .next s) ∧
    (s.cleozRuns = true → word < 8 → ∃ t, exec (.serveWrite word val) s = .next t ∧ t.reg (schBase + 0x40 + 8 * word) = val ∧
      (∀ k, k / 64 ≠ word → t.cluster k = s.cluster k) ∧ ∀ i, i < 64 →
        let c := s.cluster (64 * word + i)
        let d := t.cluster (64 * word + i)
        (val.getLsbD i = true → d.serving = true ∧ d.withdraw = false) ∧
        (val.getLsbD i = false → c.serving = false ∨ c.held = none → d.serving = false) ∧
        (val.getLsbD i = false → c.serving = true → c.held ≠ none → d.serving = true ∧ d.withdraw = true)) ∧
    Happens s (.serveWithdraw cluster) ((s.cluster cluster).withdraw = true ∧ (s.cluster cluster).held = none)
      (s.modCluster cluster fun c => { c with serving := false, withdraw := false }) ∧
    (s.preempt? die = none ∨ s.switching = true → exec (.preemption die) s = .next s) ∧
    (∀ l p, s.switching = false → s.preempt? die = some (l, p) → (s.setReady p.clusters = false → exec (.preemption die) s = .next s) ∧
      (s.setReady p.clusters = true → ∃ t, exec (.preemption die) s = .next t ∧
        ∀ id ∈ s.helpersOn p.clusters, ∃ f ∈ t.saved, f.id = id ∧ f.kind = 1 ∧ f.mat = true ∧ f.pad = decide ((s.cluster (clusterOf (coreOf id))).split ≠ l.split))) ∧
    (let going := s.regBits stat 8 8 = 1
     let len := 1000 * max 5000 (bitsOf s.sliceWord 39 8)
     let begun : State := match s.quanta with
       | [] => s
       | [p] => if s.noVf = true ∨ bitsOf p.2 4 0 = s.resident
         then (({ s with quantum := p.1, sliceWord := p.2 } : State).setResident (bitsOf p.2 4 0)).feedInbound (bitsOf p.2 4 0) else s.setRegBits stat 8 8 1
       | _ => s.setRegBits stat 8 8 1
     Happens s .quantumExpire (¬ going ∧ (s.noVf = true ∨ s.sliceFrom + len ≤ s.ptp)) begun ∧
     Happens s .earlySliceEnd (¬ going ∧ bitsOf s.sliceWord 5 5 = 1 ∧ s.sliceBusy = false ∧ s.idleFrom + 100000 ≤ s.ptp) begun ∧
     (s.noVf = true → s.nextQuantum = s.quanta.head?) ∧ (¬ going ∨ s.maySwitch = false → exec .sliceSwitch s = .next s) ∧
     (going → s.maySwitch = true → s.nextQuantum = none → exec .sliceSwitch s = .next (s.setRegBits stat 8 8 0)) ∧
     (∀ i w, going → s.maySwitch = true → s.nextQuantum = some (i, w) →
       let vf := bitsOf w 4 0
       let away := s.noVf = true ∨ vf ≠ s.resident
       ∃ t, exec .sliceSwitch s = .next t ∧ t.quantum = i ∧ t.sliceWord = w ∧ t.sliceFrom = s.ptp ∧ t.noVf = false ∧ t.regBits stat 4 0 = vf ∧
         t.regBits stat 8 8 = 0 ∧ t.inbound.get vf [] = [] ∧
         -- R200, R205: end records and helper numbers stay the core’s
         (∀ k, (t.core k).ends = (s.core k).ends ∧ (t.core k).nextHelper = (s.core k).nextHelper) ∧
         (away → s.images.find? (fun x => x.vf == vf) = none → t.ctxs = [] ∧ t.moors = [] ∧ t.settling = [] ∧ t.flights = s.flights.filter Flight.isForeign) ∧
         (∀ x, away → s.images.find? (fun x => x.vf == vf) = some x → x.redo = [] → t.moors = x.moors ∧ t.settling = x.settling ∧
           t.flights = s.flights.filter Flight.isForeign ∧
           (∀ id, x.ctxs.find? id = none → t.ctxs.find? id = none) ∧
           (∀ id c, x.ctxs.find? id = some c →
             let d : Ctx := if c.life = .live then c.resumed s.cycle else c
             t.ctx id = d))))

/-- Messages at a slice, mooring, lay-up, shifts, classes and directories. A message that arrives is refused and
counted when its class is not in use, enters the slice when there is a place, and else stops the slice’s input,
which raises an interrupt after 100 µs; mooring brings the state into the berth and its messages into the
mailbox; a handled slot is emptied and takes the next chamber message; the actor idle longest is reserved and
laid up, with its record in its directory, or the directory is held for growth and the operations that meet it
keep their order; an idle limit makes an actor eligible; a shift moves state and messages in order; class and
directory commands do what they say. That one actor of a core is reserved at a time, and the order in which a
directory that was held performs its operations, are log entry 56 (DESIGN CHOICE); that a class record which
fails R366 clears GO and registers nothing is log entry 49 (DEDUCED). (R38, R40, R41, R42, R43, R44, R46, R49,
R51, R366, R413, R414) -/
def Obligations.ActorEvents : Prop :=
  ∀ (s : State) (slice core cls dir : Nat) (key : W64),
    ((s.slice slice).input = [] → exec (.messageArrive slice) s = .next s) ∧
    (∀ m rest, (s.slice slice).input = m :: rest →
      (s.classFor m.vf m.cls = none → ∃ t, exec (.messageArrive slice) s = .next t ∧ (t.slice slice).input = rest ∧
        (m.origin = 0 → (t.cluster (clusterOf (coreOf m.srcCtx))).refused = (s.cluster (clusterOf (coreOf m.srcCtx))).refused + 1) ∧ t.moors = s.moors) ∧
      (∀ r, s.classFor m.vf m.cls = some r →
        (s.hasPlace slice m = true → ∃ t, exec (.messageArrive slice) s = .next t ∧ (t.slice slice).input = rest ∧ (t.slice slice).stoppedAt = none ∧
          (∀ e, s.moor? m.cls m.key = some e → e.st ≠ .moored → ∃ f, t.moor? m.cls m.key = some f ∧ f.chamber = e.chamber ++ [m] ∧ f.mailbox = e.mailbox ∧ f.eligible = none) ∧
          (∀ e, s.moor? m.cls m.key = some e → e.st = .moored → ∃ f, t.moor? m.cls m.key = some f ∧ f.eligible = none ∧
            (f.mailbox.map (·.2.2)) ++ f.chamber = (e.mailbox.map (·.2.2)) ++ e.chamber ++ [m])) ∧
        (s.hasPlace slice m = false → Happens s (.messageArrive slice) ((s.slice slice).stoppedAt = none)
          (s.modSlice slice fun x => { x with stoppedAt := some s.ptp })))) ∧
    ((s.slice slice).stoppedAt = none → exec (.sliceInputStallAlert slice) s = .next s) ∧
    (∀ t, (s.slice slice).stoppedAt = some t → Happens s (.sliceInputStallAlert slice) (t + 100000 ≤ s.ptp)
      (if s.interrupts.contains (.sliceInput slice) then s else { s with interrupts := s.interrupts ++ [.sliceInput slice] })) ∧
    (s.moor? cls key = none → exec (.mooringComplete cls key) s = .next s ∧ exec (.mailboxSlotFreed cls key) s = .next s ∧
      exec (.unmoorOrder cls key) s = .next s ∧ exec (.unmoorComplete cls key) s = .next s ∧ exec (.idleLimitExpire cls key) s = .next s ∧
      exec (.shiftComplete cls key) s = .next s) ∧
    ((s.wantsSpace core = false ∨ s.oldestIdle core = none) → exec (.layupRequest core) s = .next s) ∧
    (∀ m, s.wantsSpace core = true → s.oldestIdle core = some m → exec (.layupRequest core) s = .next (s.setMoor { m with reserved := true })) ∧
    (∀ m, s.moor? cls key = some m →
      let is (t : State) (p : Moor → Prop) : Prop := ∃ n, t.moor? cls key = some n ∧ p n
      (∀ r, s.class? cls = some r →
        (let u := if m.chosen.isSome = true then s.findBerth m else (s, m)
         (m.st ≠ .mooring → exec (.mooringComplete cls key) s = .next s) ∧
         (m.st = .mooring → u.2.berth = none → exec (.mooringComplete cls key) s = .next u.1) ∧
         (∀ c o, m.st = .mooring → u.2.berth = some (c, o) →
           (u.1.dirHeld r.dir = true → exec (.mooringComplete cls key) s = .next ((u.1.setMoor u.2).holdOp u.2)) ∧
           (u.1.dirHeld r.dir = false → u.1.dirTurn r.dir u.2.held = false ∨ u.1.stateHere r u.2 = false → exec (.mooringComplete cls key) s = .next (u.1.setMoor u.2)) ∧
           (u.1.dirHeld r.dir = false → u.1.dirTurn r.dir u.2.held = true → u.1.stateHere r u.2 = true → ∃ t, exec (.mooringComplete cls key) s = .next t ∧
             is t (fun n => n.st = .moored ∧ n.berth = some (c, o) ∧ n.held = none ∧
               (n.mailbox.map (·.2.2)) ++ n.chamber = (m.mailbox.map (·.2.2)) ++ m.chamber)))) ∧
        (m.st ≠ .unmooring ∨ m.berth = none → exec (.unmoorComplete cls key) s = .next s) ∧
        (∀ b, m.st = .unmooring → m.berth = some b →
          (s.dirHeld r.dir = true → exec (.unmoorComplete cls key) s = .next (s.holdOp m)) ∧
          (s.dirHeld r.dir = false → s.dirTurn r.dir m.held = false → exec (.unmoorComplete cls key) s = .next s) ∧
          (s.dirHeld r.dir = false → s.dirTurn r.dir m.held = true → s.dirFree r.dir cls key = none →
            exec (.unmoorComplete cls key) s = .next ((s.growDir r.dir).holdOp m))) ∧
        (∀ c o k, m.st = .unmooring → s.dirHeld r.dir = false → s.dirTurn r.dir m.held = true → m.berth = some (c, o) → s.dirFree r.dir cls key = some k →
          m.chamber = [] → (s.slice (homeMooring cls key)).admission = [] → ∃ t, exec (.unmoorComplete cls key) s = .next t ∧
          t.moor? cls key = none ∧
          ((∀ x ∈ s.moors, x.st = .mooring → x.berth.isSome = true ∨ x.chosen.isSome = true) → t.mem = (s.layUp r m (localKey c o) k).mem)) ∧
        Happens s (.idleLimitExpire cls key) (m.st = .moored ∧ m.busy = false ∧ m.mailbox = [] ∧ m.chamber = [] ∧ m.eligible = none ∧
            r.idle ≠ 0 ∧ m.lastBusy + 1000 * r.idle.toNat ≤ s.ptp)
          ((s.setMoor { m with eligible := some s.ptp }).retryMoorings ((m.berth.map (·.1)).getD 4096))) ∧
      (m.busy = false ∨ s.handling m = true → exec (.mailboxSlotFreed cls key) s = .next s) ∧
      (∀ i c o, m.busy = true → s.handling m = false → m.handled = some i → m.berth = some (c, o) → ∃ t, exec (.mailboxSlotFreed cls key) s = .next t ∧
        is t (fun n => n.busy = false ∧ n.handled = none ∧ n.eligible = m.eligible ∧ (n.mailbox.map (·.2.2)) ++ n.chamber = (m.mailbox.map (·.2.2)) ++ m.chamber) ∧ (m.chamber = [] → t.isFull (slotKey c o m.size i) = false)) ∧
      (m.reserved = false → exec (.unmoorOrder cls key) s = .next s) ∧
      (m.reserved = true → exec (.unmoorOrder cls key) s = .next (s.setMoor
        (if m.st = .moored ∧ m.eligible.isSome = true ∧ m.busy = false ∧ m.mailbox = [] ∧ m.chamber = []
         then { m with st := .unmooring, reserved := false } else { m with reserved := false }))) ∧
      (m.st ≠ .shifting ∨ m.busy = true ∨ m.berth = none ∨ m.target = none → exec (.shiftComplete cls key) s = .next s) ∧
      (∀ p q, m.st = .shifting → m.busy = false → m.berth = some p → m.target = some q → ∃ t, exec (.shiftComplete cls key) s = .next t ∧
        is t (fun n => n.st = .moored ∧ n.berth = some q ∧ n.target = none ∧ n.lastBusy = m.lastBusy ∧ n.eligible = m.eligible ∧
          (n.mailbox.map (·.2.2)) ++ n.chamber = (m.mailbox.map (·.2.2)) ++ m.chamber))) ∧
    (s.clsGoing 1 cls = false → exec (.classRegister cls) s = .next s) ∧
    (s.clsGoing 1 cls = true → ∃ t, exec (.classRegister cls) s = .next t ∧ t.clsGoing 1 cls = false ∧
      let w (i : Nat) : W64 := s.read64 (s.regBits (moorBase + 0x800) 51 6 * 64 + 64 * cls + 8 * i)
      t.classes = match s.classResolves w with
        | some k => if classOk w cls = true ∧ s.class? cls = none then s.classes ++ [classRec w cls k] else s.classes
        | none => s.classes) ∧
    (s.clsGoing 2 cls = false → exec (.classWithdraw cls) s = .next s) ∧
    (s.clsGoing 2 cls = true → ∃ t, exec (.classWithdraw cls) s = .next t ∧ (∀ vf, t.classFor vf cls = none) ∧ t.moors = s.moors) ∧
    (s.class? cls = none → exec (.classWithdrawDone cls) s = .next s) ∧
    (∀ r, s.class? cls = some r → Happens s (.classWithdrawDone cls)
      (r.leaving = true ∧ (∀ m ∈ s.moors, m.cls ≠ cls) ∧ ∀ x ∈ s.images, ∀ m ∈ x.moors, m.cls ≠ cls)
      (({ s with classes := s.classes.filter (·.num ≠ cls) } : State).setRegBits clscmd 63 63 0)) ∧
    (64 ≤ dir → exec (.directoryResume dir) s = .next s) ∧
    (dir < 64 → ∃ t, exec (.directoryResume dir) s = .next t ∧ t.dirHeld dir = false ∧ t.mem = s.mem ∧ .directory dir ∉ t.interrupts)

/-- Ethernet, Towline and CXL. A frame at an enabled port goes, in the order of R376, to the RoCE engine, to the
actor port that owns its destination, to the timing unit, or to Cleoz; a port that is enabled starts without
routes; a remote message for this module enters its slice when its virtual function is resident, waits within
the inbound quota when not, and is refused beyond it; a trained Towline port is up with at least four working
lanes, down and reported when its partner names this module (whether a number that another port reports is the
same partner is free, log entry 61); a Type 3 expander trains at 64 or 32 GT/s, above those trained before it; a
CXL link that goes down poisons its words. RDMA WRITE and SEND put their data into memory, RDMA READ answers
with it in parts of the path MTU; an actor datagram is dropped and counted for a cause of R53, or becomes a
message with its client in the route table. Not the rules’ but the model’s: that a datagram to port 4791 which
is no RoCE request is dropped and one of a family that the port does not accept is passed on, and RoCE’s
addressing, and that a request for another module’s memory to which no route is up is dropped (log entry 50,
DEDUCED); which cause of several is counted and the client tag’s byte order (log entry 61, DESIGN CHOICE);
training in stages 2 and 3 (log entry 4); CXL ranges above those trained before (log entry 18), of
1,512,000,000,000 bytes (log entry 21). (R53, R54, R55, R56, R79, R376, R377, R378) -/
def Obligations.PortEvents : Prop :=
  ∀ (s : State) (port phys target lanes partner rate kind : Nat) (f : Frame) (m : Msg),
    let e := s.ethPort port
    let live := s.boot.stage = 2 ∨ s.boot.stage = 3
    let roceFrame := f.isUdp = true ∧ f.dstPort = 4791
    let actor := (∃ vf p, List.find? (fun (x : Nat × Nat) => x.2 == f.dstPort) s.udpPorts = some (vf, p)) ∧ f.isUdp = true ∧
      (if f.ipv6 then e.ipv6 else e.ipv4) = true
    (e.enabled = false → exec (.ethernetFrame port f) s = .next s) ∧
    (e.enabled = true →
      (∀ r, roceFrame → f.roce = some r → exec (.ethernetFrame port f) s = .next (s.roce port f r)) ∧
      (roceFrame → f.roce = none → exec (.ethernetFrame port f) s = .next (s.ethDrop port .roce)) ∧
      (∀ vf p, ¬ roceFrame → f.isUdp = true → (if f.ipv6 then e.ipv6 else e.ipv4) = true →
        List.find? (fun (x : Nat × Nat) => x.2 == f.dstPort) s.udpPorts = some (vf, p) →
        exec (.ethernetFrame port f) s = .next (s.datagram port vf f)) ∧
      (¬ roceFrame → ¬ actor → f.isPtp = true → exec (.ethernetFrame port f) s = .next { s with timing := s.timing ++ [(port, f, s.ptp)] }) ∧
      (¬ roceFrame → ¬ actor → f.isPtp = false → exec (.ethernetFrame port f) s = .next { s with toCleoz := s.toCleoz ++ [f] })) ∧
    -- the RoCE engine
    (∀ r : RoceReq,
      let t := s.roce port f r
      let write := r.verb ≠ 2
      (s.queuePairs.find? (fun q => q.num == r.queuePair) = none → t = s.ethDrop port .roce) ∧
      (∀ q, s.queuePairs.find? (fun q => q.num == r.queuePair) = some q →
        let bad : Prop := r.reliable = false ∨ 2 < r.verb ∨ 2 ^ 52 < r.addr.toNat + r.data.length
        let pages := s.rocePages q.vf q.asid (if r.verb = 2 then accERead else accEWrite) (chunks r.addr.toNat r.data.length)
        (bad → t = s.ethDrop port .roce) ∧ (¬ bad → write → q.mtu < r.data.length → t = s.ethDrop port .mtu) ∧
        (∀ u, ¬ bad → ¬ (write ∧ q.mtu < r.data.length) → pages = (u, none) → t = u.ethDrop port .roce) ∧
        -- R73: another module's memory lies behind a route
        (∀ u ps, ¬ bad → ¬ (write ∧ q.mtu < r.data.length) → pages = (u, some ps) →
          (∃ p ∈ ps, isRemoteKey p.1 = true ∧ s.routeTo (keyDev p.1) = none) → t = u.ethDrop port .roce) ∧
        (∀ u ps, ¬ bad → ¬ (write ∧ q.mtu < r.data.length) → pages = (u, some ps) →
          (∀ p ∈ ps, isRemoteKey p.1 = true → (s.routeTo (keyDev p.1)).isSome = true) →
          (write → { t with mem := u.mem, poison := u.poison } = u ∧ (memWf u.mem = true → (byteKeys ps).Nodup →
            (∀ i k, (byteKeys ps)[i]? = some k → memGet t.mem k = r.data.getD i 0) ∧ ∀ k, k ∉ byteKeys ps → memGet t.mem k = memGet u.mem k)) ∧
          (¬ write → { t with sent := u.sent, fresh := u.fresh } = u ∧ ∃ new, t.sent = u.sent ++ new ∧
            (∀ x ∈ new, x.port = port ∧ x.addr = f.srcAddr ∧ x.dport = 4791 ∧ x.vf = q.vf ∧ x.bytes.length ≤ q.mtu) ∧
            (0 < q.mtu → (new.flatMap (·.bytes)).length = (byteKeys ps).length ∧
              ∀ i k, (byteKeys ps)[i]? = some k → u.isPoisoned k = false → (new.flatMap (·.bytes)).getD i 0 = memGet u.mem k))))) ∧
    -- its pages: the leaf allows the access, and A, with D for a write, is set in it
    (∀ vf asid a n acc,
      (∀ l i k, s.walk vf asid a = .stop l i k → s.rocePages vf asid acc [(a, n)] = (s, none)) ∧
      (∀ pte at_ shift, s.walk vf asid a = .leaf pte at_ shift →
        (leafAllows pte acc false = false → s.rocePages vf asid acc [(a, n)] = (s, none)) ∧
        (leafAllows pte acc false = true →
          let new := pte ||| 0x40 ||| (if acc.w then 0x80 else 0)
          (new = pte → s.rocePages vf asid acc [(a, n)] = (s, some [((leafXl new shift a).key, n)])) ∧
          (new ≠ pte → (s.recall at_).read64 at_ = pte →
            s.rocePages vf asid acc [(a, n)] = ((s.recall at_).write64 at_ new, some [((leafXl new shift a).key, n)])))) ∧
      (∀ u ks, s.rocePages vf asid acc [(a, n)] = (u, some ks) → OnlyTables s u ∧ State.WalkMarks u vf asid a acc s.dirtyLines s)) ∧
    -- actor datagrams
    (∀ vf,
      let b (i : Nat) : Nat := (f.payload.getD i 0).toNat
      let tag := b 12 + 256 * b 13 + 65536 * b 14 + 16777216 * b 15
      let cls := 256 * b 0 + b 1
      let why : Option EthDrop := if f.udpLen ≠ 24 + b 2 ∨ f.payload.length ≠ 16 + b 2 then some .length
        else if 96 < b 2 then some .payload else if b 3 ≠ 0 then some .flags else if cls = 0xFFFF then some .netClass
        else if s.classFor vf cls = none then some .noClass else none
      let t := s.datagram port vf f
      (∀ x, why = some x → t = s.ethDrop port x) ∧
      (why = none → ∃ (i : Nat) (m : Msg),
        m.key = BitVec.ofNat 64 ((List.range 8).map fun j => b (4 + j) * 256 ^ (7 - j)).sum ∧ m.cls = cls ∧ m.srcCtx = 0xF000 + port ∧ m.phase = 0 ∧ m.origin = 2 ∧
        m.replyKey = BitVec.ofNat 64 (65536 * port + i + 2 ^ 32 * tag) ∧ m.vf = vf ∧ m.payload = f.payload.drop 16 ∧
        (t.ethPort port).routes.find? i = some { addr := f.srcAddr, ipv6 := f.ipv6, port := f.srcPort, used := s.arrival + 1 } ∧
        (∀ j, j ≠ i → (t.ethPort port).routes.find? j = e.routes.find? j) ∧
        -- its own entry, else one that was never used, else one unused longest
        ((∃ x, (i, x) ∈ e.routes ∧ x.addr = f.srcAddr ∧ x.ipv6 = f.ipv6 ∧ x.port = f.srcPort) ∨
          ((∀ p ∈ e.routes, ¬ (p.2.addr = f.srcAddr ∧ p.2.ipv6 = f.ipv6 ∧ p.2.port = f.srcPort)) ∧
            ((e.routes.length < 65536 ∧ i = e.routes.length) ∨
              (65536 ≤ e.routes.length ∧ ∃ x, (i, x) ∈ e.routes ∧ ∀ p ∈ e.routes, x.used ≤ p.2.used)))) ∧
        t.mem = s.mem ∧
        (vf = s.resident → (t.slice (homeMooring cls m.key)).input = (s.slice (homeMooring cls m.key)).input ++ [m] ∧ t.inbound = s.inbound) ∧
        (vf ≠ s.resident → t.slices = s.slices ∧
          ((s.inbound.get vf []).length < s.inboundQuota vf → t.inbound.get vf [] = s.inbound.get vf [] ++ [m]) ∧
          (s.inboundQuota vf ≤ (s.inbound.get vf []).length → t.inbound = s.inbound ∧
            List.find? (fun d => d.1 == EthDrop.quota) (t.ethPort port).drops = List.find? (fun d => d.1 == EthDrop.quota) ((s.ethDrop port .quota).ethPort port).drops)))) ∧
    -- a drop is counted by its cause
    (∀ x, { s.ethDrop port x with eth := s.eth } = s ∧ List.find? (fun d => d.1 == x) ((s.ethDrop port x).ethPort port).drops =
      some (x, (match List.find? (fun d => d.1 == x) e.drops with
        | some d => d.2 + 1
        | none => 1))) ∧
    (2 ≤ phys ∨ s.boot.stage ≠ 3 → ∀ k, exec (.ethernetPortEnable phys k) s = .next s) ∧
    (phys < 2 → s.boot.stage = 3 → ∃ t u, exec (.ethernetPortEnable phys 0) s = .next t ∧ exec (.ethernetPortEnable phys 1) s = .next u ∧
      (t.ethPort (2 * phys)).enabled = true ∧ (t.ethPort (2 * phys)).routes = [] ∧ (t.ethPort (2 * phys + 1)).enabled = false ∧
      (u.ethPort (2 * phys)).enabled = true ∧ (u.ethPort (2 * phys + 1)).enabled = true ∧ (u.ethPort (2 * phys + 1)).routes = [] ∧
      { t with eth := s.eth } = s ∧ { u with eth := s.eth } = s) ∧
    (target ≠ s.device ∨ s.boot.stage ≠ 3 ∨ 32 ≤ m.vf → exec (.towlineMessage m target) s = .next s) ∧
    (let n := { m with origin := 1 }
     let room := (s.inbound.get m.vf []).length < s.inboundQuota m.vf
     s.boot.stage = 3 → m.vf < 32 →
       (m.vf = s.resident → exec (.towlineMessage m s.device) s = .next (s.modSlice (homeMooring m.cls m.key) fun x => { x with input := x.input ++ [n] })) ∧
       (m.vf ≠ s.resident → Happens s (.towlineMessage m s.device) room { s with inbound := s.inbound.put m.vf (s.inbound.get m.vf [] ++ [n]) })) ∧
    (16 ≤ port ∨ ¬ live → exec (.towlineTrain port lanes partner) s = .next s ∧ exec (.cxlPortTrain port rate kind) s = .next s) ∧
    (port < 16 → live → ∃ t, exec (.towlineTrain port lanes partner) s = .next t ∧ { t with tow := s.tow, fresh := s.fresh } = s ∧
      (∀ p, p ≠ port → t.towPort p = s.towPort p) ∧
      (t.towPort port).partner = partner ∧ (t.towPort port).lanes = (if lanes = 8 then 8 else if 4 ≤ lanes then 4 else 0) ∧
      ((t.towPort port).seen = true ↔ (s.towPort port).seen = true ∨ (t.towPort port).up = true) ∧
      (lanes < 4 → (t.towPort port).up = false) ∧ (partner = s.device → (t.towPort port).up = false ∧ (t.towPort port).report = true) ∧
      ((t.towPort port).report = true → (t.towPort port).up = false) ∧
      (partner ≠ s.device → (∀ p ∈ s.tow, p.1 ≠ port → p.2.up = true → p.2.partner ≠ partner) →
        (t.towPort port).report = false ∧ ((t.towPort port).up = true ↔ lanes = 8 ∨ 4 ≤ lanes))) ∧
    (16 ≤ port → exec (.towlineRouteDown port) s = .next s) ∧
    (port < 16 → ∃ t, exec (.towlineRouteDown port) s = .next t ∧ (t.towPort port).up = false ∧
      (∀ p, p ≠ port → t.towPort p = s.towPort p) ∧ { t with tow := s.tow } = s) ∧
    (let c := s.cxl.get port {}
     (4 ≤ port ∨ c.trained = true ∨ c.failed = true → exec (.cxlPortTrain port rate kind) s = .next s) ∧
     (port < 4 → live → c.trained = false → c.failed = false → exec (.cxlPortTrain port rate kind) s = .next { s with
        cxl := s.cxl.put port { trained := decide (kind = 3 ∧ (rate = 64 ∨ rate = 32)), rate := rate, fallback := decide (kind = 3 ∧ rate = 32), base := s.cxlSize, failed := false } }) ∧
     (c.trained = false ∨ c.failed = true → exec (.cxlLinkDown port) s = .next s) ∧
     (c.trained = true → c.failed = false → ∃ t, exec (.cxlLinkDown port) s = .next t ∧ (t.cxl.get port {}).failed = true ∧ t.mem = s.mem ∧
       ∀ k, t.isPoisoned k = (s.isPoisoned k || (decide (cxlKey c.base ≤ k / 8 * 8) && decide (k / 8 * 8 < cxlKey (c.base + 1512000000000))))))

/-- Boot, attestation, heat, keys, the journal and administration writes. A reset keeps fuses and the attestation
counter and returns to stage 0; the ROM boots the first copy that passes every check of R373 and else halts with
the code of copy B (which code where several slots match its key, and which images have signatures that verify,
are the model’s choice, log entry 17); the stages follow in order, the first stage verifying Cleoz with the key
that it brings, and the release of the compute dies leaving what Cleoz set of their clusters; an attestation
claims the index that the counter leaves, at most 2^20 times, and then signs a report with it, by a signature
that carries the index and verifies under the attestation key (which of those is free, log entry 17); the fused
minimum only rises; a trip holds the module in reset until the I3C reset, and takes no register write till then;
a throttle step moves a die’s duty by one eighth every 100 µs, never below one eighth (the model’s choice, log
entry 51); the journal starts anew at offset 0 with COUNT and OVF 0 (the model’s choice, log entry 49); keys are
generated, destroyed and zeroised; these commands, the journal’s and register writes are taken while Cleoz runs;
receive slots of a port that has been up are reserved up to 1,024 a port; a write to a read-only, unaligned or
absent register has no effect, and a load that is no aligned 64-bit load of privileged code on a system core
reads all ones. (R372, R373, R374, R375, R380, R388, R393, R394, R410, R412, R421, R425) -/
def Obligations.BootAndAdministration : Prop :=
  ∀ (s : State) (svn temp die excess slot addr : Nat) (val : W64),
    let b := s.boot
    let mine (i : Image) (k : KeySlot) : Prop := k ∈ b.slots ∧ k.digest = some (Machine.keyDigest i.key)
    let good (i : Image) : Prop := i.readable = true ∧ i.sigOk = true ∧ b.minSvn ≤ i.svn.toNat
    let passes (i : Image) : Prop := good i ∧ ∃ k, mine i k ∧ k.revoked = false
    let trusted := good b.cleoz ∧ b.trusted = Machine.keyDigest b.cleoz.key
    let A := b.images.getD 0 {}
    let B := b.images.getD 1 {}
    let isReset (t : State) : Prop := t.ctxs = [] ∧ t.mem = [] ∧ t.admin = [] ∧ t.keys = [] ∧ t.launches = [] ∧ t.boot.minSvn = b.minSvn ∧
      t.boot.slots = b.slots ∧ t.boot.claimed = [] ∧ t.boot.attIndex = b.attIndex ∧ t.boot.signed = b.signed ∧ t.boot.attKey = b.attKey ∧
      t.boot.attAlert = b.attAlert ∧ t.boot.attExh = b.attExh ∧ t.boot.images = b.images ∧ t.boot.cleoz = b.cleoz
    let up := 1 ≤ b.stage ∧ b.stage ≠ 15
    let live := b.stage = 2 ∨ b.stage = 3
    (b.tripped = true → exec .powerOnReset s = .next s ∧ exec (.registerWrite addr val) s = .next s ∧ exec (.throttleStep die temp excess) s = .next s) ∧
    (b.tripped = false → ∃ t, exec .powerOnReset s = .next t ∧ isReset t ∧ t.boot.stage = 0 ∧ t.boot.err = 0) ∧
    (b.stage ≠ 0 → exec .bootRomVerify s = .next s) ∧
    (b.stage = 0 → (passes A → exec .bootRomVerify s = .next { s with boot := { b with stage := 1, copy := 0, svn := A.svn.toNat, trusted := A.trusts } }) ∧
      (¬ passes A → passes B → exec .bootRomVerify s = .next { s with boot := { b with stage := 1, copy := 1, svn := B.svn.toNat, trusted := B.trusts } }) ∧
      (¬ passes A → ¬ passes B → ∃ e, exec .bootRomVerify s = .next { s with boot := { b with stage := 15, err := e } } ∧ (B.readable = false → e = 4) ∧
        (B.readable = true → (∀ k, ¬ mine B k) → e = 1) ∧ (B.readable = true → (∃ k, mine B k) → (∀ k, mine B k → k.revoked = true) → e = 3) ∧
        (B.readable = true → (∃ k, mine B k ∧ k.revoked = false) → e = if B.sigOk then 2 else 1))) ∧
    (b.stage ≠ 1 → exec .firstStageBoot s = .next s) ∧
    (b.stage = 1 → (trusted → exec .firstStageBoot s = .next { s with keys := [], boot := { b with stage := 2, loaded := false } }) ∧
      (¬ trusted → exec .firstStageBoot s = .next { s with boot := { b with stage := 15, err := 5 } })) ∧
    Happens s .cleozLoading (b.stage = 2) { s with boot := { b with loaded := true } } ∧
    Happens s .computeRelease (b.stage = 2 ∧ b.loaded = true)
      { s with boot := { b with stage := 3 }, noVf := true, ctxs := [], cores := [], empties := [],
               clusters := s.clusters.map fun (p : Nat × Cluster) => (p.1, { split := p.2.split, dsplit := p.2.dsplit, serving := p.2.serving, withdraw := p.2.withdraw, duty := p.2.duty, throttleNs := p.2.throttleNs }),
               dies := s.dies.map fun (p : Nat × Die) => (p.1, { p.2 with loading := true }) } ∧
    (¬ up → exec .attestationRequest s = .next s) ∧
    (up → 2 ^ 20 ≤ b.attIndex → exec .attestationRequest s = .next { s with boot := { b with attExh := true } }) ∧
    (up → b.attIndex < 2 ^ 20 → exec .attestationRequest s = .next
      { s with boot := { b with attIndex := b.attIndex + 1, claimed := b.claimed ++ [b.attIndex], attExh := b.attIndex + 1 == 2 ^ 20, attAlert := decide (2 ^ 20 < b.attIndex + 1 + 4096) } }) ∧
    (∀ i l report sig, b.claimed = i :: l →
      let made := b.attKey.length = 68 ∧ sig.length = 2820 ∧ sig.take 4 = (natBytes i 4).reverse ∧ xmssVerify b.attKey report sig = true
      (made → s.sign report sig = { s with boot := { b with claimed := l, signed := b.signed ++ [(i, report, sig)] } }) ∧ (¬ made → s.sign report sig = s)) ∧
    (∀ report sig, b.claimed = [] → s.sign report sig = s) ∧
    Happens s (.fusedMinimumRaise svn) (up ∧ b.minSvn < svn ∧ svn < 64) { s with boot := { b with minSvn := svn } } ∧
    (∀ k0 k1 l, b.slots = k0 :: k1 :: l → Happens s .rootKeyRevoke (up ∧ k1.digest.isSome = true) { s with boot := { b with slots := { k0 with revoked := true } :: k1 :: l } }) ∧
    (b.slots.length < 2 → exec .rootKeyRevoke s = .next s) ∧
    (let trip := max (s.regBits (fleetBase + 0x40) 15 8) (s.regBits (fleetBase + 0x40) 7 0 + 5)
     (temp < trip → exec (.thermalTrip temp) s = .next s) ∧
     (trip ≤ temp → ∃ t, exec (.thermalTrip temp) s = .next t ∧ isReset t ∧ t.boot.stage = 15 ∧ t.boot.err = 6 ∧ t.boot.tripped = true)) ∧
    (b.tripped = false → exec .i3cReset s = .next s) ∧ (b.tripped = true → ∃ t, exec .i3cReset s = .next t ∧ isReset t ∧ t.boot.stage = 0) ∧
    (let d := s.die die
     let throt := s.regBits (fleetBase + 0x40) 7 0
     let hot := throt < temp ∨ d.hot = true ∧ throt < temp + 3
     (s.ptp < d.dutyAt + 100000 ∨ 4 ≤ die ∨ b.tripped = true → exec (.throttleStep die temp excess) s = .next s) ∧
     (d.dutyAt + 100000 ≤ s.ptp → die < 4 → b.tripped = false → ∃ t, exec (.throttleStep die temp excess) s = .next t ∧ (t.die die).dutyAt = s.ptp ∧
       (t.die die).hot = decide hot ∧ (t.die die).duty = (if hot ∨ excess ≠ 0 then max 1 (d.duty - 1) else min 8 (d.duty + 1)) ∧
       ∀ c, c / 128 = die → (t.cluster c).duty = (t.die die).duty ∧
         (t.cluster c).throttleNs = (s.cluster c).throttleNs + if (s.cluster c).duty < 8 then 100000 else 0)) ∧
    exec .powerModeChange s = .next { s with powerMode := s.regBits schBase 0 0 } ∧
    Happens s (.keyGenerate slot) (live ∧ slot < 32 ∧ s.keys.get slot 0 = 0) { s with keys := s.keys.put slot 1 } ∧
    Happens s (.keyDestroy slot) (live ∧ s.keys.get slot 0 = 1 ∧ slot ≠ s.resident ∧
      ∀ d < 4, s.regBits (tffBase + 0x718) (8 * d + 4) (8 * d) ≠ slot) { s with keys := s.keys.put slot 2 } ∧
    Happens s (.keyZeroiseComplete slot) (s.keys.get slot 0 = 2) { s with keys := s.keys.put slot 0 } ∧
    (let ctl := fleetBase + 0x38
     (¬ live ∨ val.extractLsb' 0 2 = 3 ∨ (val.getLsbD 1 = true ∧ s.regBits ctl 2 2 = 1) → exec (.journalControl val) s = .next s) ∧
     (live → val.extractLsb' 0 2 = 1 → s.regBits ctl 0 0 = 0 → ∃ t, exec (.journalControl val) s = .next t ∧ t.regBits ctl 0 0 = 1 ∧ t.regBits ctl 63 32 = 0 ∧
       t.regBits ctl 2 2 = 0 ∧ t.journal = 0 ∧ { t with admin := s.admin, journal := s.journal } = s) ∧
     (live → val.extractLsb' 0 2 = 2 → s.regBits ctl 2 2 = 0 → s.regBits ctl 1 1 = 0 → ∃ t, exec (.journalControl val) s = .next t ∧ t.regBits ctl 1 1 = 1 ∧
       t.replayed = [] ∧ { t with admin := s.admin, replayed := s.replayed } = s)) ∧
    (addr % 8 ≠ 0 ∨ addr < schBase ∨ addr = schBase + 0x18 ∨ addr = schBase + 0x20 → exec (.registerWrite addr val) s = .next s) ∧
    (¬ live → exec (.registerWrite addr val) s = .next s) ∧
    (b.tripped = false → live → exec (.registerWrite (schBase + 8) val) s = .next (s.setReg (schBase + 8) val)) ∧
    (b.tripped = false → live → ∃ t, exec (.registerWrite (tffBase + 0x720) val) s = .next t ∧ t.regBits (tffBase + 0x720) 15 0 = val.toNat % 2 ^ 16 ∧
      t.regBits (tffBase + 0x720) 63 16 = s.regBits (tffBase + 0x720) 63 16 ∧ { t with admin := s.admin } = s) ∧
    (∀ port vf, port < 16 → vf < 32 → b.tripped = false → live →
      let sum := ((List.range 32).map fun i => if i = vf then bitsOf val 7 0 else s.regBits (towBase port + 8 * i) 7 0).sum
      (1024 < sum ∨ (s.towPort port).seen = false → exec (.registerWrite (towBase port + 8 * vf) val) s = .next s) ∧
      (sum ≤ 1024 → (s.towPort port).seen = true → (s.towPort port).up = false → ∃ t, exec (.registerWrite (towBase port + 8 * vf) val) s = .next t ∧
        t.regBits (towBase port + 8 * vf) 7 0 = bitsOf val 7 0 ∧ t.regBits (towBase port + 0x100) 10 0 = 1024 - sum ∧ { t with admin := s.admin } = s)) ∧
    s.readAdmin (schBase + 8) 8 true true = s.reg (schBase + 8) ∧ (addr % 8 ≠ 0 → ∀ n a p, s.readAdmin addr n a p = ones64) ∧
    (∀ n, n ≠ 8 → ∀ a p, s.readAdmin addr n a p = ones64) ∧ (∀ n a, s.readAdmin addr n false a = ones64 ∧ s.readAdmin addr n a false = ones64)

/-- The worked encodings decode to their instructions. Each encoding of Tables 6.3, 9.5, 10.6, 11.7, 12.6 and 13.4
and of the worked encodings of the scalar chapter, written here as its words, decodes to its instruction and
leaves no word over, and the all-zero word decodes to none. (R142, R147, R148, R156) -/
def Obligations.DecodeWords : Prop :=
  (∀ p ∈ ([([0x02043020], .add 3 1 2 0),
      ([0x01146208], .addi 6 5 1 2),
      ([0xFF0076C0], .ldd 7 0 0xFF 0),
      ([0xFFFC5440], .bnez 5 0x3FFF 0),
      ([0x86083A40], .vmul 3 2 6 0 1 0),
      ([0x003026C1, 0x02C00000, 0], .lddX 2 12 2 1 1 0 0 0),
      ([0x00009342, 0x40000000, 0], .liLit 9 0x40000000 0),
      ([0x46596020], .sub 22 22 6 0),
      ([0x382082A0], .shri 8 8 0x38 0),
      ([0x4024A141, 0, 0x430], .bfxz 10 9 0x30 16 0),
      ([0x00005560], .popw 5 0 0),
      ([0x003705C0], .mfk 48 13 0),
      ([0x40240520], .fail 9 0),
      ([0x07188500], .start 8 6 7 0),
      ([0x40009500], .startm 9 0),
      ([0x80000520], .idle 0),
      ([0x00301741, 0x04000000, 0], .stdX 1 12 0 0 2 0 0 0),
      ([0xC03467C1, 0x00400000, 0], .aswpX 6 13 0 2 0 0 0 0),
      ([0x40343821, 0x00400000, 0], .relX 3 13 2 0 0),
      ([0x07040840], .tlwait 1 7 0),
      ([0x05101CA0], .vcmplt 1 4 5 0 0 0),
      ([0x00146CE0], .vclaim 6 5 0),
      ([0xC00009E0], .vsync 0),
      ([0x40246901, 0x00120000, 0], .vbcastX 6 9 9 0 0 0 0),
      ([0x00502981, 0x00139000, 0], .vldX 2 20 9 1 1 1 0 0 0),
      ([0x86089A61, 0xA, 0], .vfmaX 9 2 6 0 1 10 0 0 0 0 0 0),
      ([0x40400D01, 0x000A0011, 0x20000101], .mmag 0 16 0 17 0 5 1 1 0 1 0),
      ([0x52400D41, 0x000A04D1, 0x20000308], .mmaws 0 16 18 17 19 5 8 1 1 0 0 1 0),
      ([0x005C0D61, 0x000A0000, 0], .tldX 0 23 5 0 0),
      ([0x00003D80], .aclr 3 0),
      ([0xD9000D81, 0x00120000, 0], .aread 0 0 25 9 0),
      ([0x00140DC0], .gangcfg 5 0),
      ([0x14587E01, 0x15, 0], .cpyX 7 22 20 21 0 0 0 0),
      ([0x1B687E21, 0x1C, 0], .bargeX 7 26 27 28 0 0 0),
      ([0x00500E40], .send 0 20 0),
      ([0xC0000E40], .aidle 0),
      ([0x007C9E80], .balloc 9 31 0),
      ([0x00D35EA1, 0xD80, 0], .bqueryX 53 52 54 0),
      ([0x077CCEC0], .ptx 12 31 7 0),
      ([0x77C72EC1, 0x36, 0], .ptfillX 50 49 55 54 0),
      ([0x55507F01, 0x5C0, 0], .mcstcX 7 20 21 0 23 0 0 0),
      ([0x80508F00], .mcseq 8 20 0),
      ([0x01502740], .std 2 20 1 0),
      ([0xFF244680], .ldw 4 9 0xFF 0),
      ([0x04005340], .li 5 256 0)] : List (List W32 × Instr)), decodeWords p.1 = .ok (p.2, [])) ∧
    ∀ i r, decodeWords [0] ≠ .ok (i, r)

/-- A step runs the instruction at the program counter. When the machine is chosen to let a ready context issue, or
by default the next ready one issues, the step is exec of the instruction that the words at its program counter
decode to, in the state after the fetch, and the core has then issued in this cycle unless the instruction is
held before its issue; words that are no instruction trap with cause 0x01 and word 0 in TVAL; an instruction of
one word is the four bytes at the translated program counter, the lowest address least significant, and one in
another module’s memory waits for a route; a module that a trip holds in reset issues nothing (R425), and which
context issues by default is the model’s choice (log entry 5). (R6, R7, R12, R142, R144, R156, R425) -/
def Obligations.StepRuns : Prop :=
  ∀ (s : State) (id : Nat) (rest : List Choice),
    let u := s.settled
    let v : State := { u with agenda := rest }
    let w := v.beginIssue id
    let turn (r : Host.Outcome State Fault Refusal) : Host.Outcome State Fault Refusal := match r with | .next t => .next (t.took id) | r => r
    (v.mayIssue id = true → v.isReady id = true ∧ (v.core (coreOf id)).issuedAt ≠ some v.cycle) ∧
    (∀ t : State, ((t.ctx id).wait.any Wait.unissued = true → t.took id = t) ∧ ((t.ctx id).wait.any Wait.unissued = false →
      ((t.took id).core (coreOf id)).issuedAt = some t.cycle ∧ ((t.took id).core (coreOf id)).lastSlot = slotOf id ∧ { t.took id with cores := t.cores } = t)) ∧
    ((u.agenda = .issue id :: rest ∧ v.boot.tripped = false ∧ v.mayIssue id = true) ∨ (u.agenda = [] ∧ rest = [] ∧ v.due = none ∧ v.nextReady = some id) →
    (w.cur = id ∧ w.cycle = v.cycle ∧ w.mem = s.settled.mem ∧ w.ctxs = v.ctxs ∧ w.word0 = 0) ∧
    (w.me.dueTrap = none →
      (∀ x ws i more, w.fetch = (x, .ok ws) → decodeWords ws = .ok (i, more) → step s = turn (exec i { x with word0 := ws.headD 0 })) ∧
      (∀ x ws e, w.fetch = (x, .ok ws) → decodeWords ws = .error e →
        step s = turn (.next (({ x with word0 := ws.headD 0 } : State).trap 0x01 ((ws.headD 0).setWidth 64)))) ∧
      (∀ x p, placeOf w.me.pc.toNat = .translated →
        w.translate (coreOf id) (w.vfOf id) w.me.asid w.me.privileged w.me.pc.toNat accFetch = (x, .ok p) → x.isPoisoned p.key = false →
        (p.remote = true → (w.routeTo (keyDev p.key)).isSome = true ∨ w.me.wait.any (fun q => !q.unissued) = true) →
        (BitVec.ofNat 32 (x.read p.key 4)).extractLsb' 0 2 = 0 → w.fetch = (x, .ok [BitVec.ofNat 32 (x.read p.key 4)])) ∧
      (∀ x p, placeOf w.me.pc.toNat = .translated →
        w.translate (coreOf id) (w.vfOf id) w.me.asid w.me.privileged w.me.pc.toNat accFetch = (x, .ok p) →
        p.remote = true → w.routeTo (keyDev p.key) = none → w.me.wait.any (fun q => !q.unissued) = false →
        ∃ t, step s = turn (.next t) ∧ Waits x t (.fetch (keyDev p.key)))) ∧
    (∀ c v', w.me.dueTrap = some (c, v') → step s = turn (.next ((w.modMe fun y => { y with dueTrap := none }).trap c v'))))

/-- What reset leaves. After a reset the machine is in stage 0 of Table 20.1 with every tag FULL, every weight-store
die in loading mode and no cluster serving; the administration registers hold the reset values of Tables 21.1,
22.7 and 23.1; a control context’s system registers hold those of Table 6.7; the mode is not privileged,
registers and memory hold zero and the vector registers all ones, of which the scalar registers, the mode and
memory are the model’s choice (log entries 1, 2 and 3). (R64, R74, R152, R153, R372, R380, R412, R427) -/
def Obligations.ResetState : Prop :=
    let s := State.reset
    s.boot.stage = 0 ∧ s.boot.err = 0 ∧ s.boot.attExh = false ∧ s.boot.svn = 0 ∧ (∀ k, s.isFull k = true) ∧ (∀ k, s.isPoisoned k = false) ∧
    (∀ d, (s.die d).loading = true ∧ (s.die d).bank = 0) ∧ (∀ c, (s.cluster c).serving = false ∧ (s.cluster c).split = 0) ∧
    (∀ core ctr, s.timeline core ctr = 0 ∧ (s.core core).nextHelper = 1) ∧
    s.regBits schBase 2 1 = 2 ∧ s.regBits schBase 0 0 = 0 ∧ s.regBits schBase 5 4 = 1 ∧ s.regBits schBase 11 8 = 0xF ∧ s.regBits schBase 15 12 = 0 ∧
    (∀ port, port < 16 → s.regBits (towBase port + 0x100) 10 0 = 1024 ∧ s.regBits (towBase port + 0x108) 0 0 = 0 ∧
      ∀ vf, vf < 32 → s.regBits (towBase port + 8 * vf) 7 0 = 0) ∧
    s.regBits (fleetBase + 0x40) 7 0 = 95 ∧ s.regBits (fleetBase + 0x40) 15 8 = 110 ∧
    (∀ id, (s.ctx id).k 1 = 0 ∧ (s.ctx id).k 2 = 0 ∧ (s.ctx id).k 3 = 0 ∧ (s.ctx id).k 4 = 0xFFFF ∧ (s.ctx id).k 5 = 0 ∧ (s.ctx id).k 6 = 0 ∧
      (s.ctx id).k 7 = 0 ∧ (s.ctx id).k 8 = 0 ∧ (s.ctx id).k 11 = 0 ∧ (s.ctx id).k 12 = 0 ∧ (s.ctx id).k 13 = 0 ∧ (s.ctx id).k 18 = 0 ∧
      (s.ctx id).lanes = 0 ∧ (s.ctx id).yield = false) ∧
    (∀ core, (s.core core).vfid = 0 ∧ (s.core core).gangMask = 0) ∧
    (∀ id r, (s.ctx id).regAt r = 0 ∧ (s.ctx id).vregs.get r (BitVec.allOnes 8192) = BitVec.allOnes 8192 ∧ (s.ctx id).priv = false ∧ (s.ctx id).pc = 0) ∧ ∀ k n, s.read k n = 0

/-- Memory after reset is in its canonical form. The memory of the state after reset lists its bytes by rising key
and lists no byte that an unlisted key reads as. (R58, R372) -/
def Obligations.ResetInvariant : Prop :=
  memWf State.reset.mem = true

/-- Decoding an encoded instruction gives it back. For every well-formed instruction of the opcode map, with every
operand at every value that its encoding admits, the bytes that the encoder writes decode to it, and they are
one, three or five words long. (R142, R143, R147, R148, R156) -/
def Obligations.DecodeEncode : Prop :=
  ∀ i : Instr, i.encodable = true → decode (encodeBytes i) = .ok i ∧
    ((encodeBytes i).length = 4 ∨ (encodeBytes i).length = 12 ∨ (encodeBytes i).length = 20)

/-- Every step keeps memory in its canonical form. If the listed bytes of memory stand by strictly rising keys and
none equals what an unlisted key reads as, then after any step that answers a next state they do again, whatever
instruction or event the step was. (R58, R59) -/
def Obligations.MemoryInvariant : Prop :=
  ∀ s t : State, memWf s.mem = true → step s = .next t → memWf t.mem = true
end

