-- ==== Sys2Proof/Laws/State.lean ====
section
/-! SUPPORT. One lemma per field per update of the state and of a context: what the update leaves alone. -/

namespace Sys2Proof.Machine

@[simp] theorem State.setCtx_cycle (s : State) (id : Nat) (c : Ctx) : (s.setCtx id c).cycle = s.cycle := rfl
@[simp] theorem State.setCtx_ptp (s : State) (id : Nat) (c : Ctx) : (s.setCtx id c).ptp = s.ptp := rfl
@[simp] theorem State.setCtx_ptpFrac (s : State) (id : Nat) (c : Ctx) : (s.setCtx id c).ptpFrac = s.ptpFrac := rfl
@[simp] theorem State.setCtx_cur (s : State) (id : Nat) (c : Ctx) : (s.setCtx id c).cur = s.cur := rfl
@[simp] theorem State.setCtx_word0 (s : State) (id : Nat) (c : Ctx) : (s.setCtx id c).word0 = s.word0 := rfl
@[simp] theorem State.setCtx_agenda (s : State) (id : Nat) (c : Ctx) : (s.setCtx id c).agenda = s.agenda := rfl
@[simp] theorem State.setCtx_fresh (s : State) (id : Nat) (c : Ctx) : (s.setCtx id c).fresh = s.fresh := rfl
@[simp] theorem State.setCtx_cleozTrap (s : State) (id : Nat) (c : Ctx) : (s.setCtx id c).cleozTrap = s.cleozTrap := rfl
@[simp] theorem State.setCtx_cores (s : State) (id : Nat) (c : Ctx) : (s.setCtx id c).cores = s.cores := rfl
@[simp] theorem State.setCtx_clusters (s : State) (id : Nat) (c : Ctx) : (s.setCtx id c).clusters = s.clusters := rfl
@[simp] theorem State.setCtx_dies (s : State) (id : Nat) (c : Ctx) : (s.setCtx id c).dies = s.dies := rfl
@[simp] theorem State.setCtx_hbm (s : State) (id : Nat) (c : Ctx) : (s.setCtx id c).hbm = s.hbm := rfl
@[simp] theorem State.setCtx_mem (s : State) (id : Nat) (c : Ctx) : (s.setCtx id c).mem = s.mem := rfl
@[simp] theorem State.setCtx_empties (s : State) (id : Nat) (c : Ctx) : (s.setCtx id c).empties = s.empties := rfl
@[simp] theorem State.setCtx_poison (s : State) (id : Nat) (c : Ctx) : (s.setCtx id c).poison = s.poison := rfl
@[simp] theorem State.setCtx_poisonRanges (s : State) (id : Nat) (c : Ctx) : (s.setCtx id c).poisonRanges = s.poisonRanges := rfl
@[simp] theorem State.setCtx_flights (s : State) (id : Nat) (c : Ctx) : (s.setCtx id c).flights = s.flights := rfl
@[simp] theorem State.setCtx_nextId (s : State) (id : Nat) (c : Ctx) : (s.setCtx id c).nextId = s.nextId := rfl
@[simp] theorem State.setCtx_admin (s : State) (id : Nat) (c : Ctx) : (s.setCtx id c).admin = s.admin := rfl
@[simp] theorem State.setCtx_boot (s : State) (id : Nat) (c : Ctx) : (s.setCtx id c).boot = s.boot := rfl
@[simp] theorem State.setCtx_launches (s : State) (id : Nat) (c : Ctx) : (s.setCtx id c).launches = s.launches := rfl
@[simp] theorem State.setCtx_settling (s : State) (id : Nat) (c : Ctx) : (s.setCtx id c).settling = s.settling := rfl
@[simp] theorem State.setCtx_nextHandle (s : State) (id : Nat) (c : Ctx) : (s.setCtx id c).nextHandle = s.nextHandle := rfl
@[simp] theorem State.setCtx_moors (s : State) (id : Nat) (c : Ctx) : (s.setCtx id c).moors = s.moors := rfl
@[simp] theorem State.setCtx_slices (s : State) (id : Nat) (c : Ctx) : (s.setCtx id c).slices = s.slices := rfl
@[simp] theorem State.setCtx_classes (s : State) (id : Nat) (c : Ctx) : (s.setCtx id c).classes = s.classes := rfl
@[simp] theorem State.setCtx_arrival (s : State) (id : Nat) (c : Ctx) : (s.setCtx id c).arrival = s.arrival := rfl
@[simp] theorem State.setCtx_groups (s : State) (id : Nat) (c : Ctx) : (s.setCtx id c).groups = s.groups := rfl
@[simp] theorem State.setCtx_eth (s : State) (id : Nat) (c : Ctx) : (s.setCtx id c).eth = s.eth := rfl
@[simp] theorem State.setCtx_udpPorts (s : State) (id : Nat) (c : Ctx) : (s.setCtx id c).udpPorts = s.udpPorts := rfl
@[simp] theorem State.setCtx_queuePairs (s : State) (id : Nat) (c : Ctx) : (s.setCtx id c).queuePairs = s.queuePairs := rfl
@[simp] theorem State.setCtx_sent (s : State) (id : Nat) (c : Ctx) : (s.setCtx id c).sent = s.sent := rfl
@[simp] theorem State.setCtx_toCleoz (s : State) (id : Nat) (c : Ctx) : (s.setCtx id c).toCleoz = s.toCleoz := rfl
@[simp] theorem State.setCtx_timing (s : State) (id : Nat) (c : Ctx) : (s.setCtx id c).timing = s.timing := rfl
@[simp] theorem State.setCtx_tow (s : State) (id : Nat) (c : Ctx) : (s.setCtx id c).tow = s.tow := rfl
@[simp] theorem State.setCtx_towOut (s : State) (id : Nat) (c : Ctx) : (s.setCtx id c).towOut = s.towOut := rfl
@[simp] theorem State.setCtx_inbound (s : State) (id : Nat) (c : Ctx) : (s.setCtx id c).inbound = s.inbound := rfl
@[simp] theorem State.setCtx_cxl (s : State) (id : Nat) (c : Ctx) : (s.setCtx id c).cxl = s.cxl := rfl
@[simp] theorem State.setCtx_device (s : State) (id : Nat) (c : Ctx) : (s.setCtx id c).device = s.device := rfl
@[simp] theorem State.setCtx_inDomain (s : State) (id : Nat) (c : Ctx) : (s.setCtx id c).inDomain = s.inDomain := rfl
@[simp] theorem State.setCtx_apart (s : State) (id : Nat) (c : Ctx) : (s.setCtx id c).apart = s.apart := rfl
@[simp] theorem State.setCtx_offset (s : State) (id : Nat) (c : Ctx) : (s.setCtx id c).offset = s.offset := rfl
@[simp] theorem State.setCtx_latency (s : State) (id : Nat) (c : Ctx) : (s.setCtx id c).latency = s.latency := rfl
@[simp] theorem State.setCtx_notices (s : State) (id : Nat) (c : Ctx) : (s.setCtx id c).notices = s.notices := rfl
@[simp] theorem State.setCtx_stretches (s : State) (id : Nat) (c : Ctx) : (s.setCtx id c).stretches = s.stretches := rfl
@[simp] theorem State.setCtx_sweeps (s : State) (id : Nat) (c : Ctx) : (s.setCtx id c).sweeps = s.sweeps := rfl
@[simp] theorem State.setCtx_sweepAt (s : State) (id : Nat) (c : Ctx) : (s.setCtx id c).sweepAt = s.sweepAt := rfl
@[simp] theorem State.setCtx_quietRep (s : State) (id : Nat) (c : Ctx) : (s.setCtx id c).quietRep = s.quietRep := rfl
@[simp] theorem State.setCtx_quietAt (s : State) (id : Nat) (c : Ctx) : (s.setCtx id c).quietAt = s.quietAt := rfl
@[simp] theorem State.setCtx_activity (s : State) (id : Nat) (c : Ctx) : (s.setCtx id c).activity = s.activity := rfl
@[simp] theorem State.setCtx_saved (s : State) (id : Nat) (c : Ctx) : (s.setCtx id c).saved = s.saved := rfl
@[simp] theorem State.setCtx_records (s : State) (id : Nat) (c : Ctx) : (s.setCtx id c).records = s.records := rfl
@[simp] theorem State.setCtx_errors (s : State) (id : Nat) (c : Ctx) : (s.setCtx id c).errors = s.errors := rfl
@[simp] theorem State.setCtx_errTimes (s : State) (id : Nat) (c : Ctx) : (s.setCtx id c).errTimes = s.errTimes := rfl
@[simp] theorem State.setCtx_alerts (s : State) (id : Nat) (c : Ctx) : (s.setCtx id c).alerts = s.alerts := rfl
@[simp] theorem State.setCtx_errDrops (s : State) (id : Nat) (c : Ctx) : (s.setCtx id c).errDrops = s.errDrops := rfl
@[simp] theorem State.setCtx_interrupts (s : State) (id : Nat) (c : Ctx) : (s.setCtx id c).interrupts = s.interrupts := rfl
@[simp] theorem State.setCtx_images (s : State) (id : Nat) (c : Ctx) : (s.setCtx id c).images = s.images := rfl
@[simp] theorem State.setCtx_keys (s : State) (id : Nat) (c : Ctx) : (s.setCtx id c).keys = s.keys := rfl
@[simp] theorem State.setCtx_noVf (s : State) (id : Nat) (c : Ctx) : (s.setCtx id c).noVf = s.noVf := rfl
@[simp] theorem State.setCtx_quantum (s : State) (id : Nat) (c : Ctx) : (s.setCtx id c).quantum = s.quantum := rfl
@[simp] theorem State.setCtx_sliceWord (s : State) (id : Nat) (c : Ctx) : (s.setCtx id c).sliceWord = s.sliceWord := rfl
@[simp] theorem State.setCtx_sliceFrom (s : State) (id : Nat) (c : Ctx) : (s.setCtx id c).sliceFrom = s.sliceFrom := rfl
@[simp] theorem State.setCtx_idleFrom (s : State) (id : Nat) (c : Ctx) : (s.setCtx id c).idleFrom = s.idleFrom := rfl
@[simp] theorem State.setCtx_journal (s : State) (id : Nat) (c : Ctx) : (s.setCtx id c).journal = s.journal := rfl
@[simp] theorem State.setCtx_replayed (s : State) (id : Nat) (c : Ctx) : (s.setCtx id c).replayed = s.replayed := rfl
@[simp] theorem State.setCtx_sdBegun (s : State) (id : Nat) (c : Ctx) : (s.setCtx id c).sdBegun = s.sdBegun := rfl
@[simp] theorem State.setCtx_sdMark (s : State) (id : Nat) (c : Ctx) : (s.setCtx id c).sdMark = s.sdMark := rfl
@[simp] theorem State.setCtx_powerMode (s : State) (id : Nat) (c : Ctx) : (s.setCtx id c).powerMode = s.powerMode := rfl
@[simp] theorem State.setCtx_windowLog (s : State) (id : Nat) (c : Ctx) : (s.setCtx id c).windowLog = s.windowLog := rfl
@[simp] theorem State.setCtx_winAsked (s : State) (id : Nat) (c : Ctx) : (s.setCtx id c).winAsked = s.winAsked := rfl
@[simp] theorem State.setCtx_sysOld (s : State) (id : Nat) (c : Ctx) : (s.setCtx id c).sysOld = s.sysOld := rfl
@[simp] theorem State.setCtx_lagged (s : State) (id : Nat) (c : Ctx) : (s.setCtx id c).lagged = s.lagged := rfl

@[simp] theorem State.freeCtx_cycle (s : State) (id : Nat) : (s.freeCtx id).cycle = s.cycle := rfl
@[simp] theorem State.freeCtx_ptp (s : State) (id : Nat) : (s.freeCtx id).ptp = s.ptp := rfl
@[simp] theorem State.freeCtx_ptpFrac (s : State) (id : Nat) : (s.freeCtx id).ptpFrac = s.ptpFrac := rfl
@[simp] theorem State.freeCtx_cur (s : State) (id : Nat) : (s.freeCtx id).cur = s.cur := rfl
@[simp] theorem State.freeCtx_word0 (s : State) (id : Nat) : (s.freeCtx id).word0 = s.word0 := rfl
@[simp] theorem State.freeCtx_agenda (s : State) (id : Nat) : (s.freeCtx id).agenda = s.agenda := rfl
@[simp] theorem State.freeCtx_fresh (s : State) (id : Nat) : (s.freeCtx id).fresh = s.fresh := rfl
@[simp] theorem State.freeCtx_cleozTrap (s : State) (id : Nat) : (s.freeCtx id).cleozTrap = s.cleozTrap := rfl
@[simp] theorem State.freeCtx_cores (s : State) (id : Nat) : (s.freeCtx id).cores = s.cores := rfl
@[simp] theorem State.freeCtx_clusters (s : State) (id : Nat) : (s.freeCtx id).clusters = s.clusters := rfl
@[simp] theorem State.freeCtx_dies (s : State) (id : Nat) : (s.freeCtx id).dies = s.dies := rfl
@[simp] theorem State.freeCtx_hbm (s : State) (id : Nat) : (s.freeCtx id).hbm = s.hbm := rfl
@[simp] theorem State.freeCtx_mem (s : State) (id : Nat) : (s.freeCtx id).mem = s.mem := rfl
@[simp] theorem State.freeCtx_empties (s : State) (id : Nat) : (s.freeCtx id).empties = s.empties := rfl
@[simp] theorem State.freeCtx_poison (s : State) (id : Nat) : (s.freeCtx id).poison = s.poison := rfl
@[simp] theorem State.freeCtx_poisonRanges (s : State) (id : Nat) : (s.freeCtx id).poisonRanges = s.poisonRanges := rfl
@[simp] theorem State.freeCtx_flights (s : State) (id : Nat) : (s.freeCtx id).flights = s.flights := rfl
@[simp] theorem State.freeCtx_nextId (s : State) (id : Nat) : (s.freeCtx id).nextId = s.nextId := rfl
@[simp] theorem State.freeCtx_admin (s : State) (id : Nat) : (s.freeCtx id).admin = s.admin := rfl
@[simp] theorem State.freeCtx_boot (s : State) (id : Nat) : (s.freeCtx id).boot = s.boot := rfl
@[simp] theorem State.freeCtx_launches (s : State) (id : Nat) : (s.freeCtx id).launches = s.launches := rfl
@[simp] theorem State.freeCtx_settling (s : State) (id : Nat) : (s.freeCtx id).settling = s.settling := rfl
@[simp] theorem State.freeCtx_nextHandle (s : State) (id : Nat) : (s.freeCtx id).nextHandle = s.nextHandle := rfl
@[simp] theorem State.freeCtx_moors (s : State) (id : Nat) : (s.freeCtx id).moors = s.moors := rfl
@[simp] theorem State.freeCtx_slices (s : State) (id : Nat) : (s.freeCtx id).slices = s.slices := rfl
@[simp] theorem State.freeCtx_classes (s : State) (id : Nat) : (s.freeCtx id).classes = s.classes := rfl
@[simp] theorem State.freeCtx_arrival (s : State) (id : Nat) : (s.freeCtx id).arrival = s.arrival := rfl
@[simp] theorem State.freeCtx_groups (s : State) (id : Nat) : (s.freeCtx id).groups = s.groups := rfl
@[simp] theorem State.freeCtx_eth (s : State) (id : Nat) : (s.freeCtx id).eth = s.eth := rfl
@[simp] theorem State.freeCtx_udpPorts (s : State) (id : Nat) : (s.freeCtx id).udpPorts = s.udpPorts := rfl
@[simp] theorem State.freeCtx_queuePairs (s : State) (id : Nat) : (s.freeCtx id).queuePairs = s.queuePairs := rfl
@[simp] theorem State.freeCtx_sent (s : State) (id : Nat) : (s.freeCtx id).sent = s.sent := rfl
@[simp] theorem State.freeCtx_toCleoz (s : State) (id : Nat) : (s.freeCtx id).toCleoz = s.toCleoz := rfl
@[simp] theorem State.freeCtx_timing (s : State) (id : Nat) : (s.freeCtx id).timing = s.timing := rfl
@[simp] theorem State.freeCtx_tow (s : State) (id : Nat) : (s.freeCtx id).tow = s.tow := rfl
@[simp] theorem State.freeCtx_towOut (s : State) (id : Nat) : (s.freeCtx id).towOut = s.towOut := rfl
@[simp] theorem State.freeCtx_inbound (s : State) (id : Nat) : (s.freeCtx id).inbound = s.inbound := rfl
@[simp] theorem State.freeCtx_cxl (s : State) (id : Nat) : (s.freeCtx id).cxl = s.cxl := rfl
@[simp] theorem State.freeCtx_device (s : State) (id : Nat) : (s.freeCtx id).device = s.device := rfl
@[simp] theorem State.freeCtx_inDomain (s : State) (id : Nat) : (s.freeCtx id).inDomain = s.inDomain := rfl
@[simp] theorem State.freeCtx_apart (s : State) (id : Nat) : (s.freeCtx id).apart = s.apart := rfl
@[simp] theorem State.freeCtx_offset (s : State) (id : Nat) : (s.freeCtx id).offset = s.offset := rfl
@[simp] theorem State.freeCtx_latency (s : State) (id : Nat) : (s.freeCtx id).latency = s.latency := rfl
@[simp] theorem State.freeCtx_notices (s : State) (id : Nat) : (s.freeCtx id).notices = s.notices := rfl
@[simp] theorem State.freeCtx_stretches (s : State) (id : Nat) : (s.freeCtx id).stretches = s.stretches := rfl
@[simp] theorem State.freeCtx_sweeps (s : State) (id : Nat) : (s.freeCtx id).sweeps = s.sweeps := rfl
@[simp] theorem State.freeCtx_sweepAt (s : State) (id : Nat) : (s.freeCtx id).sweepAt = s.sweepAt := rfl
@[simp] theorem State.freeCtx_quietRep (s : State) (id : Nat) : (s.freeCtx id).quietRep = s.quietRep := rfl
@[simp] theorem State.freeCtx_quietAt (s : State) (id : Nat) : (s.freeCtx id).quietAt = s.quietAt := rfl
@[simp] theorem State.freeCtx_activity (s : State) (id : Nat) : (s.freeCtx id).activity = s.activity := rfl
@[simp] theorem State.freeCtx_saved (s : State) (id : Nat) : (s.freeCtx id).saved = s.saved := rfl
@[simp] theorem State.freeCtx_records (s : State) (id : Nat) : (s.freeCtx id).records = s.records := rfl
@[simp] theorem State.freeCtx_errors (s : State) (id : Nat) : (s.freeCtx id).errors = s.errors := rfl
@[simp] theorem State.freeCtx_errTimes (s : State) (id : Nat) : (s.freeCtx id).errTimes = s.errTimes := rfl
@[simp] theorem State.freeCtx_alerts (s : State) (id : Nat) : (s.freeCtx id).alerts = s.alerts := rfl
@[simp] theorem State.freeCtx_errDrops (s : State) (id : Nat) : (s.freeCtx id).errDrops = s.errDrops := rfl
@[simp] theorem State.freeCtx_interrupts (s : State) (id : Nat) : (s.freeCtx id).interrupts = s.interrupts := rfl
@[simp] theorem State.freeCtx_images (s : State) (id : Nat) : (s.freeCtx id).images = s.images := rfl
@[simp] theorem State.freeCtx_keys (s : State) (id : Nat) : (s.freeCtx id).keys = s.keys := rfl
@[simp] theorem State.freeCtx_noVf (s : State) (id : Nat) : (s.freeCtx id).noVf = s.noVf := rfl
@[simp] theorem State.freeCtx_quantum (s : State) (id : Nat) : (s.freeCtx id).quantum = s.quantum := rfl
@[simp] theorem State.freeCtx_sliceWord (s : State) (id : Nat) : (s.freeCtx id).sliceWord = s.sliceWord := rfl
@[simp] theorem State.freeCtx_sliceFrom (s : State) (id : Nat) : (s.freeCtx id).sliceFrom = s.sliceFrom := rfl
@[simp] theorem State.freeCtx_idleFrom (s : State) (id : Nat) : (s.freeCtx id).idleFrom = s.idleFrom := rfl
@[simp] theorem State.freeCtx_journal (s : State) (id : Nat) : (s.freeCtx id).journal = s.journal := rfl
@[simp] theorem State.freeCtx_replayed (s : State) (id : Nat) : (s.freeCtx id).replayed = s.replayed := rfl
@[simp] theorem State.freeCtx_sdBegun (s : State) (id : Nat) : (s.freeCtx id).sdBegun = s.sdBegun := rfl
@[simp] theorem State.freeCtx_sdMark (s : State) (id : Nat) : (s.freeCtx id).sdMark = s.sdMark := rfl
@[simp] theorem State.freeCtx_powerMode (s : State) (id : Nat) : (s.freeCtx id).powerMode = s.powerMode := rfl
@[simp] theorem State.freeCtx_windowLog (s : State) (id : Nat) : (s.freeCtx id).windowLog = s.windowLog := rfl
@[simp] theorem State.freeCtx_winAsked (s : State) (id : Nat) : (s.freeCtx id).winAsked = s.winAsked := rfl
@[simp] theorem State.freeCtx_sysOld (s : State) (id : Nat) : (s.freeCtx id).sysOld = s.sysOld := rfl
@[simp] theorem State.freeCtx_lagged (s : State) (id : Nat) : (s.freeCtx id).lagged = s.lagged := rfl

@[simp] theorem State.modCtx_cycle (s : State) (id : Nat) (f : Ctx → Ctx) : (s.modCtx id f).cycle = s.cycle := rfl
@[simp] theorem State.modCtx_ptp (s : State) (id : Nat) (f : Ctx → Ctx) : (s.modCtx id f).ptp = s.ptp := rfl
@[simp] theorem State.modCtx_ptpFrac (s : State) (id : Nat) (f : Ctx → Ctx) : (s.modCtx id f).ptpFrac = s.ptpFrac := rfl
@[simp] theorem State.modCtx_cur (s : State) (id : Nat) (f : Ctx → Ctx) : (s.modCtx id f).cur = s.cur := rfl
@[simp] theorem State.modCtx_word0 (s : State) (id : Nat) (f : Ctx → Ctx) : (s.modCtx id f).word0 = s.word0 := rfl
@[simp] theorem State.modCtx_agenda (s : State) (id : Nat) (f : Ctx → Ctx) : (s.modCtx id f).agenda = s.agenda := rfl
@[simp] theorem State.modCtx_fresh (s : State) (id : Nat) (f : Ctx → Ctx) : (s.modCtx id f).fresh = s.fresh := rfl
@[simp] theorem State.modCtx_cleozTrap (s : State) (id : Nat) (f : Ctx → Ctx) : (s.modCtx id f).cleozTrap = s.cleozTrap := rfl
@[simp] theorem State.modCtx_cores (s : State) (id : Nat) (f : Ctx → Ctx) : (s.modCtx id f).cores = s.cores := rfl
@[simp] theorem State.modCtx_clusters (s : State) (id : Nat) (f : Ctx → Ctx) : (s.modCtx id f).clusters = s.clusters := rfl
@[simp] theorem State.modCtx_dies (s : State) (id : Nat) (f : Ctx → Ctx) : (s.modCtx id f).dies = s.dies := rfl
@[simp] theorem State.modCtx_hbm (s : State) (id : Nat) (f : Ctx → Ctx) : (s.modCtx id f).hbm = s.hbm := rfl
@[simp] theorem State.modCtx_mem (s : State) (id : Nat) (f : Ctx → Ctx) : (s.modCtx id f).mem = s.mem := rfl
@[simp] theorem State.modCtx_empties (s : State) (id : Nat) (f : Ctx → Ctx) : (s.modCtx id f).empties = s.empties := rfl
@[simp] theorem State.modCtx_poison (s : State) (id : Nat) (f : Ctx → Ctx) : (s.modCtx id f).poison = s.poison := rfl
@[simp] theorem State.modCtx_poisonRanges (s : State) (id : Nat) (f : Ctx → Ctx) : (s.modCtx id f).poisonRanges = s.poisonRanges := rfl
@[simp] theorem State.modCtx_flights (s : State) (id : Nat) (f : Ctx → Ctx) : (s.modCtx id f).flights = s.flights := rfl
@[simp] theorem State.modCtx_nextId (s : State) (id : Nat) (f : Ctx → Ctx) : (s.modCtx id f).nextId = s.nextId := rfl
@[simp] theorem State.modCtx_admin (s : State) (id : Nat) (f : Ctx → Ctx) : (s.modCtx id f).admin = s.admin := rfl
@[simp] theorem State.modCtx_boot (s : State) (id : Nat) (f : Ctx → Ctx) : (s.modCtx id f).boot = s.boot := rfl
@[simp] theorem State.modCtx_launches (s : State) (id : Nat) (f : Ctx → Ctx) : (s.modCtx id f).launches = s.launches := rfl
@[simp] theorem State.modCtx_settling (s : State) (id : Nat) (f : Ctx → Ctx) : (s.modCtx id f).settling = s.settling := rfl
@[simp] theorem State.modCtx_nextHandle (s : State) (id : Nat) (f : Ctx → Ctx) : (s.modCtx id f).nextHandle = s.nextHandle := rfl
@[simp] theorem State.modCtx_moors (s : State) (id : Nat) (f : Ctx → Ctx) : (s.modCtx id f).moors = s.moors := rfl
@[simp] theorem State.modCtx_slices (s : State) (id : Nat) (f : Ctx → Ctx) : (s.modCtx id f).slices = s.slices := rfl
@[simp] theorem State.modCtx_classes (s : State) (id : Nat) (f : Ctx → Ctx) : (s.modCtx id f).classes = s.classes := rfl
@[simp] theorem State.modCtx_arrival (s : State) (id : Nat) (f : Ctx → Ctx) : (s.modCtx id f).arrival = s.arrival := rfl
@[simp] theorem State.modCtx_groups (s : State) (id : Nat) (f : Ctx → Ctx) : (s.modCtx id f).groups = s.groups := rfl
@[simp] theorem State.modCtx_eth (s : State) (id : Nat) (f : Ctx → Ctx) : (s.modCtx id f).eth = s.eth := rfl
@[simp] theorem State.modCtx_udpPorts (s : State) (id : Nat) (f : Ctx → Ctx) : (s.modCtx id f).udpPorts = s.udpPorts := rfl
@[simp] theorem State.modCtx_queuePairs (s : State) (id : Nat) (f : Ctx → Ctx) : (s.modCtx id f).queuePairs = s.queuePairs := rfl
@[simp] theorem State.modCtx_sent (s : State) (id : Nat) (f : Ctx → Ctx) : (s.modCtx id f).sent = s.sent := rfl
@[simp] theorem State.modCtx_toCleoz (s : State) (id : Nat) (f : Ctx → Ctx) : (s.modCtx id f).toCleoz = s.toCleoz := rfl
@[simp] theorem State.modCtx_timing (s : State) (id : Nat) (f : Ctx → Ctx) : (s.modCtx id f).timing = s.timing := rfl
@[simp] theorem State.modCtx_tow (s : State) (id : Nat) (f : Ctx → Ctx) : (s.modCtx id f).tow = s.tow := rfl
@[simp] theorem State.modCtx_towOut (s : State) (id : Nat) (f : Ctx → Ctx) : (s.modCtx id f).towOut = s.towOut := rfl
@[simp] theorem State.modCtx_inbound (s : State) (id : Nat) (f : Ctx → Ctx) : (s.modCtx id f).inbound = s.inbound := rfl
@[simp] theorem State.modCtx_cxl (s : State) (id : Nat) (f : Ctx → Ctx) : (s.modCtx id f).cxl = s.cxl := rfl
@[simp] theorem State.modCtx_device (s : State) (id : Nat) (f : Ctx → Ctx) : (s.modCtx id f).device = s.device := rfl
@[simp] theorem State.modCtx_inDomain (s : State) (id : Nat) (f : Ctx → Ctx) : (s.modCtx id f).inDomain = s.inDomain := rfl
@[simp] theorem State.modCtx_apart (s : State) (id : Nat) (f : Ctx → Ctx) : (s.modCtx id f).apart = s.apart := rfl
@[simp] theorem State.modCtx_offset (s : State) (id : Nat) (f : Ctx → Ctx) : (s.modCtx id f).offset = s.offset := rfl
@[simp] theorem State.modCtx_latency (s : State) (id : Nat) (f : Ctx → Ctx) : (s.modCtx id f).latency = s.latency := rfl
@[simp] theorem State.modCtx_notices (s : State) (id : Nat) (f : Ctx → Ctx) : (s.modCtx id f).notices = s.notices := rfl
@[simp] theorem State.modCtx_stretches (s : State) (id : Nat) (f : Ctx → Ctx) : (s.modCtx id f).stretches = s.stretches := rfl
@[simp] theorem State.modCtx_sweeps (s : State) (id : Nat) (f : Ctx → Ctx) : (s.modCtx id f).sweeps = s.sweeps := rfl
@[simp] theorem State.modCtx_sweepAt (s : State) (id : Nat) (f : Ctx → Ctx) : (s.modCtx id f).sweepAt = s.sweepAt := rfl
@[simp] theorem State.modCtx_quietRep (s : State) (id : Nat) (f : Ctx → Ctx) : (s.modCtx id f).quietRep = s.quietRep := rfl
@[simp] theorem State.modCtx_quietAt (s : State) (id : Nat) (f : Ctx → Ctx) : (s.modCtx id f).quietAt = s.quietAt := rfl
@[simp] theorem State.modCtx_activity (s : State) (id : Nat) (f : Ctx → Ctx) : (s.modCtx id f).activity = s.activity := rfl
@[simp] theorem State.modCtx_saved (s : State) (id : Nat) (f : Ctx → Ctx) : (s.modCtx id f).saved = s.saved := rfl
@[simp] theorem State.modCtx_records (s : State) (id : Nat) (f : Ctx → Ctx) : (s.modCtx id f).records = s.records := rfl
@[simp] theorem State.modCtx_errors (s : State) (id : Nat) (f : Ctx → Ctx) : (s.modCtx id f).errors = s.errors := rfl
@[simp] theorem State.modCtx_errTimes (s : State) (id : Nat) (f : Ctx → Ctx) : (s.modCtx id f).errTimes = s.errTimes := rfl
@[simp] theorem State.modCtx_alerts (s : State) (id : Nat) (f : Ctx → Ctx) : (s.modCtx id f).alerts = s.alerts := rfl
@[simp] theorem State.modCtx_errDrops (s : State) (id : Nat) (f : Ctx → Ctx) : (s.modCtx id f).errDrops = s.errDrops := rfl
@[simp] theorem State.modCtx_interrupts (s : State) (id : Nat) (f : Ctx → Ctx) : (s.modCtx id f).interrupts = s.interrupts := rfl
@[simp] theorem State.modCtx_images (s : State) (id : Nat) (f : Ctx → Ctx) : (s.modCtx id f).images = s.images := rfl
@[simp] theorem State.modCtx_keys (s : State) (id : Nat) (f : Ctx → Ctx) : (s.modCtx id f).keys = s.keys := rfl
@[simp] theorem State.modCtx_noVf (s : State) (id : Nat) (f : Ctx → Ctx) : (s.modCtx id f).noVf = s.noVf := rfl
@[simp] theorem State.modCtx_quantum (s : State) (id : Nat) (f : Ctx → Ctx) : (s.modCtx id f).quantum = s.quantum := rfl
@[simp] theorem State.modCtx_sliceWord (s : State) (id : Nat) (f : Ctx → Ctx) : (s.modCtx id f).sliceWord = s.sliceWord := rfl
@[simp] theorem State.modCtx_sliceFrom (s : State) (id : Nat) (f : Ctx → Ctx) : (s.modCtx id f).sliceFrom = s.sliceFrom := rfl
@[simp] theorem State.modCtx_idleFrom (s : State) (id : Nat) (f : Ctx → Ctx) : (s.modCtx id f).idleFrom = s.idleFrom := rfl
@[simp] theorem State.modCtx_journal (s : State) (id : Nat) (f : Ctx → Ctx) : (s.modCtx id f).journal = s.journal := rfl
@[simp] theorem State.modCtx_replayed (s : State) (id : Nat) (f : Ctx → Ctx) : (s.modCtx id f).replayed = s.replayed := rfl
@[simp] theorem State.modCtx_sdBegun (s : State) (id : Nat) (f : Ctx → Ctx) : (s.modCtx id f).sdBegun = s.sdBegun := rfl
@[simp] theorem State.modCtx_sdMark (s : State) (id : Nat) (f : Ctx → Ctx) : (s.modCtx id f).sdMark = s.sdMark := rfl
@[simp] theorem State.modCtx_powerMode (s : State) (id : Nat) (f : Ctx → Ctx) : (s.modCtx id f).powerMode = s.powerMode := rfl
@[simp] theorem State.modCtx_windowLog (s : State) (id : Nat) (f : Ctx → Ctx) : (s.modCtx id f).windowLog = s.windowLog := rfl
@[simp] theorem State.modCtx_winAsked (s : State) (id : Nat) (f : Ctx → Ctx) : (s.modCtx id f).winAsked = s.winAsked := rfl
@[simp] theorem State.modCtx_sysOld (s : State) (id : Nat) (f : Ctx → Ctx) : (s.modCtx id f).sysOld = s.sysOld := rfl
@[simp] theorem State.modCtx_lagged (s : State) (id : Nat) (f : Ctx → Ctx) : (s.modCtx id f).lagged = s.lagged := rfl

@[simp] theorem State.modMe_cycle (s : State) (f : Ctx → Ctx) : (s.modMe f).cycle = s.cycle := rfl
@[simp] theorem State.modMe_ptp (s : State) (f : Ctx → Ctx) : (s.modMe f).ptp = s.ptp := rfl
@[simp] theorem State.modMe_ptpFrac (s : State) (f : Ctx → Ctx) : (s.modMe f).ptpFrac = s.ptpFrac := rfl
@[simp] theorem State.modMe_cur (s : State) (f : Ctx → Ctx) : (s.modMe f).cur = s.cur := rfl
@[simp] theorem State.modMe_word0 (s : State) (f : Ctx → Ctx) : (s.modMe f).word0 = s.word0 := rfl
@[simp] theorem State.modMe_agenda (s : State) (f : Ctx → Ctx) : (s.modMe f).agenda = s.agenda := rfl
@[simp] theorem State.modMe_fresh (s : State) (f : Ctx → Ctx) : (s.modMe f).fresh = s.fresh := rfl
@[simp] theorem State.modMe_cleozTrap (s : State) (f : Ctx → Ctx) : (s.modMe f).cleozTrap = s.cleozTrap := rfl
@[simp] theorem State.modMe_cores (s : State) (f : Ctx → Ctx) : (s.modMe f).cores = s.cores := rfl
@[simp] theorem State.modMe_clusters (s : State) (f : Ctx → Ctx) : (s.modMe f).clusters = s.clusters := rfl
@[simp] theorem State.modMe_dies (s : State) (f : Ctx → Ctx) : (s.modMe f).dies = s.dies := rfl
@[simp] theorem State.modMe_hbm (s : State) (f : Ctx → Ctx) : (s.modMe f).hbm = s.hbm := rfl
@[simp] theorem State.modMe_mem (s : State) (f : Ctx → Ctx) : (s.modMe f).mem = s.mem := rfl
@[simp] theorem State.modMe_empties (s : State) (f : Ctx → Ctx) : (s.modMe f).empties = s.empties := rfl
@[simp] theorem State.modMe_poison (s : State) (f : Ctx → Ctx) : (s.modMe f).poison = s.poison := rfl
@[simp] theorem State.modMe_poisonRanges (s : State) (f : Ctx → Ctx) : (s.modMe f).poisonRanges = s.poisonRanges := rfl
@[simp] theorem State.modMe_flights (s : State) (f : Ctx → Ctx) : (s.modMe f).flights = s.flights := rfl
@[simp] theorem State.modMe_nextId (s : State) (f : Ctx → Ctx) : (s.modMe f).nextId = s.nextId := rfl
@[simp] theorem State.modMe_admin (s : State) (f : Ctx → Ctx) : (s.modMe f).admin = s.admin := rfl
@[simp] theorem State.modMe_boot (s : State) (f : Ctx → Ctx) : (s.modMe f).boot = s.boot := rfl
@[simp] theorem State.modMe_launches (s : State) (f : Ctx → Ctx) : (s.modMe f).launches = s.launches := rfl
@[simp] theorem State.modMe_settling (s : State) (f : Ctx → Ctx) : (s.modMe f).settling = s.settling := rfl
@[simp] theorem State.modMe_nextHandle (s : State) (f : Ctx → Ctx) : (s.modMe f).nextHandle = s.nextHandle := rfl
@[simp] theorem State.modMe_moors (s : State) (f : Ctx → Ctx) : (s.modMe f).moors = s.moors := rfl
@[simp] theorem State.modMe_slices (s : State) (f : Ctx → Ctx) : (s.modMe f).slices = s.slices := rfl
@[simp] theorem State.modMe_classes (s : State) (f : Ctx → Ctx) : (s.modMe f).classes = s.classes := rfl
@[simp] theorem State.modMe_arrival (s : State) (f : Ctx → Ctx) : (s.modMe f).arrival = s.arrival := rfl
@[simp] theorem State.modMe_groups (s : State) (f : Ctx → Ctx) : (s.modMe f).groups = s.groups := rfl
@[simp] theorem State.modMe_eth (s : State) (f : Ctx → Ctx) : (s.modMe f).eth = s.eth := rfl
@[simp] theorem State.modMe_udpPorts (s : State) (f : Ctx → Ctx) : (s.modMe f).udpPorts = s.udpPorts := rfl
@[simp] theorem State.modMe_queuePairs (s : State) (f : Ctx → Ctx) : (s.modMe f).queuePairs = s.queuePairs := rfl
@[simp] theorem State.modMe_sent (s : State) (f : Ctx → Ctx) : (s.modMe f).sent = s.sent := rfl
@[simp] theorem State.modMe_toCleoz (s : State) (f : Ctx → Ctx) : (s.modMe f).toCleoz = s.toCleoz := rfl
@[simp] theorem State.modMe_timing (s : State) (f : Ctx → Ctx) : (s.modMe f).timing = s.timing := rfl
@[simp] theorem State.modMe_tow (s : State) (f : Ctx → Ctx) : (s.modMe f).tow = s.tow := rfl
@[simp] theorem State.modMe_towOut (s : State) (f : Ctx → Ctx) : (s.modMe f).towOut = s.towOut := rfl
@[simp] theorem State.modMe_inbound (s : State) (f : Ctx → Ctx) : (s.modMe f).inbound = s.inbound := rfl
@[simp] theorem State.modMe_cxl (s : State) (f : Ctx → Ctx) : (s.modMe f).cxl = s.cxl := rfl
@[simp] theorem State.modMe_device (s : State) (f : Ctx → Ctx) : (s.modMe f).device = s.device := rfl
@[simp] theorem State.modMe_inDomain (s : State) (f : Ctx → Ctx) : (s.modMe f).inDomain = s.inDomain := rfl
@[simp] theorem State.modMe_apart (s : State) (f : Ctx → Ctx) : (s.modMe f).apart = s.apart := rfl
@[simp] theorem State.modMe_offset (s : State) (f : Ctx → Ctx) : (s.modMe f).offset = s.offset := rfl
@[simp] theorem State.modMe_latency (s : State) (f : Ctx → Ctx) : (s.modMe f).latency = s.latency := rfl
@[simp] theorem State.modMe_notices (s : State) (f : Ctx → Ctx) : (s.modMe f).notices = s.notices := rfl
@[simp] theorem State.modMe_stretches (s : State) (f : Ctx → Ctx) : (s.modMe f).stretches = s.stretches := rfl
@[simp] theorem State.modMe_sweeps (s : State) (f : Ctx → Ctx) : (s.modMe f).sweeps = s.sweeps := rfl
@[simp] theorem State.modMe_sweepAt (s : State) (f : Ctx → Ctx) : (s.modMe f).sweepAt = s.sweepAt := rfl
@[simp] theorem State.modMe_quietRep (s : State) (f : Ctx → Ctx) : (s.modMe f).quietRep = s.quietRep := rfl
@[simp] theorem State.modMe_quietAt (s : State) (f : Ctx → Ctx) : (s.modMe f).quietAt = s.quietAt := rfl
@[simp] theorem State.modMe_activity (s : State) (f : Ctx → Ctx) : (s.modMe f).activity = s.activity := rfl
@[simp] theorem State.modMe_saved (s : State) (f : Ctx → Ctx) : (s.modMe f).saved = s.saved := rfl
@[simp] theorem State.modMe_records (s : State) (f : Ctx → Ctx) : (s.modMe f).records = s.records := rfl
@[simp] theorem State.modMe_errors (s : State) (f : Ctx → Ctx) : (s.modMe f).errors = s.errors := rfl
@[simp] theorem State.modMe_errTimes (s : State) (f : Ctx → Ctx) : (s.modMe f).errTimes = s.errTimes := rfl
@[simp] theorem State.modMe_alerts (s : State) (f : Ctx → Ctx) : (s.modMe f).alerts = s.alerts := rfl
@[simp] theorem State.modMe_errDrops (s : State) (f : Ctx → Ctx) : (s.modMe f).errDrops = s.errDrops := rfl
@[simp] theorem State.modMe_interrupts (s : State) (f : Ctx → Ctx) : (s.modMe f).interrupts = s.interrupts := rfl
@[simp] theorem State.modMe_images (s : State) (f : Ctx → Ctx) : (s.modMe f).images = s.images := rfl
@[simp] theorem State.modMe_keys (s : State) (f : Ctx → Ctx) : (s.modMe f).keys = s.keys := rfl
@[simp] theorem State.modMe_noVf (s : State) (f : Ctx → Ctx) : (s.modMe f).noVf = s.noVf := rfl
@[simp] theorem State.modMe_quantum (s : State) (f : Ctx → Ctx) : (s.modMe f).quantum = s.quantum := rfl
@[simp] theorem State.modMe_sliceWord (s : State) (f : Ctx → Ctx) : (s.modMe f).sliceWord = s.sliceWord := rfl
@[simp] theorem State.modMe_sliceFrom (s : State) (f : Ctx → Ctx) : (s.modMe f).sliceFrom = s.sliceFrom := rfl
@[simp] theorem State.modMe_idleFrom (s : State) (f : Ctx → Ctx) : (s.modMe f).idleFrom = s.idleFrom := rfl
@[simp] theorem State.modMe_journal (s : State) (f : Ctx → Ctx) : (s.modMe f).journal = s.journal := rfl
@[simp] theorem State.modMe_replayed (s : State) (f : Ctx → Ctx) : (s.modMe f).replayed = s.replayed := rfl
@[simp] theorem State.modMe_sdBegun (s : State) (f : Ctx → Ctx) : (s.modMe f).sdBegun = s.sdBegun := rfl
@[simp] theorem State.modMe_sdMark (s : State) (f : Ctx → Ctx) : (s.modMe f).sdMark = s.sdMark := rfl
@[simp] theorem State.modMe_powerMode (s : State) (f : Ctx → Ctx) : (s.modMe f).powerMode = s.powerMode := rfl
@[simp] theorem State.modMe_windowLog (s : State) (f : Ctx → Ctx) : (s.modMe f).windowLog = s.windowLog := rfl
@[simp] theorem State.modMe_winAsked (s : State) (f : Ctx → Ctx) : (s.modMe f).winAsked = s.winAsked := rfl
@[simp] theorem State.modMe_sysOld (s : State) (f : Ctx → Ctx) : (s.modMe f).sysOld = s.sysOld := rfl
@[simp] theorem State.modMe_lagged (s : State) (f : Ctx → Ctx) : (s.modMe f).lagged = s.lagged := rfl

@[simp] theorem State.wr_cycle (s : State) (d : R6) (v : W64) : (s.wr d v).cycle = s.cycle := rfl
@[simp] theorem State.wr_ptp (s : State) (d : R6) (v : W64) : (s.wr d v).ptp = s.ptp := rfl
@[simp] theorem State.wr_ptpFrac (s : State) (d : R6) (v : W64) : (s.wr d v).ptpFrac = s.ptpFrac := rfl
@[simp] theorem State.wr_cur (s : State) (d : R6) (v : W64) : (s.wr d v).cur = s.cur := rfl
@[simp] theorem State.wr_word0 (s : State) (d : R6) (v : W64) : (s.wr d v).word0 = s.word0 := rfl
@[simp] theorem State.wr_agenda (s : State) (d : R6) (v : W64) : (s.wr d v).agenda = s.agenda := rfl
@[simp] theorem State.wr_fresh (s : State) (d : R6) (v : W64) : (s.wr d v).fresh = s.fresh := rfl
@[simp] theorem State.wr_cleozTrap (s : State) (d : R6) (v : W64) : (s.wr d v).cleozTrap = s.cleozTrap := rfl
@[simp] theorem State.wr_cores (s : State) (d : R6) (v : W64) : (s.wr d v).cores = s.cores := rfl
@[simp] theorem State.wr_clusters (s : State) (d : R6) (v : W64) : (s.wr d v).clusters = s.clusters := rfl
@[simp] theorem State.wr_dies (s : State) (d : R6) (v : W64) : (s.wr d v).dies = s.dies := rfl
@[simp] theorem State.wr_hbm (s : State) (d : R6) (v : W64) : (s.wr d v).hbm = s.hbm := rfl
@[simp] theorem State.wr_mem (s : State) (d : R6) (v : W64) : (s.wr d v).mem = s.mem := rfl
@[simp] theorem State.wr_empties (s : State) (d : R6) (v : W64) : (s.wr d v).empties = s.empties := rfl
@[simp] theorem State.wr_poison (s : State) (d : R6) (v : W64) : (s.wr d v).poison = s.poison := rfl
@[simp] theorem State.wr_poisonRanges (s : State) (d : R6) (v : W64) : (s.wr d v).poisonRanges = s.poisonRanges := rfl
@[simp] theorem State.wr_flights (s : State) (d : R6) (v : W64) : (s.wr d v).flights = s.flights := rfl
@[simp] theorem State.wr_nextId (s : State) (d : R6) (v : W64) : (s.wr d v).nextId = s.nextId := rfl
@[simp] theorem State.wr_admin (s : State) (d : R6) (v : W64) : (s.wr d v).admin = s.admin := rfl
@[simp] theorem State.wr_boot (s : State) (d : R6) (v : W64) : (s.wr d v).boot = s.boot := rfl
@[simp] theorem State.wr_launches (s : State) (d : R6) (v : W64) : (s.wr d v).launches = s.launches := rfl
@[simp] theorem State.wr_settling (s : State) (d : R6) (v : W64) : (s.wr d v).settling = s.settling := rfl
@[simp] theorem State.wr_nextHandle (s : State) (d : R6) (v : W64) : (s.wr d v).nextHandle = s.nextHandle := rfl
@[simp] theorem State.wr_moors (s : State) (d : R6) (v : W64) : (s.wr d v).moors = s.moors := rfl
@[simp] theorem State.wr_slices (s : State) (d : R6) (v : W64) : (s.wr d v).slices = s.slices := rfl
@[simp] theorem State.wr_classes (s : State) (d : R6) (v : W64) : (s.wr d v).classes = s.classes := rfl
@[simp] theorem State.wr_arrival (s : State) (d : R6) (v : W64) : (s.wr d v).arrival = s.arrival := rfl
@[simp] theorem State.wr_groups (s : State) (d : R6) (v : W64) : (s.wr d v).groups = s.groups := rfl
@[simp] theorem State.wr_eth (s : State) (d : R6) (v : W64) : (s.wr d v).eth = s.eth := rfl
@[simp] theorem State.wr_udpPorts (s : State) (d : R6) (v : W64) : (s.wr d v).udpPorts = s.udpPorts := rfl
@[simp] theorem State.wr_queuePairs (s : State) (d : R6) (v : W64) : (s.wr d v).queuePairs = s.queuePairs := rfl
@[simp] theorem State.wr_sent (s : State) (d : R6) (v : W64) : (s.wr d v).sent = s.sent := rfl
@[simp] theorem State.wr_toCleoz (s : State) (d : R6) (v : W64) : (s.wr d v).toCleoz = s.toCleoz := rfl
@[simp] theorem State.wr_timing (s : State) (d : R6) (v : W64) : (s.wr d v).timing = s.timing := rfl
@[simp] theorem State.wr_tow (s : State) (d : R6) (v : W64) : (s.wr d v).tow = s.tow := rfl
@[simp] theorem State.wr_towOut (s : State) (d : R6) (v : W64) : (s.wr d v).towOut = s.towOut := rfl
@[simp] theorem State.wr_inbound (s : State) (d : R6) (v : W64) : (s.wr d v).inbound = s.inbound := rfl
@[simp] theorem State.wr_cxl (s : State) (d : R6) (v : W64) : (s.wr d v).cxl = s.cxl := rfl
@[simp] theorem State.wr_device (s : State) (d : R6) (v : W64) : (s.wr d v).device = s.device := rfl
@[simp] theorem State.wr_inDomain (s : State) (d : R6) (v : W64) : (s.wr d v).inDomain = s.inDomain := rfl
@[simp] theorem State.wr_apart (s : State) (d : R6) (v : W64) : (s.wr d v).apart = s.apart := rfl
@[simp] theorem State.wr_offset (s : State) (d : R6) (v : W64) : (s.wr d v).offset = s.offset := rfl
@[simp] theorem State.wr_latency (s : State) (d : R6) (v : W64) : (s.wr d v).latency = s.latency := rfl
@[simp] theorem State.wr_notices (s : State) (d : R6) (v : W64) : (s.wr d v).notices = s.notices := rfl
@[simp] theorem State.wr_stretches (s : State) (d : R6) (v : W64) : (s.wr d v).stretches = s.stretches := rfl
@[simp] theorem State.wr_sweeps (s : State) (d : R6) (v : W64) : (s.wr d v).sweeps = s.sweeps := rfl
@[simp] theorem State.wr_sweepAt (s : State) (d : R6) (v : W64) : (s.wr d v).sweepAt = s.sweepAt := rfl
@[simp] theorem State.wr_quietRep (s : State) (d : R6) (v : W64) : (s.wr d v).quietRep = s.quietRep := rfl
@[simp] theorem State.wr_quietAt (s : State) (d : R6) (v : W64) : (s.wr d v).quietAt = s.quietAt := rfl
@[simp] theorem State.wr_activity (s : State) (d : R6) (v : W64) : (s.wr d v).activity = s.activity := rfl
@[simp] theorem State.wr_saved (s : State) (d : R6) (v : W64) : (s.wr d v).saved = s.saved := rfl
@[simp] theorem State.wr_records (s : State) (d : R6) (v : W64) : (s.wr d v).records = s.records := rfl
@[simp] theorem State.wr_errors (s : State) (d : R6) (v : W64) : (s.wr d v).errors = s.errors := rfl
@[simp] theorem State.wr_errTimes (s : State) (d : R6) (v : W64) : (s.wr d v).errTimes = s.errTimes := rfl
@[simp] theorem State.wr_alerts (s : State) (d : R6) (v : W64) : (s.wr d v).alerts = s.alerts := rfl
@[simp] theorem State.wr_errDrops (s : State) (d : R6) (v : W64) : (s.wr d v).errDrops = s.errDrops := rfl
@[simp] theorem State.wr_interrupts (s : State) (d : R6) (v : W64) : (s.wr d v).interrupts = s.interrupts := rfl
@[simp] theorem State.wr_images (s : State) (d : R6) (v : W64) : (s.wr d v).images = s.images := rfl
@[simp] theorem State.wr_keys (s : State) (d : R6) (v : W64) : (s.wr d v).keys = s.keys := rfl
@[simp] theorem State.wr_noVf (s : State) (d : R6) (v : W64) : (s.wr d v).noVf = s.noVf := rfl
@[simp] theorem State.wr_quantum (s : State) (d : R6) (v : W64) : (s.wr d v).quantum = s.quantum := rfl
@[simp] theorem State.wr_sliceWord (s : State) (d : R6) (v : W64) : (s.wr d v).sliceWord = s.sliceWord := rfl
@[simp] theorem State.wr_sliceFrom (s : State) (d : R6) (v : W64) : (s.wr d v).sliceFrom = s.sliceFrom := rfl
@[simp] theorem State.wr_idleFrom (s : State) (d : R6) (v : W64) : (s.wr d v).idleFrom = s.idleFrom := rfl
@[simp] theorem State.wr_journal (s : State) (d : R6) (v : W64) : (s.wr d v).journal = s.journal := rfl
@[simp] theorem State.wr_replayed (s : State) (d : R6) (v : W64) : (s.wr d v).replayed = s.replayed := rfl
@[simp] theorem State.wr_sdBegun (s : State) (d : R6) (v : W64) : (s.wr d v).sdBegun = s.sdBegun := rfl
@[simp] theorem State.wr_sdMark (s : State) (d : R6) (v : W64) : (s.wr d v).sdMark = s.sdMark := rfl
@[simp] theorem State.wr_powerMode (s : State) (d : R6) (v : W64) : (s.wr d v).powerMode = s.powerMode := rfl
@[simp] theorem State.wr_windowLog (s : State) (d : R6) (v : W64) : (s.wr d v).windowLog = s.windowLog := rfl
@[simp] theorem State.wr_winAsked (s : State) (d : R6) (v : W64) : (s.wr d v).winAsked = s.winAsked := rfl
@[simp] theorem State.wr_sysOld (s : State) (d : R6) (v : W64) : (s.wr d v).sysOld = s.sysOld := rfl
@[simp] theorem State.wr_lagged (s : State) (d : R6) (v : W64) : (s.wr d v).lagged = s.lagged := rfl

@[simp] theorem State.wrLate_cycle (s : State) (d : R6) (v : W64) (n : Nat) : (s.wrLate d v n).cycle = s.cycle := rfl
@[simp] theorem State.wrLate_ptp (s : State) (d : R6) (v : W64) (n : Nat) : (s.wrLate d v n).ptp = s.ptp := rfl
@[simp] theorem State.wrLate_ptpFrac (s : State) (d : R6) (v : W64) (n : Nat) : (s.wrLate d v n).ptpFrac = s.ptpFrac := rfl
@[simp] theorem State.wrLate_cur (s : State) (d : R6) (v : W64) (n : Nat) : (s.wrLate d v n).cur = s.cur := rfl
@[simp] theorem State.wrLate_word0 (s : State) (d : R6) (v : W64) (n : Nat) : (s.wrLate d v n).word0 = s.word0 := rfl
@[simp] theorem State.wrLate_agenda (s : State) (d : R6) (v : W64) (n : Nat) : (s.wrLate d v n).agenda = s.agenda := rfl
@[simp] theorem State.wrLate_fresh (s : State) (d : R6) (v : W64) (n : Nat) : (s.wrLate d v n).fresh = s.fresh := rfl
@[simp] theorem State.wrLate_cleozTrap (s : State) (d : R6) (v : W64) (n : Nat) : (s.wrLate d v n).cleozTrap = s.cleozTrap := rfl
@[simp] theorem State.wrLate_cores (s : State) (d : R6) (v : W64) (n : Nat) : (s.wrLate d v n).cores = s.cores := rfl
@[simp] theorem State.wrLate_clusters (s : State) (d : R6) (v : W64) (n : Nat) : (s.wrLate d v n).clusters = s.clusters := rfl
@[simp] theorem State.wrLate_dies (s : State) (d : R6) (v : W64) (n : Nat) : (s.wrLate d v n).dies = s.dies := rfl
@[simp] theorem State.wrLate_hbm (s : State) (d : R6) (v : W64) (n : Nat) : (s.wrLate d v n).hbm = s.hbm := rfl
@[simp] theorem State.wrLate_mem (s : State) (d : R6) (v : W64) (n : Nat) : (s.wrLate d v n).mem = s.mem := rfl
@[simp] theorem State.wrLate_empties (s : State) (d : R6) (v : W64) (n : Nat) : (s.wrLate d v n).empties = s.empties := rfl
@[simp] theorem State.wrLate_poison (s : State) (d : R6) (v : W64) (n : Nat) : (s.wrLate d v n).poison = s.poison := rfl
@[simp] theorem State.wrLate_poisonRanges (s : State) (d : R6) (v : W64) (n : Nat) : (s.wrLate d v n).poisonRanges = s.poisonRanges := rfl
@[simp] theorem State.wrLate_flights (s : State) (d : R6) (v : W64) (n : Nat) : (s.wrLate d v n).flights = s.flights := rfl
@[simp] theorem State.wrLate_nextId (s : State) (d : R6) (v : W64) (n : Nat) : (s.wrLate d v n).nextId = s.nextId := rfl
@[simp] theorem State.wrLate_admin (s : State) (d : R6) (v : W64) (n : Nat) : (s.wrLate d v n).admin = s.admin := rfl
@[simp] theorem State.wrLate_boot (s : State) (d : R6) (v : W64) (n : Nat) : (s.wrLate d v n).boot = s.boot := rfl
@[simp] theorem State.wrLate_launches (s : State) (d : R6) (v : W64) (n : Nat) : (s.wrLate d v n).launches = s.launches := rfl
@[simp] theorem State.wrLate_settling (s : State) (d : R6) (v : W64) (n : Nat) : (s.wrLate d v n).settling = s.settling := rfl
@[simp] theorem State.wrLate_nextHandle (s : State) (d : R6) (v : W64) (n : Nat) : (s.wrLate d v n).nextHandle = s.nextHandle := rfl
@[simp] theorem State.wrLate_moors (s : State) (d : R6) (v : W64) (n : Nat) : (s.wrLate d v n).moors = s.moors := rfl
@[simp] theorem State.wrLate_slices (s : State) (d : R6) (v : W64) (n : Nat) : (s.wrLate d v n).slices = s.slices := rfl
@[simp] theorem State.wrLate_classes (s : State) (d : R6) (v : W64) (n : Nat) : (s.wrLate d v n).classes = s.classes := rfl
@[simp] theorem State.wrLate_arrival (s : State) (d : R6) (v : W64) (n : Nat) : (s.wrLate d v n).arrival = s.arrival := rfl
@[simp] theorem State.wrLate_groups (s : State) (d : R6) (v : W64) (n : Nat) : (s.wrLate d v n).groups = s.groups := rfl
@[simp] theorem State.wrLate_eth (s : State) (d : R6) (v : W64) (n : Nat) : (s.wrLate d v n).eth = s.eth := rfl
@[simp] theorem State.wrLate_udpPorts (s : State) (d : R6) (v : W64) (n : Nat) : (s.wrLate d v n).udpPorts = s.udpPorts := rfl
@[simp] theorem State.wrLate_queuePairs (s : State) (d : R6) (v : W64) (n : Nat) : (s.wrLate d v n).queuePairs = s.queuePairs := rfl
@[simp] theorem State.wrLate_sent (s : State) (d : R6) (v : W64) (n : Nat) : (s.wrLate d v n).sent = s.sent := rfl
@[simp] theorem State.wrLate_toCleoz (s : State) (d : R6) (v : W64) (n : Nat) : (s.wrLate d v n).toCleoz = s.toCleoz := rfl
@[simp] theorem State.wrLate_timing (s : State) (d : R6) (v : W64) (n : Nat) : (s.wrLate d v n).timing = s.timing := rfl
@[simp] theorem State.wrLate_tow (s : State) (d : R6) (v : W64) (n : Nat) : (s.wrLate d v n).tow = s.tow := rfl
@[simp] theorem State.wrLate_towOut (s : State) (d : R6) (v : W64) (n : Nat) : (s.wrLate d v n).towOut = s.towOut := rfl
@[simp] theorem State.wrLate_inbound (s : State) (d : R6) (v : W64) (n : Nat) : (s.wrLate d v n).inbound = s.inbound := rfl
@[simp] theorem State.wrLate_cxl (s : State) (d : R6) (v : W64) (n : Nat) : (s.wrLate d v n).cxl = s.cxl := rfl
@[simp] theorem State.wrLate_device (s : State) (d : R6) (v : W64) (n : Nat) : (s.wrLate d v n).device = s.device := rfl
@[simp] theorem State.wrLate_inDomain (s : State) (d : R6) (v : W64) (n : Nat) : (s.wrLate d v n).inDomain = s.inDomain := rfl
@[simp] theorem State.wrLate_apart (s : State) (d : R6) (v : W64) (n : Nat) : (s.wrLate d v n).apart = s.apart := rfl
@[simp] theorem State.wrLate_offset (s : State) (d : R6) (v : W64) (n : Nat) : (s.wrLate d v n).offset = s.offset := rfl
@[simp] theorem State.wrLate_latency (s : State) (d : R6) (v : W64) (n : Nat) : (s.wrLate d v n).latency = s.latency := rfl
@[simp] theorem State.wrLate_notices (s : State) (d : R6) (v : W64) (n : Nat) : (s.wrLate d v n).notices = s.notices := rfl
@[simp] theorem State.wrLate_stretches (s : State) (d : R6) (v : W64) (n : Nat) : (s.wrLate d v n).stretches = s.stretches := rfl
@[simp] theorem State.wrLate_sweeps (s : State) (d : R6) (v : W64) (n : Nat) : (s.wrLate d v n).sweeps = s.sweeps := rfl
@[simp] theorem State.wrLate_sweepAt (s : State) (d : R6) (v : W64) (n : Nat) : (s.wrLate d v n).sweepAt = s.sweepAt := rfl
@[simp] theorem State.wrLate_quietRep (s : State) (d : R6) (v : W64) (n : Nat) : (s.wrLate d v n).quietRep = s.quietRep := rfl
@[simp] theorem State.wrLate_quietAt (s : State) (d : R6) (v : W64) (n : Nat) : (s.wrLate d v n).quietAt = s.quietAt := rfl
@[simp] theorem State.wrLate_activity (s : State) (d : R6) (v : W64) (n : Nat) : (s.wrLate d v n).activity = s.activity := rfl
@[simp] theorem State.wrLate_saved (s : State) (d : R6) (v : W64) (n : Nat) : (s.wrLate d v n).saved = s.saved := rfl
@[simp] theorem State.wrLate_records (s : State) (d : R6) (v : W64) (n : Nat) : (s.wrLate d v n).records = s.records := rfl
@[simp] theorem State.wrLate_errors (s : State) (d : R6) (v : W64) (n : Nat) : (s.wrLate d v n).errors = s.errors := rfl
@[simp] theorem State.wrLate_errTimes (s : State) (d : R6) (v : W64) (n : Nat) : (s.wrLate d v n).errTimes = s.errTimes := rfl
@[simp] theorem State.wrLate_alerts (s : State) (d : R6) (v : W64) (n : Nat) : (s.wrLate d v n).alerts = s.alerts := rfl
@[simp] theorem State.wrLate_errDrops (s : State) (d : R6) (v : W64) (n : Nat) : (s.wrLate d v n).errDrops = s.errDrops := rfl
@[simp] theorem State.wrLate_interrupts (s : State) (d : R6) (v : W64) (n : Nat) : (s.wrLate d v n).interrupts = s.interrupts := rfl
@[simp] theorem State.wrLate_images (s : State) (d : R6) (v : W64) (n : Nat) : (s.wrLate d v n).images = s.images := rfl
@[simp] theorem State.wrLate_keys (s : State) (d : R6) (v : W64) (n : Nat) : (s.wrLate d v n).keys = s.keys := rfl
@[simp] theorem State.wrLate_noVf (s : State) (d : R6) (v : W64) (n : Nat) : (s.wrLate d v n).noVf = s.noVf := rfl
@[simp] theorem State.wrLate_quantum (s : State) (d : R6) (v : W64) (n : Nat) : (s.wrLate d v n).quantum = s.quantum := rfl
@[simp] theorem State.wrLate_sliceWord (s : State) (d : R6) (v : W64) (n : Nat) : (s.wrLate d v n).sliceWord = s.sliceWord := rfl
@[simp] theorem State.wrLate_sliceFrom (s : State) (d : R6) (v : W64) (n : Nat) : (s.wrLate d v n).sliceFrom = s.sliceFrom := rfl
@[simp] theorem State.wrLate_idleFrom (s : State) (d : R6) (v : W64) (n : Nat) : (s.wrLate d v n).idleFrom = s.idleFrom := rfl
@[simp] theorem State.wrLate_journal (s : State) (d : R6) (v : W64) (n : Nat) : (s.wrLate d v n).journal = s.journal := rfl
@[simp] theorem State.wrLate_replayed (s : State) (d : R6) (v : W64) (n : Nat) : (s.wrLate d v n).replayed = s.replayed := rfl
@[simp] theorem State.wrLate_sdBegun (s : State) (d : R6) (v : W64) (n : Nat) : (s.wrLate d v n).sdBegun = s.sdBegun := rfl
@[simp] theorem State.wrLate_sdMark (s : State) (d : R6) (v : W64) (n : Nat) : (s.wrLate d v n).sdMark = s.sdMark := rfl
@[simp] theorem State.wrLate_powerMode (s : State) (d : R6) (v : W64) (n : Nat) : (s.wrLate d v n).powerMode = s.powerMode := rfl
@[simp] theorem State.wrLate_windowLog (s : State) (d : R6) (v : W64) (n : Nat) : (s.wrLate d v n).windowLog = s.windowLog := rfl
@[simp] theorem State.wrLate_winAsked (s : State) (d : R6) (v : W64) (n : Nat) : (s.wrLate d v n).winAsked = s.winAsked := rfl
@[simp] theorem State.wrLate_sysOld (s : State) (d : R6) (v : W64) (n : Nat) : (s.wrLate d v n).sysOld = s.sysOld := rfl
@[simp] theorem State.wrLate_lagged (s : State) (d : R6) (v : W64) (n : Nat) : (s.wrLate d v n).lagged = s.lagged := rfl

@[simp] theorem State.finish_cycle (s : State) (o : Op) : (s.finish o).cycle = s.cycle := rfl
@[simp] theorem State.finish_ptp (s : State) (o : Op) : (s.finish o).ptp = s.ptp := rfl
@[simp] theorem State.finish_ptpFrac (s : State) (o : Op) : (s.finish o).ptpFrac = s.ptpFrac := rfl
@[simp] theorem State.finish_cur (s : State) (o : Op) : (s.finish o).cur = s.cur := rfl
@[simp] theorem State.finish_word0 (s : State) (o : Op) : (s.finish o).word0 = s.word0 := rfl
@[simp] theorem State.finish_agenda (s : State) (o : Op) : (s.finish o).agenda = s.agenda := rfl
@[simp] theorem State.finish_fresh (s : State) (o : Op) : (s.finish o).fresh = s.fresh := rfl
@[simp] theorem State.finish_cleozTrap (s : State) (o : Op) : (s.finish o).cleozTrap = s.cleozTrap := rfl
@[simp] theorem State.finish_cores (s : State) (o : Op) : (s.finish o).cores = s.cores := rfl
@[simp] theorem State.finish_clusters (s : State) (o : Op) : (s.finish o).clusters = s.clusters := rfl
@[simp] theorem State.finish_dies (s : State) (o : Op) : (s.finish o).dies = s.dies := rfl
@[simp] theorem State.finish_hbm (s : State) (o : Op) : (s.finish o).hbm = s.hbm := rfl
@[simp] theorem State.finish_mem (s : State) (o : Op) : (s.finish o).mem = s.mem := rfl
@[simp] theorem State.finish_empties (s : State) (o : Op) : (s.finish o).empties = s.empties := rfl
@[simp] theorem State.finish_poison (s : State) (o : Op) : (s.finish o).poison = s.poison := rfl
@[simp] theorem State.finish_poisonRanges (s : State) (o : Op) : (s.finish o).poisonRanges = s.poisonRanges := rfl
@[simp] theorem State.finish_flights (s : State) (o : Op) : (s.finish o).flights = s.flights := rfl
@[simp] theorem State.finish_nextId (s : State) (o : Op) : (s.finish o).nextId = s.nextId := rfl
@[simp] theorem State.finish_admin (s : State) (o : Op) : (s.finish o).admin = s.admin := rfl
@[simp] theorem State.finish_boot (s : State) (o : Op) : (s.finish o).boot = s.boot := rfl
@[simp] theorem State.finish_launches (s : State) (o : Op) : (s.finish o).launches = s.launches := rfl
@[simp] theorem State.finish_settling (s : State) (o : Op) : (s.finish o).settling = s.settling := rfl
@[simp] theorem State.finish_nextHandle (s : State) (o : Op) : (s.finish o).nextHandle = s.nextHandle := rfl
@[simp] theorem State.finish_moors (s : State) (o : Op) : (s.finish o).moors = s.moors := rfl
@[simp] theorem State.finish_slices (s : State) (o : Op) : (s.finish o).slices = s.slices := rfl
@[simp] theorem State.finish_classes (s : State) (o : Op) : (s.finish o).classes = s.classes := rfl
@[simp] theorem State.finish_arrival (s : State) (o : Op) : (s.finish o).arrival = s.arrival := rfl
@[simp] theorem State.finish_groups (s : State) (o : Op) : (s.finish o).groups = s.groups := rfl
@[simp] theorem State.finish_eth (s : State) (o : Op) : (s.finish o).eth = s.eth := rfl
@[simp] theorem State.finish_udpPorts (s : State) (o : Op) : (s.finish o).udpPorts = s.udpPorts := rfl
@[simp] theorem State.finish_queuePairs (s : State) (o : Op) : (s.finish o).queuePairs = s.queuePairs := rfl
@[simp] theorem State.finish_sent (s : State) (o : Op) : (s.finish o).sent = s.sent := rfl
@[simp] theorem State.finish_toCleoz (s : State) (o : Op) : (s.finish o).toCleoz = s.toCleoz := rfl
@[simp] theorem State.finish_timing (s : State) (o : Op) : (s.finish o).timing = s.timing := rfl
@[simp] theorem State.finish_tow (s : State) (o : Op) : (s.finish o).tow = s.tow := rfl
@[simp] theorem State.finish_towOut (s : State) (o : Op) : (s.finish o).towOut = s.towOut := rfl
@[simp] theorem State.finish_inbound (s : State) (o : Op) : (s.finish o).inbound = s.inbound := rfl
@[simp] theorem State.finish_cxl (s : State) (o : Op) : (s.finish o).cxl = s.cxl := rfl
@[simp] theorem State.finish_device (s : State) (o : Op) : (s.finish o).device = s.device := rfl
@[simp] theorem State.finish_inDomain (s : State) (o : Op) : (s.finish o).inDomain = s.inDomain := rfl
@[simp] theorem State.finish_apart (s : State) (o : Op) : (s.finish o).apart = s.apart := rfl
@[simp] theorem State.finish_offset (s : State) (o : Op) : (s.finish o).offset = s.offset := rfl
@[simp] theorem State.finish_latency (s : State) (o : Op) : (s.finish o).latency = s.latency := rfl
@[simp] theorem State.finish_notices (s : State) (o : Op) : (s.finish o).notices = s.notices := rfl
@[simp] theorem State.finish_stretches (s : State) (o : Op) : (s.finish o).stretches = s.stretches := rfl
@[simp] theorem State.finish_sweeps (s : State) (o : Op) : (s.finish o).sweeps = s.sweeps := rfl
@[simp] theorem State.finish_sweepAt (s : State) (o : Op) : (s.finish o).sweepAt = s.sweepAt := rfl
@[simp] theorem State.finish_quietRep (s : State) (o : Op) : (s.finish o).quietRep = s.quietRep := rfl
@[simp] theorem State.finish_quietAt (s : State) (o : Op) : (s.finish o).quietAt = s.quietAt := rfl
@[simp] theorem State.finish_activity (s : State) (o : Op) : (s.finish o).activity = s.activity := rfl
@[simp] theorem State.finish_saved (s : State) (o : Op) : (s.finish o).saved = s.saved := rfl
@[simp] theorem State.finish_records (s : State) (o : Op) : (s.finish o).records = s.records := rfl
@[simp] theorem State.finish_errors (s : State) (o : Op) : (s.finish o).errors = s.errors := rfl
@[simp] theorem State.finish_errTimes (s : State) (o : Op) : (s.finish o).errTimes = s.errTimes := rfl
@[simp] theorem State.finish_alerts (s : State) (o : Op) : (s.finish o).alerts = s.alerts := rfl
@[simp] theorem State.finish_errDrops (s : State) (o : Op) : (s.finish o).errDrops = s.errDrops := rfl
@[simp] theorem State.finish_interrupts (s : State) (o : Op) : (s.finish o).interrupts = s.interrupts := rfl
@[simp] theorem State.finish_images (s : State) (o : Op) : (s.finish o).images = s.images := rfl
@[simp] theorem State.finish_keys (s : State) (o : Op) : (s.finish o).keys = s.keys := rfl
@[simp] theorem State.finish_noVf (s : State) (o : Op) : (s.finish o).noVf = s.noVf := rfl
@[simp] theorem State.finish_quantum (s : State) (o : Op) : (s.finish o).quantum = s.quantum := rfl
@[simp] theorem State.finish_sliceWord (s : State) (o : Op) : (s.finish o).sliceWord = s.sliceWord := rfl
@[simp] theorem State.finish_sliceFrom (s : State) (o : Op) : (s.finish o).sliceFrom = s.sliceFrom := rfl
@[simp] theorem State.finish_idleFrom (s : State) (o : Op) : (s.finish o).idleFrom = s.idleFrom := rfl
@[simp] theorem State.finish_journal (s : State) (o : Op) : (s.finish o).journal = s.journal := rfl
@[simp] theorem State.finish_replayed (s : State) (o : Op) : (s.finish o).replayed = s.replayed := rfl
@[simp] theorem State.finish_sdBegun (s : State) (o : Op) : (s.finish o).sdBegun = s.sdBegun := rfl
@[simp] theorem State.finish_sdMark (s : State) (o : Op) : (s.finish o).sdMark = s.sdMark := rfl
@[simp] theorem State.finish_powerMode (s : State) (o : Op) : (s.finish o).powerMode = s.powerMode := rfl
@[simp] theorem State.finish_windowLog (s : State) (o : Op) : (s.finish o).windowLog = s.windowLog := rfl
@[simp] theorem State.finish_winAsked (s : State) (o : Op) : (s.finish o).winAsked = s.winAsked := rfl
@[simp] theorem State.finish_sysOld (s : State) (o : Op) : (s.finish o).sysOld = s.sysOld := rfl
@[simp] theorem State.finish_lagged (s : State) (o : Op) : (s.finish o).lagged = s.lagged := rfl

@[simp] theorem State.branch_cycle (s : State) (o : Op) (a : W64) : (s.branch o a).cycle = s.cycle := rfl
@[simp] theorem State.branch_ptp (s : State) (o : Op) (a : W64) : (s.branch o a).ptp = s.ptp := rfl
@[simp] theorem State.branch_ptpFrac (s : State) (o : Op) (a : W64) : (s.branch o a).ptpFrac = s.ptpFrac := rfl
@[simp] theorem State.branch_cur (s : State) (o : Op) (a : W64) : (s.branch o a).cur = s.cur := rfl
@[simp] theorem State.branch_word0 (s : State) (o : Op) (a : W64) : (s.branch o a).word0 = s.word0 := rfl
@[simp] theorem State.branch_agenda (s : State) (o : Op) (a : W64) : (s.branch o a).agenda = s.agenda := rfl
@[simp] theorem State.branch_fresh (s : State) (o : Op) (a : W64) : (s.branch o a).fresh = s.fresh := rfl
@[simp] theorem State.branch_cleozTrap (s : State) (o : Op) (a : W64) : (s.branch o a).cleozTrap = s.cleozTrap := rfl
@[simp] theorem State.branch_cores (s : State) (o : Op) (a : W64) : (s.branch o a).cores = s.cores := rfl
@[simp] theorem State.branch_clusters (s : State) (o : Op) (a : W64) : (s.branch o a).clusters = s.clusters := rfl
@[simp] theorem State.branch_dies (s : State) (o : Op) (a : W64) : (s.branch o a).dies = s.dies := rfl
@[simp] theorem State.branch_hbm (s : State) (o : Op) (a : W64) : (s.branch o a).hbm = s.hbm := rfl
@[simp] theorem State.branch_mem (s : State) (o : Op) (a : W64) : (s.branch o a).mem = s.mem := rfl
@[simp] theorem State.branch_empties (s : State) (o : Op) (a : W64) : (s.branch o a).empties = s.empties := rfl
@[simp] theorem State.branch_poison (s : State) (o : Op) (a : W64) : (s.branch o a).poison = s.poison := rfl
@[simp] theorem State.branch_poisonRanges (s : State) (o : Op) (a : W64) : (s.branch o a).poisonRanges = s.poisonRanges := rfl
@[simp] theorem State.branch_flights (s : State) (o : Op) (a : W64) : (s.branch o a).flights = s.flights := rfl
@[simp] theorem State.branch_nextId (s : State) (o : Op) (a : W64) : (s.branch o a).nextId = s.nextId := rfl
@[simp] theorem State.branch_admin (s : State) (o : Op) (a : W64) : (s.branch o a).admin = s.admin := rfl
@[simp] theorem State.branch_boot (s : State) (o : Op) (a : W64) : (s.branch o a).boot = s.boot := rfl
@[simp] theorem State.branch_launches (s : State) (o : Op) (a : W64) : (s.branch o a).launches = s.launches := rfl
@[simp] theorem State.branch_settling (s : State) (o : Op) (a : W64) : (s.branch o a).settling = s.settling := rfl
@[simp] theorem State.branch_nextHandle (s : State) (o : Op) (a : W64) : (s.branch o a).nextHandle = s.nextHandle := rfl
@[simp] theorem State.branch_moors (s : State) (o : Op) (a : W64) : (s.branch o a).moors = s.moors := rfl
@[simp] theorem State.branch_slices (s : State) (o : Op) (a : W64) : (s.branch o a).slices = s.slices := rfl
@[simp] theorem State.branch_classes (s : State) (o : Op) (a : W64) : (s.branch o a).classes = s.classes := rfl
@[simp] theorem State.branch_arrival (s : State) (o : Op) (a : W64) : (s.branch o a).arrival = s.arrival := rfl
@[simp] theorem State.branch_groups (s : State) (o : Op) (a : W64) : (s.branch o a).groups = s.groups := rfl
@[simp] theorem State.branch_eth (s : State) (o : Op) (a : W64) : (s.branch o a).eth = s.eth := rfl
@[simp] theorem State.branch_udpPorts (s : State) (o : Op) (a : W64) : (s.branch o a).udpPorts = s.udpPorts := rfl
@[simp] theorem State.branch_queuePairs (s : State) (o : Op) (a : W64) : (s.branch o a).queuePairs = s.queuePairs := rfl
@[simp] theorem State.branch_sent (s : State) (o : Op) (a : W64) : (s.branch o a).sent = s.sent := rfl
@[simp] theorem State.branch_toCleoz (s : State) (o : Op) (a : W64) : (s.branch o a).toCleoz = s.toCleoz := rfl
@[simp] theorem State.branch_timing (s : State) (o : Op) (a : W64) : (s.branch o a).timing = s.timing := rfl
@[simp] theorem State.branch_tow (s : State) (o : Op) (a : W64) : (s.branch o a).tow = s.tow := rfl
@[simp] theorem State.branch_towOut (s : State) (o : Op) (a : W64) : (s.branch o a).towOut = s.towOut := rfl
@[simp] theorem State.branch_inbound (s : State) (o : Op) (a : W64) : (s.branch o a).inbound = s.inbound := rfl
@[simp] theorem State.branch_cxl (s : State) (o : Op) (a : W64) : (s.branch o a).cxl = s.cxl := rfl
@[simp] theorem State.branch_device (s : State) (o : Op) (a : W64) : (s.branch o a).device = s.device := rfl
@[simp] theorem State.branch_inDomain (s : State) (o : Op) (a : W64) : (s.branch o a).inDomain = s.inDomain := rfl
@[simp] theorem State.branch_apart (s : State) (o : Op) (a : W64) : (s.branch o a).apart = s.apart := rfl
@[simp] theorem State.branch_offset (s : State) (o : Op) (a : W64) : (s.branch o a).offset = s.offset := rfl
@[simp] theorem State.branch_latency (s : State) (o : Op) (a : W64) : (s.branch o a).latency = s.latency := rfl
@[simp] theorem State.branch_notices (s : State) (o : Op) (a : W64) : (s.branch o a).notices = s.notices := rfl
@[simp] theorem State.branch_stretches (s : State) (o : Op) (a : W64) : (s.branch o a).stretches = s.stretches := rfl
@[simp] theorem State.branch_sweeps (s : State) (o : Op) (a : W64) : (s.branch o a).sweeps = s.sweeps := rfl
@[simp] theorem State.branch_sweepAt (s : State) (o : Op) (a : W64) : (s.branch o a).sweepAt = s.sweepAt := rfl
@[simp] theorem State.branch_quietRep (s : State) (o : Op) (a : W64) : (s.branch o a).quietRep = s.quietRep := rfl
@[simp] theorem State.branch_quietAt (s : State) (o : Op) (a : W64) : (s.branch o a).quietAt = s.quietAt := rfl
@[simp] theorem State.branch_activity (s : State) (o : Op) (a : W64) : (s.branch o a).activity = s.activity := rfl
@[simp] theorem State.branch_saved (s : State) (o : Op) (a : W64) : (s.branch o a).saved = s.saved := rfl
@[simp] theorem State.branch_records (s : State) (o : Op) (a : W64) : (s.branch o a).records = s.records := rfl
@[simp] theorem State.branch_errors (s : State) (o : Op) (a : W64) : (s.branch o a).errors = s.errors := rfl
@[simp] theorem State.branch_errTimes (s : State) (o : Op) (a : W64) : (s.branch o a).errTimes = s.errTimes := rfl
@[simp] theorem State.branch_alerts (s : State) (o : Op) (a : W64) : (s.branch o a).alerts = s.alerts := rfl
@[simp] theorem State.branch_errDrops (s : State) (o : Op) (a : W64) : (s.branch o a).errDrops = s.errDrops := rfl
@[simp] theorem State.branch_interrupts (s : State) (o : Op) (a : W64) : (s.branch o a).interrupts = s.interrupts := rfl
@[simp] theorem State.branch_images (s : State) (o : Op) (a : W64) : (s.branch o a).images = s.images := rfl
@[simp] theorem State.branch_keys (s : State) (o : Op) (a : W64) : (s.branch o a).keys = s.keys := rfl
@[simp] theorem State.branch_noVf (s : State) (o : Op) (a : W64) : (s.branch o a).noVf = s.noVf := rfl
@[simp] theorem State.branch_quantum (s : State) (o : Op) (a : W64) : (s.branch o a).quantum = s.quantum := rfl
@[simp] theorem State.branch_sliceWord (s : State) (o : Op) (a : W64) : (s.branch o a).sliceWord = s.sliceWord := rfl
@[simp] theorem State.branch_sliceFrom (s : State) (o : Op) (a : W64) : (s.branch o a).sliceFrom = s.sliceFrom := rfl
@[simp] theorem State.branch_idleFrom (s : State) (o : Op) (a : W64) : (s.branch o a).idleFrom = s.idleFrom := rfl
@[simp] theorem State.branch_journal (s : State) (o : Op) (a : W64) : (s.branch o a).journal = s.journal := rfl
@[simp] theorem State.branch_replayed (s : State) (o : Op) (a : W64) : (s.branch o a).replayed = s.replayed := rfl
@[simp] theorem State.branch_sdBegun (s : State) (o : Op) (a : W64) : (s.branch o a).sdBegun = s.sdBegun := rfl
@[simp] theorem State.branch_sdMark (s : State) (o : Op) (a : W64) : (s.branch o a).sdMark = s.sdMark := rfl
@[simp] theorem State.branch_powerMode (s : State) (o : Op) (a : W64) : (s.branch o a).powerMode = s.powerMode := rfl
@[simp] theorem State.branch_windowLog (s : State) (o : Op) (a : W64) : (s.branch o a).windowLog = s.windowLog := rfl
@[simp] theorem State.branch_winAsked (s : State) (o : Op) (a : W64) : (s.branch o a).winAsked = s.winAsked := rfl
@[simp] theorem State.branch_sysOld (s : State) (o : Op) (a : W64) : (s.branch o a).sysOld = s.sysOld := rfl
@[simp] theorem State.branch_lagged (s : State) (o : Op) (a : W64) : (s.branch o a).lagged = s.lagged := rfl

@[simp] theorem State.hold_cycle (s : State) (w : Wait) : (s.hold w).cycle = s.cycle := rfl
@[simp] theorem State.hold_ptp (s : State) (w : Wait) : (s.hold w).ptp = s.ptp := rfl
@[simp] theorem State.hold_ptpFrac (s : State) (w : Wait) : (s.hold w).ptpFrac = s.ptpFrac := rfl
@[simp] theorem State.hold_cur (s : State) (w : Wait) : (s.hold w).cur = s.cur := rfl
@[simp] theorem State.hold_word0 (s : State) (w : Wait) : (s.hold w).word0 = s.word0 := rfl
@[simp] theorem State.hold_agenda (s : State) (w : Wait) : (s.hold w).agenda = s.agenda := rfl
@[simp] theorem State.hold_fresh (s : State) (w : Wait) : (s.hold w).fresh = s.fresh := rfl
@[simp] theorem State.hold_cleozTrap (s : State) (w : Wait) : (s.hold w).cleozTrap = s.cleozTrap := rfl
@[simp] theorem State.hold_cores (s : State) (w : Wait) : (s.hold w).cores = s.cores := rfl
@[simp] theorem State.hold_clusters (s : State) (w : Wait) : (s.hold w).clusters = s.clusters := rfl
@[simp] theorem State.hold_dies (s : State) (w : Wait) : (s.hold w).dies = s.dies := rfl
@[simp] theorem State.hold_hbm (s : State) (w : Wait) : (s.hold w).hbm = s.hbm := rfl
@[simp] theorem State.hold_mem (s : State) (w : Wait) : (s.hold w).mem = s.mem := rfl
@[simp] theorem State.hold_empties (s : State) (w : Wait) : (s.hold w).empties = s.empties := rfl
@[simp] theorem State.hold_poison (s : State) (w : Wait) : (s.hold w).poison = s.poison := rfl
@[simp] theorem State.hold_poisonRanges (s : State) (w : Wait) : (s.hold w).poisonRanges = s.poisonRanges := rfl
@[simp] theorem State.hold_flights (s : State) (w : Wait) : (s.hold w).flights = s.flights := rfl
@[simp] theorem State.hold_nextId (s : State) (w : Wait) : (s.hold w).nextId = s.nextId := rfl
@[simp] theorem State.hold_admin (s : State) (w : Wait) : (s.hold w).admin = s.admin := rfl
@[simp] theorem State.hold_boot (s : State) (w : Wait) : (s.hold w).boot = s.boot := rfl
@[simp] theorem State.hold_launches (s : State) (w : Wait) : (s.hold w).launches = s.launches := rfl
@[simp] theorem State.hold_settling (s : State) (w : Wait) : (s.hold w).settling = s.settling := rfl
@[simp] theorem State.hold_nextHandle (s : State) (w : Wait) : (s.hold w).nextHandle = s.nextHandle := rfl
@[simp] theorem State.hold_moors (s : State) (w : Wait) : (s.hold w).moors = s.moors := rfl
@[simp] theorem State.hold_slices (s : State) (w : Wait) : (s.hold w).slices = s.slices := rfl
@[simp] theorem State.hold_classes (s : State) (w : Wait) : (s.hold w).classes = s.classes := rfl
@[simp] theorem State.hold_arrival (s : State) (w : Wait) : (s.hold w).arrival = s.arrival := rfl
@[simp] theorem State.hold_groups (s : State) (w : Wait) : (s.hold w).groups = s.groups := rfl
@[simp] theorem State.hold_eth (s : State) (w : Wait) : (s.hold w).eth = s.eth := rfl
@[simp] theorem State.hold_udpPorts (s : State) (w : Wait) : (s.hold w).udpPorts = s.udpPorts := rfl
@[simp] theorem State.hold_queuePairs (s : State) (w : Wait) : (s.hold w).queuePairs = s.queuePairs := rfl
@[simp] theorem State.hold_sent (s : State) (w : Wait) : (s.hold w).sent = s.sent := rfl
@[simp] theorem State.hold_toCleoz (s : State) (w : Wait) : (s.hold w).toCleoz = s.toCleoz := rfl
@[simp] theorem State.hold_timing (s : State) (w : Wait) : (s.hold w).timing = s.timing := rfl
@[simp] theorem State.hold_tow (s : State) (w : Wait) : (s.hold w).tow = s.tow := rfl
@[simp] theorem State.hold_towOut (s : State) (w : Wait) : (s.hold w).towOut = s.towOut := rfl
@[simp] theorem State.hold_inbound (s : State) (w : Wait) : (s.hold w).inbound = s.inbound := rfl
@[simp] theorem State.hold_cxl (s : State) (w : Wait) : (s.hold w).cxl = s.cxl := rfl
@[simp] theorem State.hold_device (s : State) (w : Wait) : (s.hold w).device = s.device := rfl
@[simp] theorem State.hold_inDomain (s : State) (w : Wait) : (s.hold w).inDomain = s.inDomain := rfl
@[simp] theorem State.hold_apart (s : State) (w : Wait) : (s.hold w).apart = s.apart := rfl
@[simp] theorem State.hold_offset (s : State) (w : Wait) : (s.hold w).offset = s.offset := rfl
@[simp] theorem State.hold_latency (s : State) (w : Wait) : (s.hold w).latency = s.latency := rfl
@[simp] theorem State.hold_notices (s : State) (w : Wait) : (s.hold w).notices = s.notices := rfl
@[simp] theorem State.hold_stretches (s : State) (w : Wait) : (s.hold w).stretches = s.stretches := rfl
@[simp] theorem State.hold_sweeps (s : State) (w : Wait) : (s.hold w).sweeps = s.sweeps := rfl
@[simp] theorem State.hold_sweepAt (s : State) (w : Wait) : (s.hold w).sweepAt = s.sweepAt := rfl
@[simp] theorem State.hold_quietRep (s : State) (w : Wait) : (s.hold w).quietRep = s.quietRep := rfl
@[simp] theorem State.hold_quietAt (s : State) (w : Wait) : (s.hold w).quietAt = s.quietAt := rfl
@[simp] theorem State.hold_activity (s : State) (w : Wait) : (s.hold w).activity = s.activity := rfl
@[simp] theorem State.hold_saved (s : State) (w : Wait) : (s.hold w).saved = s.saved := rfl
@[simp] theorem State.hold_records (s : State) (w : Wait) : (s.hold w).records = s.records := rfl
@[simp] theorem State.hold_errors (s : State) (w : Wait) : (s.hold w).errors = s.errors := rfl
@[simp] theorem State.hold_errTimes (s : State) (w : Wait) : (s.hold w).errTimes = s.errTimes := rfl
@[simp] theorem State.hold_alerts (s : State) (w : Wait) : (s.hold w).alerts = s.alerts := rfl
@[simp] theorem State.hold_errDrops (s : State) (w : Wait) : (s.hold w).errDrops = s.errDrops := rfl
@[simp] theorem State.hold_interrupts (s : State) (w : Wait) : (s.hold w).interrupts = s.interrupts := rfl
@[simp] theorem State.hold_images (s : State) (w : Wait) : (s.hold w).images = s.images := rfl
@[simp] theorem State.hold_keys (s : State) (w : Wait) : (s.hold w).keys = s.keys := rfl
@[simp] theorem State.hold_noVf (s : State) (w : Wait) : (s.hold w).noVf = s.noVf := rfl
@[simp] theorem State.hold_quantum (s : State) (w : Wait) : (s.hold w).quantum = s.quantum := rfl
@[simp] theorem State.hold_sliceWord (s : State) (w : Wait) : (s.hold w).sliceWord = s.sliceWord := rfl
@[simp] theorem State.hold_sliceFrom (s : State) (w : Wait) : (s.hold w).sliceFrom = s.sliceFrom := rfl
@[simp] theorem State.hold_idleFrom (s : State) (w : Wait) : (s.hold w).idleFrom = s.idleFrom := rfl
@[simp] theorem State.hold_journal (s : State) (w : Wait) : (s.hold w).journal = s.journal := rfl
@[simp] theorem State.hold_replayed (s : State) (w : Wait) : (s.hold w).replayed = s.replayed := rfl
@[simp] theorem State.hold_sdBegun (s : State) (w : Wait) : (s.hold w).sdBegun = s.sdBegun := rfl
@[simp] theorem State.hold_sdMark (s : State) (w : Wait) : (s.hold w).sdMark = s.sdMark := rfl
@[simp] theorem State.hold_powerMode (s : State) (w : Wait) : (s.hold w).powerMode = s.powerMode := rfl
@[simp] theorem State.hold_windowLog (s : State) (w : Wait) : (s.hold w).windowLog = s.windowLog := rfl
@[simp] theorem State.hold_winAsked (s : State) (w : Wait) : (s.hold w).winAsked = s.winAsked := rfl
@[simp] theorem State.hold_sysOld (s : State) (w : Wait) : (s.hold w).sysOld = s.sysOld := rfl
@[simp] theorem State.hold_lagged (s : State) (w : Wait) : (s.hold w).lagged = s.lagged := rfl

@[simp] theorem State.setCore_cycle (s : State) (i : Nat) (c : CoreSt) : (s.setCore i c).cycle = s.cycle := rfl
@[simp] theorem State.setCore_ptp (s : State) (i : Nat) (c : CoreSt) : (s.setCore i c).ptp = s.ptp := rfl
@[simp] theorem State.setCore_ptpFrac (s : State) (i : Nat) (c : CoreSt) : (s.setCore i c).ptpFrac = s.ptpFrac := rfl
@[simp] theorem State.setCore_cur (s : State) (i : Nat) (c : CoreSt) : (s.setCore i c).cur = s.cur := rfl
@[simp] theorem State.setCore_word0 (s : State) (i : Nat) (c : CoreSt) : (s.setCore i c).word0 = s.word0 := rfl
@[simp] theorem State.setCore_agenda (s : State) (i : Nat) (c : CoreSt) : (s.setCore i c).agenda = s.agenda := rfl
@[simp] theorem State.setCore_fresh (s : State) (i : Nat) (c : CoreSt) : (s.setCore i c).fresh = s.fresh := rfl
@[simp] theorem State.setCore_cleozTrap (s : State) (i : Nat) (c : CoreSt) : (s.setCore i c).cleozTrap = s.cleozTrap := rfl
@[simp] theorem State.setCore_ctxs (s : State) (i : Nat) (c : CoreSt) : (s.setCore i c).ctxs = s.ctxs := rfl
@[simp] theorem State.setCore_clusters (s : State) (i : Nat) (c : CoreSt) : (s.setCore i c).clusters = s.clusters := rfl
@[simp] theorem State.setCore_dies (s : State) (i : Nat) (c : CoreSt) : (s.setCore i c).dies = s.dies := rfl
@[simp] theorem State.setCore_hbm (s : State) (i : Nat) (c : CoreSt) : (s.setCore i c).hbm = s.hbm := rfl
@[simp] theorem State.setCore_mem (s : State) (i : Nat) (c : CoreSt) : (s.setCore i c).mem = s.mem := rfl
@[simp] theorem State.setCore_empties (s : State) (i : Nat) (c : CoreSt) : (s.setCore i c).empties = s.empties := rfl
@[simp] theorem State.setCore_poison (s : State) (i : Nat) (c : CoreSt) : (s.setCore i c).poison = s.poison := rfl
@[simp] theorem State.setCore_poisonRanges (s : State) (i : Nat) (c : CoreSt) : (s.setCore i c).poisonRanges = s.poisonRanges := rfl
@[simp] theorem State.setCore_flights (s : State) (i : Nat) (c : CoreSt) : (s.setCore i c).flights = s.flights := rfl
@[simp] theorem State.setCore_nextId (s : State) (i : Nat) (c : CoreSt) : (s.setCore i c).nextId = s.nextId := rfl
@[simp] theorem State.setCore_admin (s : State) (i : Nat) (c : CoreSt) : (s.setCore i c).admin = s.admin := rfl
@[simp] theorem State.setCore_boot (s : State) (i : Nat) (c : CoreSt) : (s.setCore i c).boot = s.boot := rfl
@[simp] theorem State.setCore_launches (s : State) (i : Nat) (c : CoreSt) : (s.setCore i c).launches = s.launches := rfl
@[simp] theorem State.setCore_settling (s : State) (i : Nat) (c : CoreSt) : (s.setCore i c).settling = s.settling := rfl
@[simp] theorem State.setCore_nextHandle (s : State) (i : Nat) (c : CoreSt) : (s.setCore i c).nextHandle = s.nextHandle := rfl
@[simp] theorem State.setCore_moors (s : State) (i : Nat) (c : CoreSt) : (s.setCore i c).moors = s.moors := rfl
@[simp] theorem State.setCore_slices (s : State) (i : Nat) (c : CoreSt) : (s.setCore i c).slices = s.slices := rfl
@[simp] theorem State.setCore_classes (s : State) (i : Nat) (c : CoreSt) : (s.setCore i c).classes = s.classes := rfl
@[simp] theorem State.setCore_arrival (s : State) (i : Nat) (c : CoreSt) : (s.setCore i c).arrival = s.arrival := rfl
@[simp] theorem State.setCore_groups (s : State) (i : Nat) (c : CoreSt) : (s.setCore i c).groups = s.groups := rfl
@[simp] theorem State.setCore_eth (s : State) (i : Nat) (c : CoreSt) : (s.setCore i c).eth = s.eth := rfl
@[simp] theorem State.setCore_udpPorts (s : State) (i : Nat) (c : CoreSt) : (s.setCore i c).udpPorts = s.udpPorts := rfl
@[simp] theorem State.setCore_queuePairs (s : State) (i : Nat) (c : CoreSt) : (s.setCore i c).queuePairs = s.queuePairs := rfl
@[simp] theorem State.setCore_sent (s : State) (i : Nat) (c : CoreSt) : (s.setCore i c).sent = s.sent := rfl
@[simp] theorem State.setCore_toCleoz (s : State) (i : Nat) (c : CoreSt) : (s.setCore i c).toCleoz = s.toCleoz := rfl
@[simp] theorem State.setCore_timing (s : State) (i : Nat) (c : CoreSt) : (s.setCore i c).timing = s.timing := rfl
@[simp] theorem State.setCore_tow (s : State) (i : Nat) (c : CoreSt) : (s.setCore i c).tow = s.tow := rfl
@[simp] theorem State.setCore_towOut (s : State) (i : Nat) (c : CoreSt) : (s.setCore i c).towOut = s.towOut := rfl
@[simp] theorem State.setCore_inbound (s : State) (i : Nat) (c : CoreSt) : (s.setCore i c).inbound = s.inbound := rfl
@[simp] theorem State.setCore_cxl (s : State) (i : Nat) (c : CoreSt) : (s.setCore i c).cxl = s.cxl := rfl
@[simp] theorem State.setCore_device (s : State) (i : Nat) (c : CoreSt) : (s.setCore i c).device = s.device := rfl
@[simp] theorem State.setCore_inDomain (s : State) (i : Nat) (c : CoreSt) : (s.setCore i c).inDomain = s.inDomain := rfl
@[simp] theorem State.setCore_apart (s : State) (i : Nat) (c : CoreSt) : (s.setCore i c).apart = s.apart := rfl
@[simp] theorem State.setCore_offset (s : State) (i : Nat) (c : CoreSt) : (s.setCore i c).offset = s.offset := rfl
@[simp] theorem State.setCore_latency (s : State) (i : Nat) (c : CoreSt) : (s.setCore i c).latency = s.latency := rfl
@[simp] theorem State.setCore_notices (s : State) (i : Nat) (c : CoreSt) : (s.setCore i c).notices = s.notices := rfl
@[simp] theorem State.setCore_stretches (s : State) (i : Nat) (c : CoreSt) : (s.setCore i c).stretches = s.stretches := rfl
@[simp] theorem State.setCore_sweeps (s : State) (i : Nat) (c : CoreSt) : (s.setCore i c).sweeps = s.sweeps := rfl
@[simp] theorem State.setCore_sweepAt (s : State) (i : Nat) (c : CoreSt) : (s.setCore i c).sweepAt = s.sweepAt := rfl
@[simp] theorem State.setCore_quietRep (s : State) (i : Nat) (c : CoreSt) : (s.setCore i c).quietRep = s.quietRep := rfl
@[simp] theorem State.setCore_quietAt (s : State) (i : Nat) (c : CoreSt) : (s.setCore i c).quietAt = s.quietAt := rfl
@[simp] theorem State.setCore_activity (s : State) (i : Nat) (c : CoreSt) : (s.setCore i c).activity = s.activity := rfl
@[simp] theorem State.setCore_saved (s : State) (i : Nat) (c : CoreSt) : (s.setCore i c).saved = s.saved := rfl
@[simp] theorem State.setCore_records (s : State) (i : Nat) (c : CoreSt) : (s.setCore i c).records = s.records := rfl
@[simp] theorem State.setCore_errors (s : State) (i : Nat) (c : CoreSt) : (s.setCore i c).errors = s.errors := rfl
@[simp] theorem State.setCore_errTimes (s : State) (i : Nat) (c : CoreSt) : (s.setCore i c).errTimes = s.errTimes := rfl
@[simp] theorem State.setCore_alerts (s : State) (i : Nat) (c : CoreSt) : (s.setCore i c).alerts = s.alerts := rfl
@[simp] theorem State.setCore_errDrops (s : State) (i : Nat) (c : CoreSt) : (s.setCore i c).errDrops = s.errDrops := rfl
@[simp] theorem State.setCore_interrupts (s : State) (i : Nat) (c : CoreSt) : (s.setCore i c).interrupts = s.interrupts := rfl
@[simp] theorem State.setCore_images (s : State) (i : Nat) (c : CoreSt) : (s.setCore i c).images = s.images := rfl
@[simp] theorem State.setCore_keys (s : State) (i : Nat) (c : CoreSt) : (s.setCore i c).keys = s.keys := rfl
@[simp] theorem State.setCore_noVf (s : State) (i : Nat) (c : CoreSt) : (s.setCore i c).noVf = s.noVf := rfl
@[simp] theorem State.setCore_quantum (s : State) (i : Nat) (c : CoreSt) : (s.setCore i c).quantum = s.quantum := rfl
@[simp] theorem State.setCore_sliceWord (s : State) (i : Nat) (c : CoreSt) : (s.setCore i c).sliceWord = s.sliceWord := rfl
@[simp] theorem State.setCore_sliceFrom (s : State) (i : Nat) (c : CoreSt) : (s.setCore i c).sliceFrom = s.sliceFrom := rfl
@[simp] theorem State.setCore_idleFrom (s : State) (i : Nat) (c : CoreSt) : (s.setCore i c).idleFrom = s.idleFrom := rfl
@[simp] theorem State.setCore_journal (s : State) (i : Nat) (c : CoreSt) : (s.setCore i c).journal = s.journal := rfl
@[simp] theorem State.setCore_replayed (s : State) (i : Nat) (c : CoreSt) : (s.setCore i c).replayed = s.replayed := rfl
@[simp] theorem State.setCore_sdBegun (s : State) (i : Nat) (c : CoreSt) : (s.setCore i c).sdBegun = s.sdBegun := rfl
@[simp] theorem State.setCore_sdMark (s : State) (i : Nat) (c : CoreSt) : (s.setCore i c).sdMark = s.sdMark := rfl
@[simp] theorem State.setCore_powerMode (s : State) (i : Nat) (c : CoreSt) : (s.setCore i c).powerMode = s.powerMode := rfl
@[simp] theorem State.setCore_windowLog (s : State) (i : Nat) (c : CoreSt) : (s.setCore i c).windowLog = s.windowLog := rfl
@[simp] theorem State.setCore_winAsked (s : State) (i : Nat) (c : CoreSt) : (s.setCore i c).winAsked = s.winAsked := rfl
@[simp] theorem State.setCore_sysOld (s : State) (i : Nat) (c : CoreSt) : (s.setCore i c).sysOld = s.sysOld := rfl
@[simp] theorem State.setCore_lagged (s : State) (i : Nat) (c : CoreSt) : (s.setCore i c).lagged = s.lagged := rfl

@[simp] theorem State.modCore_cycle (s : State) (i : Nat) (f : CoreSt → CoreSt) : (s.modCore i f).cycle = s.cycle := rfl
@[simp] theorem State.modCore_ptp (s : State) (i : Nat) (f : CoreSt → CoreSt) : (s.modCore i f).ptp = s.ptp := rfl
@[simp] theorem State.modCore_ptpFrac (s : State) (i : Nat) (f : CoreSt → CoreSt) : (s.modCore i f).ptpFrac = s.ptpFrac := rfl
@[simp] theorem State.modCore_cur (s : State) (i : Nat) (f : CoreSt → CoreSt) : (s.modCore i f).cur = s.cur := rfl
@[simp] theorem State.modCore_word0 (s : State) (i : Nat) (f : CoreSt → CoreSt) : (s.modCore i f).word0 = s.word0 := rfl
@[simp] theorem State.modCore_agenda (s : State) (i : Nat) (f : CoreSt → CoreSt) : (s.modCore i f).agenda = s.agenda := rfl
@[simp] theorem State.modCore_fresh (s : State) (i : Nat) (f : CoreSt → CoreSt) : (s.modCore i f).fresh = s.fresh := rfl
@[simp] theorem State.modCore_cleozTrap (s : State) (i : Nat) (f : CoreSt → CoreSt) : (s.modCore i f).cleozTrap = s.cleozTrap := rfl
@[simp] theorem State.modCore_ctxs (s : State) (i : Nat) (f : CoreSt → CoreSt) : (s.modCore i f).ctxs = s.ctxs := rfl
@[simp] theorem State.modCore_clusters (s : State) (i : Nat) (f : CoreSt → CoreSt) : (s.modCore i f).clusters = s.clusters := rfl
@[simp] theorem State.modCore_dies (s : State) (i : Nat) (f : CoreSt → CoreSt) : (s.modCore i f).dies = s.dies := rfl
@[simp] theorem State.modCore_hbm (s : State) (i : Nat) (f : CoreSt → CoreSt) : (s.modCore i f).hbm = s.hbm := rfl
@[simp] theorem State.modCore_mem (s : State) (i : Nat) (f : CoreSt → CoreSt) : (s.modCore i f).mem = s.mem := rfl
@[simp] theorem State.modCore_empties (s : State) (i : Nat) (f : CoreSt → CoreSt) : (s.modCore i f).empties = s.empties := rfl
@[simp] theorem State.modCore_poison (s : State) (i : Nat) (f : CoreSt → CoreSt) : (s.modCore i f).poison = s.poison := rfl
@[simp] theorem State.modCore_poisonRanges (s : State) (i : Nat) (f : CoreSt → CoreSt) : (s.modCore i f).poisonRanges = s.poisonRanges := rfl
@[simp] theorem State.modCore_flights (s : State) (i : Nat) (f : CoreSt → CoreSt) : (s.modCore i f).flights = s.flights := rfl
@[simp] theorem State.modCore_nextId (s : State) (i : Nat) (f : CoreSt → CoreSt) : (s.modCore i f).nextId = s.nextId := rfl
@[simp] theorem State.modCore_admin (s : State) (i : Nat) (f : CoreSt → CoreSt) : (s.modCore i f).admin = s.admin := rfl
@[simp] theorem State.modCore_boot (s : State) (i : Nat) (f : CoreSt → CoreSt) : (s.modCore i f).boot = s.boot := rfl
@[simp] theorem State.modCore_launches (s : State) (i : Nat) (f : CoreSt → CoreSt) : (s.modCore i f).launches = s.launches := rfl
@[simp] theorem State.modCore_settling (s : State) (i : Nat) (f : CoreSt → CoreSt) : (s.modCore i f).settling = s.settling := rfl
@[simp] theorem State.modCore_nextHandle (s : State) (i : Nat) (f : CoreSt → CoreSt) : (s.modCore i f).nextHandle = s.nextHandle := rfl
@[simp] theorem State.modCore_moors (s : State) (i : Nat) (f : CoreSt → CoreSt) : (s.modCore i f).moors = s.moors := rfl
@[simp] theorem State.modCore_slices (s : State) (i : Nat) (f : CoreSt → CoreSt) : (s.modCore i f).slices = s.slices := rfl
@[simp] theorem State.modCore_classes (s : State) (i : Nat) (f : CoreSt → CoreSt) : (s.modCore i f).classes = s.classes := rfl
@[simp] theorem State.modCore_arrival (s : State) (i : Nat) (f : CoreSt → CoreSt) : (s.modCore i f).arrival = s.arrival := rfl
@[simp] theorem State.modCore_groups (s : State) (i : Nat) (f : CoreSt → CoreSt) : (s.modCore i f).groups = s.groups := rfl
@[simp] theorem State.modCore_eth (s : State) (i : Nat) (f : CoreSt → CoreSt) : (s.modCore i f).eth = s.eth := rfl
@[simp] theorem State.modCore_udpPorts (s : State) (i : Nat) (f : CoreSt → CoreSt) : (s.modCore i f).udpPorts = s.udpPorts := rfl
@[simp] theorem State.modCore_queuePairs (s : State) (i : Nat) (f : CoreSt → CoreSt) : (s.modCore i f).queuePairs = s.queuePairs := rfl
@[simp] theorem State.modCore_sent (s : State) (i : Nat) (f : CoreSt → CoreSt) : (s.modCore i f).sent = s.sent := rfl
@[simp] theorem State.modCore_toCleoz (s : State) (i : Nat) (f : CoreSt → CoreSt) : (s.modCore i f).toCleoz = s.toCleoz := rfl
@[simp] theorem State.modCore_timing (s : State) (i : Nat) (f : CoreSt → CoreSt) : (s.modCore i f).timing = s.timing := rfl
@[simp] theorem State.modCore_tow (s : State) (i : Nat) (f : CoreSt → CoreSt) : (s.modCore i f).tow = s.tow := rfl
@[simp] theorem State.modCore_towOut (s : State) (i : Nat) (f : CoreSt → CoreSt) : (s.modCore i f).towOut = s.towOut := rfl
@[simp] theorem State.modCore_inbound (s : State) (i : Nat) (f : CoreSt → CoreSt) : (s.modCore i f).inbound = s.inbound := rfl
@[simp] theorem State.modCore_cxl (s : State) (i : Nat) (f : CoreSt → CoreSt) : (s.modCore i f).cxl = s.cxl := rfl
@[simp] theorem State.modCore_device (s : State) (i : Nat) (f : CoreSt → CoreSt) : (s.modCore i f).device = s.device := rfl
@[simp] theorem State.modCore_inDomain (s : State) (i : Nat) (f : CoreSt → CoreSt) : (s.modCore i f).inDomain = s.inDomain := rfl
@[simp] theorem State.modCore_apart (s : State) (i : Nat) (f : CoreSt → CoreSt) : (s.modCore i f).apart = s.apart := rfl
@[simp] theorem State.modCore_offset (s : State) (i : Nat) (f : CoreSt → CoreSt) : (s.modCore i f).offset = s.offset := rfl
@[simp] theorem State.modCore_latency (s : State) (i : Nat) (f : CoreSt → CoreSt) : (s.modCore i f).latency = s.latency := rfl
@[simp] theorem State.modCore_notices (s : State) (i : Nat) (f : CoreSt → CoreSt) : (s.modCore i f).notices = s.notices := rfl
@[simp] theorem State.modCore_stretches (s : State) (i : Nat) (f : CoreSt → CoreSt) : (s.modCore i f).stretches = s.stretches := rfl
@[simp] theorem State.modCore_sweeps (s : State) (i : Nat) (f : CoreSt → CoreSt) : (s.modCore i f).sweeps = s.sweeps := rfl
@[simp] theorem State.modCore_sweepAt (s : State) (i : Nat) (f : CoreSt → CoreSt) : (s.modCore i f).sweepAt = s.sweepAt := rfl
@[simp] theorem State.modCore_quietRep (s : State) (i : Nat) (f : CoreSt → CoreSt) : (s.modCore i f).quietRep = s.quietRep := rfl
@[simp] theorem State.modCore_quietAt (s : State) (i : Nat) (f : CoreSt → CoreSt) : (s.modCore i f).quietAt = s.quietAt := rfl
@[simp] theorem State.modCore_activity (s : State) (i : Nat) (f : CoreSt → CoreSt) : (s.modCore i f).activity = s.activity := rfl
@[simp] theorem State.modCore_saved (s : State) (i : Nat) (f : CoreSt → CoreSt) : (s.modCore i f).saved = s.saved := rfl
@[simp] theorem State.modCore_records (s : State) (i : Nat) (f : CoreSt → CoreSt) : (s.modCore i f).records = s.records := rfl
@[simp] theorem State.modCore_errors (s : State) (i : Nat) (f : CoreSt → CoreSt) : (s.modCore i f).errors = s.errors := rfl
@[simp] theorem State.modCore_errTimes (s : State) (i : Nat) (f : CoreSt → CoreSt) : (s.modCore i f).errTimes = s.errTimes := rfl
@[simp] theorem State.modCore_alerts (s : State) (i : Nat) (f : CoreSt → CoreSt) : (s.modCore i f).alerts = s.alerts := rfl
@[simp] theorem State.modCore_errDrops (s : State) (i : Nat) (f : CoreSt → CoreSt) : (s.modCore i f).errDrops = s.errDrops := rfl
@[simp] theorem State.modCore_interrupts (s : State) (i : Nat) (f : CoreSt → CoreSt) : (s.modCore i f).interrupts = s.interrupts := rfl
@[simp] theorem State.modCore_images (s : State) (i : Nat) (f : CoreSt → CoreSt) : (s.modCore i f).images = s.images := rfl
@[simp] theorem State.modCore_keys (s : State) (i : Nat) (f : CoreSt → CoreSt) : (s.modCore i f).keys = s.keys := rfl
@[simp] theorem State.modCore_noVf (s : State) (i : Nat) (f : CoreSt → CoreSt) : (s.modCore i f).noVf = s.noVf := rfl
@[simp] theorem State.modCore_quantum (s : State) (i : Nat) (f : CoreSt → CoreSt) : (s.modCore i f).quantum = s.quantum := rfl
@[simp] theorem State.modCore_sliceWord (s : State) (i : Nat) (f : CoreSt → CoreSt) : (s.modCore i f).sliceWord = s.sliceWord := rfl
@[simp] theorem State.modCore_sliceFrom (s : State) (i : Nat) (f : CoreSt → CoreSt) : (s.modCore i f).sliceFrom = s.sliceFrom := rfl
@[simp] theorem State.modCore_idleFrom (s : State) (i : Nat) (f : CoreSt → CoreSt) : (s.modCore i f).idleFrom = s.idleFrom := rfl
@[simp] theorem State.modCore_journal (s : State) (i : Nat) (f : CoreSt → CoreSt) : (s.modCore i f).journal = s.journal := rfl
@[simp] theorem State.modCore_replayed (s : State) (i : Nat) (f : CoreSt → CoreSt) : (s.modCore i f).replayed = s.replayed := rfl
@[simp] theorem State.modCore_sdBegun (s : State) (i : Nat) (f : CoreSt → CoreSt) : (s.modCore i f).sdBegun = s.sdBegun := rfl
@[simp] theorem State.modCore_sdMark (s : State) (i : Nat) (f : CoreSt → CoreSt) : (s.modCore i f).sdMark = s.sdMark := rfl
@[simp] theorem State.modCore_powerMode (s : State) (i : Nat) (f : CoreSt → CoreSt) : (s.modCore i f).powerMode = s.powerMode := rfl
@[simp] theorem State.modCore_windowLog (s : State) (i : Nat) (f : CoreSt → CoreSt) : (s.modCore i f).windowLog = s.windowLog := rfl
@[simp] theorem State.modCore_winAsked (s : State) (i : Nat) (f : CoreSt → CoreSt) : (s.modCore i f).winAsked = s.winAsked := rfl
@[simp] theorem State.modCore_sysOld (s : State) (i : Nat) (f : CoreSt → CoreSt) : (s.modCore i f).sysOld = s.sysOld := rfl
@[simp] theorem State.modCore_lagged (s : State) (i : Nat) (f : CoreSt → CoreSt) : (s.modCore i f).lagged = s.lagged := rfl

@[simp] theorem State.modCluster_cycle (s : State) (i : Nat) (f : Cluster → Cluster) : (s.modCluster i f).cycle = s.cycle := rfl
@[simp] theorem State.modCluster_ptp (s : State) (i : Nat) (f : Cluster → Cluster) : (s.modCluster i f).ptp = s.ptp := rfl
@[simp] theorem State.modCluster_ptpFrac (s : State) (i : Nat) (f : Cluster → Cluster) : (s.modCluster i f).ptpFrac = s.ptpFrac := rfl
@[simp] theorem State.modCluster_cur (s : State) (i : Nat) (f : Cluster → Cluster) : (s.modCluster i f).cur = s.cur := rfl
@[simp] theorem State.modCluster_word0 (s : State) (i : Nat) (f : Cluster → Cluster) : (s.modCluster i f).word0 = s.word0 := rfl
@[simp] theorem State.modCluster_agenda (s : State) (i : Nat) (f : Cluster → Cluster) : (s.modCluster i f).agenda = s.agenda := rfl
@[simp] theorem State.modCluster_fresh (s : State) (i : Nat) (f : Cluster → Cluster) : (s.modCluster i f).fresh = s.fresh := rfl
@[simp] theorem State.modCluster_cleozTrap (s : State) (i : Nat) (f : Cluster → Cluster) : (s.modCluster i f).cleozTrap = s.cleozTrap := rfl
@[simp] theorem State.modCluster_ctxs (s : State) (i : Nat) (f : Cluster → Cluster) : (s.modCluster i f).ctxs = s.ctxs := rfl
@[simp] theorem State.modCluster_cores (s : State) (i : Nat) (f : Cluster → Cluster) : (s.modCluster i f).cores = s.cores := rfl
@[simp] theorem State.modCluster_dies (s : State) (i : Nat) (f : Cluster → Cluster) : (s.modCluster i f).dies = s.dies := rfl
@[simp] theorem State.modCluster_hbm (s : State) (i : Nat) (f : Cluster → Cluster) : (s.modCluster i f).hbm = s.hbm := rfl
@[simp] theorem State.modCluster_mem (s : State) (i : Nat) (f : Cluster → Cluster) : (s.modCluster i f).mem = s.mem := rfl
@[simp] theorem State.modCluster_empties (s : State) (i : Nat) (f : Cluster → Cluster) : (s.modCluster i f).empties = s.empties := rfl
@[simp] theorem State.modCluster_poison (s : State) (i : Nat) (f : Cluster → Cluster) : (s.modCluster i f).poison = s.poison := rfl
@[simp] theorem State.modCluster_poisonRanges (s : State) (i : Nat) (f : Cluster → Cluster) : (s.modCluster i f).poisonRanges = s.poisonRanges := rfl
@[simp] theorem State.modCluster_flights (s : State) (i : Nat) (f : Cluster → Cluster) : (s.modCluster i f).flights = s.flights := rfl
@[simp] theorem State.modCluster_nextId (s : State) (i : Nat) (f : Cluster → Cluster) : (s.modCluster i f).nextId = s.nextId := rfl
@[simp] theorem State.modCluster_admin (s : State) (i : Nat) (f : Cluster → Cluster) : (s.modCluster i f).admin = s.admin := rfl
@[simp] theorem State.modCluster_boot (s : State) (i : Nat) (f : Cluster → Cluster) : (s.modCluster i f).boot = s.boot := rfl
@[simp] theorem State.modCluster_launches (s : State) (i : Nat) (f : Cluster → Cluster) : (s.modCluster i f).launches = s.launches := rfl
@[simp] theorem State.modCluster_settling (s : State) (i : Nat) (f : Cluster → Cluster) : (s.modCluster i f).settling = s.settling := rfl
@[simp] theorem State.modCluster_nextHandle (s : State) (i : Nat) (f : Cluster → Cluster) : (s.modCluster i f).nextHandle = s.nextHandle := rfl
@[simp] theorem State.modCluster_moors (s : State) (i : Nat) (f : Cluster → Cluster) : (s.modCluster i f).moors = s.moors := rfl
@[simp] theorem State.modCluster_slices (s : State) (i : Nat) (f : Cluster → Cluster) : (s.modCluster i f).slices = s.slices := rfl
@[simp] theorem State.modCluster_classes (s : State) (i : Nat) (f : Cluster → Cluster) : (s.modCluster i f).classes = s.classes := rfl
@[simp] theorem State.modCluster_arrival (s : State) (i : Nat) (f : Cluster → Cluster) : (s.modCluster i f).arrival = s.arrival := rfl
@[simp] theorem State.modCluster_groups (s : State) (i : Nat) (f : Cluster → Cluster) : (s.modCluster i f).groups = s.groups := rfl
@[simp] theorem State.modCluster_eth (s : State) (i : Nat) (f : Cluster → Cluster) : (s.modCluster i f).eth = s.eth := rfl
@[simp] theorem State.modCluster_udpPorts (s : State) (i : Nat) (f : Cluster → Cluster) : (s.modCluster i f).udpPorts = s.udpPorts := rfl
@[simp] theorem State.modCluster_queuePairs (s : State) (i : Nat) (f : Cluster → Cluster) : (s.modCluster i f).queuePairs = s.queuePairs := rfl
@[simp] theorem State.modCluster_sent (s : State) (i : Nat) (f : Cluster → Cluster) : (s.modCluster i f).sent = s.sent := rfl
@[simp] theorem State.modCluster_toCleoz (s : State) (i : Nat) (f : Cluster → Cluster) : (s.modCluster i f).toCleoz = s.toCleoz := rfl
@[simp] theorem State.modCluster_timing (s : State) (i : Nat) (f : Cluster → Cluster) : (s.modCluster i f).timing = s.timing := rfl
@[simp] theorem State.modCluster_tow (s : State) (i : Nat) (f : Cluster → Cluster) : (s.modCluster i f).tow = s.tow := rfl
@[simp] theorem State.modCluster_towOut (s : State) (i : Nat) (f : Cluster → Cluster) : (s.modCluster i f).towOut = s.towOut := rfl
@[simp] theorem State.modCluster_inbound (s : State) (i : Nat) (f : Cluster → Cluster) : (s.modCluster i f).inbound = s.inbound := rfl
@[simp] theorem State.modCluster_cxl (s : State) (i : Nat) (f : Cluster → Cluster) : (s.modCluster i f).cxl = s.cxl := rfl
@[simp] theorem State.modCluster_device (s : State) (i : Nat) (f : Cluster → Cluster) : (s.modCluster i f).device = s.device := rfl
@[simp] theorem State.modCluster_inDomain (s : State) (i : Nat) (f : Cluster → Cluster) : (s.modCluster i f).inDomain = s.inDomain := rfl
@[simp] theorem State.modCluster_apart (s : State) (i : Nat) (f : Cluster → Cluster) : (s.modCluster i f).apart = s.apart := rfl
@[simp] theorem State.modCluster_offset (s : State) (i : Nat) (f : Cluster → Cluster) : (s.modCluster i f).offset = s.offset := rfl
@[simp] theorem State.modCluster_latency (s : State) (i : Nat) (f : Cluster → Cluster) : (s.modCluster i f).latency = s.latency := rfl
@[simp] theorem State.modCluster_notices (s : State) (i : Nat) (f : Cluster → Cluster) : (s.modCluster i f).notices = s.notices := rfl
@[simp] theorem State.modCluster_stretches (s : State) (i : Nat) (f : Cluster → Cluster) : (s.modCluster i f).stretches = s.stretches := rfl
@[simp] theorem State.modCluster_sweeps (s : State) (i : Nat) (f : Cluster → Cluster) : (s.modCluster i f).sweeps = s.sweeps := rfl
@[simp] theorem State.modCluster_sweepAt (s : State) (i : Nat) (f : Cluster → Cluster) : (s.modCluster i f).sweepAt = s.sweepAt := rfl
@[simp] theorem State.modCluster_quietRep (s : State) (i : Nat) (f : Cluster → Cluster) : (s.modCluster i f).quietRep = s.quietRep := rfl
@[simp] theorem State.modCluster_quietAt (s : State) (i : Nat) (f : Cluster → Cluster) : (s.modCluster i f).quietAt = s.quietAt := rfl
@[simp] theorem State.modCluster_activity (s : State) (i : Nat) (f : Cluster → Cluster) : (s.modCluster i f).activity = s.activity := rfl
@[simp] theorem State.modCluster_saved (s : State) (i : Nat) (f : Cluster → Cluster) : (s.modCluster i f).saved = s.saved := rfl
@[simp] theorem State.modCluster_records (s : State) (i : Nat) (f : Cluster → Cluster) : (s.modCluster i f).records = s.records := rfl
@[simp] theorem State.modCluster_errors (s : State) (i : Nat) (f : Cluster → Cluster) : (s.modCluster i f).errors = s.errors := rfl
@[simp] theorem State.modCluster_errTimes (s : State) (i : Nat) (f : Cluster → Cluster) : (s.modCluster i f).errTimes = s.errTimes := rfl
@[simp] theorem State.modCluster_alerts (s : State) (i : Nat) (f : Cluster → Cluster) : (s.modCluster i f).alerts = s.alerts := rfl
@[simp] theorem State.modCluster_errDrops (s : State) (i : Nat) (f : Cluster → Cluster) : (s.modCluster i f).errDrops = s.errDrops := rfl
@[simp] theorem State.modCluster_interrupts (s : State) (i : Nat) (f : Cluster → Cluster) : (s.modCluster i f).interrupts = s.interrupts := rfl
@[simp] theorem State.modCluster_images (s : State) (i : Nat) (f : Cluster → Cluster) : (s.modCluster i f).images = s.images := rfl
@[simp] theorem State.modCluster_keys (s : State) (i : Nat) (f : Cluster → Cluster) : (s.modCluster i f).keys = s.keys := rfl
@[simp] theorem State.modCluster_noVf (s : State) (i : Nat) (f : Cluster → Cluster) : (s.modCluster i f).noVf = s.noVf := rfl
@[simp] theorem State.modCluster_quantum (s : State) (i : Nat) (f : Cluster → Cluster) : (s.modCluster i f).quantum = s.quantum := rfl
@[simp] theorem State.modCluster_sliceWord (s : State) (i : Nat) (f : Cluster → Cluster) : (s.modCluster i f).sliceWord = s.sliceWord := rfl
@[simp] theorem State.modCluster_sliceFrom (s : State) (i : Nat) (f : Cluster → Cluster) : (s.modCluster i f).sliceFrom = s.sliceFrom := rfl
@[simp] theorem State.modCluster_idleFrom (s : State) (i : Nat) (f : Cluster → Cluster) : (s.modCluster i f).idleFrom = s.idleFrom := rfl
@[simp] theorem State.modCluster_journal (s : State) (i : Nat) (f : Cluster → Cluster) : (s.modCluster i f).journal = s.journal := rfl
@[simp] theorem State.modCluster_replayed (s : State) (i : Nat) (f : Cluster → Cluster) : (s.modCluster i f).replayed = s.replayed := rfl
@[simp] theorem State.modCluster_sdBegun (s : State) (i : Nat) (f : Cluster → Cluster) : (s.modCluster i f).sdBegun = s.sdBegun := rfl
@[simp] theorem State.modCluster_sdMark (s : State) (i : Nat) (f : Cluster → Cluster) : (s.modCluster i f).sdMark = s.sdMark := rfl
@[simp] theorem State.modCluster_powerMode (s : State) (i : Nat) (f : Cluster → Cluster) : (s.modCluster i f).powerMode = s.powerMode := rfl
@[simp] theorem State.modCluster_windowLog (s : State) (i : Nat) (f : Cluster → Cluster) : (s.modCluster i f).windowLog = s.windowLog := rfl
@[simp] theorem State.modCluster_winAsked (s : State) (i : Nat) (f : Cluster → Cluster) : (s.modCluster i f).winAsked = s.winAsked := rfl
@[simp] theorem State.modCluster_sysOld (s : State) (i : Nat) (f : Cluster → Cluster) : (s.modCluster i f).sysOld = s.sysOld := rfl
@[simp] theorem State.modCluster_lagged (s : State) (i : Nat) (f : Cluster → Cluster) : (s.modCluster i f).lagged = s.lagged := rfl

@[simp] theorem State.modDie_cycle (s : State) (i : Nat) (f : Die → Die) : (s.modDie i f).cycle = s.cycle := rfl
@[simp] theorem State.modDie_ptp (s : State) (i : Nat) (f : Die → Die) : (s.modDie i f).ptp = s.ptp := rfl
@[simp] theorem State.modDie_ptpFrac (s : State) (i : Nat) (f : Die → Die) : (s.modDie i f).ptpFrac = s.ptpFrac := rfl
@[simp] theorem State.modDie_cur (s : State) (i : Nat) (f : Die → Die) : (s.modDie i f).cur = s.cur := rfl
@[simp] theorem State.modDie_word0 (s : State) (i : Nat) (f : Die → Die) : (s.modDie i f).word0 = s.word0 := rfl
@[simp] theorem State.modDie_agenda (s : State) (i : Nat) (f : Die → Die) : (s.modDie i f).agenda = s.agenda := rfl
@[simp] theorem State.modDie_fresh (s : State) (i : Nat) (f : Die → Die) : (s.modDie i f).fresh = s.fresh := rfl
@[simp] theorem State.modDie_cleozTrap (s : State) (i : Nat) (f : Die → Die) : (s.modDie i f).cleozTrap = s.cleozTrap := rfl
@[simp] theorem State.modDie_ctxs (s : State) (i : Nat) (f : Die → Die) : (s.modDie i f).ctxs = s.ctxs := rfl
@[simp] theorem State.modDie_cores (s : State) (i : Nat) (f : Die → Die) : (s.modDie i f).cores = s.cores := rfl
@[simp] theorem State.modDie_clusters (s : State) (i : Nat) (f : Die → Die) : (s.modDie i f).clusters = s.clusters := rfl
@[simp] theorem State.modDie_hbm (s : State) (i : Nat) (f : Die → Die) : (s.modDie i f).hbm = s.hbm := rfl
@[simp] theorem State.modDie_mem (s : State) (i : Nat) (f : Die → Die) : (s.modDie i f).mem = s.mem := rfl
@[simp] theorem State.modDie_empties (s : State) (i : Nat) (f : Die → Die) : (s.modDie i f).empties = s.empties := rfl
@[simp] theorem State.modDie_poison (s : State) (i : Nat) (f : Die → Die) : (s.modDie i f).poison = s.poison := rfl
@[simp] theorem State.modDie_poisonRanges (s : State) (i : Nat) (f : Die → Die) : (s.modDie i f).poisonRanges = s.poisonRanges := rfl
@[simp] theorem State.modDie_flights (s : State) (i : Nat) (f : Die → Die) : (s.modDie i f).flights = s.flights := rfl
@[simp] theorem State.modDie_nextId (s : State) (i : Nat) (f : Die → Die) : (s.modDie i f).nextId = s.nextId := rfl
@[simp] theorem State.modDie_admin (s : State) (i : Nat) (f : Die → Die) : (s.modDie i f).admin = s.admin := rfl
@[simp] theorem State.modDie_boot (s : State) (i : Nat) (f : Die → Die) : (s.modDie i f).boot = s.boot := rfl
@[simp] theorem State.modDie_launches (s : State) (i : Nat) (f : Die → Die) : (s.modDie i f).launches = s.launches := rfl
@[simp] theorem State.modDie_settling (s : State) (i : Nat) (f : Die → Die) : (s.modDie i f).settling = s.settling := rfl
@[simp] theorem State.modDie_nextHandle (s : State) (i : Nat) (f : Die → Die) : (s.modDie i f).nextHandle = s.nextHandle := rfl
@[simp] theorem State.modDie_moors (s : State) (i : Nat) (f : Die → Die) : (s.modDie i f).moors = s.moors := rfl
@[simp] theorem State.modDie_slices (s : State) (i : Nat) (f : Die → Die) : (s.modDie i f).slices = s.slices := rfl
@[simp] theorem State.modDie_classes (s : State) (i : Nat) (f : Die → Die) : (s.modDie i f).classes = s.classes := rfl
@[simp] theorem State.modDie_arrival (s : State) (i : Nat) (f : Die → Die) : (s.modDie i f).arrival = s.arrival := rfl
@[simp] theorem State.modDie_groups (s : State) (i : Nat) (f : Die → Die) : (s.modDie i f).groups = s.groups := rfl
@[simp] theorem State.modDie_eth (s : State) (i : Nat) (f : Die → Die) : (s.modDie i f).eth = s.eth := rfl
@[simp] theorem State.modDie_udpPorts (s : State) (i : Nat) (f : Die → Die) : (s.modDie i f).udpPorts = s.udpPorts := rfl
@[simp] theorem State.modDie_queuePairs (s : State) (i : Nat) (f : Die → Die) : (s.modDie i f).queuePairs = s.queuePairs := rfl
@[simp] theorem State.modDie_sent (s : State) (i : Nat) (f : Die → Die) : (s.modDie i f).sent = s.sent := rfl
@[simp] theorem State.modDie_toCleoz (s : State) (i : Nat) (f : Die → Die) : (s.modDie i f).toCleoz = s.toCleoz := rfl
@[simp] theorem State.modDie_timing (s : State) (i : Nat) (f : Die → Die) : (s.modDie i f).timing = s.timing := rfl
@[simp] theorem State.modDie_tow (s : State) (i : Nat) (f : Die → Die) : (s.modDie i f).tow = s.tow := rfl
@[simp] theorem State.modDie_towOut (s : State) (i : Nat) (f : Die → Die) : (s.modDie i f).towOut = s.towOut := rfl
@[simp] theorem State.modDie_inbound (s : State) (i : Nat) (f : Die → Die) : (s.modDie i f).inbound = s.inbound := rfl
@[simp] theorem State.modDie_cxl (s : State) (i : Nat) (f : Die → Die) : (s.modDie i f).cxl = s.cxl := rfl
@[simp] theorem State.modDie_device (s : State) (i : Nat) (f : Die → Die) : (s.modDie i f).device = s.device := rfl
@[simp] theorem State.modDie_inDomain (s : State) (i : Nat) (f : Die → Die) : (s.modDie i f).inDomain = s.inDomain := rfl
@[simp] theorem State.modDie_apart (s : State) (i : Nat) (f : Die → Die) : (s.modDie i f).apart = s.apart := rfl
@[simp] theorem State.modDie_offset (s : State) (i : Nat) (f : Die → Die) : (s.modDie i f).offset = s.offset := rfl
@[simp] theorem State.modDie_latency (s : State) (i : Nat) (f : Die → Die) : (s.modDie i f).latency = s.latency := rfl
@[simp] theorem State.modDie_notices (s : State) (i : Nat) (f : Die → Die) : (s.modDie i f).notices = s.notices := rfl
@[simp] theorem State.modDie_stretches (s : State) (i : Nat) (f : Die → Die) : (s.modDie i f).stretches = s.stretches := rfl
@[simp] theorem State.modDie_sweeps (s : State) (i : Nat) (f : Die → Die) : (s.modDie i f).sweeps = s.sweeps := rfl
@[simp] theorem State.modDie_sweepAt (s : State) (i : Nat) (f : Die → Die) : (s.modDie i f).sweepAt = s.sweepAt := rfl
@[simp] theorem State.modDie_quietRep (s : State) (i : Nat) (f : Die → Die) : (s.modDie i f).quietRep = s.quietRep := rfl
@[simp] theorem State.modDie_quietAt (s : State) (i : Nat) (f : Die → Die) : (s.modDie i f).quietAt = s.quietAt := rfl
@[simp] theorem State.modDie_activity (s : State) (i : Nat) (f : Die → Die) : (s.modDie i f).activity = s.activity := rfl
@[simp] theorem State.modDie_saved (s : State) (i : Nat) (f : Die → Die) : (s.modDie i f).saved = s.saved := rfl
@[simp] theorem State.modDie_records (s : State) (i : Nat) (f : Die → Die) : (s.modDie i f).records = s.records := rfl
@[simp] theorem State.modDie_errors (s : State) (i : Nat) (f : Die → Die) : (s.modDie i f).errors = s.errors := rfl
@[simp] theorem State.modDie_errTimes (s : State) (i : Nat) (f : Die → Die) : (s.modDie i f).errTimes = s.errTimes := rfl
@[simp] theorem State.modDie_alerts (s : State) (i : Nat) (f : Die → Die) : (s.modDie i f).alerts = s.alerts := rfl
@[simp] theorem State.modDie_errDrops (s : State) (i : Nat) (f : Die → Die) : (s.modDie i f).errDrops = s.errDrops := rfl
@[simp] theorem State.modDie_interrupts (s : State) (i : Nat) (f : Die → Die) : (s.modDie i f).interrupts = s.interrupts := rfl
@[simp] theorem State.modDie_images (s : State) (i : Nat) (f : Die → Die) : (s.modDie i f).images = s.images := rfl
@[simp] theorem State.modDie_keys (s : State) (i : Nat) (f : Die → Die) : (s.modDie i f).keys = s.keys := rfl
@[simp] theorem State.modDie_noVf (s : State) (i : Nat) (f : Die → Die) : (s.modDie i f).noVf = s.noVf := rfl
@[simp] theorem State.modDie_quantum (s : State) (i : Nat) (f : Die → Die) : (s.modDie i f).quantum = s.quantum := rfl
@[simp] theorem State.modDie_sliceWord (s : State) (i : Nat) (f : Die → Die) : (s.modDie i f).sliceWord = s.sliceWord := rfl
@[simp] theorem State.modDie_sliceFrom (s : State) (i : Nat) (f : Die → Die) : (s.modDie i f).sliceFrom = s.sliceFrom := rfl
@[simp] theorem State.modDie_idleFrom (s : State) (i : Nat) (f : Die → Die) : (s.modDie i f).idleFrom = s.idleFrom := rfl
@[simp] theorem State.modDie_journal (s : State) (i : Nat) (f : Die → Die) : (s.modDie i f).journal = s.journal := rfl
@[simp] theorem State.modDie_replayed (s : State) (i : Nat) (f : Die → Die) : (s.modDie i f).replayed = s.replayed := rfl
@[simp] theorem State.modDie_sdBegun (s : State) (i : Nat) (f : Die → Die) : (s.modDie i f).sdBegun = s.sdBegun := rfl
@[simp] theorem State.modDie_sdMark (s : State) (i : Nat) (f : Die → Die) : (s.modDie i f).sdMark = s.sdMark := rfl
@[simp] theorem State.modDie_powerMode (s : State) (i : Nat) (f : Die → Die) : (s.modDie i f).powerMode = s.powerMode := rfl
@[simp] theorem State.modDie_windowLog (s : State) (i : Nat) (f : Die → Die) : (s.modDie i f).windowLog = s.windowLog := rfl
@[simp] theorem State.modDie_winAsked (s : State) (i : Nat) (f : Die → Die) : (s.modDie i f).winAsked = s.winAsked := rfl
@[simp] theorem State.modDie_sysOld (s : State) (i : Nat) (f : Die → Die) : (s.modDie i f).sysOld = s.sysOld := rfl
@[simp] theorem State.modDie_lagged (s : State) (i : Nat) (f : Die → Die) : (s.modDie i f).lagged = s.lagged := rfl

@[simp] theorem State.modStack_cycle (s : State) (i : Nat) (f : Stack → Stack) : (s.modStack i f).cycle = s.cycle := rfl
@[simp] theorem State.modStack_ptp (s : State) (i : Nat) (f : Stack → Stack) : (s.modStack i f).ptp = s.ptp := rfl
@[simp] theorem State.modStack_ptpFrac (s : State) (i : Nat) (f : Stack → Stack) : (s.modStack i f).ptpFrac = s.ptpFrac := rfl
@[simp] theorem State.modStack_cur (s : State) (i : Nat) (f : Stack → Stack) : (s.modStack i f).cur = s.cur := rfl
@[simp] theorem State.modStack_word0 (s : State) (i : Nat) (f : Stack → Stack) : (s.modStack i f).word0 = s.word0 := rfl
@[simp] theorem State.modStack_agenda (s : State) (i : Nat) (f : Stack → Stack) : (s.modStack i f).agenda = s.agenda := rfl
@[simp] theorem State.modStack_fresh (s : State) (i : Nat) (f : Stack → Stack) : (s.modStack i f).fresh = s.fresh := rfl
@[simp] theorem State.modStack_cleozTrap (s : State) (i : Nat) (f : Stack → Stack) : (s.modStack i f).cleozTrap = s.cleozTrap := rfl
@[simp] theorem State.modStack_ctxs (s : State) (i : Nat) (f : Stack → Stack) : (s.modStack i f).ctxs = s.ctxs := rfl
@[simp] theorem State.modStack_cores (s : State) (i : Nat) (f : Stack → Stack) : (s.modStack i f).cores = s.cores := rfl
@[simp] theorem State.modStack_clusters (s : State) (i : Nat) (f : Stack → Stack) : (s.modStack i f).clusters = s.clusters := rfl
@[simp] theorem State.modStack_dies (s : State) (i : Nat) (f : Stack → Stack) : (s.modStack i f).dies = s.dies := rfl
@[simp] theorem State.modStack_mem (s : State) (i : Nat) (f : Stack → Stack) : (s.modStack i f).mem = s.mem := rfl
@[simp] theorem State.modStack_empties (s : State) (i : Nat) (f : Stack → Stack) : (s.modStack i f).empties = s.empties := rfl
@[simp] theorem State.modStack_poison (s : State) (i : Nat) (f : Stack → Stack) : (s.modStack i f).poison = s.poison := rfl
@[simp] theorem State.modStack_poisonRanges (s : State) (i : Nat) (f : Stack → Stack) : (s.modStack i f).poisonRanges = s.poisonRanges := rfl
@[simp] theorem State.modStack_flights (s : State) (i : Nat) (f : Stack → Stack) : (s.modStack i f).flights = s.flights := rfl
@[simp] theorem State.modStack_nextId (s : State) (i : Nat) (f : Stack → Stack) : (s.modStack i f).nextId = s.nextId := rfl
@[simp] theorem State.modStack_admin (s : State) (i : Nat) (f : Stack → Stack) : (s.modStack i f).admin = s.admin := rfl
@[simp] theorem State.modStack_boot (s : State) (i : Nat) (f : Stack → Stack) : (s.modStack i f).boot = s.boot := rfl
@[simp] theorem State.modStack_launches (s : State) (i : Nat) (f : Stack → Stack) : (s.modStack i f).launches = s.launches := rfl
@[simp] theorem State.modStack_settling (s : State) (i : Nat) (f : Stack → Stack) : (s.modStack i f).settling = s.settling := rfl
@[simp] theorem State.modStack_nextHandle (s : State) (i : Nat) (f : Stack → Stack) : (s.modStack i f).nextHandle = s.nextHandle := rfl
@[simp] theorem State.modStack_moors (s : State) (i : Nat) (f : Stack → Stack) : (s.modStack i f).moors = s.moors := rfl
@[simp] theorem State.modStack_slices (s : State) (i : Nat) (f : Stack → Stack) : (s.modStack i f).slices = s.slices := rfl
@[simp] theorem State.modStack_classes (s : State) (i : Nat) (f : Stack → Stack) : (s.modStack i f).classes = s.classes := rfl
@[simp] theorem State.modStack_arrival (s : State) (i : Nat) (f : Stack → Stack) : (s.modStack i f).arrival = s.arrival := rfl
@[simp] theorem State.modStack_groups (s : State) (i : Nat) (f : Stack → Stack) : (s.modStack i f).groups = s.groups := rfl
@[simp] theorem State.modStack_eth (s : State) (i : Nat) (f : Stack → Stack) : (s.modStack i f).eth = s.eth := rfl
@[simp] theorem State.modStack_udpPorts (s : State) (i : Nat) (f : Stack → Stack) : (s.modStack i f).udpPorts = s.udpPorts := rfl
@[simp] theorem State.modStack_queuePairs (s : State) (i : Nat) (f : Stack → Stack) : (s.modStack i f).queuePairs = s.queuePairs := rfl
@[simp] theorem State.modStack_sent (s : State) (i : Nat) (f : Stack → Stack) : (s.modStack i f).sent = s.sent := rfl
@[simp] theorem State.modStack_toCleoz (s : State) (i : Nat) (f : Stack → Stack) : (s.modStack i f).toCleoz = s.toCleoz := rfl
@[simp] theorem State.modStack_timing (s : State) (i : Nat) (f : Stack → Stack) : (s.modStack i f).timing = s.timing := rfl
@[simp] theorem State.modStack_tow (s : State) (i : Nat) (f : Stack → Stack) : (s.modStack i f).tow = s.tow := rfl
@[simp] theorem State.modStack_towOut (s : State) (i : Nat) (f : Stack → Stack) : (s.modStack i f).towOut = s.towOut := rfl
@[simp] theorem State.modStack_inbound (s : State) (i : Nat) (f : Stack → Stack) : (s.modStack i f).inbound = s.inbound := rfl
@[simp] theorem State.modStack_cxl (s : State) (i : Nat) (f : Stack → Stack) : (s.modStack i f).cxl = s.cxl := rfl
@[simp] theorem State.modStack_device (s : State) (i : Nat) (f : Stack → Stack) : (s.modStack i f).device = s.device := rfl
@[simp] theorem State.modStack_inDomain (s : State) (i : Nat) (f : Stack → Stack) : (s.modStack i f).inDomain = s.inDomain := rfl
@[simp] theorem State.modStack_apart (s : State) (i : Nat) (f : Stack → Stack) : (s.modStack i f).apart = s.apart := rfl
@[simp] theorem State.modStack_offset (s : State) (i : Nat) (f : Stack → Stack) : (s.modStack i f).offset = s.offset := rfl
@[simp] theorem State.modStack_latency (s : State) (i : Nat) (f : Stack → Stack) : (s.modStack i f).latency = s.latency := rfl
@[simp] theorem State.modStack_notices (s : State) (i : Nat) (f : Stack → Stack) : (s.modStack i f).notices = s.notices := rfl
@[simp] theorem State.modStack_stretches (s : State) (i : Nat) (f : Stack → Stack) : (s.modStack i f).stretches = s.stretches := rfl
@[simp] theorem State.modStack_sweeps (s : State) (i : Nat) (f : Stack → Stack) : (s.modStack i f).sweeps = s.sweeps := rfl
@[simp] theorem State.modStack_sweepAt (s : State) (i : Nat) (f : Stack → Stack) : (s.modStack i f).sweepAt = s.sweepAt := rfl
@[simp] theorem State.modStack_quietRep (s : State) (i : Nat) (f : Stack → Stack) : (s.modStack i f).quietRep = s.quietRep := rfl
@[simp] theorem State.modStack_quietAt (s : State) (i : Nat) (f : Stack → Stack) : (s.modStack i f).quietAt = s.quietAt := rfl
@[simp] theorem State.modStack_activity (s : State) (i : Nat) (f : Stack → Stack) : (s.modStack i f).activity = s.activity := rfl
@[simp] theorem State.modStack_saved (s : State) (i : Nat) (f : Stack → Stack) : (s.modStack i f).saved = s.saved := rfl
@[simp] theorem State.modStack_records (s : State) (i : Nat) (f : Stack → Stack) : (s.modStack i f).records = s.records := rfl
@[simp] theorem State.modStack_errors (s : State) (i : Nat) (f : Stack → Stack) : (s.modStack i f).errors = s.errors := rfl
@[simp] theorem State.modStack_errTimes (s : State) (i : Nat) (f : Stack → Stack) : (s.modStack i f).errTimes = s.errTimes := rfl
@[simp] theorem State.modStack_alerts (s : State) (i : Nat) (f : Stack → Stack) : (s.modStack i f).alerts = s.alerts := rfl
@[simp] theorem State.modStack_errDrops (s : State) (i : Nat) (f : Stack → Stack) : (s.modStack i f).errDrops = s.errDrops := rfl
@[simp] theorem State.modStack_interrupts (s : State) (i : Nat) (f : Stack → Stack) : (s.modStack i f).interrupts = s.interrupts := rfl
@[simp] theorem State.modStack_images (s : State) (i : Nat) (f : Stack → Stack) : (s.modStack i f).images = s.images := rfl
@[simp] theorem State.modStack_keys (s : State) (i : Nat) (f : Stack → Stack) : (s.modStack i f).keys = s.keys := rfl
@[simp] theorem State.modStack_noVf (s : State) (i : Nat) (f : Stack → Stack) : (s.modStack i f).noVf = s.noVf := rfl
@[simp] theorem State.modStack_quantum (s : State) (i : Nat) (f : Stack → Stack) : (s.modStack i f).quantum = s.quantum := rfl
@[simp] theorem State.modStack_sliceWord (s : State) (i : Nat) (f : Stack → Stack) : (s.modStack i f).sliceWord = s.sliceWord := rfl
@[simp] theorem State.modStack_sliceFrom (s : State) (i : Nat) (f : Stack → Stack) : (s.modStack i f).sliceFrom = s.sliceFrom := rfl
@[simp] theorem State.modStack_idleFrom (s : State) (i : Nat) (f : Stack → Stack) : (s.modStack i f).idleFrom = s.idleFrom := rfl
@[simp] theorem State.modStack_journal (s : State) (i : Nat) (f : Stack → Stack) : (s.modStack i f).journal = s.journal := rfl
@[simp] theorem State.modStack_replayed (s : State) (i : Nat) (f : Stack → Stack) : (s.modStack i f).replayed = s.replayed := rfl
@[simp] theorem State.modStack_sdBegun (s : State) (i : Nat) (f : Stack → Stack) : (s.modStack i f).sdBegun = s.sdBegun := rfl
@[simp] theorem State.modStack_sdMark (s : State) (i : Nat) (f : Stack → Stack) : (s.modStack i f).sdMark = s.sdMark := rfl
@[simp] theorem State.modStack_powerMode (s : State) (i : Nat) (f : Stack → Stack) : (s.modStack i f).powerMode = s.powerMode := rfl
@[simp] theorem State.modStack_windowLog (s : State) (i : Nat) (f : Stack → Stack) : (s.modStack i f).windowLog = s.windowLog := rfl
@[simp] theorem State.modStack_winAsked (s : State) (i : Nat) (f : Stack → Stack) : (s.modStack i f).winAsked = s.winAsked := rfl
@[simp] theorem State.modStack_sysOld (s : State) (i : Nat) (f : Stack → Stack) : (s.modStack i f).sysOld = s.sysOld := rfl
@[simp] theorem State.modStack_lagged (s : State) (i : Nat) (f : Stack → Stack) : (s.modStack i f).lagged = s.lagged := rfl

@[simp] theorem State.modSlice_cycle (s : State) (i : Nat) (f : Slice → Slice) : (s.modSlice i f).cycle = s.cycle := rfl
@[simp] theorem State.modSlice_ptp (s : State) (i : Nat) (f : Slice → Slice) : (s.modSlice i f).ptp = s.ptp := rfl
@[simp] theorem State.modSlice_ptpFrac (s : State) (i : Nat) (f : Slice → Slice) : (s.modSlice i f).ptpFrac = s.ptpFrac := rfl
@[simp] theorem State.modSlice_cur (s : State) (i : Nat) (f : Slice → Slice) : (s.modSlice i f).cur = s.cur := rfl
@[simp] theorem State.modSlice_word0 (s : State) (i : Nat) (f : Slice → Slice) : (s.modSlice i f).word0 = s.word0 := rfl
@[simp] theorem State.modSlice_agenda (s : State) (i : Nat) (f : Slice → Slice) : (s.modSlice i f).agenda = s.agenda := rfl
@[simp] theorem State.modSlice_fresh (s : State) (i : Nat) (f : Slice → Slice) : (s.modSlice i f).fresh = s.fresh := rfl
@[simp] theorem State.modSlice_cleozTrap (s : State) (i : Nat) (f : Slice → Slice) : (s.modSlice i f).cleozTrap = s.cleozTrap := rfl
@[simp] theorem State.modSlice_ctxs (s : State) (i : Nat) (f : Slice → Slice) : (s.modSlice i f).ctxs = s.ctxs := rfl
@[simp] theorem State.modSlice_cores (s : State) (i : Nat) (f : Slice → Slice) : (s.modSlice i f).cores = s.cores := rfl
@[simp] theorem State.modSlice_clusters (s : State) (i : Nat) (f : Slice → Slice) : (s.modSlice i f).clusters = s.clusters := rfl
@[simp] theorem State.modSlice_dies (s : State) (i : Nat) (f : Slice → Slice) : (s.modSlice i f).dies = s.dies := rfl
@[simp] theorem State.modSlice_hbm (s : State) (i : Nat) (f : Slice → Slice) : (s.modSlice i f).hbm = s.hbm := rfl
@[simp] theorem State.modSlice_mem (s : State) (i : Nat) (f : Slice → Slice) : (s.modSlice i f).mem = s.mem := rfl
@[simp] theorem State.modSlice_empties (s : State) (i : Nat) (f : Slice → Slice) : (s.modSlice i f).empties = s.empties := rfl
@[simp] theorem State.modSlice_poison (s : State) (i : Nat) (f : Slice → Slice) : (s.modSlice i f).poison = s.poison := rfl
@[simp] theorem State.modSlice_poisonRanges (s : State) (i : Nat) (f : Slice → Slice) : (s.modSlice i f).poisonRanges = s.poisonRanges := rfl
@[simp] theorem State.modSlice_flights (s : State) (i : Nat) (f : Slice → Slice) : (s.modSlice i f).flights = s.flights := rfl
@[simp] theorem State.modSlice_nextId (s : State) (i : Nat) (f : Slice → Slice) : (s.modSlice i f).nextId = s.nextId := rfl
@[simp] theorem State.modSlice_admin (s : State) (i : Nat) (f : Slice → Slice) : (s.modSlice i f).admin = s.admin := rfl
@[simp] theorem State.modSlice_boot (s : State) (i : Nat) (f : Slice → Slice) : (s.modSlice i f).boot = s.boot := rfl
@[simp] theorem State.modSlice_launches (s : State) (i : Nat) (f : Slice → Slice) : (s.modSlice i f).launches = s.launches := rfl
@[simp] theorem State.modSlice_settling (s : State) (i : Nat) (f : Slice → Slice) : (s.modSlice i f).settling = s.settling := rfl
@[simp] theorem State.modSlice_nextHandle (s : State) (i : Nat) (f : Slice → Slice) : (s.modSlice i f).nextHandle = s.nextHandle := rfl
@[simp] theorem State.modSlice_moors (s : State) (i : Nat) (f : Slice → Slice) : (s.modSlice i f).moors = s.moors := rfl
@[simp] theorem State.modSlice_classes (s : State) (i : Nat) (f : Slice → Slice) : (s.modSlice i f).classes = s.classes := rfl
@[simp] theorem State.modSlice_arrival (s : State) (i : Nat) (f : Slice → Slice) : (s.modSlice i f).arrival = s.arrival := rfl
@[simp] theorem State.modSlice_groups (s : State) (i : Nat) (f : Slice → Slice) : (s.modSlice i f).groups = s.groups := rfl
@[simp] theorem State.modSlice_eth (s : State) (i : Nat) (f : Slice → Slice) : (s.modSlice i f).eth = s.eth := rfl
@[simp] theorem State.modSlice_udpPorts (s : State) (i : Nat) (f : Slice → Slice) : (s.modSlice i f).udpPorts = s.udpPorts := rfl
@[simp] theorem State.modSlice_queuePairs (s : State) (i : Nat) (f : Slice → Slice) : (s.modSlice i f).queuePairs = s.queuePairs := rfl
@[simp] theorem State.modSlice_sent (s : State) (i : Nat) (f : Slice → Slice) : (s.modSlice i f).sent = s.sent := rfl
@[simp] theorem State.modSlice_toCleoz (s : State) (i : Nat) (f : Slice → Slice) : (s.modSlice i f).toCleoz = s.toCleoz := rfl
@[simp] theorem State.modSlice_timing (s : State) (i : Nat) (f : Slice → Slice) : (s.modSlice i f).timing = s.timing := rfl
@[simp] theorem State.modSlice_tow (s : State) (i : Nat) (f : Slice → Slice) : (s.modSlice i f).tow = s.tow := rfl
@[simp] theorem State.modSlice_towOut (s : State) (i : Nat) (f : Slice → Slice) : (s.modSlice i f).towOut = s.towOut := rfl
@[simp] theorem State.modSlice_inbound (s : State) (i : Nat) (f : Slice → Slice) : (s.modSlice i f).inbound = s.inbound := rfl
@[simp] theorem State.modSlice_cxl (s : State) (i : Nat) (f : Slice → Slice) : (s.modSlice i f).cxl = s.cxl := rfl
@[simp] theorem State.modSlice_device (s : State) (i : Nat) (f : Slice → Slice) : (s.modSlice i f).device = s.device := rfl
@[simp] theorem State.modSlice_inDomain (s : State) (i : Nat) (f : Slice → Slice) : (s.modSlice i f).inDomain = s.inDomain := rfl
@[simp] theorem State.modSlice_apart (s : State) (i : Nat) (f : Slice → Slice) : (s.modSlice i f).apart = s.apart := rfl
@[simp] theorem State.modSlice_offset (s : State) (i : Nat) (f : Slice → Slice) : (s.modSlice i f).offset = s.offset := rfl
@[simp] theorem State.modSlice_latency (s : State) (i : Nat) (f : Slice → Slice) : (s.modSlice i f).latency = s.latency := rfl
@[simp] theorem State.modSlice_notices (s : State) (i : Nat) (f : Slice → Slice) : (s.modSlice i f).notices = s.notices := rfl
@[simp] theorem State.modSlice_stretches (s : State) (i : Nat) (f : Slice → Slice) : (s.modSlice i f).stretches = s.stretches := rfl
@[simp] theorem State.modSlice_sweeps (s : State) (i : Nat) (f : Slice → Slice) : (s.modSlice i f).sweeps = s.sweeps := rfl
@[simp] theorem State.modSlice_sweepAt (s : State) (i : Nat) (f : Slice → Slice) : (s.modSlice i f).sweepAt = s.sweepAt := rfl
@[simp] theorem State.modSlice_quietRep (s : State) (i : Nat) (f : Slice → Slice) : (s.modSlice i f).quietRep = s.quietRep := rfl
@[simp] theorem State.modSlice_quietAt (s : State) (i : Nat) (f : Slice → Slice) : (s.modSlice i f).quietAt = s.quietAt := rfl
@[simp] theorem State.modSlice_activity (s : State) (i : Nat) (f : Slice → Slice) : (s.modSlice i f).activity = s.activity := rfl
@[simp] theorem State.modSlice_saved (s : State) (i : Nat) (f : Slice → Slice) : (s.modSlice i f).saved = s.saved := rfl
@[simp] theorem State.modSlice_records (s : State) (i : Nat) (f : Slice → Slice) : (s.modSlice i f).records = s.records := rfl
@[simp] theorem State.modSlice_errors (s : State) (i : Nat) (f : Slice → Slice) : (s.modSlice i f).errors = s.errors := rfl
@[simp] theorem State.modSlice_errTimes (s : State) (i : Nat) (f : Slice → Slice) : (s.modSlice i f).errTimes = s.errTimes := rfl
@[simp] theorem State.modSlice_alerts (s : State) (i : Nat) (f : Slice → Slice) : (s.modSlice i f).alerts = s.alerts := rfl
@[simp] theorem State.modSlice_errDrops (s : State) (i : Nat) (f : Slice → Slice) : (s.modSlice i f).errDrops = s.errDrops := rfl
@[simp] theorem State.modSlice_interrupts (s : State) (i : Nat) (f : Slice → Slice) : (s.modSlice i f).interrupts = s.interrupts := rfl
@[simp] theorem State.modSlice_images (s : State) (i : Nat) (f : Slice → Slice) : (s.modSlice i f).images = s.images := rfl
@[simp] theorem State.modSlice_keys (s : State) (i : Nat) (f : Slice → Slice) : (s.modSlice i f).keys = s.keys := rfl
@[simp] theorem State.modSlice_noVf (s : State) (i : Nat) (f : Slice → Slice) : (s.modSlice i f).noVf = s.noVf := rfl
@[simp] theorem State.modSlice_quantum (s : State) (i : Nat) (f : Slice → Slice) : (s.modSlice i f).quantum = s.quantum := rfl
@[simp] theorem State.modSlice_sliceWord (s : State) (i : Nat) (f : Slice → Slice) : (s.modSlice i f).sliceWord = s.sliceWord := rfl
@[simp] theorem State.modSlice_sliceFrom (s : State) (i : Nat) (f : Slice → Slice) : (s.modSlice i f).sliceFrom = s.sliceFrom := rfl
@[simp] theorem State.modSlice_idleFrom (s : State) (i : Nat) (f : Slice → Slice) : (s.modSlice i f).idleFrom = s.idleFrom := rfl
@[simp] theorem State.modSlice_journal (s : State) (i : Nat) (f : Slice → Slice) : (s.modSlice i f).journal = s.journal := rfl
@[simp] theorem State.modSlice_replayed (s : State) (i : Nat) (f : Slice → Slice) : (s.modSlice i f).replayed = s.replayed := rfl
@[simp] theorem State.modSlice_sdBegun (s : State) (i : Nat) (f : Slice → Slice) : (s.modSlice i f).sdBegun = s.sdBegun := rfl
@[simp] theorem State.modSlice_sdMark (s : State) (i : Nat) (f : Slice → Slice) : (s.modSlice i f).sdMark = s.sdMark := rfl
@[simp] theorem State.modSlice_powerMode (s : State) (i : Nat) (f : Slice → Slice) : (s.modSlice i f).powerMode = s.powerMode := rfl
@[simp] theorem State.modSlice_windowLog (s : State) (i : Nat) (f : Slice → Slice) : (s.modSlice i f).windowLog = s.windowLog := rfl
@[simp] theorem State.modSlice_winAsked (s : State) (i : Nat) (f : Slice → Slice) : (s.modSlice i f).winAsked = s.winAsked := rfl
@[simp] theorem State.modSlice_sysOld (s : State) (i : Nat) (f : Slice → Slice) : (s.modSlice i f).sysOld = s.sysOld := rfl
@[simp] theorem State.modSlice_lagged (s : State) (i : Nat) (f : Slice → Slice) : (s.modSlice i f).lagged = s.lagged := rfl

@[simp] theorem State.modGroup_cycle (s : State) (i : Nat) (f : Group → Group) : (s.modGroup i f).cycle = s.cycle := rfl
@[simp] theorem State.modGroup_ptp (s : State) (i : Nat) (f : Group → Group) : (s.modGroup i f).ptp = s.ptp := rfl
@[simp] theorem State.modGroup_ptpFrac (s : State) (i : Nat) (f : Group → Group) : (s.modGroup i f).ptpFrac = s.ptpFrac := rfl
@[simp] theorem State.modGroup_cur (s : State) (i : Nat) (f : Group → Group) : (s.modGroup i f).cur = s.cur := rfl
@[simp] theorem State.modGroup_word0 (s : State) (i : Nat) (f : Group → Group) : (s.modGroup i f).word0 = s.word0 := rfl
@[simp] theorem State.modGroup_agenda (s : State) (i : Nat) (f : Group → Group) : (s.modGroup i f).agenda = s.agenda := rfl
@[simp] theorem State.modGroup_fresh (s : State) (i : Nat) (f : Group → Group) : (s.modGroup i f).fresh = s.fresh := rfl
@[simp] theorem State.modGroup_cleozTrap (s : State) (i : Nat) (f : Group → Group) : (s.modGroup i f).cleozTrap = s.cleozTrap := rfl
@[simp] theorem State.modGroup_ctxs (s : State) (i : Nat) (f : Group → Group) : (s.modGroup i f).ctxs = s.ctxs := rfl
@[simp] theorem State.modGroup_cores (s : State) (i : Nat) (f : Group → Group) : (s.modGroup i f).cores = s.cores := rfl
@[simp] theorem State.modGroup_clusters (s : State) (i : Nat) (f : Group → Group) : (s.modGroup i f).clusters = s.clusters := rfl
@[simp] theorem State.modGroup_dies (s : State) (i : Nat) (f : Group → Group) : (s.modGroup i f).dies = s.dies := rfl
@[simp] theorem State.modGroup_hbm (s : State) (i : Nat) (f : Group → Group) : (s.modGroup i f).hbm = s.hbm := rfl
@[simp] theorem State.modGroup_mem (s : State) (i : Nat) (f : Group → Group) : (s.modGroup i f).mem = s.mem := rfl
@[simp] theorem State.modGroup_empties (s : State) (i : Nat) (f : Group → Group) : (s.modGroup i f).empties = s.empties := rfl
@[simp] theorem State.modGroup_poison (s : State) (i : Nat) (f : Group → Group) : (s.modGroup i f).poison = s.poison := rfl
@[simp] theorem State.modGroup_poisonRanges (s : State) (i : Nat) (f : Group → Group) : (s.modGroup i f).poisonRanges = s.poisonRanges := rfl
@[simp] theorem State.modGroup_flights (s : State) (i : Nat) (f : Group → Group) : (s.modGroup i f).flights = s.flights := rfl
@[simp] theorem State.modGroup_nextId (s : State) (i : Nat) (f : Group → Group) : (s.modGroup i f).nextId = s.nextId := rfl
@[simp] theorem State.modGroup_admin (s : State) (i : Nat) (f : Group → Group) : (s.modGroup i f).admin = s.admin := rfl
@[simp] theorem State.modGroup_boot (s : State) (i : Nat) (f : Group → Group) : (s.modGroup i f).boot = s.boot := rfl
@[simp] theorem State.modGroup_launches (s : State) (i : Nat) (f : Group → Group) : (s.modGroup i f).launches = s.launches := rfl
@[simp] theorem State.modGroup_settling (s : State) (i : Nat) (f : Group → Group) : (s.modGroup i f).settling = s.settling := rfl
@[simp] theorem State.modGroup_nextHandle (s : State) (i : Nat) (f : Group → Group) : (s.modGroup i f).nextHandle = s.nextHandle := rfl
@[simp] theorem State.modGroup_moors (s : State) (i : Nat) (f : Group → Group) : (s.modGroup i f).moors = s.moors := rfl
@[simp] theorem State.modGroup_slices (s : State) (i : Nat) (f : Group → Group) : (s.modGroup i f).slices = s.slices := rfl
@[simp] theorem State.modGroup_classes (s : State) (i : Nat) (f : Group → Group) : (s.modGroup i f).classes = s.classes := rfl
@[simp] theorem State.modGroup_arrival (s : State) (i : Nat) (f : Group → Group) : (s.modGroup i f).arrival = s.arrival := rfl
@[simp] theorem State.modGroup_eth (s : State) (i : Nat) (f : Group → Group) : (s.modGroup i f).eth = s.eth := rfl
@[simp] theorem State.modGroup_udpPorts (s : State) (i : Nat) (f : Group → Group) : (s.modGroup i f).udpPorts = s.udpPorts := rfl
@[simp] theorem State.modGroup_queuePairs (s : State) (i : Nat) (f : Group → Group) : (s.modGroup i f).queuePairs = s.queuePairs := rfl
@[simp] theorem State.modGroup_sent (s : State) (i : Nat) (f : Group → Group) : (s.modGroup i f).sent = s.sent := rfl
@[simp] theorem State.modGroup_toCleoz (s : State) (i : Nat) (f : Group → Group) : (s.modGroup i f).toCleoz = s.toCleoz := rfl
@[simp] theorem State.modGroup_timing (s : State) (i : Nat) (f : Group → Group) : (s.modGroup i f).timing = s.timing := rfl
@[simp] theorem State.modGroup_tow (s : State) (i : Nat) (f : Group → Group) : (s.modGroup i f).tow = s.tow := rfl
@[simp] theorem State.modGroup_towOut (s : State) (i : Nat) (f : Group → Group) : (s.modGroup i f).towOut = s.towOut := rfl
@[simp] theorem State.modGroup_inbound (s : State) (i : Nat) (f : Group → Group) : (s.modGroup i f).inbound = s.inbound := rfl
@[simp] theorem State.modGroup_cxl (s : State) (i : Nat) (f : Group → Group) : (s.modGroup i f).cxl = s.cxl := rfl
@[simp] theorem State.modGroup_device (s : State) (i : Nat) (f : Group → Group) : (s.modGroup i f).device = s.device := rfl
@[simp] theorem State.modGroup_inDomain (s : State) (i : Nat) (f : Group → Group) : (s.modGroup i f).inDomain = s.inDomain := rfl
@[simp] theorem State.modGroup_apart (s : State) (i : Nat) (f : Group → Group) : (s.modGroup i f).apart = s.apart := rfl
@[simp] theorem State.modGroup_offset (s : State) (i : Nat) (f : Group → Group) : (s.modGroup i f).offset = s.offset := rfl
@[simp] theorem State.modGroup_latency (s : State) (i : Nat) (f : Group → Group) : (s.modGroup i f).latency = s.latency := rfl
@[simp] theorem State.modGroup_notices (s : State) (i : Nat) (f : Group → Group) : (s.modGroup i f).notices = s.notices := rfl
@[simp] theorem State.modGroup_stretches (s : State) (i : Nat) (f : Group → Group) : (s.modGroup i f).stretches = s.stretches := rfl
@[simp] theorem State.modGroup_sweeps (s : State) (i : Nat) (f : Group → Group) : (s.modGroup i f).sweeps = s.sweeps := rfl
@[simp] theorem State.modGroup_sweepAt (s : State) (i : Nat) (f : Group → Group) : (s.modGroup i f).sweepAt = s.sweepAt := rfl
@[simp] theorem State.modGroup_quietRep (s : State) (i : Nat) (f : Group → Group) : (s.modGroup i f).quietRep = s.quietRep := rfl
@[simp] theorem State.modGroup_quietAt (s : State) (i : Nat) (f : Group → Group) : (s.modGroup i f).quietAt = s.quietAt := rfl
@[simp] theorem State.modGroup_activity (s : State) (i : Nat) (f : Group → Group) : (s.modGroup i f).activity = s.activity := rfl
@[simp] theorem State.modGroup_saved (s : State) (i : Nat) (f : Group → Group) : (s.modGroup i f).saved = s.saved := rfl
@[simp] theorem State.modGroup_records (s : State) (i : Nat) (f : Group → Group) : (s.modGroup i f).records = s.records := rfl
@[simp] theorem State.modGroup_errors (s : State) (i : Nat) (f : Group → Group) : (s.modGroup i f).errors = s.errors := rfl
@[simp] theorem State.modGroup_errTimes (s : State) (i : Nat) (f : Group → Group) : (s.modGroup i f).errTimes = s.errTimes := rfl
@[simp] theorem State.modGroup_alerts (s : State) (i : Nat) (f : Group → Group) : (s.modGroup i f).alerts = s.alerts := rfl
@[simp] theorem State.modGroup_errDrops (s : State) (i : Nat) (f : Group → Group) : (s.modGroup i f).errDrops = s.errDrops := rfl
@[simp] theorem State.modGroup_interrupts (s : State) (i : Nat) (f : Group → Group) : (s.modGroup i f).interrupts = s.interrupts := rfl
@[simp] theorem State.modGroup_images (s : State) (i : Nat) (f : Group → Group) : (s.modGroup i f).images = s.images := rfl
@[simp] theorem State.modGroup_keys (s : State) (i : Nat) (f : Group → Group) : (s.modGroup i f).keys = s.keys := rfl
@[simp] theorem State.modGroup_noVf (s : State) (i : Nat) (f : Group → Group) : (s.modGroup i f).noVf = s.noVf := rfl
@[simp] theorem State.modGroup_quantum (s : State) (i : Nat) (f : Group → Group) : (s.modGroup i f).quantum = s.quantum := rfl
@[simp] theorem State.modGroup_sliceWord (s : State) (i : Nat) (f : Group → Group) : (s.modGroup i f).sliceWord = s.sliceWord := rfl
@[simp] theorem State.modGroup_sliceFrom (s : State) (i : Nat) (f : Group → Group) : (s.modGroup i f).sliceFrom = s.sliceFrom := rfl
@[simp] theorem State.modGroup_idleFrom (s : State) (i : Nat) (f : Group → Group) : (s.modGroup i f).idleFrom = s.idleFrom := rfl
@[simp] theorem State.modGroup_journal (s : State) (i : Nat) (f : Group → Group) : (s.modGroup i f).journal = s.journal := rfl
@[simp] theorem State.modGroup_replayed (s : State) (i : Nat) (f : Group → Group) : (s.modGroup i f).replayed = s.replayed := rfl
@[simp] theorem State.modGroup_sdBegun (s : State) (i : Nat) (f : Group → Group) : (s.modGroup i f).sdBegun = s.sdBegun := rfl
@[simp] theorem State.modGroup_sdMark (s : State) (i : Nat) (f : Group → Group) : (s.modGroup i f).sdMark = s.sdMark := rfl
@[simp] theorem State.modGroup_powerMode (s : State) (i : Nat) (f : Group → Group) : (s.modGroup i f).powerMode = s.powerMode := rfl
@[simp] theorem State.modGroup_windowLog (s : State) (i : Nat) (f : Group → Group) : (s.modGroup i f).windowLog = s.windowLog := rfl
@[simp] theorem State.modGroup_winAsked (s : State) (i : Nat) (f : Group → Group) : (s.modGroup i f).winAsked = s.winAsked := rfl
@[simp] theorem State.modGroup_sysOld (s : State) (i : Nat) (f : Group → Group) : (s.modGroup i f).sysOld = s.sysOld := rfl
@[simp] theorem State.modGroup_lagged (s : State) (i : Nat) (f : Group → Group) : (s.modGroup i f).lagged = s.lagged := rfl

@[simp] theorem State.modEth_cycle (s : State) (i : Nat) (f : EthPort → EthPort) : (s.modEth i f).cycle = s.cycle := rfl
@[simp] theorem State.modEth_ptp (s : State) (i : Nat) (f : EthPort → EthPort) : (s.modEth i f).ptp = s.ptp := rfl
@[simp] theorem State.modEth_ptpFrac (s : State) (i : Nat) (f : EthPort → EthPort) : (s.modEth i f).ptpFrac = s.ptpFrac := rfl
@[simp] theorem State.modEth_cur (s : State) (i : Nat) (f : EthPort → EthPort) : (s.modEth i f).cur = s.cur := rfl
@[simp] theorem State.modEth_word0 (s : State) (i : Nat) (f : EthPort → EthPort) : (s.modEth i f).word0 = s.word0 := rfl
@[simp] theorem State.modEth_agenda (s : State) (i : Nat) (f : EthPort → EthPort) : (s.modEth i f).agenda = s.agenda := rfl
@[simp] theorem State.modEth_fresh (s : State) (i : Nat) (f : EthPort → EthPort) : (s.modEth i f).fresh = s.fresh := rfl
@[simp] theorem State.modEth_cleozTrap (s : State) (i : Nat) (f : EthPort → EthPort) : (s.modEth i f).cleozTrap = s.cleozTrap := rfl
@[simp] theorem State.modEth_ctxs (s : State) (i : Nat) (f : EthPort → EthPort) : (s.modEth i f).ctxs = s.ctxs := rfl
@[simp] theorem State.modEth_cores (s : State) (i : Nat) (f : EthPort → EthPort) : (s.modEth i f).cores = s.cores := rfl
@[simp] theorem State.modEth_clusters (s : State) (i : Nat) (f : EthPort → EthPort) : (s.modEth i f).clusters = s.clusters := rfl
@[simp] theorem State.modEth_dies (s : State) (i : Nat) (f : EthPort → EthPort) : (s.modEth i f).dies = s.dies := rfl
@[simp] theorem State.modEth_hbm (s : State) (i : Nat) (f : EthPort → EthPort) : (s.modEth i f).hbm = s.hbm := rfl
@[simp] theorem State.modEth_mem (s : State) (i : Nat) (f : EthPort → EthPort) : (s.modEth i f).mem = s.mem := rfl
@[simp] theorem State.modEth_empties (s : State) (i : Nat) (f : EthPort → EthPort) : (s.modEth i f).empties = s.empties := rfl
@[simp] theorem State.modEth_poison (s : State) (i : Nat) (f : EthPort → EthPort) : (s.modEth i f).poison = s.poison := rfl
@[simp] theorem State.modEth_poisonRanges (s : State) (i : Nat) (f : EthPort → EthPort) : (s.modEth i f).poisonRanges = s.poisonRanges := rfl
@[simp] theorem State.modEth_flights (s : State) (i : Nat) (f : EthPort → EthPort) : (s.modEth i f).flights = s.flights := rfl
@[simp] theorem State.modEth_nextId (s : State) (i : Nat) (f : EthPort → EthPort) : (s.modEth i f).nextId = s.nextId := rfl
@[simp] theorem State.modEth_admin (s : State) (i : Nat) (f : EthPort → EthPort) : (s.modEth i f).admin = s.admin := rfl
@[simp] theorem State.modEth_boot (s : State) (i : Nat) (f : EthPort → EthPort) : (s.modEth i f).boot = s.boot := rfl
@[simp] theorem State.modEth_launches (s : State) (i : Nat) (f : EthPort → EthPort) : (s.modEth i f).launches = s.launches := rfl
@[simp] theorem State.modEth_settling (s : State) (i : Nat) (f : EthPort → EthPort) : (s.modEth i f).settling = s.settling := rfl
@[simp] theorem State.modEth_nextHandle (s : State) (i : Nat) (f : EthPort → EthPort) : (s.modEth i f).nextHandle = s.nextHandle := rfl
@[simp] theorem State.modEth_moors (s : State) (i : Nat) (f : EthPort → EthPort) : (s.modEth i f).moors = s.moors := rfl
@[simp] theorem State.modEth_slices (s : State) (i : Nat) (f : EthPort → EthPort) : (s.modEth i f).slices = s.slices := rfl
@[simp] theorem State.modEth_classes (s : State) (i : Nat) (f : EthPort → EthPort) : (s.modEth i f).classes = s.classes := rfl
@[simp] theorem State.modEth_arrival (s : State) (i : Nat) (f : EthPort → EthPort) : (s.modEth i f).arrival = s.arrival := rfl
@[simp] theorem State.modEth_groups (s : State) (i : Nat) (f : EthPort → EthPort) : (s.modEth i f).groups = s.groups := rfl
@[simp] theorem State.modEth_udpPorts (s : State) (i : Nat) (f : EthPort → EthPort) : (s.modEth i f).udpPorts = s.udpPorts := rfl
@[simp] theorem State.modEth_queuePairs (s : State) (i : Nat) (f : EthPort → EthPort) : (s.modEth i f).queuePairs = s.queuePairs := rfl
@[simp] theorem State.modEth_sent (s : State) (i : Nat) (f : EthPort → EthPort) : (s.modEth i f).sent = s.sent := rfl
@[simp] theorem State.modEth_toCleoz (s : State) (i : Nat) (f : EthPort → EthPort) : (s.modEth i f).toCleoz = s.toCleoz := rfl
@[simp] theorem State.modEth_timing (s : State) (i : Nat) (f : EthPort → EthPort) : (s.modEth i f).timing = s.timing := rfl
@[simp] theorem State.modEth_tow (s : State) (i : Nat) (f : EthPort → EthPort) : (s.modEth i f).tow = s.tow := rfl
@[simp] theorem State.modEth_towOut (s : State) (i : Nat) (f : EthPort → EthPort) : (s.modEth i f).towOut = s.towOut := rfl
@[simp] theorem State.modEth_inbound (s : State) (i : Nat) (f : EthPort → EthPort) : (s.modEth i f).inbound = s.inbound := rfl
@[simp] theorem State.modEth_cxl (s : State) (i : Nat) (f : EthPort → EthPort) : (s.modEth i f).cxl = s.cxl := rfl
@[simp] theorem State.modEth_device (s : State) (i : Nat) (f : EthPort → EthPort) : (s.modEth i f).device = s.device := rfl
@[simp] theorem State.modEth_inDomain (s : State) (i : Nat) (f : EthPort → EthPort) : (s.modEth i f).inDomain = s.inDomain := rfl
@[simp] theorem State.modEth_apart (s : State) (i : Nat) (f : EthPort → EthPort) : (s.modEth i f).apart = s.apart := rfl
@[simp] theorem State.modEth_offset (s : State) (i : Nat) (f : EthPort → EthPort) : (s.modEth i f).offset = s.offset := rfl
@[simp] theorem State.modEth_latency (s : State) (i : Nat) (f : EthPort → EthPort) : (s.modEth i f).latency = s.latency := rfl
@[simp] theorem State.modEth_notices (s : State) (i : Nat) (f : EthPort → EthPort) : (s.modEth i f).notices = s.notices := rfl
@[simp] theorem State.modEth_stretches (s : State) (i : Nat) (f : EthPort → EthPort) : (s.modEth i f).stretches = s.stretches := rfl
@[simp] theorem State.modEth_sweeps (s : State) (i : Nat) (f : EthPort → EthPort) : (s.modEth i f).sweeps = s.sweeps := rfl
@[simp] theorem State.modEth_sweepAt (s : State) (i : Nat) (f : EthPort → EthPort) : (s.modEth i f).sweepAt = s.sweepAt := rfl
@[simp] theorem State.modEth_quietRep (s : State) (i : Nat) (f : EthPort → EthPort) : (s.modEth i f).quietRep = s.quietRep := rfl
@[simp] theorem State.modEth_quietAt (s : State) (i : Nat) (f : EthPort → EthPort) : (s.modEth i f).quietAt = s.quietAt := rfl
@[simp] theorem State.modEth_activity (s : State) (i : Nat) (f : EthPort → EthPort) : (s.modEth i f).activity = s.activity := rfl
@[simp] theorem State.modEth_saved (s : State) (i : Nat) (f : EthPort → EthPort) : (s.modEth i f).saved = s.saved := rfl
@[simp] theorem State.modEth_records (s : State) (i : Nat) (f : EthPort → EthPort) : (s.modEth i f).records = s.records := rfl
@[simp] theorem State.modEth_errors (s : State) (i : Nat) (f : EthPort → EthPort) : (s.modEth i f).errors = s.errors := rfl
@[simp] theorem State.modEth_errTimes (s : State) (i : Nat) (f : EthPort → EthPort) : (s.modEth i f).errTimes = s.errTimes := rfl
@[simp] theorem State.modEth_alerts (s : State) (i : Nat) (f : EthPort → EthPort) : (s.modEth i f).alerts = s.alerts := rfl
@[simp] theorem State.modEth_errDrops (s : State) (i : Nat) (f : EthPort → EthPort) : (s.modEth i f).errDrops = s.errDrops := rfl
@[simp] theorem State.modEth_interrupts (s : State) (i : Nat) (f : EthPort → EthPort) : (s.modEth i f).interrupts = s.interrupts := rfl
@[simp] theorem State.modEth_images (s : State) (i : Nat) (f : EthPort → EthPort) : (s.modEth i f).images = s.images := rfl
@[simp] theorem State.modEth_keys (s : State) (i : Nat) (f : EthPort → EthPort) : (s.modEth i f).keys = s.keys := rfl
@[simp] theorem State.modEth_noVf (s : State) (i : Nat) (f : EthPort → EthPort) : (s.modEth i f).noVf = s.noVf := rfl
@[simp] theorem State.modEth_quantum (s : State) (i : Nat) (f : EthPort → EthPort) : (s.modEth i f).quantum = s.quantum := rfl
@[simp] theorem State.modEth_sliceWord (s : State) (i : Nat) (f : EthPort → EthPort) : (s.modEth i f).sliceWord = s.sliceWord := rfl
@[simp] theorem State.modEth_sliceFrom (s : State) (i : Nat) (f : EthPort → EthPort) : (s.modEth i f).sliceFrom = s.sliceFrom := rfl
@[simp] theorem State.modEth_idleFrom (s : State) (i : Nat) (f : EthPort → EthPort) : (s.modEth i f).idleFrom = s.idleFrom := rfl
@[simp] theorem State.modEth_journal (s : State) (i : Nat) (f : EthPort → EthPort) : (s.modEth i f).journal = s.journal := rfl
@[simp] theorem State.modEth_replayed (s : State) (i : Nat) (f : EthPort → EthPort) : (s.modEth i f).replayed = s.replayed := rfl
@[simp] theorem State.modEth_sdBegun (s : State) (i : Nat) (f : EthPort → EthPort) : (s.modEth i f).sdBegun = s.sdBegun := rfl
@[simp] theorem State.modEth_sdMark (s : State) (i : Nat) (f : EthPort → EthPort) : (s.modEth i f).sdMark = s.sdMark := rfl
@[simp] theorem State.modEth_powerMode (s : State) (i : Nat) (f : EthPort → EthPort) : (s.modEth i f).powerMode = s.powerMode := rfl
@[simp] theorem State.modEth_windowLog (s : State) (i : Nat) (f : EthPort → EthPort) : (s.modEth i f).windowLog = s.windowLog := rfl
@[simp] theorem State.modEth_winAsked (s : State) (i : Nat) (f : EthPort → EthPort) : (s.modEth i f).winAsked = s.winAsked := rfl
@[simp] theorem State.modEth_sysOld (s : State) (i : Nat) (f : EthPort → EthPort) : (s.modEth i f).sysOld = s.sysOld := rfl
@[simp] theorem State.modEth_lagged (s : State) (i : Nat) (f : EthPort → EthPort) : (s.modEth i f).lagged = s.lagged := rfl

@[simp] theorem State.write_cycle (s : State) (k n v : Nat) : (s.write k n v).cycle = s.cycle := rfl
@[simp] theorem State.write_ptp (s : State) (k n v : Nat) : (s.write k n v).ptp = s.ptp := rfl
@[simp] theorem State.write_ptpFrac (s : State) (k n v : Nat) : (s.write k n v).ptpFrac = s.ptpFrac := rfl
@[simp] theorem State.write_cur (s : State) (k n v : Nat) : (s.write k n v).cur = s.cur := rfl
@[simp] theorem State.write_word0 (s : State) (k n v : Nat) : (s.write k n v).word0 = s.word0 := rfl
@[simp] theorem State.write_agenda (s : State) (k n v : Nat) : (s.write k n v).agenda = s.agenda := rfl
@[simp] theorem State.write_fresh (s : State) (k n v : Nat) : (s.write k n v).fresh = s.fresh := rfl
@[simp] theorem State.write_cleozTrap (s : State) (k n v : Nat) : (s.write k n v).cleozTrap = s.cleozTrap := rfl
@[simp] theorem State.write_ctxs (s : State) (k n v : Nat) : (s.write k n v).ctxs = s.ctxs := rfl
@[simp] theorem State.write_cores (s : State) (k n v : Nat) : (s.write k n v).cores = s.cores := rfl
@[simp] theorem State.write_clusters (s : State) (k n v : Nat) : (s.write k n v).clusters = s.clusters := rfl
@[simp] theorem State.write_dies (s : State) (k n v : Nat) : (s.write k n v).dies = s.dies := rfl
@[simp] theorem State.write_hbm (s : State) (k n v : Nat) : (s.write k n v).hbm = s.hbm := rfl
@[simp] theorem State.write_empties (s : State) (k n v : Nat) : (s.write k n v).empties = s.empties := rfl
@[simp] theorem State.write_poison (s : State) (k n v : Nat) : (s.write k n v).poison = s.poison := rfl
@[simp] theorem State.write_poisonRanges (s : State) (k n v : Nat) : (s.write k n v).poisonRanges = s.poisonRanges := rfl
@[simp] theorem State.write_flights (s : State) (k n v : Nat) : (s.write k n v).flights = s.flights := rfl
@[simp] theorem State.write_nextId (s : State) (k n v : Nat) : (s.write k n v).nextId = s.nextId := rfl
@[simp] theorem State.write_admin (s : State) (k n v : Nat) : (s.write k n v).admin = s.admin := rfl
@[simp] theorem State.write_boot (s : State) (k n v : Nat) : (s.write k n v).boot = s.boot := rfl
@[simp] theorem State.write_launches (s : State) (k n v : Nat) : (s.write k n v).launches = s.launches := rfl
@[simp] theorem State.write_settling (s : State) (k n v : Nat) : (s.write k n v).settling = s.settling := rfl
@[simp] theorem State.write_nextHandle (s : State) (k n v : Nat) : (s.write k n v).nextHandle = s.nextHandle := rfl
@[simp] theorem State.write_moors (s : State) (k n v : Nat) : (s.write k n v).moors = s.moors := rfl
@[simp] theorem State.write_slices (s : State) (k n v : Nat) : (s.write k n v).slices = s.slices := rfl
@[simp] theorem State.write_classes (s : State) (k n v : Nat) : (s.write k n v).classes = s.classes := rfl
@[simp] theorem State.write_arrival (s : State) (k n v : Nat) : (s.write k n v).arrival = s.arrival := rfl
@[simp] theorem State.write_groups (s : State) (k n v : Nat) : (s.write k n v).groups = s.groups := rfl
@[simp] theorem State.write_eth (s : State) (k n v : Nat) : (s.write k n v).eth = s.eth := rfl
@[simp] theorem State.write_udpPorts (s : State) (k n v : Nat) : (s.write k n v).udpPorts = s.udpPorts := rfl
@[simp] theorem State.write_queuePairs (s : State) (k n v : Nat) : (s.write k n v).queuePairs = s.queuePairs := rfl
@[simp] theorem State.write_sent (s : State) (k n v : Nat) : (s.write k n v).sent = s.sent := rfl
@[simp] theorem State.write_toCleoz (s : State) (k n v : Nat) : (s.write k n v).toCleoz = s.toCleoz := rfl
@[simp] theorem State.write_timing (s : State) (k n v : Nat) : (s.write k n v).timing = s.timing := rfl
@[simp] theorem State.write_tow (s : State) (k n v : Nat) : (s.write k n v).tow = s.tow := rfl
@[simp] theorem State.write_towOut (s : State) (k n v : Nat) : (s.write k n v).towOut = s.towOut := rfl
@[simp] theorem State.write_inbound (s : State) (k n v : Nat) : (s.write k n v).inbound = s.inbound := rfl
@[simp] theorem State.write_cxl (s : State) (k n v : Nat) : (s.write k n v).cxl = s.cxl := rfl
@[simp] theorem State.write_device (s : State) (k n v : Nat) : (s.write k n v).device = s.device := rfl
@[simp] theorem State.write_inDomain (s : State) (k n v : Nat) : (s.write k n v).inDomain = s.inDomain := rfl
@[simp] theorem State.write_apart (s : State) (k n v : Nat) : (s.write k n v).apart = s.apart := rfl
@[simp] theorem State.write_offset (s : State) (k n v : Nat) : (s.write k n v).offset = s.offset := rfl
@[simp] theorem State.write_latency (s : State) (k n v : Nat) : (s.write k n v).latency = s.latency := rfl
@[simp] theorem State.write_notices (s : State) (k n v : Nat) : (s.write k n v).notices = s.notices := rfl
@[simp] theorem State.write_stretches (s : State) (k n v : Nat) : (s.write k n v).stretches = s.stretches := rfl
@[simp] theorem State.write_sweeps (s : State) (k n v : Nat) : (s.write k n v).sweeps = s.sweeps := rfl
@[simp] theorem State.write_sweepAt (s : State) (k n v : Nat) : (s.write k n v).sweepAt = s.sweepAt := rfl
@[simp] theorem State.write_quietRep (s : State) (k n v : Nat) : (s.write k n v).quietRep = s.quietRep := rfl
@[simp] theorem State.write_quietAt (s : State) (k n v : Nat) : (s.write k n v).quietAt = s.quietAt := rfl
@[simp] theorem State.write_activity (s : State) (k n v : Nat) : (s.write k n v).activity = s.activity := rfl
@[simp] theorem State.write_saved (s : State) (k n v : Nat) : (s.write k n v).saved = s.saved := rfl
@[simp] theorem State.write_records (s : State) (k n v : Nat) : (s.write k n v).records = s.records := rfl
@[simp] theorem State.write_errors (s : State) (k n v : Nat) : (s.write k n v).errors = s.errors := rfl
@[simp] theorem State.write_errTimes (s : State) (k n v : Nat) : (s.write k n v).errTimes = s.errTimes := rfl
@[simp] theorem State.write_alerts (s : State) (k n v : Nat) : (s.write k n v).alerts = s.alerts := rfl
@[simp] theorem State.write_errDrops (s : State) (k n v : Nat) : (s.write k n v).errDrops = s.errDrops := rfl
@[simp] theorem State.write_interrupts (s : State) (k n v : Nat) : (s.write k n v).interrupts = s.interrupts := rfl
@[simp] theorem State.write_images (s : State) (k n v : Nat) : (s.write k n v).images = s.images := rfl
@[simp] theorem State.write_keys (s : State) (k n v : Nat) : (s.write k n v).keys = s.keys := rfl
@[simp] theorem State.write_noVf (s : State) (k n v : Nat) : (s.write k n v).noVf = s.noVf := rfl
@[simp] theorem State.write_quantum (s : State) (k n v : Nat) : (s.write k n v).quantum = s.quantum := rfl
@[simp] theorem State.write_sliceWord (s : State) (k n v : Nat) : (s.write k n v).sliceWord = s.sliceWord := rfl
@[simp] theorem State.write_sliceFrom (s : State) (k n v : Nat) : (s.write k n v).sliceFrom = s.sliceFrom := rfl
@[simp] theorem State.write_idleFrom (s : State) (k n v : Nat) : (s.write k n v).idleFrom = s.idleFrom := rfl
@[simp] theorem State.write_journal (s : State) (k n v : Nat) : (s.write k n v).journal = s.journal := rfl
@[simp] theorem State.write_replayed (s : State) (k n v : Nat) : (s.write k n v).replayed = s.replayed := rfl
@[simp] theorem State.write_sdBegun (s : State) (k n v : Nat) : (s.write k n v).sdBegun = s.sdBegun := rfl
@[simp] theorem State.write_sdMark (s : State) (k n v : Nat) : (s.write k n v).sdMark = s.sdMark := rfl
@[simp] theorem State.write_powerMode (s : State) (k n v : Nat) : (s.write k n v).powerMode = s.powerMode := rfl
@[simp] theorem State.write_windowLog (s : State) (k n v : Nat) : (s.write k n v).windowLog = s.windowLog := rfl
@[simp] theorem State.write_winAsked (s : State) (k n v : Nat) : (s.write k n v).winAsked = s.winAsked := rfl
@[simp] theorem State.write_sysOld (s : State) (k n v : Nat) : (s.write k n v).sysOld = s.sysOld := rfl
@[simp] theorem State.write_lagged (s : State) (k n v : Nat) : (s.write k n v).lagged = s.lagged := rfl

@[simp] theorem State.writeBytes_cycle (s : State) (k : Nat) (l : List Byte) : (s.writeBytes k l).cycle = s.cycle := rfl
@[simp] theorem State.writeBytes_ptp (s : State) (k : Nat) (l : List Byte) : (s.writeBytes k l).ptp = s.ptp := rfl
@[simp] theorem State.writeBytes_ptpFrac (s : State) (k : Nat) (l : List Byte) : (s.writeBytes k l).ptpFrac = s.ptpFrac := rfl
@[simp] theorem State.writeBytes_cur (s : State) (k : Nat) (l : List Byte) : (s.writeBytes k l).cur = s.cur := rfl
@[simp] theorem State.writeBytes_word0 (s : State) (k : Nat) (l : List Byte) : (s.writeBytes k l).word0 = s.word0 := rfl
@[simp] theorem State.writeBytes_agenda (s : State) (k : Nat) (l : List Byte) : (s.writeBytes k l).agenda = s.agenda := rfl
@[simp] theorem State.writeBytes_fresh (s : State) (k : Nat) (l : List Byte) : (s.writeBytes k l).fresh = s.fresh := rfl
@[simp] theorem State.writeBytes_cleozTrap (s : State) (k : Nat) (l : List Byte) : (s.writeBytes k l).cleozTrap = s.cleozTrap := rfl
@[simp] theorem State.writeBytes_ctxs (s : State) (k : Nat) (l : List Byte) : (s.writeBytes k l).ctxs = s.ctxs := rfl
@[simp] theorem State.writeBytes_cores (s : State) (k : Nat) (l : List Byte) : (s.writeBytes k l).cores = s.cores := rfl
@[simp] theorem State.writeBytes_clusters (s : State) (k : Nat) (l : List Byte) : (s.writeBytes k l).clusters = s.clusters := rfl
@[simp] theorem State.writeBytes_dies (s : State) (k : Nat) (l : List Byte) : (s.writeBytes k l).dies = s.dies := rfl
@[simp] theorem State.writeBytes_hbm (s : State) (k : Nat) (l : List Byte) : (s.writeBytes k l).hbm = s.hbm := rfl
@[simp] theorem State.writeBytes_empties (s : State) (k : Nat) (l : List Byte) : (s.writeBytes k l).empties = s.empties := rfl
@[simp] theorem State.writeBytes_poison (s : State) (k : Nat) (l : List Byte) : (s.writeBytes k l).poison = s.poison := rfl
@[simp] theorem State.writeBytes_poisonRanges (s : State) (k : Nat) (l : List Byte) : (s.writeBytes k l).poisonRanges = s.poisonRanges := rfl
@[simp] theorem State.writeBytes_flights (s : State) (k : Nat) (l : List Byte) : (s.writeBytes k l).flights = s.flights := rfl
@[simp] theorem State.writeBytes_nextId (s : State) (k : Nat) (l : List Byte) : (s.writeBytes k l).nextId = s.nextId := rfl
@[simp] theorem State.writeBytes_admin (s : State) (k : Nat) (l : List Byte) : (s.writeBytes k l).admin = s.admin := rfl
@[simp] theorem State.writeBytes_boot (s : State) (k : Nat) (l : List Byte) : (s.writeBytes k l).boot = s.boot := rfl
@[simp] theorem State.writeBytes_launches (s : State) (k : Nat) (l : List Byte) : (s.writeBytes k l).launches = s.launches := rfl
@[simp] theorem State.writeBytes_settling (s : State) (k : Nat) (l : List Byte) : (s.writeBytes k l).settling = s.settling := rfl
@[simp] theorem State.writeBytes_nextHandle (s : State) (k : Nat) (l : List Byte) : (s.writeBytes k l).nextHandle = s.nextHandle := rfl
@[simp] theorem State.writeBytes_moors (s : State) (k : Nat) (l : List Byte) : (s.writeBytes k l).moors = s.moors := rfl
@[simp] theorem State.writeBytes_slices (s : State) (k : Nat) (l : List Byte) : (s.writeBytes k l).slices = s.slices := rfl
@[simp] theorem State.writeBytes_classes (s : State) (k : Nat) (l : List Byte) : (s.writeBytes k l).classes = s.classes := rfl
@[simp] theorem State.writeBytes_arrival (s : State) (k : Nat) (l : List Byte) : (s.writeBytes k l).arrival = s.arrival := rfl
@[simp] theorem State.writeBytes_groups (s : State) (k : Nat) (l : List Byte) : (s.writeBytes k l).groups = s.groups := rfl
@[simp] theorem State.writeBytes_eth (s : State) (k : Nat) (l : List Byte) : (s.writeBytes k l).eth = s.eth := rfl
@[simp] theorem State.writeBytes_udpPorts (s : State) (k : Nat) (l : List Byte) : (s.writeBytes k l).udpPorts = s.udpPorts := rfl
@[simp] theorem State.writeBytes_queuePairs (s : State) (k : Nat) (l : List Byte) : (s.writeBytes k l).queuePairs = s.queuePairs := rfl
@[simp] theorem State.writeBytes_sent (s : State) (k : Nat) (l : List Byte) : (s.writeBytes k l).sent = s.sent := rfl
@[simp] theorem State.writeBytes_toCleoz (s : State) (k : Nat) (l : List Byte) : (s.writeBytes k l).toCleoz = s.toCleoz := rfl
@[simp] theorem State.writeBytes_timing (s : State) (k : Nat) (l : List Byte) : (s.writeBytes k l).timing = s.timing := rfl
@[simp] theorem State.writeBytes_tow (s : State) (k : Nat) (l : List Byte) : (s.writeBytes k l).tow = s.tow := rfl
@[simp] theorem State.writeBytes_towOut (s : State) (k : Nat) (l : List Byte) : (s.writeBytes k l).towOut = s.towOut := rfl
@[simp] theorem State.writeBytes_inbound (s : State) (k : Nat) (l : List Byte) : (s.writeBytes k l).inbound = s.inbound := rfl
@[simp] theorem State.writeBytes_cxl (s : State) (k : Nat) (l : List Byte) : (s.writeBytes k l).cxl = s.cxl := rfl
@[simp] theorem State.writeBytes_device (s : State) (k : Nat) (l : List Byte) : (s.writeBytes k l).device = s.device := rfl
@[simp] theorem State.writeBytes_inDomain (s : State) (k : Nat) (l : List Byte) : (s.writeBytes k l).inDomain = s.inDomain := rfl
@[simp] theorem State.writeBytes_apart (s : State) (k : Nat) (l : List Byte) : (s.writeBytes k l).apart = s.apart := rfl
@[simp] theorem State.writeBytes_offset (s : State) (k : Nat) (l : List Byte) : (s.writeBytes k l).offset = s.offset := rfl
@[simp] theorem State.writeBytes_latency (s : State) (k : Nat) (l : List Byte) : (s.writeBytes k l).latency = s.latency := rfl
@[simp] theorem State.writeBytes_notices (s : State) (k : Nat) (l : List Byte) : (s.writeBytes k l).notices = s.notices := rfl
@[simp] theorem State.writeBytes_stretches (s : State) (k : Nat) (l : List Byte) : (s.writeBytes k l).stretches = s.stretches := rfl
@[simp] theorem State.writeBytes_sweeps (s : State) (k : Nat) (l : List Byte) : (s.writeBytes k l).sweeps = s.sweeps := rfl
@[simp] theorem State.writeBytes_sweepAt (s : State) (k : Nat) (l : List Byte) : (s.writeBytes k l).sweepAt = s.sweepAt := rfl
@[simp] theorem State.writeBytes_quietRep (s : State) (k : Nat) (l : List Byte) : (s.writeBytes k l).quietRep = s.quietRep := rfl
@[simp] theorem State.writeBytes_quietAt (s : State) (k : Nat) (l : List Byte) : (s.writeBytes k l).quietAt = s.quietAt := rfl
@[simp] theorem State.writeBytes_activity (s : State) (k : Nat) (l : List Byte) : (s.writeBytes k l).activity = s.activity := rfl
@[simp] theorem State.writeBytes_saved (s : State) (k : Nat) (l : List Byte) : (s.writeBytes k l).saved = s.saved := rfl
@[simp] theorem State.writeBytes_records (s : State) (k : Nat) (l : List Byte) : (s.writeBytes k l).records = s.records := rfl
@[simp] theorem State.writeBytes_errors (s : State) (k : Nat) (l : List Byte) : (s.writeBytes k l).errors = s.errors := rfl
@[simp] theorem State.writeBytes_errTimes (s : State) (k : Nat) (l : List Byte) : (s.writeBytes k l).errTimes = s.errTimes := rfl
@[simp] theorem State.writeBytes_alerts (s : State) (k : Nat) (l : List Byte) : (s.writeBytes k l).alerts = s.alerts := rfl
@[simp] theorem State.writeBytes_errDrops (s : State) (k : Nat) (l : List Byte) : (s.writeBytes k l).errDrops = s.errDrops := rfl
@[simp] theorem State.writeBytes_interrupts (s : State) (k : Nat) (l : List Byte) : (s.writeBytes k l).interrupts = s.interrupts := rfl
@[simp] theorem State.writeBytes_images (s : State) (k : Nat) (l : List Byte) : (s.writeBytes k l).images = s.images := rfl
@[simp] theorem State.writeBytes_keys (s : State) (k : Nat) (l : List Byte) : (s.writeBytes k l).keys = s.keys := rfl
@[simp] theorem State.writeBytes_noVf (s : State) (k : Nat) (l : List Byte) : (s.writeBytes k l).noVf = s.noVf := rfl
@[simp] theorem State.writeBytes_quantum (s : State) (k : Nat) (l : List Byte) : (s.writeBytes k l).quantum = s.quantum := rfl
@[simp] theorem State.writeBytes_sliceWord (s : State) (k : Nat) (l : List Byte) : (s.writeBytes k l).sliceWord = s.sliceWord := rfl
@[simp] theorem State.writeBytes_sliceFrom (s : State) (k : Nat) (l : List Byte) : (s.writeBytes k l).sliceFrom = s.sliceFrom := rfl
@[simp] theorem State.writeBytes_idleFrom (s : State) (k : Nat) (l : List Byte) : (s.writeBytes k l).idleFrom = s.idleFrom := rfl
@[simp] theorem State.writeBytes_journal (s : State) (k : Nat) (l : List Byte) : (s.writeBytes k l).journal = s.journal := rfl
@[simp] theorem State.writeBytes_replayed (s : State) (k : Nat) (l : List Byte) : (s.writeBytes k l).replayed = s.replayed := rfl
@[simp] theorem State.writeBytes_sdBegun (s : State) (k : Nat) (l : List Byte) : (s.writeBytes k l).sdBegun = s.sdBegun := rfl
@[simp] theorem State.writeBytes_sdMark (s : State) (k : Nat) (l : List Byte) : (s.writeBytes k l).sdMark = s.sdMark := rfl
@[simp] theorem State.writeBytes_powerMode (s : State) (k : Nat) (l : List Byte) : (s.writeBytes k l).powerMode = s.powerMode := rfl
@[simp] theorem State.writeBytes_windowLog (s : State) (k : Nat) (l : List Byte) : (s.writeBytes k l).windowLog = s.windowLog := rfl
@[simp] theorem State.writeBytes_winAsked (s : State) (k : Nat) (l : List Byte) : (s.writeBytes k l).winAsked = s.winAsked := rfl
@[simp] theorem State.writeBytes_sysOld (s : State) (k : Nat) (l : List Byte) : (s.writeBytes k l).sysOld = s.sysOld := rfl
@[simp] theorem State.writeBytes_lagged (s : State) (k : Nat) (l : List Byte) : (s.writeBytes k l).lagged = s.lagged := rfl

@[simp] theorem State.setTag_cycle (s : State) (k : Nat) (b : Bool) : (s.setTag k b).cycle = s.cycle := rfl
@[simp] theorem State.setTag_ptp (s : State) (k : Nat) (b : Bool) : (s.setTag k b).ptp = s.ptp := rfl
@[simp] theorem State.setTag_ptpFrac (s : State) (k : Nat) (b : Bool) : (s.setTag k b).ptpFrac = s.ptpFrac := rfl
@[simp] theorem State.setTag_cur (s : State) (k : Nat) (b : Bool) : (s.setTag k b).cur = s.cur := rfl
@[simp] theorem State.setTag_word0 (s : State) (k : Nat) (b : Bool) : (s.setTag k b).word0 = s.word0 := rfl
@[simp] theorem State.setTag_agenda (s : State) (k : Nat) (b : Bool) : (s.setTag k b).agenda = s.agenda := rfl
@[simp] theorem State.setTag_fresh (s : State) (k : Nat) (b : Bool) : (s.setTag k b).fresh = s.fresh := rfl
@[simp] theorem State.setTag_cleozTrap (s : State) (k : Nat) (b : Bool) : (s.setTag k b).cleozTrap = s.cleozTrap := rfl
@[simp] theorem State.setTag_ctxs (s : State) (k : Nat) (b : Bool) : (s.setTag k b).ctxs = s.ctxs := rfl
@[simp] theorem State.setTag_cores (s : State) (k : Nat) (b : Bool) : (s.setTag k b).cores = s.cores := rfl
@[simp] theorem State.setTag_clusters (s : State) (k : Nat) (b : Bool) : (s.setTag k b).clusters = s.clusters := rfl
@[simp] theorem State.setTag_dies (s : State) (k : Nat) (b : Bool) : (s.setTag k b).dies = s.dies := rfl
@[simp] theorem State.setTag_hbm (s : State) (k : Nat) (b : Bool) : (s.setTag k b).hbm = s.hbm := rfl
@[simp] theorem State.setTag_mem (s : State) (k : Nat) (b : Bool) : (s.setTag k b).mem = s.mem := rfl
@[simp] theorem State.setTag_poison (s : State) (k : Nat) (b : Bool) : (s.setTag k b).poison = s.poison := rfl
@[simp] theorem State.setTag_poisonRanges (s : State) (k : Nat) (b : Bool) : (s.setTag k b).poisonRanges = s.poisonRanges := rfl
@[simp] theorem State.setTag_flights (s : State) (k : Nat) (b : Bool) : (s.setTag k b).flights = s.flights := rfl
@[simp] theorem State.setTag_nextId (s : State) (k : Nat) (b : Bool) : (s.setTag k b).nextId = s.nextId := rfl
@[simp] theorem State.setTag_admin (s : State) (k : Nat) (b : Bool) : (s.setTag k b).admin = s.admin := rfl
@[simp] theorem State.setTag_boot (s : State) (k : Nat) (b : Bool) : (s.setTag k b).boot = s.boot := rfl
@[simp] theorem State.setTag_launches (s : State) (k : Nat) (b : Bool) : (s.setTag k b).launches = s.launches := rfl
@[simp] theorem State.setTag_settling (s : State) (k : Nat) (b : Bool) : (s.setTag k b).settling = s.settling := rfl
@[simp] theorem State.setTag_nextHandle (s : State) (k : Nat) (b : Bool) : (s.setTag k b).nextHandle = s.nextHandle := rfl
@[simp] theorem State.setTag_moors (s : State) (k : Nat) (b : Bool) : (s.setTag k b).moors = s.moors := rfl
@[simp] theorem State.setTag_slices (s : State) (k : Nat) (b : Bool) : (s.setTag k b).slices = s.slices := rfl
@[simp] theorem State.setTag_classes (s : State) (k : Nat) (b : Bool) : (s.setTag k b).classes = s.classes := rfl
@[simp] theorem State.setTag_arrival (s : State) (k : Nat) (b : Bool) : (s.setTag k b).arrival = s.arrival := rfl
@[simp] theorem State.setTag_groups (s : State) (k : Nat) (b : Bool) : (s.setTag k b).groups = s.groups := rfl
@[simp] theorem State.setTag_eth (s : State) (k : Nat) (b : Bool) : (s.setTag k b).eth = s.eth := rfl
@[simp] theorem State.setTag_udpPorts (s : State) (k : Nat) (b : Bool) : (s.setTag k b).udpPorts = s.udpPorts := rfl
@[simp] theorem State.setTag_queuePairs (s : State) (k : Nat) (b : Bool) : (s.setTag k b).queuePairs = s.queuePairs := rfl
@[simp] theorem State.setTag_sent (s : State) (k : Nat) (b : Bool) : (s.setTag k b).sent = s.sent := rfl
@[simp] theorem State.setTag_toCleoz (s : State) (k : Nat) (b : Bool) : (s.setTag k b).toCleoz = s.toCleoz := rfl
@[simp] theorem State.setTag_timing (s : State) (k : Nat) (b : Bool) : (s.setTag k b).timing = s.timing := rfl
@[simp] theorem State.setTag_tow (s : State) (k : Nat) (b : Bool) : (s.setTag k b).tow = s.tow := rfl
@[simp] theorem State.setTag_towOut (s : State) (k : Nat) (b : Bool) : (s.setTag k b).towOut = s.towOut := rfl
@[simp] theorem State.setTag_inbound (s : State) (k : Nat) (b : Bool) : (s.setTag k b).inbound = s.inbound := rfl
@[simp] theorem State.setTag_cxl (s : State) (k : Nat) (b : Bool) : (s.setTag k b).cxl = s.cxl := rfl
@[simp] theorem State.setTag_device (s : State) (k : Nat) (b : Bool) : (s.setTag k b).device = s.device := rfl
@[simp] theorem State.setTag_inDomain (s : State) (k : Nat) (b : Bool) : (s.setTag k b).inDomain = s.inDomain := rfl
@[simp] theorem State.setTag_apart (s : State) (k : Nat) (b : Bool) : (s.setTag k b).apart = s.apart := rfl
@[simp] theorem State.setTag_offset (s : State) (k : Nat) (b : Bool) : (s.setTag k b).offset = s.offset := rfl
@[simp] theorem State.setTag_latency (s : State) (k : Nat) (b : Bool) : (s.setTag k b).latency = s.latency := rfl
@[simp] theorem State.setTag_notices (s : State) (k : Nat) (b : Bool) : (s.setTag k b).notices = s.notices := rfl
@[simp] theorem State.setTag_stretches (s : State) (k : Nat) (b : Bool) : (s.setTag k b).stretches = s.stretches := rfl
@[simp] theorem State.setTag_sweeps (s : State) (k : Nat) (b : Bool) : (s.setTag k b).sweeps = s.sweeps := rfl
@[simp] theorem State.setTag_sweepAt (s : State) (k : Nat) (b : Bool) : (s.setTag k b).sweepAt = s.sweepAt := rfl
@[simp] theorem State.setTag_quietRep (s : State) (k : Nat) (b : Bool) : (s.setTag k b).quietRep = s.quietRep := rfl
@[simp] theorem State.setTag_quietAt (s : State) (k : Nat) (b : Bool) : (s.setTag k b).quietAt = s.quietAt := rfl
@[simp] theorem State.setTag_activity (s : State) (k : Nat) (b : Bool) : (s.setTag k b).activity = s.activity := rfl
@[simp] theorem State.setTag_saved (s : State) (k : Nat) (b : Bool) : (s.setTag k b).saved = s.saved := rfl
@[simp] theorem State.setTag_records (s : State) (k : Nat) (b : Bool) : (s.setTag k b).records = s.records := rfl
@[simp] theorem State.setTag_errors (s : State) (k : Nat) (b : Bool) : (s.setTag k b).errors = s.errors := rfl
@[simp] theorem State.setTag_errTimes (s : State) (k : Nat) (b : Bool) : (s.setTag k b).errTimes = s.errTimes := rfl
@[simp] theorem State.setTag_alerts (s : State) (k : Nat) (b : Bool) : (s.setTag k b).alerts = s.alerts := rfl
@[simp] theorem State.setTag_errDrops (s : State) (k : Nat) (b : Bool) : (s.setTag k b).errDrops = s.errDrops := rfl
@[simp] theorem State.setTag_interrupts (s : State) (k : Nat) (b : Bool) : (s.setTag k b).interrupts = s.interrupts := rfl
@[simp] theorem State.setTag_images (s : State) (k : Nat) (b : Bool) : (s.setTag k b).images = s.images := rfl
@[simp] theorem State.setTag_keys (s : State) (k : Nat) (b : Bool) : (s.setTag k b).keys = s.keys := rfl
@[simp] theorem State.setTag_noVf (s : State) (k : Nat) (b : Bool) : (s.setTag k b).noVf = s.noVf := rfl
@[simp] theorem State.setTag_quantum (s : State) (k : Nat) (b : Bool) : (s.setTag k b).quantum = s.quantum := rfl
@[simp] theorem State.setTag_sliceWord (s : State) (k : Nat) (b : Bool) : (s.setTag k b).sliceWord = s.sliceWord := rfl
@[simp] theorem State.setTag_sliceFrom (s : State) (k : Nat) (b : Bool) : (s.setTag k b).sliceFrom = s.sliceFrom := rfl
@[simp] theorem State.setTag_idleFrom (s : State) (k : Nat) (b : Bool) : (s.setTag k b).idleFrom = s.idleFrom := rfl
@[simp] theorem State.setTag_journal (s : State) (k : Nat) (b : Bool) : (s.setTag k b).journal = s.journal := rfl
@[simp] theorem State.setTag_replayed (s : State) (k : Nat) (b : Bool) : (s.setTag k b).replayed = s.replayed := rfl
@[simp] theorem State.setTag_sdBegun (s : State) (k : Nat) (b : Bool) : (s.setTag k b).sdBegun = s.sdBegun := rfl
@[simp] theorem State.setTag_sdMark (s : State) (k : Nat) (b : Bool) : (s.setTag k b).sdMark = s.sdMark := rfl
@[simp] theorem State.setTag_powerMode (s : State) (k : Nat) (b : Bool) : (s.setTag k b).powerMode = s.powerMode := rfl
@[simp] theorem State.setTag_windowLog (s : State) (k : Nat) (b : Bool) : (s.setTag k b).windowLog = s.windowLog := rfl
@[simp] theorem State.setTag_winAsked (s : State) (k : Nat) (b : Bool) : (s.setTag k b).winAsked = s.winAsked := rfl
@[simp] theorem State.setTag_sysOld (s : State) (k : Nat) (b : Bool) : (s.setTag k b).sysOld = s.sysOld := rfl
@[simp] theorem State.setTag_lagged (s : State) (k : Nat) (b : Bool) : (s.setTag k b).lagged = s.lagged := rfl

@[simp] theorem State.setPoison_cycle (s : State) (k : Nat) (b : Bool) : (s.setPoison k b).cycle = s.cycle := rfl
@[simp] theorem State.setPoison_ptp (s : State) (k : Nat) (b : Bool) : (s.setPoison k b).ptp = s.ptp := rfl
@[simp] theorem State.setPoison_ptpFrac (s : State) (k : Nat) (b : Bool) : (s.setPoison k b).ptpFrac = s.ptpFrac := rfl
@[simp] theorem State.setPoison_cur (s : State) (k : Nat) (b : Bool) : (s.setPoison k b).cur = s.cur := rfl
@[simp] theorem State.setPoison_word0 (s : State) (k : Nat) (b : Bool) : (s.setPoison k b).word0 = s.word0 := rfl
@[simp] theorem State.setPoison_agenda (s : State) (k : Nat) (b : Bool) : (s.setPoison k b).agenda = s.agenda := rfl
@[simp] theorem State.setPoison_fresh (s : State) (k : Nat) (b : Bool) : (s.setPoison k b).fresh = s.fresh := rfl
@[simp] theorem State.setPoison_cleozTrap (s : State) (k : Nat) (b : Bool) : (s.setPoison k b).cleozTrap = s.cleozTrap := rfl
@[simp] theorem State.setPoison_ctxs (s : State) (k : Nat) (b : Bool) : (s.setPoison k b).ctxs = s.ctxs := rfl
@[simp] theorem State.setPoison_cores (s : State) (k : Nat) (b : Bool) : (s.setPoison k b).cores = s.cores := rfl
@[simp] theorem State.setPoison_clusters (s : State) (k : Nat) (b : Bool) : (s.setPoison k b).clusters = s.clusters := rfl
@[simp] theorem State.setPoison_dies (s : State) (k : Nat) (b : Bool) : (s.setPoison k b).dies = s.dies := rfl
@[simp] theorem State.setPoison_hbm (s : State) (k : Nat) (b : Bool) : (s.setPoison k b).hbm = s.hbm := rfl
@[simp] theorem State.setPoison_mem (s : State) (k : Nat) (b : Bool) : (s.setPoison k b).mem = s.mem := rfl
@[simp] theorem State.setPoison_empties (s : State) (k : Nat) (b : Bool) : (s.setPoison k b).empties = s.empties := rfl
@[simp] theorem State.setPoison_poisonRanges (s : State) (k : Nat) (b : Bool) : (s.setPoison k b).poisonRanges = s.poisonRanges := rfl
@[simp] theorem State.setPoison_flights (s : State) (k : Nat) (b : Bool) : (s.setPoison k b).flights = s.flights := rfl
@[simp] theorem State.setPoison_nextId (s : State) (k : Nat) (b : Bool) : (s.setPoison k b).nextId = s.nextId := rfl
@[simp] theorem State.setPoison_admin (s : State) (k : Nat) (b : Bool) : (s.setPoison k b).admin = s.admin := rfl
@[simp] theorem State.setPoison_boot (s : State) (k : Nat) (b : Bool) : (s.setPoison k b).boot = s.boot := rfl
@[simp] theorem State.setPoison_launches (s : State) (k : Nat) (b : Bool) : (s.setPoison k b).launches = s.launches := rfl
@[simp] theorem State.setPoison_settling (s : State) (k : Nat) (b : Bool) : (s.setPoison k b).settling = s.settling := rfl
@[simp] theorem State.setPoison_nextHandle (s : State) (k : Nat) (b : Bool) : (s.setPoison k b).nextHandle = s.nextHandle := rfl
@[simp] theorem State.setPoison_moors (s : State) (k : Nat) (b : Bool) : (s.setPoison k b).moors = s.moors := rfl
@[simp] theorem State.setPoison_slices (s : State) (k : Nat) (b : Bool) : (s.setPoison k b).slices = s.slices := rfl
@[simp] theorem State.setPoison_classes (s : State) (k : Nat) (b : Bool) : (s.setPoison k b).classes = s.classes := rfl
@[simp] theorem State.setPoison_arrival (s : State) (k : Nat) (b : Bool) : (s.setPoison k b).arrival = s.arrival := rfl
@[simp] theorem State.setPoison_groups (s : State) (k : Nat) (b : Bool) : (s.setPoison k b).groups = s.groups := rfl
@[simp] theorem State.setPoison_eth (s : State) (k : Nat) (b : Bool) : (s.setPoison k b).eth = s.eth := rfl
@[simp] theorem State.setPoison_udpPorts (s : State) (k : Nat) (b : Bool) : (s.setPoison k b).udpPorts = s.udpPorts := rfl
@[simp] theorem State.setPoison_queuePairs (s : State) (k : Nat) (b : Bool) : (s.setPoison k b).queuePairs = s.queuePairs := rfl
@[simp] theorem State.setPoison_sent (s : State) (k : Nat) (b : Bool) : (s.setPoison k b).sent = s.sent := rfl
@[simp] theorem State.setPoison_toCleoz (s : State) (k : Nat) (b : Bool) : (s.setPoison k b).toCleoz = s.toCleoz := rfl
@[simp] theorem State.setPoison_timing (s : State) (k : Nat) (b : Bool) : (s.setPoison k b).timing = s.timing := rfl
@[simp] theorem State.setPoison_tow (s : State) (k : Nat) (b : Bool) : (s.setPoison k b).tow = s.tow := rfl
@[simp] theorem State.setPoison_towOut (s : State) (k : Nat) (b : Bool) : (s.setPoison k b).towOut = s.towOut := rfl
@[simp] theorem State.setPoison_inbound (s : State) (k : Nat) (b : Bool) : (s.setPoison k b).inbound = s.inbound := rfl
@[simp] theorem State.setPoison_cxl (s : State) (k : Nat) (b : Bool) : (s.setPoison k b).cxl = s.cxl := rfl
@[simp] theorem State.setPoison_device (s : State) (k : Nat) (b : Bool) : (s.setPoison k b).device = s.device := rfl
@[simp] theorem State.setPoison_inDomain (s : State) (k : Nat) (b : Bool) : (s.setPoison k b).inDomain = s.inDomain := rfl
@[simp] theorem State.setPoison_apart (s : State) (k : Nat) (b : Bool) : (s.setPoison k b).apart = s.apart := rfl
@[simp] theorem State.setPoison_offset (s : State) (k : Nat) (b : Bool) : (s.setPoison k b).offset = s.offset := rfl
@[simp] theorem State.setPoison_latency (s : State) (k : Nat) (b : Bool) : (s.setPoison k b).latency = s.latency := rfl
@[simp] theorem State.setPoison_notices (s : State) (k : Nat) (b : Bool) : (s.setPoison k b).notices = s.notices := rfl
@[simp] theorem State.setPoison_stretches (s : State) (k : Nat) (b : Bool) : (s.setPoison k b).stretches = s.stretches := rfl
@[simp] theorem State.setPoison_sweeps (s : State) (k : Nat) (b : Bool) : (s.setPoison k b).sweeps = s.sweeps := rfl
@[simp] theorem State.setPoison_sweepAt (s : State) (k : Nat) (b : Bool) : (s.setPoison k b).sweepAt = s.sweepAt := rfl
@[simp] theorem State.setPoison_quietRep (s : State) (k : Nat) (b : Bool) : (s.setPoison k b).quietRep = s.quietRep := rfl
@[simp] theorem State.setPoison_quietAt (s : State) (k : Nat) (b : Bool) : (s.setPoison k b).quietAt = s.quietAt := rfl
@[simp] theorem State.setPoison_activity (s : State) (k : Nat) (b : Bool) : (s.setPoison k b).activity = s.activity := rfl
@[simp] theorem State.setPoison_saved (s : State) (k : Nat) (b : Bool) : (s.setPoison k b).saved = s.saved := rfl
@[simp] theorem State.setPoison_records (s : State) (k : Nat) (b : Bool) : (s.setPoison k b).records = s.records := rfl
@[simp] theorem State.setPoison_errors (s : State) (k : Nat) (b : Bool) : (s.setPoison k b).errors = s.errors := rfl
@[simp] theorem State.setPoison_errTimes (s : State) (k : Nat) (b : Bool) : (s.setPoison k b).errTimes = s.errTimes := rfl
@[simp] theorem State.setPoison_alerts (s : State) (k : Nat) (b : Bool) : (s.setPoison k b).alerts = s.alerts := rfl
@[simp] theorem State.setPoison_errDrops (s : State) (k : Nat) (b : Bool) : (s.setPoison k b).errDrops = s.errDrops := rfl
@[simp] theorem State.setPoison_interrupts (s : State) (k : Nat) (b : Bool) : (s.setPoison k b).interrupts = s.interrupts := rfl
@[simp] theorem State.setPoison_images (s : State) (k : Nat) (b : Bool) : (s.setPoison k b).images = s.images := rfl
@[simp] theorem State.setPoison_keys (s : State) (k : Nat) (b : Bool) : (s.setPoison k b).keys = s.keys := rfl
@[simp] theorem State.setPoison_noVf (s : State) (k : Nat) (b : Bool) : (s.setPoison k b).noVf = s.noVf := rfl
@[simp] theorem State.setPoison_quantum (s : State) (k : Nat) (b : Bool) : (s.setPoison k b).quantum = s.quantum := rfl
@[simp] theorem State.setPoison_sliceWord (s : State) (k : Nat) (b : Bool) : (s.setPoison k b).sliceWord = s.sliceWord := rfl
@[simp] theorem State.setPoison_sliceFrom (s : State) (k : Nat) (b : Bool) : (s.setPoison k b).sliceFrom = s.sliceFrom := rfl
@[simp] theorem State.setPoison_idleFrom (s : State) (k : Nat) (b : Bool) : (s.setPoison k b).idleFrom = s.idleFrom := rfl
@[simp] theorem State.setPoison_journal (s : State) (k : Nat) (b : Bool) : (s.setPoison k b).journal = s.journal := rfl
@[simp] theorem State.setPoison_replayed (s : State) (k : Nat) (b : Bool) : (s.setPoison k b).replayed = s.replayed := rfl
@[simp] theorem State.setPoison_sdBegun (s : State) (k : Nat) (b : Bool) : (s.setPoison k b).sdBegun = s.sdBegun := rfl
@[simp] theorem State.setPoison_sdMark (s : State) (k : Nat) (b : Bool) : (s.setPoison k b).sdMark = s.sdMark := rfl
@[simp] theorem State.setPoison_powerMode (s : State) (k : Nat) (b : Bool) : (s.setPoison k b).powerMode = s.powerMode := rfl
@[simp] theorem State.setPoison_windowLog (s : State) (k : Nat) (b : Bool) : (s.setPoison k b).windowLog = s.windowLog := rfl
@[simp] theorem State.setPoison_winAsked (s : State) (k : Nat) (b : Bool) : (s.setPoison k b).winAsked = s.winAsked := rfl
@[simp] theorem State.setPoison_sysOld (s : State) (k : Nat) (b : Bool) : (s.setPoison k b).sysOld = s.sysOld := rfl
@[simp] theorem State.setPoison_lagged (s : State) (k : Nat) (b : Bool) : (s.setPoison k b).lagged = s.lagged := rfl

@[simp] theorem State.setReg_cycle (s : State) (a : Nat) (v : W64) : (s.setReg a v).cycle = s.cycle := rfl
@[simp] theorem State.setReg_ptp (s : State) (a : Nat) (v : W64) : (s.setReg a v).ptp = s.ptp := rfl
@[simp] theorem State.setReg_ptpFrac (s : State) (a : Nat) (v : W64) : (s.setReg a v).ptpFrac = s.ptpFrac := rfl
@[simp] theorem State.setReg_cur (s : State) (a : Nat) (v : W64) : (s.setReg a v).cur = s.cur := rfl
@[simp] theorem State.setReg_word0 (s : State) (a : Nat) (v : W64) : (s.setReg a v).word0 = s.word0 := rfl
@[simp] theorem State.setReg_agenda (s : State) (a : Nat) (v : W64) : (s.setReg a v).agenda = s.agenda := rfl
@[simp] theorem State.setReg_fresh (s : State) (a : Nat) (v : W64) : (s.setReg a v).fresh = s.fresh := rfl
@[simp] theorem State.setReg_cleozTrap (s : State) (a : Nat) (v : W64) : (s.setReg a v).cleozTrap = s.cleozTrap := rfl
@[simp] theorem State.setReg_ctxs (s : State) (a : Nat) (v : W64) : (s.setReg a v).ctxs = s.ctxs := rfl
@[simp] theorem State.setReg_cores (s : State) (a : Nat) (v : W64) : (s.setReg a v).cores = s.cores := rfl
@[simp] theorem State.setReg_clusters (s : State) (a : Nat) (v : W64) : (s.setReg a v).clusters = s.clusters := rfl
@[simp] theorem State.setReg_dies (s : State) (a : Nat) (v : W64) : (s.setReg a v).dies = s.dies := rfl
@[simp] theorem State.setReg_hbm (s : State) (a : Nat) (v : W64) : (s.setReg a v).hbm = s.hbm := rfl
@[simp] theorem State.setReg_mem (s : State) (a : Nat) (v : W64) : (s.setReg a v).mem = s.mem := rfl
@[simp] theorem State.setReg_empties (s : State) (a : Nat) (v : W64) : (s.setReg a v).empties = s.empties := rfl
@[simp] theorem State.setReg_poison (s : State) (a : Nat) (v : W64) : (s.setReg a v).poison = s.poison := rfl
@[simp] theorem State.setReg_poisonRanges (s : State) (a : Nat) (v : W64) : (s.setReg a v).poisonRanges = s.poisonRanges := rfl
@[simp] theorem State.setReg_flights (s : State) (a : Nat) (v : W64) : (s.setReg a v).flights = s.flights := rfl
@[simp] theorem State.setReg_nextId (s : State) (a : Nat) (v : W64) : (s.setReg a v).nextId = s.nextId := rfl
@[simp] theorem State.setReg_boot (s : State) (a : Nat) (v : W64) : (s.setReg a v).boot = s.boot := rfl
@[simp] theorem State.setReg_launches (s : State) (a : Nat) (v : W64) : (s.setReg a v).launches = s.launches := rfl
@[simp] theorem State.setReg_settling (s : State) (a : Nat) (v : W64) : (s.setReg a v).settling = s.settling := rfl
@[simp] theorem State.setReg_nextHandle (s : State) (a : Nat) (v : W64) : (s.setReg a v).nextHandle = s.nextHandle := rfl
@[simp] theorem State.setReg_moors (s : State) (a : Nat) (v : W64) : (s.setReg a v).moors = s.moors := rfl
@[simp] theorem State.setReg_slices (s : State) (a : Nat) (v : W64) : (s.setReg a v).slices = s.slices := rfl
@[simp] theorem State.setReg_classes (s : State) (a : Nat) (v : W64) : (s.setReg a v).classes = s.classes := rfl
@[simp] theorem State.setReg_arrival (s : State) (a : Nat) (v : W64) : (s.setReg a v).arrival = s.arrival := rfl
@[simp] theorem State.setReg_groups (s : State) (a : Nat) (v : W64) : (s.setReg a v).groups = s.groups := rfl
@[simp] theorem State.setReg_eth (s : State) (a : Nat) (v : W64) : (s.setReg a v).eth = s.eth := rfl
@[simp] theorem State.setReg_udpPorts (s : State) (a : Nat) (v : W64) : (s.setReg a v).udpPorts = s.udpPorts := rfl
@[simp] theorem State.setReg_queuePairs (s : State) (a : Nat) (v : W64) : (s.setReg a v).queuePairs = s.queuePairs := rfl
@[simp] theorem State.setReg_sent (s : State) (a : Nat) (v : W64) : (s.setReg a v).sent = s.sent := rfl
@[simp] theorem State.setReg_toCleoz (s : State) (a : Nat) (v : W64) : (s.setReg a v).toCleoz = s.toCleoz := rfl
@[simp] theorem State.setReg_timing (s : State) (a : Nat) (v : W64) : (s.setReg a v).timing = s.timing := rfl
@[simp] theorem State.setReg_tow (s : State) (a : Nat) (v : W64) : (s.setReg a v).tow = s.tow := rfl
@[simp] theorem State.setReg_towOut (s : State) (a : Nat) (v : W64) : (s.setReg a v).towOut = s.towOut := rfl
@[simp] theorem State.setReg_inbound (s : State) (a : Nat) (v : W64) : (s.setReg a v).inbound = s.inbound := rfl
@[simp] theorem State.setReg_cxl (s : State) (a : Nat) (v : W64) : (s.setReg a v).cxl = s.cxl := rfl
@[simp] theorem State.setReg_device (s : State) (a : Nat) (v : W64) : (s.setReg a v).device = s.device := rfl
@[simp] theorem State.setReg_inDomain (s : State) (a : Nat) (v : W64) : (s.setReg a v).inDomain = s.inDomain := rfl
@[simp] theorem State.setReg_apart (s : State) (a : Nat) (v : W64) : (s.setReg a v).apart = s.apart := rfl
@[simp] theorem State.setReg_offset (s : State) (a : Nat) (v : W64) : (s.setReg a v).offset = s.offset := rfl
@[simp] theorem State.setReg_latency (s : State) (a : Nat) (v : W64) : (s.setReg a v).latency = s.latency := rfl
@[simp] theorem State.setReg_notices (s : State) (a : Nat) (v : W64) : (s.setReg a v).notices = s.notices := rfl
@[simp] theorem State.setReg_stretches (s : State) (a : Nat) (v : W64) : (s.setReg a v).stretches = s.stretches := rfl
@[simp] theorem State.setReg_sweeps (s : State) (a : Nat) (v : W64) : (s.setReg a v).sweeps = s.sweeps := rfl
@[simp] theorem State.setReg_sweepAt (s : State) (a : Nat) (v : W64) : (s.setReg a v).sweepAt = s.sweepAt := rfl
@[simp] theorem State.setReg_quietRep (s : State) (a : Nat) (v : W64) : (s.setReg a v).quietRep = s.quietRep := rfl
@[simp] theorem State.setReg_quietAt (s : State) (a : Nat) (v : W64) : (s.setReg a v).quietAt = s.quietAt := rfl
@[simp] theorem State.setReg_activity (s : State) (a : Nat) (v : W64) : (s.setReg a v).activity = s.activity := rfl
@[simp] theorem State.setReg_saved (s : State) (a : Nat) (v : W64) : (s.setReg a v).saved = s.saved := rfl
@[simp] theorem State.setReg_records (s : State) (a : Nat) (v : W64) : (s.setReg a v).records = s.records := rfl
@[simp] theorem State.setReg_errors (s : State) (a : Nat) (v : W64) : (s.setReg a v).errors = s.errors := rfl
@[simp] theorem State.setReg_errTimes (s : State) (a : Nat) (v : W64) : (s.setReg a v).errTimes = s.errTimes := rfl
@[simp] theorem State.setReg_alerts (s : State) (a : Nat) (v : W64) : (s.setReg a v).alerts = s.alerts := rfl
@[simp] theorem State.setReg_errDrops (s : State) (a : Nat) (v : W64) : (s.setReg a v).errDrops = s.errDrops := rfl
@[simp] theorem State.setReg_interrupts (s : State) (a : Nat) (v : W64) : (s.setReg a v).interrupts = s.interrupts := rfl
@[simp] theorem State.setReg_images (s : State) (a : Nat) (v : W64) : (s.setReg a v).images = s.images := rfl
@[simp] theorem State.setReg_keys (s : State) (a : Nat) (v : W64) : (s.setReg a v).keys = s.keys := rfl
@[simp] theorem State.setReg_noVf (s : State) (a : Nat) (v : W64) : (s.setReg a v).noVf = s.noVf := rfl
@[simp] theorem State.setReg_quantum (s : State) (a : Nat) (v : W64) : (s.setReg a v).quantum = s.quantum := rfl
@[simp] theorem State.setReg_sliceWord (s : State) (a : Nat) (v : W64) : (s.setReg a v).sliceWord = s.sliceWord := rfl
@[simp] theorem State.setReg_sliceFrom (s : State) (a : Nat) (v : W64) : (s.setReg a v).sliceFrom = s.sliceFrom := rfl
@[simp] theorem State.setReg_idleFrom (s : State) (a : Nat) (v : W64) : (s.setReg a v).idleFrom = s.idleFrom := rfl
@[simp] theorem State.setReg_journal (s : State) (a : Nat) (v : W64) : (s.setReg a v).journal = s.journal := rfl
@[simp] theorem State.setReg_replayed (s : State) (a : Nat) (v : W64) : (s.setReg a v).replayed = s.replayed := rfl
@[simp] theorem State.setReg_sdBegun (s : State) (a : Nat) (v : W64) : (s.setReg a v).sdBegun = s.sdBegun := rfl
@[simp] theorem State.setReg_sdMark (s : State) (a : Nat) (v : W64) : (s.setReg a v).sdMark = s.sdMark := rfl
@[simp] theorem State.setReg_powerMode (s : State) (a : Nat) (v : W64) : (s.setReg a v).powerMode = s.powerMode := rfl
@[simp] theorem State.setReg_windowLog (s : State) (a : Nat) (v : W64) : (s.setReg a v).windowLog = s.windowLog := rfl
@[simp] theorem State.setReg_winAsked (s : State) (a : Nat) (v : W64) : (s.setReg a v).winAsked = s.winAsked := rfl
@[simp] theorem State.setReg_sysOld (s : State) (a : Nat) (v : W64) : (s.setReg a v).sysOld = s.sysOld := rfl
@[simp] theorem State.setReg_lagged (s : State) (a : Nat) (v : W64) : (s.setReg a v).lagged = s.lagged := rfl

@[simp] theorem Ctx.setK_life (c : Ctx) (n : Nat) (v : W64) : (c.setK n v).life = c.life := rfl
@[simp] theorem Ctx.setK_form (c : Ctx) (n : Nat) (v : W64) : (c.setK n v).form = c.form := rfl
@[simp] theorem Ctx.setK_pc (c : Ctx) (n : Nat) (v : W64) : (c.setK n v).pc = c.pc := rfl
@[simp] theorem Ctx.setK_regs (c : Ctx) (n : Nat) (v : W64) : (c.setK n v).regs = c.regs := rfl
@[simp] theorem Ctx.setK_inMiss (c : Ctx) (n : Nat) (v : W64) : (c.setK n v).inMiss = c.inMiss := rfl
@[simp] theorem Ctx.setK_window (c : Ctx) (n : Nat) (v : W64) : (c.setK n v).window = c.window := rfl
@[simp] theorem Ctx.setK_vregs (c : Ctx) (n : Nat) (v : W64) : (c.setK n v).vregs = c.vregs := rfl
@[simp] theorem Ctx.setK_vtags (c : Ctx) (n : Nat) (v : W64) : (c.setK n v).vtags = c.vtags := rfl
@[simp] theorem Ctx.setK_lanes (c : Ctx) (n : Nat) (v : W64) : (c.setK n v).lanes = c.lanes := rfl
@[simp] theorem Ctx.setK_yield (c : Ctx) (n : Nat) (v : W64) : (c.setK n v).yield = c.yield := rfl
@[simp] theorem Ctx.setK_reqLanes (c : Ctx) (n : Nat) (v : W64) : (c.setK n v).reqLanes = c.reqLanes := rfl
@[simp] theorem Ctx.setK_short (c : Ctx) (n : Nat) (v : W64) : (c.setK n v).short = c.short := rfl
@[simp] theorem Ctx.setK_holds (c : Ctx) (n : Nat) (v : W64) : (c.setK n v).holds = c.holds := rfl
@[simp] theorem Ctx.setK_gens (c : Ctx) (n : Nat) (v : W64) : (c.setK n v).gens = c.gens := rfl
@[simp] theorem Ctx.setK_late (c : Ctx) (n : Nat) (v : W64) : (c.setK n v).late = c.late := rfl
@[simp] theorem Ctx.setK_nextIssue (c : Ctx) (n : Nat) (v : W64) : (c.setK n v).nextIssue = c.nextIssue := rfl
@[simp] theorem Ctx.setK_wait (c : Ctx) (n : Nat) (v : W64) : (c.setK n v).wait = c.wait := rfl
@[simp] theorem Ctx.setK_waitFrom (c : Ctx) (n : Nat) (v : W64) : (c.setK n v).waitFrom = c.waitFrom := rfl
@[simp] theorem Ctx.setK_pend (c : Ctx) (n : Nat) (v : W64) : (c.setK n v).pend = c.pend := rfl
@[simp] theorem Ctx.setK_bindings (c : Ctx) (n : Nat) (v : W64) : (c.setK n v).bindings = c.bindings := rfl
@[simp] theorem Ctx.setK_mig (c : Ctx) (n : Nat) (v : W64) : (c.setK n v).mig = c.mig := rfl
@[simp] theorem Ctx.setK_migCnt (c : Ctx) (n : Nat) (v : W64) : (c.setK n v).migCnt = c.migCnt := rfl
@[simp] theorem Ctx.setK_hnum (c : Ctx) (n : Nat) (v : W64) : (c.setK n v).hnum = c.hnum := rfl
@[simp] theorem Ctx.setK_starter (c : Ctx) (n : Nat) (v : W64) : (c.setK n v).starter = c.starter := rfl
@[simp] theorem Ctx.setK_lost (c : Ctx) (n : Nat) (v : W64) : (c.setK n v).lost = c.lost := rfl
@[simp] theorem Ctx.setK_placed (c : Ctx) (n : Nat) (v : W64) : (c.setK n v).placed = c.placed := rfl
@[simp] theorem Ctx.setK_asid (c : Ctx) (n : Nat) (v : W64) : (c.setK n v).asid = c.asid := rfl
@[simp] theorem Ctx.setK_priv (c : Ctx) (n : Nat) (v : W64) : (c.setK n v).priv = c.priv := rfl
@[simp] theorem Ctx.setK_inTrap (c : Ctx) (n : Nat) (v : W64) : (c.setK n v).inTrap = c.inTrap := rfl
@[simp] theorem Ctx.setK_missTop (c : Ctx) (n : Nat) (v : W64) : (c.setK n v).missTop = c.missTop := rfl
@[simp] theorem Ctx.setK_actor (c : Ctx) (n : Nat) (v : W64) : (c.setK n v).actor = c.actor := rfl
@[simp] theorem Ctx.setK_item (c : Ctx) (n : Nat) (v : W64) : (c.setK n v).item = c.item := rfl
@[simp] theorem Ctx.setK_ops (c : Ctx) (n : Nat) (v : W64) : (c.setK n v).ops = c.ops := rfl
@[simp] theorem Ctx.setK_own (c : Ctx) (n : Nat) (v : W64) : (c.setK n v).own = c.own := rfl
@[simp] theorem Ctx.setK_ownOps (c : Ctx) (n : Nat) (v : W64) : (c.setK n v).ownOps = c.ownOps := rfl
@[simp] theorem Ctx.setK_failed (c : Ctx) (n : Nat) (v : W64) : (c.setK n v).failed = c.failed := rfl
@[simp] theorem Ctx.setK_code (c : Ctx) (n : Nat) (v : W64) : (c.setK n v).code = c.code := rfl
@[simp] theorem Ctx.setK_gang (c : Ctx) (n : Nat) (v : W64) : (c.setK n v).gang = c.gang := rfl
@[simp] theorem Ctx.setK_startAfter (c : Ctx) (n : Nat) (v : W64) : (c.setK n v).startAfter = c.startAfter := rfl
@[simp] theorem Ctx.setK_startOrder (c : Ctx) (n : Nat) (v : W64) : (c.setK n v).startOrder = c.startOrder := rfl
@[simp] theorem Ctx.setK_dueTrap (c : Ctx) (n : Nat) (v : W64) : (c.setK n v).dueTrap = c.dueTrap := rfl
@[simp] theorem Ctx.setK_fault (c : Ctx) (n : Nat) (v : W64) : (c.setK n v).fault = c.fault := rfl
@[simp] theorem Ctx.setK_relMark (c : Ctx) (n : Nat) (v : W64) : (c.setK n v).relMark = c.relMark := rfl
@[simp] theorem Ctx.setAt_life (c : Ctx) (k : Nat) (v : W64) : (c.setAt k v).life = c.life := by unfold Ctx.setAt; split <;> rfl
@[simp] theorem Ctx.setAt_form (c : Ctx) (k : Nat) (v : W64) : (c.setAt k v).form = c.form := by unfold Ctx.setAt; split <;> rfl
@[simp] theorem Ctx.setAt_pc (c : Ctx) (k : Nat) (v : W64) : (c.setAt k v).pc = c.pc := by unfold Ctx.setAt; split <;> rfl
@[simp] theorem Ctx.setAt_inMiss (c : Ctx) (k : Nat) (v : W64) : (c.setAt k v).inMiss = c.inMiss := by unfold Ctx.setAt; split <;> rfl
@[simp] theorem Ctx.setAt_kregs (c : Ctx) (k : Nat) (v : W64) : (c.setAt k v).kregs = c.kregs := by unfold Ctx.setAt; split <;> rfl
@[simp] theorem Ctx.setAt_window (c : Ctx) (k : Nat) (v : W64) : (c.setAt k v).window = c.window := by unfold Ctx.setAt; split <;> rfl
@[simp] theorem Ctx.setAt_vregs (c : Ctx) (k : Nat) (v : W64) : (c.setAt k v).vregs = c.vregs := by unfold Ctx.setAt; split <;> rfl
@[simp] theorem Ctx.setAt_vtags (c : Ctx) (k : Nat) (v : W64) : (c.setAt k v).vtags = c.vtags := by unfold Ctx.setAt; split <;> rfl
@[simp] theorem Ctx.setAt_lanes (c : Ctx) (k : Nat) (v : W64) : (c.setAt k v).lanes = c.lanes := by unfold Ctx.setAt; split <;> rfl
@[simp] theorem Ctx.setAt_yield (c : Ctx) (k : Nat) (v : W64) : (c.setAt k v).yield = c.yield := by unfold Ctx.setAt; split <;> rfl
@[simp] theorem Ctx.setAt_reqLanes (c : Ctx) (k : Nat) (v : W64) : (c.setAt k v).reqLanes = c.reqLanes := by unfold Ctx.setAt; split <;> rfl
@[simp] theorem Ctx.setAt_short (c : Ctx) (k : Nat) (v : W64) : (c.setAt k v).short = c.short := by unfold Ctx.setAt; split <;> rfl
@[simp] theorem Ctx.setAt_holds (c : Ctx) (k : Nat) (v : W64) : (c.setAt k v).holds = c.holds := by unfold Ctx.setAt; split <;> rfl
@[simp] theorem Ctx.setAt_gens (c : Ctx) (k : Nat) (v : W64) : (c.setAt k v).gens = c.gens := by unfold Ctx.setAt; split <;> rfl
@[simp] theorem Ctx.setAt_nextIssue (c : Ctx) (k : Nat) (v : W64) : (c.setAt k v).nextIssue = c.nextIssue := by unfold Ctx.setAt; split <;> rfl
@[simp] theorem Ctx.setAt_wait (c : Ctx) (k : Nat) (v : W64) : (c.setAt k v).wait = c.wait := by unfold Ctx.setAt; split <;> rfl
@[simp] theorem Ctx.setAt_waitFrom (c : Ctx) (k : Nat) (v : W64) : (c.setAt k v).waitFrom = c.waitFrom := by unfold Ctx.setAt; split <;> rfl
@[simp] theorem Ctx.setAt_pend (c : Ctx) (k : Nat) (v : W64) : (c.setAt k v).pend = c.pend := by unfold Ctx.setAt; split <;> rfl
@[simp] theorem Ctx.setAt_bindings (c : Ctx) (k : Nat) (v : W64) : (c.setAt k v).bindings = c.bindings := by unfold Ctx.setAt; split <;> rfl
@[simp] theorem Ctx.setAt_mig (c : Ctx) (k : Nat) (v : W64) : (c.setAt k v).mig = c.mig := by unfold Ctx.setAt; split <;> rfl
@[simp] theorem Ctx.setAt_migCnt (c : Ctx) (k : Nat) (v : W64) : (c.setAt k v).migCnt = c.migCnt := by unfold Ctx.setAt; split <;> rfl
@[simp] theorem Ctx.setAt_hnum (c : Ctx) (k : Nat) (v : W64) : (c.setAt k v).hnum = c.hnum := by unfold Ctx.setAt; split <;> rfl
@[simp] theorem Ctx.setAt_starter (c : Ctx) (k : Nat) (v : W64) : (c.setAt k v).starter = c.starter := by unfold Ctx.setAt; split <;> rfl
@[simp] theorem Ctx.setAt_lost (c : Ctx) (k : Nat) (v : W64) : (c.setAt k v).lost = c.lost := by unfold Ctx.setAt; split <;> rfl
@[simp] theorem Ctx.setAt_placed (c : Ctx) (k : Nat) (v : W64) : (c.setAt k v).placed = c.placed := by unfold Ctx.setAt; split <;> rfl
@[simp] theorem Ctx.setAt_asid (c : Ctx) (k : Nat) (v : W64) : (c.setAt k v).asid = c.asid := by unfold Ctx.setAt; split <;> rfl
@[simp] theorem Ctx.setAt_priv (c : Ctx) (k : Nat) (v : W64) : (c.setAt k v).priv = c.priv := by unfold Ctx.setAt; split <;> rfl
@[simp] theorem Ctx.setAt_inTrap (c : Ctx) (k : Nat) (v : W64) : (c.setAt k v).inTrap = c.inTrap := by unfold Ctx.setAt; split <;> rfl
@[simp] theorem Ctx.setAt_missTop (c : Ctx) (k : Nat) (v : W64) : (c.setAt k v).missTop = c.missTop := by unfold Ctx.setAt; split <;> rfl
@[simp] theorem Ctx.setAt_actor (c : Ctx) (k : Nat) (v : W64) : (c.setAt k v).actor = c.actor := by unfold Ctx.setAt; split <;> rfl
@[simp] theorem Ctx.setAt_item (c : Ctx) (k : Nat) (v : W64) : (c.setAt k v).item = c.item := by unfold Ctx.setAt; split <;> rfl
@[simp] theorem Ctx.setAt_ops (c : Ctx) (k : Nat) (v : W64) : (c.setAt k v).ops = c.ops := by unfold Ctx.setAt; split <;> rfl
@[simp] theorem Ctx.setAt_own (c : Ctx) (k : Nat) (v : W64) : (c.setAt k v).own = c.own := by unfold Ctx.setAt; split <;> rfl
@[simp] theorem Ctx.setAt_ownOps (c : Ctx) (k : Nat) (v : W64) : (c.setAt k v).ownOps = c.ownOps := by unfold Ctx.setAt; split <;> rfl
@[simp] theorem Ctx.setAt_failed (c : Ctx) (k : Nat) (v : W64) : (c.setAt k v).failed = c.failed := by unfold Ctx.setAt; split <;> rfl
@[simp] theorem Ctx.setAt_code (c : Ctx) (k : Nat) (v : W64) : (c.setAt k v).code = c.code := by unfold Ctx.setAt; split <;> rfl
@[simp] theorem Ctx.setAt_gang (c : Ctx) (k : Nat) (v : W64) : (c.setAt k v).gang = c.gang := by unfold Ctx.setAt; split <;> rfl
@[simp] theorem Ctx.setAt_startAfter (c : Ctx) (k : Nat) (v : W64) : (c.setAt k v).startAfter = c.startAfter := by unfold Ctx.setAt; split <;> rfl
@[simp] theorem Ctx.setAt_startOrder (c : Ctx) (k : Nat) (v : W64) : (c.setAt k v).startOrder = c.startOrder := by unfold Ctx.setAt; split <;> rfl
@[simp] theorem Ctx.setAt_dueTrap (c : Ctx) (k : Nat) (v : W64) : (c.setAt k v).dueTrap = c.dueTrap := by unfold Ctx.setAt; split <;> rfl
@[simp] theorem Ctx.setAt_fault (c : Ctx) (k : Nat) (v : W64) : (c.setAt k v).fault = c.fault := by unfold Ctx.setAt; split <;> rfl
@[simp] theorem Ctx.setAt_relMark (c : Ctx) (k : Nat) (v : W64) : (c.setAt k v).relMark = c.relMark := by unfold Ctx.setAt; split <;> rfl
@[simp] theorem Ctx.setLate_life (c : Ctx) (k : Nat) (v : W64) (now lat : Nat) : (c.setLate k v now lat).life = c.life := by unfold Ctx.setLate; split <;> rfl
@[simp] theorem Ctx.setLate_form (c : Ctx) (k : Nat) (v : W64) (now lat : Nat) : (c.setLate k v now lat).form = c.form := by unfold Ctx.setLate; split <;> rfl
@[simp] theorem Ctx.setLate_pc (c : Ctx) (k : Nat) (v : W64) (now lat : Nat) : (c.setLate k v now lat).pc = c.pc := by unfold Ctx.setLate; split <;> rfl
@[simp] theorem Ctx.setLate_inMiss (c : Ctx) (k : Nat) (v : W64) (now lat : Nat) : (c.setLate k v now lat).inMiss = c.inMiss := by unfold Ctx.setLate; split <;> rfl
@[simp] theorem Ctx.setLate_kregs (c : Ctx) (k : Nat) (v : W64) (now lat : Nat) : (c.setLate k v now lat).kregs = c.kregs := by unfold Ctx.setLate; split <;> rfl
@[simp] theorem Ctx.setLate_window (c : Ctx) (k : Nat) (v : W64) (now lat : Nat) : (c.setLate k v now lat).window = c.window := by unfold Ctx.setLate; split <;> rfl
@[simp] theorem Ctx.setLate_vregs (c : Ctx) (k : Nat) (v : W64) (now lat : Nat) : (c.setLate k v now lat).vregs = c.vregs := by unfold Ctx.setLate; split <;> rfl
@[simp] theorem Ctx.setLate_vtags (c : Ctx) (k : Nat) (v : W64) (now lat : Nat) : (c.setLate k v now lat).vtags = c.vtags := by unfold Ctx.setLate; split <;> rfl
@[simp] theorem Ctx.setLate_lanes (c : Ctx) (k : Nat) (v : W64) (now lat : Nat) : (c.setLate k v now lat).lanes = c.lanes := by unfold Ctx.setLate; split <;> rfl
@[simp] theorem Ctx.setLate_yield (c : Ctx) (k : Nat) (v : W64) (now lat : Nat) : (c.setLate k v now lat).yield = c.yield := by unfold Ctx.setLate; split <;> rfl
@[simp] theorem Ctx.setLate_reqLanes (c : Ctx) (k : Nat) (v : W64) (now lat : Nat) : (c.setLate k v now lat).reqLanes = c.reqLanes := by unfold Ctx.setLate; split <;> rfl
@[simp] theorem Ctx.setLate_short (c : Ctx) (k : Nat) (v : W64) (now lat : Nat) : (c.setLate k v now lat).short = c.short := by unfold Ctx.setLate; split <;> rfl
@[simp] theorem Ctx.setLate_holds (c : Ctx) (k : Nat) (v : W64) (now lat : Nat) : (c.setLate k v now lat).holds = c.holds := by unfold Ctx.setLate; split <;> rfl
@[simp] theorem Ctx.setLate_gens (c : Ctx) (k : Nat) (v : W64) (now lat : Nat) : (c.setLate k v now lat).gens = c.gens := by unfold Ctx.setLate; split <;> rfl
@[simp] theorem Ctx.setLate_nextIssue (c : Ctx) (k : Nat) (v : W64) (now lat : Nat) : (c.setLate k v now lat).nextIssue = c.nextIssue := by unfold Ctx.setLate; split <;> rfl
@[simp] theorem Ctx.setLate_wait (c : Ctx) (k : Nat) (v : W64) (now lat : Nat) : (c.setLate k v now lat).wait = c.wait := by unfold Ctx.setLate; split <;> rfl
@[simp] theorem Ctx.setLate_waitFrom (c : Ctx) (k : Nat) (v : W64) (now lat : Nat) : (c.setLate k v now lat).waitFrom = c.waitFrom := by unfold Ctx.setLate; split <;> rfl
@[simp] theorem Ctx.setLate_pend (c : Ctx) (k : Nat) (v : W64) (now lat : Nat) : (c.setLate k v now lat).pend = c.pend := by unfold Ctx.setLate; split <;> rfl
@[simp] theorem Ctx.setLate_bindings (c : Ctx) (k : Nat) (v : W64) (now lat : Nat) : (c.setLate k v now lat).bindings = c.bindings := by unfold Ctx.setLate; split <;> rfl
@[simp] theorem Ctx.setLate_mig (c : Ctx) (k : Nat) (v : W64) (now lat : Nat) : (c.setLate k v now lat).mig = c.mig := by unfold Ctx.setLate; split <;> rfl
@[simp] theorem Ctx.setLate_migCnt (c : Ctx) (k : Nat) (v : W64) (now lat : Nat) : (c.setLate k v now lat).migCnt = c.migCnt := by unfold Ctx.setLate; split <;> rfl
@[simp] theorem Ctx.setLate_hnum (c : Ctx) (k : Nat) (v : W64) (now lat : Nat) : (c.setLate k v now lat).hnum = c.hnum := by unfold Ctx.setLate; split <;> rfl
@[simp] theorem Ctx.setLate_starter (c : Ctx) (k : Nat) (v : W64) (now lat : Nat) : (c.setLate k v now lat).starter = c.starter := by unfold Ctx.setLate; split <;> rfl
@[simp] theorem Ctx.setLate_lost (c : Ctx) (k : Nat) (v : W64) (now lat : Nat) : (c.setLate k v now lat).lost = c.lost := by unfold Ctx.setLate; split <;> rfl
@[simp] theorem Ctx.setLate_placed (c : Ctx) (k : Nat) (v : W64) (now lat : Nat) : (c.setLate k v now lat).placed = c.placed := by unfold Ctx.setLate; split <;> rfl
@[simp] theorem Ctx.setLate_asid (c : Ctx) (k : Nat) (v : W64) (now lat : Nat) : (c.setLate k v now lat).asid = c.asid := by unfold Ctx.setLate; split <;> rfl
@[simp] theorem Ctx.setLate_priv (c : Ctx) (k : Nat) (v : W64) (now lat : Nat) : (c.setLate k v now lat).priv = c.priv := by unfold Ctx.setLate; split <;> rfl
@[simp] theorem Ctx.setLate_inTrap (c : Ctx) (k : Nat) (v : W64) (now lat : Nat) : (c.setLate k v now lat).inTrap = c.inTrap := by unfold Ctx.setLate; split <;> rfl
@[simp] theorem Ctx.setLate_missTop (c : Ctx) (k : Nat) (v : W64) (now lat : Nat) : (c.setLate k v now lat).missTop = c.missTop := by unfold Ctx.setLate; split <;> rfl
@[simp] theorem Ctx.setLate_actor (c : Ctx) (k : Nat) (v : W64) (now lat : Nat) : (c.setLate k v now lat).actor = c.actor := by unfold Ctx.setLate; split <;> rfl
@[simp] theorem Ctx.setLate_item (c : Ctx) (k : Nat) (v : W64) (now lat : Nat) : (c.setLate k v now lat).item = c.item := by unfold Ctx.setLate; split <;> rfl
@[simp] theorem Ctx.setLate_ops (c : Ctx) (k : Nat) (v : W64) (now lat : Nat) : (c.setLate k v now lat).ops = c.ops := by unfold Ctx.setLate; split <;> rfl
@[simp] theorem Ctx.setLate_own (c : Ctx) (k : Nat) (v : W64) (now lat : Nat) : (c.setLate k v now lat).own = c.own := by unfold Ctx.setLate; split <;> rfl
@[simp] theorem Ctx.setLate_ownOps (c : Ctx) (k : Nat) (v : W64) (now lat : Nat) : (c.setLate k v now lat).ownOps = c.ownOps := by unfold Ctx.setLate; split <;> rfl
@[simp] theorem Ctx.setLate_failed (c : Ctx) (k : Nat) (v : W64) (now lat : Nat) : (c.setLate k v now lat).failed = c.failed := by unfold Ctx.setLate; split <;> rfl
@[simp] theorem Ctx.setLate_code (c : Ctx) (k : Nat) (v : W64) (now lat : Nat) : (c.setLate k v now lat).code = c.code := by unfold Ctx.setLate; split <;> rfl
@[simp] theorem Ctx.setLate_gang (c : Ctx) (k : Nat) (v : W64) (now lat : Nat) : (c.setLate k v now lat).gang = c.gang := by unfold Ctx.setLate; split <;> rfl
@[simp] theorem Ctx.setLate_startAfter (c : Ctx) (k : Nat) (v : W64) (now lat : Nat) : (c.setLate k v now lat).startAfter = c.startAfter := by unfold Ctx.setLate; split <;> rfl
@[simp] theorem Ctx.setLate_startOrder (c : Ctx) (k : Nat) (v : W64) (now lat : Nat) : (c.setLate k v now lat).startOrder = c.startOrder := by unfold Ctx.setLate; split <;> rfl
@[simp] theorem Ctx.setLate_dueTrap (c : Ctx) (k : Nat) (v : W64) (now lat : Nat) : (c.setLate k v now lat).dueTrap = c.dueTrap := by unfold Ctx.setLate; split <;> rfl
@[simp] theorem Ctx.setLate_fault (c : Ctx) (k : Nat) (v : W64) (now lat : Nat) : (c.setLate k v now lat).fault = c.fault := by unfold Ctx.setLate; split <;> rfl
@[simp] theorem Ctx.setLate_relMark (c : Ctx) (k : Nat) (v : W64) (now lat : Nat) : (c.setLate k v now lat).relMark = c.relMark := by unfold Ctx.setLate; split <;> rfl

end Sys2Proof.Machine
end

