-- ==== Sys2Proof/Laws/Ops.lean ====
section
/-! SUPPORT. What the maps, the registers and the shared steps of an instruction do, once. -/

namespace Sys2Proof.Machine

/-! ## Maps -/

@[simp] theorem find?_put_same {α : Type} (m : Map α) (k : Nat) (v : α) : Map.find? (Map.put m k v) k = some v := by
  induction m with
  | nil => simp [Map.put, Map.find?]
  | cons p m ih =>
    obtain ⟨j, w⟩ := p
    by_cases h : j = k <;> simp [Map.put, Map.find?, h, ih]

theorem find?_put_other {α : Type} (m : Map α) (k j : Nat) (v : α) (h : j ≠ k) : Map.find? (Map.put m k v) j = Map.find? m j := by
  induction m with
  | nil => simp [Map.put, Map.find?, h.symm]
  | cons p m ih =>
    obtain ⟨i, w⟩ := p
    by_cases hi : i = k
    · subst hi; simp [Map.put, Map.find?, h.symm]
    · simp [Map.put, Map.find?, hi, ih]

@[simp] theorem get_put_same {α : Type} (m : Map α) (k : Nat) (v d : α) : Map.get (Map.put m k v) k d = v := by
  simp [Map.get]

theorem get_put_other {α : Type} (m : Map α) (k j : Nat) (v d : α) (h : j ≠ k) : Map.get (Map.put m k v) j d = Map.get m j d := by
  simp [Map.get, find?_put_other _ _ _ _ h]

theorem get_put {α : Type} (m : Map α) (k j : Nat) (v d : α) : Map.get (Map.put m k v) j d = if j = k then v else Map.get m j d := by
  split
  · subst_vars; simp
  · exact get_put_other _ _ _ _ _ ‹_›

theorem find?_del {α : Type} (m : Map α) (k j : Nat) : Map.find? (Map.del m k) j = if j = k then none else Map.find? m j := by
  induction m with
  | nil => simp [Map.del, Map.find?]
  | cons p m ih =>
    obtain ⟨i, w⟩ := p
    simp only [Map.del] at ih ⊢
    by_cases hi : i = k
    · subst hi
      rw [List.filter_cons_of_neg (by simp), ih]
      simp only [Map.find?]
      split <;> simp_all [eq_comm]
    · rw [List.filter_cons_of_pos (by simp [hi])]
      simp only [Map.find?, ih]
      split <;> simp_all

/-! ## Units -/

@[simp] theorem ctx_setCtx_same (s : State) (id : Nat) (c : Ctx) : (s.setCtx id c).ctx id = c := by simp [State.ctx, State.setCtx]

theorem ctx_setCtx (s : State) (id j : Nat) (c : Ctx) : (s.setCtx id c).ctx j = if j = id then c else s.ctx j := by
  simp [State.ctx, State.setCtx, get_put]

theorem ctx_modCtx (s : State) (id j : Nat) (f : Ctx → Ctx) :
    (s.modCtx id f).ctx j = if j = id then f (s.ctx id) else s.ctx j := ctx_setCtx ..

@[simp] theorem me_modMe (s : State) (f : Ctx → Ctx) : (s.modMe f).me = f s.me := by simp [State.me, State.modMe, ctx_modCtx]

theorem ctx_modMe (s : State) (f : Ctx → Ctx) (j : Nat) : (s.modMe f).ctx j = if j = s.cur then f s.me else s.ctx j := ctx_modCtx ..

@[simp] theorem core_setCore_same (s : State) (i : Nat) (c : CoreSt) : (s.setCore i c).core i = c := by simp [State.core, State.setCore]

theorem core_setCore (s : State) (i j : Nat) (c : CoreSt) : (s.setCore i c).core j = if j = i then c else s.core j := by
  simp [State.core, State.setCore, get_put]

theorem core_modCore (s : State) (i j : Nat) (f : CoreSt → CoreSt) :
    (s.modCore i f).core j = if j = i then f (s.core i) else s.core j := core_setCore ..

theorem cluster_modCluster (s : State) (i j : Nat) (f : Cluster → Cluster) :
    (s.modCluster i f).cluster j = if j = i then f (s.cluster i) else s.cluster j := by
  simp [State.cluster, State.modCluster, get_put]

theorem die_modDie (s : State) (i j : Nat) (f : Die → Die) : (s.modDie i f).die j = if j = i then f (s.die i) else s.die j := by
  simp [State.die, State.modDie, get_put]

theorem stack_modStack (s : State) (i j : Nat) (f : Stack → Stack) :
    (s.modStack i f).stack j = if j = i then f (s.stack i) else s.stack j := by
  simp [State.stack, State.modStack, get_put]

theorem slice_modSlice (s : State) (i j : Nat) (f : Slice → Slice) :
    (s.modSlice i f).slice j = if j = i then f (s.slice i) else s.slice j := by
  simp [State.slice, State.modSlice, get_put]

theorem group_modGroup (s : State) (i j : Nat) (f : Group → Group) :
    (s.modGroup i f).group j = if j = i then f (s.group i) else s.group j := by
  simp [State.group, State.modGroup, get_put]

theorem reg_setReg (s : State) (a b : Nat) (v : W64) : (s.setReg a v).reg b = if b = a then v else s.reg b := by
  simp [State.reg, State.setReg, get_put]

/-! ## Registers -/

@[simp] theorem regAt_zero (c : Ctx) : c.regAt 0 = 0 := rfl

theorem regAt_setAt (c : Ctx) (k j : Nat) (v : W64) :
    (c.setAt k v).regAt j = if j = k ∧ k ≠ 0 then v else c.regAt j := by
  unfold Ctx.setAt Ctx.regAt
  by_cases hk : k = 0
  · simp [hk]
  · by_cases hj : j = k
    · subst hj; simp [hk]
    · simp [hk, hj, get_put_other]

theorem regAt_setLate (c : Ctx) (k j : Nat) (v : W64) (now lat : Nat) :
    (c.setLate k v now lat).regAt j = if j = k ∧ k ≠ 0 then v else c.regAt j := by
  unfold Ctx.setLate Ctx.regAt
  by_cases hk : k = 0
  · simp [hk]
  · by_cases hj : j = k
    · subst hj; simp [hk]
    · simp [hk, hj, get_put_other]

theorem lateAt_setAt_other (c : Ctx) (k j : Nat) (v : W64) (now : Nat) (h : j ≠ k) : (c.setAt k v).lateAt j now = c.lateAt j now := by
  unfold Ctx.setAt Ctx.lateAt
  split
  · rfl
  · rw [← List.filter_reverse, List.filter_filter]
    congr 2
    apply List.filter_congr
    intro l _
    by_cases hl : l.reg = j <;> simp [hl, h]

theorem lateAt_setAt_same (c : Ctx) (k : Nat) (v : W64) (now : Nat) (h : k ≠ 0) : (c.setAt k v).lateAt k now = none := by
  have : (c.late.reverse.filter fun l => l.reg == k && decide (l.reg ≠ k)) = [] := by
    rw [List.filter_eq_nil_iff]
    intro l _
    by_cases hl : l.reg = k <;> simp [hl]
  simp only [Ctx.setAt, Ctx.lateAt, h, if_false, ← List.filter_reverse, List.filter_filter, this]
  rfl

/-- What pruning leaves of one place: the writes behind the last one that has reached its latency. -/
theorem pruneLate_reverse (at_ k : Nat) (ls : List Late) :
    ((pruneLate at_ ls).reverse.filter (·.reg == k)) = (ls.reverse.filter (·.reg == k)).takeWhile fun l => decide (at_ < l.ready) := by
  induction ls with
  | nil => rfl
  | cons l ls ih =>
    rw [List.reverse_cons, List.filter_append]
    by_cases hk : l.reg = k
    · have hs : [l].filter (·.reg == k) = [l] := by simp [hk]
      rw [hs]
      by_cases hall : ∀ m ∈ ls.reverse.filter (·.reg == k), at_ < m.ready
      · have hnone : (ls.any fun m => m.reg == l.reg && decide (m.ready ≤ at_)) = false := by
          simp only [List.any_eq_false, Bool.and_eq_true, beq_iff_eq, decide_eq_true_eq, not_and, Nat.not_le]
          intro m hm hr
          exact hall m (by simp [hm, hr, hk])
        rw [List.takeWhile_append_of_pos (by simpa using hall)]
        have htake : (ls.reverse.filter (·.reg == k)).takeWhile (fun l => decide (at_ < l.ready)) = ls.reverse.filter (·.reg == k) :=
          List.takeWhile_eq_self_iff.mpr (by simpa using hall)
        by_cases hl : at_ < l.ready
        · simp only [pruneLate, hl, hnone, and_self, if_true, List.reverse_cons, List.filter_append, hs, ih, htake, List.takeWhile]
          simp
        · simp only [pruneLate, hl, false_and, if_false, ih, htake, List.takeWhile]
          simp
      · have hsome : (ls.any fun m => m.reg == l.reg && decide (m.ready ≤ at_)) = true := by
          simp only [List.mem_filter, List.mem_reverse, beq_iff_eq, not_forall, Nat.not_lt] at hall
          obtain ⟨m, ⟨hm, hr⟩, hle⟩ := hall
          simp only [List.any_eq_true, Bool.and_eq_true, beq_iff_eq, decide_eq_true_eq]
          exact ⟨m, hm, by rw [hr, hk], hle⟩
        have hstop : ∀ (xs : List Late), (¬ ∀ m ∈ xs, at_ < m.ready) →
            (xs ++ [l]).takeWhile (fun l => decide (at_ < l.ready)) = xs.takeWhile fun l => decide (at_ < l.ready) := by
          intro xs
          induction xs with
          | nil => intro hx; simp at hx
          | cons x xs ihx =>
            intro hx
            by_cases hxr : at_ < x.ready
            · have : ¬ ∀ m ∈ xs, at_ < m.ready := by
                intro hy; apply hx; intro m hm
                rcases List.mem_cons.mp hm with rfl | hm
                · exact hxr
                · exact hy m hm
              simp [List.takeWhile, hxr, ihx this]
            · simp [List.takeWhile, hxr]
        rw [hstop _ hall]
        simp only [pruneLate, hsome, and_false, if_false, ih, Bool.true_eq_false]
    · have hs : [l].filter (·.reg == k) = [] := by simp [hk]
      rw [hs, List.append_nil, ← ih]
      simp only [pruneLate]
      split
      · rw [List.reverse_cons, List.filter_append, hs, List.append_nil]
      · rfl

theorem lateAt_setLate_other (c : Ctx) (k j : Nat) (v : W64) (at_ lat now : Nat) (h : j ≠ k) (hn : at_ ≤ now) :
    (c.setLate k v at_ lat).lateAt j now = c.lateAt j now := by
  unfold Ctx.setLate Ctx.lateAt
  split
  · rfl
  · simp only [List.reverse_append, List.reverse_cons, List.reverse_nil, List.nil_append, List.singleton_append]
    rw [List.filter_cons_of_neg (by simpa using h.symm), pruneLate_reverse, List.takeWhile_takeWhile]
    congr 2
    funext l
    by_cases hl : now < l.ready <;> simp [hl]
    omega

theorem readAt_setAt_other (c : Ctx) (k j : Nat) (v : W64) (now : Nat) (h : j = 0 ∨ j ≠ k) : (c.setAt k v).readAt j now = c.readAt j now := by
  by_cases hj : j = k
  · have : k = 0 := by omega
    simp [Ctx.setAt, this]
  · simp [Ctx.readAt, lateAt_setAt_other _ _ _ _ _ hj, regAt_setAt, hj]

theorem readAt_setAt_same (c : Ctx) (k : Nat) (v : W64) (now : Nat) (h : k ≠ 0) : (c.setAt k v).readAt k now = v := by
  simp [Ctx.readAt, lateAt_setAt_same _ _ _ _ h, regAt_setAt, h]

theorem readAt_setLate_other (c : Ctx) (k j : Nat) (v : W64) (at_ lat now : Nat) (h : j = 0 ∨ j ≠ k) (hn : at_ ≤ now) :
    (c.setLate k v at_ lat).readAt j now = c.readAt j now := by
  by_cases hj : j = k
  · have : k = 0 := by omega
    simp [Ctx.setLate, this]
  · simp [Ctx.readAt, lateAt_setLate_other _ _ _ _ _ _ _ hj hn, regAt_setLate, hj]

theorem readAt_setLate_same (c : Ctx) (k : Nat) (v : W64) (at_ lat now : Nat) (h : k ≠ 0) (hn : at_ ≤ now) :
    (c.setLate k v at_ lat).readAt k now = if now < at_ + lat then c.readAt k now else v := by
  have hfind : (c.setLate k v at_ lat).lateAt k now =
      if now < at_ + lat then some ((c.lateAt k now).getD { reg := k, old := c.regAt k, ready := at_ + lat }) else none := by
    unfold Ctx.setLate Ctx.lateAt
    simp only [h, if_false, List.reverse_append, List.reverse_cons, List.reverse_nil, List.nil_append, List.singleton_append]
    rw [List.filter_cons_of_pos (by simp), pruneLate_reverse]
    by_cases hc : now < at_ + lat
    · have hp : (fun l : Late => decide (now < l.ready) && decide (at_ < l.ready)) = fun l => decide (now < l.ready) := by
        funext l
        by_cases hl : now < l.ready
        · simp only [hl, decide_true, Bool.true_and, decide_eq_true_eq]
          omega
        · simp [hl]
      rw [List.takeWhile_cons_of_pos (by simpa using hc), List.takeWhile_takeWhile, List.getLast?_cons, if_pos hc]
      simp only [Bool.decide_and, hp, Bool.decide_eq_true]
    · rw [List.takeWhile_cons_of_neg (by simpa using hc), if_neg hc]
      rfl
  unfold Ctx.readAt
  rw [hfind]
  by_cases hc : now < at_ + lat
  · rw [if_pos hc, if_pos hc]
    cases c.lateAt k now <;> rfl
  · simp [hc, regAt_setLate, h]

/-! ## What changes only in the issuing context -/

theorem OnlyMe.refl (s : State) : OnlyMe s s := ⟨rfl, fun _ _ => rfl⟩

theorem OnlyMe.cur {s t : State} (h : OnlyMe s t) : t.cur = s.cur := by
  have := congrArg State.cur h.rest
  exact this

theorem OnlyMe.trans {s t u : State} (h : OnlyMe s t) (g : OnlyMe t u) : OnlyMe s u := by
  refine ⟨?_, fun id hi => (g.others id (by rw [h.cur]; exact hi)).trans (h.others id hi)⟩
  have hr := h.rest
  have := congrArg (fun x : State => { x with ctxs := s.ctxs }) g.rest
  exact this.trans hr

theorem onlyMe_modMe (s : State) (f : Ctx → Ctx) : OnlyMe s (s.modMe f) :=
  ⟨rfl, fun id h => by rw [ctx_modMe, if_neg h]⟩

theorem goes_finish (s : State) (o : Op) : Goes s (s.finish o) (s.me.pc + BitVec.ofNat 64 o.len) (s.cycle + 1 + o.st.toNat) :=
  ⟨onlyMe_modMe .., by simp [State.finish], by simp [State.finish]⟩

theorem goes_branch (s : State) (o : Op) (a : W64) : Goes s (s.branch o a) a (s.cycle + 1 + max o.st.toNat 2) :=
  ⟨onlyMe_modMe .., by simp [State.branch], by simp [State.branch]⟩

theorem waits_hold (s : State) (w : Wait) : Waits s (s.hold w) w :=
  ⟨onlyMe_modMe .., by simp [State.hold], by simp [State.hold]⟩

/-- A write and then a change of the program counter, the wait and the time of the next issue. -/
theorem writesTo_go (s : State) (d : R6) (v : W64) (lat : Nat) (hl : 1 ≤ lat) (pc : W64) (at_ : Nat) :
    WritesTo s ((s.wrLate d v lat).modMe fun c => { c with pc := pc, wait := none, nextIssue := at_ }) d v lat pc at_ := by
  have hw : s.wrLate d v lat = s.modMe fun c => if lat ≤ 1 then c.setAt (c.regKey d) v else c.setLate (c.regKey d) v s.cycle lat := rfl
  by_cases h1 : lat ≤ 1
  · have hone : lat = 1 := by omega
    subst hone
    rw [hw]
    simp only [le_refl, if_true]
    refine ⟨(onlyMe_modMe ..).trans (onlyMe_modMe ..), ?_, ?_, ?_, ?_, ?_, ?_⟩
    · simp only [me_modMe]
      unfold Ctx.setAt
      split <;> rfl
    · simp
    · intro hk
      simp only [me_modMe]
      exact (regAt_setAt ..).trans (if_pos ⟨rfl, hk⟩)
    · intro k hk
      simp only [me_modMe]
      refine (regAt_setAt ..).trans (if_neg ?_)
      omega
    · intro hk now hn
      simp only [me_modMe]
      rw [if_neg (by omega)]
      exact readAt_setAt_same _ _ _ _ hk
    · intro k hk now _
      simp only [me_modMe]
      exact readAt_setAt_other _ _ _ _ _ hk
  · rw [hw]
    simp only [h1, if_false]
    refine ⟨(onlyMe_modMe ..).trans (onlyMe_modMe ..), ?_, ?_, ?_, ?_, ?_, ?_⟩
    · simp only [me_modMe]
      unfold Ctx.setLate
      split <;> rfl
    · simp
    · intro hk
      simp only [me_modMe]
      exact (regAt_setLate ..).trans (if_pos ⟨rfl, hk⟩)
    · intro k hk
      simp only [me_modMe]
      refine (regAt_setLate ..).trans (if_neg ?_)
      omega
    · intro hk now hn
      simp only [me_modMe]
      exact readAt_setLate_same _ _ _ _ _ _ hk (Nat.le_of_lt hn)
    · intro k hk now hn
      simp only [me_modMe]
      exact readAt_setLate_other _ _ _ _ _ _ _ hk hn

@[simp] theorem me_wrLate (s : State) (d : R6) (v : W64) (lat : Nat) :
    (s.wrLate d v lat).me = if lat ≤ 1 then s.me.setAt (s.me.regKey d) v else s.me.setLate (s.me.regKey d) v s.cycle lat := me_modMe ..

theorem me_wrLate_pc (s : State) (d : R6) (v : W64) (lat : Nat) : (s.wrLate d v lat).me.pc = s.me.pc := by
  simp only [me_wrLate]
  split <;> simp

theorem wr_eq (s : State) (d : R6) (v : W64) : s.wr d v = s.wrLate d v 1 := rfl

theorem finish_wrLate (s : State) (d : R6) (v : W64) (lat : Nat) (o : Op) :
    (s.wrLate d v lat).finish o = (s.wrLate d v lat).modMe fun c =>
      { c with pc := s.me.pc + BitVec.ofNat 64 o.len, wait := none, nextIssue := s.cycle + 1 + o.st.toNat } := by
  have h := me_wrLate_pc s d v lat
  unfold State.finish State.modMe State.modCtx
  congr 1
  have : (s.wrLate d v lat).ctx (s.wrLate d v lat).cur = (s.wrLate d v lat).me := rfl
  rw [this]
  beta_reduce
  rw [h]
  rfl

/-- An instruction that writes one register and goes on. -/
theorem writes_finish (s : State) (d : R6) (v : W64) (lat : Nat) (hl : 1 ≤ lat) (o : Op) :
    Writes s ((s.wrLate d v lat).finish o) d v lat o.len o.st := by
  rw [finish_wrLate]
  exact writesTo_go s d v lat hl _ _

theorem writes_wr_finish (s : State) (d : R6) (v : W64) (o : Op) : Writes s ((s.wr d v).finish o) d v 1 o.len o.st :=
  writes_finish s d v 1 (le_refl _) o

/-- An instruction that writes one register and branches. -/
theorem writes_branch (s : State) (d : R6) (v : W64) (o : Op) (a : W64) :
    WritesTo s ((s.wr d v).branch o a) d v 1 a (s.cycle + 1 + max o.st.toNat 2) := writesTo_go s d v 1 (le_refl _) _ _

/-! ## Issue (R145, R348) -/

/-- An instruction that nothing holds runs its body. -/
theorem issue_clear (s : State) (srcs dsts : List R6) (body : State → State) (h : s.Clear srcs dsts) :
    s.issue srcs dsts body = .next (body s) := by
  simp [State.issue, h.1, h.2]

theorem issueAcc_open (s : State) (srcs dsts : List R6) (body : State → State) (h : s.Open srcs dsts) :
    s.issueAcc srcs dsts body = .next (body s) := by
  simp [State.issueAcc, h.2, issue_clear s srcs dsts body h.1]

/-- With an acquire under way nothing that must follow it issues. -/
theorem issueAcc_acquiring (s : State) (srcs dsts : List R6) (body : State → State) (h : s.me.acquiring = true) :
    s.issueAcc srcs dsts body = .next (s.hold .acquire) := by simp [State.issueAcc, h]

/-- Everything that the shared steps of issue can do. -/
theorem issue_cases (s : State) (srcs dsts : List R6) (body : State → State) (t : State) (h : s.issue srcs dsts body = .next t) :
    (s.awaiting (srcs ++ dsts) ≠ [] ∧ t = s.hold (.regs (s.awaiting (srcs ++ dsts)))) ∨
    (s.awaiting (srcs ++ dsts) = [] ∧ ∃ r, s.underrun srcs = some r ∧ t = s.trap 0x08 (r.setWidth 64)) ∨
    (s.Clear srcs dsts ∧ t = body s) := by
  unfold State.issue at h
  simp only at h
  split at h
  · exact .inl ⟨‹_›, (Host.Outcome.next.inj h).symm⟩
  · have ha := not_not.1 ‹_›
    split at h
    · exact .inr (.inl ⟨ha, _, ‹_›, (Host.Outcome.next.inj h).symm⟩)
    · exact .inr (.inr ⟨⟨ha, ‹_›⟩, (Host.Outcome.next.inj h).symm⟩)

end Sys2Proof.Machine
end

