-- ==== Sys2Proof/Laws/Memory.lean ====
section
/-! SUPPORT. Memory: the canonical form is kept, and a read finds what was written. -/

namespace Sys2Proof.Machine

/-- The canonical form as two facts about the list. -/
theorem memWf_iff (m : List Host.Cell) :
    memWf m = true ↔ m.Pairwise (fun p q => p.1 < q.1) ∧ ∀ p ∈ m, p.2 ≠ unlisted := by
  induction m with
  | nil => simp [memWf]
  | cons p m ih =>
    obtain ⟨j, v⟩ := p
    cases m with
    | nil => simp [memWf]
    | cons q m =>
      obtain ⟨k, w⟩ := q
      simp only [memWf, Bool.and_eq_true, ih, bne_iff_ne, decide_eq_true_eq, List.pairwise_cons, List.mem_cons]
      constructor
      · rintro ⟨⟨hv, hjk⟩, ⟨hk, hp⟩, ha⟩
        refine ⟨⟨?_, hk, hp⟩, ?_⟩
        · rintro a (rfl | h)
          · exact hjk
          · exact lt_trans hjk (hk a h)
        · rintro a (rfl | h)
          · exact hv
          · exact ha a h
      · rintro ⟨⟨hj, hk, hp⟩, ha⟩
        exact ⟨⟨ha (j, v) (.inl rfl), hj (k, w) (.inl rfl)⟩, ⟨hk, hp⟩, fun a h => ha a (.inr h)⟩

/-- Keys that a stored byte may list: the old ones and its own. -/
theorem memSet_mem (m : List Host.Cell) (k : Nat) (v : Byte) (p : Host.Cell) (h : p ∈ memSet m k v) : p ∈ m ∨ p = (k, v) ∧ v ≠ unlisted := by
  induction m with
  | nil =>
    simp only [memSet] at h
    split at h <;> simp_all
  | cons q m ih =>
    obtain ⟨j, w⟩ := q
    simp only [memSet] at h
    split at h
    · rcases List.mem_cons.1 h with rfl | h
      · simp
      · rcases ih h with h | h
        · exact .inl (List.mem_cons_of_mem _ h)
        · exact .inr h
    · split at h
      · split at h
        · exact .inl (List.mem_cons_of_mem _ h)
        · rcases List.mem_cons.1 h with rfl | h
          · exact .inr ⟨rfl, ‹_›⟩
          · exact .inl (List.mem_cons_of_mem _ h)
      · split at h
        · exact .inl h
        · rcases List.mem_cons.1 h with rfl | h
          · exact .inr ⟨rfl, ‹_›⟩
          · exact .inl h

theorem memSet_wf (m : List Host.Cell) (k : Nat) (v : Byte) (h : memWf m = true) : memWf (memSet m k v) = true := by
  rw [memWf_iff] at h ⊢
  refine ⟨?_, fun p hp => ?_⟩
  · obtain ⟨hs, -⟩ := h
    induction m with
    | nil => simp only [memSet]; split <;> simp
    | cons q m ih =>
      obtain ⟨j, w⟩ := q
      rw [List.pairwise_cons] at hs
      simp only [memSet]
      split
      · refine List.pairwise_cons.2 ⟨fun p hp => ?_, ih hs.2⟩
        rcases memSet_mem _ _ _ _ hp with hp | ⟨rfl, -⟩
        · exact hs.1 p hp
        · assumption
      · split
        · subst_vars
          split
          · exact hs.2
          · exact List.pairwise_cons.2 ⟨hs.1, hs.2⟩
        · split
          · exact List.pairwise_cons.2 hs
          · refine List.pairwise_cons.2 ⟨fun p hp => ?_, List.pairwise_cons.2 hs⟩
            rcases List.mem_cons.1 hp with rfl | hp
            · simp only; omega
            · have := hs.1 p hp
              simp only at this ⊢
              omega
  · rcases memSet_mem _ _ _ _ hp with hp | ⟨rfl, hv⟩
    · exact h.2 p hp
    · exact hv

theorem memPut_wf (m : List Host.Cell) (k v n : Nat) (h : memWf m = true) : memWf (memPut m k v n) = true := by
  induction n generalizing m k v with
  | zero => exact h
  | succ n ih => exact ih _ _ _ (memSet_wf _ _ _ h)

theorem memPutBytes_wf (m : List Host.Cell) (k : Nat) (l : List Byte) (h : memWf m = true) : memWf (memPutBytes m k l) = true := by
  induction l generalizing m k with
  | nil => exact h
  | cons b l ih => exact ih _ _ (memSet_wf _ _ _ h)

theorem memMerge_wf (m : List Host.Cell) (k v mask n : Nat) (h : memWf m = true) : memWf (memMerge m k v mask n) = true := by
  induction n generalizing m k v mask with
  | zero => exact h
  | succ n ih =>
    refine ih _ _ _ _ ?_
    split
    · exact memSet_wf _ _ _ h
    · exact h

theorem memFilter_wf (m : List Host.Cell) (p : Host.Cell → Bool) (h : memWf m = true) : memWf (m.filter p) = true := by
  rw [memWf_iff] at h ⊢
  exact ⟨h.1.filter _, fun q hq => h.2 q (List.mem_filter.1 hq).1⟩

/-! ## A read finds what was written -/

/-- So does setting the bytes of one list of cells in another, each at a place of its own. -/
theorem memSets_wf (l : List Host.Cell) (f : Host.Cell → Nat) (m : List Host.Cell) (h : memWf m = true) :
    memWf (l.foldl (fun m c => memSet m (f c) c.2) m) = true := by
  induction l generalizing m with
  | nil => exact h
  | cons c l ih => exact ih _ (memSet_wf m _ _ h)

theorem memGet_memSet_same (m : List Host.Cell) (k : Nat) (v : Byte) (h : memWf m = true) : memGet (memSet m k v) k = v := by
  rw [memWf_iff] at h
  obtain ⟨hs, -⟩ := h
  induction m with
  | nil => simp only [memSet]; split <;> simp_all [memGet]
  | cons q m ih =>
    obtain ⟨j, w⟩ := q
    rw [List.pairwise_cons] at hs
    simp only [memSet]
    split
    · simp [memGet, *]
    · split
      · subst_vars
        split
        · subst_vars
          cases m with
          | nil => rfl
          | cons r m =>
            obtain ⟨i, x⟩ := r
            have : j < i := hs.1 (i, x) (by simp)
            simp only [memGet]
            rw [if_neg (by omega), if_neg (by omega)]
        · simp [memGet]
      · split
        · simp only [memGet]
          rw [if_neg (by omega), if_neg (by omega)]
          exact Eq.symm ‹_›
        · simp [memGet]

theorem memGet_memSet_other (m : List Host.Cell) (k j : Nat) (v : Byte) (hj : j ≠ k) (h : memWf m = true) :
    memGet (memSet m k v) j = memGet m j := by
  rw [memWf_iff] at h
  obtain ⟨hs, -⟩ := h
  have below : ∀ (l : List Host.Cell), (∀ p ∈ l, j < p.1) → memGet l j = unlisted := by
    intro l hl
    cases l with
    | nil => rfl
    | cons r l =>
      obtain ⟨i, x⟩ := r
      have : j < i := hl (i, x) (by simp)
      simp only [memGet]
      rw [if_neg (by omega), if_neg (by omega)]
  induction m with
  | nil =>
    simp only [memSet]
    split
    · rfl
    · simp only [memGet]
      split
      · rfl
      · rw [if_neg (Ne.symm hj)]
  | cons q m ih =>
    obtain ⟨i, w⟩ := q
    rw [List.pairwise_cons] at hs
    simp only [memSet]
    split
    · simp only [memGet, ih hs.2]
    · split
      · subst_vars
        split
        · simp only [memGet]
          split
          · rfl
          · rw [if_neg (Ne.symm hj)]
            exact below m fun p hp => by have := hs.1 p hp; omega
        · simp only [memGet]
          rw [if_neg (Ne.symm hj), if_neg (Ne.symm hj)]
      · split
        · rfl
        · simp only [memGet]
          split
          · rfl
          · rw [if_neg (Ne.symm hj)]
            rw [if_neg (by omega), if_neg (by omega)]

theorem memGet_memPut_other (m : List Host.Cell) (k v n j : Nat) (hj : j < k ∨ k + n ≤ j) (h : memWf m = true) :
    memGet (memPut m k v n) j = memGet m j := by
  induction n generalizing m k v with
  | zero => rfl
  | succ n ih =>
    rw [memPut, ih _ _ _ (by omega) (memSet_wf _ _ _ h), memGet_memSet_other _ _ _ _ (by omega) h]

theorem memGet_memMerge_other (m : List Host.Cell) (k v mask n j : Nat) (hj : j < k ∨ k + n ≤ j) (h : memWf m = true) :
    memGet (memMerge m k v mask n) j = memGet m j := by
  induction n generalizing m k v mask with
  | zero => rfl
  | succ n ih =>
    unfold memMerge
    split
    · rw [ih _ _ _ _ (by omega) (memSet_wf _ _ _ h), memGet_memSet_other _ _ _ _ (by omega) h]
    · exact ih _ _ _ _ (by omega) h

theorem memGet_memPutBytes_other (m : List Host.Cell) (k j : Nat) (l : List Byte) (hj : j < k ∨ k + l.length ≤ j) (h : memWf m = true) :
    memGet (memPutBytes m k l) j = memGet m j := by
  induction l generalizing m k with
  | nil => rfl
  | cons b l ih =>
    rw [List.length_cons] at hj
    rw [memPutBytes, ih _ _ (by omega) (memSet_wf _ _ _ h), memGet_memSet_other _ _ _ _ (by omega) h]

/-- A number of `n` bytes reads back as it was stored. -/
theorem memNat_memPut (m : List Host.Cell) (k v n : Nat) (h : memWf m = true) : memNat (memPut m k v n) k n = v % 256 ^ n := by
  have step : ∀ (n k v : Nat) (m : List Host.Cell), memWf m = true → ∀ j, k + n ≤ j ∨ j < k → memGet (memPut m k v n) j = memGet m j :=
    fun n k v m hm j hj => memGet_memPut_other m k v n j (by omega) hm
  induction n generalizing m k v with
  | zero => simp [memNat, Nat.mod_one]
  | succ n ih =>
    rw [memPut, memNat, ih _ _ _ (memSet_wf _ _ _ h), step _ _ _ _ (memSet_wf _ _ _ h) _ (by omega), memGet_memSet_same _ _ _ h]
    rw [BitVec.toNat_ofNat, Nat.pow_succ' (n := n), Nat.mod_mul (a := 256)]

theorem reset_memWf : memWf State.reset.mem = true := rfl

end Sys2Proof.Machine
end

