-- ==== Sys2Proof/Laws/Access.lean ====
section
/-! SUPPORT. What the translation and the checks of an address change: memory, as the walk leaves it, TLBs and cache lines, and nothing
else. -/

namespace Sys2Proof.Machine

/-! ## `OnlyTables` -/

theorem OnlyTables.refl (s : State) : OnlyTables s s := ⟨rfl, fun _ => rfl, fun _ => rfl⟩

theorem OnlyTables.trans {s t u : State} (h : OnlyTables s t) (g : OnlyTables t u) : OnlyTables s u := by
  refine ⟨?_, fun k => ?_, fun k => ?_⟩
  · have := congrArg (fun x : State => { x with mem := s.mem, cores := s.cores, clusters := s.clusters }) g.rest
    exact this.trans h.rest
  · have := congrArg (fun x : CoreSt => { x with itlb := (s.core k).itlb, dtlb := (s.core k).dtlb }) (g.cores k)
    exact this.trans (h.cores k)
  · have := congrArg (fun x : Cluster => { x with tlb := (s.cluster k).tlb, seen := (s.cluster k).seen, lines := (s.cluster k).lines }) (g.clusters k)
    exact this.trans (h.clusters k)

theorem OnlyTables.ctxs {s t : State} (h : OnlyTables s t) : t.ctxs = s.ctxs := by
  have := congrArg State.ctxs h.rest
  exact this
theorem OnlyTables.cur {s t : State} (h : OnlyTables s t) : t.cur = s.cur := by
  have := congrArg State.cur h.rest
  exact this
theorem OnlyTables.cycle {s t : State} (h : OnlyTables s t) : t.cycle = s.cycle := by
  have := congrArg State.cycle h.rest
  exact this
theorem OnlyTables.flights {s t : State} (h : OnlyTables s t) : t.flights = s.flights := by
  have := congrArg State.flights h.rest
  exact this
theorem OnlyTables.nextId {s t : State} (h : OnlyTables s t) : t.nextId = s.nextId := by
  have := congrArg State.nextId h.rest
  exact this
theorem OnlyTables.empties {s t : State} (h : OnlyTables s t) : t.empties = s.empties := by
  have := congrArg State.empties h.rest
  exact this

/-- Nothing but memory differs. -/
theorem onlyTables_mem (s : State) (m : List Host.Cell) : OnlyTables s { s with mem := m } := ⟨rfl, fun _ => rfl, fun _ => rfl⟩

/-- Cache lines alone differ, of one cluster. -/
theorem onlyTables_lines (s : State) (cl : Nat) (f : Cluster → List Line) :
    OnlyTables s (s.modCluster cl fun c => { c with lines := f c }) := by
  refine ⟨rfl, fun _ => rfl, fun k => ?_⟩
  rw [cluster_modCluster]
  split
  · subst k
    rfl
  · rfl

theorem onlyTables_tlbInstall (s : State) (core : Nat) (fetch : Bool) (e : TlbEntry) (second : Bool) :
    OnlyTables s (s.tlbInstall core fetch e second) := by
  have first : OnlyTables s (s.modCore core fun c => if fetch then { c with itlb := tlbPut c.itlb e 64 } else { c with dtlb := tlbPut c.dtlb e 64 }) := by
    refine ⟨rfl, fun k => ?_, fun _ => rfl⟩
    rw [core_modCore]
    split
    · subst k
      cases fetch <;> rfl
    · rfl
  have cluster : ∀ (t : State) (cl : Nat) (f : Cluster → Cluster), (∀ c, { f c with tlb := c.tlb, seen := c.seen, lines := c.lines } = c) →
      OnlyTables t (t.modCluster cl f) := by
    intro t cl f hf
    refine ⟨rfl, fun _ => rfl, fun k => ?_⟩
    rw [cluster_modCluster]
    split
    · subst k
      exact hf _
    · rfl
  unfold State.tlbInstall
  cases second
  · exact first
  · refine first.trans ?_
    refine OnlyTables.trans (t := State.modCluster _ (clusterOf core) fun c => { c with tlb := tlbPut c.tlb e 4096 }) (cluster _ _ _ fun _ => rfl) ?_
    exact cluster _ (clusterOf core) (fun c => { c with seen := if c.seen.contains e then c.seen else e :: c.seen }) fun _ => rfl

/-! ## Recalls -/

theorem flushLines_frame (l : List Line) (s : State) : ∃ m, l.foldl State.flushLine s = { s with mem := m } := by
  induction l generalizing s with
  | nil => exact ⟨s.mem, rfl⟩
  | cons x l ih =>
    obtain ⟨m, hm⟩ := ih (s.flushLine x)
    exact ⟨m, hm⟩

theorem onlyTables_writeBack (s : State) (cl : Nat) (p : Line → Bool) (inval : Bool) : OnlyTables s (s.writeBack cl p inval) := by
  unfold State.writeBack
  dsimp only
  obtain ⟨m, hm⟩ := flushLines_frame ((s.cluster cl).lines.filter fun l => p l && l.dirty != 0) s
  rw [hm]
  exact (onlyTables_mem s m).trans (onlyTables_lines _ _ _)

theorem onlyTables_recall (s : State) (key : Nat) : OnlyTables s (s.recall key) := by
  have fold : ∀ (l : List (Nat × Cluster)) (t : State),
      OnlyTables t (l.foldl (fun t p => t.writeBack p.1 (·.key == lineKey key) true) t) := by
    intro l
    induction l with
    | nil => exact OnlyTables.refl
    | cons x l ih => exact fun t => (onlyTables_writeBack t _ _ _).trans (ih _)
  exact fold _ _

/-- Writing back some lines at one line's key changes memory there alone, and keeps its form. -/
theorem flushLines_mem (key : Nat) (l : List Line) (hl : ∀ x ∈ l, x.key = key) (s : State) (h : memWf s.mem = true) :
    memWf (l.foldl State.flushLine s).mem = true ∧
      ∀ k, k < key ∨ key + 64 ≤ k → memGet (l.foldl State.flushLine s).mem k = memGet s.mem k := by
  induction l generalizing s with
  | nil => exact ⟨h, fun _ _ => rfl⟩
  | cons x l ih =>
    have hx : x.key = key := hl x (by simp)
    obtain ⟨h1, h2⟩ := ih (fun y hy => hl y (by simp [hy])) (s.flushLine x) (memMerge_wf _ _ _ _ _ h)
    refine ⟨h1, fun k hk => (h2 k hk).trans ?_⟩
    exact memGet_memMerge_other _ _ _ _ _ _ (by rw [hx]; exact hk) h

theorem recall_mem (s : State) (at_ : Nat) (h : memWf s.mem = true) :
    memWf (s.recall at_).mem = true ∧
      ∀ k, k < lineKey at_ ∨ lineKey at_ + 64 ≤ k → memGet (s.recall at_).mem k = memGet s.mem k := by
  have one : ∀ (t : State) (cl : Nat), memWf t.mem = true → memWf (t.writeBack cl (·.key == lineKey at_) true).mem = true ∧
      ∀ k, k < lineKey at_ ∨ lineKey at_ + 64 ≤ k → memGet (t.writeBack cl (·.key == lineKey at_) true).mem k = memGet t.mem k := by
    intro t cl ht
    refine flushLines_mem (lineKey at_) _ (fun x hx => ?_) t ht
    simp only [List.mem_filter, Bool.and_eq_true, beq_iff_eq] at hx
    exact hx.2.1
  have fold : ∀ (l : List (Nat × Cluster)) (t : State), memWf t.mem = true →
      memWf (l.foldl (fun t p => t.writeBack p.1 (·.key == lineKey at_) true) t).mem = true ∧
      ∀ k, k < lineKey at_ ∨ lineKey at_ + 64 ≤ k →
        memGet (l.foldl (fun t p => t.writeBack p.1 (·.key == lineKey at_) true) t).mem k = memGet t.mem k := by
    intro l
    induction l with
    | nil => exact fun t ht => ⟨ht, fun _ _ => rfl⟩
    | cons x l ih =>
      intro t ht
      obtain ⟨h1, h2⟩ := one t x.1 ht
      obtain ⟨h3, h4⟩ := ih _ h1
      exact ⟨h3, fun k hk => (h4 k hk).trans (h2 k hk)⟩
  exact fold _ _ h

/-- A line that no cluster holds dirty is not recalled. -/
theorem recall_clean {s : State} {at_ : Nat} (h : ∀ p ∈ s.clusters, ∀ l ∈ p.2.lines, l.key = lineKey at_ → l.dirty = 0) :
    s.recall at_ = s := by
  unfold State.recall
  rw [List.filter_eq_nil_iff.2 (fun p hp => ?_)]
  · rfl
  · simp only [List.any_eq_true, Bool.and_eq_true, beq_iff_eq, bne_iff_ne, ne_eq, not_exists, not_and, not_not]
    exact fun l hl hk => h p hp l hl hk

/-! ## Walks -/

theorem onlyTables_walkOnce (s : State) (vf asid va : Nat) (acc : Acc) (priv : Bool) : OnlyTables s (s.walkOnce vf asid va acc priv).1 := by
  unfold State.walkOnce
  dsimp only
  split
  · split
    · exact OnlyTables.refl s
    · split
      · exact (onlyTables_recall s _).trans (onlyTables_mem _ _)
      · exact onlyTables_recall s _
  · exact OnlyTables.refl s

/-- A walk that marks its leaf changes no more than tables. -/
theorem onlyTables_walkedIn (vf asid va : Nat) (acc : Acc) (priv : Bool) (n : Nat) (s : State) :
    OnlyTables s (State.walkedIn vf asid va acc priv n s).1 := by
  induction n generalizing s with
  | zero => exact onlyTables_walkOnce ..
  | succ n ih =>
    unfold State.walkedIn
    dsimp only
    split
    · exact (onlyTables_walkOnce ..).trans (ih _)
    · exact onlyTables_walkOnce ..

/-- What one walk leaves of memory, given what a walk that starts anew does. -/
theorem marksLeaf_of {s u : State} {vf asid va : Nat} {acc : Acc} {again : State → Prop}
    (h : ∀ pte at_ shift, s.walk vf asid va = .leaf pte at_ shift →
      (markPte pte acc = pte → u.mem = s.mem) ∧
      (markPte pte acc ≠ pte → (s.recall at_).read64 at_ = pte → u.mem = ((s.recall at_).write64 at_ (markPte pte acc)).mem) ∧
      (markPte pte acc ≠ pte → (s.recall at_).read64 at_ ≠ pte → again (s.recall at_))) : s.MarksLeaf u vf asid va acc again := by
  intro pte at_ shift hw
  obtain ⟨h1, h2, h3⟩ := h pte at_ shift hw
  refine ⟨fun hc => by rw [recall_clean hc], fun hm => (recall_mem s at_ hm).2, h1, fun hn hr => ⟨h2 hn hr, fun hm => ?_⟩, h3⟩
  have hm := (recall_mem s at_ hm).1
  have hu := h2 hn hr
  refine ⟨?_, fun k hk => ?_⟩
  · simp only [State.read64, State.read, hu, State.write64, State.write, memNat_memPut _ _ _ _ hm]
    rw [show (256 : Nat) ^ 8 = 2 ^ 64 from rfl, Nat.mod_eq_of_lt (markPte pte acc).isLt, BitVec.ofNat_toNat, BitVec.setWidth_eq]
    rfl
  · simp only [hu, State.write64, State.write]
    exact memGet_memPut_other _ _ _ _ _ hk hm

/-- A walk whose leaf allows the access, and the memory that it leaves. -/
theorem marksLeaf_walkOnce {s v : State} {vf asid va : Nat} {acc : Acc} {priv : Bool} {again : State → Prop} {r : State × Walk × Bool}
    (h : s.walkOnce vf asid va acc priv = r) (hl : ∀ pte at_ shift, r.2.1 = .leaf pte at_ shift → leafAllows pte acc priv = true)
    (hv : r.2.2 = false → v.mem = r.1.mem) (ha : r.2.2 = true → again r.1) : s.MarksLeaf v vf asid va acc again := by
  refine marksLeaf_of fun p k sh hw => ?_
  simp only [State.walkOnce, hw] at h
  by_cases hn : leafAllows p acc priv = false ∨ markPte p acc = p
  · rw [if_pos hn] at h
    cases h
    have hn' : markPte p acc = p := hn.resolve_left fun h' => by simp [hl _ _ _ rfl] at h'
    exact ⟨fun _ => hv rfl, fun h' => absurd hn' h', fun h' => absurd hn' h'⟩
  · rw [if_neg hn] at h
    have hn' : markPte p acc ≠ p := fun h' => hn (.inr h')
    by_cases hr : (s.recall k).read64 k = p
    · rw [if_pos hr] at h
      cases h
      exact ⟨fun h' => absurd h' hn', fun _ _ => hv rfl, fun _ h' => absurd hr h'⟩
    · rw [if_neg hr] at h
      cases h
      exact ⟨fun h' => absurd h' hn', fun _ h' => absurd h' hr, fun _ _ => ha rfl⟩

/-- A walk that restarts has found a leaf that allows the access. -/
theorem walkOnce_again {s : State} {vf asid va : Nat} {acc : Acc} {priv : Bool} (h : (s.walkOnce vf asid va acc priv).2.2 = true) :
    ∀ pte at_ shift, (s.walkOnce vf asid va acc priv).2.1 = .leaf pte at_ shift → leafAllows pte acc priv = true := by
  intro pte at_ shift hw
  revert h hw
  unfold State.walkOnce
  dsimp only
  split
  · split
    · intro h; cases h
    · rename_i hn
      split
      · intro h; cases h
      · intro _ hw
        cases hw
        simpa using fun h' => hn (.inl h')
  · intro h; cases h

/-- A walk whose leaf allows the access leaves memory as `State.WalkMarks` says. -/
theorem walkMarks_walkedIn {vf asid va : Nat} {acc : Acc} {priv : Bool} (n : Nat) {s u : State} {pte : W64} {at_ shift : Nat}
    (h : State.walkedIn vf asid va acc priv n s = (u, .leaf pte at_ shift)) (hl : leafAllows pte acc priv = true) :
    State.WalkMarks u vf asid va acc n s := by
  have leaf : ∀ {w : Walk}, w = .leaf pte at_ shift → ∀ p k sh, w = .leaf p k sh → leafAllows p acc priv = true := by
    intro w hw p k sh hp
    rw [hw] at hp
    cases hp
    exact hl
  induction n generalizing s with
  | zero =>
    simp only [State.walkedIn, Prod.mk.injEq] at h
    exact marksLeaf_walkOnce (r := s.walkOnce vf asid va acc priv) rfl (leaf h.2) (fun _ => by rw [h.1]) (fun _ => by rw [h.1])
  | succ n ih =>
    simp only [State.walkedIn] at h
    by_cases hb : (s.walkOnce vf asid va acc priv).2.2 = true
    · rw [if_pos hb] at h
      exact marksLeaf_walkOnce (again := State.WalkMarks u vf asid va acc n) (r := s.walkOnce vf asid va acc priv) rfl (walkOnce_again hb)
        (fun h' => by rw [hb] at h'; cases h') (fun _ => ih h)
    · rw [if_neg hb] at h
      simp only [Prod.mk.injEq] at h
      exact marksLeaf_walkOnce (again := State.WalkMarks u vf asid va acc n) (r := s.walkOnce vf asid va acc priv) rfl (leaf h.2) (fun _ => by rw [h.1])
        (fun h' => absurd h' hb)

/-- `State.WalkMarks` speaks of memory alone. -/
theorem walkMarks_mem {u v : State} (h : u.mem = v.mem) {vf asid a : Nat} {acc : Acc} {n : Nat} {s : State}
    (hv : State.WalkMarks v vf asid a acc n s) : State.WalkMarks u vf asid a acc n s := by
  induction n generalizing s with
  | zero =>
    intro pte at_ shift hw
    obtain ⟨h1, h2, h3, h4, h5⟩ := hv pte at_ shift hw
    refine ⟨h1, h2, fun hn => h.trans (h3 hn), fun hn hr => ?_, fun hn hr => h.trans (h5 hn hr)⟩
    simp only [State.read64, State.read, h]
    exact h4 hn hr
  | succ n ih =>
    intro pte at_ shift hw
    obtain ⟨h1, h2, h3, h4, h5⟩ := hv pte at_ shift hw
    refine ⟨h1, h2, fun hn => h.trans (h3 hn), fun hn hr => ?_, fun hn hr => ih (h5 hn hr)⟩
    simp only [State.read64, State.read, h]
    exact h4 hn hr

/-! ## Translation and the checks -/

/-- Translation changes no more than tables. -/
theorem onlyTables_translate (s : State) (core vf asid : Nat) (priv : Bool) (va : Nat) (acc : Acc) :
    OnlyTables s (s.translate core vf asid priv va acc).1 := by
  have done : ∀ (t : State) (x y : Except FaultInfo Xl) (c : Prop) [Decidable c], OnlyTables s t →
      OnlyTables s (if c then (t, x) else (t, y)).1 := by
    intro t x y c _ h
    split <;> exact h
  have walk : OnlyTables s (s.walked vf asid va acc priv).1 := onlyTables_walkedIn ..
  unfold State.translate
  dsimp only
  split
  · exact done _ _ _ _ (OnlyTables.refl s)
  · split
    · exact done _ _ _ _ (onlyTables_tlbInstall ..)
    · split
      · rename_i hw
        rw [hw] at walk
        exact walk
      · rename_i hw
        rw [hw] at walk
        split
        · exact OnlyTables.trans walk (onlyTables_tlbInstall _ core acc.x _ true)
        · exact walk

@[simp] theorem tlbInstall_mem (s : State) (core : Nat) (fetch : Bool) (e : TlbEntry) (second : Bool) :
    (s.tlbInstall core fetch e second).mem = s.mem := by
  unfold State.tlbInstall
  cases second <;> rfl

/-- A translation that succeeds leaves memory as it is on a TLB hit, and else as the walk does. -/
theorem translate_memory {s u : State} {core vf asid va : Nat} {priv : Bool} {acc : Acc} {x : Xl}
    (h : s.translate core vf asid priv va acc = (u, .ok x)) :
    (s.tlbHit core vf asid va acc = true → u.mem = s.mem) ∧
    (s.tlbHit core vf asid va acc = false → State.WalkMarks u vf asid va acc s.dirtyLines s) := by
  have done : ∀ (t : State) (pte : W64) (y z : Except FaultInfo Xl), (if leafAllows pte acc priv then (t, y) else (t, z)) = (u, Except.ok x) → u = t := by
    intro t pte y z h
    split at h <;> cases h <;> rfl
  unfold State.translate at h
  unfold State.tlbHit
  dsimp only at h
  split at h
  · rename_i hit
    rw [hit]
    exact ⟨fun _ => by rw [done _ _ _ _ h], fun h' => by simp at h'⟩
  · rename_i miss
    rw [miss]
    split at h
    · rename_i hit
      rw [hit]
      exact ⟨fun _ => by rw [done _ _ _ _ h, tlbInstall_mem], fun h' => by simp at h'⟩
    · rename_i miss2
      rw [miss2]
      refine ⟨fun h' => by simp at h', fun _ => ?_⟩
      split at h
      · cases h
      · rename_i v pte at_ shift hw
        by_cases hl : leafAllows pte acc priv = true
        · rw [if_pos hl, if_pos hl] at h
          have hm := walkMarks_walkedIn s.dirtyLines hw hl
          have hu : u.mem = v.mem := by
            cases h
            exact tlbInstall_mem ..
          exact walkMarks_mem hu hm
        · rw [if_neg hl, if_neg hl] at h
          cases h

/-- An outcome of the checks that leaves all but tables. -/
def Checked.Keeps (s : State) : Checked → Prop
  | .ok u _ _ => OnlyTables s u
  | .page u _ => OnlyTables s u
  | .trap _ _ => True

/-- The checks of an address change no more, whatever comes of them. -/
theorem checkAccess_keeps (s : State) (ctx a size : Nat) (acc : Acc) (tagged : Bool) :
    (s.checkAccess ctx a size acc tagged).Keeps s := by
  have ht := onlyTables_translate s (coreOf ctx) (s.vfOf ctx) (s.ctx ctx).asid (s.ctx ctx).privileged a acc
  have key : ∀ (r : Option Cause) (k : Checked), k.Keeps s →
      (match r with
        | some (n, v) => Checked.trap n v
        | none => k).Keeps s := by
    intro r k hk
    cases r with
    | some p => trivial
    | none => exact hk
  have ok : ∀ x b, (Checked.ok s x b).Keeps s := fun _ _ => OnlyTables.refl s
  unfold State.checkAccess
  dsimp only
  apply key
  cases placeOf a with
  | unmapped => trivial
  | translated =>
    apply key
    revert ht
    generalize s.translate (coreOf ctx) (s.vfOf ctx) (s.ctx ctx).asid (s.ctx ctx).privileged a acc = r
    obtain ⟨u, e⟩ := r
    intro hu
    cases e with
    | error f =>
      dsimp only
      split
      · exact hu
      · trivial
    | ok x => exact hu
  | local_ o => exact key _ _ (key _ _ (key _ _ (ok _ _)))
  | mesh i o => exact key _ _ (key _ _ (key _ _ (ok _ _)))
  | sram i o => exact key _ _ (key _ _ (ok _ _))
  | weight d o => exact key _ _ (key _ _ (ok _ _))

/-- An access of the issuing context that passes its checks leaves memory as `State.Marks` says. -/
theorem checkAccess_memory {s u : State} {a size : Nat} {acc : Acc} {tagged al : Bool} {x : Xl}
    (h : s.checkAccess s.cur a size acc tagged = .ok u x al) : s.Marks u a acc := by
  have key : ∀ (r : Option Cause) (k : Checked) (P : Prop), (k = .ok u x al → P) →
      (match r with
        | some (n, v) => Checked.trap n v
        | none => k) = .ok u x al → P := by
    intro r k P hk
    cases r with
    | some p => intro h; cases h
    | none => exact hk
  have done : ∀ (y : Xl) (b : Bool), Checked.ok s y b = .ok u x al → u.mem = s.mem := fun _ _ h => by cases h; rfl
  have window : placeOf a ≠ .translated → u.mem = s.mem → s.Marks u a acc := fun hp hu => ⟨fun _ => hu, fun h' => absurd h' hp⟩
  revert h
  unfold State.checkAccess
  dsimp only
  apply key
  cases hp : placeOf a with
  | unmapped => intro h; cases h
  | translated =>
    apply key
    intro h
    have ht := @translate_memory s u (coreOf s.cur) (s.vfOf s.cur) (s.ctx s.cur).asid a (s.ctx s.cur).privileged acc x
    revert ht h
    generalize s.translate (coreOf s.cur) (s.vfOf s.cur) (s.ctx s.cur).asid (s.ctx s.cur).privileged a acc = r
    obtain ⟨v, e⟩ := r
    intro h ht
    cases e with
    | error f =>
      dsimp only at h
      split at h <;> cases h
    | ok y =>
      cases h
      obtain ⟨h1, h2⟩ := ht rfl
      exact ⟨fun h' => h1 (h'.resolve_left fun h' => h' hp), fun _ => h2⟩
  | local_ o => exact key _ _ _ (key _ _ _ (key _ _ _ fun h => window (by rw [hp]; simp) (done _ _ h)))
  | mesh i o => exact key _ _ _ (key _ _ _ (key _ _ _ fun h => window (by rw [hp]; simp) (done _ _ h)))
  | sram i o => exact key _ _ _ (key _ _ _ fun h => window (by rw [hp]; simp) (done _ _ h))
  | weight d o => exact key _ _ _ (key _ _ _ fun h => window (by rw [hp]; simp) (done _ _ h))

end Sys2Proof.Machine
end

