-- ==== Sys2Proof/Laws/Decode.lean ====
section
/-! SUPPORT. Laws of the decoder and the encoder: what a major keeps, and that fields packed into a word come out again. -/

namespace Sys2Proof.Laws

theorem keep_self (r : Raw) (i : Instr) : keep r r i = .ok i := by simp [keep]

theorem keep_eq {r : Raw} {i : Instr} (used : Raw) (j : Instr) (hu : used = r) (hj : j = i) : keep r used j = keep r r i := by
  subst hu hj
  rfl

/-- A major that keeps every field decodes to its instruction. -/
theorem decodeRaw_of {r : Raw} {i : Instr} (h : majors.getD r.op.toNat illegalMajor r = keep r r i) (w : i.wf = true) :
    decodeRaw r = .ok i := by
  rw [keep_self] at h
  unfold decodeRaw
  rw [h]
  simp [w]

/-- The number that `n` bits from position `p` up hold. -/
theorem extract_toNat {w : Nat} (x : BitVec w) (p n : Nat) : (x.extractLsb' p n).toNat = x.toNat / 2 ^ p % 2 ^ n := by
  simp [BitVec.extractLsb'_toNat, Nat.shiftRight_eq_div_pow]

/-- The high part of an append. -/
theorem extract_high {m n : Nat} (x : BitVec m) (y : BitVec n) : (x ++ y).extractLsb' n m = x := by
  simp [BitVec.extractLsb'_append_eq_left]

/-- The low part of an append. -/
theorem extract_low {m n : Nat} (x : BitVec m) (y : BitVec n) : (x ++ y).extractLsb' 0 n = y := by
  simp [BitVec.extractLsb'_append_eq_right]

theorem join8 (x : Byte) : hi8 x ++ lo8 x = x := by
  apply BitVec.eq_of_getLsbD_eq
  intro k hk
  simp only [hi8, lo8, BitVec.getLsbD_append, BitVec.getLsbD_extractLsb']
  split <;> simp <;> grind

theorem join14 (x : BitVec 14) : hi14 x ++ mid14 x ++ lo14 x = x := by
  apply BitVec.eq_of_getLsbD_eq
  intro k hk
  simp only [hi14, mid14, lo14, BitVec.getLsbD_append, BitVec.getLsbD_extractLsb']
  split <;> [skip; split] <;> simp <;> grind

theorem join20 (x : BitVec 20) : hi20 x ++ b20 x ++ a20 x ++ lo20 x = x := by
  apply BitVec.eq_of_getLsbD_eq
  intro k hk
  simp only [hi20, b20, a20, lo20, BitVec.getLsbD_append, BitVec.getLsbD_extractLsb']
  split <;> [skip; split <;> [skip; split]] <;> simp <;> grind

/-- A field of a packed word, by its number. -/
theorem unpack {n : Nat} (l : List (Nat × Nat)) (p : Nat) (x : BitVec n) (h : packSum l % 2 ^ 32 / 2 ^ p % 2 ^ n = x.toNat) :
    (packImm l).extractLsb' p n = x := by
  apply BitVec.eq_of_toNat_eq
  rw [extract_toNat, packImm, BitVec.toNat_ofNat, h]

end Sys2Proof.Laws
end

