-- ==== Sys2Proof/Laws/Exec.lean ====
section
/-! SUPPORT. Which meaning `exec` calls, one lemma per constructor. -/

namespace Sys2Proof.Machine

@[simp] theorem exec_powerOnReset (s : State) : exec (.powerOnReset) s = execPowerOnReset s := rfl
@[simp] theorem exec_bootRomVerify (s : State) : exec (.bootRomVerify) s = execBootRomVerify s := rfl
@[simp] theorem exec_firstStageBoot (s : State) : exec (.firstStageBoot) s = execFirstStageBoot s := rfl
@[simp] theorem exec_cleozLoading (s : State) : exec (.cleozLoading) s = execCleozLoading s := rfl
@[simp] theorem exec_computeRelease (s : State) : exec (.computeRelease) s = execComputeRelease s := rfl
@[simp] theorem exec_attestationRequest (s : State) : exec (.attestationRequest) s = execAttestationRequest s := rfl
@[simp] theorem exec_thermalTrip temp (s : State) : exec (.thermalTrip temp) s = execThermalTrip temp s := rfl
@[simp] theorem exec_i3cReset (s : State) : exec (.i3cReset) s = execI3cReset s := rfl
@[simp] theorem exec_throttleStep die temp excess (s : State) : exec (.throttleStep die temp excess) s = execThrottleStep die temp excess s := rfl
@[simp] theorem exec_powerModeChange (s : State) : exec (.powerModeChange) s = execPowerModeChange s := rfl
@[simp] theorem exec_ethernetFrame port frame (s : State) : exec (.ethernetFrame port frame) s = execEthernetFrame port frame s := rfl
@[simp] theorem exec_cxlPortTrain port rate kind (s : State) : exec (.cxlPortTrain port rate kind) s = execCxlPortTrain port rate kind s := rfl
@[simp] theorem exec_cxlLinkDown port (s : State) : exec (.cxlLinkDown port) s = execCxlLinkDown port s := rfl
@[simp] theorem exec_towlineTrain port lanes partner (s : State) : exec (.towlineTrain port lanes partner) s = execTowlineTrain port lanes partner s := rfl
@[simp] theorem exec_towlineMessage msg target (s : State) : exec (.towlineMessage msg target) s = execTowlineMessage msg target s := rfl
@[simp] theorem exec_towlineReissue id (s : State) : exec (.towlineReissue id) s = execTowlineReissue id s := rfl
@[simp] theorem exec_stretchNotice win (s : State) : exec (.stretchNotice win) s = execStretchNotice win s := rfl
@[simp] theorem exec_refreshAdvance die (s : State) : exec (.refreshAdvance die) s = execRefreshAdvance die s := rfl
@[simp] theorem exec_quietSweep (s : State) : exec (.quietSweep) s = execQuietSweep s := rfl
@[simp] theorem exec_homeAccess id (s : State) : exec (.homeAccess id) s = execHomeAccess id s := rfl
@[simp] theorem exec_storeAck id (s : State) : exec (.storeAck id) s = execStoreAck id s := rfl
@[simp] theorem exec_tagWaitTimeout id (s : State) : exec (.tagWaitTimeout id) s = execTagWaitTimeout id s := rfl
@[simp] theorem exec_barrierWaitTimeout core slot (s : State) : exec (.barrierWaitTimeout core slot) s = execBarrierWaitTimeout core slot s := rfl
@[simp] theorem exec_joinLimitExpire core slot (s : State) : exec (.joinLimitExpire core slot) s = execJoinLimitExpire core slot s := rfl
@[simp] theorem exec_backoffReissue id (s : State) : exec (.backoffReissue id) s = execBackoffReissue id s := rfl
@[simp] theorem exec_cacheEviction cluster line (s : State) : exec (.cacheEviction cluster line) s = execCacheEviction cluster line s := rfl
@[simp] theorem exec_helperLive core slot (s : State) : exec (.helperLive core slot) s = execHelperLive core slot s := rfl
@[simp] theorem exec_helperCloseEnd core slot (s : State) : exec (.helperCloseEnd core slot) s = execHelperCloseEnd core slot s := rfl
@[simp] theorem exec_faultSave core slot (s : State) : exec (.faultSave core slot) s = execFaultSave core slot s := rfl
@[simp] theorem exec_faultRecordDrain cluster (s : State) : exec (.faultRecordDrain cluster) s = execFaultRecordDrain cluster s := rfl
@[simp] theorem exec_migration core slot (s : State) : exec (.migration core slot) s = execMigration core slot s := rfl
@[simp] theorem exec_helperRestore frame (s : State) : exec (.helperRestore frame) s = execHelperRestore frame s := rfl
@[simp] theorem exec_chunkRequest cluster handle (s : State) : exec (.chunkRequest cluster handle) s = execChunkRequest cluster handle s := rfl
@[simp] theorem exec_chunkGrant die (s : State) : exec (.chunkGrant die) s = execChunkGrant die s := rfl
@[simp] theorem exec_placementGrant die (s : State) : exec (.placementGrant die) s = execPlacementGrant die s := rfl
@[simp] theorem exec_groupComplete handle group (s : State) : exec (.groupComplete handle group) s = execGroupComplete handle group s := rfl
@[simp] theorem exec_launchReady handle (s : State) : exec (.launchReady handle) s = execLaunchReady handle s := rfl
@[simp] theorem exec_launchDependenceFail handle (s : State) : exec (.launchDependenceFail handle) s = execLaunchDependenceFail handle s := rfl
@[simp] theorem exec_launchEnd handle (s : State) : exec (.launchEnd handle) s = execLaunchEnd handle s := rfl
@[simp] theorem exec_splitChange cluster (s : State) : exec (.splitChange cluster) s = execSplitChange cluster s := rfl
@[simp] theorem exec_serveWrite word val (s : State) : exec (.serveWrite word val) s = execServeWrite word val s := rfl
@[simp] theorem exec_serveWithdraw cluster (s : State) : exec (.serveWithdraw cluster) s = execServeWithdraw cluster s := rfl
@[simp] theorem exec_priorityRaise handle (s : State) : exec (.priorityRaise handle) s = execPriorityRaise handle s := rfl
@[simp] theorem exec_priorityWithdraw handle (s : State) : exec (.priorityWithdraw handle) s = execPriorityWithdraw handle s := rfl
@[simp] theorem exec_preemption die (s : State) : exec (.preemption die) s = execPreemption die s := rfl
@[simp] theorem exec_quantumExpire (s : State) : exec (.quantumExpire) s = execQuantumExpire s := rfl
@[simp] theorem exec_earlySliceEnd (s : State) : exec (.earlySliceEnd) s = execEarlySliceEnd s := rfl
@[simp] theorem exec_sliceSwitch (s : State) : exec (.sliceSwitch) s = execSliceSwitch s := rfl
@[simp] theorem exec_engineCommandTake core ctr (s : State) : exec (.engineCommandTake core ctr) s = execEngineCommandTake core ctr s := rfl
@[simp] theorem exec_engineOpComplete core ctr (s : State) : exec (.engineOpComplete core ctr) s = execEngineOpComplete core ctr s := rfl
@[simp] theorem exec_engineFault core ctr (s : State) : exec (.engineFault core ctr) s = execEngineFault core ctr s := rfl
@[simp] theorem exec_vectorCommandStart core (s : State) : exec (.vectorCommandStart core) s = execVectorCommandStart core s := rfl
@[simp] theorem exec_vectorCommandDone core slot (s : State) : exec (.vectorCommandDone core slot) s = execVectorCommandDone core slot s := rfl
@[simp] theorem exec_messageArrive slice (s : State) : exec (.messageArrive slice) s = execMessageArrive slice s := rfl
@[simp] theorem exec_sliceInputStallAlert slice (s : State) : exec (.sliceInputStallAlert slice) s = execSliceInputStallAlert slice s := rfl
@[simp] theorem exec_mooringComplete cls key (s : State) : exec (.mooringComplete cls key) s = execMooringComplete cls key s := rfl
@[simp] theorem exec_mailboxSlotFreed cls key (s : State) : exec (.mailboxSlotFreed cls key) s = execMailboxSlotFreed cls key s := rfl
@[simp] theorem exec_layupRequest core (s : State) : exec (.layupRequest core) s = execLayupRequest core s := rfl
@[simp] theorem exec_unmoorOrder cls key (s : State) : exec (.unmoorOrder cls key) s = execUnmoorOrder cls key s := rfl
@[simp] theorem exec_unmoorComplete cls key (s : State) : exec (.unmoorComplete cls key) s = execUnmoorComplete cls key s := rfl
@[simp] theorem exec_idleLimitExpire cls key (s : State) : exec (.idleLimitExpire cls key) s = execIdleLimitExpire cls key s := rfl
@[simp] theorem exec_shiftComplete cls key (s : State) : exec (.shiftComplete cls key) s = execShiftComplete cls key s := rfl
@[simp] theorem exec_sluiceStamp group (s : State) : exec (.sluiceStamp group) s = execSluiceStamp group s := rfl
@[simp] theorem exec_sluiceApply group (s : State) : exec (.sluiceApply group) s = execSluiceApply group s := rfl
@[simp] theorem exec_groupActivate group (s : State) : exec (.groupActivate group) s = execGroupActivate group s := rfl
@[simp] theorem exec_groupReconfigure group (s : State) : exec (.groupReconfigure group) s = execGroupReconfigure group s := rfl
@[simp] theorem exec_groupResynchronise group (s : State) : exec (.groupResynchronise group) s = execGroupResynchronise group s := rfl
@[simp] theorem exec_groupDelete group (s : State) : exec (.groupDelete group) s = execGroupDelete group s := rfl
@[simp] theorem exec_blockRinse stack pool index fails (s : State) : exec (.blockRinse stack pool index fails) s = execBlockRinse stack pool index fails s := rfl
@[simp] theorem exec_patrolScrub loc seen (s : State) : exec (.patrolScrub loc seen) s = execPatrolScrub loc seen s := rfl
@[simp] theorem exec_uncorrectableError site (s : State) : exec (.uncorrectableError site) s = execUncorrectableError site s := rfl
@[simp] theorem exec_shootdown (s : State) : exec (.shootdown) s = execShootdown s := rfl
@[simp] theorem exec_shootdownDone (s : State) : exec (.shootdownDone) s = execShootdownDone s := rfl
@[simp] theorem exec_resumeContext val (s : State) : exec (.resumeContext val) s = execResumeContext val s := rfl
@[simp] theorem exec_resumeEnd val (s : State) : exec (.resumeEnd val) s = execResumeEnd val s := rfl
@[simp] theorem exec_engactRetry core ctr (s : State) : exec (.engactRetry core ctr) s = execEngactRetry core ctr s := rfl
@[simp] theorem exec_engactAbandon core ctr (s : State) : exec (.engactAbandon core ctr) s = execEngactAbandon core ctr s := rfl
@[simp] theorem exec_operandRecordInvalidate val (s : State) : exec (.operandRecordInvalidate val) s = execOperandRecordInvalidate val s := rfl
@[simp] theorem exec_keyGenerate slot (s : State) : exec (.keyGenerate slot) s = execKeyGenerate slot s := rfl
@[simp] theorem exec_keyDestroy slot (s : State) : exec (.keyDestroy slot) s = execKeyDestroy slot s := rfl
@[simp] theorem exec_wsLoadingEnter die (s : State) : exec (.wsLoadingEnter die) s = execWsLoadingEnter die s := rfl
@[simp] theorem exec_wsLoadingLeave die (s : State) : exec (.wsLoadingLeave die) s = execWsLoadingLeave die s := rfl
@[simp] theorem exec_poolEnable stack pool (s : State) : exec (.poolEnable stack pool) s = execPoolEnable stack pool s := rfl
@[simp] theorem exec_poolDisable stack pool (s : State) : exec (.poolDisable stack pool) s = execPoolDisable stack pool s := rfl
@[simp] theorem exec_classRegister cls (s : State) : exec (.classRegister cls) s = execClassRegister cls s := rfl
@[simp] theorem exec_classWithdraw cls (s : State) : exec (.classWithdraw cls) s = execClassWithdraw cls s := rfl
@[simp] theorem exec_classWithdrawDone cls (s : State) : exec (.classWithdrawDone cls) s = execClassWithdrawDone cls s := rfl
@[simp] theorem exec_directoryResume dir (s : State) : exec (.directoryResume dir) s = execDirectoryResume dir s := rfl
@[simp] theorem exec_journalControl val (s : State) : exec (.journalControl val) s = execJournalControl val s := rfl
@[simp] theorem exec_registerWrite addr val (s : State) : exec (.registerWrite addr val) s = execRegisterWrite addr val s := rfl
@[simp] theorem exec_add d a b st (s : State) : exec (.add d a b st) s = execAdd d a b st s := rfl
@[simp] theorem exec_sub d a b st (s : State) : exec (.sub d a b st) s = execSub d a b st s := rfl
@[simp] theorem exec_addw d a b st (s : State) : exec (.addw d a b st) s = execAddw d a b st s := rfl
@[simp] theorem exec_subw d a b st (s : State) : exec (.subw d a b st) s = execSubw d a b st s := rfl
@[simp] theorem exec_mul d a b st (s : State) : exec (.mul d a b st) s = execMul d a b st s := rfl
@[simp] theorem exec_mulh d a b st (s : State) : exec (.mulh d a b st) s = execMulh d a b st s := rfl
@[simp] theorem exec_mulhz d a b st (s : State) : exec (.mulhz d a b st) s = execMulhz d a b st s := rfl
@[simp] theorem exec_mulw d a b st (s : State) : exec (.mulw d a b st) s = execMulw d a b st s := rfl
@[simp] theorem exec_div d a b st (s : State) : exec (.div d a b st) s = execDiv d a b st s := rfl
@[simp] theorem exec_divz d a b st (s : State) : exec (.divz d a b st) s = execDivz d a b st s := rfl
@[simp] theorem exec_rem d a b st (s : State) : exec (.rem d a b st) s = execRem d a b st s := rfl
@[simp] theorem exec_remz d a b st (s : State) : exec (.remz d a b st) s = execRemz d a b st s := rfl
@[simp] theorem exec_and d a b st (s : State) : exec (.and d a b st) s = execAnd d a b st s := rfl
@[simp] theorem exec_or d a b st (s : State) : exec (.or d a b st) s = execOr d a b st s := rfl
@[simp] theorem exec_xor d a b st (s : State) : exec (.xor d a b st) s = execXor d a b st s := rfl
@[simp] theorem exec_andn d a b st (s : State) : exec (.andn d a b st) s = execAndn d a b st s := rfl
@[simp] theorem exec_shl d a b st (s : State) : exec (.shl d a b st) s = execShl d a b st s := rfl
@[simp] theorem exec_shr d a b st (s : State) : exec (.shr d a b st) s = execShr d a b st s := rfl
@[simp] theorem exec_shra d a b st (s : State) : exec (.shra d a b st) s = execShra d a b st s := rfl
@[simp] theorem exec_ror d a b st (s : State) : exec (.ror d a b st) s = execRor d a b st s := rfl
@[simp] theorem exec_slt d a b st (s : State) : exec (.slt d a b st) s = execSlt d a b st s := rfl
@[simp] theorem exec_sltz d a b st (s : State) : exec (.sltz d a b st) s = execSltz d a b st s := rfl
@[simp] theorem exec_seq d a b st (s : State) : exec (.seq d a b st) s = execSeq d a b st s := rfl
@[simp] theorem exec_sne d a b st (s : State) : exec (.sne d a b st) s = execSne d a b st s := rfl
@[simp] theorem exec_min d a b st (s : State) : exec (.min d a b st) s = execMin d a b st s := rfl
@[simp] theorem exec_max d a b st (s : State) : exec (.max d a b st) s = execMax d a b st s := rfl
@[simp] theorem exec_minz d a b st (s : State) : exec (.minz d a b st) s = execMinz d a b st s := rfl
@[simp] theorem exec_maxz d a b st (s : State) : exec (.maxz d a b st) s = execMaxz d a b st s := rfl
@[simp] theorem exec_clz d a st (s : State) : exec (.clz d a st) s = execClz d a st s := rfl
@[simp] theorem exec_ctz d a st (s : State) : exec (.ctz d a st) s = execCtz d a st s := rfl
@[simp] theorem exec_popc d a st (s : State) : exec (.popc d a st) s = execPopc d a st s := rfl
@[simp] theorem exec_brev d a st (s : State) : exec (.brev d a st) s = execBrev d a st s := rfl
@[simp] theorem exec_sel d a b c st (s : State) : exec (.sel d a b c st) s = execSel d a b c st s := rfl
@[simp] theorem exec_bfxs d a p n st (s : State) : exec (.bfxs d a p n st) s = execBfxs d a p n st s := rfl
@[simp] theorem exec_bfxz d a p n st (s : State) : exec (.bfxz d a p n st) s = execBfxz d a p n st s := rfl
@[simp] theorem exec_bfins d a b p n st (s : State) : exec (.bfins d a b p n st) s = execBfins d a b p n st s := rfl
@[simp] theorem exec_lea d a b k st (s : State) : exec (.lea d a b k st) s = execLea d a b k st s := rfl
@[simp] theorem exec_fadd d a b st (s : State) : exec (.fadd d a b st) s = execFadd d a b st s := rfl
@[simp] theorem exec_fsub d a b st (s : State) : exec (.fsub d a b st) s = execFsub d a b st s := rfl
@[simp] theorem exec_fmul d a b st (s : State) : exec (.fmul d a b st) s = execFmul d a b st s := rfl
@[simp] theorem exec_fdiv d a b st (s : State) : exec (.fdiv d a b st) s = execFdiv d a b st s := rfl
@[simp] theorem exec_fmin d a b st (s : State) : exec (.fmin d a b st) s = execFmin d a b st s := rfl
@[simp] theorem exec_fmax d a b st (s : State) : exec (.fmax d a b st) s = execFmax d a b st s := rfl
@[simp] theorem exec_fsqrt d a st (s : State) : exec (.fsqrt d a st) s = execFsqrt d a st s := rfl
@[simp] theorem exec_ffma d a b c st (s : State) : exec (.ffma d a b c st) s = execFfma d a b c st s := rfl
@[simp] theorem exec_flt d a b st (s : State) : exec (.flt d a b st) s = execFlt d a b st s := rfl
@[simp] theorem exec_fle d a b st (s : State) : exec (.fle d a b st) s = execFle d a b st s := rfl
@[simp] theorem exec_feq d a b st (s : State) : exec (.feq d a b st) s = execFeq d a b st s := rfl
@[simp] theorem exec_fclass d a st (s : State) : exec (.fclass d a st) s = execFclass d a st s := rfl
@[simp] theorem exec_fcvtif d a st (s : State) : exec (.fcvtif d a st) s = execFcvtif d a st s := rfl
@[simp] theorem exec_fcvtifX d a fmt st (s : State) : exec (.fcvtifX d a fmt st) s = execFcvtifX d a fmt st s := rfl
@[simp] theorem exec_fcvtfi d a st (s : State) : exec (.fcvtfi d a st) s = execFcvtfi d a st s := rfl
@[simp] theorem exec_fcvtfiX d a fmt st (s : State) : exec (.fcvtfiX d a fmt st) s = execFcvtfiX d a fmt st s := rfl
@[simp] theorem exec_fcvth d a fmt sat st (s : State) : exec (.fcvth d a fmt sat st) s = execFcvth d a fmt sat st s := rfl
@[simp] theorem exec_fcvte d a fmt st (s : State) : exec (.fcvte d a fmt st) s = execFcvte d a fmt st s := rfl
@[simp] theorem exec_addi d a imm8 st (s : State) : exec (.addi d a imm8 st) s = execAddi d a imm8 st s := rfl
@[simp] theorem exec_addiLit d a lit st (s : State) : exec (.addiLit d a lit st) s = execAddiLit d a lit st s := rfl
@[simp] theorem exec_andi d a imm8 st (s : State) : exec (.andi d a imm8 st) s = execAndi d a imm8 st s := rfl
@[simp] theorem exec_andiLit d a lit st (s : State) : exec (.andiLit d a lit st) s = execAndiLit d a lit st s := rfl
@[simp] theorem exec_ori d a imm8 st (s : State) : exec (.ori d a imm8 st) s = execOri d a imm8 st s := rfl
@[simp] theorem exec_oriLit d a lit st (s : State) : exec (.oriLit d a lit st) s = execOriLit d a lit st s := rfl
@[simp] theorem exec_xori d a imm8 st (s : State) : exec (.xori d a imm8 st) s = execXori d a imm8 st s := rfl
@[simp] theorem exec_xoriLit d a lit st (s : State) : exec (.xoriLit d a lit st) s = execXoriLit d a lit st s := rfl
@[simp] theorem exec_shli d a imm8 st (s : State) : exec (.shli d a imm8 st) s = execShli d a imm8 st s := rfl
@[simp] theorem exec_shliLit d a lit st (s : State) : exec (.shliLit d a lit st) s = execShliLit d a lit st s := rfl
@[simp] theorem exec_shri d a imm8 st (s : State) : exec (.shri d a imm8 st) s = execShri d a imm8 st s := rfl
@[simp] theorem exec_shriLit d a lit st (s : State) : exec (.shriLit d a lit st) s = execShriLit d a lit st s := rfl
@[simp] theorem exec_shrai d a imm8 st (s : State) : exec (.shrai d a imm8 st) s = execShrai d a imm8 st s := rfl
@[simp] theorem exec_shraiLit d a lit st (s : State) : exec (.shraiLit d a lit st) s = execShraiLit d a lit st s := rfl
@[simp] theorem exec_slti d a imm8 st (s : State) : exec (.slti d a imm8 st) s = execSlti d a imm8 st s := rfl
@[simp] theorem exec_sltiLit d a lit st (s : State) : exec (.sltiLit d a lit st) s = execSltiLit d a lit st s := rfl
@[simp] theorem exec_sltzi d a imm8 st (s : State) : exec (.sltzi d a imm8 st) s = execSltzi d a imm8 st s := rfl
@[simp] theorem exec_sltziLit d a lit st (s : State) : exec (.sltziLit d a lit st) s = execSltziLit d a lit st s := rfl
@[simp] theorem exec_muli d a imm8 st (s : State) : exec (.muli d a imm8 st) s = execMuli d a imm8 st s := rfl
@[simp] theorem exec_muliLit d a lit st (s : State) : exec (.muliLit d a lit st) s = execMuliLit d a lit st s := rfl
@[simp] theorem exec_li d imm14 st (s : State) : exec (.li d imm14 st) s = execLi d imm14 st s := rfl
@[simp] theorem exec_liLit d lit st (s : State) : exec (.liLit d lit st) s = execLiLit d lit st s := rfl
@[simp] theorem exec_br off20 st (s : State) : exec (.br off20 st) s = execBr off20 st s := rfl
@[simp] theorem exec_beqz d off14 st (s : State) : exec (.beqz d off14 st) s = execBeqz d off14 st s := rfl
@[simp] theorem exec_bnez d off14 st (s : State) : exec (.bnez d off14 st) s = execBnez d off14 st s := rfl
@[simp] theorem exec_bltz d off14 st (s : State) : exec (.bltz d off14 st) s = execBltz d off14 st s := rfl
@[simp] theorem exec_bgez d off14 st (s : State) : exec (.bgez d off14 st) s = execBgez d off14 st s := rfl
@[simp] theorem exec_beq a b imm st (s : State) : exec (.beq a b imm st) s = execBeq a b imm st s := rfl
@[simp] theorem exec_bne a b imm st (s : State) : exec (.bne a b imm st) s = execBne a b imm st s := rfl
@[simp] theorem exec_blt a b imm st (s : State) : exec (.blt a b imm st) s = execBlt a b imm st s := rfl
@[simp] theorem exec_blo a b imm st (s : State) : exec (.blo a b imm st) s = execBlo a b imm st s := rfl
@[simp] theorem exec_call off20 st (s : State) : exec (.call off20 st) s = execCall off20 st s := rfl
@[simp] theorem exec_callr d a st (s : State) : exec (.callr d a st) s = execCallr d a st s := rfl
@[simp] theorem exec_jmpr a st (s : State) : exec (.jmpr a st) s = execJmpr a st s := rfl
@[simp] theorem exec_ret st (s : State) : exec (.ret st) s = execRet st s := rfl
@[simp] theorem exec_start d a b st (s : State) : exec (.start d a b st) s = execStart d a b st s := rfl
@[simp] theorem exec_startX d a b c w mig st (s : State) : exec (.startX d a b c w mig st) s = execStartX d a b c w mig st s := rfl
@[simp] theorem exec_startm d st (s : State) : exec (.startm d st) s = execStartm d st s := rfl
@[simp] theorem exec_startmX d cls has st (s : State) : exec (.startmX d cls has st) s = execStartmX d cls has st s := rfl
@[simp] theorem exec_startw d a st (s : State) : exec (.startw d a st) s = execStartw d a st s := rfl
@[simp] theorem exec_startwX d a mig st (s : State) : exec (.startwX d a mig st) s = execStartwX d a mig st s := rfl
@[simp] theorem exec_finish st (s : State) : exec (.finish st) s = execFinish st s := rfl
@[simp] theorem exec_fail a st (s : State) : exec (.fail a st) s = execFail a st s := rfl
@[simp] theorem exec_idle st (s : State) : exec (.idle st) s = execIdle st s := rfl
@[simp] theorem exec_join d a st (s : State) : exec (.join d a st) s = execJoin d a st s := rfl
@[simp] theorem exec_joinX d a imm st (s : State) : exec (.joinX d a imm st) s = execJoinX d a imm st s := rfl
@[simp] theorem exec_joinany d st (s : State) : exec (.joinany d st) s = execJoinany d st s := rfl
@[simp] theorem exec_joinanyX d imm st (s : State) : exec (.joinanyX d imm st) s = execJoinanyX d imm st s := rfl
@[simp] theorem exec_hstat d a st (s : State) : exec (.hstat d a st) s = execHstat d a st s := rfl
@[simp] theorem exec_hstatX d a st (s : State) : exec (.hstatX d a st) s = execHstatX d a st s := rfl
@[simp] theorem exec_popw d a st (s : State) : exec (.popw d a st) s = execPopw d a st s := rfl
@[simp] theorem exec_pushw d a st (s : State) : exec (.pushw d a st) s = execPushw d a st s := rfl
@[simp] theorem exec_launch d a st (s : State) : exec (.launch d a st) s = execLaunch d a st s := rfl
@[simp] theorem exec_launchX d a imm st (s : State) : exec (.launchX d a imm st) s = execLaunchX d a imm st s := rfl
@[simp] theorem exec_lwait d a st (s : State) : exec (.lwait d a st) s = execLwait d a st s := rfl
@[simp] theorem exec_lwaitX d a e st (s : State) : exec (.lwaitX d a e st) s = execLwaitX d a e st s := rfl
@[simp] theorem exec_widf d a b st (s : State) : exec (.widf d a b st) s = execWidf d a b st s := rfl
@[simp] theorem exec_widr d a b st (s : State) : exec (.widr d a b st) s = execWidr d a b st s := rfl
@[simp] theorem exec_mfk d a st (s : State) : exec (.mfk d a st) s = execMfk d a st s := rfl
@[simp] theorem exec_mtk d a st (s : State) : exec (.mtk d a st) s = execMtk d a st s := rfl
@[simp] theorem exec_trap a st (s : State) : exec (.trap a st) s = execTrap a st s := rfl
@[simp] theorem exec_brk st (s : State) : exec (.brk st) s = execBrk st s := rfl
@[simp] theorem exec_sysc d a st (s : State) : exec (.sysc d a st) s = execSysc d a st s := rfl
@[simp] theorem exec_eret st (s : State) : exec (.eret st) s = execEret st s := rfl
@[simp] theorem exec_ldb d a imm8 st (s : State) : exec (.ldb d a imm8 st) s = execLdb d a imm8 st s := rfl
@[simp] theorem exec_ldbLit d a lit st (s : State) : exec (.ldbLit d a lit st) s = execLdbLit d a lit st s := rfl
@[simp] theorem exec_ldbX d a sc od sy ph imm st (s : State) : exec (.ldbX d a sc od sy ph imm st) s = execLdbX d a sc od sy ph imm st s := rfl
@[simp] theorem exec_ldbXlit d a sc od sy ph lit st (s : State) : exec (.ldbXlit d a sc od sy ph lit st) s = execLdbXlit d a sc od sy ph lit st s := rfl
@[simp] theorem exec_ldbz d a imm8 st (s : State) : exec (.ldbz d a imm8 st) s = execLdbz d a imm8 st s := rfl
@[simp] theorem exec_ldbzLit d a lit st (s : State) : exec (.ldbzLit d a lit st) s = execLdbzLit d a lit st s := rfl
@[simp] theorem exec_ldbzX d a sc od sy ph imm st (s : State) : exec (.ldbzX d a sc od sy ph imm st) s = execLdbzX d a sc od sy ph imm st s := rfl
@[simp] theorem exec_ldbzXlit d a sc od sy ph lit st (s : State) : exec (.ldbzXlit d a sc od sy ph lit st) s = execLdbzXlit d a sc od sy ph lit st s := rfl
@[simp] theorem exec_ldh d a imm8 st (s : State) : exec (.ldh d a imm8 st) s = execLdh d a imm8 st s := rfl
@[simp] theorem exec_ldhLit d a lit st (s : State) : exec (.ldhLit d a lit st) s = execLdhLit d a lit st s := rfl
@[simp] theorem exec_ldhX d a sc od sy ph imm st (s : State) : exec (.ldhX d a sc od sy ph imm st) s = execLdhX d a sc od sy ph imm st s := rfl
@[simp] theorem exec_ldhXlit d a sc od sy ph lit st (s : State) : exec (.ldhXlit d a sc od sy ph lit st) s = execLdhXlit d a sc od sy ph lit st s := rfl
@[simp] theorem exec_ldhz d a imm8 st (s : State) : exec (.ldhz d a imm8 st) s = execLdhz d a imm8 st s := rfl
@[simp] theorem exec_ldhzLit d a lit st (s : State) : exec (.ldhzLit d a lit st) s = execLdhzLit d a lit st s := rfl
@[simp] theorem exec_ldhzX d a sc od sy ph imm st (s : State) : exec (.ldhzX d a sc od sy ph imm st) s = execLdhzX d a sc od sy ph imm st s := rfl
@[simp] theorem exec_ldhzXlit d a sc od sy ph lit st (s : State) : exec (.ldhzXlit d a sc od sy ph lit st) s = execLdhzXlit d a sc od sy ph lit st s := rfl
@[simp] theorem exec_ldw d a imm8 st (s : State) : exec (.ldw d a imm8 st) s = execLdw d a imm8 st s := rfl
@[simp] theorem exec_ldwLit d a lit st (s : State) : exec (.ldwLit d a lit st) s = execLdwLit d a lit st s := rfl
@[simp] theorem exec_ldwX d a sc od sy ph imm st (s : State) : exec (.ldwX d a sc od sy ph imm st) s = execLdwX d a sc od sy ph imm st s := rfl
@[simp] theorem exec_ldwXlit d a sc od sy ph lit st (s : State) : exec (.ldwXlit d a sc od sy ph lit st) s = execLdwXlit d a sc od sy ph lit st s := rfl
@[simp] theorem exec_ldwz d a imm8 st (s : State) : exec (.ldwz d a imm8 st) s = execLdwz d a imm8 st s := rfl
@[simp] theorem exec_ldwzLit d a lit st (s : State) : exec (.ldwzLit d a lit st) s = execLdwzLit d a lit st s := rfl
@[simp] theorem exec_ldwzX d a sc od sy ph imm st (s : State) : exec (.ldwzX d a sc od sy ph imm st) s = execLdwzX d a sc od sy ph imm st s := rfl
@[simp] theorem exec_ldwzXlit d a sc od sy ph lit st (s : State) : exec (.ldwzXlit d a sc od sy ph lit st) s = execLdwzXlit d a sc od sy ph lit st s := rfl
@[simp] theorem exec_ldd d a imm8 st (s : State) : exec (.ldd d a imm8 st) s = execLdd d a imm8 st s := rfl
@[simp] theorem exec_lddLit d a lit st (s : State) : exec (.lddLit d a lit st) s = execLddLit d a lit st s := rfl
@[simp] theorem exec_lddX d a sc od sy ph imm st (s : State) : exec (.lddX d a sc od sy ph imm st) s = execLddX d a sc od sy ph imm st s := rfl
@[simp] theorem exec_lddXlit d a sc od sy ph lit st (s : State) : exec (.lddXlit d a sc od sy ph lit st) s = execLddXlit d a sc od sy ph lit st s := rfl
@[simp] theorem exec_stb d a imm8 st (s : State) : exec (.stb d a imm8 st) s = execStb d a imm8 st s := rfl
@[simp] theorem exec_stbLit d a lit st (s : State) : exec (.stbLit d a lit st) s = execStbLit d a lit st s := rfl
@[simp] theorem exec_stbX d a sc od sy ph imm st (s : State) : exec (.stbX d a sc od sy ph imm st) s = execStbX d a sc od sy ph imm st s := rfl
@[simp] theorem exec_stbXlit d a sc od sy ph lit st (s : State) : exec (.stbXlit d a sc od sy ph lit st) s = execStbXlit d a sc od sy ph lit st s := rfl
@[simp] theorem exec_sth d a imm8 st (s : State) : exec (.sth d a imm8 st) s = execSth d a imm8 st s := rfl
@[simp] theorem exec_sthLit d a lit st (s : State) : exec (.sthLit d a lit st) s = execSthLit d a lit st s := rfl
@[simp] theorem exec_sthX d a sc od sy ph imm st (s : State) : exec (.sthX d a sc od sy ph imm st) s = execSthX d a sc od sy ph imm st s := rfl
@[simp] theorem exec_sthXlit d a sc od sy ph lit st (s : State) : exec (.sthXlit d a sc od sy ph lit st) s = execSthXlit d a sc od sy ph lit st s := rfl
@[simp] theorem exec_stw d a imm8 st (s : State) : exec (.stw d a imm8 st) s = execStw d a imm8 st s := rfl
@[simp] theorem exec_stwLit d a lit st (s : State) : exec (.stwLit d a lit st) s = execStwLit d a lit st s := rfl
@[simp] theorem exec_stwX d a sc od sy ph imm st (s : State) : exec (.stwX d a sc od sy ph imm st) s = execStwX d a sc od sy ph imm st s := rfl
@[simp] theorem exec_stwXlit d a sc od sy ph lit st (s : State) : exec (.stwXlit d a sc od sy ph lit st) s = execStwXlit d a sc od sy ph lit st s := rfl
@[simp] theorem exec_std d a imm8 st (s : State) : exec (.std d a imm8 st) s = execStd d a imm8 st s := rfl
@[simp] theorem exec_stdLit d a lit st (s : State) : exec (.stdLit d a lit st) s = execStdLit d a lit st s := rfl
@[simp] theorem exec_stdX d a sc od sy ph imm st (s : State) : exec (.stdX d a sc od sy ph imm st) s = execStdX d a sc od sy ph imm st s := rfl
@[simp] theorem exec_stdXlit d a sc od sy ph lit st (s : State) : exec (.stdXlit d a sc od sy ph lit st) s = execStdXlit d a sc od sy ph lit st s := rfl
@[simp] theorem exec_ldfe d a st (s : State) : exec (.ldfe d a st) s = execLdfe d a st s := rfl
@[simp] theorem exec_ldfeX d a e sc od ph imm st (s : State) : exec (.ldfeX d a e sc od ph imm st) s = execLdfeX d a e sc od ph imm st s := rfl
@[simp] theorem exec_ldff d a st (s : State) : exec (.ldff d a st) s = execLdff d a st s := rfl
@[simp] theorem exec_ldffX d a e sc od ph imm st (s : State) : exec (.ldffX d a e sc od ph imm st) s = execLdffX d a e sc od ph imm st s := rfl
@[simp] theorem exec_ldtag d a st (s : State) : exec (.ldtag d a st) s = execLdtag d a st s := rfl
@[simp] theorem exec_ldtagX d a sc od ph imm st (s : State) : exec (.ldtagX d a sc od ph imm st) s = execLdtagX d a sc od ph imm st s := rfl
@[simp] theorem exec_stef d a b st (s : State) : exec (.stef d a b st) s = execStef d a b st s := rfl
@[simp] theorem exec_stefX d a b sc od ph imm st (s : State) : exec (.stefX d a b sc od ph imm st) s = execStefX d a b sc od ph imm st s := rfl
@[simp] theorem exec_stff d a b st (s : State) : exec (.stff d a b st) s = execStff d a b st s := rfl
@[simp] theorem exec_stffX d a b sc od ph imm st (s : State) : exec (.stffX d a b sc od ph imm st) s = execStffX d a b sc od ph imm st s := rfl
@[simp] theorem exec_tclr a st (s : State) : exec (.tclr a st) s = execTclr a st s := rfl
@[simp] theorem exec_tclrX a sc od ph imm st (s : State) : exec (.tclrX a sc od ph imm st) s = execTclrX a sc od ph imm st s := rfl
@[simp] theorem exec_tfill a st (s : State) : exec (.tfill a st) s = execTfill a st s := rfl
@[simp] theorem exec_tfillX a sc od ph imm st (s : State) : exec (.tfillX a sc od ph imm st) s = execTfillX a sc od ph imm st s := rfl
@[simp] theorem exec_aadd d a b st (s : State) : exec (.aadd d a b st) s = execAadd d a b st s := rfl
@[simp] theorem exec_aaddX d a b sc od ph imm st (s : State) : exec (.aaddX d a b sc od ph imm st) s = execAaddX d a b sc od ph imm st s := rfl
@[simp] theorem exec_amin d a b st (s : State) : exec (.amin d a b st) s = execAmin d a b st s := rfl
@[simp] theorem exec_aminX d a b sc od ph imm st (s : State) : exec (.aminX d a b sc od ph imm st) s = execAminX d a b sc od ph imm st s := rfl
@[simp] theorem exec_amax d a b st (s : State) : exec (.amax d a b st) s = execAmax d a b st s := rfl
@[simp] theorem exec_amaxX d a b sc od ph imm st (s : State) : exec (.amaxX d a b sc od ph imm st) s = execAmaxX d a b sc od ph imm st s := rfl
@[simp] theorem exec_aminz d a b st (s : State) : exec (.aminz d a b st) s = execAminz d a b st s := rfl
@[simp] theorem exec_aminzX d a b sc od ph imm st (s : State) : exec (.aminzX d a b sc od ph imm st) s = execAminzX d a b sc od ph imm st s := rfl
@[simp] theorem exec_aand d a b st (s : State) : exec (.aand d a b st) s = execAand d a b st s := rfl
@[simp] theorem exec_aandX d a b sc od ph imm st (s : State) : exec (.aandX d a b sc od ph imm st) s = execAandX d a b sc od ph imm st s := rfl
@[simp] theorem exec_aor d a b st (s : State) : exec (.aor d a b st) s = execAor d a b st s := rfl
@[simp] theorem exec_aorX d a b sc od ph imm st (s : State) : exec (.aorX d a b sc od ph imm st) s = execAorX d a b sc od ph imm st s := rfl
@[simp] theorem exec_axor d a b st (s : State) : exec (.axor d a b st) s = execAxor d a b st s := rfl
@[simp] theorem exec_axorX d a b sc od ph imm st (s : State) : exec (.axorX d a b sc od ph imm st) s = execAxorX d a b sc od ph imm st s := rfl
@[simp] theorem exec_aswp d a b st (s : State) : exec (.aswp d a b st) s = execAswp d a b st s := rfl
@[simp] theorem exec_aswpX d a b sc od ph imm st (s : State) : exec (.aswpX d a b sc od ph imm st) s = execAswpX d a b sc od ph imm st s := rfl
@[simp] theorem exec_acas d a b st (s : State) : exec (.acas d a b st) s = execAcas d a b st s := rfl
@[simp] theorem exec_acasX d a b c sc od ph imm st (s : State) : exec (.acasX d a b c sc od ph imm st) s = execAcasX d a b c sc od ph imm st s := rfl
@[simp] theorem exec_aaddf d a b st (s : State) : exec (.aaddf d a b st) s = execAaddf d a b st s := rfl
@[simp] theorem exec_aaddfX d a b sc od ph imm st (s : State) : exec (.aaddfX d a b sc od ph imm st) s = execAaddfX d a b sc od ph imm st s := rfl
@[simp] theorem exec_amaxf d a b st (s : State) : exec (.amaxf d a b st) s = execAmaxf d a b st s := rfl
@[simp] theorem exec_amaxfX d a b sc od ph imm st (s : State) : exec (.amaxfX d a b sc od ph imm st) s = execAmaxfX d a b sc od ph imm st s := rfl
@[simp] theorem exec_ainc d a b st (s : State) : exec (.ainc d a b st) s = execAinc d a b st s := rfl
@[simp] theorem exec_aincX d a b sc od ph imm st (s : State) : exec (.aincX d a b sc od ph imm st) s = execAincX d a b sc od ph imm st s := rfl
@[simp] theorem exec_fence st (s : State) : exec (.fence st) s = execFence st s := rfl
@[simp] theorem exec_fenceX st (s : State) : exec (.fenceX st) s = execFenceX st s := rfl
@[simp] theorem exec_fencelb st (s : State) : exec (.fencelb st) s = execFencelb st s := rfl
@[simp] theorem exec_fencelbX st (s : State) : exec (.fencelbX st) s = execFencelbX st s := rfl
@[simp] theorem exec_winwait d a st (s : State) : exec (.winwait d a st) s = execWinwait d a st s := rfl
@[simp] theorem exec_winwaitX d a st (s : State) : exec (.winwaitX d a st) s = execWinwaitX d a st s := rfl
@[simp] theorem exec_ackwait st (s : State) : exec (.ackwait st) s = execAckwait st s := rfl
@[simp] theorem exec_ackwaitX st (s : State) : exec (.ackwaitX st) s = execAckwaitX st s := rfl
@[simp] theorem exec_acq d a st (s : State) : exec (.acq d a st) s = execAcq d a st s := rfl
@[simp] theorem exec_acqX d a sc imm st (s : State) : exec (.acqX d a sc imm st) s = execAcqX d a sc imm st s := rfl
@[simp] theorem exec_rel d a st (s : State) : exec (.rel d a st) s = execRel d a st s := rfl
@[simp] theorem exec_relX d a sc imm st (s : State) : exec (.relX d a sc imm st) s = execRelX d a sc imm st s := rfl
@[simp] theorem exec_bind d a b st (s : State) : exec (.bind d a b st) s = execBind d a b st s := rfl
@[simp] theorem exec_bindX d a b st (s : State) : exec (.bindX d a b st) s = execBindX d a b st s := rfl
@[simp] theorem exec_unbind a st (s : State) : exec (.unbind a st) s = execUnbind a st s := rfl
@[simp] theorem exec_unbindX a st (s : State) : exec (.unbindX a st) s = execUnbindX a st s := rfl
@[simp] theorem exec_tlwait a b st (s : State) : exec (.tlwait a b st) s = execTlwait a b st s := rfl
@[simp] theorem exec_tlwaitX a b st (s : State) : exec (.tlwaitX a b st) s = execTlwaitX a b st s := rfl
@[simp] theorem exec_tlread d a st (s : State) : exec (.tlread d a st) s = execTlread d a st s := rfl
@[simp] theorem exec_tlreadX d a st (s : State) : exec (.tlreadX d a st) s = execTlreadX d a st s := rfl
@[simp] theorem exec_tladd d a b st (s : State) : exec (.tladd d a b st) s = execTladd d a b st s := rfl
@[simp] theorem exec_tladdX d a b sc st (s : State) : exec (.tladdX d a b sc st) s = execTladdX d a b sc st s := rfl
@[simp] theorem exec_qwait a st (s : State) : exec (.qwait a st) s = execQwait a st s := rfl
@[simp] theorem exec_qwaitX a st (s : State) : exec (.qwaitX a st) s = execQwaitX a st s := rfl
@[simp] theorem exec_qflip st (s : State) : exec (.qflip st) s = execQflip st s := rfl
@[simp] theorem exec_qflipX st (s : State) : exec (.qflipX st) s = execQflipX st s := rfl
@[simp] theorem exec_qread d st (s : State) : exec (.qread d st) s = execQread d st s := rfl
@[simp] theorem exec_qreadX d st (s : State) : exec (.qreadX d st) s = execQreadX d st s := rfl
@[simp] theorem exec_barc d a st (s : State) : exec (.barc d a st) s = execBarc d a st s := rfl
@[simp] theorem exec_barcX d a st (s : State) : exec (.barcX d a st) s = execBarcX d a st s := rfl
@[simp] theorem exec_barh d a st (s : State) : exec (.barh d a st) s = execBarh d a st s := rfl
@[simp] theorem exec_barhX d a st (s : State) : exec (.barhX d a st) s = execBarhX d a st s := rfl
@[simp] theorem exec_pref a st (s : State) : exec (.pref a st) s = execPref a st s := rfl
@[simp] theorem exec_prefX a imm st (s : State) : exec (.prefX a imm st) s = execPrefX a imm st s := rfl
@[simp] theorem exec_cwb a b st (s : State) : exec (.cwb a b st) s = execCwb a b st s := rfl
@[simp] theorem exec_cwbX a b imm st (s : State) : exec (.cwbX a b imm st) s = execCwbX a b imm st s := rfl
@[simp] theorem exec_cinv a b st (s : State) : exec (.cinv a b st) s = execCinv a b st s := rfl
@[simp] theorem exec_cinvX a b imm st (s : State) : exec (.cinvX a b imm st) s = execCinvX a b imm st s := rfl
@[simp] theorem exec_vmand d a b st (s : State) : exec (.vmand d a b st) s = execVmand d a b st s := rfl
@[simp] theorem exec_vmandX d a b fmt st (s : State) : exec (.vmandX d a b fmt st) s = execVmandX d a b fmt st s := rfl
@[simp] theorem exec_vmor d a b st (s : State) : exec (.vmor d a b st) s = execVmor d a b st s := rfl
@[simp] theorem exec_vmorX d a b fmt st (s : State) : exec (.vmorX d a b fmt st) s = execVmorX d a b fmt st s := rfl
@[simp] theorem exec_vmxor d a b st (s : State) : exec (.vmxor d a b st) s = execVmxor d a b st s := rfl
@[simp] theorem exec_vmxorX d a b fmt st (s : State) : exec (.vmxorX d a b fmt st) s = execVmxorX d a b fmt st s := rfl
@[simp] theorem exec_vmnot d a st (s : State) : exec (.vmnot d a st) s = execVmnot d a st s := rfl
@[simp] theorem exec_vmnotX d a fmt st (s : State) : exec (.vmnotX d a fmt st) s = execVmnotX d a fmt st s := rfl
@[simp] theorem exec_vmpop d a st (s : State) : exec (.vmpop d a st) s = execVmpop d a st s := rfl
@[simp] theorem exec_vmpopX d a fmt mk st (s : State) : exec (.vmpopX d a fmt mk st) s = execVmpopX d a fmt mk st s := rfl
@[simp] theorem exec_vmfirst d a st (s : State) : exec (.vmfirst d a st) s = execVmfirst d a st s := rfl
@[simp] theorem exec_vmfirstX d a fmt mk st (s : State) : exec (.vmfirstX d a fmt mk st) s = execVmfirstX d a fmt mk st s := rfl
@[simp] theorem exec_viota d st (s : State) : exec (.viota d st) s = execViota d st s := rfl
@[simp] theorem exec_viotaX d fmt mk mp tp st (s : State) : exec (.viotaX d fmt mk mp tp st) s = execViotaX d fmt mk mp tp st s := rfl
@[simp] theorem exec_vmov d a st (s : State) : exec (.vmov d a st) s = execVmov d a st s := rfl
@[simp] theorem exec_vmovX d a fmt mk mp tp st (s : State) : exec (.vmovX d a fmt mk mp tp st) s = execVmovX d a fmt mk mp tp st s := rfl
@[simp] theorem exec_vbcast d a st (s : State) : exec (.vbcast d a st) s = execVbcast d a st s := rfl
@[simp] theorem exec_vbcastX d a fmt mk mp tp st (s : State) : exec (.vbcastX d a fmt mk mp tp st) s = execVbcastX d a fmt mk mp tp st s := rfl
@[simp] theorem exec_vextr d a b st (s : State) : exec (.vextr d a b st) s = execVextr d a b st s := rfl
@[simp] theorem exec_vextrX d a b fmt st (s : State) : exec (.vextrX d a b fmt st) s = execVextrX d a b fmt st s := rfl
@[simp] theorem exec_vins d a b st (s : State) : exec (.vins d a b st) s = execVins d a b st s := rfl
@[simp] theorem exec_vinsX d a b fmt st (s : State) : exec (.vinsX d a b fmt st) s = execVinsX d a b fmt st s := rfl
@[simp] theorem exec_vperm d a b st (s : State) : exec (.vperm d a b st) s = execVperm d a b st s := rfl
@[simp] theorem exec_vpermX d a b fmt mk mp tp st (s : State) : exec (.vpermX d a b fmt mk mp tp st) s = execVpermX d a b fmt mk mp tp st s := rfl
@[simp] theorem exec_vslideu d a b st (s : State) : exec (.vslideu d a b st) s = execVslideu d a b st s := rfl
@[simp] theorem exec_vslideuX d a b fmt mk mp tp st (s : State) : exec (.vslideuX d a b fmt mk mp tp st) s = execVslideuX d a b fmt mk mp tp st s := rfl
@[simp] theorem exec_vslided d a b st (s : State) : exec (.vslided d a b st) s = execVslided d a b st s := rfl
@[simp] theorem exec_vslidedX d a b fmt mk mp tp st (s : State) : exec (.vslidedX d a b fmt mk mp tp st) s = execVslidedX d a b fmt mk mp tp st s := rfl
@[simp] theorem exec_vcompr d a st (s : State) : exec (.vcompr d a st) s = execVcompr d a st s := rfl
@[simp] theorem exec_vcomprX d a fmt mk tp st (s : State) : exec (.vcomprX d a fmt mk tp st) s = execVcomprX d a fmt mk tp st s := rfl
@[simp] theorem exec_vexpnd d a st (s : State) : exec (.vexpnd d a st) s = execVexpnd d a st s := rfl
@[simp] theorem exec_vexpndX d a fmt mk mp tp st (s : State) : exec (.vexpndX d a fmt mk mp tp st) s = execVexpndX d a fmt mk mp tp st s := rfl
@[simp] theorem exec_vredsum d a b st (s : State) : exec (.vredsum d a b st) s = execVredsum d a b st s := rfl
@[simp] theorem exec_vredsumX d a b fmt mk st (s : State) : exec (.vredsumX d a b fmt mk st) s = execVredsumX d a b fmt mk st s := rfl
@[simp] theorem exec_vredmax d a b st (s : State) : exec (.vredmax d a b st) s = execVredmax d a b st s := rfl
@[simp] theorem exec_vredmaxX d a b fmt mk st (s : State) : exec (.vredmaxX d a b fmt mk st) s = execVredmaxX d a b fmt mk st s := rfl
@[simp] theorem exec_vredmin d a b st (s : State) : exec (.vredmin d a b st) s = execVredmin d a b st s := rfl
@[simp] theorem exec_vredminX d a b fmt mk st (s : State) : exec (.vredminX d a b fmt mk st) s = execVredminX d a b fmt mk st s := rfl
@[simp] theorem exec_vld d a st (s : State) : exec (.vld d a st) s = execVld d a st s := rfl
@[simp] theorem exec_vldX d a fmt mk mp tp ph imm st (s : State) : exec (.vldX d a fmt mk mp tp ph imm st) s = execVldX d a fmt mk mp tp ph imm st s := rfl
@[simp] theorem exec_vst d a st (s : State) : exec (.vst d a st) s = execVst d a st s := rfl
@[simp] theorem exec_vstX d a fmt mk ph imm st (s : State) : exec (.vstX d a fmt mk ph imm st) s = execVstX d a fmt mk ph imm st s := rfl
@[simp] theorem exec_vlds d a b st (s : State) : exec (.vlds d a b st) s = execVlds d a b st s := rfl
@[simp] theorem exec_vldsX d a b fmt mk mp tp ph imm st (s : State) : exec (.vldsX d a b fmt mk mp tp ph imm st) s = execVldsX d a b fmt mk mp tp ph imm st s := rfl
@[simp] theorem exec_vsts d a b st (s : State) : exec (.vsts d a b st) s = execVsts d a b st s := rfl
@[simp] theorem exec_vstsX d a b fmt mk ph imm st (s : State) : exec (.vstsX d a b fmt mk ph imm st) s = execVstsX d a b fmt mk ph imm st s := rfl
@[simp] theorem exec_vgath d a b st (s : State) : exec (.vgath d a b st) s = execVgath d a b st s := rfl
@[simp] theorem exec_vgathX d a b fmt mk mp tp ph imm st (s : State) : exec (.vgathX d a b fmt mk mp tp ph imm st) s = execVgathX d a b fmt mk mp tp ph imm st s := rfl
@[simp] theorem exec_vscat d a b st (s : State) : exec (.vscat d a b st) s = execVscat d a b st s := rfl
@[simp] theorem exec_vscatX d a b fmt mk ph imm st (s : State) : exec (.vscatX d a b fmt mk ph imm st) s = execVscatX d a b fmt mk ph imm st s := rfl
@[simp] theorem exec_vcvtp d a b fmt mk mp tp sat sr st (s : State) : exec (.vcvtp d a b fmt mk mp tp sat sr st) s = execVcvtp d a b fmt mk mp tp sat sr st s := rfl
@[simp] theorem exec_vcvtu d a b fmt mk mp tp sat sr st (s : State) : exec (.vcvtu d a b fmt mk mp tp sat sr st) s = execVcvtu d a b fmt mk mp tp sat sr st s := rfl
@[simp] theorem exec_vcvti d a fmt mk mp tp sat sr st (s : State) : exec (.vcvti d a fmt mk mp tp sat sr st) s = execVcvti d a fmt mk mp tp sat sr st s := rfl
@[simp] theorem exec_vqscale d a e fmt tp sat sr st (s : State) : exec (.vqscale d a e fmt tp sat sr st) s = execVqscale d a e fmt tp sat sr st s := rfl
@[simp] theorem exec_vtag d st (s : State) : exec (.vtag d st) s = execVtag d st s := rfl
@[simp] theorem exec_vtagX d fmt st (s : State) : exec (.vtagX d fmt st) s = execVtagX d fmt st s := rfl
@[simp] theorem exec_vtagr d a st (s : State) : exec (.vtagr d a st) s = execVtagr d a st s := rfl
@[simp] theorem exec_vtagrX d a st (s : State) : exec (.vtagrX d a st) s = execVtagrX d a st s := rfl
@[simp] theorem exec_vmerge3 d a b st (s : State) : exec (.vmerge3 d a b st) s = execVmerge3 d a b st s := rfl
@[simp] theorem exec_vmerge3X d a b fmt mk mp tp st (s : State) : exec (.vmerge3X d a b fmt mk mp tp st) s = execVmerge3X d a b fmt mk mp tp st s := rfl
@[simp] theorem exec_vsync st (s : State) : exec (.vsync st) s = execVsync st s := rfl
@[simp] theorem exec_vsyncX st (s : State) : exec (.vsyncX st) s = execVsyncX st s := rfl
@[simp] theorem exec_vadd d a b ha hb st (s : State) : exec (.vadd d a b ha hb st) s = execVadd d a b ha hb st s := rfl
@[simp] theorem exec_vaddX d a b ha hb fmt mk mp tp st (s : State) : exec (.vaddX d a b ha hb fmt mk mp tp st) s = execVaddX d a b ha hb fmt mk mp tp st s := rfl
@[simp] theorem exec_vsub d a b ha hb st (s : State) : exec (.vsub d a b ha hb st) s = execVsub d a b ha hb st s := rfl
@[simp] theorem exec_vsubX d a b ha hb fmt mk mp tp st (s : State) : exec (.vsubX d a b ha hb fmt mk mp tp st) s = execVsubX d a b ha hb fmt mk mp tp st s := rfl
@[simp] theorem exec_vmul d a b ha hb st (s : State) : exec (.vmul d a b ha hb st) s = execVmul d a b ha hb st s := rfl
@[simp] theorem exec_vmulX d a b ha hb fmt mk mp tp st (s : State) : exec (.vmulX d a b ha hb fmt mk mp tp st) s = execVmulX d a b ha hb fmt mk mp tp st s := rfl
@[simp] theorem exec_vfma d a b ha hb st (s : State) : exec (.vfma d a b ha hb st) s = execVfma d a b ha hb st s := rfl
@[simp] theorem exec_vfmaX d a b ha hb c hc fmt mk mp tp st (s : State) : exec (.vfmaX d a b ha hb c hc fmt mk mp tp st) s = execVfmaX d a b ha hb c hc fmt mk mp tp st s := rfl
@[simp] theorem exec_vfnma d a b ha hb st (s : State) : exec (.vfnma d a b ha hb st) s = execVfnma d a b ha hb st s := rfl
@[simp] theorem exec_vfnmaX d a b ha hb c hc fmt mk mp tp st (s : State) : exec (.vfnmaX d a b ha hb c hc fmt mk mp tp st) s = execVfnmaX d a b ha hb c hc fmt mk mp tp st s := rfl
@[simp] theorem exec_vmin d a b ha hb st (s : State) : exec (.vmin d a b ha hb st) s = execVmin d a b ha hb st s := rfl
@[simp] theorem exec_vminX d a b ha hb fmt mk mp tp st (s : State) : exec (.vminX d a b ha hb fmt mk mp tp st) s = execVminX d a b ha hb fmt mk mp tp st s := rfl
@[simp] theorem exec_vmax d a b ha hb st (s : State) : exec (.vmax d a b ha hb st) s = execVmax d a b ha hb st s := rfl
@[simp] theorem exec_vmaxX d a b ha hb fmt mk mp tp st (s : State) : exec (.vmaxX d a b ha hb fmt mk mp tp st) s = execVmaxX d a b ha hb fmt mk mp tp st s := rfl
@[simp] theorem exec_vabs d a ha st (s : State) : exec (.vabs d a ha st) s = execVabs d a ha st s := rfl
@[simp] theorem exec_vabsX d a ha fmt mk mp tp st (s : State) : exec (.vabsX d a ha fmt mk mp tp st) s = execVabsX d a ha fmt mk mp tp st s := rfl
@[simp] theorem exec_vneg d a ha st (s : State) : exec (.vneg d a ha st) s = execVneg d a ha st s := rfl
@[simp] theorem exec_vnegX d a ha fmt mk mp tp st (s : State) : exec (.vnegX d a ha fmt mk mp tp st) s = execVnegX d a ha fmt mk mp tp st s := rfl
@[simp] theorem exec_vrcp d a ha st (s : State) : exec (.vrcp d a ha st) s = execVrcp d a ha st s := rfl
@[simp] theorem exec_vrcpX d a ha fmt mk mp tp st (s : State) : exec (.vrcpX d a ha fmt mk mp tp st) s = execVrcpX d a ha fmt mk mp tp st s := rfl
@[simp] theorem exec_vrsq d a ha st (s : State) : exec (.vrsq d a ha st) s = execVrsq d a ha st s := rfl
@[simp] theorem exec_vrsqX d a ha fmt mk mp tp st (s : State) : exec (.vrsqX d a ha fmt mk mp tp st) s = execVrsqX d a ha fmt mk mp tp st s := rfl
@[simp] theorem exec_vexp2 d a ha st (s : State) : exec (.vexp2 d a ha st) s = execVexp2 d a ha st s := rfl
@[simp] theorem exec_vexp2X d a ha fmt mk mp tp st (s : State) : exec (.vexp2X d a ha fmt mk mp tp st) s = execVexp2X d a ha fmt mk mp tp st s := rfl
@[simp] theorem exec_vlog2 d a ha st (s : State) : exec (.vlog2 d a ha st) s = execVlog2 d a ha st s := rfl
@[simp] theorem exec_vlog2X d a ha fmt mk mp tp st (s : State) : exec (.vlog2X d a ha fmt mk mp tp st) s = execVlog2X d a ha fmt mk mp tp st s := rfl
@[simp] theorem exec_vtanh d a ha st (s : State) : exec (.vtanh d a ha st) s = execVtanh d a ha st s := rfl
@[simp] theorem exec_vtanhX d a ha fmt mk mp tp st (s : State) : exec (.vtanhX d a ha fmt mk mp tp st) s = execVtanhX d a ha fmt mk mp tp st s := rfl
@[simp] theorem exec_vand d a b ha hb st (s : State) : exec (.vand d a b ha hb st) s = execVand d a b ha hb st s := rfl
@[simp] theorem exec_vandX d a b ha hb fmt mk mp tp st (s : State) : exec (.vandX d a b ha hb fmt mk mp tp st) s = execVandX d a b ha hb fmt mk mp tp st s := rfl
@[simp] theorem exec_vor d a b ha hb st (s : State) : exec (.vor d a b ha hb st) s = execVor d a b ha hb st s := rfl
@[simp] theorem exec_vorX d a b ha hb fmt mk mp tp st (s : State) : exec (.vorX d a b ha hb fmt mk mp tp st) s = execVorX d a b ha hb fmt mk mp tp st s := rfl
@[simp] theorem exec_vxor d a b ha hb st (s : State) : exec (.vxor d a b ha hb st) s = execVxor d a b ha hb st s := rfl
@[simp] theorem exec_vxorX d a b ha hb fmt mk mp tp st (s : State) : exec (.vxorX d a b ha hb fmt mk mp tp st) s = execVxorX d a b ha hb fmt mk mp tp st s := rfl
@[simp] theorem exec_vshl d a b ha hb st (s : State) : exec (.vshl d a b ha hb st) s = execVshl d a b ha hb st s := rfl
@[simp] theorem exec_vshlX d a b ha hb fmt mk mp tp st (s : State) : exec (.vshlX d a b ha hb fmt mk mp tp st) s = execVshlX d a b ha hb fmt mk mp tp st s := rfl
@[simp] theorem exec_vshr d a b ha hb st (s : State) : exec (.vshr d a b ha hb st) s = execVshr d a b ha hb st s := rfl
@[simp] theorem exec_vshrX d a b ha hb fmt mk mp tp st (s : State) : exec (.vshrX d a b ha hb fmt mk mp tp st) s = execVshrX d a b ha hb fmt mk mp tp st s := rfl
@[simp] theorem exec_vshra d a b ha hb st (s : State) : exec (.vshra d a b ha hb st) s = execVshra d a b ha hb st s := rfl
@[simp] theorem exec_vshraX d a b ha hb fmt mk mp tp st (s : State) : exec (.vshraX d a b ha hb fmt mk mp tp st) s = execVshraX d a b ha hb fmt mk mp tp st s := rfl
@[simp] theorem exec_vcmpeq d a b ha hb st (s : State) : exec (.vcmpeq d a b ha hb st) s = execVcmpeq d a b ha hb st s := rfl
@[simp] theorem exec_vcmpeqX d a b ha hb fmt mk mp tp st (s : State) : exec (.vcmpeqX d a b ha hb fmt mk mp tp st) s = execVcmpeqX d a b ha hb fmt mk mp tp st s := rfl
@[simp] theorem exec_vcmplt d a b ha hb st (s : State) : exec (.vcmplt d a b ha hb st) s = execVcmplt d a b ha hb st s := rfl
@[simp] theorem exec_vcmpltX d a b ha hb fmt mk mp tp st (s : State) : exec (.vcmpltX d a b ha hb fmt mk mp tp st) s = execVcmpltX d a b ha hb fmt mk mp tp st s := rfl
@[simp] theorem exec_vcmple d a b ha hb st (s : State) : exec (.vcmple d a b ha hb st) s = execVcmple d a b ha hb st s := rfl
@[simp] theorem exec_vcmpleX d a b ha hb fmt mk mp tp st (s : State) : exec (.vcmpleX d a b ha hb fmt mk mp tp st) s = execVcmpleX d a b ha hb fmt mk mp tp st s := rfl
@[simp] theorem exec_vclaim d a st (s : State) : exec (.vclaim d a st) s = execVclaim d a st s := rfl
@[simp] theorem exec_vreneg d st (s : State) : exec (.vreneg d st) s = execVreneg d st s := rfl
@[simp] theorem exec_vrelease st (s : State) : exec (.vrelease st) s = execVrelease st s := rfl
@[simp] theorem exec_mma d a b c e fmt n as bs z st (s : State) : exec (.mma d a b c e fmt n as bs z st) s = execMma d a b c e fmt n as bs z st s := rfl
@[simp] theorem exec_mmag d a b c e fmt n as bs z st (s : State) : exec (.mmag d a b c e fmt n as bs z st) s = execMmag d a b c e fmt n as bs z st s := rfl
@[simp] theorem exec_mmas d a b c e fmt n as bs moff z st (s : State) : exec (.mmas d a b c e fmt n as bs moff z st) s = execMmas d a b c e fmt n as bs moff z st s := rfl
@[simp] theorem exec_mmax d a b c fmt n as z st (s : State) : exec (.mmax d a b c fmt n as z st) s = execMmax d a b c fmt n as z st s := rfl
@[simp] theorem exec_mmamx d a b c e fmt n as bs sa sb z st (s : State) : exec (.mmamx d a b c e fmt n as bs sa sb z st) s = execMmamx d a b c e fmt n as bs sa sb z st s := rfl
@[simp] theorem exec_mmaws d a b c e fmt n as bs sa sb z st (s : State) : exec (.mmaws d a b c e fmt n as bs sa sb z st) s = execMmaws d a b c e fmt n as bs sa sb z st s := rfl
@[simp] theorem exec_tld d a st (s : State) : exec (.tld d a st) s = execTld d a st s := rfl
@[simp] theorem exec_tldX d a fmt imm st (s : State) : exec (.tldX d a fmt imm st) s = execTldX d a fmt imm st s := rfl
@[simp] theorem exec_tst d a b st (s : State) : exec (.tst d a b st) s = execTst d a b st s := rfl
@[simp] theorem exec_tstX d a b fmt imm st (s : State) : exec (.tstX d a b fmt imm st) s = execTstX d a b fmt imm st s := rfl
@[simp] theorem exec_tzero d st (s : State) : exec (.tzero d st) s = execTzero d st s := rfl
@[simp] theorem exec_tzeroX d fmt st (s : State) : exec (.tzeroX d fmt st) s = execTzeroX d fmt st s := rfl
@[simp] theorem exec_aclr d st (s : State) : exec (.aclr d st) s = execAclr d st s := rfl
@[simp] theorem exec_aclrX d st (s : State) : exec (.aclrX d st) s = execAclrX d st s := rfl
@[simp] theorem exec_ald d a st (s : State) : exec (.ald d a st) s = execAld d a st s := rfl
@[simp] theorem exec_aldX d a imm st (s : State) : exec (.aldX d a imm st) s = execAldX d a imm st s := rfl
@[simp] theorem exec_ast d a b st (s : State) : exec (.ast d a b st) s = execAst d a b st s := rfl
@[simp] theorem exec_astX d a b imm st (s : State) : exec (.astX d a b imm st) s = execAstX d a b imm st s := rfl
@[simp] theorem exec_aread d a b fmt st (s : State) : exec (.aread d a b fmt st) s = execAread d a b fmt st s := rfl
@[simp] theorem exec_mdld d a b st (s : State) : exec (.mdld d a b st) s = execMdld d a b st s := rfl
@[simp] theorem exec_mdldX d a b off st (s : State) : exec (.mdldX d a b off st) s = execMdldX d a b off st s := rfl
@[simp] theorem exec_scld d a b st (s : State) : exec (.scld d a b st) s = execScld d a b st s := rfl
@[simp] theorem exec_scldX d a b off st (s : State) : exec (.scldX d a b off st) s = execScldX d a b off st s := rfl
@[simp] theorem exec_orld d a b st (s : State) : exec (.orld d a b st) s = execOrld d a b st s := rfl
@[simp] theorem exec_orldX d a b st (s : State) : exec (.orldX d a b st) s = execOrldX d a b st s := rfl
@[simp] theorem exec_gangcfg a st (s : State) : exec (.gangcfg a st) s = execGangcfg a st s := rfl
@[simp] theorem exec_cpy d a b st (s : State) : exec (.cpy d a b st) s = execCpy d a b st s := rfl
@[simp] theorem exec_cpyX d a b c od ph ctx st (s : State) : exec (.cpyX d a b c od ph ctx st) s = execCpyX d a b c od ph ctx st s := rfl
@[simp] theorem exec_cpyt d a b st (s : State) : exec (.cpyt d a b st) s = execCpyt d a b st s := rfl
@[simp] theorem exec_cpytX d a b c od ph ctx tv st (s : State) : exec (.cpytX d a b c od ph ctx tv st) s = execCpytX d a b c od ph ctx tv st s := rfl
@[simp] theorem exec_cpyg d a b st (s : State) : exec (.cpyg d a b st) s = execCpyg d a b st s := rfl
@[simp] theorem exec_cpygX d a b c e fmt od ph ctx st (s : State) : exec (.cpygX d a b c e fmt od ph ctx st) s = execCpygX d a b c e fmt od ph ctx st s := rfl
@[simp] theorem exec_barge d a b st (s : State) : exec (.barge d a b st) s = execBarge d a b st s := rfl
@[simp] theorem exec_bargeX d a b c od ph st (s : State) : exec (.bargeX d a b c od ph st) s = execBargeX d a b c od ph st s := rfl
@[simp] theorem exec_bargem d a b st (s : State) : exec (.bargem d a b st) s = execBargem d a b st s := rfl
@[simp] theorem exec_bargemX d a b c e od ph cl st (s : State) : exec (.bargemX d a b c e od ph cl st) s = execBargemX d a b c e od ph cl st s := rfl
@[simp] theorem exec_send d a st (s : State) : exec (.send d a st) s = execSend d a st s := rfl
@[simp] theorem exec_sendX d a ph st (s : State) : exec (.sendX d a ph st) s = execSendX d a ph st s := rfl
@[simp] theorem exec_sendx d a b st (s : State) : exec (.sendx d a b st) s = execSendx d a b st s := rfl
@[simp] theorem exec_sendxX d a b ph st (s : State) : exec (.sendxX d a b ph st) s = execSendxX d a b ph st s := rfl
@[simp] theorem exec_msginfo d st (s : State) : exec (.msginfo d st) s = execMsginfo d st s := rfl
@[simp] theorem exec_msginfoX d st (s : State) : exec (.msginfoX d st) s = execMsginfoX d st s := rfl
@[simp] theorem exec_aidle st (s : State) : exec (.aidle st) s = execAidle st s := rfl
@[simp] theorem exec_aidleX st (s : State) : exec (.aidleX st) s = execAidleX st s := rfl
@[simp] theorem exec_aerase d a b st (s : State) : exec (.aerase d a b st) s = execAerase d a b st s := rfl
@[simp] theorem exec_aeraseX d a b st (s : State) : exec (.aeraseX d a b st) s = execAeraseX d a b st s := rfl
@[simp] theorem exec_migrate d a b st (s : State) : exec (.migrate d a b st) s = execMigrate d a b st s := rfl
@[simp] theorem exec_migrateX d a b c st (s : State) : exec (.migrateX d a b c st) s = execMigrateX d a b c st s := rfl
@[simp] theorem exec_balloc d a st (s : State) : exec (.balloc d a st) s = execBalloc d a st s := rfl
@[simp] theorem exec_ballocX d a e loose st (s : State) : exec (.ballocX d a e loose st) s = execBallocX d a e loose st s := rfl
@[simp] theorem exec_bfree d a st (s : State) : exec (.bfree d a st) s = execBfree d a st s := rfl
@[simp] theorem exec_bfreeX d a st (s : State) : exec (.bfreeX d a st) s = execBfreeX d a st s := rfl
@[simp] theorem exec_bshare d a b st (s : State) : exec (.bshare d a b st) s = execBshare d a b st s := rfl
@[simp] theorem exec_bshareX d a b loose st (s : State) : exec (.bshareX d a b loose st) s = execBshareX d a b loose st s := rfl
@[simp] theorem exec_btrunc d a b st (s : State) : exec (.btrunc d a b st) s = execBtrunc d a b st s := rfl
@[simp] theorem exec_btruncX d a b st (s : State) : exec (.btruncX d a b st) s = execBtruncX d a b st s := rfl
@[simp] theorem exec_bquery d a st (s : State) : exec (.bquery d a st) s = execBquery d a st s := rfl
@[simp] theorem exec_bqueryX d a e st (s : State) : exec (.bqueryX d a e st) s = execBqueryX d a e st s := rfl
@[simp] theorem exec_bseqnew d a b st (s : State) : exec (.bseqnew d a b st) s = execBseqnew d a b st s := rfl
@[simp] theorem exec_bseqnewX d a b st (s : State) : exec (.bseqnewX d a b st) s = execBseqnewX d a b st s := rfl
@[simp] theorem exec_bseqdrop d a st (s : State) : exec (.bseqdrop d a st) s = execBseqdrop d a st s := rfl
@[simp] theorem exec_bseqdropX d a st (s : State) : exec (.bseqdropX d a st) s = execBseqdropX d a st s := rfl
@[simp] theorem exec_ptx d a b st (s : State) : exec (.ptx d a b st) s = execPtx d a b st s := rfl
@[simp] theorem exec_ptxX d a b st (s : State) : exec (.ptxX d a b st) s = execPtxX d a b st s := rfl
@[simp] theorem exec_ptfill d a b st (s : State) : exec (.ptfill d a b st) s = execPtfill d a b st s := rfl
@[simp] theorem exec_ptfillX d a b c st (s : State) : exec (.ptfillX d a b c st) s = execPtfillX d a b c st s := rfl
@[simp] theorem exec_ptinv a b st (s : State) : exec (.ptinv a b st) s = execPtinv a b st s := rfl
@[simp] theorem exec_ptinvX a b st (s : State) : exec (.ptinvX a b st) s = execPtinvX a b st s := rfl
@[simp] theorem exec_attnq d a st (s : State) : exec (.attnq d a st) s = execAttnq d a st s := rfl
@[simp] theorem exec_attnqX d a od ph st (s : State) : exec (.attnqX d a od ph st) s = execAttnqX d a od ph st s := rfl
@[simp] theorem exec_refwait d a st (s : State) : exec (.refwait d a st) s = execRefwait d a st s := rfl
@[simp] theorem exec_refwaitX d a guard st (s : State) : exec (.refwaitX d a guard st) s = execRefwaitX d a guard st s := rfl
@[simp] theorem exec_mcst d a b st (s : State) : exec (.mcst d a b st) s = execMcst d a b st s := rfl
@[simp] theorem exec_mcstX d a b c od ph st (s : State) : exec (.mcstX d a b c od ph st) s = execMcstX d a b c od ph st s := rfl
@[simp] theorem exec_mcstc d a b st (s : State) : exec (.mcstc d a b st) s = execMcstc d a b st s := rfl
@[simp] theorem exec_mcstcX d a b c e od ph st (s : State) : exec (.mcstcX d a b c e od ph st) s = execMcstcX d a b c e od ph st s := rfl
@[simp] theorem exec_mcseq d a st (s : State) : exec (.mcseq d a st) s = execMcseq d a st s := rfl
@[simp] theorem exec_mcseqX d a st (s : State) : exec (.mcseqX d a st) s = execMcseqX d a st s := rfl
@[simp] theorem exec_illegalInstruction word (s : State) : exec (.illegalInstruction word) s = execIllegalInstruction word s := rfl
@[simp] theorem exec_windowBoundary (s : State) : exec (.windowBoundary) s = execWindowBoundary s := rfl
@[simp] theorem exec_stretchNoticeArrive dev win withdrawn (s : State) : exec (.stretchNoticeArrive dev win withdrawn) s = execStretchNoticeArrive dev win withdrawn s := rfl
@[simp] theorem exec_launchHandleExpire handle (s : State) : exec (.launchHandleExpire handle) s = execLaunchHandleExpire handle s := rfl
@[simp] theorem exec_keyZeroiseComplete slot (s : State) : exec (.keyZeroiseComplete slot) s = execKeyZeroiseComplete slot s := rfl
@[simp] theorem exec_syscResult core slot val (s : State) : exec (.syscResult core slot val) s = execSyscResult core slot val s := rfl
@[simp] theorem exec_cleozInterrupt core (s : State) : exec (.cleozInterrupt core) s = execCleozInterrupt core s := rfl
@[simp] theorem exec_timeDomainLeave (s : State) : exec (.timeDomainLeave) s = execTimeDomainLeave s := rfl
@[simp] theorem exec_timeDomainRejoin (s : State) : exec (.timeDomainRejoin) s = execTimeDomainRejoin s := rfl
@[simp] theorem exec_ethernetPortEnable phys split (s : State) : exec (.ethernetPortEnable phys split) s = execEthernetPortEnable phys split s := rfl
@[simp] theorem exec_fusedMinimumRaise svn (s : State) : exec (.fusedMinimumRaise svn) s = execFusedMinimumRaise svn s := rfl
@[simp] theorem exec_rootKeyRevoke (s : State) : exec (.rootKeyRevoke) s = execRootKeyRevoke s := rfl
@[simp] theorem exec_corePowerGating core (s : State) : exec (.corePowerGating core) s = execCorePowerGating core s := rfl
@[simp] theorem exec_towlineRouteDown port (s : State) : exec (.towlineRouteDown port) s = execTowlineRouteDown port s := rfl

end Sys2Proof.Machine
end

