-- ==== Sys2Proof/Laws/Packing.lean ====
section
/-! SUPPORT. The fields packed into IMM32 come out again, one lemma per field of each layout. -/

namespace Sys2Proof.Laws

theorem pack_0_6_w6_7_0 (x0 : BitVec 6) (x1 : BitVec 7) :
    (packImm [(0, x0.toNat), (6, x1.toNat)]).extractLsb' 0 6 = x0 :=
  unpack _ _ _ (by simp only [packSum]; omega)

theorem pack_0_6_w6_7_1 (x0 : BitVec 6) (x1 : BitVec 7) :
    (packImm [(0, x0.toNat), (6, x1.toNat)]).extractLsb' 6 7 = x1 :=
  unpack _ _ _ (by simp only [packSum]; omega)

theorem pack_30_w1_0 (x0 : BitVec 1) :
    (packImm [(30, x0.toNat)]).extractLsb' 30 1 = x0 :=
  unpack _ _ _ (by simp only [packSum]; omega)

theorem pack_0_8_w6_1_0 (x0 : BitVec 6) (x1 : BitVec 1) :
    (packImm [(0, x0.toNat), (8, x1.toNat)]).extractLsb' 0 6 = x0 :=
  unpack _ _ _ (by simp only [packSum]; omega)

theorem pack_0_8_w6_1_1 (x0 : BitVec 6) (x1 : BitVec 1) :
    (packImm [(0, x0.toNat), (8, x1.toNat)]).extractLsb' 8 1 = x1 :=
  unpack _ _ _ (by simp only [packSum]; omega)

theorem pack_0_16_w16_1_0 (x0 : BitVec 16) (x1 : BitVec 1) :
    (packImm [(0, x0.toNat), (16, x1.toNat)]).extractLsb' 0 16 = x0 :=
  unpack _ _ _ (by simp only [packSum]; omega)

theorem pack_0_16_w16_1_1 (x0 : BitVec 16) (x1 : BitVec 1) :
    (packImm [(0, x0.toNat), (16, x1.toNat)]).extractLsb' 16 1 = x1 :=
  unpack _ _ _ (by simp only [packSum]; omega)

theorem pack_8_w1_0 (x0 : BitVec 1) :
    (packImm [(8, x0.toNat)]).extractLsb' 8 1 = x0 :=
  unpack _ _ _ (by simp only [packSum]; omega)

theorem pack_30_31_w1_1_0 (x0 : BitVec 1) (x1 : BitVec 1) :
    (packImm [(30, x0.toNat), (31, x1.toNat)]).extractLsb' 30 1 = x0 :=
  unpack _ _ _ (by simp only [packSum]; omega)

theorem pack_30_31_w1_1_1 (x0 : BitVec 1) (x1 : BitVec 1) :
    (packImm [(30, x0.toNat), (31, x1.toNat)]).extractLsb' 31 1 = x1 :=
  unpack _ _ _ (by simp only [packSum]; omega)

theorem pack_0_8_9_29_w8_1_1_1_0 (x0 : BitVec 8) (x1 : BitVec 1) (x2 : BitVec 1) (x3 : BitVec 1) :
    (packImm [(0, x0.toNat), (8, x1.toNat), (9, x2.toNat), (29, x3.toNat)]).extractLsb' 0 8 = x0 :=
  unpack _ _ _ (by simp only [packSum]; omega)

theorem pack_0_8_9_29_w8_1_1_1_1 (x0 : BitVec 8) (x1 : BitVec 1) (x2 : BitVec 1) (x3 : BitVec 1) :
    (packImm [(0, x0.toNat), (8, x1.toNat), (9, x2.toNat), (29, x3.toNat)]).extractLsb' 8 1 = x1 :=
  unpack _ _ _ (by simp only [packSum]; omega)

theorem pack_0_8_9_29_w8_1_1_1_2 (x0 : BitVec 8) (x1 : BitVec 1) (x2 : BitVec 1) (x3 : BitVec 1) :
    (packImm [(0, x0.toNat), (8, x1.toNat), (9, x2.toNat), (29, x3.toNat)]).extractLsb' 9 1 = x2 :=
  unpack _ _ _ (by simp only [packSum]; omega)

theorem pack_0_8_9_29_w8_1_1_1_3 (x0 : BitVec 8) (x1 : BitVec 1) (x2 : BitVec 1) (x3 : BitVec 1) :
    (packImm [(0, x0.toNat), (8, x1.toNat), (9, x2.toNat), (29, x3.toNat)]).extractLsb' 29 1 = x3 :=
  unpack _ _ _ (by simp only [packSum]; omega)

theorem pack_0_8_9_10_29_w8_1_1_6_1_0 (x0 : BitVec 8) (x1 : BitVec 1) (x2 : BitVec 1) (x3 : BitVec 6) (x4 : BitVec 1) :
    (packImm [(0, x0.toNat), (8, x1.toNat), (9, x2.toNat), (10, x3.toNat), (29, x4.toNat)]).extractLsb' 0 8 = x0 :=
  unpack _ _ _ (by simp only [packSum]; omega)

theorem pack_0_8_9_10_29_w8_1_1_6_1_1 (x0 : BitVec 8) (x1 : BitVec 1) (x2 : BitVec 1) (x3 : BitVec 6) (x4 : BitVec 1) :
    (packImm [(0, x0.toNat), (8, x1.toNat), (9, x2.toNat), (10, x3.toNat), (29, x4.toNat)]).extractLsb' 8 1 = x1 :=
  unpack _ _ _ (by simp only [packSum]; omega)

theorem pack_0_8_9_10_29_w8_1_1_6_1_2 (x0 : BitVec 8) (x1 : BitVec 1) (x2 : BitVec 1) (x3 : BitVec 6) (x4 : BitVec 1) :
    (packImm [(0, x0.toNat), (8, x1.toNat), (9, x2.toNat), (10, x3.toNat), (29, x4.toNat)]).extractLsb' 9 1 = x2 :=
  unpack _ _ _ (by simp only [packSum]; omega)

theorem pack_0_8_9_10_29_w8_1_1_6_1_3 (x0 : BitVec 8) (x1 : BitVec 1) (x2 : BitVec 1) (x3 : BitVec 6) (x4 : BitVec 1) :
    (packImm [(0, x0.toNat), (8, x1.toNat), (9, x2.toNat), (10, x3.toNat), (29, x4.toNat)]).extractLsb' 10 6 = x3 :=
  unpack _ _ _ (by simp only [packSum]; omega)

theorem pack_0_8_9_10_29_w8_1_1_6_1_4 (x0 : BitVec 8) (x1 : BitVec 1) (x2 : BitVec 1) (x3 : BitVec 6) (x4 : BitVec 1) :
    (packImm [(0, x0.toNat), (8, x1.toNat), (9, x2.toNat), (10, x3.toNat), (29, x4.toNat)]).extractLsb' 29 1 = x4 :=
  unpack _ _ _ (by simp only [packSum]; omega)

theorem pack_0_8_29_w8_1_1_0 (x0 : BitVec 8) (x1 : BitVec 1) (x2 : BitVec 1) :
    (packImm [(0, x0.toNat), (8, x1.toNat), (29, x2.toNat)]).extractLsb' 0 8 = x0 :=
  unpack _ _ _ (by simp only [packSum]; omega)

theorem pack_0_8_29_w8_1_1_1 (x0 : BitVec 8) (x1 : BitVec 1) (x2 : BitVec 1) :
    (packImm [(0, x0.toNat), (8, x1.toNat), (29, x2.toNat)]).extractLsb' 8 1 = x1 :=
  unpack _ _ _ (by simp only [packSum]; omega)

theorem pack_0_8_29_w8_1_1_2 (x0 : BitVec 8) (x1 : BitVec 1) (x2 : BitVec 1) :
    (packImm [(0, x0.toNat), (8, x1.toNat), (29, x2.toNat)]).extractLsb' 29 1 = x2 :=
  unpack _ _ _ (by simp only [packSum]; omega)

theorem pack_0_8_9_10_17_29_w8_1_1_7_7_1_0 (x0 : BitVec 8) (x1 : BitVec 1) (x2 : BitVec 1) (x3 : BitVec 7) (x4 : BitVec 7) (x5 : BitVec 1) :
    (packImm [(0, x0.toNat), (8, x1.toNat), (9, x2.toNat), (10, x3.toNat), (17, x4.toNat), (29, x5.toNat)]).extractLsb' 0 8 = x0 :=
  unpack _ _ _ (by simp only [packSum]; omega)

theorem pack_0_8_9_10_17_29_w8_1_1_7_7_1_1 (x0 : BitVec 8) (x1 : BitVec 1) (x2 : BitVec 1) (x3 : BitVec 7) (x4 : BitVec 7) (x5 : BitVec 1) :
    (packImm [(0, x0.toNat), (8, x1.toNat), (9, x2.toNat), (10, x3.toNat), (17, x4.toNat), (29, x5.toNat)]).extractLsb' 8 1 = x1 :=
  unpack _ _ _ (by simp only [packSum]; omega)

theorem pack_0_8_9_10_17_29_w8_1_1_7_7_1_2 (x0 : BitVec 8) (x1 : BitVec 1) (x2 : BitVec 1) (x3 : BitVec 7) (x4 : BitVec 7) (x5 : BitVec 1) :
    (packImm [(0, x0.toNat), (8, x1.toNat), (9, x2.toNat), (10, x3.toNat), (17, x4.toNat), (29, x5.toNat)]).extractLsb' 9 1 = x2 :=
  unpack _ _ _ (by simp only [packSum]; omega)

theorem pack_0_8_9_10_17_29_w8_1_1_7_7_1_3 (x0 : BitVec 8) (x1 : BitVec 1) (x2 : BitVec 1) (x3 : BitVec 7) (x4 : BitVec 7) (x5 : BitVec 1) :
    (packImm [(0, x0.toNat), (8, x1.toNat), (9, x2.toNat), (10, x3.toNat), (17, x4.toNat), (29, x5.toNat)]).extractLsb' 10 7 = x3 :=
  unpack _ _ _ (by simp only [packSum]; omega)

theorem pack_0_8_9_10_17_29_w8_1_1_7_7_1_4 (x0 : BitVec 8) (x1 : BitVec 1) (x2 : BitVec 1) (x3 : BitVec 7) (x4 : BitVec 7) (x5 : BitVec 1) :
    (packImm [(0, x0.toNat), (8, x1.toNat), (9, x2.toNat), (10, x3.toNat), (17, x4.toNat), (29, x5.toNat)]).extractLsb' 17 7 = x4 :=
  unpack _ _ _ (by simp only [packSum]; omega)

theorem pack_0_8_9_10_17_29_w8_1_1_7_7_1_5 (x0 : BitVec 8) (x1 : BitVec 1) (x2 : BitVec 1) (x3 : BitVec 7) (x4 : BitVec 7) (x5 : BitVec 1) :
    (packImm [(0, x0.toNat), (8, x1.toNat), (9, x2.toNat), (10, x3.toNat), (17, x4.toNat), (29, x5.toNat)]).extractLsb' 29 1 = x5 :=
  unpack _ _ _ (by simp only [packSum]; omega)

theorem pack_0_w8_0 (x0 : BitVec 8) :
    (packImm [(0, x0.toNat)]).extractLsb' 0 8 = x0 :=
  unpack _ _ _ (by simp only [packSum]; omega)

theorem pack_0_w7_0 (x0 : BitVec 7) :
    (packImm [(0, x0.toNat)]).extractLsb' 0 7 = x0 :=
  unpack _ _ _ (by simp only [packSum]; omega)

theorem pack_0_w2_0 (x0 : BitVec 2) :
    (packImm [(0, x0.toNat)]).extractLsb' 0 2 = x0 :=
  unpack _ _ _ (by simp only [packSum]; omega)

theorem pack_0_4_w2_1_0 (x0 : BitVec 2) (x1 : BitVec 1) :
    (packImm [(0, x0.toNat), (4, x1.toNat)]).extractLsb' 0 2 = x0 :=
  unpack _ _ _ (by simp only [packSum]; omega)

theorem pack_0_4_w2_1_1 (x0 : BitVec 2) (x1 : BitVec 1) :
    (packImm [(0, x0.toNat), (4, x1.toNat)]).extractLsb' 4 1 = x1 :=
  unpack _ _ _ (by simp only [packSum]; omega)

theorem pack_0_w1_0 (x0 : BitVec 1) :
    (packImm [(0, x0.toNat)]).extractLsb' 0 1 = x0 :=
  unpack _ _ _ (by simp only [packSum]; omega)

theorem pack_0_w11_0 (x0 : BitVec 11) :
    (packImm [(0, x0.toNat)]).extractLsb' 0 11 = x0 :=
  unpack _ _ _ (by simp only [packSum]; omega)

end Sys2Proof.Laws
end

