-- ==== Sys2Proof/Laws/PerInstr.lean ====
section
/-! SUPPORT. Per constructor: decoding the fields of an encodable instruction gives it back. -/

namespace Sys2Proof.Laws.RoundTrip

/-- The fields that the encoder writes for a well-formed instruction decode to it. -/
def Statement (i : Instr) : Prop := ∀ r, i.wf = true → encodeRaw i = some r → decodeRaw r = .ok i

theorem powerOnReset : Statement (.powerOnReset) := fun _ _ h => nomatch h
theorem bootRomVerify : Statement (.bootRomVerify) := fun _ _ h => nomatch h
theorem firstStageBoot : Statement (.firstStageBoot) := fun _ _ h => nomatch h
theorem cleozLoading : Statement (.cleozLoading) := fun _ _ h => nomatch h
theorem computeRelease : Statement (.computeRelease) := fun _ _ h => nomatch h
theorem attestationRequest : Statement (.attestationRequest) := fun _ _ h => nomatch h
theorem thermalTrip temp : Statement (.thermalTrip temp) := fun _ _ h => nomatch h
theorem i3cReset : Statement (.i3cReset) := fun _ _ h => nomatch h
theorem throttleStep die temp excess : Statement (.throttleStep die temp excess) := fun _ _ h => nomatch h
theorem powerModeChange : Statement (.powerModeChange) := fun _ _ h => nomatch h
theorem ethernetFrame port frame : Statement (.ethernetFrame port frame) := fun _ _ h => nomatch h
theorem cxlPortTrain port rate kind : Statement (.cxlPortTrain port rate kind) := fun _ _ h => nomatch h
theorem cxlLinkDown port : Statement (.cxlLinkDown port) := fun _ _ h => nomatch h
theorem towlineTrain port lanes partner : Statement (.towlineTrain port lanes partner) := fun _ _ h => nomatch h
theorem towlineMessage msg target : Statement (.towlineMessage msg target) := fun _ _ h => nomatch h
theorem towlineReissue id : Statement (.towlineReissue id) := fun _ _ h => nomatch h
theorem stretchNotice win : Statement (.stretchNotice win) := fun _ _ h => nomatch h
theorem refreshAdvance die : Statement (.refreshAdvance die) := fun _ _ h => nomatch h
theorem quietSweep : Statement (.quietSweep) := fun _ _ h => nomatch h
theorem homeAccess id : Statement (.homeAccess id) := fun _ _ h => nomatch h
theorem storeAck id : Statement (.storeAck id) := fun _ _ h => nomatch h
theorem tagWaitTimeout id : Statement (.tagWaitTimeout id) := fun _ _ h => nomatch h
theorem barrierWaitTimeout core slot : Statement (.barrierWaitTimeout core slot) := fun _ _ h => nomatch h
theorem joinLimitExpire core slot : Statement (.joinLimitExpire core slot) := fun _ _ h => nomatch h
theorem backoffReissue id : Statement (.backoffReissue id) := fun _ _ h => nomatch h
theorem cacheEviction cluster line : Statement (.cacheEviction cluster line) := fun _ _ h => nomatch h
theorem helperLive core slot : Statement (.helperLive core slot) := fun _ _ h => nomatch h
theorem helperCloseEnd core slot : Statement (.helperCloseEnd core slot) := fun _ _ h => nomatch h
theorem faultSave core slot : Statement (.faultSave core slot) := fun _ _ h => nomatch h
theorem faultRecordDrain cluster : Statement (.faultRecordDrain cluster) := fun _ _ h => nomatch h
theorem migration core slot : Statement (.migration core slot) := fun _ _ h => nomatch h
theorem helperRestore frame : Statement (.helperRestore frame) := fun _ _ h => nomatch h
theorem chunkRequest cluster handle : Statement (.chunkRequest cluster handle) := fun _ _ h => nomatch h
theorem chunkGrant die : Statement (.chunkGrant die) := fun _ _ h => nomatch h
theorem placementGrant die : Statement (.placementGrant die) := fun _ _ h => nomatch h
theorem groupComplete handle group : Statement (.groupComplete handle group) := fun _ _ h => nomatch h
theorem launchReady handle : Statement (.launchReady handle) := fun _ _ h => nomatch h
theorem launchDependenceFail handle : Statement (.launchDependenceFail handle) := fun _ _ h => nomatch h
theorem launchEnd handle : Statement (.launchEnd handle) := fun _ _ h => nomatch h
theorem splitChange cluster : Statement (.splitChange cluster) := fun _ _ h => nomatch h
theorem serveWrite word val : Statement (.serveWrite word val) := fun _ _ h => nomatch h
theorem serveWithdraw cluster : Statement (.serveWithdraw cluster) := fun _ _ h => nomatch h
theorem priorityRaise handle : Statement (.priorityRaise handle) := fun _ _ h => nomatch h
theorem priorityWithdraw handle : Statement (.priorityWithdraw handle) := fun _ _ h => nomatch h
theorem preemption die : Statement (.preemption die) := fun _ _ h => nomatch h
theorem quantumExpire : Statement (.quantumExpire) := fun _ _ h => nomatch h
theorem earlySliceEnd : Statement (.earlySliceEnd) := fun _ _ h => nomatch h
theorem sliceSwitch : Statement (.sliceSwitch) := fun _ _ h => nomatch h
theorem engineCommandTake core ctr : Statement (.engineCommandTake core ctr) := fun _ _ h => nomatch h
theorem engineOpComplete core ctr : Statement (.engineOpComplete core ctr) := fun _ _ h => nomatch h
theorem engineFault core ctr : Statement (.engineFault core ctr) := fun _ _ h => nomatch h
theorem vectorCommandStart core : Statement (.vectorCommandStart core) := fun _ _ h => nomatch h
theorem vectorCommandDone core slot : Statement (.vectorCommandDone core slot) := fun _ _ h => nomatch h
theorem messageArrive slice : Statement (.messageArrive slice) := fun _ _ h => nomatch h
theorem sliceInputStallAlert slice : Statement (.sliceInputStallAlert slice) := fun _ _ h => nomatch h
theorem mooringComplete cls key : Statement (.mooringComplete cls key) := fun _ _ h => nomatch h
theorem mailboxSlotFreed cls key : Statement (.mailboxSlotFreed cls key) := fun _ _ h => nomatch h
theorem layupRequest core : Statement (.layupRequest core) := fun _ _ h => nomatch h
theorem unmoorOrder cls key : Statement (.unmoorOrder cls key) := fun _ _ h => nomatch h
theorem unmoorComplete cls key : Statement (.unmoorComplete cls key) := fun _ _ h => nomatch h
theorem idleLimitExpire cls key : Statement (.idleLimitExpire cls key) := fun _ _ h => nomatch h
theorem shiftComplete cls key : Statement (.shiftComplete cls key) := fun _ _ h => nomatch h
theorem sluiceStamp group : Statement (.sluiceStamp group) := fun _ _ h => nomatch h
theorem sluiceApply group : Statement (.sluiceApply group) := fun _ _ h => nomatch h
theorem groupActivate group : Statement (.groupActivate group) := fun _ _ h => nomatch h
theorem groupReconfigure group : Statement (.groupReconfigure group) := fun _ _ h => nomatch h
theorem groupResynchronise group : Statement (.groupResynchronise group) := fun _ _ h => nomatch h
theorem groupDelete group : Statement (.groupDelete group) := fun _ _ h => nomatch h
theorem blockRinse stack pool index fails : Statement (.blockRinse stack pool index fails) := fun _ _ h => nomatch h
theorem patrolScrub loc seen : Statement (.patrolScrub loc seen) := fun _ _ h => nomatch h
theorem uncorrectableError site : Statement (.uncorrectableError site) := fun _ _ h => nomatch h
theorem shootdown : Statement (.shootdown) := fun _ _ h => nomatch h
theorem shootdownDone : Statement (.shootdownDone) := fun _ _ h => nomatch h
theorem resumeContext val : Statement (.resumeContext val) := fun _ _ h => nomatch h
theorem resumeEnd val : Statement (.resumeEnd val) := fun _ _ h => nomatch h
theorem engactRetry core ctr : Statement (.engactRetry core ctr) := fun _ _ h => nomatch h
theorem engactAbandon core ctr : Statement (.engactAbandon core ctr) := fun _ _ h => nomatch h
theorem operandRecordInvalidate val : Statement (.operandRecordInvalidate val) := fun _ _ h => nomatch h
theorem keyGenerate slot : Statement (.keyGenerate slot) := fun _ _ h => nomatch h
theorem keyDestroy slot : Statement (.keyDestroy slot) := fun _ _ h => nomatch h
theorem wsLoadingEnter die : Statement (.wsLoadingEnter die) := fun _ _ h => nomatch h
theorem wsLoadingLeave die : Statement (.wsLoadingLeave die) := fun _ _ h => nomatch h
theorem poolEnable stack pool : Statement (.poolEnable stack pool) := fun _ _ h => nomatch h
theorem poolDisable stack pool : Statement (.poolDisable stack pool) := fun _ _ h => nomatch h
theorem classRegister cls : Statement (.classRegister cls) := fun _ _ h => nomatch h
theorem classWithdraw cls : Statement (.classWithdraw cls) := fun _ _ h => nomatch h
theorem classWithdrawDone cls : Statement (.classWithdrawDone cls) := fun _ _ h => nomatch h
theorem directoryResume dir : Statement (.directoryResume dir) := fun _ _ h => nomatch h
theorem journalControl val : Statement (.journalControl val) := fun _ _ h => nomatch h
theorem registerWrite addr val : Statement (.registerWrite addr val) := fun _ _ h => nomatch h
theorem add d a b st : Statement (.add d a b st) := fun _ hw h => Option.some.inj h ▸ decodeRaw_of rfl hw
theorem sub d a b st : Statement (.sub d a b st) := fun _ hw h => Option.some.inj h ▸ decodeRaw_of rfl hw
theorem addw d a b st : Statement (.addw d a b st) := fun _ hw h => Option.some.inj h ▸ decodeRaw_of rfl hw
theorem subw d a b st : Statement (.subw d a b st) := fun _ hw h => Option.some.inj h ▸ decodeRaw_of rfl hw
theorem mul d a b st : Statement (.mul d a b st) := fun _ hw h => Option.some.inj h ▸ decodeRaw_of rfl hw
theorem mulh d a b st : Statement (.mulh d a b st) := fun _ hw h => Option.some.inj h ▸ decodeRaw_of rfl hw
theorem mulhz d a b st : Statement (.mulhz d a b st) := fun _ hw h => Option.some.inj h ▸ decodeRaw_of rfl hw
theorem mulw d a b st : Statement (.mulw d a b st) := fun _ hw h => Option.some.inj h ▸ decodeRaw_of rfl hw
theorem div d a b st : Statement (.div d a b st) := fun _ hw h => Option.some.inj h ▸ decodeRaw_of rfl hw
theorem divz d a b st : Statement (.divz d a b st) := fun _ hw h => Option.some.inj h ▸ decodeRaw_of rfl hw
theorem rem d a b st : Statement (.rem d a b st) := fun _ hw h => Option.some.inj h ▸ decodeRaw_of rfl hw
theorem remz d a b st : Statement (.remz d a b st) := fun _ hw h => Option.some.inj h ▸ decodeRaw_of rfl hw
theorem and d a b st : Statement (.and d a b st) := fun _ hw h => Option.some.inj h ▸ decodeRaw_of rfl hw
theorem or d a b st : Statement (.or d a b st) := fun _ hw h => Option.some.inj h ▸ decodeRaw_of rfl hw
theorem xor d a b st : Statement (.xor d a b st) := fun _ hw h => Option.some.inj h ▸ decodeRaw_of rfl hw
theorem andn d a b st : Statement (.andn d a b st) := fun _ hw h => Option.some.inj h ▸ decodeRaw_of rfl hw
theorem shl d a b st : Statement (.shl d a b st) := fun _ hw h => Option.some.inj h ▸ decodeRaw_of rfl hw
theorem shr d a b st : Statement (.shr d a b st) := fun _ hw h => Option.some.inj h ▸ decodeRaw_of rfl hw
theorem shra d a b st : Statement (.shra d a b st) := fun _ hw h => Option.some.inj h ▸ decodeRaw_of rfl hw
theorem ror d a b st : Statement (.ror d a b st) := fun _ hw h => Option.some.inj h ▸ decodeRaw_of rfl hw
theorem slt d a b st : Statement (.slt d a b st) := fun _ hw h => Option.some.inj h ▸ decodeRaw_of rfl hw
theorem sltz d a b st : Statement (.sltz d a b st) := fun _ hw h => Option.some.inj h ▸ decodeRaw_of rfl hw
theorem seq d a b st : Statement (.seq d a b st) := fun _ hw h => Option.some.inj h ▸ decodeRaw_of rfl hw
theorem sne d a b st : Statement (.sne d a b st) := fun _ hw h => Option.some.inj h ▸ decodeRaw_of rfl hw
theorem min d a b st : Statement (.min d a b st) := fun _ hw h => Option.some.inj h ▸ decodeRaw_of rfl hw
theorem max d a b st : Statement (.max d a b st) := fun _ hw h => Option.some.inj h ▸ decodeRaw_of rfl hw
theorem minz d a b st : Statement (.minz d a b st) := fun _ hw h => Option.some.inj h ▸ decodeRaw_of rfl hw
theorem maxz d a b st : Statement (.maxz d a b st) := fun _ hw h => Option.some.inj h ▸ decodeRaw_of rfl hw
theorem clz d a st : Statement (.clz d a st) := fun _ hw h => Option.some.inj h ▸ decodeRaw_of rfl hw
theorem ctz d a st : Statement (.ctz d a st) := fun _ hw h => Option.some.inj h ▸ decodeRaw_of rfl hw
theorem popc d a st : Statement (.popc d a st) := fun _ hw h => Option.some.inj h ▸ decodeRaw_of rfl hw
theorem brev d a st : Statement (.brev d a st) := fun _ hw h => Option.some.inj h ▸ decodeRaw_of rfl hw
theorem sel d a b c st : Statement (.sel d a b c st) := fun _ hw h => Option.some.inj h ▸ decodeRaw_of rfl hw
theorem bfxs d a p n st : Statement (.bfxs d a p n st) := fun _ hw h => Option.some.inj h ▸
  decodeRaw_of (keep_eq { len := (1 : BitVec 2), st := (st), op := (10), d := (d), a := (a), imm := packImm [(0, ((packImm [(0, p.toNat), (6, n.toNat)]).extractLsb' 0 6).toNat), (6, ((packImm [(0, p.toNat), (6, n.toNat)]).extractLsb' 6 7).toNat)] } (.bfxs (d) (a) ((packImm [(0, p.toNat), (6, n.toNat)]).extractLsb' 0 6) ((packImm [(0, p.toNat), (6, n.toNat)]).extractLsb' 6 7) (st)) (by simp only [pack_0_6_w6_7_0, pack_0_6_w6_7_1]) (by simp only [pack_0_6_w6_7_0, pack_0_6_w6_7_1])) hw
theorem bfxz d a p n st : Statement (.bfxz d a p n st) := fun _ hw h => Option.some.inj h ▸
  decodeRaw_of (keep_eq { len := (1 : BitVec 2), st := (st), op := (10), d := (d), a := (a), f := (1 : BitVec 2), imm := packImm [(0, ((packImm [(0, p.toNat), (6, n.toNat)]).extractLsb' 0 6).toNat), (6, ((packImm [(0, p.toNat), (6, n.toNat)]).extractLsb' 6 7).toNat)] } (.bfxz (d) (a) ((packImm [(0, p.toNat), (6, n.toNat)]).extractLsb' 0 6) ((packImm [(0, p.toNat), (6, n.toNat)]).extractLsb' 6 7) (st)) (by simp only [pack_0_6_w6_7_0, pack_0_6_w6_7_1]) (by simp only [pack_0_6_w6_7_0, pack_0_6_w6_7_1])) hw
theorem bfins d a b p n st : Statement (.bfins d a b p n st) := fun _ hw h => Option.some.inj h ▸
  decodeRaw_of (keep_eq { len := (1 : BitVec 2), st := (st), op := (10), d := (d), a := (a), b := (b), f := (2 : BitVec 2), imm := packImm [(0, ((packImm [(0, p.toNat), (6, n.toNat)]).extractLsb' 0 6).toNat), (6, ((packImm [(0, p.toNat), (6, n.toNat)]).extractLsb' 6 7).toNat)] } (.bfins (d) (a) (b) ((packImm [(0, p.toNat), (6, n.toNat)]).extractLsb' 0 6) ((packImm [(0, p.toNat), (6, n.toNat)]).extractLsb' 6 7) (st)) (by simp only [pack_0_6_w6_7_0, pack_0_6_w6_7_1]) (by simp only [pack_0_6_w6_7_0, pack_0_6_w6_7_1])) hw
theorem lea d a b k st : Statement (.lea d a b k st) := fun _ hw h => Option.some.inj h ▸ decodeRaw_of rfl hw
theorem fadd d a b st : Statement (.fadd d a b st) := fun _ hw h => Option.some.inj h ▸ decodeRaw_of rfl hw
theorem fsub d a b st : Statement (.fsub d a b st) := fun _ hw h => Option.some.inj h ▸ decodeRaw_of rfl hw
theorem fmul d a b st : Statement (.fmul d a b st) := fun _ hw h => Option.some.inj h ▸ decodeRaw_of rfl hw
theorem fdiv d a b st : Statement (.fdiv d a b st) := fun _ hw h => Option.some.inj h ▸ decodeRaw_of rfl hw
theorem fmin d a b st : Statement (.fmin d a b st) := fun _ hw h => Option.some.inj h ▸ decodeRaw_of rfl hw
theorem fmax d a b st : Statement (.fmax d a b st) := fun _ hw h => Option.some.inj h ▸ decodeRaw_of rfl hw
theorem fsqrt d a st : Statement (.fsqrt d a st) := fun _ hw h => Option.some.inj h ▸ decodeRaw_of rfl hw
theorem ffma d a b c st : Statement (.ffma d a b c st) := fun _ hw h => Option.some.inj h ▸ decodeRaw_of rfl hw
theorem flt d a b st : Statement (.flt d a b st) := fun _ hw h => Option.some.inj h ▸ decodeRaw_of rfl hw
theorem fle d a b st : Statement (.fle d a b st) := fun _ hw h => Option.some.inj h ▸ decodeRaw_of rfl hw
theorem feq d a b st : Statement (.feq d a b st) := fun _ hw h => Option.some.inj h ▸ decodeRaw_of rfl hw
theorem fclass d a st : Statement (.fclass d a st) := fun _ hw h => Option.some.inj h ▸ decodeRaw_of rfl hw
theorem fcvtif d a st : Statement (.fcvtif d a st) := fun _ hw h => Option.some.inj h ▸ decodeRaw_of rfl hw
theorem fcvtifX d a fmt st : Statement (.fcvtifX d a fmt st) := fun _ hw h => Option.some.inj h ▸ decodeRaw_of rfl hw
theorem fcvtfi d a st : Statement (.fcvtfi d a st) := fun _ hw h => Option.some.inj h ▸ decodeRaw_of rfl hw
theorem fcvtfiX d a fmt st : Statement (.fcvtfiX d a fmt st) := fun _ hw h => Option.some.inj h ▸ decodeRaw_of rfl hw
theorem fcvth d a fmt sat st : Statement (.fcvth d a fmt sat st) := fun _ hw h => Option.some.inj h ▸
  decodeRaw_of (keep_eq { len := (1 : BitVec 2), st := (st), op := (15), d := (d), a := (a), f := (2 : BitVec 2), fmt := (fmt), imm := packImm [(30, ((packImm [(30, sat.toNat)]).extractLsb' 30 1).toNat)] } (.fcvth (d) (a) (fmt) ((packImm [(30, sat.toNat)]).extractLsb' 30 1) (st)) (by simp only [pack_30_w1_0]) (by simp only [pack_30_w1_0])) hw
theorem fcvte d a fmt st : Statement (.fcvte d a fmt st) := fun _ hw h => Option.some.inj h ▸ decodeRaw_of rfl hw
theorem addi d a imm8 st : Statement (.addi d a imm8 st) := fun _ hw h => Option.some.inj h ▸
  decodeRaw_of (keep_eq { st := (st), op := (16), d := (d), a := (a), b := (lo8 imm8), f := (hi8 imm8) } (.addi (d) (a) ((hi8 imm8) ++ (lo8 imm8)) (st)) (by rfl) (by simp only [join8])) hw
theorem addiLit d a lit st : Statement (.addiLit d a lit st) := fun _ hw h => Option.some.inj h ▸ decodeRaw_of rfl hw
theorem andi d a imm8 st : Statement (.andi d a imm8 st) := fun _ hw h => Option.some.inj h ▸
  decodeRaw_of (keep_eq { st := (st), op := (17), d := (d), a := (a), b := (lo8 imm8), f := (hi8 imm8) } (.andi (d) (a) ((hi8 imm8) ++ (lo8 imm8)) (st)) (by rfl) (by simp only [join8])) hw
theorem andiLit d a lit st : Statement (.andiLit d a lit st) := fun _ hw h => Option.some.inj h ▸ decodeRaw_of rfl hw
theorem ori d a imm8 st : Statement (.ori d a imm8 st) := fun _ hw h => Option.some.inj h ▸
  decodeRaw_of (keep_eq { st := (st), op := (18), d := (d), a := (a), b := (lo8 imm8), f := (hi8 imm8) } (.ori (d) (a) ((hi8 imm8) ++ (lo8 imm8)) (st)) (by rfl) (by simp only [join8])) hw
theorem oriLit d a lit st : Statement (.oriLit d a lit st) := fun _ hw h => Option.some.inj h ▸ decodeRaw_of rfl hw
theorem xori d a imm8 st : Statement (.xori d a imm8 st) := fun _ hw h => Option.some.inj h ▸
  decodeRaw_of (keep_eq { st := (st), op := (19), d := (d), a := (a), b := (lo8 imm8), f := (hi8 imm8) } (.xori (d) (a) ((hi8 imm8) ++ (lo8 imm8)) (st)) (by rfl) (by simp only [join8])) hw
theorem xoriLit d a lit st : Statement (.xoriLit d a lit st) := fun _ hw h => Option.some.inj h ▸ decodeRaw_of rfl hw
theorem shli d a imm8 st : Statement (.shli d a imm8 st) := fun _ hw h => Option.some.inj h ▸
  decodeRaw_of (keep_eq { st := (st), op := (20), d := (d), a := (a), b := (lo8 imm8), f := (hi8 imm8) } (.shli (d) (a) ((hi8 imm8) ++ (lo8 imm8)) (st)) (by rfl) (by simp only [join8])) hw
theorem shliLit d a lit st : Statement (.shliLit d a lit st) := fun _ hw h => Option.some.inj h ▸ decodeRaw_of rfl hw
theorem shri d a imm8 st : Statement (.shri d a imm8 st) := fun _ hw h => Option.some.inj h ▸
  decodeRaw_of (keep_eq { st := (st), op := (21), d := (d), a := (a), b := (lo8 imm8), f := (hi8 imm8) } (.shri (d) (a) ((hi8 imm8) ++ (lo8 imm8)) (st)) (by rfl) (by simp only [join8])) hw
theorem shriLit d a lit st : Statement (.shriLit d a lit st) := fun _ hw h => Option.some.inj h ▸ decodeRaw_of rfl hw
theorem shrai d a imm8 st : Statement (.shrai d a imm8 st) := fun _ hw h => Option.some.inj h ▸
  decodeRaw_of (keep_eq { st := (st), op := (22), d := (d), a := (a), b := (lo8 imm8), f := (hi8 imm8) } (.shrai (d) (a) ((hi8 imm8) ++ (lo8 imm8)) (st)) (by rfl) (by simp only [join8])) hw
theorem shraiLit d a lit st : Statement (.shraiLit d a lit st) := fun _ hw h => Option.some.inj h ▸ decodeRaw_of rfl hw
theorem slti d a imm8 st : Statement (.slti d a imm8 st) := fun _ hw h => Option.some.inj h ▸
  decodeRaw_of (keep_eq { st := (st), op := (23), d := (d), a := (a), b := (lo8 imm8), f := (hi8 imm8) } (.slti (d) (a) ((hi8 imm8) ++ (lo8 imm8)) (st)) (by rfl) (by simp only [join8])) hw
theorem sltiLit d a lit st : Statement (.sltiLit d a lit st) := fun _ hw h => Option.some.inj h ▸ decodeRaw_of rfl hw
theorem sltzi d a imm8 st : Statement (.sltzi d a imm8 st) := fun _ hw h => Option.some.inj h ▸
  decodeRaw_of (keep_eq { st := (st), op := (24), d := (d), a := (a), b := (lo8 imm8), f := (hi8 imm8) } (.sltzi (d) (a) ((hi8 imm8) ++ (lo8 imm8)) (st)) (by rfl) (by simp only [join8])) hw
theorem sltziLit d a lit st : Statement (.sltziLit d a lit st) := fun _ hw h => Option.some.inj h ▸ decodeRaw_of rfl hw
theorem muli d a imm8 st : Statement (.muli d a imm8 st) := fun _ hw h => Option.some.inj h ▸
  decodeRaw_of (keep_eq { st := (st), op := (25), d := (d), a := (a), b := (lo8 imm8), f := (hi8 imm8) } (.muli (d) (a) ((hi8 imm8) ++ (lo8 imm8)) (st)) (by rfl) (by simp only [join8])) hw
theorem muliLit d a lit st : Statement (.muliLit d a lit st) := fun _ hw h => Option.some.inj h ▸ decodeRaw_of rfl hw
theorem li d imm14 st : Statement (.li d imm14 st) := fun _ hw h => Option.some.inj h ▸
  decodeRaw_of (keep_eq { st := (st), op := (26), d := (d), a := (lo14 imm14), b := (mid14 imm14), f := (hi14 imm14) } (.li (d) ((hi14 imm14) ++ (mid14 imm14) ++ (lo14 imm14)) (st)) (by rfl) (by simp only [join14])) hw
theorem liLit d lit st : Statement (.liLit d lit st) := fun _ hw h => Option.some.inj h ▸ decodeRaw_of rfl hw
theorem br off20 st : Statement (.br off20 st) := fun _ hw h => Option.some.inj h ▸
  decodeRaw_of (keep_eq { st := (st), op := (32), d := (lo20 off20), a := (a20 off20), b := (b20 off20), f := (hi20 off20) } (.br ((hi20 off20) ++ (b20 off20) ++ (a20 off20) ++ (lo20 off20)) (st)) (by rfl) (by simp only [join20])) hw
theorem beqz d off14 st : Statement (.beqz d off14 st) := fun _ hw h => Option.some.inj h ▸
  decodeRaw_of (keep_eq { st := (st), op := (33), d := (d), a := (lo14 off14), b := (mid14 off14), f := (hi14 off14) } (.beqz (d) ((hi14 off14) ++ (mid14 off14) ++ (lo14 off14)) (st)) (by rfl) (by simp only [join14])) hw
theorem bnez d off14 st : Statement (.bnez d off14 st) := fun _ hw h => Option.some.inj h ▸
  decodeRaw_of (keep_eq { st := (st), op := (34), d := (d), a := (lo14 off14), b := (mid14 off14), f := (hi14 off14) } (.bnez (d) ((hi14 off14) ++ (mid14 off14) ++ (lo14 off14)) (st)) (by rfl) (by simp only [join14])) hw
theorem bltz d off14 st : Statement (.bltz d off14 st) := fun _ hw h => Option.some.inj h ▸
  decodeRaw_of (keep_eq { st := (st), op := (35), d := (d), a := (lo14 off14), b := (mid14 off14), f := (hi14 off14) } (.bltz (d) ((hi14 off14) ++ (mid14 off14) ++ (lo14 off14)) (st)) (by rfl) (by simp only [join14])) hw
theorem bgez d off14 st : Statement (.bgez d off14 st) := fun _ hw h => Option.some.inj h ▸
  decodeRaw_of (keep_eq { st := (st), op := (36), d := (d), a := (lo14 off14), b := (mid14 off14), f := (hi14 off14) } (.bgez (d) ((hi14 off14) ++ (mid14 off14) ++ (lo14 off14)) (st)) (by rfl) (by simp only [join14])) hw
theorem beq a b imm st : Statement (.beq a b imm st) := fun _ hw h => Option.some.inj h ▸ decodeRaw_of rfl hw
theorem bne a b imm st : Statement (.bne a b imm st) := fun _ hw h => Option.some.inj h ▸ decodeRaw_of rfl hw
theorem blt a b imm st : Statement (.blt a b imm st) := fun _ hw h => Option.some.inj h ▸ decodeRaw_of rfl hw
theorem blo a b imm st : Statement (.blo a b imm st) := fun _ hw h => Option.some.inj h ▸ decodeRaw_of rfl hw
theorem call off20 st : Statement (.call off20 st) := fun _ hw h => Option.some.inj h ▸
  decodeRaw_of (keep_eq { st := (st), op := (38), d := (lo20 off20), a := (a20 off20), b := (b20 off20), f := (hi20 off20) } (.call ((hi20 off20) ++ (b20 off20) ++ (a20 off20) ++ (lo20 off20)) (st)) (by rfl) (by simp only [join20])) hw
theorem callr d a st : Statement (.callr d a st) := fun _ hw h => Option.some.inj h ▸ decodeRaw_of rfl hw
theorem jmpr a st : Statement (.jmpr a st) := fun _ hw h => Option.some.inj h ▸ decodeRaw_of rfl hw
theorem ret st : Statement (.ret st) := fun _ hw h => Option.some.inj h ▸ decodeRaw_of rfl hw
theorem start d a b st : Statement (.start d a b st) := fun _ hw h => Option.some.inj h ▸ decodeRaw_of rfl hw
theorem startX d a b c w mig st : Statement (.startX d a b c w mig st) := fun _ hw h => Option.some.inj h ▸
  decodeRaw_of (keep_eq { len := (1 : BitVec 2), st := (st), op := (40), d := (d), a := (a), b := (b), c := (c), imm := packImm [(0, ((packImm [(0, w.toNat), (8, mig.toNat)]).extractLsb' 0 6).toNat), (8, ((packImm [(0, w.toNat), (8, mig.toNat)]).extractLsb' 8 1).toNat)] } (.startX (d) (a) (b) (c) ((packImm [(0, w.toNat), (8, mig.toNat)]).extractLsb' 0 6) ((packImm [(0, w.toNat), (8, mig.toNat)]).extractLsb' 8 1) (st)) (by simp only [pack_0_8_w6_1_0, pack_0_8_w6_1_1]) (by simp only [pack_0_8_w6_1_0, pack_0_8_w6_1_1])) hw
theorem startm d st : Statement (.startm d st) := fun _ hw h => Option.some.inj h ▸ decodeRaw_of rfl hw
theorem startmX d cls has st : Statement (.startmX d cls has st) := fun _ hw h => Option.some.inj h ▸
  decodeRaw_of (keep_eq { len := (1 : BitVec 2), st := (st), op := (40), d := (d), f := (1 : BitVec 2), imm := packImm [(0, ((packImm [(0, cls.toNat), (16, has.toNat)]).extractLsb' 0 16).toNat), (16, ((packImm [(0, cls.toNat), (16, has.toNat)]).extractLsb' 16 1).toNat)] } (.startmX (d) ((packImm [(0, cls.toNat), (16, has.toNat)]).extractLsb' 0 16) ((packImm [(0, cls.toNat), (16, has.toNat)]).extractLsb' 16 1) (st)) (by simp only [pack_0_16_w16_1_0, pack_0_16_w16_1_1]) (by simp only [pack_0_16_w16_1_0, pack_0_16_w16_1_1])) hw
theorem startw d a st : Statement (.startw d a st) := fun _ hw h => Option.some.inj h ▸ decodeRaw_of rfl hw
theorem startwX d a mig st : Statement (.startwX d a mig st) := fun _ hw h => Option.some.inj h ▸
  decodeRaw_of (keep_eq { len := (1 : BitVec 2), st := (st), op := (40), d := (d), a := (a), f := (2 : BitVec 2), imm := packImm [(8, ((packImm [(8, mig.toNat)]).extractLsb' 8 1).toNat)] } (.startwX (d) (a) ((packImm [(8, mig.toNat)]).extractLsb' 8 1) (st)) (by simp only [pack_8_w1_0]) (by simp only [pack_8_w1_0])) hw
theorem finish st : Statement (.finish st) := fun _ hw h => Option.some.inj h ▸ decodeRaw_of rfl hw
theorem fail a st : Statement (.fail a st) := fun _ hw h => Option.some.inj h ▸ decodeRaw_of rfl hw
theorem idle st : Statement (.idle st) := fun _ hw h => Option.some.inj h ▸ decodeRaw_of rfl hw
theorem join d a st : Statement (.join d a st) := fun _ hw h => Option.some.inj h ▸ decodeRaw_of rfl hw
theorem joinX d a imm st : Statement (.joinX d a imm st) := fun _ hw h => Option.some.inj h ▸ decodeRaw_of rfl hw
theorem joinany d st : Statement (.joinany d st) := fun _ hw h => Option.some.inj h ▸ decodeRaw_of rfl hw
theorem joinanyX d imm st : Statement (.joinanyX d imm st) := fun _ hw h => Option.some.inj h ▸ decodeRaw_of rfl hw
theorem hstat d a st : Statement (.hstat d a st) := fun _ hw h => Option.some.inj h ▸ decodeRaw_of rfl hw
theorem hstatX d a st : Statement (.hstatX d a st) := fun _ hw h => Option.some.inj h ▸ decodeRaw_of rfl hw
theorem popw d a st : Statement (.popw d a st) := fun _ hw h => Option.some.inj h ▸ decodeRaw_of rfl hw
theorem pushw d a st : Statement (.pushw d a st) := fun _ hw h => Option.some.inj h ▸ decodeRaw_of rfl hw
theorem launch d a st : Statement (.launch d a st) := fun _ hw h => Option.some.inj h ▸ decodeRaw_of rfl hw
theorem launchX d a imm st : Statement (.launchX d a imm st) := fun _ hw h => Option.some.inj h ▸ decodeRaw_of rfl hw
theorem lwait d a st : Statement (.lwait d a st) := fun _ hw h => Option.some.inj h ▸ decodeRaw_of rfl hw
theorem lwaitX d a e st : Statement (.lwaitX d a e st) := fun _ hw h => Option.some.inj h ▸ decodeRaw_of rfl hw
theorem widf d a b st : Statement (.widf d a b st) := fun _ hw h => Option.some.inj h ▸ decodeRaw_of rfl hw
theorem widr d a b st : Statement (.widr d a b st) := fun _ hw h => Option.some.inj h ▸ decodeRaw_of rfl hw
theorem mfk d a st : Statement (.mfk d a st) := fun _ hw h => Option.some.inj h ▸ decodeRaw_of rfl hw
theorem mtk d a st : Statement (.mtk d a st) := fun _ hw h => Option.some.inj h ▸ decodeRaw_of rfl hw
theorem trap a st : Statement (.trap a st) := fun _ hw h => Option.some.inj h ▸ decodeRaw_of rfl hw
theorem brk st : Statement (.brk st) := fun _ hw h => Option.some.inj h ▸ decodeRaw_of rfl hw
theorem sysc d a st : Statement (.sysc d a st) := fun _ hw h => Option.some.inj h ▸ decodeRaw_of rfl hw
theorem eret st : Statement (.eret st) := fun _ hw h => Option.some.inj h ▸ decodeRaw_of rfl hw
theorem ldb d a imm8 st : Statement (.ldb d a imm8 st) := fun _ hw h => Option.some.inj h ▸
  decodeRaw_of (keep_eq { st := (st), op := (48), d := (d), a := (a), b := (lo8 imm8), f := (hi8 imm8) } (.ldb (d) (a) ((hi8 imm8) ++ (lo8 imm8)) (st)) (by rfl) (by simp only [join8])) hw
theorem ldbLit d a lit st : Statement (.ldbLit d a lit st) := fun _ hw h => Option.some.inj h ▸ decodeRaw_of rfl hw
theorem ldbX d a sc od sy ph imm st : Statement (.ldbX d a sc od sy ph imm st) := fun _ hw h => Option.some.inj h ▸ decodeRaw_of rfl hw
theorem ldbXlit d a sc od sy ph lit st : Statement (.ldbXlit d a sc od sy ph lit st) := fun _ hw h => Option.some.inj h ▸ decodeRaw_of rfl hw
theorem ldbz d a imm8 st : Statement (.ldbz d a imm8 st) := fun _ hw h => Option.some.inj h ▸
  decodeRaw_of (keep_eq { st := (st), op := (49), d := (d), a := (a), b := (lo8 imm8), f := (hi8 imm8) } (.ldbz (d) (a) ((hi8 imm8) ++ (lo8 imm8)) (st)) (by rfl) (by simp only [join8])) hw
theorem ldbzLit d a lit st : Statement (.ldbzLit d a lit st) := fun _ hw h => Option.some.inj h ▸ decodeRaw_of rfl hw
theorem ldbzX d a sc od sy ph imm st : Statement (.ldbzX d a sc od sy ph imm st) := fun _ hw h => Option.some.inj h ▸ decodeRaw_of rfl hw
theorem ldbzXlit d a sc od sy ph lit st : Statement (.ldbzXlit d a sc od sy ph lit st) := fun _ hw h => Option.some.inj h ▸ decodeRaw_of rfl hw
theorem ldh d a imm8 st : Statement (.ldh d a imm8 st) := fun _ hw h => Option.some.inj h ▸
  decodeRaw_of (keep_eq { st := (st), op := (50), d := (d), a := (a), b := (lo8 imm8), f := (hi8 imm8) } (.ldh (d) (a) ((hi8 imm8) ++ (lo8 imm8)) (st)) (by rfl) (by simp only [join8])) hw
theorem ldhLit d a lit st : Statement (.ldhLit d a lit st) := fun _ hw h => Option.some.inj h ▸ decodeRaw_of rfl hw
theorem ldhX d a sc od sy ph imm st : Statement (.ldhX d a sc od sy ph imm st) := fun _ hw h => Option.some.inj h ▸ decodeRaw_of rfl hw
theorem ldhXlit d a sc od sy ph lit st : Statement (.ldhXlit d a sc od sy ph lit st) := fun _ hw h => Option.some.inj h ▸ decodeRaw_of rfl hw
theorem ldhz d a imm8 st : Statement (.ldhz d a imm8 st) := fun _ hw h => Option.some.inj h ▸
  decodeRaw_of (keep_eq { st := (st), op := (51), d := (d), a := (a), b := (lo8 imm8), f := (hi8 imm8) } (.ldhz (d) (a) ((hi8 imm8) ++ (lo8 imm8)) (st)) (by rfl) (by simp only [join8])) hw
theorem ldhzLit d a lit st : Statement (.ldhzLit d a lit st) := fun _ hw h => Option.some.inj h ▸ decodeRaw_of rfl hw
theorem ldhzX d a sc od sy ph imm st : Statement (.ldhzX d a sc od sy ph imm st) := fun _ hw h => Option.some.inj h ▸ decodeRaw_of rfl hw
theorem ldhzXlit d a sc od sy ph lit st : Statement (.ldhzXlit d a sc od sy ph lit st) := fun _ hw h => Option.some.inj h ▸ decodeRaw_of rfl hw
theorem ldw d a imm8 st : Statement (.ldw d a imm8 st) := fun _ hw h => Option.some.inj h ▸
  decodeRaw_of (keep_eq { st := (st), op := (52), d := (d), a := (a), b := (lo8 imm8), f := (hi8 imm8) } (.ldw (d) (a) ((hi8 imm8) ++ (lo8 imm8)) (st)) (by rfl) (by simp only [join8])) hw
theorem ldwLit d a lit st : Statement (.ldwLit d a lit st) := fun _ hw h => Option.some.inj h ▸ decodeRaw_of rfl hw
theorem ldwX d a sc od sy ph imm st : Statement (.ldwX d a sc od sy ph imm st) := fun _ hw h => Option.some.inj h ▸ decodeRaw_of rfl hw
theorem ldwXlit d a sc od sy ph lit st : Statement (.ldwXlit d a sc od sy ph lit st) := fun _ hw h => Option.some.inj h ▸ decodeRaw_of rfl hw
theorem ldwz d a imm8 st : Statement (.ldwz d a imm8 st) := fun _ hw h => Option.some.inj h ▸
  decodeRaw_of (keep_eq { st := (st), op := (53), d := (d), a := (a), b := (lo8 imm8), f := (hi8 imm8) } (.ldwz (d) (a) ((hi8 imm8) ++ (lo8 imm8)) (st)) (by rfl) (by simp only [join8])) hw
theorem ldwzLit d a lit st : Statement (.ldwzLit d a lit st) := fun _ hw h => Option.some.inj h ▸ decodeRaw_of rfl hw
theorem ldwzX d a sc od sy ph imm st : Statement (.ldwzX d a sc od sy ph imm st) := fun _ hw h => Option.some.inj h ▸ decodeRaw_of rfl hw
theorem ldwzXlit d a sc od sy ph lit st : Statement (.ldwzXlit d a sc od sy ph lit st) := fun _ hw h => Option.some.inj h ▸ decodeRaw_of rfl hw
theorem ldd d a imm8 st : Statement (.ldd d a imm8 st) := fun _ hw h => Option.some.inj h ▸
  decodeRaw_of (keep_eq { st := (st), op := (54), d := (d), a := (a), b := (lo8 imm8), f := (hi8 imm8) } (.ldd (d) (a) ((hi8 imm8) ++ (lo8 imm8)) (st)) (by rfl) (by simp only [join8])) hw
theorem lddLit d a lit st : Statement (.lddLit d a lit st) := fun _ hw h => Option.some.inj h ▸ decodeRaw_of rfl hw
theorem lddX d a sc od sy ph imm st : Statement (.lddX d a sc od sy ph imm st) := fun _ hw h => Option.some.inj h ▸ decodeRaw_of rfl hw
theorem lddXlit d a sc od sy ph lit st : Statement (.lddXlit d a sc od sy ph lit st) := fun _ hw h => Option.some.inj h ▸ decodeRaw_of rfl hw
theorem stb d a imm8 st : Statement (.stb d a imm8 st) := fun _ hw h => Option.some.inj h ▸
  decodeRaw_of (keep_eq { st := (st), op := (55), d := (d), a := (a), b := (lo8 imm8), f := (hi8 imm8) } (.stb (d) (a) ((hi8 imm8) ++ (lo8 imm8)) (st)) (by rfl) (by simp only [join8])) hw
theorem stbLit d a lit st : Statement (.stbLit d a lit st) := fun _ hw h => Option.some.inj h ▸ decodeRaw_of rfl hw
theorem stbX d a sc od sy ph imm st : Statement (.stbX d a sc od sy ph imm st) := fun _ hw h => Option.some.inj h ▸ decodeRaw_of rfl hw
theorem stbXlit d a sc od sy ph lit st : Statement (.stbXlit d a sc od sy ph lit st) := fun _ hw h => Option.some.inj h ▸ decodeRaw_of rfl hw
theorem sth d a imm8 st : Statement (.sth d a imm8 st) := fun _ hw h => Option.some.inj h ▸
  decodeRaw_of (keep_eq { st := (st), op := (56), d := (d), a := (a), b := (lo8 imm8), f := (hi8 imm8) } (.sth (d) (a) ((hi8 imm8) ++ (lo8 imm8)) (st)) (by rfl) (by simp only [join8])) hw
theorem sthLit d a lit st : Statement (.sthLit d a lit st) := fun _ hw h => Option.some.inj h ▸ decodeRaw_of rfl hw
theorem sthX d a sc od sy ph imm st : Statement (.sthX d a sc od sy ph imm st) := fun _ hw h => Option.some.inj h ▸ decodeRaw_of rfl hw
theorem sthXlit d a sc od sy ph lit st : Statement (.sthXlit d a sc od sy ph lit st) := fun _ hw h => Option.some.inj h ▸ decodeRaw_of rfl hw
theorem stw d a imm8 st : Statement (.stw d a imm8 st) := fun _ hw h => Option.some.inj h ▸
  decodeRaw_of (keep_eq { st := (st), op := (57), d := (d), a := (a), b := (lo8 imm8), f := (hi8 imm8) } (.stw (d) (a) ((hi8 imm8) ++ (lo8 imm8)) (st)) (by rfl) (by simp only [join8])) hw
theorem stwLit d a lit st : Statement (.stwLit d a lit st) := fun _ hw h => Option.some.inj h ▸ decodeRaw_of rfl hw
theorem stwX d a sc od sy ph imm st : Statement (.stwX d a sc od sy ph imm st) := fun _ hw h => Option.some.inj h ▸ decodeRaw_of rfl hw
theorem stwXlit d a sc od sy ph lit st : Statement (.stwXlit d a sc od sy ph lit st) := fun _ hw h => Option.some.inj h ▸ decodeRaw_of rfl hw
theorem std d a imm8 st : Statement (.std d a imm8 st) := fun _ hw h => Option.some.inj h ▸
  decodeRaw_of (keep_eq { st := (st), op := (58), d := (d), a := (a), b := (lo8 imm8), f := (hi8 imm8) } (.std (d) (a) ((hi8 imm8) ++ (lo8 imm8)) (st)) (by rfl) (by simp only [join8])) hw
theorem stdLit d a lit st : Statement (.stdLit d a lit st) := fun _ hw h => Option.some.inj h ▸ decodeRaw_of rfl hw
theorem stdX d a sc od sy ph imm st : Statement (.stdX d a sc od sy ph imm st) := fun _ hw h => Option.some.inj h ▸ decodeRaw_of rfl hw
theorem stdXlit d a sc od sy ph lit st : Statement (.stdXlit d a sc od sy ph lit st) := fun _ hw h => Option.some.inj h ▸ decodeRaw_of rfl hw
theorem ldfe d a st : Statement (.ldfe d a st) := fun _ hw h => Option.some.inj h ▸ decodeRaw_of rfl hw
theorem ldfeX d a e sc od ph imm st : Statement (.ldfeX d a e sc od ph imm st) := fun _ hw h => Option.some.inj h ▸ decodeRaw_of rfl hw
theorem ldff d a st : Statement (.ldff d a st) := fun _ hw h => Option.some.inj h ▸ decodeRaw_of rfl hw
theorem ldffX d a e sc od ph imm st : Statement (.ldffX d a e sc od ph imm st) := fun _ hw h => Option.some.inj h ▸ decodeRaw_of rfl hw
theorem ldtag d a st : Statement (.ldtag d a st) := fun _ hw h => Option.some.inj h ▸ decodeRaw_of rfl hw
theorem ldtagX d a sc od ph imm st : Statement (.ldtagX d a sc od ph imm st) := fun _ hw h => Option.some.inj h ▸ decodeRaw_of rfl hw
theorem stef d a b st : Statement (.stef d a b st) := fun _ hw h => Option.some.inj h ▸ decodeRaw_of rfl hw
theorem stefX d a b sc od ph imm st : Statement (.stefX d a b sc od ph imm st) := fun _ hw h => Option.some.inj h ▸ decodeRaw_of rfl hw
theorem stff d a b st : Statement (.stff d a b st) := fun _ hw h => Option.some.inj h ▸ decodeRaw_of rfl hw
theorem stffX d a b sc od ph imm st : Statement (.stffX d a b sc od ph imm st) := fun _ hw h => Option.some.inj h ▸ decodeRaw_of rfl hw
theorem tclr a st : Statement (.tclr a st) := fun _ hw h => Option.some.inj h ▸ decodeRaw_of rfl hw
theorem tclrX a sc od ph imm st : Statement (.tclrX a sc od ph imm st) := fun _ hw h => Option.some.inj h ▸ decodeRaw_of rfl hw
theorem tfill a st : Statement (.tfill a st) := fun _ hw h => Option.some.inj h ▸ decodeRaw_of rfl hw
theorem tfillX a sc od ph imm st : Statement (.tfillX a sc od ph imm st) := fun _ hw h => Option.some.inj h ▸ decodeRaw_of rfl hw
theorem aadd d a b st : Statement (.aadd d a b st) := fun _ hw h => Option.some.inj h ▸ decodeRaw_of rfl hw
theorem aaddX d a b sc od ph imm st : Statement (.aaddX d a b sc od ph imm st) := fun _ hw h => Option.some.inj h ▸ decodeRaw_of rfl hw
theorem amin d a b st : Statement (.amin d a b st) := fun _ hw h => Option.some.inj h ▸ decodeRaw_of rfl hw
theorem aminX d a b sc od ph imm st : Statement (.aminX d a b sc od ph imm st) := fun _ hw h => Option.some.inj h ▸ decodeRaw_of rfl hw
theorem amax d a b st : Statement (.amax d a b st) := fun _ hw h => Option.some.inj h ▸ decodeRaw_of rfl hw
theorem amaxX d a b sc od ph imm st : Statement (.amaxX d a b sc od ph imm st) := fun _ hw h => Option.some.inj h ▸ decodeRaw_of rfl hw
theorem aminz d a b st : Statement (.aminz d a b st) := fun _ hw h => Option.some.inj h ▸ decodeRaw_of rfl hw
theorem aminzX d a b sc od ph imm st : Statement (.aminzX d a b sc od ph imm st) := fun _ hw h => Option.some.inj h ▸ decodeRaw_of rfl hw
theorem aand d a b st : Statement (.aand d a b st) := fun _ hw h => Option.some.inj h ▸ decodeRaw_of rfl hw
theorem aandX d a b sc od ph imm st : Statement (.aandX d a b sc od ph imm st) := fun _ hw h => Option.some.inj h ▸ decodeRaw_of rfl hw
theorem aor d a b st : Statement (.aor d a b st) := fun _ hw h => Option.some.inj h ▸ decodeRaw_of rfl hw
theorem aorX d a b sc od ph imm st : Statement (.aorX d a b sc od ph imm st) := fun _ hw h => Option.some.inj h ▸ decodeRaw_of rfl hw
theorem axor d a b st : Statement (.axor d a b st) := fun _ hw h => Option.some.inj h ▸ decodeRaw_of rfl hw
theorem axorX d a b sc od ph imm st : Statement (.axorX d a b sc od ph imm st) := fun _ hw h => Option.some.inj h ▸ decodeRaw_of rfl hw
theorem aswp d a b st : Statement (.aswp d a b st) := fun _ hw h => Option.some.inj h ▸ decodeRaw_of rfl hw
theorem aswpX d a b sc od ph imm st : Statement (.aswpX d a b sc od ph imm st) := fun _ hw h => Option.some.inj h ▸ decodeRaw_of rfl hw
theorem acas d a b st : Statement (.acas d a b st) := fun _ hw h => Option.some.inj h ▸ decodeRaw_of rfl hw
theorem acasX d a b c sc od ph imm st : Statement (.acasX d a b c sc od ph imm st) := fun _ hw h => Option.some.inj h ▸ decodeRaw_of rfl hw
theorem aaddf d a b st : Statement (.aaddf d a b st) := fun _ hw h => Option.some.inj h ▸ decodeRaw_of rfl hw
theorem aaddfX d a b sc od ph imm st : Statement (.aaddfX d a b sc od ph imm st) := fun _ hw h => Option.some.inj h ▸ decodeRaw_of rfl hw
theorem amaxf d a b st : Statement (.amaxf d a b st) := fun _ hw h => Option.some.inj h ▸ decodeRaw_of rfl hw
theorem amaxfX d a b sc od ph imm st : Statement (.amaxfX d a b sc od ph imm st) := fun _ hw h => Option.some.inj h ▸ decodeRaw_of rfl hw
theorem ainc d a b st : Statement (.ainc d a b st) := fun _ hw h => Option.some.inj h ▸ decodeRaw_of rfl hw
theorem aincX d a b sc od ph imm st : Statement (.aincX d a b sc od ph imm st) := fun _ hw h => Option.some.inj h ▸ decodeRaw_of rfl hw
theorem fence st : Statement (.fence st) := fun _ hw h => Option.some.inj h ▸ decodeRaw_of rfl hw
theorem fenceX st : Statement (.fenceX st) := fun _ hw h => Option.some.inj h ▸ decodeRaw_of rfl hw
theorem fencelb st : Statement (.fencelb st) := fun _ hw h => Option.some.inj h ▸ decodeRaw_of rfl hw
theorem fencelbX st : Statement (.fencelbX st) := fun _ hw h => Option.some.inj h ▸ decodeRaw_of rfl hw
theorem winwait d a st : Statement (.winwait d a st) := fun _ hw h => Option.some.inj h ▸ decodeRaw_of rfl hw
theorem winwaitX d a st : Statement (.winwaitX d a st) := fun _ hw h => Option.some.inj h ▸ decodeRaw_of rfl hw
theorem ackwait st : Statement (.ackwait st) := fun _ hw h => Option.some.inj h ▸ decodeRaw_of rfl hw
theorem ackwaitX st : Statement (.ackwaitX st) := fun _ hw h => Option.some.inj h ▸ decodeRaw_of rfl hw
theorem acq d a st : Statement (.acq d a st) := fun _ hw h => Option.some.inj h ▸ decodeRaw_of rfl hw
theorem acqX d a sc imm st : Statement (.acqX d a sc imm st) := fun _ hw h => Option.some.inj h ▸ decodeRaw_of rfl hw
theorem rel d a st : Statement (.rel d a st) := fun _ hw h => Option.some.inj h ▸ decodeRaw_of rfl hw
theorem relX d a sc imm st : Statement (.relX d a sc imm st) := fun _ hw h => Option.some.inj h ▸ decodeRaw_of rfl hw
theorem bind d a b st : Statement (.bind d a b st) := fun _ hw h => Option.some.inj h ▸ decodeRaw_of rfl hw
theorem bindX d a b st : Statement (.bindX d a b st) := fun _ hw h => Option.some.inj h ▸ decodeRaw_of rfl hw
theorem unbind a st : Statement (.unbind a st) := fun _ hw h => Option.some.inj h ▸ decodeRaw_of rfl hw
theorem unbindX a st : Statement (.unbindX a st) := fun _ hw h => Option.some.inj h ▸ decodeRaw_of rfl hw
theorem tlwait a b st : Statement (.tlwait a b st) := fun _ hw h => Option.some.inj h ▸ decodeRaw_of rfl hw
theorem tlwaitX a b st : Statement (.tlwaitX a b st) := fun _ hw h => Option.some.inj h ▸ decodeRaw_of rfl hw
theorem tlread d a st : Statement (.tlread d a st) := fun _ hw h => Option.some.inj h ▸ decodeRaw_of rfl hw
theorem tlreadX d a st : Statement (.tlreadX d a st) := fun _ hw h => Option.some.inj h ▸ decodeRaw_of rfl hw
theorem tladd d a b st : Statement (.tladd d a b st) := fun _ hw h => Option.some.inj h ▸ decodeRaw_of rfl hw
theorem tladdX d a b sc st : Statement (.tladdX d a b sc st) := fun _ hw h => Option.some.inj h ▸ decodeRaw_of rfl hw
theorem qwait a st : Statement (.qwait a st) := fun _ hw h => Option.some.inj h ▸ decodeRaw_of rfl hw
theorem qwaitX a st : Statement (.qwaitX a st) := fun _ hw h => Option.some.inj h ▸ decodeRaw_of rfl hw
theorem qflip st : Statement (.qflip st) := fun _ hw h => Option.some.inj h ▸ decodeRaw_of rfl hw
theorem qflipX st : Statement (.qflipX st) := fun _ hw h => Option.some.inj h ▸ decodeRaw_of rfl hw
theorem qread d st : Statement (.qread d st) := fun _ hw h => Option.some.inj h ▸ decodeRaw_of rfl hw
theorem qreadX d st : Statement (.qreadX d st) := fun _ hw h => Option.some.inj h ▸ decodeRaw_of rfl hw
theorem barc d a st : Statement (.barc d a st) := fun _ hw h => Option.some.inj h ▸ decodeRaw_of rfl hw
theorem barcX d a st : Statement (.barcX d a st) := fun _ hw h => Option.some.inj h ▸ decodeRaw_of rfl hw
theorem barh d a st : Statement (.barh d a st) := fun _ hw h => Option.some.inj h ▸ decodeRaw_of rfl hw
theorem barhX d a st : Statement (.barhX d a st) := fun _ hw h => Option.some.inj h ▸ decodeRaw_of rfl hw
theorem pref a st : Statement (.pref a st) := fun _ hw h => Option.some.inj h ▸ decodeRaw_of rfl hw
theorem prefX a imm st : Statement (.prefX a imm st) := fun _ hw h => Option.some.inj h ▸ decodeRaw_of rfl hw
theorem cwb a b st : Statement (.cwb a b st) := fun _ hw h => Option.some.inj h ▸ decodeRaw_of rfl hw
theorem cwbX a b imm st : Statement (.cwbX a b imm st) := fun _ hw h => Option.some.inj h ▸ decodeRaw_of rfl hw
theorem cinv a b st : Statement (.cinv a b st) := fun _ hw h => Option.some.inj h ▸ decodeRaw_of rfl hw
theorem cinvX a b imm st : Statement (.cinvX a b imm st) := fun _ hw h => Option.some.inj h ▸ decodeRaw_of rfl hw
theorem vmand d a b st : Statement (.vmand d a b st) := fun _ hw h => Option.some.inj h ▸ decodeRaw_of rfl hw
theorem vmandX d a b fmt st : Statement (.vmandX d a b fmt st) := fun _ hw h => Option.some.inj h ▸ decodeRaw_of rfl hw
theorem vmor d a b st : Statement (.vmor d a b st) := fun _ hw h => Option.some.inj h ▸ decodeRaw_of rfl hw
theorem vmorX d a b fmt st : Statement (.vmorX d a b fmt st) := fun _ hw h => Option.some.inj h ▸ decodeRaw_of rfl hw
theorem vmxor d a b st : Statement (.vmxor d a b st) := fun _ hw h => Option.some.inj h ▸ decodeRaw_of rfl hw
theorem vmxorX d a b fmt st : Statement (.vmxorX d a b fmt st) := fun _ hw h => Option.some.inj h ▸ decodeRaw_of rfl hw
theorem vmnot d a st : Statement (.vmnot d a st) := fun _ hw h => Option.some.inj h ▸ decodeRaw_of rfl hw
theorem vmnotX d a fmt st : Statement (.vmnotX d a fmt st) := fun _ hw h => Option.some.inj h ▸ decodeRaw_of rfl hw
theorem vmpop d a st : Statement (.vmpop d a st) := fun _ hw h => Option.some.inj h ▸ decodeRaw_of rfl hw
theorem vmpopX d a fmt mk st : Statement (.vmpopX d a fmt mk st) := fun _ hw h => Option.some.inj h ▸ decodeRaw_of rfl hw
theorem vmfirst d a st : Statement (.vmfirst d a st) := fun _ hw h => Option.some.inj h ▸ decodeRaw_of rfl hw
theorem vmfirstX d a fmt mk st : Statement (.vmfirstX d a fmt mk st) := fun _ hw h => Option.some.inj h ▸ decodeRaw_of rfl hw
theorem viota d st : Statement (.viota d st) := fun _ hw h => Option.some.inj h ▸ decodeRaw_of rfl hw
theorem viotaX d fmt mk mp tp st : Statement (.viotaX d fmt mk mp tp st) := fun _ hw h => Option.some.inj h ▸ decodeRaw_of rfl hw
theorem vmov d a st : Statement (.vmov d a st) := fun _ hw h => Option.some.inj h ▸ decodeRaw_of rfl hw
theorem vmovX d a fmt mk mp tp st : Statement (.vmovX d a fmt mk mp tp st) := fun _ hw h => Option.some.inj h ▸ decodeRaw_of rfl hw
theorem vbcast d a st : Statement (.vbcast d a st) := fun _ hw h => Option.some.inj h ▸ decodeRaw_of rfl hw
theorem vbcastX d a fmt mk mp tp st : Statement (.vbcastX d a fmt mk mp tp st) := fun _ hw h => Option.some.inj h ▸ decodeRaw_of rfl hw
theorem vextr d a b st : Statement (.vextr d a b st) := fun _ hw h => Option.some.inj h ▸ decodeRaw_of rfl hw
theorem vextrX d a b fmt st : Statement (.vextrX d a b fmt st) := fun _ hw h => Option.some.inj h ▸ decodeRaw_of rfl hw
theorem vins d a b st : Statement (.vins d a b st) := fun _ hw h => Option.some.inj h ▸ decodeRaw_of rfl hw
theorem vinsX d a b fmt st : Statement (.vinsX d a b fmt st) := fun _ hw h => Option.some.inj h ▸ decodeRaw_of rfl hw
theorem vperm d a b st : Statement (.vperm d a b st) := fun _ hw h => Option.some.inj h ▸ decodeRaw_of rfl hw
theorem vpermX d a b fmt mk mp tp st : Statement (.vpermX d a b fmt mk mp tp st) := fun _ hw h => Option.some.inj h ▸ decodeRaw_of rfl hw
theorem vslideu d a b st : Statement (.vslideu d a b st) := fun _ hw h => Option.some.inj h ▸ decodeRaw_of rfl hw
theorem vslideuX d a b fmt mk mp tp st : Statement (.vslideuX d a b fmt mk mp tp st) := fun _ hw h => Option.some.inj h ▸ decodeRaw_of rfl hw
theorem vslided d a b st : Statement (.vslided d a b st) := fun _ hw h => Option.some.inj h ▸ decodeRaw_of rfl hw
theorem vslidedX d a b fmt mk mp tp st : Statement (.vslidedX d a b fmt mk mp tp st) := fun _ hw h => Option.some.inj h ▸ decodeRaw_of rfl hw
theorem vcompr d a st : Statement (.vcompr d a st) := fun _ hw h => Option.some.inj h ▸ decodeRaw_of rfl hw
theorem vcomprX d a fmt mk tp st : Statement (.vcomprX d a fmt mk tp st) := fun _ hw h => Option.some.inj h ▸ decodeRaw_of rfl hw
theorem vexpnd d a st : Statement (.vexpnd d a st) := fun _ hw h => Option.some.inj h ▸ decodeRaw_of rfl hw
theorem vexpndX d a fmt mk mp tp st : Statement (.vexpndX d a fmt mk mp tp st) := fun _ hw h => Option.some.inj h ▸ decodeRaw_of rfl hw
theorem vredsum d a b st : Statement (.vredsum d a b st) := fun _ hw h => Option.some.inj h ▸ decodeRaw_of rfl hw
theorem vredsumX d a b fmt mk st : Statement (.vredsumX d a b fmt mk st) := fun _ hw h => Option.some.inj h ▸ decodeRaw_of rfl hw
theorem vredmax d a b st : Statement (.vredmax d a b st) := fun _ hw h => Option.some.inj h ▸ decodeRaw_of rfl hw
theorem vredmaxX d a b fmt mk st : Statement (.vredmaxX d a b fmt mk st) := fun _ hw h => Option.some.inj h ▸ decodeRaw_of rfl hw
theorem vredmin d a b st : Statement (.vredmin d a b st) := fun _ hw h => Option.some.inj h ▸ decodeRaw_of rfl hw
theorem vredminX d a b fmt mk st : Statement (.vredminX d a b fmt mk st) := fun _ hw h => Option.some.inj h ▸ decodeRaw_of rfl hw
theorem vld d a st : Statement (.vld d a st) := fun _ hw h => Option.some.inj h ▸ decodeRaw_of rfl hw
theorem vldX d a fmt mk mp tp ph imm st : Statement (.vldX d a fmt mk mp tp ph imm st) := fun _ hw h => Option.some.inj h ▸ decodeRaw_of rfl hw
theorem vst d a st : Statement (.vst d a st) := fun _ hw h => Option.some.inj h ▸ decodeRaw_of rfl hw
theorem vstX d a fmt mk ph imm st : Statement (.vstX d a fmt mk ph imm st) := fun _ hw h => Option.some.inj h ▸ decodeRaw_of rfl hw
theorem vlds d a b st : Statement (.vlds d a b st) := fun _ hw h => Option.some.inj h ▸ decodeRaw_of rfl hw
theorem vldsX d a b fmt mk mp tp ph imm st : Statement (.vldsX d a b fmt mk mp tp ph imm st) := fun _ hw h => Option.some.inj h ▸ decodeRaw_of rfl hw
theorem vsts d a b st : Statement (.vsts d a b st) := fun _ hw h => Option.some.inj h ▸ decodeRaw_of rfl hw
theorem vstsX d a b fmt mk ph imm st : Statement (.vstsX d a b fmt mk ph imm st) := fun _ hw h => Option.some.inj h ▸ decodeRaw_of rfl hw
theorem vgath d a b st : Statement (.vgath d a b st) := fun _ hw h => Option.some.inj h ▸ decodeRaw_of rfl hw
theorem vgathX d a b fmt mk mp tp ph imm st : Statement (.vgathX d a b fmt mk mp tp ph imm st) := fun _ hw h => Option.some.inj h ▸ decodeRaw_of rfl hw
theorem vscat d a b st : Statement (.vscat d a b st) := fun _ hw h => Option.some.inj h ▸ decodeRaw_of rfl hw
theorem vscatX d a b fmt mk ph imm st : Statement (.vscatX d a b fmt mk ph imm st) := fun _ hw h => Option.some.inj h ▸ decodeRaw_of rfl hw
theorem vcvtp d a b fmt mk mp tp sat sr st : Statement (.vcvtp d a b fmt mk mp tp sat sr st) := fun _ hw h => Option.some.inj h ▸
  decodeRaw_of (keep_eq { len := (1 : BitVec 2), st := (st), op := (78), d := (d), a := (a), b := (b), msk := (mk), mp := (mp), tp := (tp), fmt := (fmt), imm := packImm [(30, ((packImm [(30, sat.toNat), (31, sr.toNat)]).extractLsb' 30 1).toNat), (31, ((packImm [(30, sat.toNat), (31, sr.toNat)]).extractLsb' 31 1).toNat)] } (.vcvtp (d) (a) (b) (fmt) (mk) (mp) (tp) ((packImm [(30, sat.toNat), (31, sr.toNat)]).extractLsb' 30 1) ((packImm [(30, sat.toNat), (31, sr.toNat)]).extractLsb' 31 1) (st)) (by simp only [pack_30_31_w1_1_0, pack_30_31_w1_1_1]) (by simp only [pack_30_31_w1_1_0, pack_30_31_w1_1_1])) hw
theorem vcvtu d a b fmt mk mp tp sat sr st : Statement (.vcvtu d a b fmt mk mp tp sat sr st) := fun _ hw h => Option.some.inj h ▸
  decodeRaw_of (keep_eq { len := (1 : BitVec 2), st := (st), op := (78), d := (d), a := (a), b := (b), f := (1 : BitVec 2), msk := (mk), mp := (mp), tp := (tp), fmt := (fmt), imm := packImm [(30, ((packImm [(30, sat.toNat), (31, sr.toNat)]).extractLsb' 30 1).toNat), (31, ((packImm [(30, sat.toNat), (31, sr.toNat)]).extractLsb' 31 1).toNat)] } (.vcvtu (d) (a) (b) (fmt) (mk) (mp) (tp) ((packImm [(30, sat.toNat), (31, sr.toNat)]).extractLsb' 30 1) ((packImm [(30, sat.toNat), (31, sr.toNat)]).extractLsb' 31 1) (st)) (by simp only [pack_30_31_w1_1_0, pack_30_31_w1_1_1]) (by simp only [pack_30_31_w1_1_0, pack_30_31_w1_1_1])) hw
theorem vcvti d a fmt mk mp tp sat sr st : Statement (.vcvti d a fmt mk mp tp sat sr st) := fun _ hw h => Option.some.inj h ▸
  decodeRaw_of (keep_eq { len := (1 : BitVec 2), st := (st), op := (78), d := (d), a := (a), f := (2 : BitVec 2), msk := (mk), mp := (mp), tp := (tp), fmt := (fmt), imm := packImm [(30, ((packImm [(30, sat.toNat), (31, sr.toNat)]).extractLsb' 30 1).toNat), (31, ((packImm [(30, sat.toNat), (31, sr.toNat)]).extractLsb' 31 1).toNat)] } (.vcvti (d) (a) (fmt) (mk) (mp) (tp) ((packImm [(30, sat.toNat), (31, sr.toNat)]).extractLsb' 30 1) ((packImm [(30, sat.toNat), (31, sr.toNat)]).extractLsb' 31 1) (st)) (by simp only [pack_30_31_w1_1_0, pack_30_31_w1_1_1]) (by simp only [pack_30_31_w1_1_0, pack_30_31_w1_1_1])) hw
theorem vqscale d a e fmt tp sat sr st : Statement (.vqscale d a e fmt tp sat sr st) := fun _ hw h => Option.some.inj h ▸
  decodeRaw_of (keep_eq { len := (1 : BitVec 2), st := (st), op := (78), d := (d), a := (a), f := (3 : BitVec 2), e := (e), tp := (tp), fmt := (fmt), imm := packImm [(30, ((packImm [(30, sat.toNat), (31, sr.toNat)]).extractLsb' 30 1).toNat), (31, ((packImm [(30, sat.toNat), (31, sr.toNat)]).extractLsb' 31 1).toNat)] } (.vqscale (d) (a) (e) (fmt) (tp) ((packImm [(30, sat.toNat), (31, sr.toNat)]).extractLsb' 30 1) ((packImm [(30, sat.toNat), (31, sr.toNat)]).extractLsb' 31 1) (st)) (by simp only [pack_30_31_w1_1_0, pack_30_31_w1_1_1]) (by simp only [pack_30_31_w1_1_0, pack_30_31_w1_1_1])) hw
theorem vtag d st : Statement (.vtag d st) := fun _ hw h => Option.some.inj h ▸ decodeRaw_of rfl hw
theorem vtagX d fmt st : Statement (.vtagX d fmt st) := fun _ hw h => Option.some.inj h ▸ decodeRaw_of rfl hw
theorem vtagr d a st : Statement (.vtagr d a st) := fun _ hw h => Option.some.inj h ▸ decodeRaw_of rfl hw
theorem vtagrX d a st : Statement (.vtagrX d a st) := fun _ hw h => Option.some.inj h ▸ decodeRaw_of rfl hw
theorem vmerge3 d a b st : Statement (.vmerge3 d a b st) := fun _ hw h => Option.some.inj h ▸ decodeRaw_of rfl hw
theorem vmerge3X d a b fmt mk mp tp st : Statement (.vmerge3X d a b fmt mk mp tp st) := fun _ hw h => Option.some.inj h ▸ decodeRaw_of rfl hw
theorem vsync st : Statement (.vsync st) := fun _ hw h => Option.some.inj h ▸ decodeRaw_of rfl hw
theorem vsyncX st : Statement (.vsyncX st) := fun _ hw h => Option.some.inj h ▸ decodeRaw_of rfl hw
theorem vadd d a b ha hb st : Statement (.vadd d a b ha hb st) := fun _ hw h => Option.some.inj h ▸
  decodeRaw_of (keep_eq { st := (st), op := (80), d := (d), a := (a), b := (b), f := (hb ++ ha) } (.vadd (d) (a) (b) ((hb ++ ha).extractLsb' 0 1) ((hb ++ ha).extractLsb' 1 1) (st)) (by rfl) (by simp only [extract_high, extract_low])) hw
theorem vaddX d a b ha hb fmt mk mp tp st : Statement (.vaddX d a b ha hb fmt mk mp tp st) := fun _ hw h => Option.some.inj h ▸
  decodeRaw_of (keep_eq { len := (1 : BitVec 2), st := (st), op := (80), d := (d), a := (a), b := (b), f := (hb ++ ha), msk := (mk), mp := (mp), tp := (tp), fmt := (fmt) } (.vaddX (d) (a) (b) ((hb ++ ha).extractLsb' 0 1) ((hb ++ ha).extractLsb' 1 1) (fmt) (mk) (mp) (tp) (st)) (by rfl) (by simp only [extract_high, extract_low])) hw
theorem vsub d a b ha hb st : Statement (.vsub d a b ha hb st) := fun _ hw h => Option.some.inj h ▸
  decodeRaw_of (keep_eq { st := (st), op := (81), d := (d), a := (a), b := (b), f := (hb ++ ha) } (.vsub (d) (a) (b) ((hb ++ ha).extractLsb' 0 1) ((hb ++ ha).extractLsb' 1 1) (st)) (by rfl) (by simp only [extract_high, extract_low])) hw
theorem vsubX d a b ha hb fmt mk mp tp st : Statement (.vsubX d a b ha hb fmt mk mp tp st) := fun _ hw h => Option.some.inj h ▸
  decodeRaw_of (keep_eq { len := (1 : BitVec 2), st := (st), op := (81), d := (d), a := (a), b := (b), f := (hb ++ ha), msk := (mk), mp := (mp), tp := (tp), fmt := (fmt) } (.vsubX (d) (a) (b) ((hb ++ ha).extractLsb' 0 1) ((hb ++ ha).extractLsb' 1 1) (fmt) (mk) (mp) (tp) (st)) (by rfl) (by simp only [extract_high, extract_low])) hw
theorem vmul d a b ha hb st : Statement (.vmul d a b ha hb st) := fun _ hw h => Option.some.inj h ▸
  decodeRaw_of (keep_eq { st := (st), op := (82), d := (d), a := (a), b := (b), f := (hb ++ ha) } (.vmul (d) (a) (b) ((hb ++ ha).extractLsb' 0 1) ((hb ++ ha).extractLsb' 1 1) (st)) (by rfl) (by simp only [extract_high, extract_low])) hw
theorem vmulX d a b ha hb fmt mk mp tp st : Statement (.vmulX d a b ha hb fmt mk mp tp st) := fun _ hw h => Option.some.inj h ▸
  decodeRaw_of (keep_eq { len := (1 : BitVec 2), st := (st), op := (82), d := (d), a := (a), b := (b), f := (hb ++ ha), msk := (mk), mp := (mp), tp := (tp), fmt := (fmt) } (.vmulX (d) (a) (b) ((hb ++ ha).extractLsb' 0 1) ((hb ++ ha).extractLsb' 1 1) (fmt) (mk) (mp) (tp) (st)) (by rfl) (by simp only [extract_high, extract_low])) hw
theorem vfma d a b ha hb st : Statement (.vfma d a b ha hb st) := fun _ hw h => Option.some.inj h ▸
  decodeRaw_of (keep_eq { st := (st), op := (83), d := (d), a := (a), b := (b), f := (hb ++ ha) } (.vfma (d) (a) (b) ((hb ++ ha).extractLsb' 0 1) ((hb ++ ha).extractLsb' 1 1) (st)) (by rfl) (by simp only [extract_high, extract_low])) hw
theorem vfmaX d a b ha hb c hc fmt mk mp tp st : Statement (.vfmaX d a b ha hb c hc fmt mk mp tp st) := fun _ hw h => Option.some.inj h ▸
  decodeRaw_of (keep_eq { len := (1 : BitVec 2), st := (st), op := (83), d := (d), a := (a), b := (b), f := (hb ++ ha), c := (c), msk := (mk), mp := (mp), tp := (tp), fmt := (fmt), hc := (hc) } (.vfmaX (d) (a) (b) ((hb ++ ha).extractLsb' 0 1) ((hb ++ ha).extractLsb' 1 1) (c) (hc) (fmt) (mk) (mp) (tp) (st)) (by rfl) (by simp only [extract_high, extract_low])) hw
theorem vfnma d a b ha hb st : Statement (.vfnma d a b ha hb st) := fun _ hw h => Option.some.inj h ▸
  decodeRaw_of (keep_eq { st := (st), op := (84), d := (d), a := (a), b := (b), f := (hb ++ ha) } (.vfnma (d) (a) (b) ((hb ++ ha).extractLsb' 0 1) ((hb ++ ha).extractLsb' 1 1) (st)) (by rfl) (by simp only [extract_high, extract_low])) hw
theorem vfnmaX d a b ha hb c hc fmt mk mp tp st : Statement (.vfnmaX d a b ha hb c hc fmt mk mp tp st) := fun _ hw h => Option.some.inj h ▸
  decodeRaw_of (keep_eq { len := (1 : BitVec 2), st := (st), op := (84), d := (d), a := (a), b := (b), f := (hb ++ ha), c := (c), msk := (mk), mp := (mp), tp := (tp), fmt := (fmt), hc := (hc) } (.vfnmaX (d) (a) (b) ((hb ++ ha).extractLsb' 0 1) ((hb ++ ha).extractLsb' 1 1) (c) (hc) (fmt) (mk) (mp) (tp) (st)) (by rfl) (by simp only [extract_high, extract_low])) hw
theorem vmin d a b ha hb st : Statement (.vmin d a b ha hb st) := fun _ hw h => Option.some.inj h ▸
  decodeRaw_of (keep_eq { st := (st), op := (85), d := (d), a := (a), b := (b), f := (hb ++ ha) } (.vmin (d) (a) (b) ((hb ++ ha).extractLsb' 0 1) ((hb ++ ha).extractLsb' 1 1) (st)) (by rfl) (by simp only [extract_high, extract_low])) hw
theorem vminX d a b ha hb fmt mk mp tp st : Statement (.vminX d a b ha hb fmt mk mp tp st) := fun _ hw h => Option.some.inj h ▸
  decodeRaw_of (keep_eq { len := (1 : BitVec 2), st := (st), op := (85), d := (d), a := (a), b := (b), f := (hb ++ ha), msk := (mk), mp := (mp), tp := (tp), fmt := (fmt) } (.vminX (d) (a) (b) ((hb ++ ha).extractLsb' 0 1) ((hb ++ ha).extractLsb' 1 1) (fmt) (mk) (mp) (tp) (st)) (by rfl) (by simp only [extract_high, extract_low])) hw
theorem vmax d a b ha hb st : Statement (.vmax d a b ha hb st) := fun _ hw h => Option.some.inj h ▸
  decodeRaw_of (keep_eq { st := (st), op := (86), d := (d), a := (a), b := (b), f := (hb ++ ha) } (.vmax (d) (a) (b) ((hb ++ ha).extractLsb' 0 1) ((hb ++ ha).extractLsb' 1 1) (st)) (by rfl) (by simp only [extract_high, extract_low])) hw
theorem vmaxX d a b ha hb fmt mk mp tp st : Statement (.vmaxX d a b ha hb fmt mk mp tp st) := fun _ hw h => Option.some.inj h ▸
  decodeRaw_of (keep_eq { len := (1 : BitVec 2), st := (st), op := (86), d := (d), a := (a), b := (b), f := (hb ++ ha), msk := (mk), mp := (mp), tp := (tp), fmt := (fmt) } (.vmaxX (d) (a) (b) ((hb ++ ha).extractLsb' 0 1) ((hb ++ ha).extractLsb' 1 1) (fmt) (mk) (mp) (tp) (st)) (by rfl) (by simp only [extract_high, extract_low])) hw
theorem vabs d a ha st : Statement (.vabs d a ha st) := fun _ hw h => Option.some.inj h ▸
  decodeRaw_of (keep_eq { st := (st), op := (87), d := (d), a := (a), f := 0#1 ++ (0#1 ++ ha).extractLsb' 0 1 } (.vabs (d) (a) ((0#1 ++ ha).extractLsb' 0 1) (st)) (by simp only [extract_low]) (by simp only [extract_low])) hw
theorem vabsX d a ha fmt mk mp tp st : Statement (.vabsX d a ha fmt mk mp tp st) := fun _ hw h => Option.some.inj h ▸
  decodeRaw_of (keep_eq { len := (1 : BitVec 2), st := (st), op := (87), d := (d), a := (a), f := 0#1 ++ (0#1 ++ ha).extractLsb' 0 1, msk := (mk), mp := (mp), tp := (tp), fmt := (fmt) } (.vabsX (d) (a) ((0#1 ++ ha).extractLsb' 0 1) (fmt) (mk) (mp) (tp) (st)) (by simp only [extract_low]) (by simp only [extract_low])) hw
theorem vneg d a ha st : Statement (.vneg d a ha st) := fun _ hw h => Option.some.inj h ▸
  decodeRaw_of (keep_eq { st := (st), op := (88), d := (d), a := (a), f := 0#1 ++ (0#1 ++ ha).extractLsb' 0 1 } (.vneg (d) (a) ((0#1 ++ ha).extractLsb' 0 1) (st)) (by simp only [extract_low]) (by simp only [extract_low])) hw
theorem vnegX d a ha fmt mk mp tp st : Statement (.vnegX d a ha fmt mk mp tp st) := fun _ hw h => Option.some.inj h ▸
  decodeRaw_of (keep_eq { len := (1 : BitVec 2), st := (st), op := (88), d := (d), a := (a), f := 0#1 ++ (0#1 ++ ha).extractLsb' 0 1, msk := (mk), mp := (mp), tp := (tp), fmt := (fmt) } (.vnegX (d) (a) ((0#1 ++ ha).extractLsb' 0 1) (fmt) (mk) (mp) (tp) (st)) (by simp only [extract_low]) (by simp only [extract_low])) hw
theorem vrcp d a ha st : Statement (.vrcp d a ha st) := fun _ hw h => Option.some.inj h ▸
  decodeRaw_of (keep_eq { st := (st), op := (89), d := (d), a := (a), f := 0#1 ++ (0#1 ++ ha).extractLsb' 0 1 } (.vrcp (d) (a) ((0#1 ++ ha).extractLsb' 0 1) (st)) (by simp only [extract_low]) (by simp only [extract_low])) hw
theorem vrcpX d a ha fmt mk mp tp st : Statement (.vrcpX d a ha fmt mk mp tp st) := fun _ hw h => Option.some.inj h ▸
  decodeRaw_of (keep_eq { len := (1 : BitVec 2), st := (st), op := (89), d := (d), a := (a), f := 0#1 ++ (0#1 ++ ha).extractLsb' 0 1, msk := (mk), mp := (mp), tp := (tp), fmt := (fmt) } (.vrcpX (d) (a) ((0#1 ++ ha).extractLsb' 0 1) (fmt) (mk) (mp) (tp) (st)) (by simp only [extract_low]) (by simp only [extract_low])) hw
theorem vrsq d a ha st : Statement (.vrsq d a ha st) := fun _ hw h => Option.some.inj h ▸
  decodeRaw_of (keep_eq { st := (st), op := (90), d := (d), a := (a), f := 0#1 ++ (0#1 ++ ha).extractLsb' 0 1 } (.vrsq (d) (a) ((0#1 ++ ha).extractLsb' 0 1) (st)) (by simp only [extract_low]) (by simp only [extract_low])) hw
theorem vrsqX d a ha fmt mk mp tp st : Statement (.vrsqX d a ha fmt mk mp tp st) := fun _ hw h => Option.some.inj h ▸
  decodeRaw_of (keep_eq { len := (1 : BitVec 2), st := (st), op := (90), d := (d), a := (a), f := 0#1 ++ (0#1 ++ ha).extractLsb' 0 1, msk := (mk), mp := (mp), tp := (tp), fmt := (fmt) } (.vrsqX (d) (a) ((0#1 ++ ha).extractLsb' 0 1) (fmt) (mk) (mp) (tp) (st)) (by simp only [extract_low]) (by simp only [extract_low])) hw
theorem vexp2 d a ha st : Statement (.vexp2 d a ha st) := fun _ hw h => Option.some.inj h ▸
  decodeRaw_of (keep_eq { st := (st), op := (91), d := (d), a := (a), f := 0#1 ++ (0#1 ++ ha).extractLsb' 0 1 } (.vexp2 (d) (a) ((0#1 ++ ha).extractLsb' 0 1) (st)) (by simp only [extract_low]) (by simp only [extract_low])) hw
theorem vexp2X d a ha fmt mk mp tp st : Statement (.vexp2X d a ha fmt mk mp tp st) := fun _ hw h => Option.some.inj h ▸
  decodeRaw_of (keep_eq { len := (1 : BitVec 2), st := (st), op := (91), d := (d), a := (a), f := 0#1 ++ (0#1 ++ ha).extractLsb' 0 1, msk := (mk), mp := (mp), tp := (tp), fmt := (fmt) } (.vexp2X (d) (a) ((0#1 ++ ha).extractLsb' 0 1) (fmt) (mk) (mp) (tp) (st)) (by simp only [extract_low]) (by simp only [extract_low])) hw
theorem vlog2 d a ha st : Statement (.vlog2 d a ha st) := fun _ hw h => Option.some.inj h ▸
  decodeRaw_of (keep_eq { st := (st), op := (92), d := (d), a := (a), f := 0#1 ++ (0#1 ++ ha).extractLsb' 0 1 } (.vlog2 (d) (a) ((0#1 ++ ha).extractLsb' 0 1) (st)) (by simp only [extract_low]) (by simp only [extract_low])) hw
theorem vlog2X d a ha fmt mk mp tp st : Statement (.vlog2X d a ha fmt mk mp tp st) := fun _ hw h => Option.some.inj h ▸
  decodeRaw_of (keep_eq { len := (1 : BitVec 2), st := (st), op := (92), d := (d), a := (a), f := 0#1 ++ (0#1 ++ ha).extractLsb' 0 1, msk := (mk), mp := (mp), tp := (tp), fmt := (fmt) } (.vlog2X (d) (a) ((0#1 ++ ha).extractLsb' 0 1) (fmt) (mk) (mp) (tp) (st)) (by simp only [extract_low]) (by simp only [extract_low])) hw
theorem vtanh d a ha st : Statement (.vtanh d a ha st) := fun _ hw h => Option.some.inj h ▸
  decodeRaw_of (keep_eq { st := (st), op := (93), d := (d), a := (a), f := 0#1 ++ (0#1 ++ ha).extractLsb' 0 1 } (.vtanh (d) (a) ((0#1 ++ ha).extractLsb' 0 1) (st)) (by simp only [extract_low]) (by simp only [extract_low])) hw
theorem vtanhX d a ha fmt mk mp tp st : Statement (.vtanhX d a ha fmt mk mp tp st) := fun _ hw h => Option.some.inj h ▸
  decodeRaw_of (keep_eq { len := (1 : BitVec 2), st := (st), op := (93), d := (d), a := (a), f := 0#1 ++ (0#1 ++ ha).extractLsb' 0 1, msk := (mk), mp := (mp), tp := (tp), fmt := (fmt) } (.vtanhX (d) (a) ((0#1 ++ ha).extractLsb' 0 1) (fmt) (mk) (mp) (tp) (st)) (by simp only [extract_low]) (by simp only [extract_low])) hw
theorem vand d a b ha hb st : Statement (.vand d a b ha hb st) := fun _ hw h => Option.some.inj h ▸
  decodeRaw_of (keep_eq { st := (st), op := (94), d := (d), a := (a), b := (b), f := (hb ++ ha) } (.vand (d) (a) (b) ((hb ++ ha).extractLsb' 0 1) ((hb ++ ha).extractLsb' 1 1) (st)) (by rfl) (by simp only [extract_high, extract_low])) hw
theorem vandX d a b ha hb fmt mk mp tp st : Statement (.vandX d a b ha hb fmt mk mp tp st) := fun _ hw h => Option.some.inj h ▸
  decodeRaw_of (keep_eq { len := (1 : BitVec 2), st := (st), op := (94), d := (d), a := (a), b := (b), f := (hb ++ ha), msk := (mk), mp := (mp), tp := (tp), fmt := (fmt) } (.vandX (d) (a) (b) ((hb ++ ha).extractLsb' 0 1) ((hb ++ ha).extractLsb' 1 1) (fmt) (mk) (mp) (tp) (st)) (by rfl) (by simp only [extract_high, extract_low])) hw
theorem vor d a b ha hb st : Statement (.vor d a b ha hb st) := fun _ hw h => Option.some.inj h ▸
  decodeRaw_of (keep_eq { st := (st), op := (95), d := (d), a := (a), b := (b), f := (hb ++ ha) } (.vor (d) (a) (b) ((hb ++ ha).extractLsb' 0 1) ((hb ++ ha).extractLsb' 1 1) (st)) (by rfl) (by simp only [extract_high, extract_low])) hw
theorem vorX d a b ha hb fmt mk mp tp st : Statement (.vorX d a b ha hb fmt mk mp tp st) := fun _ hw h => Option.some.inj h ▸
  decodeRaw_of (keep_eq { len := (1 : BitVec 2), st := (st), op := (95), d := (d), a := (a), b := (b), f := (hb ++ ha), msk := (mk), mp := (mp), tp := (tp), fmt := (fmt) } (.vorX (d) (a) (b) ((hb ++ ha).extractLsb' 0 1) ((hb ++ ha).extractLsb' 1 1) (fmt) (mk) (mp) (tp) (st)) (by rfl) (by simp only [extract_high, extract_low])) hw
theorem vxor d a b ha hb st : Statement (.vxor d a b ha hb st) := fun _ hw h => Option.some.inj h ▸
  decodeRaw_of (keep_eq { st := (st), op := (96), d := (d), a := (a), b := (b), f := (hb ++ ha) } (.vxor (d) (a) (b) ((hb ++ ha).extractLsb' 0 1) ((hb ++ ha).extractLsb' 1 1) (st)) (by rfl) (by simp only [extract_high, extract_low])) hw
theorem vxorX d a b ha hb fmt mk mp tp st : Statement (.vxorX d a b ha hb fmt mk mp tp st) := fun _ hw h => Option.some.inj h ▸
  decodeRaw_of (keep_eq { len := (1 : BitVec 2), st := (st), op := (96), d := (d), a := (a), b := (b), f := (hb ++ ha), msk := (mk), mp := (mp), tp := (tp), fmt := (fmt) } (.vxorX (d) (a) (b) ((hb ++ ha).extractLsb' 0 1) ((hb ++ ha).extractLsb' 1 1) (fmt) (mk) (mp) (tp) (st)) (by rfl) (by simp only [extract_high, extract_low])) hw
theorem vshl d a b ha hb st : Statement (.vshl d a b ha hb st) := fun _ hw h => Option.some.inj h ▸
  decodeRaw_of (keep_eq { st := (st), op := (97), d := (d), a := (a), b := (b), f := (hb ++ ha) } (.vshl (d) (a) (b) ((hb ++ ha).extractLsb' 0 1) ((hb ++ ha).extractLsb' 1 1) (st)) (by rfl) (by simp only [extract_high, extract_low])) hw
theorem vshlX d a b ha hb fmt mk mp tp st : Statement (.vshlX d a b ha hb fmt mk mp tp st) := fun _ hw h => Option.some.inj h ▸
  decodeRaw_of (keep_eq { len := (1 : BitVec 2), st := (st), op := (97), d := (d), a := (a), b := (b), f := (hb ++ ha), msk := (mk), mp := (mp), tp := (tp), fmt := (fmt) } (.vshlX (d) (a) (b) ((hb ++ ha).extractLsb' 0 1) ((hb ++ ha).extractLsb' 1 1) (fmt) (mk) (mp) (tp) (st)) (by rfl) (by simp only [extract_high, extract_low])) hw
theorem vshr d a b ha hb st : Statement (.vshr d a b ha hb st) := fun _ hw h => Option.some.inj h ▸
  decodeRaw_of (keep_eq { st := (st), op := (98), d := (d), a := (a), b := (b), f := (hb ++ ha) } (.vshr (d) (a) (b) ((hb ++ ha).extractLsb' 0 1) ((hb ++ ha).extractLsb' 1 1) (st)) (by rfl) (by simp only [extract_high, extract_low])) hw
theorem vshrX d a b ha hb fmt mk mp tp st : Statement (.vshrX d a b ha hb fmt mk mp tp st) := fun _ hw h => Option.some.inj h ▸
  decodeRaw_of (keep_eq { len := (1 : BitVec 2), st := (st), op := (98), d := (d), a := (a), b := (b), f := (hb ++ ha), msk := (mk), mp := (mp), tp := (tp), fmt := (fmt) } (.vshrX (d) (a) (b) ((hb ++ ha).extractLsb' 0 1) ((hb ++ ha).extractLsb' 1 1) (fmt) (mk) (mp) (tp) (st)) (by rfl) (by simp only [extract_high, extract_low])) hw
theorem vshra d a b ha hb st : Statement (.vshra d a b ha hb st) := fun _ hw h => Option.some.inj h ▸
  decodeRaw_of (keep_eq { st := (st), op := (99), d := (d), a := (a), b := (b), f := (hb ++ ha) } (.vshra (d) (a) (b) ((hb ++ ha).extractLsb' 0 1) ((hb ++ ha).extractLsb' 1 1) (st)) (by rfl) (by simp only [extract_high, extract_low])) hw
theorem vshraX d a b ha hb fmt mk mp tp st : Statement (.vshraX d a b ha hb fmt mk mp tp st) := fun _ hw h => Option.some.inj h ▸
  decodeRaw_of (keep_eq { len := (1 : BitVec 2), st := (st), op := (99), d := (d), a := (a), b := (b), f := (hb ++ ha), msk := (mk), mp := (mp), tp := (tp), fmt := (fmt) } (.vshraX (d) (a) (b) ((hb ++ ha).extractLsb' 0 1) ((hb ++ ha).extractLsb' 1 1) (fmt) (mk) (mp) (tp) (st)) (by rfl) (by simp only [extract_high, extract_low])) hw
theorem vcmpeq d a b ha hb st : Statement (.vcmpeq d a b ha hb st) := fun _ hw h => Option.some.inj h ▸
  decodeRaw_of (keep_eq { st := (st), op := (100), d := (d), a := (a), b := (b), f := (hb ++ ha) } (.vcmpeq (d) (a) (b) ((hb ++ ha).extractLsb' 0 1) ((hb ++ ha).extractLsb' 1 1) (st)) (by rfl) (by simp only [extract_high, extract_low])) hw
theorem vcmpeqX d a b ha hb fmt mk mp tp st : Statement (.vcmpeqX d a b ha hb fmt mk mp tp st) := fun _ hw h => Option.some.inj h ▸
  decodeRaw_of (keep_eq { len := (1 : BitVec 2), st := (st), op := (100), d := (d), a := (a), b := (b), f := (hb ++ ha), msk := (mk), mp := (mp), tp := (tp), fmt := (fmt) } (.vcmpeqX (d) (a) (b) ((hb ++ ha).extractLsb' 0 1) ((hb ++ ha).extractLsb' 1 1) (fmt) (mk) (mp) (tp) (st)) (by rfl) (by simp only [extract_high, extract_low])) hw
theorem vcmplt d a b ha hb st : Statement (.vcmplt d a b ha hb st) := fun _ hw h => Option.some.inj h ▸
  decodeRaw_of (keep_eq { st := (st), op := (101), d := (d), a := (a), b := (b), f := (hb ++ ha) } (.vcmplt (d) (a) (b) ((hb ++ ha).extractLsb' 0 1) ((hb ++ ha).extractLsb' 1 1) (st)) (by rfl) (by simp only [extract_high, extract_low])) hw
theorem vcmpltX d a b ha hb fmt mk mp tp st : Statement (.vcmpltX d a b ha hb fmt mk mp tp st) := fun _ hw h => Option.some.inj h ▸
  decodeRaw_of (keep_eq { len := (1 : BitVec 2), st := (st), op := (101), d := (d), a := (a), b := (b), f := (hb ++ ha), msk := (mk), mp := (mp), tp := (tp), fmt := (fmt) } (.vcmpltX (d) (a) (b) ((hb ++ ha).extractLsb' 0 1) ((hb ++ ha).extractLsb' 1 1) (fmt) (mk) (mp) (tp) (st)) (by rfl) (by simp only [extract_high, extract_low])) hw
theorem vcmple d a b ha hb st : Statement (.vcmple d a b ha hb st) := fun _ hw h => Option.some.inj h ▸
  decodeRaw_of (keep_eq { st := (st), op := (102), d := (d), a := (a), b := (b), f := (hb ++ ha) } (.vcmple (d) (a) (b) ((hb ++ ha).extractLsb' 0 1) ((hb ++ ha).extractLsb' 1 1) (st)) (by rfl) (by simp only [extract_high, extract_low])) hw
theorem vcmpleX d a b ha hb fmt mk mp tp st : Statement (.vcmpleX d a b ha hb fmt mk mp tp st) := fun _ hw h => Option.some.inj h ▸
  decodeRaw_of (keep_eq { len := (1 : BitVec 2), st := (st), op := (102), d := (d), a := (a), b := (b), f := (hb ++ ha), msk := (mk), mp := (mp), tp := (tp), fmt := (fmt) } (.vcmpleX (d) (a) (b) ((hb ++ ha).extractLsb' 0 1) ((hb ++ ha).extractLsb' 1 1) (fmt) (mk) (mp) (tp) (st)) (by rfl) (by simp only [extract_high, extract_low])) hw
theorem vclaim d a st : Statement (.vclaim d a st) := fun _ hw h => Option.some.inj h ▸ decodeRaw_of rfl hw
theorem vreneg d st : Statement (.vreneg d st) := fun _ hw h => Option.some.inj h ▸ decodeRaw_of rfl hw
theorem vrelease st : Statement (.vrelease st) := fun _ hw h => Option.some.inj h ▸ decodeRaw_of rfl hw
theorem mma d a b c e fmt n as bs z st : Statement (.mma d a b c e fmt n as bs z st) := fun _ hw h => Option.some.inj h ▸
  decodeRaw_of (keep_eq { len := (1 : BitVec 2), st := (st), op := (104), d := (d), a := (a), b := (b), c := (c), e := (e), fmt := (fmt), imm := packImm [(0, ((packImm [(0, n.toNat), (8, as.toNat), (9, bs.toNat), (29, z.toNat)]).extractLsb' 0 8).toNat), (8, ((packImm [(0, n.toNat), (8, as.toNat), (9, bs.toNat), (29, z.toNat)]).extractLsb' 8 1).toNat), (9, ((packImm [(0, n.toNat), (8, as.toNat), (9, bs.toNat), (29, z.toNat)]).extractLsb' 9 1).toNat), (29, ((packImm [(0, n.toNat), (8, as.toNat), (9, bs.toNat), (29, z.toNat)]).extractLsb' 29 1).toNat)] } (.mma (d) (a) (b) (c) (e) (fmt) ((packImm [(0, n.toNat), (8, as.toNat), (9, bs.toNat), (29, z.toNat)]).extractLsb' 0 8) ((packImm [(0, n.toNat), (8, as.toNat), (9, bs.toNat), (29, z.toNat)]).extractLsb' 8 1) ((packImm [(0, n.toNat), (8, as.toNat), (9, bs.toNat), (29, z.toNat)]).extractLsb' 9 1) ((packImm [(0, n.toNat), (8, as.toNat), (9, bs.toNat), (29, z.toNat)]).extractLsb' 29 1) (st)) (by simp only [pack_0_8_9_29_w8_1_1_1_0, pack_0_8_9_29_w8_1_1_1_1, pack_0_8_9_29_w8_1_1_1_2, pack_0_8_9_29_w8_1_1_1_3]) (by simp only [pack_0_8_9_29_w8_1_1_1_0, pack_0_8_9_29_w8_1_1_1_1, pack_0_8_9_29_w8_1_1_1_2, pack_0_8_9_29_w8_1_1_1_3])) hw
theorem mmag d a b c e fmt n as bs z st : Statement (.mmag d a b c e fmt n as bs z st) := fun _ hw h => Option.some.inj h ▸
  decodeRaw_of (keep_eq { len := (1 : BitVec 2), st := (st), op := (104), d := (d), a := (a), b := (b), f := (1 : BitVec 2), c := (c), e := (e), fmt := (fmt), imm := packImm [(0, ((packImm [(0, n.toNat), (8, as.toNat), (9, bs.toNat), (29, z.toNat)]).extractLsb' 0 8).toNat), (8, ((packImm [(0, n.toNat), (8, as.toNat), (9, bs.toNat), (29, z.toNat)]).extractLsb' 8 1).toNat), (9, ((packImm [(0, n.toNat), (8, as.toNat), (9, bs.toNat), (29, z.toNat)]).extractLsb' 9 1).toNat), (29, ((packImm [(0, n.toNat), (8, as.toNat), (9, bs.toNat), (29, z.toNat)]).extractLsb' 29 1).toNat)] } (.mmag (d) (a) (b) (c) (e) (fmt) ((packImm [(0, n.toNat), (8, as.toNat), (9, bs.toNat), (29, z.toNat)]).extractLsb' 0 8) ((packImm [(0, n.toNat), (8, as.toNat), (9, bs.toNat), (29, z.toNat)]).extractLsb' 8 1) ((packImm [(0, n.toNat), (8, as.toNat), (9, bs.toNat), (29, z.toNat)]).extractLsb' 9 1) ((packImm [(0, n.toNat), (8, as.toNat), (9, bs.toNat), (29, z.toNat)]).extractLsb' 29 1) (st)) (by simp only [pack_0_8_9_29_w8_1_1_1_0, pack_0_8_9_29_w8_1_1_1_1, pack_0_8_9_29_w8_1_1_1_2, pack_0_8_9_29_w8_1_1_1_3]) (by simp only [pack_0_8_9_29_w8_1_1_1_0, pack_0_8_9_29_w8_1_1_1_1, pack_0_8_9_29_w8_1_1_1_2, pack_0_8_9_29_w8_1_1_1_3])) hw
theorem mmas d a b c e fmt n as bs moff z st : Statement (.mmas d a b c e fmt n as bs moff z st) := fun _ hw h => Option.some.inj h ▸
  decodeRaw_of (keep_eq { len := (1 : BitVec 2), st := (st), op := (105), d := (d), a := (a), b := (b), c := (c), e := (e), fmt := (fmt), imm := packImm [(0, ((packImm [(0, n.toNat), (8, as.toNat), (9, bs.toNat), (10, moff.toNat), (29, z.toNat)]).extractLsb' 0 8).toNat), (8, ((packImm [(0, n.toNat), (8, as.toNat), (9, bs.toNat), (10, moff.toNat), (29, z.toNat)]).extractLsb' 8 1).toNat), (9, ((packImm [(0, n.toNat), (8, as.toNat), (9, bs.toNat), (10, moff.toNat), (29, z.toNat)]).extractLsb' 9 1).toNat), (10, ((packImm [(0, n.toNat), (8, as.toNat), (9, bs.toNat), (10, moff.toNat), (29, z.toNat)]).extractLsb' 10 6).toNat), (29, ((packImm [(0, n.toNat), (8, as.toNat), (9, bs.toNat), (10, moff.toNat), (29, z.toNat)]).extractLsb' 29 1).toNat)] } (.mmas (d) (a) (b) (c) (e) (fmt) ((packImm [(0, n.toNat), (8, as.toNat), (9, bs.toNat), (10, moff.toNat), (29, z.toNat)]).extractLsb' 0 8) ((packImm [(0, n.toNat), (8, as.toNat), (9, bs.toNat), (10, moff.toNat), (29, z.toNat)]).extractLsb' 8 1) ((packImm [(0, n.toNat), (8, as.toNat), (9, bs.toNat), (10, moff.toNat), (29, z.toNat)]).extractLsb' 9 1) ((packImm [(0, n.toNat), (8, as.toNat), (9, bs.toNat), (10, moff.toNat), (29, z.toNat)]).extractLsb' 10 6) ((packImm [(0, n.toNat), (8, as.toNat), (9, bs.toNat), (10, moff.toNat), (29, z.toNat)]).extractLsb' 29 1) (st)) (by simp only [pack_0_8_9_10_29_w8_1_1_6_1_0, pack_0_8_9_10_29_w8_1_1_6_1_1, pack_0_8_9_10_29_w8_1_1_6_1_2, pack_0_8_9_10_29_w8_1_1_6_1_3, pack_0_8_9_10_29_w8_1_1_6_1_4]) (by simp only [pack_0_8_9_10_29_w8_1_1_6_1_0, pack_0_8_9_10_29_w8_1_1_6_1_1, pack_0_8_9_10_29_w8_1_1_6_1_2, pack_0_8_9_10_29_w8_1_1_6_1_3, pack_0_8_9_10_29_w8_1_1_6_1_4])) hw
theorem mmax d a b c fmt n as z st : Statement (.mmax d a b c fmt n as z st) := fun _ hw h => Option.some.inj h ▸
  decodeRaw_of (keep_eq { len := (1 : BitVec 2), st := (st), op := (105), d := (d), a := (a), b := (b), f := (1 : BitVec 2), c := (c), fmt := (fmt), imm := packImm [(0, ((packImm [(0, n.toNat), (8, as.toNat), (29, z.toNat)]).extractLsb' 0 8).toNat), (8, ((packImm [(0, n.toNat), (8, as.toNat), (29, z.toNat)]).extractLsb' 8 1).toNat), (29, ((packImm [(0, n.toNat), (8, as.toNat), (29, z.toNat)]).extractLsb' 29 1).toNat)] } (.mmax (d) (a) (b) (c) (fmt) ((packImm [(0, n.toNat), (8, as.toNat), (29, z.toNat)]).extractLsb' 0 8) ((packImm [(0, n.toNat), (8, as.toNat), (29, z.toNat)]).extractLsb' 8 1) ((packImm [(0, n.toNat), (8, as.toNat), (29, z.toNat)]).extractLsb' 29 1) (st)) (by simp only [pack_0_8_29_w8_1_1_0, pack_0_8_29_w8_1_1_1, pack_0_8_29_w8_1_1_2]) (by simp only [pack_0_8_29_w8_1_1_0, pack_0_8_29_w8_1_1_1, pack_0_8_29_w8_1_1_2])) hw
theorem mmamx d a b c e fmt n as bs sa sb z st : Statement (.mmamx d a b c e fmt n as bs sa sb z st) := fun _ hw h => Option.some.inj h ▸
  decodeRaw_of (keep_eq { len := (1 : BitVec 2), st := (st), op := (106), d := (d), a := (a), b := (b), c := (c), e := (e), fmt := (fmt), imm := packImm [(0, ((packImm [(0, n.toNat), (8, as.toNat), (9, bs.toNat), (10, sa.toNat), (17, sb.toNat), (29, z.toNat)]).extractLsb' 0 8).toNat), (8, ((packImm [(0, n.toNat), (8, as.toNat), (9, bs.toNat), (10, sa.toNat), (17, sb.toNat), (29, z.toNat)]).extractLsb' 8 1).toNat), (9, ((packImm [(0, n.toNat), (8, as.toNat), (9, bs.toNat), (10, sa.toNat), (17, sb.toNat), (29, z.toNat)]).extractLsb' 9 1).toNat), (10, ((packImm [(0, n.toNat), (8, as.toNat), (9, bs.toNat), (10, sa.toNat), (17, sb.toNat), (29, z.toNat)]).extractLsb' 10 7).toNat), (17, ((packImm [(0, n.toNat), (8, as.toNat), (9, bs.toNat), (10, sa.toNat), (17, sb.toNat), (29, z.toNat)]).extractLsb' 17 7).toNat), (29, ((packImm [(0, n.toNat), (8, as.toNat), (9, bs.toNat), (10, sa.toNat), (17, sb.toNat), (29, z.toNat)]).extractLsb' 29 1).toNat)] } (.mmamx (d) (a) (b) (c) (e) (fmt) ((packImm [(0, n.toNat), (8, as.toNat), (9, bs.toNat), (10, sa.toNat), (17, sb.toNat), (29, z.toNat)]).extractLsb' 0 8) ((packImm [(0, n.toNat), (8, as.toNat), (9, bs.toNat), (10, sa.toNat), (17, sb.toNat), (29, z.toNat)]).extractLsb' 8 1) ((packImm [(0, n.toNat), (8, as.toNat), (9, bs.toNat), (10, sa.toNat), (17, sb.toNat), (29, z.toNat)]).extractLsb' 9 1) ((packImm [(0, n.toNat), (8, as.toNat), (9, bs.toNat), (10, sa.toNat), (17, sb.toNat), (29, z.toNat)]).extractLsb' 10 7) ((packImm [(0, n.toNat), (8, as.toNat), (9, bs.toNat), (10, sa.toNat), (17, sb.toNat), (29, z.toNat)]).extractLsb' 17 7) ((packImm [(0, n.toNat), (8, as.toNat), (9, bs.toNat), (10, sa.toNat), (17, sb.toNat), (29, z.toNat)]).extractLsb' 29 1) (st)) (by simp only [pack_0_8_9_10_17_29_w8_1_1_7_7_1_0, pack_0_8_9_10_17_29_w8_1_1_7_7_1_1, pack_0_8_9_10_17_29_w8_1_1_7_7_1_2, pack_0_8_9_10_17_29_w8_1_1_7_7_1_3, pack_0_8_9_10_17_29_w8_1_1_7_7_1_4, pack_0_8_9_10_17_29_w8_1_1_7_7_1_5]) (by simp only [pack_0_8_9_10_17_29_w8_1_1_7_7_1_0, pack_0_8_9_10_17_29_w8_1_1_7_7_1_1, pack_0_8_9_10_17_29_w8_1_1_7_7_1_2, pack_0_8_9_10_17_29_w8_1_1_7_7_1_3, pack_0_8_9_10_17_29_w8_1_1_7_7_1_4, pack_0_8_9_10_17_29_w8_1_1_7_7_1_5])) hw
theorem mmaws d a b c e fmt n as bs sa sb z st : Statement (.mmaws d a b c e fmt n as bs sa sb z st) := fun _ hw h => Option.some.inj h ▸
  decodeRaw_of (keep_eq { len := (1 : BitVec 2), st := (st), op := (106), d := (d), a := (a), b := (b), f := (1 : BitVec 2), c := (c), e := (e), fmt := (fmt), imm := packImm [(0, ((packImm [(0, n.toNat), (8, as.toNat), (9, bs.toNat), (10, sa.toNat), (17, sb.toNat), (29, z.toNat)]).extractLsb' 0 8).toNat), (8, ((packImm [(0, n.toNat), (8, as.toNat), (9, bs.toNat), (10, sa.toNat), (17, sb.toNat), (29, z.toNat)]).extractLsb' 8 1).toNat), (9, ((packImm [(0, n.toNat), (8, as.toNat), (9, bs.toNat), (10, sa.toNat), (17, sb.toNat), (29, z.toNat)]).extractLsb' 9 1).toNat), (10, ((packImm [(0, n.toNat), (8, as.toNat), (9, bs.toNat), (10, sa.toNat), (17, sb.toNat), (29, z.toNat)]).extractLsb' 10 7).toNat), (17, ((packImm [(0, n.toNat), (8, as.toNat), (9, bs.toNat), (10, sa.toNat), (17, sb.toNat), (29, z.toNat)]).extractLsb' 17 7).toNat), (29, ((packImm [(0, n.toNat), (8, as.toNat), (9, bs.toNat), (10, sa.toNat), (17, sb.toNat), (29, z.toNat)]).extractLsb' 29 1).toNat)] } (.mmaws (d) (a) (b) (c) (e) (fmt) ((packImm [(0, n.toNat), (8, as.toNat), (9, bs.toNat), (10, sa.toNat), (17, sb.toNat), (29, z.toNat)]).extractLsb' 0 8) ((packImm [(0, n.toNat), (8, as.toNat), (9, bs.toNat), (10, sa.toNat), (17, sb.toNat), (29, z.toNat)]).extractLsb' 8 1) ((packImm [(0, n.toNat), (8, as.toNat), (9, bs.toNat), (10, sa.toNat), (17, sb.toNat), (29, z.toNat)]).extractLsb' 9 1) ((packImm [(0, n.toNat), (8, as.toNat), (9, bs.toNat), (10, sa.toNat), (17, sb.toNat), (29, z.toNat)]).extractLsb' 10 7) ((packImm [(0, n.toNat), (8, as.toNat), (9, bs.toNat), (10, sa.toNat), (17, sb.toNat), (29, z.toNat)]).extractLsb' 17 7) ((packImm [(0, n.toNat), (8, as.toNat), (9, bs.toNat), (10, sa.toNat), (17, sb.toNat), (29, z.toNat)]).extractLsb' 29 1) (st)) (by simp only [pack_0_8_9_10_17_29_w8_1_1_7_7_1_0, pack_0_8_9_10_17_29_w8_1_1_7_7_1_1, pack_0_8_9_10_17_29_w8_1_1_7_7_1_2, pack_0_8_9_10_17_29_w8_1_1_7_7_1_3, pack_0_8_9_10_17_29_w8_1_1_7_7_1_4, pack_0_8_9_10_17_29_w8_1_1_7_7_1_5]) (by simp only [pack_0_8_9_10_17_29_w8_1_1_7_7_1_0, pack_0_8_9_10_17_29_w8_1_1_7_7_1_1, pack_0_8_9_10_17_29_w8_1_1_7_7_1_2, pack_0_8_9_10_17_29_w8_1_1_7_7_1_3, pack_0_8_9_10_17_29_w8_1_1_7_7_1_4, pack_0_8_9_10_17_29_w8_1_1_7_7_1_5])) hw
theorem tld d a st : Statement (.tld d a st) := fun _ hw h => Option.some.inj h ▸ decodeRaw_of rfl hw
theorem tldX d a fmt imm st : Statement (.tldX d a fmt imm st) := fun _ hw h => Option.some.inj h ▸ decodeRaw_of rfl hw
theorem tst d a b st : Statement (.tst d a b st) := fun _ hw h => Option.some.inj h ▸ decodeRaw_of rfl hw
theorem tstX d a b fmt imm st : Statement (.tstX d a b fmt imm st) := fun _ hw h => Option.some.inj h ▸ decodeRaw_of rfl hw
theorem tzero d st : Statement (.tzero d st) := fun _ hw h => Option.some.inj h ▸ decodeRaw_of rfl hw
theorem tzeroX d fmt st : Statement (.tzeroX d fmt st) := fun _ hw h => Option.some.inj h ▸ decodeRaw_of rfl hw
theorem aclr d st : Statement (.aclr d st) := fun _ hw h => Option.some.inj h ▸ decodeRaw_of rfl hw
theorem aclrX d st : Statement (.aclrX d st) := fun _ hw h => Option.some.inj h ▸ decodeRaw_of rfl hw
theorem ald d a st : Statement (.ald d a st) := fun _ hw h => Option.some.inj h ▸ decodeRaw_of rfl hw
theorem aldX d a imm st : Statement (.aldX d a imm st) := fun _ hw h => Option.some.inj h ▸ decodeRaw_of rfl hw
theorem ast d a b st : Statement (.ast d a b st) := fun _ hw h => Option.some.inj h ▸ decodeRaw_of rfl hw
theorem astX d a b imm st : Statement (.astX d a b imm st) := fun _ hw h => Option.some.inj h ▸ decodeRaw_of rfl hw
theorem aread d a b fmt st : Statement (.aread d a b fmt st) := fun _ hw h => Option.some.inj h ▸ decodeRaw_of rfl hw
theorem mdld d a b st : Statement (.mdld d a b st) := fun _ hw h => Option.some.inj h ▸ decodeRaw_of rfl hw
theorem mdldX d a b off st : Statement (.mdldX d a b off st) := fun _ hw h => Option.some.inj h ▸
  decodeRaw_of (keep_eq { len := (1 : BitVec 2), st := (st), op := (109), d := (d), a := (a), b := (b), imm := packImm [(0, ((packImm [(0, off.toNat)]).extractLsb' 0 8).toNat)] } (.mdldX (d) (a) (b) ((packImm [(0, off.toNat)]).extractLsb' 0 8) (st)) (by simp only [pack_0_w8_0]) (by simp only [pack_0_w8_0])) hw
theorem scld d a b st : Statement (.scld d a b st) := fun _ hw h => Option.some.inj h ▸ decodeRaw_of rfl hw
theorem scldX d a b off st : Statement (.scldX d a b off st) := fun _ hw h => Option.some.inj h ▸
  decodeRaw_of (keep_eq { len := (1 : BitVec 2), st := (st), op := (109), d := (d), a := (a), b := (b), f := (1 : BitVec 2), imm := packImm [(0, ((packImm [(0, off.toNat)]).extractLsb' 0 7).toNat)] } (.scldX (d) (a) (b) ((packImm [(0, off.toNat)]).extractLsb' 0 7) (st)) (by simp only [pack_0_w7_0]) (by simp only [pack_0_w7_0])) hw
theorem orld d a b st : Statement (.orld d a b st) := fun _ hw h => Option.some.inj h ▸ decodeRaw_of rfl hw
theorem orldX d a b st : Statement (.orldX d a b st) := fun _ hw h => Option.some.inj h ▸ decodeRaw_of rfl hw
theorem gangcfg a st : Statement (.gangcfg a st) := fun _ hw h => Option.some.inj h ▸ decodeRaw_of rfl hw
theorem cpy d a b st : Statement (.cpy d a b st) := fun _ hw h => Option.some.inj h ▸ decodeRaw_of rfl hw
theorem cpyX d a b c od ph ctx st : Statement (.cpyX d a b c od ph ctx st) := fun _ hw h => Option.some.inj h ▸
  decodeRaw_of (keep_eq { len := (1 : BitVec 2), st := (st), op := (112), d := (d), a := (a), b := (b), c := (c), od := (od), ph := (ph), imm := packImm [(0, ((packImm [(0, ctx.toNat)]).extractLsb' 0 2).toNat)] } (.cpyX (d) (a) (b) (c) (od) (ph) ((packImm [(0, ctx.toNat)]).extractLsb' 0 2) (st)) (by simp only [pack_0_w2_0]) (by simp only [pack_0_w2_0])) hw
theorem cpyt d a b st : Statement (.cpyt d a b st) := fun _ hw h => Option.some.inj h ▸ decodeRaw_of rfl hw
theorem cpytX d a b c od ph ctx tv st : Statement (.cpytX d a b c od ph ctx tv st) := fun _ hw h => Option.some.inj h ▸
  decodeRaw_of (keep_eq { len := (1 : BitVec 2), st := (st), op := (112), d := (d), a := (a), b := (b), f := (1 : BitVec 2), c := (c), od := (od), ph := (ph), imm := packImm [(0, ((packImm [(0, ctx.toNat), (4, tv.toNat)]).extractLsb' 0 2).toNat), (4, ((packImm [(0, ctx.toNat), (4, tv.toNat)]).extractLsb' 4 1).toNat)] } (.cpytX (d) (a) (b) (c) (od) (ph) ((packImm [(0, ctx.toNat), (4, tv.toNat)]).extractLsb' 0 2) ((packImm [(0, ctx.toNat), (4, tv.toNat)]).extractLsb' 4 1) (st)) (by simp only [pack_0_4_w2_1_0, pack_0_4_w2_1_1]) (by simp only [pack_0_4_w2_1_0, pack_0_4_w2_1_1])) hw
theorem cpyg d a b st : Statement (.cpyg d a b st) := fun _ hw h => Option.some.inj h ▸ decodeRaw_of rfl hw
theorem cpygX d a b c e fmt od ph ctx st : Statement (.cpygX d a b c e fmt od ph ctx st) := fun _ hw h => Option.some.inj h ▸
  decodeRaw_of (keep_eq { len := (1 : BitVec 2), st := (st), op := (112), d := (d), a := (a), b := (b), f := (2 : BitVec 2), c := (c), e := (e), fmt := (fmt), od := (od), ph := (ph), imm := packImm [(0, ((packImm [(0, ctx.toNat)]).extractLsb' 0 2).toNat)] } (.cpygX (d) (a) (b) (c) (e) (fmt) (od) (ph) ((packImm [(0, ctx.toNat)]).extractLsb' 0 2) (st)) (by simp only [pack_0_w2_0]) (by simp only [pack_0_w2_0])) hw
theorem barge d a b st : Statement (.barge d a b st) := fun _ hw h => Option.some.inj h ▸ decodeRaw_of rfl hw
theorem bargeX d a b c od ph st : Statement (.bargeX d a b c od ph st) := fun _ hw h => Option.some.inj h ▸ decodeRaw_of rfl hw
theorem bargem d a b st : Statement (.bargem d a b st) := fun _ hw h => Option.some.inj h ▸ decodeRaw_of rfl hw
theorem bargemX d a b c e od ph cl st : Statement (.bargemX d a b c e od ph cl st) := fun _ hw h => Option.some.inj h ▸
  decodeRaw_of (keep_eq { len := (1 : BitVec 2), st := (st), op := (113), d := (d), a := (a), b := (b), f := (1 : BitVec 2), c := (c), e := (e), od := (od), ph := (ph), imm := packImm [(0, ((packImm [(0, cl.toNat)]).extractLsb' 0 1).toNat)] } (.bargemX (d) (a) (b) (c) (e) (od) (ph) ((packImm [(0, cl.toNat)]).extractLsb' 0 1) (st)) (by simp only [pack_0_w1_0]) (by simp only [pack_0_w1_0])) hw
theorem send d a st : Statement (.send d a st) := fun _ hw h => Option.some.inj h ▸ decodeRaw_of rfl hw
theorem sendX d a ph st : Statement (.sendX d a ph st) := fun _ hw h => Option.some.inj h ▸ decodeRaw_of rfl hw
theorem sendx d a b st : Statement (.sendx d a b st) := fun _ hw h => Option.some.inj h ▸ decodeRaw_of rfl hw
theorem sendxX d a b ph st : Statement (.sendxX d a b ph st) := fun _ hw h => Option.some.inj h ▸ decodeRaw_of rfl hw
theorem msginfo d st : Statement (.msginfo d st) := fun _ hw h => Option.some.inj h ▸ decodeRaw_of rfl hw
theorem msginfoX d st : Statement (.msginfoX d st) := fun _ hw h => Option.some.inj h ▸ decodeRaw_of rfl hw
theorem aidle st : Statement (.aidle st) := fun _ hw h => Option.some.inj h ▸ decodeRaw_of rfl hw
theorem aidleX st : Statement (.aidleX st) := fun _ hw h => Option.some.inj h ▸ decodeRaw_of rfl hw
theorem aerase d a b st : Statement (.aerase d a b st) := fun _ hw h => Option.some.inj h ▸ decodeRaw_of rfl hw
theorem aeraseX d a b st : Statement (.aeraseX d a b st) := fun _ hw h => Option.some.inj h ▸ decodeRaw_of rfl hw
theorem migrate d a b st : Statement (.migrate d a b st) := fun _ hw h => Option.some.inj h ▸ decodeRaw_of rfl hw
theorem migrateX d a b c st : Statement (.migrateX d a b c st) := fun _ hw h => Option.some.inj h ▸ decodeRaw_of rfl hw
theorem balloc d a st : Statement (.balloc d a st) := fun _ hw h => Option.some.inj h ▸ decodeRaw_of rfl hw
theorem ballocX d a e loose st : Statement (.ballocX d a e loose st) := fun _ hw h => Option.some.inj h ▸
  decodeRaw_of (keep_eq { len := (1 : BitVec 2), st := (st), op := (116), d := (d), a := (a), e := (e), imm := packImm [(0, ((packImm [(0, loose.toNat)]).extractLsb' 0 1).toNat)] } (.ballocX (d) (a) (e) ((packImm [(0, loose.toNat)]).extractLsb' 0 1) (st)) (by simp only [pack_0_w1_0]) (by simp only [pack_0_w1_0])) hw
theorem bfree d a st : Statement (.bfree d a st) := fun _ hw h => Option.some.inj h ▸ decodeRaw_of rfl hw
theorem bfreeX d a st : Statement (.bfreeX d a st) := fun _ hw h => Option.some.inj h ▸ decodeRaw_of rfl hw
theorem bshare d a b st : Statement (.bshare d a b st) := fun _ hw h => Option.some.inj h ▸ decodeRaw_of rfl hw
theorem bshareX d a b loose st : Statement (.bshareX d a b loose st) := fun _ hw h => Option.some.inj h ▸
  decodeRaw_of (keep_eq { len := (1 : BitVec 2), st := (st), op := (116), d := (d), a := (a), b := (b), f := (2 : BitVec 2), imm := packImm [(0, ((packImm [(0, loose.toNat)]).extractLsb' 0 1).toNat)] } (.bshareX (d) (a) (b) ((packImm [(0, loose.toNat)]).extractLsb' 0 1) (st)) (by simp only [pack_0_w1_0]) (by simp only [pack_0_w1_0])) hw
theorem btrunc d a b st : Statement (.btrunc d a b st) := fun _ hw h => Option.some.inj h ▸ decodeRaw_of rfl hw
theorem btruncX d a b st : Statement (.btruncX d a b st) := fun _ hw h => Option.some.inj h ▸ decodeRaw_of rfl hw
theorem bquery d a st : Statement (.bquery d a st) := fun _ hw h => Option.some.inj h ▸ decodeRaw_of rfl hw
theorem bqueryX d a e st : Statement (.bqueryX d a e st) := fun _ hw h => Option.some.inj h ▸ decodeRaw_of rfl hw
theorem bseqnew d a b st : Statement (.bseqnew d a b st) := fun _ hw h => Option.some.inj h ▸ decodeRaw_of rfl hw
theorem bseqnewX d a b st : Statement (.bseqnewX d a b st) := fun _ hw h => Option.some.inj h ▸ decodeRaw_of rfl hw
theorem bseqdrop d a st : Statement (.bseqdrop d a st) := fun _ hw h => Option.some.inj h ▸ decodeRaw_of rfl hw
theorem bseqdropX d a st : Statement (.bseqdropX d a st) := fun _ hw h => Option.some.inj h ▸ decodeRaw_of rfl hw
theorem ptx d a b st : Statement (.ptx d a b st) := fun _ hw h => Option.some.inj h ▸ decodeRaw_of rfl hw
theorem ptxX d a b st : Statement (.ptxX d a b st) := fun _ hw h => Option.some.inj h ▸ decodeRaw_of rfl hw
theorem ptfill d a b st : Statement (.ptfill d a b st) := fun _ hw h => Option.some.inj h ▸ decodeRaw_of rfl hw
theorem ptfillX d a b c st : Statement (.ptfillX d a b c st) := fun _ hw h => Option.some.inj h ▸ decodeRaw_of rfl hw
theorem ptinv a b st : Statement (.ptinv a b st) := fun _ hw h => Option.some.inj h ▸ decodeRaw_of rfl hw
theorem ptinvX a b st : Statement (.ptinvX a b st) := fun _ hw h => Option.some.inj h ▸ decodeRaw_of rfl hw
theorem attnq d a st : Statement (.attnq d a st) := fun _ hw h => Option.some.inj h ▸ decodeRaw_of rfl hw
theorem attnqX d a od ph st : Statement (.attnqX d a od ph st) := fun _ hw h => Option.some.inj h ▸ decodeRaw_of rfl hw
theorem refwait d a st : Statement (.refwait d a st) := fun _ hw h => Option.some.inj h ▸ decodeRaw_of rfl hw
theorem refwaitX d a guard st : Statement (.refwaitX d a guard st) := fun _ hw h => Option.some.inj h ▸
  decodeRaw_of (keep_eq { len := (1 : BitVec 2), st := (st), op := (119), d := (d), a := (a), f := (1 : BitVec 2), imm := packImm [(0, ((packImm [(0, guard.toNat)]).extractLsb' 0 11).toNat)] } (.refwaitX (d) (a) ((packImm [(0, guard.toNat)]).extractLsb' 0 11) (st)) (by simp only [pack_0_w11_0]) (by simp only [pack_0_w11_0])) hw
theorem mcst d a b st : Statement (.mcst d a b st) := fun _ hw h => Option.some.inj h ▸ decodeRaw_of rfl hw
theorem mcstX d a b c od ph st : Statement (.mcstX d a b c od ph st) := fun _ hw h => Option.some.inj h ▸ decodeRaw_of rfl hw
theorem mcstc d a b st : Statement (.mcstc d a b st) := fun _ hw h => Option.some.inj h ▸ decodeRaw_of rfl hw
theorem mcstcX d a b c e od ph st : Statement (.mcstcX d a b c e od ph st) := fun _ hw h => Option.some.inj h ▸ decodeRaw_of rfl hw
theorem mcseq d a st : Statement (.mcseq d a st) := fun _ hw h => Option.some.inj h ▸ decodeRaw_of rfl hw
theorem mcseqX d a st : Statement (.mcseqX d a st) := fun _ hw h => Option.some.inj h ▸ decodeRaw_of rfl hw
theorem illegalInstruction word : Statement (.illegalInstruction word) := fun _ _ h => nomatch h
theorem windowBoundary : Statement (.windowBoundary) := fun _ _ h => nomatch h
theorem stretchNoticeArrive dev win withdrawn : Statement (.stretchNoticeArrive dev win withdrawn) := fun _ _ h => nomatch h
theorem launchHandleExpire handle : Statement (.launchHandleExpire handle) := fun _ _ h => nomatch h
theorem keyZeroiseComplete slot : Statement (.keyZeroiseComplete slot) := fun _ _ h => nomatch h
theorem syscResult core slot val : Statement (.syscResult core slot val) := fun _ _ h => nomatch h
theorem cleozInterrupt core : Statement (.cleozInterrupt core) := fun _ _ h => nomatch h
theorem timeDomainLeave : Statement (.timeDomainLeave) := fun _ _ h => nomatch h
theorem timeDomainRejoin : Statement (.timeDomainRejoin) := fun _ _ h => nomatch h
theorem ethernetPortEnable phys split : Statement (.ethernetPortEnable phys split) := fun _ _ h => nomatch h
theorem fusedMinimumRaise svn : Statement (.fusedMinimumRaise svn) := fun _ _ h => nomatch h
theorem rootKeyRevoke : Statement (.rootKeyRevoke) := fun _ _ h => nomatch h
theorem corePowerGating core : Statement (.corePowerGating core) := fun _ _ h => nomatch h
theorem towlineRouteDown port : Statement (.towlineRouteDown port) := fun _ _ h => nomatch h

end Sys2Proof.Laws.RoundTrip
end

