-- ==== Sys2Proof/Laws/Queues.lean ====
section
/-! SUPPORT. What issuing a command to an engine context does, once. -/

namespace Sys2Proof.Machine

theorem active_frame (s : State) (v p : Nat) : { s.active v p with activity := s.activity } = s := by
  unfold State.active; split <;> rfl
theorem active_cores (s : State) (v p : Nat) (c : Map CoreSt) (a : List Nat) :
    { s.active v p with cores := c, activity := a } = { s with cores := c, activity := a } := by
  unfold State.active; split <;> rfl
theorem active_ctx (s : State) (v p id : Nat) : (s.active v p).ctx id = s.ctx id := by
  unfold State.active; split <;> rfl
theorem active_core (s : State) (v p k : Nat) : (s.active v p).core k = s.core k := by
  unfold State.active; split <;> rfl

theorem sendEng_full (s : State) (o : Op) (ctr : Nat) (d : Option R6) (ph : Bit) (op : EngOp) (accept acq : Bool)
    (h : 2 ≤ ((s.core s.myCore).queues.get ctr []).length) : s.sendEng o ctr d ph op accept acq = s.hold (.engine ctr) := by
  simp [State.sendEng, h]

@[simp] theorem core_modMe (s : State) (f : Ctx → Ctx) (k : Nat) : (s.modMe f).core k = s.core k := rfl
@[simp] theorem cur_modMe (s : State) (f : Ctx → Ctx) : (s.modMe f).cur = s.cur := rfl
@[simp] theorem cycle_modMe (s : State) (f : Ctx → Ctx) : (s.modMe f).cycle = s.cycle := rfl
@[simp] theorem frame_modMe (s : State) (f : Ctx → Ctx) (x : Map Ctx) (c : Map CoreSt) (a : List Nat) :
    ({ s.modMe f with ctxs := x, cores := c, activity := a } : State) = { s with ctxs := x, cores := c, activity := a } := rfl

/-- What an issued command changes, from what `u` holds when the context goes on. -/
theorem commanded_of {s u v : State} {ctr : Nat} {q : EngCmd} {d : Option R6} {wait : Option Wait} {len : Nat} {st : St}
    (uk : ∀ k, u.core k = if k = s.myCore then { s.core s.myCore with
      queues := (s.core s.myCore).queues.put ctr ((s.core s.myCore).queues.get ctr [] ++ [q]),
      nextNum := (s.core s.myCore).nextNum.put ctr (q.num + 1) } else s.core k)
    (uf : { u with cores := s.cores, activity := s.activity } = s) (uc : ∀ id, u.ctx id = s.ctx id) (ucur : u.cur = s.cur) (hv : OnlyMe u v)
    (hm : v.me = { (match d with
                      | some d => s.me.setAt (s.me.regKey d) (BitVec.ofNat 64 q.num)
                      | none => s.me) with
                    pc := s.me.pc + BitVec.ofNat 64 len, nextIssue := s.cycle + 1 + st.toNat, wait := wait,
                    waitFrom := if wait.isSome then s.cycle else s.me.waitFrom, relMark := q.after,
                    ops := if s.me.startItem.isSome then s.me.ops ++ [(ctr, q.num)] else s.me.ops }) :
    Commanded s v ctr q d wait len st := by
  have hc : ∀ k, v.core k = u.core k := fun k => by
    have h := congrArg State.cores hv.rest
    exact congrArg (fun m : Map CoreSt => m.get k {}) h
  have hf : { v with ctxs := s.ctxs, cores := s.cores, activity := s.activity } =
      ({ u with ctxs := s.ctxs, cores := s.cores, activity := s.activity } : State) :=
    congrArg (fun x : State => { x with ctxs := s.ctxs, cores := s.cores, activity := s.activity }) hv.rest
  have hu : ({ u with ctxs := s.ctxs, cores := s.cores, activity := s.activity } : State) = s :=
    congrArg (fun x : State => { x with ctxs := s.ctxs }) uf
  exact ⟨by rw [hc, uk, if_pos rfl], fun k hk => by rw [hc, uk, if_neg hk], hf.trans hu,
    fun id hid => (hv.others id (by rw [ucur]; exact hid)).trans (uc id), hm⟩

/-- A command that finds room. -/
theorem sendEng_room (s : State) (o : Op) (ctr : Nat) (d : Option R6) (ph : Bit) (op : EngOp) (accept acq : Bool)
    (h : ((s.core s.myCore).queues.get ctr []).length < 2) :
    Commanded s (s.sendEng o ctr d ph op accept acq) ctr
      (s.command ((s.core s.myCore).nextNum.get ctr 1) ph op (!accept) (if accept then d.map s.me.regKey else none))
      (if accept then none else d)
      (if accept then some (.accept ctr ((s.core s.myCore).nextNum.get ctr 1))
       else if acq then some (.timeline ctr ((s.core s.myCore).nextNum.get ctr 1)) else none) o.len o.st := by
  have h' : ¬ 2 ≤ ((s.core s.myCore).queues.get ctr []).length := by omega
  simp only [State.sendEng, State.enterQueue, h', if_false]
  generalize hu : (s.modCore s.myCore _).active _ _ = u
  have uc : ∀ id, u.ctx id = s.ctx id := by intro id; rw [← hu, active_ctx]; rfl
  have uk : ∀ k, u.core k = if k = s.myCore then { s.core s.myCore with
      queues := (s.core s.myCore).queues.put ctr ((s.core s.myCore).queues.get ctr [] ++
        [s.command ((s.core s.myCore).nextNum.get ctr 1) ph op (!accept) (if accept then d.map s.me.regKey else none)]),
      nextNum := (s.core s.myCore).nextNum.put ctr ((s.core s.myCore).nextNum.get ctr 1 + 1) } else s.core k := by
    intro k; rw [← hu, active_core, core_modCore]; rfl
  have uf : { u with cores := s.cores, activity := s.activity } = s := by
    rw [← hu, active_cores]; rfl
  have ucur : u.cur = s.cur := by rw [← uf]
  have ucyc : u.cycle = s.cycle := by rw [← uf]
  have ume : u.me = s.me := by unfold State.me; rw [ucur, uc]
  clear hu
  clear h h'
  have hq : (s.command ((s.core s.myCore).nextNum.get ctr 1) ph op (!accept) (if accept then d.map s.me.regKey else none)).num =
      (s.core s.myCore).nextNum.get ctr 1 := rfl
  generalize s.command _ ph op _ _ = q at *
  generalize hn : (s.core s.myCore).nextNum.get ctr 1 = n at *
  have ho : ∀ (f : Ctx → Ctx) v, OnlyMe u v → OnlyMe u (v.modMe f) := fun f v h => h.trans (onlyMe_modMe ..)
  subst hq
  refine commanded_of uk uf uc ucur ?_ ?_
  · cases d <;> cases accept <;> cases acq <;> simp only [State.wr, State.finish, if_true, if_false, Bool.false_eq_true] <;>
      exact (by repeat' (first | exact OnlyMe.refl _ | apply ho))
  · cases d <;> cases accept <;> cases acq <;> simp [State.wr, State.finish, ume, ucyc, Ctx.startItem]

end Sys2Proof.Machine
end

