-- ==== Sys2Proof/Tests/Slice0.lean ====
section
/-! SUPPORT. Tests: words written out from the spec's encodings, ill-formed terms, single steps with values from the
spec's worked examples, and witnesses that the hypotheses of the statements can be met. -/

namespace Sys2Proof.Tests

set_option Elab.async false

open Sys2Proof.Machine

/-! ## Decoding: Tables 6.3, 9.5, 10.6, 11.7, 12.6, 13.4 and the worked encodings of the scalar chapter -/

theorem test_decode_add : decodeWords [0x02043020] = .ok (Instr.add 3 1 2 0, []) := rfl
theorem test_decode_addi : decodeWords [0x01146208] = .ok (Instr.addi 6 5 1 2, []) := rfl
theorem test_decode_ldd : decodeWords [0xFF0076C0] = .ok (Instr.ldd 7 0 0xFF 0, []) := rfl
theorem test_decode_bnez : decodeWords [0xFFFC5440] = .ok (Instr.bnez 5 0x3FFF 0, []) := rfl
theorem test_decode_vmul : decodeWords [0x86083A40] = .ok (Instr.vmul 3 2 6 0 1 0, []) := rfl
theorem test_decode_lddX : decodeWords [0x003026C1, 0x02C00000, 0] = .ok (Instr.lddX 2 12 2 1 1 0 0 0, []) := rfl
theorem test_decode_liLit : decodeWords [0x00009342, 0x40000000, 0] = .ok (Instr.liLit 9 0x40000000 0, []) := rfl
theorem test_decode_sub : decodeWords [0x46596020] = .ok (Instr.sub 22 22 6 0, []) := rfl
theorem test_decode_shri : decodeWords [0x382082A0] = .ok (Instr.shri 8 8 0x38 0, []) := rfl
theorem test_decode_bfxz : decodeWords [0x4024A141, 0, 0x430] = .ok (Instr.bfxz 10 9 0x30 16 0, []) := rfl
theorem test_decode_popw : decodeWords [0x00005560] = .ok (Instr.popw 5 0 0, []) := rfl
theorem test_decode_mfk : decodeWords [0x003705C0] = .ok (Instr.mfk 48 13 0, []) := rfl
theorem test_decode_fail : decodeWords [0x40240520] = .ok (Instr.fail 9 0, []) := rfl
theorem test_decode_start : decodeWords [0x07188500] = .ok (Instr.start 8 6 7 0, []) := rfl
theorem test_decode_startm : decodeWords [0x40009500] = .ok (Instr.startm 9 0, []) := rfl
theorem test_decode_idle : decodeWords [0x80000520] = .ok (Instr.idle 0, []) := rfl
theorem test_decode_stdX : decodeWords [0x00301741, 0x04000000, 0] = .ok (Instr.stdX 1 12 0 0 2 0 0 0, []) := rfl
theorem test_decode_aswpX : decodeWords [0xC03467C1, 0x00400000, 0] = .ok (Instr.aswpX 6 13 0 2 0 0 0 0, []) := rfl
theorem test_decode_relX : decodeWords [0x40343821, 0x00400000, 0] = .ok (Instr.relX 3 13 2 0 0, []) := rfl
theorem test_decode_tlwait : decodeWords [0x07040840] = .ok (Instr.tlwait 1 7 0, []) := rfl
theorem test_decode_vcmplt : decodeWords [0x05101CA0] = .ok (Instr.vcmplt 1 4 5 0 0 0, []) := rfl
theorem test_decode_vclaim : decodeWords [0x00146CE0] = .ok (Instr.vclaim 6 5 0, []) := rfl
theorem test_decode_vsync : decodeWords [0xC00009E0] = .ok (Instr.vsync 0, []) := rfl
theorem test_decode_vbcastX : decodeWords [0x40246901, 0x00120000, 0] = .ok (Instr.vbcastX 6 9 9 0 0 0 0, []) := rfl
theorem test_decode_vldX : decodeWords [0x00502981, 0x00139000, 0] = .ok (Instr.vldX 2 20 9 1 1 1 0 0 0, []) := rfl
theorem test_decode_vfmaX : decodeWords [0x86089A61, 0xA, 0] = .ok (Instr.vfmaX 9 2 6 0 1 10 0 0 0 0 0 0, []) := rfl
theorem test_decode_mmag : decodeWords [0x40400D01, 0x000A0011, 0x20000101] = .ok (Instr.mmag 0 16 0 17 0 5 1 1 0 1 0, []) := rfl
theorem test_decode_mmaws : decodeWords [0x52400D41, 0x000A04D1, 0x20000308] = .ok (Instr.mmaws 0 16 18 17 19 5 8 1 1 0 0 1 0, []) := rfl
theorem test_decode_tldX : decodeWords [0x005C0D61, 0x000A0000, 0] = .ok (Instr.tldX 0 23 5 0 0, []) := rfl
theorem test_decode_aclr : decodeWords [0x00003D80] = .ok (Instr.aclr 3 0, []) := rfl
theorem test_decode_aread : decodeWords [0xD9000D81, 0x00120000, 0] = .ok (Instr.aread 0 0 25 9 0, []) := rfl
theorem test_decode_gangcfg : decodeWords [0x00140DC0] = .ok (Instr.gangcfg 5 0, []) := rfl
theorem test_decode_cpyX : decodeWords [0x14587E01, 0x15, 0] = .ok (Instr.cpyX 7 22 20 21 0 0 0 0, []) := rfl
theorem test_decode_bargeX : decodeWords [0x1B687E21, 0x1C, 0] = .ok (Instr.bargeX 7 26 27 28 0 0 0, []) := rfl
theorem test_decode_send : decodeWords [0x00500E40] = .ok (Instr.send 0 20 0, []) := rfl
theorem test_decode_aidle : decodeWords [0xC0000E40] = .ok (Instr.aidle 0, []) := rfl
theorem test_decode_balloc : decodeWords [0x007C9E80] = .ok (Instr.balloc 9 31 0, []) := rfl
theorem test_decode_bqueryX : decodeWords [0x00D35EA1, 0xD80, 0] = .ok (Instr.bqueryX 53 52 54 0, []) := rfl
theorem test_decode_ptx : decodeWords [0x077CCEC0] = .ok (Instr.ptx 12 31 7 0, []) := rfl
theorem test_decode_ptfillX : decodeWords [0x77C72EC1, 0x36, 0] = .ok (Instr.ptfillX 50 49 55 54 0, []) := rfl
theorem test_decode_mcstcX : decodeWords [0x55507F01, 0x5C0, 0] = .ok (Instr.mcstcX 7 20 21 0 23 0 0 0, []) := rfl
theorem test_decode_mcseq : decodeWords [0x80508F00] = .ok (Instr.mcseq 8 20 0, []) := rfl
theorem test_decode_std : decodeWords [0x01502740] = .ok (Instr.std 2 20 1 0, []) := rfl
theorem test_decode_ldw : decodeWords [0xFF244680] = .ok (Instr.ldw 4 9 0xFF 0, []) := rfl
theorem test_decode_li : decodeWords [0x04005340] = .ok (Instr.li 5 256 0, []) := rfl

/-! ## Encodings that are refused (R143, R147 to R156) -/

/-- The all-zero word falls under major 0x00. -/
theorem test_refuse_zero : decodeWords [0] = .error .illegalMajor := rfl
/-- 0x1B is an illegal major. -/
theorem test_refuse_major : decodeWords [0x00000360] = .error .illegalMajor := rfl
/-- Major 0x01 has the base form only. -/
theorem test_refuse_form : ∃ e, decodeWords [0x02043021, 0, 0] = .error e := ⟨_, rfl⟩
/-- Major 0x03 takes no literal. -/
theorem test_refuse_literal : ∃ e, decodeWords [0x02043062, 0, 0] = .error e := ⟨_, rfl⟩
/-- F = 3 of major 0x0A is a dash. -/
theorem test_refuse_function : ∃ e, decodeWords [0xC0043141, 0, 0x40] = .error e := ⟨_, rfl⟩
/-- RET with a nonzero A field. -/
theorem test_refuse_field : ∃ e, decodeWords [0x800404E0] = .error e := ⟨_, rfl⟩
/-- A bit field past bit 63: p 0x3F, n 2. -/
theorem test_refuse_operand : decodeWords [0x4024A141, 0, 0xBF] = .error .illegalOperand := rfl

/-- JOIN with bit 29 of its limit set. -/
theorem test_refuse_limit : decodeWords [0x00043541, 0, 0x20000000] = .error .illegalOperand := rfl
/-- The same limit without that bit. -/
theorem test_join_limit : decodeWords [0x00043541, 0, 0x1FFFFFFF] = .ok (.joinX 3 1 0x1FFFFFFF 0, []) := rfl

/-! ## Ill-formed terms, one for each check of WellFormed -/

theorem test_ill_register_k : (Instr.mfk 1 20 0).wf = false := by decide
theorem test_ill_register_timeline : (Instr.tlwait 16 1 0).wf = false := by decide
theorem test_ill_register_vector : (Instr.vmov 48 1 0).wf = false := by decide
theorem test_ill_register_tile : (Instr.tld 8 1 0).wf = false := by decide
theorem test_ill_register_accumulator : (Instr.aclr 32 0).wf = false := by decide
theorem test_ill_format_code : (Instr.vmovX 1 2 12 0 0 0 0).wf = false := by decide
theorem test_ill_format_integer : (Instr.fcvtifX 1 2 4 0).wf = false := by decide
theorem test_ill_format_narrow : (Instr.fcvth 1 2 9 0 0).wf = false := by decide
theorem test_ill_format_narrow_e8m0 : (Instr.fcvte 1 2 9 0).wf = false := by decide
theorem test_ill_format_mask : (Instr.vmandX 1 2 3 9 0).wf = false := by decide
theorem test_ill_format_strided : (Instr.vldsX 1 2 3 2 0 0 0 0 0 0).wf = false := by decide
theorem test_ill_format_merge : (Instr.vmerge3X 1 4 7 3 0 0 0 0).wf = false := by decide
theorem test_ill_format_equal_width : (Instr.vcvti 1 2 4 0 0 0 0 0 0).wf = false := by decide
theorem test_ill_format_scaled_block : (Instr.vqscale 1 2 3 7 0 0 0 0).wf = false := by decide
theorem test_ill_format_matrix : (Instr.mma 0 0 1 0 0 2 1 0 0 0 0).wf = false := by decide
theorem test_ill_format_micro : (Instr.mmamx 0 0 1 0 0 7 1 0 0 0 0 0 0).wf = false := by decide
theorem test_ill_format_tile : (Instr.tldX 0 1 2 0 0).wf = false := by decide
theorem test_ill_format_read : (Instr.aread 1 0 2 4 0).wf = false := by decide
theorem test_ill_format_index : (Instr.cpygX 1 2 3 4 5 1 0 0 0 0).wf = false := by decide
theorem test_ill_mask_policy : (Instr.vbcastX 1 2 9 0 1 0 0).wf = false := by decide
theorem test_ill_bit_field : (Instr.bfxz 1 2 60 5 0).wf = false := by decide
theorem test_ill_bit_field_empty : (Instr.bfxs 1 2 3 0 0).wf = false := by decide
theorem test_ill_shift : (Instr.shli 1 2 64 0).wf = false := by decide
theorem test_ill_shift_literal : (Instr.shraiLit 1 2 64 0).wf = false := by decide
theorem test_ill_window : (Instr.startX 1 2 3 0 7 0 0).wf = false := by decide
theorem test_ill_class_flag : (Instr.startmX 1 5 0 0).wf = false := by decide
theorem test_ill_timeline_software : (Instr.tladd 1 7 2 0).wf = false := by decide
theorem test_ill_group_of_three : (Instr.vmerge3 46 1 4 0).wf = false := by decide
theorem test_ill_loose_share : (Instr.bshareX 1 2 3 1 0).wf = false := by decide
theorem test_ill_narrowing_scale : (Instr.vcvtp 1 2 3 1 0 0 0 0 0 0).wf = false := by decide
theorem test_ill_widening_scale : (Instr.vcvtu 1 2 3 2 0 0 0 0 0 0).wf = false := by decide
theorem test_ill_steps_none : (Instr.mma 0 0 1 0 0 5 0 0 0 0 0).wf = false := by decide
theorem test_ill_steps_past_t7 : (Instr.mma 0 6 0 0 0 5 3 0 0 0 0).wf = false := by decide
theorem test_ill_tile_pitch : (Instr.mma 0 0 1 2 0 5 1 0 0 0 0).wf = false := by decide
theorem test_ill_gang_tile : (Instr.mmag 0 0 1 0 0 5 1 0 0 0 0).wf = false := by decide
theorem test_ill_load_fill : (Instr.lddX 1 2 0 0 2 0 0 0).wf = false := by decide
theorem test_ill_store_empty : (Instr.stdX 1 2 0 0 1 0 0 0).wf = false := by decide
theorem test_ill_store_full : (Instr.stbX 1 2 0 0 3 0 0 0).wf = false := by decide
theorem test_ill_limit_join : (Instr.joinX 3 1 0x20000000 0).wf = false := by decide
theorem test_ill_limit_joinany : (Instr.joinanyX 3 0x80000000 0).wf = false := by decide

/-! ## Single steps. Values: Table 7.3, the examples of R145, R187 to R196 and R397, or by hand from the rules. -/

/-- Core 0's control context with some registers, in the running stage, its program counter at 0x40000. -/
def start (rs : List (Nat × W64)) : State :=
  { State.reset with boot := { State.reset.boot with stage := 3 }, ctxs := [(0, { Ctx.reset with pc := 0x40000, regs := rs, placed := clustersOf 0 })] }

/-- Register `r` after an instruction. -/
def after (i : Instr) (rs : List (Nat × W64)) (r : Nat) : Option W64 :=
  match exec i (start rs) with
  | .next t => some ((t.ctx 0).regAt r)
  | _ => none

/-- Program counter and cause after an instruction. -/
def going (i : Instr) (rs : List (Nat × W64)) : Option (W64 × W64) :=
  match exec i (start rs) with
  | .next t => some ((t.ctx 0).pc, (t.ctx 0).k 11)
  | _ => none

theorem test_add_wraps : after (.add 3 1 2 0) [(1, 0xFFFFFFFFFFFFFFFF), (2, 2)] 3 = some 1 := by decide +kernel
theorem test_sub_source_is_destination : after (.sub 1 1 2 0) [(1, 5), (2, 7)] 1 = some 0xFFFFFFFFFFFFFFFE := by decide +kernel
theorem test_addw_extends_sign : after (.addw 3 1 2 0) [(1, 0x7FFFFFFF), (2, 1)] 3 = some 0xFFFFFFFF80000000 := by decide +kernel
theorem test_mulh_of_minus_one : after (.mulh 3 1 2 0) [(1, 0xFFFFFFFFFFFFFFFF), (2, 2)] 3 = some 0xFFFFFFFFFFFFFFFF := by decide +kernel
theorem test_mulhz_of_all_ones : after (.mulhz 3 1 2 0) [(1, 0xFFFFFFFFFFFFFFFF), (2, 2)] 3 = some 1 := by decide +kernel
theorem test_div_rounds_to_zero : after (.div 3 1 2 0) [(1, 0xFFFFFFFFFFFFFFF9), (2, 2)] 3 = some 0xFFFFFFFFFFFFFFFD := by decide +kernel
theorem test_div_by_zero : after (.divz 3 1 2 0) [(1, 7)] 3 = some 0xFFFFFFFFFFFFFFFF := by decide +kernel
theorem test_rem_by_zero : after (.rem 3 1 2 0) [(1, 7)] 3 = some 0xFFFFFFFFFFFFFFFF := by decide +kernel
theorem test_rem_takes_dividend_sign : after (.rem 3 1 2 0) [(1, 0xFFFFFFFFFFFFFFF9), (2, 2)] 3 = some 0xFFFFFFFFFFFFFFFF := by decide +kernel
theorem test_andn_order : after (.andn 3 1 2 0) [(1, 0xFF), (2, 0x0F)] 3 = some 0xF0 := by decide +kernel
theorem test_shl_takes_six_bits : after (.shl 3 1 2 0) [(1, 1), (2, 65)] 3 = some 2 := by decide +kernel
theorem test_shra_sign : after (.shra 3 1 2 0) [(1, 0x8000000000000000), (2, 63)] 3 = some 0xFFFFFFFFFFFFFFFF := by decide +kernel
theorem test_slt_signed : after (.slt 3 1 2 0) [(1, 0xFFFFFFFFFFFFFFFF), (2, 0)] 3 = some 1 := by decide +kernel
theorem test_sltz_unsigned : after (.sltz 3 1 2 0) [(1, 0xFFFFFFFFFFFFFFFF), (2, 0)] 3 = some 0 := by decide +kernel
theorem test_clz_of_one : after (.clz 3 1 0) [(1, 1)] 3 = some 63 := by decide +kernel
theorem test_brev_of_one : after (.brev 3 1 0) [(1, 1)] 3 = some 0x8000000000000000 := by decide +kernel
theorem test_s0_reads_zero : after (.add 0 1 1 0) [(1, 5)] 0 = some 0 := by decide +kernel
theorem test_bfxs_sign : after (.bfxs 3 1 4 4 0) [(1, 0x80)] 3 = some 0xFFFFFFFFFFFFFFF8 := by decide +kernel
theorem test_lea_scale : after (.lea 3 1 2 3 0) [(1, 0x100), (2, 2)] 3 = some 0x110 := by decide +kernel
theorem test_fadd_opposite : after (.fadd 3 1 2 0) [(1, 0x3F800000), (2, 0xBF800000)] 3 = some 0 := by decide +kernel
theorem test_fmul_half_of_three : after (.fmul 3 1 2 0) [(1, 0x3F000000), (2, 0x40400000)] 3 = some 0x3FC00000 := by decide +kernel
theorem test_fmin_orders_zeros : after (.fmin 3 1 2 0) [(1, 0), (2, 0x80000000)] 3 = some 0x80000000 := by decide +kernel
theorem test_fmax_drops_nan : after (.fmax 3 1 2 0) [(1, 0x7FC00000), (2, 0xBF800000)] 3 = some 0xBF800000 := by decide +kernel
theorem test_fsqrt_of_four : after (.fsqrt 3 1 0) [(1, 0x40800000)] 3 = some 0x40000000 := by decide +kernel
theorem test_fcvtif_two_24_plus_one : after (.fcvtif 2 1 0) [(1, 0x1000001)] 2 = some 0x4B800000 := by decide +kernel
theorem test_fcvth_464 : after (.fcvth 2 1 5 0 0) [(1, 0x43E80000)] 2 = some 0x7E := by decide +kernel
theorem test_fcvth_465 : after (.fcvth 2 1 5 0 0) [(1, 0x43E88000)] 2 = some 0x7F := by decide +kernel
theorem test_fcvth_465_sat : after (.fcvth 2 1 5 1 0) [(1, 0x43E88000)] 2 = some 0x7E := by decide +kernel
theorem test_fcvtfi_i8_300 : after (.fcvtfiX 2 1 1 0) [(1, 0x43960000)] 2 = some 127 := by decide +kernel
theorem test_fcvth_bf16_tie : after (.fcvth 2 1 8 0 0) [(1, 0x3F808000)] 2 = some 0x3F80 := by decide +kernel
theorem test_fcvth_e5m2_61440 : after (.fcvth 2 1 6 0 0) [(1, 0x47700000)] 2 = some 0x7C := by decide +kernel
theorem test_fcvth_e2m1_three : after (.fcvth 2 1 4 0 0) [(1, 0x40400000)] 2 = some 5 := by decide +kernel
theorem test_fcvte_e8m0_least : after (.fcvte 2 1 11 0) [(1, 0)] 2 = some 0x400000 := by decide +kernel
theorem test_addi_sign : after (.addi 6 5 0xFF 0) [(5, 3)] 6 = some 2 := by decide +kernel
theorem test_shri_56 : after (.shri 8 8 56 0) [(8, 0xAB00000000000000)] 8 = some 0xAB := by decide +kernel
theorem test_li_sign : after (.li 5 0x3FFF 0) [] 5 = some 0xFFFFFFFFFFFFFFFF := by decide +kernel
theorem test_li_literal : after (.liLit 9 0x40000000 0) [] 9 = some 0x40000000 := by decide +kernel
theorem test_call_links : after (.call 4 0) [] 63 = some 0x40004 := by decide +kernel
theorem test_mfk_keyset : after (.mfk 1 4 0) [] 1 = some 0xFFFF := by decide +kernel
theorem test_br_back : going (.br 0xFFFFF 0) [] = some (0x3FFFC, 0) := by decide +kernel
theorem test_beqz_not_taken : going (.beqz 5 8 0) [(5, 1)] = some (0x40004, 0) := by decide +kernel
theorem test_bltz_taken : going (.bltz 5 8 0) [(5, 0x8000000000000000)] = some (0x40020, 0) := by decide +kernel
theorem test_blo_length : going (.blo 1 2 0x40 0) [(1, 2), (2, 1)] = some (0x4000C, 0) := by decide +kernel
theorem test_blt_signed : going (.blt 1 2 0x40 0) [(1, 0xFFFFFFFFFFFFFFFF), (2, 1)] = some (0x40100, 0) := by decide +kernel
theorem test_ret_target : going (.ret 0) [(63, 0x123450)] = some (0x123450, 0) := by decide +kernel
theorem test_callr_old_value : going (.callr 1 1 0) [(1, 0x5000)] = some (0x5000, 0) := by decide +kernel
theorem test_jmpr_misaligned : (going (.jmpr 1 0) [(1, 0x5002)]).map (·.2) = some 3 := by decide +kernel
theorem test_mfk_privilege : (going (.mtk 14 1 0) [(1, 1)]).map (·.2) = some 2 := by decide +kernel
theorem test_eret_outside : (going (.eret 0) []).map (·.2) = some 1 := by decide +kernel
theorem test_tladd_one_word : going (.tladd 1 8 2 0) [(2, 1)] = some (0x40004, 0) := by decide +kernel
theorem test_ldd_misaligned : (going (.ldd 1 2 0 0) [(2, 0x40001)]).map (·.2) = some 3 := by decide +kernel
theorem test_acas_misaligned : (going (.aadd 1 2 3 0) [(2, 0x40004)]).map (·.2) = some 3 := by decide +kernel

/-- FIPS 202: the digests of the empty message. -/
theorem test_shake256_empty : shake256 [] 8 = [0x46, 0xB9, 0xDD, 0x2B, 0x0B, 0xA8, 0x8D, 0x13] := by decide +kernel
theorem test_shake128_empty : shake128 [] 8 = [0x7F, 0x9C, 0x2B, 0xA4, 0xE8, 0x8F, 0x82, 0x7D] := by decide +kernel
/-- R397's example: level 2 index 128, page offset 0x4000. -/
theorem test_walk_indices : (0x0000020000004000 / 2 ^ 34 % 2 ^ 11, 0x0000020000004000 % 2 ^ 16) = (128, 0x4000) := by decide
/-- Step fetches and runs the word that is placed: ADD s3, s1, s2 leaves the program counter at the next word. -/
theorem test_step_add : ∃ t, step (State.reset.withFetchWord 32 0x02043020) = .next t ∧ (t.ctx 0).pc = 0x40004 := ⟨_, rfl, by decide +kernel⟩

/-! ## Witnesses: the hypotheses of the statements can be met -/

theorem witness_IntegerFunctions : State.reset.Clear [1, 2] [3] ∧ State.reset.Clear [1] [3] := by decide
theorem witness_SelectAddressAndFields : State.reset.Clear [1, 2, 3] [4] ∧ State.reset.Clear [1, 2] [4] ∧ State.reset.Clear [1] [4] ∧ (1 ≤ (64#7).toNat ∧ (0#6).toNat + (64#7).toNat ≤ 64) := by decide
theorem witness_ImmediateForms : State.reset.Clear [] [4] ∧ State.reset.Clear [1] [4] ∧ (63#8).toNat < 64 ∧ (63#64).toNat < 64 ∧ 64 ≤ (64#8).toNat ∧ 64 ≤ (64#64).toNat := by decide
theorem witness_FloatFunctions : State.reset.Clear [1, 2] [4] ∧ State.reset.Clear [1, 2, 3] [4] ∧ State.reset.Clear [1] [4] ∧ f32 0 ≠ .nan ∧ f32 0x7FC00000 = .nan := by decide
theorem witness_FormatsRoundTrip : numOf 6 0x7C ≠ .nan ∧ numOf 9 0x80000001 ≠ .nan := by decide
theorem witness_IssueRules_waits : (({ State.reset with flights := [{ id := 1, ctx := 0, hnum := 0, pc := 0, op := .load, va := 0, key := 0, size := 8, sext := false, dst := some 1, dst2 := none, x := 0, y := 0, sync := 0, scope := 0, order := 0, counted := true, cached := false, alias_ := false, remote := false, vf := 0, phase := 0, window := 0, issued := 0, performed := false, waiting := none, refused := 0, backoff := 0, since := 0, until_ := 0 }] } : State).awaiting [1, 2, 3] ≠ []) := by decide
theorem witness_IssueRules_underrun : (State.reset.setCtx 0 { Ctx.reset with kregs := [(5, 1)], late := [{ reg := 1, old := 0, ready := 4 }] }).awaiting [1, 2, 3] = [] ∧ (State.reset.setCtx 0 { Ctx.reset with kregs := [(5, 1)], late := [{ reg := 1, old := 0, ready := 4 }] }).underrun [1, 2] = some 1 := by decide
theorem witness_IssueRules_clear : State.reset.awaiting [1, 2, 3] = [] ∧ State.reset.underrun [1, 2] = none := by decide
theorem witness_Branches : State.reset.Clear [] [] ∧ State.reset.Clear [1] [] ∧ State.reset.Clear [1, 2] [] ∧ State.reset.Clear [] [63] ∧ State.reset.Clear [1] [2] ∧ State.reset.Clear [63] [] := by decide
theorem witness_HelperStart : State.reset.Open [1, 2] [4] ∧ State.reset.Open [1, 2, 3] [4] ∧ isHelper State.reset.cur = false ∧ (State.reset.rd 1).toNat % 4 = 0 ∧ State.reset.freeSlot 0 = some 1 := by decide
theorem witness_HelperStart_noSlot : (((List.range 10).map (· + 1)).foldl (fun s k => s.setCtx (ctxId 0 k) {}) State.reset).freeSlot 0 = none := by decide
theorem witness_HelperStart_helper : isHelper ({ State.reset with cur := 4096 } : State).cur = true := by decide
theorem witness_HelperStart_misaligned : (((State.reset.setCtx 0 { Ctx.reset with regs := [(1, 2)] }).rd 1).toNat % 4 ≠ 0) ∧ (State.reset.setCtx 0 { Ctx.reset with regs := [(1, 2)] }).Open [1, 2] [4] := by decide
theorem witness_HelperEnd : isHelper ({ State.reset with cur := 4096 } : State).cur = true ∧ ({ State.reset with cur := 4096 } : State).Clear [] [] ∧ ({ State.reset with cur := 4096 } : State).Clear [1] [] ∧ ({ State.reset with cur := 4096 } : State).me.life = .live := by decide
theorem witness_HelperEnd_idle : State.reset.Clear [] [] ∧ State.reset.Clear [1] [] ∧ (State.reset.core 0).idleMark = false ∧ ((State.reset.setCore 0 { idleMark := true }).core 0).idleMark = true := by decide
theorem witness_HelperStatus_record : (State.reset.setCore 0 { ends := [{ vf := 0, num := 0, out := 1, code := 66, starter := 0, collected := false, form := .start }] }).Clear [1] [2] ∧ (State.reset.setCore 0 { ends := [{ vf := 0, num := 0, out := 1, code := 66, starter := 0, collected := false, form := .start }] }).Clear [] [2] ∧ (((State.reset.setCore 0 { ends := [{ vf := 0, num := 0, out := 1, code := 66, starter := 0, collected := false, form := .start }] }).core 0).ends.find? (·.num == 0)).isSome = true ∧ (State.reset.setCore 0 { ends := [{ vf := 0, num := 0, out := 1, code := 66, starter := 0, collected := false, form := .start }] }).outOf 0 0 = none := by decide
theorem witness_HelperStatus_none : State.reset.Clear [1] [2] ∧ State.reset.outOf 0 0 = none ∧ (State.reset.core 0).ends = [] ∧ State.reset.hasChildren 0 = false := by decide
theorem witness_HelperStatus_any : (State.reset.setCtx 4096 { Ctx.reset with hnum := 1, starter := 0, form := .start }).Clear [] [2] ∧ (State.reset.setCtx 4096 { Ctx.reset with hnum := 1, starter := 0, form := .start }).hasChildren 0 = true ∧ ((State.reset.setCtx 4096 { Ctx.reset with hnum := 1, starter := 0, form := .start }).core 0).ends = [] ∧ (State.reset.setCtx 4096 { Ctx.reset with hnum := 1, starter := 0, form := .start }).me.wait = none := by decide
theorem witness_HelperStatus_anyLimit : ((State.reset.setCtx 4096 { Ctx.reset with hnum := 1, starter := 0, form := .start }).modCtx 0 fun c => { c with wait := some (.joinAny (some 0)) }).me.wait = some (.joinAny (some 0)) ∧ ((State.reset.setCtx 4096 { Ctx.reset with hnum := 1, starter := 0, form := .start }).modCtx 0 fun c => { c with wait := some (.joinAny (some 0)) }).hasChildren 0 = true := by decide
theorem witness_HelperStatus_waits : ((State.reset.setCtx 0 { Ctx.reset with hnum := 9 }).setCtx 4096 { Ctx.reset with hnum := 0 }).Clear [1] [2] ∧ ((State.reset.setCtx 0 { Ctx.reset with hnum := 9 }).setCtx 4096 { Ctx.reset with hnum := 0 }).outOf 0 0 = some 6 ∧ ((State.reset.setCtx 0 { Ctx.reset with hnum := 9 }).setCtx 4096 { Ctx.reset with hnum := 0 }).me.hnum ≠ 0 ∧ ((State.reset.setCtx 0 { Ctx.reset with hnum := 9 }).setCtx 4096 { Ctx.reset with hnum := 0 }).me.wait = none := by decide
theorem witness_HelperStatus_limit : ((State.reset.setCtx 0 { Ctx.reset with hnum := 9, wait := some (.join 0 (some 0)) }).setCtx 4096 { Ctx.reset with hnum := 0 }).Clear [1] [2] ∧ ((State.reset.setCtx 0 { Ctx.reset with hnum := 9, wait := some (.join 0 (some 0)) }).setCtx 4096 { Ctx.reset with hnum := 0 }).outOf 0 0 = some 6 ∧ ((State.reset.setCtx 0 { Ctx.reset with hnum := 9, wait := some (.join 0 (some 0)) }).setCtx 4096 { Ctx.reset with hnum := 0 }).me.wait = some (.join 0 (some 0)) := by decide
theorem witness_HandlerStart : ({ State.reset with moors := [{ cls := 3, key := 7, st := .moored, berth := some (0, 0x1F000), size := 256, chamber := [], mailbox := [(0, 5, { key := 7, cls := 3, srcCtx := 0, srcDev := 0, phase := 0, origin := 0, replyKey := 0, replyCls := 0, vf := 0, payload := [] })], busy := false, handled := none, eligible := none, reserved := false, target := none, lastBusy := 0, held := none }] } : State).Open [] [4] ∧ (oldest (({ State.reset with moors := [{ cls := 3, key := 7, st := .moored, berth := some (0, 0x1F000), size := 256, chamber := [], mailbox := [(0, 5, { key := 7, cls := 3, srcCtx := 0, srcDev := 0, phase := 0, origin := 0, replyKey := 0, replyCls := 0, vf := 0, payload := [] })], busy := false, handled := none, eligible := none, reserved := false, target := none, lastBusy := 0, held := none }] } : State).eligibleActors 0 none)).isSome = true ∧ (({ State.reset with moors := [{ cls := 3, key := 7, st := .moored, berth := some (0, 0x1F000), size := 256, chamber := [], mailbox := [(0, 5, { key := 7, cls := 3, srcCtx := 0, srcDev := 0, phase := 0, origin := 0, replyKey := 0, replyCls := 0, vf := 0, payload := [] })], busy := false, handled := none, eligible := none, reserved := false, target := none, lastBusy := 0, held := none }] } : State).freeSlot 0) = some 1 := by decide
theorem witness_HandlerStart_none : State.reset.Open [] [4] ∧ isHelper State.reset.cur = false ∧ oldest (State.reset.eligibleActors 0 none) = none := by decide
theorem witness_WorkPop_none : State.reset.Open [1] [4] ∧ State.reset.running? (State.reset.vfOf 0) 0 = none ∧ isHelper State.reset.cur = false := by decide
theorem witness_WorkPop_item : ((({ State.reset with launches := [{ handle := 1, core := 0, vf := 0, asid := 0, priv := false, phase := 0, entry := 0, widths := [4, 0, 0, 0, 0, 0], extents := [9, 0, 0, 0, 0, 0], clevel := 0, plevel := 0, prio := 0, gang := false, args := 0, bitmap := 0, producer := 0, shift := 0, mode := 0, window := 0, claim := 0, split := 0, setSize := 1, minChunk := 1, gangLen := 0, st := .active, bitAddr := 0, zeroed := false, dies := [], pending := [], placed := [], finished := [], pushed := [], bits := [], running := 0, failed := false, failCode := 0, failWid := none, depFail := false, discarded := [], endedAt := 0, eff := 0, regions := [] }], cores := [(0, { workq := [{ handle := 1, first := 3, count := 1 }] })], ctxs := [(0, { regs := [(1, 1)], kregs := [(2, 1)] })], cur := 0 } : State).pop 0 { handle := 1, core := 0, vf := 0, asid := 0, priv := false, phase := 0, entry := 0, widths := [4, 0, 0, 0, 0, 0], extents := [9, 0, 0, 0, 0, 0], clevel := 0, plevel := 0, prio := 0, gang := false, args := 0, bitmap := 0, producer := 0, shift := 0, mode := 0, window := 0, claim := 0, split := 0, setSize := 1, minChunk := 1, gangLen := 0, st := .active, bitAddr := 0, zeroed := false, dies := [], pending := [], placed := [], finished := [], pushed := [], bits := [], running := 0, failed := false, failCode := 0, failWid := none, depFail := false, discarded := [], endedAt := 0, eff := 0, regions := [] }).2 matches .item 3) ∧ ({ State.reset with launches := [{ handle := 1, core := 0, vf := 0, asid := 0, priv := false, phase := 0, entry := 0, widths := [4, 0, 0, 0, 0, 0], extents := [9, 0, 0, 0, 0, 0], clevel := 0, plevel := 0, prio := 0, gang := false, args := 0, bitmap := 0, producer := 0, shift := 0, mode := 0, window := 0, claim := 0, split := 0, setSize := 1, minChunk := 1, gangLen := 0, st := .active, bitAddr := 0, zeroed := false, dies := [], pending := [], placed := [], finished := [], pushed := [], bits := [], running := 0, failed := false, failCode := 0, failWid := none, depFail := false, discarded := [], endedAt := 0, eff := 0, regions := [] }], cores := [(0, { workq := [{ handle := 1, first := 3, count := 1 }] })], ctxs := [(0, { regs := [(1, 1)], kregs := [(2, 1)] })], cur := 0 } : State).Open [1] [4] ∧ (({ State.reset with launches := [{ handle := 1, core := 0, vf := 0, asid := 0, priv := false, phase := 0, entry := 0, widths := [4, 0, 0, 0, 0, 0], extents := [9, 0, 0, 0, 0, 0], clevel := 0, plevel := 0, prio := 0, gang := false, args := 0, bitmap := 0, producer := 0, shift := 0, mode := 0, window := 0, claim := 0, split := 0, setSize := 1, minChunk := 1, gangLen := 0, st := .active, bitAddr := 0, zeroed := false, dies := [], pending := [], placed := [], finished := [], pushed := [], bits := [], running := 0, failed := false, failCode := 0, failWid := none, depFail := false, discarded := [], endedAt := 0, eff := 0, regions := [] }], cores := [(0, { workq := [{ handle := 1, first := 3, count := 1 }] })], ctxs := [(0, { regs := [(1, 1)], kregs := [(2, 1)] })], cur := 0 } : State).running? 0 1).isSome = true ∧ ({ State.reset with launches := [{ handle := 1, core := 0, vf := 0, asid := 0, priv := false, phase := 0, entry := 0, widths := [4, 0, 0, 0, 0, 0], extents := [9, 0, 0, 0, 0, 0], clevel := 0, plevel := 0, prio := 0, gang := false, args := 0, bitmap := 0, producer := 0, shift := 0, mode := 0, window := 0, claim := 0, split := 0, setSize := 1, minChunk := 1, gangLen := 0, st := .active, bitAddr := 0, zeroed := false, dies := [], pending := [], placed := [], finished := [], pushed := [], bits := [], running := 0, failed := false, failCode := 0, failWid := none, depFail := false, discarded := [], endedAt := 0, eff := 0, regions := [] }], cores := [(0, { workq := [{ handle := 1, first := 3, count := 1 }] })], ctxs := [(0, { regs := [(1, 1)], kregs := [(2, 1)] })], cur := 0 } : State).freeSlot 0 = some 1 := by decide
theorem witness_WorkPop_helper : ((({ State.reset with launches := [{ handle := 1, core := 0, vf := 0, asid := 0, priv := false, phase := 0, entry := 0, widths := [4, 0, 0, 0, 0, 0], extents := [9, 0, 0, 0, 0, 0], clevel := 0, plevel := 0, prio := 0, gang := false, args := 0, bitmap := 0, producer := 0, shift := 0, mode := 0, window := 0, claim := 0, split := 0, setSize := 1, minChunk := 1, gangLen := 0, st := .active, bitAddr := 0, zeroed := false, dies := [], pending := [], placed := [], finished := [], pushed := [], bits := [], running := 0, failed := false, failCode := 0, failWid := none, depFail := false, discarded := [], endedAt := 0, eff := 0, regions := [] }], cores := [(0, { workq := [{ handle := 1, first := 3, count := 1 }] })], ctxs := [(4096, { regs := [(1, 1)], kregs := [(2, 1)] })], cur := 4096 } : State).pop 0 { handle := 1, core := 0, vf := 0, asid := 0, priv := false, phase := 0, entry := 0, widths := [4, 0, 0, 0, 0, 0], extents := [9, 0, 0, 0, 0, 0], clevel := 0, plevel := 0, prio := 0, gang := false, args := 0, bitmap := 0, producer := 0, shift := 0, mode := 0, window := 0, claim := 0, split := 0, setSize := 1, minChunk := 1, gangLen := 0, st := .active, bitAddr := 0, zeroed := false, dies := [], pending := [], placed := [], finished := [], pushed := [], bits := [], running := 0, failed := false, failCode := 0, failWid := none, depFail := false, discarded := [], endedAt := 0, eff := 0, regions := [] }).2 matches .item 3) ∧ ({ State.reset with launches := [{ handle := 1, core := 0, vf := 0, asid := 0, priv := false, phase := 0, entry := 0, widths := [4, 0, 0, 0, 0, 0], extents := [9, 0, 0, 0, 0, 0], clevel := 0, plevel := 0, prio := 0, gang := false, args := 0, bitmap := 0, producer := 0, shift := 0, mode := 0, window := 0, claim := 0, split := 0, setSize := 1, minChunk := 1, gangLen := 0, st := .active, bitAddr := 0, zeroed := false, dies := [], pending := [], placed := [], finished := [], pushed := [], bits := [], running := 0, failed := false, failCode := 0, failWid := none, depFail := false, discarded := [], endedAt := 0, eff := 0, regions := [] }], cores := [(0, { workq := [{ handle := 1, first := 3, count := 1 }] })], ctxs := [(4096, { regs := [(1, 1)], kregs := [(2, 1)] })], cur := 4096 } : State).Open [1] [4] ∧ isHelper ({ State.reset with launches := [{ handle := 1, core := 0, vf := 0, asid := 0, priv := false, phase := 0, entry := 0, widths := [4, 0, 0, 0, 0, 0], extents := [9, 0, 0, 0, 0, 0], clevel := 0, plevel := 0, prio := 0, gang := false, args := 0, bitmap := 0, producer := 0, shift := 0, mode := 0, window := 0, claim := 0, split := 0, setSize := 1, minChunk := 1, gangLen := 0, st := .active, bitAddr := 0, zeroed := false, dies := [], pending := [], placed := [], finished := [], pushed := [], bits := [], running := 0, failed := false, failCode := 0, failWid := none, depFail := false, discarded := [], endedAt := 0, eff := 0, regions := [] }], cores := [(0, { workq := [{ handle := 1, first := 3, count := 1 }] })], ctxs := [(4096, { regs := [(1, 1)], kregs := [(2, 1)] })], cur := 4096 } : State).cur = true := by decide
theorem witness_WorkPop_steal : (({ State.reset with launches := [{ handle := 1, core := 0, vf := 0, asid := 0, priv := false, phase := 0, entry := 0, widths := [4, 0, 0, 0, 0, 0], extents := [9, 0, 0, 0, 0, 0], clevel := 0, plevel := 0, prio := 0, gang := false, args := 0, bitmap := 0, producer := 0, shift := 0, mode := 0, window := 0, claim := 0, split := 0, setSize := 1, minChunk := 1, gangLen := 0, st := .active, bitAddr := 0, zeroed := false, dies := [], pending := [], placed := [], finished := [], pushed := [], bits := [], running := 0, failed := false, failCode := 0, failWid := none, depFail := false, discarded := [], endedAt := 0, eff := 0, regions := [] }], cores := [(5, { workq := [{ handle := 1, first := 40, count := 8 }], gangMask := 3 })], ctxs := [(0, { regs := [(1, 1)], wait := some (.turn 5) })] } : State).core 0).workq = [] ∧ (({ State.reset with launches := [{ handle := 1, core := 0, vf := 0, asid := 0, priv := false, phase := 0, entry := 0, widths := [4, 0, 0, 0, 0, 0], extents := [9, 0, 0, 0, 0, 0], clevel := 0, plevel := 0, prio := 0, gang := false, args := 0, bitmap := 0, producer := 0, shift := 0, mode := 0, window := 0, claim := 0, split := 0, setSize := 1, minChunk := 1, gangLen := 0, st := .active, bitAddr := 0, zeroed := false, dies := [], pending := [], placed := [], finished := [], pushed := [], bits := [], running := 0, failed := false, failCode := 0, failWid := none, depFail := false, discarded := [], endedAt := 0, eff := 0, regions := [] }], cores := [(5, { workq := [{ handle := 1, first := 40, count := 8 }], gangMask := 3 })], ctxs := [(0, { regs := [(1, 1)], wait := some (.turn 5) })] } : State).core 5).workq = [] ++ [{ handle := 1, first := 40, count := 8 }] ∧ clusterOf 5 = clusterOf 0 ∧ ({ State.reset with launches := [{ handle := 1, core := 0, vf := 0, asid := 0, priv := false, phase := 0, entry := 0, widths := [4, 0, 0, 0, 0, 0], extents := [9, 0, 0, 0, 0, 0], clevel := 0, plevel := 0, prio := 0, gang := false, args := 0, bitmap := 0, producer := 0, shift := 0, mode := 0, window := 0, claim := 0, split := 0, setSize := 1, minChunk := 1, gangLen := 0, st := .active, bitAddr := 0, zeroed := false, dies := [], pending := [], placed := [], finished := [], pushed := [], bits := [], running := 0, failed := false, failCode := 0, failWid := none, depFail := false, discarded := [], endedAt := 0, eff := 0, regions := [] }], cores := [(5, { workq := [{ handle := 1, first := 40, count := 8 }], gangMask := 3 })], ctxs := [(0, { regs := [(1, 1)], wait := some (.turn 5) })] } : State).me.wait = some (.turn 5) ∧ ({ State.reset with launches := [{ handle := 1, core := 0, vf := 0, asid := 0, priv := false, phase := 0, entry := 0, widths := [4, 0, 0, 0, 0, 0], extents := [9, 0, 0, 0, 0, 0], clevel := 0, plevel := 0, prio := 0, gang := false, args := 0, bitmap := 0, producer := 0, shift := 0, mode := 0, window := 0, claim := 0, split := 0, setSize := 1, minChunk := 1, gangLen := 0, st := .active, bitAddr := 0, zeroed := false, dies := [], pending := [], placed := [], finished := [], pushed := [], bits := [], running := 0, failed := false, failCode := 0, failWid := none, depFail := false, discarded := [], endedAt := 0, eff := 0, regions := [] }], cores := [(5, { workq := [{ handle := 1, first := 40, count := 8 }], gangMask := 3 })], ctxs := [(0, { regs := [(1, 1)], wait := some (.turn 5) })] } : State).replaying = false ∧ ((({ State.reset with launches := [{ handle := 1, core := 0, vf := 0, asid := 0, priv := false, phase := 0, entry := 0, widths := [4, 0, 0, 0, 0, 0], extents := [9, 0, 0, 0, 0, 0], clevel := 0, plevel := 0, prio := 0, gang := false, args := 0, bitmap := 0, producer := 0, shift := 0, mode := 0, window := 0, claim := 0, split := 0, setSize := 1, minChunk := 1, gangLen := 0, st := .active, bitAddr := 0, zeroed := false, dies := [], pending := [], placed := [], finished := [], pushed := [], bits := [], running := 0, failed := false, failCode := 0, failWid := none, depFail := false, discarded := [], endedAt := 0, eff := 0, regions := [] }], cores := [(5, { workq := [{ handle := 1, first := 40, count := 8 }], gangMask := 3 })], ctxs := [(0, { regs := [(1, 1)], wait := some (.turn 5) })] } : State).pop 0 { handle := 1, core := 0, vf := 0, asid := 0, priv := false, phase := 0, entry := 0, widths := [4, 0, 0, 0, 0, 0], extents := [9, 0, 0, 0, 0, 0], clevel := 0, plevel := 0, prio := 0, gang := false, args := 0, bitmap := 0, producer := 0, shift := 0, mode := 0, window := 0, claim := 0, split := 0, setSize := 1, minChunk := 1, gangLen := 0, st := .active, bitAddr := 0, zeroed := false, dies := [], pending := [], placed := [], finished := [], pushed := [], bits := [], running := 0, failed := false, failCode := 0, failWid := none, depFail := false, discarded := [], endedAt := 0, eff := 0, regions := [] }).2 matches .item 44) ∧ State.reset.me.wait ≠ some (.turn 5) := by decide +kernel
theorem witness_WorkPop_gang : State.reset.gangCores 0 = [] ∧ (State.reset.cluster 0).gangDue = none ∧ ({ State.reset with launches := [{ handle := 1, core := 0, vf := 0, asid := 0, priv := false, phase := 0, entry := 0, widths := [4, 0, 0, 0, 0, 0], extents := [9, 0, 0, 0, 0, 0], clevel := 0, plevel := 0, prio := 0, gang := false, args := 0, bitmap := 0, producer := 0, shift := 0, mode := 0, window := 0, claim := 0, split := 0, setSize := 1, minChunk := 1, gangLen := 0, st := .active, bitAddr := 0, zeroed := false, dies := [], pending := [], placed := [], finished := [], pushed := [], bits := [], running := 0, failed := false, failCode := 0, failWid := none, depFail := false, discarded := [], endedAt := 0, eff := 0, regions := [] }], cores := [(5, { workq := [{ handle := 1, first := 40, count := 8 }], gangMask := 3 })], ctxs := [(0, { regs := [(1, 1)], wait := some (.turn 5) })] } : State).gangCores 5 = [0, 1] ∧ ({ ({ handle := 1, core := 0, vf := 0, asid := 0, priv := false, phase := 0, entry := 0, widths := [4, 0, 0, 0, 0, 0], extents := [9, 0, 0, 0, 0, 0], clevel := 0, plevel := 0, prio := 0, gang := false, args := 0, bitmap := 0, producer := 0, shift := 0, mode := 0, window := 0, claim := 0, split := 0, setSize := 1, minChunk := 1, gangLen := 0, st := .active, bitAddr := 0, zeroed := false, dies := [], pending := [], placed := [], finished := [], pushed := [], bits := [], running := 0, failed := false, failCode := 0, failWid := none, depFail := false, discarded := [], endedAt := 0, eff := 0, regions := [] } : Launch) with gang := true } : Launch).gang = true ∧ (({ State.reset with cores := [(0, { workq := [{ handle := 1, first := 3, count := 2 }], gangMask := 3 })] } : State).pop 0 ({ ({ handle := 1, core := 0, vf := 0, asid := 0, priv := false, phase := 0, entry := 0, widths := [4, 0, 0, 0, 0, 0], extents := [9, 0, 0, 0, 0, 0], clevel := 0, plevel := 0, prio := 0, gang := false, args := 0, bitmap := 0, producer := 0, shift := 0, mode := 0, window := 0, claim := 0, split := 0, setSize := 1, minChunk := 1, gangLen := 0, st := .active, bitAddr := 0, zeroed := false, dies := [], pending := [], placed := [], finished := [], pushed := [], bits := [], running := 0, failed := false, failCode := 0, failWid := none, depFail := false, discarded := [], endedAt := 0, eff := 0, regions := [] } : Launch) with gang := true } : Launch)).2 matches .item 3 := by decide +kernel
theorem witness_WorkPop_wait : ((({ State.reset with launches := [{ handle := 1, core := 0, vf := 0, asid := 0, priv := false, phase := 0, entry := 0, widths := [4, 0, 0, 0, 0, 0], extents := [9, 0, 0, 0, 0, 0], clevel := 0, plevel := 0, prio := 0, gang := false, args := 0, bitmap := 0, producer := 0, shift := 0, mode := 0, window := 0, claim := 0, split := 0, setSize := 1, minChunk := 1, gangLen := 0, st := .active, bitAddr := 0, zeroed := false, dies := [], pending := [], placed := [{ group := 0, die := 0, clusters := [0], next := 0, stop := 9 }], finished := [], pushed := [], bits := [], running := 0, failed := false, failCode := 0, failWid := none, depFail := false, discarded := [], endedAt := 0, eff := 0, regions := [] }], ctxs := [(0, { regs := [(1, 1)] })] } : State).pop 0 { handle := 1, core := 0, vf := 0, asid := 0, priv := false, phase := 0, entry := 0, widths := [4, 0, 0, 0, 0, 0], extents := [9, 0, 0, 0, 0, 0], clevel := 0, plevel := 0, prio := 0, gang := false, args := 0, bitmap := 0, producer := 0, shift := 0, mode := 0, window := 0, claim := 0, split := 0, setSize := 1, minChunk := 1, gangLen := 0, st := .active, bitAddr := 0, zeroed := false, dies := [], pending := [], placed := [{ group := 0, die := 0, clusters := [0], next := 0, stop := 9 }], finished := [], pushed := [], bits := [], running := 0, failed := false, failCode := 0, failWid := none, depFail := false, discarded := [], endedAt := 0, eff := 0, regions := [] }).2 matches .wait) ∧ ((({ State.reset with launches := [{ handle := 1, core := 0, vf := 0, asid := 0, priv := false, phase := 0, entry := 0, widths := [4, 0, 0, 0, 0, 0], extents := [9, 0, 0, 0, 0, 0], clevel := 0, plevel := 0, prio := 0, gang := false, args := 0, bitmap := 0, producer := 0, shift := 0, mode := 0, window := 0, claim := 0, split := 0, setSize := 1, minChunk := 1, gangLen := 0, st := .active, bitAddr := 0, zeroed := false, dies := [], pending := [], placed := [], finished := [], pushed := [], bits := [], running := 0, failed := false, failCode := 0, failWid := none, depFail := false, discarded := [], endedAt := 0, eff := 0, regions := [] }], ctxs := [(0, { regs := [(1, 1)] })] } : State).pop 0 { handle := 1, core := 0, vf := 0, asid := 0, priv := false, phase := 0, entry := 0, widths := [4, 0, 0, 0, 0, 0], extents := [9, 0, 0, 0, 0, 0], clevel := 0, plevel := 0, prio := 0, gang := false, args := 0, bitmap := 0, producer := 0, shift := 0, mode := 0, window := 0, claim := 0, split := 0, setSize := 1, minChunk := 1, gangLen := 0, st := .active, bitAddr := 0, zeroed := false, dies := [], pending := [], placed := [], finished := [], pushed := [], bits := [], running := 0, failed := false, failCode := 0, failWid := none, depFail := false, discarded := [], endedAt := 0, eff := 0, regions := [] }).2 matches .none_) ∧ ({ State.reset with launches := [{ handle := 1, core := 0, vf := 0, asid := 0, priv := false, phase := 0, entry := 0, widths := [4, 0, 0, 0, 0, 0], extents := [9, 0, 0, 0, 0, 0], clevel := 0, plevel := 0, prio := 0, gang := false, args := 0, bitmap := 0, producer := 0, shift := 0, mode := 0, window := 0, claim := 0, split := 0, setSize := 1, minChunk := 1, gangLen := 0, st := .active, bitAddr := 0, zeroed := false, dies := [], pending := [], placed := [{ group := 0, die := 0, clusters := [0], next := 0, stop := 9 }], finished := [], pushed := [], bits := [], running := 0, failed := false, failCode := 0, failWid := none, depFail := false, discarded := [], endedAt := 0, eff := 0, regions := [] }], ctxs := [(0, { regs := [(1, 1)] })] } : State).Open [1] [4] := by decide
theorem witness_WorkPush_none : State.reset.Open [1] [4] ∧ State.reset.Clear [1, 2] [4] ∧ State.reset.running? 0 0 = none ∧ State.reset.me.k 2 = 0 := by decide
theorem witness_WorkPush_item : ({ State.reset with launches := [{ handle := 1, core := 0, vf := 0, asid := 0, priv := false, phase := 0, entry := 0, widths := [4, 0, 0, 0, 0, 0], extents := [9, 0, 0, 0, 0, 0], clevel := 0, plevel := 0, prio := 0, gang := false, args := 0, bitmap := 0, producer := 0, shift := 0, mode := 0, window := 0, claim := 0, split := 0, setSize := 1, minChunk := 1, gangLen := 0, st := .active, bitAddr := 0, zeroed := false, dies := [], pending := [], placed := [], finished := [], pushed := [], bits := [], running := 0, failed := false, failCode := 0, failWid := none, depFail := false, discarded := [], endedAt := 0, eff := 0, regions := [] }], cores := [(0, { workq := [] })], ctxs := [(0, { regs := [(1, 8)], kregs := [(2, 1)] })] } : State).Open [1] [4] ∧ ({ State.reset with launches := [{ handle := 1, core := 0, vf := 0, asid := 0, priv := false, phase := 0, entry := 0, widths := [4, 0, 0, 0, 0, 0], extents := [9, 0, 0, 0, 0, 0], clevel := 0, plevel := 0, prio := 0, gang := false, args := 0, bitmap := 0, producer := 0, shift := 0, mode := 0, window := 0, claim := 0, split := 0, setSize := 1, minChunk := 1, gangLen := 0, st := .active, bitAddr := 0, zeroed := false, dies := [], pending := [], placed := [], finished := [], pushed := [], bits := [], running := 0, failed := false, failCode := 0, failWid := none, depFail := false, discarded := [], endedAt := 0, eff := 0, regions := [] }], cores := [(0, { workq := [] })], ctxs := [(0, { regs := [(1, 8)], kregs := [(2, 1)] })] } : State).running? 0 1 = some { handle := 1, core := 0, vf := 0, asid := 0, priv := false, phase := 0, entry := 0, widths := [4, 0, 0, 0, 0, 0], extents := [9, 0, 0, 0, 0, 0], clevel := 0, plevel := 0, prio := 0, gang := false, args := 0, bitmap := 0, producer := 0, shift := 0, mode := 0, window := 0, claim := 0, split := 0, setSize := 1, minChunk := 1, gangLen := 0, st := .active, bitAddr := 0, zeroed := false, dies := [], pending := [], placed := [], finished := [], pushed := [], bits := [], running := 0, failed := false, failCode := 0, failWid := none, depFail := false, discarded := [], endedAt := 0, eff := 0, regions := [] } ∧ ({ handle := 1, core := 0, vf := 0, asid := 0, priv := false, phase := 0, entry := 0, widths := [4, 0, 0, 0, 0, 0], extents := [9, 0, 0, 0, 0, 0], clevel := 0, plevel := 0, prio := 0, gang := false, args := 0, bitmap := 0, producer := 0, shift := 0, mode := 0, window := 0, claim := 0, split := 0, setSize := 1, minChunk := 1, gangLen := 0, st := .active, bitAddr := 0, zeroed := false, dies := [], pending := [], placed := [], finished := [], pushed := [], bits := [], running := 0, failed := false, failCode := 0, failWid := none, depFail := false, discarded := [], endedAt := 0, eff := 0, regions := [] } : Launch).isItem 8 = true ∧ 0 ∉ ({ handle := 1, core := 0, vf := 0, asid := 0, priv := false, phase := 0, entry := 0, widths := [4, 0, 0, 0, 0, 0], extents := [9, 0, 0, 0, 0, 0], clevel := 0, plevel := 0, prio := 0, gang := false, args := 0, bitmap := 0, producer := 0, shift := 0, mode := 0, window := 0, claim := 0, split := 0, setSize := 1, minChunk := 1, gangLen := 0, st := .active, bitAddr := 0, zeroed := false, dies := [], pending := [], placed := [], finished := [], pushed := [], bits := [], running := 0, failed := false, failCode := 0, failWid := none, depFail := false, discarded := [], endedAt := 0, eff := 0, regions := [] } : Launch).bits := by decide
theorem witness_WorkPush_full : ({ State.reset with launches := [{ handle := 1, core := 0, vf := 0, asid := 0, priv := false, phase := 0, entry := 0, widths := [4, 0, 0, 0, 0, 0], extents := [9, 0, 0, 0, 0, 0], clevel := 0, plevel := 0, prio := 0, gang := false, args := 0, bitmap := 0, producer := 0, shift := 0, mode := 0, window := 0, claim := 0, split := 0, setSize := 1, minChunk := 1, gangLen := 0, st := .active, bitAddr := 0, zeroed := false, dies := [], pending := [], placed := [], finished := [], pushed := [], bits := [], running := 0, failed := false, failCode := 0, failWid := none, depFail := false, discarded := [], endedAt := 0, eff := 0, regions := [] }], cores := [(0, { workq := List.replicate 16 { handle := 1, first := 0, count := 1 } })], ctxs := [(0, { regs := [(1, 8)], kregs := [(2, 1)] })] } : State).Open [1] [4] ∧ (({ State.reset with launches := [{ handle := 1, core := 0, vf := 0, asid := 0, priv := false, phase := 0, entry := 0, widths := [4, 0, 0, 0, 0, 0], extents := [9, 0, 0, 0, 0, 0], clevel := 0, plevel := 0, prio := 0, gang := false, args := 0, bitmap := 0, producer := 0, shift := 0, mode := 0, window := 0, claim := 0, split := 0, setSize := 1, minChunk := 1, gangLen := 0, st := .active, bitAddr := 0, zeroed := false, dies := [], pending := [], placed := [], finished := [], pushed := [], bits := [], running := 0, failed := false, failCode := 0, failWid := none, depFail := false, discarded := [], endedAt := 0, eff := 0, regions := [] }], cores := [(0, { workq := List.replicate 16 { handle := 1, first := 0, count := 1 } })], ctxs := [(0, { regs := [(1, 8)], kregs := [(2, 1)] })] } : State).core 0).workq.length = 16 := by decide
theorem witness_WorkPush_bad : ({ handle := 1, core := 0, vf := 0, asid := 0, priv := false, phase := 0, entry := 0, widths := [4, 0, 0, 0, 0, 0], extents := [9, 0, 0, 0, 0, 0], clevel := 0, plevel := 0, prio := 0, gang := false, args := 0, bitmap := 0, producer := 0, shift := 0, mode := 0, window := 0, claim := 0, split := 0, setSize := 1, minChunk := 1, gangLen := 0, st := .active, bitAddr := 0, zeroed := false, dies := [], pending := [], placed := [], finished := [], pushed := [], bits := [], running := 0, failed := false, failCode := 0, failWid := none, depFail := false, discarded := [], endedAt := 0, eff := 0, regions := [] } : Launch).isItem 9 = false := by decide
theorem witness_LaunchAndWait_codes : ({ handle := 1, core := 0, vf := 0, asid := 0, priv := false, phase := 0, entry := 0, widths := [4, 0, 0, 0, 0, 0], extents := [9, 0, 0, 0, 0, 0], clevel := 0, plevel := 0, prio := 0, gang := false, args := 0, bitmap := 0, producer := 0, shift := 0, mode := 0, window := 0, claim := 0, split := 0, setSize := 1, minChunk := 1, gangLen := 0, st := .active, bitAddr := 0, zeroed := false, dies := [], pending := [], placed := [], finished := [], pushed := [], bits := [], running := 0, failed := false, failCode := 0, failWid := none, depFail := false, discarded := [], endedAt := 0, eff := 0, regions := [] } : Launch).widths.length = 6 ∧ ({ handle := 1, core := 0, vf := 0, asid := 0, priv := false, phase := 0, entry := 0, widths := [4, 0, 0, 0, 0, 0], extents := [9, 0, 0, 0, 0, 0], clevel := 0, plevel := 0, prio := 0, gang := false, args := 0, bitmap := 0, producer := 0, shift := 0, mode := 0, window := 0, claim := 0, split := 0, setSize := 1, minChunk := 1, gangLen := 0, st := .active, bitAddr := 0, zeroed := false, dies := [], pending := [], placed := [], finished := [], pushed := [], bits := [], running := 0, failed := false, failCode := 0, failWid := none, depFail := false, discarded := [], endedAt := 0, eff := 0, regions := [] } : Launch).extents.length = 6 ∧ refusal State.reset { handle := 1, core := 0, vf := 0, asid := 0, priv := false, phase := 0, entry := 0, widths := [4, 0, 0, 0, 0, 0], extents := [9, 0, 0, 0, 0, 0], clevel := 0, plevel := 0, prio := 0, gang := false, args := 0, bitmap := 0, producer := 0, shift := 0, mode := 0, window := 0, claim := 0, split := 0, setSize := 1, minChunk := 1, gangLen := 0, st := .active, bitAddr := 0, zeroed := false, dies := [], pending := [], placed := [], finished := [], pushed := [], bits := [], running := 0, failed := false, failCode := 0, failWid := none, depFail := false, discarded := [], endedAt := 0, eff := 0, regions := [] } false = 0 ∧ refusal State.reset { ({ handle := 1, core := 0, vf := 0, asid := 0, priv := false, phase := 0, entry := 0, widths := [4, 0, 0, 0, 0, 0], extents := [9, 0, 0, 0, 0, 0], clevel := 0, plevel := 0, prio := 0, gang := false, args := 0, bitmap := 0, producer := 0, shift := 0, mode := 0, window := 0, claim := 0, split := 0, setSize := 1, minChunk := 1, gangLen := 0, st := .active, bitAddr := 0, zeroed := false, dies := [], pending := [], placed := [], finished := [], pushed := [], bits := [], running := 0, failed := false, failCode := 0, failWid := none, depFail := false, discarded := [], endedAt := 0, eff := 0, regions := [] } : Launch) with window := 5, entry := 2 } false = 9 := by decide +kernel
theorem witness_LaunchAndWait_refused : State.reset.Open [1] [4] ∧ State.reset.acks 0 = 0 ∧ placeOf 0xFFF8000000000000 ≠ .translated ∧ 8 % 64 ≠ 0 ∧ State.reset.Open [1] [4, 5] ∧ State.reset.launches = [] := by decide
theorem witness_LaunchAndWait_fault : (translateAll 0 accLoad (headerPages 0x40000) State.reset).2.isSome = true := by decide +kernel
theorem witness_LaunchAndWait_header : (match readHeader 0 0x40000 (List.range 16) ((plainTables.foldl (fun (s : State) p => s.write64 p.1 p.2) ((State.reset.setReg tffBase 0x10000).setReg (tffBase + 8) 1)).write64 0x40008 1) with
  | (u, .ok ws) => decide (refusal u (headerOf u ws) false = 0x03)
  | _ => false) = true := by decide +kernel
theorem witness_LaunchAndWait_route : (match readHeader 0 0x40000 (List.range 16) ((plainTables.foldl (fun (s : State) p => s.write64 p.1 p.2) ((State.reset.setReg tffBase 0x10000).setReg (tffBase + 8) 1)).write64 0x30000 0x1C0000000000024F) with
  | (_, .error (.route _)) => true
  | _ => false) = true := by decide +kernel
theorem witness_LaunchAndWait_accepted : (match readHeader 0 0x40000 (List.range 16) (((plainTables.foldl (fun (s : State) p => s.write64 p.1 p.2) ((State.reset.setReg tffBase 0x10000).setReg (tffBase + 8) 1)).write64 0x40008 1).write64 0x40010 2) with
  | (u, .ok ws) => decide (refusal u (headerOf u ws) false = 0) && (match translateAll u.cur accStore (headerOf u ws).bitPages u with
    | (_, none) => true
    | _ => false)
  | _ => false) = true := by decide +kernel
theorem witness_LaunchAndWait_bitmap : (match readHeader 0 0x40000 (List.range 16) ((((plainTables.foldl (fun (s : State) p => s.write64 p.1 p.2) ((State.reset.setReg tffBase 0x10000).setReg (tffBase + 8) 1)).write64 0x40008 1).write64 0x40010 2).write64 0x40030 0x400000000) with
  | (u, .ok ws) => decide (refusal u (headerOf u ws) false = 0) && (match translateAll u.cur accStore (headerOf u ws).bitPages u with
    | (_, some f) => f.cause == 4
    | _ => false)
  | _ => false) = true := by decide +kernel
theorem witness_LaunchAndWait_acks : ({ State.reset with flights := [{ id := 1, ctx := 0, hnum := 0, pc := 0, op := .store, va := 0, key := 0, size := 8, sext := false, dst := none, dst2 := none, x := 0, y := 0, sync := 0, scope := 0, order := 0, counted := true, cached := false, alias_ := false, remote := false, vf := 0, phase := 0, window := 0, issued := 0, performed := false, waiting := none, refused := 0, backoff := 0, since := 0, until_ := 0 }] } : State).acks 0 ≠ 0 := by decide
theorem witness_LaunchAndWait_ended : ∀ st ∈ [LState.active, .ended], (({ State.reset with launches := [{ ({ handle := 1, core := 0, vf := 0, asid := 0, priv := false, phase := 0, entry := 0, widths := [4, 0, 0, 0, 0, 0], extents := [9, 0, 0, 0, 0, 0], clevel := 0, plevel := 0, prio := 0, gang := false, args := 0, bitmap := 0, producer := 0, shift := 0, mode := 0, window := 0, claim := 0, split := 0, setSize := 1, minChunk := 1, gangLen := 0, st := .active, bitAddr := 0, zeroed := false, dies := [], pending := [], placed := [], finished := [], pushed := [], bits := [], running := 0, failed := false, failCode := 0, failWid := none, depFail := false, discarded := [], endedAt := 0, eff := 0, regions := [] } : Launch) with st := st, handle := 0 }] } : State).launches.find? fun l => l.handle == 0 && l.vf == 0).isSome = true := by decide +kernel
theorem witness_SpecialRegisters : State.reset.Clear [] [4] ∧ State.reset.Clear [1] [] ∧ (3 ∈ [3, 5, 6, 7, 8, 11, 12, 13, 18]) ∧ (State.reset.rd 1).toNat % 4 = 0 ∧ State.reset.me.priv = false := by decide
theorem witness_SpecialRegisters_priv : (State.reset.setCtx 0 { Ctx.reset with priv := true, regs := [(1, 2)] }).me.priv = true ∧ (State.reset.setCtx 0 { Ctx.reset with priv := true, regs := [(1, 2)] }).Clear [1] [] ∧ ((State.reset.setCtx 0 { Ctx.reset with priv := true, regs := [(1, 2)] }).rd 1).toNat % 4 ≠ 0 := by decide +kernel
theorem witness_SoftwareTraps : State.reset.Clear [1] [] ∧ State.reset.Clear [] [] ∧ State.reset.Clear [1] [4] ∧ State.reset.acks 0 = 0 ∧ State.reset.me.inTrap = false := by decide
theorem witness_SoftwareTraps_return : (State.reset.setCtx 0 { Ctx.reset with inTrap := true, kregs := [(12, 4)] }).Clear [] [] ∧ (State.reset.setCtx 0 { Ctx.reset with inTrap := true, kregs := [(12, 4)] }).me.k 12 = 4 ∧ (State.reset.setCtx 0 { Ctx.reset with inTrap := true, kregs := [(12, 6)] }).Clear [] [] ∧ (State.reset.setCtx 0 { Ctx.reset with inTrap := true, kregs := [(12, 6)] }).me.k 12 = 6 := by decide +kernel
theorem witness_TrapEntry_miss : (State.reset.setCtx 4096 { Ctx.reset with kregs := [(6, 0x1000)] }).me.inMiss = false ∧ ((State.reset.setCtx 4096 { Ctx.reset with kregs := [(6, 0x1000)] }).ctx 4096).k 6 ≠ 0 := by decide
theorem witness_TrapEntry_helper : isHelper 4096 = true ∧ isHelper 0 = false ∧ (State.reset.ctx 4096).life ≠ .closing := by decide
theorem witness_Loads_runs : (match State.reset.checkAccess 0 0xFFFFFFFFFFFE0008 8 accLoad false with
  | .ok _ x _ => !x.remote
  | _ => false) = true ∧ State.reset.Open [1] [2] ∧ State.reset.Open [1, 2] [] ∧ State.reset.Open [1, 2, 3] [4] := by decide
theorem witness_Loads_traps : (match State.reset.checkAccess 0 0xFFF8000000000000 8 accLoad false with
  | .trap c _ => c == 5
  | _ => false) = true := by decide
theorem witness_Loads_page : (match (plainTables.foldl (fun (s : State) p => s.write64 p.1 p.2) ((State.reset.setReg tffBase 0x10000).setReg (tffBase + 8) 1)).checkAccess 0 0x400000000 8 accLoad false with
  | .page _ f => f.cause == 4
  | _ => false) = true := by decide +kernel
theorem witness_Loads_acquiring : (State.reset.setCtx 0 { Ctx.reset with pend := [{ op := .access 1, pc := 0, dst := none, issued := 0, since := 0, until_ := 0 }] }).me.acquiring = true := by decide
theorem witness_Loads_cacheOff : (State.reset.routeTo 7 = none) ∧ (({ State.reset with tow := [(2, { up := true, partner := 7 })] } : State).routeTo 7 = some 2 ∧ State.reset.regBits (towBase 2 + 0x108) 0 0 = 0 ∧ keyDev (remoteKey 7 0) = 7) := by decide
theorem witness_Stores_runs : (match State.reset.checkAccess 0 0xFFFFFFFFFFFE0008 8 accStore true with
  | .ok _ x _ => !x.remote
  | _ => false) = true ∧ State.reset.Open [1] [2] ∧ State.reset.Open [1, 2] [] ∧ State.reset.Open [1, 2, 3] [4] := by decide
theorem witness_Stores_traps : (match State.reset.checkAccess 0 0xFFF8000000000000 8 accStore true with
  | .trap c _ => c == 5
  | _ => false) = true := by decide
theorem witness_Stores_page : (match (plainTables.foldl (fun (s : State) p => s.write64 p.1 p.2) ((State.reset.setReg tffBase 0x10000).setReg (tffBase + 8) 1)).checkAccess 0 0x400000000 8 accStore true with
  | .page _ f => f.cause == 4
  | _ => false) = true := by decide +kernel
theorem witness_TagInstructions_runs : (match State.reset.checkAccess 0 0xFFFFFFFFFFFE0008 8 accTag true with
  | .ok _ x _ => !x.remote
  | _ => false) = true ∧ State.reset.Open [1] [2] ∧ State.reset.Open [1, 2] [] ∧ State.reset.Open [1, 2, 3] [4] := by decide
theorem witness_TagInstructions_traps : (match State.reset.checkAccess 0 0xFFF8000000000000 8 accTag true with
  | .trap c _ => c == 5
  | _ => false) = true := by decide
theorem witness_TagInstructions_page : (match (plainTables.foldl (fun (s : State) p => s.write64 p.1 p.2) ((State.reset.setReg tffBase 0x10000).setReg (tffBase + 8) 1)).checkAccess 0 0x400000000 8 accTag true with
  | .page _ f => f.cause == 4
  | _ => false) = true := by decide +kernel
theorem witness_TagInstructions_clear : State.reset.Open [1] [2, 3] ∧ State.reset.Open [1] [2, 0] ∧ State.reset.Open [1] [2] ∧ State.reset.Open [1, 3] [2] ∧ State.reset.Open [1] [] := by decide
theorem witness_Atomics_runs : (match State.reset.checkAccess 0 0xFFFFFFFFFFFE0008 8 accAtomic false with
  | .ok _ x _ => !x.remote
  | _ => false) = true ∧ State.reset.Open [1] [2] ∧ State.reset.Open [1, 2] [] ∧ State.reset.Open [1, 2, 3] [4] := by decide
theorem witness_Atomics_traps : (match State.reset.checkAccess 0 0xFFF8000000000000 8 accAtomic false with
  | .trap c _ => c == 5
  | _ => false) = true := by decide
theorem witness_Atomics_page : (match (plainTables.foldl (fun (s : State) p => s.write64 p.1 p.2) ((State.reset.setReg tffBase 0x10000).setReg (tffBase + 8) 1)).checkAccess 0 0x400000000 8 accAtomic false with
  | .page _ f => f.cause == 4
  | _ => false) = true := by decide +kernel
theorem witness_Atomics_clear : State.reset.Open [1, 2, 3] [4] ∧ State.reset.Open [1, 2, 0] [4] := by decide
theorem witness_AccessChecks_places : placeOf 0xFFF8000000000000 = .unmapped ∧ placeOf 0xFFFFFFFFFFFE0001 = .local_ 1 ∧ placeOf 0xFFF0000000000000 = .mesh 0 0 ∧ placeOf 0xFFF000001FFFFFFF = .mesh 4095 0x1FFFF ∧ placeOf 0xFFF1000000200008 = .sram 1 8 ∧ placeOf 0xFFF2000000000000 = .weight 0 0 ∧ placeOf 0xFFFFFFFFFFFFF = .translated ∧ placeOf 0x10000000000000 = .unmapped := by decide
theorem witness_AccessChecks_state : (State.reset.die 0).loading = true ∧ (State.reset.ctx 0).mig = false ∧ ({ mig := true } : Ctx).mig = true ∧ clusterOf 0 ∉ (State.reset.ctx 0).placed ∧ isHelper 4096 = true ∧ ({ placed := [0, 1] } : Ctx).placed.contains (clusterOf 0) = true ∧ 8 + 8 ≤ ((State.reset.modCluster 1 fun c => { c with split := 8 }).scratch 1) := by decide
theorem witness_AccessChecks_units : placeOf (0xFFF0000000020000 - 4) = .mesh 0 0x1FFFC ∧ placeOf (0xFFF0000000020000 - 4 + (8 - 1)) = .mesh 1 3 ∧ placeOf (0xFFF1000000200000 - 4) = .sram 0 0x1FFFFC ∧ placeOf (0xFFF1000000200000 - 4 + (8 - 1)) = .sram 1 3 ∧ placeOf (0x10000000000000 - 4) = .translated ∧ placeOf (0x10000000000000 - 4 + (8 - 1)) = .unmapped ∧ 2 ^ 64 ≤ 0xFFFFFFFFFFFFFFFC + (8 - 1) ∧ placeOf 0xFFFFFFFFFFFE0007 = .local_ 7 ∧ placeOf 0xFFF2000000000007 = .weight 0 7 := by decide
theorem witness_AccessChecks_weight : ((State.reset.modDie 0 fun d => { d with loading := false }).die 0).loading = false ∧ (State.reset.reg 0xFF00100000718).toNat / 2 ^ (8 * 0) % 32 = State.reset.vfOf 0 ∧ (State.reset.setReg 0xFF00100000718 1).reg 0xFF00100000718 = 1 := by decide
theorem witness_AccessChecks_berth : (State.reset.setReg 0xFF00600001000 1).inBerth 0 (0x1FFF8 + 8 - 1) = true ∧ (State.reset.ctx 4096).actor = none := by decide
theorem witness_AccessChecks_page : (match ((plainTables.foldl (fun (s : State) p => s.write64 p.1 p.2) ((State.reset.setReg tffBase 0x10000).setReg (tffBase + 8) 1)).translate 0 0 0 false 0x40000 accLoad).2 with
  | .ok x => x.key == 0x40000
  | _ => false) = true ∧ (match (State.reset.translate 0 0 0 false 0x40000 accLoad).2 with
  | .error f => f.cause == 5
  | _ => false) = true := by decide +kernel
theorem witness_AccessEvents : ({ State.reset with flights := [{ id := 1, ctx := 0, hnum := 0, pc := 0, op := .store, va := 0x1000, key := 0x1000, size := 8, sext := false, dst := none, dst2 := none, x := 7, y := 0, sync := 0, scope := 0, order := 0, counted := true, cached := false, alias_ := false, remote := false, vf := 0, phase := 0, window := 0, issued := 0, performed := false, waiting := none, refused := 0, backoff := 0, since := 0, until_ := 0 }] } : State).flights.find? (·.id == 1) = some { id := 1, ctx := 0, hnum := 0, pc := 0, op := .store, va := 0x1000, key := 0x1000, size := 8, sext := false, dst := none, dst2 := none, x := 7, y := 0, sync := 0, scope := 0, order := 0, counted := true, cached := false, alias_ := false, remote := false, vf := 0, phase := 0, window := 0, issued := 0, performed := false, waiting := none, refused := 0, backoff := 0, since := 0, until_ := 0 } ∧ ({ State.reset with flights := [{ id := 1, ctx := 0, hnum := 0, pc := 0, op := .store, va := 0x1000, key := 0x1000, size := 8, sext := false, dst := none, dst2 := none, x := 7, y := 0, sync := 0, scope := 0, order := 0, counted := true, cached := false, alias_ := false, remote := false, vf := 0, phase := 0, window := 0, issued := 0, performed := false, waiting := none, refused := 0, backoff := 0, since := 0, until_ := 0 }] } : State).mayArrive { id := 1, ctx := 0, hnum := 0, pc := 0, op := .store, va := 0x1000, key := 0x1000, size := 8, sext := false, dst := none, dst2 := none, x := 7, y := 0, sync := 0, scope := 0, order := 0, counted := true, cached := false, alias_ := false, remote := false, vf := 0, phase := 0, window := 0, issued := 0, performed := false, waiting := none, refused := 0, backoff := 0, since := 0, until_ := 0 } = true ∧ State.reset.flights.find? (·.id == 1) = none := by decide
theorem witness_AccessEvents_backoff : ({ State.reset with flights := [{ id := 1, ctx := 0, hnum := 0, pc := 0, op := .store, va := 0x1000, key := 0x1000, size := 8, sext := false, dst := none, dst2 := none, x := 7, y := 0, sync := 0, scope := 0, order := 0, counted := true, cached := false, alias_ := false, remote := false, vf := 0, phase := 0, window := 0, issued := 0, performed := false, waiting := none, refused := 1, backoff := 0, since := 0, until_ := 0 }] } : State).mayArrive { id := 1, ctx := 0, hnum := 0, pc := 0, op := .store, va := 0x1000, key := 0x1000, size := 8, sext := false, dst := none, dst2 := none, x := 7, y := 0, sync := 0, scope := 0, order := 0, counted := true, cached := false, alias_ := false, remote := false, vf := 0, phase := 0, window := 0, issued := 0, performed := false, waiting := none, refused := 1, backoff := 0, since := 0, until_ := 0 } = true := by decide
theorem witness_AccessEvents_ack : ((({ State.reset with flights := [{ id := 1, ctx := 0, hnum := 0, pc := 0, op := .store, va := 0x1000, key := 0x1000, size := 8, sext := false, dst := none, dst2 := none, x := 7, y := 0, sync := 0, scope := 0, order := 0, counted := true, cached := false, alias_ := false, remote := false, vf := 0, phase := 0, window := 0, issued := 0, performed := true, waiting := none, refused := 0, backoff := 0, since := 0, until_ := 0 }] } : State)).flights.find? (·.id == 1)).map (·.performed) = some true := by decide
theorem witness_AccessEvents_timeout : ({ id := 1, ctx := 0, hnum := 0, pc := 0, op := .load, va := 0x1000, key := 0x1000, size := 8, sext := false, dst := (some 3), dst2 := none, x := 7, y := 0, sync := 1, scope := 0, order := 0, counted := true, cached := false, alias_ := false, remote := false, vf := 0, phase := 0, window := 0, issued := 0, performed := false, waiting := some 0, refused := 0, backoff := 0, since := 0, until_ := 0 } : Flight).abandoned = true ∧ 0 + 1 ≤ ({ State.reset with cycle := 9 } : State).cycle ∧ ({ kregs := [(8, 1)] } : Ctx).k 8 = 1 := by decide
theorem witness_AccessPerformed : memWf State.reset.mem = true ∧ State.reset.anyPoison 0x1000 8 = false ∧ State.reset.inCache { id := 1, ctx := 0, hnum := 0, pc := 0, op := .store, va := 0x1000, key := 0x1000, size := 8, sext := false, dst := none, dst2 := none, x := 7, y := 0, sync := 0, scope := 0, order := 0, counted := true, cached := false, alias_ := false, remote := false, vf := 0, phase := 0, window := 0, issued := 0, performed := false, waiting := none, refused := 0, backoff := 0, since := 0, until_ := 0 } = false ∧ State.reset.clusters = [] ∧ State.reset.isFull 0x1000 = true := by decide
theorem witness_AccessPerformed_cached : ({ State.reset with clusters := [(0, { split := 0, lines := [{ key := 0x1000, data := 0, dirty := 0 }] })] } : State).inCache { id := 1, ctx := 0, hnum := 0, pc := 0, op := .store, va := 0x1000, key := 0x1000, size := 8, sext := false, dst := none, dst2 := none, x := 7, y := 0, sync := 0, scope := 0, order := 0, counted := true, cached := true, alias_ := false, remote := false, vf := 0, phase := 0, window := 0, issued := 0, performed := false, waiting := none, refused := 0, backoff := 0, since := 0, until_ := 0 } = true ∧ (({ State.reset with clusters := [(0, { split := 0, lines := [{ key := 0x1000, data := 0, dirty := 0 }] })] } : State).findLine 0 0x1000).isSome = true ∧ ({ State.reset with clusters := [(0, { split := 0, lines := [{ key := 0x1000, data := 0, dirty := 0 }] })] } : State).anyPoison 0x1000 8 = false := by decide +kernel
theorem witness_AccessPerformed_poison : (State.reset.setPoison 0x1000 true).anyPoison 0x1000 8 = true ∧ (State.reset.setTag 0x1000 false).isFull 0x1000 = false := by decide
theorem witness_AtomicFunctions : (f32 0x3F800000).cmp (f32 0x40000000) = some .lt ∧ (f32 0x80000000).cmp (f32 0) = some .eq ∧ (f32 0x40000000).cmp (f32 0x3F800000) = some .gt ∧ f32 0 ≠ .nan ∧ BitVec.allOnes 64 = (0xFFFFFFFFFFFFFFFF : W64) ∧ f32 0x7FC00000 = .nan := by decide
theorem witness_FencesAndBindings : State.reset.Open [] [] ∧ State.reset.Open [1] [2] ∧ State.reset.Open [1, 2, 3] [] ∧ State.reset.Open [1] [] ∧ State.reset.ownWindows = [] ∧ State.reset.inDomain = true := by decide
theorem witness_TimelinesAndQuiet : State.reset.Open [1] [] ∧ State.reset.Clear [] [2] ∧ State.reset.Open [1] [2] ∧ State.reset.Clear [] [] ∧ State.reset.me.wait = none ∧ State.reset.flights = [] := by decide
theorem witness_TimelinesAndQuiet_quiet : (({ State.reset with sweeps := 2, quietAt := [(0, 2)], ctxs := [(0, { wait := some (.quiet 0 1) })] } : State).me.wait = some (.quiet 0 1)) ∧ 1 < (({ State.reset with quietAt := [(0, 2)] } : State).quietAt.get 0 0) ∧ State.reset.quietAt.get 0 0 ≤ 1 := by decide
theorem witness_TimelinesAndQuiet_acks : ({ State.reset with flights := [{ id := 1, ctx := 0, hnum := 0, pc := 0, op := .store, va := 0x1000, key := 0x1000, size := 8, sext := false, dst := none, dst2 := none, x := 7, y := 0, sync := 0, scope := 0, order := 0, counted := true, cached := false, alias_ := false, remote := false, vf := 0, phase := 0, window := 0, issued := 0, performed := false, waiting := none, refused := 0, backoff := 0, since := 0, until_ := 0 }] } : State).OwedBy 0 2 := by unfold State.OwedBy State.Owed; decide
theorem witness_TimelinesAndQuiet_none : ¬ State.reset.OwedBy 0 2 := by unfold State.OwedBy State.Owed; decide
theorem witness_BarriersAndCache : State.reset.Open [1] [2] ∧ State.reset.Open [1, 2] [] ∧ State.reset.Clear [1] [] ∧ State.reset.flights = [] ∧ (match State.reset.checkAccess 0 0xFFFFFFFFFFFE0008 8 accTag true with
  | .ok _ x _ => !x.remote
  | _ => false) = true ∧ ((8 : Nat) % 16 ≤ 11) := by decide
theorem witness_BarriersAndCache_fill : memWf State.reset.mem = true ∧ 0 < cacheLines (State.reset.cluster 0).split ∧ (State.reset.cluster 0).lines = [] ∧ State.reset.flights.all (fun _ => false) = true ∧ cacheLines 8 = 0 := by decide +kernel
theorem witness_BarriersAndCache_fetches : (match ((plainTables.foldl (fun (s : State) p => s.write64 p.1 p.2) ((State.reset.setReg tffBase 0x10000).setReg (tffBase + 8) 1)).write64 0x30000 0xFF).walk 0 0 0x40000 with
  | .leaf pte _ shift => (leafXl pte shift 0x40000).cached && leafAllows pte accLoad false
  | _ => false) = true := by decide +kernel
theorem witness_BarriersAndCache_merged : (({ State.reset with flights := [{ id := 1, ctx := 0, hnum := 0, pc := 0, op := .store, va := 0x1000, key := 0x1000, size := 8, sext := false, dst := none, dst2 := none, x := 7, y := 0, sync := 0, scope := 0, order := 0, counted := true, cached := true, alias_ := false, remote := false, vf := 0, phase := 0, window := 0, issued := 0, performed := false, waiting := none, refused := 0, backoff := 0, since := 0, until_ := 0 }] } : State).flights.any fun g => g.ctx == 0 && g.cached && !g.performed) = true := by decide
theorem witness_VectorElement_runs : (State.reset.setCtx 0 { Ctx.reset with window := 12, vtags := [(1, 9), (2, 9), (3, 9), (4, 10), (6, 9)] }).Clear [] [] ∧ (State.reset.setCtx 0 { Ctx.reset with window := 12, vtags := [(1, 9), (2, 9), (3, 9), (4, 10), (6, 9)] }).me.vtag 1 = 9 ∧ VFun.accepts .add 9 = true ∧ VFun.accepts .shl 1 = true ∧ VFun.accepts .exp2 7 = true ∧ ((State.reset.setCtx 0 { Ctx.reset with window := 12, vtags := [(1, 9), (2, 9), (3, 9), (4, 10), (6, 9)] }).core 0).vqueue.length < 2 ∧ (State.reset.setCtx 0 { Ctx.reset with window := 12, vtags := [(1, 9), (2, 9), (3, 9), (4, 10), (6, 9)] }).areadPending 0 = false ∧ (State.reset.setCtx 0 { Ctx.reset with window := 12, vtags := [(1, 9), (2, 9), (3, 9), (4, 10), (6, 9)] }).maskOk { msk := 4 } ∧ (State.reset.setCtx 0 { Ctx.reset with window := 12, vtags := [(1, 9), (2, 9), (3, 9), (4, 10), (6, 9)] }).me.window ≠ 0 := by decide +kernel
theorem witness_VectorElement_traps : State.reset.me.window = 0 ∧ (State.reset.setCtx 0 { Ctx.reset with window := 12, vtags := [(1, 9), (2, 9), (3, 9), (4, 10), (6, 9)] }).me.vtag 1 ≠ 7 ∧ 12 ≤ 13 ∧ ((State.reset.setCtx 0 { Ctx.reset with window := 12, vtags := [(1, 9), (2, 9), (3, 9), (4, 10), (6, 9)] }).me.window ≤ 13) := by decide +kernel
theorem witness_VectorElement_waits : 2 ≤ ((State.reset.setCore 0 { vqueue := [State.reset.vcommand .release {}, State.reset.vcommand .release {}] }).core 0).vqueue.length ∧ (State.reset.setCore 0 { queues := [(0, [{ num := 1, op := .aread 1 0 0 9 32, issuer := 0, hnum := 0, pc := 0, after := 0, vf := 0, asid := 0, priv := false, phase := 0, blocks := [], accepted := false, dst := none, window := 0 }])] }).areadPending 0 = true := by decide +kernel
theorem witness_VectorRegister_runs : (State.reset.setCtx 0 { Ctx.reset with window := 12, vtags := [(1, 10), (2, 10), (3, 10), (4, 10), (6, 10)] }).Clear [] [] ∧ (State.reset.setCtx 0 { Ctx.reset with window := 12, vtags := [(1, 10), (2, 10), (3, 10), (4, 10), (6, 10)] }).Clear [] [1] ∧ (State.reset.setCtx 0 { Ctx.reset with window := 12, vtags := [(1, 10), (2, 10), (3, 10), (4, 10), (6, 10)] }).Clear [1] [] ∧ (State.reset.setCtx 0 { Ctx.reset with window := 12, vtags := [(1, 10), (2, 10), (3, 10), (4, 10), (6, 10)] }).Clear [1] [2] ∧ (State.reset.setCtx 0 { Ctx.reset with window := 12, vtags := [(1, 10), (2, 10), (3, 10), (4, 10), (6, 10)] }).Clear [1, 2] [] ∧ (State.reset.setCtx 0 { Ctx.reset with window := 12, vtags := [(1, 10), (2, 10), (3, 10), (4, 10), (6, 10)] }).me.vtag 1 = 10 ∧ (State.reset.setCtx 0 { Ctx.reset with window := 12, vtags := [(1, 10), (2, 10), (3, 10), (4, 10), (6, 10)] }).me.vtag 5 = 0 ∧ (10 : Nat) ≠ 4 ∧ ((State.reset.setCtx 0 { Ctx.reset with window := 12, vtags := [(1, 3), (2, 3), (3, 3), (4, 10), (6, 3)] }).me.vtag 1) ∈ [1, 2, 3, 7, 8, 9] := by decide +kernel
theorem witness_VectorConversions_pairs : ratio 9 4 = some 8 ∧ ratioUp 9 11 = some 4 ∧ equalPair 3 9 = true ∧ 40 + 8 ≤ 48 ∧ 48 < 41 + 8 ∧ State.reset.busy 0 = false ∧ (1 : R6) ≠ 2 ∧ (State.reset.setCtx 0 { Ctx.reset with window := 12, vtags := [(1, 9), (2, 9), (3, 9), (4, 10), (6, 9)] }).Clear [2] [] ∧ (State.reset.setCtx 0 { Ctx.reset with window := 12, vtags := [(1, 9), (2, 9), (3, 9), (4, 10), (6, 9)] }).Clear [] [3] ∧ (State.reset.setCtx 0 { Ctx.reset with window := 12, vtags := [(1, 9), (2, 9), (3, 9), (4, 10), (6, 9)] }).Clear [1] [3] ∧ (∀ x ∈ [1, 2, 3], (State.reset.setCtx 0 { Ctx.reset with window := 12, vtags := [(1, 9), (2, 9), (3, 9), (4, 10), (6, 9)] }).me.vtag x = 9) ∧ ratio ((State.reset.setCtx 0 { Ctx.reset with window := 12, vtags := [(1, 9), (2, 9), (3, 9), (4, 10), (6, 9)] }).me.vtag 1) 7 = some 2 ∧ 1 < (State.reset.setCtx 0 { Ctx.reset with window := 12, vtags := [(1, 9), (2, 9), (3, 9), (4, 10), (6, 9)] }).me.window := by decide +kernel
theorem witness_VectorConversions_busy : (State.reset.setCore 0 { vqueue := [State.reset.vcommand .release {}] }).busy 0 = true := by decide +kernel
theorem witness_VectorMemory : (match checkElts 4 accLoad ((List.range 32).map fun i => (i, 0xFFFFFFFFFFFE0000 + 4 * i)) { state := (State.reset.setCtx 0 { Ctx.reset with window := 12, lanes := 32, regs := [(1, 0xFFFFFFFFFFFE0000)] }) } with
  | r => r.bad.isEmpty && r.good.length == 32) = true ∧ (State.reset.setCtx 0 { Ctx.reset with window := 12, lanes := 32, regs := [(1, 0xFFFFFFFFFFFE0000)] }).Open [1] [] ∧ (State.reset.setCtx 0 { Ctx.reset with window := 12, lanes := 32, regs := [(1, 0xFFFFFFFFFFFE0000)] }).Open [1, 2] [] ∧ (State.reset.setCtx 0 { Ctx.reset with window := 12, lanes := 32, regs := [(1, 0xFFFFFFFFFFFE0000)] }).busy 0 = false := by decide +kernel
theorem witness_VectorMemory_fails : (match firstBad (checkElts 4 accLoad [(0, 0xFFF8000000000000)] { state := State.reset }).bad with
  | some (.trap c _) => c == 5
  | _ => false) = true := by decide +kernel
theorem witness_VectorMemory_acquire : (State.reset.setCtx 0 { Ctx.reset with pend := [State.reset.pending (.access 0) none 0] }).me.acquiring = true := by decide +kernel
theorem witness_VectorMemory_page : (match firstBad (checkElts 4 accLoad [(0, 0x400000000)] { state := (plainTables.foldl (fun (s : State) p => s.write64 p.1 p.2) ((State.reset.setReg tffBase 0x10000).setReg (tffBase + 8) 1)) }).bad with
  | some (.page _ f) => f.cause == 4
  | _ => false) = true := by decide +kernel
theorem witness_MatrixProducts : (State.reset.setCore 0 { tileTags := [(0, 7), (1, 7), (2, 7)], gangMask := 0, mmag := none }).Open [] [] ∧ (State.reset.setCore 0 { tileTags := [(0, 7), (1, 7), (2, 7)], gangMask := 0, mmag := none }).Open ([1, 2] ++ [3, 4]) [] ∧ (∀ t < 1, ((State.reset.setCore 0 { tileTags := [(0, 7), (1, 7), (2, 7)], gangMask := 0, mmag := none }).core 0).pendingTag (0 + t) = 7) ∧ ((State.reset.setCore 0 { tileTags := [(0, 7), (1, 7), (2, 7)], gangMask := 0, mmag := none }).core 0).pendingTag 3 ≠ 7 ∧ (State.reset.setCore 0 { tileTags := [(0, 7), (1, 7), (2, 7)], gangMask := 0, mmag := none }).matFault [(.tile 0, 1), (.tile 1, 1)] = none ∧ (((State.reset.setCore 0 { tileTags := [(0, 7), (1, 7), (2, 7)], gangMask := 0, mmag := none }).core 0).queues.get 0 []).length < 2 ∧ ¬ 16384 < 0 * 256 + 1 * metaStep 7 := by decide +kernel
theorem witness_MatrixProducts_pair : (State.reset.setCore 0 { tileTags := [(0, 7), (1, 7), (2, 7)], gangMask := 0, mmag := none }).matFault [(.pair 0 0, 1), (.tile 1, 1)] = some (0x05, 0) ∧ 16384 < 63 * 256 + 4 * metaStep 4 := by decide +kernel
theorem witness_MatrixProducts_full : 2 ≤ (((State.reset.setCore 0 { queues := [(0, [State.reset.command 1 0 (.aclr 0) true none, State.reset.command 2 0 (.aclr 0) true none])] }).core 0).queues.get 0 []).length := by decide +kernel
theorem witness_MatrixProducts_gang : ((State.reset.setCore 0 { tileTags := [(0, 7), (1, 7), (2, 7)], gangMask := 0, mmag := none }).core 0).mmag = none ∧ ((State.reset.setCore 0 { tileTags := [(0, 7), (1, 7), (2, 7)], gangMask := 0, mmag := none }).core 0).gangMask = 0 ∧ ((State.reset.setCore 0 { tileTags := [(0, 7), (1, 7), (2, 7)], gangMask := 3, mmag := none }).core 0).gangMask ≠ 0 ∧ ((State.reset.setCore 0 { tileTags := [(0, 7), (1, 7), (2, 7)], gangMask := 3, mmag := none }).gangCores 0).filter (fun k => ((State.reset.setCore 0 { tileTags := [(0, 7), (1, 7), (2, 7)], gangMask := 3, mmag := none }).core k).gangMask != 3) ≠ [] ∧ (((State.reset.setCore 0 { tileTags := [(0, 7), (1, 7), (2, 7)], gangMask := 3, mmag := none }).setCore 1 { gangMask := 3 }).gangCores 0).filter (fun k => (((State.reset.setCore 0 { tileTags := [(0, 7), (1, 7), (2, 7)], gangMask := 3, mmag := none }).setCore 1 { gangMask := 3 }).core k).gangMask != 3) = [] := by decide +kernel
theorem witness_MatrixProducts_barrier : ({ State.reset with cores := [(0, { gangMask := 3, mmag := some (0, .mma .mmag 0 (.tile 0) (.tile 1) 7 1 true 0 0, false) }), (1, { gangMask := 3, mmag := none })] } : State).gangCores 0 = [0, 1] ∧ ((({ State.reset with cores := [(0, { gangMask := 3, mmag := some (0, .mma .mmag 0 (.tile 0) (.tile 1) 7 1 true 0 0, false) }), (1, { gangMask := 3, mmag := some (1, .mma .mmag 0 (.tile 0) (.tile 2) 7 1 true 0 0, false) })] } : State).gangJoin 0).core 1).mmag = some (1, .mma .mmag 0 (.tile 0) (.tile 2) 7 1 true 0 0, true) ∧ ((({ State.reset with cores := [(0, { gangMask := 3, mmag := some (0, .mma .mmag 0 (.tile 0) (.tile 1) 7 1 true 0 0, false) }), (1, { gangMask := 3, mmag := some (1, .mma .mmag 0 (.tile 0) (.tile 2) 9 1 true 0 0, false) })] } : State).gangJoin 0).ctx 1).k 13 = 3 ∧ (({ State.reset with cores := [(0, { gangMask := 3, mmag := some (0, .mma .mmag 0 (.tile 0) (.tile 1) 7 1 true 0 0, false) }), (1, { gangMask := 3, mmag := none })] } : State).core 1).mmag = none := by decide +kernel
theorem witness_MatrixProducts_gone : (((State.reset.setCore 0 { tileTags := [(0, 7), (1, 7), (2, 7)], gangMask := 3, mmag := some (0, .aclr 0, true) })).core 0).mmag = some (0, .aclr 0, true) ∧ (((State.reset.setCore 0 { tileTags := [(0, 7), (1, 7), (2, 7)], gangMask := 3, mmag := some (0, .aclr 0, false) })).core 0).mmag = some (0, .aclr 0, false) ∧ (State.reset.setCore 0 { tileTags := [(0, 7), (1, 7), (2, 7)], gangMask := 0, mmag := none }).cur = 0 := by decide +kernel
theorem witness_MatrixCommands : (State.reset.setCore 0 { tileTags := [(0, 7), (1, 7), (2, 7)], gangMask := 0, mmag := none }).Open [] [] ∧ (State.reset.setCore 0 { tileTags := [(0, 7), (1, 7), (2, 7)], gangMask := 0, mmag := none }).Open [1, 2] [] ∧ (State.reset.setCore 0 { tileTags := [(0, 7), (1, 7), (2, 7)], gangMask := 0, mmag := none }).Open [1] [] ∧ (State.reset.setCore 0 { tileTags := [(0, 7), (1, 7), (2, 7)], gangMask := 0, mmag := none }).Open [1] [2] ∧ (State.reset.setCore 0 { tileTags := [(0, 7), (1, 7), (2, 7)], gangMask := 0, mmag := none }).Open [1, 2] [3] ∧ (State.reset.setCore 0 { tileTags := [(0, 7), (1, 7), (2, 7)], gangMask := 0, mmag := none }).rangesFault true [{ a := 0xFFFFFFFFFFFE0000, len := 2048, align := 64 }] = none ∧ (State.reset.setCore 0 { tileTags := [(0, 7), (1, 7), (2, 7)], gangMask := 0, mmag := none }).rangesFault true [{ a := 0xFFFFFFFFFFFE0001, len := 2048, align := 64 }] = some (0x03, 0xFFFFFFFFFFFE0001) := by decide +kernel
theorem witness_MatrixCommands_vector : (State.reset.setCtx 0 { Ctx.reset with window := 12, vtags := [(1, 3), (2, 3), (3, 3), (4, 10), (6, 3)] }).me.vtag 1 = 3 ∧ (State.reset.setCtx 0 { Ctx.reset with window := 12, vtags := [(1, 3), (2, 3), (3, 3), (4, 10), (6, 3)] }).me.window = 12 ∧ (State.reset.setCtx 0 { Ctx.reset with window := 12, vtags := [(1, 3), (2, 3), (3, 3), (4, 10), (6, 3)] }).busy 0 = false ∧ State.reset.me.window ≤ 1 ∧ (((State.reset.setCtx 0 { Ctx.reset with window := 12, vtags := [(1, 3), (2, 3), (3, 3), (4, 10), (6, 3)] }).core 0).queues.get 0 []).length < 2 ∧ (State.reset.setCtx 0 { Ctx.reset with window := 12, vtags := [(1, 3), (2, 3), (3, 3), (4, 10), (6, 3)] }).matFault [(.tile 0, 0)] = none := by decide +kernel
theorem witness_MatrixCommands_gang : (6 : Nat) = (2 ^ 2 - 1) * 2 ^ 1 ∧ Nat.testBit 6 (1 % 8) = true ∧ State.reset.cur / 4096 = 0 ∧ ((State.reset.setCore 0 { tileTags := [(0, 7), (1, 7), (2, 7)], gangMask := 0, mmag := none }).core 0).queues.get 0 [] = [] ∧ ((State.reset.setCore 0 { tileTags := [(0, 7), (1, 7), (2, 7)], gangMask := 0, mmag := none }).core 0).mmag = none ∧ ((State.reset.setCore 0 { tileTags := [(0, 7), (1, 7), (2, 7)], gangMask := 3, mmag := some (0, .aclr 0, false) }).core 0).mmag ≠ none ∧ 4096 / 4096 ≠ 0 := by decide +kernel
theorem witness_MatrixResults : 32 * fmtWidth 9 ≤ 8192 ∧ (5 : Nat) < 32 ∧ ¬ 1024 ≤ 1000 + 5 ∧ 1024 ≤ 1020 + 5 := by decide
theorem witness_MatrixEffects : (State.reset.command 1 0 (.empty) true none).got = [] ∧ (State.reset.command 1 0 .empty true none).pages = [] ∧ sramBase ≤ (0xFFF1000000000000 : W64).toNat ∧ (0xFFF1000000000000 : W64).toNat < sramBase + 0x40000000 ∧ (∀ l ∈ (State.reset.cluster (clusterOf 0)).lines, l.dirty = 0) ∧ (∀ a ∈ pairRows 0xFFF1000000000000 0x10040 1, sramBase ≤ a ∧ a < sramBase + 0x40000000 ∧ a % 64 = 0 ∧ ∀ k, k < 64 → State.reset.isPoisoned (a + k) = false) := by decide +kernel
theorem witness_MatrixEffects_product : (match State.reset.operand 0 (State.reset.command 1 0 (.mma .mmamx 0 (.tile 0) (.tile 1) 7 1 true 0 0) true none) (.tile 0) 1 with
  | (_, .ok (_, bad)) => bad.isNone
  | _ => false) = true ∧ (match scaleSets (BitVec.ofNat 65536 (1 + 32 * 2 ^ 16 + 2 ^ 24 + 2 ^ 512 * (1 + 32 * 2 ^ 16 + 2 ^ 24))) false 32 0 0 with
  | .ok _ => true
  | _ => false) = true ∧ (match scaleSets (BitVec.ofNat 65536 (1 + 32 * 2 ^ 16 + 2 * 2 ^ 24 + 2 ^ 1536 * (1 + 2 ^ 16 + 2 * 2 ^ 24))) true 32 0 3 with
  | .ok _ => true
  | _ => false) = true ∧ (some 5 : Option W64).or none = some 5 := by decide +kernel
theorem witness_MatrixEffects_records : (match readRecords 0 (State.reset.command 1 0 (.empty) true none) 1 [] State.reset with
  | (_, .ok (_, bad)) => bad.isNone
  | _ => false) = true ∧ (match State.checkRecords 0 (State.reset.command 1 0 (.empty) true none) 7 [] State.reset with
  | (_, .ok _) => true
  | _ => false) = true ∧ State.reset.recordOf 0 0 = none ∧ State.reset.recordPoison 0 0 = none ∧ (((State.reset.setCore 0 { orCache := [(5, [])] }).core 0).orCache.find? fun p => p.1 == 5).isSome = true ∧ ((2 ^ 63 + 0x105 : W64).toNat / 2 ^ 63 = 1 ∧ (2 ^ 63 + 0x105 : W64).toNat % 65536 = 0x105) := by decide +kernel
theorem witness_MatrixEffects_moves : (match State.reset.engSource 0 (State.reset.command 1 0 (.empty) true none) 0xFFFFFFFFFFFE0000 2048 with
  | (u, .ok ps) => (poisonAt 0xFFFFFFFFFFFE0000 (u.fetchFor (State.reset.command 1 0 (.empty) true none) (byteKeys ps))).isNone
  | _ => false) = true ∧ (match State.reset.engDest 0 (State.reset.command 1 0 (.empty) true none) 0xFFFFFFFFFFFE0000 4096 with
  | (_, .ok _) => true
  | _ => false) = true ∧ 64 * 255 + 64 ≤ 16384 ∧ 64 * 127 + 64 ≤ 8192 ∧ ((List.range 1).findSome? fun i => State.reset.recordPoison 0 (0 + i)) = none := by decide +kernel
theorem witness_EngineCommands : (State.reset.setCtx 0 { Ctx.reset with regs := [(1, 0xFFFFFFFFFFFE0000), (2, 0xFFFFFFFFFFFE0100), (3, 64), (4, 0x100000040), (5, 0x100000000)] }).Open [1, 2, 3] [6] ∧ (State.reset.setCtx 0 { Ctx.reset with regs := [(1, 0xFFFFFFFFFFFE0000), (2, 0xFFFFFFFFFFFE0100), (3, 64), (4, 0x100000040), (5, 0x100000000)] }).Open [1, 2, 3, 4] [6] ∧ (State.reset.setCtx 0 { Ctx.reset with regs := [(1, 0xFFFFFFFFFFFE0000), (2, 0xFFFFFFFFFFFE0100), (3, 64), (4, 0x100000040), (5, 0x100000000)] }).Open [1] [6] ∧ ¬ 2 ^ 32 ≤ ((State.reset.setCtx 0 { Ctx.reset with regs := [(1, 0xFFFFFFFFFFFE0000), (2, 0xFFFFFFFFFFFE0100), (3, 64), (4, 0x100000040), (5, 0x100000000)] }).rd 3).toNat ∧ 2 ^ 32 ≤ ((State.reset.setCtx 0 { Ctx.reset with regs := [(1, 0xFFFFFFFFFFFE0000), (2, 0xFFFFFFFFFFFE0100), (3, 64), (4, 0x100000040), (5, 0x100000000)] }).rd 4).toNat ∧ ((State.reset.setCtx 0 { Ctx.reset with regs := [(1, 0xFFFFFFFFFFFE0000), (2, 0xFFFFFFFFFFFE0100), (3, 64), (4, 0x100000040), (5, 0x100000000)] }).rd 4).toNat % 2 ^ 32 = 64 ∧ ((State.reset.setCtx 0 { Ctx.reset with regs := [(1, 0xFFFFFFFFFFFE0000), (2, 0xFFFFFFFFFFFE0100), (3, 64), (4, 0x100000040), (5, 0x100000000)] }).rd 5).toNat % 2 ^ 32 = 0 ∧ (State.reset.setCtx 0 { Ctx.reset with regs := [(1, 0xFFFFFFFFFFFE0000), (2, 0xFFFFFFFFFFFE0100), (3, 64), (4, 0x100000040), (5, 0x100000000)] }).rangesFault true [{ a := 0xFFFFFFFFFFFE0000, len := 64, align := 8, w := true }, { a := 0xFFFFFFFFFFFE0100, len := 64, align := 8 }, { a := 64, len := 0, align := 8 }] = none ∧ (State.reset.setCtx 0 { Ctx.reset with regs := [(1, 0xFFFFFFFFFFFE0000), (2, 0xFFFFFFFFFFFE0100), (3, 64), (4, 0x100000040), (5, 0x100000000)] }).rangesFault false [{ a := 0xFFFFFFFFFFFE0000, len := 64, w := true }, { a := 64, len := 4, align := 4 }] = none ∧ (State.reset.setCtx 0 { Ctx.reset with regs := [(1, 0xFFFFFFFFFFFE0000), (2, 0xFFFFFFFFFFFE0100), (3, 64), (4, 0x100000040), (5, 0x100000000)] }).rangesFault true [{ a := 4, len := 64, align := 64 }] = some (3, 4) := by decide +kernel
theorem witness_EngineCommands_mask : (State.reset.setCtx 0 { Ctx.reset with regs := [(1, 0xFFFFFFFFFFFE0000), (2, 0xFFFFFFFFFFFE0100), (3, 64), (4, 0x100000040), (5, 0x100000000)] }).bargemFault false 0 64 (bargemTargets [] 0 false) = none ∧ (State.reset.setCtx 0 { Ctx.reset with regs := [(1, 0xFFFFFFFFFFFE0000), (2, 0xFFFFFFFFFFFE0100), (3, 64), (4, 0x100000040), (5, 0x100000000)] }).bargemFault false 0x20000 64 (bargemTargets [0] 1 false) = some (0x05, 0x20000) ∧ bargemTargets [0] 3 false = [0, 1] ∧ (State.reset.setCtx 0 { Ctx.reset with regs := [(1, 0xFFFFFFFFFFFE0000), (2, 0xFFFFFFFFFFFE0100), (3, 64), (4, 0x100000040), (5, 0x100000000)] }).rangesFault true [{ a := 0xFFF8000000000000, len := 1 }] = some (0x05, 0xFFF8000000000000) := by decide +kernel
theorem witness_EngineCommands_both : State.reset.rangesBefore [{ a := 0xFFF1000000800000, len := 64 }] = some (0x06, 0xFFF1000000800000) ∧ State.reset.bargemFault false 0x20000 64 (bargemTargets [0] 1 false) = some (0x05, 0x20000) ∧ State.reset.bargemFault true 0x40000 64 [0] = State.reset.bargemFault true 0x40000 64 [0] := by decide +kernel
theorem witness_EngineChecks : placeOf 0xFFF0000000000010 = .mesh 0 0x10 ∧ placeOf (0xFFF0000000000010 + (0x20000 - 1)) = .mesh 1 0xF ∧ placeOf 0xFFF1000000000010 = .sram 0 0x10 ∧ placeOf (0xFFF1000000000010 + (0x200000 - 1)) = .sram 1 0xF ∧ placeOf 0xFFFFFFFFFFFE0010 = .local_ 0x10 ∧ placeOf (2 ^ 52) = .unmapped ∧ placeOf (2 ^ 52 - 1) = .translated ∧ placeOf 0xFFF2000100000000 = .weight 1 0 ∧ 2 ^ 64 ≤ 0xFFFFFFFFFFFFFFFF + (2 - 1) ∧ ({} : Ctx).actor = none ∧ (0 : Nat) < 1 := by decide
theorem witness_EngineChecks_rows : (∀ a ∈ pairRows 0xFFF1000000000000 0x10040 1, 0xFFF1000000000000 ≤ a + 63 ∧ a + 63 < 0xFFF1000040000000 ∧ (a + 63 - 0xFFF1000000000000) / 2 ^ 21 = 0) ∧ (∃ a ∈ pairRows 0xFFF10000001FFFC0 0x10040 1, (a + 63 - 0xFFF1000000000000) / 2 ^ 21 ≠ 0) ∧ (∀ a ∈ pairRows 0xFFF10000001FFFC0 0x10040 1, 0xFFF1000000000000 ≤ a + 63 ∧ a + 63 < 0xFFF1000040000000) ∧ (∀ a ∈ pairRows 0xFFF2000000000000 0x10040 1, 0xFFF2000000000000 ≤ a + 63 ∧ a + 63 < 0xFFF2000400000000) ∧ (∃ a ∈ pairRows 0xFFF100003FFFFFC0 0x10040 1, ¬ a + 63 < 0xFFF1000040000000) ∧ (∃ a ∈ pairRows 0xFFF20003FFFFFFC0 0x10040 1, ¬ a + 63 < 0xFFF2000400000000) ∧ (0x10040 : W64).toNat / 2 ^ 35 = 0 ∧ (0x800000000 : W64).toNat / 2 ^ 35 ≠ 0 := by decide +kernel
theorem witness_RefwaitAndSluices : ({ State.reset with admin := [(sluiceBase 1, 3), (sluiceBase 1 + 8, 0x1000000), (sluiceBase 1 + 0x10, 0x10000)], ctxs := [(0, { regs := [(1, 1), (2, 0x1000008), (3, 0x1000001), (4, 0x2000000)] })] } : State).Clear [1] [5] ∧ ({ State.reset with admin := [(sluiceBase 1, 3), (sluiceBase 1 + 8, 0x1000000), (sluiceBase 1 + 0x10, 0x10000)], ctxs := [(0, { regs := [(1, 1), (2, 0x1000008), (3, 0x1000001), (4, 0x2000000)] })] } : State).Open [1, 2] [5] ∧ ({ State.reset with admin := [(sluiceBase 1, 3), (sluiceBase 1 + 8, 0x1000000), (sluiceBase 1 + 0x10, 0x10000)], ctxs := [(0, { regs := [(1, 1), (2, 0x1000008), (3, 0x1000001), (4, 0x2000000)] })] } : State).Open [1, 2, 3] [5] ∧ ({ State.reset with admin := [(sluiceBase 1, 3), (sluiceBase 1 + 8, 0x1000000), (sluiceBase 1 + 0x10, 0x10000)], ctxs := [(0, { regs := [(1, 1), (2, 0x1000008), (3, 0x1000001), (4, 0x2000000)] })] } : State).Open [1, 2, 3, 4] [5] ∧ ({ State.reset with admin := [(sluiceBase 1, 3), (sluiceBase 1 + 8, 0x1000000), (sluiceBase 1 + 0x10, 0x10000)], ctxs := [(0, { regs := [(1, 1), (2, 0x1000008), (3, 0x1000001), (4, 0x2000000)] })] } : State).sluiceOn 1 = true ∧ ({ State.reset with admin := [(sluiceBase 1, 3), (sluiceBase 1 + 8, 0x1000000), (sluiceBase 1 + 0x10, 0x10000)], ctxs := [(0, { regs := [(1, 1), (2, 0x1000008), (3, 0x1000001), (4, 0x2000000)] })] } : State).sluiceOn 2 = false ∧ (({ State.reset with admin := [(sluiceBase 1, 3), (sluiceBase 1 + 8, 0x1000000), (sluiceBase 1 + 0x10, 0x10000)], ctxs := [(0, { regs := [(1, 1), (2, 0x1000008), (3, 0x1000001), (4, 0x2000000)] })] } : State).rd 1).toNat % 256 = 1 ∧ (({ State.reset with admin := [(sluiceBase 1, 3), (sluiceBase 1 + 8, 0x1000000), (sluiceBase 1 + 0x10, 0x10000)], ctxs := [(0, { regs := [(1, 1), (2, 0x1000008), (3, 0x1000001), (4, 0x2000000)] })] } : State).rd 2).toNat % 8 = 0 ∧ (({ State.reset with admin := [(sluiceBase 1, 3), (sluiceBase 1 + 8, 0x1000000), (sluiceBase 1 + 0x10, 0x10000)], ctxs := [(0, { regs := [(1, 1), (2, 0x1000008), (3, 0x1000001), (4, 0x2000000)] })] } : State).rd 3).toNat % 8 ≠ 0 ∧ ({ State.reset with admin := [(sluiceBase 1, 3), (sluiceBase 1 + 8, 0x1000000), (sluiceBase 1 + 0x10, 0x10000)], ctxs := [(0, { regs := [(1, 1), (2, 0x1000008), (3, 0x1000001), (4, 0x2000000)] })] } : State).sluiceVbase 1 = 0x1000000 ∧ ({ State.reset with admin := [(sluiceBase 1, 3), (sluiceBase 1 + 8, 0x1000000), (sluiceBase 1 + 0x10, 0x10000)], ctxs := [(0, { regs := [(1, 1), (2, 0x1000008), (3, 0x1000001), (4, 0x2000000)] })] } : State).sluiceLen 1 = 0x10000 ∧ ({ State.reset with admin := [(sluiceBase 1, 3), (sluiceBase 1 + 8, 0x1000000), (sluiceBase 1 + 0x10, 0x10000)], ctxs := [(0, { regs := [(1, 1), (2, 0x1000008), (3, 0x1000001), (4, 0x2000000)] })] } : State).sluiceVbase 1 + ({ State.reset with admin := [(sluiceBase 1, 3), (sluiceBase 1 + 8, 0x1000000), (sluiceBase 1 + 0x10, 0x10000)], ctxs := [(0, { regs := [(1, 1), (2, 0x1000008), (3, 0x1000001), (4, 0x2000000)] })] } : State).sluiceLen 1 ≤ (({ State.reset with admin := [(sluiceBase 1, 3), (sluiceBase 1 + 8, 0x1000000), (sluiceBase 1 + 0x10, 0x10000)], ctxs := [(0, { regs := [(1, 1), (2, 0x1000008), (3, 0x1000001), (4, 0x2000000)] })] } : State).rd 4).toNat ∧ ({ State.reset with admin := [(sluiceBase 1, 3), (sluiceBase 1 + 8, 0x1000000), (sluiceBase 1 + 0x10, 0x10000)], ctxs := [(0, { regs := [(1, 1), (2, 0x1000008), (3, 0x1000001), (4, 0x2000000)] })] } : State).me.wait = none := by decide +kernel
theorem witness_RefwaitAndSluices_wait : ({ State.reset with admin := [(sluiceBase 1, 3), (sluiceBase 1 + 8, 0x1000000), (sluiceBase 1 + 0x10, 0x10000)], ctxs := [(0, { regs := [(1, 1), (2, 0x1000008), (3, 0x1000001), (4, 0x2000000)], wait := some (.refresh 1500) })] } : State).me.wait = some (.refresh 1500) ∧ ¬ 1500 ≤ ({ State.reset with admin := [(sluiceBase 1, 3), (sluiceBase 1 + 8, 0x1000000), (sluiceBase 1 + 0x10, 0x10000)], ctxs := [(0, { regs := [(1, 1), (2, 0x1000008), (3, 0x1000001), (4, 0x2000000)], wait := some (.refresh 1500) })] } : State).ptp ∧ ({ ({ State.reset with admin := [(sluiceBase 1, 3), (sluiceBase 1 + 8, 0x1000000), (sluiceBase 1 + 0x10, 0x10000)], ctxs := [(0, { regs := [(1, 1), (2, 0x1000008), (3, 0x1000001), (4, 0x2000000)], wait := some (.refresh 1500) })] } : State) with ptp := 1500 } : State).me.wait = some (.refresh 1500) ∧ 1500 ≤ ({ ({ State.reset with admin := [(sluiceBase 1, 3), (sluiceBase 1 + 8, 0x1000000), (sluiceBase 1 + 0x10, 0x10000)], ctxs := [(0, { regs := [(1, 1), (2, 0x1000008), (3, 0x1000001), (4, 0x2000000)], wait := some (.refresh 1500) })] } : State) with ptp := 1500 } : State).ptp ∧ ¬ (0 + 1500 * 5 ≤ 0 + min 0 1500) := by decide +kernel
theorem witness_CopiesBytes : (State.reset.command 1 0 .empty true none).got = [] ∧ (State.reset.command 1 0 .empty true none).pages = [] ∧ (State.reset.command 1 0 .empty true none).skip = false ∧ (match State.reset.engSource 0 (State.reset.command 1 0 .empty true none) 0xFFFFFFFFFFFE0000 64 with
  | (u, .ok ps) => (match u.engDest 0 (State.reset.command 1 0 .empty true none) 0xFFFFFFFFFFFE0100 64 with
    | (_, .ok ds) => (byteKeys ps).all (fun k => !(u.isPoisoned k) && !(isNowhere k)) && decide ((byteKeys ds).Nodup) && (byteKeys ds).length == 64 && (byteKeys ps).length == 64
    | _ => false)
  | _ => false) = true ∧ rangeFault 0xFFFFFFFFFFFE0000 64 = none ∧ memWf State.reset.mem = true ∧ State.reset.flights = [] ∧ ({ State.reset with poison := [0xFFF0000000000000] } : State).isPoisoned 0xFFF0000000000000 = true := by decide +kernel
theorem witness_CopiesBytes_others : (State.reset.command 1 0 .empty true none).mig = false ∧ (State.reset.command 1 0 .empty true none).skip = false ∧ (State.reset.command 1 0 .empty true none).issuer / 4096 = 0 ∧ (∀ x ∈ (State.reset.cluster (clusterOf 0)).lines, x.dirty = 0) ∧ 0xFFFFFFFFFFFE0000 ≤ 0xFFFFFFFFFFFE0100 + 0 * 8 ∧ isRemoteKey (remoteKey 3 0) = true ∧ keyDev (remoteKey 3 0) = 3 ∧ isRemoteKey 0 = false ∧ isNowhere 0 = false ∧ (match State.reset.engKeys 0 (State.reset.command 1 0 .empty true none) accEWrite (chunks 0xFFFFFFFFFFFE0000 64) with
  | (_, .ok ds) => ds.all fun p => !(isNowhere p.1)
  | _ => false) = true ∧ (match State.reset.engSource 0 (State.reset.command 1 0 .empty true none) 0xFFFFFFFFFFFE0000 64 with
  | (u, .ok ps) => (u.fetchFor (State.reset.command 1 0 .empty true none) (byteKeys ps)).all (·.isSome)
  | _ => false) = true ∧ bargemTargets [0] 6 false = [1, 2] := by decide +kernel
theorem witness_CopiesBytes_attention : attnFieldsOk [0xFFFFFFFFFFFE0000, 0, 0x0000000100000000, 0x1C1000000080, 0xFFFFFFFFFFFE0400, 0, 0, 0] = true ∧ attnFieldsOk [] = false ∧ State.reset.seq? 0 0 = none ∧ (({ State.reset with hbm := [(0, { seqs := [{ num := 0, vf := 0, pool := 0, entries := [0] }] })] } : State).seq? 0 0).isSome = true := by decide +kernel
theorem witness_Messages : ({ State.reset with ctxs := [(0, { regs := [(1, 0xFFFFFFFFFFFE0000), (2, 5)] })] } : State).Open [1] [3] ∧ ({ State.reset with ctxs := [(0, { regs := [(1, 0xFFFFFFFFFFFE0000), (2, 5)] })] } : State).Open [1, 2] [3] ∧ ({ State.reset with ctxs := [(0, { regs := [(1, 0xFFFFFFFFFFFE0000), (2, 5)] })] } : State).Open [] [3] ∧ ({ State.reset with ctxs := [(0, { regs := [(1, 0xFFFFFFFFFFFE0000), (2, 5)] })] } : State).Open [] [] ∧ ({ State.reset with ctxs := [(0, { regs := [(1, 0xFFFFFFFFFFFE0000), (2, 5)] })] } : State).Open [1, 2, 0] [3] ∧ ({ State.reset with ctxs := [(0, { regs := [(1, 0xFFFFFFFFFFFE0000), (2, 5)] })] } : State).acks 0 = 0 ∧ ({ State.reset with ctxs := [(0, { regs := [(1, 0xFFFFFFFFFFFE0000), (2, 5)] })] } : State).me.actor = none ∧ ({ State.reset with ctxs := [(0, { regs := [(1, 0xFFFFFFFFFFFE0000), (2, 5)] })] } : State).routeTo 5 = none ∧ ({ ({ State.reset with ctxs := [(0, { regs := [(1, 0xFFFFFFFFFFFE0000), (2, 5)] })] } : State) with apart := [5] } : State).apart.contains 5 = true ∧ 5 ≠ ({ State.reset with ctxs := [(0, { regs := [(1, 0xFFFFFFFFFFFE0000), (2, 5)] })] } : State).device ∧ ({ State.reset with ctxs := [(0, { regs := [(1, 0xFFFFFFFFFFFE0000), (2, 5)] })] } : State).classFor 0 5 = none := by decide +kernel
theorem witness_Messages_acks : ({ State.reset with flights := [{ id := 1, ctx := 0, hnum := 0, pc := 0, op := .store, va := 0x1000, key := 0x1000, size := 8, sext := false, dst := none, dst2 := none, x := 7, y := 0, sync := 0, scope := 0, order := 0, counted := true, cached := false, alias_ := false, remote := false, vf := 0, phase := 0, window := 0, issued := 0, performed := false, waiting := none, refused := 0, backoff := 0, since := 0, until_ := 0 }] } : State).acks ({ State.reset with flights := [{ id := 1, ctx := 0, hnum := 0, pc := 0, op := .store, va := 0x1000, key := 0x1000, size := 8, sext := false, dst := none, dst2 := none, x := 7, y := 0, sync := 0, scope := 0, order := 0, counted := true, cached := false, alias_ := false, remote := false, vf := 0, phase := 0, window := 0, issued := 0, performed := false, waiting := none, refused := 0, backoff := 0, since := 0, until_ := 0 }] } : State).cur ≠ 0 ∧ ({ State.reset with flights := [{ id := 1, ctx := 0, hnum := 0, pc := 0, op := .store, va := 0x1000, key := 0x1000, size := 8, sext := false, dst := none, dst2 := none, x := 7, y := 0, sync := 0, scope := 0, order := 0, counted := true, cached := false, alias_ := false, remote := false, vf := 0, phase := 0, window := 0, issued := 0, performed := false, waiting := none, refused := 0, backoff := 0, since := 0, until_ := 0 }] } : State).Open [1] [2] := by decide
theorem witness_Messages_good : (match ({ State.reset with ctxs := [(0, { regs := [(1, 0xFFFFFFFFFFFE0000), (2, 5)] })] } : State).readImage 0xFFFFFFFFFFFE0000 32 with
  | (u, .ok h) => !(badHeader h) && bitsOf (wordAt h 1) 48 42 == 0 && (match u.readImage 0xFFFFFFFFFFFE0000 32 with
    | (v, .ok bs) => (v.msgOf bs 0 0).cls == 0 && (v.slice (homeMooring 0 0)).stoppedAt.isNone
    | _ => false)
  | _ => false) = true := by decide +kernel
theorem witness_Messages_bad : (match ({ State.reset with ctxs := [(0, { regs := [(1, 0xFFFFFFFFFFFE0000)] })], mem := memPutBytes [] (localKey 0 8) [0xFF, 0xFF, 0, 0, 0, 0, 0, 0xFF], slices := [] } : State).readImage 0xFFFFFFFFFFFE0000 32 with
  | (_, .ok h) => badHeader h
  | _ => false) = true ∧ (match ({ State.reset with ctxs := [(0, { regs := [(1, 0xFFFFFFFFFFFE0000), (2, 5)] })] } : State).readImage 0xFFFFFFFFFFFE0004 32 with
  | (_, .error _) => true
  | _ => false) = true := by decide +kernel
theorem witness_Messages_reply : (match ({ State.reset with ctxs := [(0, { regs := [(1, 0xFFFFFFFFFFFE0000)] })], mem := memPutBytes [] (localKey 0 8) [0xFF, 0xFF, 0, 0, 0, 0, 0, 0], slices := [] } : State).readImage 0xFFFFFFFFFFFE0000 32 with
  | (v, .ok bs) => (v.msgOf bs 0 0).cls == 0xFFFF
  | _ => false) = true ∧ ((({ State.reset with slices := [(homeMooring 0 0, { stoppedAt := some 0 })] } : State)).slice (homeMooring 0 0)).stoppedAt ≠ none := by decide +kernel
theorem witness_Messages_long : (match ({ State.reset with ctxs := [(0, { regs := [(1, 0xFFFFFFFFFFFFFFE0)] })], mem := memPutBytes [] (localKey 0 0x1FFE8) [0, 0, 0, 0, 0, 0x20, 0, 0] } : State).readImage 0xFFFFFFFFFFFFFFE0 32 with
  | (u, .ok h) => !(badHeader h) && (match u.readImage 0xFFFFFFFFFFFFFFE0 (32 + bitsOf (wordAt h 1) 48 42) with
    | (_, .error _) => true
    | _ => false)
  | _ => false) = true := by decide +kernel
theorem witness_Messages_actor : (({ State.reset with ctxs := [(0, { regs := [(1, 7), (2, 5), (3, 9)] })], classes := [{ num := 5, entry := 0, size := 64, init := false, tier := 0, place := 0, vf := 0, idle := 0, first := 0, count := 0, hslice := 0, tphys := 0, leaving := false }], moors := [{ cls := 5, key := 7, st := .moored, berth := some (0, 0x10000), size := 64, chamber := [], mailbox := [], busy := false, handled := none, eligible := none, reserved := false, target := none, lastBusy := 0, held := none }] } : State).classFor 0 5).isSome = true ∧ (({ State.reset with ctxs := [(0, { regs := [(1, 7), (2, 5), (3, 9)] })], classes := [{ num := 5, entry := 0, size := 64, init := false, tier := 0, place := 0, vf := 0, idle := 0, first := 0, count := 0, hslice := 0, tphys := 0, leaving := false }], moors := [{ cls := 5, key := 7, st := .moored, berth := some (0, 0x10000), size := 64, chamber := [], mailbox := [], busy := false, handled := none, eligible := none, reserved := false, target := none, lastBusy := 0, held := none }] } : State).moor? 5 7).isSome = true ∧ ({ State.reset with ctxs := [(0, { regs := [(1, 7), (2, 5), (3, 9)] })], classes := [{ num := 5, entry := 0, size := 64, init := false, tier := 0, place := 0, vf := 0, idle := 0, first := 0, count := 0, hslice := 0, tphys := 0, leaving := false }], moors := [{ cls := 5, key := 7, st := .moored, berth := some (0, 0x10000), size := 64, chamber := [], mailbox := [], busy := false, handled := none, eligible := none, reserved := false, target := none, lastBusy := 0, held := none }] } : State).moor? 5 8 = none ∧ ({ State.reset with ctxs := [(0, { regs := [(1, 7), (2, 5), (3, 9)] })], classes := [{ num := 5, entry := 0, size := 64, init := false, tier := 0, place := 0, vf := 0, idle := 0, first := 0, count := 0, hslice := 0, tphys := 0, leaving := false }], moors := [{ cls := 5, key := 7, st := .moored, berth := some (0, 0x10000), size := 64, chamber := [], mailbox := [], busy := false, handled := none, eligible := none, reserved := false, target := none, lastBusy := 0, held := none }] } : State).dirHeld 0 = false ∧ ({ State.reset with ctxs := [(0, { regs := [(1, 7), (2, 5), (3, 9)] })], classes := [{ num := 5, entry := 0, size := 64, init := false, tier := 0, place := 0, vf := 0, idle := 0, first := 0, count := 0, hslice := 0, tphys := 0, leaving := false }], moors := [{ cls := 5, key := 7, st := .moored, berth := some (0, 0x10000), size := 64, chamber := [], mailbox := [], busy := false, handled := none, eligible := none, reserved := false, target := none, lastBusy := 0, held := none }] } : State).dirFind 0 5 8 = none ∧ ({ State.reset with ctxs := [(0, { regs := [(1, 7), (2, 5), (3, 9)] })], classes := [{ num := 5, entry := 0, size := 64, init := false, tier := 0, place := 0, vf := 0, idle := 0, first := 0, count := 0, hslice := 0, tphys := 0, leaving := false }], moors := [{ cls := 5, key := 7, st := .moored, berth := some (0, 0x10000), size := 64, chamber := [], mailbox := [], busy := false, handled := none, eligible := none, reserved := false, target := none, lastBusy := 0, held := none }] } : State).dirTurn 0 none = true ∧ (({ State.reset with ctxs := [(0, { regs := [(1, 7), (2, 5), (3, 9)] })], classes := [{ num := 5, entry := 0, size := 64, init := false, tier := 0, place := 0, vf := 0, idle := 0, first := 0, count := 0, hslice := 0, tphys := 0, leaving := false }], moors := [{ cls := 5, key := 7, st := .shifting, berth := some (0, 0x10000), size := 64, chamber := [], mailbox := [], busy := false, handled := none, eligible := none, reserved := false, target := none, lastBusy := 0, held := none }] } : State).moor? 5 7).map (·.st) = some .shifting ∧ (({ State.reset with ctxs := [(0, { regs := [(1, 7), (2, 5), (3, 9)] })], classes := [{ num := 5, entry := 0, size := 64, init := false, tier := 0, place := 0, vf := 0, idle := 0, first := 0, count := 0, hslice := 0, tphys := 0, leaving := false }], moors := [{ cls := 5, key := 7, st := .moored, berth := some (0, 0x10000), size := 64, chamber := [], mailbox := [], busy := true, handled := none, eligible := none, reserved := false, target := none, lastBusy := 0, held := none }] } : State).moor? 5 7).map (·.busy) = some true ∧ ({ State.reset with ctxs := [(0, { regs := [(1, 7), (2, 5), (3, 9)], actor := some { cls := 5, key := 7, slot := 0, aidle := false, phase := 0, counted := true } })], classes := [{ num := 5, entry := 0, size := 64, init := false, tier := 0, place := 0, vf := 0, idle := 0, first := 0, count := 0, hslice := 0, tphys := 0, leaving := false }], moors := [{ cls := 5, key := 7, st := .moored, berth := some (0, 0x10000), size := 64, chamber := [], mailbox := [], busy := false, handled := none, eligible := none, reserved := false, target := none, lastBusy := 0, held := none }] } : State).me.actor.isSome = true := by decide +kernel
theorem witness_Messages_directory : ({ State.reset with ctxs := [(0, { regs := [(1, 7), (2, 5), (3, 9)] })], classes := [{ num := 5, entry := 0, size := 64, init := false, tier := 0, place := 0, vf := 0, idle := 0, first := 0, count := 0, hslice := 0, tphys := 0, leaving := false }], moors := [{ cls := 5, key := 7, st := .moored, berth := some (0, 0x10000), size := 64, chamber := [], mailbox := [], busy := false, handled := none, eligible := none, reserved := false, target := none, lastBusy := 0, held := none }], admin := [(dirReg 0 3, 1)] } : State).dirHeld 0 = true ∧ (({ State.reset with admin := [(dirReg 0 1, 1)] } : State).write64 8 0x8000000000000005).dirFind 0 5 0 = some 0 := by decide +kernel
theorem witness_Messages_shift : ((shiftTargets { num := 5, entry := 0, size := 64, init := false, tier := 0, place := 1, vf := 0, idle := 0, first := 0, count := 1, hslice := 0, tphys := 0, leaving := false } 0).contains 3) = true ∧ ({ State.reset with ctxs := [(0, { regs := [(1, 7), (2, 5), (3, 9)] })], classes := [{ num := 5, entry := 0, size := 64, init := false, tier := 0, place := 0, vf := 0, idle := 0, first := 0, count := 0, hslice := 0, tphys := 0, leaving := false }], moors := [{ cls := 5, key := 7, st := .moored, berth := some (0, 0x10000), size := 64, chamber := [], mailbox := [], busy := false, handled := none, eligible := none, reserved := false, target := none, lastBusy := 0, held := none }] } : State).freeOffsets 3 (runLen 64) (({ State.reset with ctxs := [(0, { regs := [(1, 7), (2, 5), (3, 9)] })], classes := [{ num := 5, entry := 0, size := 64, init := false, tier := 0, place := 0, vf := 0, idle := 0, first := 0, count := 0, hslice := 0, tphys := 0, leaving := false }], moors := [{ cls := 5, key := 7, st := .moored, berth := some (0, 0x10000), size := 64, chamber := [], mailbox := [], busy := false, handled := none, eligible := none, reserved := false, target := none, lastBusy := 0, held := none }] } : State).runsOn 3) = [] ∧ (({ State.reset with ctxs := [(0, { regs := [(1, 7), (2, 5), (3, 9)] })], classes := [{ num := 5, entry := 0, size := 64, init := false, tier := 0, place := 0, vf := 0, idle := 0, first := 0, count := 0, hslice := 0, tphys := 0, leaving := false }], moors := [{ cls := 5, key := 7, st := .moored, berth := some (0, 0x10000), size := 64, chamber := [], mailbox := [], busy := false, handled := none, eligible := none, reserved := false, target := none, lastBusy := 0, held := none }] } : State).setReg (moorBase + 0x1000 + 8 * 3) 16).freeOffsets 3 (runLen 64) [] ≠ [] := by decide +kernel
theorem witness_BlockRequests : ({ State.reset with ctxs := [(0, { regs := [(1, 0), (2, 0x1000000000000)] })], admin := [(poolReg 0 0 0, 4), (poolReg 0 0 2, 16), (blkBase 0 + 0x200, 8)], hbm := [(0, { blocks := [(blockId 0 0, { gen := 1, table_ := 1 })], rinsed := [(0, [1])], seqs := [{ vf := 0, num := 0, pool := 0, entries := [0x1000000000000] }] })] } : State).acks 0 = 0 ∧ ({ State.reset with ctxs := [(0, { regs := [(1, 0), (2, 0x1000000000000)] })], admin := [(poolReg 0 0 0, 4), (poolReg 0 0 2, 16), (blkBase 0 + 0x200, 8)], hbm := [(0, { blocks := [(blockId 0 0, { gen := 1, table_ := 1 })], rinsed := [(0, [1])], seqs := [{ vf := 0, num := 0, pool := 0, entries := [0x1000000000000] }] })] } : State).engineIdle 0 7 = true ∧ ({ State.reset with ctxs := [(0, { regs := [(1, 0), (2, 0x1000000000000)] })], admin := [(poolReg 0 0 0, 4), (poolReg 0 0 2, 16), (blkBase 0 + 0x200, 8)], hbm := [(0, { blocks := [(blockId 0 0, { gen := 1, table_ := 1 })], rinsed := [(0, [1])], seqs := [{ vf := 0, num := 0, pool := 0, entries := [0x1000000000000] }] })] } : State).requestsGone 0 ({ State.reset with ctxs := [(0, { regs := [(1, 0), (2, 0x1000000000000)] })], admin := [(poolReg 0 0 0, 4), (poolReg 0 0 2, 16), (blkBase 0 + 0x200, 8)], hbm := [(0, { blocks := [(blockId 0 0, { gen := 1, table_ := 1 })], rinsed := [(0, [1])], seqs := [{ vf := 0, num := 0, pool := 0, entries := [0x1000000000000] }] })] } : State).nextId = true ∧ ({ State.reset with ctxs := [(0, { regs := [(1, 0), (2, 0x1000000000000)] })], admin := [(poolReg 0 0 0, 4), (poolReg 0 0 2, 16), (blkBase 0 + 0x200, 8)], hbm := [(0, { blocks := [(blockId 0 0, { gen := 1, table_ := 1 })], rinsed := [(0, [1])], seqs := [{ vf := 0, num := 0, pool := 0, entries := [0x1000000000000] }] })] } : State).requestTurn 0 ({ State.reset with ctxs := [(0, { regs := [(1, 0), (2, 0x1000000000000)] })], admin := [(poolReg 0 0 0, 4), (poolReg 0 0 2, 16), (blkBase 0 + 0x200, 8)], hbm := [(0, { blocks := [(blockId 0 0, { gen := 1, table_ := 1 })], rinsed := [(0, [1])], seqs := [{ vf := 0, num := 0, pool := 0, entries := [0x1000000000000] }] })] } : State).nextId = true ∧ ({ State.reset with ctxs := [(0, { regs := [(1, 0), (2, 0x1000000000000)] })], admin := [(poolReg 0 0 0, 4), (poolReg 0 0 2, 16), (blkBase 0 + 0x200, 8)], hbm := [(0, { blocks := [(blockId 0 0, { gen := 1, table_ := 1 })], rinsed := [(0, [1])], seqs := [{ vf := 0, num := 0, pool := 0, entries := [0x1000000000000] }] })] } : State).Open [1] [3, 0] ∧ ({ State.reset with ctxs := [(0, { regs := [(1, 0), (2, 0x1000000000000)] })], admin := [(poolReg 0 0 0, 4), (poolReg 0 0 2, 16), (blkBase 0 + 0x200, 8)], hbm := [(0, { blocks := [(blockId 0 0, { gen := 1, table_ := 1 })], rinsed := [(0, [1])], seqs := [{ vf := 0, num := 0, pool := 0, entries := [0x1000000000000] }] })] } : State).Open [1] [3, 4] ∧ ({ State.reset with ctxs := [(0, { regs := [(1, 0), (2, 0x1000000000000)] })], admin := [(poolReg 0 0 0, 4), (poolReg 0 0 2, 16), (blkBase 0 + 0x200, 8)], hbm := [(0, { blocks := [(blockId 0 0, { gen := 1, table_ := 1 })], rinsed := [(0, [1])], seqs := [{ vf := 0, num := 0, pool := 0, entries := [0x1000000000000] }] })] } : State).Open [1, 2] [3] ∧ ({ State.reset with ctxs := [(0, { regs := [(1, 0), (2, 0x1000000000000)] })], admin := [(poolReg 0 0 0, 4), (poolReg 0 0 2, 16), (blkBase 0 + 0x200, 8)], hbm := [(0, { blocks := [(blockId 0 0, { gen := 1, table_ := 1 })], rinsed := [(0, [1])], seqs := [{ vf := 0, num := 0, pool := 0, entries := [0x1000000000000] }] })] } : State).handleFault 0 (({ State.reset with ctxs := [(0, { regs := [(1, 0), (2, 0x1000000000000)] })], admin := [(poolReg 0 0 0, 4), (poolReg 0 0 2, 16), (blkBase 0 + 0x200, 8)], hbm := [(0, { blocks := [(blockId 0 0, { gen := 1, table_ := 1 })], rinsed := [(0, [1])], seqs := [{ vf := 0, num := 0, pool := 0, entries := [0x1000000000000] }] })] } : State).rd 2) = none ∧ (({ State.reset with ctxs := [(0, { regs := [(1, 0), (2, 0x1000000000000)] })], admin := [(poolReg 0 0 0, 4), (poolReg 0 0 2, 16), (blkBase 0 + 0x200, 8)], hbm := [(0, { blocks := [(blockId 0 0, { gen := 1, table_ := 1 })], rinsed := [(0, [1])], seqs := [{ vf := 0, num := 0, pool := 0, entries := [0x1000000000000] }] })] } : State).handleFault 0 (({ State.reset with ctxs := [(0, { regs := [(1, 0), (2, 0x1000000000000)] })], admin := [(poolReg 0 0 0, 4), (poolReg 0 0 2, 16), (blkBase 0 + 0x200, 8)], hbm := [(0, { blocks := [(blockId 0 0, { gen := 1, table_ := 1 })], rinsed := [(0, [1])], seqs := [{ vf := 0, num := 0, pool := 0, entries := [0x1000000000000] }] })] } : State).rd 1)).isSome = true ∧ (({ State.reset with ctxs := [(0, { regs := [(1, 0), (2, 0x1000000000000)] })], admin := [(poolReg 0 0 0, 4), (poolReg 0 0 2, 16), (blkBase 0 + 0x200, 8)], hbm := [(0, { blocks := [(blockId 0 0, { gen := 1, table_ := 1 })], rinsed := [(0, [1])], seqs := [{ vf := 0, num := 0, pool := 0, entries := [0x1000000000000] }] })] } : State).seq? 0 0).isSome = true ∧ ({ State.reset with ctxs := [(0, { regs := [(1, 0), (2, 0x1000000000000)] })], admin := [(poolReg 0 0 0, 4), (poolReg 0 0 2, 16), (blkBase 0 + 0x200, 8)], hbm := [(0, { blocks := [(blockId 0 0, { gen := 1, table_ := 1 })], rinsed := [(0, [1])], seqs := [{ vf := 0, num := 0, pool := 0, entries := [0x1000000000000] }] })] } : State).seq? 0 1 = none ∧ ({ State.reset with ctxs := [(0, { regs := [(1, 0), (2, 0x1000000000000)] })], admin := [(poolReg 0 0 0, 4), (poolReg 0 0 2, 16), (blkBase 0 + 0x200, 8)], hbm := [(0, { blocks := [(blockId 0 0, { gen := 1, table_ := 1 })], rinsed := [(0, [1])], seqs := [{ vf := 0, num := 0, pool := 0, entries := [0x1000000000000] }] })] } : State).quotaLimit 0 0 0 ≠ 0 ∧ ({ State.reset with ctxs := [(0, { regs := [(1, 0), (2, 0x1000000000000)] })], admin := [(poolReg 0 0 0, 4), (poolReg 0 0 2, 16), (blkBase 0 + 0x200, 8)], hbm := [(0, { blocks := [(blockId 0 0, { gen := 1, table_ := 1 })], rinsed := [(0, [1])], seqs := [{ vf := 0, num := 0, pool := 0, entries := [0x1000000000000] }] })] } : State).quotaLimit 0 0 1 = 0 ∧ ({ State.reset with ctxs := [(0, { regs := [(1, 0), (2, 0x1000000000000)] })], admin := [(poolReg 0 0 0, 4), (poolReg 0 0 2, 16), (blkBase 0 + 0x200, 8)], hbm := [(0, { blocks := [(blockId 0 0, { gen := 1, table_ := 1 })], rinsed := [(0, [1])], seqs := [{ vf := 0, num := 0, pool := 0, entries := [0x1000000000000] }] })] } : State).seqNewStatus 0 0 0 ≠ 0 := by decide +kernel
theorem witness_BlockRequests_alloc : (match ({ State.reset with ctxs := [(0, { regs := [(1, 0), (2, 0x1000000000000)] })], admin := [(poolReg 0 0 0, 4), (poolReg 0 0 2, 16), (blkBase 0 + 0x200, 8)], hbm := [(0, { blocks := [(blockId 0 0, { gen := 1, table_ := 1 })], rinsed := [(0, [1])], seqs := [{ vf := 0, num := 0, pool := 0, entries := [0x1000000000000] }] })] } : State).allocate 0 false (poolOrder 0 0) with
  | .got _ _ => true
  | _ => false) = true ∧ (match ({ State.reset with ctxs := [(0, { regs := [(1, 0), (2, 0)] })], admin := [(poolReg 0 0 0, 4), (poolReg 0 0 2, 16), (blkBase 0 + 0x200, 8)], hbm := [(0, { blocks := [(blockId 0 0, { gen := 1, table_ := 1 })], rinsed := [(0, [])], seqs := [{ vf := 0, num := 0, pool := 0, entries := [0x1000000000000] }] })] } : State).allocate 0 true [(0, 0)] with
  | .wait => true
  | _ => false) = true ∧ (match ({ State.reset with ctxs := [(0, { regs := [(1, 0), (2, 0x1000000000000)] })], admin := [(poolReg 0 0 0, 4), (poolReg 0 0 2, 16), (blkBase 0 + 0x200, 8)], hbm := [(0, { blocks := [(blockId 0 0, { gen := 1, table_ := 1 })], rinsed := [(0, [1])], seqs := [{ vf := 0, num := 0, pool := 0, entries := [0x1000000000000] }] })] } : State).allocate 0 true [(0, 1)] with
  | .quota => true
  | _ => false) = true := by decide +kernel
theorem witness_BlockRequests_order : poolOrder 5 2 = ([5, 4, 6, 7, 0, 1, 2, 3, 8, 9, 10, 11, 12, 13, 14, 15] : List Nat).map (fun t => (t, 2)) ∧ ({ State.reset with ctxs := [(0, { regs := [(1, 0), (2, 0x1000000000000)] })], admin := [(poolReg 0 0 0, 4), (poolReg 0 0 2, 16), (blkBase 0 + 0x200, 8)], hbm := [(0, { blocks := [(blockId 0 0, { gen := 1, table_ := 1 })], rinsed := [(0, [1])], seqs := [{ vf := 0, num := 0, pool := 0, entries := [0x1000000000000] }] })] } : State).seqNewStatus 0 16 0 = 5 ∨ ({ State.reset with ctxs := [(0, { regs := [(1, 0), (2, 0x1000000000000)] })], admin := [(poolReg 0 0 0, 4), (poolReg 0 0 2, 16), (blkBase 0 + 0x200, 8)], hbm := [(0, { blocks := [(blockId 0 0, { gen := 1, table_ := 1 })], rinsed := [(0, [1])], seqs := [{ vf := 0, num := 0, pool := 0, entries := [0x1000000000000] }] })] } : State).seqNewStatus 0 16 0 ≠ 5 := by decide +kernel
theorem witness_BlockRequests_waits : (State.reset.setCore 0 { queues := [(7, [State.reset.command 1 0 (.bfree 0) true none])] }).engineIdle 0 7 = false ∧ (State.reset.setCore 0 { queues := [(7, [State.reset.command 1 0 (.bfree 0) true none])] }).requestTurn 0 State.reset.nextId = false ∧ ({ State.reset with flights := [{ id := 1, ctx := 0, hnum := 0, pc := 0, op := .store, va := 0x1000, key := 0x1000, size := 8, sext := false, dst := none, dst2 := none, x := 7, y := 0, sync := 0, scope := 0, order := 0, counted := true, cached := false, alias_ := false, remote := false, vf := 0, phase := 0, window := 0, issued := 0, performed := false, waiting := none, refused := 0, backoff := 0, since := 0, until_ := 0 }] } : State).acks ({ State.reset with flights := [{ id := 1, ctx := 0, hnum := 0, pc := 0, op := .store, va := 0x1000, key := 0x1000, size := 8, sext := false, dst := none, dst2 := none, x := 7, y := 0, sync := 0, scope := 0, order := 0, counted := true, cached := false, alias_ := false, remote := false, vf := 0, phase := 0, window := 0, issued := 0, performed := false, waiting := none, refused := 0, backoff := 0, since := 0, until_ := 0 }] } : State).cur ≠ 0 := by decide +kernel
theorem witness_BlockRequests_limits : 65535 ≤ ({ table_ := 65535 } : Block).table_ + ({ table_ := 65535 } : Block).loose ∧ ∃ l : List W64, 2 ^ 20 ≤ l.length := ⟨by decide, List.replicate (2 ^ 20) 0, by rw [List.length_replicate]⟩
theorem witness_BlockCommands : ((State.reset.setCtx 0 { Ctx.reset with regs := [(1, 0x4000), (2, 0x10000)] }).setCore 0 { ptb := [{ vf := 0, seq := 0, blk := 0, addr := 0x8000, size := 0x4000 }] }).Open [1] [3] ∧ ((State.reset.setCtx 0 { Ctx.reset with regs := [(1, 0x4000), (2, 0x10000)] }).setCore 0 { ptb := [{ vf := 0, seq := 0, blk := 0, addr := 0x8000, size := 0x4000 }] }).Open [1, 2] [3] ∧ ((State.reset.setCtx 0 { Ctx.reset with regs := [(1, 0x4000), (2, 0x10000)] }).setCore 0 { ptb := [{ vf := 0, seq := 0, blk := 0, addr := 0x8000, size := 0x4000 }] }).Clear [3, 1, 2, 1] [] ∧ ((State.reset.setCtx 0 { Ctx.reset with regs := [(1, 0x4000), (2, 0x10000)] }).setCore 0 { ptb := [{ vf := 0, seq := 0, blk := 0, addr := 0x8000, size := 0x4000 }] }).Clear [1, 2] [] ∧ (((State.reset.setCtx 0 { Ctx.reset with regs := [(1, 0x4000), (2, 0x10000)] }).setCore 0 { ptb := [{ vf := 0, seq := 0, blk := 0, addr := 0x8000, size := 0x4000 }] }).core 0).ptb.find? (fun e => e.vf == 0 && e.seq == 0 && e.blk == 0) = some { vf := 0, seq := 0, blk := 0, addr := 0x8000, size := 0x4000 } ∧ (((State.reset.setCtx 0 { Ctx.reset with regs := [(1, 0x4000), (2, 0x10000)] }).setCore 0 { ptb := [{ vf := 0, seq := 0, blk := 0, addr := 0x8000, size := 0x4000 }] }).core 0).ptb.find? (fun e => e.vf == 0 && e.seq == 1 && e.blk == 0) = none ∧ (((State.reset.setCtx 0 { Ctx.reset with regs := [(1, 0x4000), (2, 0x10000)] }).setCore 0 { ptb := [{ vf := 0, seq := 0, blk := 0, addr := 0x8000, size := 0x4000 }] }).rd 1).toNat = 0x4000 ∧ (((State.reset.setCtx 0 { Ctx.reset with regs := [(1, 0x4000), (2, 0x10000)] }).setCore 0 { ptb := [{ vf := 0, seq := 0, blk := 0, addr := 0x8000, size := 0x4000 }] }).rd 2).toNat % 0x4000 = 0 ∧ 0x2000 % 0x4000 ≠ 0 ∧ ((((State.reset.setCtx 0 { Ctx.reset with regs := [(1, 0x4000), (2, 0x10000)] }).setCore 0 { ptb := [{ vf := 0, seq := 0, blk := 0, addr := 0x8000, size := 0x4000 }] }).core 0).queues.get 7 []).length < 2 := by decide +kernel
theorem witness_BlockCommands_engine : ({ State.reset with ctxs := [(0, { regs := [(1, 0), (2, 0x1000000000000)] })], admin := [(poolReg 0 0 0, 4), (poolReg 0 0 2, 16), (blkBase 0 + 0x200, 8)], hbm := [(0, { blocks := [(blockId 0 0, { gen := 1, table_ := 1 })], rinsed := [(0, [1])], seqs := [{ vf := 0, num := 0, pool := 0, entries := [0x1000000000000] }] })] } : State).handleFault 0 0x1000000000000 = none ∧ (({ State.reset with ctxs := [(0, { regs := [(1, 0), (2, 0x1000000000000)] })], admin := [(poolReg 0 0 0, 4), (poolReg 0 0 2, 16), (blkBase 0 + 0x200, 8)], hbm := [(0, { blocks := [(blockId 0 0, { gen := 1, table_ := 1 })], rinsed := [(0, [1])], seqs := [{ vf := 0, num := 0, pool := 0, entries := [0x1000000000000] }] })] } : State).block 0 0 0).loose = 0 ∧ (({ State.reset with ctxs := [(0, { regs := [(1, 0), (2, 0x1000000000000)] })], admin := [(poolReg 0 0 0, 4), (poolReg 0 0 2, 16), (blkBase 0 + 0x200, 8)], hbm := [(0, { blocks := [(blockId 0 0, { gen := 1, table_ := 1 })], rinsed := [(0, [1])], seqs := [{ vf := 0, num := 0, pool := 0, entries := [0x1000000000000] }] })] } : State).seq? 0 0).isSome = true ∧ (State.reset.command 1 0 (.bfree 0) true none).op = .bfree 0 ∧ (State.reset.command 1 0 (.btrunc 0 0) true none).op = .btrunc 0 0 ∧ 2 ≤ (((State.reset.setCore 0 { queues := [(7, [State.reset.command 1 0 .empty true none, State.reset.command 2 0 .empty true none])] }).core 0).queues.get 7 []).length := by decide +kernel
theorem witness_WaitsThatExpire : (({ (State.reset.setCtx 0 { Ctx.reset with wait := some .barrier, kregs := [(8, 5)] }) with cycle := 9 } : State).ctx 0).wait = some .barrier ∧ 0 + 5 ≤ ({ (State.reset.setCtx 0 { Ctx.reset with wait := some .barrier, kregs := [(8, 5)] }) with cycle := 9 } : State).cycle ∧ (State.reset.setCtx 0 { Ctx.reset with wait := some .barrier, kregs := [(8, 5)] }).released 0 = false ∧ ((State.reset.setCtx 0 { Ctx.reset with wait := some (.join 1 (some 3)), kregs := [(8, 5)] }).ctx 0).wait = some (.join 1 (some 3)) ∧ ((State.reset.setCtx 0 { Ctx.reset with wait := some (.joinAny (some 3)), kregs := [(8, 5)] }).ctx 0).wait = some (.joinAny (some 3)) ∧ (State.reset.ctx 0).wait = none ∧ ¬ 3 ≤ State.reset.cycle ∧ 0 < 4096 := by decide +kernel
theorem witness_WaitsThatExpire_line : ((State.reset.modCluster 0 fun c => { c with lines := [{ key := 64, data := 5, dirty := 1 }] }).cluster 0).lines.filter (·.key = 64) = [{ key := 64, data := 5, dirty := 1 }] ∧ (0, 0) ∉ State.reset.traffic := by decide +kernel
theorem witness_TimeEvents_boundary : ({ State.reset with ptp := 6000 } : State).winAsked < ({ State.reset with ptp := 6000 } : State).ptp / 4000 ∧ ¬ State.reset.winAsked < State.reset.ptp / 4000 := by decide
theorem witness_TimeEvents : (0 + 1) * 4000 + 4000 / 2 ≤ ({ State.reset with ptp := 6000, flights := [{ id := 1, ctx := 0, hnum := 0, pc := 0, op := .store, va := 0x1000, key := 0x1000, size := 8, sext := false, dst := none, dst2 := none, x := 7, y := 0, sync := 0, scope := 0, order := 0, counted := true, cached := false, alias_ := false, remote := false, vf := 0, phase := 0, window := 0, issued := 0, performed := false, waiting := none, refused := 0, backoff := 0, since := 0, until_ := 0 }] } : State).ptp ∧ ({ State.reset with ptp := 6000, flights := [{ id := 1, ctx := 0, hnum := 0, pc := 0, op := .store, va := 0x1000, key := 0x1000, size := 8, sext := false, dst := none, dst2 := none, x := 7, y := 0, sync := 0, scope := 0, order := 0, counted := true, cached := false, alias_ := false, remote := false, vf := 0, phase := 0, window := 0, issued := 0, performed := false, waiting := none, refused := 0, backoff := 0, since := 0, until_ := 0 }] } : State).windowCount 0 ≠ 0 ∧ 5 ≠ State.reset.device ∧ 5 < 1024 ∧ (16 * State.reset.offset < 4000 ∧ 4 * State.reset.latency < 4000) ∧ ¬ (16 * ({ State.reset with offset := 250 } : State).offset < 4000) ∧ 0 = State.reset.device ∧ (1 : Nat) ≠ 0 ∧ (({ State.reset with ptp := 1500 } : State).die 0).bankFrom + 1500 ≤ ({ State.reset with ptp := 1500 } : State).ptp := by decide +kernel
theorem witness_ModesAndShootDowns_lines : (State.reset.setReg sdctl 0x8000000400000000).regBits sdctl 34 34 = 1 ∧ (State.reset.setReg sdctl 0x8000000400000000).sdRanges = some [] ∧ (State.reset.setReg sdctl 0x8000000600000000).sdRanges = none := by decide +kernel
theorem witness_ModesAndShootDowns : State.reset.regBits schBase 8 8 = 1 ∧ (State.reset.die 0).loading = true ∧ ((State.reset.modDie 0 fun d => { d with loading := false }).die 0).loading = false ∧ State.reset.readsWeight 0 0 = false ∧ State.reset.writesWeight 0 = false ∧ (State.reset.setReg schBase 0).regBits schBase 8 8 = 0 ∧ (State.reset.cluster 0).dsplit = none ∧ ((State.reset.modCluster 0 fun c => { c with dsplit := some 4 }).cluster 0).dsplit = some 4 ∧ State.reset.itemsOn 0 = false ∧ (State.reset.setReg sdctl 0x8000000000000000).regBits sdctl 63 63 = 1 ∧ State.reset.sdBegun = false ∧ State.reset.sdQuiet = true ∧ (State.reset.setReg sdctl 0x8000000000000000).regBits sdctl 34 34 = 0 := by decide +kernel
theorem witness_ErrorEvents_ring : (let r : State := (State.reset.setReg (fleetBase + 8) 4).setReg fleetBase 4096; ¬ (r.regBits (fleetBase + 8) 3 0 = 0 ∨ 2 ^ r.regBits (fleetBase + 8) 3 0 ≤ (r.regBits (fleetBase + 0x18) 31 0 + 2 ^ 32 - r.regBits (fleetBase + 0x10) 31 0) % 2 ^ 32) ∧ r.regBits (fleetBase + 0x20) 31 0 = 0 ∧ isRemoteKey 8 = false ∧ isRemoteKey (2 ^ 54 + 8) = true ∧ r.present (2 ^ 54 + 8) 8 = true ∧ memWf r.mem = true) := by decide +kernel
theorem witness_ErrorEvents : State.reset.present 8 8 = true ∧ State.reset.present 0xFFF8000000000000 8 = false ∧ matExists (.tile 0 0) = true ∧ State.reset.regBits (fleetBase + 0x20) 31 0 = 0 ∧ State.reset.regBits (fleetBase + 8) 3 0 = 0 ∧ ((State.reset.setCtx 4096 {}).ctxs.find? 4096).isSome = true ∧ (State.reset.ctxs.find? 4096).isNone = true ∧ ((State.reset.setCtx 0 {}).ctxs.find? 0).isSome = true ∧ 4096 / 4096 ≠ 0 ∧ 0 / 4096 = 0 ∧ 8 / 8 ≠ 0 / 8 := by decide +kernel
theorem witness_VectorResults : ({} : Ctx).lanes ≤ 256 ∧ (3 : Nat) < 32 * 32 / fmtWidth 9 ∧ 4 + 3 < 32 * 32 / fmtWidth 9 ∧ 32 * 32 / fmtWidth 9 ≤ 31 + 3 ∧ 32 * 32 / fmtWidth 9 ≤ 100 ∧ 100 < 32 * 32 ∧ VFun.add ≠ .cmpeq ∧ ((5 : W64).toNat = 5) := by decide
theorem witness_VectorResults_masked : ¬ (4 = 0 ∨ (({ vregs := [(4, 1)] } : Ctx).vbits 4).testBit 1 = true) ∧ (({ vregs := [(4, 1)] } : Ctx).vbits 4).testBit 0 = true := by decide +kernel
theorem witness_VectorRegisterResults : ({} : Ctx).lanes ≤ 256 ∧ isIntFmt 3 = true ∧ isIntFmt 9 = false ∧ ratio 9 5 = some 4 ∧ ratioUp 9 11 = some 4 ∧ equalPair 3 9 = true ∧ (5 : Nat) < 32 * 32 ∧ (31 : Nat) < 32 ∧ (3 : Nat) < 4 * 32 ∧ 4 * 32 / 32 ≤ 4 ∧ (1 : Nat) ≠ 2 ∧ ({} : Ctx).isActive (State.reset.vcommand .release {}) 0 = true ∧ ({} : Ctx).isActive { State.reset.vcommand .release {} with msk := 5 } 0 = true ∧ ({ vregs := [(5, 0)] } : Ctx).isActive { State.reset.vcommand .release {} with msk := 5 } 0 = false ∧ treeFold (fun u v => vfun .add 3 u v 0) 16 [1, 2] = some 3 ∧ 2 * 0 + 1 < [1, 2].length ∧ [1].length % 2 = 1 := by decide +kernel
theorem witness_VectorRegisterResults_scales : (Machine.Num.nan ∈ [Machine.Num.nan]) ∧ (∀ z ∈ [Machine.Num.fin false 0 3], ∃ s k, z = .fin s 0 k) ∧ (∀ z ∈ [Machine.Num.fin false 4 1], ∃ s m k, z = .fin s m k ∧ (m = 0 ∨ (Nat.log2 m : Int) + k ≤ 3)) ∧ (∃ s m k, .fin s m k ∈ [Machine.Num.fin false 4 1] ∧ m ≠ 0 ∧ (Nat.log2 m : Int) + k = 3) := ⟨by decide, fun z h => ⟨false, 3, by simpa using h⟩, fun z h => ⟨false, 4, 1, by simpa using h, Or.inr (by decide)⟩, ⟨false, 4, 1, by simp, by decide, by decide⟩⟩
theorem witness_VectorTransfers_cached : (∀ p ∈ [((0 : Nat), (4096 : Nat), true)], p.2.2 = true ∧ p.2.1 % 64 + max 1 (fmtWidth 9 / 8) ≤ 64) ∧ (State.reset.cluster 0).split < 8 ∧ (State.reset.cluster 0).lines.length + 1 ≤ (8 - (State.reset.cluster 0).split) * 4096 ∧ ([((0 : Nat), (4096 : Nat), true)] = [] ++ (0, 4096, true) :: []) ∧ ¬ (∃ p ∈ [((0 : Nat), (4096 : Nat), true)], p.2.1 ≤ 8 ∧ 8 < p.2.1 + 4) := by decide +kernel
theorem witness_VectorTransfers : fmtWidth 9 = 32 ∧ fmtWidth 4 = 4 ∧ State.reset.me.lanes ≤ 256 ∧ (∀ p ∈ [((0 : Nat), (0xFFF0000000000000 : Nat), false)], p.2.2 = false ∨ 8 ≤ (State.reset.cluster 0).split) ∧ (([((0 : Nat), (8 : Nat), false)] : List (Nat × Nat × Bool)).map (·.1)).Nodup ∧ memWf State.reset.mem = true ∧ (∀ p ∈ [((0 : Nat), (8 : Nat), false)], State.reset.isPoisoned p.2.1 = false) ∧ (∃ p ∈ [((0 : Nat), (8 : Nat), false)], ({ State.reset with poison := [8] } : State).isPoisoned p.2.1 = true) ∧ (State.reset.vcommand (.load 1 9 [(0, 8, false)] 8) {}).op = .load 1 9 [(0, 8, false)] 8 := by decide +kernel
theorem witness_VectorPoolEvents : ((State.reset.setCore 0 { vqueue := [State.reset.vcommand (.release) {}] }).core 0).vqueue = [State.reset.vcommand .release {}] ∧ (State.reset.setCore 0 { vqueue := [State.reset.vcommand (.release) {}] }).lanesBusy 0 + 32 ≤ 512 ∧ ((State.reset.setCore 0 { vqueue := [State.reset.vcommand (.release) {}] }).core 0).vrunning = [] ∧ (State.reset.core 0).vtook ≠ some State.reset.cycle ∧ (((State.reset.modCluster 0 fun c => { c with vlast := 0 }).cluster 0).vlast + 1 + 7) % 8 = 0 ∧ (∀ j < 7, (State.reset.core (0 + (((State.reset.modCluster 0 fun c => { c with vlast := 0 }).cluster 0).vlast + 1 + j) % 8)).vqueue = []) ∧ (State.reset.core 0).vqueue = [] ∧ (((State.reset.setCore 0 { vrunning := [State.reset.vcommand (.elem .add 1 2 3 0 9) {}] }).core 0).vrunning.find? (fun q => q.ctx == 0)).isSome = true ∧ (State.reset.core 0).vrunning.find? (fun q => q.ctx == 0) = none ∧ (State.reset.vcommand .release {}).began < ({ State.reset with cycle := 5 } : State).cycle ∧ State.reset.cycle ≤ (State.reset.vcommand .release {}).began ∧ State.reset.bankBusy weightBase = true ∧ State.reset.bankBusy (weightBase + 0x8000000) = false ∧ (VOp.mpop 3 1 0).dst? = some 3 ∧ (performV {} (State.reset.vcommand (.mpop 3 1 0) {})).2.isSome = true := by decide +kernel
theorem witness_EngineEvents : ((State.reset.setCore 0 { queues := [(1, [State.reset.command 1 0 (.empty) true none])] }).core 0).queues.get 1 [] = [State.reset.command 1 0 (.empty) true none] ∧ ((State.reset.setCore 0 { queues := [(1, [State.reset.command 1 0 (.empty) true none])] }).core 0).running.find? 1 = none ∧ (State.reset.core 0).queues.get 1 [] = [] ∧ (((State.reset.setCore 0 { running := [(1, State.reset.command 1 0 (.empty) true none)] }).core 0).running.find? 1).isSome = true ∧ (((State.reset.setCore 0 { stopped := [(1, { cause := 4, va := 0, kind := 0, level := 0, pte := 0 })] }).core 0).stopped.find? 1).isSome = true ∧ (match State.reset.attempt 0 1 (State.reset.command 1 0 (.empty) true none) with
  | .done _ => true
  | _ => false) = true ∧ (match State.reset.attempt 0 1 (State.reset.command 1 0 (.cpy 0xFFF8000000000000 0 8 none) true none) with
  | .stop (.fault _) => true
  | _ => false) = true ∧ (match State.reset.attempt 0 1 (State.reset.command 1 0 (.cpy 0xFFFFFFFFFFFE0000 0xFFFFFFFFFFFE0040 8 none) true none) with
  | .write _ _ => true
  | _ => false) = true ∧ ((State.reset.core 0).taken.find? 1 = none) ∧ (State.reset.core 0).stopped.find? 1 = none := by decide +kernel
theorem witness_EngineEvents_check : (match State.reset.engBegin 0 7 (State.reset.command 1 0 (.bfree 0) true none) with
  | (_, .error _) => true
  | _ => false) = true ∧ (({ State.reset with flights := [{ id := 1, ctx := 0, hnum := 0, pc := 0, op := .store, va := 0x1000, key := 0x1000, size := 8, sext := false, dst := none, dst2 := none, x := 7, y := 0, sync := 0, scope := 0, order := 0, counted := true, cached := false, alias_ := false, remote := false, vf := 0, phase := 0, window := 0, issued := 0, performed := false, waiting := none, refused := 0, backoff := 0, since := 0, until_ := 0 }] } : State).flights.any fun f => coreOf f.ctx == 0 && f.hnum == 0 && f.counted && decide (f.id < 2)) = true := by decide +kernel
theorem witness_SluiceEvents : (({ State.reset with admin := [(sluiceBase 1, 3), (sluiceBase 1 + 0x30, 0)], groups := [(1, { waiting := [{ id := 1, ctx := 0, hnum := 0, dst := 3, off := 8, expect := none, val := 7, after := 0, phase := 0, vf := 0, window := 0 }], open_ := true })] } : State).nextStamp 1).isSome = true ∧ ({ State.reset with admin := [(sluiceBase 1, 3), (sluiceBase 1 + 0x30, 0)], groups := [(1, { waiting := [{ id := 1, ctx := 0, hnum := 0, dst := 3, off := 8, expect := none, val := 7, after := 0, phase := 0, vf := 0, window := 0 }], open_ := true })] } : State).grpState 1 = 1 ∧ (({ State.reset with admin := [(sluiceBase 1, 3), (sluiceBase 1 + 0x30, 0)], groups := [(1, { waiting := [{ id := 1, ctx := 0, hnum := 0, dst := 3, off := 8, expect := none, val := 7, after := 0, phase := 0, vf := 0, window := 0 }], open_ := true })] } : State).group 1).open_ = true ∧ ({ State.reset with admin := [(sluiceBase 1, 3), (sluiceBase 1 + 0x30, 0)], groups := [(1, { waiting := [{ id := 1, ctx := 0, hnum := 0, dst := 3, off := 8, expect := none, val := 7, after := 0, phase := 0, vf := 0, window := 0 }], open_ := true })] } : State).grpGoing 1 ≠ 2 ∧ State.reset.nextStamp 1 = none ∧ (({ State.reset with admin := [(sluiceBase 1, 3), (sluiceBase 1 + 0x30, 0)], groups := [(1, { stamped := 1, history := [(1, { id := 1, ctx := 0, hnum := 0, dst := 3, off := 8, expect := some 0, val := 7, after := 0, phase := 0, vf := 0, window := 0 })] })] } : State).group 1).applied < (({ State.reset with admin := [(sluiceBase 1, 3), (sluiceBase 1 + 0x30, 0)], groups := [(1, { stamped := 1, history := [(1, { id := 1, ctx := 0, hnum := 0, dst := 3, off := 8, expect := some 0, val := 7, after := 0, phase := 0, vf := 0, window := 0 })] })] } : State).group 1).stamped ∧ ((({ State.reset with admin := [(sluiceBase 1, 3), (sluiceBase 1 + 0x30, 0)], groups := [(1, { stamped := 1, history := [(1, { id := 1, ctx := 0, hnum := 0, dst := 3, off := 8, expect := some 0, val := 7, after := 0, phase := 0, vf := 0, window := 0 })] })] } : State).group 1).history.find? (fun p => p.1 == 0 + 1)).isSome = true ∧ ({ State.reset with admin := [(sluiceBase 1, 3), (sluiceBase 1 + 0x30, 0)], groups := [(1, { stamped := 1, history := [(1, { id := 1, ctx := 0, hnum := 0, dst := 3, off := 8, expect := some 0, val := 7, after := 0, phase := 0, vf := 0, window := 0 })] })] } : State).read64 8 = 0 ∧ (({ State.reset with admin := [(sluiceBase 1, 3), (sluiceBase 1 + 0x30, 0)], groups := [(1, { waiting := [{ id := 1, ctx := 0, hnum := 0, dst := 3, off := 8, expect := none, val := 7, after := 0, phase := 0, vf := 0, window := 0 }], open_ := true })] } : State).group 1).waiting = [{ id := 1, ctx := 0, hnum := 0, dst := 3, off := 8, expect := none, val := 7, after := 0, phase := 0, vf := 0, window := 0 }] := by decide +kernel
theorem witness_SluiceEvents_commands : ({ State.reset with admin := [(sluiceBase 1, 1), (sluiceBase 1 + 0x30, 0x8000000000000001)], groups := [(1, {})] } : State).grpGoing 1 = 1 ∧ ({ State.reset with admin := [(sluiceBase 1, 1), (sluiceBase 1 + 0x30, 0x8000000000000001)], groups := [(1, {})] } : State).regBits (sluiceBase 1) 0 0 = 1 ∧ ({ State.reset with admin := [(sluiceBase 1, 7), (sluiceBase 1 + 0x30, 0x8000000000000002)], groups := [(1, {})] } : State).grpGoing 1 = 2 ∧ ({ State.reset with admin := [(sluiceBase 1, 5), (sluiceBase 1 + 0x30, 0x8000000000000003)], groups := [(1, {})] } : State).grpGoing 1 = 3 ∧ ({ State.reset with admin := [(sluiceBase 1, 5), (sluiceBase 1 + 0x30, 0x8000000000000003)], groups := [(1, {})] } : State).grpState 1 = 2 ∧ ({ State.reset with admin := [(sluiceBase 1, 3), (sluiceBase 1 + 0x30, 0x8000000000000004)], groups := [(1, {})] } : State).grpGoing 1 = 4 ∧ (({ State.reset with admin := [(sluiceBase 1, 3), (sluiceBase 1 + 0x30, 0)], groups := [(1, { stamped := 1 })] } : State).group 1).history.find? (fun p => p.1 == 1) = none ∧ ({ State.reset with admin := [(sluiceBase 1, 5), (sluiceBase 1 + 0x30, 0x8000000000000003)], groups := [(1, {})] } : State).isSequencer 1 = true ∧ ({ State.reset with admin := [(sluiceBase 1, 0x503), (sluiceBase 1 + 0x30, 0)], groups := [(1, {})] } : State).regBits (sluiceBase 1) 17 8 ≠ ({ State.reset with admin := [(sluiceBase 1, 0x503), (sluiceBase 1 + 0x30, 0)], groups := [(1, {})] } : State).device ∧ ({ State.reset with admin := [(sluiceBase 1, 0x503), (sluiceBase 1 + 0x30, 0)], groups := [(1, {})] } : State).isMember 1 = false ∧ ({ State.reset with admin := [(sluiceBase 1, 0x503), (sluiceBase 1 + 0x28, 1), (sluiceBase 1 + 0x30, 0)], groups := [(1, {})] } : State).isMember 1 = true ∧ ({ State.reset with admin := [(sluiceBase 1, 0x503), (sluiceBase 1 + 0x30, 0)], groups := [(1, {})] } : State).grpState 1 = 1 ∧ ({ State.reset with admin := [(sluiceBase 1, 0x501), (sluiceBase 1 + 0x30, 0)], groups := [(1, {})] } : State).grpState 1 = 0 := by decide +kernel
theorem witness_BlockEvents : (({ State.reset with hbm := [(0, { blocks := [(blockId 0 1, { rinsing := true })] })] } : State).block 0 0 1).rinsing = true ∧ State.reset.poolIdle 0 0 = true ∧ ({ State.reset with hbm := [(0, { blocks := [(blockId 0 1, { table_ := 1 })] })] } : State).poolIdle 0 0 = false ∧ (1 : Nat) < 2 ^ 40 ∧ bitsOf (0x100 : W64) 4 0 = 0 ∧ State.reset.cleozRuns = false ∧ ({ State.reset with boot := { stage := 3 } } : State).cleozRuns = true ∧ ({ State.reset with boot := { stage := 3 } } : State).poolIdle 0 0 = true := by decide +kernel
theorem witness_EngineEvents_latch : (match State.reset.attnBegin 0 (State.reset.command 1 0 (.attnq 0xFFFFFFFFFFFE0000) true none) 0xFFFFFFFFFFFE0000 with
  | (_, .ok (_, none)) => true
  | _ => false) = true ∧ (State.reset.command 1 0 (.attnq 0xFFFFFFFFFFFE0000) true none).blocks = [] ∧ ({ State.reset.command 1 0 (.attnq 0xFFFFFFFFFFFE0000) true none with pages := [(false, 8, 16)] } : EngCmd).pages.find? (fun p => p.1 == accERead.w && p.2.1 == 8) = some (false, 8, 16) := by decide +kernel
theorem witness_SluiceEvents_moves : (({ State.reset with admin := [(sluiceBase 1, 0x503), (sluiceBase 1 + 0x28, 1), (sluiceBase 1 + 0x30, 0)], groups := [(1, { seqDev := 5 })] } : State).group 1).seqDev = 5 ∧ ({ State.reset with admin := [(sluiceBase 1, 0x503), (sluiceBase 1 + 0x28, 1), (sluiceBase 1 + 0x30, 0)], groups := [(1, { seqDev := 5 })] } : State).device ≠ 5 ∧ ({ State.reset with admin := [(sluiceBase 1, 0x503), (sluiceBase 1 + 0x28, 1), (sluiceBase 1 + 0x30, 0)], groups := [(1, { seqDev := 5 })] } : State).grpGoing 1 = 0 ∧ ({ State.reset with admin := [(sluiceBase 1, 0x503), (sluiceBase 1 + 0x28, 1), (sluiceBase 1 + 0x30, 0)], groups := [(1, { seqDev := 5 })] } : State).grpState 1 = 1 ∧ ({ State.reset with admin := [(sluiceBase 1, 0x503), (sluiceBase 1 + 0x28, 1), (sluiceBase 1 + 0x30, 0)], groups := [(1, { seqDev := 5 })] } : State).regBits (sluiceBase 1) 0 0 = 1 ∧ (({ State.reset with admin := [(sluiceBase 1, 0x503), (sluiceBase 1 + 0x28, 1), (sluiceBase 1 + 0x30, 0)], groups := [(1, { seqDev := 5 })] } : State).group 1).applied = (({ State.reset with admin := [(sluiceBase 1, 0x503), (sluiceBase 1 + 0x28, 1), (sluiceBase 1 + 0x30, 0)], groups := [(1, { seqDev := 5 })] } : State).group 1).stamped ∧ ({ State.reset with admin := [(sluiceBase 1, 0x503), (sluiceBase 1 + 0x28, 1), (sluiceBase 1 + 0x30, 0)], groups := [(1, { seqDev := 5 })] } : State).isMember 1 = true ∧ ({ State.reset with admin := [(sluiceBase 1, 0x505), (sluiceBase 1 + 0x30, 0)], groups := [(1, { seqDev := 5 })] } : State).grpState 1 = 2 ∧ (({ State.reset with admin := [(sluiceBase 1, 0x503), (sluiceBase 1 + 0x30, 0)], groups := [(1, {})] } : State).grpState 1 ≠ 0 ∧ (({ State.reset with admin := [(sluiceBase 1, 0x503), (sluiceBase 1 + 0x30, 0)], groups := [(1, {})] } : State).group 1).seqDev = ({ State.reset with admin := [(sluiceBase 1, 0x503), (sluiceBase 1 + 0x30, 0)], groups := [(1, {})] } : State).device) := by decide +kernel
theorem witness_BlockEvents_fails : (((({ State.reset with hbm := [(0, { blocks := [(blockId 0 1, { rinsing := true })] })] } : State).setReg (fleetBase + 8) 4).setReg fleetBase 4096).block 0 0 1).rinsing = true ∧ (((({ State.reset with hbm := [(0, { blocks := [(blockId 0 1, { rinsing := true })] })] } : State).setReg (fleetBase + 8) 4).setReg fleetBase 4096).block 0 0 1).retired = false ∧ (((({ State.reset with hbm := [(0, { blocks := [(blockId 0 1, { rinsing := true })] })] } : State).setReg (fleetBase + 8) 4).setReg fleetBase 4096).block 0 0 1).drain = [] ∧ ¬ (((({ State.reset with hbm := [(0, { blocks := [(blockId 0 1, { rinsing := true })] })] } : State).setReg (fleetBase + 8) 4).setReg fleetBase 4096).regBits (fleetBase + 8) 3 0 = 0 ∨ 2 ^ ((({ State.reset with hbm := [(0, { blocks := [(blockId 0 1, { rinsing := true })] })] } : State).setReg (fleetBase + 8) 4).setReg fleetBase 4096).regBits (fleetBase + 8) 3 0 ≤ (((({ State.reset with hbm := [(0, { blocks := [(blockId 0 1, { rinsing := true })] })] } : State).setReg (fleetBase + 8) 4).setReg fleetBase 4096).regBits (fleetBase + 0x18) 31 0 + 2 ^ 32 - ((({ State.reset with hbm := [(0, { blocks := [(blockId 0 1, { rinsing := true })] })] } : State).setReg (fleetBase + 8) 4).setReg fleetBase 4096).regBits (fleetBase + 0x10) 31 0) % 2 ^ 32) ∧ ((({ State.reset with hbm := [(0, { blocks := [(blockId 0 1, { rinsing := true })] })] } : State).setReg (fleetBase + 8) 4).setReg fleetBase 4096).flights = [] ∧ memWf ((({ State.reset with hbm := [(0, { blocks := [(blockId 0 1, { rinsing := true })] })] } : State).setReg (fleetBase + 8) 4).setReg fleetBase 4096).mem = true ∧ (1 : Nat) ≠ 0 := by decide +kernel
theorem witness_VectorRegisterResults_specials : numOf 9 0x7FC00000 = .nan ∧ numOf 9 0x7F800000 = .inf false ∧ numOf 9 0xFF800000 = .inf true ∧ (match numOf 9 0 with
  | .fin false 0 _ => true
  | _ => false) = true ∧ (match numOf 9 0xBF800000 with
  | .fin true m _ => m != 0
  | _ => false) = true ∧ (match numOf 9 0x40000000 with
  | .fin false m _ => m == 2 ^ Nat.log2 m
  | _ => false) = true ∧ (match numOf 9 0x4C000000 with
  | .fin _ m k => decide (m ≠ 0 ∧ 0 ≤ k ∧ 5 ≤ (Nat.log2 m : Int) + k)
  | _ => false) = true ∧ (match numOf 9 0x20000000 with
  | .fin _ m k => decide (m ≠ 0 ∧ (Nat.log2 m : Int) + k < -30)
  | _ => false) = true := by decide +kernel
theorem witness_HelperEvents : (State.reset.setCtx 4096 { life := .starting, form := .start, hnum := 1 }).mayLive 4096 = true ∧ (State.reset.setCtx 4096 { life := .starting, form := .start, hnum := 1 }).windowFits 4096 = true ∧ State.reset.mayLive 4096 = false ∧ (State.reset.setCtx 4096 { life := .starting, window := 2000 }).windowFits 4096 = false ∧ (State.reset.setCtx 4096 { life := .closing }).mayEnd 4096 = true ∧ ((State.reset.setCtx 4096 { life := .closing }).ctx 4096).gang = false ∧ State.reset.mayEnd 4096 = false ∧ State.reset.maySave 4096 = false ∧ 0 + 4096 * 1 = 4096 ∧ (0 : Nat) < 4096 := by decide +kernel
theorem witness_HelperEvents_frames : ({ State.reset with admin := [(tffBase + 0x500, 0x100000), (tffBase + 0x508, 1), (ringReg 0 1, 1)], noVf := false, ctxs := [(4096, { life := .live, wait := some .fault, fault := some { cause := 4, va := 0, kind := 0, level := 0, pte := 0 } })] } : State).maySave 4096 = true ∧ (({ State.reset with admin := [(tffBase + 0x500, 0x100000), (tffBase + 0x508, 1)], saved := [{ frame := 0x100000, id := 4096, core := 0, vf := 0, kind := 0, ctx := { hnum := 1 }, gang := none, resumed := false, redo := [] }], noVf := false } : State).framed 0x100000).isSome = true ∧ bitsOf (0x100000 : W64) 1 0 = 0 ∧ bitsOf (0x100001 : W64) 1 0 = 1 ∧ State.reset.framed 0x100000 = none ∧ (∀ g ∈ ({ State.reset with admin := [(tffBase + 0x500, 0x100000), (tffBase + 0x508, 1)], saved := [{ frame := 0x100000, id := 4096, core := 0, vf := 0, kind := 0, ctx := { hnum := 1 }, gang := none, resumed := true, redo := [] }], noVf := false } : State).savedGang ({ frame := 0x100000, id := 4096, core := 0, vf := 0, kind := 0, ctx := { hnum := 1 }, gang := none, resumed := true, redo := [] }), ({ State.reset with admin := [(tffBase + 0x500, 0x100000), (tffBase + 0x508, 1)], saved := [{ frame := 0x100000, id := 4096, core := 0, vf := 0, kind := 0, ctx := { hnum := 1 }, gang := none, resumed := true, redo := [] }], noVf := false } : State).mayPlace g = true) ∧ ({ State.reset with admin := [(tffBase + 0x500, 0x100000), (tffBase + 0x508, 1)], saved := [{ frame := 0x100000, id := 4096, core := 0, vf := 0, kind := 0, ctx := { hnum := 1 }, gang := none, resumed := false, redo := [] }], noVf := false } : State).mayPlace ({ frame := 0x100000, id := 4096, core := 0, vf := 0, kind := 0, ctx := { hnum := 1 }, gang := none, resumed := false, redo := [] }) = false ∧ (State.reset.cluster 0).overflow = [] ∧ State.reset.ringRoom 0 = false ∧ (({ State.reset with admin := [(tffBase + 0x500, 0x100000), (tffBase + 0x508, 1), (ringReg 0 1, 1)], noVf := false, ctxs := [(4096, { life := .live, wait := some .fault, fault := some { cause := 4, va := 0, kind := 0, level := 0, pte := 0 } })] } : State).ringRoom 0 = true) := by decide +kernel
theorem witness_HelperEvents_migration : (({ State.reset with ctxs := [(4096, { life := .live, mig := true, placed := [0], kregs := [(7, 1)], migCnt := [(0, 2)] })] } : State).ctx 4096).migrates = some 0 ∧ ({ State.reset with ctxs := [(4096, { life := .live, mig := true, placed := [0], kregs := [(7, 1)], migCnt := [(0, 2)] })] } : State).engineBusy 4096 = false ∧ (({ State.reset with ctxs := [(4096, { life := .live, mig := true, placed := [0], kregs := [(7, 1)], migCnt := [(0, 2)] })] } : State).migTarget (({ State.reset with ctxs := [(4096, { life := .live, mig := true, placed := [0], kregs := [(7, 1)], migCnt := [(0, 2)] })] } : State).ctx 4096) 0).isSome = true ∧ ({ State.reset with ctxs := [(4096, { life := .live, mig := true, placed := [0], kregs := [(7, 1)], migCnt := [(0, 2)] })] } : State).saveable 4096 = true ∧ (State.reset.ctx 4096).migrates = none ∧ (({ State.reset with ctxs := [(4096, { life := .live, mig := true, placed := [0], kregs := [(7, 1)], migCnt := [(0, 2)], window := 4 })] } : State).ctx 4096).window ≠ 0 ∧ ((State.reset.setCtx 4096 { wait := some (.service 5 0) }).ctx 4096).wait = some (.service 5 0) := by decide +kernel
theorem witness_HelperEvents_frame : ({ State.reset with admin := [(tffBase + 0x500, 0x100000), (tffBase + 0x508, 1), (ringReg 0 1, 1)], noVf := false, ctxs := [(4096, { life := .live, wait := some .fault, fault := some { cause := 4, va := 0, kind := 0, level := 0, pte := 0 } })] } : State).maySave 4096 = true ∧ (({ State.reset with admin := [(tffBase + 0x500, 0x100000), (tffBase + 0x508, 1), (ringReg 0 1, 1)], noVf := false, ctxs := [(4096, { life := .live, wait := some .fault, fault := some { cause := 4, va := 0, kind := 0, level := 0, pte := 0 } })] } : State).ctx 4096).gang = false ∧ memWf ({ State.reset with admin := [(tffBase + 0x500, 0x100000), (tffBase + 0x508, 1), (ringReg 0 1, 1)], noVf := false, ctxs := [(4096, { life := .live, wait := some .fault, fault := some { cause := 4, va := 0, kind := 0, level := 0, pte := 0 } })] } : State).mem = true ∧ (({ State.reset with admin := [(tffBase + 0x500, 0x100000), (tffBase + 0x508, 1), (ringReg 0 1, 1)], noVf := false, ctxs := [(4096, { life := .live, wait := some .fault, fault := some { cause := 4, va := 0, kind := 0, level := 0, pte := 0 } })] } : State).ctx 4096).fault.isSome = true ∧ (({ State.reset with admin := [(tffBase + 0x500, 0x100000), (tffBase + 0x508, 1), (ringReg 0 1, 1)], noVf := false, ctxs := [(4096, { life := .live, wait := some .fault, fault := some { cause := 4, va := 0, kind := 0, level := 0, pte := 0 } })] } : State).regBits (ringReg 0 1) 3 0 ≠ 0 ∧ (({ State.reset with admin := [(tffBase + 0x500, 0x100000), (tffBase + 0x508, 1), (ringReg 0 1, 1)], noVf := false, ctxs := [(4096, { life := .live, wait := some .fault, fault := some { cause := 4, va := 0, kind := 0, level := 0, pte := 0 } })] } : State).regBits (ringReg 0 3) 31 0 + 2 ^ 32 - ({ State.reset with admin := [(tffBase + 0x500, 0x100000), (tffBase + 0x508, 1), (ringReg 0 1, 1)], noVf := false, ctxs := [(4096, { life := .live, wait := some .fault, fault := some { cause := 4, va := 0, kind := 0, level := 0, pte := 0 } })] } : State).regBits (ringReg 0 2) 31 0) % 2 ^ 32 < 2 ^ ({ State.reset with admin := [(tffBase + 0x500, 0x100000), (tffBase + 0x508, 1), (ringReg 0 1, 1)], noVf := false, ctxs := [(4096, { life := .live, wait := some .fault, fault := some { cause := 4, va := 0, kind := 0, level := 0, pte := 0 } })] } : State).regBits (ringReg 0 1) 3 0 ∧ ∀ x ∈ (({ State.reset with admin := [(tffBase + 0x500, 0x100000), (tffBase + 0x508, 1), (ringReg 0 1, 1)], noVf := false, ctxs := [(4096, { life := .live, wait := some .fault, fault := some { cause := 4, va := 0, kind := 0, level := 0, pte := 0 } })] } : State).cluster 0).overflow, x.ring ≠ 0) ∧ (({ State.reset with admin := [(tffBase + 0x500, 0x100000), (tffBase + 0x508, 1), (ringReg 0 1, 1)], noVf := false, ctxs := [(4096, { life := .live, wait := some .fault, fault := some { cause := 4, va := 0, kind := 0, level := 0, pte := 0 } })] } : State).ctx 4096).window ≤ 48 ∧ (({ State.reset with admin := [(tffBase + 0x500, 0x100000), (tffBase + 0x508, 1), (ringReg 0 1, 1)], noVf := false, ctxs := [(4096, { life := .live, wait := some .fault, fault := some { cause := 4, va := 0, kind := 0, level := 0, pte := 0 } })] } : State).freeFrames 0).headD 0 = 0x100000 ∧ ({ State.reset with admin := [(tffBase + 0x500, 0x100000), (tffBase + 0x508, 1), (ringReg 0 1, 1)], noVf := false, ctxs := [(4096, { life := .live, wait := some .fault, fault := some { cause := 4, va := 0, kind := 0, level := 0, pte := 0 } })] } : State).vfOf 4096 = 0 ∧ (({ State.reset with admin := [(tffBase + 0x500, 0x100000), (tffBase + 0x508, 1), (ringReg 0 1, 1)], noVf := false, ctxs := [(4096, { life := .live, wait := some .fault, fault := some { cause := 4, va := 0, kind := 0, level := 0, pte := 0 } })] } : State).ctx 4096).asid = 0 ∧ ({ State.reset with admin := [(tffBase + 0x500, 0x100000), (tffBase + 0x508, 1), (ringReg 0 1, 1)], noVf := false, ctxs := [(4096, { life := .live, wait := some .fault, fault := some { cause := 4, va := 0, kind := 0, level := 0, pte := 0 } })] } : State).regBits (ringReg 0 0) 51 6 * 64 + 64 * (0 % 2) + 64 ≤ 0x100000 := by decide +kernel
theorem witness_HelperEvents_gang : ({ State.reset with admin := [(tffBase + 0x500, 0x100000), (tffBase + 0x508, 2)], noVf := false, cores := [(0, { gangMask := 3 }), (1, { gangMask := 3 })], ctxs := [(4096, { life := .live, gang := true, item := some (1, 0), window := 4, wait := some .fault, fault := some { cause := 4, va := 0, kind := 0, level := 0, pte := 0 } }), (4097, { life := .live, gang := true, item := some (1, 0), window := 4 })] } : State).maySave 4096 = true ∧ (({ State.reset with admin := [(tffBase + 0x500, 0x100000), (tffBase + 0x508, 2)], noVf := false, cores := [(0, { gangMask := 3 }), (1, { gangMask := 3 })], ctxs := [(4096, { life := .live, gang := true, item := some (1, 0), window := 4, wait := some .fault, fault := some { cause := 4, va := 0, kind := 0, level := 0, pte := 0 } }), (4097, { life := .live, gang := true, item := some (1, 0), window := 4 })] } : State).ctx 4096).gang = true ∧ ({ State.reset with admin := [(tffBase + 0x500, 0x100000), (tffBase + 0x508, 2)], noVf := false, cores := [(0, { gangMask := 3 }), (1, { gangMask := 3 })], ctxs := [(4096, { life := .live, gang := true, item := some (1, 0), window := 4, wait := some .fault, fault := some { cause := 4, va := 0, kind := 0, level := 0, pte := 0 } }), (4097, { life := .live, gang := true, item := some (1, 0), window := 4 })] } : State).members 4096 = [4096, 4097] ∧ ({ State.reset with admin := [(tffBase + 0x500, 0x100000), (tffBase + 0x508, 2)], noVf := false, cores := [(0, { gangMask := 3 }), (1, { gangMask := 3 })], ctxs := [(4096, { life := .live, gang := true, item := some (1, 0), window := 4, wait := some .fault, fault := some { cause := 4, va := 0, kind := 0, level := 0, pte := 0 } }), (4097, { life := .live, gang := true, item := some (1, 0), window := 4 })] } : State).regBits (ringReg 0 1) 3 0 = 0 ∧ memWf ({ State.reset with admin := [(tffBase + 0x500, 0x100000), (tffBase + 0x508, 2)], noVf := false, cores := [(0, { gangMask := 3 }), (1, { gangMask := 3 })], ctxs := [(4096, { life := .live, gang := true, item := some (1, 0), window := 4, wait := some .fault, fault := some { cause := 4, va := 0, kind := 0, level := 0, pte := 0 } }), (4097, { life := .live, gang := true, item := some (1, 0), window := 4 })] } : State).mem = true ∧ (match ({ State.reset with admin := [(tffBase + 0x500, 0x100000), (tffBase + 0x508, 2)], noVf := false, saved := [{ frame := 0x100000, id := 4096, core := 0, vf := 0, kind := 0, ctx := { hnum := 1 }, gang := some (0x100000, 3), resumed := true, redo := [] }, { frame := 0x110000, id := 4097, core := 1, vf := 0, kind := 0, ctx := { hnum := 1 }, gang := some (0x100000, 3), resumed := true, redo := [] }] } : State).saved.find? (fun f => f.frame == 0x100000) with
  | some f => (({ State.reset with admin := [(tffBase + 0x500, 0x100000), (tffBase + 0x508, 2)], noVf := false, saved := [{ frame := 0x100000, id := 4096, core := 0, vf := 0, kind := 0, ctx := { hnum := 1 }, gang := some (0x100000, 3), resumed := true, redo := [] }, { frame := 0x110000, id := 4097, core := 1, vf := 0, kind := 0, ctx := { hnum := 1 }, gang := some (0x100000, 3), resumed := true, redo := [] }] } : State).savedGang f).all ({ State.reset with admin := [(tffBase + 0x500, 0x100000), (tffBase + 0x508, 2)], noVf := false, saved := [{ frame := 0x100000, id := 4096, core := 0, vf := 0, kind := 0, ctx := { hnum := 1 }, gang := some (0x100000, 3), resumed := true, redo := [] }, { frame := 0x110000, id := 4097, core := 1, vf := 0, kind := 0, ctx := { hnum := 1 }, gang := some (0x100000, 3), resumed := true, redo := [] }] } : State).mayPlace && f.gang == some (0x100000, 3) && ((({ State.reset with admin := [(tffBase + 0x500, 0x100000), (tffBase + 0x508, 2)], noVf := false, saved := [{ frame := 0x100000, id := 4096, core := 0, vf := 0, kind := 0, ctx := { hnum := 1 }, gang := some (0x100000, 3), resumed := true, redo := [] }, { frame := 0x110000, id := 4097, core := 1, vf := 0, kind := 0, ctx := { hnum := 1 }, gang := some (0x100000, 3), resumed := true, redo := [] }] } : State).savedGang f).map (·.core)) == [0, 1]
  | none => false) = true ∧ (({ State.reset with admin := [(tffBase + 0x500, 0x100000), (tffBase + 0x508, 2)], noVf := false, saved := [{ frame := 0x100000, id := 4096, core := 0, vf := 0, kind := 0, ctx := { hnum := 1 }, gang := some (0x100000, 3), resumed := false, redo := [] }, { frame := 0x110000, id := 4097, core := 1, vf := 0, kind := 0, ctx := { hnum := 1 }, gang := some (0x100000, 3), resumed := false, redo := [] }] } : State).framed 0x100001).isSome = true := by decide +kernel
theorem witness_LaunchEvents : State.reset.launch? 1 = none ∧ ({ State.reset with launches := [({ ({ handle := 1, core := 0, vf := 0, asid := 0, priv := false, phase := 0, entry := 0, widths := [4, 0, 0, 0, 0, 0], extents := [9, 0, 0, 0, 0, 0], clevel := 0, plevel := 0, prio := 0, gang := false, args := 0, bitmap := 0, producer := 0, shift := 0, mode := 0, window := 0, claim := 0, split := 0, setSize := 1, minChunk := 1, gangLen := 0, st := .active, bitAddr := 0, zeroed := false, dies := [], pending := [], placed := [], finished := [], pushed := [], bits := [], running := 0, failed := false, failCode := 0, failWid := none, depFail := false, discarded := [], endedAt := 0, eff := 0, regions := [] } : Launch) with st := .queued } : Launch)] } : State).launch? 1 = some ({ ({ handle := 1, core := 0, vf := 0, asid := 0, priv := false, phase := 0, entry := 0, widths := [4, 0, 0, 0, 0, 0], extents := [9, 0, 0, 0, 0, 0], clevel := 0, plevel := 0, prio := 0, gang := false, args := 0, bitmap := 0, producer := 0, shift := 0, mode := 0, window := 0, claim := 0, split := 0, setSize := 1, minChunk := 1, gangLen := 0, st := .active, bitAddr := 0, zeroed := false, dies := [], pending := [], placed := [], finished := [], pushed := [], bits := [], running := 0, failed := false, failCode := 0, failWid := none, depFail := false, discarded := [], endedAt := 0, eff := 0, regions := [] } : Launch) with st := .queued } : Launch) ∧ ({ State.reset with launches := [({ ({ handle := 1, core := 0, vf := 0, asid := 0, priv := false, phase := 0, entry := 0, widths := [4, 0, 0, 0, 0, 0], extents := [9, 0, 0, 0, 0, 0], clevel := 0, plevel := 0, prio := 0, gang := false, args := 0, bitmap := 0, producer := 0, shift := 0, mode := 0, window := 0, claim := 0, split := 0, setSize := 1, minChunk := 1, gangLen := 0, st := .active, bitAddr := 0, zeroed := false, dies := [], pending := [], placed := [], finished := [], pushed := [], bits := [], running := 0, failed := false, failCode := 0, failWid := none, depFail := false, discarded := [], endedAt := 0, eff := 0, regions := [] } : Launch) with st := .queued } : Launch)] } : State).depMet ({ ({ handle := 1, core := 0, vf := 0, asid := 0, priv := false, phase := 0, entry := 0, widths := [4, 0, 0, 0, 0, 0], extents := [9, 0, 0, 0, 0, 0], clevel := 0, plevel := 0, prio := 0, gang := false, args := 0, bitmap := 0, producer := 0, shift := 0, mode := 0, window := 0, claim := 0, split := 0, setSize := 1, minChunk := 1, gangLen := 0, st := .active, bitAddr := 0, zeroed := false, dies := [], pending := [], placed := [], finished := [], pushed := [], bits := [], running := 0, failed := false, failCode := 0, failWid := none, depFail := false, discarded := [], endedAt := 0, eff := 0, regions := [] } : Launch) with st := .queued } : Launch) = true ∧ ({ State.reset with launches := [({ ({ handle := 1, core := 0, vf := 0, asid := 0, priv := false, phase := 0, entry := 0, widths := [4, 0, 0, 0, 0, 0], extents := [9, 0, 0, 0, 0, 0], clevel := 0, plevel := 0, prio := 0, gang := false, args := 0, bitmap := 0, producer := 0, shift := 0, mode := 0, window := 0, claim := 0, split := 0, setSize := 1, minChunk := 1, gangLen := 0, st := .active, bitAddr := 0, zeroed := false, dies := [], pending := [], placed := [], finished := [], pushed := [], bits := [], running := 0, failed := false, failCode := 0, failWid := none, depFail := false, discarded := [], endedAt := 0, eff := 0, regions := [] } : Launch) with st := .queued } : Launch)] } : State).depFails ({ ({ handle := 1, core := 0, vf := 0, asid := 0, priv := false, phase := 0, entry := 0, widths := [4, 0, 0, 0, 0, 0], extents := [9, 0, 0, 0, 0, 0], clevel := 0, plevel := 0, prio := 0, gang := false, args := 0, bitmap := 0, producer := 0, shift := 0, mode := 0, window := 0, claim := 0, split := 0, setSize := 1, minChunk := 1, gangLen := 0, st := .active, bitAddr := 0, zeroed := false, dies := [], pending := [], placed := [], finished := [], pushed := [], bits := [], running := 0, failed := false, failCode := 0, failWid := none, depFail := false, discarded := [], endedAt := 0, eff := 0, regions := [] } : Launch) with st := .queued, mode := 2 } : Launch) = true ∧ ({ State.reset with launches := [({ ({ handle := 1, core := 0, vf := 0, asid := 0, priv := false, phase := 0, entry := 0, widths := [4, 0, 0, 0, 0, 0], extents := [9, 0, 0, 0, 0, 0], clevel := 0, plevel := 0, prio := 0, gang := false, args := 0, bitmap := 0, producer := 0, shift := 0, mode := 0, window := 0, claim := 0, split := 0, setSize := 1, minChunk := 1, gangLen := 0, st := .active, bitAddr := 0, zeroed := false, dies := [], pending := [], placed := [], finished := [], pushed := [], bits := [], running := 0, failed := false, failCode := 0, failWid := none, depFail := false, discarded := [], endedAt := 0, eff := 0, regions := [] } : Launch) with st := .queued } : Launch)] } : State).depMet ({ ({ handle := 1, core := 0, vf := 0, asid := 0, priv := false, phase := 0, entry := 0, widths := [4, 0, 0, 0, 0, 0], extents := [9, 0, 0, 0, 0, 0], clevel := 0, plevel := 0, prio := 0, gang := false, args := 0, bitmap := 0, producer := 0, shift := 0, mode := 0, window := 0, claim := 0, split := 0, setSize := 1, minChunk := 1, gangLen := 0, st := .active, bitAddr := 0, zeroed := false, dies := [], pending := [], placed := [], finished := [], pushed := [], bits := [], running := 0, failed := false, failCode := 0, failWid := none, depFail := false, discarded := [], endedAt := 0, eff := 0, regions := [] } : Launch) with st := .queued, mode := 2 } : Launch) = false ∧ ({ State.reset with launches := [({ ({ handle := 1, core := 0, vf := 0, asid := 0, priv := false, phase := 0, entry := 0, widths := [4, 0, 0, 0, 0, 0], extents := [9, 0, 0, 0, 0, 0], clevel := 0, plevel := 0, prio := 0, gang := false, args := 0, bitmap := 0, producer := 0, shift := 0, mode := 0, window := 0, claim := 0, split := 0, setSize := 1, minChunk := 1, gangLen := 0, st := .active, bitAddr := 0, zeroed := false, dies := [], pending := [], placed := [], finished := [], pushed := [], bits := [], running := 0, failed := false, failCode := 0, failWid := none, depFail := false, discarded := [], endedAt := 0, eff := 0, regions := [] } : Launch) with st := .draining } : Launch)] } : State).isDrained ({ ({ handle := 1, core := 0, vf := 0, asid := 0, priv := false, phase := 0, entry := 0, widths := [4, 0, 0, 0, 0, 0], extents := [9, 0, 0, 0, 0, 0], clevel := 0, plevel := 0, prio := 0, gang := false, args := 0, bitmap := 0, producer := 0, shift := 0, mode := 0, window := 0, claim := 0, split := 0, setSize := 1, minChunk := 1, gangLen := 0, st := .active, bitAddr := 0, zeroed := false, dies := [], pending := [], placed := [], finished := [], pushed := [], bits := [], running := 0, failed := false, failCode := 0, failWid := none, depFail := false, discarded := [], endedAt := 0, eff := 0, regions := [] } : Launch) with st := .draining } : Launch) = true ∧ ({ State.reset with launches := [({ ({ handle := 1, core := 0, vf := 0, asid := 0, priv := false, phase := 0, entry := 0, widths := [4, 0, 0, 0, 0, 0], extents := [9, 0, 0, 0, 0, 0], clevel := 0, plevel := 0, prio := 0, gang := false, args := 0, bitmap := 0, producer := 0, shift := 0, mode := 0, window := 0, claim := 0, split := 0, setSize := 1, minChunk := 1, gangLen := 0, st := .active, bitAddr := 0, zeroed := false, dies := [], pending := [], placed := [], finished := [], pushed := [], bits := [], running := 0, failed := false, failCode := 0, failWid := none, depFail := false, discarded := [], endedAt := 0, eff := 0, regions := [] } : Launch) with st := .queued } : Launch)] } : State).isDrained ({ ({ handle := 1, core := 0, vf := 0, asid := 0, priv := false, phase := 0, entry := 0, widths := [4, 0, 0, 0, 0, 0], extents := [9, 0, 0, 0, 0, 0], clevel := 0, plevel := 0, prio := 0, gang := false, args := 0, bitmap := 0, producer := 0, shift := 0, mode := 0, window := 0, claim := 0, split := 0, setSize := 1, minChunk := 1, gangLen := 0, st := .active, bitAddr := 0, zeroed := false, dies := [], pending := [], placed := [], finished := [], pushed := [], bits := [], running := 0, failed := false, failCode := 0, failWid := none, depFail := false, discarded := [], endedAt := 0, eff := 0, regions := [] } : Launch) with st := .queued } : Launch) = false ∧ 0 + 1000000 < ({ ({ State.reset with launches := [({ ({ handle := 1, core := 0, vf := 0, asid := 0, priv := false, phase := 0, entry := 0, widths := [4, 0, 0, 0, 0, 0], extents := [9, 0, 0, 0, 0, 0], clevel := 0, plevel := 0, prio := 0, gang := false, args := 0, bitmap := 0, producer := 0, shift := 0, mode := 0, window := 0, claim := 0, split := 0, setSize := 1, minChunk := 1, gangLen := 0, st := .active, bitAddr := 0, zeroed := false, dies := [], pending := [], placed := [], finished := [], pushed := [], bits := [], running := 0, failed := false, failCode := 0, failWid := none, depFail := false, discarded := [], endedAt := 0, eff := 0, regions := [] } : Launch) with st := .ended } : Launch)] } : State) with ptp := 1000001 } : State).ptp := by decide +kernel
theorem witness_LaunchEvents_groups : (({ ({ handle := 1, core := 0, vf := 0, asid := 0, priv := false, phase := 0, entry := 0, widths := [4, 0, 0, 0, 0, 0], extents := [9, 0, 0, 0, 0, 0], clevel := 0, plevel := 0, prio := 0, gang := false, args := 0, bitmap := 0, producer := 0, shift := 0, mode := 0, window := 0, claim := 0, split := 0, setSize := 1, minChunk := 1, gangLen := 0, st := .active, bitAddr := 0, zeroed := false, dies := [], pending := [], placed := [], finished := [], pushed := [], bits := [], running := 0, failed := false, failCode := 0, failWid := none, depFail := false, discarded := [], endedAt := 0, eff := 0, regions := [] } : Launch) with finished := [(0, 9)] } : Launch) : Launch).completes 0 = true ∧ 0 < (({ ({ handle := 1, core := 0, vf := 0, asid := 0, priv := false, phase := 0, entry := 0, widths := [4, 0, 0, 0, 0, 0], extents := [9, 0, 0, 0, 0, 0], clevel := 0, plevel := 0, prio := 0, gang := false, args := 0, bitmap := 0, producer := 0, shift := 0, mode := 0, window := 0, claim := 0, split := 0, setSize := 1, minChunk := 1, gangLen := 0, st := .active, bitAddr := 0, zeroed := false, dies := [], pending := [], placed := [], finished := [], pushed := [], bits := [], running := 0, failed := false, failCode := 0, failWid := none, depFail := false, discarded := [], endedAt := 0, eff := 0, regions := [] } : Launch) with finished := [(0, 9)] } : Launch) : Launch).groups (({ ({ handle := 1, core := 0, vf := 0, asid := 0, priv := false, phase := 0, entry := 0, widths := [4, 0, 0, 0, 0, 0], extents := [9, 0, 0, 0, 0, 0], clevel := 0, plevel := 0, prio := 0, gang := false, args := 0, bitmap := 0, producer := 0, shift := 0, mode := 0, window := 0, claim := 0, split := 0, setSize := 1, minChunk := 1, gangLen := 0, st := .active, bitAddr := 0, zeroed := false, dies := [], pending := [], placed := [], finished := [], pushed := [], bits := [], running := 0, failed := false, failCode := 0, failWid := none, depFail := false, discarded := [], endedAt := 0, eff := 0, regions := [] } : Launch) with finished := [(0, 9)] } : Launch) : Launch).clevel ∧ ({ handle := 1, core := 0, vf := 0, asid := 0, priv := false, phase := 0, entry := 0, widths := [4, 0, 0, 0, 0, 0], extents := [9, 0, 0, 0, 0, 0], clevel := 0, plevel := 0, prio := 0, gang := false, args := 0, bitmap := 0, producer := 0, shift := 0, mode := 0, window := 0, claim := 0, split := 0, setSize := 1, minChunk := 1, gangLen := 0, st := .active, bitAddr := 0, zeroed := false, dies := [], pending := [], placed := [], finished := [], pushed := [], bits := [], running := 0, failed := false, failCode := 0, failWid := none, depFail := false, discarded := [], endedAt := 0, eff := 0, regions := [] } : Launch).completes 0 = false ∧ (({ ({ handle := 1, core := 0, vf := 0, asid := 0, priv := false, phase := 0, entry := 0, widths := [4, 0, 0, 0, 0, 0], extents := [9, 0, 0, 0, 0, 0], clevel := 0, plevel := 0, prio := 0, gang := false, args := 0, bitmap := 0, producer := 0, shift := 0, mode := 0, window := 0, claim := 0, split := 0, setSize := 1, minChunk := 1, gangLen := 0, st := .active, bitAddr := 0, zeroed := false, dies := [], pending := [], placed := [], finished := [], pushed := [], bits := [], running := 0, failed := false, failCode := 0, failWid := none, depFail := false, discarded := [], endedAt := 0, eff := 0, regions := [] } : Launch) with finished := [(0, 9)] } : Launch) : Launch).bitmap = 0 ∧ ({ ({ handle := 1, core := 0, vf := 0, asid := 0, priv := false, phase := 0, entry := 0, widths := [4, 0, 0, 0, 0, 0], extents := [9, 0, 0, 0, 0, 0], clevel := 0, plevel := 0, prio := 0, gang := false, args := 0, bitmap := 0, producer := 0, shift := 0, mode := 0, window := 0, claim := 0, split := 0, setSize := 1, minChunk := 1, gangLen := 0, st := .active, bitAddr := 0, zeroed := false, dies := [], pending := [], placed := [], finished := [], pushed := [], bits := [], running := 0, failed := false, failCode := 0, failWid := none, depFail := false, discarded := [], endedAt := 0, eff := 0, regions := [] } : Launch) with bitmap := 8 } : Launch).bitmap ≠ 0 := by decide +kernel
theorem witness_LaunchEvents_chunk : (({ State.reset with launches := [{ handle := 1, core := 0, vf := 0, asid := 0, priv := false, phase := 0, entry := 0, widths := [4, 0, 0, 0, 0, 0], extents := [9, 0, 0, 0, 0, 0], clevel := 0, plevel := 0, prio := 0, gang := false, args := 0, bitmap := 0, producer := 0, shift := 0, mode := 0, window := 0, claim := 0, split := 0, setSize := 1, minChunk := 1, gangLen := 0, st := .active, bitAddr := 0, zeroed := false, dies := [], pending := [], placed := [{ group := 0, die := 0, clusters := [0], next := 0, stop := 9 }], finished := [], pushed := [], bits := [], running := 0, failed := false, failCode := 0, failWid := none, depFail := false, discarded := [], endedAt := 0, eff := 0, regions := [] }], clusters := [(0, { held := some (1, 0), serving := true })], dies := [(0, { requests := [(0, 0, 1)] })], cycle := 1 } : State).die 0).requests = (0, 0, 1) :: [] ∧ 0 < ({ State.reset with launches := [{ handle := 1, core := 0, vf := 0, asid := 0, priv := false, phase := 0, entry := 0, widths := [4, 0, 0, 0, 0, 0], extents := [9, 0, 0, 0, 0, 0], clevel := 0, plevel := 0, prio := 0, gang := false, args := 0, bitmap := 0, producer := 0, shift := 0, mode := 0, window := 0, claim := 0, split := 0, setSize := 1, minChunk := 1, gangLen := 0, st := .active, bitAddr := 0, zeroed := false, dies := [], pending := [], placed := [{ group := 0, die := 0, clusters := [0], next := 0, stop := 9 }], finished := [], pushed := [], bits := [], running := 0, failed := false, failCode := 0, failWid := none, depFail := false, discarded := [], endedAt := 0, eff := 0, regions := [] }], clusters := [(0, { held := some (1, 0), serving := true })], dies := [(0, { requests := [(0, 0, 1)] })], cycle := 1 } : State).cycle ∧ (∀ k ∈ servingCores { handle := 1, core := 0, vf := 0, asid := 0, priv := false, phase := 0, entry := 0, widths := [4, 0, 0, 0, 0, 0], extents := [9, 0, 0, 0, 0, 0], clevel := 0, plevel := 0, prio := 0, gang := false, args := 0, bitmap := 0, producer := 0, shift := 0, mode := 0, window := 0, claim := 0, split := 0, setSize := 1, minChunk := 1, gangLen := 0, st := .active, bitAddr := 0, zeroed := false, dies := [], pending := [], placed := [{ group := 0, die := 0, clusters := [0], next := 0, stop := 9 }], finished := [], pushed := [], bits := [], running := 0, failed := false, failCode := 0, failWid := none, depFail := false, discarded := [], endedAt := 0, eff := 0, regions := [] } 0, (({ State.reset with launches := [{ handle := 1, core := 0, vf := 0, asid := 0, priv := false, phase := 0, entry := 0, widths := [4, 0, 0, 0, 0, 0], extents := [9, 0, 0, 0, 0, 0], clevel := 0, plevel := 0, prio := 0, gang := false, args := 0, bitmap := 0, producer := 0, shift := 0, mode := 0, window := 0, claim := 0, split := 0, setSize := 1, minChunk := 1, gangLen := 0, st := .active, bitAddr := 0, zeroed := false, dies := [], pending := [], placed := [{ group := 0, die := 0, clusters := [0], next := 0, stop := 9 }], finished := [], pushed := [], bits := [], running := 0, failed := false, failCode := 0, failWid := none, depFail := false, discarded := [], endedAt := 0, eff := 0, regions := [] }], clusters := [(0, { held := some (1, 0), serving := true })], dies := [(0, { requests := [(0, 0, 1)] })], cycle := 1 } : State).core k).workq.length < 16) ∧ (({ State.reset with launches := [{ handle := 1, core := 0, vf := 0, asid := 0, priv := false, phase := 0, entry := 0, widths := [4, 0, 0, 0, 0, 0], extents := [9, 0, 0, 0, 0, 0], clevel := 0, plevel := 0, prio := 0, gang := false, args := 0, bitmap := 0, producer := 0, shift := 0, mode := 0, window := 0, claim := 0, split := 0, setSize := 1, minChunk := 1, gangLen := 0, st := .active, bitAddr := 0, zeroed := false, dies := [], pending := [], placed := [{ group := 0, die := 0, clusters := [0], next := 0, stop := 9 }], finished := [], pushed := [], bits := [], running := 0, failed := false, failCode := 0, failWid := none, depFail := false, discarded := [], endedAt := 0, eff := 0, regions := [] }], clusters := [(0, { held := some (1, 0), serving := true })], dies := [(0, { requests := [(0, 0, 1)] })], cycle := 1 } : State).servedBy { handle := 1, core := 0, vf := 0, asid := 0, priv := false, phase := 0, entry := 0, widths := [4, 0, 0, 0, 0, 0], extents := [9, 0, 0, 0, 0, 0], clevel := 0, plevel := 0, prio := 0, gang := false, args := 0, bitmap := 0, producer := 0, shift := 0, mode := 0, window := 0, claim := 0, split := 0, setSize := 1, minChunk := 1, gangLen := 0, st := .active, bitAddr := 0, zeroed := false, dies := [], pending := [], placed := [{ group := 0, die := 0, clusters := [0], next := 0, stop := 9 }], finished := [], pushed := [], bits := [], running := 0, failed := false, failCode := 0, failWid := none, depFail := false, discarded := [], endedAt := 0, eff := 0, regions := [] } 0).isSome = true ∧ ({ State.reset with launches := [{ handle := 1, core := 0, vf := 0, asid := 0, priv := false, phase := 0, entry := 0, widths := [4, 0, 0, 0, 0, 0], extents := [9, 0, 0, 0, 0, 0], clevel := 0, plevel := 0, prio := 0, gang := false, args := 0, bitmap := 0, producer := 0, shift := 0, mode := 0, window := 0, claim := 0, split := 0, setSize := 1, minChunk := 1, gangLen := 0, st := .active, bitAddr := 0, zeroed := false, dies := [], pending := [], placed := [{ group := 0, die := 0, clusters := [0], next := 0, stop := 9 }], finished := [], pushed := [], bits := [], running := 0, failed := false, failCode := 0, failWid := none, depFail := false, discarded := [], endedAt := 0, eff := 0, regions := [] }], clusters := [(0, { held := some (1, 0), serving := true })], dies := [(0, { requests := [(0, 0, 1)] })], cycle := 1 } : State).servedBy { handle := 1, core := 0, vf := 0, asid := 0, priv := false, phase := 0, entry := 0, widths := [4, 0, 0, 0, 0, 0], extents := [9, 0, 0, 0, 0, 0], clevel := 0, plevel := 0, prio := 0, gang := false, args := 0, bitmap := 0, producer := 0, shift := 0, mode := 0, window := 0, claim := 0, split := 0, setSize := 1, minChunk := 1, gangLen := 0, st := .active, bitAddr := 0, zeroed := false, dies := [], pending := [], placed := [{ group := 0, die := 0, clusters := [0], next := 0, stop := 9 }], finished := [], pushed := [], bits := [], running := 0, failed := false, failCode := 0, failWid := none, depFail := false, discarded := [], endedAt := 0, eff := 0, regions := [] } 1 = none ∧ ({ State.reset with launches := [{ handle := 1, core := 0, vf := 0, asid := 0, priv := false, phase := 0, entry := 0, widths := [4, 0, 0, 0, 0, 0], extents := [9, 0, 0, 0, 0, 0], clevel := 0, plevel := 0, prio := 0, gang := false, args := 0, bitmap := 0, producer := 0, shift := 0, mode := 0, window := 0, claim := 0, split := 0, setSize := 1, minChunk := 1, gangLen := 0, st := .active, bitAddr := 0, zeroed := false, dies := [], pending := [], placed := [{ group := 0, die := 0, clusters := [0], next := 0, stop := 9 }], finished := [], pushed := [], bits := [], running := 0, failed := false, failCode := 0, failWid := none, depFail := false, discarded := [], endedAt := 0, eff := 0, regions := [] }], clusters := [(0, { held := some (1, 0), serving := true })], dies := [(0, { requests := [(0, 0, 1)] })], cycle := 1 } : State).replaying = false ∧ ({ State.reset with launches := [{ handle := 1, core := 0, vf := 0, asid := 0, priv := false, phase := 0, entry := 0, widths := [4, 0, 0, 0, 0, 0], extents := [9, 0, 0, 0, 0, 0], clevel := 0, plevel := 0, prio := 0, gang := false, args := 0, bitmap := 0, producer := 0, shift := 0, mode := 0, window := 0, claim := 0, split := 0, setSize := 1, minChunk := 1, gangLen := 0, st := .active, bitAddr := 0, zeroed := false, dies := [], pending := [], placed := [{ group := 0, die := 0, clusters := [0], next := 0, stop := 9 }], finished := [], pushed := [], bits := [], running := 0, failed := false, failCode := 0, failWid := none, depFail := false, discarded := [], endedAt := 0, eff := 0, regions := [] }], clusters := [(0, { held := some (1, 0), serving := true })], dies := [(0, { requests := [(0, 0, 1)] })], cycle := 1 } : State).serversOn 0 { handle := 1, core := 0, vf := 0, asid := 0, priv := false, phase := 0, entry := 0, widths := [4, 0, 0, 0, 0, 0], extents := [9, 0, 0, 0, 0, 0], clevel := 0, plevel := 0, prio := 0, gang := false, args := 0, bitmap := 0, producer := 0, shift := 0, mode := 0, window := 0, claim := 0, split := 0, setSize := 1, minChunk := 1, gangLen := 0, st := .active, bitAddr := 0, zeroed := false, dies := [], pending := [], placed := [{ group := 0, die := 0, clusters := [0], next := 0, stop := 9 }], finished := [], pushed := [], bits := [], running := 0, failed := false, failCode := 0, failWid := none, depFail := false, discarded := [], endedAt := 0, eff := 0, regions := [] } = 1 ∧ 0 < min (9 - 0) (max 1 ((9 - 0 + 2 * 1 - 1) / (2 * 1))) ∧ ({ State.reset with launches := [{ handle := 1, core := 0, vf := 0, asid := 0, priv := false, phase := 0, entry := 0, widths := [4, 0, 0, 0, 0, 0], extents := [9, 0, 0, 0, 0, 0], clevel := 0, plevel := 0, prio := 0, gang := false, args := 0, bitmap := 0, producer := 0, shift := 0, mode := 0, window := 0, claim := 0, split := 0, setSize := 1, minChunk := 1, gangLen := 0, st := .active, bitAddr := 0, zeroed := false, dies := [], pending := [], placed := [{ group := 0, die := 0, clusters := [0], next := 0, stop := 9 }], finished := [], pushed := [], bits := [], running := 0, failed := false, failCode := 0, failWid := none, depFail := false, discarded := [], endedAt := 0, eff := 0, regions := [] }], clusters := [(0, { held := some (1, 0), serving := true })], dies := [(0, { requests := [(0, 0, 1)] })], cycle := 1 } : State).wantsChunk 0 { handle := 1, core := 0, vf := 0, asid := 0, priv := false, phase := 0, entry := 0, widths := [4, 0, 0, 0, 0, 0], extents := [9, 0, 0, 0, 0, 0], clevel := 0, plevel := 0, prio := 0, gang := false, args := 0, bitmap := 0, producer := 0, shift := 0, mode := 0, window := 0, claim := 0, split := 0, setSize := 1, minChunk := 1, gangLen := 0, st := .active, bitAddr := 0, zeroed := false, dies := [], pending := [], placed := [{ group := 0, die := 0, clusters := [0], next := 0, stop := 9 }], finished := [], pushed := [], bits := [], running := 0, failed := false, failCode := 0, failWid := none, depFail := false, discarded := [], endedAt := 0, eff := 0, regions := [] } = false ∧ (State.reset.die 0).requests = [] ∧ ({ State.reset with launches := [{ handle := 1, core := 0, vf := 0, asid := 0, priv := false, phase := 0, entry := 0, widths := [4, 0, 0, 0, 0, 0], extents := [9, 0, 0, 0, 0, 0], clevel := 0, plevel := 0, prio := 0, gang := false, args := 0, bitmap := 0, producer := 0, shift := 0, mode := 0, window := 0, claim := 0, split := 0, setSize := 1, minChunk := 1, gangLen := 0, st := .active, bitAddr := 0, zeroed := false, dies := [], pending := [], placed := [{ group := 0, die := 0, clusters := [0], next := 0, stop := 9 }], finished := [], pushed := [], bits := [], running := 0, failed := false, failCode := 0, failWid := none, depFail := false, discarded := [], endedAt := 0, eff := 0, regions := [] }], clusters := [(0, { held := some (1, 0) })] } : State).wantsChunk 0 { handle := 1, core := 0, vf := 0, asid := 0, priv := false, phase := 0, entry := 0, widths := [4, 0, 0, 0, 0, 0], extents := [9, 0, 0, 0, 0, 0], clevel := 0, plevel := 0, prio := 0, gang := false, args := 0, bitmap := 0, producer := 0, shift := 0, mode := 0, window := 0, claim := 0, split := 0, setSize := 1, minChunk := 1, gangLen := 0, st := .active, bitAddr := 0, zeroed := false, dies := [], pending := [], placed := [{ group := 0, die := 0, clusters := [0], next := 0, stop := 9 }], finished := [], pushed := [], bits := [], running := 0, failed := false, failCode := 0, failWid := none, depFail := false, discarded := [], endedAt := 0, eff := 0, regions := [] } = true := by decide +kernel
theorem witness_LaunchEvents_raise : ((({ State.reset with launches := [({ ({ handle := 1, core := 0, vf := 0, asid := 0, priv := false, phase := 0, entry := 0, widths := [4, 0, 0, 0, 0, 0], extents := [9, 0, 0, 0, 0, 0], clevel := 0, plevel := 0, prio := 0, gang := false, args := 0, bitmap := 0, producer := 0, shift := 0, mode := 0, window := 0, claim := 0, split := 0, setSize := 1, minChunk := 1, gangLen := 0, st := .active, bitAddr := 0, zeroed := false, dies := [], pending := [], placed := [], finished := [], pushed := [], bits := [], running := 0, failed := false, failCode := 0, failWid := none, depFail := false, discarded := [], endedAt := 0, eff := 0, regions := [] } : Launch) with handle := 2, mode := 1, producer := 1, prio := 3, st := .queued } : Launch), { handle := 1, core := 0, vf := 0, asid := 0, priv := false, phase := 0, entry := 0, widths := [4, 0, 0, 0, 0, 0], extents := [9, 0, 0, 0, 0, 0], clevel := 0, plevel := 0, prio := 0, gang := false, args := 0, bitmap := 0, producer := 0, shift := 0, mode := 0, window := 0, claim := 0, split := 0, setSize := 1, minChunk := 1, gangLen := 0, st := .active, bitAddr := 0, zeroed := false, dies := [], pending := [], placed := [], finished := [], pushed := [], bits := [], running := 0, failed := false, failCode := 0, failWid := none, depFail := false, discarded := [], endedAt := 0, eff := 0, regions := [] }] } : State).chain 8 ({ ({ handle := 1, core := 0, vf := 0, asid := 0, priv := false, phase := 0, entry := 0, widths := [4, 0, 0, 0, 0, 0], extents := [9, 0, 0, 0, 0, 0], clevel := 0, plevel := 0, prio := 0, gang := false, args := 0, bitmap := 0, producer := 0, shift := 0, mode := 0, window := 0, claim := 0, split := 0, setSize := 1, minChunk := 1, gangLen := 0, st := .active, bitAddr := 0, zeroed := false, dies := [], pending := [], placed := [], finished := [], pushed := [], bits := [], running := 0, failed := false, failCode := 0, failWid := none, depFail := false, discarded := [], endedAt := 0, eff := 0, regions := [] } : Launch) with handle := 2, mode := 1, producer := 1, prio := 3, st := .queued } : Launch)).filter fun k => (({ State.reset with launches := [({ ({ handle := 1, core := 0, vf := 0, asid := 0, priv := false, phase := 0, entry := 0, widths := [4, 0, 0, 0, 0, 0], extents := [9, 0, 0, 0, 0, 0], clevel := 0, plevel := 0, prio := 0, gang := false, args := 0, bitmap := 0, producer := 0, shift := 0, mode := 0, window := 0, claim := 0, split := 0, setSize := 1, minChunk := 1, gangLen := 0, st := .active, bitAddr := 0, zeroed := false, dies := [], pending := [], placed := [], finished := [], pushed := [], bits := [], running := 0, failed := false, failCode := 0, failWid := none, depFail := false, discarded := [], endedAt := 0, eff := 0, regions := [] } : Launch) with handle := 2, mode := 1, producer := 1, prio := 3, st := .queued } : Launch), { handle := 1, core := 0, vf := 0, asid := 0, priv := false, phase := 0, entry := 0, widths := [4, 0, 0, 0, 0, 0], extents := [9, 0, 0, 0, 0, 0], clevel := 0, plevel := 0, prio := 0, gang := false, args := 0, bitmap := 0, producer := 0, shift := 0, mode := 0, window := 0, claim := 0, split := 0, setSize := 1, minChunk := 1, gangLen := 0, st := .active, bitAddr := 0, zeroed := false, dies := [], pending := [], placed := [], finished := [], pushed := [], bits := [], running := 0, failed := false, failCode := 0, failWid := none, depFail := false, discarded := [], endedAt := 0, eff := 0, regions := [] }] } : State).launch? k).any fun p => decide (p.eff < 3)) = [1] := by decide +kernel
theorem witness_LaunchEvents_page : (match (plainTables.foldl (fun (s : State) p => s.write64 p.1 p.2) ((State.reset.setReg tffBase 0x10000).setReg (tffBase + 8) 1)).translate 0 0 0 false 0x400000008 accStore with
  | (_, .ok _) => false
  | _ => true) = true ∧ (match (plainTables.foldl (fun (s : State) p => s.write64 p.1 p.2) ((State.reset.setReg tffBase 0x10000).setReg (tffBase + 8) 1)).translate 0 0 0 false 8 accStore with
  | (_, .ok _) => true
  | _ => false) = true := by decide +kernel
theorem witness_SchedulerEvents : (winner (State.reset.waitingLaunches.filter fun l => (State.reset.grantable 0 l).isSome)) = none ∧ (winner (({ State.reset with launches := [({ ({ handle := 1, core := 0, vf := 0, asid := 0, priv := false, phase := 0, entry := 0, widths := [4, 0, 0, 0, 0, 0], extents := [9, 0, 0, 0, 0, 0], clevel := 0, plevel := 0, prio := 0, gang := false, args := 0, bitmap := 0, producer := 0, shift := 0, mode := 0, window := 0, claim := 0, split := 0, setSize := 1, minChunk := 1, gangLen := 0, st := .active, bitAddr := 0, zeroed := false, dies := [], pending := [], placed := [], finished := [], pushed := [], bits := [], running := 0, failed := false, failCode := 0, failWid := none, depFail := false, discarded := [], endedAt := 0, eff := 0, regions := [] } : Launch) with st := .ready, dies := [0], pending := [(0, 0, 9)] } : Launch)], clusters := [(0, { serving := true })], noVf := false } : State).waitingLaunches.filter fun l => (({ State.reset with launches := [({ ({ handle := 1, core := 0, vf := 0, asid := 0, priv := false, phase := 0, entry := 0, widths := [4, 0, 0, 0, 0, 0], extents := [9, 0, 0, 0, 0, 0], clevel := 0, plevel := 0, prio := 0, gang := false, args := 0, bitmap := 0, producer := 0, shift := 0, mode := 0, window := 0, claim := 0, split := 0, setSize := 1, minChunk := 1, gangLen := 0, st := .active, bitAddr := 0, zeroed := false, dies := [], pending := [], placed := [], finished := [], pushed := [], bits := [], running := 0, failed := false, failCode := 0, failWid := none, depFail := false, discarded := [], endedAt := 0, eff := 0, regions := [] } : Launch) with st := .ready, dies := [0], pending := [(0, 0, 9)] } : Launch)], clusters := [(0, { serving := true })], noVf := false } : State).grantable 0 l).isSome)).isSome = true ∧ (({ State.reset with launches := [({ ({ handle := 1, core := 0, vf := 0, asid := 0, priv := false, phase := 0, entry := 0, widths := [4, 0, 0, 0, 0, 0], extents := [9, 0, 0, 0, 0, 0], clevel := 0, plevel := 0, prio := 0, gang := false, args := 0, bitmap := 0, producer := 0, shift := 0, mode := 0, window := 0, claim := 0, split := 0, setSize := 1, minChunk := 1, gangLen := 0, st := .active, bitAddr := 0, zeroed := false, dies := [], pending := [], placed := [], finished := [], pushed := [], bits := [], running := 0, failed := false, failCode := 0, failWid := none, depFail := false, discarded := [], endedAt := 0, eff := 0, regions := [] } : Launch) with st := .ready, dies := [0], pending := [(0, 0, 9)] } : Launch)], clusters := [(0, { serving := true })], noVf := false } : State).grantable 0 ({ ({ handle := 1, core := 0, vf := 0, asid := 0, priv := false, phase := 0, entry := 0, widths := [4, 0, 0, 0, 0, 0], extents := [9, 0, 0, 0, 0, 0], clevel := 0, plevel := 0, prio := 0, gang := false, args := 0, bitmap := 0, producer := 0, shift := 0, mode := 0, window := 0, claim := 0, split := 0, setSize := 1, minChunk := 1, gangLen := 0, st := .active, bitAddr := 0, zeroed := false, dies := [], pending := [], placed := [], finished := [], pushed := [], bits := [], running := 0, failed := false, failCode := 0, failWid := none, depFail := false, discarded := [], endedAt := 0, eff := 0, regions := [] } : Launch) with st := .ready, dies := [0], pending := [(0, 0, 9)] } : Launch)).map (·.1) = some false ∧ (({ State.reset with launches := [({ ({ handle := 1, core := 0, vf := 0, asid := 0, priv := false, phase := 0, entry := 0, widths := [4, 0, 0, 0, 0, 0], extents := [9, 0, 0, 0, 0, 0], clevel := 0, plevel := 0, prio := 0, gang := false, args := 0, bitmap := 0, producer := 0, shift := 0, mode := 0, window := 0, claim := 0, split := 0, setSize := 1, minChunk := 1, gangLen := 0, st := .active, bitAddr := 0, zeroed := false, dies := [], pending := [], placed := [], finished := [], pushed := [], bits := [], running := 0, failed := false, failCode := 0, failWid := none, depFail := false, discarded := [], endedAt := 0, eff := 0, regions := [] } : Launch) with st := .active, dies := [0], placed := [{ group := 0, die := 0, clusters := [0], next := 0, stop := 9 }] } : Launch)], clusters := [(0, { serving := true })], noVf := false } : State).grantable 0 ({ ({ handle := 1, core := 0, vf := 0, asid := 0, priv := false, phase := 0, entry := 0, widths := [4, 0, 0, 0, 0, 0], extents := [9, 0, 0, 0, 0, 0], clevel := 0, plevel := 0, prio := 0, gang := false, args := 0, bitmap := 0, producer := 0, shift := 0, mode := 0, window := 0, claim := 0, split := 0, setSize := 1, minChunk := 1, gangLen := 0, st := .active, bitAddr := 0, zeroed := false, dies := [], pending := [], placed := [], finished := [], pushed := [], bits := [], running := 0, failed := false, failCode := 0, failWid := none, depFail := false, discarded := [], endedAt := 0, eff := 0, regions := [] } : Launch) with st := .active, dies := [0], placed := [{ group := 0, die := 0, clusters := [0], next := 0, stop := 9 }] } : Launch)).map (·.1) = some true ∧ (1 : W64).getLsbD 0 = true ∧ (1 : W64).getLsbD 1 = false ∧ (State.reset.cluster 0).serving = false ∧ State.reset.cleozRuns = false ∧ ({ State.reset with boot := { stage := 2 } } : State).cleozRuns = true := by decide +kernel
theorem witness_SchedulerEvents_slices : ({ State.reset with noVf := false, admin := [(schBase + 8, 0x1000), (schBase + 0x10, 2), (schBase + 0x18, 0)], mem := memPut (memPut [] 0x1000 0x40 8) 0x1008 0x41 8, keys := [(0, 1), (1, 1)], ptp := 5000000 } : State).quanta.length = 2 ∧ ({ State.reset with noVf := false, admin := [(schBase + 8, 0x1000), (schBase + 0x10, 2), (schBase + 0x18, 0)], mem := memPut (memPut [] 0x1000 0x40 8) 0x1008 0x41 8, keys := [(0, 1), (1, 1)], ptp := 5000000 } : State).regBits (schBase + 0x18) 8 8 ≠ 1 ∧ ({ State.reset with noVf := false, admin := [(schBase + 8, 0x1000), (schBase + 0x10, 2), (schBase + 0x18, 0)], mem := memPut (memPut [] 0x1000 0x40 8) 0x1008 0x41 8, keys := [(0, 1), (1, 1)], ptp := 5000000 } : State).sliceFrom + 1000 * max 5000 (bitsOf ({ State.reset with noVf := false, admin := [(schBase + 8, 0x1000), (schBase + 0x10, 2), (schBase + 0x18, 0)], mem := memPut (memPut [] 0x1000 0x40 8) 0x1008 0x41 8, keys := [(0, 1), (1, 1)], ptp := 5000000 } : State).sliceWord 39 8) ≤ ({ State.reset with noVf := false, admin := [(schBase + 8, 0x1000), (schBase + 0x10, 2), (schBase + 0x18, 0)], mem := memPut (memPut [] 0x1000 0x40 8) 0x1008 0x41 8, keys := [(0, 1), (1, 1)], ptp := 5000000 } : State).ptp ∧ ({ State.reset with noVf := false, admin := [(schBase + 8, 0x1000), (schBase + 0x10, 2), (schBase + 0x18, 0x100)], mem := memPut (memPut [] 0x1000 0x40 8) 0x1008 0x41 8, keys := [(0, 1), (1, 1)], ptp := 0 } : State).regBits (schBase + 0x18) 8 8 = 1 ∧ ({ State.reset with noVf := false, admin := [(schBase + 8, 0x1000), (schBase + 0x10, 2), (schBase + 0x18, 0x100)], mem := memPut (memPut [] 0x1000 0x40 8) 0x1008 0x41 8, keys := [(0, 1), (1, 1)], ptp := 0 } : State).maySwitch = true ∧ ({ State.reset with noVf := false, admin := [(schBase + 8, 0x1000), (schBase + 0x10, 2), (schBase + 0x18, 0x100)], mem := memPut (memPut [] 0x1000 0x40 8) 0x1008 0x41 8, keys := [(0, 1), (1, 1)], ptp := 0 } : State).nextQuantum = some (1, 0x41) ∧ bitsOf (0x41 : W64) 4 0 ≠ ({ State.reset with noVf := false, admin := [(schBase + 8, 0x1000), (schBase + 0x10, 2), (schBase + 0x18, 0x100)], mem := memPut (memPut [] 0x1000 0x40 8) 0x1008 0x41 8, keys := [(0, 1), (1, 1)], ptp := 0 } : State).regBits (schBase + 0x18) 4 0 ∧ State.reset.quanta = [] ∧ State.reset.noVf = true := by decide +kernel
theorem witness_SchedulerEvents_preemption : (({ State.reset with launches := [({ ({ handle := 1, core := 0, vf := 0, asid := 0, priv := false, phase := 0, entry := 0, widths := [4, 0, 0, 0, 0, 0], extents := [9, 0, 0, 0, 0, 0], clevel := 0, plevel := 0, prio := 0, gang := false, args := 0, bitmap := 0, producer := 0, shift := 0, mode := 0, window := 0, claim := 0, split := 0, setSize := 1, minChunk := 1, gangLen := 0, st := .active, bitAddr := 0, zeroed := false, dies := [], pending := [], placed := [], finished := [], pushed := [], bits := [], running := 0, failed := false, failCode := 0, failWid := none, depFail := false, discarded := [], endedAt := 0, eff := 0, regions := [] } : Launch) with handle := 2, st := .ready, dies := [0], pending := [(0, 0, 9)], prio := 1, eff := 3 } : Launch), ({ ({ handle := 1, core := 0, vf := 0, asid := 0, priv := false, phase := 0, entry := 0, widths := [4, 0, 0, 0, 0, 0], extents := [9, 0, 0, 0, 0, 0], clevel := 0, plevel := 0, prio := 0, gang := false, args := 0, bitmap := 0, producer := 0, shift := 0, mode := 0, window := 0, claim := 0, split := 0, setSize := 1, minChunk := 1, gangLen := 0, st := .active, bitAddr := 0, zeroed := false, dies := [], pending := [], placed := [], finished := [], pushed := [], bits := [], running := 0, failed := false, failCode := 0, failWid := none, depFail := false, discarded := [], endedAt := 0, eff := 0, regions := [] } : Launch) with st := .active, dies := [0], placed := [{ group := 0, die := 0, clusters := [0], next := 0, stop := 9 }] } : Launch), ({ ({ handle := 1, core := 0, vf := 0, asid := 0, priv := false, phase := 0, entry := 0, widths := [4, 0, 0, 0, 0, 0], extents := [9, 0, 0, 0, 0, 0], clevel := 0, plevel := 0, prio := 0, gang := false, args := 0, bitmap := 0, producer := 0, shift := 0, mode := 0, window := 0, claim := 0, split := 0, setSize := 1, minChunk := 1, gangLen := 0, st := .active, bitAddr := 0, zeroed := false, dies := [], pending := [], placed := [], finished := [], pushed := [], bits := [], running := 0, failed := false, failCode := 0, failWid := none, depFail := false, discarded := [], endedAt := 0, eff := 0, regions := [] } : Launch) with handle := 3, mode := 1, producer := 2, prio := 3, st := .queued } : Launch)], noVf := false, clusters := [(0, { serving := true, held := some (1, 0) })], admin := [(tffBase + 0x500, 0x100000), (tffBase + 0x508, 4)], ctxs := [(4096, { item := some (1, 0) })] } : State).preempt? 0).isSome = true ∧ ({ State.reset with launches := [({ ({ handle := 1, core := 0, vf := 0, asid := 0, priv := false, phase := 0, entry := 0, widths := [4, 0, 0, 0, 0, 0], extents := [9, 0, 0, 0, 0, 0], clevel := 0, plevel := 0, prio := 0, gang := false, args := 0, bitmap := 0, producer := 0, shift := 0, mode := 0, window := 0, claim := 0, split := 0, setSize := 1, minChunk := 1, gangLen := 0, st := .active, bitAddr := 0, zeroed := false, dies := [], pending := [], placed := [], finished := [], pushed := [], bits := [], running := 0, failed := false, failCode := 0, failWid := none, depFail := false, discarded := [], endedAt := 0, eff := 0, regions := [] } : Launch) with handle := 2, st := .ready, dies := [0], pending := [(0, 0, 9)], prio := 1, eff := 3 } : Launch), ({ ({ handle := 1, core := 0, vf := 0, asid := 0, priv := false, phase := 0, entry := 0, widths := [4, 0, 0, 0, 0, 0], extents := [9, 0, 0, 0, 0, 0], clevel := 0, plevel := 0, prio := 0, gang := false, args := 0, bitmap := 0, producer := 0, shift := 0, mode := 0, window := 0, claim := 0, split := 0, setSize := 1, minChunk := 1, gangLen := 0, st := .active, bitAddr := 0, zeroed := false, dies := [], pending := [], placed := [], finished := [], pushed := [], bits := [], running := 0, failed := false, failCode := 0, failWid := none, depFail := false, discarded := [], endedAt := 0, eff := 0, regions := [] } : Launch) with st := .active, dies := [0], placed := [{ group := 0, die := 0, clusters := [0], next := 0, stop := 9 }] } : Launch), ({ ({ handle := 1, core := 0, vf := 0, asid := 0, priv := false, phase := 0, entry := 0, widths := [4, 0, 0, 0, 0, 0], extents := [9, 0, 0, 0, 0, 0], clevel := 0, plevel := 0, prio := 0, gang := false, args := 0, bitmap := 0, producer := 0, shift := 0, mode := 0, window := 0, claim := 0, split := 0, setSize := 1, minChunk := 1, gangLen := 0, st := .active, bitAddr := 0, zeroed := false, dies := [], pending := [], placed := [], finished := [], pushed := [], bits := [], running := 0, failed := false, failCode := 0, failWid := none, depFail := false, discarded := [], endedAt := 0, eff := 0, regions := [] } : Launch) with handle := 3, mode := 1, producer := 2, prio := 3, st := .queued } : Launch)], noVf := false, clusters := [(0, { serving := true, held := some (1, 0) })], admin := [(tffBase + 0x500, 0x100000), (tffBase + 0x508, 4)], ctxs := [(4096, { item := some (1, 0) })] } : State).setReady [0] = true ∧ ({ State.reset with launches := [({ ({ handle := 1, core := 0, vf := 0, asid := 0, priv := false, phase := 0, entry := 0, widths := [4, 0, 0, 0, 0, 0], extents := [9, 0, 0, 0, 0, 0], clevel := 0, plevel := 0, prio := 0, gang := false, args := 0, bitmap := 0, producer := 0, shift := 0, mode := 0, window := 0, claim := 0, split := 0, setSize := 1, minChunk := 1, gangLen := 0, st := .active, bitAddr := 0, zeroed := false, dies := [], pending := [], placed := [], finished := [], pushed := [], bits := [], running := 0, failed := false, failCode := 0, failWid := none, depFail := false, discarded := [], endedAt := 0, eff := 0, regions := [] } : Launch) with handle := 2, st := .ready, dies := [0], pending := [(0, 0, 9)], prio := 1, eff := 3 } : Launch), ({ ({ handle := 1, core := 0, vf := 0, asid := 0, priv := false, phase := 0, entry := 0, widths := [4, 0, 0, 0, 0, 0], extents := [9, 0, 0, 0, 0, 0], clevel := 0, plevel := 0, prio := 0, gang := false, args := 0, bitmap := 0, producer := 0, shift := 0, mode := 0, window := 0, claim := 0, split := 0, setSize := 1, minChunk := 1, gangLen := 0, st := .active, bitAddr := 0, zeroed := false, dies := [], pending := [], placed := [], finished := [], pushed := [], bits := [], running := 0, failed := false, failCode := 0, failWid := none, depFail := false, discarded := [], endedAt := 0, eff := 0, regions := [] } : Launch) with st := .active, dies := [0], placed := [{ group := 0, die := 0, clusters := [0], next := 0, stop := 9 }] } : Launch), ({ ({ handle := 1, core := 0, vf := 0, asid := 0, priv := false, phase := 0, entry := 0, widths := [4, 0, 0, 0, 0, 0], extents := [9, 0, 0, 0, 0, 0], clevel := 0, plevel := 0, prio := 0, gang := false, args := 0, bitmap := 0, producer := 0, shift := 0, mode := 0, window := 0, claim := 0, split := 0, setSize := 1, minChunk := 1, gangLen := 0, st := .active, bitAddr := 0, zeroed := false, dies := [], pending := [], placed := [], finished := [], pushed := [], bits := [], running := 0, failed := false, failCode := 0, failWid := none, depFail := false, discarded := [], endedAt := 0, eff := 0, regions := [] } : Launch) with handle := 3, mode := 1, producer := 2, prio := 3, st := .queued } : Launch)], noVf := false, clusters := [(0, { serving := true, held := some (1, 0) })], admin := [(tffBase + 0x500, 0x100000), (tffBase + 0x508, 4)], ctxs := [(4096, { item := some (1, 0) })] } : State).helpersOn [0] = [4096] ∧ State.reset.preempt? 0 = none ∧ State.reset.nextQuantum = none := by decide +kernel
theorem witness_LaunchEvents_failure : (({ ({ handle := 1, core := 0, vf := 0, asid := 0, priv := false, phase := 0, entry := 0, widths := [4, 0, 0, 0, 0, 0], extents := [9, 0, 0, 0, 0, 0], clevel := 0, plevel := 0, prio := 0, gang := false, args := 0, bitmap := 0, producer := 0, shift := 0, mode := 0, window := 0, claim := 0, split := 0, setSize := 1, minChunk := 1, gangLen := 0, st := .active, bitAddr := 0, zeroed := false, dies := [], pending := [], placed := [], finished := [], pushed := [], bits := [], running := 0, failed := false, failCode := 0, failWid := none, depFail := false, discarded := [], endedAt := 0, eff := 0, regions := [] } : Launch) with st := .queued } : Launch) : Launch).failed = false ∧ (({ ({ handle := 1, core := 0, vf := 0, asid := 0, priv := false, phase := 0, entry := 0, widths := [4, 0, 0, 0, 0, 0], extents := [9, 0, 0, 0, 0, 0], clevel := 0, plevel := 0, prio := 0, gang := false, args := 0, bitmap := 0, producer := 0, shift := 0, mode := 0, window := 0, claim := 0, split := 0, setSize := 1, minChunk := 1, gangLen := 0, st := .active, bitAddr := 0, zeroed := false, dies := [], pending := [], placed := [], finished := [], pushed := [], bits := [], running := 0, failed := false, failCode := 0, failWid := none, depFail := false, discarded := [], endedAt := 0, eff := 0, regions := [] } : Launch) with st := .queued } : Launch) : Launch).st ≠ .ended ∧ (({ ({ handle := 1, core := 0, vf := 0, asid := 0, priv := false, phase := 0, entry := 0, widths := [4, 0, 0, 0, 0, 0], extents := [9, 0, 0, 0, 0, 0], clevel := 0, plevel := 0, prio := 0, gang := false, args := 0, bitmap := 0, producer := 0, shift := 0, mode := 0, window := 0, claim := 0, split := 0, setSize := 1, minChunk := 1, gangLen := 0, st := .active, bitAddr := 0, zeroed := false, dies := [], pending := [], placed := [], finished := [], pushed := [], bits := [], running := 0, failed := false, failCode := 0, failWid := none, depFail := false, discarded := [], endedAt := 0, eff := 0, regions := [] } : Launch) with st := .ended } : Launch) : Launch).st = .ended ∧ ({ State.reset with launches := [({ ({ handle := 1, core := 0, vf := 0, asid := 0, priv := false, phase := 0, entry := 0, widths := [4, 0, 0, 0, 0, 0], extents := [9, 0, 0, 0, 0, 0], clevel := 0, plevel := 0, prio := 0, gang := false, args := 0, bitmap := 0, producer := 0, shift := 0, mode := 0, window := 0, claim := 0, split := 0, setSize := 1, minChunk := 1, gangLen := 0, st := .active, bitAddr := 0, zeroed := false, dies := [], pending := [], placed := [], finished := [], pushed := [], bits := [], running := 0, failed := false, failCode := 0, failWid := none, depFail := false, discarded := [], endedAt := 0, eff := 0, regions := [] } : Launch) with st := .queued } : Launch)] } : State).launch? 1 = some ({ ({ handle := 1, core := 0, vf := 0, asid := 0, priv := false, phase := 0, entry := 0, widths := [4, 0, 0, 0, 0, 0], extents := [9, 0, 0, 0, 0, 0], clevel := 0, plevel := 0, prio := 0, gang := false, args := 0, bitmap := 0, producer := 0, shift := 0, mode := 0, window := 0, claim := 0, split := 0, setSize := 1, minChunk := 1, gangLen := 0, st := .active, bitAddr := 0, zeroed := false, dies := [], pending := [], placed := [], finished := [], pushed := [], bits := [], running := 0, failed := false, failCode := 0, failWid := none, depFail := false, discarded := [], endedAt := 0, eff := 0, regions := [] } : Launch) with st := .queued } : Launch) := by decide +kernel
theorem witness_LaunchEvents_gang : (({ State.reset with launches := [({ ({ handle := 1, core := 0, vf := 0, asid := 0, priv := false, phase := 0, entry := 0, widths := [4, 0, 0, 0, 0, 0], extents := [9, 0, 0, 0, 0, 0], clevel := 0, plevel := 0, prio := 0, gang := false, args := 0, bitmap := 0, producer := 0, shift := 0, mode := 0, window := 0, claim := 0, split := 0, setSize := 1, minChunk := 1, gangLen := 0, st := .active, bitAddr := 0, zeroed := false, dies := [], pending := [], placed := [{ group := 0, die := 0, clusters := [0], next := 0, stop := 9 }], finished := [], pushed := [], bits := [], running := 0, failed := false, failCode := 0, failWid := none, depFail := false, discarded := [], endedAt := 0, eff := 0, regions := [] } : Launch) with gang := true, gangLen := 3 } : Launch)], clusters := [(0, { held := some (1, 0), serving := true })], dies := [(0, { requests := [(0, 0, 1)] })], cycle := 1 } : State).die 0).requests = (0, 0, 1) :: [] ∧ ({ State.reset with launches := [({ ({ handle := 1, core := 0, vf := 0, asid := 0, priv := false, phase := 0, entry := 0, widths := [4, 0, 0, 0, 0, 0], extents := [9, 0, 0, 0, 0, 0], clevel := 0, plevel := 0, prio := 0, gang := false, args := 0, bitmap := 0, producer := 0, shift := 0, mode := 0, window := 0, claim := 0, split := 0, setSize := 1, minChunk := 1, gangLen := 0, st := .active, bitAddr := 0, zeroed := false, dies := [], pending := [], placed := [{ group := 0, die := 0, clusters := [0], next := 0, stop := 9 }], finished := [], pushed := [], bits := [], running := 0, failed := false, failCode := 0, failWid := none, depFail := false, discarded := [], endedAt := 0, eff := 0, regions := [] } : Launch) with gang := true, gangLen := 3 } : Launch)], clusters := [(0, { held := some (1, 0), serving := true })], dies := [(0, { requests := [(0, 0, 1)] })], cycle := 1 } : State).replaying = false ∧ (({ State.reset with launches := [({ ({ handle := 1, core := 0, vf := 0, asid := 0, priv := false, phase := 0, entry := 0, widths := [4, 0, 0, 0, 0, 0], extents := [9, 0, 0, 0, 0, 0], clevel := 0, plevel := 0, prio := 0, gang := false, args := 0, bitmap := 0, producer := 0, shift := 0, mode := 0, window := 0, claim := 0, split := 0, setSize := 1, minChunk := 1, gangLen := 0, st := .active, bitAddr := 0, zeroed := false, dies := [], pending := [], placed := [{ group := 0, die := 0, clusters := [0], next := 0, stop := 9 }], finished := [], pushed := [], bits := [], running := 0, failed := false, failCode := 0, failWid := none, depFail := false, discarded := [], endedAt := 0, eff := 0, regions := [] } : Launch) with gang := true, gangLen := 3 } : Launch)], clusters := [(0, { held := some (1, 0), serving := true })], dies := [(0, { requests := [(0, 0, 1)] })], cycle := 1 } : State).servedBy ({ ({ handle := 1, core := 0, vf := 0, asid := 0, priv := false, phase := 0, entry := 0, widths := [4, 0, 0, 0, 0, 0], extents := [9, 0, 0, 0, 0, 0], clevel := 0, plevel := 0, prio := 0, gang := false, args := 0, bitmap := 0, producer := 0, shift := 0, mode := 0, window := 0, claim := 0, split := 0, setSize := 1, minChunk := 1, gangLen := 0, st := .active, bitAddr := 0, zeroed := false, dies := [], pending := [], placed := [{ group := 0, die := 0, clusters := [0], next := 0, stop := 9 }], finished := [], pushed := [], bits := [], running := 0, failed := false, failCode := 0, failWid := none, depFail := false, discarded := [], endedAt := 0, eff := 0, regions := [] } : Launch) with gang := true, gangLen := 3 } : Launch) 0).isSome = true ∧ servingCores ({ ({ handle := 1, core := 0, vf := 0, asid := 0, priv := false, phase := 0, entry := 0, widths := [4, 0, 0, 0, 0, 0], extents := [9, 0, 0, 0, 0, 0], clevel := 0, plevel := 0, prio := 0, gang := false, args := 0, bitmap := 0, producer := 0, shift := 0, mode := 0, window := 0, claim := 0, split := 0, setSize := 1, minChunk := 1, gangLen := 0, st := .active, bitAddr := 0, zeroed := false, dies := [], pending := [], placed := [{ group := 0, die := 0, clusters := [0], next := 0, stop := 9 }], finished := [], pushed := [], bits := [], running := 0, failed := false, failCode := 0, failWid := none, depFail := false, discarded := [], endedAt := 0, eff := 0, regions := [] } : Launch) with gang := true, gangLen := 3 } : Launch) 0 = [0, 3] ∧ (∀ k ∈ servingCores ({ ({ handle := 1, core := 0, vf := 0, asid := 0, priv := false, phase := 0, entry := 0, widths := [4, 0, 0, 0, 0, 0], extents := [9, 0, 0, 0, 0, 0], clevel := 0, plevel := 0, prio := 0, gang := false, args := 0, bitmap := 0, producer := 0, shift := 0, mode := 0, window := 0, claim := 0, split := 0, setSize := 1, minChunk := 1, gangLen := 0, st := .active, bitAddr := 0, zeroed := false, dies := [], pending := [], placed := [{ group := 0, die := 0, clusters := [0], next := 0, stop := 9 }], finished := [], pushed := [], bits := [], running := 0, failed := false, failCode := 0, failWid := none, depFail := false, discarded := [], endedAt := 0, eff := 0, regions := [] } : Launch) with gang := true, gangLen := 3 } : Launch) 0, (({ State.reset with launches := [({ ({ handle := 1, core := 0, vf := 0, asid := 0, priv := false, phase := 0, entry := 0, widths := [4, 0, 0, 0, 0, 0], extents := [9, 0, 0, 0, 0, 0], clevel := 0, plevel := 0, prio := 0, gang := false, args := 0, bitmap := 0, producer := 0, shift := 0, mode := 0, window := 0, claim := 0, split := 0, setSize := 1, minChunk := 1, gangLen := 0, st := .active, bitAddr := 0, zeroed := false, dies := [], pending := [], placed := [{ group := 0, die := 0, clusters := [0], next := 0, stop := 9 }], finished := [], pushed := [], bits := [], running := 0, failed := false, failCode := 0, failWid := none, depFail := false, discarded := [], endedAt := 0, eff := 0, regions := [] } : Launch) with gang := true, gangLen := 3 } : Launch)], clusters := [(0, { held := some (1, 0), serving := true })], dies := [(0, { requests := [(0, 0, 1)] })], cycle := 1 } : State).core k).workq.length < 16) ∧ ({ State.reset with launches := [({ ({ handle := 1, core := 0, vf := 0, asid := 0, priv := false, phase := 0, entry := 0, widths := [4, 0, 0, 0, 0, 0], extents := [9, 0, 0, 0, 0, 0], clevel := 0, plevel := 0, prio := 0, gang := false, args := 0, bitmap := 0, producer := 0, shift := 0, mode := 0, window := 0, claim := 0, split := 0, setSize := 1, minChunk := 1, gangLen := 0, st := .active, bitAddr := 0, zeroed := false, dies := [], pending := [], placed := [{ group := 0, die := 0, clusters := [0], next := 0, stop := 9 }], finished := [], pushed := [], bits := [], running := 0, failed := false, failCode := 0, failWid := none, depFail := false, discarded := [], endedAt := 0, eff := 0, regions := [] } : Launch) with gang := true, gangLen := 3 } : Launch)], clusters := [(0, { held := some (1, 0), serving := true })], dies := [(0, { requests := [(0, 0, 1)] })], cycle := 1 } : State).serversOn 0 ({ ({ handle := 1, core := 0, vf := 0, asid := 0, priv := false, phase := 0, entry := 0, widths := [4, 0, 0, 0, 0, 0], extents := [9, 0, 0, 0, 0, 0], clevel := 0, plevel := 0, prio := 0, gang := false, args := 0, bitmap := 0, producer := 0, shift := 0, mode := 0, window := 0, claim := 0, split := 0, setSize := 1, minChunk := 1, gangLen := 0, st := .active, bitAddr := 0, zeroed := false, dies := [], pending := [], placed := [{ group := 0, die := 0, clusters := [0], next := 0, stop := 9 }], finished := [], pushed := [], bits := [], running := 0, failed := false, failCode := 0, failWid := none, depFail := false, discarded := [], endedAt := 0, eff := 0, regions := [] } : Launch) with gang := true, gangLen := 3 } : Launch) = 1 ∧ State.reset.bitReached { handle := 1, core := 0, vf := 0, asid := 0, priv := false, phase := 0, entry := 0, widths := [4, 0, 0, 0, 0, 0], extents := [9, 0, 0, 0, 0, 0], clevel := 0, plevel := 0, prio := 0, gang := false, args := 0, bitmap := 0, producer := 0, shift := 0, mode := 0, window := 0, claim := 0, split := 0, setSize := 1, minChunk := 1, gangLen := 0, st := .active, bitAddr := 0, zeroed := false, dies := [], pending := [], placed := [], finished := [], pushed := [], bits := [], running := 0, failed := false, failCode := 0, failWid := none, depFail := false, discarded := [], endedAt := 0, eff := 0, regions := [] } 0 = true ∧ ((plainTables.foldl (fun (s : State) p => s.write64 p.1 p.2) ((State.reset.setReg tffBase 0x10000).setReg (tffBase + 8) 1)).write64 0x30000 0x1C0000000000024F).bitReached ({ ({ handle := 1, core := 0, vf := 0, asid := 0, priv := false, phase := 0, entry := 0, widths := [4, 0, 0, 0, 0, 0], extents := [9, 0, 0, 0, 0, 0], clevel := 0, plevel := 0, prio := 0, gang := false, args := 0, bitmap := 0, producer := 0, shift := 0, mode := 0, window := 0, claim := 0, split := 0, setSize := 1, minChunk := 1, gangLen := 0, st := .active, bitAddr := 0, zeroed := false, dies := [], pending := [], placed := [], finished := [], pushed := [], bits := [], running := 0, failed := false, failCode := 0, failWid := none, depFail := false, discarded := [], endedAt := 0, eff := 0, regions := [] } : Launch) with bitmap := 0x40000 } : Launch) 0 = false := by decide +kernel
theorem witness_ActorEvents_arrive : (({ State.reset with ctxs := [(0, { regs := [(1, 7), (2, 5), (3, 9)] })], classes := [{ num := 5, entry := 0, size := 64, init := false, tier := 0, place := 0, vf := 0, idle := 0, first := 0, count := 0, hslice := 0, tphys := 0, leaving := false }], moors := [{ cls := 5, key := 7, st := .mooring, berth := some (0, 0x10000), size := 64, chamber := [], mailbox := [], busy := false, handled := none, eligible := none, reserved := false, target := none, lastBusy := 0, held := none }], slices := [(3, { input := [{ key := 7, cls := 5, srcCtx := 0, srcDev := 0, phase := 0, origin := 0, replyKey := 0, replyCls := 0, vf := 0, payload := [] }] })] } : State).slice 3).input = [{ key := 7, cls := 5, srcCtx := 0, srcDev := 0, phase := 0, origin := 0, replyKey := 0, replyCls := 0, vf := 0, payload := [] }] ∧ (({ State.reset with ctxs := [(0, { regs := [(1, 7), (2, 5), (3, 9)] })], classes := [{ num := 5, entry := 0, size := 64, init := false, tier := 0, place := 0, vf := 0, idle := 0, first := 0, count := 0, hslice := 0, tphys := 0, leaving := false }], moors := [{ cls := 5, key := 7, st := .mooring, berth := some (0, 0x10000), size := 64, chamber := [], mailbox := [], busy := false, handled := none, eligible := none, reserved := false, target := none, lastBusy := 0, held := none }] } : State).classFor 0 5).isSome = true ∧ ({ State.reset with ctxs := [(0, { regs := [(1, 7), (2, 5), (3, 9)] })], classes := [{ num := 5, entry := 0, size := 64, init := false, tier := 0, place := 0, vf := 0, idle := 0, first := 0, count := 0, hslice := 0, tphys := 0, leaving := false }], moors := [{ cls := 5, key := 7, st := .mooring, berth := some (0, 0x10000), size := 64, chamber := [], mailbox := [], busy := false, handled := none, eligible := none, reserved := false, target := none, lastBusy := 0, held := none }] } : State).hasPlace 3 ({ key := 7, cls := 5, srcCtx := 0, srcDev := 0, phase := 0, origin := 0, replyKey := 0, replyCls := 0, vf := 0, payload := [] }) = true ∧ ({ ({ State.reset with ctxs := [(0, { regs := [(1, 7), (2, 5), (3, 9)] })], classes := [{ num := 5, entry := 0, size := 64, init := false, tier := 0, place := 0, vf := 0, idle := 0, first := 0, count := 0, hslice := 0, tphys := 0, leaving := false }], moors := [{ cls := 5, key := 7, st := .mooring, berth := some (0, 0x10000), size := 64, chamber := [], mailbox := [], busy := false, handled := none, eligible := none, reserved := false, target := none, lastBusy := 0, held := none }] } : State) with classes := [] } : State).classFor 0 5 = none ∧ (({ State.reset with ctxs := [(0, { regs := [(1, 7), (2, 5), (3, 9)] })], classes := [{ num := 5, entry := 0, size := 64, init := false, tier := 0, place := 0, vf := 0, idle := 0, first := 0, count := 0, hslice := 0, tphys := 0, leaving := false }], moors := [{ cls := 5, key := 7, st := .mooring, berth := some (0, 0x10000), size := 64, chamber := [], mailbox := [], busy := false, handled := none, eligible := none, reserved := false, target := none, lastBusy := 0, held := none }], slices := [(3, { input := [{ key := 7, cls := 5, srcCtx := 0, srcDev := 0, phase := 0, origin := 0, replyKey := 0, replyCls := 0, vf := 0, payload := [] }], stoppedAt := some 0 })] } : State).slice 3).stoppedAt = some 0 ∧ (State.reset.slice 3).input = [] ∧ (State.reset.slice 3).stoppedAt = none ∧ ({ State.reset with ctxs := [(0, { regs := [(1, 7), (2, 5), (3, 9)] })], classes := [{ num := 5, entry := 0, size := 64, init := false, tier := 0, place := 0, vf := 0, idle := 0, first := 0, count := 0, hslice := 0, tphys := 0, leaving := false }], moors := [{ cls := 5, key := 7, st := .mooring, berth := some (0, 0x10000), size := 64, chamber := [], mailbox := [], busy := false, handled := none, eligible := none, reserved := false, target := none, lastBusy := 0, held := none }] } : State).moor? 5 7 ≠ none := by decide +kernel
theorem witness_ActorEvents_full : ∃ s : State, s.hasPlace 0 { key := 7, cls := 5, srcCtx := 0, srcDev := 0, phase := 0, origin := 0, replyKey := 0, replyCls := 0, vf := 0, payload := [] } = false := ⟨{ State.reset with slices := [(0, { admission := List.replicate 256 ({ key := 7, cls := 5, srcCtx := 0, srcDev := 0, phase := 0, origin := 0, replyKey := 0, replyCls := 0, vf := 0, payload := [] }) })] }, by decide +kernel⟩
theorem witness_ActorEvents_moor : (({ State.reset with ctxs := [(0, { regs := [(1, 7), (2, 5), (3, 9)] })], classes := [{ num := 5, entry := 0, size := 64, init := false, tier := 0, place := 0, vf := 0, idle := 0, first := 0, count := 0, hslice := 0, tphys := 0, leaving := false }], moors := [{ cls := 5, key := 7, st := .mooring, berth := some (0, 0x10000), size := 64, chamber := [], mailbox := [], busy := false, handled := none, eligible := none, reserved := false, target := none, lastBusy := 0, held := none }] } : State).moor? 5 7).map (·.st) = some .mooring ∧ (({ State.reset with ctxs := [(0, { regs := [(1, 7), (2, 5), (3, 9)] })], classes := [{ num := 5, entry := 0, size := 64, init := false, tier := 0, place := 0, vf := 0, idle := 0, first := 0, count := 0, hslice := 0, tphys := 0, leaving := false }], moors := [{ cls := 5, key := 7, st := .unmooring, berth := some (0, 0x10000), size := 64, chamber := [], mailbox := [], busy := false, handled := none, eligible := none, reserved := false, target := none, lastBusy := 0, held := none }] } : State).moor? 5 7).map (·.st) = some .unmooring ∧ ({ State.reset with ctxs := [(0, { regs := [(1, 7), (2, 5), (3, 9)] })], classes := [{ num := 5, entry := 0, size := 64, init := false, tier := 0, place := 0, vf := 0, idle := 0, first := 0, count := 0, hslice := 0, tphys := 0, leaving := false }], moors := [{ cls := 5, key := 7, st := .mooring, berth := some (0, 0x10000), size := 64, chamber := [], mailbox := [], busy := false, handled := none, eligible := none, reserved := false, target := none, lastBusy := 0, held := none }] } : State).dirHeld 0 = false ∧ ((({ State.reset with ctxs := [(0, { regs := [(1, 7), (2, 5), (3, 9)] })], classes := [{ num := 5, entry := 0, size := 64, init := false, tier := 0, place := 0, vf := 0, idle := 0, first := 0, count := 0, hslice := 0, tphys := 0, leaving := false }], moors := [{ cls := 5, key := 7, st := .mooring, berth := some (0, 0x10000), size := 64, chamber := [], mailbox := [], busy := false, handled := none, eligible := none, reserved := false, target := none, lastBusy := 0, held := none }] } : State).moor? 5 7).map fun m => State.reset.dirTurn 0 m.held) = some true ∧ (({ State.reset with ctxs := [(0, { regs := [(1, 7), (2, 5), (3, 9)] })], classes := [{ num := 5, entry := 0, size := 64, init := false, tier := 0, place := 0, vf := 0, idle := 0, first := 0, count := 0, hslice := 0, tphys := 0, leaving := false }], moors := [{ cls := 5, key := 7, st := .mooring, berth := some (0, 0x10000), size := 64, chamber := [], mailbox := [], busy := false, handled := none, eligible := none, reserved := false, target := none, lastBusy := 0, held := none }] } : State).class? 5).isSome = true ∧ ({ State.reset with ctxs := [(0, { regs := [(1, 7), (2, 5), (3, 9)] })], classes := [{ num := 5, entry := 0, size := 64, init := false, tier := 0, place := 0, vf := 0, idle := 0, first := 0, count := 0, hslice := 0, tphys := 0, leaving := false }], moors := [{ cls := 5, key := 7, st := .unmooring, berth := some (0, 0x10000), size := 64, chamber := [], mailbox := [], busy := false, handled := none, eligible := none, reserved := false, target := none, lastBusy := 0, held := none }] } : State).dirFree 0 5 7 = none ∧ (({ State.reset with ctxs := [(0, { regs := [(1, 7), (2, 5), (3, 9)] })], classes := [{ num := 5, entry := 0, size := 64, init := false, tier := 0, place := 0, vf := 0, idle := 0, first := 0, count := 0, hslice := 0, tphys := 0, leaving := false }], moors := [{ cls := 5, key := 7, st := .unmooring, berth := some (0, 0x10000), size := 64, chamber := [], mailbox := [], busy := false, handled := none, eligible := none, reserved := false, target := none, lastBusy := 0, held := none }], admin := [(dirReg 0 1, 0x20003)] } : State).dirFree 0 5 7).isSome = true ∧ (({ State.reset with ctxs := [(0, { regs := [(1, 7), (2, 5), (3, 9)] })], classes := [{ num := 5, entry := 0, size := 64, init := false, tier := 0, place := 0, vf := 0, idle := 0, first := 0, count := 0, hslice := 0, tphys := 0, leaving := false }], moors := [{ cls := 5, key := 7, st := .unmooring, berth := some (0, 0x10000), size := 64, chamber := [], mailbox := [], busy := false, handled := none, eligible := none, reserved := false, target := none, lastBusy := 0, held := none }] } : State).slice (homeMooring 5 7)).admission = [] ∧ (({ ({ State.reset with ctxs := [(0, { regs := [(1, 7), (2, 5), (3, 9)] })], classes := [{ num := 5, entry := 0, size := 64, init := false, tier := 0, place := 0, vf := 0, idle := 0, first := 0, count := 0, hslice := 0, tphys := 0, leaving := false }], moors := [{ cls := 5, key := 7, st := .moored, berth := some (0, 0x10000), size := 64, chamber := [], mailbox := [], busy := false, handled := none, eligible := none, reserved := false, target := none, lastBusy := 0, held := none }] } : State) with moors := (({ State.reset with ctxs := [(0, { regs := [(1, 7), (2, 5), (3, 9)] })], classes := [{ num := 5, entry := 0, size := 64, init := false, tier := 0, place := 0, vf := 0, idle := 0, first := 0, count := 0, hslice := 0, tphys := 0, leaving := false }], moors := [{ cls := 5, key := 7, st := .moored, berth := some (0, 0x10000), size := 64, chamber := [], mailbox := [], busy := false, handled := none, eligible := none, reserved := false, target := none, lastBusy := 0, held := none }] } : State).moors).map fun m => { m with busy := true, handled := some 0 } } : State).moor? 5 7).map (·.busy) = some true ∧ State.reset.moor? 5 7 = none := by decide +kernel
theorem witness_ActorEvents_handled : (({ ({ State.reset with ctxs := [(0, { regs := [(1, 7), (2, 5), (3, 9)] })], classes := [{ num := 5, entry := 0, size := 64, init := false, tier := 0, place := 0, vf := 0, idle := 0, first := 0, count := 0, hslice := 0, tphys := 0, leaving := false }], moors := [{ cls := 5, key := 7, st := .moored, berth := some (0, 0x10000), size := 64, chamber := [], mailbox := [], busy := false, handled := none, eligible := none, reserved := false, target := none, lastBusy := 0, held := none }] } : State) with moors := (({ State.reset with ctxs := [(0, { regs := [(1, 7), (2, 5), (3, 9)] })], classes := [{ num := 5, entry := 0, size := 64, init := false, tier := 0, place := 0, vf := 0, idle := 0, first := 0, count := 0, hslice := 0, tphys := 0, leaving := false }], moors := [{ cls := 5, key := 7, st := .moored, berth := some (0, 0x10000), size := 64, chamber := [], mailbox := [], busy := false, handled := none, eligible := none, reserved := false, target := none, lastBusy := 0, held := none }] } : State).moors).map fun m => { m with busy := true, handled := some 0 } } : State).moor? 5 7).map (fun m => (m.handled, ({ ({ State.reset with ctxs := [(0, { regs := [(1, 7), (2, 5), (3, 9)] })], classes := [{ num := 5, entry := 0, size := 64, init := false, tier := 0, place := 0, vf := 0, idle := 0, first := 0, count := 0, hslice := 0, tphys := 0, leaving := false }], moors := [{ cls := 5, key := 7, st := .moored, berth := some (0, 0x10000), size := 64, chamber := [], mailbox := [], busy := false, handled := none, eligible := none, reserved := false, target := none, lastBusy := 0, held := none }] } : State) with moors := (({ State.reset with ctxs := [(0, { regs := [(1, 7), (2, 5), (3, 9)] })], classes := [{ num := 5, entry := 0, size := 64, init := false, tier := 0, place := 0, vf := 0, idle := 0, first := 0, count := 0, hslice := 0, tphys := 0, leaving := false }], moors := [{ cls := 5, key := 7, st := .moored, berth := some (0, 0x10000), size := 64, chamber := [], mailbox := [], busy := false, handled := none, eligible := none, reserved := false, target := none, lastBusy := 0, held := none }] } : State).moors).map fun m => { m with busy := true, handled := some 0 } } : State).handling m)) = some (some 0, false) ∧ (({ ({ State.reset with ctxs := [(0, { regs := [(1, 7), (2, 5), (3, 9)] })], classes := [{ num := 5, entry := 0, size := 64, init := false, tier := 0, place := 0, vf := 0, idle := 0, first := 0, count := 0, hslice := 0, tphys := 0, leaving := false }], moors := [{ cls := 5, key := 7, st := .shifting, berth := some (0, 0x10000), size := 64, chamber := [], mailbox := [], busy := false, handled := none, eligible := none, reserved := false, target := none, lastBusy := 0, held := none }] } : State) with moors := (({ State.reset with ctxs := [(0, { regs := [(1, 7), (2, 5), (3, 9)] })], classes := [{ num := 5, entry := 0, size := 64, init := false, tier := 0, place := 0, vf := 0, idle := 0, first := 0, count := 0, hslice := 0, tphys := 0, leaving := false }], moors := [{ cls := 5, key := 7, st := .shifting, berth := some (0, 0x10000), size := 64, chamber := [], mailbox := [], busy := false, handled := none, eligible := none, reserved := false, target := none, lastBusy := 0, held := none }] } : State).moors).map fun m => { m with target := some (1, 0x10000) } } : State).moor? 5 7).map (fun m => (m.st, m.target)) = some (.shifting, some (1, 0x10000)) ∧ (({ ({ State.reset with ctxs := [(0, { regs := [(1, 7), (2, 5), (3, 9)] })], classes := [{ num := 5, entry := 0, size := 64, init := false, tier := 0, place := 0, vf := 0, idle := 0, first := 0, count := 0, hslice := 0, tphys := 0, leaving := false }], moors := [{ cls := 5, key := 7, st := .moored, berth := some (0, 0x10000), size := 64, chamber := [], mailbox := [], busy := false, handled := none, eligible := none, reserved := false, target := none, lastBusy := 0, held := none }] } : State) with moors := (({ State.reset with ctxs := [(0, { regs := [(1, 7), (2, 5), (3, 9)] })], classes := [{ num := 5, entry := 0, size := 64, init := false, tier := 0, place := 0, vf := 0, idle := 0, first := 0, count := 0, hslice := 0, tphys := 0, leaving := false }], moors := [{ cls := 5, key := 7, st := .moored, berth := some (0, 0x10000), size := 64, chamber := [], mailbox := [], busy := false, handled := none, eligible := none, reserved := false, target := none, lastBusy := 0, held := none }] } : State).moors).map fun m => { m with reserved := true } } : State).moor? 5 7).map (·.reserved) = some true ∧ (({ ({ State.reset with ctxs := [(0, { regs := [(1, 7), (2, 5), (3, 9)] })], classes := [{ num := 5, entry := 0, size := 64, init := false, tier := 0, place := 0, vf := 0, idle := 0, first := 0, count := 0, hslice := 0, tphys := 0, leaving := false }], moors := [{ cls := 5, key := 7, st := .moored, berth := some (0, 0x10000), size := 64, chamber := [], mailbox := [], busy := false, handled := none, eligible := none, reserved := false, target := none, lastBusy := 0, held := none }] } : State) with moors := (({ State.reset with ctxs := [(0, { regs := [(1, 7), (2, 5), (3, 9)] })], classes := [{ num := 5, entry := 0, size := 64, init := false, tier := 0, place := 0, vf := 0, idle := 0, first := 0, count := 0, hslice := 0, tphys := 0, leaving := false }], moors := [{ cls := 5, key := 7, st := .moored, berth := some (0, 0x10000), size := 64, chamber := [], mailbox := [], busy := false, handled := none, eligible := none, reserved := false, target := none, lastBusy := 0, held := none }] } : State).moors).map fun m => { m with eligible := some 0 } } : State).oldestIdle 0).isSome = true ∧ State.reset.wantsSpace 0 = false := by decide +kernel
theorem witness_ActorEvents_space : ({ ({ ({ State.reset with ctxs := [(0, { regs := [(1, 7), (2, 5), (3, 9)] })], classes := [{ num := 5, entry := 0, size := 64, init := false, tier := 0, place := 0, vf := 0, idle := 0, first := 0, count := 0, hslice := 0, tphys := 0, leaving := false }], moors := [{ cls := 5, key := 7, st := .moored, berth := some (0, 0x10000), size := 64, chamber := [], mailbox := [], busy := false, handled := none, eligible := none, reserved := false, target := none, lastBusy := 0, held := none }] } : State) with moors := (({ State.reset with ctxs := [(0, { regs := [(1, 7), (2, 5), (3, 9)] })], classes := [{ num := 5, entry := 0, size := 64, init := false, tier := 0, place := 0, vf := 0, idle := 0, first := 0, count := 0, hslice := 0, tphys := 0, leaving := false }], moors := [{ cls := 5, key := 7, st := .moored, berth := some (0, 0x10000), size := 64, chamber := [], mailbox := [], busy := false, handled := none, eligible := none, reserved := false, target := none, lastBusy := 0, held := none }] } : State).moors).map fun m => { m with eligible := some 0, berth := some (0, 0x1F000), size := 0xE00 } } : State) with classes := [{ num := 5, entry := 0, size := 64, init := false, tier := 0, place := 1, vf := 0, idle := 0, first := 0, count := 1, hslice := 0, tphys := 0, leaving := false }], moors := (({ ({ State.reset with ctxs := [(0, { regs := [(1, 7), (2, 5), (3, 9)] })], classes := [{ num := 5, entry := 0, size := 64, init := false, tier := 0, place := 0, vf := 0, idle := 0, first := 0, count := 0, hslice := 0, tphys := 0, leaving := false }], moors := [{ cls := 5, key := 7, st := .moored, berth := some (0, 0x10000), size := 64, chamber := [], mailbox := [], busy := false, handled := none, eligible := none, reserved := false, target := none, lastBusy := 0, held := none }] } : State) with moors := (({ State.reset with ctxs := [(0, { regs := [(1, 7), (2, 5), (3, 9)] })], classes := [{ num := 5, entry := 0, size := 64, init := false, tier := 0, place := 0, vf := 0, idle := 0, first := 0, count := 0, hslice := 0, tphys := 0, leaving := false }], moors := [{ cls := 5, key := 7, st := .moored, berth := some (0, 0x10000), size := 64, chamber := [], mailbox := [], busy := false, handled := none, eligible := none, reserved := false, target := none, lastBusy := 0, held := none }] } : State).moors).map fun m => { m with eligible := some 0, berth := some (0, 0x1F000), size := 0xE00 } } : State)).moors ++ [{ cls := 5, key := 9, st := .mooring, berth := none, chosen := some 0, size := 64, chamber := [], mailbox := [], busy := false, handled := none, eligible := none, reserved := false, target := none, lastBusy := 0, held := none }], admin := [(moorBase + 0x1000, 1)] } : State).wantsSpace 0 = true := by decide +kernel
theorem witness_ActorEvents_class : (State.reset.setReg clscmd 0x8000000000010005).clsGoing 1 5 = true ∧ (State.reset.setReg clscmd 0x8000000000020005).clsGoing 2 5 = true ∧ State.reset.clsGoing 1 5 = false ∧ State.reset.clsGoing 2 5 = false ∧ State.reset.class? 5 = none ∧ (({ State.reset with ctxs := [(0, { regs := [(1, 7), (2, 5), (3, 9)] })], classes := [{ num := 5, entry := 0, size := 64, init := false, tier := 0, place := 0, vf := 0, idle := 0, first := 0, count := 0, hslice := 0, tphys := 0, leaving := false }], moors := [{ cls := 5, key := 7, st := .moored, berth := some (0, 0x10000), size := 64, chamber := [], mailbox := [], busy := false, handled := none, eligible := none, reserved := false, target := none, lastBusy := 0, held := none }] } : State).class? 5).isSome = true := by decide +kernel
theorem witness_PortEvents : (({ State.reset with eth := [(0, { enabled := true, ipv4 := true })], udpPorts := [(3, 5000)] } : State).ethPort 0).enabled = true ∧ (State.reset.ethPort 0).enabled = false ∧ (({ isUdp := true, isPtp := false, ipv6 := false, srcAddr := 1, srcPort := 2, dstPort := 4791, udpLen := 24, payload := [], roce := some { queuePair := 1, reliable := true, verb := 0, addr := 0, data := [] } } : Frame)).roce = some { queuePair := 1, reliable := true, verb := 0, addr := 0, data := [] } ∧ ((({ isUdp := true, isPtp := false, ipv6 := false, srcAddr := 1, srcPort := 2, dstPort := 4791, udpLen := 24, payload := [], roce := none } : Frame)).isUdp = true ∧ (({ isUdp := true, isPtp := false, ipv6 := false, srcAddr := 1, srcPort := 2, dstPort := 4791, udpLen := 24, payload := [], roce := none } : Frame)).dstPort = 4791) ∧ (({ isUdp := true, isPtp := false, ipv6 := false, srcAddr := 1, srcPort := 2, dstPort := 4791, udpLen := 24, payload := [], roce := none } : Frame)).roce = none ∧ ¬ ((({ isUdp := true, isPtp := false, ipv6 := false, srcAddr := 1, srcPort := 2, dstPort := 5000, udpLen := 24, payload := [], roce := none } : Frame)).isUdp = true ∧ (({ isUdp := true, isPtp := false, ipv6 := false, srcAddr := 1, srcPort := 2, dstPort := 5000, udpLen := 24, payload := [], roce := none } : Frame)).dstPort = 4791) ∧ List.find? (fun (x : Nat × Nat) => x.2 == (({ isUdp := true, isPtp := false, ipv6 := false, srcAddr := 1, srcPort := 2, dstPort := 5000, udpLen := 24, payload := [], roce := none } : Frame)).dstPort) ({ State.reset with eth := [(0, { enabled := true, ipv4 := true })], udpPorts := [(3, 5000)] } : State).udpPorts = some (3, 5000) ∧ (if (({ isUdp := true, isPtp := false, ipv6 := false, srcAddr := 1, srcPort := 2, dstPort := 5000, udpLen := 24, payload := [], roce := none } : Frame)).ipv6 then (({ State.reset with eth := [(0, { enabled := true, ipv4 := true })], udpPorts := [(3, 5000)] } : State).ethPort 0).ipv6 else (({ State.reset with eth := [(0, { enabled := true, ipv4 := true })], udpPorts := [(3, 5000)] } : State).ethPort 0).ipv4) = true ∧ (({ isUdp := false, isPtp := true, ipv6 := false, srcAddr := 1, srcPort := 2, dstPort := 5000, udpLen := 24, payload := [], roce := none } : Frame)).isPtp = true ∧ (({ isUdp := false, isPtp := false, ipv6 := false, srcAddr := 1, srcPort := 2, dstPort := 5000, udpLen := 24, payload := [], roce := none } : Frame)).isPtp = false ∧ 5 ≠ State.reset.device := by decide +kernel
theorem witness_PortEvents_sorted : ¬ ((∃ vf p, List.find? (fun (x : Nat × Nat) => x.2 == ({ isUdp := false, isPtp := true, ipv6 := false, srcAddr := 1, srcPort := 2, dstPort := 5000, udpLen := 24, payload := [], roce := none } : Frame).dstPort) ({ State.reset with eth := [(0, { enabled := true, ipv4 := true })], udpPorts := [(3, 5000)] } : State).udpPorts = some (vf, p)) ∧ ({ isUdp := false, isPtp := true, ipv6 := false, srcAddr := 1, srcPort := 2, dstPort := 5000, udpLen := 24, payload := [], roce := none } : Frame).isUdp = true ∧ (if ({ isUdp := false, isPtp := true, ipv6 := false, srcAddr := 1, srcPort := 2, dstPort := 5000, udpLen := 24, payload := [], roce := none } : Frame).ipv6 then (({ State.reset with eth := [(0, { enabled := true, ipv4 := true })], udpPorts := [(3, 5000)] } : State).ethPort 0).ipv6 else (({ State.reset with eth := [(0, { enabled := true, ipv4 := true })], udpPorts := [(3, 5000)] } : State).ethPort 0).ipv4) = true) ∧ ¬ ((∃ vf p, List.find? (fun (x : Nat × Nat) => x.2 == ({ isUdp := false, isPtp := false, ipv6 := false, srcAddr := 1, srcPort := 2, dstPort := 5000, udpLen := 24, payload := [], roce := none } : Frame).dstPort) ({ State.reset with eth := [(0, { enabled := true, ipv4 := true })], udpPorts := [(3, 5000)] } : State).udpPorts = some (vf, p)) ∧ ({ isUdp := false, isPtp := false, ipv6 := false, srcAddr := 1, srcPort := 2, dstPort := 5000, udpLen := 24, payload := [], roce := none } : Frame).isUdp = true ∧ (if ({ isUdp := false, isPtp := false, ipv6 := false, srcAddr := 1, srcPort := 2, dstPort := 5000, udpLen := 24, payload := [], roce := none } : Frame).ipv6 then (({ State.reset with eth := [(0, { enabled := true, ipv4 := true })], udpPorts := [(3, 5000)] } : State).ethPort 0).ipv6 else (({ State.reset with eth := [(0, { enabled := true, ipv4 := true })], udpPorts := [(3, 5000)] } : State).ethPort 0).ipv4) = true) := by refine ⟨fun h => ?_, fun h => ?_⟩ <;> exact absurd h.2.1 (by decide)
theorem witness_PortEvents_links : ({ State.reset with cxl := [(0, { trained := true, rate := 64 })] } : State).cxl.get 0 {} = { trained := true, rate := 64 } ∧ State.reset.cxl.get 0 {} = {} ∧ State.reset.boot.stage ≠ 2 ∧ State.reset.boot.stage ≠ 3 ∧ ({ State.reset with boot := { State.reset.boot with stage := 3 } } : State).boot.stage = 3 ∧ ¬ (State.reset.inbound.get 1 []).length < State.reset.inboundQuota 1 ∧ (State.reset.inbound.get 1 []).length < (State.reset.setReg (schBase + 0x108 + 16 * 1) 0x0010000000000000).inboundQuota 1 ∧ State.reset.resident = 32 ∧ (State.reset.setResident 1).resident = 1 ∧ 5 ≠ State.reset.device ∧ (∀ p ∈ State.reset.tow, p.1 ≠ 0 → p.2.up = true → p.2.partner ≠ 5) := by decide +kernel
theorem witness_PortEvents_roce : (match ({ (plainTables.foldl (fun (s : State) p => s.write64 p.1 p.2) ((State.reset.setReg tffBase 0x10000).setReg (tffBase + 8) 1)) with queuePairs := [{ num := 1, vf := 0, asid := 0, mtu := 1024 }] } : State).rocePages 0 0 accEWrite (chunks 0x40000 8) with
  | (u, some ps) => decide (byteKeys ps).Nodup && memWf u.mem
  | _ => false) = true ∧ (match ({ (plainTables.foldl (fun (s : State) p => s.write64 p.1 p.2) ((State.reset.setReg tffBase 0x10000).setReg (tffBase + 8) 1)) with queuePairs := [{ num := 1, vf := 0, asid := 0, mtu := 1024 }] } : State).rocePages 0 0 accERead (chunks 0x40000 8) with
  | (u, some ps) => (byteKeys ps).all fun k => !(u.isPoisoned k)
  | _ => false) = true ∧ (match ({ (plainTables.foldl (fun (s : State) p => s.write64 p.1 p.2) ((State.reset.setReg tffBase 0x10000).setReg (tffBase + 8) 1)) with queuePairs := [{ num := 1, vf := 0, asid := 0, mtu := 1024 }] } : State).rocePages 0 0 accEWrite (chunks 0x400000000 8) with
  | (_, none) => true
  | _ => false) = true ∧ (match ({ (plainTables.foldl (fun (s : State) p => s.write64 p.1 p.2) ((State.reset.setReg tffBase 0x10000).setReg (tffBase + 8) 1)) with queuePairs := [{ num := 1, vf := 0, asid := 0, mtu := 1024 }] } : State).walk 0 0 0x40000 with
  | .leaf pte _ _ => leafAllows pte accERead false
  | _ => false) = true ∧ (match ({ (plainTables.foldl (fun (s : State) p => s.write64 p.1 p.2) ((State.reset.setReg tffBase 0x10000).setReg (tffBase + 8) 1)) with queuePairs := [{ num := 1, vf := 0, asid := 0, mtu := 1024 }] } : State).walk 0 0 0x400000000 with
  | .stop _ _ _ => true
  | _ => false) = true ∧ (({ (plainTables.foldl (fun (s : State) p => s.write64 p.1 p.2) ((State.reset.setReg tffBase 0x10000).setReg (tffBase + 8) 1)) with queuePairs := [{ num := 1, vf := 0, asid := 0, mtu := 1024 }] } : State).queuePairs.find? (fun q => q.num == 1)).isSome = true ∧ ({ (plainTables.foldl (fun (s : State) p => s.write64 p.1 p.2) ((State.reset.setReg tffBase 0x10000).setReg (tffBase + 8) 1)) with queuePairs := [{ num := 1, vf := 0, asid := 0, mtu := 1024 }] } : State).queuePairs.find? (fun q => q.num == 2) = none := by decide +kernel
theorem witness_PortEvents_datagrams : ({ State.reset with classes := [{ num := 5, entry := 0, size := 64, init := false, tier := 0, place := 1, vf := 0, idle := 0, first := 0, count := 1, hslice := 0, tphys := 0, leaving := false }] } : State).datagramDrop 0 ({ isUdp := true, isPtp := false, ipv6 := false, srcAddr := 1, srcPort := 2, dstPort := 5000, udpLen := 24, payload := [0, 5, 0, 0, 0, 0, 0, 0, 0, 0, 0, 7, 1, 2, 3, 4], roce := none } : Frame) = none ∧ State.reset.datagramDrop 0 ({ isUdp := true, isPtp := false, ipv6 := false, srcAddr := 1, srcPort := 2, dstPort := 5000, udpLen := 24, payload := [0, 5, 0, 0, 0, 0, 0, 0, 0, 0, 0, 7, 1, 2, 3, 4], roce := none } : Frame) = some .noClass ∧ ({ State.reset with classes := [{ num := 5, entry := 0, size := 64, init := false, tier := 0, place := 1, vf := 0, idle := 0, first := 0, count := 1, hslice := 0, tphys := 0, leaving := false }] } : State).datagramDrop 0 ({ isUdp := true, isPtp := false, ipv6 := false, srcAddr := 1, srcPort := 2, dstPort := 5000, udpLen := 25, payload := [0, 5, 0, 0, 0, 0, 0, 0, 0, 0, 0, 7, 1, 2, 3, 4], roce := none } : Frame) = some .length ∧ ({ State.reset with classes := [{ num := 5, entry := 0, size := 64, init := false, tier := 0, place := 1, vf := 0, idle := 0, first := 0, count := 1, hslice := 0, tphys := 0, leaving := false }] } : State).datagramDrop 0 ({ isUdp := true, isPtp := false, ipv6 := false, srcAddr := 1, srcPort := 2, dstPort := 5000, udpLen := 24, payload := [0, 5, 0, 1, 0, 0, 0, 0, 0, 0, 0, 7, 1, 2, 3, 4], roce := none } : Frame) = some .flags ∧ (({ State.reset with classes := [{ num := 5, entry := 0, size := 64, init := false, tier := 0, place := 1, vf := 0, idle := 0, first := 0, count := 1, hslice := 0, tphys := 0, leaving := false }] } : State).setResident 0).resident = 0 ∧ ({ State.reset with classes := [{ num := 5, entry := 0, size := 64, init := false, tier := 0, place := 1, vf := 0, idle := 0, first := 0, count := 1, hslice := 0, tphys := 0, leaving := false }] } : State).resident ≠ 0 ∧ (({ State.reset with classes := [{ num := 5, entry := 0, size := 64, init := false, tier := 0, place := 1, vf := 0, idle := 0, first := 0, count := 1, hslice := 0, tphys := 0, leaving := false }] } : State).inbound.get 0 []).length < (({ State.reset with classes := [{ num := 5, entry := 0, size := 64, init := false, tier := 0, place := 1, vf := 0, idle := 0, first := 0, count := 1, hslice := 0, tphys := 0, leaving := false }] } : State).setReg (schBase + 0x108) 0x0010000000000000).inboundQuota 0 ∧ ({ State.reset with classes := [{ num := 5, entry := 0, size := 64, init := false, tier := 0, place := 1, vf := 0, idle := 0, first := 0, count := 1, hslice := 0, tphys := 0, leaving := false }] } : State).inboundQuota 0 ≤ (({ State.reset with classes := [{ num := 5, entry := 0, size := 64, init := false, tier := 0, place := 1, vf := 0, idle := 0, first := 0, count := 1, hslice := 0, tphys := 0, leaving := false }] } : State).inbound.get 0 []).length ∧ (({ State.reset with classes := [{ num := 5, entry := 0, size := 64, init := false, tier := 0, place := 1, vf := 0, idle := 0, first := 0, count := 1, hslice := 0, tphys := 0, leaving := false }] } : State).ethPort 0).routes.length < 65536 := by decide +kernel
theorem witness_PortEvents_route : (match (({ (plainTables.foldl (fun (s : State) p => s.write64 p.1 p.2) ((State.reset.setReg tffBase 0x10000).setReg (tffBase + 8) 1)) with queuePairs := [{ num := 1, vf := 0, asid := 0, mtu := 1024 }] } : State).write64 0x30000 0x1C0000000000024F).rocePages 0 0 accERead [(0x40000, 8)] with
  | (u, some ps) => ps.any fun p => isRemoteKey p.1 && (u.routeTo (keyDev p.1)).isNone
  | _ => false) = true ∧ (match ({ (plainTables.foldl (fun (s : State) p => s.write64 p.1 p.2) ((State.reset.setReg tffBase 0x10000).setReg (tffBase + 8) 1)) with queuePairs := [{ num := 1, vf := 0, asid := 0, mtu := 1024 }] } : State).walk 0 0 0x40000 with
  | .leaf pte at_ _ => (({ (plainTables.foldl (fun (s : State) p => s.write64 p.1 p.2) ((State.reset.setReg tffBase 0x10000).setReg (tffBase + 8) 1)) with queuePairs := [{ num := 1, vf := 0, asid := 0, mtu := 1024 }] } : State).recall at_).read64 at_ == pte
  | _ => false) = true := by decide +kernel
theorem witness_BootAndAdministration : (State.reset.boot.images.getD 1 {}).readable = false ∧ State.reset.boot.stage = 0 ∧ ({ State.reset with boot := { stage := 1 } } : State).boot.stage = 1 ∧ ({ State.reset with boot := { stage := 2, loaded := true } } : State).boot.stage = 2 ∧ ({ State.reset with boot := { stage := 2, loaded := true } } : State).boot.loaded = true ∧ 2 ^ 20 ≤ ({ State.reset with boot := { attIndex := 0x100000 } } : State).boot.attIndex ∧ ({ State.reset with boot := { claimed := [4] } } : State).boot.claimed = [4] ∧ State.reset.boot.minSvn < 1 ∧ ({ State.reset with boot := { slots := [{}, { digest := some 1 }] } } : State).boot.slots.length = 2 ∧ ({ State.reset with boot := { tripped := true } } : State).boot.tripped = true ∧ max (State.reset.regBits (fleetBase + 0x40) 15 8) (State.reset.regBits (fleetBase + 0x40) 7 0 + 5) ≤ 110 := by decide +kernel
theorem witness_BootAndAdministration_images : ∃ b c d : Boot, (b.images.getD 1 {}).readable = true ∧ (∀ k, ¬ (k ∈ b.slots ∧ k.digest = some (Machine.keyDigest (b.images.getD 1 {}).key))) ∧ (c.images.getD 1 {}).readable = true ∧ (∃ k, (k ∈ c.slots ∧ k.digest = some (Machine.keyDigest (c.images.getD 1 {}).key)) ∧ k.revoked = false) ∧ (∃ k, k ∈ d.slots ∧ k.digest = some (Machine.keyDigest (d.images.getD 1 {}).key)) ∧ (∀ k, k ∈ d.slots ∧ k.digest = some (Machine.keyDigest (d.images.getD 1 {}).key) → k.revoked = true) := ⟨{ images := [({ readable := true } : Image), ({ readable := true } : Image)], slots := [] }, { images := [({ readable := true } : Image), ({ readable := true } : Image)], slots := [{ digest := some (Machine.keyDigest (({ readable := true } : Image)).key) }] }, { images := [({ readable := true } : Image), ({ readable := true } : Image)], slots := [{ digest := some (Machine.keyDigest (({ readable := true } : Image)).key), revoked := true }] }, by simp⟩
theorem witness_BootAndAdministration_port : (({ State.reset with tow := [(0, { seen := true })] } : State).towPort 0).seen = true ∧ (State.reset.towPort 0).seen = false ∧ ({ State.reset with boot := { stage := 2 } } : State).boot.stage = 2 := by decide +kernel
theorem witness_BootAndAdministration_heat : (State.reset.die 0).dutyAt + 100000 ≤ ({ State.reset with ptp := 100000 } : State).ptp ∧ State.reset.keys.get 1 0 = 0 ∧ ({ State.reset with keys := [(1, 1)] } : State).keys.get 1 0 = 1 ∧ 1 ≠ State.reset.resident ∧ (∀ d < 4, State.reset.regBits (tffBase + 0x718) (8 * d + 4) (8 * d) ≠ 1) ∧ ({ State.reset with keys := [(1, 2)] } : State).keys.get 1 0 = 2 ∧ (1 : W64).extractLsb' 0 2 = 1 ∧ (2 : W64).extractLsb' 0 2 = 2 ∧ (3 : W64).extractLsb' 0 2 = 3 ∧ State.reset.regBits (fleetBase + 0x38) 0 0 = 0 ∧ schBase % 8 = 0 ∧ 1 % 8 ≠ 0 := by decide +kernel
theorem witness_StepRuns : let s := State.reset.withFetchWord 32 0x02043020; let u := s.settled; let v : State := { u with agenda := [] }; let w := v.beginIssue 0; u.agenda = [.issue 0] ∧ v.boot.tripped = false ∧ v.mayIssue 0 = true ∧ w.me.dueTrap = none ∧ placeOf w.me.pc.toNat = .translated ∧ w.fetch.2.toOption = some [0x02043020] ∧ (match w.translate (coreOf 0) (w.vfOf 0) w.me.asid w.me.privileged w.me.pc.toNat accFetch with | (x, .ok p) => !(x.isPoisoned p.key) && BitVec.ofNat 32 (x.read p.key 4) == 0x02043020 | _ => false) = true ∧ (0x02043020 : W32).extractLsb' 0 2 = 0 := by decide +kernel
theorem witness_StepRuns_decodes : decodeWords [0x02043020] = .ok (.add 3 1 2 0, []) ∧ decodeWords [0] = .error .illegalMajor := by exact ⟨rfl, rfl⟩
theorem witness_StepRuns_trap : let s := (State.reset.withFetchWord 32 0).modCtx 0 fun c => { c with dueTrap := some (0x0C, 8) }; let u := s.settled; let v : State := { u with agenda := [] }; u.agenda = [.issue 0] ∧ v.boot.tripped = false ∧ v.mayIssue 0 = true ∧ (v.beginIssue 0).me.dueTrap = some (0x0C, 8) := by decide +kernel
theorem witness_StepRuns_default : ∃ s : State, s.settled.agenda = [] ∧ s.settled.due = none ∧ s.settled.nextReady = some 0 := ⟨{ (State.reset.withFetchWord 32 0x02043020) with agenda := [] }, by decide +kernel⟩
theorem witness_DecodeEncode : (Instr.mmag 0 16 0 17 0 5 1 1 0 1 0).encodable = true := by decide
theorem witness_MemoryInvariant : memWf State.reset.mem = true ∧ ∃ t, step State.reset = .next t := ⟨rfl, _, rfl⟩
theorem witness_StepRuns_route : (match (((plainTables.foldl (fun (s : State) p => s.write64 p.1 p.2) ((State.reset.setReg tffBase 0x10000).setReg (tffBase + 8) 1)).write64 0x30000 0x1C0000000000025F).modCtx 0 fun c => { c with pc := 0x40000 }).translate 0 0 0 (((plainTables.foldl (fun (s : State) p => s.write64 p.1 p.2) ((State.reset.setReg tffBase 0x10000).setReg (tffBase + 8) 1)).write64 0x30000 0x1C0000000000025F).modCtx 0 fun c => { c with pc := 0x40000 }).me.privileged 0x40000 accFetch with
  | (_, .ok p) => p.remote && ((((plainTables.foldl (fun (s : State) p => s.write64 p.1 p.2) ((State.reset.setReg tffBase 0x10000).setReg (tffBase + 8) 1)).write64 0x30000 0x1C0000000000025F).modCtx 0 fun c => { c with pc := 0x40000 }).routeTo (keyDev p.key)).isNone && !((((plainTables.foldl (fun (s : State) p => s.write64 p.1 p.2) ((State.reset.setReg tffBase 0x10000).setReg (tffBase + 8) 1)).write64 0x30000 0x1C0000000000025F).modCtx 0 fun c => { c with pc := 0x40000 }).me.wait.any fun q => !q.unissued)
  | _ => false) = true := by decide +kernel

end Sys2Proof.Tests
end

section
/-! The end of a context and the entry into a trap: what `close` and `takeTrap` change. -/

namespace Sys2Proof.Machine

theorem ctx_setCtx_other (s : State) {id j : Nat} (c : Ctx) (h : j ≠ id) : (s.setCtx id c).ctx j = s.ctx j := by
  rw [ctx_setCtx, if_neg h]

/-- Outside launches, queues and images nothing hears of a failure. -/
theorem failLaunch_frame (s : State) (h code : Nat) (wid : Option Nat) :
    ∃ ls k im, s.failLaunch h code wid = { s with launches := ls, cores := k, images := im } := by
  unfold State.failLaunch
  split
  · exact ⟨_, _, _, rfl⟩
  · split <;> exact ⟨_, _, _, rfl⟩

theorem failItem_frame (s : State) (c : Ctx) (code : Nat) :
    ∃ ls k im, s.failItem c code = { s with launches := ls, cores := k, images := im } := by
  have fold : ∀ (items : List (Nat × Nat)) (u : State),
      ∃ ls k im, items.foldl (fun s i => s.failLaunch i.1 code (some i.2)) u = { u with launches := ls, cores := k, images := im } := by
    intro items
    induction items with
    | nil => exact fun u => ⟨_, _, _, rfl⟩
    | cons i items ih =>
      intro u
      obtain ⟨ls, k, im, h⟩ := failLaunch_frame u i.1 code (some i.2)
      obtain ⟨ls', k', im', h'⟩ := ih (u.failLaunch i.1 code (some i.2))
      exact ⟨ls', k', im', by rw [List.foldl_cons, h', h]⟩
  unfold State.failItem
  split
  · split
    · exact failLaunch_frame ..
    · exact ⟨_, _, _, rfl⟩
  · exact fold _ s

/-- A context that leaves the wired barrier: its core's barrier and queue, the traffic bits, and its own list of operations change. -/
theorem leaveMmag_frame (s : State) (ctx : Nat) :
    (∃ cs k a, s.leaveMmag ctx = { s with ctxs := cs, cores := k, activity := a }) ∧
    (∃ ops, (s.leaveMmag ctx).ctx ctx = { s.ctx ctx with ops := ops }) ∧ ∀ j, j ≠ ctx → (s.leaveMmag ctx).ctx j = s.ctx j := by
  have enter : ∀ (u : State) (k : Nat) (q : EngCmd), ∃ m a, u.enterQueue k 0 q = { u with cores := m, activity := a } := by
    intro u k q
    unfold State.enterQueue State.active
    dsimp only
    split <;> exact ⟨_, _, rfl⟩
  unfold State.leaveMmag
  dsimp only
  split
  · split
    · split
      · obtain ⟨m, a, h⟩ := enter (s.modCore (coreOf ctx) fun c => { c with mmag := none }) (coreOf ctx) _
        rw [h]
        refine ⟨⟨_, _, _, rfl⟩, ⟨_, ctx_setCtx_same ..⟩, fun j hj => ctx_setCtx_other _ _ hj⟩
      · exact ⟨⟨_, _, _, rfl⟩, ⟨_, rfl⟩, fun _ _ => rfl⟩
    · exact ⟨⟨_, _, _, rfl⟩, ⟨_, rfl⟩, fun _ _ => rfl⟩
  · exact ⟨⟨_, _, _, rfl⟩, ⟨_, rfl⟩, fun _ _ => rfl⟩

/-- A helper that closes: what the state keeps, what its context becomes, and that no other context hears of it. -/
theorem close_frame (s : State) (ctx : Nat) (failed : Bool) (code : Nat) :
    (∃ cs k a ls im, s.close ctx failed code = { s with ctxs := cs, cores := k, activity := a, launches := ls, images := im }) ∧
    (∀ j, j ≠ ctx → (s.close ctx failed code).ctx j = s.ctx j) := by
  obtain ⟨⟨cs, k, a, h⟩, -, ho⟩ := leaveMmag_frame s ctx
  have fails : ∀ (u : State) (c : Ctx), ∃ ls k im,
      (if failed then u.failItem c (code % 65536) else u) = { u with launches := ls, cores := k, images := im } := by
    intro u c
    split
    · exact failItem_frame ..
    · exact ⟨_, _, _, rfl⟩
  unfold State.close
  split
  · exact ⟨⟨_, _, _, _, _, rfl⟩, fun _ _ => rfl⟩
  · dsimp only
    generalize hl : s.leaveMmag ctx = l at *
    obtain ⟨ls, k', im, hf⟩ := fails (l.setCtx ctx { l.ctx ctx with life := .closing, failed := failed, code := code % 65536, wait := none, inMiss := false, fault := none, pend := (l.ctx ctx).pend.filter Pend.isRelease }) (l.ctx ctx)
    rw [hf]
    refine ⟨?_, fun j hj => (ctx_setCtx_other l _ hj).trans (ho j hj)⟩
    clear hf hl ho
    subst h
    exact ⟨_, _, _, _, _, rfl⟩

/-- The context of a helper that closes. -/
theorem close_ctx (s : State) (ctx : Nat) (failed : Bool) (code : Nat) (h : (s.ctx ctx).life ≠ .closing) :
    ∃ ops, (s.close ctx failed code).ctx ctx = { s.ctx ctx with ops := ops, life := .closing, failed := failed, code := code % 65536, wait := none, inMiss := false, fault := none, pend := (s.ctx ctx).pend.filter Pend.isRelease } := by
  obtain ⟨-, ⟨ops, hc⟩, -⟩ := leaveMmag_frame s ctx
  refine ⟨ops, ?_⟩
  have keep : ∀ (u : State) (c : Ctx), (if failed then u.failItem c (code % 65536) else u).ctx ctx = u.ctx ctx := by
    intro u c
    split
    · obtain ⟨ls, k, im, hf⟩ := failItem_frame u c (code % 65536)
      rw [hf]; rfl
    · rfl
  unfold State.close
  rw [if_neg h]
  dsimp only
  rw [keep, ctx_setCtx_same, hc]

theorem close_closing (s : State) (ctx : Nat) (failed : Bool) (code : Nat) (h : (s.ctx ctx).life = .closing) : s.close ctx failed code = s :=
  if_pos h

/-- The context with TCAUSE, TPCV and TVAL written. -/
def Ctx.trapped (c : Ctx) (cause : Nat) (tval pc : W64) : Ctx :=
  { ((c.setK 11 (BitVec.ofNat 64 cause)).setK 12 pc).setK 13 tval with wait := none, pc := pc }

theorem trapped_k (c : Ctx) (cause : Nat) (tval pc : W64) (n : Nat) :
    (c.trapped cause tval pc).k n = if n = 13 then tval else if n = 12 then pc else if n = 11 then BitVec.ofNat 64 cause else c.k n := by
  simp only [Ctx.trapped, Ctx.k, Ctx.setK, get_put]

/-- The state with the three words written and a trap record for Cleoz (R12). -/
def State.trapNoted (s : State) (ctx cause : Nat) (tval pc : W64) : State :=
  { s.setCtx ctx ((s.ctx ctx).trapped cause tval pc) with
    records := s.records ++ [{ ctx := ctx, hnum := (s.ctx ctx).hnum, cause := cause, pc := pc, tval := tval }] }

theorem trapNoted_ctx (s : State) (ctx cause : Nat) (tval pc : W64) :
    (s.trapNoted ctx cause tval pc).ctx ctx = (s.ctx ctx).trapped cause tval pc := ctx_setCtx_same ..

theorem trapNoted_other (s : State) (ctx cause : Nat) (tval pc : W64) {j : Nat} (h : j ≠ ctx) :
    (s.trapNoted ctx cause tval pc).ctx j = s.ctx j := ctx_setCtx_other s _ h

/-- Where a trap goes (R12): each of the four fates, from the state in which the three words are written. -/
theorem takeTrap_eq (s : State) (ctx cause : Nat) (tval pc : W64) (info : Option FaultInfo) :
    s.takeTrap ctx cause tval pc info =
      let c := (s.ctx ctx).trapped cause tval pc
      let u := s.setCtx ctx c
      if cause = 0x0A ∧ (s.ctx ctx).k 6 ≠ 0 ∧ (s.ctx ctx).inMiss = false then
        u.setCtx ctx { c with inMiss := true, missTop := c.inTrap, pc := c.k 6 }
      else if isHelper ctx = false then u.setCtx ctx { c with inTrap := true, missTop := false, pc := s.cleozTrap }
      else if cause = 0x04 then u.setCtx ctx { c with wait := some .fault, fault := info }
      else (s.trapNoted ctx cause tval pc).close ctx true (0x0100 + cause) := by
  have hk : ((s.ctx ctx).trapped cause tval pc).k 6 = (s.ctx ctx).k 6 := by simp [trapped_k]
  change (let u := s.setCtx ctx ((s.ctx ctx).trapped cause tval pc)
    let c := u.ctx ctx
    if cause = 0x0A ∧ c.k 6 ≠ 0 ∧ c.inMiss = false then u.setCtx ctx { c with inMiss := true, missTop := c.inTrap, pc := c.k 6 }
    else if isHelper ctx = false then u.setCtx ctx { c with inTrap := true, missTop := false, pc := u.cleozTrap }
    else if cause = 0x04 then u.setCtx ctx { c with wait := some .fault, fault := info }
    else ({ u with records := u.records ++ [{ ctx := ctx, hnum := c.hnum, cause := cause, pc := pc, tval := tval }] } : State).close
      ctx true (0x0100 + cause)) = _
  simp only [ctx_setCtx_same, hk]
  rfl

/-- What every trap writes and leaves alone. -/
structure TrapKeeps (s t : State) (ctx cause : Nat) (tval pc : W64) : Prop where
  k      : ∀ n, (t.ctx ctx).k n = ((s.ctx ctx).trapped cause tval pc).k n
  regs   : (t.ctx ctx).regs = (s.ctx ctx).regs
  next   : (t.ctx ctx).nextIssue = (s.ctx ctx).nextIssue
  rest   : t.mem = s.mem ∧ t.flights = s.flights ∧ t.admin = s.admin
  others : ∀ id, id ≠ ctx → t.ctx id = s.ctx id

/-- A trap that only sets its context. -/
theorem TrapKeeps.of_setCtx {s : State} {ctx cause : Nat} {tval pc : W64} (u : State) (c : Ctx)
    (hu : u = s.setCtx ctx ((s.ctx ctx).trapped cause tval pc)) (hk : c.kregs = ((s.ctx ctx).trapped cause tval pc).kregs)
    (hr : c.regs = (s.ctx ctx).regs) (hn : c.nextIssue = (s.ctx ctx).nextIssue) : TrapKeeps s (u.setCtx ctx c) ctx cause tval pc := by
  subst hu
  refine ⟨fun n => ?_, ?_, ?_, ⟨rfl, rfl, rfl⟩, fun id hid => ?_⟩
  · rw [ctx_setCtx_same]; simp only [Ctx.k, hk]
  · rw [ctx_setCtx_same, hr]
  · rw [ctx_setCtx_same, hn]
  · rw [ctx_setCtx_other _ _ hid, ctx_setCtx_other _ _ hid]

/-- The context of a helper that closes has the registers that it had. -/
theorem close_keeps_regs (s : State) (ctx : Nat) (failed : Bool) (code : Nat) :
    ((s.close ctx failed code).ctx ctx).kregs = (s.ctx ctx).kregs ∧ ((s.close ctx failed code).ctx ctx).regs = (s.ctx ctx).regs ∧
      ((s.close ctx failed code).ctx ctx).nextIssue = (s.ctx ctx).nextIssue ∧ ((s.close ctx failed code).ctx ctx).life = .closing := by
  by_cases h : (s.ctx ctx).life = .closing
  · rw [close_closing s ctx failed code h]
    exact ⟨rfl, rfl, rfl, h⟩
  · obtain ⟨ops, hc⟩ := close_ctx s ctx failed code h
    rw [hc]
    exact ⟨rfl, rfl, rfl, rfl⟩

theorem takeTrap_keeps (s : State) (ctx cause : Nat) (tval pc : W64) (info : Option FaultInfo) :
    TrapKeeps s (s.takeTrap ctx cause tval pc info) ctx cause tval pc := by
  rw [takeTrap_eq]
  dsimp only
  split
  · exact .of_setCtx _ _ rfl rfl rfl rfl
  · split
    · exact .of_setCtx _ _ rfl rfl rfl rfl
    · split
      · exact .of_setCtx _ _ rfl rfl rfl rfl
      · obtain ⟨hk, hr, hn, -⟩ := close_keeps_regs (s.trapNoted ctx cause tval pc) ctx true (0x0100 + cause)
        obtain ⟨⟨cs, k, a, ls, im, hf⟩, ho⟩ := close_frame (s.trapNoted ctx cause tval pc) ctx true (0x0100 + cause)
        rw [trapNoted_ctx] at hk hr hn
        refine ⟨fun n => by simp only [Ctx.k, hk], hr, hn, ?_, fun id hid => (ho id hid).trans (trapNoted_other s _ _ _ _ hid)⟩
        rw [hf]
        exact ⟨rfl, rfl, rfl⟩

end Sys2Proof.Machine

open Sys2Proof Sys2Proof.Machine

/-- Settles O14: the words and the frame by `takeTrap_keeps`, the four fates by `takeTrap_eq`. -/
theorem trapEntry : Obligations.TrapEntry := by
  intro s ctx cause tval pc info hcause c t n handler
  have keeps : TrapKeeps s t ctx cause tval pc := takeTrap_keeps s ctx cause tval pc info
  have eq : t = _ := takeTrap_eq s ctx cause tval pc info
  have k (i : Nat) : n.k i = _ := (keeps.k i).trans (trapped_k c cause tval pc i)
  refine ⟨by simp [k], by simp [k], by simp [k], fun i h1 h2 h3 => by simp [k, h1, h2, h3], keeps.regs, keeps.next, keeps.rest.1,
    keeps.rest.2.1, keeps.rest.2.2, keeps.others, fun hh => ?_, fun hh hc => ?_, fun hh hc h4 => ?_, fun hh hc h4 => ?_⟩
  · have hn : t = _ := eq.trans (if_pos hh)
    have hctx : n = _ := (congrArg (·.ctx ctx) hn).trans (ctx_setCtx_same ..)
    rw [hctx, hn]
    refine ⟨by simp [trapped_k]; rfl, rfl, ?_, rfl, rfl, rfl⟩
    simp [Ctx.inView]
  · have hn : t = _ := eq.trans ((if_neg hh).trans (if_pos hc))
    have hctx : n = _ := (congrArg (·.ctx ctx) hn).trans (ctx_setCtx_same ..)
    rw [hctx, hn]
    refine ⟨rfl, rfl, ?_, rfl, rfl, rfl⟩
    simp [Ctx.inView]
  · have hn : t = _ := eq.trans ((if_neg hh).trans ((if_neg (by simp [hc])).trans (if_pos h4)))
    have hctx : n = _ := (congrArg (·.ctx ctx) hn).trans (ctx_setCtx_same ..)
    rw [hctx, hn]
    exact ⟨rfl, rfl, rfl, rfl, rfl⟩
  · have hn : t = _ := eq.trans ((if_neg hh).trans ((if_neg (by simp [hc])).trans (if_neg h4)))
    have hl : n.life = .closing := by
      simp only [n, hn]; exact (close_keeps_regs ..).2.2.2
    refine ⟨?_, hl, fun hlive => ?_⟩
    · obtain ⟨⟨cs, k, a, ls, im, hf⟩, -⟩ := close_frame (s.trapNoted ctx cause tval pc) ctx true (0x0100 + cause)
      exact (congrArg State.records (hn.trans hf)).trans rfl
    · obtain ⟨ops, hx⟩ := close_ctx (s.trapNoted ctx cause tval pc) ctx true (0x0100 + cause) (by rw [trapNoted_ctx]; exact hlive)
      have hctx : n = _ := (congrArg (·.ctx ctx) hn).trans hx
      rw [hctx]
      exact ⟨rfl, by dsimp only; omega, rfl⟩
end

section
/-! Four statements that fail, each with a state in which they do. -/

namespace Sys2Proof.Machine

/-! ## FINISH of a helper that the wired barrier has let go -/

theorem exec_finish_clear (s : State) (st : St) (h : isHelper s.cur = true) (hc : s.Clear [] []) :
    exec (.finish st) s = .next (s.close s.cur false 0) := by
  rw [exec_finish]
  unfold execFinish endHelper State.onlyIf
  rw [if_pos h]
  exact issue_clear s [] [] _ hc

/-- The helper of slot 1 of core 0 issues; the wired barrier has let it go (R133). -/
def releasedHelper : State := { State.reset with cur := 4096, cores := [(0, { mmag := some (4096, .empty, true) })] }

/-! ## A gang whose members' masks disagree -/

/-- A gang launch with handle 0. -/
def gangLaunch : Launch := { headerOf State.reset [] with gang := true }

/-- Core 1 names cores 0 and 1 as its gang; core 0 names none and queues an item of the launch. -/
def halfGang : State := { State.reset with cores := [(0, { workq := [{ handle := 0, first := 0, count := 1 }] }), (1, { gangMask := 3 })] }

theorem pop_halfGang : (halfGang.pop 1 gangLaunch).2 = .none_ := rfl

/-! ## A producer whose completion level exceeds its fields -/

/-- A producer without fields, with completion level 1. -/
def bareProducer : Launch := { headerOf State.reset [] with handle := 7, clevel := 1, extents := [5, 0, 0, 0, 0, 0], bitmap := 8 }

/-- A launch of three placement groups that depends on it by groups. -/
def groupConsumer : Launch :=
  { headerOf State.reset [] with widths := [2, 0, 0, 0, 0, 0], extents := [3, 0, 0, 0, 0, 0], plevel := 1, mode := 2, producer := 7 }

/-- Of a list of conditions none of which holds, none holds in any place. -/
theorem not_getD_false {l : List Prop} (h : ∀ P ∈ l, ¬ P) (k : Nat) : ¬ l.getD k False := by
  by_cases hk : k < l.length
  · rw [List.getD_eq_getElem _ _ hk]
    exact h _ (List.getElem_mem hk)
  · rw [List.getD_eq_default _ _ (by omega)]
    exact id

def producerState : State := { State.reset with launches := [bareProducer] }

theorem refusal_groupConsumer : refusal producerState groupConsumer false = 8 := by decide +kernel

end Sys2Proof.Machine

open Sys2Proof Sys2Proof.Machine

/-- Refutes O8: FINISH of a helper whose MMAG the wired barrier has let go puts its command into the matrix queue of its core (R133),
so that more than the barrier and the helper changes. -/
theorem not_helperEndAndStatus : ¬ Obligations.HelperEndAndStatus := by
  rintro ⟨hends, -⟩
  obtain ⟨hfinish, -⟩ := (hends releasedHelper 0 0).1 rfl rfl
  have hclear : releasedHelper.Clear [] [] := by decide +kernel
  obtain ⟨t, ht, honly, -⟩ := hfinish hclear
  rw [exec_finish_clear _ _ rfl hclear] at ht
  cases ht
  exact absurd (congrArg (fun u : State => ((u.core 0).queues.get 0 []).length) honly.rest) (by decide +kernel)

/-- Refutes O10: the first member of a core's gang may itself name no gang; a pop finds nothing there, whatever its queue holds. -/
theorem not_workQueues : ¬ Obligations.WorkQueues := by
  rintro ⟨⟨-, hgang, -⟩, -⟩
  obtain ⟨-, hpop⟩ := hgang halfGang 1 gangLaunch rfl
  have h := congrArg Prod.snd (hpop 0 [1] { handle := 0, first := 0, count := 1 } [] rfl rfl rfl rfl (by decide))
  rw [pop_halfGang] at h
  cases h

/-- Refutes O11: the groups that a producer counts are those of its fields, so that a producer of a higher completion level than it has
fields has fewer than the product of that many extents, and its consumer is refused with code 0x08. -/
theorem not_launchAndWait : ¬ Obligations.LaunchAndWait := by
  rintro ⟨hcodes, -⟩
  have h := (hcodes producerState groupConsumer false rfl rfl).2 ?_
  · rw [refusal_groupConsumer] at h
    cases h
  · intro k _
    have hfirst : producerState.launches.find? (fun p => p.handle = groupConsumer.producer ∧ p.vf = groupConsumer.vf ∧
      (p.st ≠ .ended ∨ producerState.ptp ≤ p.endedAt + 1000000)) = some bareProducer := rfl
    have hone : ∀ j < 6, 0 < j → groupConsumer.widths.getD j 0 = 0 := by decide +kernel
    refine not_getD_false ?_ k
    simp only [List.forall_mem_cons, hfirst]
    refine ⟨by decide +kernel, ?_, by decide +kernel, by decide +kernel, by decide +kernel, by decide +kernel, by decide +kernel, ?_,
      by decide +kernel, by decide +kernel, by decide +kernel, by decide +kernel, by simp⟩
    · rintro (h | ⟨i, j, hij, hj, hi, h⟩)
      · exact absurd h (by decide +kernel)
      · exact h (hone j hj (by omega))
    · rintro ⟨-, h | ⟨p, hp, h⟩⟩
      · exact absurd h (by decide +kernel)
      · cases hp
        exact absurd h (by decide +kernel)
end

section
/-! What saving a context changes: memory and poison under its frame, its place among the contexts, arrivals at barriers, its accesses in
flight, and the list of saved contexts. -/

namespace Sys2Proof.Machine

theorem clearPoison_frame (s : State) (k n : Nat) : ∃ p, s.clearPoison k n = { s with poison := p } := by
  have fold : ∀ (l : List Nat) (u : State), ∃ p, l.foldl (fun s w => s.setPoison w false) u = { u with poison := p } := by
    intro l
    induction l with
    | nil => exact fun u => ⟨u.poison, rfl⟩
    | cons w l ih =>
      intro u
      obtain ⟨p, hp⟩ := ih (u.setPoison w false)
      exact ⟨p, hp⟩
  exact fold _ s

theorem putFields_frame (a : Nat) (l : List FrameField) (s : State) : ∃ m, s.putFields a l = { s with mem := m } := by
  induction l generalizing s with
  | nil => exact ⟨s.mem, rfl⟩
  | cons f l ih =>
    obtain ⟨m, hm⟩ := ih (s.write (a + f.1) f.2.1 f.2.2)
    exact ⟨m, hm⟩

theorem writeFrame_frame (s : State) (a : Nat) (l : List FrameField) : ∃ m p, s.writeFrame a l = { s with mem := m, poison := p } := by
  obtain ⟨m, hm⟩ := putFields_frame a l (s.zeroRange a 0x10000)
  obtain ⟨p, hp⟩ := clearPoison_frame ((s.zeroRange a 0x10000).putFields a l) a 0x10000
  unfold State.writeFrame
  rw [hp, hm]
  exact ⟨_, _, rfl⟩

theorem setBarrier_frame (s : State) (isC : Bool) (core : Nat) (b : Barrier) :
    ∃ k cl, s.setBarrier isC core b = { s with cores := k, clusters := cl } ∧ ∀ i, (cl.get i {}).split = (s.cluster i).split := by
  unfold State.setBarrier
  cases isC
  · exact ⟨_, _, rfl, fun _ => rfl⟩
  · refine ⟨_, _, rfl, fun i => ?_⟩
    rw [get_put]
    split
    · subst i; rfl
    · rfl

theorem withdraw_frame (s : State) (ctx : Nat) :
    ∃ k cl, s.withdraw ctx = { s with cores := k, clusters := cl } ∧ ∀ i, (cl.get i {}).split = (s.cluster i).split := by
  obtain ⟨k, cl, h, hs⟩ := setBarrier_frame s true (coreOf ctx) { s.barrier true (coreOf ctx) with
    arrivals := (s.barrier true (coreOf ctx)).arrivals.filter (·.1 ≠ ctx), held := (s.barrier true (coreOf ctx)).held.filter (·.1 ≠ ctx) }
  unfold State.withdraw
  dsimp only
  rw [h]
  exact ⟨_, _, rfl, hs⟩

theorem lowerYield_frame (s : State) (cl : Nat) : ∃ cs, s.lowerYield cl = { s with ctxs := cs } := by
  unfold State.lowerYield
  split
  · exact ⟨s.ctxs, rfl⟩
  · exact ⟨_, rfl⟩

theorem vacate_frame (s : State) (id : Nat) :
    ∃ cs k cl fl, s.vacate id = { s with ctxs := cs, cores := k, clusters := cl, flights := fl } ∧ ∀ i, (cl.get i {}).split = (s.cluster i).split := by
  obtain ⟨k, cl, h, hs⟩ := withdraw_frame s id
  unfold State.vacate
  dsimp only
  rw [h]
  split
  · obtain ⟨cs, hc⟩ := lowerYield_frame (({ ({ s with cores := k, clusters := cl } : State).freeCtx id with
      flights := s.flights.filter (·.ctx ≠ id) } : State).wakeIdle (coreOf id)) (clusterOf (coreOf id))
    exact ⟨_, _, _, _, hc, hs⟩
  · obtain ⟨cs, hc⟩ := lowerYield_frame ({ ({ s with cores := k, clusters := cl } : State).freeCtx id with
      flights := s.flights.filter (·.ctx ≠ id) } : State) (clusterOf (coreOf id))
    exact ⟨_, _, _, _, hc, hs⟩

/-- The record of a context that is saved. -/
def State.savedRec (s : State) (id frame kind : Nat) (gang : Option (Nat × Nat)) (mat pad : Bool) : Saved :=
  { frame := frame, id := id, core := coreOf id, vf := s.vfOf id, kind := kind, ctx := s.savedCtx id, gang := gang, resumed := false,
    mat := mat, pad := pad, redo := s.redoOf id }

theorem save_frame (s : State) (id frame kind : Nat) (gang : Option (Nat × Nat)) (mat pad : Bool) :
    ∃ cs k cl fl m p, s.save id frame kind gang mat pad =
        { s with ctxs := cs, cores := k, clusters := cl, flights := fl, mem := m, poison := p, saved := s.saved ++ [s.savedRec id frame kind gang mat pad] } ∧
      ∀ i, (cl.get i {}).split = (s.cluster i).split := by
  obtain ⟨m, p, hw⟩ := writeFrame_frame s frame (frameFields id (s.vfOf id) kind (s.savedCtx id) gang)
  unfold State.save
  dsimp only
  rw [hw]
  obtain ⟨cs, k, cl, fl, hv, hs⟩ := vacate_frame
    ({ s with mem := m, poison := p, saved := s.saved ++ [s.savedRec id frame kind gang mat pad] } : State) id
  exact ⟨cs, k, cl, fl, m, p, hv, hs⟩

theorem save_saved (s : State) (id frame kind : Nat) (gang : Option (Nat × Nat)) (mat pad : Bool) :
    (s.save id frame kind gang mat pad).saved = s.saved ++ [s.savedRec id frame kind gang mat pad] := by
  obtain ⟨cs, k, cl, fl, m, p, h, -⟩ := save_frame s id frame kind gang mat pad
  rw [h]

end Sys2Proof.Machine
end

section
/-! A page fault that is saved, and the state in which the statement about helpers fails. -/

namespace Sys2Proof.Machine

/-- FAULT_SAVE of a helper in no gang that has no fault record to push. -/
theorem exec_faultSave_alone (s : State) (core slot : Nat) (hm : s.maySave (ctxId core slot) = true)
    (hg : (s.ctx (ctxId core slot)).gang = false) (hf : (s.ctx (ctxId core slot)).fault = none) :
    exec (.faultSave core slot) s =
      .next (s.save (ctxId core slot) ((s.freeFrames (s.vfOf (ctxId core slot))).headD 0) 0 none false false) := by
  rw [exec_faultSave]
  unfold execFaultSave
  dsimp only
  generalize ctxId core slot = id at *
  have hms : s.members id = [id] := by unfold State.members; rw [if_neg (by simp [hg])]
  have hroom : 1 ≤ (s.freeFrames (s.vfOf id)).length := by
    simp only [State.maySave, hms, Bool.and_eq_true, decide_eq_true_eq, List.length_singleton] at hm
    exact hm.1.2
  obtain ⟨a, rest, hfr⟩ : ∃ a rest, s.freeFrames (s.vfOf id) = a :: rest := by
    cases h : s.freeFrames (s.vfOf id) with
    | nil => rw [h] at hroom; simp at hroom
    | cons a rest => exact ⟨a, rest, rfl⟩
  have hlink : ∀ l, s.gangLink id l = none := fun l => by unfold State.gangLink; rw [if_neg (by simp [hg])]
  rw [if_neg (by simp [hm]), hms, hfr, hg, hf]
  simp [saveAll, hlink]

/-- A page fault in slot 11 of core 5, which no core has: its CTXID is 45056, on core 0. -/
def strayFault : State :=
  { State.reset with admin := [(tffBase + 0x500, 0x100000), (tffBase + 0x508, 1)], noVf := false, ctxs := [(45056, { wait := some .fault })] }

end Sys2Proof.Machine

open Sys2Proof Sys2Proof.Machine

/-- Refutes O49: of a slot above 10 the context that is saved is that of CTXID 45056, whose core is core 0 and not the one that the event
names. -/
theorem not_helperEvents : ¬ Obligations.HelperEvents := by
  intro h
  obtain ⟨-, -, -, -, -, -, hsave, -⟩ := h strayFault 5 11 0 0 0 0 (by decide)
  have hmay : strayFault.maySave (ctxId 5 11) = true := by decide +kernel
  obtain ⟨t, ht, hone⟩ := hsave hmay
  obtain ⟨-, hsaved⟩ := hone rfl
  rw [exec_faultSave_alone _ _ _ hmay rfl rfl] at ht
  have ht := Host.Outcome.next.inj ht
  rw [← ht, save_saved] at hsaved
  exact absurd (congrArg (fun l : List Saved => l.map (·.core)) hsaved) (by decide +kernel)
end

section
/-! One step in which a context issues: its turn on the core, the fetch, and the instruction that runs. -/

namespace Sys2Proof.Machine

/-! ## The turn -/

theorem mayIssue_ready {s : State} {id : Nat} (h : s.mayIssue id = true) :
    s.isReady id = true ∧ (s.core (coreOf id)).issuedAt ≠ some s.cycle := by
  simp only [State.mayIssue, State.nextOn, beq_iff_eq] at h
  split at h
  · cases h
  · rename_i hfree
    exact ⟨List.find?_some h, fun hi => hfree (.inl hi)⟩

theorem took_unissued {t : State} {id : Nat} (h : (t.ctx id).wait.any Wait.unissued = true) : t.took id = t := if_pos h

theorem took_issued {t : State} {id : Nat} (h : (t.ctx id).wait.any Wait.unissued = false) :
    ((t.took id).core (coreOf id)).issuedAt = some t.cycle ∧ ((t.took id).core (coreOf id)).lastSlot = slotOf id ∧
      { t.took id with cores := t.cores } = t := by
  have e : t.took id = t.modCore (coreOf id) fun c => { c with lastSlot := slotOf id, issuedAt := some t.cycle } := if_neg (by simp [h])
  rw [e, core_modCore, if_pos rfl]
  exact ⟨rfl, rfl, rfl⟩

theorem choose_issue {v : State} {id : Nat} (run : State → Nat → Result) (ht : v.boot.tripped = false) (hm : v.mayIssue id = true) :
    v.choose (.issue id) run = run v id := by
  have hgo : ¬ ((v.boot.tripped = true ∧ Choice.issue id ≠ .event .i3cReset) ∨ ((Choice.issue id).needsCleoz = true ∧ v.cleozRuns = false)) := by
    rintro (⟨h, -⟩ | ⟨h, -⟩)
    · simp [ht] at h
    · simp [Choice.needsCleoz] at h
  unfold State.choose
  rw [if_neg hgo]
  exact if_pos hm

/-- A context whose turn it is issues in this step: by choice, or by default. -/
theorem step_issueTurn {s : State} {id : Nat} {rest : List Choice}
    (h : (s.settled.agenda = .issue id :: rest ∧ ({ s.settled with agenda := rest } : State).boot.tripped = false ∧
        ({ s.settled with agenda := rest } : State).mayIssue id = true) ∨
      (s.settled.agenda = [] ∧ rest = [] ∧ ({ s.settled with agenda := rest } : State).due = none ∧
        ({ s.settled with agenda := rest } : State).nextReady = some id)) :
    step s = ({ s.settled with agenda := rest } : State).issueTurn id := by
  unfold step
  dsimp only
  rcases h with ⟨ha, ht, hm⟩ | ⟨ha, rfl, hd, hn⟩
  · rw [ha]
    exact choose_issue _ ht hm
  · have hv : ({ s.settled with agenda := [] } : State) = s.settled := by rw [← ha]
    rw [hv] at hd hn ⊢
    rw [ha]
    simp only [State.default, hd, hn]

/-! ## What a turn runs -/

theorem beginIssue_keeps (v : State) (id : Nat) : (v.beginIssue id).cur = id ∧ (v.beginIssue id).cycle = v.cycle ∧
    (v.beginIssue id).mem = v.mem ∧ (v.beginIssue id).ctxs = v.ctxs ∧ (v.beginIssue id).word0 = 0 := ⟨rfl, rfl, rfl, rfl, rfl⟩

/-- How a turn of the core ends: the context has issued. -/
def turnOf (id : Nat) : Result → Result
  | .next t => .next (t.took id)
  | r => r

theorem issueTurn_eq (s : State) (id : Nat) : s.issueTurn id = turnOf id (s.beginIssue id).runOne := by
  unfold State.issueTurn turnOf
  cases (s.beginIssue id).runOne <;> rfl

theorem runOne_due {w : State} {c : Nat} {v : W64} (h : w.me.dueTrap = some (c, v)) :
    w.runOne = .next ((w.modMe fun y => { y with dueTrap := none }).trap c v) := by
  simp only [State.runOne, h]

theorem runOne_stop {w x : State} {e : FetchStop} (h : w.me.dueTrap = none) (hf : w.fetch = (x, .error e)) :
    w.runOne = .next (x.fetchTrap e) := by
  simp only [State.runOne, h, hf]

theorem runOne_decoded {w x : State} {ws more : List W32} {i : Instr} (h : w.me.dueTrap = none) (hf : w.fetch = (x, .ok ws))
    (hd : decodeWords ws = .ok (i, more)) : w.runOne = exec i { x with word0 := ws.headD 0 } := by
  simp only [State.runOne, h, hf, State.runWords, hd]

theorem runOne_illegal {w x : State} {ws : List W32} {e} (h : w.me.dueTrap = none) (hf : w.fetch = (x, .ok ws)) (hd : decodeWords ws = .error e) :
    w.runOne = .next (({ x with word0 := ws.headD 0 } : State).trap 0x01 ((ws.headD 0).setWidth 64)) := by
  simp only [State.runOne, h, hf, State.runWords, hd]
  rfl

/-! ## Fetch -/

theorem OnlyTables.routeTo {s u : State} (h : OnlyTables s u) (dev : Nat) : u.routeTo dev = s.routeTo dev := by
  have := congrArg (fun x : State => x.routeTo dev) h.rest
  exact this

theorem OnlyTables.me {s u : State} (h : OnlyTables s u) : u.me = s.me := by
  unfold State.me State.ctx
  rw [h.ctxs, h.cur]

section
variable {w x : State} {p : Xl}

/-- Translating the program counter changes neither the issuing context nor the routes. -/
theorem translatePc_keeps (ht : w.translate w.myCore (w.vfOf w.cur) w.me.asid w.me.privileged w.me.pc.toNat accFetch = (x, .ok p)) :
    x.me = w.me ∧ x.routeTo (keyDev p.key) = w.routeTo (keyDev p.key) := by
  have h := onlyTables_translate w w.myCore (w.vfOf w.cur) w.me.asid w.me.privileged w.me.pc.toNat accFetch
  rw [ht] at h
  exact ⟨h.me, h.routeTo _⟩

theorem fetch_one (hp : placeOf w.me.pc.toNat = .translated)
    (ht : w.translate w.myCore (w.vfOf w.cur) w.me.asid w.me.privileged w.me.pc.toNat accFetch = (x, .ok p))
    (hpois : x.isPoisoned p.key = false)
    (hr : p.remote = true → (w.routeTo (keyDev p.key)).isSome = true ∨ w.me.wait.any (fun q => !q.unissued) = true)
    (hlen : (BitVec.ofNat 32 (x.read p.key 4)).extractLsb' 0 2 = 0) : w.fetch = (x, .ok [BitVec.ofNat 32 (x.read p.key 4)]) := by
  obtain ⟨hme, hroute⟩ := translatePc_keeps ht
  have hgo : ¬ (p.remote = true ∧ x.routeTo (keyDev p.key) = none ∧ (x.me.wait.any fun w => !w.unissued) = false) := by
    rintro ⟨h1, h2, h3⟩
    rw [hroute] at h2
    rw [hme] at h3
    rcases hr h1 with h | h
    · simp [h2] at h
    · simp [h3] at h
  have hword : w.fetchWord w.me.pc.toNat = (x, .ok (BitVec.ofNat 32 (x.read p.key 4))) := by
    simp only [State.fetchWord, hp, ht]
    rw [if_neg hgo, if_neg (by simp [hpois])]
  simp only [State.fetch, Nat.mul_zero, BitVec.ofNat_eq_ofNat, BitVec.add_zero, hword, hlen]
  rfl

theorem fetch_unrouted (hp : placeOf w.me.pc.toNat = .translated)
    (ht : w.translate w.myCore (w.vfOf w.cur) w.me.asid w.me.privileged w.me.pc.toNat accFetch = (x, .ok p))
    (hr : p.remote = true) (hn : w.routeTo (keyDev p.key) = none) (hw : w.me.wait.any (fun q => !q.unissued) = false) :
    w.fetch = (x, .error (.route (keyDev p.key))) := by
  obtain ⟨hme, hroute⟩ := translatePc_keeps ht
  have hword : w.fetchWord w.me.pc.toNat = (x, .error (.route (keyDev p.key))) := by
    simp only [State.fetchWord, hp, ht]
    rw [if_pos ⟨hr, hroute.trans hn, by rw [hme]; exact hw⟩]
  simp only [State.fetch, Nat.mul_zero, BitVec.add_zero, hword]

end

end Sys2Proof.Machine

open Sys2Proof Sys2Proof.Machine

/-- Settles O56: the step is the turn of the context (`step_issueTurn`), and the turn runs what the fetch finds. -/
theorem stepRuns : Obligations.StepRuns := by
  intro s id rest u v w turn
  refine ⟨mayIssue_ready, fun t => ⟨took_unissued, took_issued⟩, fun h => ?_⟩
  have hturn : ∀ r, turn r = turnOf id r := fun r => by cases r <;> rfl
  have hstep : step s = turn w.runOne := by rw [step_issueTurn h, issueTurn_eq, hturn]
  rw [hstep]
  refine ⟨beginIssue_keeps v id, ?_⟩
  have hcur : id = w.cur := (beginIssue_keeps v id).1.symm
  clear_value w
  clear hstep h
  subst hcur
  refine ⟨fun hdue => ⟨?_, ?_, ?_, ?_⟩, fun c v' hdue => by rw [runOne_due hdue]⟩
  · intro x ws i more hf hd
    rw [runOne_decoded hdue hf hd]
  · intro x ws e hf hd
    rw [runOne_illegal hdue hf hd]
  · intro x p hp ht hpois hr hlen
    exact fetch_one hp ht hpois hr hlen
  · intro x p hp ht hr hn hw
    exact ⟨_, by rw [runOne_stop hdue (fetch_unrouted hp ht hr hn hw)]; rfl, waits_hold ..⟩
end

section
/-! Launch records: what finding, replacing and failing one does, and how the memory that translation leaves stays canonical. -/

namespace Sys2Proof.Machine

/-! ## Maps and records -/

theorem find?_mapVals {α β : Type} (g : α → β) (m : Map α) (k : Nat) :
    Map.find? (m.map fun (p : Nat × α) => (p.1, g p.2)) k = (Map.find? m k).map g := by
  induction m with
  | nil => rfl
  | cons p m ih =>
    obtain ⟨j, v⟩ := p
    simp only [List.map_cons, Map.find?]
    split
    · rfl
    · exact ih

theorem find?_handle_map (f : Launch → Launch) (hf : ∀ l, (f l).handle = l.handle) (ls : List Launch) (h : Nat) :
    (ls.map f).find? (fun l => l.handle == h) = (ls.find? fun l => l.handle == h).map f := by
  rw [List.find?_map]
  congr 2
  funext l
  simp [hf]

theorem launch?_handle {s : State} {h : Nat} {l : Launch} (hl : s.launch? h = some l) : l.handle = h := by
  have := List.find?_some hl
  simpa using this

theorem launch?_setLaunch (s : State) (m : Launch) (h : Nat) :
    (s.setLaunch m).launch? h = if m.handle = h then (s.launch? h).map fun _ => m else s.launch? h := by
  unfold State.launch? State.setLaunch
  rw [find?_handle_map _ (fun l => by split <;> simp_all)]
  cases hl : s.launches.find? (fun l => l.handle == h) with
  | none => simp
  | some l =>
    have hh : l.handle = h := by simpa using List.find?_some hl
    simp only [Option.map_some, beq_iff_eq, hh]
    by_cases hm : m.handle = h
    · simp [hm]
    · rw [if_neg hm, if_neg fun h' => hm h'.symm]

/-- A launch that is there is replaced. -/
theorem launch?_setLaunch_same {s : State} {m l : Launch} {h : Nat} (hl : s.launch? h = some l) (hm : m.handle = h) :
    (s.setLaunch m).launch? h = some m := by
  rw [launch?_setLaunch, if_pos hm, hl]
  rfl

/-! ## Discarding -/

theorem drained_keeps (l : Launch) : l.drained.handle = l.handle ∧ l.drained.failed = l.failed ∧ l.drained.failCode = l.failCode ∧
    l.drained.pending = l.pending ∧ l.drained.placed = l.placed ∧ l.drained.depFail = l.depFail ∧ l.drained.endedAt = l.endedAt ∧
    (l.st ≠ .active → l.drained.st = l.st) := by
  unfold Launch.drained
  split
  · rename_i h
    exact ⟨rfl, rfl, rfl, rfl, rfl, rfl, rfl, fun hn => absurd (by simpa using (Bool.and_eq_true_iff.1 h).2) hn⟩
  · exact ⟨rfl, rfl, rfl, rfl, rfl, rfl, rfl, fun _ => rfl⟩

theorem discardWaiters_handle (p c : Launch) : (discardWaiters p c).handle = c.handle := by
  unfold discardWaiters
  dsimp only
  split
  · exact (drained_keeps _).1
  · rfl

/-- A launch that waits for no rank keeps what it is but for groups that it discards. -/
theorem discardWaiters_idle (p c : Launch) (hp : c.pending = []) :
    (discardWaiters p c).pending = [] ∧ (discardWaiters p c).failed = c.failed ∧ (discardWaiters p c).failCode = c.failCode ∧
      (discardWaiters p c).placed = c.placed ∧ (discardWaiters p c).depFail = c.depFail ∧ (discardWaiters p c).endedAt = c.endedAt ∧
      (c.st ≠ .active → (discardWaiters p c).st = c.st) := by
  unfold discardWaiters
  dsimp only
  split
  · generalize hd : ({ c with pending := _, discarded := _, depFail := _ } : Launch) = d
    obtain ⟨-, hf, hc, hpe, hpl, hdf, he, hst⟩ := drained_keeps d
    subst hd
    exact ⟨hpe.trans (by simp [hp]), hf, hc, hpl, hdf.trans (by simp [hp]), he, hst⟩
  · exact ⟨hp, rfl, rfl, rfl, rfl, rfl, fun _ => rfl⟩

theorem launch?_discard (s : State) (p : Launch) (h : Nat) :
    ({ s with launches := s.launches.map (discardWaiters p) } : State).launch? h = (s.launch? h).map (discardWaiters p) :=
  find?_handle_map _ (discardWaiters_handle p) _ _

/-! ## The first failure (R21) -/

/-- The record of a launch that fails. -/
def Launch.failing (l : Launch) (code : Nat) (wid : Option Nat) : Launch :=
  { l with failed := true, failCode := code, failWid := wid, pending := [], placed := l.placed.map (fun p => { p with next := p.stop }),
           st := if l.st = .active ∨ l.st = .ready then .draining else l.st }

/-- Queues without the runs of a launch. -/
def CoreSt.cutRuns (h : Nat) (c : CoreSt) : CoreSt := { c with workq := c.workq.filter (·.handle ≠ h) }
def cutRuns (h : Nat) (m : Map CoreSt) : Map CoreSt := m.map fun (p : Nat × CoreSt) => (p.1, p.2.cutRuns h)

theorem failLaunch_again {s : State} {h code : Nat} {wid : Option Nat} {l : Launch} (hl : s.launch? h = some l)
    (hf : l.failed = true ∨ l.st = .ended) : s.failLaunch h code wid = s := by
  simp only [State.failLaunch, hl]
  exact if_pos hf

theorem failLaunch_first {s : State} {h code : Nat} {wid : Option Nat} {l : Launch} (hl : s.launch? h = some l)
    (hf : ¬ (l.failed = true ∨ l.st = .ended)) :
    s.failLaunch h code wid = ({ s with
      cores := cutRuns h s.cores, images := s.images.map fun x => { x with cores := cutRuns h x.cores },
      launches := (s.setLaunch (l.failing code wid)).launches.map (discardWaiters (l.failing code wid)) } : State) := by
  simp only [State.failLaunch, hl]
  exact if_neg hf

theorem workq_cutRuns (h : Nat) (m : Map CoreSt) (k : Nat) :
    ((cutRuns h m).get k {}).workq = (m.get k {}).workq.filter (·.handle ≠ h) := by
  unfold Map.get cutRuns
  rw [find?_mapVals]
  cases Map.find? m k <;> rfl

theorem cutRuns_handle {h : Nat} {m : Map CoreSt} {p : Nat × CoreSt} (hp : p ∈ cutRuns h m) : ∀ r ∈ p.2.workq, r.handle ≠ h := by
  obtain ⟨q, -, rfl⟩ := List.mem_map.1 hp
  intro r hr
  simpa using (List.mem_filter.1 hr).2

/-! ## Memory stays canonical -/

theorem flushLines_wf (l : List Line) (s : State) (h : memWf s.mem = true) : memWf (l.foldl State.flushLine s).mem = true := by
  induction l generalizing s with
  | nil => exact h
  | cons x l ih => exact ih _ (memMerge_wf _ _ _ _ _ h)

theorem writeBack_wf (s : State) (cl : Nat) (p : Line → Bool) (inval : Bool) (h : memWf s.mem = true) :
    memWf (s.writeBack cl p inval).mem = true := flushLines_wf _ s h

theorem writeBacks_wf (cls : List Nat) (s : State) (h : memWf s.mem = true) :
    memWf (cls.foldl (fun s c => s.writeBack c (fun _ => true) false) s).mem = true := by
  induction cls generalizing s with
  | nil => exact h
  | cons c cls ih => exact ih _ (writeBack_wf s c _ _ h)

theorem walkOnce_wf (s : State) (vf asid va : Nat) (acc : Acc) (priv : Bool) (h : memWf s.mem = true) :
    memWf (s.walkOnce vf asid va acc priv).1.mem = true := by
  unfold State.walkOnce
  dsimp only
  split
  · split
    · exact h
    · split
      · exact memPut_wf _ _ _ _ (recall_mem s _ h).1
      · exact (recall_mem s _ h).1
  · exact h

theorem walkedIn_wf (vf asid va : Nat) (acc : Acc) (priv : Bool) (n : Nat) (s : State) (h : memWf s.mem = true) :
    memWf (State.walkedIn vf asid va acc priv n s).1.mem = true := by
  induction n generalizing s with
  | zero => exact walkOnce_wf _ _ _ _ _ _ h
  | succ n ih =>
    unfold State.walkedIn
    dsimp only
    split
    · exact ih _ (walkOnce_wf _ _ _ _ _ _ h)
    · exact walkOnce_wf _ _ _ _ _ _ h

theorem translate_wf (s : State) (core vf asid : Nat) (priv : Bool) (va : Nat) (acc : Acc) (h : memWf s.mem = true) :
    memWf (s.translate core vf asid priv va acc).1.mem = true := by
  have done : ∀ (t : State) (x y : Except FaultInfo Xl) (c : Prop) [Decidable c], memWf t.mem = true → memWf (if c then (t, x) else (t, y)).1.mem = true := by
    intro t x y c _ h
    split <;> exact h
  have walk : memWf (s.walked vf asid va acc priv).1.mem = true := walkedIn_wf _ _ _ _ _ _ s h
  unfold State.translate
  dsimp only
  split
  · exact done _ _ _ _ h
  · split
    · exact done _ _ _ _ (by rw [tlbInstall_mem]; exact h)
    · split
      · rename_i hw
        rw [hw] at walk
        exact walk
      · rename_i hw
        rw [hw] at walk
        split
        · rw [tlbInstall_mem]; exact walk
        · exact walk

theorem OnlyTables.launch? {s u : State} (h : OnlyTables s u) (k : Nat) : u.launch? k = s.launch? k := by
  have := congrArg (fun x : State => x.launch? k) h.rest
  exact this

theorem onlyTables_writeBacks (cls : List Nat) (inval : Bool) (s : State) :
    OnlyTables s (cls.foldl (fun s c => s.writeBack c (fun _ => true) inval) s) := by
  induction cls generalizing s with
  | nil => exact OnlyTables.refl s
  | cons c cls ih => exact (onlyTables_writeBack s c _ _).trans (ih _)

theorem read64_write64 (s : State) (k : Nat) (v : W64) (h : memWf s.mem = true) : (s.write64 k v).read64 k = v := by
  simp only [State.read64, State.read, State.write64, State.write, memNat_memPut _ _ _ _ h]
  rw [show (256 : Nat) ^ 8 = 2 ^ 64 from rfl, Nat.mod_eq_of_lt v.isLt, BitVec.ofNat_toNat, BitVec.setWidth_eq]

end Sys2Proof.Machine
end

section
/-! The events of a launch (R18 to R25, R381 to R384): each as an equation, and what the state that it leaves holds. -/

namespace Sys2Proof.Machine

/-! ## Journal and checkpoints -/

theorem write64_frame (s : State) (k : Nat) (v : W64) : ∃ m, s.write64 k v = { s with mem := m } := ⟨_, rfl⟩

theorem write64s_frame (at_ : Nat) (l : List (W64 × Nat)) (s : State) :
    ∃ m, l.foldl (fun (s : State) p => s.write64 (at_ + 16 + 8 * p.2) p.1) s = { s with mem := m } := by
  induction l generalizing s with
  | nil => exact ⟨s.mem, rfl⟩
  | cons p l ih =>
    obtain ⟨m, hm⟩ := ih (s.write64 (at_ + 16 + 8 * p.2) p.1)
    exact ⟨m, hm⟩

theorem setRegBits_frame (s : State) (r hi lo v : Nat) : ∃ a, s.setRegBits r hi lo v = { s with admin := a } := ⟨_, rfl⟩

theorem entry_frame (s : State) (at_ : Nat) (v w : W64) (l : List (W64 × Nat)) :
    ∃ m, l.foldl (fun (s : State) p => s.write64 (at_ + 16 + 8 * p.2) p.1) ((s.write64 at_ v).write64 (at_ + 8) w) = { s with mem := m } := by
  obtain ⟨a, ha⟩ := write64_frame s at_ v
  obtain ⟨b, hb⟩ := write64_frame { s with mem := a } (at_ + 8) w
  obtain ⟨m, hm⟩ := write64s_frame at_ l { s with mem := b }
  rw [ha, hb]
  exact ⟨m, hm⟩

/-- A journal entry changes memory, the administration registers and the journal's length alone. -/
theorem journalAdd_frame (s : State) (kind die vf : Nat) (body : List W64) :
    ∃ m a j, s.journalAdd kind die vf body = { s with mem := m, admin := a, journal := j } := by
  unfold State.journalAdd
  dsimp only
  generalize (if kind ≤ 2 then 192 else 64) = size
  split
  · exact ⟨_, _, _, rfl⟩
  · split
    · exact ⟨_, _, _, rfl⟩
    · obtain ⟨m, hm⟩ := entry_frame s (s.regBits (fleetBase + 0x28) 51 16 * 0x10000 + s.journal)
        (BitVec.ofNat 64 (kind + die * 256 + vf * 65536)) (BitVec.ofNat 64 s.ptp) body.zipIdx
      rw [hm]
      obtain ⟨a, ha⟩ := setRegBits_frame { s with mem := m, journal := s.journal + size } (fleetBase + 0x38) 63 32
        (s.regBits (fleetBase + 0x38) 63 32 + 1)
      exact ⟨m, a, s.journal + size, ha⟩

theorem checkpoints_frame (s : State) (l : Launch) : ∃ m a j, s.checkpoints l = { s with mem := m, admin := a, journal := j } := by
  have fold : ∀ (rs : List ((Nat × Nat) × Nat)) (u : State), ∃ m a j, rs.foldl (fun (s : State) r =>
      s.journalAdd 7 (dieOf l.core) l.vf (BitVec.ofNat 64 l.handle :: BitVec.ofNat 64 r.2 :: digestWords (memBytes s.mem r.1.1 r.1.2) 2)) u =
        { u with mem := m, admin := a, journal := j } := by
    intro rs
    induction rs with
    | nil => exact fun u => ⟨_, _, _, rfl⟩
    | cons r rs ih =>
      intro u
      obtain ⟨m, a, j, h⟩ := journalAdd_frame u 7 (dieOf l.core) l.vf
        (BitVec.ofNat 64 l.handle :: BitVec.ofNat 64 r.2 :: digestWords (memBytes u.mem r.1.1 r.1.2) 2)
      rw [List.foldl_cons, h]
      exact ih _
  exact fold _ s

/-! ## Ready and ended -/

theorem fixDies_keeps (s : State) (l : Launch) : (s.fixDies l).handle = l.handle ∧ (s.fixDies l).st = l.st ∧
    (s.fixDies l).failed = l.failed ∧ (s.fixDies l).bitmap = l.bitmap ∧ (s.fixDies l).gang = l.gang := by
  unfold State.fixDies
  split <;> exact ⟨rfl, rfl, rfl, rfl, rfl⟩

/-- The record of a launch that has ended. -/
theorem launch?_endLaunch {s : State} {l m : Launch} {h : Nat} (hm : s.launch? h = some m) (hl : l.handle = h) :
    ∃ x, (s.endLaunch l).launch? h = some x ∧ x.st = .ended ∧ x.depFail = l.depFail ∧ x.endedAt = s.ptp := by
  have hs := launch?_setLaunch_same (m := { l with st := .ended, endedAt := s.ptp, placed := [], pending := [] }) hm hl
  obtain ⟨-, -, -, -, hd, he, hst⟩ := discardWaiters_idle { l with st := .ended, endedAt := s.ptp, placed := [], pending := [] }
    { l with st := .ended, endedAt := s.ptp, placed := [], pending := [] } rfl
  refine ⟨_, (launch?_discard _ _ h).trans (congrArg (Option.map _) hs), hst (by simp), hd, he⟩

/-- The cluster once a launch holds it no more. -/
def Cluster.freed (h : Nat) (c : Cluster) : Cluster :=
  match c.held with
  | some (k, _) => if k = h then { c with held := none, gangDue := none } else c
  | none => c

theorem freed_held (h : Nat) (c : Cluster) (g : Nat) : (c.freed h).held ≠ some (h, g) := by
  unfold Cluster.freed
  split
  · rename_i k j hk
    split
    · simp
    · rw [hk]
      simp_all
  · rename_i hk
    simp [hk]

theorem exec_launchEnd_drained {s : State} {h : Nat} {l : Launch} (hl : s.launch? h = some l) (hd : s.isDrained l = true) :
    exec (.launchEnd h) s =
      .next ((({ s with clusters := s.clusters.map fun (c : Nat × Cluster) => (c.1, c.2.freed h) } : State).checkpoints l).endLaunch l) := by
  rw [exec_launchEnd]
  simp only [execLaunchEnd, hl, hd, if_true]
  refine congrArg (fun cl : Map Cluster => Host.Outcome.next ((({ s with clusters := cl } : State).checkpoints l).endLaunch l)) ?_
  refine List.map_congr_left fun c _ => ?_
  unfold Cluster.freed
  cases c.2.held with
  | none => rfl
  | some x => dsimp only; split <;> rfl

/-! ## Completion (R18) -/

theorem bitReached_unmapped {s : State} {l : Launch} (g : Nat) (h : l.bitmap = 0) : s.bitReached l g = true := by
  simp [State.bitReached, h]

theorem bitReached_iff {s v : State} {l : Launch} {g : Nat} {x : Xl} (h : l.bitmap ≠ 0)
    (ht : s.translate l.core l.vf l.asid l.priv (l.bitmap.toNat + 8 * (g / 64)) accStore = (v, .ok x)) :
    s.bitReached l g = true ↔ isRemoteKey x.key = false ∨ (s.routeTo (keyDev x.key)).isSome = true := by
  have : s.bitReached l g = true ↔ (l.bitmap = 0 ∨ isRemoteKey x.key = false ∨ (s.routeTo (keyDev x.key)).isSome = true) := by
    simp [State.bitReached, State.bitRouted, State.routed, ht]
  rw [this, or_iff_right h]

section
variable {s : State} {h group : Nat} {l : Launch}

/-- The state in which every cluster has written back its lines. -/
def State.writtenBack (s : State) : State := (s.clusters.map (·.1)).foldl (fun s c => s.writeBack c (fun _ => true) false) s

theorem exec_groupComplete_not (hl : s.launch? h = some l)
    (hc : l.completes group = false ∨ l.groups l.clevel ≤ group ∨ s.bitReached l group = false) : exec (.groupComplete h group) s = .next s := by
  rw [exec_groupComplete]
  simp only [execGroupComplete, hl]
  exact if_pos hc

/-- A group completes: of three ways to set its bit the one that its word allows. -/
theorem exec_groupComplete_done (hl : s.launch? h = some l) (hc : l.completes group = true) (hg : group < l.groups l.clevel)
    (hr : s.bitReached l group = true) : exec (.groupComplete h group) s =
      if l.bitmap = 0 then .next (s.writtenBack.setLaunch { l with bits := l.bits ++ [group] })
      else match s.writtenBack.translate l.core l.vf l.asid l.priv (l.bitmap.toNat + 8 * (group / 64)) accStore with
        | (v, .ok x) => .next ((((v.recall x.key).write64 x.key ((v.recall x.key).read64 x.key ||| BitVec.ofNat 64 (2 ^ (group % 64))))).setLaunch
            { l with bits := l.bits ++ [group] })
        | (v, .error f) => .next (v.failLaunch h (0x0100 + f.cause) none) := by
  have hno : ¬ (l.completes group = false ∨ l.groups l.clevel ≤ group ∨ s.bitReached l group = false) := by
    rintro (h1 | h1 | h1)
    · simp [hc] at h1
    · omega
    · simp [hr] at h1
  rw [exec_groupComplete]
  simp only [execGroupComplete, hl]
  rw [if_neg hno]
  rfl

theorem getLsbD_or_twoPow (x : W64) (i : Nat) (hi : i < 64) : (x ||| BitVec.ofNat 64 (2 ^ i)).getLsbD i = true := by
  rw [BitVec.getLsbD_or, BitVec.getLsbD_ofNat, Nat.testBit_two_pow_self, decide_eq_true hi, Bool.and_self, Bool.or_true]

end

/-! ## Chunks (R24, R25) -/

theorem exec_chunkGrant_idle {s : State} {die : Nat} (h : (s.die die).requests = []) : exec (.chunkGrant die) s = .next s := by
  have hn : s.nextRequest die = none := by simp [State.nextRequest, h]
  rw [exec_chunkGrant]
  simp only [execChunkGrant, hn]
  split <;> rfl

theorem exec_chunkGrant_switching {s : State} {die : Nat} (h : s.switching = true) : exec (.chunkGrant die) s = .next s := by
  rw [exec_chunkGrant]
  exact if_pos h

/-- Part `j` of `n` ranks in `q` parts, the first `n mod q` one longer, and where it begins. -/
def share (n q j : Nat) : Nat := n / q + if j < n % q then 1 else 0
def shareFrom (n q j : Nat) : Nat := j * (n / q) + min j (n % q)

theorem shareFrom_succ (n q j : Nat) : shareFrom n q (j + 1) = shareFrom n q j + share n q j := by
  unfold shareFrom share
  rw [Nat.succ_mul]
  split <;> omega

/-- The run of a part, none for an empty one. -/
def runOf (h first n : Nat) : List Run := if n = 0 then [] else [{ handle := h, first := first, count := n }]

theorem pushRuns_frame (h : Nat) (l : List (Nat × Nat)) (first : Nat) (s : State) : ∃ k, pushRuns h l first s = { s with cores := k } := by
  induction l generalizing first s with
  | nil => exact ⟨_, rfl⟩
  | cons p l ih =>
    unfold pushRuns
    split
    · exact ih _ _
    · exact ih _ _

theorem pushRuns_other (h : Nat) (l : List (Nat × Nat)) (first : Nat) (s : State) (k : Nat) (hk : ∀ p ∈ l, p.1 ≠ k) :
    ((pushRuns h l first s).core k).workq = (s.core k).workq := by
  induction l generalizing first s with
  | nil => rfl
  | cons p l ih =>
    unfold pushRuns
    rw [ih _ _ fun q hq => hk q (by simp [hq])]
    split
    · rfl
    · rw [core_modCore, if_neg (hk p (by simp)).symm]

/-- A chunk goes in parts to the queues of some cores, the first part to the first. -/
theorem pushRuns_share (h n q base : Nat) (cs : List Nat) (hn : cs.Nodup) (k : Nat) (s : State) (i : Nat) (hi : i < cs.length) :
    ((pushRuns h ((cs.zipIdx k).map fun c => (c.1, share n q c.2)) (base + shareFrom n q k) s).core cs[i]).workq =
      (s.core cs[i]).workq ++ runOf h (base + shareFrom n q (k + i)) (share n q (k + i)) := by
  induction cs generalizing k s i with
  | nil => simp at hi
  | cons c cs ih =>
    rw [List.nodup_cons] at hn
    simp only [List.zipIdx_cons, List.map_cons, pushRuns]
    have hnext : base + shareFrom n q k + share n q k = base + shareFrom n q (k + 1) := by rw [shareFrom_succ, Nat.add_assoc]
    rw [hnext]
    cases i with
    | zero =>
      rw [pushRuns_other _ _ _ _ _ (by
        intro p hp
        obtain ⟨x, hx, rfl⟩ := List.mem_map.1 hp
        have := List.fst_mem_of_mem_zipIdx hx
        rintro rfl
        exact hn.1 this)]
      simp only [List.getElem_cons_zero, Nat.add_zero, runOf]
      split
      · simp
      · rw [core_modCore, if_pos rfl]
    | succ i =>
      have hi' : i < cs.length := by simpa using hi
      simp only [List.getElem_cons_succ]
      rw [ih hn.2 (k + 1) _ i hi', show k + 1 + i = k + (i + 1) by omega]
      congr 1
      split
      · rfl
      · rw [core_modCore, if_neg]
        rintro rfl
        exact hn.1 (List.getElem_mem hi')

theorem coresOf_get (cl j : Nat) (hj : j < 8) :
    (coresOf cl).getD j 0 = cl / 128 * 1024 + cl % 128 / 4 * 32 + cl % 4 * 8 + j := by
  unfold coresOf
  rw [List.getD_eq_getElem _ _ (by simpa using hj)]
  simp

/-- The cores that hold queues for a launch: each gang's first member, or all eight. -/
theorem servingCores_eq (l : Launch) (cl : Nat) (len : Nat) (hl : len = if l.gang then l.gangLen else 1) (h1 : 1 ≤ len) :
    servingCores l cl = (List.range (8 / len)).map fun j => cl / 128 * 1024 + cl % 128 / 4 * 32 + cl % 4 * 8 + j * len := by
  unfold servingCores
  split at hl
  · rename_i hg
    subst hl
    rw [if_pos hg, Nat.max_eq_right h1]
    apply List.map_congr_left
    intro j hj
    rw [List.mem_range] at hj
    have : j * l.gangLen < 8 := by
      have h8 : (j + 1) * l.gangLen ≤ 8 := (Nat.mul_le_mul_right _ hj).trans (Nat.div_mul_le_self 8 l.gangLen)
      rw [Nat.succ_mul] at h8
      omega
    exact coresOf_get cl _ this
  · rename_i hg
    subst hl
    rw [if_neg hg]
    simp [coresOf]

theorem servingCores_nodup (l : Launch) (cl len : Nat) (hl : len = if l.gang then l.gangLen else 1) (h1 : 1 ≤ len) : (servingCores l cl).Nodup := by
  rw [servingCores_eq l cl len hl h1]
  refine List.Nodup.map (fun a b hab => ?_) List.nodup_range
  exact Nat.eq_of_mul_eq_mul_right (by omega : 0 < len) (by omega)

section
variable {s : State} {die at_ cl h : Nat} {rest : List (Nat × Nat × Nat)} {l : Launch} {p : Placed}

/-- The state without the first request of a die. -/
def State.popRequest (s : State) (die : Nat) (rest : List (Nat × Nat × Nat)) : State := s.modDie die fun d => { d with requests := rest }

/-- What a grant gives to the queues, and what it notes. -/
def State.granted (s : State) (die cl h n : Nat) (rest : List (Nat × Nat × Nat)) (l : Launch) (p : Placed) : State :=
  (pushRuns h ((servingCores l cl).zipIdx.map fun c => (c.1, share n (servingCores l cl).length c.2)) p.next
    (((s.popRequest die rest).setLaunch (l.advance p.group (p.next + n))).dropClean cl)).journalAdd 3 die l.vf
      [BitVec.ofNat 64 h, BitVec.ofNat 64 cl, BitVec.ofNat 64 p.next, BitVec.ofNat 64 n]

variable (hq : (s.die die).requests = (at_, cl, h) :: rest) (hr : s.replaying = false)
include hq hr

theorem exec_chunkGrant_same_cycle (hc : s.cycle ≤ at_) : exec (.chunkGrant die) s = .next s := by
  have hn : s.nextRequest die = some (at_, cl, h) := by simp [State.nextRequest, hq, hr]
  rw [exec_chunkGrant]
  simp only [execChunkGrant, hn, hc, if_true]
  split <;> rfl

variable (hs : s.switching = false) (hc : at_ < s.cycle)
include hs hc

/-- A grant of a later cycle: a request that nothing serves is dropped, one whose queues are full waits, and else the chunk is given. -/
theorem exec_chunkGrant_eq : exec (.chunkGrant die) s =
    match s.launch? h with
    | none => .next (s.popRequest die rest)
    | some l => match s.servedBy l cl with
      | none => .next (s.popRequest die rest)
      | some p =>
        if p.stop ≤ p.next ∨ l.failed = true then .next (s.popRequest die rest)
        else if (servingCores l cl).any fun c => decide (16 ≤ (s.core c).workq.length) then .next s
        else if chunkLen l.minChunk (p.stop - p.next) (s.serversOn die l) = 0 then .next s
        else .next (s.granted die cl h (chunkLen l.minChunk (p.stop - p.next) (s.serversOn die l)) rest l p) := by
  have hn : s.nextRequest die = some (at_, cl, h) := by simp [State.nextRequest, hq, hr]
  have hpop : (s.modDie die fun d => { d with requests := d.requests.erase (at_, cl, h) }) = s.popRequest die rest := by
    simp [State.popRequest, State.modDie, hq]
  have hlater : ¬ s.cycle ≤ at_ := by omega
  rw [exec_chunkGrant]
  simp only [execChunkGrant, hn, hs, hr, hlater, hpop, if_false, Bool.false_eq_true]
  rfl

end

/-- What a chunk that is given leaves in the queues, and the requests. -/
theorem granted_queues (s : State) (die cl h n : Nat) (rest : List (Nat × Nat × Nat)) (l : Launch) (p : Placed) (len : Nat)
    (hl : len = if l.gang then l.gangLen else 1) (h1 : 1 ≤ len) :
    let first (j : Nat) : Nat := cl / 128 * 1024 + cl % 128 / 4 * 32 + cl % 4 * 8 + j * len
    ((s.granted die cl h n rest l p).die die).requests = rest ∧
    (∀ j, j < 8 / len → ((s.granted die cl h n rest l p).core (first j)).workq =
      (s.core (first j)).workq ++ runOf h (p.next + shareFrom n (8 / len) j) (share n (8 / len) j)) ∧
    ∀ k, (∀ j < 8 / len, k ≠ first j) → ((s.granted die cl h n rest l p).core k).workq = (s.core k).workq := by
  intro first
  have hcs : servingCores l cl = (List.range (8 / len)).map first := servingCores_eq l cl len hl h1
  have hlen : (servingCores l cl).length = 8 / len := by rw [hcs]; simp
  unfold State.granted
  obtain ⟨m, a, j, hj⟩ := journalAdd_frame (pushRuns h ((servingCores l cl).zipIdx.map fun c => (c.1, share n (servingCores l cl).length c.2)) p.next
    (((s.popRequest die rest).setLaunch (l.advance p.group (p.next + n))).dropClean cl)) 3 die l.vf
      [BitVec.ofNat 64 h, BitVec.ofNat 64 cl, BitVec.ofNat 64 p.next, BitVec.ofNat 64 n]
  rw [hj]
  refine ⟨?_, fun j hj => ?_, fun k hk => ?_⟩
  · obtain ⟨k, hk⟩ := pushRuns_frame h ((servingCores l cl).zipIdx.map fun c => (c.1, share n (servingCores l cl).length c.2)) p.next
      (((s.popRequest die rest).setLaunch (l.advance p.group (p.next + n))).dropClean cl)
    rw [hk]
    show ((s.popRequest die rest).die die).requests = rest
    unfold State.popRequest
    rw [die_modDie, if_pos rfl]
  · have hi : j < (servingCores l cl).length := by omega
    have hget : (servingCores l cl)[j] = first j := by simp [hcs]
    have := pushRuns_share h n (servingCores l cl).length p.next (servingCores l cl) (servingCores_nodup l cl len hl h1) 0
      (((s.popRequest die rest).setLaunch (l.advance p.group (p.next + n))).dropClean cl) j hi
    rw [hget, hlen, Nat.zero_add, show p.next + shareFrom n (8 / len) 0 = p.next by simp [shareFrom]] at this
    rw [hlen]
    exact this
  · refine pushRuns_other _ _ _ _ _ fun q hq => ?_
    obtain ⟨x, hx, rfl⟩ := List.mem_map.1 hq
    have hmem := List.fst_mem_of_mem_zipIdx hx
    rw [hcs] at hmem
    obtain ⟨j, hj, hjx⟩ := List.mem_map.1 hmem
    rw [List.mem_range] at hj
    exact fun h' => hk j hj (h'.symm.trans hjx.symm)

/-! ## Priorities (R384) -/

/-- The producers that a waiting launch raises. -/
def State.raised (s : State) (l : Launch) : List Nat := (s.chain 8 l).filter fun k => (s.launch? k).any fun p => decide (p.eff < l.prio)

/-- A launch raised to a priority, if it is among those. -/
def Launch.raisedTo (hs : List Nat) (eff : Nat) (p : Launch) : Launch := if hs.contains p.handle then { p with eff := eff } else p

theorem exec_priorityRaise_eq {s : State} {h : Nat} {l : Launch} (hl : s.launch? h = some l) :
    exec (.priorityRaise h) s = if s.raised l = [] then .next s
      else .next (({ s with launches := s.launches.map (Launch.raisedTo (s.raised l) l.prio) } : State).setRegBits (schBase + 0x20) 63 32
        (s.regBits (schBase + 0x20) 63 32 + 1)) := by
  rw [exec_priorityRaise]
  simp only [execPriorityRaise, hl]
  rfl

theorem launch?_raised (s : State) (hs : List Nat) (eff k : Nat) :
    ({ s with launches := s.launches.map (Launch.raisedTo hs eff) } : State).launch? k = (s.launch? k).map (Launch.raisedTo hs eff) :=
  find?_handle_map _ (fun l => by unfold Launch.raisedTo; split <;> rfl) _ _

end Sys2Proof.Machine
end

section
/-! The statement about the events of a launch, clause by clause. -/

namespace Sys2Proof.Machine

/-- The state in which a launch holds no cluster any more. -/
def State.freedOf (s : State) (h : Nat) : State := { s with clusters := s.clusters.map fun (c : Nat × Cluster) => (c.1, c.2.freed h) }

section
variable {s : State} {h : Nat} {l : Launch} (hl : s.launch? h = some l)
include hl

/-- What the first failure takes from a launch (R21). -/
theorem failLaunch_takes {code : Nat} {wid : Option Nat} (hf : l.failed = false) (he : l.st ≠ .ended) :
    (∃ m, (s.failLaunch h code wid).launch? h = some m ∧ m.failed = true ∧ m.failCode = code ∧ m.pending = [] ∧ ∀ p ∈ m.placed, p.next = p.stop) ∧
    (s.failLaunch h code wid).ctxs = s.ctxs ∧ (s.failLaunch h code wid).mem = s.mem ∧
    (∀ k, ((s.failLaunch h code wid).core k).workq = (s.core k).workq.filter fun r => r.handle ≠ h) ∧
    (s.failLaunch h code wid).images.map (·.vf) = s.images.map (·.vf) ∧
    ∀ x ∈ (s.failLaunch h code wid).images, ∀ p ∈ x.cores, ∀ r ∈ p.2.workq, r.handle ≠ h := by
  have hh := launch?_handle hl
  rw [failLaunch_first hl (by simp [hf, he])]
  refine ⟨⟨discardWaiters (l.failing code wid) (l.failing code wid), ?_, ?_⟩, rfl, rfl, fun k => workq_cutRuns h s.cores k, ?_, ?_⟩
  · have hs := launch?_setLaunch_same (m := l.failing code wid) hl hh
    exact (launch?_discard _ _ h).trans (congrArg (Option.map _) hs)
  · obtain ⟨hpe, hfa, hco, hpl, -, -, -⟩ := discardWaiters_idle (l.failing code wid) (l.failing code wid) rfl
    refine ⟨hfa, hco, hpe, fun p hp => ?_⟩
    rw [hpl] at hp
    obtain ⟨q, -, rfl⟩ := List.mem_map.1 hp
    rfl
  · simp
  · intro x hx p hp
    obtain ⟨y, -, rfl⟩ := List.mem_map.1 hx
    exact cutRuns_handle hp

theorem launchReady_once : (¬ (l.st = .queued ∧ s.depMet l = true) → exec (.launchReady h) s = .next s) ∧
    (l.st = .queued → s.depMet l = true → ∃ t, exec (.launchReady h) s = .next t ∧ (∃ m, t.launch? h = some m ∧ m.st = .ready) ∧
      { t with launches := s.launches } = s) := by
  have hh := launch?_handle hl
  rw [exec_launchReady]
  simp only [execLaunchReady, hl]
  refine ⟨fun hn => if_neg hn, fun hq hd => ⟨_, if_pos ⟨hq, hd⟩, ?_, rfl⟩⟩
  obtain ⟨hk, hst, -⟩ := fixDies_keeps s { l with st := .ready }
  exact ⟨_, launch?_setLaunch_same hl (hk.trans hh), hst⟩

theorem launch?_checkpoints (m : Launch) : (s.checkpoints m).launch? h = some l := by
  obtain ⟨_, _, _, hc⟩ := checkpoints_frame s m
  rw [hc]
  exact hl

theorem launchDependenceFail_once : (¬ (l.st = .queued ∧ s.depFails l = true) → exec (.launchDependenceFail h) s = .next s) ∧
    (l.st = .queued → s.depFails l = true → ∃ t, exec (.launchDependenceFail h) s = .next t ∧
      (∃ m, t.launch? h = some m ∧ m.st = .ended ∧ m.depFail = true ∧ m.endedAt = s.ptp) ∧ t.ctxs = s.ctxs ∧ t.cores = s.cores ∧
      (l.regions = [] → { t with launches := s.launches } = s)) := by
  have hh := launch?_handle hl
  rw [exec_launchDependenceFail]
  simp only [execLaunchDependenceFail, hl]
  refine ⟨fun hn => if_neg hn, fun hq hd => ⟨_, if_pos ⟨hq, hd⟩, ?_⟩⟩
  obtain ⟨m, a, j, hc⟩ := checkpoints_frame s l
  have hend := launch?_endLaunch (l := { l with depFail := true }) (launch?_checkpoints hl l) hh
  have hnone : l.regions = [] → s.checkpoints l = s := fun hr => by simp [State.checkpoints, hr]
  refine ⟨?_, ?_⟩
  · have hptp : (s.checkpoints l).ptp = s.ptp := by rw [hc]
    rwa [hptp] at hend
  · refine ⟨?_, ?_, fun hr => ?_⟩
    · rw [hc]; rfl
    · rw [hc]; rfl
    · rw [hnone hr]; rfl

theorem launchEnd_once : (s.isDrained l = false → exec (.launchEnd h) s = .next s) ∧
    (s.isDrained l = true → ∃ t, exec (.launchEnd h) s = .next t ∧ (∃ m, t.launch? h = some m ∧ m.st = .ended ∧ m.endedAt = s.ptp) ∧
      (∀ k g, (t.cluster k).held ≠ some (h, g)) ∧ t.ctxs = s.ctxs ∧ t.cores = s.cores) := by
  have hh := launch?_handle hl
  refine ⟨fun hd => ?_, fun hd => ⟨_, exec_launchEnd_drained hl hd, ?_⟩⟩
  · rw [exec_launchEnd]
    simp only [execLaunchEnd, hl, hd, if_false, Bool.false_eq_true]
  · have hfree : s.freedOf h = { s with clusters := s.clusters.map fun (c : Nat × Cluster) => (c.1, c.2.freed h) } := rfl
    rw [← hfree]
    have hlf : (s.freedOf h).launch? h = some l := hl
    obtain ⟨m, a, j, hc⟩ := checkpoints_frame (s.freedOf h) l
    obtain ⟨x, hx, hst, -, he⟩ := launch?_endLaunch (launch?_checkpoints hlf l) hh
    refine ⟨⟨x, hx, hst, he.trans ?_⟩, fun k g => ?_, ?_, ?_⟩
    · rw [hc]
      rfl
    · rw [hc]
      show (Map.get (s.clusters.map fun (c : Nat × Cluster) => (c.1, c.2.freed h)) k {}).held ≠ _
      unfold Map.get
      rw [find?_mapVals]
      cases Map.find? s.clusters k with
      | none => simp
      | some c => exact freed_held h c g
    · rw [hc]; rfl
    · rw [hc]; rfl

theorem launchHandleExpire_happens : Happens s (.launchHandleExpire h)
    (l.st = .ended ∧ l.endedAt + 1000000 < s.ptp ∧ ∀ c ∈ s.launches, c.mode ≠ 0 → c.producer = h → c.st = .ended)
    { s with launches := s.launches.filter (·.handle ≠ h) } := by
  have hany : (s.launches.any fun c => c.mode != 0 && c.producer == h && c.st != .ended) = false ↔
      ∀ c ∈ s.launches, c.mode ≠ 0 → c.producer = h → c.st = .ended := by
    simp [and_imp]
  unfold Happens
  rw [exec_launchHandleExpire]
  simp only [execLaunchHandleExpire, hl, hany]
  exact ⟨fun hc => if_pos hc, fun hc => if_neg hc⟩

theorem chunkRequest_happens (cluster : Nat) : Happens s (.chunkRequest cluster h) (s.wantsChunk cluster l = true)
    (s.modDie (cluster / 128) fun d => { d with requests := addRequest (s.cycle, cluster, h) d.requests }) := by
  unfold Happens
  rw [exec_chunkRequest]
  simp only [execChunkRequest, hl]
  exact ⟨fun hc => if_pos hc, fun hc => if_neg hc⟩

theorem priorityRaise_once : (s.raised l = [] → exec (.priorityRaise h) s = .next s) ∧
    (s.raised l ≠ [] → ∃ t, exec (.priorityRaise h) s = .next t ∧ (∀ k ∈ s.raised l, ∃ m, t.launch? k = some m ∧ m.eff = l.prio) ∧
      (∀ k, k ∉ s.raised l → t.launch? k = s.launch? k)) := by
  rw [exec_priorityRaise_eq hl]
  refine ⟨fun hn => if_pos hn, fun hn => ⟨_, if_neg hn, fun k hk => ?_, fun k hk => ?_⟩⟩
  · have hk' := hk
    unfold State.raised at hk'
    rw [List.mem_filter, Option.any_eq_true] at hk'
    obtain ⟨-, p, hp, -⟩ := hk'
    refine ⟨p.raisedTo (s.raised l) l.prio, (launch?_raised s _ _ k).trans (by rw [hp]; rfl), ?_⟩
    unfold Launch.raisedTo
    rw [launch?_handle hp, if_pos (by simpa using hk)]
  · refine (launch?_raised s _ _ k).trans ?_
    cases hp : s.launch? k with
    | none => rfl
    | some p =>
      refine congrArg some ?_
      unfold Launch.raisedTo
      rw [launch?_handle hp, if_neg (by simpa using hk)]

theorem priorityWithdraw_once : ∃ t, exec (.priorityWithdraw h) s = .next t ∧
    (∃ m, t.launch? h = some m ∧ m.eff = min l.eff (s.wanted l)) ∧ { t with launches := s.launches } = s := by
  have hh := launch?_handle hl
  rw [exec_priorityWithdraw]
  simp only [execPriorityWithdraw, hl]
  exact ⟨_, rfl, ⟨_, launch?_setLaunch_same hl hh, rfl⟩, rfl⟩

theorem launch?_writtenBack : s.writtenBack.launch? h = some l := (OnlyTables.launch? (onlyTables_writeBacks _ false s) h).trans hl

theorem groupComplete_once {group : Nat} (hc : l.completes group = true) (hg : group < l.groups l.clevel) (hr : s.bitReached l group = true) :
    (l.bitmap = 0 → ∃ t, exec (.groupComplete h group) s = .next t ∧ ∃ m, t.launch? h = some m ∧ m.bits = l.bits ++ [group]) ∧
    (∀ v x, memWf s.mem = true → l.bitmap ≠ 0 →
      s.writtenBack.translate l.core l.vf l.asid l.priv (l.bitmap.toNat + 8 * (group / 64)) accStore = (v, .ok x) →
      ∃ t, exec (.groupComplete h group) s = .next t ∧ (t.read64 x.key).getLsbD (group % 64) = true ∧
        ∃ m, t.launch? h = some m ∧ m.bits = l.bits ++ [group]) ∧
    (∀ v f, l.bitmap ≠ 0 → s.writtenBack.translate l.core l.vf l.asid l.priv (l.bitmap.toNat + 8 * (group / 64)) accStore = (v, .error f) →
      exec (.groupComplete h group) s = .next (v.failLaunch h (0x0100 + f.cause) none)) := by
  rw [exec_groupComplete_done hl hc hg hr]
  have hh := launch?_handle hl
  refine ⟨fun hb => ⟨_, if_pos hb, _, launch?_setLaunch_same (launch?_writtenBack hl) hh, rfl⟩, fun v x hw hb ht => ?_, fun v f hb ht => ?_⟩
  · rw [if_neg hb, ht]
    have hvw : memWf v.mem = true := by
      have := translate_wf s.writtenBack l.core l.vf l.asid l.priv (l.bitmap.toNat + 8 * (group / 64)) accStore (writeBacks_wf _ s hw)
      rwa [ht] at this
    have hvl : (v.recall x.key).launch? h = some l := by
      have hv := onlyTables_translate s.writtenBack l.core l.vf l.asid l.priv (l.bitmap.toNat + 8 * (group / 64)) accStore
      rw [ht] at hv
      exact ((onlyTables_recall v x.key).launch? h).trans ((hv.launch? h).trans (launch?_writtenBack hl))
    refine ⟨_, rfl, ?_, _, launch?_setLaunch_same (m := { l with bits := l.bits ++ [group] }) hvl hh, rfl⟩
    have := read64_write64 (v.recall x.key) x.key ((v.recall x.key).read64 x.key ||| BitVec.ofNat 64 (2 ^ (group % 64))) (recall_mem v x.key hvw).1
    exact (congrArg (fun w : W64 => w.getLsbD (group % 64)) this).trans (getLsbD_or_twoPow _ _ (Nat.mod_lt _ (by omega)))
  · rw [if_neg hb, ht]

end

/-! ## What a grant gives -/

section
variable {s : State} {die at_ cl h : Nat} {rest : List (Nat × Nat × Nat)} {l : Launch} {p : Placed}
variable (hq : (s.die die).requests = (at_, cl, h) :: rest) (hr : s.replaying = false) (hs : s.switching = false) (hc : at_ < s.cycle)
  (hl : s.launch? h = some l) (hp : s.servedBy l cl = some p)
include hq hr hs hc hl hp

theorem exec_chunkGrant_closed (hd : p.stop ≤ p.next ∨ l.failed = true) : exec (.chunkGrant die) s = .next (s.popRequest die rest) := by
  rw [exec_chunkGrant_eq hq hr hs hc, hl]
  dsimp only
  rw [hp]
  exact if_pos hd

variable (hn : p.next < p.stop) (hf : l.failed = false)
include hn hf

theorem exec_chunkGrant_full (hfull : ∃ k ∈ servingCores l cl, 16 ≤ (s.core k).workq.length) : exec (.chunkGrant die) s = .next s := by
  have hopen : ¬ (p.stop ≤ p.next ∨ l.failed = true) := by simp [hf]; omega
  rw [exec_chunkGrant_eq hq hr hs hc, hl]
  dsimp only
  rw [hp]
  dsimp only
  rw [if_neg hopen]
  exact if_pos (by simpa using hfull)

/-- A chunk that is given, in equal shares to cores or to the first members of gangs of `len` cores. -/
theorem exec_chunkGrant_gives (hroom : ∀ k ∈ servingCores l cl, (s.core k).workq.length < 16) (len : Nat)
    (hlen : len = if l.gang then l.gangLen else 1) (h1 : 1 ≤ len) {n : Nat}
    (hcount : n = min (p.stop - p.next) (max l.minChunk ((p.stop - p.next + 2 * s.serversOn die l - 1) / (2 * s.serversOn die l)))) (hpos : 0 < n) :
    let first (j : Nat) : Nat := cl / 128 * 1024 + cl % 128 / 4 * 32 + cl % 4 * 8 + j * len
    ∃ t, exec (.chunkGrant die) s = .next t ∧ (t.die die).requests = rest ∧
      (∀ j, j < 8 / len → (t.core (first j)).workq = (s.core (first j)).workq ++ runOf h (p.next + shareFrom n (8 / len) j) (share n (8 / len) j)) ∧
      ∀ k, (∀ j < 8 / len, k ≠ first j) → (t.core k).workq = (s.core k).workq := by
  have hopen : ¬ (p.stop ≤ p.next ∨ l.failed = true) := by simp [hf]; omega
  have hfree : ¬ ((servingCores l cl).any fun c => decide (16 ≤ (s.core c).workq.length)) = true := by simpa using hroom
  have hsome : ¬ chunkLen l.minChunk (p.stop - p.next) (s.serversOn die l) = 0 := by
    unfold chunkLen
    omega
  have hchunk : chunkLen l.minChunk (p.stop - p.next) (s.serversOn die l) = n := hcount.symm
  refine ⟨s.granted die cl h n rest l p, ?_, granted_queues s die cl h n rest l p len hlen h1⟩
  rw [exec_chunkGrant_eq hq hr hs hc, hl]
  dsimp only
  rw [hp]
  dsimp only
  rw [if_neg hopen, if_neg hfree, if_neg hsome, hchunk]

end

end Sys2Proof.Machine

open Sys2Proof Sys2Proof.Machine

/-- Settles O50: each clause is one of the lemmas above about the event that it names. -/
theorem launchEvents : Obligations.LaunchEvents := by
  unfold Obligations.LaunchEvents
  intro s h group cluster die
  refine ⟨fun hn => ?_, fun l hl _ => ?_, exec_chunkGrant_idle, exec_chunkGrant_switching, ?_, ?_⟩
  · simp only [exec_launchReady, execLaunchReady, exec_launchDependenceFail, execLaunchDependenceFail, exec_launchEnd, execLaunchEnd,
      exec_launchHandleExpire, execLaunchHandleExpire, exec_groupComplete, execGroupComplete, exec_chunkRequest, execChunkRequest,
      exec_priorityRaise, execPriorityRaise, exec_priorityWithdraw, execPriorityWithdraw, hn, and_self]
  · exact ⟨fun _ _ hf he => failLaunch_takes hl hf he, fun _ _ hf => failLaunch_again hl hf,
      (launchReady_once hl).1, (launchReady_once hl).2, (launchDependenceFail_once hl).1, (launchDependenceFail_once hl).2,
      (launchEnd_once hl).1, (launchEnd_once hl).2, launchHandleExpire_happens hl, exec_groupComplete_not hl,
      bitReached_unmapped group, fun v x hb ht => bitReached_iff hb ht, fun hc hg hr => groupComplete_once hl hc hg hr,
      chunkRequest_happens hl cluster, priorityRaise_once hl, priorityWithdraw_once hl⟩
  · exact fun _ _ _ hq hr hc => exec_chunkGrant_same_cycle hq hr hc
  · intro at_ cl rest hq hs hr hc
    refine ⟨fun hl => ?_, fun l hl hp => ?_, fun l p hl hp hd => exec_chunkGrant_closed hq hr hs hc hl hp hd,
      fun l p hl hp hn hf hfull => exec_chunkGrant_full hq hr hs hc hl hp hn hf hfull,
      fun l p hl hp hn hf hg hroom hpos => ?_, fun l p hl hp hn hf hg h2 h8 hroom hpos => ?_⟩
    · rw [exec_chunkGrant_eq hq hr hs hc, hl]
      rfl
    · rw [exec_chunkGrant_eq hq hr hs hc, hl]
      dsimp only
      rw [hp]
      rfl
    · obtain ⟨t, ht, hreq, hgive, -⟩ := exec_chunkGrant_gives hq hr hs hc hl hp hn hf hroom 1 (by simp [hg]) le_rfl rfl hpos
      refine ⟨t, ht, hreq, fun j hj => ?_⟩
      have := hgive j hj
      simp only [Nat.mul_one, Nat.div_one, runOf, share, shareFrom, ← Nat.add_assoc] at this
      exact this
    · obtain ⟨t, ht, hreq, hgive, hother⟩ := exec_chunkGrant_gives hq hr hs hc hl hp hn hf hroom l.gangLen (by simp [hg]) (by omega) rfl hpos
      refine ⟨t, ht, hreq, fun j hj => ?_, hother⟩
      have := hgive j hj
      simp only [runOf, share, shareFrom, ← Nat.add_assoc] at this
      exact this

end

section
/-! Where an access is performed: its effects on memory, tags, poison and registers, each said once. -/

namespace Sys2Proof.Machine

/-! ## Tags and poison -/

theorem mem_insertKey (l : List Nat) (k : Nat) : k ∈ insertKey l k := by
  induction l with
  | nil => simp [insertKey]
  | cons j l ih =>
    unfold insertKey
    split
    · exact List.mem_cons_of_mem _ ih
    · split
      · simp [*]
      · simp

@[simp] theorem isFull_setTag (s : State) (k : Nat) (full : Bool) : (s.setTag k full).isFull k = full := by
  cases full
  · simpa [State.isFull, State.setTag] using mem_insertKey s.empties (wordKey k)
  · simp [State.isFull, State.setTag]

theorem wordsIn_wordKey {k n w : Nat} (h : w ∈ wordsIn k n) : wordKey w = w := by
  unfold wordsIn at h
  split at h
  · simp at h
  · obtain ⟨i, -, rfl⟩ := List.mem_map.1 h
    unfold wordKey
    omega

theorem mem_clearPoison (s : State) (k n w : Nat) : w ∈ (s.clearPoison k n).poison ↔ w ∈ s.poison ∧ w ∉ wholeWordsIn k n := by
  have fold : ∀ (l : List Nat) (u : State), (∀ x ∈ l, wordKey x = x) →
      (w ∈ (l.foldl (fun s w => s.setPoison w false) u).poison ↔ w ∈ u.poison ∧ w ∉ l) := by
    intro l
    induction l with
    | nil => simp
    | cons x l ih =>
      intro u hl
      rw [List.foldl_cons, ih _ fun y hy => hl y (by simp [hy])]
      have hx : (u.setPoison x false).poison = u.poison.filter (· ≠ x) := by simp [State.setPoison, hl x (by simp)]
      rw [hx]
      simp [List.mem_filter, and_assoc]
  exact fold _ s fun x hx => wordsIn_wordKey (List.mem_of_mem_filter hx)

/-! ## The parts of an access -/

theorem landed_frame (s : State) (f : Flight) : ∃ fs, s.landed f = { s with flights := fs } := by
  unfold State.landed
  split
  · exact ⟨_, rfl⟩
  · exact ⟨_, rfl⟩

@[simp] theorem landed_mem (s : State) (f : Flight) : (s.landed f).mem = s.mem := by
  obtain ⟨_, h⟩ := landed_frame s f
  rw [h]
@[simp] theorem landed_ctxs (s : State) (f : Flight) : (s.landed f).ctxs = s.ctxs := by
  obtain ⟨_, h⟩ := landed_frame s f
  rw [h]
@[simp] theorem landed_poison (s : State) (f : Flight) : (s.landed f).poison = s.poison := by
  obtain ⟨_, h⟩ := landed_frame s f
  rw [h]
@[simp] theorem landed_empties (s : State) (f : Flight) : (s.landed f).empties = s.empties := by
  obtain ⟨_, h⟩ := landed_frame s f
  rw [h]
@[simp] theorem landed_clusters (s : State) (f : Flight) : (s.landed f).clusters = s.clusters := by
  obtain ⟨_, h⟩ := landed_frame s f
  rw [h]
@[simp] theorem landed_ctx (s : State) (f : Flight) (i : Nat) : (s.landed f).ctx i = s.ctx i := by simp [State.ctx]
@[simp] theorem landed_isFull (s : State) (f : Flight) (k : Nat) : (s.landed f).isFull k = s.isFull k := by simp [State.isFull]

@[simp] theorem setTag_mem (s : State) (k : Nat) (b : Bool) : (s.setTag k b).mem = s.mem := rfl
@[simp] theorem setTag_ctxs (s : State) (k : Nat) (b : Bool) : (s.setTag k b).ctxs = s.ctxs := rfl
@[simp] theorem setTag_poison (s : State) (k : Nat) (b : Bool) : (s.setTag k b).poison = s.poison := rfl

/-- A reply writes one register of one context. -/
theorem replyTo_frame (s : State) (ctx : Nat) (dst : Option Nat) (v : W64) : ∃ cs, s.replyTo ctx dst v = { s with ctxs := cs } := by
  cases dst with
  | none => exact ⟨s.ctxs, rfl⟩
  | some k => exact ⟨_, rfl⟩

@[simp] theorem replyTo_mem (s : State) (ctx : Nat) (dst : Option Nat) (v : W64) : (s.replyTo ctx dst v).mem = s.mem := by cases dst <;> rfl
@[simp] theorem replyTo_poison (s : State) (ctx : Nat) (dst : Option Nat) (v : W64) : (s.replyTo ctx dst v).poison = s.poison := by cases dst <;> rfl
@[simp] theorem replyTo_empties (s : State) (ctx : Nat) (dst : Option Nat) (v : W64) : (s.replyTo ctx dst v).empties = s.empties := by cases dst <;> rfl
@[simp] theorem replyTo_clusters (s : State) (ctx : Nat) (dst : Option Nat) (v : W64) : (s.replyTo ctx dst v).clusters = s.clusters := by
  cases dst <;> rfl
@[simp] theorem replyTo_isFull (s : State) (ctx : Nat) (dst : Option Nat) (v : W64) (k : Nat) : (s.replyTo ctx dst v).isFull k = s.isFull k := by
  cases dst <;> rfl

theorem replyTo_regAt (s : State) (ctx k : Nat) (v : W64) (hk : k ≠ 0) : ((s.replyTo ctx (some k) v).ctx ctx).regAt k = v := by
  unfold State.replyTo
  dsimp only
  rw [ctx_modCtx, if_pos rfl, regAt_setAt]
  simp [hk]

theorem replyTo_regAt_other (s : State) (ctx k : Nat) (dst : Option Nat) (v : W64) (hk : dst ≠ some k) :
    ((s.replyTo ctx dst v).ctx ctx).regAt k = (s.ctx ctx).regAt k := by
  cases dst with
  | none => rfl
  | some j =>
    unfold State.replyTo
    dsimp only
    rw [ctx_modCtx, if_pos rfl, regAt_setAt]
    have : k ≠ j := fun h => hk (by rw [h])
    simp [this]

/-- What a reply leaves of a context. -/
theorem replyTo_ctx (s : State) (ctx : Nat) (dst : Option Nat) (v : W64) :
    ((s.replyTo ctx dst v).ctx ctx).bindings = (s.ctx ctx).bindings ∧ ((s.replyTo ctx dst v).ctx ctx).asid = (s.ctx ctx).asid := by
  cases dst with
  | none => exact ⟨rfl, rfl⟩
  | some j =>
    unfold State.replyTo
    dsimp only
    rw [ctx_modCtx, if_pos rfl]
    exact ⟨Ctx.setAt_bindings .., Ctx.setAt_asid ..⟩

/-- Two destinations that differ, or none: one reply after the other. -/
theorem replyBoth_eq (s : State) (ctx : Nat) (d e : Option Nat) (v w : W64) (h : ∀ k, d = some k → e ≠ some k) :
    s.replyBoth ctx d v e w = (s.replyTo ctx d v).replyTo ctx e w := by
  have hn : ¬ (d = e ∧ d.isSome = true) := by
    rintro ⟨rfl, hs⟩
    obtain ⟨k, hk⟩ := Option.isSome_iff_exists.1 hs
    exact h k hk hk
  unfold State.replyBoth
  rw [if_neg hn]

/-! ## Stores -/

/-- A store changes exactly its bytes, and clears the poison of the words that it covers whole. -/
def Stored (s t : State) (k n v : Nat) : Prop :=
  (∀ j, j < k ∨ k + n ≤ j → memGet t.mem j = memGet s.mem j) ∧ t.read k n = v % 256 ^ n ∧ ∀ w, w ∈ t.poison ↔ w ∈ s.poison ∧ w ∉ wholeWordsIn k n

theorem Stored.of_same {s t u : State} {k n v : Nat} (h : Stored s t k n v) (hm : u.mem = t.mem) (hp : u.poison = t.poison) : Stored s u k n v := by
  unfold Stored State.read at *
  rwa [hm, hp]

theorem storeData_home {s : State} {f : Flight} (hc : s.inCache f = false) (v : Nat) :
    s.storeData f v = (s.write f.key f.size v).clearPoison f.key f.size := by
  simp [State.storeData, hc]

theorem stored_storeData {s : State} {f : Flight} (hw : memWf s.mem = true) (hc : s.inCache f = false) (v : Nat) :
    Stored s (s.storeData f v) f.key f.size v := by
  rw [storeData_home hc]
  have hp := mem_clearPoison (s.write f.key f.size v) f.key f.size
  obtain ⟨p, h⟩ := clearPoison_frame (s.write f.key f.size v) f.key f.size
  rw [h] at hp ⊢
  exact ⟨fun j hj => memGet_memPut_other _ _ _ _ _ hj hw, memNat_memPut _ _ _ _ hw, hp⟩

theorem storeData_keeps {s : State} {f : Flight} (hc : s.inCache f = false) (v : Nat) :
    (s.storeData f v).ctxs = s.ctxs ∧ (s.storeData f v).empties = s.empties := by
  rw [storeData_home hc]
  obtain ⟨p, h⟩ := clearPoison_frame (s.write f.key f.size v) f.key f.size
  rw [h]
  exact ⟨rfl, rfl⟩

theorem fetchData_home {s : State} {f : Flight} (hc : s.inCache f = false) : s.fetchData f = (s, s.read f.key f.size) := by
  simp [State.fetchData, hc]

/-! ## What `performNow` does for each operation -/

/-- Is the word left empty by a load that has succeeded? -/
def Flight.drains (f : Flight) (full : Bool) : Bool := f.op == .acq || (f.op == .load && f.sync == 1) || (f.op == .ldfe && full)

theorem drains_load {f : Flight} (h : f.op = .load) (full : Bool) : f.drains full = (f.sync == 1) := by
  unfold Flight.drains
  rw [h]
  cases f.sync == 1 <;> rfl

theorem drains_ldfe {f : Flight} (h : f.op = .ldfe) (full : Bool) : f.drains full = full := by
  unfold Flight.drains
  rw [h]
  cases full <;> rfl

/-- The state after a load, before an acquire drops lines. -/
def State.loads (s : State) (f : Flight) (v : Nat) : State :=
  (if f.drains (s.isFull f.key) then s.setTag f.key false else s).replyBoth f.ctx f.dst (f.extend v) f.dst2 (if s.isFull f.key then 1 else 0)

section
variable {s : State} {f : Flight}

/-- An access to a line that no cluster holds dirty recalls nothing. -/
theorem recalled_clean (hd : ∀ p ∈ s.clusters, ∀ l ∈ p.2.lines, l.key ≠ lineKey f.key ∨ l.dirty = 0) :
    (if s.recalls f then s.recall f.key else s) = s := by
  rw [recall_clean fun p hp l hl hk => (hd p hp l hl).resolve_left (absurd hk), ite_self]

variable (hr : (if s.recalls f then s.recall f.key else s) = s)
include hr

theorem performNow_poisoned (hp : s.anyPoison f.key f.size = true) (hop : f.op ∈ [MemOp.load, .ldfe, .ldff, .acq] ∨ ∃ fn, f.op = .atomic fn) :
    s.performNow f = s.poisonStop f := by
  simp only [List.mem_cons, List.not_mem_nil, or_false] at hop
  unfold State.performNow
  rw [hr]
  rcases hop with (h | h | h | h) | ⟨fn, h⟩ <;> simp only [h, hp, if_true]

theorem performNow_load {v : Nat} (hv : s.fetchData f = (s, v)) (hp : s.anyPoison f.key f.size = false) (hop : f.op ∈ [MemOp.load, .ldfe, .ldff]) :
    s.performNow f = (s.loads f v).landed f := by
  simp only [List.mem_cons, List.not_mem_nil, or_false] at hop
  unfold State.performNow
  rw [hr]
  rcases hop with h | h | h <;>
    simp [h, hp, State.loads, Flight.drains, hv]

theorem performNow_acq {v : Nat} (hv : s.fetchData f = (s, v)) (hp : s.anyPoison f.key f.size = false) (hop : f.op = .acq) :
    s.performNow f =
      (if 2 ≤ f.scope then (s.loads f v).writeBack (clusterOf (coreOf f.ctx)) (meetsAny ((s.loads f v).boundTo f.ctx f.va)) true
        else s.loads f v).landed f := by
  unfold State.performNow
  rw [hr]
  simp [hop, hp, State.loads, Flight.drains, hv]

theorem performNow_store (hop : f.op = .store ∨ f.op = .rel) :
    s.performNow f = (if f.op == .rel || f.sync == 2 then (s.storeData f f.x.toNat).setTag f.key true else s.storeData f f.x.toNat).landed f := by
  unfold State.performNow
  rw [hr]
  rcases hop with h | h <;> simp only [h]

theorem performNow_ldtag (hop : f.op = .ldtag) : s.performNow f =
    (s.replyTo f.ctx f.dst (BitVec.ofNat 64 ((if s.isFull f.key then 1 else 0) + (if s.anyPoison f.key f.size then 2 else 0)))).landed f := by
  unfold State.performNow
  rw [hr]
  simp only [hop]

theorem performNow_test (hop : f.op = .stef ∨ f.op = .stff) : s.performNow f =
    if s.isFull f.key = (f.op == .stff) then (((s.storeData f f.x.toNat).setTag f.key true).replyTo f.ctx f.dst 1).landed f
    else (s.replyTo f.ctx f.dst 0).landed f := by
  unfold State.performNow
  rw [hr]
  rcases hop with h | h <;> simp only [h, beq_iff_eq]

theorem performNow_tag (hop : f.op = .tclr ∨ f.op = .tfill) : s.performNow f = (s.setTag f.key (f.op == .tfill)).landed f := by
  unfold State.performNow
  rw [hr]
  rcases hop with h | h <;> simp only [h] <;> rfl

theorem performNow_atomic {fn : AtomFn} {v : Nat} (hv : s.fetchData f = (s, v)) (hp : s.anyPoison f.key f.size = false) (hop : f.op = .atomic fn) :
    s.performNow f =
      ((s.storeData f (fn.apply (BitVec.ofNat 64 v) f.x f.y).toNat).replyTo f.ctx f.dst (BitVec.ofNat 64 v)).landed f := by
  unfold State.performNow
  rw [hr]
  simp [hop, hp, hv]

end

end Sys2Proof.Machine
end

section
/-! Loads, acquires, poison and the cluster cache. -/

namespace Sys2Proof.Machine

/-! ## Loads -/

section
variable {s : State} {f : Flight} {v : Nat}

@[simp] theorem loads_mem (s : State) (f : Flight) (v : Nat) : (s.loads f v).mem = s.mem := by
  unfold State.loads State.replyBoth
  dsimp only
  split <;> split <;> simp [State.freshNat]

@[simp] theorem loads_clusters (s : State) (f : Flight) (v : Nat) : (s.loads f v).clusters = s.clusters := by
  unfold State.loads State.replyBoth
  dsimp only
  split <;> split <;> simp [State.freshNat, State.setTag]

theorem loads_empties (s : State) (f : Flight) (v : Nat) :
    (s.loads f v).empties = (if f.drains (s.isFull f.key) then s.setTag f.key false else s).empties := by
  unfold State.loads State.replyBoth
  dsimp only
  split <;> simp [State.freshNat]

theorem loads_isFull (s : State) (f : Flight) (v : Nat) : (s.loads f v).isFull f.key = (s.isFull f.key && !f.drains (s.isFull f.key)) := by
  unfold State.isFull
  rw [loads_empties]
  change (if f.drains (s.isFull f.key) then s.setTag f.key false else s).isFull f.key = (s.isFull f.key && !f.drains (s.isFull f.key))
  cases f.drains (s.isFull f.key)
  · simp
  · simp

variable (hdst : ∀ k, f.dst = some k → f.dst2 ≠ some k)
include hdst

theorem loads_dst {k : Nat} (hk : f.dst = some k) (h0 : k ≠ 0) : ((s.loads f v).ctx f.ctx).regAt k = f.extend v := by
  unfold State.loads
  rw [replyBoth_eq _ _ _ _ _ _ hdst, replyTo_regAt_other _ _ _ _ _ (hdst k hk), hk, replyTo_regAt _ _ _ _ h0]

theorem loads_dst2 {k : Nat} (hk : f.dst2 = some k) (h0 : k ≠ 0) : ((s.loads f v).ctx f.ctx).regAt k = if s.isFull f.key then 1 else 0 := by
  unfold State.loads
  rw [replyBoth_eq _ _ _ _ _ _ hdst, hk, replyTo_regAt _ _ _ _ h0]

/-- A load leaves what a context is bound to. -/
theorem loads_boundTo (ctx : Nat) (word : W64) (hctx : ctx = f.ctx) : (s.loads f v).boundTo ctx word = s.boundTo ctx word := by
  subst hctx
  unfold State.loads
  rw [replyBoth_eq _ _ _ _ _ _ hdst]
  generalize hu : (if f.drains (s.isFull f.key) then s.setTag f.key false else s) = u
  have hub : u.boundTo f.ctx word = s.boundTo f.ctx word := by
    subst hu
    split <;> rfl
  have reply (u : State) (dst : Option Nat) (x : W64) : (u.replyTo f.ctx dst x).boundTo f.ctx word = u.boundTo f.ctx word := by
    obtain ⟨hb, ha⟩ := replyTo_ctx u f.ctx dst x
    obtain ⟨cs, hf⟩ := replyTo_frame u f.ctx dst x
    unfold State.boundTo
    rw [hb, ha, hf]
    rfl
  rw [reply, reply, hub]

end

/-- Lines that an acquire drops are in no cluster cache of it. -/
theorem writeBack_drops (s : State) (cl : Nat) (p : Line → Bool) : ∀ l ∈ ((s.writeBack cl p true).cluster cl).lines, p l = false := by
  unfold State.writeBack
  dsimp only
  rw [cluster_modCluster, if_pos rfl]
  intro l hl
  simpa using (List.mem_filter.1 hl).2

/-! ## Poison met -/

theorem poisonStop_trap {s : State} {f : Flight} (h : f.dst ≠ some 0 ∨ ∀ fn, f.op ≠ .atomic fn) :
    s.poisonStop f = if 65536 ≤ f.ctx then s.dropFlight f.id
      else ((s.dropFlight f.id).dropStall f.ctx f.until_).takeTrap f.ctx 0x0C f.va f.pc none := by
  unfold State.poisonStop Flight.isForeign
  simp only [decide_eq_true_eq]
  split
  · rfl
  · split
    · rename_i fn hop hd
      exact absurd hd (h.resolve_right fun hn => hn fn hop)
    · rfl

theorem poisonStop_reduction {s : State} {f : Flight} {fn : AtomFn} (hop : f.op = .atomic fn) (hd : f.dst = some 0) :
    s.poisonStop f = if 65536 ≤ f.ctx then s.dropFlight f.id
      else (s.dropFlight f.id).endAsFail f.ctx (s.ctx f.ctx).hnum 0x0C f.va := by
  unfold State.poisonStop Flight.isForeign
  simp only [decide_eq_true_eq, hop, hd]
  rfl

/-- Nothing but contexts, launches and queues hears of a context that ends or traps. -/
theorem takeTrap_frame (s : State) (ctx cause : Nat) (tval pc : W64) (info : Option FaultInfo) :
    (s.takeTrap ctx cause tval pc info).empties = s.empties ∧ (s.takeTrap ctx cause tval pc info).mem = s.mem := by
  refine ⟨?_, (takeTrap_keeps s ctx cause tval pc info).rest.1⟩
  rw [takeTrap_eq]
  dsimp only
  split
  · rfl
  · split
    · rfl
    · split
      · rfl
      · obtain ⟨⟨_, _, _, _, _, hf⟩, -⟩ := close_frame (s.trapNoted ctx cause tval pc) ctx true (0x0100 + cause)
        rw [hf]
        rfl

theorem endAsFail_frame (s : State) (ctx hnum cause : Nat) (tval : W64) :
    (s.endAsFail ctx hnum cause tval).empties = s.empties ∧ (s.endAsFail ctx hnum cause tval).mem = s.mem := by
  unfold State.endAsFail
  split
  · exact ⟨rfl, rfl⟩
  · split
    · split
      · obtain ⟨⟨_, _, _, _, _, hf⟩, -⟩ := close_frame s ctx true (0x0100 + cause)
        rw [hf]
        exact ⟨rfl, rfl⟩
      · exact ⟨rfl, rfl⟩
    · exact ⟨rfl, rfl⟩

theorem poisonStop_frame (s : State) (f : Flight) : (s.poisonStop f).empties = s.empties ∧ (s.poisonStop f).mem = s.mem := by
  unfold State.poisonStop
  dsimp only
  split
  · exact ⟨rfl, rfl⟩
  · split
    · exact endAsFail_frame (s.dropFlight f.id) ..
    · exact takeTrap_frame ((s.dropFlight f.id).dropStall f.ctx f.until_) ..

/-- A reduction that meets poison ends a control context at its next instruction. -/
theorem endAsFail_control (s : State) (ctx hnum cause : Nat) (tval : W64) (hh : isHelper ctx = false) :
    ((s.endAsFail ctx hnum cause tval).ctx ctx).dueTrap = some (cause, tval) ∧ ((s.endAsFail ctx hnum cause tval).ctx ctx).pc = (s.ctx ctx).pc := by
  unfold State.endAsFail
  rw [if_pos hh, ctx_modCtx, if_pos rfl]
  exact ⟨rfl, rfl⟩

/-- It ends a helper as FAIL does. -/
theorem endAsFail_helper (s : State) (ctx cause : Nat) (tval : W64) (hh : isHelper ctx = true) (hc : (s.ctxs.find? ctx).isSome = true)
    (hl : (s.ctx ctx).life ≠ .closing) :
    ((s.endAsFail ctx (s.ctx ctx).hnum cause tval).ctx ctx).life = .closing ∧ ((s.endAsFail ctx (s.ctx ctx).hnum cause tval).ctx ctx).failed = true ∧
      ((s.endAsFail ctx (s.ctx ctx).hnum cause tval).ctx ctx).code = (0x0100 + cause) % 65536 := by
  obtain ⟨c, hc⟩ := Option.isSome_iff_exists.1 hc
  have hctx : s.ctx ctx = c := by simp [State.ctx, Map.get, hc]
  have hclose : s.endAsFail ctx (s.ctx ctx).hnum cause tval = s.close ctx true (0x0100 + cause) := by
    simp [State.endAsFail, hh, hc, hctx]
  obtain ⟨ops, h⟩ := close_ctx s ctx true (0x0100 + cause) hl
  rw [hclose, h]
  exact ⟨rfl, rfl, rfl⟩

end Sys2Proof.Machine
end

section
/-! An access in the cluster cache, byte by byte. -/

namespace Sys2Proof.Machine

/-- Some bits of a number replaced, as a store does. -/
theorem testBit_patch {D w sh b : Nat} (hw : w < 2 ^ b) (i : Nat) :
    (D - D / 2 ^ sh % 2 ^ b * 2 ^ sh + w * 2 ^ sh).testBit i = if sh ≤ i ∧ i < sh + b then w.testBit (i - sh) else D.testBit i := by
  have hD : D = 2 ^ sh * (2 ^ b * (D / 2 ^ sh / 2 ^ b) + D / 2 ^ sh % 2 ^ b) + D % 2 ^ sh := by
    rw [Nat.div_add_mod, Nat.div_add_mod]
  have hnew : D - D / 2 ^ sh % 2 ^ b * 2 ^ sh + w * 2 ^ sh = 2 ^ sh * (2 ^ b * (D / 2 ^ sh / 2 ^ b) + w) + D % 2 ^ sh := by
    rw [Nat.mul_add] at hD ⊢
    rw [Nat.mul_comm (D / 2 ^ sh % 2 ^ b), Nat.mul_comm w]
    omega
  rw [hnew, Nat.testBit_two_pow_mul_add _ (Nat.mod_lt _ (Nat.two_pow_pos sh)), Nat.testBit_two_pow_mul_add _ hw]
  by_cases h1 : i < sh
  · rw [if_pos h1, if_neg (by omega), Nat.testBit_mod_two_pow, decide_eq_true h1, Bool.true_and]
  · rw [if_neg h1]
    by_cases h2 : i < sh + b
    · rw [if_pos (by omega), if_pos ⟨by omega, h2⟩]
    · rw [if_neg (by omega), if_neg (by omega), Nat.testBit_div_two_pow, Nat.testBit_div_two_pow]
      congr 1
      omega

/-- A line after a store of `n` bytes at a key. -/
def Line.stored (l : Line) (key n v : Nat) : Line :=
  { l with data := BitVec.ofNat 512 (l.data.toNat - l.data.toNat / 2 ^ (8 * (key % 64)) % 2 ^ (8 * n) * 2 ^ (8 * (key % 64)) + v % 2 ^ (8 * n) * 2 ^ (8 * (key % 64))),
           dirty := l.dirty ||| BitVec.ofNat 64 ((2 ^ n - 1) * 2 ^ (key % 64)) }

theorem stored_data (l : Line) (key n : Nat) (x : W64) (j : Nat) (hj : j < 64) :
    (l.stored key n x.toNat).data.extractLsb' (8 * j) 8 =
      if key % 64 ≤ j ∧ j < key % 64 + n then x.extractLsb' (8 * (j - key % 64)) 8 else l.data.extractLsb' (8 * j) 8 := by
  apply BitVec.eq_of_getLsbD_eq
  intro i hi
  have hin : 8 * j + i < 512 := by omega
  have hnew : (l.stored key n x.toNat).data.getLsbD (8 * j + i) =
      if 8 * (key % 64) ≤ 8 * j + i ∧ 8 * j + i < 8 * (key % 64) + 8 * n then (x.toNat % 2 ^ (8 * n)).testBit (8 * j + i - 8 * (key % 64))
      else l.data.toNat.testBit (8 * j + i) := by
    unfold Line.stored
    rw [BitVec.getLsbD_ofNat, decide_eq_true hin, Bool.true_and, testBit_patch (Nat.mod_lt _ (Nat.two_pow_pos _))]
  rw [BitVec.getLsbD_extractLsb', decide_eq_true hi, Bool.true_and, hnew]
  split
  · rw [if_pos (by omega), BitVec.getLsbD_extractLsb', Nat.testBit_mod_two_pow, decide_eq_true (by omega), decide_eq_true hi, Bool.true_and,
      Bool.true_and]
    exact congrArg x.toNat.testBit (by omega)
  · rw [if_neg (by omega), BitVec.getLsbD_extractLsb', decide_eq_true hi, Bool.true_and]
    rfl

theorem stored_dirty (l : Line) (key n v : Nat) (j : Nat) (hj : j < 64) :
    (l.stored key n v).dirty.getLsbD j = (l.dirty.getLsbD j || decide (key % 64 ≤ j ∧ j < key % 64 + n)) := by
  have hmask : ((2 ^ n - 1) * 2 ^ (key % 64)).testBit j = decide (key % 64 ≤ j ∧ j < key % 64 + n) := by
    rw [Nat.testBit_mul_two_pow, Nat.testBit_two_pow_sub_one, ← Bool.decide_and]
    exact decide_eq_decide.2 (by omega)
  unfold Line.stored
  rw [BitVec.getLsbD_or, BitVec.getLsbD_ofNat, decide_eq_true hj, Bool.true_and, hmask]

theorem findLine_putLine {s : State} {cl key : Nat} {l m : Line} (hl : s.findLine cl key = some l) (hm : m.key = l.key) :
    (s.putLine cl m).findLine cl key = some m := by
  have hk : l.key = lineKey key := by simpa using List.find?_some hl
  unfold State.findLine State.putLine
  rw [cluster_modCluster, if_pos rfl, List.find?_map]
  have hsame : ((fun x : Line => x.key == lineKey key) ∘ fun x : Line => if x.key == m.key then m else x) = fun x : Line => x.key == lineKey key := by
    funext x
    simp only [Function.comp_apply, beq_iff_eq]
    split
    · rename_i hx
      rw [hx]
    · rfl
  rw [hsame]
  unfold State.findLine at hl
  rw [hl, Option.map_some, hm, beq_self_eq_true, if_pos rfl]

section
variable {s : State} {f : Flight} {l : Line} (hc : s.inCache f = true) (hl : s.findLine (clusterOf (coreOf f.ctx)) f.key = some l)
include hc hl

theorem fetchData_cached : s.fetchData f = (s, l.data.toNat / 2 ^ (8 * (f.key % 64)) % 2 ^ (8 * f.size)) := by
  simp [State.fetchData, State.cacheRead, State.fillLine, hc, hl]

theorem storeData_cached (v : Nat) :
    s.storeData f v = (s.putLine (clusterOf (coreOf f.ctx)) (l.stored f.key f.size v)).clearPoison f.key f.size := by
  simp [State.storeData, State.cacheWrite, State.fillLine, hc, hl, Line.stored]

end

/-- An access in a cluster cache recalls nothing. -/
theorem recalled_cached {s : State} {f : Flight} (hc : s.inCache f = true) : (if s.recalls f then s.recall f.key else s) = s := by
  simp [State.recalls, hc]

/-! ## The statement, operation by operation -/

section
variable {s : State} {f : Flight} (hr : (if s.recalls f then s.recall f.key else s) = s)
include hr

/-- A reduction that meets poison ends its issuer, where it has one. -/
theorem reduction_poisoned {fn : AtomFn} (hop : f.op = .atomic fn)
    (hp : s.anyPoison f.key f.size = true) (hd : f.dst = some 0) (hctx : f.ctx < 65536) :
    (isHelper f.ctx = false → ((s.performNow f).ctx f.ctx).dueTrap = some (0x0C, f.va) ∧ ((s.performNow f).ctx f.ctx).pc = (s.ctx f.ctx).pc) ∧
    (isHelper f.ctx = true → (s.ctxs.find? f.ctx).isSome = true → (s.ctx f.ctx).life ≠ .closing →
      ((s.performNow f).ctx f.ctx).life = .closing ∧ ((s.performNow f).ctx f.ctx).failed = true ∧ ((s.performNow f).ctx f.ctx).code = 0x010C) := by
  rw [performNow_poisoned hr hp (.inr ⟨fn, hop⟩), poisonStop_reduction hop hd, if_neg (by omega)]
  exact ⟨fun hh => endAsFail_control (s.dropFlight f.id) _ _ _ _ hh, fun hh hs hl => endAsFail_helper (s.dropFlight f.id) f.ctx 0x0C f.va hh hs hl⟩

variable (hc : s.inCache f = false)
include hc

theorem load_performed (hdst : ∀ k, f.dst = some k → f.dst2 ≠ some k) (hop : f.op ∈ [MemOp.load, .ldfe, .ldff]) (hp : s.anyPoison f.key f.size = false) :
    (s.performNow f).mem = s.mem ∧
    (∀ k, f.dst = some k → k ≠ 0 → ((s.performNow f).ctx f.ctx).regAt k = f.extend (s.read f.key f.size)) ∧
    (∀ k, f.dst2 = some k → k ≠ 0 → ((s.performNow f).ctx f.ctx).regAt k = if s.isFull f.key then 1 else 0) ∧
    (s.performNow f).isFull f.key = (s.isFull f.key && !f.drains (s.isFull f.key)) ∧
    (f.drains (s.isFull f.key) = false → (s.performNow f).empties = s.empties) := by
  rw [performNow_load hr (fetchData_home hc) hp hop]
  refine ⟨by simp, fun k hk h0 => ?_, fun k hk h0 => ?_, by simp [loads_isFull], fun hn => ?_⟩
  · rw [landed_ctx, loads_dst hdst hk h0]
  · rw [landed_ctx, loads_dst2 hdst hk h0]
  · simp [loads_empties, hn]

theorem acq_performed (hdst : ∀ k, f.dst = some k → f.dst2 ≠ some k) (hop : f.op = .acq) (hp : s.anyPoison f.key f.size = false) :
    (∀ k, f.dst = some k → k ≠ 0 → ((s.performNow f).ctx f.ctx).regAt k = f.extend (s.read f.key f.size)) ∧
    (s.performNow f).isFull f.key = false ∧ (f.scope < 2 → (s.performNow f).mem = s.mem) ∧
    (2 ≤ f.scope → ∀ l ∈ ((s.performNow f).cluster (clusterOf (coreOf f.ctx))).lines, meetsAny (s.boundTo f.ctx f.va) l = false) := by
  rw [performNow_acq hr (fetchData_home hc) hp hop]
  have hd : f.drains (s.isFull f.key) = true := by simp [Flight.drains, hop]
  have hfull : (s.loads f (s.read f.key f.size)).isFull f.key = false := by rw [loads_isFull, hd]; simp
  by_cases hs : 2 ≤ f.scope
  · rw [if_pos hs, loads_boundTo hdst f.ctx f.va rfl]
    have ho := onlyTables_writeBack (s.loads f (s.read f.key f.size)) (clusterOf (coreOf f.ctx)) (meetsAny (s.boundTo f.ctx f.va)) true
    refine ⟨fun k hk h0 => ?_, ?_, fun h => absurd hs (by omega), fun _ l hlm => ?_⟩
    · rw [landed_ctx, State.ctx, ho.ctxs]
      exact loads_dst hdst hk h0
    · rw [landed_isFull, State.isFull, ho.empties]
      exact hfull
    · rw [State.cluster, landed_clusters] at hlm
      exact writeBack_drops _ _ _ l hlm
  · rw [if_neg hs]
    refine ⟨fun k hk h0 => ?_, by rw [landed_isFull, hfull], fun _ => by simp, fun h => absurd h hs⟩
    rw [landed_ctx, loads_dst hdst hk h0]

/-- A store, and the tag that it leaves. -/
theorem store_performed (hw : memWf s.mem = true) (hop : f.op = .store ∨ f.op = .rel) :
    Stored s (s.performNow f) f.key f.size f.x.toNat ∧ (s.performNow f).ctxs = s.ctxs ∧
    (s.performNow f).isFull f.key = (s.isFull f.key || (f.op == .rel || f.sync == 2)) ∧
    ((f.op == .rel || f.sync == 2) = false → (s.performNow f).empties = s.empties) := by
  obtain ⟨hctx, hemp⟩ := storeData_keeps hc f.x.toNat
  rw [performNow_store hr hop]
  cases f.op == .rel || f.sync == 2
  · refine ⟨(stored_storeData hw hc _).of_same (by simp) (by simp), by simp [hctx], ?_, fun _ => by simp [hemp]⟩
    simp [State.isFull, hemp]
  · exact ⟨(stored_storeData hw hc _).of_same (by simp) (by simp), by simp [hctx], by simp, nofun⟩

theorem test_performed (hw : memWf s.mem = true) (hop : f.op = .stef ∨ f.op = .stff) :
    (s.isFull f.key = (f.op == .stff) → Stored s (s.performNow f) f.key f.size f.x.toNat ∧ (s.performNow f).isFull f.key = true) ∧
    (s.isFull f.key ≠ (f.op == .stff) → (s.performNow f).mem = s.mem ∧ (s.performNow f).empties = s.empties) ∧
    ∀ k, f.dst = some k → k ≠ 0 → ((s.performNow f).ctx f.ctx).regAt k = if s.isFull f.key = (f.op == .stff) then 1 else 0 := by
  rw [performNow_test hr hop]
  by_cases h : s.isFull f.key = (f.op == .stff)
  · rw [if_pos h]
    refine ⟨fun _ => ⟨(stored_storeData hw hc _).of_same (by simp) (by simp), by simp⟩, fun hn => absurd h hn, fun k hk h0 => ?_⟩
    rw [landed_ctx, hk, replyTo_regAt _ _ _ _ h0, if_pos h]
  · rw [if_neg h]
    refine ⟨fun hn => absurd hn h, fun _ => ⟨by simp, by simp⟩, fun k hk h0 => ?_⟩
    rw [landed_ctx, hk, replyTo_regAt _ _ _ _ h0, if_neg h]

theorem atomic_performed (hw : memWf s.mem = true) {fn : AtomFn} (hop : f.op = .atomic fn) (hp : s.anyPoison f.key f.size = false) :
    Stored s (s.performNow f) f.key f.size (fn.apply (BitVec.ofNat 64 (s.read f.key f.size)) f.x f.y).toNat ∧ (s.performNow f).empties = s.empties ∧
    ∀ k, f.dst = some k → k ≠ 0 → ((s.performNow f).ctx f.ctx).regAt k = BitVec.ofNat 64 (s.read f.key f.size) := by
  obtain ⟨-, hemp⟩ := storeData_keeps hc (fn.apply (BitVec.ofNat 64 (s.read f.key f.size)) f.x f.y).toNat
  rw [performNow_atomic hr (fetchData_home hc) hp hop]
  refine ⟨(stored_storeData hw hc _).of_same (by simp) (by simp), by simp [hemp], fun k hk h0 => ?_⟩
  rw [landed_ctx, hk, replyTo_regAt _ _ _ _ h0]

end

end Sys2Proof.Machine
end

section
/-! The two accesses of the cluster cache, and the statement about where an access is performed. -/

namespace Sys2Proof.Machine

section
variable {s : State} {f : Flight} {l : Line} (hc : s.inCache f = true) (hl : s.findLine (clusterOf (coreOf f.ctx)) f.key = some l)
include hc hl

/-- A load from a line of the cluster cache. -/
theorem load_cached (hd : f.dst2 = none) (hs : f.sync = 0) (hp : s.anyPoison f.key f.size = false) (hop : f.op = .load) :
    (s.performNow f).mem = s.mem ∧ (s.performNow f).clusters = s.clusters ∧ (s.performNow f).empties = s.empties ∧
    ∀ k, f.dst = some k → k ≠ 0 →
      ((s.performNow f).ctx f.ctx).regAt k = f.extend (l.data.toNat / 2 ^ (8 * (f.key % 64)) % 2 ^ (8 * f.size)) := by
  rw [performNow_load (recalled_cached hc) (fetchData_cached hc hl) hp (by simp [hop])]
  have hdr : f.drains (s.isFull f.key) = false := by simp [drains_load hop, hs]
  refine ⟨by simp, by simp, by simp [loads_empties, hdr], fun k hk h0 => ?_⟩
  rw [landed_ctx, loads_dst (by simp [hd]) hk h0]

/-- A store to a line of the cluster cache changes that line alone. -/
theorem store_cached (hs : f.sync = 0) (hop : f.op = .store) :
    (s.performNow f).mem = s.mem ∧ (s.performNow f).ctxs = s.ctxs ∧ (s.performNow f).empties = s.empties ∧
    (s.performNow f).findLine (clusterOf (coreOf f.ctx)) f.key = some (l.stored f.key f.size f.x.toNat) := by
  have hno : (f.op == .rel || f.sync == 2) = false := by simp [hop, hs]
  rw [performNow_store (recalled_cached hc) (.inl hop), hno, storeData_cached hc hl]
  have hfind := findLine_putLine (m := l.stored f.key f.size f.x.toNat) hl rfl
  obtain ⟨p, h⟩ := clearPoison_frame (s.putLine (clusterOf (coreOf f.ctx)) (l.stored f.key f.size f.x.toNat)) f.key f.size
  rw [h]
  refine ⟨by simp [State.putLine, State.modCluster], by simp [State.putLine, State.modCluster], by simp [State.putLine, State.modCluster], ?_⟩
  rw [State.findLine, State.cluster]
  simp only [Bool.false_eq_true, if_false, landed_clusters]
  exact hfind

end

end Sys2Proof.Machine

open Sys2Proof Sys2Proof.Machine

/-- Settles O20: at the home by the equation of `performNow` for each operation, in the cluster cache by the patch of one line. -/
theorem accessPerformed : Obligations.AccessPerformed := by
  unfold Obligations.AccessPerformed
  refine ⟨fun s f hw hc hdst hclean => ?_, fun s f l hc hd hs hp hfit hl => ⟨fun hop => load_cached hc hl hd hs hp hop, fun hop => ?_⟩⟩
  · have hr := recalled_clean hclean
    intro t old poisoned full reg kept stores gone loaded tagged
    have same (h : t.mem = s.mem) : kept := fun j => by rw [h]
    refine ⟨fun hop hd2 hp => ?_, fun hop hp => ?_, fun hop hp => ?_, fun hop hd2 hp => ?_, fun hop hp => ?_, fun hop => ?_, fun hop => ?_,
      fun hop => ?_, fun hop => ?_, fun hop => ?_, fun hop => ?_, fun hop => ?_, fun fn hop hp => atomic_performed hr hc hw hop hp,
      fun fn hop hp => ?_⟩
    · obtain ⟨hm, hv, -, hf, he⟩ := load_performed hr hc hdst (by simp [hop]) hp
      rw [drains_load hop] at hf he
      exact ⟨same hm, hv, hf, fun h1 => he (by simpa using h1)⟩
    · obtain ⟨hm, hv, ht, hf, he⟩ := load_performed hr hc hdst (by simp [hop]) hp
      rw [drains_ldfe hop] at hf he
      exact ⟨same hm, hv, ht, hf.trans (by simp), he⟩
    · obtain ⟨hm, hv, ht, -, he⟩ := load_performed hr hc hdst (by simp [hop]) hp
      exact ⟨same hm, hv, ht, he (by simp [Flight.drains, hop])⟩
    · obtain ⟨hv, hf, hm, hb⟩ := acq_performed hr hc hdst hop hp
      exact ⟨hv, hf, fun h => same (hm h), hb⟩
    · have hnot : ∀ fn, f.op ≠ .atomic fn := by
        rintro fn h
        simp [h] at hop
      exact (performNow_poisoned hr hp (.inl hop)).trans (poisonStop_trap (.inr hnot))
    · obtain ⟨hst, hctx, hf, he⟩ := store_performed hr hc hw (.inl hop)
      rw [show (f.op == .rel || f.sync == 2) = (f.sync == 2) by simp [hop]] at hf he
      exact ⟨hst, hctx, hf, fun h => he (by simpa using h)⟩
    · obtain ⟨hst, hctx, hf, -⟩ := store_performed hr hc hw (.inr hop)
      exact ⟨hst, hctx, hf.trans (by simp [hop])⟩
    · have ht : t = _ := performNow_ldtag hr hop
      refine ⟨same (by rw [ht]; simp), by rw [ht]; simp, fun k hk h0 => ?_⟩
      simp only [reg, ht]
      rw [landed_ctx, hk, replyTo_regAt _ _ _ _ h0]
    · obtain ⟨hset, hleft, hv⟩ := test_performed hr hc hw (.inl hop)
      rw [show (f.op == .stff) = false by rw [hop]; rfl] at hset hleft hv
      refine ⟨hset, fun h => ?_, fun k hk h0 => (hv k hk h0).trans ?_⟩
      · obtain ⟨hm, he⟩ := hleft (by simpa [full] using h)
        exact ⟨same hm, he⟩
      · cases hf : s.isFull f.key <;> simp [full, hf]
    · obtain ⟨hset, hleft, hv⟩ := test_performed hr hc hw (.inr hop)
      rw [show (f.op == .stff) = true by rw [hop]; rfl] at hset hleft hv
      refine ⟨hset, fun h => ?_, hv⟩
      obtain ⟨hm, he⟩ := hleft (by simpa [full] using h)
      exact ⟨same hm, he⟩
    · have ht : t = _ := performNow_tag hr (.inl hop)
      rw [show (f.op == .tfill) = false by rw [hop]; rfl] at ht
      exact ⟨same (by rw [ht]; simp), by rw [ht]; simp, by rw [ht]; simp⟩
    · have ht : t = _ := performNow_tag hr (.inr hop)
      rw [show (f.op == .tfill) = true by rw [hop]; rfl] at ht
      exact ⟨same (by rw [ht]; simp), by rw [ht]; simp, by rw [ht]; simp⟩
    · have ht : t = _ := performNow_poisoned hr hp (.inr ⟨fn, hop⟩)
      obtain ⟨he, hm⟩ := poisonStop_frame s f
      refine ⟨same (by rw [ht, hm]), by rw [ht, he], fun hd => ht.trans (poisonStop_trap (.inl hd)), fun hd hctx => ?_, fun hd hctx => ?_⟩
      · exact (reduction_poisoned hr hop hp hd hctx).1
      · exact (reduction_poisoned hr hop hp hd hctx).2
  · obtain ⟨hm, hctx, he, hfind⟩ := store_cached hc hl hs hop
    exact ⟨hm, hctx, he, _, hfind, rfl, fun j hj => ⟨stored_data l f.key f.size f.x j hj, stored_dirty l f.key f.size _ j hj⟩⟩

end

section
/-! What a switch of slices keeps: bits of registers, end records and helper numbers, the time and the inbound areas. -/

namespace Sys2Proof.Machine

/-! ## Bit fields -/

theorem testBit_bitsOf (x : W64) (hi lo i : Nat) : (bitsOf x hi lo).testBit i = (decide (i < hi + 1 - lo) && x.toNat.testBit (lo + i)) := by
  unfold bitsOf
  rw [Nat.testBit_mod_two_pow, Nat.testBit_div_two_pow, Nat.add_comm lo i]

theorem testBit_putBits (x : W64) {hi lo v : Nat} (i : Nat) (hlo : lo ≤ hi) (h : i < 64) :
    (putBits x hi lo v).toNat.testBit i = if lo ≤ i ∧ i ≤ hi then v.testBit (i - lo) else x.toNat.testBit i := by
  unfold putBits bitsOf
  rw [BitVec.toNat_ofNat, Nat.testBit_mod_two_pow, decide_eq_true h, Bool.true_and,
    testBit_patch (Nat.mod_lt _ (Nat.two_pow_pos _)), Nat.testBit_mod_two_pow]
  by_cases hin : lo ≤ i ∧ i ≤ hi
  · rw [if_pos (by omega), if_pos hin, decide_eq_true (by omega), Bool.true_and]
  · rw [if_neg (by omega), if_neg hin]

theorem bitsOf_putBits_same (x : W64) {hi lo v : Nat} (h64 : hi < 64) (hlo : lo ≤ hi) : bitsOf (putBits x hi lo v) hi lo = v % 2 ^ (hi + 1 - lo) := by
  apply Nat.eq_of_testBit_eq
  intro i
  rw [testBit_bitsOf, Nat.testBit_mod_two_pow]
  by_cases hin : i < hi + 1 - lo
  · rw [testBit_putBits x _ hlo (by omega), if_pos (by omega), Nat.add_sub_cancel_left]
  · simp [hin]

/-- Fields that do not meet are kept. -/
theorem bitsOf_putBits_other (x : W64) {hi lo v h l : Nat} (hlo : lo ≤ hi) (hh : h < 64) (hd : h < lo ∨ hi < l) :
    bitsOf (putBits x hi lo v) h l = bitsOf x h l := by
  apply Nat.eq_of_testBit_eq
  intro i
  rw [testBit_bitsOf, testBit_bitsOf]
  by_cases hin : i < h + 1 - l
  · rw [testBit_putBits x _ hlo (by omega), if_neg (by omega)]
  · simp [hin]

@[simp] theorem reg_setRegBits_same (s : State) (a hi lo v : Nat) : (s.setRegBits a hi lo v).reg a = putBits (s.reg a) hi lo v := by
  unfold State.setRegBits
  rw [reg_setReg, if_pos rfl]

/-! ## What stays a core's own -/

/-- The time, the inbound areas, and each core's end records and helper numbers are kept. -/
structure Persists (s t : State) : Prop where
  ptp     : t.ptp = s.ptp
  cycle   : t.cycle = s.cycle
  inbound : t.inbound = s.inbound
  cores   : ∀ k, (t.core k).ends = (s.core k).ends ∧ (t.core k).nextHelper = (s.core k).nextHelper

theorem Persists.refl (s : State) : Persists s s := ⟨rfl, rfl, rfl, fun _ => ⟨rfl, rfl⟩⟩

theorem Persists.trans {s t u : State} (h : Persists s t) (g : Persists t u) : Persists s u :=
  ⟨g.ptp.trans h.ptp, g.cycle.trans h.cycle, g.inbound.trans h.inbound,
    fun k => ⟨(g.cores k).1.trans (h.cores k).1, (g.cores k).2.trans (h.cores k).2⟩⟩

theorem Persists.foldl {α : Type} {f : State → α → State} (hf : ∀ s a, Persists s (f s a)) (l : List α) (s : State) : Persists s (l.foldl f s) := by
  induction l generalizing s with
  | nil => exact .refl s
  | cons a l ih => exact (hf s a).trans (ih _)

/-- A core's map in which each entry keeps the two. -/
theorem Persists.of_cores {s : State} {m : Map CoreSt}
    (h : ∀ k, (m.get k {}).ends = (s.core k).ends ∧ (m.get k {}).nextHelper = (s.core k).nextHelper) : Persists s { s with cores := m } :=
  ⟨rfl, rfl, rfl, h⟩

theorem persists_modCore (s : State) (i : Nat) (f : CoreSt → CoreSt) (h : ∀ c, (f c).ends = c.ends ∧ (f c).nextHelper = c.nextHelper) :
    Persists s (s.modCore i f) := by
  refine .of_cores fun k => ?_
  rw [get_put]
  split
  · subst k
    exact h _
  · exact ⟨rfl, rfl⟩

theorem persists_onlyTables {s t : State} (h : OnlyTables s t) : Persists s t := by
  refine ⟨?_, h.cycle, ?_, fun k => ⟨?_, ?_⟩⟩
  · have := congrArg State.ptp h.rest
    exact this
  · have := congrArg State.inbound h.rest
    exact this
  · have := congrArg CoreSt.ends (h.cores k)
    exact this
  · have := congrArg CoreSt.nextHelper (h.cores k)
    exact this

theorem persists_active (s : State) (vf phase : Nat) : Persists s (s.active vf phase) := by
  unfold State.active
  split
  · exact .refl s
  · exact ⟨rfl, rfl, rfl, fun _ => ⟨rfl, rfl⟩⟩

theorem persists_leaveMmag (s : State) (ctx : Nat) : Persists s (s.leaveMmag ctx) := by
  unfold State.leaveMmag
  dsimp only
  split
  · split
    · have hout := persists_modCore s (coreOf ctx) (fun c => { c with mmag := none }) fun _ => ⟨rfl, rfl⟩
      split
      · generalize s.modCore (coreOf ctx) (fun c => { c with mmag := none }) = u at hout ⊢
        have hin (q : EngCmd) : Persists u (u.enterQueue (coreOf ctx) 0 q) := by
          refine (persists_modCore u (coreOf ctx) _ fun _ => ?_).trans (persists_active _ _ _)
          exact ⟨rfl, rfl⟩
        exact (hout.trans (hin _)).trans ⟨rfl, rfl, rfl, fun _ => ⟨rfl, rfl⟩⟩
      · exact hout
    · exact .refl s
  · exact .refl s

theorem persists_failLaunch (s : State) (h code : Nat) (wid : Option Nat) : Persists s (s.failLaunch h code wid) := by
  cases hl : s.launch? h with
  | none =>
    simp only [State.failLaunch, hl]
    exact .refl s
  | some l =>
    by_cases hf : l.failed = true ∨ l.st = .ended
    · rw [failLaunch_again hl hf]
      exact .refl s
    · rw [failLaunch_first hl hf]
      refine ⟨rfl, rfl, rfl, fun k => ?_⟩
      show ((cutRuns h s.cores).get k {}).ends = _ ∧ ((cutRuns h s.cores).get k {}).nextHelper = _
      unfold Map.get cutRuns State.core Map.get
      rw [find?_mapVals]
      cases Map.find? s.cores k <;> exact ⟨rfl, rfl⟩

theorem persists_failItem (s : State) (c : Ctx) (code : Nat) : Persists s (s.failItem c code) := by
  unfold State.failItem
  split
  · split
    · exact persists_failLaunch ..
    · exact .refl s
  · exact .foldl (fun _ _ => persists_failLaunch ..) _ s

theorem persists_setCtx (s : State) (id : Nat) (c : Ctx) : Persists s (s.setCtx id c) := ⟨rfl, rfl, rfl, fun _ => ⟨rfl, rfl⟩⟩

theorem persists_close (s : State) (ctx : Nat) (failed : Bool) (code : Nat) : Persists s (s.close ctx failed code) := by
  unfold State.close
  split
  · exact .refl s
  · dsimp only
    split
    · exact ((persists_leaveMmag s ctx).trans (persists_setCtx _ _ _)).trans (persists_failItem _ _ _)
    · exact (persists_leaveMmag s ctx).trans (persists_setCtx _ _ _)

theorem persists_takeTrap (s : State) (ctx cause : Nat) (tval pc : W64) (info : Option FaultInfo) : Persists s (s.takeTrap ctx cause tval pc info) := by
  rw [takeTrap_eq]
  dsimp only
  split
  · exact (persists_setCtx _ _ _).trans (persists_setCtx _ _ _)
  · split
    · exact (persists_setCtx _ _ _).trans (persists_setCtx _ _ _)
    · split
      · exact (persists_setCtx _ _ _).trans (persists_setCtx _ _ _)
      · have hn : Persists s (s.trapNoted ctx cause tval pc) := ⟨rfl, rfl, rfl, fun _ => ⟨rfl, rfl⟩⟩
        exact hn.trans (persists_close _ _ _ _)

theorem persists_reissue (s : State) (id : Nat) (f : Flight) : Persists s (s.reissue id f) := by
  have hk := checkAccess_keeps s id f.va.toNat f.size (f.op.acc f.sync) (f.op.isTagged f.sync)
  unfold State.reissue
  generalize s.checkAccess id f.va.toNat f.size (f.op.acc f.sync) (f.op.isTagged f.sync) = r at hk ⊢
  cases r with
  | trap c v => exact persists_takeTrap ..
  | page u g => exact (persists_onlyTables hk).trans (persists_takeTrap ..)
  | ok u x al =>
    refine (persists_onlyTables hk).trans ?_
    dsimp only
    split
    · exact ⟨rfl, rfl, rfl, fun _ => ⟨rfl, rfl⟩⟩
    · exact ⟨rfl, rfl, rfl, fun _ => ⟨rfl, rfl⟩⟩

/-! ## Images -/

theorem writeSave_frame (s : State) (vf : Nat) : ∃ n m p, s.writeSave vf = { s with fresh := n, mem := m, poison := p } := by
  have clears : ∀ (u : State) (lo n : Nat), (∃ f m, u = { s with fresh := f, mem := m }) → ∃ f m p, u.clearPoison lo n = { s with fresh := f, mem := m, poison := p } := by
    rintro _ lo n ⟨f, m, rfl⟩
    obtain ⟨p, hp⟩ := clearPoison_frame ({ s with fresh := f, mem := m } : State) lo n
    exact ⟨f, m, p, hp⟩
  unfold State.writeSave
  exact clears _ _ _ ⟨_, _, rfl⟩

theorem putCells_frame (s : State) (cells : List Host.Cell) (empties : List Nat) :
    ∃ m e, s.putCells cells empties = { s with mem := m, empties := e } := by
  have fold : ∀ (l : List Host.Cell) (u : State), ∃ m, l.foldl (fun (s : State) c => { s with mem := memSet s.mem c.1 c.2 }) u = { u with mem := m } := by
    intro l
    induction l with
    | nil => exact fun u => ⟨u.mem, rfl⟩
    | cons c l ih =>
      intro u
      obtain ⟨m, hm⟩ := ih { u with mem := memSet u.mem c.1 c.2 }
      exact ⟨m, hm⟩
  obtain ⟨m, hm⟩ := fold cells s
  unfold State.putCells
  rw [hm]
  exact ⟨_, _, rfl⟩

theorem modClusters_frame {α : Type} (f : State → α → State) (hf : ∀ s a, ∃ cl, f s a = { s with clusters := cl }) (l : List α) (s : State) :
    ∃ cl, l.foldl f s = { s with clusters := cl } := by
  induction l generalizing s with
  | nil => exact ⟨s.clusters, rfl⟩
  | cons a l ih =>
    obtain ⟨c, hc⟩ := hf s a
    obtain ⟨d, hd⟩ := ih (f s a)
    rw [List.foldl_cons, hd, hc]
    exact ⟨d, rfl⟩

/-- The contexts of an image as they come back. -/
def backAt (cycle : Nat) (c : Ctx) : Ctx := if c.life = .live then c.resumed cycle else c
/-- Its cores, with what stays the core's own. -/
def coresBack (old : State) (m : Map CoreSt) (l : List (Nat × CoreSt)) : Map CoreSt := l.foldl (fun m p => m.put p.1 (p.2.keeping (old.core p.1))) m

theorem coresBack_keeps (old : State) (l : List (Nat × CoreSt)) (m : Map CoreSt)
    (h : ∀ k, (m.get k {}).ends = (old.core k).ends ∧ (m.get k {}).nextHelper = (old.core k).nextHelper) (k : Nat) :
    ((coresBack old m l).get k {}).ends = (old.core k).ends ∧ ((coresBack old m l).get k {}).nextHelper = (old.core k).nextHelper := by
  induction l generalizing m with
  | nil => exact h k
  | cons p l ih =>
    refine ih _ fun j => ?_
    rw [get_put]
    split
    · subst j
      exact ⟨rfl, rfl⟩
    · exact h j

/-- An image that is in its place again, its clusters, memory, tags and poison apart. -/
def State.back (s : State) (x : VfImage) (cl : Map Cluster) (m : List Host.Cell) (e p : List Nat) : State :=
  { s with ctxs := x.ctxs.map (fun (p : Nat × Ctx) => (p.1, backAt s.cycle p.2)), cores := coresBack s s.cores x.cores, clusters := cl,
           moors := x.moors, slices := x.slices, settling := x.settling, images := s.images.filter (·.vf ≠ x.vf), mem := m, empties := e, poison := p }

theorem persists_back (s : State) (x : VfImage) (cl : Map Cluster) (m : List Host.Cell) (e p : List Nat) : Persists s (s.back x cl m e p) :=
  ⟨rfl, rfl, rfl, coresBack_keeps s x.cores s.cores fun _ => ⟨rfl, rfl⟩⟩

/-- An image that comes back: it takes its place, and then its abandoned accesses are issued again. -/
theorem restoreImage_eq (s : State) (x : VfImage) :
    ∃ cl m e p, s.restoreImage x = x.redo.foldl (fun s f => s.reissue f.ctx f) (s.back x cl m e p) := by
  obtain ⟨cl, hcl⟩ := modClusters_frame (fun (s : State) (p : Nat × Cluster) => s.modCluster p.1 fun c =>
    { c with split := p.2.split, held := p.2.held, gangDue := p.2.gangDue, padSaved := p.2.padSaved, barc := p.2.barc }) (fun _ _ => ⟨_, rfl⟩) x.clusters
    (s.back x s.clusters s.mem s.empties s.poison)
  obtain ⟨m, e, hm⟩ := putCells_frame (s.back x cl s.mem s.empties s.poison) x.mem x.empties
  refine ⟨cl, m, e, x.poison.foldl insertKey s.poison, ?_⟩
  unfold State.back coresBack backAt at *
  unfold State.restoreImage
  dsimp only at hcl hm ⊢
  rw [hcl, hm]

theorem persists_emptied (s : State) (vf : Nat) : Persists s (s.emptied vf) := by
  refine ⟨rfl, rfl, rfl, fun k => ?_⟩
  show (Map.get (s.cores.map fun (p : Nat × CoreSt) => (p.1, ({ vfid := vf } : CoreSt).keeping p.2)) k {}).ends = _ ∧
    (Map.get (s.cores.map fun (p : Nat × CoreSt) => (p.1, ({ vfid := vf } : CoreSt).keeping p.2)) k {}).nextHelper = _
  unfold Map.get State.core Map.get
  rw [find?_mapVals]
  cases Map.find? s.cores k <;> exact ⟨rfl, rfl⟩

theorem feedInbound_frame (s : State) (vf : Nat) :
    ∃ sl a, s.feedInbound vf = { s with inbound := s.inbound.put vf [], slices := sl, activity := a } := by
  have one (m : Msg) (u : State) : ∃ sl a, u.postMsg m = { u with slices := sl, activity := a } := by
    unfold State.postMsg State.active
    split <;> exact ⟨_, _, rfl⟩
  have fold : ∀ (l : List Msg) (u : State), ∃ sl a, l.foldl (fun s m => s.postMsg m) u = { u with slices := sl, activity := a } := by
    intro l
    induction l with
    | nil => exact fun u => ⟨_, _, rfl⟩
    | cons m l ih =>
      intro u
      obtain ⟨sl, a, h⟩ := one m u
      rw [List.foldl_cons, h]
      exact ih _
  exact fold _ _

end Sys2Proof.Machine
end

section
/-! A switch of slices (R389 to R391). -/

namespace Sys2Proof.Machine

/-- The state in which every cluster has written back and dropped its lines. -/
def State.flushedOut (s : State) : State := (s.clusters.map (·.1)).foldl (fun s c => s.writeBack c (fun _ => true) true) s

/-- The resident virtual function goes into its save area and its image. -/
def State.laidAside (s : State) : State := if s.noVf then s else { s.writeSave s.resident with images := s.images ++ [s.image] }

/-- The image of a virtual function comes back, where it has one. -/
def State.fetched (s : State) (vf : Nat) : State :=
  match s.images.find? (·.vf == vf) with
  | some x => s.restoreImage x
  | none => s

/-- A slice begins. -/
def State.begins (s : State) (i : Nat) (w : W64) : State :=
  let u := (({ s with quantum := i, sliceWord := w, sliceFrom := s.ptp, idleFrom := s.ptp } : State).setResident (bitsOf w 4 0)).setRegBits (schBase + 0x18) 8 8 0
  (u.setRegBits (schBase + 0x18) 63 32 (u.regBits (schBase + 0x18) 63 32 + 1)).feedInbound (bitsOf w 4 0)

theorem switching_iff (s : State) : s.switching = true ↔ s.regBits (schBase + 0x18) 8 8 = 1 := by simp [State.switching]

section
variable {s : State}

theorem exec_sliceSwitch_stays (h : s.switching = false ∨ s.maySwitch = false) : exec .sliceSwitch s = .next s := by
  rw [exec_sliceSwitch]
  exact if_pos h

variable (hg : s.switching = true) (hm : s.maySwitch = true)
include hg hm

theorem exec_sliceSwitch_empty (hn : s.nextQuantum = none) : exec .sliceSwitch s = .next (s.setRegBits (schBase + 0x18) 8 8 0) := by
  rw [exec_sliceSwitch]
  simp only [execSliceSwitch, hg, hm, hn, Bool.true_eq_false, or_self, if_false]

theorem exec_sliceSwitch_next {i : Nat} {w : W64} (hn : s.nextQuantum = some (i, w)) :
    exec .sliceSwitch s = .next (((s.flushedOut.laidAside.emptied (bitsOf w 4 0)).fetched (bitsOf w 4 0)).begins i w) := by
  rw [exec_sliceSwitch]
  simp only [execSliceSwitch, hg, hm, hn, Bool.true_eq_false, or_self, if_false]
  rfl

end

/-! ## The beginning of a slice -/

theorem bits_setRegBits_same (s : State) (a : Nat) {hi lo v : Nat} (h64 : hi < 64) (hlo : lo ≤ hi) :
    (s.setRegBits a hi lo v).regBits a hi lo = v % 2 ^ (hi + 1 - lo) := by
  unfold State.regBits
  rw [reg_setRegBits_same, bitsOf_putBits_same _ h64 hlo]

theorem bits_setRegBits_other (s : State) (a : Nat) {hi lo v h l : Nat} (hlo : lo ≤ hi) (hh : h < 64) (hd : h < lo ∨ hi < l) :
    (s.setRegBits a hi lo v).regBits a h l = s.regBits a h l := by
  unfold State.regBits
  rw [reg_setRegBits_same, bitsOf_putBits_other _ hlo hh hd]

theorem regBits_feedInbound (s : State) (vf a h l : Nat) : (s.feedInbound vf).regBits a h l = s.regBits a h l := by
  obtain ⟨sl, ac, hf⟩ := feedInbound_frame s vf
  rw [hf]
  rfl

theorem regBits_setResident (s : State) (vf : Nat) : (s.setResident vf).regBits (schBase + 0x18) 4 0 = vf % 32 :=
  bits_setRegBits_same ({ s with noVf := false } : State) _ (by omega) (by omega)

theorem begins_bits (s : State) (i : Nat) (w : W64) :
    (s.begins i w).regBits (schBase + 0x18) 4 0 = bitsOf w 4 0 ∧ (s.begins i w).regBits (schBase + 0x18) 8 8 = 0 := by
  unfold State.begins
  dsimp only
  have hvf : bitsOf w 4 0 % 32 = bitsOf w 4 0 := Nat.mod_eq_of_lt (Nat.mod_lt _ (by omega))
  generalize bitsOf w 4 0 = vf at hvf ⊢
  generalize ({ s with quantum := i, sliceWord := w, sliceFrom := s.ptp, idleFrom := s.ptp } : State) = u
  have four := (regBits_setResident u vf).trans hvf
  generalize u.setResident vf = u at four ⊢
  rw [regBits_feedInbound, regBits_feedInbound]
  generalize hv : u.setRegBits (schBase + 0x18) 8 8 0 = v
  rw [bits_setRegBits_other v (schBase + 0x18) (by omega) (by omega) (by omega), bits_setRegBits_other v (schBase + 0x18) (by omega) (by omega) (by omega),
    ← hv, bits_setRegBits_other u (schBase + 0x18) (by omega) (by omega) (by omega), bits_setRegBits_same u (schBase + 0x18) (by omega) (by omega)]
  exact ⟨four, Nat.zero_mod _⟩

theorem begins_frame (s : State) (i : Nat) (w : W64) : ∃ a sl ac,
    s.begins i w = { s with quantum := i, sliceWord := w, sliceFrom := s.ptp, idleFrom := s.ptp, noVf := false, admin := a,
                            inbound := s.inbound.put (bitsOf w 4 0) [], slices := sl, activity := ac } := by
  unfold State.begins
  dsimp only
  generalize bitsOf w 4 0 = vf
  obtain ⟨a, ha⟩ : ∃ a, ((({ s with quantum := i, sliceWord := w, sliceFrom := s.ptp, idleFrom := s.ptp } : State).setResident vf).setRegBits (schBase + 0x18) 8 8 0) =
      ({ s with quantum := i, sliceWord := w, sliceFrom := s.ptp, idleFrom := s.ptp, noVf := false, admin := a } : State) := ⟨_, rfl⟩
  rw [ha]
  obtain ⟨b, hb⟩ := setRegBits_frame ({ s with quantum := i, sliceWord := w, sliceFrom := s.ptp, idleFrom := s.ptp, noVf := false, admin := a } : State)
    (schBase + 0x18) 63 32 (({ s with quantum := i, sliceWord := w, sliceFrom := s.ptp, idleFrom := s.ptp, noVf := false, admin := a } : State).regBits (schBase + 0x18) 63 32 + 1)
  rw [hb]
  obtain ⟨sl, ac, hf⟩ := feedInbound_frame ({ s with quantum := i, sliceWord := w, sliceFrom := s.ptp, idleFrom := s.ptp, noVf := false, admin := b } : State) vf
  exact ⟨b, sl, ac, hf⟩

/-! ## What is laid aside and fetched -/

theorem onlyTables_flushedOut (s : State) : OnlyTables s s.flushedOut := onlyTables_writeBacks _ true s

theorem laidAside_frame (s : State) : ∃ n m p im, s.laidAside = { s with fresh := n, mem := m, poison := p, images := im } ∧
    ∀ vf, s.noVf = true ∨ vf ≠ s.resident → im.find? (fun x => x.vf == vf) = s.images.find? (fun x => x.vf == vf) := by
  unfold State.laidAside
  split
  · exact ⟨_, _, _, _, rfl, fun _ _ => rfl⟩
  · rename_i hv
    obtain ⟨n, m, p, h⟩ := writeSave_frame s s.resident
    rw [h]
    refine ⟨_, _, _, _, rfl, fun vf hvf => ?_⟩
    have hne : (s.image.vf == vf) = false := by
      have := hvf.resolve_left hv
      simpa [State.image] using this.symm
    rw [List.find?_append, List.find?_cons_of_neg (by simp [hne]), List.find?_nil, Option.or_none]

theorem OnlyTables.slice {s t : State} (h : OnlyTables s t) : t.images = s.images ∧ t.noVf = s.noVf ∧ t.resident = s.resident := by
  have him := congrArg State.images h.rest
  have hno := congrArg State.noVf h.rest
  have hres := congrArg (fun x : State => x.resident) h.rest
  exact ⟨him, hno, hres⟩

/-- The state once the contexts that were there are laid aside. -/
theorem swept_frame (s : State) (vf : Nat) :
    let u := s.flushedOut.laidAside.emptied vf
    Persists s u ∧ u.ctxs = [] ∧ u.moors = [] ∧ u.settling = [] ∧ u.flights = s.flights.filter Flight.isForeign ∧
      (s.noVf = true ∨ vf ≠ s.resident → u.images.find? (fun x => x.vf == vf) = s.images.find? (fun x => x.vf == vf)) := by
  have ho := onlyTables_flushedOut s
  obtain ⟨himg, hno, hres⟩ := ho.slice
  obtain ⟨n, m, p, im, h, him⟩ := laidAside_frame s.flushedOut
  intro u
  have hp : Persists s.flushedOut s.flushedOut.laidAside := by
    rw [h]
    exact ⟨rfl, rfl, rfl, fun _ => ⟨rfl, rfl⟩⟩
  refine ⟨((persists_onlyTables ho).trans hp).trans (persists_emptied _ vf), rfl, rfl, rfl, ?_, fun hv => ?_⟩
  · show s.flushedOut.laidAside.flights.filter Flight.isForeign = _
    rw [h, ← ho.flights]
  · show s.flushedOut.laidAside.images.find? _ = _
    rw [h, ← himg]
    exact him vf (by rw [hno, hres]; exact hv)

theorem persists_restoreImage (s : State) (x : VfImage) : Persists s (s.restoreImage x) := by
  obtain ⟨cl, m, e, p, h⟩ := restoreImage_eq s x
  rw [h]
  exact (persists_back s x cl m e p).trans (.foldl (fun _ _ => persists_reissue ..) _ _)

theorem persists_fetched (s : State) (vf : Nat) : Persists s (s.fetched vf) := by
  unfold State.fetched
  split
  · exact persists_restoreImage ..
  · exact .refl s

/-- An image without accesses to issue again. -/
theorem fetched_some {s : State} {vf : Nat} {x : VfImage} (h : s.images.find? (fun x => x.vf == vf) = some x) (hr : x.redo = []) :
    (s.fetched vf).moors = x.moors ∧ (s.fetched vf).settling = x.settling ∧ (s.fetched vf).flights = s.flights ∧
      (s.fetched vf).ctxs = x.ctxs.map (fun (p : Nat × Ctx) => (p.1, backAt s.cycle p.2)) := by
  obtain ⟨cl, m, e, p, hb⟩ := restoreImage_eq s x
  have : s.fetched vf = s.back x cl m e p := by
    simp only [State.fetched, h, hb, hr, List.foldl_nil]
  rw [this]
  exact ⟨rfl, rfl, rfl, rfl⟩

theorem fetched_none {s : State} {vf : Nat} (h : s.images.find? (fun x => x.vf == vf) = none) : s.fetched vf = s := by
  simp only [State.fetched, h]

/-- What a switch of slices leaves. -/
theorem sliceSwitch_leaves {s : State} (hg : s.switching = true) (hm : s.maySwitch = true) {i : Nat} {w : W64} (hn : s.nextQuantum = some (i, w)) :
    ∃ t, exec .sliceSwitch s = .next t ∧ t.quantum = i ∧ t.sliceWord = w ∧ t.sliceFrom = s.ptp ∧ t.noVf = false ∧
      t.regBits (schBase + 0x18) 4 0 = bitsOf w 4 0 ∧ t.regBits (schBase + 0x18) 8 8 = 0 ∧ t.inbound.get (bitsOf w 4 0) [] = [] ∧
      (∀ k, (t.core k).ends = (s.core k).ends ∧ (t.core k).nextHelper = (s.core k).nextHelper) ∧
      (s.noVf = true ∨ bitsOf w 4 0 ≠ s.resident → s.images.find? (fun x => x.vf == bitsOf w 4 0) = none →
        t.ctxs = [] ∧ t.moors = [] ∧ t.settling = [] ∧ t.flights = s.flights.filter Flight.isForeign) ∧
      (∀ x, s.noVf = true ∨ bitsOf w 4 0 ≠ s.resident → s.images.find? (fun x => x.vf == bitsOf w 4 0) = some x → x.redo = [] →
        t.moors = x.moors ∧ t.settling = x.settling ∧ t.flights = s.flights.filter Flight.isForeign ∧
        t.ctxs = x.ctxs.map (fun (p : Nat × Ctx) => (p.1, backAt s.cycle p.2))) := by
  obtain ⟨hsw, hctx, hmoor, hset, hfl, him⟩ := swept_frame s (bitsOf w 4 0)
  have hpe := hsw.trans (persists_fetched _ (bitsOf w 4 0))
  refine ⟨_, exec_sliceSwitch_next hg hm hn, ?_⟩
  generalize s.flushedOut.laidAside.emptied (bitsOf w 4 0) = u at *
  obtain ⟨hb4, hb8⟩ := begins_bits (u.fetched (bitsOf w 4 0)) i w
  obtain ⟨a, sl, ac, hf⟩ := begins_frame (u.fetched (bitsOf w 4 0)) i w
  have hcore : ∀ k, ((u.fetched (bitsOf w 4 0)).begins i w).core k = (u.fetched (bitsOf w 4 0)).core k := fun k => by rw [hf]; rfl
  refine ⟨by rw [hf], by rw [hf], by rw [hf]; exact hpe.ptp, by rw [hf], hb4, hb8, by rw [hf]; exact get_put_same .., fun k => ?_, fun hv hx => ?_,
    fun x hv hx hr => ?_⟩
  · rw [hcore]
    exact hpe.cores k
  · rw [hf, fetched_none ((him hv).trans hx)]
    exact ⟨hctx, hmoor, hset, hfl⟩
  · obtain ⟨h1, h2, h3, h4⟩ := fetched_some ((him hv).trans hx) hr
    rw [hf]
    exact ⟨h1, h2, h3.trans hfl, by rw [← hsw.cycle]; exact h4⟩

end Sys2Proof.Machine
end

section
/-! Placement, serving bits and pre-emption (R22, R23, R383, R385, R427). -/

namespace Sys2Proof.Machine

/-! ## A cluster gets a split -/

theorem writeBack_frame (s : State) (cl : Nat) (p : Line → Bool) (inval : Bool) :
    ∃ m c, s.writeBack cl p inval = { s with mem := m, clusters := s.clusters.put cl c } := by
  obtain ⟨m, hm⟩ := flushLines_frame ((s.cluster cl).lines.filter fun l => p l && l.dirty != 0) s
  unfold State.writeBack
  dsimp only
  rw [hm]
  exact ⟨m, _, rfl⟩

/-- A cluster that is given a split: the other clusters hear nothing of it. -/
theorem setSplit_frame (s : State) (cl k : Nat) : ∃ c m e p, s.setSplit cl k = { s with clusters := c, mem := m, empties := e, poison := p } ∧
    (∀ j, j ≠ cl → c.get j {} = s.cluster j) ∧ (c.get cl {}).split = k := by
  obtain ⟨m, c, hw⟩ := writeBack_frame s cl (fun _ => true) true
  unfold State.setSplit
  dsimp only
  rw [hw]
  refine ⟨_, _, _, _, rfl, fun j hj => ?_, ?_⟩
  · rw [get_put_other _ _ _ _ _ hj]
    exact get_put_other _ _ _ _ _ hj
  · rw [get_put_same]

/-- A cluster is taken for a placement group, with the launch's split. -/
def State.takeCluster (hd : Nat × Nat) (split : Nat) (s : State) (c : Nat) : State :=
  (if (s.cluster c).split = split then s else s.setSplit c split).modCluster c fun x => { x with held := some hd }

theorem takeCluster_frame (hd : Nat × Nat) (split : Nat) (s : State) (c : Nat) :
    ∃ cl m e p, s.takeCluster hd split c = { s with clusters := cl, mem := m, empties := e, poison := p } ∧
      (∀ j, j ≠ c → cl.get j {} = s.cluster j) ∧ (cl.get c {}).held = some hd ∧ (cl.get c {}).split = split := by
  unfold State.takeCluster
  by_cases hs : (s.cluster c).split = split
  · rw [if_pos hs]
    refine ⟨_, _, _, _, rfl, fun j hj => ?_, ?_, ?_⟩
    · rw [get_put, if_neg hj]; rfl
    · rw [get_put, if_pos rfl]
    · rw [get_put, if_pos rfl]; exact hs
  · rw [if_neg hs]
    obtain ⟨cl, m, e, p, h, ho, hc⟩ := setSplit_frame s c split
    rw [h]
    refine ⟨_, _, _, _, rfl, fun j hj => ?_, ?_, ?_⟩
    · rw [get_put, if_neg hj]; exact ho j hj
    · rw [get_put, if_pos rfl]
    · rw [get_put, if_pos rfl]; exact hc

theorem takeClusters_leave (hd : Nat × Nat) (split : Nat) (cs : List Nat) (s : State) :
    (cs.foldl (State.takeCluster hd split) s).launches = s.launches ∧ (cs.foldl (State.takeCluster hd split) s).saved = s.saved ∧
      ∀ c, (c ∈ cs ∨ ((s.cluster c).held = some hd ∧ (s.cluster c).split = split)) →
        ((cs.foldl (State.takeCluster hd split) s).cluster c).held = some hd ∧ ((cs.foldl (State.takeCluster hd split) s).cluster c).split = split := by
  induction cs generalizing s with
  | nil => exact ⟨rfl, rfl, fun c hc => by simpa using hc⟩
  | cons d cs ih =>
    obtain ⟨cl, m, e, p, h, ho, hh, hs⟩ := takeCluster_frame hd split s d
    obtain ⟨h1, h2, h3⟩ := ih (s.takeCluster hd split d)
    rw [List.foldl_cons]
    refine ⟨h1.trans (by rw [h]), h2.trans (by rw [h]), fun c hc => h3 c ?_⟩
    by_cases hcd : c = d
    · subst hcd
      refine .inr ?_
      rw [h]
      exact ⟨hh, hs⟩
    · rcases hc with hc | hc
      · exact .inl ((List.mem_cons.1 hc).resolve_left hcd)
      · refine .inr ?_
        rw [h]
        show (cl.get c {}).held = some hd ∧ (cl.get c {}).split = split
        rw [ho c hcd]
        exact hc

/-! ## Placement -/

/-- The gangs that clusters are due touch cores and clusters alone. -/
theorem dueGangs_saved (s : State) (l : Launch) (cl : Nat) : (s.dueGangs l cl).saved = s.saved := by
  have gangs : ∀ (len : Nat) (u : State), (u.setGangs len cl).saved = u.saved := by
    intro len u
    unfold State.setGangs
    induction List.range (8 / len * len) generalizing u with
    | nil => rfl
    | cons j l ih => exact ih _
  have applies : ∀ u : State, (u.applyGangs cl).saved = u.saved := by
    intro u
    unfold State.applyGangs
    split
    · split
      · exact gangs _ u
      · rfl
    · rfl
  unfold State.dueGangs
  split
  · exact applies _
  · rfl

theorem zeroBitmap_saved (s : State) (l : Launch) : (s.zeroBitmap l).saved = s.saved := by
  have word : ∀ (u : State) (i : Nat), (match u.translate l.core l.vf l.asid l.priv (l.bitmap.toNat + 8 * i) accStore with
      | (s, .ok x) => (s.write64 x.key 0).clearPoison x.key 8
      | (s, .error f) => s.failLaunch l.handle (0x0100 + f.cause) none).saved = u.saved := by
    intro u i
    have ho := congrArg State.saved (onlyTables_translate u l.core l.vf l.asid l.priv (l.bitmap.toNat + 8 * i) accStore).rest
    generalize u.translate l.core l.vf l.asid l.priv (l.bitmap.toNat + 8 * i) accStore = r at ho ⊢
    obtain ⟨v, e | x⟩ := r
    · obtain ⟨_, _, _, h⟩ := failLaunch_frame v l.handle (0x0100 + e.cause) none
      dsimp only
      rw [h]
      exact ho
    · obtain ⟨_, h⟩ := clearPoison_frame (v.write64 x.key 0) x.key 8
      dsimp only
      rw [h]
      exact ho
  unfold State.zeroBitmap
  dsimp only
  split
  · rfl
  · generalize hu : s.setLaunch { l with zeroed := true } = u
    have hus : u.saved = s.saved := by rw [← hu]; rfl
    rw [← hus]
    clear hu hus
    induction List.range l.bitWords generalizing u with
    | nil => rfl
    | cons i is ih => exact (ih _).trans (word u i)

/-- A launch with a group that has taken its set. -/
def Launch.placedOn (l : Launch) (p : Placed) : Launch :=
  { l with st := .active, placed := l.placed ++ [p], pending := if l.plevel = 0 then l.pending else l.pending.filter (·.1 ≠ p.group) }

/-- The bitmap is zeroed before the launch begins. -/
def State.bitmapFirst (s : State) (l : Launch) : State := if l.zeroed then s else s.zeroBitmap l

/-- The clusters of a set go to a launch that has not failed by then. -/
def State.takesSet (s : State) (h : Nat) (p : Placed) : State :=
  match s.launch? h with
  | none => s
  | some l => if l.failed then s
    else p.clusters.foldl (fun s c => s.dueGangs l c) (p.clusters.foldl (State.takeCluster (h, p.group) l.split) (s.setLaunch (l.placedOn p)))

theorem giveSet_eq {s : State} {l : Launch} {h : Nat} (hl : s.launch? h = some l) (p : Placed) :
    s.giveSet h p = (s.bitmapFirst l).takesSet h p := by
  unfold State.giveSet
  simp only [hl]
  rfl

theorem giveSet_saved (s : State) (h : Nat) (p : Placed) : (s.giveSet h p).saved = s.saved := by
  have gangs : ∀ (l : Launch) (cs : List Nat) (u : State), (cs.foldl (fun s c => s.dueGangs l c) u).saved = u.saved := by
    intro l cs
    induction cs with
    | nil => exact fun _ => rfl
    | cons c cs ih => exact fun u => (ih _).trans (dueGangs_saved u l c)
  have takes : ∀ u : State, (u.takesSet h p).saved = u.saved := by
    intro u
    unfold State.takesSet
    split
    · rfl
    · split
      · rfl
      · rw [gangs]
        exact (takeClusters_leave _ _ _ _).2.1
  cases hl : s.launch? h with
  | none =>
    unfold State.giveSet
    simp only [hl]
  | some l =>
    rw [giveSet_eq hl, takes]
    unfold State.bitmapFirst
    split
    · rfl
    · exact zeroBitmap_saved s l

/-- A launch without gangs takes a set. -/
theorem takesSet_leaves {s : State} {l : Launch} {h : Nat} (hl : s.launch? h = some l) (hf : l.failed = false) (hg : l.gang = false) (p : Placed) :
    (∃ m, (s.takesSet h p).launch? h = some m ∧ m.st = .active ∧ p ∈ m.placed) ∧
      ∀ c ∈ p.clusters, ((s.takesSet h p).cluster c).held = some (h, p.group) ∧ ((s.takesSet h p).cluster c).split = l.split := by
  have hh : (l.placedOn p).handle = h := (launch?_handle hl : l.handle = h)
  have nogang : ∀ (cs : List Nat) (v : State), cs.foldl (fun s c => s.dueGangs l c) v = v := by
    intro cs
    induction cs with
    | nil => exact fun _ => rfl
    | cons c cs ih =>
      intro v
      rw [List.foldl_cons, show v.dueGangs l c = v by simp [State.dueGangs, hg], ih]
  have eq : s.takesSet h p = p.clusters.foldl (State.takeCluster (h, p.group) l.split) (s.setLaunch (l.placedOn p)) := by
    simp only [State.takesSet, hl, hf, Bool.false_eq_true, if_false, nogang]
  obtain ⟨h1, -, h3⟩ := takeClusters_leave (h, p.group) l.split p.clusters (s.setLaunch (l.placedOn p))
  rw [eq]
  refine ⟨⟨l.placedOn p, ?_, rfl, by simp [Launch.placedOn]⟩, fun c hc => h3 c (.inl hc)⟩
  unfold State.launch?
  rw [h1]
  exact launch?_setLaunch_same hl hh

/-- A launch without a bitmap and without gangs is given a set. -/
theorem giveSet_leaves {s : State} {l : Launch} {h : Nat} (hl : s.launch? h = some l) (hf : l.failed = false) (hb : l.bitmap = 0) (hg : l.gang = false)
    (p : Placed) :
    (∃ m, (s.giveSet h p).launch? h = some m ∧ m.st = .active ∧ p ∈ m.placed) ∧
      ∀ c ∈ p.clusters, ((s.giveSet h p).cluster c).held = some (h, p.group) ∧ ((s.giveSet h p).cluster c).split = l.split := by
  rw [giveSet_eq hl]
  unfold State.bitmapFirst
  split
  · exact takesSet_leaves hl hf hg p
  · have hz : s.zeroBitmap l = s.setLaunch { l with zeroed := true } := if_pos hb
    have hh : ({ l with zeroed := true } : Launch).handle = h := (launch?_handle hl : l.handle = h)
    rw [hz]
    exact takesSet_leaves (l := { l with zeroed := true }) (launch?_setLaunch_same hl hh) hf hg p

/-! ### What is granted -/

theorem exec_placementGrant_stays {s : State} {die : Nat}
    (h : winner (s.waitingLaunches.filter fun l => (s.grantable die l).isSome) = none ∨ s.switching = true) : exec (.placementGrant die) s = .next s := by
  rw [exec_placementGrant]
  unfold execPlacementGrant
  split
  · rfl
  · rename_i hs
    rw [h.resolve_right hs]

section
variable {s : State} {die : Nat} {l : Launch} {p : Placed} (hs : s.switching = false)
  (hw : winner (s.waitingLaunches.filter fun l => (s.grantable die l).isSome) = some l)
include hs hw

theorem exec_placementGrant_retakes (hg : s.grantable die l = some (true, p)) : exec (.placementGrant die) s = .next (s.retakeSet l.handle p) := by
  rw [exec_placementGrant]
  simp only [execPlacementGrant, hs, hw, hg, Bool.false_eq_true, if_false]

theorem exec_placementGrant_gives (hg : s.grantable die l = some (false, p)) :
    exec (.placementGrant die) s = .next ((s.setLaunch l).giveSet l.handle p) := by
  rw [exec_placementGrant]
  simp only [execPlacementGrant, hs, hw, hg, Bool.false_eq_true, if_false]

end

theorem mem_sortedBy {α : Type} (l : List α) (le : α → α → Bool) (x : α) : x ∈ l.sortedBy le ↔ x ∈ l := by
  have insert : ∀ (a : α) (q : α → Bool) (m : List α), x ∈ m.takeWhile q ++ a :: m.dropWhile q ↔ x = a ∨ x ∈ m := by
    intro a q m
    have hm : x ∈ m ↔ x ∈ m.takeWhile q ∨ x ∈ m.dropWhile q := by rw [← List.mem_append, List.takeWhile_append_dropWhile]
    rw [List.mem_append, List.mem_cons, hm]
    tauto
  induction l with
  | nil => exact Iff.rfl
  | cons a l ih => exact (insert a _ (l.sortedBy le)).trans ((or_congr_right ih).trans List.mem_cons.symm)

/-- A launch that wins is there, and has not failed. -/
theorem winner_there {s : State} {p : Launch → Bool} {l : Launch} (h : winner (s.waitingLaunches.filter p) = some l) :
    (∃ m, s.launch? l.handle = some m) ∧ l.failed = false := by
  have hmem : l ∈ s.waitingLaunches :=
    List.mem_of_mem_filter ((mem_sortedBy _ _ l).1 (List.mem_of_mem_head? h))
  obtain ⟨m, hm, rfl⟩ := List.mem_map.1 hmem
  obtain ⟨hin, hp⟩ := List.mem_filter.1 hm
  obtain ⟨hh, -, hf, -, -⟩ := fixDies_keeps s { m with eff := s.effNow m }
  refine ⟨Option.isSome_iff_exists.1 (List.find?_isSome.2 ⟨m, hin, ?_⟩), hf.trans ?_⟩
  · rw [hh]
    exact beq_self_eq_true _
  · simp only [Bool.and_eq_true, Bool.not_eq_true'] at hp
    exact hp.2

/-- What a new set that is granted leaves. -/
theorem placementGrant_leaves {s : State} {die : Nat} {l : Launch} {p : Placed} (hs : s.switching = false)
    (hw : winner (s.waitingLaunches.filter fun l => (s.grantable die l).isSome) = some l) (hg : s.grantable die l = some (false, p)) :
    ∃ t, exec (.placementGrant die) s = .next t ∧
      (l.bitmap = 0 → l.gang = false → (∃ m, t.launch? l.handle = some m ∧ m.st = .active ∧ p ∈ m.placed) ∧
        ∀ c ∈ p.clusters, (t.cluster c).held = some (l.handle, p.group) ∧ (t.cluster c).split = l.split) := by
  obtain ⟨⟨m, hm⟩, hf⟩ := winner_there hw
  exact ⟨_, exec_placementGrant_gives hs hw hg, fun hb hn => giveSet_leaves (launch?_setLaunch_same hm rfl) hf hb hn p⟩

/-! ## Serving clusters (R427) -/

/-- A cluster once a bit of SERVE is written. -/
def Cluster.served (c : Cluster) (on : Bool) : Cluster :=
  if on then { c with serving := true, withdraw := false }
  else if c.serving = false then c
  else if c.held.isSome then { c with withdraw := true } else { c with serving := false }

/-- The state once one bit of SERVE is written. -/
def State.serveBit (s : State) (cl : Nat) (on : Bool) : State :=
  if on then s.modCluster cl fun c => { c with serving := true, withdraw := false }
  else if (s.cluster cl).serving = false then s
  else s.modCluster cl fun c => if c.held.isSome then { c with withdraw := true } else { c with serving := false }

theorem serveBit_leaves (s : State) (cl : Nat) (on : Bool) :
    (∃ m, s.serveBit cl on = { s with clusters := m }) ∧
      ∀ j, (s.serveBit cl on).cluster j = if j = cl then (s.cluster cl).served on else s.cluster j := by
  unfold State.serveBit Cluster.served
  cases on
  · simp only [Bool.false_eq_true, if_false]
    split
    · refine ⟨⟨_, rfl⟩, fun j => ?_⟩
      split
      · subst j; rfl
      · rfl
    · exact ⟨⟨_, rfl⟩, fun j => cluster_modCluster ..⟩
  · simp only [if_true]
    exact ⟨⟨_, rfl⟩, fun j => cluster_modCluster ..⟩

theorem serveBits_leave (base : Nat) (on : Nat → Bool) (l : List Nat) (hn : l.Nodup) (s : State) :
    (∃ m, l.foldl (fun s i => s.serveBit (base + i) (on i)) s = { s with clusters := m }) ∧
    (∀ j, (∀ i ∈ l, j ≠ base + i) → (l.foldl (fun s i => s.serveBit (base + i) (on i)) s).cluster j = s.cluster j) ∧
    ∀ i ∈ l, (l.foldl (fun s i => s.serveBit (base + i) (on i)) s).cluster (base + i) = (s.cluster (base + i)).served (on i) := by
  induction l generalizing s with
  | nil => exact ⟨⟨_, rfl⟩, fun _ _ => rfl, by simp⟩
  | cons i l ih =>
    rw [List.nodup_cons] at hn
    obtain ⟨⟨m, hm⟩, hc⟩ := serveBit_leaves s (base + i) (on i)
    obtain ⟨⟨n, hfr⟩, hother, hset⟩ := ih hn.2 (s.serveBit (base + i) (on i))
    rw [List.foldl_cons]
    refine ⟨⟨n, by rw [hfr, hm]⟩, fun j hj => ?_, fun k hk => ?_⟩
    · rw [hother j fun k hk => hj k (by simp [hk]), hc, if_neg (hj i (by simp))]
    · rcases List.mem_cons.1 hk with rfl | hk
      · rw [hother _ fun j hj h => hn.1 (by rwa [← Nat.add_left_cancel h] at hj), hc, if_pos rfl]
      · have hne : k ≠ i := fun h => hn.1 (h ▸ hk)
        rw [hset k hk, hc, if_neg (by omega)]

theorem exec_serveWrite_stays {s : State} {word : Nat} {val : W64} (h : s.cleozRuns = false ∨ 8 ≤ word) : exec (.serveWrite word val) s = .next s := by
  rw [exec_serveWrite]
  refine if_neg ?_
  rintro ⟨hc, hw⟩
  rcases h with h | h
  · simp [h] at hc
  · omega

theorem exec_serveWrite_sets {s : State} {word : Nat} {val : W64} (hc : s.cleozRuns = true) (hw : word < 8) : exec (.serveWrite word val) s =
    .next ((List.range 64).foldl (fun s i => s.serveBit (64 * word + i) (val.getLsbD i)) (s.setReg (schBase + 0x40 + 8 * word) val)) := by
  have hbit : ∀ i, (val.toNat / 2 ^ i % 2 = 1) = (val.getLsbD i = true) := by
    intro i
    rw [BitVec.getLsbD, Nat.testBit_eq_decide_div_mod_eq, decide_eq_true_eq]
  rw [exec_serveWrite]
  simp only [execServeWrite, hc, hw, and_self, if_true, hbit]
  rfl

/-- What a write of SERVE leaves of each cluster. -/
theorem serveWrite_leaves {s : State} {word : Nat} {val : W64} (hc : s.cleozRuns = true) (hw : word < 8) :
    ∃ t, exec (.serveWrite word val) s = .next t ∧ t.reg (schBase + 0x40 + 8 * word) = val ∧ (∀ k, k / 64 ≠ word → t.cluster k = s.cluster k) ∧
      ∀ i, i < 64 → t.cluster (64 * word + i) = (s.cluster (64 * word + i)).served (val.getLsbD i) := by
  obtain ⟨⟨m, hm⟩, hother, hset⟩ := serveBits_leave (64 * word) val.getLsbD (List.range 64) List.nodup_range (s.setReg (schBase + 0x40 + 8 * word) val)
  refine ⟨_, exec_serveWrite_sets hc hw, ?_, fun k hk => hother k fun i hi => ?_, fun i hi => hset i (List.mem_range.2 hi)⟩
  · rw [hm]
    exact (reg_setReg s _ _ _).trans (if_pos rfl)
  · rw [List.mem_range] at hi
    omega

theorem served_cases (c : Cluster) (on : Bool) :
    (on = true → (c.served on).serving = true ∧ (c.served on).withdraw = false) ∧
    (on = false → c.serving = false ∨ c.held = none → (c.served on).serving = false) ∧
    (on = false → c.serving = true → c.held ≠ none → (c.served on).serving = true ∧ (c.served on).withdraw = true) := by
  unfold Cluster.served
  refine ⟨fun h => by simp [h], fun h hc => ?_, fun h hs hh => ?_⟩
  · by_cases hs : c.serving = false
    · simp [h, hs]
    · simp [h, hs, hc.resolve_left hs]
  · simp [h, hs, Option.isSome_iff_ne_none.2 hh]

theorem serveWithdraw_happens (s : State) (cluster : Nat) :
    Happens s (.serveWithdraw cluster) ((s.cluster cluster).withdraw = true ∧ (s.cluster cluster).held = none)
      (s.modCluster cluster fun c => { c with serving := false, withdraw := false }) := by
  unfold Happens
  rw [exec_serveWithdraw]
  exact ⟨fun h => if_pos h, fun h => if_neg h⟩

end Sys2Proof.Machine
end

section
/-! Pre-emption saves every helper of a set (R385). -/

namespace Sys2Proof.Machine

/-! ## The matrix state and the scratchpads of a set -/

theorem savePad_splits (s : State) (cl i : Nat) : ((s.savePad cl).cluster i).split = (s.cluster i).split := by
  obtain ⟨n, m, p, h⟩ := writeSave_frame s s.resident
  unfold State.savePad
  dsimp only
  rw [h, cluster_modCluster]
  split
  · subst i; rfl
  · rfl

theorem saveMatrix_frame (s : State) (core : Nat) (back : Bool) : ∃ m p k, s.saveMatrix core back = { s with mem := m, poison := p, cores := k } := by
  obtain ⟨m, hm⟩ := putFields_frame (s.matArea (s.core core).vfid core) (matFields (s.core core)) (s.zeroRange (s.matArea (s.core core).vfid core) 0x2C000)
  obtain ⟨p, hp⟩ := clearPoison_frame ((s.zeroRange (s.matArea (s.core core).vfid core) 0x2C000).putFields (s.matArea (s.core core).vfid core) (matFields (s.core core)))
    (s.matArea (s.core core).vfid core) 0x2C000
  unfold State.saveMatrix
  dsimp only
  rw [hp, hm]
  exact ⟨_, _, _, rfl⟩

/-- Folding a step that keeps every cluster's split. -/
theorem splits_foldl {α : Type} {f : State → α → State} (hf : ∀ s a i, ((f s a).cluster i).split = (s.cluster i).split) (l : List α) (s : State) (i : Nat) :
    ((l.foldl f s).cluster i).split = (s.cluster i).split := by
  induction l generalizing s with
  | nil => rfl
  | cons a l ih => exact (ih _).trans (hf s a i)

theorem saveSet_splits (s : State) (cs : List Nat) (split i : Nat) : ((s.saveSet cs split).cluster i).split = (s.cluster i).split := by
  unfold State.saveSet
  dsimp only
  refine Eq.trans ?_ (splits_foldl savePad_splits (cs.filter (s.otherSplit split)) s i)
  refine splits_foldl (fun u k i => ?_) (cs.flatMap coresOf) _ i
  obtain ⟨m, p, c, h⟩ := saveMatrix_frame u k ((u.helpersOn cs).any (fun id => coreOf id == k) || u.saved.any fun f => f.core == k && f.vf == u.resident)
  rw [h]
  rfl

/-! ## The helpers of a set -/

/-- A helper, its frame and its gang link. -/
abbrev Link := (Nat × Nat) × Option (Nat × Nat)

/-- A pre-emption saves one helper. -/
def State.preempts (split : Nat) (s : State) (q : Link) : State :=
  s.save q.1.1 q.1.2 1 q.2 true (s.otherSplit split (clusterOf (coreOf q.1.1)))

/-- Each helper of a list of links is saved, as pre-empted, with the matrix state and with the scratchpad where the split changes. -/
theorem preempts_all (split : Nat) (l : List Link) (s : State) :
    (∀ f ∈ s.saved, f ∈ (l.foldl (State.preempts split) s).saved) ∧
    ∀ q ∈ l, ∃ f ∈ (l.foldl (State.preempts split) s).saved,
      f.id = q.1.1 ∧ f.kind = 1 ∧ f.mat = true ∧ f.pad = s.otherSplit split (clusterOf (coreOf q.1.1)) := by
  induction l generalizing s with
  | nil => exact ⟨fun _ h => h, by simp⟩
  | cons q l ih =>
    obtain ⟨hkeep, hnew⟩ := ih (s.preempts split q)
    have hsaved : (s.preempts split q).saved = s.saved ++ [s.savedRec q.1.1 q.1.2 1 q.2 true (s.otherSplit split (clusterOf (coreOf q.1.1)))] :=
      save_saved ..
    have hsplit : ∀ c, (s.preempts split q).otherSplit split c = s.otherSplit split c := by
      intro c
      obtain ⟨cs, k, cl, fl, m, p, h, hs⟩ := save_frame s q.1.1 q.1.2 1 q.2 true (s.otherSplit split (clusterOf (coreOf q.1.1)))
      unfold State.preempts
      rw [h]
      exact congrArg (· != split) (hs c)
    rw [List.foldl_cons]
    refine ⟨fun f hf => hkeep f (by rw [hsaved]; exact List.mem_append_left _ hf), fun r hr => ?_⟩
    rcases List.mem_cons.1 hr with rfl | hr
    · exact ⟨_, hkeep _ (by rw [hsaved]; exact List.mem_append_right _ (List.mem_singleton_self _)), rfl, rfl, rfl, rfl⟩
    · obtain ⟨f, hf, h1, h2, h3, h4⟩ := hnew r hr
      exact ⟨f, hf, h1, h2, h3, h4.trans (hsplit _)⟩

/-- The helpers of a set with the frames that they go to. -/
def State.links (s : State) (hs : List Nat) : List Link :=
  let fs := hs.zip (s.freeFrames s.resident)
  fs.map fun q => (q, s.gangLink q.1 (fs.filter fun r => (s.members q.1).contains r.1))

theorem mem_links {s : State} {hs : List Nat} (h : hs.length ≤ (s.freeFrames s.resident).length) {id : Nat} (hid : id ∈ hs) :
    ∃ q ∈ s.links hs, q.1.1 = id := by
  rw [← List.map_fst_zip h] at hid
  obtain ⟨r, hr, rfl⟩ := List.mem_map.1 hid
  exact ⟨_, List.mem_map.2 ⟨r, hr, rfl⟩, rfl⟩

/-- The state after a pre-emption, before the set is given to the launch. -/
def State.setSaved (s : State) (cs : List Nat) (split : Nat) : State :=
  (s.links (s.helpersOn cs)).foldl (State.preempts split) (s.saveSet cs split)

section
variable {s : State} {die : Nat}

theorem exec_preemption_none (h : s.preempt? die = none ∨ s.switching = true) : exec (.preemption die) s = .next s := by
  rw [exec_preemption]
  unfold execPreemption
  split
  · rfl
  · rename_i hs
    rw [h.resolve_right hs]

variable {l : Launch} {p : Placed} (hs : s.switching = false) (hp : s.preempt? die = some (l, p))
include hs hp

theorem exec_preemption_unready (hr : s.setReady p.clusters = false) : exec (.preemption die) s = .next s := by
  rw [exec_preemption]
  simp only [execPreemption, hs, hp, hr, if_true, Bool.false_eq_true, if_false]

theorem exec_preemption_ready (hr : s.setReady p.clusters = true) : ∃ n, exec (.preemption die) s =
    .next ((((s.setSaved p.clusters l.split).setRegBits (schBase + 0x20) 31 0 n).setLaunch l).giveSet l.handle p) := by
  rw [exec_preemption]
  simp only [execPreemption, hs, hp, hr, Bool.false_eq_true, Bool.true_eq_false, if_false]
  exact ⟨_, rfl⟩

/-- What a pre-emption saves. -/
theorem preemption_saves (hr : s.setReady p.clusters = true) : ∃ t, exec (.preemption die) s = .next t ∧
    ∀ id ∈ s.helpersOn p.clusters, ∃ f ∈ t.saved, f.id = id ∧ f.kind = 1 ∧ f.mat = true ∧ f.pad = decide ((s.cluster (clusterOf (coreOf id))).split ≠ l.split) := by
  obtain ⟨n, hn⟩ := exec_preemption_ready hs hp hr
  refine ⟨_, hn, fun id hid => ?_⟩
  rw [giveSet_saved]
  have hlen : (s.helpersOn p.clusters).length ≤ (s.freeFrames s.resident).length := by
    simp only [State.setReady, Bool.and_eq_true, decide_eq_true_eq] at hr
    exact hr.2
  obtain ⟨q, hq, rfl⟩ := mem_links hlen hid
  obtain ⟨f, hf, h1, h2, h3, h4⟩ := (preempts_all l.split (s.links (s.helpersOn p.clusters)) (s.saveSet p.clusters l.split)).2 q hq
  refine ⟨f, hf, h1, h2, h3, h4.trans ?_⟩
  unfold State.otherSplit
  rw [saveSet_splits]
  exact Bool.eq_iff_iff.2 (by simp)

end

/-! ## The end of a slice -/

theorem not_switching_iff (s : State) : s.switching = false ↔ ¬ s.regBits (schBase + 0x18) 8 8 = 1 := by
  rw [← switching_iff, Bool.not_eq_true]

theorem quantumExpire_happens (s : State) : Happens s .quantumExpire
    (¬ s.regBits (schBase + 0x18) 8 8 = 1 ∧ (s.noVf = true ∨ s.sliceFrom + 1000 * max 5000 (bitsOf s.sliceWord 39 8) ≤ s.ptp)) s.beginSwitch := by
  unfold Happens
  rw [exec_quantumExpire, ← not_switching_iff]
  exact ⟨fun h => if_pos h, fun h => if_neg h⟩

theorem earlySliceEnd_happens (s : State) : Happens s .earlySliceEnd
    (¬ s.regBits (schBase + 0x18) 8 8 = 1 ∧ bitsOf s.sliceWord 5 5 = 1 ∧ s.sliceBusy = false ∧ s.idleFrom + 100000 ≤ s.ptp) s.beginSwitch := by
  unfold Happens
  rw [exec_earlySliceEnd, ← not_switching_iff]
  exact ⟨fun h => if_pos h, fun h => if_neg h⟩

/-- While no virtual function has been resident, the first entry is the next. -/
theorem nextQuantum_first {s : State} (h : s.noVf = true) : s.nextQuantum = s.quanta.head? := by
  simp [State.nextQuantum, h]

theorem ctxs_find_back (m : Map Ctx) (cycle id : Nat) :
    Map.find? (m.map fun (p : Nat × Ctx) => (p.1, backAt cycle p.2)) id = (Map.find? m id).map (backAt cycle) := find?_mapVals _ _ _

end Sys2Proof.Machine

open Sys2Proof Sys2Proof.Machine

/-- Settles O51: placement by what `giveSet` leaves, pre-emption by induction on the helpers saved, a switch by what its parts keep. -/
theorem schedulerEvents : Obligations.SchedulerEvents := by
  unfold Obligations.SchedulerEvents
  intro s die word cluster val stat best
  refine ⟨exec_placementGrant_stays, fun l p hs hb hg => exec_placementGrant_retakes hs hb hg, fun l p hs hb hg => placementGrant_leaves hs hb hg,
    exec_serveWrite_stays, fun hc hw => ?_, serveWithdraw_happens s cluster, exec_preemption_none, fun l p hs hp => ⟨exec_preemption_unready hs hp,
    preemption_saves hs hp⟩, quantumExpire_happens s, earlySliceEnd_happens s, nextQuantum_first, fun h => ?_, fun hg hm hn => ?_, fun i w hg hm hn => ?_⟩
  · obtain ⟨t, ht, hreg, hother, hbit⟩ := serveWrite_leaves (val := val) hc hw
    refine ⟨t, ht, hreg, hother, fun i hi => ?_⟩
    rw [hbit i hi]
    exact served_cases _ _
  · exact exec_sliceSwitch_stays (h.imp_left (not_switching_iff s).2)
  · exact exec_sliceSwitch_empty ((switching_iff s).2 hg) hm hn
  · obtain ⟨t, ht, hq, hw, hfrom, hv, h4, h8, hin, hcore, hnone, hsome⟩ := sliceSwitch_leaves ((switching_iff s).2 hg) hm hn
    refine ⟨t, ht, hq, hw, hfrom, hv, h4, h8, hin, hcore, hnone, fun x ha hx hr => ?_⟩
    obtain ⟨h1, h2, h3, hctxs⟩ := hsome x ha hx hr
    have hfind : ∀ id, t.ctxs.find? id = (x.ctxs.find? id).map (backAt s.cycle) := fun id => by rw [hctxs, ctxs_find_back]
    refine ⟨h1, h2, h3, fun id hid => by rw [hfind, hid]; rfl, fun id c hid => ?_⟩
    unfold State.ctx Map.get
    rw [hfind, hid]
    rfl

end

section
/-! STARTM (R48, R202): what the start of a helper leaves, and the actor that STARTM takes. -/

namespace Sys2Proof.Machine

theorem active_eq (s : State) (vf phase : Nat) : ∃ a, s.active vf phase = { s with activity := a } := by
  unfold State.active
  split
  · exact ⟨s.activity, rfl⟩
  · exact ⟨_, rfl⟩

/-- A new helper of a core before its starter fills it in. -/
def State.newHelper (s : State) (core : Nat) : Ctx :=
  [4, 5, 6, 7, 8, 18].foldl (fun c i => c.setK i (s.me.k i))
    { life := .starting, form := .start, hnum := (s.core core).nextHelper, starter := s.cur, asid := s.me.asid,
      startAfter := s.nextId, startOrder := s.nextId }

theorem newHelper_life (s : State) (core : Nat) : (s.newHelper core).life = .starting := rfl
theorem newHelper_regs (s : State) (core : Nat) : (s.newHelper core).regs = [] := rfl

theorem startHelper_ctx (s : State) (core slot : Nat) (f : Ctx → Ctx) (id : Nat) :
    (s.startHelper core slot f).1.ctx id =
      if id = ctxId core slot then f (s.newHelper core) else if id = s.cur then { s.me with relMark := s.nextId } else s.ctx id := by
  unfold State.startHelper
  dsimp only
  rw [active_ctx]
  change ((State.modMe _ _).setCtx (ctxId core slot) (f (s.newHelper core))).ctx id = _
  rw [ctx_setCtx, ctx_modMe]
  rfl

/-- The start of a helper changes contexts, its core's next number, the next access number and the marks of traffic. -/
theorem startHelper_frame (s : State) (core slot : Nat) (f : Ctx → Ctx) :
    { (s.startHelper core slot f).1 with ctxs := s.ctxs, cores := s.cores, nextId := s.nextId, activity := s.activity } = s := by
  unfold State.startHelper
  dsimp only
  generalize Ctx.phase _ = ph
  obtain ⟨a, ha⟩ := active_eq _ _ ph
  rw [ha]
  rfl

theorem isHelper_ctxId {core slot : Nat} (h : isHelper core = false) (hs : 1 ≤ slot ∧ slot ≤ 10) : isHelper (ctxId core slot) = true := by
  simp only [isHelper, slotOf, bne_eq_false_iff_eq, bne_iff_ne] at h ⊢
  unfold ctxId
  rw [if_pos ⟨by omega, hs.2⟩]
  omega

theorem freeSlot_bounds {s : State} {core slot : Nat} (h : s.freeSlot core = some slot) : 1 ≤ slot ∧ slot ≤ 10 := by
  have hm := List.mem_of_find?_eq_some h
  simp only [List.mem_map, List.mem_range] at hm
  obtain ⟨i, hi, rfl⟩ := hm
  omega

/-- The context that STARTM gives a message's handler (R48). -/
def State.handlerOf (s : State) (core off sl : Nat) (m : Moor) (msg : Msg) (h : Ctx) : Ctx :=
  { (h.setK 3 (BitVec.ofNat 64 msg.phase)).withRegs
      [(1, BitVec.ofNat 64 (aliasBase + off + m.size + sl * 128)), (2, BitVec.ofNat 64 (aliasBase + off)), (3, m.key),
       (4, BitVec.ofNat 64 (m.cls + msg.srcCtx * 65536))] with
    form := .startm, pc := ((s.classes.find? (·.num == m.cls)).map (·.entry)).getD 0, placed := s.actorSet m.cls core,
    actor := some { cls := m.cls, key := m.key, slot := sl, aidle := false, phase := msg.phase, counted := msg.origin != 1 } }

theorem clearIdle_eligible (s : State) (cls : Option Nat) :
    (clearIdle s).eligibleActors (clearIdle s).myCore cls = s.eligibleActors s.myCore cls := rfl

theorem clearIdle_freeSlot (s : State) : (clearIdle s).freeSlot (clearIdle s).myCore = s.freeSlot s.myCore := rfl

section
variable {s : State} {o : Op} {d : R6} {cls : Option Nat}

theorem startm_helper (h : isHelper s.cur = true) : startmOp o d cls s = .next (s.trap 0x01 (s.word0.setWidth 64)) := by
  simp [startmOp, controlOnly, State.onlyIf, h]

theorem startm_none (hc : isHelper s.cur = false) (ho : s.Open [] [d]) (h : oldest (s.eligibleActors s.myCore cls) = none ∨ s.freeSlot s.myCore = none) :
    startmOp o d cls s = .next (((clearIdle s).wr d 0).finish o) := by
  simp only [startmOp, controlOnly, State.onlyIf, hc, Bool.not_false, if_true]
  rw [issueAcc_open s [] [d] _ ho]
  simp only [clearIdle_eligible, clearIdle_freeSlot]
  rcases h with h | h
  · rw [h]
  · rw [h]
    cases oldest (s.eligibleActors s.myCore cls) <;> rfl

theorem startm_takes {m : Moor} {slot off sl ord : Nat} {msg : Msg} {rest : List (Nat × Nat × Msg)} {core : Nat} (hc : isHelper s.cur = false)
    (ho : s.Open [] [d]) (hm : oldest (s.eligibleActors s.myCore cls) = some m) (hs : s.freeSlot s.myCore = some slot)
    (hb : m.berth = some (core, off)) (hx : m.mailbox = (sl, ord, msg) :: rest) :
    startmOp o d cls s = .next (((((clearIdle s).setMoor { m with busy := true, handled := some sl, mailbox := rest }).startHelper s.myCore slot
      (s.handlerOf s.myCore off sl m msg)).1.wr d (BitVec.ofNat 64 slot)).finish o) := by
  simp only [startmOp, controlOnly, State.onlyIf, hc, Bool.not_false, if_true]
  rw [issueAcc_open s [] [d] _ ho]
  simp only [clearIdle_eligible, clearIdle_freeSlot, hm, hs, hb, hx]
  rfl

/-- A helper starts in a slot other than that of the control context which starts it. -/
theorem cur_ne_ctxId {slot : Nat} (hc : isHelper s.cur = false) (hs : s.freeSlot s.myCore = some slot) : s.cur ≠ ctxId s.myCore slot := by
  have hcore : s.myCore = s.cur := by
    simp only [isHelper, slotOf, bne_eq_false_iff_eq] at hc
    unfold State.myCore coreOf
    omega
  intro h
  have := isHelper_ctxId (core := s.myCore) (by rw [hcore]; exact hc) (freeSlot_bounds hs)
  rw [← h, hc] at this
  cases this

/-- What a start of a helper and the write of its slot leave, from a state `u` that has the contexts and memory of `s`. -/
theorem starts_leaves {u : State} {slot : Nat} {f : Ctx → Ctx} (hc : isHelper s.cur = false) (hs : s.freeSlot s.myCore = some slot)
    (hctxs : u.ctxs = s.ctxs) (hcur : u.cur = s.cur) {t : State}
    (ht : t = ((u.startHelper s.myCore slot f).1.wr d (BitVec.ofNat 64 slot)).finish o) :
    t.mem = u.mem ∧ t.moors = u.moors ∧ t.me.pc = s.me.pc + BitVec.ofNat 64 o.len ∧
      t.me.regAt (s.me.regKey d) = (if s.me.regKey d = 0 then 0 else BitVec.ofNat 64 slot) ∧
      (∀ k, k ≠ s.me.regKey d → t.me.regAt k = s.me.regAt k) ∧
      (∀ id, id ≠ s.cur → id ≠ ctxId s.myCore slot → t.ctx id = s.ctx id) ∧ t.ctx (ctxId s.myCore slot) = f (u.newHelper s.myCore) := by
  have hne := cur_ne_ctxId hc hs
  have hw := writes_wr_finish (u.startHelper s.myCore slot f).1 d (BitVec.ofNat 64 slot) o
  have hctx := startHelper_ctx u s.myCore slot f
  have hframe := startHelper_frame u s.myCore slot f
  rw [← ht] at hw
  generalize (u.startHelper s.myCore slot f).1 = v at *
  have huctx : ∀ id, u.ctx id = s.ctx id := fun id => by unfold State.ctx; rw [hctxs]
  have hume : u.me = s.me := by unfold State.me; rw [huctx, hcur]
  obtain ⟨hvcur, hmem, hmoors⟩ : v.cur = s.cur ∧ v.mem = u.mem ∧ v.moors = u.moors := by
    have h1 := congrArg State.cur hframe
    have h2 := congrArg State.mem hframe
    have h3 := congrArg State.moors hframe
    exact ⟨h1.trans hcur, h2, h3⟩
  have hvme : v.me = { s.me with relMark := u.nextId } := by
    unfold State.me
    rw [hvcur, hctx, if_neg hne, hcur, if_pos rfl, hume]
    rfl
  have hkey : v.me.regKey d = s.me.regKey d := by rw [hvme]; rfl
  have hreg : ∀ k, v.me.regAt k = s.me.regAt k := fun k => by rw [hvme]; rfl
  refine ⟨?_, ?_, ?_, ?_, fun k hk => ?_, fun id h1 h2 => ?_, ?_⟩
  · exact (congrArg State.mem hw.only.rest).trans hmem
  · exact (congrArg State.moors hw.only.rest).trans hmoors
  · rw [hw.next.1, hvme]
  · split
    · rename_i h0
      rw [h0, regAt_zero]
    · rename_i h0
      rw [← hkey]
      exact hw.value (by rw [hkey]; exact h0)
  · rw [hw.kept k (.inr (by rw [hkey]; exact hk)), hreg]
  · rw [hw.only.others id (by rw [hvcur]; exact h1), hctx, if_neg h2, hcur, if_neg h1, huctx]
  · rw [hw.only.others _ (by rw [hvcur]; exact hne.symm), hctx, if_pos rfl]

/-- The registers of a handler (R48, Table 1.2). -/
theorem handlerOf_regs (s u : State) (core off sl : Nat) (m : Moor) (msg : Msg) :
    let h := s.handlerOf core off sl m msg (u.newHelper core)
    h.life = .starting ∧ h.form = .startm ∧ h.regAt 1 = BitVec.ofNat 64 (0xFFFFFFFFFFFE0000 + off + m.size + sl * 128) ∧
      h.regAt 2 = BitVec.ofNat 64 (0xFFFFFFFFFFFE0000 + off) ∧ h.regAt 3 = m.key ∧
      h.regAt 4 = BitVec.ofNat 64 (m.cls + msg.srcCtx * 65536) ∧ h.k 3 = BitVec.ofNat 64 msg.phase :=
  ⟨rfl, rfl, rfl, rfl, rfl, rfl, rfl⟩

end

end Sys2Proof.Machine

open Sys2Proof Sys2Proof.Machine

/-- Settles O9: the three outcomes of STARTM, and what the start of a helper leaves (`starts_leaves`). -/
theorem handlerStart : Obligations.HandlerStart := by
  unfold Obligations.HandlerStart
  intro s d cls has st core quiet p hp
  obtain ⟨o, hexec, hlen, hst⟩ : ∃ o : Op, exec p.1 s = startmOp o d p.2.1 s ∧ o.len = p.2.2 ∧ o.st = st := by
    simp only [List.mem_cons, List.not_mem_nil, or_false] at hp
    rcases hp with rfl | rfl
    · exact ⟨⟨4, st⟩, rfl, rfl, rfl⟩
    · exact ⟨⟨12, st⟩, rfl, rfl, rfl⟩
  rw [hexec, ← hlen, ← hst]
  refine ⟨startm_helper, fun hc ho h => ⟨_, startm_none hc ho h, writes_wr_finish quiet d 0 o⟩,
    fun m slot off sl ord msg rest hc ho hm hs hb hx => ⟨_, startm_takes hc ho hm hs hb hx, ?_⟩⟩
  obtain ⟨hmem, hmoors, hpc, hd, hregs, hctx, hhelper⟩ := starts_leaves (o := o) (d := d) (f := s.handlerOf core off sl m msg)
    (u := (clearIdle s).setMoor { m with busy := true, handled := some sl, mailbox := rest }) hc hs rfl rfl rfl
  refine ⟨hmem, hpc, hd, hregs, hctx, hmoors, ?_⟩
  dsimp only
  rw [hhelper]
  exact handlerOf_regs ..
end

section
/-! The checks of a command's ranges, pair operands and barge destinations (R301, R281, R282, R305, R428). -/

namespace Sys2Proof.Machine

/-! ## Places -/

/-- Does an address lie in the scratchpad window? -/
abbrev InSram (a : Nat) : Prop := 0xFFF1000000000000 ≤ a ∧ a < 0xFFF1000040000000
/-- Does an address lie in the weight-store window? -/
abbrev InWeight (a : Nat) : Prop := 0xFFF2000000000000 ≤ a ∧ a < 0xFFF2000400000000
/-- The cluster of an address of the scratchpad window. -/
abbrev sramUnit (a : Nat) : Nat := (a - 0xFFF1000000000000) / 2 ^ 21

theorem placeOf_sram {a : Nat} (h : InSram a) : placeOf a = .sram (sramUnit a) ((a - 0xFFF1000000000000) % 0x200000) := by
  obtain ⟨h1, h2⟩ := h
  unfold placeOf aliasBase meshBase sramBase
  rw [if_neg (by omega), if_neg (by omega), if_neg (by omega), if_pos (by omega)]
  rfl

theorem placeOf_weight {a : Nat} (h : InWeight a) :
    placeOf a = .weight ((a - 0xFFF2000000000000) / 0x100000000) ((a - 0xFFF2000000000000) % 0x100000000) := by
  obtain ⟨h1, h2⟩ := h
  unfold placeOf aliasBase meshBase sramBase weightBase
  rw [if_neg (by omega), if_neg (by omega), if_neg (by omega), if_neg (by omega), if_pos (by omega)]

theorem placeOf_ne_sram {a : Nat} (h : ¬ InSram a) (cl o : Nat) : placeOf a ≠ .sram cl o := by
  unfold placeOf sramBase
  intro he
  split_ifs at he

theorem placeOf_ne_weight {a : Nat} (h : ¬ InWeight a) (d o : Nat) : placeOf a ≠ .weight d o := by
  unfold placeOf weightBase
  intro he
  split_ifs at he

/-! ## One range (R428) -/

section
variable {a len : Nat}

theorem rangeFault_past (hl : 0 < len) (h : 2 ^ 64 ≤ a + (len - 1)) : rangeFault a len = some (0x05, BitVec.ofNat 64 a) := by
  unfold rangeFault
  rw [if_neg (by omega), if_pos h]

/-- The kind of unit that an address lies in. -/
def Place.window : Place → Nat
  | .translated => 0
  | .local_ _ => 1
  | .mesh _ _ => 2
  | .sram _ _ => 3
  | .weight _ _ => 4
  | .unmapped => 5

theorem rangeFault_windows (hl : 0 < len) (he : a + (len - 1) < 2 ^ 64) :
    ((placeOf a).window = 5 ∨ (placeOf a).window ≠ (placeOf (a + (len - 1))).window → rangeFault a len = some (0x05, BitVec.ofNat 64 a)) ∧
    ((placeOf a).window = (placeOf (a + (len - 1))).window → (placeOf a).window = 0 ∨ (placeOf a).window = 1 ∨ (placeOf a).window = 4 →
      rangeFault a len = none) := by
  unfold rangeFault
  rw [if_neg (by omega), if_neg (by omega)]
  cases placeOf a <;> cases placeOf (a + (len - 1)) <;> simp [Place.window]

theorem rangeFault_mesh {i j o p : Nat} (hl : 0 < len) (he : a + (len - 1) < 2 ^ 64) (ha : placeOf a = .mesh i o) (hb : placeOf (a + (len - 1)) = .mesh j p) :
    rangeFault a len = if i = j then none else some (0x06, BitVec.ofNat 64 (0xFFF0000000000000 + (i + 1) * 2 ^ 17)) := by
  unfold rangeFault
  rw [if_neg (by omega), if_neg (by omega), ha, hb]
  rfl

theorem rangeFault_sram {i j o p : Nat} (hl : 0 < len) (he : a + (len - 1) < 2 ^ 64) (ha : placeOf a = .sram i o) (hb : placeOf (a + (len - 1)) = .sram j p) :
    rangeFault a len = if i = j then none else some (0x06, BitVec.ofNat 64 (0xFFF1000000000000 + (i + 1) * 2 ^ 21)) := by
  unfold rangeFault
  rw [if_neg (by omega), if_neg (by omega), ha, hb]
  rfl

end

/-! ## The berth area (R47) -/

theorem berthFault_control {s : State} {ctx : Nat} {c : Ctx} {a len : Nat} (h : ctx / 4096 = 0) : s.berthFault ctx c a len = none := by
  have hh : isHelper ctx = false := by simp [isHelper, slotOf, h]
  simp [State.berthFault, hh]

/-- A helper that handles no actor. -/
theorem berthFault_helper {s : State} {ctx : Nat} {c : Ctx} {a len : Nat} (hc : c.actor = none) (h : ctx / 4096 ≠ 0) (core off : Nat)
    (hp : placeOf a = .mesh core off ∨ placeOf a = .local_ off ∧ core = ctx % 4096) :
    s.berthFault ctx c a len = if 0x20000 - s.berthSize core ≤ off + len - 1 then some (0x14, BitVec.ofNat 64 a) else none := by
  have hh : isHelper ctx = true := by simp [isHelper, slotOf, h]
  rcases hp with hp | ⟨hp, rfl⟩ <;> simp [State.berthFault, hh, hp, hc, State.inBerth, coreOf]

/-! ## The ranges of a command (R301) -/

section
variable (s : State) (r : Rng)

theorem only_eq_filter (n : Nat) (x : Option Cause) :
    (match x with
      | some (m, v) => if m = n then some (m, v) else none
      | none => none) = x.filter fun y => y.1 == n := by
  cases x with
  | none => rfl
  | some p =>
    obtain ⟨m, v⟩ := p
    by_cases h : m = n <;> simp [Option.filter, h]

/-- A range outside the placed set, the scratchpad or, of a migratable helper, in its local window (R62 to R64). -/
def Rng.outside (s : State) (r : Rng) : Bool := match placeOf r.a with
  | .local_ _ => s.me.mig
  | .mesh i _ => !(s.me.placed.contains (clusterOf i))
  | .sram i o => !(s.me.placed.contains i) || decide ((s.cluster i).split * 0x40000 < o + r.len)
  | _ => false

/-- May a context not access a weight store, if it is one (R69)? -/
def State.weightBarred (s : State) (a : Nat) (w : Bool) : Bool := match placeOf a with
  | .weight d _ => w || (s.die d).loading || s.regBits (tffBase + 0x718) (8 * d + 4) (8 * d) != s.vfOf s.cur
  | _ => false

theorem windowFault_outside : (if r.len = 0 then none else s.windowFault s.me r.a r.len) =
    if r.len ≠ 0 ∧ r.outside s = true then some (6, BitVec.ofNat 64 r.a) else none := by
  by_cases hl : r.len = 0
  · simp [hl]
  · unfold State.windowFault Rng.outside
    rw [if_neg hl]
    cases placeOf r.a with
    | local_ o => simp [hl]
    | mesh i o => by_cases h : s.me.placed.contains (clusterOf i) = true <;> simp_all
    | sram i o =>
      have hs : o + r.len ≤ s.scratch i ↔ ¬ (s.cluster i).split * 0x40000 < o + r.len := by rw [Nat.not_lt, State.scratch]
      by_cases hp : i ∈ s.me.placed <;> by_cases hq : (s.cluster i).split * 0x40000 < o + r.len <;> simp [hl, hp, hq, hs]
    | translated | weight _ _ | unmapped => simp

theorem weightFault_barred (a : Nat) (w : Bool) :
    s.weightFault (s.vfOf s.cur) a w = if s.weightBarred a w then some (5, BitVec.ofNat 64 a) else none := by
  unfold State.weightFault State.weightBarred
  cases placeOf a with
  | weight d o => dsimp only
  | translated | local_ _ | mesh _ _ | sram _ _ | unmapped => simp

theorem weightRange_barred (a len : Nat) (w : Bool) {next : Nat} (hn : (a + len - 1) / 0x100000000 * 0x100000000 = next) :
    s.weightRange (s.vfOf s.cur) a len w = if s.weightBarred a w then some (5, BitVec.ofNat 64 a)
      else if a / 0x100000000 != (a + len - 1) / 0x100000000 && s.weightBarred next w then some (5, BitVec.ofNat 64 next) else none := by
  unfold State.weightRange
  rw [weightFault_barred, weightFault_barred, hn]
  generalize a / 0x100000000 = first
  generalize (a + len - 1) / 0x100000000 = last
  by_cases h : s.weightBarred a w = true
  · rw [if_pos h, if_pos h]
    rfl
  · rw [if_neg h, if_neg h, Option.none_or]
    by_cases hd : first = last <;> simp [hd]

theorem rangesFault_eq (weight : Bool) (rs : List Rng) :
    let only (n : Nat) (x : Option Cause) : Option Cause := x.filter fun y => y.1 == n
    let next (r : Rng) : Nat := (r.a + r.len - 1) / 0x100000000 * 0x100000000
    s.rangesFault weight rs =
      (rs.findSome? fun r => only 5 (rangeFault r.a r.len)).or
      ((rs.findSome? fun r => (only 6 (rangeFault r.a r.len)).or (if r.len ≠ 0 ∧ r.outside s = true then some (6, BitVec.ofNat 64 r.a) else none)).or
      ((rs.findSome? fun r => if r.a % r.align ≠ 0 then some (3, BitVec.ofNat 64 r.a) else none).or
      ((rs.findSome? fun r => if r.len = 0 then none else s.berthFault s.cur s.me r.a r.len).or
      (rs.findSome? fun r => if r.len = 0 ∨ (r.w = true ∧ weight = false) then none
        else if s.weightBarred r.a r.w then some (5, BitVec.ofNat 64 r.a)
        else if r.a / 0x100000000 != (r.a + r.len - 1) / 0x100000000 && s.weightBarred (next r) r.w then some (5, BitVec.ofNat 64 (next r)) else none)))) := by
  intro only next
  unfold State.rangesFault State.rangesBefore State.rangesWeight
  simp only [Option.or_assoc]
  refine congrArg₂ Option.or (congrArg (rs.findSome? ·) (funext fun r => only_eq_filter 5 _))
    (congrArg₂ Option.or (congrArg (rs.findSome? ·) (funext fun r => congrArg₂ Option.or (only_eq_filter 6 _) (windowFault_outside s r)))
      (congrArg₂ Option.or (congrArg (rs.findSome? ·) (funext fun r => ?_))
        (congrArg₂ Option.or rfl (congrArg (rs.findSome? ·) (funext fun r => ?_)))))
  · simp only [ne_eq, ite_not]
  · rw [weightRange_barred s r.a r.len r.w rfl]
    simp only [Bool.and_eq_true, Bool.not_eq_eq_eq_not, Bool.not_true]
    rfl

end

/-! ## Pair operands (R281, R282) -/

theorem matFault_two (s : State) (x y : MatSrc) (n m : Nat) :
    let stage (k : Nat) : Option Cause := (x.fault s n k).or (y.fault s m k)
    s.matFault [(x, n), (y, m)] = (stage 1).or ((stage 2).or ((stage 3).or (stage 4))) := by
  have pair : ∀ k, ([(x, n), (y, m)].findSome? fun p => p.1.fault s p.2 k) = (x.fault s n k).or (y.fault s m k) := fun k => by
    cases h : x.fault s n k <;> cases h' : y.fault s m k <;> simp [List.findSome?, h, h']
  unfold State.matFault
  simp only [pair]
  cases h1 : (x.fault s n 1).or (y.fault s m 1) with
  | some c => simp [List.findSome?, h1]
  | none =>
    cases h2 : (x.fault s n 2).or (y.fault s m 2) with
    | some c => simp [List.findSome?, h1, h2]
    | none =>
      cases h3 : (x.fault s n 3).or (y.fault s m 3) with
      | some c => simp [List.findSome?, h1, h2, h3]
      | none => cases h4 : (x.fault s n 4).or (y.fault s m 4) <;> simp [List.findSome?, h1, h2, h3, h4]

theorem bits_high (y : W64) : bitsOf y 63 35 = y.toNat / 2 ^ 35 := by
  have := y.isLt
  unfold bitsOf
  omega

theorem bits_low (y : W64) : bitsOf y 15 0 = y.toNat % 2 ^ 16 := by
  unfold bitsOf
  omega

section
variable {s : State} {x y : W64} {n : Nat}

theorem pairFault_elsewhere (h1 : ¬ InSram x.toNat) (h2 : ¬ InWeight x.toNat) : s.pairFault x y n 1 = some (0x05, x) := by
  unfold State.pairFault
  cases hp : placeOf x.toNat with
  | sram cl o => exact absurd hp (placeOf_ne_sram h1 cl o)
  | weight d o => exact absurd hp (placeOf_ne_weight h2 d o)
  | translated | local_ _ | mesh _ _ | unmapped => rfl

theorem pairFault_sram_unmapped (h : InSram x.toNat) : s.pairFault x y n 1 =
    if ¬ y.toNat / 2 ^ 35 = 0 ∨ ∃ a ∈ pairRows x y n, ¬ InSram (a + 63) then some (0x05, x) else none := by
  have row : ∀ a, (match placeOf a with
      | .sram _ _ => false
      | _ => true) = true ↔ ¬ InSram a := fun a => by
    by_cases ha : InSram a
    · simp [placeOf_sram ha, ha]
    · have := placeOf_ne_sram ha
      simp only [ha, not_false_eq_true]
  unfold State.pairFault
  rw [placeOf_sram h]
  refine if_congr ?_ rfl rfl
  rw [Bool.or_eq_true, bne_iff_ne, bits_high, List.any_eq_true]
  exact or_congr Iff.rfl (exists_congr fun a => and_congr Iff.rfl (row _))

theorem pairFault_weight_unmapped (h : InWeight x.toNat) : s.pairFault x y n 1 =
    if ¬ y.toNat / 2 ^ 35 = 0 ∨ ∃ a ∈ pairRows x y n, ¬ InWeight (a + 63) then some (0x05, x) else none := by
  have row : ∀ a, (match placeOf a with
      | .weight _ _ => false
      | _ => true) = true ↔ ¬ InWeight a := fun a => by
    by_cases ha : InWeight a
    · simp [placeOf_weight ha, ha]
    · have := placeOf_ne_weight ha
      simp only [ha, not_false_eq_true]
  unfold State.pairFault
  rw [placeOf_weight h]
  refine if_congr ?_ rfl rfl
  rw [Bool.or_eq_true, bne_iff_ne, bits_high, List.any_eq_true]
  exact or_congr Iff.rfl (exists_congr fun a => and_congr Iff.rfl (row _))

theorem pairUnit_sram {a : Nat} (h : InSram a) : pairUnit a = some (0xFFF1000000000000 + (sramUnit a + 1) * 2 ^ 21) := by
  unfold pairUnit
  rw [placeOf_sram h]
  rfl

theorem pairFault_units (h : InSram x.toNat) (hr : ∀ a ∈ pairRows x y n, InSram (a + 63))
    (hu : ∃ a ∈ pairRows x y n, sramUnit (a + 63) ≠ sramUnit x.toNat) :
    s.pairFault x y n 2 = some (0x06, BitVec.ofNat 64 (0xFFF1000000000000 + (sramUnit x.toNat + 1) * 2 ^ 21)) := by
  have hany : ((pairRows x y n).any fun a => pairUnit (a + 63) != pairUnit x.toNat) = true := by
    obtain ⟨a, ha, hne⟩ := hu
    refine List.any_eq_true.2 ⟨a, ha, ?_⟩
    rw [pairUnit_sram h, pairUnit_sram (hr a ha), bne_iff_ne]
    intro he
    exact hne (by have := Option.some.inj he; omega)
  simp only [State.pairFault, placeOf_sram h]
  rw [if_pos hany, pairUnit_sram h, Option.getD_some]

theorem pairFault_within (h : InSram x.toNat) (hr : ∀ a ∈ pairRows x y n, InSram (a + 63) ∧ sramUnit (a + 63) = sramUnit x.toNat) :
    s.pairFault x y n 2 = if ¬ sramUnit x.toNat ∈ s.me.placed ∨
        ∃ a ∈ pairRows x y n, (s.cluster (sramUnit x.toNat)).split * 2 ^ 18 < (a - 0xFFF1000000000000) % 2 ^ 21 + 64
      then some (0x06, x) else none := by
  have hany : ¬ ((pairRows x y n).any fun a => pairUnit (a + 63) != pairUnit x.toNat) = true := by
    rw [List.any_eq_true]
    rintro ⟨a, ha, hne⟩
    obtain ⟨h1, h2⟩ := hr a ha
    rw [pairUnit_sram h, pairUnit_sram h1, h2] at hne
    simp at hne
  simp only [State.pairFault, placeOf_sram h]
  rw [if_neg hany]
  refine if_congr ?_ rfl rfl
  simp only [Bool.or_eq_true, Bool.not_eq_true', List.any_eq_true, decide_eq_true_eq, List.contains_eq_mem, decide_eq_false_iff_not]
  exact Iff.rfl

theorem pairFault_weight (h : InWeight x.toNat) : s.pairFault x y n 2 = none ∧
    s.pairFault x y n 4 = (pairRows x y n).findSome? fun a => s.weightFault (s.vfOf s.cur) a false := by
  unfold State.pairFault
  rw [placeOf_weight h]
  exact ⟨rfl, rfl⟩

theorem pairFault_sram_last (h : InSram x.toNat) : s.pairFault x y n 4 = none := by
  simp only [State.pairFault, placeOf_sram h]

theorem pairFault_aligned : s.pairFault x y n 3 = if x.toNat % 64 ≠ 0 ∨ y.toNat % 2 ^ 16 % 64 ≠ 0 then some (0x03, x) else none := by
  unfold State.pairFault
  have hcond : (x.toNat % 64 != 0 || bitsOf y 15 0 % 64 != 0) = true ↔ x.toNat % 64 ≠ 0 ∨ y.toNat % 2 ^ 16 % 64 ≠ 0 := by
    rw [Bool.or_eq_true, bne_iff_ne, bne_iff_ne, bits_low]
  cases placeOf x.toNat <;> exact if_congr hcond rfl rfl

end

/-! ## Barge destinations (R305) -/

section
variable {s : State} {a len : Nat} {ts : List Nat}

theorem bargemFault_nowhere (cl : Bool) (h : ts = [] ∨ len = 0) : s.bargemFault cl a len ts = none := if_pos h

theorem bargemFault_clusters (ht : ts ≠ []) (hl : len ≠ 0) : s.bargemFault true a len ts =
    if ∃ x ∈ ts, (s.cluster x).split * 2 ^ 18 < a + len then some (0x05, BitVec.ofNat 64 a) else none := by
  unfold State.bargemFault
  rw [if_neg (by simp [ht, hl])]
  simp only [if_true, List.any_eq_true, decide_eq_true_eq, Bool.not_true, Bool.false_and, Bool.false_eq_true, if_false]
  rfl

theorem bargemFault_cores (ht : ts ≠ []) (hl : len ≠ 0) : s.bargemFault false a len ts =
    if 2 ^ 17 < a + len then some (0x05, BitVec.ofNat 64 a)
    else if ∃ x ∈ ts, 2 ^ 17 - s.berthSize x ≤ a + len - 1 then some (0x14, BitVec.ofNat 64 a) else none := by
  unfold State.bargemFault State.inBerth
  rw [if_neg (by simp [ht, hl])]
  simp only [Bool.false_eq_true, if_false, List.any_eq_true, decide_eq_true_eq, Bool.not_false, Bool.true_and]
  rfl

end

end Sys2Proof.Machine

open Sys2Proof Sys2Proof.Machine

/-- Settles O34: each clause by the lemma about the check that it names. -/
theorem engineChecks : Obligations.EngineChecks := by
  unfold Obligations.EngineChecks
  refine ⟨fun a len hl => ?_, fun s weight rs _ => ?_, fun s ctx c a len hc => ?_, matFault_two, fun s x y n t => ?_,
    fun s a len ts cl => ⟨bargemFault_nowhere cl, fun ht hn hcl => ?_, fun ht hn hcl => ?_⟩⟩
  · intro e window
    have hw : ∀ x, window x = (placeOf x).window := fun x => by
      change (match placeOf x with
        | .translated => 0
        | .local_ _ => 1
        | .mesh _ _ => 2
        | .sram _ _ => 3
        | .weight _ _ => 4
        | .unmapped => 5) = _
      generalize placeOf x = p
      cases p <;> rfl
    clear_value window
    simp only [hw]
    refine ⟨rangeFault_past hl, fun he => (rangeFault_windows hl he).1, fun he => (rangeFault_windows hl he).2,
      fun i j o p he => rangeFault_mesh hl he, fun i j o p he => rangeFault_sram hl he⟩
  · intro c only outside weightStore next
    have ho : outside = Rng.outside s := by
      funext r
      simp only [outside, Rng.outside] <;> generalize placeOf r.a = p <;> cases p <;> rfl
    have hb : weightStore = s.weightBarred := by
      funext a w
      simp only [weightStore, State.weightBarred] <;> generalize placeOf a = p <;> cases p <;> rfl
    rw [ho, hb]
    exact rangesFault_eq s weight rs
  · intro hit
    refine ⟨berthFault_control, fun core off hx hp => ?_, fun off hx hp => ?_⟩
    · rw [berthFault_helper hc hx core off (.inl hp)]
      exact ⟨fun h => if_pos h, fun h => if_neg h⟩
    · rw [berthFault_helper hc hx (ctx % 4096) off (.inr ⟨hp, rfl⟩)]
      exact ⟨fun h => if_pos h, fun h => if_neg h⟩
  · intro rows fault inSram inWeight unit free
    refine ⟨⟨rfl, rfl, rfl, rfl⟩, pairFault_elsewhere, fun hf => ?_, fun hx hr => (pairFault_sram_unmapped hx).trans (if_pos (.inr hr)),
      fun hx hr => (pairFault_weight_unmapped hx).trans (if_pos (.inr hr)), fun hx hf hr => ?_, fun hx hf hr => ?_, pairFault_units, pairFault_within,
      fun hx => (pairFault_weight hx).1, pairFault_aligned (s := s) (n := n), pairFault_sram_last, fun hx => (pairFault_weight hx).2⟩
    · by_cases h1 : InSram x.toNat
      · exact (pairFault_sram_unmapped h1).trans (if_pos (.inl hf))
      · by_cases h2 : InWeight x.toNat
        · exact (pairFault_weight_unmapped h2).trans (if_pos (.inl hf))
        · exact pairFault_elsewhere h1 h2
    · refine (pairFault_sram_unmapped hx).trans (if_neg ?_)
      rintro (h | ⟨a, ha, h⟩)
      · exact h hf
      · exact h (hr a ha)
    · refine (pairFault_weight_unmapped hx).trans (if_neg ?_)
      rintro (h | ⟨a, ha, h⟩)
      · exact h hf
      · exact h (hr a ha)
  · subst hcl
    exact bargemFault_clusters ht hn
  · subst hcl
    exact bargemFault_cores ht hn
end

section
/-! Messages and shifts as instructions give them (R306 to R311): what each operation of majors 0x72 and 0x73 answers. -/

namespace Sys2Proof.Machine

/-! ## Results that are under way -/

/-- An AERASE whose answer is under way. -/
theorem pends_erase (s : State) (o : Op) (d : R6) (key : W64) (cls : Nat) (turn : Option Nat) :
    Pends s (s.pendOn o d (.erase key cls turn)) d (.erase key cls turn) o.len o.st := by
  refine ⟨(onlyMe_modMe ..).trans (onlyMe_modMe ..), ?_⟩
  unfold State.pendOn State.finish
  simp only [me_modMe]
  rfl

/-! ## The image of a message (R306) -/

/-- What SEND and SENDX do with an image that stops: the trap, the page trap or the wait. -/
theorem withImage_stop {s u : State} {a : Nat} {ph : Bit} {origin : Nat} {k : State → Option Msg → State} {x : ImageStop}
    (h : s.readImage a 32 = (u, .error x)) : s.withImage a ph origin k = u.imageStop x := by
  simp only [State.withImage, h]

theorem withImage_refused {s u : State} {a : Nat} {ph : Bit} {origin : Nat} {k : State → Option Msg → State} {hd : List Byte}
    (h : s.readImage a 32 = (u, .ok hd)) (hb : badHeader hd = true) : s.withImage a ph origin k = k u none := by
  simp only [State.withImage, h, hb, if_true]

theorem withImage_stop_body {s u v : State} {a : Nat} {ph : Bit} {origin : Nat} {k : State → Option Msg → State} {hd : List Byte} {x : ImageStop}
    (h : s.readImage a 32 = (u, .ok hd)) (hb : badHeader hd = false) (hv : u.readImage a (32 + bitsOf (wordAt hd 1) 48 42) = (v, .error x)) :
    s.withImage a ph origin k = v.imageStop x := by
  simp only [State.withImage, h, hb, hv, Bool.false_eq_true, if_false]

theorem withImage_read {s u v : State} {a : Nat} {ph : Bit} {origin : Nat} {k : State → Option Msg → State} {hd bs : List Byte}
    (h : s.readImage a 32 = (u, .ok hd)) (hb : badHeader hd = false) (hv : u.readImage a (32 + bitsOf (wordAt hd 1) 48 42) = (v, .ok bs)) :
    s.withImage a ph origin k = k v (some (v.msgOf bs ph origin)) := by
  simp only [State.withImage, h, hb, hv, Bool.false_eq_true, if_false]

/-- How an instruction answers an image that stops. -/
def StopsAs (r : Result) (u : State) : ImageStop → Prop
  | .trap c => r = .next (u.trap c.1 c.2)
  | .page f => r = .next (u.takeTrap u.cur f.cause f.va u.me.pc (some f))
  | .wait w => ∃ t, r = .next t ∧ Waits u t w

theorem stopsAs_imageStop (u : State) (x : ImageStop) : StopsAs (.next (u.imageStop x)) u x := by
  cases x with
  | trap c => exact rfl
  | page f => exact rfl
  | wait w => exact ⟨_, rfl, waits_hold u w⟩

/-- What SEND and SENDX do with the image at `a`: they wait for acknowledgements, stop, answer 1 for a malformed header, or hand the message on. -/
def SendsImage (s : State) (r : Result) (a : Nat) (d : R6) (ph : Bit) (len : Nat) (st : St) (origin : Nat) (good : State → Msg → Prop) : Prop :=
  (s.acks s.cur ≠ 0 → ∃ t, r = .next t ∧ Waits s t .acks) ∧
  (s.acks s.cur = 0 →
    (∀ u x, s.readImage a 32 = (u, .error x) → StopsAs r u x) ∧
    (∀ u h, s.readImage a 32 = (u, .ok h) → badHeader h = true → ∃ t, r = .next t ∧ Writes u t d 1 1 len st) ∧
    (∀ u h, s.readImage a 32 = (u, .ok h) → badHeader h = false →
      (∀ v x, u.readImage a (32 + bitsOf (wordAt h 1) 48 42) = (v, .error x) → StopsAs r v x) ∧
      (∀ v bs, u.readImage a (32 + bitsOf (wordAt h 1) 48 42) = (v, .ok bs) → good v (v.msgOf bs ph origin))))

/-- An operation that holds until the counter is 0 and then reads its image. -/
theorem sendsImage_of {s : State} {r : Result} {a : Nat} {d : R6} {ph : Bit} {o : Op} {origin : Nat} {good : State → Msg → Prop}
    {k : State → Option Msg → State}
    (hr : r = .next (if s.acks s.cur ≠ 0 then s.hold .acks else s.withImage a ph origin k))
    (hn : ∀ u, k u none = (u.wr d 1).finish o) (hg : ∀ v m, r = .next (k v (some m)) → good v m) :
    SendsImage s r a d ph o.len o.st origin good := by
  subst hr
  have go : s.acks s.cur = 0 → (if s.acks s.cur ≠ 0 then s.hold .acks else s.withImage a ph origin k) = s.withImage a ph origin k := fun h =>
    if_neg (by simp [h])
  refine ⟨fun h => ⟨_, by rw [if_pos h], waits_hold s .acks⟩, fun h => ⟨fun u x hx => ?_, fun u hd hx hb => ?_,
    fun u hd hx hb => ⟨fun v x hv => ?_, fun v bs hv => ?_⟩⟩⟩
  · rw [go h, withImage_stop hx]
    exact stopsAs_imageStop u x
  · rw [go h, withImage_refused hx hb, hn]
    exact ⟨_, rfl, writes_wr_finish u d 1 o⟩
  · rw [go h, withImage_stop_body hx hb hv]
    exact stopsAs_imageStop v x
  · refine hg v _ ?_
    rw [go h, withImage_read hx hb hv]

/-! ## SEND and SENDX (R54, R306, R307) -/

section
variable {s : State} {o : Op} {d a b : R6} {ph : Bit}

/-- What becomes of a message within the module. -/
def SendsHere (r : Result) (d : R6) (len : Nat) (st : St) (v : State) (m : Msg) : Prop :=
  (m.cls = 0xFFFF → ∃ t, r = .next t ∧ Writes ((v.ethReply m).active m.vf m.phase) t d 0 1 len st) ∧
  (m.cls ≠ 0xFFFF → (v.slice (homeMooring m.cls m.key)).stoppedAt = none → ∃ t, r = .next t ∧ Writes (v.postMsg m) t d 0 1 len st) ∧
  (m.cls ≠ 0xFFFF → (v.slice (homeMooring m.cls m.key)).stoppedAt ≠ none → ∃ t, r = .next t ∧
    (Waits { v with fresh := v.fresh + 1 } t (.plane (homeMooring m.cls m.key)) ∨ Writes (({ v with fresh := v.fresh + 1 } : State).postMsg m) t d 0 1 len st))

theorem sendLocal_here (v : State) (m : Msg) : SendsHere (.next (v.sendLocal o d m)) d o.len o.st v m := by
  unfold State.sendLocal
  refine ⟨fun hc => ?_, fun hc hs => ?_, fun hc hs => ?_⟩
  · rw [if_pos hc]
    exact ⟨_, rfl, writes_wr_finish _ d 0 o⟩
  · rw [if_neg hc, hs]
    exact ⟨_, rfl, writes_wr_finish _ d 0 o⟩
  · rw [if_neg hc]
    obtain ⟨at_, hat⟩ := Option.ne_none_iff_exists'.1 hs
    rw [hat]
    dsimp only [State.freshNat]
    split
    · exact ⟨_, rfl, .inl (waits_hold _ _)⟩
    · exact ⟨_, rfl, .inr (writes_wr_finish _ d 0 o)⟩

theorem sendOp_image (h : s.Open [a] [d]) :
    SendsImage s (sendOp o d a ph s) (s.rd a).toNat d ph o.len o.st 0 (SendsHere (sendOp o d a ph s) d o.len o.st) := by
  refine sendsImage_of (issueAcc_open s _ _ _ h) ?_ fun v m hr => ?_
  · exact fun u => rfl
  · rw [hr]
    exact sendLocal_here v m

/-- A SENDX to this module is a SEND. -/
theorem sendxOp_here (h : s.Open [a, b] [d]) (hd : (s.rd b).toNat % 1024 = s.device) :
    SendsImage s (sendxOp o d a b ph s) (s.rd a).toNat d ph o.len o.st 0 (SendsHere (sendxOp o d a b ph s) d o.len o.st) := by
  have hr : sendxOp o d a b ph s = .next (if s.acks s.cur ≠ 0 then s.hold .acks
      else s.withImage (s.rd a).toNat ph 0 fun s m => match m with
        | none => (s.wr d 1).finish o
        | some m => s.sendLocal o d m) := by
    refine (issueAcc_open s _ _ _ h).trans ?_
    simp only [if_pos hd] <;> rfl
  refine sendsImage_of hr (fun u => rfl) fun v m hg => ?_
  rw [hg]
  exact sendLocal_here v m

/-- What becomes of a message for another module. -/
def SendsAway (r : Result) (d : R6) (len : Nat) (st : St) (dev : Nat) (v : State) (m : Msg) : Prop :=
  (m.cls = 0xFFFF → ∃ t, r = .next t ∧ Writes v t d 1 1 len st) ∧
  (m.cls ≠ 0xFFFF → v.inDomain = false ∨ v.apart.contains dev = true ∨ v.routeTo dev = none → ∃ t, r = .next t ∧ Writes v t d 2 1 len st) ∧
  (∀ p, m.cls ≠ 0xFFFF → v.inDomain = true → v.apart.contains dev = false → v.routeTo dev = some p → ∃ t, r = .next t ∧
    Writes (({ v with towOut := v.towOut ++ [(p, dev, m)] } : State).active m.vf m.phase) t d 0 1 len st)

/-- What a SENDX does with the sound image of a message for module `dev`. -/
def State.sendAway (s : State) (o : Op) (d : R6) (dev : Nat) (m : Msg) : State :=
  if m.cls = 0xFFFF then (s.wr d 1).finish o
  else match s.inDomain && !(s.apart.contains dev), s.routeTo dev with
    | true, some p => (({ s with towOut := s.towOut ++ [(p, dev, m)] } : State).active m.vf m.phase |>.wr d 0).finish o
    | _, _ => (s.wr d 2).finish o

theorem sendAway_unreached {v : State} {m : Msg} {dev : Nat} (hc : m.cls ≠ 0xFFFF)
    (hn : v.inDomain = false ∨ v.apart.contains dev = true ∨ v.routeTo dev = none) : v.sendAway o d dev m = (v.wr d 2).finish o := by
  unfold State.sendAway
  rw [if_neg hc]
  rcases hn with h | h | h
  · simp [h]
  · rw [h, Bool.not_true, Bool.and_false]
  · rw [h]
    cases v.inDomain && !(v.apart.contains dev) <;> rfl

theorem sendAway_away (v : State) (m : Msg) (dev : Nat) : SendsAway (.next (v.sendAway o d dev m)) d o.len o.st dev v m := by
  refine ⟨fun hc => ?_, fun hc hn => ?_, fun p hc hi ha hp => ?_⟩
  · exact ⟨_, by rw [State.sendAway, if_pos hc], writes_wr_finish v d 1 o⟩
  · exact ⟨_, by rw [sendAway_unreached hc hn], writes_wr_finish v d 2 o⟩
  · unfold State.sendAway
    rw [if_neg hc, hi, ha, hp]
    exact ⟨_, rfl, writes_wr_finish _ d 0 o⟩

/-- A SENDX to another module. -/
theorem sendxOp_away (h : s.Open [a, b] [d]) (hd : (s.rd b).toNat % 1024 ≠ s.device) :
    SendsImage s (sendxOp o d a b ph s) (s.rd a).toNat d ph o.len o.st 1 (SendsAway (sendxOp o d a b ph s) d o.len o.st ((s.rd b).toNat % 1024)) := by
  have hr : sendxOp o d a b ph s = .next (if s.acks s.cur ≠ 0 then s.hold .acks
      else s.withImage (s.rd a).toNat ph 1 fun t m => match m with
        | none => (t.wr d 1).finish o
        | some m => t.sendAway o d ((s.rd b).toNat % 1024) m) := by
    refine (issueAcc_open s _ _ _ h).trans ?_
    simp only [if_neg hd] <;> rfl
  refine sendsImage_of hr (fun u => rfl) fun v m hg => ?_
  rw [hg]
  exact sendAway_away v m _

end

/-! ## MSGINFO, AIDLE, AERASE and MIGRATE (R308 to R311) -/

section
variable {s : State} {o : Op} {d a b c : R6}

theorem msginfoOp_clear (h : s.Clear [] [d]) : msginfoOp o d s = .next ((s.wr d s.msgInfo).finish o) := issue_clear s _ _ _ h

theorem msgInfo_unmoored (h : ∀ r, s.me.actor = some r → s.moor? r.cls r.key = none) : s.msgInfo = -1 := by
  unfold State.msgInfo
  cases hr : s.me.actor with
  | none => rfl
  | some r =>
    dsimp only
    rw [h r hr]
    rfl

theorem msgInfo_moored {r : ActorRef} {m : Moor} (hr : s.me.actor = some r) (hm : s.moor? r.cls r.key = some m) :
    s.msgInfo = BitVec.ofNat 64 (min 3 m.mailbox.length + min 255 m.chamber.length * 2 ^ 8 + (if r.aidle then 2 ^ 16 else 0) +
      (if m.st = .shifting then 2 ^ 17 else 0) + ((m.berth.map (·.1)).getD 0) * 2 ^ 32) := by
  unfold State.msgInfo
  rw [hr]
  dsimp only
  rw [hm]

theorem aidleOp_none (h : s.Clear [] []) (ha : s.me.actor = none) : aidleOp o s = .next (s.trap 0x01 (s.word0.setWidth 64)) := by
  refine (issue_clear s _ _ _ h).trans ?_
  rw [ha]

theorem aidleOp_some {r : ActorRef} (h : s.Clear [] []) (ha : s.me.actor = some r) :
    ∃ t, aidleOp o s = .next t ∧ Passes (s.modMe fun c => { c with actor := some { r with aidle := true } }) t o.len o.st := by
  refine ⟨_, (issue_clear s _ _ _ h).trans ?_, goes_finish _ o⟩
  rw [ha]

/-- The class of a function that has a number has that number. -/
theorem classFor_num {vf cls : Nat} {r : ClassRec} (h : s.classFor vf cls = some r) : r.num = cls := by
  have := List.find?_some h
  simp_all

/-- An AERASE, once its operands are there, with the class that it names. -/
def State.eraseWith (s : State) (o : Op) (d : R6) (key : W64) (cls : Nat) : Option ClassRec → State
  | none => (s.wr d 2).finish o
  | some r =>
    if s.dirHeld r.dir || !(s.dirTurn r.dir none) then
      ({ s with arrival := s.arrival + 1 } : State).pendOn o d (.erase key cls (some s.arrival))
    else ((s.eraseAnswer r key).1.wr d (s.eraseAnswer r key).2).finish o

theorem aeraseOp_open (h : s.Open [a, b] [d]) : aeraseOp o d a b s =
    .next (s.eraseWith o d (s.rd a) ((s.rd b).toNat % 65536) (s.classFor (s.vfOf s.cur) ((s.rd b).toNat % 65536))) := by
  refine (issueAcc_open s _ _ _ h).trans ?_
  dsimp only
  generalize s.classFor (s.vfOf s.cur) ((s.rd b).toNat % 65536) = r
  cases r <;> rfl

theorem eraseWith_held {key : W64} {cls : Nat} {r : ClassRec} (h : s.dirHeld r.dir = true ∨ s.dirTurn r.dir none = false) :
    Pends { s with arrival := s.arrival + 1 } (s.eraseWith o d key cls (some r)) d (.erase key cls (some s.arrival)) o.len o.st := by
  have : (s.dirHeld r.dir || !(s.dirTurn r.dir none)) = true := by
    rcases h with h | h <;> simp [h]
  unfold State.eraseWith
  dsimp only
  rw [if_pos this]
  exact pends_erase _ o d key cls (some s.arrival)

/-- An AERASE that nothing holds answers at once. -/
theorem eraseWith_writes {key : W64} {cls : Nat} {r : ClassRec} {u : State} {v : W64} (hh : s.dirHeld r.dir = false) (ht : s.dirTurn r.dir none = true)
    (he : s.eraseAnswer r key = (u, v)) : Writes u (s.eraseWith o d key cls (some r)) d v 1 o.len o.st := by
  unfold State.eraseWith
  dsimp only
  rw [hh, ht, he]
  exact writes_wr_finish u d v o

theorem eraseAnswer_moored {r : ClassRec} {key : W64} {m : Moor} (hm : s.moor? r.num key = some m) :
    s.eraseAnswer r key = if m.st = .moored ∧ m.busy = false ∧ m.mailbox = [] ∧ m.chamber = [] then (s.freeEntry m, 0) else (s, 1) := by
  unfold State.eraseAnswer
  rw [hm]

theorem eraseAnswer_recorded {r : ClassRec} {key : W64} {k : Nat} (hm : s.moor? r.num key = none) (hf : s.dirFind r.dir r.num key = some k) :
    s.eraseAnswer r key = (s.dirDrop r.dir k, 0) := by
  unfold State.eraseAnswer
  rw [hm]
  dsimp only
  rw [hf]

theorem eraseAnswer_unknown {r : ClassRec} {key : W64} (hm : s.moor? r.num key = none) (hf : s.dirFind r.dir r.num key = none) :
    s.eraseAnswer r key = (s, 0) := by
  unfold State.eraseAnswer
  rw [hm]
  dsimp only
  rw [hf]

/-! ### Shifts -/

theorem takeRun_none {core len : Nat} (h : s.freeOffsets core len (s.runsOn core) = []) : s.takeRun core len = (s, none) := by
  unfold State.takeRun
  simp only [h, true_or, if_true, List.head?_nil]

/-- A run that fits is taken at one of the offsets at which it fits. -/
theorem takeRun_some {core len : Nat} (h : s.freeOffsets core len (s.runsOn core) ≠ []) :
    ∃ p ∈ s.freeOffsets core len (s.runsOn core),
      s.takeRun core len = ({ s with fresh := if s.runsOn core = [] then s.fresh else s.fresh + 1 }, some p) := by
  unfold State.takeRun
  by_cases hr : s.runsOn core = []
  · refine ⟨_, List.head_mem h, ?_⟩
    simp only [hr, or_true, if_true]
    rw [← List.head?_eq_some_head]
  · have hlt := Nat.mod_lt (Config.freeNat s.fresh) (List.length_pos_iff.2 h)
    refine ⟨_, List.getElem_mem hlt, ?_⟩
    simp only [h, hr, or_self, if_false, State.freshNat, List.getElem?_eq_getElem hlt]

section
variable {vf cls core : Nat} {key : W64} {r : ClassRec} {m : Moor}

theorem orderShift_unknown (h : s.classFor vf cls = none) : s.orderShift vf cls key core = (s, 4) := by
  unfold State.orderShift
  rw [h]

theorem orderShift_unmoored (h : s.classFor vf cls = some r) (hm : s.moor? cls key = none) : s.orderShift vf cls key core = (s, 1) := by
  unfold State.orderShift
  rw [h]
  dsimp only
  rw [hm]

/-- The orders that a moored entry refuses, and the one it takes. -/
theorem orderShift_some (h : s.classFor vf cls = some r) (hm : s.moor? cls key = some m) :
    s.orderShift vf cls key core = (if m.st = .shifting then (s, 2)
      else if m.st ≠ .moored then (s, 1)
      else if (m.berth.map (·.1)) = some core then (s, 0)
      else if !((shiftTargets r (homeMooring cls key)).contains core) then (s, 3)
      else match s.takeRun core (runLen m.size) with
        | (s, none) => (s, 3)
        | (s, some o) => (s.setMoor { m with st := .shifting, target := some (core, o) }, 0) : State × W64) := by
  simp only [State.orderShift, h, hm] <;> rfl

variable (h : s.classFor vf cls = some r) (hm : s.moor? cls key = some m)
include h hm

theorem orderShift_shifting (hs : m.st = .shifting) : s.orderShift vf cls key core = (s, 2) := by
  rw [orderShift_some h hm, if_pos hs]

theorem orderShift_unsettled (hs : m.st = .mooring ∨ m.st = .unmooring) : s.orderShift vf cls key core = (s, 1) := by
  rw [orderShift_some h hm]
  rcases hs with hs | hs <;> simp [hs]

theorem orderShift_there (hs : m.st = .moored) (hb : m.berth.map (·.1) = some core) : s.orderShift vf cls key core = (s, 0) := by
  rw [orderShift_some h hm, if_neg (by simp [hs]), if_neg (by simp [hs]), if_pos hb]

theorem orderShift_nowhere (hs : m.st = .moored) (hb : m.berth.map (·.1) ≠ some core)
    (hn : (shiftTargets r (homeMooring cls key)).contains core = false ∨ s.freeOffsets core (runLen m.size) (s.runsOn core) = []) :
    s.orderShift vf cls key core = (s, 3) := by
  rw [orderShift_some h hm, if_neg (by simp [hs]), if_neg (by simp [hs]), if_neg hb]
  rcases hn with hn | hn
  · rw [if_pos (by rw [hn]; rfl)]
  · rw [takeRun_none hn]
    exact ite_self _

theorem orderShift_ordered (hs : m.st = .moored) (hb : m.berth.map (·.1) ≠ some core)
    (ht : (shiftTargets r (homeMooring cls key)).contains core = true) (hf : s.freeOffsets core (runLen m.size) (s.runsOn core) ≠ []) :
    ∃ p ∈ s.freeOffsets core (runLen m.size) (s.runsOn core), s.orderShift vf cls key core =
      (({ s with fresh := if s.runsOn core = [] then s.fresh else s.fresh + 1 } : State).setMoor { m with st := .shifting, target := some (core, p) }, 0) := by
  obtain ⟨p, hp, hr⟩ := takeRun_some hf
  refine ⟨p, hp, ?_⟩
  rw [orderShift_some h hm, if_neg (by simp [hs]), if_neg (by simp [hs]), if_neg hb, if_neg (by rw [ht]; simp), hr]

end

theorem migrateOp_open (h : s.Open [a, b, c] [d]) {u : State} {v : W64}
    (hu : s.orderShift (s.vfOf s.cur) ((s.rd b).toNat % 65536) (s.rd a) ((s.rd c).toNat % 4096) = (u, v)) :
    migrateOp o d a b c s = .next ((u.wr d v).finish o) := by
  refine (issueAcc_open s _ _ _ h).trans ?_
  dsimp only
  rw [hu]

/-- A MIGRATE writes the status of its order. -/
theorem migrateOp_writes (h : s.Open [a, b, c] [d]) {u : State} {v : W64}
    (hu : s.orderShift (s.vfOf s.cur) ((s.rd b).toNat % 65536) (s.rd a) ((s.rd c).toNat % 4096) = (u, v)) :
    ∃ t, migrateOp o d a b c s = .next t ∧ Writes u t d v 1 o.len o.st := ⟨_, migrateOp_open h hu, writes_wr_finish u d v o⟩

/-- An AERASE that nothing holds writes its answer. -/
theorem aeraseOp_writes (h : s.Open [a, b] [d]) {r : ClassRec} {u : State} {v : W64}
    (hr : s.classFor (s.vfOf s.cur) ((s.rd b).toNat % 65536) = some r) (hh : s.dirHeld r.dir = false) (ht : s.dirTurn r.dir none = true)
    (he : s.eraseAnswer r (s.rd a) = (u, v)) : ∃ t, aeraseOp o d a b s = .next t ∧ Writes u t d v 1 o.len o.st := by
  refine ⟨_, aeraseOp_open h, ?_⟩
  rw [hr]
  exact eraseWith_writes hh ht he

end

/-! ## The two forms of an instruction -/

section
variable {s : State} {st : St} {i j : Instr}

/-- The short form and the extended one are one operation. -/
theorem two_forms {op : Op → Result} (hi : exec i s = op ⟨4, st⟩) (hj : exec j s = op ⟨12, st⟩) :
    ∀ p ∈ ([(i, 4), (j, 12)] : List (Instr × Nat)), ∃ o : Op, exec p.1 s = op o ∧ o.len = p.2 ∧ o.st = st := by
  intro p hp
  simp only [List.mem_cons, List.not_mem_nil, or_false] at hp
  rcases hp with rfl | rfl
  · exact ⟨⟨4, st⟩, hi, rfl, rfl⟩
  · exact ⟨⟨12, st⟩, hj, rfl, rfl⟩

/-- The same where the extended form has one operand more. -/
theorem two_forms_with {α : Type} {x y : α} {op : Op → α → Result} (hi : exec i s = op ⟨4, st⟩ x) (hj : exec j s = op ⟨12, st⟩ y) :
    ∀ p ∈ ([(i, x, 4), (j, y, 12)] : List (Instr × α × Nat)), ∃ o : Op, exec p.1 s = op o p.2.1 ∧ o.len = p.2.2 ∧ o.st = st := by
  intro p hp
  simp only [List.mem_cons, List.not_mem_nil, or_false] at hp
  rcases hp with rfl | rfl
  · exact ⟨⟨4, st⟩, hi, rfl, rfl⟩
  · exact ⟨⟨12, st⟩, hj, rfl, rfl⟩

end

end Sys2Proof.Machine

open Sys2Proof Sys2Proof.Machine

/-- Settles O37: the two images of a SEND and a SENDX go through `sendsImage_of`, and every other operation has a lemma per answer. -/
theorem messages : Obligations.Messages := by
  intro s d a b c ph st
  refine ⟨fun h p hp => ?_, fun h p hp => ?_, fun h p hp => ?_, fun h p hp => ?_, fun h p hp => ?_, fun p hp => ?_⟩
  · obtain ⟨o, ho, hl, rfl⟩ : ∃ o : Op, exec p.1 s = sendOp o d a p.2.1 s ∧ o.len = p.2.2 ∧ o.st = st :=
      two_forms_with (op := fun o ph => sendOp o d a ph s) rfl rfl p hp
    have hi := sendOp_image (o := o) (ph := p.2.1) h
    rw [← ho] at hi
    rw [← hl]
    exact hi
  · obtain ⟨i, ph', len⟩ := p
    obtain ⟨o, ho, hl, rfl⟩ : ∃ o : Op, exec i s = sendxOp o d a b ph' s ∧ o.len = len ∧ o.st = st :=
      two_forms_with (op := fun o ph => sendxOp o d a b ph s) rfl rfl _ hp
    subst hl
    dsimp only
    rw [ho]
    exact ⟨sendxOp_here h, sendxOp_away h⟩
  · obtain ⟨o, ho, hl, rfl⟩ : ∃ o : Op, exec p.1 s = msginfoOp o d s ∧ o.len = p.2 ∧ o.st = st := two_forms rfl rfl p hp
    rw [← hl]
    have go : exec p.1 s = .next ((s.wr d s.msgInfo).finish o) := ho.trans (msginfoOp_clear h)
    refine ⟨fun hn => ⟨_, go, ?_⟩, fun r m hr hm => ⟨_, go, ?_⟩⟩
    · rw [msgInfo_unmoored hn]
      exact writes_wr_finish s d _ o
    · rw [msgInfo_moored hr hm]
      exact writes_wr_finish s d _ o
  · obtain ⟨o, ho, hl, rfl⟩ : ∃ o : Op, exec p.1 s = aidleOp o s ∧ o.len = p.2 ∧ o.st = st := two_forms rfl rfl p hp
    rw [ho, ← hl]
    exact ⟨aidleOp_none h, fun r hr => aidleOp_some h hr⟩
  · obtain ⟨o, ho, hl, rfl⟩ : ∃ o : Op, exec p.1 s = aeraseOp o d a b s ∧ o.len = p.2 ∧ o.st = st := two_forms rfl rfl p hp
    obtain ⟨i, len⟩ := p
    subst hl
    dsimp only at ho ⊢
    unfold Computes
    rw [ho]
    refine ⟨fun hn => ⟨_, aeraseOp_open h, ?_⟩, fun r hr => ⟨fun hh => ⟨_, aeraseOp_open h, ?_⟩, fun hh ht => ?_⟩⟩
    · rw [hn]
      exact writes_wr_finish s d 2 o
    · rw [hr]
      exact eraseWith_held hh
    · have he := fun u v => aeraseOp_writes (o := o) (u := u) (v := v) h hr hh ht
      have hnum := classFor_num hr
      rw [← hnum]
      refine ⟨fun m hm => ?_, fun k hm hk => ?_, fun hm hk => ?_⟩
      · have hw := eraseAnswer_moored hm
        split <;> rename_i hidle
        · exact he _ _ (hw.trans (if_pos hidle))
        · exact he _ _ (hw.trans (if_neg hidle))
      · exact he _ _ (eraseAnswer_recorded hm hk)
      · exact he _ _ (eraseAnswer_unknown hm hk)
  · obtain ⟨i, c', len⟩ := p
    obtain ⟨o, ho, hl, rfl⟩ : ∃ o : Op, exec i s = migrateOp o d a b c' s ∧ o.len = len ∧ o.st = st :=
      two_forms_with (op := fun o c => migrateOp o d a b c s) rfl rfl _ hp
    subst hl
    dsimp only
    unfold Computes
    rw [ho]
    refine fun h => ⟨fun hn => migrateOp_writes h (orderShift_unknown hn), fun r hr => ⟨fun hm => migrateOp_writes h (orderShift_unmoored hr hm),
      fun m hm => ⟨fun hs => migrateOp_writes h (orderShift_shifting hr hm hs), fun hs => migrateOp_writes h (orderShift_unsettled hr hm hs),
        fun hs hb => migrateOp_writes h (orderShift_there hr hm hs hb), fun hs hb hn => migrateOp_writes h (orderShift_nowhere hr hm hs hb hn),
        fun hs hb ht hf => ?_⟩⟩⟩
    obtain ⟨q, hq, hu⟩ := orderShift_ordered hr hm hs hb ht hf
    obtain ⟨t, ht, hw⟩ := migrateOp_writes (o := o) h hu
    exact ⟨t, q, ht, hq, hw⟩
end

section
/-! The events of the mooring slices, the classes and the directories (R38 to R51, R366, R413, R414). -/

namespace Sys2Proof.Machine

/-! ## What leaves the actors alone -/

/-- Entries, slices and classes are as they were. -/
structure ActorsKept (s t : State) : Prop where
  moors   : t.moors = s.moors
  slices  : t.slices = s.slices
  classes : t.classes = s.classes

theorem ActorsKept.refl (s : State) : ActorsKept s s := ⟨rfl, rfl, rfl⟩

theorem ActorsKept.trans {s t u : State} (h : ActorsKept s t) (k : ActorsKept t u) : ActorsKept s u :=
  ⟨k.moors.trans h.moors, k.slices.trans h.slices, k.classes.trans h.classes⟩

theorem ActorsKept.foldl {α : Type} {f : State → α → State} (hf : ∀ s a, ActorsKept s (f s a)) (l : List α) (s : State) :
    ActorsKept s (l.foldl f s) := by
  induction l generalizing s with
  | nil => exact .refl s
  | cons a l ih => exact (hf s a).trans (ih (f s a))

theorem ActorsKept.ite {s t u : State} {p : Prop} [Decidable p] (h : ActorsKept s t) (k : ActorsKept s u) : ActorsKept s (if p then t else u) := by
  split
  · exact h
  · exact k

theorem ActorsKept.slice {s t : State} (h : ActorsKept s t) (i : Nat) : t.slice i = s.slice i := by
  unfold State.slice
  rw [h.slices]

theorem ActorsKept.moor? {s t : State} (h : ActorsKept s t) (cls : Nat) (key : W64) : t.moor? cls key = s.moor? cls key := by
  unfold State.moor?
  rw [h.moors]

theorem actorsKept_onlyTables {s t : State} (h : OnlyTables s t) : ActorsKept s t := by
  refine ⟨?_, ?_, ?_⟩
  · have := congrArg State.moors h.rest
    exact this
  · have := congrArg State.slices h.rest
    exact this
  · have := congrArg State.classes h.rest
    exact this

/-! ### Writing a word, and the accesses that its tag lets go -/

theorem actorsKept_clearPoison (s : State) (k n : Nat) : ActorsKept s (s.clearPoison k n) := by
  obtain ⟨_, h⟩ := clearPoison_frame s k n
  rw [h]
  exact ⟨rfl, rfl, rfl⟩

theorem actorsKept_close (s : State) (ctx : Nat) (failed : Bool) (code : Nat) : ActorsKept s (s.close ctx failed code) := by
  obtain ⟨⟨_, _, _, _, _, h⟩, -⟩ := close_frame s ctx failed code
  rw [h]
  exact ⟨rfl, rfl, rfl⟩

theorem actorsKept_setCtx (s : State) (id : Nat) (c : Ctx) : ActorsKept s (s.setCtx id c) := ⟨rfl, rfl, rfl⟩

theorem actorsKept_takeTrap (s : State) (ctx cause : Nat) (tval pc : W64) (info : Option FaultInfo) : ActorsKept s (s.takeTrap ctx cause tval pc info) := by
  have hn : ActorsKept s (s.trapNoted ctx cause tval pc) := ⟨rfl, rfl, rfl⟩
  have two (c d : Ctx) : ActorsKept s ((s.setCtx ctx c).setCtx ctx d) := ⟨rfl, rfl, rfl⟩
  rw [takeTrap_eq]
  exact .ite (two ..) (.ite (two ..) (.ite (two ..) (hn.trans (actorsKept_close ..))))

theorem actorsKept_endAsFail (s : State) (ctx hnum cause : Nat) (tval : W64) : ActorsKept s (s.endAsFail ctx hnum cause tval) := by
  unfold State.endAsFail
  split
  · exact ⟨rfl, rfl, rfl⟩
  · split
    · exact .ite (actorsKept_close ..) (.refl s)
    · exact .refl s

theorem actorsKept_poisonStop (s : State) (f : Flight) : ActorsKept s (s.poisonStop f) := by
  have hd : ActorsKept s (s.dropFlight f.id) := ⟨rfl, rfl, rfl⟩
  have hs (u : State) : ActorsKept u (u.dropStall f.ctx f.until_) := ⟨rfl, rfl, rfl⟩
  unfold State.poisonStop
  refine .ite hd ?_
  split
  · exact hd.trans (actorsKept_endAsFail ..)
  · exact (hd.trans (hs _)).trans (actorsKept_takeTrap ..)

theorem actorsKept_makeRoom (s : State) (cl : Nat) : ActorsKept s (s.makeRoom cl) := by
  unfold State.makeRoom
  split
  · exact .refl s
  · refine .ite (.refl s) ?_
    split <;> exact ⟨rfl, rfl, rfl⟩

theorem actorsKept_fillLine (s : State) (cl key : Nat) : ActorsKept s (s.fillLine cl key).1 := by
  unfold State.fillLine
  split
  · exact .refl s
  · exact (actorsKept_makeRoom s cl).trans ⟨rfl, rfl, rfl⟩

theorem actorsKept_fetchData (s : State) (f : Flight) : ActorsKept s (s.fetchData f).1 := by
  unfold State.fetchData
  split
  · exact actorsKept_fillLine ..
  · exact .refl s

theorem actorsKept_storeData (s : State) (f : Flight) (v : Nat) : ActorsKept s (s.storeData f v) := by
  have hw (u : State) (cl key n v : Nat) : ActorsKept u (u.cacheWrite cl key n v) := (actorsKept_fillLine u cl key).trans ⟨rfl, rfl, rfl⟩
  have hm : ActorsKept s (s.write f.key f.size v) := ⟨rfl, rfl, rfl⟩
  unfold State.storeData
  dsimp only
  exact (ActorsKept.ite (hw ..) hm).trans (actorsKept_clearPoison ..)

theorem actorsKept_landed (s : State) (f : Flight) : ActorsKept s (s.landed f) := by
  obtain ⟨_, h⟩ := landed_frame s f
  rw [h]
  exact ⟨rfl, rfl, rfl⟩

theorem actorsKept_replyTo (s : State) (ctx : Nat) (dst : Option Nat) (v : W64) : ActorsKept s (s.replyTo ctx dst v) := by
  obtain ⟨_, h⟩ := replyTo_frame s ctx dst v
  rw [h]
  exact ⟨rfl, rfl, rfl⟩

theorem actorsKept_replyBoth (s : State) (ctx : Nat) (d : Option Nat) (v : W64) (e : Option Nat) (w : W64) :
    ActorsKept s (s.replyBoth ctx d v e w) := by
  have hf : ActorsKept s s.freshNat.1 := ⟨rfl, rfl, rfl⟩
  unfold State.replyBoth
  exact .ite (hf.trans (actorsKept_replyTo ..)) ((actorsKept_replyTo ..).trans (actorsKept_replyTo ..))

theorem actorsKept_setTag (s : State) (k : Nat) (b : Bool) : ActorsKept s (s.setTag k b) := ⟨rfl, rfl, rfl⟩

theorem actorsKept_writeBack (s : State) (cl : Nat) (p : Line → Bool) (inval : Bool) : ActorsKept s (s.writeBack cl p inval) :=
  actorsKept_onlyTables (onlyTables_writeBack ..)

theorem actorsKept_performNow (s : State) (f : Flight) : ActorsKept s (s.performNow f) := by
  have hr : ActorsKept s (if s.recalls f then s.recall f.key else s) := .ite (actorsKept_onlyTables (onlyTables_recall ..)) (.refl s)
  unfold State.performNow
  dsimp only
  generalize (if s.recalls f then s.recall f.key else s) = u at hr ⊢
  refine hr.trans ?_
  have fetched := actorsKept_fetchData u f
  have tagged (t : State) (p : Prop) [Decidable p] (b : Bool) : ActorsKept t (if p then t.setTag f.key b else t) := .ite ⟨rfl, rfl, rfl⟩ (.refl t)
  have answered (t : State) (v : W64) : ActorsKept t ((t.replyTo f.ctx f.dst v).landed f) := (actorsKept_replyTo ..).trans (actorsKept_landed ..)
  cases f.op
  case load | acq | ldfe | ldff =>
    refine .ite (actorsKept_poisonStop u f) (fetched.trans ?_)
    generalize (u.fetchData f).1 = t
    refine .trans ?_ (actorsKept_landed _ f)
    refine .trans ?_ (.ite (actorsKept_writeBack _ _ _ _) (.refl _))
    exact (tagged t _ false).trans (actorsKept_replyBoth ..)
  case store | rel => exact (actorsKept_storeData u f f.x.toNat).trans ((tagged _ _ _).trans (actorsKept_landed ..))
  case ldtag => exact answered ..
  case stef | stff => exact .ite (((actorsKept_storeData u f f.x.toNat).trans (actorsKept_setTag ..)).trans (answered ..)) (answered ..)
  case tclr | tfill => exact (actorsKept_setTag ..).trans (actorsKept_landed ..)
  case atomic => exact .ite (actorsKept_poisonStop u f) ((fetched.trans (actorsKept_storeData ..)).trans (answered ..))

theorem actorsKept_serve (n key : Nat) (s : State) : ActorsKept s (s.serve key n) := by
  induction n generalizing s with
  | zero => exact .refl s
  | succ n ih =>
    unfold State.serve
    split
    · exact (actorsKept_performNow ..).trans (ih _)
    · exact .refl s

theorem actorsKept_writeSlot (s : State) (k : Nat) (m : Msg) : ActorsKept s (s.writeSlot k m) := by
  have hb : ActorsKept s (s.writeBytes k (msgBytes m)) := ⟨rfl, rfl, rfl⟩
  exact (hb.trans (actorsKept_clearPoison ..)).trans ((actorsKept_setTag ..).trans (actorsKept_serve ..))

/-! ### Runs, records and journal entries -/

theorem actorsKept_emptySlots (s : State) (core off size : Nat) : ActorsKept s (s.emptySlots core off size) :=
  .foldl (fun s i => actorsKept_setTag s (slotKey core off size i) false) _ s

theorem actorsKept_copyWords (s : State) (src dst n : Nat) : ActorsKept s (s.copyWords src dst n) := by
  have hb : ActorsKept s (s.writeBytes dst (memBytes s.mem src n)) := ⟨rfl, rfl, rfl⟩
  refine hb.trans (.foldl (fun u w => ?_) _ _)
  exact ⟨rfl, rfl, rfl⟩

theorem actorsKept_journalAdd (s : State) (kind die vf : Nat) (body : List W64) : ActorsKept s (s.journalAdd kind die vf body) := by
  obtain ⟨_, _, _, h⟩ := journalAdd_frame s kind die vf body
  rw [h]
  exact ⟨rfl, rfl, rfl⟩

theorem actorsKept_dirDrop (s : State) (d k : Nat) : ActorsKept s (s.dirDrop d k) := ⟨rfl, rfl, rfl⟩

theorem actorsKept_createState (s : State) (r : ClassRec) (k : Nat) : ActorsKept s (s.createState r k) := by
  have hb : ActorsKept s (s.writeBytes k (memBytes s.mem r.tphys r.size)) := ⟨rfl, rfl, rfl⟩
  have hz (m : List Host.Cell) : ActorsKept s { s with mem := m } := ⟨rfl, rfl, rfl⟩
  have hw (u : State) (a : Nat) (p : Bool) : ActorsKept u ((u.setTag a true).setPoison a p) := ⟨rfl, rfl, rfl⟩
  unfold State.createState
  dsimp only
  exact .trans (.ite hb (hz _)) (.foldl (fun u a => hw u a _) _ _)

theorem actorsKept_fetchState (s : State) (r : ClassRec) (m : Moor) (k : Nat) : ActorsKept s (s.fetchState r m k) := by
  unfold State.fetchState
  split
  · exact (actorsKept_copyWords ..).trans (actorsKept_dirDrop ..)
  · exact actorsKept_createState ..

theorem actorsKept_writeBytes (s : State) (k : Nat) (bs : List Byte) : ActorsKept s (s.writeBytes k bs) := ⟨rfl, rfl, rfl⟩

theorem actorsKept_write64 (s : State) (k : Nat) (v : W64) : ActorsKept s (s.write64 k v) := ⟨rfl, rfl, rfl⟩

theorem actorsKept_layUp (s : State) (r : ClassRec) (m : Moor) (src slot : Nat) : ActorsKept s (s.layUp r m src slot) := by
  have hd (u : State) (d : Nat) : ActorsKept u (u.dirCount d true) := ⟨rfl, rfl, rfl⟩
  unfold State.layUp
  dsimp only
  refine .trans ?_ (hd _ _)
  refine .trans ?_ (actorsKept_copyWords ..)
  refine .trans ?_ (actorsKept_clearPoison ..)
  exact ((actorsKept_writeBytes ..).trans (actorsKept_write64 ..)).trans (actorsKept_write64 ..)

/-! ### Berths -/

theorem actorsKept_takeRun (s : State) (core len : Nat) : ActorsKept s (s.takeRun core len).1 := by
  unfold State.takeRun
  dsimp only
  split <;> exact ⟨rfl, rfl, rfl⟩

theorem actorsKept_replay (s : State) (kind : Nat) (p : (Nat → W64) → Bool) : ActorsKept s (s.replay kind p).1 := by
  unfold State.replay
  dsimp only
  split <;> exact ⟨rfl, rfl, rfl⟩

theorem actorsKept_noteBerth (s : State) (r : ClassRec) (key : W64) (core : Nat) : ActorsKept s (s.noteBerth r key core) := by
  unfold State.noteBerth
  exact .ite (actorsKept_replay ..) (actorsKept_journalAdd ..)

/-- Berth and chosen core alone of an entry differ. -/
def Berths (m n : Moor) : Prop := n = { m with berth := n.berth, chosen := n.chosen }

theorem takeBerth_berths (s : State) (r : ClassRec) (m : Moor) (c : Nat) :
    ActorsKept s (s.takeBerth r m c).1 ∧ Berths m (s.takeBerth r m c).2 := by
  have ht := actorsKept_takeRun s c (runLen m.size)
  unfold State.takeBerth
  generalize s.takeRun c (runLen m.size) = x at ht ⊢
  obtain ⟨u, _ | o⟩ := x
  · exact ⟨ht, rfl⟩
  · exact ⟨ht.trans ((actorsKept_noteBerth ..).trans (actorsKept_emptySlots ..)), rfl⟩

theorem findBerth_berths (s : State) (m : Moor) : ActorsKept s (s.findBerth m).1 ∧ Berths m (s.findBerth m).2 := by
  unfold State.findBerth
  split
  · exact takeBerth_berths ..
  · split
    · exact takeBerth_berths ..
    · exact ⟨.refl s, rfl⟩
    · exact ⟨.refl s, rfl⟩
  · exact ⟨.refl s, rfl⟩

/-! ## Pending messages -/

/-- The messages of an entry, in order: those in its slots, then those in its chamber. -/
def Moor.pending (m : Moor) : List Msg := m.mailbox.map (·.2.2) ++ m.chamber

/-- Messages of an entry have moved from its chamber into its slots, in order. -/
structure Drained (m n : Moor) : Prop where
  rest    : n = { m with chamber := n.chamber, mailbox := n.mailbox }
  pending : n.pending = m.pending

theorem Drained.refl (m : Moor) : Drained m m := ⟨rfl, rfl⟩

theorem Drained.trans {m n k : Moor} (h : Drained m n) (g : Drained n k) : Drained m k := by
  refine ⟨?_, g.pending.trans h.pending⟩
  have := h.rest
  rw [g.rest, this]

/-- A message is in its slot, has its place in the arrival order, and is heard by its core. -/
def State.fillSlot (s : State) (core k : Nat) (msg : Msg) : State :=
  ({ s.writeSlot k msg with arrival := (s.writeSlot k msg).arrival + 1 } : State).wakeIdle core

theorem actorsKept_fillSlot (s : State) (core k : Nat) (msg : Msg) : ActorsKept s (s.fillSlot core k msg) :=
  (actorsKept_writeSlot s k msg).trans ⟨rfl, rfl, rfl⟩

/-- Messages move from chamber to slots one by one. -/
theorem drainChamber_drained (n : Nat) (s : State) (m : Moor) : ActorsKept s (s.drainChamber m n).1 ∧ Drained m (s.drainChamber m n).2 := by
  induction n generalizing s m with
  | zero => exact ⟨.refl s, .refl m⟩
  | succ n ih =>
    unfold State.drainChamber
    split
    next msg rest core off hc hb =>
      split
      next i hi =>
        obtain ⟨hk, hd⟩ := ih (s.fillSlot core (slotKey core off m.size i) msg)
          { m with chamber := rest, mailbox := m.mailbox ++ [(i, (s.writeSlot (slotKey core off m.size i) msg).arrival, msg)] }
        refine ⟨(actorsKept_fillSlot s core (slotKey core off m.size i) msg).trans hk, .trans ⟨rfl, ?_⟩ hd⟩
        simp [Moor.pending, hc]
      next => exact ⟨.refl s, .refl m⟩
    next => exact ⟨.refl s, .refl m⟩

theorem drainChamber_empty {m : Moor} (h : m.chamber = []) (s : State) (n : Nat) : s.drainChamber m n = (s, m) := by
  cases n with
  | zero => rfl
  | succ n =>
    unfold State.drainChamber
    rw [h]

end Sys2Proof.Machine
end

section
/-! The events of R38 to R51 one by one. -/

namespace Sys2Proof.Machine

/-! ## Entries and what replaces them -/

section
variable {s : State} {cls : Nat} {key : W64} {m n : Moor}

theorem moor?_key (h : s.moor? cls key = some m) : m.cls = cls ∧ m.key = key := by
  have := List.find?_some h
  simp_all

/-- An entry that is replaced is found as it has become. -/
theorem moor?_setMoor (h : s.moor? cls key = some m) (hc : n.cls = cls) (hk : n.key = key) : (s.setMoor n).moor? cls key = some n := by
  have hp : ((fun x : Moor => x.cls == cls && x.key == key) ∘ fun x => if x.cls == n.cls && x.key == n.key then n else x) =
      fun x => x.cls == cls && x.key == key := by
    funext x
    subst hc hk
    by_cases hx : x.cls = n.cls ∧ x.key = n.key
    · simp [hx]
    · simp [hx]
  obtain ⟨hmc, hmk⟩ := moor?_key h
  unfold State.moor? State.setMoor at *
  rw [List.find?_map, hp, h]
  simp [hmc, hmk, hc, hk]

/-- The same once other parts of the state have changed. -/
theorem ActorsKept.moor?_setMoor {u : State} (hu : ActorsKept s u) (h : s.moor? cls key = some m) (hc : n.cls = m.cls) (hk : n.key = m.key) :
    (u.setMoor n).moor? cls key = some n := by
  obtain ⟨hmc, hmk⟩ := moor?_key h
  exact Machine.moor?_setMoor ((hu.moor? cls key).trans h) (hc.trans hmc) (hk.trans hmk)

end

theorem setMoor_slice (s : State) (m : Moor) (i : Nat) : (s.setMoor m).slice i = s.slice i := rfl

/-! ## Messages at a slice (R36, R38, R40) -/

/-- A message has left the input of its slice, and the journal has it. -/
def State.taken (s : State) (slice : Nat) (m : Msg) (rest : List Msg) : State :=
  ((s.modSlice slice fun x => { x with input := rest, stoppedAt := none }).notInterrupt (.sliceInput slice)).journalMsg slice m

theorem taken_eq (s : State) (slice : Nat) (m : Msg) (rest : List Msg) : ∃ i mem a j, s.taken slice m rest =
    { s.modSlice slice (fun x => { x with input := rest, stoppedAt := none }) with interrupts := i, mem := mem, admin := a, journal := j } := by
  obtain ⟨_, _, _, h⟩ := journalAdd_frame
    ((s.modSlice slice fun x => { x with input := rest, stoppedAt := none }).notInterrupt (.sliceInput slice))
    1 (slice / 16) m.vf (BitVec.ofNat 64 slice :: (List.range 16).map (wordAt (msgBytes m)))
  exact ⟨_, _, _, _, h⟩

section
variable {s : State} {slice : Nat} {m : Msg} {rest : List Msg} {r : ClassRec}

theorem taken_moors : (s.taken slice m rest).moors = s.moors := by
  obtain ⟨_, _, _, _, h⟩ := taken_eq s slice m rest
  rw [h]
  rfl

theorem taken_cluster (i : Nat) : (s.taken slice m rest).cluster i = s.cluster i := by
  obtain ⟨_, _, _, _, h⟩ := taken_eq s slice m rest
  rw [h]
  rfl

theorem taken_slice : (s.taken slice m rest).slice slice = { s.slice slice with input := rest, stoppedAt := none } := by
  obtain ⟨_, _, _, _, h⟩ := taken_eq s slice m rest
  have hs := slice_modSlice s slice slice fun x => { x with input := rest, stoppedAt := none }
  rw [if_pos rfl] at hs
  rw [h]
  exact hs

theorem exec_messageArrive_none (h : (s.slice slice).input = []) : exec (.messageArrive slice) s = .next s := by
  rw [exec_messageArrive]
  unfold execMessageArrive
  rw [h]

section
variable (h : (s.slice slice).input = m :: rest)
include h

theorem exec_messageArrive_refused (hc : s.classFor m.vf m.cls = none) : exec (.messageArrive slice) s = .next ((s.taken slice m rest).refuse m) := by
  rw [exec_messageArrive]
  unfold execMessageArrive
  rw [h]
  dsimp only
  rw [hc]
  rfl

variable (hc : s.classFor m.vf m.cls = some r)
include hc

/-- A message of a class in use enters, or stops the input. -/
theorem exec_messageArrive_class : exec (.messageArrive slice) s =
    if s.hasPlace slice m then .next ((s.taken slice m rest).acceptMsg slice r m)
    else if (s.slice slice).stoppedAt.isSome then .next s
    else .next (s.modSlice slice fun x => { x with stoppedAt := some s.ptp }) := by
  rw [exec_messageArrive]
  unfold execMessageArrive
  rw [h]
  dsimp only
  rw [hc]
  rfl

theorem exec_messageArrive_enters (hp : s.hasPlace slice m = true) :
    exec (.messageArrive slice) s = .next ((s.taken slice m rest).acceptMsg slice r m) := (exec_messageArrive_class h hc).trans (if_pos hp)

theorem messageArrive_stalls (hp : s.hasPlace slice m = false) :
    Happens s (.messageArrive slice) ((s.slice slice).stoppedAt = none) (s.modSlice slice fun x => { x with stoppedAt := some s.ptp }) := by
  have go := (exec_messageArrive_class h hc).trans (if_neg (by simp [hp]))
  exact ⟨fun hs => go.trans (if_neg (by simp [hs])), fun hs => go.trans (if_pos (Option.isSome_iff_ne_none.2 hs))⟩

end

end

theorem actorsKept_refuse (s : State) (m : Msg) : ActorsKept s (s.refuse m) := .ite ⟨rfl, rfl, rfl⟩ (.refl s)

theorem refuse_counts (s : State) {m : Msg} (h : m.origin = 0) :
    ((s.refuse m).cluster (clusterOf (coreOf m.srcCtx))).refused = (s.cluster (clusterOf (coreOf m.srcCtx))).refused + 1 := by
  unfold State.refuse
  rw [if_pos h, cluster_modCluster, if_pos rfl]

section
variable {s : State} {slice : Nat} {r : ClassRec} {m : Msg} {e : Moor}

/-- A message that enters touches neither the input of its slice nor its stop. -/
theorem acceptMsg_slice (s : State) (slice : Nat) (r : ClassRec) (m : Msg) :
    ((s.acceptMsg slice r m).slice slice).input = (s.slice slice).input ∧ ((s.acceptMsg slice r m).slice slice).stoppedAt = (s.slice slice).stoppedAt := by
  unfold State.acceptMsg
  split
  next e he =>
    dsimp only
    split
    · obtain ⟨hk, -⟩ := drainChamber_drained 4 s { e with chamber := e.chamber ++ [m], eligible := none }
      rw [setMoor_slice, hk.slice]
      exact ⟨rfl, rfl⟩
    · exact ⟨rfl, rfl⟩
  next =>
    split
    · have hk := (findBerth_berths s (newMoor s r m.key [m])).1.slice slice
      exact ⟨congrArg Slice.input hk, congrArg Slice.stoppedAt hk⟩
    · rw [slice_modSlice, if_pos rfl]
      exact ⟨rfl, rfl⟩

theorem acceptMsg_chamber (he : s.moor? m.cls m.key = some e) (hs : e.st ≠ .moored) :
    s.acceptMsg slice r m = s.setMoor { e with chamber := e.chamber ++ [m], eligible := none } := by
  unfold State.acceptMsg
  rw [he]
  dsimp only
  rw [if_neg hs]

/-- A message for a moored actor follows those that the actor has. -/
theorem acceptMsg_moored (he : s.moor? m.cls m.key = some e) (hs : e.st = .moored) :
    ∃ f, (s.acceptMsg slice r m).moor? m.cls m.key = some f ∧ f.eligible = none ∧ f.pending = e.pending ++ [m] := by
  obtain ⟨hk, hd⟩ := drainChamber_drained 4 s { e with chamber := e.chamber ++ [m], eligible := none }
  have ha : s.acceptMsg slice r m = (s.drainChamber { e with chamber := e.chamber ++ [m], eligible := none } 4).1.setMoor
      (s.drainChamber { e with chamber := e.chamber ++ [m], eligible := none } 4).2 := by
    unfold State.acceptMsg
    rw [he]
    dsimp only
    rw [if_pos hs]
  generalize s.drainChamber { e with chamber := e.chamber ++ [m], eligible := none } 4 = x at hk hd ha
  refine ⟨x.2, ?_, ?_, ?_⟩
  · rw [ha]
    exact hk.moor?_setMoor he (by rw [hd.rest]) (by rw [hd.rest])
  · rw [hd.rest]
  · rw [hd.pending]
    simp [Moor.pending]

end

/-- The stall of an input is told once (R40). -/
theorem sliceInputStallAlert_happens {s : State} {slice t : Nat} (h : (s.slice slice).stoppedAt = some t) :
    Happens s (.sliceInputStallAlert slice) (t + 100000 ≤ s.ptp) (s.interrupt (.sliceInput slice)) := by
  unfold Happens
  rw [exec_sliceInputStallAlert]
  unfold execSliceInputStallAlert
  rw [h]
  exact ⟨fun hp => if_pos hp, fun hp => if_neg hp⟩

/-! ## Mooring (R41, R42) -/

section
variable {s v : State} {cls : Nat} {key : W64} {m n : Moor} {r : ClassRec}

theorem exec_mooringComplete_idle (hm : s.moor? cls key = some m) (hr : s.class? cls = some r) (hs : m.st ≠ .mooring) :
    exec (.mooringComplete cls key) s = .next s := by
  rw [exec_mooringComplete]
  unfold execMooringComplete
  rw [hm, hr]
  exact if_pos hs

/-- Where an entry that is mooring looks for its berth. -/
theorem seekBerth_berths (hu : (if m.chosen.isSome = true then s.findBerth m else (s, m)) = (v, n)) : ActorsKept s v ∧ Berths m n := by
  split at hu
  · have := findBerth_berths s m
    rw [hu] at this
    exact this
  · obtain ⟨rfl, rfl⟩ := Prod.mk.inj hu
    exact ⟨.refl s, rfl⟩

section
variable (hm : s.moor? cls key = some m) (hr : s.class? cls = some r) (hs : m.st = .mooring)
  (hu : (if m.chosen.isSome = true then s.findBerth m else (s, m)) = (v, n))
include hm hr hs hu

theorem exec_mooringComplete_unberthed (hb : n.berth = none) : exec (.mooringComplete cls key) s = .next v := by
  rw [exec_mooringComplete]
  unfold execMooringComplete
  rw [hm, hr]
  dsimp only
  rw [if_neg (not_not.2 hs), hu]
  dsimp only
  rw [hb]

variable {c o : Nat} (hb : n.berth = some (c, o))
include hb

/-- An entry with a berth is held, waits, or brings its state in and drains its chamber. -/
theorem exec_mooringComplete_berthed : exec (.mooringComplete cls key) s =
    if v.dirHeld r.dir then .next ((v.setMoor n).holdOp n)
    else if v.dirTurn r.dir n.held = false ∨ v.stateHere r n = false then .next (v.setMoor n)
    else
      let w := v.fetchState r n (localKey c o)
      let x := w.drainChamber { n with st := .moored, lastBusy := w.ptp, held := none } 4
      .next (x.1.setMoor x.2) := by
  rw [exec_mooringComplete]
  unfold execMooringComplete
  rw [hm, hr]
  dsimp only
  rw [if_neg (not_not.2 hs), hu]
  dsimp only
  rw [hb]

theorem exec_mooringComplete_held (hd : v.dirHeld r.dir = true) : exec (.mooringComplete cls key) s = .next ((v.setMoor n).holdOp n) :=
  (exec_mooringComplete_berthed hm hr hs hu hb).trans (if_pos hd)

theorem exec_mooringComplete_waits (hd : v.dirHeld r.dir = false) (hw : v.dirTurn r.dir n.held = false ∨ v.stateHere r n = false) :
    exec (.mooringComplete cls key) s = .next (v.setMoor n) :=
  (exec_mooringComplete_berthed hm hr hs hu hb).trans ((if_neg (by simp [hd])).trans (if_pos hw))

/-- The state comes into the berth, and messages into the mailbox. -/
theorem mooringComplete_moors (hd : v.dirHeld r.dir = false) (ht : v.dirTurn r.dir n.held = true) (hh : v.stateHere r n = true) :
    ∃ t, exec (.mooringComplete cls key) s = .next t ∧ ∃ f, t.moor? cls key = some f ∧
      f.st = .moored ∧ f.berth = some (c, o) ∧ f.held = none ∧ f.pending = m.pending := by
  obtain ⟨hk, hn⟩ := seekBerth_berths hu
  have go := (exec_mooringComplete_berthed hm hr hs hu hb).trans ((if_neg (by simp [hd])).trans (if_neg (by simp [ht, hh])))
  have hf := actorsKept_fetchState v r n (localKey c o)
  dsimp only at go
  generalize v.fetchState r n (localKey c o) = w at hf go
  obtain ⟨hw, hd'⟩ := drainChamber_drained 4 w { n with st := .moored, lastBusy := w.ptp, held := none }
  generalize w.drainChamber { n with st := .moored, lastBusy := w.ptp, held := none } 4 = x at hw hd' go
  refine ⟨_, go, x.2, ?_, ?_, ?_, ?_, ?_⟩
  · exact ((hk.trans hf).trans hw).moor?_setMoor hm (by rw [hd'.rest, hn]) (by rw [hd'.rest, hn])
  · rw [hd'.rest]
  · rw [hd'.rest]
    exact hb
  · rw [hd'.rest]
  · rw [hd'.pending, hn]
    rfl

end

end

/-! ## Slots that handlers leave (R49) -/

section
variable {s : State} {cls : Nat} {key : W64} {m : Moor}

theorem exec_mailboxSlotFreed_stays (hm : s.moor? cls key = some m) (h : m.busy = false ∨ s.handling m = true) :
    exec (.mailboxSlotFreed cls key) s = .next s := by
  rw [exec_mailboxSlotFreed]
  unfold execMailboxSlotFreed
  rw [hm]
  dsimp only
  split
  · exact if_pos h
  · rfl

/-- A slot is emptied, and takes the next chamber message while the actor is moored. -/
theorem mailboxSlotFreed_frees {i c o : Nat} (hm : s.moor? cls key = some m) (hy : m.busy = true) (hh : s.handling m = false) (hi : m.handled = some i)
    (hb : m.berth = some (c, o)) : ∃ t, exec (.mailboxSlotFreed cls key) s = .next t ∧
      (∃ n, t.moor? cls key = some n ∧ n.busy = false ∧ n.handled = none ∧ n.eligible = m.eligible ∧ n.pending = m.pending) ∧
      (m.chamber = [] → t.isFull (slotKey c o m.size i) = false) := by
  have hk := actorsKept_setTag s (slotKey c o m.size i) false
  have hf := isFull_setTag s (slotKey c o m.size i) false
  have go : exec (.mailboxSlotFreed cls key) s = if m.st = .moored
      then .next (((s.setTag (slotKey c o m.size i) false).drainChamber { m with busy := false, handled := none, lastBusy := s.ptp } 4).1.setMoor
        ((s.setTag (slotKey c o m.size i) false).drainChamber { m with busy := false, handled := none, lastBusy := s.ptp } 4).2)
      else .next ((s.setTag (slotKey c o m.size i) false).setMoor { m with busy := false, handled := none, lastBusy := s.ptp }) := by
    rw [exec_mailboxSlotFreed]
    unfold execMailboxSlotFreed
    rw [hm]
    dsimp only
    rw [hi, hb]
    dsimp only
    rw [if_neg (by simp [hy, hh])]
    rfl
  generalize s.setTag (slotKey c o m.size i) false = u at hk hf go
  rw [go]
  split
  · obtain ⟨hw, hd⟩ := drainChamber_drained 4 u { m with busy := false, handled := none, lastBusy := s.ptp }
    have he (h : m.chamber = []) := drainChamber_empty (m := { m with busy := false, handled := none, lastBusy := s.ptp }) h u 4
    generalize u.drainChamber { m with busy := false, handled := none, lastBusy := s.ptp } 4 = x at hw hd he
    refine ⟨_, rfl, ⟨x.2, ?_, ?_, ?_, ?_, ?_⟩, fun h => ?_⟩
    · exact (hk.trans hw).moor?_setMoor hm (by rw [hd.rest]) (by rw [hd.rest])
    · rw [hd.rest]
    · rw [hd.rest]
    · rw [hd.rest]
    · rw [hd.pending]
      rfl
    · rw [he h]
      exact hf
  · exact ⟨_, rfl, ⟨_, hk.moor?_setMoor hm rfl rfl, rfl, rfl, rfl, rfl⟩, fun _ => hf⟩

end

/-- An event of an entry that is not there changes nothing. -/
theorem exec_moorEvents_none {s : State} {cls : Nat} {key : W64} (h : s.moor? cls key = none) : exec (.mooringComplete cls key) s = .next s ∧
    exec (.mailboxSlotFreed cls key) s = .next s ∧ exec (.unmoorOrder cls key) s = .next s ∧ exec (.unmoorComplete cls key) s = .next s ∧
    exec (.idleLimitExpire cls key) s = .next s ∧ exec (.shiftComplete cls key) s = .next s := by
  rw [exec_mooringComplete, exec_mailboxSlotFreed, exec_unmoorOrder, exec_unmoorComplete, exec_idleLimitExpire, exec_shiftComplete]
  unfold execMooringComplete execMailboxSlotFreed execUnmoorOrder execUnmoorComplete execIdleLimitExpire execShiftComplete
  rw [h]
  exact ⟨rfl, rfl, rfl, rfl, rfl, rfl⟩

/-! ## Lay-up (R43, R44, R413) -/

section
variable {s : State} {cls core : Nat} {key : W64} {m : Moor} {r : ClassRec}

theorem exec_layupRequest_stays (h : s.wantsSpace core = false ∨ s.oldestIdle core = none) : exec (.layupRequest core) s = .next s := by
  rw [exec_layupRequest]
  unfold execLayupRequest
  rcases h with h | h
  · rw [if_neg (by simp [h])]
  · rw [h]
    exact ite_self _

theorem exec_layupRequest_reserves (hw : s.wantsSpace core = true) (h : s.oldestIdle core = some m) :
    exec (.layupRequest core) s = .next (s.setMoor { m with reserved := true }) := by
  rw [exec_layupRequest]
  unfold execLayupRequest
  rw [if_pos hw, h]

theorem exec_unmoorOrder_stays (hm : s.moor? cls key = some m) (h : m.reserved = false) : exec (.unmoorOrder cls key) s = .next s := by
  rw [exec_unmoorOrder]
  unfold execUnmoorOrder
  rw [hm]
  exact if_pos h

theorem exec_unmoorOrder_reserved (hm : s.moor? cls key = some m) (h : m.reserved = true) : exec (.unmoorOrder cls key) s = .next (s.setMoor
    (if m.st = .moored ∧ m.eligible.isSome = true ∧ m.busy = false ∧ m.mailbox = [] ∧ m.chamber = []
     then { m with st := .unmooring, reserved := false } else { m with reserved := false })) := by
  rw [exec_unmoorOrder]
  unfold execUnmoorOrder
  rw [hm]
  dsimp only
  rw [if_neg (by simp [h])]
  split <;> rfl

theorem exec_unmoorComplete_stays (hm : s.moor? cls key = some m) (hr : s.class? cls = some r) (h : m.st ≠ .unmooring ∨ m.berth = none) :
    exec (.unmoorComplete cls key) s = .next s := by
  rw [exec_unmoorComplete]
  unfold execUnmoorComplete
  rw [hm, hr]
  dsimp only
  split
  · rfl
  next hb => exact if_pos (h.resolve_right (by simp [hb]))

section
variable {c o : Nat} (hm : s.moor? cls key = some m) (hr : s.class? cls = some r) (hs : m.st = .unmooring) (hb : m.berth = some (c, o))
include hm hr hs hb

/-- A lay-up is held, waits for its turn, asks for a larger directory, or writes the record. -/
theorem exec_unmoorComplete_berthed : exec (.unmoorComplete cls key) s =
    if s.dirHeld r.dir then .next (s.holdOp m)
    else if s.dirTurn r.dir m.held = false then .next s
    else match s.dirFree r.dir cls key with
      | none => .next ((s.growDir r.dir).holdOp m)
      | some slot =>
        let t := s.layUp r m (localKey c o) slot
        if m.chamber = [] then .next ((t.freeEntry m).retryMoorings c)
        else
          let m := { m with st := .mooring, berth := none, chosen := none, eligible := none, held := none }
          let x := (t.setMoor m).findBerth m
          .next ((x.1.setMoor x.2).retryMoorings c) := by
  rw [exec_unmoorComplete]
  unfold execUnmoorComplete
  rw [hm, hr]
  dsimp only
  rw [hb]
  exact if_neg (not_not.2 hs)

theorem exec_unmoorComplete_held (hd : s.dirHeld r.dir = true) : exec (.unmoorComplete cls key) s = .next (s.holdOp m) :=
  (exec_unmoorComplete_berthed hm hr hs hb).trans (if_pos hd)

theorem exec_unmoorComplete_waits (hd : s.dirHeld r.dir = false) (ht : s.dirTurn r.dir m.held = false) : exec (.unmoorComplete cls key) s = .next s :=
  (exec_unmoorComplete_berthed hm hr hs hb).trans ((if_neg (by simp [hd])).trans (if_pos ht))

section
variable (hd : s.dirHeld r.dir = false) (ht : s.dirTurn r.dir m.held = true)
include hd ht

theorem exec_unmoorComplete_grows (hf : s.dirFree r.dir cls key = none) :
    exec (.unmoorComplete cls key) s = .next ((s.growDir r.dir).holdOp m) := by
  refine (exec_unmoorComplete_berthed hm hr hs hb).trans ((if_neg (by simp [hd])).trans ((if_neg (by simp [ht])).trans ?_))
  rw [hf]

theorem exec_unmoorComplete_lays {k : Nat} (hf : s.dirFree r.dir cls key = some k) (hc : m.chamber = []) :
    exec (.unmoorComplete cls key) s = .next (((s.layUp r m (localKey c o) k).freeEntry m).retryMoorings c) := by
  refine (exec_unmoorComplete_berthed hm hr hs hb).trans ((if_neg (by simp [hd])).trans ((if_neg (by simp [ht])).trans ?_))
  rw [hf]
  exact if_pos hc

end

end

/-! ### Entries that try again -/

/-- The entries that a state has, by pair. -/
def State.pairs (s : State) : List (Nat × W64) := s.moors.map fun m => (m.cls, m.key)

theorem moor?_eq_none_iff (s : State) (cls : Nat) (key : W64) : s.moor? cls key = none ↔ (cls, key) ∉ s.pairs := by
  simp [State.moor?, State.pairs]

theorem pairs_setMoor (s : State) (m : Moor) : (s.setMoor m).pairs = s.pairs := by
  unfold State.pairs State.setMoor
  rw [List.map_map]
  refine List.map_congr_left fun x _ => ?_
  by_cases h : x.cls = m.cls ∧ x.key = m.key
  · simp [h]
  · simp [h]

/-- One entry tries again. -/
def State.retryMooring (core : Nat) (s : State) (m : Moor) : State :=
  let here := match s.class? m.cls with
    | some r => (candidates r (homeMooring m.cls m.key)).any (·.contains core)
    | none => false
  if m.st = .mooring ∧ m.berth = none ∧ m.chosen = none ∧ here = true then (s.findBerth m).1.setMoor (s.findBerth m).2 else s

theorem retryMoorings_eq (s : State) (core : Nat) : s.retryMoorings core = s.moors.foldl (State.retryMooring core) s := rfl

theorem pairs_retryMooring (s : State) (core : Nat) (m : Moor) : (s.retryMooring core m).pairs = s.pairs := by
  unfold State.retryMooring
  dsimp only
  generalize (match s.class? m.cls with
    | some r => (candidates r (homeMooring m.cls m.key)).any (·.contains core)
    | none => false) = here
  split
  · rw [pairs_setMoor]
    unfold State.pairs
    rw [(findBerth_berths s m).1.moors]
  · rfl

theorem pairs_retryMoorings (s : State) (core : Nat) : (s.retryMoorings core).pairs = s.pairs := by
  rw [retryMoorings_eq]
  generalize s.moors = l
  induction l generalizing s with
  | nil => rfl
  | cons x l ih => rw [List.foldl_cons, ih, pairs_retryMooring]

theorem retryMooring_settled {s : State} {m : Moor} (h : m.st = .mooring → m.berth.isSome = true ∨ m.chosen.isSome = true) (core : Nat) :
    s.retryMooring core m = s := by
  refine if_neg ?_
  rintro ⟨hs, hb, hc, -⟩
  simpa [hb, hc] using h hs

/-- Where every entry that is mooring has a berth or a core, none tries again. -/
theorem retryMoorings_settled {s : State} (h : ∀ x ∈ s.moors, x.st = .mooring → x.berth.isSome = true ∨ x.chosen.isSome = true) (core : Nat) :
    s.retryMoorings core = s := by
  have fold : ∀ l : List Moor, (∀ x ∈ l, x.st = .mooring → x.berth.isSome = true ∨ x.chosen.isSome = true) →
      l.foldl (State.retryMooring core) s = s := by
    intro l hl
    induction l with
    | nil => rfl
    | cons x l ih => rw [List.foldl_cons, retryMooring_settled (hl x (by simp)), ih fun y hy => hl y (by simp [hy])]
  exact fold s.moors h

/-- With nobody in the queue an entry that is freed is gone, and nothing else happens. -/
theorem freeEntry_alone {s : State} {m : Moor} (h : (s.slice (homeMooring m.cls m.key)).admission = []) : s.freeEntry m = s.dropMoor m := by
  unfold State.freeEntry
  dsimp only
  rw [h]
  rfl

theorem dropMoor_pairs (s : State) (m : Moor) : (m.cls, m.key) ∉ (s.dropMoor m).pairs := by
  simp only [State.pairs, State.dropMoor, List.mem_map, List.mem_filter, Prod.mk.injEq, not_exists, not_and]
  rintro x ⟨-, hx⟩ hc hk
  simp [hc, hk] at hx

/-- A lay-up that completes frees the entry, and writes nothing but its record unless another entry can moor. -/
theorem unmoorComplete_frees {c o k : Nat} (hm : s.moor? cls key = some m) (hr : s.class? cls = some r) (hs : m.st = .unmooring)
    (hd : s.dirHeld r.dir = false) (ht : s.dirTurn r.dir m.held = true) (hb : m.berth = some (c, o)) (hf : s.dirFree r.dir cls key = some k)
    (hc : m.chamber = []) (ha : (s.slice (homeMooring cls key)).admission = []) : ∃ t, exec (.unmoorComplete cls key) s = .next t ∧
      t.moor? cls key = none ∧
      ((∀ x ∈ s.moors, x.st = .mooring → x.berth.isSome = true ∨ x.chosen.isSome = true) → t.mem = (s.layUp r m (localKey c o) k).mem) := by
  have hk := actorsKept_layUp s r m (localKey c o) k
  obtain ⟨rfl, rfl⟩ := moor?_key hm
  refine ⟨_, exec_unmoorComplete_lays hm hr hs hb hd ht hf hc, ?_, fun hx => ?_⟩
  · rw [moor?_eq_none_iff, pairs_retryMoorings, freeEntry_alone (by rw [hk.slice, ha])]
    exact dropMoor_pairs _ _
  · rw [freeEntry_alone (by rw [hk.slice, ha]), retryMoorings_settled]
    · rfl
    · intro x hin
      refine hx x (hk.moors ▸ ?_)
      exact List.mem_of_mem_filter hin

theorem idleLimitExpire_happens (hm : s.moor? cls key = some m) (hr : s.class? cls = some r) :
    Happens s (.idleLimitExpire cls key) (m.st = .moored ∧ m.busy = false ∧ m.mailbox = [] ∧ m.chamber = [] ∧ m.eligible = none ∧
        r.idle ≠ 0 ∧ m.lastBusy + 1000 * r.idle.toNat ≤ s.ptp)
      ((s.setMoor { m with eligible := some s.ptp }).retryMoorings ((m.berth.map (·.1)).getD 4096)) := by
  unfold Happens
  rw [exec_idleLimitExpire]
  unfold execIdleLimitExpire
  rw [hm, hr]
  exact ⟨fun h => if_pos h, fun h => if_neg h⟩

/-! ## Shifts (R51) -/

theorem exec_shiftComplete_stays (hm : s.moor? cls key = some m) (h : m.st ≠ .shifting ∨ m.busy = true ∨ m.berth = none ∨ m.target = none) :
    exec (.shiftComplete cls key) s = .next s := by
  rw [exec_shiftComplete]
  unfold execShiftComplete
  rw [hm]
  dsimp only
  split
  next hb hq =>
    refine if_pos ?_
    simpa [hb, hq] using h
  next => rfl

/-- Messages that are carried keep their order. -/
theorem carry_carries (oc oo nc no size : Nat) (l : List (Nat × Nat × Msg)) (n : Nat) (s : State) :
    ActorsKept s (carry oc oo nc no size l n s).1 ∧ (carry oc oo nc no size l n s).2.map (·.2.2) = l.map (·.2.2) := by
  induction l generalizing n s with
  | nil => exact ⟨.refl s, rfl⟩
  | cons x l ih =>
    obtain ⟨i, a, m⟩ := x
    have hc := (actorsKept_copyWords s (slotKey oc oo size i) (slotKey nc no size n) 128).trans (actorsKept_setTag _ (slotKey nc no size n) true)
    unfold carry
    dsimp only
    generalize (s.copyWords (slotKey oc oo size i) (slotKey nc no size n) 128).setTag (slotKey nc no size n) true = u at hc
    obtain ⟨hk, hl⟩ := ih (n + 1) { u with arrival := u.arrival + 1 }
    refine ⟨hc.trans (.trans ?_ hk), ?_⟩
    · exact ⟨rfl, rfl, rfl⟩
    · rw [List.map_cons, hl]
      rfl

/-- State and messages are at the target, and no time of the actor has changed. -/
theorem shiftComplete_shifts {p q : Nat × Nat} (hm : s.moor? cls key = some m) (hs : m.st = .shifting) (hy : m.busy = false) (hb : m.berth = some p)
    (hq : m.target = some q) : ∃ t, exec (.shiftComplete cls key) s = .next t ∧ ∃ n, t.moor? cls key = some n ∧
      n.st = .moored ∧ n.berth = some q ∧ n.target = none ∧ n.lastBusy = m.lastBusy ∧ n.eligible = m.eligible ∧ n.pending = m.pending := by
  obtain ⟨c, o⟩ := p
  obtain ⟨c', o'⟩ := q
  have hk := (actorsKept_copyWords s (localKey c o) (localKey c' o') m.size).trans (actorsKept_emptySlots _ c' o' m.size)
  rw [exec_shiftComplete]
  unfold execShiftComplete
  rw [hm]
  dsimp only
  rw [hb, hq]
  dsimp only
  rw [if_neg (by simp [hs, hy])]
  generalize (s.copyWords (localKey c o) (localKey c' o') m.size).emptySlots c' o' m.size = u at hk
  obtain ⟨hc, hbox⟩ := carry_carries c o c' o' m.size m.mailbox 0 u
  generalize carry c o c' o' m.size m.mailbox 0 u = x at hc hbox
  obtain ⟨v, box⟩ := x
  have hw : ActorsKept v (if box = [] then v else v.wakeIdle c') := .ite (.refl v) ⟨rfl, rfl, rfl⟩
  dsimp only at hc hbox ⊢
  generalize (if box = [] then v else v.wakeIdle c') = w at hw
  obtain ⟨hd, hdr⟩ := drainChamber_drained 4 w { m with st := .moored, berth := some (c', o'), target := none, mailbox := box }
  generalize w.drainChamber { m with st := .moored, berth := some (c', o'), target := none, mailbox := box } 4 = y at hd hdr
  refine ⟨_, rfl, y.2, ?_, ?_, ?_, ?_, ?_, ?_, ?_⟩
  · exact (((hk.trans hc).trans hw).trans hd).moor?_setMoor hm (by rw [hdr.rest]) (by rw [hdr.rest])
  · rw [hdr.rest]
  · rw [hdr.rest]
  · rw [hdr.rest]
  · rw [hdr.rest]
  · rw [hdr.rest]
  · rw [hdr.pending]
    simp only [Moor.pending, hbox]

end

/-! ## Classes and directories (R366, R413, R414) -/

section
variable {s : State} {cls : Nat} {r : ClassRec}

/-- The bits of a register that have been set read as what was put there. -/
theorem regBits_setRegBits (s : State) (a : Nat) {hi lo : Nat} (v : Nat) (h64 : hi < 64) (hlo : lo ≤ hi) :
    (s.setRegBits a hi lo v).regBits a hi lo = v % 2 ^ (hi + 1 - lo) := by
  unfold State.regBits
  rw [reg_setRegBits_same, bitsOf_putBits_same _ h64 hlo]

/-- A command that is done goes no longer. -/
theorem clsGoing_clsDone (s : State) (op cls : Nat) : s.clsDone.clsGoing op cls = false := by
  have h : s.clsDone.regBits clscmd 63 63 = 0 := regBits_setRegBits s clscmd 0 (by omega) (by omega)
  unfold State.clsGoing
  rw [h]
  rfl

theorem exec_classRegister_stays (h : s.clsGoing 1 cls = false) : exec (.classRegister cls) s = .next s := by
  rw [exec_classRegister]
  exact if_pos h

/-- The words of the record that CLASS_REGISTER reads. -/
def State.classWords (s : State) (cls i : Nat) : W64 := s.read64 (s.regBits (moorBase + 0x800) 51 6 * 64 + 64 * cls + 8 * i)

/-- A registration is done, whatever its record says. -/
theorem classRegister_done (h : s.clsGoing 1 cls = true) : ∃ t, exec (.classRegister cls) s = .next t ∧ t.clsGoing 1 cls = false ∧
    t.classes = match s.classResolves (s.classWords cls) with
      | some k => if classOk (s.classWords cls) cls = true ∧ s.class? cls = none then s.classes ++ [classRec (s.classWords cls) cls k] else s.classes
      | none => s.classes := by
  have go : exec (.classRegister cls) s = match s.classResolves (s.classWords cls) with
      | some k => if classOk (s.classWords cls) cls = true ∧ s.class? cls = none
          then .next ({ s with classes := s.classes ++ [classRec (s.classWords cls) cls k] } : State).clsDone else .next s.clsDone
      | none => .next s.clsDone := by
    rw [exec_classRegister]
    exact if_neg (by simp [h])
  rw [go]
  cases s.classResolves (s.classWords cls) with
  | none => exact ⟨_, rfl, clsGoing_clsDone s 1 cls, rfl⟩
  | some k =>
    dsimp only
    split
    · exact ⟨_, rfl, clsGoing_clsDone _ 1 cls, rfl⟩
    · exact ⟨_, rfl, clsGoing_clsDone s 1 cls, rfl⟩

theorem exec_classWithdraw_stays (h : s.clsGoing 2 cls = false) : exec (.classWithdraw cls) s = .next s := by
  rw [exec_classWithdraw]
  exact if_pos h

/-- No function may use a class of which every record is leaving. -/
theorem classFor_eq_none {vf : Nat} (h : ∀ c ∈ s.classes, c.num = cls → c.leaving = true) : s.classFor vf cls = none := by
  refine List.find?_eq_none.2 fun c hc => ?_
  by_cases hn : c.num = cls
  · simp [h c hc hn]
  · simp [hn]

/-- A class that is withdrawn takes no more messages, and its actors stay. -/
theorem classWithdraw_stops (h : s.clsGoing 2 cls = true) :
    ∃ t, exec (.classWithdraw cls) s = .next t ∧ (∀ vf, t.classFor vf cls = none) ∧ t.moors = s.moors := by
  have hg : ¬ s.clsGoing 2 cls = false := by simp [h]
  rw [exec_classWithdraw]
  unfold execClassWithdraw
  rw [if_neg hg]
  split
  next hn =>
    refine ⟨_, rfl, fun vf => classFor_eq_none fun c hc hnum => ?_, rfl⟩
    have hn' := List.find?_eq_none.1 (Option.isNone_iff_eq_none.1 hn) c hc
    simp [hnum] at hn'
  next =>
    refine ⟨_, rfl, fun vf => classFor_eq_none fun c hc hnum => ?_, rfl⟩
    obtain ⟨x, -, rfl⟩ := List.mem_map.1 hc
    by_cases hx : x.num = cls
    · rw [if_pos hx]
    · rw [if_neg hx] at hnum
      exact absurd hnum hx

theorem exec_classWithdrawDone_stays (h : s.class? cls = none) : exec (.classWithdrawDone cls) s = .next s := by
  rw [exec_classWithdrawDone]
  unfold execClassWithdrawDone
  rw [h]

theorem classWithdrawDone_happens (h : s.class? cls = some r) : Happens s (.classWithdrawDone cls)
    (r.leaving = true ∧ (∀ m ∈ s.moors, m.cls ≠ cls) ∧ ∀ x ∈ s.images, ∀ m ∈ x.moors, m.cls ≠ cls)
    (({ s with classes := s.classes.filter (·.num ≠ cls) } : State).setRegBits clscmd 63 63 0) := by
  have hc : (r.leaving = true ∧ (s.moors.any (·.cls == cls)) = false ∧ (s.images.any fun x => x.moors.any (·.cls == cls)) = false) ↔
      r.leaving = true ∧ (∀ m ∈ s.moors, m.cls ≠ cls) ∧ ∀ x ∈ s.images, ∀ m ∈ x.moors, m.cls ≠ cls := by
    simp
  unfold Happens
  rw [← hc, exec_classWithdrawDone]
  unfold execClassWithdrawDone
  rw [h]
  exact ⟨fun hp => if_pos hp, fun hp => if_neg hp⟩

theorem exec_directoryResume_stays {dir : Nat} (h : 64 ≤ dir) : exec (.directoryResume dir) s = .next s := by
  rw [exec_directoryResume]
  exact if_pos h

/-- A directory that is resumed is held no longer, and its interrupt is gone. -/
theorem directoryResume_resumes {dir : Nat} (h : dir < 64) :
    ∃ t, exec (.directoryResume dir) s = .next t ∧ t.dirHeld dir = false ∧ t.mem = s.mem ∧ .directory dir ∉ t.interrupts := by
  have hreg : dirReg dir 3 ≠ dirReg dir 2 := by
    unfold dirReg
    omega
  rw [exec_directoryResume]
  unfold execDirectoryResume
  rw [if_neg (by omega)]
  refine ⟨_, rfl, ?_, rfl, ?_⟩
  · generalize BitVec.ofNat 64 _ = count
    have hb : (((s.setRegBits (dirReg dir 3) 0 0 0).setReg (dirReg dir 2) count).notInterrupt (.directory dir)).regBits (dirReg dir 3) 0 0 = 0 := by
      have hs : (s.setRegBits (dirReg dir 3) 0 0 0).regBits (dirReg dir 3) 0 0 = 0 := regBits_setRegBits s (dirReg dir 3) 0 (by omega) (by omega)
      have hr := reg_setReg (s.setRegBits (dirReg dir 3) 0 0 0) (dirReg dir 2) (dirReg dir 3) count
      rw [if_neg hreg] at hr
      exact (congrArg (bitsOf · 0 0) hr).trans hs
    unfold State.dirHeld
    rw [hb]
    rfl
  · simp [State.notInterrupt]

end

end Sys2Proof.Machine

open Sys2Proof Sys2Proof.Machine

/-- Settles O52: an event whose condition fails has a lemma that it changes nothing, and one that happens has a lemma of its own; messages
keep their order by `drainChamber_drained` and `carry_carries`, and what the rest of a step leaves alone is `ActorsKept`. -/
theorem actorEvents : Obligations.ActorEvents := by
  intro s slice core cls dir key
  refine ⟨exec_messageArrive_none, fun m rest h => ⟨fun hc => ?_, fun r hc => ⟨fun hp => ?_, messageArrive_stalls h hc⟩⟩, fun h => ?_,
    fun t h => sliceInputStallAlert_happens h, exec_moorEvents_none, exec_layupRequest_stays, fun m hw h => exec_layupRequest_reserves hw h, fun m hm => ?_,
    exec_classRegister_stays, classRegister_done, exec_classWithdraw_stays, classWithdraw_stops, exec_classWithdrawDone_stays,
    fun r h => classWithdrawDone_happens h, exec_directoryResume_stays, directoryResume_resumes⟩
  · refine ⟨_, exec_messageArrive_refused h hc, ?_, fun ho => ?_, ?_⟩
    · rw [(actorsKept_refuse ..).slice, taken_slice]
    · rw [refuse_counts _ ho, taken_cluster]
    · rw [(actorsKept_refuse ..).moors, taken_moors]
  · have hk : ∀ e, s.moor? m.cls m.key = some e → (s.taken slice m rest).moor? m.cls m.key = some e := by
      intro e he
      unfold State.moor?
      rw [taken_moors]
      exact he
    obtain ⟨hi, hs⟩ := acceptMsg_slice (s.taken slice m rest) slice r m
    rw [taken_slice] at hi hs
    refine ⟨_, exec_messageArrive_enters h hc hp, hi, hs, fun e he hst => ?_, fun e he hst => ?_⟩
    · obtain ⟨hcls, hkey⟩ := moor?_key he
      rw [acceptMsg_chamber (hk e he) hst]
      exact ⟨_, moor?_setMoor (hk e he) hcls hkey, rfl, rfl, rfl⟩
    · obtain ⟨f, hf, hel, hpe⟩ := acceptMsg_moored (slice := slice) (r := r) (hk e he) hst
      exact ⟨f, hf, hel, hpe⟩
  · rw [exec_sliceInputStallAlert]
    unfold execSliceInputStallAlert
    rw [h]
  · intro is
    refine ⟨fun r hr => ⟨?_, exec_unmoorComplete_stays hm hr, fun b hs hb => ⟨exec_unmoorComplete_held hm hr hs hb, exec_unmoorComplete_waits hm hr hs hb,
        exec_unmoorComplete_grows hm hr hs hb⟩, fun c o k hs hd ht hb hf hc ha => unmoorComplete_frees hm hr hs hd ht hb hf hc ha,
        idleLimitExpire_happens hm hr⟩,
      exec_mailboxSlotFreed_stays hm, fun i c o hy hh hi hb => mailboxSlotFreed_frees hm hy hh hi hb, exec_unmoorOrder_stays hm, exec_unmoorOrder_reserved hm,
      exec_shiftComplete_stays hm, fun p q hs hy hb hq => shiftComplete_shifts hm hs hy hb hq⟩
    intro u
    have hu : (if m.chosen.isSome = true then s.findBerth m else (s, m)) = (u.1, u.2) := rfl
    exact ⟨exec_mooringComplete_idle hm hr, fun hs hb => exec_mooringComplete_unberthed hm hr hs hu hb,
      fun c o hs hb => ⟨exec_mooringComplete_held hm hr hs hu hb, exec_mooringComplete_waits hm hr hs hu hb,
        mooringComplete_moors hm hr hs hu hb⟩⟩
end

section
/-! The ports: Ethernet, Towline and CXL (R53 to R56, R376 to R378). -/

namespace Sys2Proof.Machine

theorem ethPort_modEth (s : State) (i j : Nat) (f : EthPort → EthPort) :
    (s.modEth i f).ethPort j = if j = i then f (s.ethPort i) else s.ethPort j := by
  simp [State.ethPort, State.modEth, get_put]

/-! ## Frames (R53, R376) -/

section
variable {s : State} {port : Nat} {f : Frame}

theorem exec_ethernetFrame_disabled (h : (s.ethPort port).enabled = false) : exec (.ethernetFrame port f) s = .next s := by
  rw [exec_ethernetFrame]
  exact if_pos h

/-- Does a frame go to the RoCE engine? -/
def ToRoce (f : Frame) : Prop := f.isUdp = true ∧ f.dstPort = 4791

variable (he : (s.ethPort port).enabled = true)
include he

theorem exec_ethernetFrame_roce (h : ToRoce f) : exec (.ethernetFrame port f) s =
    match f.roce with
    | some r => .next (s.roce port f r)
    | none => .next (s.ethDrop port .roce) := by
  rw [exec_ethernetFrame]
  unfold execEthernetFrame
  rw [if_neg (by simp [he])]
  exact if_pos h

variable (h : ¬ ToRoce f)
include h

theorem exec_ethernetFrame_actor {vf : Nat} (ha : s.actorFrame port f = some vf) : exec (.ethernetFrame port f) s = .next (s.datagram port vf f) := by
  rw [exec_ethernetFrame]
  unfold execEthernetFrame
  rw [if_neg (by simp [he])]
  refine (if_neg h).trans ?_
  rw [ha]

theorem exec_ethernetFrame_rest (ha : s.actorFrame port f = none) : exec (.ethernetFrame port f) s =
    if f.isPtp then .next { s with timing := s.timing ++ [(port, f, s.ptp)] } else .next { s with toCleoz := s.toCleoz ++ [f] } := by
  rw [exec_ethernetFrame]
  unfold execEthernetFrame
  rw [if_neg (by simp [he])]
  refine (if_neg h).trans ?_
  rw [ha]

end

section
variable {s : State} {port : Nat} {f : Frame}

/-- Whose a datagram is that the port accepts. -/
theorem actorFrame_some {vf p : Nat} (hu : f.isUdp = true) (ha : (if f.ipv6 then (s.ethPort port).ipv6 else (s.ethPort port).ipv4) = true)
    (hf : List.find? (fun x : Nat × Nat => x.2 == f.dstPort) s.udpPorts = some (vf, p)) : s.actorFrame port f = some vf := by
  unfold State.actorFrame
  rw [hu, ha, hf]
  rfl

theorem actorFrame_none (h : ¬ ((∃ vf p, List.find? (fun x : Nat × Nat => x.2 == f.dstPort) s.udpPorts = some (vf, p)) ∧ f.isUdp = true ∧
    (if f.ipv6 then (s.ethPort port).ipv6 else (s.ethPort port).ipv4) = true)) : s.actorFrame port f = none := by
  unfold State.actorFrame
  generalize (if f.ipv6 then (s.ethPort port).ipv6 else (s.ethPort port).ipv4) = accepts at h ⊢
  split
  next hc =>
    rw [Bool.and_eq_true] at hc
    cases hf : List.find? (fun x : Nat × Nat => x.2 == f.dstPort) s.udpPorts with
    | none => rfl
    | some x => exact absurd ⟨⟨x.1, x.2, hf⟩, hc⟩ h
  next => rfl

end

/-! ### Drops -/

/-- The count of one cause among drops. -/
theorem find?_counted (x : EthDrop) (l : List (EthDrop × Nat)) :
    List.find? (fun d => d.1 == x) (if l.any (·.1 == x) then l.map fun d => if d.1 = x then (x, d.2 + 1) else d else l ++ [(x, 1)]) =
      some (x, match List.find? (fun d => d.1 == x) l with
        | some d => d.2 + 1
        | none => 1) := by
  have hp : ((fun d : EthDrop × Nat => d.1 == x) ∘ fun d => if d.1 = x then (x, d.2 + 1) else d) = fun d => d.1 == x := by
    funext d
    by_cases hd : d.1 = x
    · simp [hd]
    · simp [hd]
  cases hf : List.find? (fun d => d.1 == x) l with
  | none =>
    have hn : l.any (·.1 == x) = false := by simpa using hf
    rw [hn]
    simp [List.find?_append, hf]
  | some d =>
    have hd : d.1 = x := by simpa using List.find?_some hf
    have hy : l.any (·.1 == x) = true := List.any_eq_true.2 ⟨d, List.mem_of_find?_eq_some hf, by simp [hd]⟩
    rw [hy, if_pos rfl, List.find?_map, hp, hf]
    simp [hd]

theorem ethDrop_drops (s : State) (port : Nat) (x : EthDrop) : List.find? (fun d => d.1 == x) ((s.ethDrop port x).ethPort port).drops =
    some (x, match List.find? (fun d => d.1 == x) (s.ethPort port).drops with
      | some d => d.2 + 1
      | none => 1) := by
  unfold State.ethDrop
  rw [ethPort_modEth, if_pos rfl]
  exact find?_counted x _

/-! ### Ports that are enabled -/

section
variable {s : State} {phys : Nat}

theorem exec_ethernetPortEnable_stays (h : 2 ≤ phys ∨ s.boot.stage ≠ 3) (k : Nat) : exec (.ethernetPortEnable phys k) s = .next s := by
  rw [exec_ethernetPortEnable]
  exact if_pos h

/-- A logical port that is on, with an empty route table. -/
def State.portOn (s : State) (p : Nat) : State := s.modEth p fun e => { e with enabled := true, routes := [] }

variable (h : phys < 2) (hs : s.boot.stage = 3)
include h hs

theorem exec_ethernetPortEnable_whole : exec (.ethernetPortEnable phys 0) s =
    .next ((s.portOn (2 * phys)).modEth (2 * phys + 1) fun e => { e with enabled := false, routes := [] }) := by
  rw [exec_ethernetPortEnable]
  unfold execEthernetPortEnable
  exact (if_neg (by omega)).trans (if_pos rfl)

theorem exec_ethernetPortEnable_split : exec (.ethernetPortEnable phys 1) s = .next ((s.portOn (2 * phys)).portOn (2 * phys + 1)) := by
  rw [exec_ethernetPortEnable]
  unfold execEthernetPortEnable
  exact (if_neg (by omega)).trans (if_neg (by omega))

end

/-! ## Towline (R55, R56, R378) -/

section
variable {s : State} {m : Msg}

theorem exec_towlineMessage_refused {target : Nat} (h : target ≠ s.device ∨ s.boot.stage ≠ 3 ∨ 32 ≤ m.vf) :
    exec (.towlineMessage m target) s = .next s := by
  rw [exec_towlineMessage]
  exact if_pos h

variable (hs : s.boot.stage = 3) (hv : m.vf < 32)
include hs hv

theorem exec_towlineMessage_resident (hr : m.vf = s.resident) : exec (.towlineMessage m s.device) s =
    .next (s.modSlice (homeMooring m.cls m.key) fun x => { x with input := x.input ++ [{ m with origin := 1 }] }) := by
  rw [exec_towlineMessage]
  unfold execTowlineMessage
  exact (if_neg (by simp [hs, hv])).trans (if_pos hr)

theorem towlineMessage_waits (hr : m.vf ≠ s.resident) :
    Happens s (.towlineMessage m s.device) ((s.inbound.get m.vf []).length < s.inboundQuota m.vf)
      { s with inbound := s.inbound.put m.vf (s.inbound.get m.vf [] ++ [{ m with origin := 1 }]) } := by
  have go : exec (.towlineMessage m s.device) s = if (s.inbound.get m.vf []).length < s.inboundQuota m.vf
      then .next (s.holdInbound { m with origin := 1 }) else .next s := by
    rw [exec_towlineMessage]
    unfold execTowlineMessage
    exact (if_neg (by simp [hs, hv])).trans (if_neg hr)
  unfold Happens
  rw [go]
  exact ⟨fun hp => if_pos hp, fun hp => if_neg hp⟩

end

theorem towPort_put (s : State) (port p : Nat) (t : TowPort) :
    ({ s with tow := s.tow.put port t } : State).towPort p = if p = port then t else s.towPort p := by
  simp [State.towPort, get_put]

theorem portsLive_iff (s : State) : s.portsLive = true ↔ s.boot.stage = 2 ∨ s.boot.stage = 3 := by
  simp [State.portsLive, State.cleozRuns]

section
variable {s : State} {port lanes partner : Nat}

/-- The lanes at which a port runs. -/
def towLanes (lanes : Nat) : Nat := if lanes = 8 then 8 else if 4 ≤ lanes then 4 else 0

theorem towLanes_ne_zero (lanes : Nat) : towLanes lanes ≠ 0 ↔ lanes = 8 ∨ 4 ≤ lanes := by
  unfold towLanes
  split
  · omega
  · split <;> omega

/-- What a training leaves of its port, where its partner is met twice or not. -/
def TowPort.train (old : TowPort) (lanes partner : Nat) (twice : Bool) : TowPort :=
  { up := towLanes lanes != 0 && !twice, lanes := towLanes lanes, partner := partner, report := twice, seen := old.seen || (towLanes lanes != 0 && !twice) }

/-- When a port that trains is up, and whether it has ever been. -/
theorem train_up (old : TowPort) (lanes partner : Nat) (twice : Bool) :
    (old.train lanes partner twice).up = true ↔ (lanes = 8 ∨ 4 ≤ lanes) ∧ twice = false := by
  rw [← towLanes_ne_zero]
  simp [TowPort.train]

theorem train_seen (old : TowPort) (lanes partner : Nat) (twice : Bool) :
    (old.train lanes partner twice).seen = true ↔ old.seen = true ∨ (old.train lanes partner twice).up = true := by
  simp [TowPort.train]

/-- A training of a port that is live writes its port alone; its partner is met twice where it names this module, and not where no other port that is up has
the partner. -/
theorem towlineTrain_trains (hp : port < 16) (hl : s.portsLive = true) : ∃ n twice, exec (.towlineTrain port lanes partner) s =
      .next { s with fresh := n, tow := s.tow.put port ((s.towPort port).train lanes partner twice) } ∧
    (partner = s.device → twice = true) ∧
    (partner ≠ s.device → (∀ p ∈ s.tow, p.1 ≠ port → p.2.up = true → p.2.partner ≠ partner) → twice = false) := by
  rw [exec_towlineTrain]
  unfold execTowlineTrain
  rw [if_neg (by simp [hl, hp])]
  dsimp only
  by_cases hd : partner = s.device
  · rw [if_pos hd]
    exact ⟨s.fresh, true, rfl, fun _ => rfl, fun hn => absurd hd hn⟩
  · rw [if_neg hd]
    by_cases ha : (s.tow.any fun p => p.1 != port && p.2.up && p.2.partner == partner) = true
    · rw [if_pos ha]
      refine ⟨s.fresh + 1, _, rfl, fun hn => absurd hn hd, fun _ hnone => ?_⟩
      obtain ⟨p, hin, hp'⟩ := List.any_eq_true.1 ha
      simp only [Bool.and_eq_true, bne_iff_ne, ne_eq, beq_iff_eq] at hp'
      exact absurd hp'.2 (hnone p hin hp'.1.1 hp'.1.2)
    · rw [if_neg ha]
      exact ⟨s.fresh, false, rfl, fun hn => absurd hn hd, fun _ _ => rfl⟩

theorem exec_towlineTrain_stays (h : 16 ≤ port ∨ ¬ (s.boot.stage = 2 ∨ s.boot.stage = 3)) : exec (.towlineTrain port lanes partner) s = .next s := by
  rw [← portsLive_iff, Bool.not_eq_true] at h
  rw [exec_towlineTrain]
  exact if_pos h

theorem exec_towlineRouteDown_stays (h : 16 ≤ port) : exec (.towlineRouteDown port) s = .next s := by
  rw [exec_towlineRouteDown]
  exact if_pos h

theorem exec_towlineRouteDown_downs (h : port < 16) :
    exec (.towlineRouteDown port) s = .next { s with tow := s.tow.put port { s.towPort port with up := false } } := by
  rw [exec_towlineRouteDown]
  exact if_neg (by omega)

end

/-! ## CXL (R377) -/

section
variable {s : State} {port rate kind : Nat}

theorem exec_cxlPortTrain_stays (h : 4 ≤ port ∨ s.portsLive = false ∨ (s.cxl.get port {}).trained = true ∨ (s.cxl.get port {}).failed = true) :
    exec (.cxlPortTrain port rate kind) s = .next s := by
  rw [exec_cxlPortTrain]
  exact if_pos h

theorem exec_cxlPortTrain_trains (h : port < 4) (hl : s.portsLive = true) (ht : (s.cxl.get port {}).trained = false) (hf : (s.cxl.get port {}).failed = false) :
    exec (.cxlPortTrain port rate kind) s = .next { s with
      cxl := s.cxl.put port { trained := decide (kind = 3 ∧ (rate = 64 ∨ rate = 32)), rate := rate,
                              fallback := decide (kind = 3 ∧ rate = 32), base := s.cxlSize, failed := false } } := by
  have hb : (kind == 3 && (rate == 64 || rate == 32)) = decide (kind = 3 ∧ (rate = 64 ∨ rate = 32)) := by
    rw [Bool.eq_iff_iff]
    simp
  have hc : (kind == 3 && rate == 32) = decide (kind = 3 ∧ rate = 32) := by
    rw [Bool.eq_iff_iff]
    simp
  rw [exec_cxlPortTrain]
  unfold execCxlPortTrain
  dsimp only
  rw [if_neg (by simp [hl, ht, hf, h]), hb, hc]

theorem exec_cxlLinkDown_stays (h : (s.cxl.get port {}).trained = false ∨ (s.cxl.get port {}).failed = true) : exec (.cxlLinkDown port) s = .next s := by
  rw [exec_cxlLinkDown]
  exact if_pos h

theorem exec_cxlLinkDown_downs (ht : (s.cxl.get port {}).trained = true) (hf : (s.cxl.get port {}).failed = false) : exec (.cxlLinkDown port) s =
    .next { s with cxl := s.cxl.put port { s.cxl.get port {} with failed := true },
                   poisonRanges := s.poisonRanges ++ [(cxlKey (s.cxl.get port {}).base, cxlKey ((s.cxl.get port {}).base + 1512000000000))] } := by
  rw [exec_cxlLinkDown]
  exact if_neg (by simp [ht, hf])

/-- One more poisoned range. -/
theorem isPoisoned_range (s : State) (lo hi k : Nat) : ({ s with poisonRanges := s.poisonRanges ++ [(lo, hi)] } : State).isPoisoned k =
    (s.isPoisoned k || (decide (lo ≤ k / 8 * 8) && decide (k / 8 * 8 < hi))) := by
  unfold State.isPoisoned wordKey
  dsimp only
  rw [List.any_append, ← Bool.or_assoc, List.any_cons, List.any_nil, Bool.or_false]

end

end Sys2Proof.Machine
end

section
/-! The RoCE engine (R376). -/

namespace Sys2Proof.Machine

/-! ## Bytes behind ranges -/

theorem length_byteKeys (ps : List (Nat × Nat)) : (byteKeys ps).length = (ps.map (·.2)).sum := by
  simp [byteKeys, List.length_flatMap]

/-- The chunks of a range cover it. -/
theorem sum_chunks (a len : Nat) : ((chunks a len).map (·.2)).sum = len := by
  have upTo (q : Nat) (hq : q * 65536 ≤ a) (n : Nat) :
      ((List.range n).map fun i => min (a + len) ((q + i + 1) * 65536) - max a ((q + i) * 65536)).sum = min (a + len) (max a ((q + n) * 65536)) - a := by
    induction n with
    | zero => simp; omega
    | succ n ih =>
      rw [List.range_succ, List.map_append, List.sum_append, ih]
      simp only [List.map_cons, List.map_nil, List.sum_cons, List.sum_nil]
      omega
  unfold chunks
  split
  next h => simp [h]
  next h =>
    have hq := upTo (a / 65536) (Nat.div_mul_le_self a 65536) ((a + len - 1) / 65536 - a / 65536 + 1)
    rw [List.map_map]
    refine hq.trans ?_
    have h1 : a / 65536 ≤ (a + len - 1) / 65536 := Nat.div_le_div_right (by omega)
    have h2 := Nat.lt_div_mul_add (a := a + len - 1) (b := 65536) (by omega)
    omega

theorem putPairs_other (l : List (Nat × Option Byte)) (m : List Host.Cell) (k : Nat) (h : k ∉ l.map (·.1)) (hm : memWf m = true) :
    memGet (putPairs l m) k = memGet m k := by
  induction l generalizing m with
  | nil => rfl
  | cons x l ih =>
    obtain ⟨j, _ | b⟩ := x
    · exact ih m (fun hk => h (by simp [hk])) hm
    · rw [putPairs, ih _ (fun hk => h (by simp [hk])) (memSet_wf _ _ _ hm)]
      exact memGet_memSet_other _ _ _ _ (fun hk => h (by simp [hk])) hm

/-- What has been written under different keys is there. -/
theorem putPairs_mem (l : List (Nat × Option Byte)) (m : List Host.Cell) (hn : (l.map (·.1)).Nodup) (hm : memWf m = true) {k : Nat} {b : Byte}
    (h : (k, some b) ∈ l) : memGet (putPairs l m) k = b := by
  induction l generalizing m with
  | nil => simp at h
  | cons x l ih =>
    rw [List.map_cons, List.nodup_cons] at hn
    rcases List.mem_cons.1 h with rfl | hl
    · rw [putPairs, putPairs_other _ _ _ hn.1 (memSet_wf _ _ _ hm)]
      exact memGet_memSet_same _ _ _ hm
    · obtain ⟨j, _ | c⟩ := x
      · exact ih m hn.2 hm hl
      · exact ih _ hn.2 (memSet_wf _ _ _ hm) hl

/-- Bytes that are put with no tag: memory and poison alone differ. -/
theorem putBytes_frame (s : State) (ps : List (Nat × Nat)) (vs : List (Option Byte)) :
    ∃ p, s.putBytes ps vs none = { s with mem := putPairs ((byteKeys ps).zip vs) s.mem, poison := p } := by
  have fold : ∀ (ws : List Nat) (u : State), ∃ p, ws.foldl (fun s w => s.setPoison w false) u = { u with poison := p } := by
    intro ws
    induction ws with
    | nil => exact fun u => ⟨_, rfl⟩
    | cons w ws ih =>
      intro u
      obtain ⟨p, h⟩ := ih (u.setPoison w false)
      exact ⟨p, h⟩
  have hall : ((byteKeys ps).zip vs).filter (fun _ => true) = (byteKeys ps).zip vs := List.filter_eq_self.2 fun _ _ => rfl
  unfold State.putBytes State.perform
  dsimp only
  rw [hall]
  exact fold _ _

/-! ## Pages -/

/-- Marking a leaf as accessed and dirty takes no permission away. -/
theorem leafAllows_markPte (pte : W64) (acc : Acc) (priv : Bool) (acc' : Acc) : leafAllows (markPte pte acc') acc priv = leafAllows pte acc priv := by
  have bits (hi lo : Nat) (h : ∀ i, lo ≤ i → i ≤ hi → i ≠ 6 ∧ i ≠ 7) : bitsOf (markPte pte acc') hi lo = bitsOf pte hi lo := by
    have h6 (j : Nat) : Nat.testBit 64 j = decide (6 = j) := Nat.testBit_two_pow (n := 6)
    have h7 (j : Nat) : Nat.testBit 128 j = decide (7 = j) := Nat.testBit_two_pow (n := 7)
    apply Nat.eq_of_testBit_eq
    intro i
    rw [testBit_bitsOf, testBit_bitsOf]
    by_cases hi' : i < hi + 1 - lo
    · obtain ⟨n6, n7⟩ := h (lo + i) (by omega) (by omega)
      unfold markPte
      split <;> simp [BitVec.toNat_or, Nat.testBit_or, h6, h7, n6.symm, n7.symm]
    · simp [hi']
  unfold leafAllows
  rw [bits 2 2 (by omega), bits 3 3 (by omega), bits 4 4 (by omega), bits 10 10 (by omega), bits 5 5 (by omega), bits 9 8 (by omega)]

section
variable {s u : State} {vf asid a n : Nat} {acc : Acc}

/-- A walk that sets nothing, or stops, is the walk. -/
theorem walked_of_once {w : Walk} (h : s.walkOnce vf asid a acc false = (u, w, false)) : s.walked vf asid a acc false = (u, w) := by
  unfold State.walked
  cases s.dirtyLines with
  | zero => simp only [State.walkedIn, h]
  | succ n => simp only [State.walkedIn, h, Bool.false_eq_true, if_false]

theorem rocePages_stop {c l : Nat} {k : W64} (h : s.walked vf asid a acc false = (u, .stop c l k)) : s.rocePages vf asid acc [(a, n)] = (u, none) := by
  simp only [State.rocePages, h]

theorem rocePages_barred {pte : W64} {at_ shift : Nat} (h : s.walked vf asid a acc false = (u, .leaf pte at_ shift)) (hl : leafAllows pte acc false = false) :
    s.rocePages vf asid acc [(a, n)] = (u, none) := by
  simp only [State.rocePages, h, hl, Bool.false_eq_true, if_false]

theorem rocePages_allowed {pte : W64} {at_ shift : Nat} (h : s.walked vf asid a acc false = (u, .leaf pte at_ shift)) (hl : leafAllows pte acc false = true) :
    s.rocePages vf asid acc [(a, n)] = (u, some [((leafXl pte shift a).key, n)]) := by
  simp only [State.rocePages, h, hl, if_true]

theorem walkOnce_stop {c l : Nat} {k : W64} (h : s.walk vf asid a = .stop c l k) : s.walkOnce vf asid a acc false = (s, .stop c l k, false) := by
  simp only [State.walkOnce, h]

section
variable {pte : W64} {at_ shift : Nat} (h : s.walk vf asid a = .leaf pte at_ shift)
include h

theorem walkOnce_still (hn : leafAllows pte acc false = false ∨ markPte pte acc = pte) :
    s.walkOnce vf asid a acc false = (s, .leaf pte at_ shift, false) := by
  simp only [State.walkOnce, h, if_pos hn]

theorem walkOnce_marks (hl : leafAllows pte acc false = true) (hn : markPte pte acc ≠ pte) (hr : (s.recall at_).read64 at_ = pte) :
    s.walkOnce vf asid a acc false = ((s.recall at_).write64 at_ (markPte pte acc), .leaf (markPte pte acc) at_ shift, false) := by
  simp only [State.walkOnce, h, hl, hn, hr, Bool.true_eq_false, or_self, if_false, if_true]

end

end

/-- Pages that an access goes to change tables alone, and have the sizes that were asked for. -/
theorem rocePages_keeps (vf asid : Nat) (acc : Acc) (l : List (Nat × Nat)) (s : State) : OnlyTables s (s.rocePages vf asid acc l).1 ∧
    ∀ ks, (s.rocePages vf asid acc l).2 = some ks → ks.map (·.2) = l.map (·.2) := by
  induction l generalizing s with
  | nil => exact ⟨.refl s, fun ks h => by cases h; rfl⟩
  | cons x l ih =>
    obtain ⟨a, n⟩ := x
    have hw := onlyTables_walkedIn vf asid a acc false s.dirtyLines s
    have hr : s.rocePages vf asid acc ((a, n) :: l) = match s.walked vf asid a acc false with
      | (s, .leaf pte _ shift) =>
        if leafAllows pte acc false then
          match s.rocePages vf asid acc l with
          | (s, some ks) => (s, some (((leafXl pte shift a).key, n) :: ks))
          | r => r
        else (s, none)
      | (s, .stop _ _ _) => (s, none) := by
      rw [State.rocePages] <;> rfl
    rw [hr]
    unfold State.walked
    generalize State.walkedIn vf asid a acc false s.dirtyLines s = w at hw
    obtain ⟨u, ⟨pte, at_, shift⟩ | _⟩ := w
    · dsimp only
      split
      · obtain ⟨hk, hs⟩ := ih u
        generalize u.rocePages vf asid acc l = x at hk hs
        obtain ⟨v, _ | ks⟩ := x
        · exact ⟨hw.trans hk, fun ks h => by cases h⟩
        · refine ⟨hw.trans hk, fun ks' h => ?_⟩
          cases h
          rw [List.map_cons, List.map_cons, hs ks rfl]
      · exact ⟨hw, fun ks h => by cases h⟩
    · exact ⟨hw, fun ks h => by cases h⟩

/-- Where one page is found, its leaf has been marked and tables alone have changed. -/
theorem rocePages_marks {s u : State} {vf asid a n : Nat} {acc : Acc} {ks : List (Nat × Nat)} (h : s.rocePages vf asid acc [(a, n)] = (u, some ks)) :
    OnlyTables s u ∧ State.WalkMarks u vf asid a acc s.dirtyLines s := by
  have hk := (rocePages_keeps vf asid acc [(a, n)] s).1
  rw [h] at hk
  refine ⟨hk, ?_⟩
  generalize hw : s.walked vf asid a acc false = w
  obtain ⟨v, ⟨pte, at_, shift⟩ | ⟨c, l, k⟩⟩ := w
  · by_cases hl : leafAllows pte acc false = true
    · rw [rocePages_allowed hw hl] at h
      cases h
      exact walkMarks_walkedIn s.dirtyLines hw hl
    · rw [rocePages_barred hw (by simpa using hl)] at h
      cases h
  · rw [rocePages_stop hw] at h
    cases h

/-! ## Answers in parts (R376) -/

/-- Bytes in parts of the path MTU: an empty answer is one empty part. -/
def mtuParts (mtu : Nat) (bs : List Byte) : List (List Byte) :=
  (List.range (max 1 ((bs.length + mtu - 1) / mtu))).map fun i => (bs.drop (i * mtu)).take mtu

theorem mtuParts_short {mtu : Nat} {bs x : List Byte} (h : x ∈ mtuParts mtu bs) : x.length ≤ mtu := by
  obtain ⟨i, -, rfl⟩ := List.mem_map.1 h
  exact List.length_take_le ..

/-- The parts in order are the bytes. -/
theorem flatten_mtuParts {mtu : Nat} (h : 0 < mtu) (bs : List Byte) : (mtuParts mtu bs).flatten = bs := by
  have upTo (n : Nat) : ((List.range n).map fun i => (bs.drop (i * mtu)).take mtu).flatten = bs.take (n * mtu) := by
    induction n with
    | zero => simp
    | succ n ih =>
      rw [List.range_succ, List.map_append, List.flatten_append, ih, Nat.succ_mul, List.take_add]
      simp
  have hn : bs.length ≤ max 1 ((bs.length + mtu - 1) / mtu) * mtu := by
    have h1 := Nat.lt_div_mul_add (a := bs.length + mtu - 1) h
    have h2 := Nat.mul_le_mul_right mtu (Nat.le_max_right 1 ((bs.length + mtu - 1) / mtu))
    omega
  rw [mtuParts, upTo, List.take_of_length_le hn]

/-- The bytes that a READ answers: free ones, from `n`, where a word is poisoned. -/
def State.readBytes (s : State) (n : Nat) (ks : List Nat) : List Byte :=
  (s.fetchBytes ks).zipIdx.map fun b => b.1.getD (BitVec.ofNat 8 (n / 256 ^ b.2))

theorem length_readBytes (s : State) (n : Nat) (ks : List Nat) : (s.readBytes n ks).length = ks.length := by
  simp [State.readBytes, State.fetchBytes]

theorem readBytes_sound (s : State) (n : Nat) {ks : List Nat} {i k : Nat} (h : ks[i]? = some k) (hp : s.isPoisoned k = false) :
    (s.readBytes n ks).getD i 0 = memGet s.mem k := by
  simp [State.readBytes, State.fetchBytes, List.getD_eq_getElem?_getD, h, hp]

/-! ## Requests (R73, R376) -/

/-- What a request is refused for before its pages are looked at. -/
abbrev BadRequest (r : RoceReq) : Prop := r.reliable = false ∨ 2 < r.verb ∨ 2 ^ 52 < r.addr.toNat + r.data.length

section
variable {s u : State} {port : Nat} {f : Frame} {r : RoceReq} {q : QueuePair} {ps : List (Nat × Nat)}

theorem roce_unknown (h : s.queuePairs.find? (fun q => q.num == r.queuePair) = none) : s.roce port f r = s.ethDrop port .roce := by
  unfold State.roce
  rw [h]

variable (hq : s.queuePairs.find? (fun q => q.num == r.queuePair) = some q)
include hq

/-- A request to a queue pair that is known. -/
theorem roce_known : s.roce port f r =
    if BadRequest r then s.ethDrop port .roce
    else if r.verb ≠ 2 ∧ q.mtu < r.data.length then s.ethDrop port .mtu
    else match s.rocePages q.vf q.asid (if r.verb = 2 then accERead else accEWrite) (chunks r.addr.toNat r.data.length) with
      | (u, none) => u.ethDrop port .roce
      | (u, some ps) =>
        if u.routed ps = false then u.ethDrop port .roce
        else if r.verb = 2 then
          { u with
            fresh := u.fresh + 1
            sent := u.sent ++ (mtuParts q.mtu (u.readBytes (Config.freeNat u.fresh) (byteKeys ps))).map fun b =>
              { port := port, addr := f.srcAddr, ipv6 := f.ipv6, dport := 4791, sport := 4791, vf := q.vf, bytes := b } }
        else u.putBytes ps (r.data.map some) none := by
  unfold State.roce
  rw [hq]
  rfl

theorem roce_bad (hb : BadRequest r) : s.roce port f r = s.ethDrop port .roce := (roce_known hq).trans (if_pos hb)

variable (hb : ¬ BadRequest r)
include hb

theorem roce_mtu (hv : r.verb ≠ 2) (hm : q.mtu < r.data.length) : s.roce port f r = s.ethDrop port .mtu :=
  (roce_known hq).trans ((if_neg hb).trans (if_pos ⟨hv, hm⟩))

variable (hm : ¬ (r.verb ≠ 2 ∧ q.mtu < r.data.length))
include hm

theorem roce_unpaged (hp : s.rocePages q.vf q.asid (if r.verb = 2 then accERead else accEWrite) (chunks r.addr.toNat r.data.length) = (u, none)) :
    s.roce port f r = u.ethDrop port .roce := by
  refine (roce_known hq).trans ((if_neg hb).trans ((if_neg hm).trans ?_))
  rw [hp]

variable (hp : s.rocePages q.vf q.asid (if r.verb = 2 then accERead else accEWrite) (chunks r.addr.toNat r.data.length) = (u, some ps))
include hp

theorem roce_unrouted (hr : u.routed ps = false) : s.roce port f r = u.ethDrop port .roce := by
  refine (roce_known hq).trans ((if_neg hb).trans ((if_neg hm).trans ?_))
  rw [hp]
  exact if_pos hr

theorem roce_writes (hr : u.routed ps = true) (hv : r.verb ≠ 2) : s.roce port f r = u.putBytes ps (r.data.map some) none := by
  refine (roce_known hq).trans ((if_neg hb).trans ((if_neg hm).trans ?_))
  rw [hp]
  exact (if_neg (by simp [hr])).trans (if_neg hv)

/-- A READ answers the client with the bytes of its range. -/
theorem roce_reads (hr : u.routed ps = true) (hv : r.verb = 2) : s.roce port f r =
    { u with
      fresh := u.fresh + 1
      sent := u.sent ++ (mtuParts q.mtu (u.readBytes (Config.freeNat u.fresh) (byteKeys ps))).map fun b =>
        { port := port, addr := f.srcAddr, ipv6 := f.ipv6, dport := 4791, sport := 4791, vf := q.vf, bytes := b } } := by
  refine (roce_known hq).trans ((if_neg hb).trans ((if_neg hm).trans ?_))
  rw [hp]
  exact (if_neg (by simp [hr])).trans (if_pos hv)

end

/-- Bytes are written under the keys of their range, and nowhere else. -/
theorem putBytes_writes {u : State} {ps : List (Nat × Nat)} {data : List Byte} (hl : (byteKeys ps).length = data.length) (hw : memWf u.mem = true)
    (hn : (byteKeys ps).Nodup) {t : State} (ht : t.mem = putPairs ((byteKeys ps).zip (data.map some)) u.mem) :
    (∀ i k, (byteKeys ps)[i]? = some k → memGet t.mem k = data.getD i 0) ∧ ∀ k, k ∉ byteKeys ps → memGet t.mem k = memGet u.mem k := by
  have hk : ((byteKeys ps).zip (data.map some)).map (·.1) = byteKeys ps := List.map_fst_zip (by simp [hl])
  refine ⟨fun i k hi => ?_, fun k hnot => ?_⟩
  · obtain ⟨hlt, -⟩ := List.getElem?_eq_some_iff.1 hi
    rw [ht]
    refine putPairs_mem _ _ (hk.symm ▸ hn) hw (List.mem_iff_getElem?.2 ⟨i, ?_⟩)
    rw [List.getElem?_zip_eq_some]
    refine ⟨hi, ?_⟩
    rw [List.getElem?_map, List.getElem?_eq_getElem (hl ▸ hlt), List.getD_eq_getElem _ _ (hl ▸ hlt)]
    rfl
  · rw [ht]
    exact putPairs_other _ _ _ (by rwa [hk]) hw

theorem routed_eq_true {s u : State} (h : OnlyTables s u) (ps : List (Nat × Nat)) : u.routed ps = true ↔
    ∀ p ∈ ps, isRemoteKey p.1 = true → (s.routeTo (keyDev p.1)).isSome = true := by
  unfold State.routed
  rw [List.all_eq_true]
  refine forall₂_congr fun p _ => ?_
  rw [h.routeTo]
  cases isRemoteKey p.1 <;> simp

end Sys2Proof.Machine
end

section
/-! Actor datagrams (R53), and what every event of a port does. -/

namespace Sys2Proof.Machine

/-! ## The fields of a datagram -/

/-- Byte `i` of the payload of a frame, 0 beyond its end. -/
def frameByte (f : Frame) (i : Nat) : Nat := (f.payload.getD i 0).toNat

/-- Bytes as a number in base `B`, the first most significant. -/
theorem digits_eq_sum (B n : Nat) (g : Nat → Byte) : ((List.range n).map g).foldl (fun m b => m * B + b.toNat) 0 =
    ((List.range n).map fun j => (g j).toNat * B ^ (n - 1 - j)).sum := by
  induction n with
  | zero => rfl
  | succ n ih =>
    rw [List.range_succ, List.map_append, List.foldl_append, ih, List.map_append, List.sum_append]
    have hs : (List.range n).map (fun j => (g j).toNat * B ^ (n + 1 - 1 - j)) = (List.range n).map fun j => (g j).toNat * B ^ (n - 1 - j) * B := by
      refine List.map_congr_left fun j hj => ?_
      have hj := List.mem_range.1 hj
      rw [show n + 1 - 1 - j = n - 1 - j + 1 by omega, pow_succ, mul_assoc]
    rw [hs, List.sum_map_mul_right]
    simp

theorem bigNat_map (n : Nat) (g : Nat → Byte) : bigNat ((List.range n).map g) = ((List.range n).map fun j => (g j).toNat * 256 ^ (n - 1 - j)).sum :=
  digits_eq_sum 256 n g

section
variable {f : Frame} (h : 16 ≤ f.payload.length)
include h

theorem frameBytes_eq {k n : Nat} (hk : k + n ≤ 16) : (f.payload.drop k).take n = (List.range n).map fun j => f.payload.getD (k + j) 0 := by
  refine List.ext_getElem (by simp; omega) fun i h1 h2 => ?_
  have hi : i < n := by simpa using h2
  simp only [List.getElem_take, List.getElem_drop, List.getElem_map, List.getElem_range]
  rw [List.getD_eq_getElem _ _ (by omega)]

theorem class_bytes : bigNat (f.payload.take 2) = 256 * frameByte f 0 + frameByte f 1 := by
  have hb := frameBytes_eq h (k := 0) (n := 2) (by omega)
  rw [List.drop_zero] at hb
  rw [hb]
  simp [bigNat, List.range_succ, frameByte]
  omega

theorem key_bytes : bigNat ((f.payload.drop 4).take 8) = ((List.range 8).map fun j => frameByte f (4 + j) * 256 ^ (7 - j)).sum := by
  rw [frameBytes_eq h (by omega), bigNat_map]
  rfl

theorem tag_bytes : bytesNat ((f.payload.drop 12).take 4) =
    frameByte f 12 + 256 * frameByte f 13 + 65536 * frameByte f 14 + 16777216 * frameByte f 15 := by
  rw [frameBytes_eq h (by omega)]
  simp [bytesNat, List.range_succ, frameByte]
  omega

end

/-! ## Drops (R53) -/

/-- Why a datagram is dropped, by the bytes of its payload. -/
theorem datagramDrop_eq (s : State) (vf : Nat) (f : Frame) : s.datagramDrop vf f =
    if f.udpLen ≠ 24 + frameByte f 2 ∨ f.payload.length ≠ 16 + frameByte f 2 then some .length
    else if 96 < frameByte f 2 then some .payload else if frameByte f 3 ≠ 0 then some .flags
    else if 256 * frameByte f 0 + frameByte f 1 = 0xFFFF then some .netClass
    else if s.classFor vf (256 * frameByte f 0 + frameByte f 1) = none then some .noClass else none := by
  by_cases hl : f.udpLen ≠ 24 + frameByte f 2 ∨ f.payload.length ≠ 16 + frameByte f 2
  · rw [if_pos hl]
    exact if_pos hl
  · rw [if_neg hl, ← class_bytes (f := f) (by omega)]
    exact if_neg hl

/-! ## The route of a client (R53) -/

/-- The first of a sorted list is below all. -/
theorem head_sortedBy {α : Type} {le : α → α → Bool} (htotal : ∀ a b, le a b = true ∨ le b a = true)
    (htrans : ∀ a b c, le a b = true → le b c = true → le a c = true) (l : List α) {m : α} (h : (l.sortedBy le).head? = some m) : ∀ x ∈ l, le m x = true := by
  induction l generalizing m with
  | nil => simp
  | cons a l ih =>
    have hs : (a :: l).sortedBy le = (l.sortedBy le).takeWhile (fun b => !(le a b)) ++ a :: (l.sortedBy le).dropWhile (fun b => !(le a b)) := rfl
    have hself : le a a = true := (htotal a a).elim id id
    rw [hs] at h
    have hmem := fun x => mem_sortedBy l le x
    generalize l.sortedBy le = t at ih h hmem
    cases t with
    | nil =>
      cases h
      intro x hx
      rcases List.mem_cons.1 hx with rfl | hx
      · exact hself
      · simpa using (hmem x).2 hx
    | cons b t =>
      have hb := ih rfl
      by_cases hab : le a b = true
      · simp only [List.takeWhile_cons, hab, Bool.not_true, Bool.false_eq_true, if_false, List.nil_append, List.head?_cons, Option.some.injEq] at h
        subst h
        intro x hx
        rcases List.mem_cons.1 hx with rfl | hx
        · exact hself
        · exact htrans _ _ _ hab (hb x hx)
      · rw [Bool.not_eq_true] at hab
        simp only [List.takeWhile_cons, hab, Bool.not_false, if_true, List.cons_append, List.head?_cons, Option.some.injEq] at h
        subst h
        intro x hx
        rcases List.mem_cons.1 hx with rfl | hx
        · exact (htotal _ _).resolve_left (by simp [hab])
        · exact hb x hx

/-- A client's entry is its own, or else a new one, or else one unused longest. -/
theorem routeFor_entry (e : EthPort) (addr : Nat) (ipv6 : Bool) (port : Nat) :
    (∃ x, (e.routeFor addr ipv6 port, x) ∈ e.routes ∧ x.addr = addr ∧ x.ipv6 = ipv6 ∧ x.port = port) ∨
      ((∀ p ∈ e.routes, ¬ (p.2.addr = addr ∧ p.2.ipv6 = ipv6 ∧ p.2.port = port)) ∧
        ((e.routes.length < 65536 ∧ e.routeFor addr ipv6 port = e.routes.length) ∨
          (65536 ≤ e.routes.length ∧ ∃ x, (e.routeFor addr ipv6 port, x) ∈ e.routes ∧ ∀ p ∈ e.routes, x.used ≤ p.2.used))) := by
  unfold EthPort.routeFor
  split
  next i x hf =>
    have hx := List.find?_some hf
    simp only [Bool.and_eq_true, beq_iff_eq] at hx
    exact .inl ⟨x, List.mem_of_find?_eq_some hf, hx.1.1, hx.1.2, hx.2⟩
  next hf =>
    refine .inr ⟨fun p hp hx => ?_, ?_⟩
    · have := List.find?_eq_none.1 hf p hp
      simp [hx] at this
    · by_cases hl : e.routes.length < 65536
      · rw [if_pos hl]
        exact .inl ⟨hl, rfl⟩
      · rw [if_neg hl]
        refine .inr ⟨by omega, ?_⟩
        have hmin := fun m => head_sortedBy (le := fun a b : Nat × Route => decide (a.2.used ≤ b.2.used)) (m := m)
          (fun a b => by simpa using Nat.le_total ..) (fun a b c => by simpa using Nat.le_trans) e.routes
        have hmem := fun x => mem_sortedBy e.routes (fun a b : Nat × Route => decide (a.2.used ≤ b.2.used)) x
        generalize e.routes.sortedBy (fun a b => decide (a.2.used ≤ b.2.used)) = t at hmin hmem
        cases t with
        | nil =>
          exfalso
          obtain ⟨p, hp⟩ := List.exists_mem_of_length_pos (l := e.routes) (by omega)
          simpa using (hmem p).2 hp
        | cons m t => exact ⟨m.2, (hmem m).1 (by simp), fun p hp => by simpa using hmin m rfl p hp⟩

/-! ## The message of a datagram (R53, R56) -/

/-- The port has noted the client of a datagram in entry `i`. -/
def State.noteClient (s : State) (port i : Nat) (f : Frame) : State :=
  ({ s with arrival := s.arrival + 1, fresh := s.fresh + 1 } : State).modEth port fun e =>
    { e with routes := e.routes.put i { addr := f.srcAddr, ipv6 := f.ipv6, port := f.srcPort, used := s.arrival + 1 } }

/-- The message that a datagram carries, with its client's entry `i`. -/
def State.messageOf (s : State) (port vf i : Nat) (f : Frame) : Msg :=
  { key := BitVec.ofNat 64 (bigNat ((f.payload.drop 4).take 8)), cls := bigNat (f.payload.take 2), srcCtx := 0xF000 + port,
    srcDev := Config.freeNat s.fresh % 1024, phase := 0, origin := 2,
    replyKey := BitVec.ofNat 64 (port * 0x10000 + i + bytesNat ((f.payload.drop 12).take 4) * 2 ^ 32), replyCls := 0xFFFF,
    vf := vf, payload := f.payload.drop 16 }

theorem datagram_eq {s : State} {port vf : Nat} {f : Frame} (h : s.datagramDrop vf f = none) : s.datagram port vf f =
    let i := (s.ethPort port).routeFor f.srcAddr f.ipv6 f.srcPort
    if vf = s.resident then (s.noteClient port i f).postMsg (s.messageOf port vf i f)
    else if (s.inbound.get vf []).length < s.inboundQuota vf then ((s.noteClient port i f).holdInbound (s.messageOf port vf i f)).active vf 0
    else (s.noteClient port i f).ethDrop port .quota := by
  unfold State.datagram
  rw [h]
  rfl

theorem noteClient_ethPort (s : State) (port i : Nat) (f : Frame) : (s.noteClient port i f).ethPort port = { s.ethPort port with
    routes := (s.ethPort port).routes.put i { addr := f.srcAddr, ipv6 := f.ipv6, port := f.srcPort, used := s.arrival + 1 } } := by
  unfold State.noteClient
  rw [ethPort_modEth, if_pos rfl]
  rfl

theorem ethDrop_routes (s : State) (port : Nat) (x : EthDrop) : ((s.ethDrop port x).ethPort port).routes = (s.ethPort port).routes := by
  unfold State.ethDrop
  rw [ethPort_modEth, if_pos rfl]

/-- What becomes of a message whose client is noted. -/
theorem datagram_leaves {s : State} {port vf : Nat} {f : Frame} (h : s.datagramDrop vf f = none) :
    let i := (s.ethPort port).routeFor f.srcAddr f.ipv6 f.srcPort
    let m := s.messageOf port vf i f
    let t := s.datagram port vf f
    (t.ethPort port).routes = (s.ethPort port).routes.put i { addr := f.srcAddr, ipv6 := f.ipv6, port := f.srcPort, used := s.arrival + 1 } ∧
    t.mem = s.mem ∧
    (vf = s.resident → (t.slice (homeMooring m.cls m.key)).input = (s.slice (homeMooring m.cls m.key)).input ++ [m] ∧ t.inbound = s.inbound) ∧
    (vf ≠ s.resident → t.slices = s.slices ∧
      ((s.inbound.get vf []).length < s.inboundQuota vf → t.inbound.get vf [] = s.inbound.get vf [] ++ [m]) ∧
      (s.inboundQuota vf ≤ (s.inbound.get vf []).length → t.inbound = s.inbound ∧
        List.find? (fun d => d.1 == EthDrop.quota) (t.ethPort port).drops =
          List.find? (fun d => d.1 == EthDrop.quota) ((s.ethDrop port .quota).ethPort port).drops)) := by
  intro i m t
  have ht : t = if vf = s.resident then (s.noteClient port i f).postMsg m
    else if (s.inbound.get vf []).length < s.inboundQuota vf then ((s.noteClient port i f).holdInbound m).active vf 0
    else (s.noteClient port i f).ethDrop port .quota := datagram_eq h
  clear_value t
  have hn := congrArg EthPort.routes (noteClient_ethPort s port i f)
  by_cases hv : vf = s.resident
  · rw [if_pos hv] at ht
    obtain ⟨a, ha⟩ := active_eq ((s.noteClient port i f).modSlice (homeMooring m.cls m.key) fun x => { x with input := x.input ++ [m] }) m.vf m.phase
    have hp : t = { (s.noteClient port i f).modSlice (homeMooring m.cls m.key) fun x => { x with input := x.input ++ [m] } with activity := a } := ht.trans ha
    have hs := slice_modSlice (s.noteClient port i f) (homeMooring m.cls m.key) (homeMooring m.cls m.key) fun x => { x with input := x.input ++ [m] }
    rw [if_pos rfl] at hs
    rw [hp]
    exact ⟨hn, rfl, fun _ => ⟨congrArg Slice.input hs, rfl⟩, fun hne => absurd hv hne⟩
  · rw [if_neg hv] at ht
    by_cases hq : (s.inbound.get vf []).length < s.inboundQuota vf
    · rw [if_pos hq] at ht
      obtain ⟨a, ha⟩ := active_eq ((s.noteClient port i f).holdInbound m) vf 0
      rw [ht, ha]
      exact ⟨hn, rfl, fun he => absurd he hv, fun _ => ⟨rfl, fun _ => get_put_same .., fun hle => absurd hq (by omega)⟩⟩
    · rw [if_neg hq] at ht
      have hd := ethDrop_drops (s.noteClient port i f) port .quota
      rw [noteClient_ethPort] at hd
      rw [ht]
      exact ⟨(ethDrop_routes ..).trans hn, rfl, fun he => absurd he hv, fun _ => ⟨rfl, fun hlt => absurd hlt hq,
        fun _ => ⟨rfl, hd.trans (ethDrop_drops s port .quota).symm⟩⟩⟩

/-! ## The clauses -/

section
variable {s : State} {port vf : Nat} {f : Frame}

/-- A message of a datagram, with the fields that its bytes give. -/
theorem messageOf_fields (h : 16 ≤ f.payload.length) (i : Nat) : let m := s.messageOf port vf i f
    m.key = BitVec.ofNat 64 ((List.range 8).map fun j => frameByte f (4 + j) * 256 ^ (7 - j)).sum ∧ m.cls = 256 * frameByte f 0 + frameByte f 1 ∧
    m.replyKey = BitVec.ofNat 64 (65536 * port + i + 2 ^ 32 *
      (frameByte f 12 + 256 * frameByte f 13 + 65536 * frameByte f 14 + 16777216 * frameByte f 15)) := by
  refine ⟨?_, class_bytes h, ?_⟩
  · rw [← key_bytes h]
    rfl
  · rw [← tag_bytes h, Nat.mul_comm 65536 port, Nat.mul_comm (2 ^ 32)]
    rfl

/-- A request whose pages are there and routed. -/
theorem roce_performs {s u : State} {r : RoceReq} {q : QueuePair} {ps : List (Nat × Nat)}
    (hq : s.queuePairs.find? (fun q => q.num == r.queuePair) = some q) (hb : ¬ BadRequest r) (hm : ¬ (r.verb ≠ 2 ∧ q.mtu < r.data.length))
    (hp : s.rocePages q.vf q.asid (if r.verb = 2 then accERead else accEWrite) (chunks r.addr.toNat r.data.length) = (u, some ps))
    (hr : ∀ p ∈ ps, isRemoteKey p.1 = true → (s.routeTo (keyDev p.1)).isSome = true) :
    let t := s.roce port f r
    (r.verb ≠ 2 → { t with mem := u.mem, poison := u.poison } = u ∧ (memWf u.mem = true → (byteKeys ps).Nodup →
      (∀ i k, (byteKeys ps)[i]? = some k → memGet t.mem k = r.data.getD i 0) ∧ ∀ k, k ∉ byteKeys ps → memGet t.mem k = memGet u.mem k)) ∧
    (¬ r.verb ≠ 2 → { t with sent := u.sent, fresh := u.fresh } = u ∧ ∃ new, t.sent = u.sent ++ new ∧
      (∀ x ∈ new, x.port = port ∧ x.addr = f.srcAddr ∧ x.dport = 4791 ∧ x.vf = q.vf ∧ x.bytes.length ≤ q.mtu) ∧
      (0 < q.mtu → (new.flatMap (·.bytes)).length = (byteKeys ps).length ∧
        ∀ i k, (byteKeys ps)[i]? = some k → u.isPoisoned k = false → (new.flatMap (·.bytes)).getD i 0 = memGet u.mem k)) := by
  obtain ⟨hk, hsizes⟩ := rocePages_keeps q.vf q.asid (if r.verb = 2 then accERead else accEWrite) (chunks r.addr.toNat r.data.length) s
  rw [hp] at hk hsizes
  have hlen : (byteKeys ps).length = r.data.length := by rw [length_byteKeys, hsizes ps rfl, sum_chunks]
  have hrouted := (routed_eq_true hk ps).2 hr
  intro t
  refine ⟨fun hv => ?_, fun hv => ?_⟩
  · obtain ⟨p, hput⟩ := putBytes_frame u ps (r.data.map some)
    have ht : t = { u with mem := putPairs ((byteKeys ps).zip (r.data.map some)) u.mem, poison := p } := (roce_writes hq hb hm hp hrouted hv).trans hput
    clear_value t
    subst ht
    exact ⟨rfl, fun hw hn => putBytes_writes hlen hw hn rfl⟩
  · have ht : t = _ := roce_reads hq hb hm hp hrouted (not_not.1 hv)
    clear_value t
    subst ht
    refine ⟨rfl, _, rfl, fun x hx => ?_, fun hmtu => ?_⟩
    · obtain ⟨b, hb', rfl⟩ := List.mem_map.1 hx
      exact ⟨rfl, rfl, rfl, rfl, mtuParts_short hb'⟩
    · rw [List.flatMap_map]
      have hflat : ((mtuParts q.mtu (u.readBytes (Config.freeNat u.fresh) (byteKeys ps))).flatMap fun b => b) =
          u.readBytes (Config.freeNat u.fresh) (byteKeys ps) := by
        rw [List.flatMap_id', flatten_mtuParts hmtu]
      rw [hflat]
      exact ⟨length_readBytes .., fun i k hi hpo => readBytes_sound u _ hi hpo⟩

end

end Sys2Proof.Machine

open Sys2Proof Sys2Proof.Machine

/-- Settles O53: each event of a port has an equation per case, the RoCE engine one per fate of a request, and a datagram's fields follow
from the bytes of its payload. -/
theorem portEvents : Obligations.PortEvents := by
  intro s port phys target lanes partner rate kind f m e live roceFrame actor
  refine ⟨exec_ethernetFrame_disabled, fun he => ⟨fun r hr hf => ?_, fun hr hf => ?_, fun vf p hr hu ha hf => ?_, fun hr ha hp => ?_, fun hr ha hp => ?_⟩,
    fun r => ?_, fun vf asid a n acc => ?_, fun vf => ?_, fun x => ⟨rfl, ethDrop_drops s port x⟩, exec_ethernetPortEnable_stays, fun hp hs => ?_,
    exec_towlineMessage_refused, ?_, fun h => ?_, fun hp hl => ?_, exec_towlineRouteDown_stays, fun hp => ?_, ?_⟩
  · rw [exec_ethernetFrame_roce he hr, hf]
  · rw [exec_ethernetFrame_roce he hr, hf]
  · exact exec_ethernetFrame_actor he hr (actorFrame_some hu ha hf)
  · exact (exec_ethernetFrame_rest he hr (actorFrame_none ha)).trans (if_pos hp)
  · exact (exec_ethernetFrame_rest he hr (actorFrame_none ha)).trans (if_neg (by simp [hp]))
  · intro t write
    refine ⟨roce_unknown, fun q hq => ?_⟩
    intro bad pages
    refine ⟨roce_bad hq, fun hb hv hm => roce_mtu hq hb hv hm, fun u hb hm hp => roce_unpaged hq hb hm hp,
      fun u ps hb hm hp hx => ?_, fun u ps hb hm hp hr => roce_performs hq hb hm hp hr⟩
    refine roce_unrouted hq hb hm hp (Bool.eq_false_iff.2 fun hr => ?_)
    have hk := (rocePages_keeps q.vf q.asid (if r.verb = 2 then accERead else accEWrite) (chunks r.addr.toNat r.data.length) s).1
    rw [show s.rocePages q.vf q.asid (if r.verb = 2 then accERead else accEWrite) (chunks r.addr.toNat r.data.length) = (u, some ps) from hp] at hk
    obtain ⟨p, hin, hrem, hnone⟩ := hx
    simpa [hnone] using (routed_eq_true hk ps).1 hr p hin hrem
  · refine ⟨fun l i k hw => rocePages_stop (walked_of_once (walkOnce_stop hw)),
      fun pte at_ shift hw => ⟨fun hl => ?_, fun hl => ⟨fun hn => ?_, fun hn hr => ?_⟩⟩, fun u ks h => rocePages_marks h⟩
    · exact rocePages_barred (walked_of_once (walkOnce_still hw (.inl hl))) hl
    · rw [hn]
      exact rocePages_allowed (walked_of_once (walkOnce_still hw (.inr hn))) hl
    · exact rocePages_allowed (walked_of_once (walkOnce_marks hw hl hn hr)) ((leafAllows_markPte ..).trans hl)
  · intro b tag cls why t
    have hwhy : s.datagramDrop vf f = why := datagramDrop_eq s vf f
    refine ⟨fun x hx => ?_, fun hn => ?_⟩
    · show s.datagram port vf f = _
      unfold State.datagram
      rw [hwhy, hx]
    · have hlen : 16 ≤ f.payload.length := by
        by_contra hl
        have : why = some .length := if_pos (.inr (by omega))
        rw [this] at hn
        cases hn
      obtain ⟨hr, hmem, hres, haway⟩ := datagram_leaves (port := port) (hwhy.trans hn)
      obtain ⟨hkey, hcls, hreply⟩ := messageOf_fields (s := s) (port := port) (vf := vf) hlen ((s.ethPort port).routeFor f.srcAddr f.ipv6 f.srcPort)
      have hin := routeFor_entry (s.ethPort port) f.srcAddr f.ipv6 f.srcPort
      refine ⟨(s.ethPort port).routeFor f.srcAddr f.ipv6 f.srcPort, s.messageOf port vf ((s.ethPort port).routeFor f.srcAddr f.ipv6 f.srcPort) f,
        hkey, hcls, rfl, rfl, rfl, hreply, rfl, rfl, ?_, fun j hj => ?_, hin, hmem, fun hv => ?_, haway⟩
      · exact (congrArg (Map.find? · _) hr).trans (find?_put_same ..)
      · exact (congrArg (Map.find? · j) hr).trans (find?_put_other _ _ _ _ hj)
      · have := hres hv
        rw [hcls] at this
        exact this
  · refine ⟨_, _, exec_ethernetPortEnable_whole hp hs, exec_ethernetPortEnable_split hp hs, ?_, ?_, ?_, ?_, ?_, ?_, rfl, rfl⟩ <;>
      simp [ethPort_modEth, State.portOn]
  · intro n room hs hv
    exact ⟨exec_towlineMessage_resident hs hv, towlineMessage_waits hs hv⟩
  · refine ⟨exec_towlineTrain_stays h, exec_cxlPortTrain_stays ?_⟩
    rcases h with h | h
    · exact .inl (by omega)
    · exact .inr (.inl (Bool.eq_false_iff.2 fun hl => h ((portsLive_iff s).1 hl)))
  · obtain ⟨n, twice, ht, hself, honce⟩ := towlineTrain_trains (lanes := lanes) (partner := partner) hp ((portsLive_iff s).2 hl)
    have hother (p : Nat) := towPort_put s port p ((s.towPort port).train lanes partner twice)
    have hport := (hother port).trans (if_pos rfl)
    have hup := train_up (s.towPort port) lanes partner twice
    refine ⟨_, ht, rfl, fun p hne => (hother p).trans (if_neg hne), congrArg TowPort.partner hport, congrArg TowPort.lanes hport, ?_⟩
    have hp' : (State.towPort { s with fresh := n, tow := s.tow.put port ((s.towPort port).train lanes partner twice) } port) =
        (s.towPort port).train lanes partner twice := hport
    rw [hp']
    refine ⟨train_seen .., fun h4 => ?_, fun hd => ?_, fun hrep => ?_, fun hd hno => ?_⟩
    · exact Bool.eq_false_iff.2 fun h => by have := (hup.1 h).1; omega
    · exact ⟨Bool.eq_false_iff.2 fun h => by have := (hup.1 h).2; simp [hself hd] at this, hself hd⟩
    · exact Bool.eq_false_iff.2 fun h => absurd hrep (by simpa [TowPort.train] using (hup.1 h).2)
    · have := honce hd hno
      exact ⟨this, hup.trans (and_iff_left this)⟩
  · refine ⟨_, exec_towlineRouteDown_downs hp, ?_, fun p hne => ?_, rfl⟩
    · rw [towPort_put, if_pos rfl]
    · rw [towPort_put, if_neg hne]
  · intro c
    refine ⟨fun h => exec_cxlPortTrain_stays (h.imp_right fun h => .inr h), fun hp hl ht hf => exec_cxlPortTrain_trains hp ((portsLive_iff s).2 hl) ht hf,
      exec_cxlLinkDown_stays, fun ht hf => ⟨_, exec_cxlLinkDown_downs ht hf, ?_, rfl, fun k => ?_⟩⟩
    · rw [get_put_same]
    · exact isPoisoned_range s _ _ k
end

section
/-! O60 (R58, R59). Every step keeps memory canonical. One lemma per function of the model, in the order of the model: `f_mem` where `f` leaves memory
as it is, `f_wf` where it may write but keeps the canonical form. First: the memory that a result leaves, folds
that keep it, and the shared steps of the model. -/

namespace Sys2Proof.Machine

/- `grind` waits for the lemmas that it cites: one proof after the other. -/
set_option Elab.async false

/-- The memory that a result leaves; the empty one where it is no next state. -/
def memOf : Result → List Host.Cell
  | .next t => t.mem
  | .fault _ => []
  | .refused _ => []

@[simp] theorem memOf_next (t : State) : memOf (.next t) = t.mem := rfl

/-- The memory that an attempt at an engine operation leaves; the empty one where it stops. -/
def EngOut.memOf : EngOut → List Host.Cell
  | .done s => s.mem
  | .write s _ => s.mem
  | .stop _ => []

theorem nil_wf : memWf [] = true := rfl

theorem foldl_mem {α : Type} (f : State → α → State) (hf : ∀ s x, (f s x).mem = s.mem) (l : List α) (s : State) :
    (l.foldl f s).mem = s.mem := by
  induction l generalizing s with
  | nil => rfl
  | cons x l ih => exact (ih _).trans (hf s x)

theorem foldl_wf {α : Type} (f : State → α → State) (hf : ∀ s x, memWf s.mem = true → memWf (f s x).mem = true) (l : List α) (s : State)
    (h : memWf s.mem = true) : memWf (l.foldl f s).mem = true := by
  induction l generalizing s with
  | nil => exact h
  | cons x l ih => exact ih _ (hf s x h)

theorem State.recall_wf (s : State) (k : Nat) (h : memWf s.mem = true) : memWf (s.recall k).mem = true :=
  (recall_mem s k h).1

theorem State.walked_wf (s : State) (vf asid va : Nat) (acc : Acc) (priv : Bool) (h : memWf s.mem = true) :
    memWf (s.walked vf asid va acc priv).1.mem = true := walkedIn_wf _ _ _ _ _ _ s h

theorem foldl_fst_mem {α β : Type} (f : State × β → α → State × β) (hf : ∀ p x, (f p x).1.mem = p.1.mem) (l : List α) (p : State × β) :
    (l.foldl f p).1.mem = p.1.mem := by
  induction l generalizing p with
  | nil => rfl
  | cons x l ih => exact (ih _).trans (hf p x)

theorem putPairs_wf (l : List (Nat × Option Byte)) (m : List Host.Cell) (h : memWf m = true) :
    memWf (putPairs l m) = true := by
  fun_induction putPairs l m with
  | case1 => exact h
  | case2 m k b l ih => exact ih (memSet_wf _ _ _ h)
  | case3 m k l ih => exact ih h

@[simp] theorem State.active_mem (s : State) (vf phase : Nat) : (s.active vf phase).mem = s.mem := by
  unfold State.active
  split <;> simp

@[simp] theorem State.enterQueue_mem (s : State) (core ctr : Nat) (q : EngCmd) :
    (s.enterQueue core ctr q).mem = s.mem := by
  simp [State.enterQueue]

@[simp] theorem State.setLaunch_mem (s : State) (l : Launch) : (s.setLaunch l).mem = s.mem := rfl

@[simp] theorem State.failLaunch_mem (s : State) (hd code : Nat) (wid : Option Nat) :
    (s.failLaunch hd code wid).mem = s.mem := by
  obtain ⟨_, _, _, hf⟩ := failLaunch_frame s hd code wid
  rw [hf]

@[simp] theorem State.failItem_mem (s : State) (c : Ctx) (code : Nat) : (s.failItem c code).mem = s.mem := by
  obtain ⟨_, _, _, hf⟩ := failItem_frame s c code
  rw [hf]

@[simp] theorem State.wakeIdle_mem (s : State) (core : Nat) : (s.wakeIdle core).mem = s.mem := rfl

@[simp] theorem State.leaveMmag_mem (s : State) (ctx : Nat) : (s.leaveMmag ctx).mem = s.mem := by
  obtain ⟨⟨_, _, _, hf⟩, -⟩ := leaveMmag_frame s ctx
  rw [hf]

@[simp] theorem State.close_mem (s : State) (ctx : Nat) (failed : Bool) (code : Nat) :
    (s.close ctx failed code).mem = s.mem := by
  obtain ⟨⟨_, _, _, _, _, hf⟩, -⟩ := close_frame s ctx failed code
  rw [hf]

@[simp] theorem State.takeTrap_mem (s : State) (ctx cause : Nat) (tval pc : W64) (info : Option FaultInfo) :
    (s.takeTrap ctx cause tval pc info).mem = s.mem :=
  (takeTrap_frame ..).2

@[simp] theorem State.trap_mem (s : State) (cause : Nat) (tval : W64) : (s.trap cause tval).mem = s.mem := by
  simp [State.trap]

@[simp] theorem State.dropStall_mem (s : State) (ctx until_ : Nat) : (s.dropStall ctx until_).mem = s.mem := rfl

@[simp] theorem State.endAsFail_mem (s : State) (ctx : Nat) (hnum cause : Nat) (tval : W64) :
    (s.endAsFail ctx hnum cause tval).mem = s.mem :=
  (endAsFail_frame ..).2

@[simp] theorem State.eret_mem (s : State) (o : Op) (word : W64) : (s.eret o word).mem = s.mem := by
  unfold State.eret
  dsimp only
  repeat' split
  all_goals simp

theorem State.write_wf (s : State) (k n v : Nat) (h : memWf s.mem = true) : memWf (s.write k n v).mem = true :=
  memPut_wf _ _ _ _ h

theorem State.write64_wf (s : State) (k : Nat) (v : W64) (h : memWf s.mem = true) :
    memWf (s.write64 k v).mem = true := by
  grind [State.write64, State.write_wf]

theorem State.writeBytes_wf (s : State) (k : Nat) (bs : List Byte) (h : memWf s.mem = true) :
    memWf (s.writeBytes k bs).mem = true :=
  memPutBytes_wf _ _ _ h

@[simp] theorem State.clearPoison_mem (s : State) (k n : Nat) : (s.clearPoison k n).mem = s.mem := by
  obtain ⟨_, hf⟩ := clearPoison_frame s k n
  rw [hf]

@[simp] theorem State.freshNat_mem (s : State) : s.freshNat.1.mem = s.mem := rfl

@[simp] theorem State.wr2_mem (s : State) (d : R6) (v : W64) (e : R6) (w : W64) : (s.wr2 d v e w).mem = s.mem := by
  unfold State.wr2
  dsimp only
  repeat' split
  all_goals simp

@[simp] theorem State.setRegBits_mem (s : State) (a : Nat) (hi lo v : Nat) : (s.setRegBits a hi lo v).mem = s.mem :=
  rfl

theorem State.onlyIf_wf (ok : Bool) (run : State → Result) (s : State) (hr : memWf (memOf (run s)) = true) (h : memWf s.mem = true) :
    memWf (memOf (s.onlyIf ok run)) = true := by
  unfold State.onlyIf
  split
  · exact hr
  · rw [memOf_next, State.trap_mem]; exact h

theorem State.issue_wf (s : State) (srcs dsts : List R6) (body : State → State) (hb : memWf (body s).mem = true) (h : memWf s.mem = true) :
    memWf (memOf (s.issue srcs dsts body)) = true := by
  unfold State.issue
  dsimp only
  split
  · rw [memOf_next, State.hold_mem]; exact h
  · split
    · rw [memOf_next, State.trap_mem]; exact h
    · exact hb

theorem State.issueIn_wf (s : State) (room : Bool) (w : Wait) (srcs dsts : List R6) (body : State → State) (hb : memWf (body s).mem = true)
    (h : memWf s.mem = true) : memWf (memOf (s.issueIn room w srcs dsts body)) = true := by
  unfold State.issueIn
  split
  · rw [memOf_next, State.hold_mem]; exact h
  · exact State.issue_wf _ _ _ _ hb h

theorem State.issueTo_wf (s : State) (ctr : Option Nat) (srcs dsts : List R6) (body : State → State) (hb : memWf (body s).mem = true)
    (h : memWf s.mem = true) : memWf (memOf (s.issueTo ctr srcs dsts body)) = true := State.issueIn_wf _ _ _ _ _ _ hb h

theorem State.issueAcc_wf (s : State) (srcs dsts : List R6) (body : State → State) (hb : memWf (body s).mem = true) (h : memWf s.mem = true) :
    memWf (memOf (s.issueAcc srcs dsts body)) = true := by
  unfold State.issueAcc
  split
  · rw [memOf_next, State.hold_mem]; exact h
  · exact State.issue_wf _ _ _ _ hb h

theorem State.issueEng_wf (s : State) (ctr : Nat) (srcs dsts : List R6) (body : State → State) (hb : memWf (body s).mem = true)
    (h : memWf s.mem = true) : memWf (memOf (s.issueEng ctr srcs dsts body)) = true := by
  unfold State.issueEng
  split
  · rw [memOf_next, State.hold_mem]; exact h
  · exact State.issueTo_wf _ _ _ _ _ hb h

@[simp] theorem State.pendOn_mem (s : State) (o : Op) (d : R6) (op : PendOp) (e : Option R6) :
    (s.pendOn o d op e).mem = s.mem :=
  rfl

@[simp] theorem State.deliver_mem (s : State) (ctx : Nat) (p : Pend) (v : W64) : (s.deliver ctx p v).mem = s.mem :=
  rfl

@[simp] theorem State.deliver2_mem (s : State) (ctx : Nat) (p : Pend) (v : W64) (x4 : Option W64) :
    (s.deliver2 ctx p v x4).mem = s.mem := by
  unfold State.deliver2
  dsimp only
  repeat' split
  all_goals simp

@[simp] theorem State.noteSeen_mem (s : State) (cl : Nat) (t : TlbEntry) : (s.noteSeen cl t).mem = s.mem := rfl

theorem State.flushLine_wf (s : State) (l : Line) (h : memWf s.mem = true) : memWf (s.flushLine l).mem = true :=
  memMerge_wf _ _ _ _ _ h

@[simp] theorem State.dropClean_mem (s : State) (cl : Nat) : (s.dropClean cl).mem = s.mem := rfl

theorem State.makeRoom_wf (s : State) (cl : Nat) (h : memWf s.mem = true) : memWf (s.makeRoom cl).mem = true := by
  grind [State.makeRoom, State.modCluster_mem, State.flushLine_wf]

theorem State.fillLine_wf (s : State) (cl key : Nat) (h : memWf s.mem = true) :
    memWf (s.fillLine cl key).1.mem = true := by
  grind [State.fillLine, State.makeRoom_wf, State.modCluster_mem]

@[simp] theorem State.putLine_mem (s : State) (cl : Nat) (l : Line) : (s.putLine cl l).mem = s.mem := rfl

theorem State.cacheRead_wf (s : State) (cl key n : Nat) (h : memWf s.mem = true) :
    memWf (s.cacheRead cl key n).1.mem = true := by
  grind [State.cacheRead, State.fillLine_wf]

theorem State.cacheWrite_wf (s : State) (cl key n v : Nat) (h : memWf s.mem = true) :
    memWf (s.cacheWrite cl key n v).mem = true := by
  grind [State.cacheWrite, State.fillLine_wf, State.putLine_mem]

@[simp] theorem State.pageTrap_mem (s : State) (f : FaultInfo) : (s.pageTrap f).mem = s.mem := by
  simp [State.pageTrap]

end Sys2Proof.Machine
end

section
/-! Canonical memory. Control flow, helpers, items and launches. -/

namespace Sys2Proof.Machine

/- `grind` waits for the lemmas that it cites: one proof after the other. -/
set_option Elab.async false

@[simp] theorem State.dropItem_mem (s : State) (ctx : Nat) : (s.dropItem ctx).mem = s.mem := by
  unfold State.dropItem
  dsimp only
  repeat' split
  all_goals simp

@[simp] theorem State.settleItem_mem (s : State) (id : Nat) (c : Ctx) : (s.settleItem id c).mem = s.mem := rfl

@[simp] theorem State.settle_mem (s : State) : s.settle.mem = s.mem := by
  refine foldl_mem _ (fun u x => ?_) _ _
  dsimp only
  split <;> simp

@[simp] theorem State.setResident_mem (s : State) (vf : Nat) : (s.setResident vf).mem = s.mem := rfl

theorem State.journalAdd_wf (s : State) (kind die vf : Nat) (body : List W64) (h : memWf s.mem = true) :
    memWf (s.journalAdd kind die vf body).mem = true := by
  grind [State.journalAdd, State.setRegBits_mem, State.write64_wf, foldl_wf, nil_wf]

@[simp] theorem State.replay_mem (s : State) (kind : Nat) (p : (Nat → W64) → Bool) :
    (s.replay kind p).1.mem = s.mem := by
  unfold State.replay
  dsimp only
  repeat' split
  all_goals simp

theorem State.moveRun_wf (s : State) (core v : Nat) (r : Run) (q : List Run) (h : memWf s.mem = true) :
    memWf (s.moveRun core v r q).mem = true := by
  grind [State.moveRun, State.dropClean_mem, State.modCore_mem, State.journalAdd_wf]

@[simp] theorem State.replaySteal_mem (s : State) (core : Nat) (hd : Nat) :
    (s.replaySteal core hd).1.mem = s.mem := by
  simp [State.replaySteal]

theorem State.steal_wf (s : State) (core hd : Nat) (set : List Nat) (h : memWf s.mem = true) :
    memWf (s.steal core hd set).mem = true := by
  grind [State.steal, State.replaySteal_mem, State.moveRun_wf]

theorem State.pop_wf (s : State) (core : Nat) (l : Launch) (h : memWf s.mem = true) :
    memWf (s.pop core l).1.mem = true := by
  unfold State.pop
  grind [State.steal_wf, State.modCore_mem]

@[simp] theorem State.startHelper_mem (s : State) (core slot : Nat) (f : Ctx → Ctx) :
    (s.startHelper core slot f).1.mem = s.mem := by
  simp [State.startHelper]

theorem branchIf_wf (o : Op) (srcs : List R6) (cond : State → Bool) (off : W64) (s : State) (h : memWf s.mem = true) :
    memWf (memOf (branchIf o srcs cond off s)) = true := by
  grind [branchIf, State.issue_wf, State.branch_mem, State.finish_mem]

theorem jumpTo_wf (o : Op) (link : Option R6) (srcs : List R6) (target : State → W64) (s : State) (h : memWf s.mem =
    true) :
    memWf (memOf (jumpTo o link srcs target s)) = true := by
  grind [jumpTo, State.issue_wf, State.trap_mem, State.branch_mem, State.wr_mem]

theorem controlOnly_wf (run : State → Result) (s : State) (hr : memWf (memOf (run s)) = true) (h : memWf s.mem = true) :
    memWf (memOf (controlOnly run s)) = true := State.onlyIf_wf _ _ _ hr h

@[simp] theorem clearIdle_mem (s : State) : (clearIdle s).mem = s.mem := rfl

theorem startOp_wf (o : Op) (d a b : R6) (c : Option R6) (w : Nat) (mig : Bool) (s : State) (h : memWf s.mem = true) :
    memWf (memOf (startOp o d a b c w mig s)) = true := by
  grind [startOp, controlOnly_wf, State.issueAcc_wf, State.trap_mem, clearIdle_mem, State.finish_mem, State.wr_mem,
    State.startHelper_mem]

/-- Starting the helpers of an item changes contexts and launches only. -/
@[simp] theorem startItem_mem (l : Launch) (mig : Bool) (rank : Nat) (cores : List Nat) (s : State) :
    (startItem l mig rank cores s).1.mem = s.mem := by
  have fold {α : Type} {f : State × W64 → α → State × W64} (hf : ∀ p x, (f p x).1.mem = p.1.mem) (cs : List α) :
      (cs.foldl f (s, 0)).1.mem = s.mem := foldl_fst_mem f hf cs (s, 0)
  unfold startItem
  dsimp only
  split
  · rw [State.setLaunch_mem]
    exact fold (fun p x => by split <;> simp) _
  · exact fold (fun p x => by split <;> simp) _

theorem startwOp_wf (o : Op) (d a : R6) (mig : Bool) (s : State) (h : memWf s.mem = true) :
    memWf (memOf (startwOp o d a mig s)) = true := by
  grind [startwOp, controlOnly_wf, State.issueAcc_wf, clearIdle_mem, State.finish_mem, State.wr_mem, State.pop_wf,
    State.hold_mem, startItem_mem]

@[simp] theorem State.setMoor_mem (s : State) (m : Moor) : (s.setMoor m).mem = s.mem := rfl

theorem startmOp_wf (o : Op) (d : R6) (cls : Option Nat) (s : State) (h : memWf s.mem = true) :
    memWf (memOf (startmOp o d cls s)) = true := by
  grind [startmOp, controlOnly_wf, State.issueAcc_wf, clearIdle_mem, State.setMoor_mem, State.startHelper_mem,
    State.finish_mem, State.wr_mem]

theorem endHelper_wf (srcs : List R6) (failed : Bool) (code : State → Nat) (s : State) (h : memWf s.mem = true) :
    memWf (memOf (endHelper srcs failed code s)) = true := by
  grind [endHelper, State.onlyIf_wf, State.issue_wf, State.close_mem]

theorem idleOp_wf (o : Op) (s : State) (h : memWf s.mem = true) : memWf (memOf (idleOp o s)) = true := by
  grind [idleOp, controlOnly_wf, State.issue_wf, State.finish_mem, clearIdle_mem, State.hold_mem]

theorem joinOp_wf (o : Op) (d a : R6) (limit : Nat) (s : State) (h : memWf s.mem = true) :
    memWf (memOf (joinOp o d a limit s)) = true := by
  grind [joinOp, State.issue_wf, State.finish_mem, State.wr_mem, State.hold_mem]

theorem joinAnyOp_wf (o : Op) (d : R6) (limit : Nat) (s : State) (h : memWf s.mem = true) :
    memWf (memOf (joinAnyOp o d limit s)) = true := by
  grind [joinAnyOp, State.issue_wf, State.finish_mem, State.wr_mem, State.modMe_mem, State.modCore_mem,
    State.hold_mem]

theorem hstatOp_wf (o : Op) (d a : R6) (s : State) (h : memWf s.mem = true) :
    memWf (memOf (hstatOp o d a s)) = true := by
  grind [hstatOp, State.issue_wf, State.finish_mem, State.wr_mem]

@[simp] theorem State.popped_mem (s : State) : s.popped.mem = s.mem := by
  unfold State.popped
  split <;> simp

theorem popwOp_wf (o : Op) (d a : R6) (s : State) (h : memWf s.mem = true) :
    memWf (memOf (popwOp o d a s)) = true := by
  refine State.issueAcc_wf _ _ _ _ ?_ h
  grind [State.pop_wf, State.finish_mem, State.wr_mem, State.hold_mem, State.popped_mem, State.setLaunch_mem,
    State.dropItem_mem, State.modMe_mem]

theorem pushwOp_wf (o : Op) (d a : R6) (s : State) (h : memWf s.mem = true) :
    memWf (memOf (pushwOp o d a s)) = true := by
  grind [pushwOp, State.issueAcc_wf, State.finish_mem, State.wr_mem, State.hold_mem, State.setLaunch_mem,
    State.modCore_mem, State.dropClean_mem]

theorem State.pageOf_wf (s : State) (ctx a : Nat) (acc : Acc) (h : memWf s.mem = true) :
    memWf (s.pageOf ctx a acc).1.mem = true := by
  grind [State.pageOf, translate_wf]

theorem translateAll_wf (ctx : Nat) (acc : Acc) (l : List Nat) (s : State) (h : memWf s.mem = true) :
    memWf (translateAll ctx acc l s).1.mem = true := by
  fun_induction translateAll ctx acc l s <;> grind [State.pageOf_wf]

theorem readHeader_wf (ctx a : Nat) (l : List Nat) (s : State) (h : memWf s.mem = true) :
    memWf (readHeader ctx a l s).1.mem = true := by
  fun_induction readHeader ctx a l s <;> grind [State.pageOf_wf]

@[simp] theorem State.accept_mem (s : State) (l : Launch) : (s.accept l).mem = s.mem := rfl

theorem launchOp_wf (o : Op) (d a : R6) (disp : W64) (s : State) (h : memWf s.mem = true) :
    memWf (memOf (launchOp o d a disp s)) = true := by
  refine State.issueAcc_wf _ _ _ _ ?_ h
  grind [State.hold_mem, State.finish_mem, State.wr_mem, writeBack_wf, translateAll_wf, readHeader_wf,
    State.pageTrap_mem, State.accept_mem, State.active_mem, State.journalAdd_wf]

theorem lwaitOp_wf (o : Op) (d : R6) (e : Option R6) (a : R6) (s : State) (h : memWf s.mem = true) :
    memWf (memOf (lwaitOp o d e a s)) = true := by
  grind [lwaitOp, State.issueAcc_wf, State.finish_mem, State.wr2_mem, State.wr_mem, State.hold_mem,
    State.dropClean_mem]

theorem widOp_wf (o : Op) (d a b : R6) (f : Launch → Nat → Nat → Option Nat) (s : State) (h : memWf s.mem = true) :
    memWf (memOf (widOp o d a b f s)) = true := by
  grind [widOp, State.issue_wf, State.finish_mem, State.wr_mem]

theorem mfkOp_wf (o : Op) (d k : R6) (s : State) (h : memWf s.mem = true) : memWf (memOf (mfkOp o d k s)) = true := by
  grind [mfkOp, State.issue_wf, State.finish_mem, State.wr_mem]

theorem mtkOp_wf (o : Op) (k a : R6) (s : State) (h : memWf s.mem = true) : memWf (memOf (mtkOp o k a s)) = true := by
  grind [mtkOp, State.trap_mem, State.issue_wf, State.finish_mem, State.modCore_mem, State.modMe_mem, memOf, nil_wf]

end Sys2Proof.Machine
end

section
/-! Canonical memory. Accesses, tags, barriers, fences, timelines and cache operations. -/

namespace Sys2Proof.Machine

/- `grind` waits for the lemmas that it cites: one proof after the other. -/
set_option Elab.async false

@[simp] theorem State.launchAccess_mem (s : State) (o : Op) (a : W64) (size : Nat) (x : Xl) (alias_ : Bool) (q : Req)
    :
    (s.launchAccess o a size x alias_ q).mem = s.mem := by
  unfold State.launchAccess
  dsimp only
  split <;> simp

theorem checkAccess_wf (s : State) (ctx a size : Nat) (acc : Acc) (tagged : Bool) (h : memWf s.mem = true) :
    match s.checkAccess ctx a size acc tagged with
    | .ok u _ _ => memWf u.mem = true
    | .page u _ => memWf u.mem = true
    | .trap _ _ => True := by
  unfold State.checkAccess
  grind [translate_wf]

theorem accessOp_wf (o : Op) (srcs dsts : List R6) (addr : State → W64) (size : Nat) (acc : Acc) (q : Req) (s : State)
    (h : memWf s.mem = true) :
    memWf (memOf (accessOp o srcs dsts addr size acc q s)) = true := by
  refine State.issueAcc_wf _ _ _ _ ?_ h
  have := checkAccess_wf s s.cur (addr s).toNat size acc (q.op.isTagged q.sync) h
  grind [State.trap_mem, State.pageTrap_mem, State.modMe_mem, State.finish_mem, State.launchAccess_mem]

@[simp] theorem State.replyBoth_mem (s : State) (ctx : Nat) (d : Option Nat) (v : W64) (e : Option Nat) (w : W64) :
    (s.replyBoth ctx d v e w).mem = s.mem := by
  unfold State.replyBoth
  split
  · exact replyTo_mem ..
  · rw [replyTo_mem, replyTo_mem]

theorem State.fetchData_wf (s : State) (f : Flight) (h : memWf s.mem = true) :
    memWf (s.fetchData f).1.mem = true := by
  grind [State.fetchData, State.cacheRead_wf]

theorem State.storeData_wf (s : State) (f : Flight) (v : Nat) (h : memWf s.mem = true) :
    memWf (s.storeData f v).mem = true := by
  grind [State.storeData, State.cacheWrite_wf, State.write_wf, State.clearPoison_mem]

@[simp] theorem State.dropFlight_mem (s : State) (id : Nat) : (s.dropFlight id).mem = s.mem := rfl

@[simp] theorem State.poisonStop_mem (s : State) (f : Flight) : (s.poisonStop f).mem = s.mem :=
  (poisonStop_frame ..).2

theorem State.performNow_wf (s : State) (f : Flight) (h : memWf s.mem = true) :
    memWf (s.performNow f).mem = true := by
  grind [State.performNow, State.recall_wf, State.poisonStop_mem, State.fetchData_wf, State.setTag_mem,
    State.replyBoth_mem, writeBack_wf, landed_mem, State.storeData_wf, replyTo_mem]

theorem State.serve_wf (s : State) (key n : Nat) (h : memWf s.mem = true) : memWf (s.serve key n).mem = true := by
  fun_induction State.serve s key n <;> grind [State.performNow_wf]

@[simp] theorem State.backOff_mem (s : State) (f : Flight) : (s.backOff f).mem = s.mem := rfl

@[simp] theorem State.enqueueTag_mem (s : State) (f : Flight) : (s.enqueueTag f).mem = s.mem := by
  unfold State.enqueueTag
  dsimp only
  repeat' split
  all_goals simp

theorem State.arrive_wf (s : State) (f : Flight) (h : memWf s.mem = true) : memWf (s.arrive f).mem = true := by
  grind [State.arrive, State.takeTrap_mem, State.dropStall_mem, State.dropFlight_mem, State.serve_wf,
    State.performNow_wf, State.enqueueTag_mem]

@[simp] theorem State.refuseRemote_mem (s : State) (id : Nat) : (s.refuseRemote id).mem = s.mem := by
  unfold State.refuseRemote
  repeat' split
  all_goals simp

@[simp] theorem State.setBarrier_mem (s : State) (isC : Bool) (core : Nat) (b : Barrier) :
    (s.setBarrier isC core b).mem = s.mem := by
  unfold State.setBarrier
  split <;> simp

@[simp] theorem State.trapPend_mem (s : State) (ctx cause : Nat) (v : W64) (which : Pend → Bool) :
    (s.trapPend ctx cause v which).mem = s.mem := by
  unfold State.trapPend
  dsimp only
  repeat' split
  all_goals simp

@[simp] theorem State.deliverBarrier_mem (s : State) (isC : Bool) (ctx : Nat) (gen : W64) :
    (s.deliverBarrier isC ctx gen).mem = s.mem := by
  unfold State.deliverBarrier
  split <;> simp

@[simp] theorem State.joinBarrier_mem (s : State) (isC : Bool) (core ctx v : Nat) :
    (s.joinBarrier isC core ctx v).mem = s.mem := by
  unfold State.joinBarrier
  dsimp only
  repeat' split
  all_goals simp [foldl_mem]

@[simp] theorem State.rejoin_mem (isC : Bool) (core n : Nat) (l : List (Nat × Nat)) (s : State) :
    (State.rejoin isC core n l s).mem = s.mem := by
  fun_induction State.rejoin isC core n l s <;> grind [State.setBarrier_mem, State.joinBarrier_mem]

@[simp] theorem State.arriveAt_mem (s : State) (isC : Bool) (core ctx v : Nat) :
    (s.arriveAt isC core ctx v).mem = s.mem := by
  unfold State.arriveAt
  dsimp only
  repeat' split
  all_goals simp

@[simp] theorem State.leaveArrivals_mem (s : State) (ctx : Nat) : (s.leaveArrivals ctx).mem = s.mem := rfl

@[simp] theorem State.withdraw_mem (s : State) (ctx : Nat) : (s.withdraw ctx).mem = s.mem := rfl

theorem barrierOp_wf (o : Op) (isC : Bool) (d a : R6) (s : State) (h : memWf s.mem = true) :
    memWf (memOf (barrierOp o isC d a s)) = true := by
  grind [barrierOp, State.issueAcc_wf, State.trap_mem, State.pendOn_mem, State.modMe_mem]

theorem fenceOp_wf (o : Op) (w : Wait) (s : State) (h : memWf s.mem = true) :
    memWf (memOf (fenceOp o w s)) = true := by
  grind [fenceOp, State.issueAcc_wf, State.finish_mem, State.hold_mem]

theorem winwaitOp_wf (o : Op) (d a : R6) (s : State) (h : memWf s.mem = true) :
    memWf (memOf (winwaitOp o d a s)) = true := by
  grind [winwaitOp, State.issueAcc_wf, State.pendOn_mem]

theorem bindOp_wf (o : Op) (d a b : R6) (s : State) (h : memWf s.mem = true) :
    memWf (memOf (bindOp o d a b s)) = true := by
  grind [bindOp, State.issueAcc_wf, State.trap_mem, State.finish_mem, State.modMe_mem]

theorem unbindOp_wf (o : Op) (a : R6) (s : State) (h : memWf s.mem = true) :
    memWf (memOf (unbindOp o a s)) = true := by
  grind [unbindOp, State.issueAcc_wf, State.finish_mem, State.modMe_mem]

theorem State.acquireTo_wf (s : State) (core ctr n : Nat) (h : memWf s.mem = true) :
    memWf (s.acquireTo core ctr n).mem = true := by
  grind [State.acquireTo, writeBack_wf]

theorem tlwaitOp_wf (o : Op) (a b : R6) (s : State) (h : memWf s.mem = true) :
    memWf (memOf (tlwaitOp o a b s)) = true := by
  grind [tlwaitOp, State.issueAcc_wf, State.finish_mem, State.acquireTo_wf, State.hold_mem]

theorem tlreadOp_wf (o : Op) (d a : R6) (s : State) (h : memWf s.mem = true) :
    memWf (memOf (tlreadOp o d a s)) = true := by
  grind [tlreadOp, State.issue_wf, State.finish_mem, State.wr_mem]

theorem tladdOp_wf (o : Op) (d a b : R6) (s : State) (h : memWf s.mem = true) :
    memWf (memOf (tladdOp o d a b s)) = true := by
  grind [tladdOp, State.issueAcc_wf, State.pendOn_mem, State.modMe_mem]

@[simp] theorem State.advancePend_mem (s : State) (ctx : Nat) (p : Pend) : (s.advancePend ctx p).mem = s.mem := by
  unfold State.advancePend
  dsimp only
  repeat' split
  all_goals simp

@[simp] theorem State.advancePends_mem (s : State) (ctx : Nat) : (s.advancePends ctx).mem = s.mem := by
  simp [State.advancePends, foldl_mem]

theorem qwaitOp_wf (o : Op) (a : R6) (s : State) (h : memWf s.mem = true) : memWf (memOf (qwaitOp o a s)) = true := by
  grind [qwaitOp, State.issueAcc_wf, State.finish_mem, State.hold_mem]

theorem qflipOp_wf (o : Op) (s : State) (h : memWf s.mem = true) : memWf (memOf (qflipOp o s)) = true := by
  grind [qflipOp, State.issue_wf, State.finish_mem, State.modMe_mem]

theorem qreadOp_wf (o : Op) (d : R6) (s : State) (h : memWf s.mem = true) : memWf (memOf (qreadOp o d s)) = true := by
  grind [qreadOp, State.issue_wf, State.finish_mem, State.wr_mem]

theorem relOp_wf (o : Op) (d a : R6) (disp : W64) (sc : Nat) (s : State) (h : memWf s.mem = true) :
    memWf (memOf (relOp o d a disp sc s)) = true := by
  refine State.issueAcc_wf _ _ _ _ ?_ h
  have := checkAccess_wf s s.cur (s.rd a + disp).toNat 8 accTag true h
  grind [State.trap_mem, State.pageTrap_mem, State.modMe_mem, State.finish_mem, State.launchAccess_mem, writeBack_wf,
    State.hold_mem]

theorem prefOp_wf (o : Op) (a : R6) (disp : W64) (s : State) (h : memWf s.mem = true) :
    memWf (memOf (prefOp o a disp s)) = true := by
  grind [prefOp, State.issue_wf, State.fillLine_wf, State.noteSeen_mem, State.finish_mem]

theorem cacheOp_wf (o : Op) (inval : Bool) (a b : R6) (disp : W64) (s : State) (h : memWf s.mem = true) :
    memWf (memOf (cacheOp o inval a b disp s)) = true := by
  grind [cacheOp, State.issueAcc_wf, State.trap_mem, State.hold_mem, State.finish_mem, writeBack_wf]

end Sys2Proof.Machine
end

section
/-! Canonical memory. Vector instructions and what the pool performs. -/

namespace Sys2Proof.Machine

/- `grind` waits for the lemmas that it cites: one proof after the other. -/
set_option Elab.async false

@[simp] theorem State.raiseYield_mem (s : State) (cl : Nat) : (s.raiseYield cl).mem = s.mem := rfl

@[simp] theorem State.lowerYield_mem (s : State) (cl : Nat) : (s.lowerYield cl).mem = s.mem := by
  unfold State.lowerYield
  split <;> simp

@[simp] theorem State.claimLanes_mem (s : State) (ctx : Nat) (x : W64) : (s.claimLanes ctx x).1.mem = s.mem := by
  unfold State.claimLanes
  dsimp only
  repeat' split
  all_goals simp

@[simp] theorem State.renegLanes_mem (s : State) (ctx : Nat) : (s.renegLanes ctx).1.mem = s.mem := by
  unfold State.renegLanes
  dsimp only
  repeat' split
  all_goals simp

@[simp] theorem State.releaseLanes_mem (s : State) (ctx : Nat) : (s.releaseLanes ctx).mem = s.mem := by
  simp [State.releaseLanes]

theorem State.eltRead_wf (s : State) (cl key : Nat) (cached : Bool) (size : Nat) (h : memWf s.mem = true) :
    memWf (s.eltRead cl key cached size).1.mem = true := by
  grind [State.eltRead, State.cacheRead_wf]

theorem State.eltWrite_wf (s : State) (cl i key : Nat) (cached : Bool) (w v : Nat) (h : memWf s.mem = true) :
    memWf (s.eltWrite cl i key cached w v).mem = true := by
  grind [State.eltWrite, State.cacheWrite_wf, State.write_wf, State.eltRead_wf]

theorem loadElts_wf (cl w : Nat) (got : Map (Nat × Bool)) (l : List (Nat × Nat × Bool)) (s : State) (h : memWf s.mem =
    true) :
    memWf (loadElts cl w got l s).1.mem = true := by
  fun_induction loadElts cl w got l s <;> grind [State.eltRead_wf]

theorem State.performMem_wf (s : State) (q : VCmd) (h : memWf s.mem = true) : memWf (s.performMem q).mem = true := by
  grind [State.performMem, loadElts_wf, State.modCtx_mem, State.endAsFail_mem, State.eltWrite_wf, foldl_wf, nil_wf]

theorem State.performVector_wf (s : State) (q : VCmd) (h : memWf s.mem = true) :
    memWf (s.performVector q).mem = true := by
  grind [State.performVector, State.modCtx_mem, State.claimLanes_mem, State.renegLanes_mem, State.releaseLanes_mem,
    State.performMem_wf, State.setCtx_mem]

@[simp] theorem State.tagTrap_mem (s : State) (fs : List TagFault) : (s.tagTrap fs).mem = s.mem := by
  unfold State.tagTrap
  dsimp only
  split
  · rfl
  · exact State.trap_mem ..

@[simp] theorem State.windowTrap_mem (s : State) (outs : List Nat) : (s.windowTrap outs).mem = s.mem :=
  State.trap_mem ..

@[simp] theorem State.sendV_mem (s : State) (o : Op) (m : VMod) (srcs : List (Nat × Bool)) (tags : List (Nat × Nat))
    (op : VOp) :
    (s.sendV o m srcs tags op).mem = s.mem := by
  unfold State.sendV
  dsimp only
  repeat' split
  all_goals simp

theorem State.vecChecks_wf (regs : List Nat) (faults : Ctx → List TagFault) (body : State → State) (s : State) (hb : memWf (body s).mem = true)
    (h : memWf s.mem = true) : memWf (State.vecChecks regs faults body s).mem = true := by
  unfold State.vecChecks
  dsimp only
  split
  · rw [State.windowTrap_mem]; exact h
  · split
    · rw [State.tagTrap_mem]; exact h
    · exact hb

theorem vecOp_wf (o : Op) (srcs dsts : List R6) (regs : List Nat) (faults : Ctx → List TagFault) (body : State → State) (s : State)
    (hb : memWf (body s).mem = true) (h : memWf s.mem = true) : memWf (memOf (vecOp o srcs dsts regs faults body s)) = true :=
  State.issueTo_wf _ _ _ _ _ (State.vecChecks_wf _ _ _ _ hb h) h

theorem vecHere_wf (srcs dsts : List R6) (regs : List Nat) (body : State → State) (s : State) (hb : memWf (body s).mem = true)
    (h : memWf s.mem = true) : memWf (memOf (vecHere srcs dsts regs body s)) = true :=
  State.issue_wf _ _ _ _ (State.vecChecks_wf _ _ _ _ hb h) h

theorem elemOp_wf (o : Op) (f : VFun) (d : R6) (srcs : List (R6 × Bit)) (m : VMod) (s : State) (h : memWf s.mem =
    true) :
    memWf (memOf (elemOp o f d srcs m s)) = true :=
  vecOp_wf o _ _ _ _ _ _ (by rw [State.sendV_mem]; exact h) h

theorem maskOp_wf (o : Op) (f : Nat) (d : R6) (srcs : List R6) (s : State) (h : memWf s.mem = true) :
    memWf (memOf (maskOp o f d srcs s)) = true :=
  vecOp_wf o _ _ _ _ _ _ (by rw [State.sendV_mem]; exact h) h

theorem maskScanOp_wf (o : Op) (first : Bool) (d a : R6) (m : VMod) (s : State) (h : memWf s.mem = true) :
    memWf (memOf (maskScanOp o first d a m s)) = true :=
  vecOp_wf o _ _ _ _ _ _ (by rw [State.sendV_mem]; exact h) h

theorem iotaOp_wf (o : Op) (d : R6) (m : VMod) (s : State) (h : memWf s.mem = true) :
    memWf (memOf (iotaOp o d m s)) = true :=
  vecOp_wf o _ _ _ _ _ _ (by rw [State.sendV_mem]; exact h) h

theorem moveOp_wf (o : Op) (mk : Nat → Nat → Nat → VOp) (d a : R6) (m : VMod) (s : State) (h : memWf s.mem = true) :
    memWf (memOf (moveOp o mk d a m s)) = true :=
  vecOp_wf o _ _ _ _ _ _ (by rw [State.sendV_mem]; exact h) h

theorem bcastOp_wf (o : Op) (d a : R6) (m : VMod) (s : State) (h : memWf s.mem = true) :
    memWf (memOf (bcastOp o d a m s)) = true :=
  vecOp_wf o _ _ _ _ _ _ (by rw [State.sendV_mem]; exact h) h

theorem extrOp_wf (o : Op) (d a b : R6) (m : VMod) (s : State) (h : memWf s.mem = true) :
    memWf (memOf (extrOp o d a b m s)) = true :=
  vecOp_wf o _ _ _ _ _ _ (by rw [State.sendV_mem]; exact h) h

theorem insOp_wf (o : Op) (d a b : R6) (m : VMod) (s : State) (h : memWf s.mem = true) :
    memWf (memOf (insOp o d a b m s)) = true :=
  vecOp_wf o _ _ _ _ _ _ (by rw [State.sendV_mem]; exact h) h

theorem permOp_wf (o : Op) (d a b : R6) (m : VMod) (s : State) (h : memWf s.mem = true) :
    memWf (memOf (permOp o d a b m s)) = true :=
  vecOp_wf o _ _ _ _ _ _ (by rw [State.sendV_mem]; exact h) h

theorem slideOp_wf (o : Op) (up : Bool) (d a b : R6) (m : VMod) (s : State) (h : memWf s.mem = true) :
    memWf (memOf (slideOp o up d a b m s)) = true :=
  vecOp_wf o _ _ _ _ _ _ (by rw [State.sendV_mem]; exact h) h

theorem redOp_wf (o : Op) (f : VRed) (d a b : R6) (m : VMod) (s : State) (h : memWf s.mem = true) :
    memWf (memOf (redOp o f d a b m s)) = true :=
  vecOp_wf o _ _ _ _ _ _ (by rw [State.sendV_mem]; exact h) h

theorem vtagOp_wf (o : Op) (d : R6) (fmt : Nat) (s : State) (h : memWf s.mem = true) :
    memWf (memOf (vtagOp o d fmt s)) = true :=
  vecOp_wf o _ _ _ _ _ _ (by rw [State.sendV_mem]; exact h) h

theorem vtagrOp_wf (o : Op) (d a : R6) (s : State) (h : memWf s.mem = true) :
    memWf (memOf (vtagrOp o d a s)) = true := 
  vecHere_wf _ _ _ _ _ (by simpa using h) h

theorem cvtOp_wf (o : Op) (up : Bool) (d a b : R6) (m : VMod) (sat sr : Bit) (s : State) (h : memWf s.mem = true) :
    memWf (memOf (cvtOp o up d a b m sat sr s)) = true := by
  grind [cvtOp, State.trap_mem, vecOp_wf, State.sendV_mem, memOf, nil_wf]

theorem cvtiOp_wf (o : Op) (d a : R6) (m : VMod) (sr : Bit) (s : State) (h : memWf s.mem = true) :
    memWf (memOf (cvtiOp o d a m sr s)) = true :=
  vecOp_wf o _ _ _ _ _ _ (by rw [State.sendV_mem]; exact h) h

theorem qscaleOp_wf (o : Op) (d a e : R6) (m : VMod) (sr : Bit) (s : State) (h : memWf s.mem = true) :
    memWf (memOf (qscaleOp o d a e m sr s)) = true := by
  grind [qscaleOp, State.trap_mem, vecOp_wf, State.freshNat_mem, State.sendV_mem, memOf, nil_wf]

theorem mergeOp_wf (o : Op) (d a b : R6) (m : VMod) (s : State) (h : memWf s.mem = true) :
    memWf (memOf (mergeOp o d a b m s)) = true :=
  vecOp_wf o _ _ _ _ _ _ (by rw [State.sendV_mem]; exact h) h

theorem vsyncOp_wf (o : Op) (s : State) (h : memWf s.mem = true) : memWf (memOf (vsyncOp o s)) = true := 
  vecHere_wf _ _ _ _ _ (by split <;> simpa using h) h

theorem claimOp_wf (o : Op) (d a : Option R6) (mk : State → Nat → VOp) (s : State) (h : memWf s.mem = true) :
    memWf (memOf (claimOp o d a mk s)) = true :=
  vecOp_wf o _ _ _ _ _ _ (by rw [State.sendV_mem]; exact h) h

theorem checkElts_wf (size : Nat) (acc : Acc) (l : List (Nat × Nat)) (r : VChecked) (h : memWf r.state.mem = true) :
    memWf (checkElts size acc l r).state.mem = true := by
  induction l generalizing r with
  | nil => exact h
  | cons e l ih =>
    have := checkAccess_wf r.state r.state.cur e.2 size acc false h
    grind [checkElts]

theorem vmemOp_wf (o : Op) (store whole : Bool) (d a : R6) (srcs : List R6) (idx : Option R6) (disp : W64) (m : VMod)
    (offset : State → Nat → Nat → W64) (s : State) (h : memWf s.mem = true) :
    memWf (memOf (vmemOp o store whole d a srcs idx disp m offset s)) = true := by
  unfold vmemOp
  dsimp only
  split
  · rw [memOf_next, State.hold_mem]; exact h
  · refine vecOp_wf _ _ _ _ _ _ _ ?_ h
    grind [State.hold_mem, State.trap_mem, State.pageTrap_mem, State.sendV_mem, checkElts_wf]

end Sys2Proof.Machine
end

section
/-! Canonical memory. Engine queues, plans and what an engine writes. -/

namespace Sys2Proof.Machine

/- `grind` waits for the lemmas that it cites: one proof after the other. -/
set_option Elab.async false

@[simp] theorem State.sendEng_mem (s : State) (o : Op) (ctr : Nat) (d : Option R6) (ph : Bit) (op : EngOp) (accept acq
    : Bool) :
    (s.sendEng o ctr d ph op accept acq).mem = s.mem := by
  unfold State.sendEng
  dsimp only
  repeat' split
  all_goals simp

theorem State.engKey_wf (s : State) (core : Nat) (q : EngCmd) (acc : Acc) (a : Nat) (h : memWf s.mem = true) :
    memWf (s.engKey core q acc a).1.mem = true := by
  grind [State.engKey, translate_wf]

theorem State.engKeyOr_wf (s : State) (core : Nat) (q : EngCmd) (acc : Acc) (a : Nat) (h : memWf s.mem = true) :
    memWf (s.engKeyOr core q acc a).1.mem = true := by
  grind [State.engKeyOr, State.engKey_wf]

theorem State.engKeys_wf (core : Nat) (q : EngCmd) (acc : Acc) (l : List (Nat × Nat)) (s : State) (h : memWf s.mem =
    true) :
    memWf (State.engKeys core q acc l s).1.mem = true := by
  fun_induction State.engKeys core q acc l s <;> grind [State.engKeyOr_wf]

theorem State.engPieces_wf (s : State) (core : Nat) (q : EngCmd) (a len : Nat) (h : memWf s.mem = true) :
    memWf (s.engPieces core q a len).1.mem = true := by
  grind [State.engPieces, State.engKeys_wf]

theorem State.engReads_wf (core : Nat) (q : EngCmd) (r : State × Except EngStop (List (Nat × Nat))) (h : memWf r.1.mem = true) :
    memWf (State.engReads core q r).1.mem = true := by
  unfold State.engReads
  split
  · split
    · exact h
    · exact writeBack_wf _ _ _ _ h
  · exact h

theorem State.engSource_wf (s : State) (core : Nat) (q : EngCmd) (a len : Nat) (h : memWf s.mem = true) :
    memWf (s.engSource core q a len).1.mem = true :=
  State.engReads_wf _ _ _ (State.engPieces_wf _ _ _ _ _ h)

theorem State.engDest_wf (s : State) (core : Nat) (q : EngCmd) (a len : Nat) (h : memWf s.mem = true) :
    memWf (s.engDest core q a len).1.mem = true := by
  grind [State.engDest, State.engKeys_wf]

theorem State.laterPieces_wf (s : State) (core : Nat) (q : EngCmd) (a len : Nat) (h : memWf s.mem = true) :
    memWf (s.laterPieces core q a len).1.mem = true := by
  grind [State.laterPieces, State.engPieces_wf]

theorem State.laterSource_wf (s : State) (core : Nat) (q : EngCmd) (a len : Nat) (h : memWf s.mem = true) :
    memWf (s.laterSource core q a len).1.mem = true :=
  State.engReads_wf _ _ _ (State.laterPieces_wf _ _ _ _ _ h)

theorem State.readEarly_wf (s : State) (core : Nat) (q : EngCmd) (ks : List Nat) (h : memWf s.mem = true) :
    memWf (s.readEarly core q ks).1.mem = true := by
  grind [State.readEarly, writeBack_wf]

theorem State.perform_wf (s : State) (p : Plan) (sel : Nat → Bool) (h : memWf s.mem = true) :
    memWf (s.perform p sel).mem = true := by
  unfold State.perform
  dsimp only
  split
  on_goal 1 => rw [foldl_mem _ fun u w => State.setPoison_mem u w true]
  all_goals
    refine foldl_wf _ (fun u w hu => ?_) _ _ (putPairs_wf _ _ h)
    split
    · exact State.serve_wf _ _ _ hu
    · exact hu

theorem State.performFor_wf (s : State) (vf : Nat) (p : Plan) (sel : Nat → Bool) (h : memWf s.mem = true) :
    memWf (s.performFor vf p sel).mem = true :=
  foldl_wf _ (fun _ _ hu => memSet_wf _ _ _ hu) _ _ (State.perform_wf _ _ _ h)

theorem State.putBytes_wf (s : State) (ps : List (Nat × Nat)) (vs : List (Option Byte)) (tag : Option Bool) (h : memWf
    s.mem = true) :
    memWf (s.putBytes ps vs tag).mem = true := by
  grind [State.putBytes, State.perform_wf]

@[simp] theorem State.poisoned_mem (s : State) (q : EngCmd) (at_ : Option W64) : (s.poisoned q at_).mem = s.mem := by
  unfold State.poisoned
  split <;> simp

@[simp] theorem State.noteDest_mem (s : State) (core ctr : Nat) (q : EngCmd) (ps : List (Nat × Nat)) :
    (s.noteDest core ctr q ps).mem = s.mem :=
  rfl

end Sys2Proof.Machine
end

section
/-! Canonical memory. Actors, messages, berths and directories. -/

namespace Sys2Proof.Machine

/- `grind` waits for the lemmas that it cites: one proof after the other. -/
set_option Elab.async false

@[simp] theorem State.dropMoor_mem (s : State) (m : Moor) : (s.dropMoor m).mem = s.mem := rfl

@[simp] theorem State.takeRun_mem (s : State) (core len : Nat) : (s.takeRun core len).1.mem = s.mem := by
  unfold State.takeRun
  dsimp only
  repeat' split
  all_goals simp

@[simp] theorem State.emptySlots_mem (s : State) (core off size : Nat) : (s.emptySlots core off size).mem = s.mem :=
  rfl

theorem State.writeSlot_wf (s : State) (k : Nat) (m : Msg) (h : memWf s.mem = true) :
    memWf (s.writeSlot k m).mem = true := by
  grind [State.writeSlot, State.clearPoison_mem, State.writeBytes_wf, State.serve_wf, State.setTag_mem]

theorem State.drainChamber_wf (s : State) (m : Moor) (n : Nat) (h : memWf s.mem = true) :
    memWf (s.drainChamber m n).1.mem = true := by
  fun_induction State.drainChamber s m n <;> grind [State.writeSlot_wf, State.wakeIdle_mem]

@[simp] theorem State.dirCount_mem (s : State) (d : Nat) (up : Bool) : (s.dirCount d up).mem = s.mem := rfl

theorem State.dirDrop_wf (s : State) (d k : Nat) (h : memWf s.mem = true) : memWf (s.dirDrop d k).mem = true := by
  grind [State.dirDrop, State.dirCount_mem, State.write64_wf]

theorem State.copyWords_wf (s : State) (src dst n : Nat) (h : memWf s.mem = true) :
    memWf (s.copyWords src dst n).mem = true := by
  grind [State.copyWords, State.writeBytes_wf, State.setPoison_mem, State.setTag_mem, foldl_wf, nil_wf]

@[simp] theorem State.refuse_mem (s : State) (m : Msg) : (s.refuse m).mem = s.mem := by
  unfold State.refuse
  split <;> simp

theorem State.noteBerth_wf (s : State) (r : ClassRec) (key : W64) (core : Nat) (h : memWf s.mem = true) :
    memWf (s.noteBerth r key core).mem = true := by
  grind [State.noteBerth, State.replay_mem, State.journalAdd_wf]

theorem State.takeBerth_wf (s : State) (r : ClassRec) (m : Moor) (c : Nat) (h : memWf s.mem = true) :
    memWf (s.takeBerth r m c).1.mem = true := by
  grind [State.takeBerth, State.takeRun_mem, State.emptySlots_mem, State.noteBerth_wf]

theorem State.findBerth_wf (s : State) (m : Moor) (h : memWf s.mem = true) : memWf (s.findBerth m).1.mem = true := by
  grind [State.findBerth, State.takeBerth_wf]

theorem State.retryMoorings_wf (s : State) (core : Nat) (h : memWf s.mem = true) :
    memWf (s.retryMoorings core).mem = true := by
  grind [State.retryMoorings, State.findBerth_wf, State.setMoor_mem, foldl_wf, nil_wf]

theorem State.startMooring_wf (s : State) (r : ClassRec) (key : W64) (chamber : List Msg) (h : memWf s.mem = true) :
    memWf (s.startMooring r key chamber).mem = true := by
  grind [State.startMooring, State.findBerth_wf]

theorem State.letIn_wf (s : State) (slice n : Nat) (h : memWf s.mem = true) : memWf (s.letIn slice n).mem = true := by
  fun_induction State.letIn s slice n <;> grind [State.startMooring_wf, State.refuse_mem, foldl_mem,
    State.modSlice_mem]

theorem State.letAll_wf (s : State) (h : memWf s.mem = true) : memWf s.letAll.mem = true := by
  grind [State.letAll, State.letIn_wf, foldl_wf, nil_wf]

theorem State.acceptMsg_wf (s : State) (slice : Nat) (r : ClassRec) (m : Msg) (h : memWf s.mem = true) :
    memWf (s.acceptMsg slice r m).mem = true := by
  grind [State.acceptMsg, State.drainChamber_wf, State.setMoor_mem, State.startMooring_wf, State.modSlice_mem]

@[simp] theorem State.postMsg_mem (s : State) (m : Msg) : (s.postMsg m).mem = s.mem := by
  simp [State.postMsg]

@[simp] theorem State.ethDrop_mem (s : State) (port : Nat) (why : EthDrop) : (s.ethDrop port why).mem = s.mem := rfl

@[simp] theorem State.ethReply_mem (s : State) (m : Msg) : (s.ethReply m).mem = s.mem := by
  unfold State.ethReply
  dsimp only
  repeat' split
  all_goals simp

theorem State.imagePieces_wf (s : State) (a len : Nat) (h : memWf s.mem = true) :
    memWf (s.imagePieces a len).1.mem = true := by
  have pages : ∀ r ∈ (chunks a len).filterMap (fun p => match State.engKeys s.myCore (s.command 0 0 .empty true none)
    accLoad [p] s with
    | (t, .error f) => some (t, f)
    | _ => none), memWf r.1.mem = true := by
    intro r hr
    obtain ⟨p, -, hp⟩ := List.mem_filterMap.1 hr
    grind [State.engKeys_wf]
  unfold State.imagePieces
  dsimp only
  split
  · exact h
  case h_2 hp => exact pages _ (List.mem_of_find?_eq_some hp)
  · exact h
  case h_4 hp => exact pages _ (hp ▸ List.mem_cons_self)
  · grind [State.engKeys_wf]

theorem State.readImage_wf (s : State) (a len : Nat) (h : memWf s.mem = true) :
    memWf (s.readImage a len).1.mem = true := by
  grind [State.readImage, State.imagePieces_wf, writeBack_wf]

@[simp] theorem State.imageStop_mem (s : State) (e : ImageStop) : (s.imageStop e).mem = s.mem := by
  unfold State.imageStop
  split <;> simp

theorem State.withImage_wf (s : State) (a : Nat) (ph : Bit) (origin : Nat) (k : State → Option Msg → State)
    (hk : ∀ t m, memWf t.mem = true → memWf (k t m).mem = true) (h : memWf s.mem = true) : memWf ((State.withImage s a ph origin k).mem) = true := by
  unfold State.withImage
  grind [State.readImage_wf, State.imageStop_mem]

@[simp] theorem State.sendLocal_mem (s : State) (o : Op) (d : R6) (m : Msg) : (s.sendLocal o d m).mem = s.mem := by
  grind [State.sendLocal, State.finish_mem, State.wr_mem, State.active_mem, State.ethReply_mem, State.postMsg_mem,
    State.freshNat_mem, State.hold_mem]

theorem sendOp_wf (o : Op) (d a : R6) (ph : Bit) (s : State) (h : memWf s.mem = true) :
    memWf (memOf (sendOp o d a ph s)) = true := by
  grind [sendOp, State.issueAcc_wf, State.hold_mem, State.withImage_wf, State.finish_mem, State.wr_mem,
    State.sendLocal_mem]

theorem sendxOp_wf (o : Op) (d a b : R6) (ph : Bit) (s : State) (h : memWf s.mem = true) :
    memWf (memOf (sendxOp o d a b ph s)) = true := by
  grind [sendxOp, State.issueAcc_wf, State.hold_mem, State.withImage_wf, State.finish_mem, State.wr_mem,
    State.sendLocal_mem, State.active_mem]

theorem msginfoOp_wf (o : Op) (d : R6) (s : State) (h : memWf s.mem = true) :
    memWf (memOf (msginfoOp o d s)) = true := by
  grind [msginfoOp, State.issue_wf, State.finish_mem, State.wr_mem]

theorem aidleOp_wf (o : Op) (s : State) (h : memWf s.mem = true) : memWf (memOf (aidleOp o s)) = true := by
  grind [aidleOp, State.issue_wf, State.trap_mem, State.finish_mem, State.modMe_mem]

theorem State.freeEntry_wf (s : State) (m : Moor) (h : memWf s.mem = true) : memWf (s.freeEntry m).mem = true := by
  grind [State.freeEntry, State.letIn_wf, State.dropMoor_mem]

theorem State.eraseAnswer_wf (s : State) (r : ClassRec) (key : W64) (h : memWf s.mem = true) :
    memWf (s.eraseAnswer r key).1.mem = true := by
  grind [State.eraseAnswer, State.freeEntry_wf, State.dirDrop_wf]

theorem aeraseOp_wf (o : Op) (d a b : R6) (s : State) (h : memWf s.mem = true) :
    memWf (memOf (aeraseOp o d a b s)) = true := by
  grind [aeraseOp, State.issueAcc_wf, State.finish_mem, State.wr_mem, State.pendOn_mem, State.eraseAnswer_wf]

theorem State.answerErase_wf (s : State) (ctx : Nat) (p : Pend) (h : memWf s.mem = true) :
    memWf (s.answerErase ctx p).mem = true := by
  grind [State.answerErase, State.deliver_mem, State.modCtx_mem, State.eraseAnswer_wf]

@[simp] theorem State.orderShift_mem (s : State) (vf cls : Nat) (key : W64) (core : Nat) :
    (s.orderShift vf cls key core).1.mem = s.mem := by
  grind [State.orderShift, State.takeRun_mem, State.setMoor_mem]

theorem migrateOp_wf (o : Op) (d a b c : R6) (s : State) (h : memWf s.mem = true) :
    memWf (memOf (migrateOp o d a b c s)) = true := by
  grind [migrateOp, State.issueAcc_wf, State.orderShift_mem, State.finish_mem, State.wr_mem]

end Sys2Proof.Machine
end

section
/-! Canonical memory. Matrix instructions. -/

namespace Sys2Proof.Machine

/- `grind` waits for the lemmas that it cites: one proof after the other. -/
set_option Elab.async false

theorem State.readRows_wf (core : Nat) (q : EngCmd) (l : List Nat) (s : State) (h : memWf s.mem = true) :
    memWf (State.readRows core q l s).1.mem = true := by
  fun_induction State.readRows core q l s <;> grind [State.engSource_wf]

theorem State.readPair_wf (s : State) (core : Nat) (q : EngCmd) (x y : W64) (n : Nat) (h : memWf s.mem = true) :
    memWf (s.readPair core q x y n).1.mem = true := by
  grind [State.readPair, State.readRows_wf]

theorem State.operand_wf (s : State) (core : Nat) (q : EngCmd) (src : MatSrc) (n : Nat) (h : memWf s.mem = true) :
    memWf (s.operand core q src n).1.mem = true := by
  unfold State.operand
  grind [State.readPair_wf]

@[simp] theorem State.cacheRecord_mem (s : State) (core idx : Nat) (ws : List W64) :
    (s.cacheRecord core idx ws).mem = s.mem :=
  rfl

@[simp] theorem State.findRecord_mem (s : State) (core vf idx : Nat) : (s.findRecord core vf idx).1.mem = s.mem := by
  grind [State.findRecord, State.cacheRecord_mem]

@[simp] theorem State.checkRecords_mem (core : Nat) (q : EngCmd) (fmt : Nat) (l : List W32) (s : State) :
    (State.checkRecords core q fmt l s).1.mem = s.mem := by
  fun_induction State.checkRecords core q fmt l s <;> grind [State.findRecord_mem]

@[simp] theorem matCheck_mem (core : Nat) (q : EngCmd) (s : State) : (matCheck core q s).1.mem = s.mem := by
  grind [matCheck, State.checkRecords_mem]

@[simp] theorem State.product_mem (s : State) (core : Nat) (q : EngCmd) (d : Nat) (bad : Option W64) (x : BitVec
    32768) :
    (s.product core q d bad x).mem = s.mem := by
  unfold State.product
  split <;> simp

theorem mmaEffect_wf (core : Nat) (q : EngCmd) (k : MatKind) (d : Nat) (a b : MatSrc) (fmt n : Nat) (z : Bool) (o1 o2
    : Nat) (s : State) (h : memWf s.mem = true) :
    memWf (mmaEffect core q k d a b fmt n z o1 o2 s).memOf = true := by
  grind [mmaEffect, State.operand_wf, State.product_mem, EngOut.memOf, nil_wf]

theorem State.recordRows_wf (s : State) (core : Nat) (q : EngCmd) (x y : W64) (n : Nat) (h : memWf s.mem = true) :
    memWf (s.recordRows core q x y n).1.mem = true := by
  grind [State.recordRows, State.readPair_wf]

theorem readRecords_wf (core : Nat) (q : EngCmd) (n : Nat) (l : List (List W64)) (s : State) (h : memWf s.mem = true)
    :
    memWf (readRecords core q n l s).1.mem = true := by
  fun_induction readRecords core q n l s <;> grind [State.recordRows_wf]

theorem mmaxEffect_wf (core : Nat) (q : EngCmd) (d : Nat) (a : MatSrc) (fmt n : Nat) (z : Bool) (s : State) (h : memWf
    s.mem = true) :
    memWf (mmaxEffect core q d a fmt n z s).memOf = true := by
  grind [mmaxEffect, State.operand_wf, readRecords_wf, State.product_mem, EngOut.memOf, nil_wf]

theorem loadInto_wf (core : Nat) (q : EngCmd) (a : W64) (len : Nat) (put : Nat → CoreSt → CoreSt) (s : State) (h :
    memWf s.mem = true) :
    memWf (loadInto core q a len put s).memOf = true := by
  grind [loadInto, State.engSource_wf, State.poisoned_mem, State.modCore_mem, EngOut.memOf, nil_wf]

theorem storeFrom_wf (core : Nat) (q : EngCmd) (a : W64) (len v : Nat) (s : State) (h : memWf s.mem = true) :
    memWf (storeFrom core q a len v s).memOf = true := by
  grind [storeFrom, State.engDest_wf, EngOut.memOf, nil_wf]

@[simp] theorem orldEffect_mem (core : Nat) (q : EngCmd) (first n : Nat) (s : State) :
    (orldEffect core q first n s).mem = s.mem := by
  grind [orldEffect, State.poisoned_mem, State.cacheRecord_mem, foldl_mem]

theorem matEffect_wf (core : Nat) (q : EngCmd) (s : State) (h : memWf s.mem = true) :
    memWf (matEffect core q s).memOf = true := by
  grind [matEffect, mmaEffect_wf, mmaxEffect_wf, loadInto_wf, storeFrom_wf, State.modCore_mem, State.modCtx_mem,
    orldEffect_mem, EngOut.memOf, nil_wf]

@[simp] theorem State.tileTrap_mem (s : State) (fs : List TagFault) : (s.tileTrap fs).mem = s.mem := by
  unfold State.tileTrap
  dsimp only
  split
  · rfl
  · exact State.trap_mem ..

@[simp] theorem State.mmaxTrap_mem (s : State) (fs gs : List TagFault) : (s.mmaxTrap fs gs).mem = s.mem := by
  grind [State.mmaxTrap, State.freshNat_mem, State.tileTrap_mem, State.trap_mem]

theorem mmaOp_wf (o : Op) (k : MatKind) (d a b c e : R6) (fmt : BitVec 4) (n : Byte) (as bs : Bit) (o1 o2 : Nat) (z :
    Bit) (s : State) (h : memWf s.mem = true) :
    memWf (memOf (mmaOp o k d a b c e fmt n as bs o1 o2 z s)) = true := by
  grind [mmaOp, State.issueEng_wf, State.tileTrap_mem, State.trap_mem, State.sendEng_mem]

@[simp] theorem State.gangJoin_mem (s : State) (core : Nat) : (s.gangJoin core).mem = s.mem := by
  grind [State.gangJoin, State.modCore_mem, State.takeTrap_mem, foldl_mem]

theorem mmagOp_wf (o : Op) (d a b c e : R6) (fmt : BitVec 4) (n : Byte) (as bs z : Bit) (s : State) (h : memWf s.mem =
    true) :
    memWf (memOf (mmagOp o d a b c e fmt n as bs z s)) = true := by
  grind [mmagOp, State.issueEng_wf, State.sendEng_mem, State.modCore_mem, State.hold_mem, State.tileTrap_mem,
    State.trap_mem, State.freshNat_mem, State.modMe_mem, State.gangJoin_mem]

theorem mmaxOp_wf (o : Op) (d a b c : R6) (fmt : BitVec 4) (n : Byte) (as z : Bit) (s : State) (h : memWf s.mem =
    true) :
    memWf (memOf (mmaxOp o d a b c fmt n as z s)) = true := by
  refine State.issueEng_wf _ _ _ _ _ ?_ h
  have mem (u : State) (hu : u.mem = s.mem) : memWf u.mem = true := hu ▸ h
  dsimp only
  split
  · exact mem _ (State.trap_mem ..)
  split
  · exact mem _ (State.hold_mem ..)
  generalize (if s.me.vtag b.toNat ≠ 0 ∧ s.me.vtag b.toNat ≠ 3 then _ else _ : List TagFault) = gs
  split
  · exact mem _ (State.mmaxTrap_mem ..)
  split
  · exact mem _ (State.trap_mem ..)
  · exact mem _ (State.sendEng_mem ..)

theorem matMemOp_wf (o : Op) (d : Option R6) (a : R6) (disp : W64) (len : Nat) (store : Bool) (faults : State → List
    TagFault) (mk : W64 → EngOp) (s : State) (h : memWf s.mem = true) :
    memWf (memOf (matMemOp o d a disp len store faults mk s)) = true := by
  grind [matMemOp, State.issueEng_wf, State.tileTrap_mem, State.trap_mem, State.sendEng_mem]

theorem matRegOp_wf (o : Op) (op : EngOp) (s : State) (h : memWf s.mem = true) :
    memWf (memOf (matRegOp o op s)) = true := by
  grind [matRegOp, State.issueTo_wf, State.sendEng_mem]

theorem areadOp_wf (o : Op) (d a b : R6) (fmt : BitVec 4) (s : State) (h : memWf s.mem = true) :
    memWf (memOf (areadOp o d a b fmt s)) = true := by
  grind [areadOp, State.issueTo_wf, State.trap_mem, State.hold_mem, State.modMe_mem, State.sendEng_mem]

theorem sideOp_wf (o : Op) (d a b : R6) (off cap : Nat) (mk : W64 → Nat → EngOp) (s : State) (h : memWf s.mem = true)
    :
    memWf (memOf (sideOp o d a b off cap mk s)) = true := by
  grind [sideOp, State.issueEng_wf, State.trap_mem, State.sendEng_mem]

theorem orldOp_wf (o : Op) (d a b : R6) (s : State) (h : memWf s.mem = true) :
    memWf (memOf (orldOp o d a b s)) = true := by
  grind [orldOp, State.issueEng_wf, State.trap_mem, State.sendEng_mem]

theorem gangcfgOp_wf (o : Op) (a : R6) (s : State) (h : memWf s.mem = true) :
    memWf (memOf (gangcfgOp o a s)) = true := by
  grind [gangcfgOp, State.onlyIf_wf, State.issue_wf, State.trap_mem, State.hold_mem, State.finish_mem,
    State.modCore_mem]

end Sys2Proof.Machine
end

section
/-! Canonical memory. Blocks and sequences. -/

namespace Sys2Proof.Machine

/- `grind` waits for the lemmas that it cites: one proof after the other. -/
set_option Elab.async false

@[simp] theorem State.setCharged_mem (s : State) (stack vf pool n : Nat) :
    (s.setCharged stack vf pool n).mem = s.mem :=
  rfl

@[simp] theorem State.setBlock_mem (s : State) (stack pool index : Nat) (b : Block) :
    (s.setBlock stack pool index b).mem = s.mem :=
  rfl

@[simp] theorem State.setRinsed_mem (s : State) (stack pool : Nat) (l : List Nat) :
    (s.setRinsed stack pool l).mem = s.mem :=
  rfl

@[simp] theorem State.setSeq_mem (s : State) (q : Seq) : (s.setSeq q).mem = s.mem := rfl

@[simp] theorem State.dropSeq_mem (s : State) (vf num : Nat) : (s.dropSeq vf num).mem = s.mem := rfl

@[simp] theorem State.release_mem (s : State) (stack pool index : Nat) : (s.release stack pool index).mem = s.mem :=
  rfl

@[simp] theorem State.dropRef_mem (s : State) (loose : Bool) (w : W64) : (s.dropRef loose w).mem = s.mem := by
  unfold State.dropRef
  dsimp only
  repeat' split
  all_goals simp

@[simp] theorem State.ptbPurge_mem (s : State) (vf seq n : Nat) : (s.ptbPurge vf seq n).mem = s.mem := rfl

@[simp] theorem State.cutSeq_mem (s : State) (q : Seq) (n : Nat) : (s.cutSeq q n).mem = s.mem := by
  simp [State.cutSeq, foldl_mem]

theorem blkCheck_mem {q : EngCmd} {s t : State} (h : blkCheck q s = .ok t) : t.mem = s.mem := by
  grind [blkCheck, State.dropRef_mem, State.cutSeq_mem, State.dropSeq_mem]

theorem blkRequest_wf (srcs dsts : List R6) (body : State → State) (s : State) (hb : memWf (body s).mem = true) (h :
    memWf s.mem = true) :
    memWf (memOf (blkRequest srcs dsts body s)) = true := by
  refine State.issueAcc_wf _ _ _ _ ?_ h
  grind [State.hold_mem]

theorem askOp_wf (o : Op) (srcs : List R6) (d : R6) (e : R6) (op : State → Nat → PendOp) (answer : State → Option (State × W64 × Option W64)) (s : State)
    (ha : ∀ r, answer s = some r → memWf r.1.mem = true) (h : memWf s.mem = true) : memWf (memOf (askOp o srcs d e op answer s)) = true := by
  refine State.issueAcc_wf _ _ _ _ ?_ h
  grind [State.wr2_mem, State.wr_mem, State.finish_mem, State.pendOn_mem, State.modMe_mem]

theorem State.allocate_mem {s t : State} {vf : Nat} {loose : Bool} {pools : List (Nat × Nat)} {w : W64}
    (h : s.allocate vf loose pools = .got t w) : t.mem = s.mem := by
  unfold State.allocate at h
  dsimp only at h
  split at h
  · cases h
  · split at h
    · cases h
    · cases h; simp

theorem State.allocAnswer_mem {s : State} {vf : Nat} {loose : Bool} {x : W64} {r : State × W64 × Option W64} (h : s.allocAnswer vf loose x = some r) :
    r.1.mem = s.mem := by
  grind [State.allocAnswer, State.allocate_mem, State.setSeq_mem]

theorem bshareOp_wf (o : Op) (d a b : R6) (loose : Bool) (s : State) (h : memWf s.mem = true) :
    memWf (memOf (bshareOp o d a b loose s)) = true := by
  grind [bshareOp, blkRequest_wf, State.finish_mem, State.wr_mem, State.trap_mem, State.setBlock_mem,
    State.setSeq_mem]

theorem bqueryOp_wf (o : Op) (d e a : R6) (s : State) (h : memWf s.mem = true) :
    memWf (memOf (bqueryOp o d e a s)) = true := by
  grind [bqueryOp, blkRequest_wf, State.trap_mem, State.finish_mem, State.wr2_mem]

@[simp] theorem State.seqNewAnswer_mem (s : State) (vf : Nat) (a b : W64) :
    (s.seqNewAnswer vf a b).1.mem = s.mem := by
  unfold State.seqNewAnswer
  dsimp only
  repeat' split
  all_goals simp

@[simp] theorem State.answerBlock_mem (s : State) (ctx : Nat) (p : Pend) : (s.answerBlock ctx p).mem = s.mem := by
  unfold State.answerBlock
  split
  · split
    · split
      next ha => rw [State.deliver2_mem]; exact State.allocAnswer_mem ha
      · rfl
    · rfl
  · split
    · exact State.seqNewAnswer_mem ..
    · rfl
  · rfl

@[simp] theorem State.answerAsked_mem (s : State) (core : Nat) (a : Nat × PendOp) : (s.answerAsked core a).mem = s.mem := by
  unfold State.answerAsked
  dsimp only
  split
  · split
    · split
      next ha => rw [State.modCore_mem]; exact State.allocAnswer_mem ha
      · rfl
    · rfl
  · split
    · rw [State.modCore_mem, State.seqNewAnswer_mem]
    · rfl
  · rfl

theorem blkCommand_wf (o : Op) (srcs : List R6) (d : R6) (op : State → EngOp) (s : State) (h : memWf s.mem = true) :
    memWf (memOf (blkCommand o srcs d op s)) = true := by
  grind [blkCommand, State.hold_mem, State.issueIn_wf, State.sendEng_mem, memOf, nil_wf]

theorem ptxOp_wf (o : Op) (d a b : R6) (s : State) (h : memWf s.mem = true) :
    memWf (memOf (ptxOp o d a b s)) = true := by
  grind [ptxOp, State.issue_wf, State.finish_mem, State.wrLate_mem, State.modCore_mem, State.trap_mem]

theorem ptfillOp_wf (o : Op) (d a b c : R6) (s : State) (h : memWf s.mem = true) :
    memWf (memOf (ptfillOp o d a b c s)) = true := by
  grind [ptfillOp, State.issue_wf, State.trap_mem, State.finish_mem, State.modCore_mem]

theorem ptinvOp_wf (o : Op) (a b : R6) (s : State) (h : memWf s.mem = true) :
    memWf (memOf (ptinvOp o a b s)) = true := by
  grind [ptinvOp, State.issue_wf, State.finish_mem, State.modCore_mem]

end Sys2Proof.Machine
end

section
/-! Canonical memory. Copies, gathers, barges, attention requests and sluices. -/

namespace Sys2Proof.Machine

/- `grind` waits for the lemmas that it cites: one proof after the other. -/
set_option Elab.async false

@[simp] theorem gotFrom_mem (q : EngCmd) (a : Nat) (r : State × Except EngStop (List (Nat × Nat))) :
    (gotFrom q a r).1.mem = r.1.mem := by
  obtain ⟨s, e | ps⟩ := r <;> rfl

theorem State.readKnown_wf (s : State) (core : Nat) (q : EngCmd) (a n : Nat) (h : memWf s.mem = true) :
    memWf (s.readKnown core q a n).1.mem = true := by
  unfold State.readKnown
  rw [gotFrom_mem]
  exact State.engSource_wf _ _ _ _ _ h

theorem State.readLater_wf (s : State) (core : Nat) (q : EngCmd) (a n : Nat) (h : memWf s.mem = true) :
    memWf (s.readLater core q a n).1.mem = true := by
  unfold State.readLater
  rw [gotFrom_mem]
  exact State.laterSource_wf _ _ _ _ _ h

theorem State.copyPlan_wf (s : State) (core : Nat) (q : EngCmd) (d a n : Nat) (tag : Option Bool) (list : List Nat)
    (got : Got) (h : memWf s.mem = true) :
    memWf (s.copyPlan core q d a n tag list got).memOf = true := by
  grind [State.copyPlan, State.engDest_wf, EngOut.memOf, nil_wf]

theorem copyInto_wf (core : Nat) (q : EngCmd) (d a n : Nat) (tag : Option Bool) (s : State) (h : memWf s.mem = true) :
    memWf (copyInto core q d a n tag s).memOf = true := by
  grind [copyInto, State.readKnown_wf, State.copyPlan_wf, EngOut.memOf, nil_wf]

theorem recordPieces_wf (core : Nat) (q : EngCmd) (a z : Nat) (l : List (Option Nat)) (s : State) (h : memWf s.mem =
    true) :
    memWf (recordPieces core q a z l s).1.mem = true := by
  fun_induction recordPieces core q a z l s <;> grind [State.laterPieces_wf]

theorem gatherRecords_wf (core : Nat) (q : EngCmd) (d a z w at_ : Nat) (list : List Nat) (l : List (Option Nat × Nat))
    (p : Plan) (s : State) (h : memWf s.mem = true) :
    memWf (gatherRecords core q d a z w at_ list l p s).memOf = true := by
  fun_induction gatherRecords core q d a z w at_ list l p s <;> grind [State.readLater_wf, State.copyPlan_wf,
    EngOut.memOf, nil_wf]

theorem gatherEffect_wf (core : Nat) (q : EngCmd) (d a l : W64) (z m w : Nat) (s : State) (h : memWf s.mem = true) :
    memWf (gatherEffect core q d a l z m w s).memOf = true := by
  grind [gatherEffect, State.readKnown_wf, State.engReads_wf, recordPieces_wf, gatherRecords_wf, EngOut.memOf, nil_wf,
    recordPieces_wf, State.engReads_wf]

theorem bargeEffect_wf (core : Nat) (q : EngCmd) (d a n : Nat) (s : State) (h : memWf s.mem = true) :
    memWf (bargeEffect core q d a n s).memOf = true := by
  grind [bargeEffect, State.engKeys_wf, copyInto_wf, EngOut.memOf, nil_wf]

theorem bargemEffect_wf (core : Nat) (q : EngCmd) (dests : List Nat) (a n : Nat) (s : State) (h : memWf s.mem = true)
    :
    memWf (bargemEffect core q dests a n s).memOf = true := by
  grind [bargemEffect, State.readKnown_wf, EngOut.memOf, nil_wf]

theorem State.attnBegin_wf (s : State) (core : Nat) (q : EngCmd) (a : W64) (h : memWf s.mem = true) :
    memWf (s.attnBegin core q a).1.mem = true := by
  grind [State.attnBegin, State.readKnown_wf]

theorem State.attnWrite_wf (s : State) (core : Nat) (q : EngCmd) (a : Nat) (ws : List Nat) (status : Nat) (poison :
    Bool) (read : List Nat) (h : memWf s.mem = true) :
    memWf (s.attnWrite core q a ws status poison read).memOf = true := by
  grind [State.attnWrite, State.engDest_wf, EngOut.memOf, nil_wf]

theorem attnEffect_wf (core : Nat) (q : EngCmd) (a : W64) (s : State) (h : memWf s.mem = true) :
    memWf (attnEffect core q a s).memOf = true := by
  unfold attnEffect
  grind [State.attnBegin_wf, State.readLater_wf, State.attnWrite_wf, State.poisoned_mem, EngOut.memOf, nil_wf]

theorem engEffect_wf (core : Nat) (q : EngCmd) (s : State) (h : memWf s.mem = true) :
    memWf (engEffect core q s).memOf = true := by
  grind [engEffect, copyInto_wf, gatherEffect_wf, bargeEffect_wf, bargemEffect_wf, attnEffect_wf, matEffect_wf,
    EngOut.memOf, nil_wf]

theorem cpyOp_wf (o : Op) (d a b c : R6) (ctx : Nat) (tag : Option Bool) (od : Nat) (ph : Bit) (s : State) (h : memWf
    s.mem = true) :
    memWf (memOf (cpyOp o d a b c ctx tag od ph s)) = true := by
  grind [cpyOp, State.issueEng_wf, State.trap_mem, State.sendEng_mem]

theorem cpygOp_wf (o : Op) (d a b c e : R6) (width ctx od : Nat) (ph : Bit) (s : State) (h : memWf s.mem = true) :
    memWf (memOf (cpygOp o d a b c e width ctx od ph s)) = true := by
  grind [cpygOp, State.issueEng_wf, State.trap_mem, State.sendEng_mem]

theorem bargeOp_wf (o : Op) (d a b c : R6) (od : Nat) (ph : Bit) (s : State) (h : memWf s.mem = true) :
    memWf (memOf (bargeOp o d a b c od ph s)) = true := by
  grind [bargeOp, State.issueEng_wf, State.trap_mem, State.sendEng_mem]

theorem bargemOp_wf (o : Op) (d a b c e : R6) (cl : Bool) (od : Nat) (ph : Bit) (s : State) (h : memWf s.mem = true) :
    memWf (memOf (bargemOp o d a b c e cl od ph s)) = true := by
  grind [bargemOp, State.issueEng_wf, State.trap_mem, State.sendEng_mem]

theorem attnqOp_wf (o : Op) (d a : R6) (od : Nat) (ph : Bit) (s : State) (h : memWf s.mem = true) :
    memWf (memOf (attnqOp o d a od ph s)) = true := by
  grind [attnqOp, State.issueEng_wf, State.trap_mem, State.sendEng_mem]

theorem refwaitOp_wf (o : Op) (d a : R6) (guard : Nat) (s : State) (h : memWf s.mem = true) :
    memWf (memOf (refwaitOp o d a guard s)) = true := by
  grind [refwaitOp, State.issue_wf, State.finish_mem, State.wr_mem, State.hold_mem]

theorem sluiceOp_wf (o : Op) (d a b : R6) (srcs : List R6) (expect : State → Option W64) (val : State → W64) (od :
    Nat) (ph : Bit) (s : State) (h : memWf s.mem = true) :
    memWf (memOf (sluiceOp o d a b srcs expect val od ph s)) = true := by
  grind [sluiceOp, State.issueAcc_wf, State.trap_mem, State.active_mem, State.modGroup_mem, State.modMe_mem,
    State.finish_mem]

theorem mcseqOp_wf (o : Op) (d a : R6) (s : State) (h : memWf s.mem = true) :
    memWf (memOf (mcseqOp o d a s)) = true := by
  grind [mcseqOp, State.issue_wf, State.trap_mem, State.finish_mem, State.wr_mem]

end Sys2Proof.Machine
end

section
/-! Canonical memory. Save frames, save areas, splits and error records. -/

namespace Sys2Proof.Machine

/- `grind` waits for the lemmas that it cites: one proof after the other. -/
set_option Elab.async false

theorem State.ringWrite_wf (s : State) (r : Nat) (ws : List W64) (h : memWf s.mem = true) :
    memWf (s.ringWrite r ws).mem = true := by
  grind [State.ringWrite, State.write64_wf, State.setRegBits_mem, State.clearPoison_mem, foldl_wf, nil_wf]

theorem State.pushRecord_wf (s : State) (cl r : Nat) (ws : List W64) (h : memWf s.mem = true) :
    memWf (s.pushRecord cl r ws).mem = true := by
  grind [State.pushRecord, State.ringWrite_wf, State.modCluster_mem]

theorem State.zeroRange_wf (s : State) (k n : Nat) (h : memWf s.mem = true) : memWf (s.zeroRange k n).mem = true :=
  memFilter_wf _ _ h

theorem State.putFields_wf (s : State) (a : Nat) (l : List FrameField) (h : memWf s.mem = true) :
    memWf (s.putFields a l).mem = true := by
  grind [State.putFields, State.write_wf, foldl_wf, nil_wf]

theorem State.writeFrame_wf (s : State) (a : Nat) (l : List FrameField) (h : memWf s.mem = true) :
    memWf (s.writeFrame a l).mem = true := by
  grind [State.writeFrame, State.clearPoison_mem, State.putFields_wf, State.zeroRange_wf]

@[simp] theorem State.vacate_mem (s : State) (id : Nat) : (s.vacate id).mem = s.mem := by
  unfold State.vacate
  split <;> simp

theorem State.save_wf (s : State) (id frame kind : Nat) (gang : Option (Nat × Nat)) (mat pad : Bool) (h : memWf s.mem
    = true) :
    memWf (s.save id frame kind gang mat pad).mem = true := by
  grind [State.save, State.writeFrame_wf, State.vacate_mem]

theorem State.saveMatrix_wf (s : State) (core : Nat) (back : Bool) (h : memWf s.mem = true) :
    memWf (s.saveMatrix core back).mem = true := by
  grind [State.saveMatrix, State.clearPoison_mem, State.putFields_wf, State.zeroRange_wf, State.modCore_mem]

@[simp] theorem State.areaTags_mem (s : State) (a : Nat) : (s.areaTags a).1.mem = s.mem := by
  unfold State.areaTags
  dsimp only
  repeat' split
  all_goals simp

@[simp] theorem State.restoreMatrix_mem (s : State) (core : Nat) : (s.restoreMatrix core).mem = s.mem := by
  grind [State.restoreMatrix, State.areaTags_mem, State.modCore_mem]

theorem State.setSplit_wf (s : State) (cl k : Nat) (h : memWf s.mem = true) : memWf (s.setSplit cl k).mem = true := by
  grind [State.setSplit, writeBack_wf, State.zeroRange_wf, State.modCluster_mem]

theorem State.putCells_wf (s : State) (cells : List Host.Cell) (empties : List Nat) (h : memWf s.mem = true) :
    memWf (s.putCells cells empties).mem = true :=
  foldl_wf _ (fun _ _ h => memSet_wf _ _ _ h) _ _ h

theorem memSetRange_wf (k : Nat → Nat) (v : Nat → Byte) (l : List Nat) (m : List Host.Cell) (h : memWf m = true) :
    memWf (l.foldl (fun m i => memSet m (k i) (v i)) m) = true := by
  induction l generalizing m with
  | nil => exact h
  | cons i l ih => exact ih _ (memSet_wf _ _ _ h)

theorem State.writeSave_wf (s : State) (vf : Nat) (h : memWf s.mem = true) : memWf (s.writeSave vf).mem = true := by
  have save : ∀ (lo n r : Nat) (u : State), memWf u.mem = true →
      memWf (({ u with mem := (List.range n).foldl (fun m i => memSet m (lo + i) (BitVec.ofNat 8 (r / 256 ^ i))) u.mem } :
        State).clearPoison lo n).mem = true := by
    intro lo n r u hu
    rw [State.clearPoison_mem]
    exact memSetRange_wf _ _ _ _ hu
  unfold State.writeSave
  exact save _ _ _ _ h

theorem State.savePad_wf (s : State) (cl : Nat) (h : memWf s.mem = true) : memWf (s.savePad cl).mem = true := by
  grind [State.savePad, State.modCluster_mem, State.writeSave_wf]

theorem State.restorePad_wf (s : State) (cl : Nat) (h : memWf s.mem = true) : memWf (s.restorePad cl).mem = true := by
  grind [State.restorePad, State.setSplit_wf, State.zeroRange_wf, State.modCluster_mem, State.putCells_wf]

theorem State.reissue_wf (s : State) (id : Nat) (f : Flight) (h : memWf s.mem = true) :
    memWf (s.reissue id f).mem = true := by
  have := checkAccess_wf s id f.va.toNat f.size (f.op.acc f.sync) (f.op.isTagged f.sync) h
  unfold State.reissue
  grind [State.takeTrap_mem, State.modCtx_mem]

theorem State.place_wf (s : State) (f : Saved) (slot : Nat) (h : memWf s.mem = true) :
    memWf (s.place f slot).mem = true := by
  refine foldl_wf _ (fun _ _ hu => State.reissue_wf _ _ _ hu) _ _ ?_
  split <;> exact h

end Sys2Proof.Machine
end

section
/-! Canonical memory. Events of accesses, waits, modes and errors. -/

namespace Sys2Proof.Machine

/- `grind` waits for the lemmas that it cites: one proof after the other. -/
set_option Elab.async false

theorem State.errorRecord_wf (s : State) (addr source kind vf unit : Nat) (handle : W64) (refs : Nat) (h : memWf s.mem
    = true) :
    memWf (s.errorRecord addr source kind vf unit handle refs).mem = true := by
  grind [State.errorRecord, State.write64_wf, State.setRegBits_mem, foldl_wf, nil_wf]

theorem State.corrected_wf (s : State) (source unit : Nat) (h : memWf s.mem = true) :
    memWf (s.corrected source unit).mem = true := by
  grind [State.corrected, State.errorRecord_wf]

@[simp] theorem State.withdrawNotices_mem (s : State) : s.withdrawNotices.mem = s.mem := rfl

theorem execHomeAccess_wf (id : Nat) (s : State) (h : memWf s.mem = true) :
    memWf (memOf (execHomeAccess id s)) = true := by
  grind [execHomeAccess, State.withdrawNotices_mem, State.arrive_wf, memOf, nil_wf]

theorem execBackoffReissue_wf (id : Nat) (s : State) (h : memWf s.mem = true) :
    memWf (memOf (execBackoffReissue id s)) = true := by
  grind [execBackoffReissue, State.withdrawNotices_mem, State.arrive_wf, memOf, nil_wf]

theorem execStoreAck_wf (id : Nat) (s : State) (h : memWf s.mem = true) :
    memWf (memOf (execStoreAck id s)) = true := by
  grind [execStoreAck, State.withdrawNotices_mem, State.dropFlight_mem, memOf, nil_wf]

theorem execTagWaitTimeout_wf (id : Nat) (s : State) (h : memWf s.mem = true) :
    memWf (memOf (execTagWaitTimeout id s)) = true := by
  grind [execTagWaitTimeout, State.takeTrap_mem, State.dropStall_mem, State.dropFlight_mem, memOf, nil_wf]

theorem execBarrierWaitTimeout_wf (core slot : Nat) (s : State) (h : memWf s.mem = true) :
    memWf (memOf (execBarrierWaitTimeout core slot s)) = true := by
  grind [execBarrierWaitTimeout, State.trapPend_mem, State.withdraw_mem, State.takeTrap_mem, memOf, nil_wf]

theorem execJoinLimitExpire_wf (core slot : Nat) (s : State) (h : memWf s.mem = true) :
    memWf (memOf (execJoinLimitExpire core slot s)) = true := by
  grind [execJoinLimitExpire, State.modCtx_mem, memOf, nil_wf]

theorem execQuietSweep_wf (s : State) (h : memWf s.mem = true) : memWf (memOf (execQuietSweep s)) = true := by
  grind [execQuietSweep, memOf, nil_wf]

theorem execStretchNotice_wf (win : Nat) (s : State) (h : memWf s.mem = true) :
    memWf (memOf (execStretchNotice win s)) = true := by
  grind [execStretchNotice, memOf, nil_wf]

theorem execStretchNoticeArrive_wf (dev win withdrawn : Nat) (s : State) (h : memWf s.mem = true) :
    memWf (memOf (execStretchNoticeArrive dev win withdrawn s)) = true := by
  grind [execStretchNoticeArrive, memOf, nil_wf]

theorem execRefreshAdvance_wf (die : Nat) (s : State) (h : memWf s.mem = true) :
    memWf (memOf (execRefreshAdvance die s)) = true := by
  grind [execRefreshAdvance, State.modDie_mem, memOf, nil_wf]

@[simp] theorem State.setLoading_mem (s : State) (die : Nat) (b : Bool) : (s.setLoading die b).mem = s.mem := rfl

theorem execWsLoadingEnter_wf (die : Nat) (s : State) (h : memWf s.mem = true) :
    memWf (memOf (execWsLoadingEnter die s)) = true := by
  grind [execWsLoadingEnter, State.setLoading_mem, memOf, nil_wf]

theorem execWsLoadingLeave_wf (die : Nat) (s : State) (h : memWf s.mem = true) :
    memWf (memOf (execWsLoadingLeave die s)) = true := by
  grind [execWsLoadingLeave, State.setLoading_mem, memOf, nil_wf]

theorem execSplitChange_wf (cluster : Nat) (s : State) (h : memWf s.mem = true) :
    memWf (memOf (execSplitChange cluster s)) = true := by
  grind [execSplitChange, State.modCluster_mem, State.setSplit_wf, memOf, nil_wf]

theorem State.sdWriteBack_wf (s t : State) (h : memWf t.mem = true) : memWf (s.sdWriteBack t).mem = true :=
  foldl_wf _ (fun _ _ hu => writeBack_wf _ _ _ _ hu) _ _ h

theorem execShootdown_wf (s : State) (h : memWf s.mem = true) : memWf (memOf (execShootdown s)) = true := by
  grind [execShootdown, State.sdWriteBack_wf, memOf, nil_wf]

theorem execShootdownDone_wf (s : State) (h : memWf s.mem = true) : memWf (memOf (execShootdownDone s)) = true := by
  grind [execShootdownDone, State.sdWriteBack_wf, State.setRegBits_mem, memOf, nil_wf]

theorem execCorePowerGating_wf (core : Nat) (s : State) (h : memWf s.mem = true) :
    memWf (memOf (execCorePowerGating core s)) = true := by
  grind [execCorePowerGating, State.modCore_mem, memOf, nil_wf]

theorem execPatrolScrub_wf (loc : Nat) (seen : W64) (s : State) (h : memWf s.mem = true) :
    memWf (memOf (execPatrolScrub loc seen s)) = true := by
  grind [execPatrolScrub, State.write64_wf, State.corrected_wf, memOf, nil_wf]

theorem execUncorrectableError_wf (site : ErrSite) (s : State) (h : memWf s.mem = true) :
    memWf (memOf (execUncorrectableError site s)) = true := by
  unfold execUncorrectableError
  grind [State.setPoison_mem, State.errorRecord_wf, State.endAsFail_mem, State.modCore_mem, memOf_next]

end Sys2Proof.Machine
end

section
/-! Canonical memory. Events of actors and ports. -/

namespace Sys2Proof.Machine

/- `grind` waits for the lemmas that it cites: one proof after the other. -/
set_option Elab.async false

theorem State.journalMsg_wf (s : State) (slice : Nat) (m : Msg) (h : memWf s.mem = true) :
    memWf (s.journalMsg slice m).mem = true := by
  grind [State.journalMsg, State.journalAdd_wf]

@[simp] theorem State.notInterrupt_mem (s : State) (i : Interrupt) : (s.notInterrupt i).mem = s.mem := rfl

@[simp] theorem State.interrupt_mem (s : State) (i : Interrupt) : (s.interrupt i).mem = s.mem := by
  unfold State.interrupt
  split <;> simp

theorem execMessageArrive_wf (slice : Nat) (s : State) (h : memWf s.mem = true) :
    memWf (memOf (execMessageArrive slice s)) = true := by
  grind [execMessageArrive, State.notInterrupt_mem, State.modSlice_mem, State.refuse_mem, State.journalMsg_wf,
    State.acceptMsg_wf, memOf, nil_wf]

theorem execSliceInputStallAlert_wf (slice : Nat) (s : State) (h : memWf s.mem = true) :
    memWf (memOf (execSliceInputStallAlert slice s)) = true := by
  grind [execSliceInputStallAlert, State.interrupt_mem, memOf, nil_wf]

theorem State.createState_wf (s : State) (r : ClassRec) (k : Nat) (h : memWf s.mem = true) :
    memWf (s.createState r k).mem = true := by
  refine foldl_wf _ (fun u w hu => ?_) _ _ ?_
  · exact hu
  · split
    · exact memPutBytes_wf _ _ _ h
    · exact memFilter_wf _ _ h

theorem State.fetchState_wf (s : State) (r : ClassRec) (m : Moor) (k : Nat) (h : memWf s.mem = true) :
    memWf (s.fetchState r m k).mem = true := by
  grind [State.fetchState, State.dirDrop_wf, State.copyWords_wf, State.createState_wf]

@[simp] theorem State.holdOp_mem (s : State) (m : Moor) : (s.holdOp m).mem = s.mem := by
  unfold State.holdOp
  split <;> simp

theorem execMooringComplete_wf (cls : Nat) (key : W64) (s : State) (h : memWf s.mem = true) :
    memWf (memOf (execMooringComplete cls key s)) = true := by
  grind [execMooringComplete, State.findBerth_wf, State.holdOp_mem, State.setMoor_mem, State.fetchState_wf,
    State.drainChamber_wf, memOf, nil_wf]

theorem execMailboxSlotFreed_wf (cls : Nat) (key : W64) (s : State) (h : memWf s.mem = true) :
    memWf (memOf (execMailboxSlotFreed cls key s)) = true := by
  grind [execMailboxSlotFreed, State.setTag_mem, State.drainChamber_wf, State.setMoor_mem, memOf, nil_wf]

theorem execLayupRequest_wf (core : Nat) (s : State) (h : memWf s.mem = true) :
    memWf (memOf (execLayupRequest core s)) = true := by
  grind [execLayupRequest, State.setMoor_mem, memOf, nil_wf]

theorem execUnmoorOrder_wf (cls : Nat) (key : W64) (s : State) (h : memWf s.mem = true) :
    memWf (memOf (execUnmoorOrder cls key s)) = true := by
  grind [execUnmoorOrder, State.setMoor_mem, memOf, nil_wf]

@[simp] theorem State.growDir_mem (s : State) (d : Nat) : (s.growDir d).mem = s.mem := by
  simp [State.growDir]

theorem State.layUp_wf (s : State) (r : ClassRec) (m : Moor) (src slot : Nat) (h : memWf s.mem = true) :
    memWf (s.layUp r m src slot).mem = true := by
  grind [State.layUp, State.writeBytes_wf, State.write64_wf, State.dirCount_mem, State.copyWords_wf,
    State.clearPoison_mem]

theorem execUnmoorComplete_wf (cls : Nat) (key : W64) (s : State) (h : memWf s.mem = true) :
    memWf (memOf (execUnmoorComplete cls key s)) = true := by
  grind [execUnmoorComplete, State.holdOp_mem, State.growDir_mem, State.layUp_wf, State.retryMoorings_wf,
    State.freeEntry_wf, State.findBerth_wf, State.setMoor_mem, memOf, nil_wf]

theorem execIdleLimitExpire_wf (cls : Nat) (key : W64) (s : State) (h : memWf s.mem = true) :
    memWf (memOf (execIdleLimitExpire cls key s)) = true := by
  grind [execIdleLimitExpire, State.retryMoorings_wf, State.setMoor_mem, memOf, nil_wf]

theorem carry_wf (oc oo nc no size : Nat) (l : List (Nat × Nat × Msg)) (n : Nat) (s : State) (h : memWf s.mem = true)
    :
    memWf (carry oc oo nc no size l n s).1.mem = true := by
  fun_induction carry oc oo nc no size l n s <;> grind [State.copyWords_wf, State.setTag_mem]

theorem execShiftComplete_wf (cls : Nat) (key : W64) (s : State) (h : memWf s.mem = true) :
    memWf (memOf (execShiftComplete cls key s)) = true := by
  grind [execShiftComplete, State.emptySlots_mem, State.copyWords_wf, carry_wf, State.wakeIdle_mem,
    State.drainChamber_wf, State.setMoor_mem, memOf, nil_wf]

@[simp] theorem State.clsDone_mem (s : State) : s.clsDone.mem = s.mem := rfl

theorem execClassRegister_wf (cls : Nat) (s : State) (h : memWf s.mem = true) :
    memWf (memOf (execClassRegister cls s)) = true := by
  grind [execClassRegister, State.clsDone_mem, memOf, nil_wf]

theorem execClassWithdraw_wf (cls : Nat) (s : State) (h : memWf s.mem = true) :
    memWf (memOf (execClassWithdraw cls s)) = true := by
  grind [execClassWithdraw, State.clsDone_mem, memOf, nil_wf]

theorem execClassWithdrawDone_wf (cls : Nat) (s : State) (h : memWf s.mem = true) :
    memWf (memOf (execClassWithdrawDone cls s)) = true := by
  grind [execClassWithdrawDone, State.clsDone_mem, memOf, nil_wf]

theorem execDirectoryResume_wf (dir : Nat) (s : State) (h : memWf s.mem = true) :
    memWf (memOf (execDirectoryResume dir s)) = true := by
  grind [execDirectoryResume, State.notInterrupt_mem, State.setReg_mem, State.setRegBits_mem, memOf, nil_wf]

theorem State.rocePages_wf (s : State) (vf asid : Nat) (acc : Acc) (l : List (Nat × Nat)) (h : memWf s.mem = true) :
    memWf (s.rocePages vf asid acc l).1.mem = true := by
  fun_induction State.rocePages s vf asid acc l <;> grind [State.walked_wf]

theorem State.roce_wf (s : State) (port : Nat) (f : Frame) (r : RoceReq) (h : memWf s.mem = true) :
    memWf (s.roce port f r).mem = true := by
  grind [State.roce, State.ethDrop_mem, State.rocePages_wf, State.freshNat_mem, State.putBytes_wf]

@[simp] theorem State.holdInbound_mem (s : State) (m : Msg) : (s.holdInbound m).mem = s.mem := rfl

@[simp] theorem State.datagram_mem (s : State) (port vf : Nat) (f : Frame) : (s.datagram port vf f).mem = s.mem := by
  grind [State.datagram, State.ethDrop_mem, State.modEth_mem, State.freshNat_mem, State.postMsg_mem, State.active_mem,
    State.holdInbound_mem]

theorem execEthernetFrame_wf (port : Nat) (frame : Frame) (s : State) (h : memWf s.mem = true) :
    memWf (memOf (execEthernetFrame port frame s)) = true := by
  grind [execEthernetFrame, State.roce_wf, State.ethDrop_mem, State.datagram_mem, memOf, nil_wf]

theorem execEthernetPortEnable_wf (phys split : Nat) (s : State) (h : memWf s.mem = true) :
    memWf (memOf (execEthernetPortEnable phys split s)) = true := by
  grind [execEthernetPortEnable, State.modEth_mem, memOf, nil_wf]

theorem execTowlineMessage_wf (msg : Msg) (target : Nat) (s : State) (h : memWf s.mem = true) :
    memWf (memOf (execTowlineMessage msg target s)) = true := by
  grind [execTowlineMessage, State.modSlice_mem, State.holdInbound_mem, memOf, nil_wf]

theorem execTowlineTrain_wf (port lanes partner : Nat) (s : State) (h : memWf s.mem = true) :
    memWf (memOf (execTowlineTrain port lanes partner s)) = true := by
  grind [execTowlineTrain, State.freshNat_mem, memOf, nil_wf]

theorem execCxlPortTrain_wf (port rate kind : Nat) (s : State) (h : memWf s.mem = true) :
    memWf (memOf (execCxlPortTrain port rate kind s)) = true := by
  grind [execCxlPortTrain, memOf, nil_wf]

theorem execCxlLinkDown_wf (port : Nat) (s : State) (h : memWf s.mem = true) :
    memWf (memOf (execCxlLinkDown port s)) = true := by
  grind [execCxlLinkDown, memOf, nil_wf]

end Sys2Proof.Machine
end

section
/-! Canonical memory. Events of engines, the vector pool, sluice groups and blocks. -/

namespace Sys2Proof.Machine

/- `grind` waits for the lemmas that it cites: one proof after the other. -/
set_option Elab.async false

@[simp] theorem State.setRunning_mem (s : State) (core ctr : Nat) (q : EngCmd) :
    (s.setRunning core ctr q).mem = s.mem :=
  rfl

@[simp] theorem State.setTaken_mem (s : State) (core ctr : Nat) (q : EngCmd) : (s.setTaken core ctr q).mem = s.mem :=
  rfl

theorem State.attnKeep_wf (s : State) (core : Nat) (q : EngCmd) (h : memWf s.mem = true) :
    memWf (s.attnKeep core q).1.mem = true := by
  grind [State.attnKeep, State.attnBegin_wf]

theorem State.engBegin_wf (s : State) (core ctr : Nat) (q : EngCmd) (h : memWf s.mem = true) :
    memWf (s.engBegin core ctr q).1.mem = true := by
  unfold State.engBegin
  grind [matCheck_mem, State.attnKeep_wf, blkCheck_mem]

theorem State.beginOp_wf (s : State) (core ctr : Nat) (q : EngCmd) (h : memWf s.mem = true) :
    memWf (s.begin_ core ctr q).1.mem = true := by
  grind [State.begin_, State.engBegin_wf, State.poisoned_mem, State.modCtx_mem, State.takeTrap_mem,
    State.dropStall_mem]

theorem State.attempt_wf (s : State) (core ctr : Nat) (q : EngCmd) (h : memWf s.mem = true) :
    memWf (s.attempt core ctr q).memOf = true := by
  grind [State.attempt, State.endAsFail_mem, State.modCore_mem, engEffect_wf, EngOut.memOf, nil_wf]

theorem finishOp_wf (core ctr : Nat) (q : EngCmd) (out : EngOut) {t : State} (hf : finishOp core ctr q out = some t) (h : memWf out.memOf = true) :
    memWf t.mem = true := by
  unfold finishOp at hf
  grind [EngOut.memOf, State.performFor_wf, State.poisoned_mem, State.noteDest_mem]

theorem State.passOp_wf (s : State) (core ctr n : Nat) (h : memWf s.mem = true) :
    memWf (s.passOp core ctr n).mem = true := by
  grind [State.passOp, State.modCore_mem, State.beginOp_wf, State.setRunning_mem]

theorem jointStep_wf (ks : List Nat) (s : State) {t : State} (hj : jointStep ks s = some t) (h : memWf s.mem = true) :
    memWf t.mem = true := by
  induction ks generalizing s with
  | nil => grind [jointStep]
  | cons k ks ih => grind [jointStep, finishOp_wf, State.attempt_wf, State.passOp_wf]

@[simp] theorem State.setEngCmd_mem (s : State) (core ctr : Nat) (ahead : Bool) (q : EngCmd) :
    (s.setEngCmd core ctr ahead q).mem = s.mem := by
  unfold State.setEngCmd
  split <;> simp

theorem State.latch_wf (s : State) (core ctr : Nat) (ahead : Bool) (h : memWf s.mem = true) :
    memWf (s.latch core ctr ahead).mem = true := by
  grind [State.latch, State.attnKeep_wf, State.setEngCmd_mem]

@[simp] theorem State.accessed_mem (s : State) (core ctr : Nat) (ahead : Bool) (q : EngCmd) :
    (s.accessed core ctr ahead q).mem = s.mem := by
  simp [State.accessed]

theorem State.lastRead_wf (s : State) (core ctr : Nat) (h : memWf s.mem = true) :
    memWf (s.lastRead core ctr).mem = true := by
  grind [State.lastRead, State.latch_wf, State.attempt_wf, State.setRunning_mem, EngOut.memOf, nil_wf]

theorem execEngineCommandTake_wf (core ctr : Nat) (s : State) (h : memWf s.mem = true) :
    memWf (memOf (execEngineCommandTake core ctr s)) = true := by
  grind [execEngineCommandTake, State.modCore_mem, State.lastRead_wf, State.beginOp_wf, State.setRunning_mem,
    State.setTaken_mem, memOf, nil_wf]

@[simp] theorem State.shareRows_mem (s : State) (core : Nat) (q : EngCmd) : (s.shareRows core q).mem = s.mem := by
  grind [State.shareRows, State.setRunning_mem, foldl_mem]

theorem State.engRead_wf (s : State) (core ctr : Nat) (ahead : Bool) (ws : List Nat) (h : memWf s.mem = true) :
    memWf (s.engRead core ctr ahead ws).mem = true := by
  grind [State.engRead, State.latch_wf, State.readEarly_wf, State.accessed_mem, State.shareRows_mem]

theorem State.readOthers_wf (s : State) (core ctr : Nat) (h : memWf s.mem = true) :
    memWf (s.readOthers core ctr).mem = true := by
  grind [State.readOthers, State.engRead_wf]

theorem execEngineOpComplete_wf (core ctr : Nat) (s : State) (h : memWf s.mem = true) :
    memWf (memOf (execEngineOpComplete core ctr s)) = true := by
  grind [execEngineOpComplete, jointStep_wf, State.withdrawNotices_mem, State.readOthers_wf, finishOp_wf,
    State.attempt_wf, State.passOp_wf, memOf_next, jointStep_wf, finishOp_wf, foldl_wf]

theorem State.attemptPart_wf (s : State) (core ctr : Nat) (q : EngCmd) (h : memWf s.mem = true) :
    memWf (s.attemptPart core ctr q).memOf = true := by
  grind [State.attemptPart, State.attempt_wf, EngOut.memOf, nil_wf]

theorem State.engWrite_wf (s : State) (core ctr : Nat) (ahead : Bool) (ws : List Nat) (h : memWf s.mem = true) :
    memWf (s.engWrite core ctr ahead ws).mem = true := by
  grind [State.engWrite, State.latch_wf, State.attemptPart_wf, State.poisoned_mem, State.accessed_mem,
    State.performFor_wf, EngOut.memOf, nil_wf]

theorem execEngineFault_wf (core ctr : Nat) (s : State) (h : memWf s.mem = true) :
    memWf (memOf (execEngineFault core ctr s)) = true := by
  grind [execEngineFault, State.attempt_wf, State.pushRecord_wf, State.modCore_mem, memOf, nil_wf]

theorem execEngactRetry_wf (core ctr : Nat) (s : State) (h : memWf s.mem = true) :
    memWf (memOf (execEngactRetry core ctr s)) = true := by
  grind [execEngactRetry, State.latch_wf, State.modCore_mem, memOf, nil_wf]

theorem execEngactAbandon_wf (core ctr : Nat) (s : State) (h : memWf s.mem = true) :
    memWf (memOf (execEngactAbandon core ctr s)) = true := by
  grind [execEngactAbandon, State.modCore_mem, State.setRunning_mem, State.endAsFail_mem, memOf, nil_wf]

theorem execVectorCommandStart_wf (core : Nat) (s : State) (h : memWf s.mem = true) :
    memWf (memOf (execVectorCommandStart core s)) = true := by
  grind [execVectorCommandStart, State.modCluster_mem, State.modCore_mem, memOf, nil_wf]

theorem execVectorCommandDone_wf (core slot : Nat) (s : State) (h : memWf s.mem = true) :
    memWf (memOf (execVectorCommandDone core slot s)) = true := by
  grind [execVectorCommandDone, State.modCore_mem, State.withdrawNotices_mem, State.performVector_wf, memOf, nil_wf]

@[simp] theorem State.setGrpState_mem (s : State) (g n : Nat) : (s.setGrpState g n).mem = s.mem := rfl

@[simp] theorem State.grpDone_mem (s : State) (g : Nat) : (s.grpDone g).mem = s.mem := rfl

@[simp] theorem State.showSeq_mem (s : State) (g : Nat) : (s.showSeq g).mem = s.mem := rfl

theorem execSluiceStamp_wf (group : Nat) (s : State) (h : memWf s.mem = true) :
    memWf (memOf (execSluiceStamp group s)) = true := by
  grind [execSluiceStamp, State.modGroup_mem, State.modCtx_mem, memOf, nil_wf]

theorem State.applyStore_wf (s : State) (g : Nat) (x : SStore) (h : memWf s.mem = true) :
    memWf (s.applyStore g x).mem = true := by
  grind [State.applyStore, State.clearPoison_mem, State.write64_wf]

theorem execSluiceApply_wf (group : Nat) (s : State) (h : memWf s.mem = true) :
    memWf (memOf (execSluiceApply group s)) = true := by
  grind [execSluiceApply, State.showSeq_mem, State.modGroup_mem, State.applyStore_wf, State.setGrpState_mem, memOf,
    nil_wf]

theorem execGroupActivate_wf (group : Nat) (s : State) (h : memWf s.mem = true) :
    memWf (memOf (execGroupActivate group s)) = true := by
  grind [execGroupActivate, State.showSeq_mem, State.grpDone_mem, State.setGrpState_mem, State.modGroup_mem, memOf,
    nil_wf]

theorem execGroupReconfigure_wf (group : Nat) (s : State) (h : memWf s.mem = true) :
    memWf (memOf (execGroupReconfigure group s)) = true := by
  grind [execGroupReconfigure, State.modGroup_mem, State.showSeq_mem, State.grpDone_mem, State.setGrpState_mem, memOf,
    nil_wf]

@[simp] theorem State.groupMove_mem (s : State) (g : Nat) : (s.groupMove g).mem = s.mem := by
  unfold State.groupMove
  dsimp only
  repeat' split
  all_goals simp

theorem State.takeRegion_wf (s : State) (g : Nat) (h : memWf s.mem = true) : memWf (s.takeRegion g).mem = true := by
  unfold State.takeRegion
  dsimp only
  split
  · exact memSets_wf _ _ _ (memFilter_wf _ _ h)
  · exact foldl_wf _ (fun _ _ hu => State.applyStore_wf _ _ _ hu) _ _ h

theorem execGroupResynchronise_wf (group : Nat) (s : State) (h : memWf s.mem = true) :
    memWf (memOf (execGroupResynchronise group s)) = true := by
  grind [execGroupResynchronise, State.takeRegion_wf, State.showSeq_mem, State.grpDone_mem, State.setGrpState_mem,
    State.modGroup_mem, memOf, nil_wf]

theorem execGroupDelete_wf (group : Nat) (s : State) (h : memWf s.mem = true) :
    memWf (memOf (execGroupDelete group s)) = true := by
  unfold execGroupDelete
  split
  · simp only [memOf_next, State.showSeq_mem, State.grpDone_mem, State.setGrpState_mem, State.modGroup_mem]
    refine foldl_wf _ (fun u x hu => ?_) _ _ h
    split <;> simpa using hu
  · exact h

theorem State.rinseRange_wf (s : State) (a n : Nat) (h : memWf s.mem = true) :
    memWf (s.rinseRange a n).mem = true := by
  grind [State.rinseRange, State.zeroRange_wf, State.serve_wf, foldl_wf, nil_wf]

theorem execBlockRinse_wf (stack pool index fails : Nat) (s : State) (h : memWf s.mem = true) :
    memWf (memOf (execBlockRinse stack pool index fails s)) = true := by
  grind [execBlockRinse, State.rinseRange_wf, State.setRinsed_mem, State.setBlock_mem, State.errorRecord_wf, memOf,
    nil_wf]

theorem execPoolEnable_wf (stack pool : Nat) (s : State) (h : memWf s.mem = true) :
    memWf (memOf (execPoolEnable stack pool s)) = true := by
  grind [execPoolEnable, State.setRegBits_mem, State.rinseRange_wf, State.modStack_mem, State.setRinsed_mem, memOf,
    nil_wf]

theorem execPoolDisable_wf (stack pool : Nat) (s : State) (h : memWf s.mem = true) :
    memWf (memOf (execPoolDisable stack pool s)) = true := by
  grind [execPoolDisable, State.setRinsed_mem, State.setRegBits_mem, memOf, nil_wf]

theorem execOperandRecordInvalidate_wf (val : W64) (s : State) (h : memWf s.mem = true) :
    memWf (memOf (execOperandRecordInvalidate val s)) = true := by
  grind [execOperandRecordInvalidate, memOf, nil_wf]

end Sys2Proof.Machine
end

section
/-! Canonical memory. Events of helpers, launches, placement and slices. -/

namespace Sys2Proof.Machine

/- `grind` waits for the lemmas that it cites: one proof after the other. -/
set_option Elab.async false

theorem execHelperLive_wf (core slot : Nat) (s : State) (h : memWf s.mem = true) :
    memWf (memOf (execHelperLive core slot s)) = true := by
  grind [execHelperLive, State.raiseYield_mem, State.modCtx_mem, State.lowerYield_mem, State.claimLanes_mem, memOf,
    nil_wf]

@[simp] theorem State.markLost_mem (s : State) (vf starter : Nat) : (s.markLost vf starter).mem = s.mem := by
  unfold State.markLost
  split <;> simp

@[simp] theorem State.endRecord_mem (s : State) (core : Nat) (r : EndRec) : (s.endRecord core r).mem = s.mem := by
  unfold State.endRecord
  dsimp only
  repeat' split
  all_goals simp

theorem State.idleActor_wf (s : State) (c : Ctx) (failed : Bool) (h : memWf s.mem = true) :
    memWf (s.idleActor c failed).mem = true := by
  grind [State.idleActor, State.retryMoorings_wf, State.setMoor_mem]

@[simp] theorem State.breakGang_mem (s : State) (core : Nat) (item : Option (Nat × Nat)) :
    (s.breakGang core item).mem = s.mem := by
  simp [State.breakGang, foldl_mem]

@[simp] theorem State.leaveRequests_mem (s : State) (id : Nat) : (s.leaveRequests id).mem = s.mem := rfl

theorem execHelperCloseEnd_wf (core slot : Nat) (s : State) (h : memWf s.mem = true) :
    memWf (memOf (execHelperCloseEnd core slot s)) = true := by
  grind [execHelperCloseEnd, State.advancePends_mem, State.endRecord_mem, State.settleItem_mem,
    State.leaveRequests_mem, State.vacate_mem, State.leaveArrivals_mem, State.idleActor_wf, State.breakGang_mem,
    memOf, nil_wf]

theorem saveAll_wf (kind : Nat → Nat) (gang : Option (Nat × Nat)) (l : List (Nat × Nat)) (s : State) (h : memWf s.mem
    = true) :
    memWf (saveAll kind gang l s).mem = true := by
  fun_induction saveAll kind gang l s <;> grind [State.save_wf]

theorem execFaultSave_wf (core slot : Nat) (s : State) (h : memWf s.mem = true) :
    memWf (memOf (execFaultSave core slot s)) = true := by
  unfold execFaultSave
  dsimp only
  split
  · exact h
  · have saved (t : State) (l : List (Nat × Nat)) (kind : Nat → Nat) (g : Option (Nat × Nat)) (ht : memWf t.mem =
    true) :
        memWf (saveAll kind g l t).mem = true := saveAll_wf _ _ _ _ ht
    have mats : memWf (State.mem (if (s.ctx (ctxId core slot)).gang then
        (((s.members (ctxId core slot)).zip (s.freeFrames (s.vfOf (ctxId core slot)))).map fun p => coreOf p.1).foldl
          (fun s k => s.saveMatrix k true) s
      else s)) = true := by
      split
      · exact foldl_wf _ (fun u k hu => State.saveMatrix_wf _ _ _ hu) _ _ h
      · exact h
    split
    · exact State.pushRecord_wf _ _ _ _ (saved _ _ _ _ mats)
    · exact saved _ _ _ _ mats

theorem execFaultRecordDrain_wf (cluster : Nat) (s : State) (h : memWf s.mem = true) :
    memWf (memOf (execFaultRecordDrain cluster s)) = true := by
  grind [execFaultRecordDrain, State.modCluster_mem, State.ringWrite_wf, memOf, nil_wf]

theorem execResumeContext_wf (val : W64) (s : State) (h : memWf s.mem = true) :
    memWf (memOf (execResumeContext val s)) = true := by
  grind [execResumeContext, memOf, nil_wf]

@[simp] theorem State.settleSaved_mem (s : State) (f : Saved) : (s.settleSaved f).mem = s.mem := by
  unfold State.settleSaved
  split <;> simp

@[simp] theorem State.endSaved_mem (s : State) (code : Nat) (f : Saved) : (s.endSaved code f).mem = s.mem := by
  simp [State.endSaved]

theorem execResumeEnd_wf (val : W64) (s : State) (h : memWf s.mem = true) :
    memWf (memOf (execResumeEnd val s)) = true := by
  unfold execResumeEnd
  split
  · split
    · exact foldl_wf _ (fun u g hu => by rw [State.endSaved_mem]; exact hu) _ _ h
    · exact h
  · exact h

theorem execPriorityRaise_wf (handle : Nat) (s : State) (h : memWf s.mem = true) :
    memWf (memOf (execPriorityRaise handle s)) = true := by
  grind [execPriorityRaise, State.setRegBits_mem, memOf, nil_wf]

theorem execPriorityWithdraw_wf (handle : Nat) (s : State) (h : memWf s.mem = true) :
    memWf (memOf (execPriorityWithdraw handle s)) = true := by
  grind [execPriorityWithdraw, State.setLaunch_mem, memOf, nil_wf]

theorem State.zeroBitmap_wf (s : State) (l : Launch) (h : memWf s.mem = true) :
    memWf (s.zeroBitmap l).mem = true := by
  grind [State.zeroBitmap, translate_wf, State.clearPoison_mem, State.write64_wf, State.failLaunch_mem,
    State.setLaunch_mem, foldl_wf, nil_wf]

@[simp] theorem State.setGangs_mem (s : State) (len cl : Nat) : (s.setGangs len cl).mem = s.mem := by
  grind [State.setGangs, State.modCore_mem, foldl_mem]

@[simp] theorem State.applyGangs_mem (s : State) (cl : Nat) : (s.applyGangs cl).mem = s.mem := by
  unfold State.applyGangs
  repeat' split
  all_goals simp

@[simp] theorem State.dueGangs_mem (s : State) (l : Launch) (cl : Nat) : (s.dueGangs l cl).mem = s.mem := by
  unfold State.dueGangs
  split <;> simp

theorem State.giveSet_wf (s : State) (hd : Nat) (p : Placed) (h : memWf s.mem = true) :
    memWf (s.giveSet hd p).mem = true := by
  unfold State.giveSet
  split
  · exact h
  · rename_i l _
    have hz : memWf (if l.zeroed then s else s.zeroBitmap l).mem = true := by
      split
      · exact h
      · exact State.zeroBitmap_wf _ _ h
    dsimp only
    split
    · exact hz
    · split
      · exact hz
      · refine foldl_wf _ (fun u c hu => by rw [State.dueGangs_mem]; exact hu) _ _ (foldl_wf _ (fun u c hu => ?_) _ _
        hz)
        rw [State.modCluster_mem]
        split
        · exact hu
        · exact State.setSplit_wf _ _ _ hu

theorem State.retakeSet_wf (s : State) (hd : Nat) (p : Placed) (h : memWf s.mem = true) :
    memWf (s.retakeSet hd p).mem = true := by
  refine foldl_wf _ (fun u c hu => ?_) _ _ h
  have := State.restorePad_wf u c hu
  dsimp only
  split
  · rw [State.dueGangs_mem]; exact this
  · exact this

theorem execPlacementGrant_wf (die : Nat) (s : State) (h : memWf s.mem = true) :
    memWf (memOf (execPlacementGrant die s)) = true := by
  unfold execPlacementGrant
  grind [memOf_next, State.retakeSet_wf, State.giveSet_wf, State.setLaunch_mem]

@[simp] theorem State.releaseSets_mem (s : State) : s.releaseSets.mem = s.mem := by
  grind [State.releaseSets, State.setLaunch_mem, foldl_mem]

theorem execServeWrite_wf (word : Nat) (val : W64) (s : State) (h : memWf s.mem = true) :
    memWf (memOf (execServeWrite word val s)) = true := by
  unfold execServeWrite
  split
  · refine foldl_wf _ (fun u i hu => ?_) _ _ h
    dsimp only
    split
    · exact hu
    · split <;> exact hu
  · exact h

theorem execServeWithdraw_wf (cluster : Nat) (s : State) (h : memWf s.mem = true) :
    memWf (memOf (execServeWithdraw cluster s)) = true := by
  grind [execServeWithdraw, State.modCluster_mem, memOf, nil_wf]

theorem execChunkRequest_wf (cluster : Nat) (handle : Nat) (s : State) (h : memWf s.mem = true) :
    memWf (memOf (execChunkRequest cluster handle s)) = true := by
  grind [execChunkRequest, State.modDie_mem, memOf, nil_wf]

@[simp] theorem pushRuns_mem (h : Nat) (l : List (Nat × Nat)) (first : Nat) (s : State) :
    (pushRuns h l first s).mem = s.mem := by
  fun_induction pushRuns h l first s <;> grind [State.modCore_mem]

@[simp] theorem State.replayChunk_mem (s : State) (cl : Nat) (hd : Nat) : (s.replayChunk cl hd).1.mem = s.mem := by
  grind [State.replayChunk, State.replay_mem]

theorem execChunkGrant_wf (die : Nat) (s : State) (h : memWf s.mem = true) :
    memWf (memOf (execChunkGrant die s)) = true := by
  unfold execChunkGrant
  grind [memOf_next, State.modDie_mem, State.replayChunk_mem, State.setLaunch_mem, pushRuns_mem, State.dropClean_mem,
    State.journalAdd_wf]

theorem execGroupComplete_wf (handle group : Nat) (s : State) (h : memWf s.mem = true) :
    memWf (memOf (execGroupComplete handle group s)) = true := by
  unfold execGroupComplete
  grind [memOf_next, writeBacks_wf, State.setLaunch_mem, translate_wf, State.recall_wf, State.write64_wf,
    State.failLaunch_mem]

theorem execLaunchReady_wf (handle : Nat) (s : State) (h : memWf s.mem = true) :
    memWf (memOf (execLaunchReady handle s)) = true := by
  grind [execLaunchReady, State.setLaunch_mem, memOf, nil_wf]

@[simp] theorem State.endLaunch_mem (s : State) (l : Launch) : (s.endLaunch l).mem = s.mem := rfl

theorem State.checkpoints_wf (s : State) (l : Launch) (h : memWf s.mem = true) :
    memWf (s.checkpoints l).mem = true := by
  grind [State.checkpoints, State.journalAdd_wf, foldl_wf, nil_wf]

theorem execLaunchDependenceFail_wf (handle : Nat) (s : State) (h : memWf s.mem = true) :
    memWf (memOf (execLaunchDependenceFail handle s)) = true := by
  grind [execLaunchDependenceFail, State.endLaunch_mem, State.checkpoints_wf, memOf, nil_wf]

theorem execLaunchEnd_wf (handle : Nat) (s : State) (h : memWf s.mem = true) :
    memWf (memOf (execLaunchEnd handle s)) = true := by
  grind [execLaunchEnd, State.endLaunch_mem, State.checkpoints_wf, memOf, nil_wf]

theorem execLaunchHandleExpire_wf (handle : Nat) (s : State) (h : memWf s.mem = true) :
    memWf (memOf (execLaunchHandleExpire handle s)) = true := by
  grind [execLaunchHandleExpire, memOf, nil_wf]

theorem State.restoreOne_wf (s : State) (f : Saved) (h : memWf s.mem = true) : memWf (s.restoreOne f).mem = true := by
  unfold State.restoreOne
  split
  · exact h
  · dsimp only
    rw [State.lowerYield_mem]
    refine State.place_wf _ _ _ ?_
    have pad : ∀ u : State, memWf u.mem = true → memWf (if f.pad then u.restorePad (clusterOf f.core) else u).mem = true := by
      intro u hu
      split
      · exact State.restorePad_wf _ _ hu
      · exact hu
    have mat : memWf (if f.mat then s.restoreMatrix f.core else s).mem = true := by
      split
      · rw [State.restoreMatrix_mem]; exact h
      · exact h
    have both := pad _ mat
    generalize (if f.pad then _ else _ : State) = u at both ⊢
    split
    · split
      · split
        · split
          · refine foldl_wf _ (fun v c hv => ?_) _ _ both
            exact hv
          · exact both
        · exact both
      · exact both
    · exact both

theorem execHelperRestore_wf (frame : Nat) (s : State) (h : memWf s.mem = true) :
    memWf (memOf (execHelperRestore frame s)) = true := by
  unfold execHelperRestore
  split
  · split
    · exact foldl_wf _ (fun u f hu => State.restoreOne_wf _ _ hu) _ _ h
    · exact h
  · exact h

theorem State.saveSet_wf (s : State) (cs : List Nat) (split : Nat) (h : memWf s.mem = true) :
    memWf (s.saveSet cs split).mem = true := by
  grind [State.saveSet, State.savePad_wf, State.saveMatrix_wf, foldl_wf, nil_wf]

theorem execPreemption_wf (die : Nat) (s : State) (h : memWf s.mem = true) :
    memWf (memOf (execPreemption die s)) = true := by
  unfold execPreemption
  split
  · exact h
  · split
    · exact h
    · dsimp only
      split
      · exact h
      · refine State.giveSet_wf _ _ _ ?_
        rw [State.setLaunch_mem, State.setRegBits_mem]
        exact foldl_wf _ (fun u q hu => State.save_wf _ _ _ _ _ _ _ hu) _ _ (State.saveSet_wf _ _ _ h)

theorem execMigration_wf (core slot : Nat) (s : State) (h : memWf s.mem = true) :
    memWf (memOf (execMigration core slot s)) = true := by
  grind [execMigration, State.modCtx_mem, State.vacate_mem, State.endRecord_mem, State.modCore_mem, State.setCtx_mem,
    memOf, nil_wf]

@[simp] theorem State.feedInbound_mem (s : State) (vf : Nat) : (s.feedInbound vf).mem = s.mem := by
  simp [State.feedInbound, foldl_mem]

@[simp] theorem State.beginSwitch_mem (s : State) : s.beginSwitch.mem = s.mem := by
  unfold State.beginSwitch
  repeat' split
  all_goals simp

theorem execQuantumExpire_wf (s : State) (h : memWf s.mem = true) : memWf (memOf (execQuantumExpire s)) = true := by
  grind [execQuantumExpire, State.beginSwitch_mem, memOf, nil_wf]

theorem execEarlySliceEnd_wf (s : State) (h : memWf s.mem = true) : memWf (memOf (execEarlySliceEnd s)) = true := by
  grind [execEarlySliceEnd, State.beginSwitch_mem, memOf, nil_wf]

theorem State.emptied_wf (s : State) (vf : Nat) (h : memWf s.mem = true) : memWf (s.emptied vf).mem = true :=
  memFilter_wf _ _ h

theorem State.restoreImage_wf (s : State) (x : VfImage) (h : memWf s.mem = true) :
    memWf (s.restoreImage x).mem = true := by
  have kept : ∀ (u : State) (p : List Nat), memWf u.mem = true → memWf (x.redo.foldl (fun s f => State.reissue s f.ctx f)
      { u with poison := p }).mem = true := fun u p hu => foldl_wf _ (fun v f hv => State.reissue_wf _ _ _ hv) _ _ hu
  unfold State.restoreImage
  dsimp only
  refine kept _ _ (State.putCells_wf _ _ _ ?_)
  refine foldl_wf _ (fun v p hv => ?_) _ _ ?_
  · exact hv
  · exact h

theorem State.flushedOut_wf (s : State) (h : memWf s.mem = true) : memWf s.flushedOut.mem = true :=
  foldl_wf _ (fun _ _ hu => writeBack_wf _ _ _ _ hu) _ _ h

theorem State.laidAside_wf (s : State) (h : memWf s.mem = true) : memWf s.laidAside.mem = true := by
  have image : ∀ (u : State) (l : List VfImage), ({ u with images := l } : State).mem = u.mem := fun _ _ => rfl
  unfold State.laidAside
  split
  · exact h
  · rw [image]
    exact State.writeSave_wf _ _ h

theorem State.fetched_wf (s : State) (vf : Nat) (h : memWf s.mem = true) : memWf (s.fetched vf).mem = true := by
  unfold State.fetched
  split
  · exact State.restoreImage_wf _ _ h
  · exact h

@[simp] theorem State.begins_mem (s : State) (i : Nat) (w : W64) : (s.begins i w).mem = s.mem := by
  simp [State.begins]

theorem execSliceSwitch_wf (s : State) (h : memWf s.mem = true) : memWf (memOf (execSliceSwitch s)) = true := by
  rw [← exec_sliceSwitch]
  by_cases hs : s.switching = false ∨ s.maySwitch = false
  · rw [exec_sliceSwitch_stays hs]
    exact h
  · obtain ⟨hg, hm⟩ : s.switching = true ∧ s.maySwitch = true := by simpa using hs
    cases hn : s.nextQuantum with
    | none => rw [exec_sliceSwitch_empty hg hm hn]; exact h
    | some p =>
      obtain ⟨i, w⟩ := p
      rw [exec_sliceSwitch_next hg hm hn, memOf_next, State.begins_mem]
      exact State.fetched_wf _ _ (State.emptied_wf _ _ (State.laidAside_wf _ (State.flushedOut_wf _ h)))

theorem execSyscResult_wf (core slot : Nat) (val : W64) (s : State) (h : memWf s.mem = true) :
    memWf (memOf (execSyscResult core slot val s)) = true := by
  grind [execSyscResult, State.modCtx_mem, memOf, nil_wf]

end Sys2Proof.Machine
end

section
/-! Canonical memory. Administration registers, boot and keys. -/

namespace Sys2Proof.Machine

/- `grind` waits for the lemmas that it cites: one proof after the other. -/
set_option Elab.async false

@[simp] theorem State.writeMasked_mem (s : State) (a : Nat) (mask v : W64) : (s.writeMasked a mask v).mem = s.mem :=
  rfl

theorem thenState_wf (s : State) (r : Result) (h : memWf s.mem = true) (hr : memWf (memOf r) = true) :
    memWf (thenState s r).mem = true := by
  cases r with
  | next t => exact hr
  | fault e => exact h
  | refused e => exact h

theorem State.writeSched_wf (s : State) (off : Nat) (v : W64) (h : memWf s.mem = true) :
    memWf (s.writeSched off v).mem = true := by
  unfold State.writeSched
  dsimp only
  split
  · refine foldl_wf _ (fun u c hu => ?_) _ _ ?_
    · exact hu
    · rw [State.writeMasked_mem]
      refine foldl_wf _ (fun u d hu => ?_) _ _ ?_
      · exact hu
      · exact h
  · grind [State.writeMasked_mem, State.setReg_mem, thenState_wf, execServeWrite_wf]

theorem State.garble_wf (s : State) (lo n : Nat) (h : memWf s.mem = true) : memWf (s.garble lo n).mem = true :=
  foldl_wf _ (fun _ _ h => memSet_wf _ _ _ h) _ _ h

theorem State.writeOwners_wf (s : State) (v : W64) (h : memWf s.mem = true) : memWf (s.writeOwners v).mem = true := by
  grind [State.writeOwners, State.garble_wf, State.writeMasked_mem, foldl_wf, nil_wf]

theorem State.writeTff_wf (s : State) (off : Nat) (v : W64) (h : memWf s.mem = true) :
    memWf (s.writeTff off v).mem = true := by
  unfold State.writeTff
  grind (splits := 30) [State.writeMasked_mem, thenState_wf, execResumeContext_wf, execResumeEnd_wf, execEngactRetry_wf,
    execEngactAbandon_wf, execOperandRecordInvalidate_wf, State.writeOwners_wf]

theorem State.writeBlk_wf (s : State) (stack off : Nat) (v : W64) (h : memWf s.mem = true) :
    memWf (s.writeBlk stack off v).mem = true := by
  unfold State.writeBlk
  grind [State.writeMasked_mem, thenState_wf, execPoolEnable_wf, execPoolDisable_wf]

@[simp] theorem State.writeTow_mem (s : State) (port off : Nat) (v : W64) : (s.writeTow port off v).mem = s.mem := by
  unfold State.writeTow
  dsimp only
  repeat' split
  all_goals simp

theorem State.writeMoor_wf (s : State) (off : Nat) (v : W64) (h : memWf s.mem = true) :
    memWf (s.writeMoor off v).mem = true := by
  unfold State.writeMoor
  grind [State.writeMasked_mem, thenState_wf, execClassWithdraw_wf, execDirectoryResume_wf, State.clsDone_mem]

@[simp] theorem State.writeSluice_mem (s : State) (off : Nat) (v : W64) : (s.writeSluice off v).mem = s.mem := by
  unfold State.writeSluice
  dsimp only
  repeat' split
  all_goals simp

theorem execJournalControl_wf (val : W64) (s : State) (h : memWf s.mem = true) :
    memWf (memOf (execJournalControl val s)) = true := by
  grind [execJournalControl, State.setRegBits_mem, State.writeMasked_mem, memOf, nil_wf]

theorem State.writeFleet_wf (s : State) (off : Nat) (v : W64) (h : memWf s.mem = true) :
    memWf (s.writeFleet off v).mem = true := by
  unfold State.writeFleet
  grind [State.writeMasked_mem, thenState_wf, execJournalControl_wf]

theorem execKeyGenerate_wf (slot : Nat) (s : State) (h : memWf s.mem = true) :
    memWf (memOf (execKeyGenerate slot s)) = true := by
  grind [execKeyGenerate, memOf_next]

theorem execKeyDestroy_wf (slot : Nat) (s : State) (h : memWf s.mem = true) :
    memWf (memOf (execKeyDestroy slot s)) = true := by
  grind [execKeyDestroy, memOf_next]

theorem State.writeAdmin_wf (s : State) (addr : Nat) (v : W64) (h : memWf s.mem = true) :
    memWf (s.writeAdmin addr v).mem = true := by
  unfold State.writeAdmin
  grind [thenState_wf, State.writeSched_wf, State.writeTff_wf, State.writeBlk_wf, State.writeFleet_wf,
    State.writeTow_mem, State.writeMoor_wf, State.writeSluice_mem, execKeyGenerate_wf, execKeyDestroy_wf]

theorem execBootRomVerify_wf (s : State) (h : memWf s.mem = true) : memWf (memOf (execBootRomVerify s)) = true := by
  grind [execBootRomVerify, memOf, nil_wf]

theorem execFirstStageBoot_wf (s : State) (h : memWf s.mem = true) : memWf (memOf (execFirstStageBoot s)) = true := by
  grind [execFirstStageBoot, memOf, nil_wf]

theorem execComputeRelease_wf (s : State) (h : memWf s.mem = true) : memWf (memOf (execComputeRelease s)) = true := by
  grind [execComputeRelease, memOf, nil_wf]

theorem execAttestationRequest_wf (s : State) (h : memWf s.mem = true) :
    memWf (memOf (execAttestationRequest s)) = true := by
  grind [execAttestationRequest, memOf, nil_wf]

@[simp] theorem State.sign_mem (s : State) (report sig : List Byte) : (s.sign report sig).mem = s.mem := by
  unfold State.sign
  dsimp only
  repeat' split
  all_goals simp

theorem execRootKeyRevoke_wf (s : State) (h : memWf s.mem = true) : memWf (memOf (execRootKeyRevoke s)) = true := by
  grind [execRootKeyRevoke, memOf, nil_wf]

theorem execThermalTrip_wf (temp : Nat) (s : State) (h : memWf s.mem = true) :
    memWf (memOf (execThermalTrip temp s)) = true := by
  unfold execThermalTrip
  split
  · rfl
  · exact h

theorem execThrottleStep_wf (die temp excess : Nat) (s : State) (h : memWf s.mem = true) :
    memWf (memOf (execThrottleStep die temp excess s)) = true := by
  unfold execThrottleStep
  dsimp only
  split
  · exact h
  · refine foldl_wf _ (fun u c hu => ?_) _ _ h
    exact hu

theorem aluOp_wf (o : Op) (d : R6) (srcs : List R6) (lat : Nat) (f : State → W64) (s : State) (h : memWf s.mem = true)
    :
    memWf (memOf (aluOp o d srcs lat f s)) = true := by
  grind [aluOp, State.issue_wf, State.finish_mem, State.wrLate_mem]

end Sys2Proof.Machine
end

section
/-! Canonical memory. Settling, fetching and the acts of the system. -/

namespace Sys2Proof.Machine

/- `grind` waits for the lemmas that it cites: one proof after the other. -/
set_option Elab.async false

theorem State.wake_wf (s : State) (p : Nat × Ctx) (h : memWf s.mem = true) : memWf (s.wake p).mem = true := by
  grind [State.wake, State.modCtx_mem, State.acquireTo_wf]

theorem State.answerPends_wf (s : State) (ctx : Nat) (h : memWf s.mem = true) :
    memWf (s.answerPends ctx).mem = true := by
  grind [State.answerPends, State.answerErase_wf, State.answerBlock_mem, foldl_wf, nil_wf]

theorem State.settled_wf (s : State) (h : memWf s.mem = true) : memWf s.settled.mem = true := by
  grind [State.settled, State.withdrawNotices_mem, State.letAll_wf, State.releaseSets_mem, State.settle_mem,
    State.applyGangs_mem, State.answerAsked_mem, State.answerPends_wf, State.advancePends_mem, State.wake_wf,
    foldl_wf, nil_wf]

@[simp] theorem State.slewed_mem (s : State) (n : Nat) (slew : Int) : (s.slewed n slew).mem = s.mem := rfl

theorem State.fetchWord_wf (s : State) (a : Nat) (h : memWf s.mem = true) : memWf (s.fetchWord a).1.mem = true := by
  grind [State.fetchWord, translate_wf]

theorem fetchList_wf (l : List Nat) (s : State) (h : memWf s.mem = true) : memWf (fetchList l s).1.mem = true := by
  fun_induction fetchList l s <;> grind [State.fetchWord_wf]

@[simp] theorem State.fetchTrap_mem (s : State) (e : FetchStop) : (s.fetchTrap e).mem = s.mem := by
  unfold State.fetchTrap
  split <;> simp

theorem State.fetch_wf (s : State) (h : memWf s.mem = true) : memWf s.fetch.1.mem = true := by
  grind [State.fetch, State.fetchWord_wf, fetchList_wf]

@[simp] theorem State.took_mem (s : State) (id : Nat) : (s.took id).mem = s.mem := by
  unfold State.took
  split <;> simp

@[simp] theorem State.install_mem (s : State) (core : Nat) (entry : W64) (asid : Nat) (priv : Bool) :
    (s.install core entry asid priv).mem = s.mem := by
  unfold State.install
  split <;> simp

theorem State.sysStore_wf (s : State) (k : Nat) (bs : List Byte) (h : memWf s.mem = true) :
    memWf (s.sysStore k bs).mem = true := by
  grind [State.sysStore, State.clearPoison_mem, State.writeBytes_wf]

theorem State.sysSwap_wf (s : State) (k : Nat) (v : W64) (h : memWf s.mem = true) :
    memWf (s.sysSwap k v).mem = true := by
  grind [State.sysSwap, State.recall_wf, State.sysStore_wf]

theorem State.walkA_wf (s : State) (ctx va : Nat) (h : memWf s.mem = true) : memWf (s.walkA ctx va).mem = true := by
  grind [State.walkA, State.walked_wf]

@[simp] theorem State.foreignAccess_mem (s : State) (op : MemOp) (k size : Nat) (x y : W64) (sync scope : Nat) :
    (s.foreignAccess op k size x y sync scope).mem = s.mem := by
  unfold State.foreignAccess
  split <;> simp

@[simp] theorem State.leftAway_mem (s : State) (n : Nat) : (s.leftAway n).mem = s.mem := rfl

@[simp] theorem State.handledAway_mem (s : State) (n : Nat) : (s.handledAway n).mem = s.mem := by
  unfold State.handledAway
  split <;> simp

@[simp] theorem State.droppedAway_mem (s : State) (n : Nat) : (s.droppedAway n).mem = s.mem := by
  unfold State.droppedAway
  split <;> simp

end Sys2Proof.Machine
end

section
/-! Canonical memory. Events and instructions of one clause, and the shared forms of instructions. -/

namespace Sys2Proof.Machine

/- `grind` waits for the lemmas that it cites: one proof after the other. -/
set_option Elab.async false

theorem afterReset_wf (s : State) : memWf s.afterReset.mem = true := reset_memWf

theorem execPowerOnReset_wf (s : State) (h : memWf s.mem = true) : memWf (memOf (execPowerOnReset s)) = true := by
  grind [execPowerOnReset, memOf_next, afterReset_wf]

theorem execI3cReset_wf (s : State) (h : memWf s.mem = true) : memWf (memOf (execI3cReset s)) = true := by
  grind [execI3cReset, memOf_next, afterReset_wf]

theorem execCleozLoading_wf (s : State) (h : memWf s.mem = true) : memWf (memOf (execCleozLoading s)) = true := by
  grind [execCleozLoading, memOf_next]

theorem execPowerModeChange_wf (s : State) (h : memWf s.mem = true) :
    memWf (memOf (execPowerModeChange s)) = true := h

theorem execCacheEviction_wf (cluster line : Nat) (s : State) (h : memWf s.mem = true) :
    memWf (memOf (execCacheEviction cluster line s)) = true := by
  grind [execCacheEviction, memOf_next, writeBack_wf]

theorem execRegisterWrite_wf (addr : Nat) (val : W64) (s : State) (h : memWf s.mem = true) :
    memWf (memOf (execRegisterWrite addr val s)) = true := by
  grind [execRegisterWrite, memOf_next, State.writeAdmin_wf]

theorem execIllegalInstruction_wf (word : W32) (s : State) (h : memWf s.mem = true) :
    memWf (memOf (execIllegalInstruction word s)) = true := by
  rw [execIllegalInstruction, memOf_next, State.trap_mem]
  exact h

theorem execWindowBoundary_wf (s : State) (h : memWf s.mem = true) : memWf (memOf (execWindowBoundary s)) = true := by
  grind [execWindowBoundary, memOf_next]

theorem execKeyZeroiseComplete_wf (slot : Nat) (s : State) (h : memWf s.mem = true) :
    memWf (memOf (execKeyZeroiseComplete slot s)) = true := by
  grind [execKeyZeroiseComplete, memOf_next]

theorem execCleozInterrupt_wf (core : Nat) (s : State) (h : memWf s.mem = true) :
    memWf (memOf (execCleozInterrupt core s)) = true := by
  grind [execCleozInterrupt, memOf_next, State.wakeIdle_mem]

theorem execTimeDomainLeave_wf (s : State) (h : memWf s.mem = true) :
    memWf (memOf (execTimeDomainLeave s)) = true := by
  grind [execTimeDomainLeave, memOf_next]

theorem execTimeDomainRejoin_wf (s : State) (h : memWf s.mem = true) :
    memWf (memOf (execTimeDomainRejoin s)) = true := by
  grind [execTimeDomainRejoin, memOf_next]

theorem execFusedMinimumRaise_wf (svn : Nat) (s : State) (h : memWf s.mem = true) :
    memWf (memOf (execFusedMinimumRaise svn s)) = true := by
  grind [execFusedMinimumRaise, memOf_next]

theorem execTowlineRouteDown_wf (port : Nat) (s : State) (h : memWf s.mem = true) :
    memWf (memOf (execTowlineRouteDown port s)) = true := by
  grind [execTowlineRouteDown, memOf_next]

theorem execTrap_wf (a : R6) (st : St) (s : State) (h : memWf s.mem = true) :
    memWf (memOf (execTrap a st s)) = true :=
  State.issue_wf s [a] [] (fun s => s.trap 0x0F (s.rd a)) (by rw [State.trap_mem]; exact h) h

theorem execBrk_wf (st : St) (s : State) (h : memWf s.mem = true) : memWf (memOf (execBrk st s)) = true :=
  State.issue_wf s [] [] (fun s => s.trap 0x10 0) (by rw [State.trap_mem]; exact h) h

theorem execEret_wf (st : St) (s : State) (h : memWf s.mem = true) : memWf (memOf (execEret st s)) = true :=
  State.issue_wf _ _ _ _ (by rw [State.eret_mem]; exact h) h

theorem execSysc_wf (d a : R6) (st : St) (s : State) (h : memWf s.mem = true) :
    memWf (memOf (execSysc d a st s)) = true :=
  State.issue_wf _ _ _ _ (by split <;> exact h) h

theorem ballocOp_wf (o : Op) (d e a : R6) (loose : Bool) (s : State) (h : memWf s.mem = true) :
    memWf (memOf (ballocOp o d e a loose s)) = true :=
  askOp_wf _ _ _ _ _ _ _ (fun r hr => by rw [State.allocAnswer_mem hr]; exact h) h

theorem bseqnewOp_wf (o : Op) (d a b : R6) (s : State) (h : memWf s.mem = true) :
    memWf (memOf (bseqnewOp o d a b s)) = true := by
  refine askOp_wf _ _ _ _ _ _ _ (fun r hr => ?_) h
  obtain rfl := Option.some.inj hr
  exact (State.seqNewAnswer_mem ..).symm ▸ h

theorem alu2_wf (o : Op) (d a b : R6) (lat : Nat) (f : W64 → W64 → W64) (s : State) (h : memWf s.mem = true) :
    memWf (memOf (alu2 o d a b lat f s)) = true :=
  aluOp_wf _ _ _ _ _ _ h

theorem alu1_wf (o : Op) (d a : R6) (lat : Nat) (f : W64 → W64) (s : State) (h : memWf s.mem = true) :
    memWf (memOf (alu1 o d a lat f s)) = true :=
  aluOp_wf _ _ _ _ _ _ h

theorem aluImm_wf (o : Op) (d a : R6) (imm : W64) (lat : Nat) (f : W64 → W64 → W64)
    (s : State) (h : memWf s.mem = true) :
    memWf (memOf (aluImm o d a imm lat f s)) = true :=
  aluOp_wf _ _ _ _ _ _ h

theorem loadOp_wf (o : Op) (d a : R6) (disp : W64) (size : Nat) (sext : Bool) (sc od sy : Nat) (ph : Bit)
    (s : State) (h : memWf s.mem = true) :
    memWf (memOf (loadOp o d a disp size sext sc od sy ph s)) = true :=
  accessOp_wf _ _ _ _ _ _ _ _ h

theorem storeOp_wf (o : Op) (d a : R6) (disp : W64) (size : Nat) (sc od sy : Nat) (ph : Bit)
    (s : State) (h : memWf s.mem = true) :
    memWf (memOf (storeOp o d a disp size sc od sy ph s)) = true :=
  accessOp_wf _ _ _ _ _ _ _ _ h

theorem ldtestOp_wf (o : Op) (op : MemOp) (d e a : R6) (disp : W64) (sc od : Nat) (ph : Bit)
    (s : State) (h : memWf s.mem = true) :
    memWf (memOf (ldtestOp o op d e a disp sc od ph s)) = true :=
  accessOp_wf _ _ _ _ _ _ _ _ h

theorem ldtagOp_wf (o : Op) (d a : R6) (disp : W64) (sc od : Nat) (ph : Bit) (s : State) (h : memWf s.mem = true) :
    memWf (memOf (ldtagOp o d a disp sc od ph s)) = true :=
  accessOp_wf _ _ _ _ _ _ _ _ h

theorem sttestOp_wf (o : Op) (op : MemOp) (d a b : R6) (disp : W64) (sc od : Nat) (ph : Bit)
    (s : State) (h : memWf s.mem = true) :
    memWf (memOf (sttestOp o op d a b disp sc od ph s)) = true :=
  accessOp_wf _ _ _ _ _ _ _ _ h

theorem tagOp_wf (o : Op) (op : MemOp) (a : R6) (disp : W64) (sc od : Nat) (ph : Bit)
    (s : State) (h : memWf s.mem = true) :
    memWf (memOf (tagOp o op a disp sc od ph s)) = true :=
  accessOp_wf _ _ _ _ _ _ _ _ h

theorem atomicOp_wf (o : Op) (f : AtomFn) (d a b c : R6) (disp : W64) (sc od : Nat) (ph : Bit)
    (s : State) (h : memWf s.mem = true) :
    memWf (memOf (atomicOp o f d a b c disp sc od ph s)) = true :=
  accessOp_wf _ _ _ _ _ _ _ _ h

theorem acqOp_wf (o : Op) (d a : R6) (disp : W64) (sc : Nat) (s : State) (h : memWf s.mem = true) :
    memWf (memOf (acqOp o d a disp sc s)) = true :=
  accessOp_wf _ _ _ _ _ _ _ _ h

theorem tldOp_wf (o : Op) (d a : R6) (fmt : BitVec 4) (disp : W64) (s : State) (h : memWf s.mem = true) :
    memWf (memOf (tldOp o d a fmt disp s)) = true :=
  matMemOp_wf _ _ _ _ _ _ _ _ _ h

theorem tstOp_wf (o : Op) (d a b : R6) (fmt : BitVec 4) (disp : W64) (s : State) (h : memWf s.mem = true) :
    memWf (memOf (tstOp o d a b fmt disp s)) = true :=
  matMemOp_wf _ _ _ _ _ _ _ _ _ h

theorem aldOp_wf (o : Op) (d a : R6) (disp : W64) (s : State) (h : memWf s.mem = true) :
    memWf (memOf (aldOp o d a disp s)) = true :=
  matMemOp_wf _ _ _ _ _ _ _ _ _ h

theorem astOp_wf (o : Op) (d a b : R6) (disp : W64) (s : State) (h : memWf s.mem = true) :
    memWf (memOf (astOp o d a b disp s)) = true :=
  matMemOp_wf _ _ _ _ _ _ _ _ _ h

theorem bfreeOp_wf (o : Op) (d a : R6) (s : State) (h : memWf s.mem = true) :
    memWf (memOf (bfreeOp o d a s)) = true :=
  blkCommand_wf _ _ _ _ _ h

theorem btruncOp_wf (o : Op) (d a b : R6) (s : State) (h : memWf s.mem = true) :
    memWf (memOf (btruncOp o d a b s)) = true :=
  blkCommand_wf _ _ _ _ _ h

theorem bseqdropOp_wf (o : Op) (d a : R6) (s : State) (h : memWf s.mem = true) :
    memWf (memOf (bseqdropOp o d a s)) = true :=
  blkCommand_wf _ _ _ _ _ h

end Sys2Proof.Machine
end

section
/-! Canonical memory. Every instruction and event, the choices of the system, and a step. -/

namespace Sys2Proof.Machine

/- `grind` waits for the lemmas that it cites: one proof after the other. -/
set_option Elab.async false

theorem exec_wf (i : Instr) (s : State) (h : memWf s.mem = true) : memWf (memOf (exec i s)) = true := by
  cases i
  case powerOnReset => exact execPowerOnReset_wf _ h
  case bootRomVerify => exact execBootRomVerify_wf _ h
  case firstStageBoot => exact execFirstStageBoot_wf _ h
  case cleozLoading => exact execCleozLoading_wf _ h
  case computeRelease => exact execComputeRelease_wf _ h
  case attestationRequest => exact execAttestationRequest_wf _ h
  case thermalTrip => exact execThermalTrip_wf _ _ h
  case i3cReset => exact execI3cReset_wf _ h
  case throttleStep => exact execThrottleStep_wf _ _ _ _ h
  case powerModeChange => exact execPowerModeChange_wf _ h
  case ethernetFrame => exact execEthernetFrame_wf _ _ _ h
  case cxlPortTrain => exact execCxlPortTrain_wf _ _ _ _ h
  case cxlLinkDown => exact execCxlLinkDown_wf _ _ h
  case towlineTrain => exact execTowlineTrain_wf _ _ _ _ h
  case towlineMessage => exact execTowlineMessage_wf _ _ _ h
  case towlineReissue => exact h
  case stretchNotice => exact execStretchNotice_wf _ _ h
  case refreshAdvance => exact execRefreshAdvance_wf _ _ h
  case quietSweep => exact execQuietSweep_wf _ h
  case homeAccess => exact execHomeAccess_wf _ _ h
  case storeAck => exact execStoreAck_wf _ _ h
  case tagWaitTimeout => exact execTagWaitTimeout_wf _ _ h
  case barrierWaitTimeout => exact execBarrierWaitTimeout_wf _ _ _ h
  case joinLimitExpire => exact execJoinLimitExpire_wf _ _ _ h
  case backoffReissue => exact execBackoffReissue_wf _ _ h
  case cacheEviction => exact execCacheEviction_wf _ _ _ h
  case helperLive => exact execHelperLive_wf _ _ _ h
  case helperCloseEnd => exact execHelperCloseEnd_wf _ _ _ h
  case faultSave => exact execFaultSave_wf _ _ _ h
  case faultRecordDrain => exact execFaultRecordDrain_wf _ _ h
  case migration => exact execMigration_wf _ _ _ h
  case helperRestore => exact execHelperRestore_wf _ _ h
  case chunkRequest => exact execChunkRequest_wf _ _ _ h
  case chunkGrant => exact execChunkGrant_wf _ _ h
  case placementGrant => exact execPlacementGrant_wf _ _ h
  case groupComplete => exact execGroupComplete_wf _ _ _ h
  case launchReady => exact execLaunchReady_wf _ _ h
  case launchDependenceFail => exact execLaunchDependenceFail_wf _ _ h
  case launchEnd => exact execLaunchEnd_wf _ _ h
  case splitChange => exact execSplitChange_wf _ _ h
  case serveWrite => exact execServeWrite_wf _ _ _ h
  case serveWithdraw => exact execServeWithdraw_wf _ _ h
  case priorityRaise => exact execPriorityRaise_wf _ _ h
  case priorityWithdraw => exact execPriorityWithdraw_wf _ _ h
  case preemption => exact execPreemption_wf _ _ h
  case quantumExpire => exact execQuantumExpire_wf _ h
  case earlySliceEnd => exact execEarlySliceEnd_wf _ h
  case sliceSwitch => exact execSliceSwitch_wf _ h
  case engineCommandTake => exact execEngineCommandTake_wf _ _ _ h
  case engineOpComplete => exact execEngineOpComplete_wf _ _ _ h
  case engineFault => exact execEngineFault_wf _ _ _ h
  case vectorCommandStart => exact execVectorCommandStart_wf _ _ h
  case vectorCommandDone => exact execVectorCommandDone_wf _ _ _ h
  case messageArrive => exact execMessageArrive_wf _ _ h
  case sliceInputStallAlert => exact execSliceInputStallAlert_wf _ _ h
  case mooringComplete => exact execMooringComplete_wf _ _ _ h
  case mailboxSlotFreed => exact execMailboxSlotFreed_wf _ _ _ h
  case layupRequest => exact execLayupRequest_wf _ _ h
  case unmoorOrder => exact execUnmoorOrder_wf _ _ _ h
  case unmoorComplete => exact execUnmoorComplete_wf _ _ _ h
  case idleLimitExpire => exact execIdleLimitExpire_wf _ _ _ h
  case shiftComplete => exact execShiftComplete_wf _ _ _ h
  case sluiceStamp => exact execSluiceStamp_wf _ _ h
  case sluiceApply => exact execSluiceApply_wf _ _ h
  case groupActivate => exact execGroupActivate_wf _ _ h
  case groupReconfigure => exact execGroupReconfigure_wf _ _ h
  case groupResynchronise => exact execGroupResynchronise_wf _ _ h
  case groupDelete => exact execGroupDelete_wf _ _ h
  case blockRinse => exact execBlockRinse_wf _ _ _ _ _ h
  case patrolScrub => exact execPatrolScrub_wf _ _ _ h
  case uncorrectableError => exact execUncorrectableError_wf _ _ h
  case shootdown => exact execShootdown_wf _ h
  case shootdownDone => exact execShootdownDone_wf _ h
  case resumeContext => exact execResumeContext_wf _ _ h
  case resumeEnd => exact execResumeEnd_wf _ _ h
  case engactRetry => exact execEngactRetry_wf _ _ _ h
  case engactAbandon => exact execEngactAbandon_wf _ _ _ h
  case operandRecordInvalidate => exact execOperandRecordInvalidate_wf _ _ h
  case keyGenerate => exact execKeyGenerate_wf _ _ h
  case keyDestroy => exact execKeyDestroy_wf _ _ h
  case wsLoadingEnter => exact execWsLoadingEnter_wf _ _ h
  case wsLoadingLeave => exact execWsLoadingLeave_wf _ _ h
  case poolEnable => exact execPoolEnable_wf _ _ _ h
  case poolDisable => exact execPoolDisable_wf _ _ _ h
  case classRegister => exact execClassRegister_wf _ _ h
  case classWithdraw => exact execClassWithdraw_wf _ _ h
  case classWithdrawDone => exact execClassWithdrawDone_wf _ _ h
  case directoryResume => exact execDirectoryResume_wf _ _ h
  case journalControl => exact execJournalControl_wf _ _ h
  case registerWrite => exact execRegisterWrite_wf _ _ _ h
  case add | sub | addw | subw | mul | mulh | mulhz | mulw | div | divz | rem | remz | and | or | xor | andn | shl |
      shr | shra | ror | slt | sltz | seq | sne | min | max | minz | maxz | fadd | fsub | fmul | fdiv | fmin | fmax |
      flt | fle | feq =>
    exact alu2_wf _ _ _ _ _ _ _ h
  case bfins => rw [exec_bfins]; exact alu2_wf _ _ _ _ _ _ _ h
  case lea => rw [exec_lea]; exact alu2_wf _ _ _ _ _ _ _ h
  case clz | ctz | popc | brev | fsqrt | fcvtif | fcvtifX | fcvtfi | fcvtfiX | fcvth | fcvte =>
    exact alu1_wf _ _ _ _ _ _ h
  case bfxs => rw [exec_bfxs]; exact alu1_wf _ _ _ _ _ _ h
  case bfxz => rw [exec_bfxz]; exact alu1_wf _ _ _ _ _ _ h
  case fclass => rw [exec_fclass]; exact alu1_wf _ _ _ _ _ _ h
  case sel => rw [exec_sel]; exact aluOp_wf _ _ _ _ _ _ h
  case ffma => rw [exec_ffma]; exact aluOp_wf _ _ _ _ _ _ h
  case li => rw [exec_li]; exact aluOp_wf _ _ _ _ _ _ h
  case liLit => rw [exec_liLit]; exact aluOp_wf _ _ _ _ _ _ h
  case addi | addiLit | andi | andiLit | ori | oriLit | xori | xoriLit | shli | shliLit | shri | shriLit | shrai |
      shraiLit | slti | sltiLit | sltzi | sltziLit | muli | muliLit =>
    exact aluImm_wf _ _ _ _ _ _ _ h
  case br => rw [exec_br]; exact branchIf_wf _ _ _ _ _ h
  case beqz => rw [exec_beqz]; exact branchIf_wf _ _ _ _ _ h
  case bnez => rw [exec_bnez]; exact branchIf_wf _ _ _ _ _ h
  case bltz => rw [exec_bltz]; exact branchIf_wf _ _ _ _ _ h
  case bgez => rw [exec_bgez]; exact branchIf_wf _ _ _ _ _ h
  case beq => rw [exec_beq]; exact branchIf_wf _ _ _ _ _ h
  case bne => rw [exec_bne]; exact branchIf_wf _ _ _ _ _ h
  case blt => rw [exec_blt]; exact branchIf_wf _ _ _ _ _ h
  case blo => rw [exec_blo]; exact branchIf_wf _ _ _ _ _ h
  case call => rw [exec_call]; exact jumpTo_wf _ _ _ _ _ h
  case callr => rw [exec_callr]; exact jumpTo_wf _ _ _ _ _ h
  case jmpr => rw [exec_jmpr]; exact jumpTo_wf _ _ _ _ _ h
  case ret => rw [exec_ret]; exact jumpTo_wf _ _ _ _ _ h
  case start | startX => exact startOp_wf _ _ _ _ _ _ _ _ h
  case startm | startmX => exact startmOp_wf _ _ _ _ h
  case startw | startwX => exact startwOp_wf _ _ _ _ _ h
  case finish | fail => exact endHelper_wf _ _ _ _ h
  case idle => exact idleOp_wf _ _ h
  case join | joinX => exact joinOp_wf _ _ _ _ _ h
  case joinany | joinanyX => exact joinAnyOp_wf _ _ _ _ h
  case hstat | hstatX => exact hstatOp_wf _ _ _ _ h
  case popw => exact popwOp_wf _ _ _ _ h
  case pushw => exact pushwOp_wf _ _ _ _ h
  case launch | launchX => exact launchOp_wf _ _ _ _ _ h
  case lwait | lwaitX => exact lwaitOp_wf _ _ _ _ _ h
  case widf | widr => exact widOp_wf _ _ _ _ _ _ h
  case mfk => exact mfkOp_wf _ _ _ _ h
  case mtk => exact mtkOp_wf _ _ _ _ h
  case trap => rw [exec_trap]; exact execTrap_wf _ _ _ h
  case brk => rw [exec_brk]; exact execBrk_wf _ _ h
  case sysc => exact execSysc_wf _ _ _ _ h
  case eret => exact execEret_wf _ _ h
  case ldb | ldbLit | ldbX | ldbXlit | ldbz | ldbzLit | ldbzX | ldbzXlit | ldh | ldhLit | ldhX | ldhXlit | ldhz |
      ldhzLit | ldhzX | ldhzXlit | ldw | ldwLit | ldwX | ldwXlit | ldwz | ldwzLit | ldwzX | ldwzXlit | ldd | lddLit |
      lddX | lddXlit =>
    exact loadOp_wf _ _ _ _ _ _ _ _ _ _ _ h
  case stb | stbLit | stbX | stbXlit | sth | sthLit | sthX | sthXlit | stw | stwLit | stwX | stwXlit | std | stdLit |
      stdX | stdXlit =>
    exact storeOp_wf _ _ _ _ _ _ _ _ _ _ h
  case ldfe | ldfeX | ldff | ldffX => exact ldtestOp_wf _ _ _ _ _ _ _ _ _ _ h
  case ldtag | ldtagX => exact ldtagOp_wf _ _ _ _ _ _ _ _ h
  case stef | stefX | stff | stffX => exact sttestOp_wf _ _ _ _ _ _ _ _ _ _ h
  case tclr | tclrX | tfill | tfillX => exact tagOp_wf _ _ _ _ _ _ _ _ h
  case aadd | aaddX | amin | aminX | amax | amaxX | aminz | aminzX | aand | aandX | aor | aorX | axor | axorX | aswp |
      aswpX | acas | acasX | aaddf | aaddfX | amaxf | amaxfX | ainc | aincX =>
    exact atomicOp_wf _ _ _ _ _ _ _ _ _ _ _ h
  case fence | fenceX | fencelb | fencelbX | ackwait | ackwaitX => exact fenceOp_wf _ _ _ h
  case winwait | winwaitX => exact winwaitOp_wf _ _ _ _ h
  case acq | acqX => exact acqOp_wf _ _ _ _ _ _ h
  case rel | relX => exact relOp_wf _ _ _ _ _ _ h
  case bind | bindX => exact bindOp_wf _ _ _ _ _ h
  case unbind | unbindX => exact unbindOp_wf _ _ _ h
  case tlwait | tlwaitX => exact tlwaitOp_wf _ _ _ _ h
  case tlread | tlreadX => exact tlreadOp_wf _ _ _ _ h
  case tladd | tladdX => exact tladdOp_wf _ _ _ _ _ h
  case qwait | qwaitX => exact qwaitOp_wf _ _ _ h
  case qflip | qflipX => exact qflipOp_wf _ _ h
  case qread | qreadX => exact qreadOp_wf _ _ _ h
  case barc | barcX | barh | barhX => exact barrierOp_wf _ _ _ _ _ h
  case pref | prefX => exact prefOp_wf _ _ _ _ h
  case cwb | cwbX | cinv | cinvX => exact cacheOp_wf _ _ _ _ _ _ h
  case vmand | vmandX | vmor | vmorX | vmxor | vmxorX | vmnot | vmnotX => exact maskOp_wf _ _ _ _ _ h
  case vmpop | vmpopX | vmfirst | vmfirstX => exact maskScanOp_wf _ _ _ _ _ _ h
  case viota | viotaX => exact iotaOp_wf _ _ _ _ h
  case vmov | vmovX | vcompr | vcomprX | vexpnd | vexpndX => exact moveOp_wf _ _ _ _ _ _ h
  case vbcast | vbcastX => exact bcastOp_wf _ _ _ _ _ h
  case vextr | vextrX => exact extrOp_wf _ _ _ _ _ _ h
  case vins | vinsX => exact insOp_wf _ _ _ _ _ _ h
  case vperm | vpermX => exact permOp_wf _ _ _ _ _ _ h
  case vslideu | vslideuX | vslided | vslidedX => exact slideOp_wf _ _ _ _ _ _ _ h
  case vredsum | vredsumX | vredmax | vredmaxX | vredmin | vredminX => exact redOp_wf _ _ _ _ _ _ _ h
  case vld | vldX | vst | vstX | vlds | vldsX | vsts | vstsX | vgath | vgathX | vscat | vscatX =>
    exact vmemOp_wf _ _ _ _ _ _ _ _ _ _ _ h
  case vcvtp | vcvtu => exact cvtOp_wf _ _ _ _ _ _ _ _ _ h
  case vcvti => exact cvtiOp_wf _ _ _ _ _ _ h
  case vqscale => exact qscaleOp_wf _ _ _ _ _ _ _ h
  case vtag | vtagX => exact vtagOp_wf _ _ _ _ h
  case vtagr | vtagrX => exact vtagrOp_wf _ _ _ _ h
  case vmerge3 | vmerge3X => exact mergeOp_wf _ _ _ _ _ _ h
  case vsync | vsyncX => exact vsyncOp_wf _ _ h
  case vadd | vaddX | vsub | vsubX | vmul | vmulX | vfma | vfmaX | vfnma | vfnmaX | vmin | vminX | vmax | vmaxX | vabs
      | vabsX | vneg | vnegX | vrcp | vrcpX | vrsq | vrsqX | vexp2 | vexp2X | vlog2 | vlog2X | vtanh | vtanhX | vand |
      vandX | vor | vorX | vxor | vxorX | vshl | vshlX | vshr | vshrX | vshra | vshraX | vcmpeq | vcmpeqX | vcmplt |
      vcmpltX | vcmple | vcmpleX =>
    exact elemOp_wf _ _ _ _ _ _ h
  case vclaim => rw [exec_vclaim]; exact claimOp_wf _ _ _ _ _ h
  case vrelease => rw [exec_vrelease]; exact claimOp_wf _ _ _ _ _ h
  case vreneg => exact claimOp_wf _ _ _ _ _ h
  case mma | mmas | mmamx | mmaws => exact mmaOp_wf _ _ _ _ _ _ _ _ _ _ _ _ _ _ _ h
  case mmag => exact mmagOp_wf _ _ _ _ _ _ _ _ _ _ _ _ h
  case mmax => exact mmaxOp_wf _ _ _ _ _ _ _ _ _ _ h
  case tld => rw [exec_tld]; exact tldOp_wf _ _ _ _ _ _ h
  case tldX => rw [exec_tldX]; exact tldOp_wf _ _ _ _ _ _ h
  case tst => rw [exec_tst]; exact tstOp_wf _ _ _ _ _ _ _ h
  case tstX => rw [exec_tstX]; exact tstOp_wf _ _ _ _ _ _ _ h
  case tzero | tzeroX | aclr | aclrX => exact matRegOp_wf _ _ _ h
  case ald => rw [exec_ald]; exact aldOp_wf _ _ _ _ _ h
  case aldX => rw [exec_aldX]; exact aldOp_wf _ _ _ _ _ h
  case ast => rw [exec_ast]; exact astOp_wf _ _ _ _ _ _ h
  case astX => rw [exec_astX]; exact astOp_wf _ _ _ _ _ _ h
  case aread => exact areadOp_wf _ _ _ _ _ _ h
  case mdld => rw [exec_mdld]; exact sideOp_wf _ _ _ _ _ _ _ _ h
  case mdldX => rw [exec_mdldX]; exact sideOp_wf _ _ _ _ _ _ _ _ h
  case scld => rw [exec_scld]; exact sideOp_wf _ _ _ _ _ _ _ _ h
  case scldX => rw [exec_scldX]; exact sideOp_wf _ _ _ _ _ _ _ _ h
  case orld | orldX => exact orldOp_wf _ _ _ _ _ h
  case gangcfg => exact gangcfgOp_wf _ _ _ h
  case cpy | cpyX | cpyt | cpytX => exact cpyOp_wf _ _ _ _ _ _ _ _ _ _ h
  case cpyg | cpygX => exact cpygOp_wf _ _ _ _ _ _ _ _ _ _ _ h
  case barge | bargeX => exact bargeOp_wf _ _ _ _ _ _ _ _ h
  case bargem | bargemX => exact bargemOp_wf _ _ _ _ _ _ _ _ _ _ h
  case send | sendX => exact sendOp_wf _ _ _ _ _ h
  case sendx | sendxX => exact sendxOp_wf _ _ _ _ _ _ h
  case msginfo | msginfoX => exact msginfoOp_wf _ _ _ h
  case aidle | aidleX => exact aidleOp_wf _ _ h
  case aerase | aeraseX => exact aeraseOp_wf _ _ _ _ _ h
  case migrate | migrateX => exact migrateOp_wf _ _ _ _ _ _ h
  case balloc | ballocX => exact ballocOp_wf _ _ _ _ _ _ h
  case bfree | bfreeX => exact bfreeOp_wf _ _ _ _ h
  case bshare | bshareX => exact bshareOp_wf _ _ _ _ _ _ h
  case btrunc | btruncX => exact btruncOp_wf _ _ _ _ _ h
  case bquery | bqueryX => exact bqueryOp_wf _ _ _ _ _ h
  case bseqnew | bseqnewX => exact bseqnewOp_wf _ _ _ _ _ h
  case bseqdrop | bseqdropX => exact bseqdropOp_wf _ _ _ _ h
  case ptx | ptxX => exact ptxOp_wf _ _ _ _ _ h
  case ptfill | ptfillX => exact ptfillOp_wf _ _ _ _ _ _ h
  case ptinv | ptinvX => exact ptinvOp_wf _ _ _ _ h
  case attnq | attnqX => exact attnqOp_wf _ _ _ _ _ _ h
  case refwait | refwaitX => exact refwaitOp_wf _ _ _ _ _ h
  case mcst => rw [exec_mcst]; exact sluiceOp_wf _ _ _ _ _ _ _ _ _ _ h
  case mcstX => rw [exec_mcstX]; exact sluiceOp_wf _ _ _ _ _ _ _ _ _ _ h
  case mcstc => rw [exec_mcstc]; exact sluiceOp_wf _ _ _ _ _ _ _ _ _ _ h
  case mcstcX => rw [exec_mcstcX]; exact sluiceOp_wf _ _ _ _ _ _ _ _ _ _ h
  case mcseq | mcseqX => exact mcseqOp_wf _ _ _ _ h
  case illegalInstruction => exact execIllegalInstruction_wf _ _ h
  case windowBoundary => exact execWindowBoundary_wf _ h
  case stretchNoticeArrive => exact execStretchNoticeArrive_wf _ _ _ _ h
  case launchHandleExpire => exact execLaunchHandleExpire_wf _ _ h
  case keyZeroiseComplete => exact execKeyZeroiseComplete_wf _ _ h
  case syscResult => exact execSyscResult_wf _ _ _ _ h
  case cleozInterrupt => exact execCleozInterrupt_wf _ _ h
  case timeDomainLeave => exact execTimeDomainLeave_wf _ h
  case timeDomainRejoin => exact execTimeDomainRejoin_wf _ h
  case ethernetPortEnable => exact execEthernetPortEnable_wf _ _ _ h
  case fusedMinimumRaise => exact execFusedMinimumRaise_wf _ _ h
  case rootKeyRevoke => exact execRootKeyRevoke_wf _ h
  case corePowerGating => exact execCorePowerGating_wf _ _ h
  case towlineRouteDown => exact execTowlineRouteDown_wf _ _ h

theorem choice_wf (c : Choice) (run : State → Nat → Result) (s : State) (hr : ∀ id, memWf (memOf (run s id)) = true)
    (h : memWf s.mem = true) : memWf (memOf (s.choose c run)) = true := by
  unfold State.choose
  split
  · exact h
  cases c with
  | event i => grind [exec_wf, memOf_next]
  | issue id =>
    dsimp only
    split
    · exact hr id
    · exact h
  | elapse n slew => grind [State.slewed_mem, memOf_next]
  | install core entry asid priv => grind [State.install_mem, memOf_next]
  | stop core => grind [State.vacate_mem, memOf_next]
  | store k bs => exact State.sysStore_wf _ _ _ h
  | swap k v => exact State.sysSwap_wf _ _ _ h
  | attestKey key => grind [memOf_next]
  | walkA ctx va => exact State.walkA_wf _ _ _ h
  | corrected source unit => grind [State.corrected_wf, memOf_next]
  | groupMove g => grind [State.groupMove_mem, memOf_next]
  | udpPort vf port => grind [memOf_next]
  | accept port v4 v6 => grind [State.modEth_mem, memOf_next]
  | queuePair q => grind [memOf_next]
  | flash a b c => exact h
  | program slot d => exact h
  | sign report sig => grind [State.sign_mem, memOf_next]
  | clock offset latency => exact h
  | member dev inside => grind [memOf_next]
  | refuse id => grind [State.refuseRemote_mem, memOf_next]
  | remoteStore g x => grind [State.modGroup_mem, memOf_next]
  | groupOpen g => grind [State.modGroup_mem, memOf_next]
  | delivered n => grind [State.handledAway_mem, memOf_next]
  | dropped n => grind [State.droppedAway_mem, memOf_next]
  | engRead core ctr ahead ws => exact State.engRead_wf _ _ _ _ _ h
  | engWrite core ctr ahead ws => exact State.engWrite_wf _ _ _ _ _ h
  | remoteAccess op k n x y sync sc => grind [State.foreignAccess_mem, memOf_next]
  | shift vf cls key core => grind [State.orderShift_mem, memOf_next]
  | regions hd l => grind [State.setLaunch_mem, memOf_next]
  | digest k n => exact State.journalAdd_wf _ _ _ _ _ h

theorem State.runWords_wf (s : State) (ws : List W32) (h : memWf s.mem = true) :
    memWf (memOf (s.runWords ws)) = true := by
  unfold State.runWords
  dsimp only
  split
  · exact exec_wf _ _ h
  · exact exec_wf _ _ h

theorem State.runOne_wf (s : State) (h : memWf s.mem = true) : memWf (memOf s.runOne) = true := by
  have hf := State.fetch_wf s h
  unfold State.runOne
  split
  · rw [memOf_next, State.trap_mem, State.modMe_mem]
    exact h
  · split
    next he => rw [he] at hf; rw [memOf_next, State.fetchTrap_mem]; exact hf
    next he => rw [he] at hf; exact State.runWords_wf _ _ hf

theorem State.issueTurn_wf (s : State) (id : Nat) (h : memWf s.mem = true) :
    memWf (memOf (s.issueTurn id)) = true := by
  have hr := State.runOne_wf (s.beginIssue id) h
  unfold State.issueTurn
  split
  next he => rw [he] at hr; rw [memOf_next, State.took_mem]; exact hr
  · exact hr

theorem State.default_wf (s : State) (h : memWf s.mem = true) : memWf (memOf s.default) = true := by
  unfold State.default
  split
  · exact exec_wf _ _ h
  · split
    · exact State.issueTurn_wf _ _ h
    · exact h

theorem step_wf (s : State) (h : memWf s.mem = true) : memWf (memOf (step s)) = true := by
  have hs := State.settled_wf s h
  unfold step
  dsimp only
  split
  · exact choice_wf _ _ _ (fun id => State.issueTurn_wf _ id hs) hs
  · exact State.default_wf _ hs

end Sys2Proof.Machine
end

section
open Sys2Proof Sys2Proof.Machine

/-- Settles O60: a step is an event, an issued instruction or an act of the system, each of which keeps memory canonical. -/
theorem memoryInvariant : Obligations.MemoryInvariant := by
  unfold Obligations.MemoryInvariant
  intro s t h hs
  have hw := step_wf s h
  rw [hs] at hw
  exact hw

/-- Settles O58: memory after reset lists no byte. -/
theorem resetInvariant : Obligations.ResetInvariant := reset_memWf

end

section
/-! O57 (R64, R74, R152, R372, R412, R427). What reset leaves. -/

namespace Sys2Proof.Machine

theorem memNat_nil (k n : Nat) : memNat [] k n = 0 := by
  induction n generalizing k with
  | zero => rfl
  | succ n ih => rw [memNat, ih]; rfl

/-- The registers of the sixteen Towline ports after reset (Table 23.1): all credits are shared, the lanes are off. -/
theorem reset_towline : ∀ port < 16, State.reset.regBits (towBase port + 0x100) 10 0 = 1024 ∧
    State.reset.regBits (towBase port + 0x108) 0 0 = 0 ∧ ∀ vf < 32, State.reset.regBits (towBase port + 8 * vf) 7 0 = 0 := by
  decide +kernel

theorem reset_regAt (id r : Nat) : (State.reset.ctx id).regAt r = 0 := by
  unfold Ctx.regAt
  split <;> rfl

end Sys2Proof.Machine

open Sys2Proof Sys2Proof.Machine

/-- Settles O57: every field of the reset state is read off. -/
theorem resetState : Obligations.ResetState := by
  refine ⟨rfl, rfl, rfl, rfl, fun _ => rfl, fun _ => rfl, fun _ => ⟨rfl, rfl⟩, fun _ => ⟨rfl, rfl⟩, fun _ _ => ⟨rfl, rfl⟩,
    by decide, by decide, by decide, by decide, by decide, reset_towline, by decide, by decide, fun _ => ?_, fun _ => ⟨rfl, rfl⟩,
    fun id r => ⟨reset_regAt id r, rfl, rfl, rfl⟩, memNat_nil⟩
  exact ⟨rfl, rfl, rfl, rfl, rfl, rfl, rfl, rfl, rfl, rfl, rfl, rfl, rfl, rfl⟩

end

section
/-! O24 (R66, R91, R96, R235, R240 to R244). Accesses at issue, and the instructions of the barriers and of the cluster cache. -/

namespace Sys2Proof.Machine

/-! ## An access that is sent -/

/-- The access that `State.launchAccess` puts in flight. -/
def State.newFlight (s : State) (o : Op) (a : W64) (size : Nat) (x : Xl) (al : Bool) (q : Req) : Flight :=
  { id := s.nextId, ctx := s.cur, hnum := s.me.hnum, pc := s.me.pc, op := q.op, va := a, key := x.key, size := size, sext := q.sext,
    dst := q.dst.map s.me.regKey, dst2 := q.dst2.map s.me.regKey, x := q.x s, y := q.y s, sync := q.sync, scope := q.scope, order := q.order,
    counted := q.op.counts q.sync, cached := usesCache s.me x.cached q, alias_ := al, remote := x.remote, vf := s.vfOf s.cur,
    phase := (s.me.phase + q.ph.toNat) % 2, window := s.winNum, issued := s.cycle, performed := false, waiting := none, refused := 0,
    backoff := 0, since := s.cycle, until_ := s.cycle + 1 + o.st.toNat, xlAt := s.nextId }

theorem launchAccess_eq (s : State) (o : Op) (a : W64) (size : Nat) (x : Xl) (al : Bool) (q : Req) :
    ∃ act, s.launchAccess o a size x al q =
      { s with flights := s.flights ++ [s.newFlight o a size x al q], nextId := s.nextId + 1, activity := act,
               ctxs := if (s.newFlight o a size x al q).isRelease then s.ctxs.put s.cur { s.me with relMark := s.nextId + 1 } else s.ctxs } := by
  have hl : ∀ t : State, t = ({ s with flights := s.flights ++ [s.newFlight o a size x al q], nextId := s.nextId + 1 } : State).active (s.vfOf s.cur)
      ((s.me.phase + q.ph.toNat) % 2) → s.launchAccess o a size x al q =
        if (s.newFlight o a size x al q).isRelease then t.modMe fun c => { c with relMark := t.nextId } else t := by
    rintro _ rfl
    rfl
  obtain ⟨act, ha⟩ := active_eq ({ s with flights := s.flights ++ [s.newFlight o a size x al q], nextId := s.nextId + 1 } : State)
    (s.vfOf s.cur) ((s.me.phase + q.ph.toNat) % 2)
  refine ⟨act, (hl _ ha.symm).trans ?_⟩
  split <;> rfl

theorem me_launchAccess (s : State) (o : Op) (a : W64) (size : Nat) (x : Xl) (al : Bool) (q : Req) :
    (s.launchAccess o a size x al q).me =
      { s.me with relMark := if (s.newFlight o a size x al q).isRelease then s.nextId + 1 else s.me.relMark } := by
  obtain ⟨act, h⟩ := launchAccess_eq s o a size x al q
  rw [h]
  by_cases hr : (s.newFlight o a size x al q).isRelease = true
  · rw [if_pos hr, if_pos hr]
    exact ctx_setCtx_same s s.cur _
  · rw [if_neg hr, if_neg hr]
    rfl

theorem cycle_launchAccess (s : State) (o : Op) (a : W64) (size : Nat) (x : Xl) (al : Bool) (q : Req) :
    (s.launchAccess o a size x al q).cycle = s.cycle := by
  obtain ⟨act, h⟩ := launchAccess_eq s o a size x al q
  rw [h]

/-- The access is in flight, and what then changes in the issuing context alone is `hm`. -/
theorem sends_of {s u v : State} {o : Op} {a : W64} {size : Nat} {x : Xl} {al : Bool} {q : Req} {held acq : Bool} (h : OnlyTables s u)
    (hv : OnlyMe (u.launchAccess o a size x al q) v)
    (hm : v.me = { (u.launchAccess o a size x al q).me with
      pc := s.me.pc + BitVec.ofNat 64 o.len, nextIssue := s.cycle + 1 + o.st.toNat, migCnt := v.me.migCnt,
      wait := if held then some (.access s.nextId) else none, waitFrom := if held then s.cycle else s.me.waitFrom,
      pend := s.me.pend ++ if acq && !held then [s.pending (.access s.nextId) none o.st] else [] }) :
    Sends s u v (u.newFlight o a size x al q) o.len o.st held acq := by
  obtain ⟨act, ha⟩ := launchAccess_eq u o a size x al q
  have hr := hv.rest
  rw [ha] at hr
  have hcur := h.cur
  refine ⟨⟨?_, ?_, h.nextId, hcur, congrArg Ctx.hnum h.me, congrArg Ctx.pc h.me, h.cycle, rfl, rfl, rfl⟩, ?_, fun id hid => ?_, ?_⟩
  · rw [← h.flights]
    exact congrArg State.flights hr
  · rw [← h.nextId]
    exact congrArg State.nextId hr
  · exact congrArg (fun w : State => { w with ctxs := u.ctxs, flights := u.flights, nextId := u.nextId, activity := u.activity }) hr
  · have hid' : id ≠ u.cur := by rw [hcur]; exact hid
    refine (hv.others id (by rw [ha]; exact hid')).trans ?_
    have hu : u.ctx id = s.ctx id := by unfold State.ctx; rw [h.ctxs]
    rw [ha, ← hu]
    unfold State.ctx
    dsimp only
    split
    · exact get_put_other _ _ _ _ _ hid'
    · rfl
  · rw [hm, me_launchAccess, h.me, h.nextId]

/-! ## What an access instruction does (R155) -/

theorem cacheOff_iff (u : State) (x : Xl) (q : Req) : u.replyCacheOff x q = true ↔ u.CacheOff x (q.op.replied q.sync) := by
  unfold State.replyCacheOff State.portCacheOff State.CacheOff
  cases u.routeTo (keyDev x.key) with
  | none => simp
  | some p => simp [and_assoc]

/-- The context goes on, its access counted for its home (R209). -/
theorem me_finish_countHome (t : State) (o : Op) (k key : Nat) : ∃ m, ((t.finish o).modMe fun c => c.countHome k key).me =
    { t.me with pc := t.me.pc + BitVec.ofNat 64 o.len, wait := none, nextIssue := t.cycle + 1 + o.st.toNat, migCnt := m } := by
  rw [me_modMe, State.finish, me_modMe]
  unfold Ctx.countHome
  dsimp only
  split
  · exact ⟨_, rfl⟩
  · exact ⟨_, rfl⟩

/-- The context goes on behind an access: it is held, or keeps its later accesses back, or neither. -/
theorem sends_accessOp {s u : State} {o : Op} {a : W64} {size : Nat} {x : Xl} {al : Bool} {q : Req} (h : OnlyTables s u) (held acq : Bool) (k : Nat) :
    Sends s u
      (let v := ((u.launchAccess o a size x al q).finish o).modMe fun c => c.countHome k x.key
       if held then v.modMe fun c => { c with wait := some (.access u.nextId), waitFrom := v.cycle }
       else if acq then v.modMe fun c => { c with pend := c.pend ++ [acquirePend u.me.pc u.nextId v.cycle o.st.toNat] }
       else v) (u.newFlight o a size x al q) o.len o.st held acq := by
  have hme := h.me
  have hcy := (cycle_launchAccess u o a size x al q).trans h.cycle
  have hpc : (u.launchAccess o a size x al q).me.pc = s.me.pc := by rw [me_launchAccess, hme]
  have hpd : (u.launchAccess o a size x al q).me.pend = s.me.pend := by rw [me_launchAccess, hme]
  have hwf : (u.launchAccess o a size x al q).me.waitFrom = s.me.waitFrom := by rw [me_launchAccess, hme]
  have hid := h.nextId
  generalize ht : u.launchAccess o a size x al q = t at hcy hpc hpd hwf ⊢
  obtain ⟨m, hm⟩ := me_finish_countHome t o k x.key
  have hv : OnlyMe t ((t.finish o).modMe fun c => c.countHome k x.key) := (onlyMe_modMe ..).trans (onlyMe_modMe ..)
  have hvc : ((t.finish o).modMe fun c => c.countHome k x.key).cycle = s.cycle := hcy
  generalize (t.finish o).modMe (fun c => c.countHome k x.key) = v at hm hv hvc ⊢
  cases held
  · cases acq
    · refine sends_of h (by rw [ht]; exact hv) ?_
      rw [ht]
      simp [hm, hpc, hcy, hpd, hwf]
    · simp only [Bool.false_eq_true, if_false, if_true]
      refine sends_of h (by rw [ht]; exact hv.trans (onlyMe_modMe ..)) ?_
      rw [ht]
      simp [hm, hpc, hcy, hpd, hwf, State.pending, acquirePend, hvc, hid, hme]
  · refine sends_of h (by rw [ht]; exact hv.trans (onlyMe_modMe ..)) ?_
    rw [ht]
    simp [hm, hpc, hcy, hpd, hvc, hid]

theorem OnlyTables.vfid {s u : State} (h : OnlyTables s u) (k : Nat) : (u.core k).vfid = (s.core k).vfid := by
  have := congrArg CoreSt.vfid (h.cores k)
  exact this

/-- An access instruction: the traps of the checks, and else the access with its fields. -/
theorem accesses_accessOp {s : State} {i : Instr} {o : Op} {srcs dsts : List R6} {addr : State → W64} {size : Nat} {acc : Acc} {q : Req}
    {held acq : Bool} {P : Flight → Prop} (he : exec i s = accessOp o srcs dsts addr size acc q s) (ho : s.Open srcs dsts)
    (hh : (q.holds || (isAcq q.order && q.op.held q.dst)) = held) (ha : (isAcq q.order || q.op == .acq) = acq)
    (hP : ∀ u x al, OnlyTables s u → P (u.newFlight o (addr s) size x al q)) :
    Accesses s i (addr s) size acc (q.op.isTagged q.sync) (q.op.replied q.sync) held acq o.len o.st P := by
  have hb := he.trans (issueAcc_open s srcs dsts _ ho)
  have keeps := checkAccess_keeps s s.cur (addr s).toNat size acc (q.op.isTagged q.sync)
  refine ⟨fun c v hc => ?_, fun u g hc => ?_, fun u x al hc => ?_⟩
  · rw [hb]
    simp only [hc]
  · rw [hb]
    simp only [hc]
    rfl
  · rw [hc] at keeps
    refine ⟨keeps, checkAccess_memory hc, fun hoff => ?_, fun hoff => ?_⟩
    · rw [hb]
      simp only [hc, (cacheOff_iff u x q).2 hoff, if_true]
    · have hno : u.replyCacheOff x q = false := by rw [← Bool.not_eq_true, cacheOff_iff]; exact hoff
      refine ⟨_, u.newFlight o (addr s) size x al q, hb.trans ?_, sends_accessOp keeps held acq (u.launchAccess o (addr s) size x al q).myCore,
        hP u x al keeps, rfl, rfl, rfl, rfl, rfl, ?_⟩
      · simp only [hc, hno, hh, ha, Bool.false_eq_true, if_false]
      · show u.vfOf u.cur = s.vfOf s.cur
        rw [keeps.cur]
        exact keeps.vfid _

/-! ## ACQ and REL (R96, R235) -/

theorem accesses_acqOp {s : State} {i : Instr} {o : Op} {d a : R6} {disp : W64} {sc : Nat} (he : exec i s = acqOp o d a disp sc s)
    (ho : s.Open [a] [d]) : Accesses s i (s.rd a + disp) 8 accAtomic true true (d = 0) true o.len o.st fun f =>
      f.op = .acq ∧ f.dst = some (s.me.regKey d) ∧ f.dst2 = none ∧ f.scope = sc ∧ f.order = 0 ∧ f.counted = true := by
  refine accesses_accessOp (addr := fun s => s.rd a + disp) (q := { op := .acq, dst := some d, scope := sc, holds := d == 0 }) he ho ?_ rfl ?_
  · show (d == 0 || false) = _
    rw [Bool.or_false]
    rfl
  · intro u x al hu
    refine ⟨rfl, ?_, rfl, rfl, rfl, rfl⟩
    show some (u.me.regKey d) = _
    rw [hu.me]

/-- The bytes that lines write back are those whose dirty bits are set (R66). -/
theorem memGet_memMerge_clear (m : List Host.Cell) (k v mask n j : Nat) (h : memWf m = true)
    (hj : j < k ∨ k + n ≤ j ∨ mask / 2 ^ (j - k) % 2 = 0) : memGet (memMerge m k v mask n) j = memGet m j := by
  induction n generalizing m k v mask with
  | zero => rfl
  | succ n ih =>
    have tail : ∀ m', memWf m' = true → memGet (memMerge m' (k + 1) (v / 256) (mask / 2) n) j = memGet m' j := by
      intro m' hm'
      by_cases hjk : j < k + 1
      · exact memGet_memMerge_other _ _ _ _ _ _ (.inl hjk) hm'
      · refine ih _ _ _ _ hm' ?_
        rcases hj with hj | hj | hj
        · exact .inl (by omega)
        · exact .inr (.inl (by omega))
        · refine .inr (.inr ?_)
          obtain ⟨e, he⟩ : ∃ e, j - k = e + 1 := ⟨j - k - 1, by omega⟩
          rw [show j - (k + 1) = e by omega, Nat.div_div_eq_div_mul, ← Nat.pow_succ']
          rw [he] at hj
          exact hj
    unfold memMerge
    split
    · rw [tail _ (memSet_wf _ _ _ h)]
      refine memGet_memSet_other _ _ _ _ ?_ h
      rintro rfl
      rcases hj with hj | hj | hj
      · omega
      · omega
      · simp at hj
        omega
    · exact tail _ h

theorem flushLines_clear (l : List Line) (s : State) (h : memWf s.mem = true) (k : Nat)
    (hl : ∀ x ∈ l, k < x.key ∨ x.key + 64 ≤ k ∨ x.dirty.toNat / 2 ^ (k - x.key) % 2 = 0) :
    memGet (l.foldl State.flushLine s).mem k = memGet s.mem k := by
  induction l generalizing s with
  | nil => rfl
  | cons x l ih =>
    refine (ih (s.flushLine x) (memMerge_wf _ _ _ _ _ h) fun y hy => hl y (List.mem_cons_of_mem _ hy)).trans ?_
    exact memGet_memMerge_clear _ _ _ _ _ _ h (hl x List.mem_cons_self)

/-- A write-back keeps every byte that is not dirty in a line it takes. -/
theorem writeBack_clear {s : State} {cl : Nat} {p : Line → Bool} {inval : Bool} {k : Nat} (h : memWf s.mem = true)
    (hl : ∀ l ∈ (s.cluster cl).lines, p l = true → k < l.key ∨ l.key + 64 ≤ k ∨ l.dirty.toNat / 2 ^ (k - l.key) % 2 = 0) :
    memGet (s.writeBack cl p inval).mem k = memGet s.mem k := by
  refine flushLines_clear _ s h k fun x hx => ?_
  obtain ⟨hm, hp⟩ := List.mem_filter.1 hx
  exact hl x hm (by simp at hp; exact hp.1)

theorem unmerged_iff (s : State) (ctx : Nat) : s.unmerged ctx = true ↔ ∃ g ∈ s.flights, g.ctx = ctx ∧ g.cached = true ∧ g.performed = false := by
  simp [State.unmerged, and_assoc]

section
variable {s u : State} {i : Instr} {o : Op} {d a : R6} {disp : W64} {sc : Nat} {x : Xl} {al : Bool}
variable (hi : exec i s = relOp o d a disp sc s) (ho : s.Open [a, d] [])
include hi ho

theorem rel_trap {c : Nat} {v : W64} (hc : s.checkAccess s.cur (s.rd a + disp).toNat 8 accTag true = .trap c v) :
    exec i s = .next (s.trap c v) := by
  refine (hi.trans (issueAcc_open s _ _ _ ho)).trans ?_
  simp only [hc]

theorem rel_page {g : FaultInfo} (hc : s.checkAccess s.cur (s.rd a + disp).toNat 8 accTag true = .page u g) :
    exec i s = .next (u.takeTrap u.cur g.cause g.va u.me.pc (some g)) := by
  refine (hi.trans (issueAcc_open s _ _ _ ho)).trans ?_
  simp only [hc]
  rfl

variable (hc : s.checkAccess s.cur (s.rd a + disp).toNat 8 accTag true = .ok u x al)
include hc

theorem rel_cacheOff (hoff : u.CacheOff x true) : exec i s = .next (u.trap 0x05 (s.rd a + disp)) := by
  refine (hi.trans (issueAcc_open s _ _ _ ho)).trans ?_
  have h := (cacheOff_iff u x { op := .rel, x := fun s => s.rd d, scope := sc }).2 hoff
  simp only [hc, h, if_true]

theorem rel_unmerged (hoff : ¬ u.CacheOff x true) (hsc : 2 ≤ sc) (hg : ∃ g ∈ u.flights, g.ctx = u.cur ∧ g.cached = true ∧ g.performed = false) :
    ∃ t, exec i s = .next t ∧ Waits u t .merged := by
  refine ⟨_, (hi.trans (issueAcc_open s _ _ _ ho)).trans ?_, waits_hold u .merged⟩
  have h : u.replyCacheOff x { op := .rel, x := fun s => s.rd d, scope := sc } = false := by
    rw [← Bool.not_eq_true, cacheOff_iff]
    exact hoff
  simp only [hc, h, hsc, (unmerged_iff u u.cur).2 hg, Bool.false_eq_true, if_false, and_self, if_true]

/-- The write-back of REL, at scope dev or sys. -/
def State.releaseLines (u : State) (s : State) (w : W64) (sc : Nat) : State :=
  if 2 ≤ sc then u.writeBack (clusterOf s.myCore) (meetsAny (u.boundTo s.cur w)) false else u

end

theorem OnlyTables.rd {s u : State} (h : OnlyTables s u) (r : R6) : u.rd r = s.rd r := by
  have := congrArg (fun x : State => x.rd r) h.rest
  exact this

theorem OnlyTables.myCore {s u : State} (h : OnlyTables s u) : u.myCore = s.myCore := congrArg coreOf h.cur

theorem onlyTables_releaseLines {s u : State} (h : OnlyTables s u) (w : W64) (sc : Nat) : OnlyTables s (u.releaseLines s w sc) := by
  unfold State.releaseLines
  split
  · exact h.trans (onlyTables_writeBack ..)
  · exact h

/-- REL is sent behind its write-back and holds the context. -/
theorem rel_sends {s u : State} {i : Instr} {o : Op} {d a : R6} {disp : W64} {sc : Nat} {x : Xl} {al : Bool}
    (hi : exec i s = relOp o d a disp sc s) (ho : s.Open [a, d] [])
    (hc : s.checkAccess s.cur (s.rd a + disp).toNat 8 accTag true = .ok u x al) (hoff : ¬ u.CacheOff x true)
    (hg : 2 ≤ sc → ∀ g ∈ u.flights, g.ctx = u.cur → g.cached = true → g.performed = true) :
    ∃ t, exec i s = .next t ∧ Sends s (u.releaseLines s (s.rd a + disp) sc) t
      ((u.releaseLines s (s.rd a + disp) sc).newFlight o (s.rd a + disp) 8 x al { op := .rel, x := fun s => s.rd d, scope := sc })
      o.len o.st true false := by
  have keeps := checkAccess_keeps s s.cur (s.rd a + disp).toNat 8 accTag true
  rw [hc] at keeps
  have hno : u.replyCacheOff x { op := .rel, x := fun s => s.rd d, scope := sc } = false := by
    rw [← Bool.not_eq_true, cacheOff_iff]
    exact hoff
  have hm : ¬ (2 ≤ sc ∧ u.unmerged u.cur = true) := by
    rintro ⟨hsc, hu⟩
    obtain ⟨g, hg1, hg2, hg3, hg4⟩ := (unmerged_iff u u.cur).1 hu
    rw [hg hsc g hg1 hg2 hg3] at hg4
    cases hg4
  have hv : (if 2 ≤ sc then u.writeBack (clusterOf u.myCore) (meetsAny (u.boundTo u.cur (s.rd a + disp))) false else u) =
      u.releaseLines s (s.rd a + disp) sc := by rw [keeps.myCore, keeps.cur]; rfl
  have hk := onlyTables_releaseLines keeps (s.rd a + disp) sc
  obtain ⟨v, hve⟩ : ∃ v, v = u.releaseLines s (s.rd a + disp) sc := ⟨_, rfl⟩
  rw [← hve] at hk hv ⊢
  obtain ⟨w, hw⟩ : ∃ w, w = v.launchAccess o (s.rd a + disp) 8 x al { op := .rel, x := fun s => s.rd d, scope := sc } := ⟨_, rfl⟩
  have hme : w.me = _ := hw ▸ me_launchAccess v o (s.rd a + disp) 8 x al { op := .rel, x := fun s => s.rd d, scope := sc }
  have hcy : w.cycle = s.cycle := (congrArg State.cycle hw).trans ((cycle_launchAccess ..).trans hk.cycle)
  have hpc : w.me.pc = s.me.pc := by rw [hme, hk.me]
  have hpd : w.me.pend = s.me.pend := by rw [hme, hk.me]
  refine ⟨(w.finish o).modMe fun c => { c.countHome w.myCore x.key with wait := some (.access v.nextId), waitFrom := (w.finish o).cycle },
    (hi.trans (issueAcc_open s _ _ _ ho)).trans ?_, sends_of hk (hw ▸ (onlyMe_modMe ..).trans (onlyMe_modMe ..)) ?_⟩
  · simp only [hc, hno, hm, hv, hw, Bool.false_eq_true, if_false]
    rfl
  · have hfc : (w.finish o).cycle = s.cycle := hcy
    rw [← hw, me_modMe, hfc, State.finish, me_modMe, hcy]
    unfold Ctx.countHome
    dsimp only
    split <;> simp [hpc, hpd, hk.nextId]

end Sys2Proof.Machine
end

section
namespace Sys2Proof.Machine

/-! ## Bytes of memory (R58) -/

theorem put_put {α : Type} (m : Map α) (k : Nat) (v w : α) : Map.put (Map.put m k v) k w = Map.put m k w := by
  induction m with
  | nil => simp [Map.put]
  | cons e m ih =>
    unfold Map.put
    by_cases h : e.1 = k
    · simp [h, Map.put]
    · simp [h, ih, Map.put]

theorem modCluster_modCluster (s : State) (i : Nat) (f g : Cluster → Cluster) :
    (s.modCluster i f).modCluster i g = s.modCluster i fun c => g (f c) := by
  unfold State.modCluster
  simp [State.cluster, put_put]

/-- The byte `j` of a merged span: the value's where the mask marks it. -/
theorem memGet_memMerge (m : List Host.Cell) (k v mask n j : Nat) (h : memWf m = true) :
    memGet (memMerge m k v mask n) j =
      if k ≤ j ∧ j < k + n ∧ mask / 2 ^ (j - k) % 2 = 1 then BitVec.ofNat 8 (v / 256 ^ (j - k)) else memGet m j := by
  by_cases hj : k ≤ j ∧ j < k + n ∧ mask / 2 ^ (j - k) % 2 = 1
  · rw [if_pos hj]
    obtain ⟨h1, h2, h3⟩ := hj
    induction n generalizing m k v mask with
    | zero => omega
    | succ n ih =>
      unfold memMerge
      by_cases hk : j = k
      · subst hk
        rw [memGet_memMerge_other _ _ _ _ _ _ (.inl (Nat.lt_succ_self j)) (by split; exacts [memSet_wf _ _ _ h, h])]
        simp only [Nat.sub_self, Nat.pow_zero, Nat.div_one] at h3 ⊢
        rw [if_pos h3, memGet_memSet_same _ _ _ h]
      · obtain ⟨e, he⟩ : ∃ e, j - k = e + 1 := ⟨j - k - 1, by omega⟩
        have he' : j - (k + 1) = e := by omega
        rw [he, Nat.pow_succ', ← Nat.div_div_eq_div_mul] at h3
        rw [ih _ _ _ _ (by split; exacts [memSet_wf _ _ _ h, h]) (by omega) (by omega) (by rw [he']; exact h3), he, he', Nat.pow_succ',
          Nat.div_div_eq_div_mul]
  · rw [if_neg hj]
    refine memGet_memMerge_clear _ _ _ _ _ _ h ?_
    by_cases h1 : j < k
    · exact .inl h1
    · by_cases h2 : k + n ≤ j
      · exact .inr (.inl h2)
      · have : ¬ mask / 2 ^ (j - k) % 2 = 1 := fun h3 => hj ⟨by omega, by omega, h3⟩
        exact .inr (.inr (by omega))

theorem memNat_byte (m : List Host.Cell) (k n j : Nat) (hj : j < n) : BitVec.ofNat 8 (memNat m k n / 256 ^ j) = memGet m (k + j) := by
  induction n generalizing k j with
  | zero => omega
  | succ n ih =>
    have hlt := (memGet m k).isLt
    unfold memNat
    cases j with
    | zero =>
      refine BitVec.eq_of_toNat_eq ?_
      simp only [Nat.pow_zero, Nat.div_one, Nat.add_zero, BitVec.toNat_ofNat]
      omega
    | succ j =>
      rw [Nat.pow_succ', ← Nat.div_div_eq_div_mul, show ((memGet m k).toNat + 256 * memNat m (k + 1) n) / 256 = memNat m (k + 1) n by omega,
        ih (k + 1) j (by omega), Nat.add_right_comm, Nat.add_assoc]

/-! ## The lines of the cluster cache (R66) -/

theorem extract_byte {w : Nat} (x : Nat) (j : Nat) (hj : 8 * j + 8 ≤ w) : (BitVec.ofNat w x).extractLsb' (8 * j) 8 = BitVec.ofNat 8 (x / 256 ^ j) := by
  refine BitVec.eq_of_getLsbD_eq fun i hi => ?_
  rw [BitVec.getLsbD_extractLsb', BitVec.getLsbD_ofNat, BitVec.getLsbD_ofNat, show (256 : Nat) = 2 ^ 8 from rfl, ← Nat.pow_mul, Nat.testBit_div_two_pow]
  simp [hi, show i + 8 * j < w by omega, Nat.add_comm]

theorem line_byte (l : Line) (j : Nat) (hj : j < 64) : BitVec.ofNat 8 (l.data.toNat / 256 ^ j) = l.data.extractLsb' (8 * j) 8 := by
  rw [← extract_byte (w := 512) _ _ (by omega), BitVec.ofNat_toNat, BitVec.setWidth_eq]

theorem dirty_bit (l : Line) (j : Nat) : l.dirty.toNat / 2 ^ j % 2 = 1 ↔ l.dirty.getLsbD j = true := by
  rw [BitVec.getLsbD, Nat.testBit_eq_decide_div_mod_eq, decide_eq_true_iff]

/-- What a line that leaves the cache writes back: its dirty bytes. -/
theorem memGet_flushLine (s : State) (l : Line) (h : memWf s.mem = true) (k : Nat) : memGet (s.flushLine l).mem k =
    if l.key ≤ k ∧ k < l.key + 64 ∧ l.dirty.getLsbD (k - l.key) = true then l.data.extractLsb' (8 * (k - l.key)) 8 else memGet s.mem k := by
  refine (memGet_memMerge _ _ _ _ _ _ h).trans ?_
  simp only [dirty_bit]
  by_cases hk : l.key ≤ k ∧ k < l.key + 64 ∧ l.dirty.getLsbD (k - l.key) = true
  · rw [if_pos hk, if_pos hk, line_byte _ _ (by omega)]
  · rw [if_neg hk, if_neg hk]

theorem findLine_none {s : State} {cl key : Nat} (h : ∀ l ∈ (s.cluster cl).lines, l.key ≠ key / 64 * 64) : s.findLine cl key = none := by
  unfold State.findLine
  simp only [List.find?_eq_none, beq_iff_eq]
  exact h

theorem fillLine_present {s : State} {cl key : Nat} (h : ∃ l ∈ (s.cluster cl).lines, l.key = key / 64 * 64) : (s.fillLine cl key).1 = s := by
  unfold State.fillLine
  cases hf : s.findLine cl key with
  | some l => rfl
  | none =>
    obtain ⟨l, hl, hk⟩ := h
    have := List.find?_eq_none.1 hf l hl
    simp [lineKey, hk] at this

/-- The line that a fill brings in. -/
def State.newLine (s : State) (cl key : Nat) : Line :=
  { key := lineKey key, data := BitVec.ofNat 512 ((s.makeRoom cl).read (lineKey key) 64), dirty := 0 }

theorem fillLine_absent {s : State} {cl key : Nat} (h : ∀ l ∈ (s.cluster cl).lines, l.key ≠ key / 64 * 64) :
    (s.fillLine cl key).1 = (s.makeRoom cl).modCluster cl fun c => { c with lines := c.lines ++ [s.newLine cl key] } := by
  unfold State.fillLine
  rw [findLine_none h]
  rfl

theorem makeRoom_room {s : State} {cl : Nat} (h : (s.cluster cl).lines.length < cacheLines (s.cluster cl).split) : s.makeRoom cl = s := by
  unfold State.makeRoom
  split
  next => rfl
  next l ls hl =>
    rw [hl] at h
    rw [if_pos h]

theorem makeRoom_full {s : State} {cl : Nat} {l : Line} {ls : List Line} (hl : (s.cluster cl).lines = l :: ls)
    (h : cacheLines (s.cluster cl).split ≤ (s.cluster cl).lines.length) :
    s.makeRoom cl = (if l.dirty = 0 then s else s.flushLine l).modCluster cl fun c => { c with lines := c.lines.tail } := by
  unfold State.makeRoom
  split
  next h0 => rw [h0] at hl; cases hl
  next l' ls' hl' =>
    rw [hl'] at h
    cases hl'.symm.trans hl
    rw [if_neg (Nat.not_lt.2 h)]

/-- A clean line has nothing to write back. -/
theorem memGet_leaves (s : State) (l : Line) (h : memWf s.mem = true) (k : Nat) : memGet (if l.dirty = 0 then s else s.flushLine l).mem k =
    if l.key ≤ k ∧ k < l.key + 64 ∧ l.dirty.getLsbD (k - l.key) = true then l.data.extractLsb' (8 * (k - l.key)) 8 else memGet s.mem k := by
  by_cases hd : l.dirty = 0
  · simp [hd]
  · rw [if_neg hd]
    exact memGet_flushLine s l h k

theorem newLine_byte (s : State) (cl key j : Nat) (hj : j < 64) :
    (s.newLine cl key).data.extractLsb' (8 * j) 8 = memGet (s.makeRoom cl).mem (key / 64 * 64 + j) :=
  (extract_byte (w := 512) _ _ (by omega)).trans (memNat_byte _ _ _ _ hj)

end Sys2Proof.Machine
end

section
namespace Sys2Proof.Machine

/-- A fill brings in the line with the bytes of memory behind the line that leaves, and the oldest line leaves a full cache (R66). -/
theorem fillLine_line {s : State} {cl key : Nat} (h : memWf s.mem = true) (ha : ∀ l ∈ (s.cluster cl).lines, l.key ≠ key / 64 * 64) :
    ∃ new : Line, new.key = key / 64 * 64 ∧ new.dirty = 0 ∧
      (∀ j, j < 64 → new.data.extractLsb' (8 * j) 8 = memGet (s.fillLine cl key).1.mem (key / 64 * 64 + j)) ∧
      ((s.cluster cl).lines.length < cacheLines (s.cluster cl).split →
        (s.fillLine cl key).1 = s.modCluster cl fun c => { c with lines := (s.cluster cl).lines ++ [new] }) ∧
      (∀ l ls, (s.cluster cl).lines = l :: ls → cacheLines (s.cluster cl).split ≤ (s.cluster cl).lines.length →
        (s.fillLine cl key).1 = ({ s with mem := (s.fillLine cl key).1.mem } : State).modCluster cl (fun c => { c with lines := ls ++ [new] }) ∧
        ∀ k, memGet (s.fillLine cl key).1.mem k =
          if l.key ≤ k ∧ k < l.key + 64 ∧ l.dirty.getLsbD (k - l.key) = true then l.data.extractLsb' (8 * (k - l.key)) 8 else memGet s.mem k) := by
  refine ⟨s.newLine cl key, rfl, rfl, fun j hj => ?_, fun hr => ?_, fun l ls hl hf => ⟨?_, fun k => ?_⟩⟩
  · rw [newLine_byte _ _ _ _ hj, fillLine_absent ha]
    rfl
  · rw [fillLine_absent ha, makeRoom_room hr]
    rfl
  · rw [fillLine_absent ha, makeRoom_full hl hf, modCluster_modCluster]
    by_cases hd : l.dirty = 0
    · simp only [hd, if_true, State.modCluster, hl, List.tail_cons]
    · simp only [hd, if_false, State.modCluster, State.flushLine]
      unfold State.cluster at hl ⊢
      simp only [hl, List.tail_cons]
  · rw [fillLine_absent ha, makeRoom_full hl hf]
    exact memGet_leaves s l h k

/-! ## Barriers (R235, R240, R241) -/

theorem unacked_iff (s : State) (ctx n : Nat) : s.unacked ctx n = true ↔ s.OwedBy ctx n := by
  simp [State.unacked, State.owes, State.OwedBy, State.Owed, and_assoc, or_assoc]

theorem arriveAt_eq (s : State) (isC : Bool) (core ctx v : Nat) : s.arriveAt isC core ctx v =
    if ((s.joinBarrier isC core ctx v).barrier isC core).arrivals = [] then
      State.rejoin isC core ((((s.joinBarrier isC core ctx v).barrier isC core).held.length + 1) *
        (((s.joinBarrier isC core ctx v).barrier isC core).held.length + 1)) ((s.joinBarrier isC core ctx v).barrier isC core).held
        ((s.joinBarrier isC core ctx v).setBarrier isC core { (s.joinBarrier isC core ctx v).barrier isC core with held := [] })
    else s.joinBarrier isC core ctx v := rfl

theorem advancePend_arrive_waits {s : State} {ctx : Nat} {p : Pend} {isC : Bool} {v after : Nat} (hp : p.op = .arrive isC v after)
    (h : s.OwedBy ctx after) : s.advancePend ctx p = s := by
  unfold State.advancePend
  rw [hp]
  exact if_pos ((unacked_iff s ctx after).2 h)

theorem advancePend_arrive_joins {s : State} {ctx : Nat} {p : Pend} {isC : Bool} {v after : Nat} (hp : p.op = .arrive isC v after)
    (h : ¬ s.OwedBy ctx after) : s.advancePend ctx p =
      (s.modCtx ctx fun c => { c with pend := c.pend.replace p { p with op := .barrier isC v, since := s.cycle } }).arriveAt isC (coreOf ctx) ctx v := by
  unfold State.advancePend
  rw [hp]
  exact if_neg (mt (unacked_iff s ctx after).1 h)

theorem barrier_trap {s : State} {i : Instr} {o : Op} {d a : R6} {isC : Bool} {v : Nat} (hi : exec i s = barrierOp o isC d a s) (ho : s.Open [a] [d])
    (hv : (if isC then (s.rd a).toNat % 256 else (s.rd a).toNat % 16) = v) (h : isC = false ∧ (v < 1 ∨ 11 < v)) :
    exec i s = .next (s.trap 0x01 (s.word0.setWidth 64)) := by
  refine (hi.trans (issueAcc_open s _ _ _ ho)).trans ?_
  obtain ⟨rfl, h⟩ := h
  simp only [hv, Bool.not_false, Bool.true_and, Bool.or_eq_true, decide_eq_true_eq, h, if_true]

/-- A barrier instruction goes on, its arrival under way behind the accesses sent so far. -/
theorem barrier_pends {s : State} {i : Instr} {o : Op} {d a : R6} {isC : Bool} {v : Nat} (hi : exec i s = barrierOp o isC d a s)
    (ho : s.Open [a] [d]) (hv : (if isC then (s.rd a).toNat % 256 else (s.rd a).toNat % 16) = v) (h : isC = true ∨ 1 ≤ v ∧ v ≤ 11) :
    ∃ t, exec i s = .next t ∧ Pends s t d (.arrive isC v s.nextId) o.len o.st := by
  have hno : ¬ (isC = false ∧ (v < 1 ∨ 11 < v)) := by
    rintro ⟨rfl, h'⟩
    rcases h with h | h
    · cases h
    · omega
  refine ⟨(s.modMe fun c => { c with relMark := s.nextId }).pendOn o d (.arrive isC v s.nextId), (hi.trans (issueAcc_open s _ _ _ ho)).trans ?_,
    (onlyMe_modMe ..).trans ((onlyMe_modMe ..).trans (onlyMe_modMe ..)), ?_⟩
  · simp only [hv, Bool.and_eq_true, Bool.not_eq_true', Bool.or_eq_true, decide_eq_true_eq, hno, if_false]
  · unfold State.pendOn State.finish
    simp only [me_modMe]
    rfl

/-! ## PREF, CWB and CINV (R66, R243, R244) -/

/-- What PREF brings in: a line of a present, cacheable, readable page, where the cluster has a cache. -/
def State.Fetches (s : State) (w : Nat) (x : Xl) (e : TlbEntry) : Prop :=
  placeOf w = .translated ∧ (∃ pte at_ shift, s.walk (s.vfOf s.cur) s.me.asid w = .leaf pte at_ shift ∧
    x = leafXl pte shift w ∧ leafAllows pte accLoad s.me.privileged = true ∧
    e = { vf := s.vfOf s.cur, asid := s.me.asid, page := w / 2 ^ shift, shift := shift, pte := pte, dset := bitsOf pte 7 7 == 1 }) ∧
    x.cached = true ∧ 0 < cacheLines (s.cluster (clusterOf s.myCore)).split

theorem pref_fetches {s : State} {i : Instr} {o : Op} {a : R6} {disp : W64} {x : Xl} {e : TlbEntry} (hi : exec i s = prefOp o a disp s)
    (ho : s.Clear [a] []) (h : s.Fetches (s.rd a + disp).toNat x e) :
    exec i s = .next ((((s.noteSeen (clusterOf s.myCore) e).fillLine (clusterOf s.myCore) x.key).1).finish o) := by
  obtain ⟨hp, ⟨pte, at_, shift, hw, rfl, hl, rfl⟩, hx, hc⟩ := h
  refine (hi.trans (issue_clear s _ _ _ ho)).trans ?_
  simp only [hp, hw, hx, hl, State.hasCache, hc, decide_true, Bool.and_self, if_true]

theorem pref_misses {s : State} {i : Instr} {o : Op} {a : R6} {disp : W64} (hi : exec i s = prefOp o a disp s)
    (ho : s.Clear [a] []) (h : ¬ ∃ x e, s.Fetches (s.rd a + disp).toNat x e) : exec i s = .next (s.finish o) := by
  refine (hi.trans (issue_clear s _ _ _ ho)).trans ?_
  simp only
  split
  next pte at_ shift hp hw =>
    rw [if_neg]
    intro hx
    simp only [Bool.and_eq_true, State.hasCache, decide_eq_true_eq] at hx
    obtain ⟨⟨hc, hl⟩, hz⟩ := hx
    exact h ⟨_, _, hp, ⟨pte, at_, shift, hw, rfl, hl, rfl⟩, hc, hz⟩
  next => rfl

theorem cache_cases {s : State} {i : Instr} {o : Op} {inval : Bool} {a b : R6} {disp : W64} (hi : exec i s = cacheOp o inval a b disp s)
    (ho : s.Open [a, b] []) :
    if 0x4000000 < (s.rd b).toNat then exec i s = .next (s.trap 0x05 (s.rd a + disp))
    else if ∃ g ∈ s.flights, g.ctx = s.cur ∧ g.cached = true ∧ g.performed = false then ∃ t, exec i s = .next t ∧ Waits s t .merged
    else ∃ t, exec i s = .next t ∧
      Passes (s.writeBack (clusterOf s.myCore) (meetsAny (s.keysOf (s.vfOf s.cur) s.me.asid (s.rd a + disp).toNat (max 1 (s.rd b).toNat))) inval)
        t o.len o.st := by
  have hb := hi.trans (issueAcc_open s _ _ _ ho)
  split
  next h => exact hb.trans (congrArg Host.Outcome.next (if_pos h))
  next h =>
    split
    next hg => exact ⟨_, hb.trans (congrArg Host.Outcome.next ((if_neg h).trans (if_pos ((unmerged_iff s s.cur).2 hg)))), waits_hold s .merged⟩
    next hg => exact ⟨_, hb.trans (congrArg Host.Outcome.next ((if_neg h).trans (if_neg (mt (unmerged_iff s s.cur).1 hg)))), goes_finish _ o⟩

end Sys2Proof.Machine
end

section
namespace Sys2Proof.Machine

/-- REL with the address `w` is sent, with its fields and what its write-back leaves of memory. -/
def RelSends (s u : State) (i : Instr) (d : R6) (w : W64) (sc : Nat) (x : Xl) (len : Nat) (st : St) : Prop :=
  ∃ t f, exec i s = .next t ∧
    Sends s (if 2 ≤ sc then u.writeBack (clusterOf s.myCore) (meetsAny (u.boundTo s.cur w)) false else u) t f len st true false ∧
    f.op = .rel ∧ f.va = w ∧ f.key = x.key ∧ f.size = 8 ∧ f.x = s.rd d ∧ f.scope = sc ∧ f.counted = true ∧ f.remote = x.remote ∧
    (sc < 2 → t.mem = u.mem) ∧
    (memWf u.mem = true → ∀ k, (∀ l ∈ (u.cluster (clusterOf s.myCore)).lines, meetsAny (u.boundTo s.cur w) l = true →
      k < l.key ∨ l.key + 64 ≤ k ∨ l.dirty.toNat / 2 ^ (k - l.key) % 2 = 0) → memGet t.mem k = memGet u.mem k)

theorem relSends_of {s u : State} {i : Instr} {o : Op} {d a : R6} {disp : W64} {sc : Nat} {x : Xl} {al : Bool}
    (hi : exec i s = relOp o d a disp sc s) (ho : s.Open [a, d] [])
    (hc : s.checkAccess s.cur (s.rd a + disp).toNat 8 accTag true = .ok u x al) (hoff : ¬ u.CacheOff x true)
    (hg : 2 ≤ sc → ∀ g ∈ u.flights, g.ctx = u.cur → g.cached = true → g.performed = true) :
    RelSends s u i d (s.rd a + disp) sc x o.len o.st := by
  have keeps := checkAccess_keeps s s.cur (s.rd a + disp).toNat 8 accTag true
  rw [hc] at keeps
  obtain ⟨t, ht, hs⟩ := rel_sends hi ho hc hoff hg
  have hk := onlyTables_releaseLines keeps (s.rd a + disp) sc
  have hm : t.mem = (u.releaseLines s (s.rd a + disp) sc).mem := by
    have h := congrArg State.mem hs.frame
    exact h
  refine ⟨t, _, ht, hs, rfl, rfl, rfl, rfl, hk.rd d, rfl, rfl, rfl, fun hsc => ?_, fun hwf k hl => ?_⟩
  · rw [hm, State.releaseLines, if_neg (by omega)]
  · rw [hm, State.releaseLines]
    split
    · exact writeBack_clear hwf hl
    · rfl

/-- REL: the traps of its checks, the wait behind the context's own cached accesses, and else the access. -/
theorem rel_cases {s : State} {i : Instr} {o : Op} {d a : R6} {disp : W64} {sc : Nat} (hi : exec i s = relOp o d a disp sc s)
    (ho : s.Open [a, d] []) :
    (∀ c v, s.checkAccess s.cur (s.rd a + disp).toNat 8 accTag true = .trap c v → exec i s = .next (s.trap c v)) ∧
    (∀ u g, s.checkAccess s.cur (s.rd a + disp).toNat 8 accTag true = .page u g →
      exec i s = .next (u.takeTrap u.cur g.cause g.va u.me.pc (some g))) ∧
    (∀ u x al, s.checkAccess s.cur (s.rd a + disp).toNat 8 accTag true = .ok u x al → OnlyTables s u ∧ s.Marks u (s.rd a + disp).toNat accTag ∧
      (u.CacheOff x true → exec i s = .next (u.trap 0x05 (s.rd a + disp))) ∧
      (¬ u.CacheOff x true → 2 ≤ sc → (∃ g ∈ u.flights, g.ctx = u.cur ∧ g.cached = true ∧ g.performed = false) →
        ∃ t, exec i s = .next t ∧ Waits u t .merged) ∧
      (¬ u.CacheOff x true → (2 ≤ sc → ∀ g ∈ u.flights, g.ctx = u.cur → g.cached = true → g.performed = true) →
        RelSends s u i d (s.rd a + disp) sc x o.len o.st)) := by
  refine ⟨fun c v => rel_trap hi ho, fun u g => rel_page hi ho, fun u x al hc => ⟨?_, checkAccess_memory hc, rel_cacheOff hi ho hc,
    rel_unmerged hi ho hc, relSends_of hi ho hc⟩⟩
  have keeps := checkAccess_keeps s s.cur (s.rd a + disp).toNat 8 accTag true
  rw [hc] at keeps
  exact keeps

theorem barrier_cases {s : State} {i : Instr} {o : Op} {d a : R6} {isC : Bool} {v : Nat} (hi : exec i s = barrierOp o isC d a s)
    (ho : s.Open [a] [d]) (hv : (if isC then (s.rd a).toNat % 256 else (s.rd a).toNat % 16) = v) :
    (isC = false ∧ (v < 1 ∨ 11 < v) → exec i s = .next (s.trap 0x01 (s.word0.setWidth 64))) ∧
    (isC = true ∨ 1 ≤ v ∧ v ≤ 11 → ∃ t, exec i s = .next t ∧ Pends s t d (.arrive isC v s.nextId) o.len o.st) :=
  ⟨barrier_trap hi ho hv, barrier_pends hi ho hv⟩

theorem pref_cases {s : State} {i : Instr} {o : Op} {a : R6} {disp : W64} (hi : exec i s = prefOp o a disp s) (ho : s.Clear [a] []) :
    (∀ x e, s.Fetches (s.rd a + disp).toNat x e → ∃ t, exec i s = .next t ∧
      Passes (((s.noteSeen (clusterOf s.myCore) e).fillLine (clusterOf s.myCore) x.key).1) t o.len o.st) ∧
    ((¬ ∃ x e, s.Fetches (s.rd a + disp).toNat x e) → ∃ t, exec i s = .next t ∧ Passes s t o.len o.st) :=
  ⟨fun _ _ h => ⟨_, pref_fetches hi ho h, goes_finish _ o⟩, fun h => ⟨_, pref_misses hi ho h, goes_finish s o⟩⟩

end Sys2Proof.Machine

open Sys2Proof Sys2Proof.Machine

/-- Settles O24. ACQ and REL are an access with its fields, which `sends_of` puts in flight; each other instruction is an equation per way it goes. -/
theorem barriersAndCache : Obligations.BarriersAndCache := by
  unfold Obligations.BarriersAndCache
  intro s d a b sc imm st
  refine ⟨fun ho p hp => ?_, fun ho p hp => ?_, fun ho p hp => ?_, fun ctx p isC v after hp h => advancePend_arrive_waits hp h,
    fun ctx p isC v after hp h => advancePend_arrive_joins hp h, fun isC core ctx v => arriveAt_eq s isC core ctx v, fun ho p hp => ?_,
    fun cl key hwf _ => ⟨fillLine_present, fillLine_line hwf⟩, fun ho p hp => ?_⟩
  · simp only [List.mem_cons, List.not_mem_nil, or_false] at hp
    rcases hp with rfl | rfl
    · exact accesses_acqOp (disp := 0) (sc := 0) (o := ⟨4, st⟩) rfl ho
    · exact accesses_acqOp (disp := imm.signExtend 64) (sc := sc.toNat) (o := ⟨12, st⟩) rfl ho
  · simp only [List.mem_cons, List.not_mem_nil, or_false] at hp
    rcases hp with rfl | rfl
    · exact rel_cases (disp := 0) (sc := 0) (o := ⟨4, st⟩) rfl ho
    · exact rel_cases (disp := imm.signExtend 64) (sc := sc.toNat) (o := ⟨12, st⟩) rfl ho
  · simp only [List.mem_cons, List.not_mem_nil, or_false] at hp
    rcases hp with rfl | rfl | rfl | rfl
    · exact barrier_cases (isC := true) (o := ⟨4, st⟩) rfl ho rfl
    · exact barrier_cases (isC := true) (o := ⟨12, st⟩) rfl ho rfl
    · exact barrier_cases (isC := false) (o := ⟨4, st⟩) rfl ho rfl
    · exact barrier_cases (isC := false) (o := ⟨12, st⟩) rfl ho rfl
  · simp only [List.mem_cons, List.not_mem_nil, or_false] at hp
    rcases hp with rfl | rfl
    · exact pref_cases (disp := 0) (o := ⟨4, st⟩) rfl ho
    · exact pref_cases (disp := imm.signExtend 64) (o := ⟨12, st⟩) rfl ho
  · simp only [List.mem_cons, List.not_mem_nil, or_false] at hp
    rcases hp with rfl | rfl | rfl | rfl
    · exact cache_cases (inval := false) (disp := 0) (o := ⟨4, st⟩) rfl ho
    · exact cache_cases (inval := false) (disp := imm.signExtend 64) (o := ⟨12, st⟩) rfl ho
    · exact cache_cases (inval := true) (disp := 0) (o := ⟨4, st⟩) rfl ho
    · exact cache_cases (inval := true) (disp := imm.signExtend 64) (o := ⟨12, st⟩) rfl ho
end

section
/-! O19 (R73, R77, R87, R88, R112, R224, R412). The events of an access in flight. -/

namespace Sys2Proof.Machine

/-- The access leaves through a port whose reply cache is off, and is one that the reply cache answers (R412). -/
theorem crossesOff_eq (s : State) (f : Flight) : s.crossesOff f = (f.remote && (f.op.isTagged f.sync || f.op matches .atomic _) &&
    (match s.routeTo (keyDev f.key) with | some p => s.regBits (towBase p + 0x108) 0 0 == 0 | none => false)) := rfl

/-- An access that arrives traps, is performed or waits, and no notice stays that its end makes needless. -/
def State.arrived (s : State) (f : Flight) : State := (s.arrive f).withdrawNotices

theorem exec_homeAccess_arrives {s : State} {id : Nat} {f : Flight} (hf : s.flight? id = some f) (ha : s.mayArrive f = true) (hr : f.refused = 0) :
    exec (.homeAccess id) s = .next (s.arrived f) := by
  show execHomeAccess id s = _
  simp only [execHomeAccess, hf, hr, ha, and_self, if_true, State.arrived]

theorem exec_backoffReissue_arrives {s : State} {id : Nat} {f : Flight} (hf : s.flight? id = some f) (ha : s.mayArrive f = true)
    (hr : f.refused ≠ 0) : exec (.backoffReissue id) s = .next (s.arrived f) := by
  show execBackoffReissue id s = _
  simp only [execBackoffReissue, hf, Nat.pos_of_ne_zero hr, ha, and_self, if_true, State.arrived]

theorem exec_storeAck_removes {s : State} {id : Nat} {f : Flight} (hf : s.flight? id = some f) (hp : f.performed = true) :
    exec (.storeAck id) s = .next (s.dropFlight id).withdrawNotices := by
  show execStoreAck id s = _
  simp only [execStoreAck, hf, hp, if_true]

theorem exec_tagWaitTimeout_ends {s : State} {id : Nat} {f : Flight} (hf : s.flight? id = some f) (ha : f.abandoned = true)
    (hk : (s.ctx f.ctx).k 8 ≠ 0) (hl : f.since + ((s.ctx f.ctx).k 8).toNat ≤ s.cycle) :
    exec (.tagWaitTimeout id) s = .next (((s.dropFlight id).dropStall f.ctx f.until_).takeTrap f.ctx 0x11 f.va f.pc none) := by
  have hn : ((s.ctx f.ctx).k 8).toNat ≠ 0 := fun h => hk (BitVec.eq_of_toNat_eq h)
  show execTagWaitTimeout id s = _
  simp only [execTagWaitTimeout, hf, ha, hl, ne_eq, hn, not_false_eq_true, and_self, if_true]

theorem ctx_dropStall (s : State) (c n : Nat) : (s.dropStall c n).ctx c =
    { s.ctx c with nextIssue := if (s.ctx c).nextIssue = n then min n (s.cycle + 1) else (s.ctx c).nextIssue } := by
  unfold State.dropStall
  rw [ctx_modCtx, if_pos rfl]

theorem exec_event_gone {s : State} {id : Nat} (hf : s.flight? id = none) {i : Instr}
    (hi : i ∈ [Instr.homeAccess id, .backoffReissue id, .storeAck id, .tagWaitTimeout id]) : exec i s = .next s := by
  simp only [List.mem_cons, List.not_mem_nil, or_false] at hi
  rcases hi with rfl | rfl | rfl | rfl
  · show execHomeAccess id s = _
    simp only [execHomeAccess, hf]
  · show execBackoffReissue id s = _
    simp only [execBackoffReissue, hf]
  · show execStoreAck id s = _
    simp only [execStoreAck, hf]
  · show execTagWaitTimeout id s = _
    simp only [execTagWaitTimeout, hf]

end Sys2Proof.Machine

open Sys2Proof Sys2Proof.Machine

/-- Settles O19: each event is its equation where its precondition holds. -/
theorem accessEvents : Obligations.AccessEvents := by
  unfold Obligations.AccessEvents
  intro s id
  refine ⟨fun f hf ha => ⟨fun hr => ?_, fun hr => ?_⟩, fun f hf hp => exec_storeAck_removes hf hp,
    fun f hf ha hk hl => exec_tagWaitTimeout_ends hf ha hk hl, fun c n => ?_, fun hf i hi => exec_event_gone hf hi, rfl⟩
  · refine (exec_homeAccess_arrives hf ha hr).trans (congrArg Host.Outcome.next ?_)
    rw [State.arrived, State.arrive, apply_ite State.withdrawNotices, apply_ite State.withdrawNotices]
    rfl
  · refine (exec_backoffReissue_arrives hf ha hr).trans (congrArg Host.Outcome.next ?_)
    rw [State.arrived, State.arrive, apply_ite State.withdrawNotices, apply_ite State.withdrawNotices]
    rfl
  · simp only [ctx_dropStall, and_self]
end

section
/-! O35 (R324): an MCST with release order. -/

namespace Sys2Proof.Machine

/-- After the reset, group 0 is enabled as a sluice of this module whose region is the 64 bytes at address 0, and five accesses have been sent. -/
def sluiceState : State :=
  { (State.reset.setReg (sluiceBase 0) 3).setReg (sluiceBase 0 + 0x10) 64 with nextId := 5 }

theorem sluiceState_open : sluiceState.Open [0, 0, 0] [0] := by decide

/-- The store is handed over, and the release mark of its context becomes the number of the store. -/
theorem relMark_releasing_mcstX : ∀ t, exec (.mcstX 0 0 0 0 2 0 0) sluiceState = .next t → t.me.relMark = 5 := by
  intro t ht
  cases ht
  rfl

end Sys2Proof.Machine

open Sys2Proof Sys2Proof.Machine

/-- Refutes O35: an MCST with release order sets the release mark of its context, which the statement leaves as it was. -/
theorem not_refwaitAndSluices : ¬ Obligations.RefwaitAndSluices := by
  unfold Obligations.RefwaitAndSluices
  intro h
  obtain ⟨-, hm, -⟩ := h sluiceState 0 0 0 0 0 0 2 0 0
  obtain ⟨-, -, -, hs⟩ := hm _ (List.mem_cons_of_mem _ List.mem_cons_self) sluiceState_open
  obtain ⟨t, ht, -, -, -, -, -, hme⟩ := hs (by decide) (by decide) (by decide) (by decide)
  have hr : t.me.relMark = sluiceState.me.relMark := by
    have := congrArg Ctx.relMark hme
    exact this
  have h5 := relMark_releasing_mcstX t ht
  rw [hr] at h5
  exact absurd h5 (by decide)
end

section
/-! O40 (R66, R70, R106, R111, R112, R206, R242, R379, R393). Waits that expire, evictions, sweeps, windows, the time domain and refresh. -/

namespace Sys2Proof.Machine

/-! ## Waits that expire (R112, R206, R242) -/

theorem barrierWaitTimeout_unlimited {s : State} {core slot : Nat} (h : ((s.ctx (ctxId core slot)).k 8).toNat = 0) :
    exec (.barrierWaitTimeout core slot) s = .next s := by
  show execBarrierWaitTimeout core slot s = _
  simp only [execBarrierWaitTimeout, h, if_true]

theorem barrierWaitTimeout_arrival {s : State} {core slot : Nat} {p : Pend} (h : ((s.ctx (ctxId core slot)).k 8).toNat ≠ 0)
    (hp : s.lateArrival (s.ctx (ctxId core slot)) ((s.ctx (ctxId core slot)).k 8).toNat = some p) :
    exec (.barrierWaitTimeout core slot) s = .next ((s.withdraw (ctxId core slot)).trapPend (ctxId core slot) 0x11 0 (· == p)) := by
  show execBarrierWaitTimeout core slot s = _
  simp only [execBarrierWaitTimeout, h, if_false, hp]

theorem barrierWaitTimeout_mmag {s : State} {core slot : Nat} (h : ((s.ctx (ctxId core slot)).k 8).toNat ≠ 0)
    (hp : s.lateArrival (s.ctx (ctxId core slot)) ((s.ctx (ctxId core slot)).k 8).toNat = none) :
    exec (.barrierWaitTimeout core slot) s = if s.lateAtMmag (ctxId core slot) ((s.ctx (ctxId core slot)).k 8).toNat then
      .next ((s.withdraw (ctxId core slot)).takeTrap (ctxId core slot) 0x11 0 (s.ctx (ctxId core slot)).pc none) else .next s := by
  show execBarrierWaitTimeout core slot s = _
  simp only [execBarrierWaitTimeout, h, if_false, hp]

theorem lateAtMmag_iff (s : State) (id n : Nat) : s.lateAtMmag id n = true ↔
    (s.ctx id).wait = some .barrier ∧ (s.ctx id).waitFrom + n ≤ s.cycle ∧ s.released id = false := by
  simp [State.lateAtMmag, and_assoc]

/-- An event that does what it does under its precondition, and nothing else. -/
theorem happens_ite {s t : State} {i : Instr} {cond : Prop} [Decidable cond] (h : exec i s = if cond then .next t else .next s) :
    Happens s i cond t :=
  ⟨fun hc => h.trans (if_pos hc), fun hc => h.trans (if_neg hc)⟩

theorem joinLimitExpire_join {s : State} {core slot n t : Nat} (h : (s.ctx (ctxId core slot)).wait = some (.join n (some t))) :
    Happens s (.joinLimitExpire core slot) (t ≤ s.cycle) (s.modCtx (ctxId core slot) fun c => { c with wait := some (.join n (some 0)) }) := by
  refine happens_ite ?_
  show execJoinLimitExpire core slot s = _
  simp only [execJoinLimitExpire, h]

theorem joinLimitExpire_joinAny {s : State} {core slot t : Nat} (h : (s.ctx (ctxId core slot)).wait = some (.joinAny (some t))) :
    Happens s (.joinLimitExpire core slot) (t ≤ s.cycle) (s.modCtx (ctxId core slot) fun c => { c with wait := some (.joinAny (some 0)) }) := by
  refine happens_ite ?_
  show execJoinLimitExpire core slot s = _
  simp only [execJoinLimitExpire, h]

theorem joinLimitExpire_none {s : State} {core slot : Nat} (h : (s.ctx (ctxId core slot)).wait = none) :
    exec (.joinLimitExpire core slot) s = .next s := by
  show execJoinLimitExpire core slot s = _
  simp only [execJoinLimitExpire, h]

/-! ## Evictions (R66) -/

/-- Where no line of the cluster has the key, an eviction finds nothing to do. -/
theorem exec_cacheEviction_eq (s : State) (cl line : Nat) : exec (.cacheEviction cl line) s =
    if (s.cluster cl).lines.any (·.key == line) then .next (s.writeBack cl (·.key == line) true) else .next s := rfl

theorem lines_writeBack_drop (s : State) (cl : Nat) (p : Line → Bool) :
    ((s.writeBack cl p true).cluster cl).lines = (s.cluster cl).lines.filter fun l => !(p l) := by
  unfold State.writeBack
  dsimp only
  rw [cluster_modCluster, if_pos rfl]
  rfl

theorem cluster_writeBack_other (s : State) (cl k : Nat) (p : Line → Bool) (inval : Bool) (h : k ≠ cl) :
    (s.writeBack cl p inval).cluster k = s.cluster k := by
  obtain ⟨m, c, hw⟩ := writeBack_frame s cl p inval
  rw [hw]
  exact get_put_other _ _ _ _ _ h

theorem memGet_writeBack_one {s : State} {cl : Nat} {p : Line → Bool} {inval : Bool} {l : Line} (h : memWf s.mem = true)
    (hl : (s.cluster cl).lines.filter p = [l]) (k : Nat) : memGet (s.writeBack cl p inval).mem k =
      if l.key ≤ k ∧ k < l.key + 64 ∧ l.dirty.getLsbD (k - l.key) = true then l.data.extractLsb' (8 * (k - l.key)) 8 else memGet s.mem k := by
  have hf : ((s.cluster cl).lines.filter fun l => p l && l.dirty != 0) = if l.dirty = 0 then [] else [l] := by
    rw [show (fun l : Line => p l && l.dirty != 0) = fun l => (l.dirty != 0) && p l from funext fun l => Bool.and_comm .., ← List.filter_filter, hl]
    by_cases hd : l.dirty = 0
    · simp [hd]
    · rw [if_neg hd, List.filter_cons_of_pos (by simpa using hd), List.filter_nil]
  rw [← memGet_leaves s l h k]
  show memGet (((s.cluster cl).lines.filter fun l => p l && l.dirty != 0).foldl State.flushLine s).mem k = _
  rw [hf]
  split <;> rfl

theorem cacheEviction_cases (s : State) (cl line : Nat) :
    ∃ t, exec (.cacheEviction cl line) s = .next t ∧ (t.cluster cl).lines = (s.cluster cl).lines.filter (·.key ≠ line) ∧
      (∀ k, k ≠ cl → t.cluster k = s.cluster k) ∧ { t with clusters := s.clusters, mem := s.mem } = s ∧
      (memWf s.mem = true → (∀ k, k < line ∨ line + 64 ≤ k → memGet t.mem k = memGet s.mem k) ∧
        ∀ l, (s.cluster cl).lines.filter (·.key = line) = [l] → ∀ b < 64,
          memGet t.mem (line + b) = if l.dirty.getLsbD b then l.data.extractLsb' (8 * b) 8 else memGet s.mem (line + b)) := by
  by_cases ha : (s.cluster cl).lines.any (·.key == line) = true
  · refine ⟨s.writeBack cl (·.key == line) true, (exec_cacheEviction_eq s cl line).trans (if_pos ha), ?_,
      fun k hk => cluster_writeBack_other s cl k _ true hk, ?_, fun h => ⟨fun k hk => writeBack_clear h fun l hl hp => ?_, fun l hl b hb => ?_⟩⟩
    · rw [lines_writeBack_drop]
      refine List.filter_congr fun l _ => ?_
      rw [Bool.eq_iff_iff]
      simp
    · obtain ⟨m, c, hw⟩ := writeBack_frame s cl (·.key == line) true
      rw [hw]
    · rw [beq_iff_eq] at hp
      omega
    · have hm : l ∈ (s.cluster cl).lines.filter (·.key = line) := hl ▸ List.mem_singleton_self l
      have hk : l.key = line := by simpa using (List.mem_filter.1 hm).2
      rw [memGet_writeBack_one h (p := (·.key == line)) hl]
      simp [hk, hb]
  · refine ⟨s, (exec_cacheEviction_eq s cl line).trans (if_neg ha), ?_, fun _ _ => rfl, rfl, fun _ => ⟨fun _ _ => rfl, fun l hl => ?_⟩⟩
    · refine (List.filter_eq_self.2 fun l hl => ?_).symm
      have := fun h => ha (List.any_eq_true.2 ⟨l, hl, h⟩)
      simpa using this
    · have hm : l ∈ (s.cluster cl).lines.filter (·.key = line) := hl ▸ List.mem_singleton_self l
      obtain ⟨hl', hk⟩ := List.mem_filter.1 hm
      exact absurd (List.any_eq_true.2 ⟨l, hl', by simpa using hk⟩) ha

/-! ## Sweeps (R379, R393) -/

theorem get_puts (l : List Nat) (m : Map Nat) (v k : Nat) :
    Map.get (l.foldl (fun m n => m.put n v) m) k 0 = if k ∈ l then v else Map.get m k 0 := by
  induction l generalizing m with
  | nil => simp
  | cons n l ih =>
    rw [List.foldl_cons, ih, get_put]
    by_cases hl : k ∈ l
    · simp [hl]
    · simp [hl]

/-- The virtual functions and phases that a sweep notes. -/
def State.quiet (s : State) : List Nat := (List.range 64).filter fun n => !(s.traffic.contains (n / 2, n % 2)) && !(s.activity.contains n)

theorem mem_quiet (s : State) (vf ph : Nat) (hv : vf < 32) (hp : ph < 2) :
    vf * 2 + ph ∈ s.quiet ↔ (vf, ph) ∉ s.traffic ∧ vf * 2 + ph ∉ s.activity := by
  rw [State.quiet, List.mem_filter, show (vf * 2 + ph) / 2 = vf by omega, show (vf * 2 + ph) % 2 = ph by omega]
  simp [show vf * 2 + ph < 64 by omega]

theorem quietSweep_cases (s : State) : ∃ t, exec .quietSweep s = .next t ∧ t.sweeps = s.sweeps + 1 ∧ t.sweepAt = s.ptp ∧ t.activity = [] ∧
    { t with sweeps := s.sweeps, sweepAt := s.sweepAt, activity := s.activity, quietRep := s.quietRep, quietAt := s.quietAt } = s ∧
    (∀ vf ph, vf < 32 → ph < 2 → (vf * 2 + ph ∈ t.quietRep ↔ (vf, ph) ∉ s.traffic ∧ vf * 2 + ph ∉ s.activity) ∧
      (t.quietAt.get (vf * 2 + ph) 0 = if (vf, ph) ∉ s.traffic ∧ vf * 2 + ph ∉ s.activity then s.sweeps + 1 else s.quietAt.get (vf * 2 + ph) 0)) := by
  refine ⟨{ s with quietRep := s.quiet, quietAt := s.quiet.foldl (fun m n => m.put n (s.sweeps + 1)) s.quietAt, activity := [],
                   sweeps := s.sweeps + 1, sweepAt := s.ptp }, rfl, rfl, rfl, rfl, rfl, fun vf ph hv hp => ⟨mem_quiet s vf ph hv hp, ?_⟩⟩
  dsimp only
  rw [get_puts]
  simp only [mem_quiet s vf ph hv hp]

/-! ## Windows, notices, the time domain and refresh (R70, R106, R111) -/

theorem stretchNotice_happens (s : State) (win : Nat) : Happens s (.stretchNotice win)
    ((win + 1) * s.winLen + s.winLen / 2 ≤ s.ptp ∧ s.windowCount win ≠ 0 ∧ (s.device, win) ∉ s.notices)
    { s with notices := s.notices ++ [(s.device, win)] } := by
  refine happens_ite ?_
  show execStretchNotice win s = _
  simp only [execStretchNotice, List.contains_eq_mem, decide_eq_false_iff_not]

theorem stretchNoticeArrive_own {s : State} {dev win : Nat} (h : dev = s.device ∨ 1024 ≤ dev) (w : Nat) :
    exec (.stretchNoticeArrive dev win w) s = .next s := if_pos h

theorem stretchNoticeArrive_sent {s : State} {dev win : Nat} (h : ¬ (dev = s.device ∨ 1024 ≤ dev)) :
    Happens s (.stretchNoticeArrive dev win 0) ((dev, win) ∉ s.notices) { s with notices := s.notices ++ [(dev, win)] } := by
  have he : exec (.stretchNoticeArrive dev win 0) s =
      .next (if s.notices.contains (dev, win) then s else { s with notices := s.notices ++ [(dev, win)] }) := if_neg h
  constructor
  · intro hn
    rw [he, if_neg (by simpa using hn)]
  · intro hn
    rw [he, if_pos (by simpa using hn)]

theorem stretchNoticeArrive_withdrawn {s : State} {dev win w : Nat} (h : ¬ (dev = s.device ∨ 1024 ≤ dev)) (hw : w ≠ 0) :
    exec (.stretchNoticeArrive dev win w) s = .next { s with notices := s.notices.filter (· ≠ (dev, win)) } :=
  (if_neg h).trans (if_neg hw)

theorem inLimits_iff (s : State) : s.inLimits = true ↔ 16 * s.offset < s.winLen ∧ 4 * s.latency < s.winLen := by
  simp [State.inLimits]

theorem timeDomainLeave_happens (s : State) :
    Happens s .timeDomainLeave (¬ (16 * s.offset < s.winLen ∧ 4 * s.latency < s.winLen)) { s with inDomain := false } :=
  ⟨fun h => if_neg (mt (inLimits_iff s).1 h), fun h => if_pos ((inLimits_iff s).2 (not_not.1 h))⟩

theorem timeDomainRejoin_happens (s : State) :
    Happens s .timeDomainRejoin (16 * s.offset < s.winLen ∧ 4 * s.latency < s.winLen) { s with inDomain := true } :=
  ⟨fun h => if_pos ((inLimits_iff s).2 h), fun h => if_neg (mt (inLimits_iff s).1 h)⟩

end Sys2Proof.Machine

open Sys2Proof Sys2Proof.Machine

/-- Settles O40: each event by its precondition; an eviction through what a write-back of one line leaves of memory. -/
theorem waitsAndTime : Obligations.WaitsAndTime := by
  unfold Obligations.WaitsAndTime
  refine ⟨fun s core slot cluster line => ⟨⟨barrierWaitTimeout_unlimited, fun p => barrierWaitTimeout_arrival, fun hl hn => ?_⟩,
    fun n t => joinLimitExpire_join, fun t => joinLimitExpire_joinAny, joinLimitExpire_none, cacheEviction_cases s cluster line, quietSweep_cases s⟩,
    fun s win dev die => ⟨happens_ite rfl, stretchNotice_happens s win, fun h => stretchNoticeArrive_own (.inl h), fun h => stretchNoticeArrive_own (.inr h),
      fun h1 h2 => stretchNoticeArrive_sent (by omega), fun h1 h2 w => stretchNoticeArrive_withdrawn (by omega), timeDomainLeave_happens s,
      timeDomainRejoin_happens s, happens_ite rfl⟩⟩
  have he := (barrierWaitTimeout_mmag hl hn).trans (ite_congr (propext (lateAtMmag_iff s _ _)) (fun _ => rfl) fun _ => rfl)
  exact happens_ite he
end

section
/-! O41 (R64, R65, R66, R401, R402, R411). Weight-store modes, splits, shoot-downs and power gating. -/

namespace Sys2Proof.Machine

/-! ## Maps -/

theorem mem_of_find? {α : Type} {m : Map α} {k : Nat} {v : α} (h : Map.find? m k = some v) : (k, v) ∈ m := by
  induction m with
  | nil => cases h
  | cons p m ih =>
    obtain ⟨j, w⟩ := p
    unfold Map.find? at h
    split at h
    next hj =>
      cases h
      subst hj
      exact List.mem_cons_self
    next => exact List.mem_cons_of_mem _ (ih h)

theorem get_absent {α : Type} {m : Map α} {k : Nat} {d : α} (h : k ∉ m.map (·.1)) : Map.get m k d = d := by
  unfold Map.get
  cases hf : Map.find? m k with
  | none => rfl
  | some v => exact absurd (List.mem_map_of_mem (mem_of_find? hf)) h

theorem get_mapVals {α β : Type} (g : α → β) (m : Map α) (k : Nat) (d : α) :
    Map.get (m.map fun (p : Nat × α) => (p.1, g p.2)) k (g d) = g (Map.get m k d) := by
  unfold Map.get
  rw [find?_mapVals]
  cases Map.find? m k <;> rfl

/-! ## What write-backs leave of memory (R66) -/

/-- A line holds a dirty byte for an address. -/
def Line.DirtyAt (l : Line) (a : Nat) : Prop := l.key ≤ a ∧ a < l.key + 64 ∧ l.dirty.getLsbD (a - l.key) = true

/-- The byte of a line for an address. -/
def Line.byteAt (l : Line) (a : Nat) : Byte := l.data.extractLsb' (8 * (a - l.key)) 8

/-- From memory `m` to memory `m'`, address `a` has received the dirty byte of one of the lines of `P`, or stayed where none has one. -/
def WrittenBack (P : Line → Prop) (m m' : List Host.Cell) (a : Nat) : Prop :=
  ((∀ l, P l → ¬ l.DirtyAt a) → memGet m' a = memGet m a) ∧
  ((∃ l, P l ∧ l.DirtyAt a) → ∃ l, P l ∧ l.DirtyAt a ∧ memGet m' a = l.byteAt a)

theorem WrittenBack.congr {P Q : Line → Prop} {m m' : List Host.Cell} {a : Nat} (h : WrittenBack P m m' a) (hPQ : ∀ l, l.DirtyAt a → (P l ↔ Q l)) :
    WrittenBack Q m m' a := by
  obtain ⟨hc, hd⟩ := h
  refine ⟨fun hq => hc fun l hl hla => hq l ((hPQ l hla).1 hl) hla, ?_⟩
  rintro ⟨l, hl, hla⟩
  obtain ⟨x, hx, hxa, hm⟩ := hd ⟨l, (hPQ l hla).2 hl, hla⟩
  exact ⟨x, (hPQ x hxa).1 hx, hxa, hm⟩

theorem WrittenBack.trans {P Q : Line → Prop} {m m' m'' : List Host.Cell} {a : Nat} (h : WrittenBack P m m' a) (g : WrittenBack Q m' m'' a) :
    WrittenBack (fun l => P l ∨ Q l) m m'' a := by
  obtain ⟨hc, hd⟩ := h
  obtain ⟨gc, gd⟩ := g
  refine ⟨fun hn => (gc fun l hl => hn l (.inr hl)).trans (hc fun l hl => hn l (.inl hl)), ?_⟩
  rintro ⟨l, hl, hla⟩
  by_cases hq : ∃ x, Q x ∧ x.DirtyAt a
  · obtain ⟨x, hx, hxa, hm⟩ := gd hq
    exact ⟨x, .inr hx, hxa, hm⟩
  · have hkeep := gc fun x hx hxa => hq ⟨x, hx, hxa⟩
    obtain ⟨x, hx, hxa, hm⟩ := hd ⟨l, hl.resolve_right fun hq' => hq ⟨l, hq', hla⟩, hla⟩
    exact ⟨x, .inl hx, hxa, hkeep.trans hm⟩

theorem writtenBack_refl (m : List Host.Cell) (a : Nat) : WrittenBack (fun _ => False) m m a :=
  ⟨fun _ => rfl, fun ⟨_, h, _⟩ => h.elim⟩

theorem writtenBack_flushLine (s : State) (l : Line) (h : memWf s.mem = true) (a : Nat) :
    WrittenBack (· = l) s.mem (s.flushLine l).mem a := by
  refine ⟨fun hn => (memGet_flushLine s l h a).trans (if_neg (hn l rfl)), ?_⟩
  rintro ⟨_, rfl, hla⟩
  exact ⟨_, rfl, hla, (memGet_flushLine s _ h a).trans (if_pos hla)⟩

theorem writtenBack_flushLines (ls : List Line) (s : State) (h : memWf s.mem = true) (a : Nat) :
    WrittenBack (· ∈ ls) s.mem (ls.foldl State.flushLine s).mem a := by
  induction ls generalizing s with
  | nil => exact (writtenBack_refl s.mem a).congr fun l _ => by simp
  | cons l ls ih =>
    refine ((writtenBack_flushLine s l h a).trans (ih (s.flushLine l) (memMerge_wf _ _ _ _ _ h))).congr fun x _ => ?_
    rw [List.mem_cons]

theorem Line.DirtyAt.ne_zero {l : Line} {a : Nat} (h : l.DirtyAt a) : l.dirty ≠ 0 := by
  intro hz
  obtain ⟨-, -, hd⟩ := h
  simp [hz] at hd

theorem writtenBack_writeBack (s : State) (cl : Nat) (p : Line → Bool) (inval : Bool) (h : memWf s.mem = true) (a : Nat) :
    WrittenBack (fun l => l ∈ (s.cluster cl).lines ∧ p l = true) s.mem (s.writeBack cl p inval).mem a := by
  refine (writtenBack_flushLines ((s.cluster cl).lines.filter fun l => p l && l.dirty != 0) s h a).congr fun l hl => ?_
  have hd : (l.dirty != 0) = true := bne_iff_ne.2 hl.ne_zero
  rw [List.mem_filter, hd, Bool.and_true]

/-- The write-backs of some clusters, which drop what they write back. -/
def State.drops (s : State) (p : Line → Bool) (cls : List Nat) : State := cls.foldl (fun s c => s.writeBack c p true) s

theorem drops_frame (p : Line → Bool) (cls : List Nat) (s : State) : ∃ m c, s.drops p cls = { s with mem := m, clusters := c } := by
  induction cls generalizing s with
  | nil => exact ⟨_, _, rfl⟩
  | cons c cls ih =>
    obtain ⟨m, k, h⟩ := writeBack_frame s c p true
    obtain ⟨m', k', h'⟩ := ih (s.writeBack c p true)
    refine ⟨m', k', h'.trans ?_⟩
    rw [h]

theorem cluster_writeBack_drop (s : State) (cl k : Nat) (p : Line → Bool) : (s.writeBack cl p true).cluster k =
    if k = cl then { s.cluster k with lines := (s.cluster k).lines.filter fun l => !(p l) } else s.cluster k := by
  split
  next h =>
    subst h
    unfold State.writeBack
    dsimp only
    rw [cluster_modCluster, if_pos rfl]
    obtain ⟨m, hm⟩ := flushLines_frame ((s.cluster k).lines.filter fun l => p l && l.dirty != 0) s
    rw [hm]
    rfl
  next h => exact cluster_writeBack_other s cl k p true h

theorem cluster_drops (p : Line → Bool) (cls : List Nat) (s : State) (k : Nat) : (s.drops p cls).cluster k =
    if k ∈ cls then { s.cluster k with lines := (s.cluster k).lines.filter fun l => !(p l) } else s.cluster k := by
  induction cls generalizing s with
  | nil => rfl
  | cons c cls ih =>
    refine (ih (s.writeBack c p true)).trans ?_
    rw [cluster_writeBack_drop]
    by_cases hk : k = c
    · simp [hk, List.filter_filter]
    · simp [hk]

theorem writtenBack_drops (p : Line → Bool) (cls : List Nat) (s : State) (h : memWf s.mem = true) (a : Nat) :
    WrittenBack (fun l => ∃ k ∈ cls, l ∈ (s.cluster k).lines ∧ p l = true) s.mem (s.drops p cls).mem a := by
  induction cls generalizing s with
  | nil => exact (writtenBack_refl s.mem a).congr fun l _ => by simp
  | cons c cls ih =>
    refine ((writtenBack_writeBack s c p true h a).trans (ih (s.writeBack c p true) (writeBack_wf s c p true h))).congr fun l _ => ?_
    simp only [cluster_writeBack_drop, List.mem_cons]
    constructor
    · rintro (hl | ⟨k, hk, hl, hp⟩)
      · exact ⟨c, .inl rfl, hl⟩
      · split at hl
        · exact ⟨k, .inr hk, (List.mem_filter.1 hl).1, hp⟩
        · exact ⟨k, .inr hk, hl, hp⟩
    · rintro ⟨k, rfl | hk, hl, hp⟩
      · exact .inl ⟨hl, hp⟩
      · by_cases hkc : k = c
        · subst hkc
          exact .inl ⟨hl, hp⟩
        · exact .inr ⟨k, hk, by rw [if_neg hkc]; exact hl, hp⟩

end Sys2Proof.Machine
end

section
namespace Sys2Proof.Machine

/-! ## Weight-store modes and splits (R64, R65, R411) -/

theorem splitChange_none {s : State} {cl : Nat} (h : (s.cluster cl).dsplit = none) : exec (.splitChange cl) s = .next s := by
  show execSplitChange cl s = _
  simp only [execSplitChange, h]

theorem splitChange_happens {s : State} {cl k : Nat} (h : (s.cluster cl).dsplit = some k) :
    Happens s (.splitChange cl) (s.itemsOn cl = false) ((s.setSplit cl k).modCluster cl fun c => { c with dsplit := none }) := by
  have he : exec (.splitChange cl) s =
      if s.itemsOn cl then .next s else .next ((s.setSplit cl k).modCluster cl fun c => { c with dsplit := none }) := by
    show execSplitChange cl s = _
    simp only [execSplitChange, h]
  refine ⟨fun hn => ?_, fun hn => ?_⟩
  · rw [he, hn]
    rfl
  · rw [he, if_pos (Bool.of_not_eq_false hn)]

theorem corePowerGating_happens (s : State) (core : Nat) : Happens s (.corePowerGating core)
    (core < 4096 ∧ ∀ p ∈ s.ctxs, p.1 % 4096 = core → p.2.life = .live → p.2.wait ≠ none)
    (s.modCore core fun c => { c with gated := true, itlb := [], dtlb := [] }) := by
  have hc : (4096 ≤ core ∨ (s.ctxs.any fun p => coreOf p.1 == core && p.2.life == .live && p.2.wait.isNone) = true) ↔
      ¬ (core < 4096 ∧ ∀ p ∈ s.ctxs, p.1 % 4096 = core → p.2.life = .live → p.2.wait ≠ none) := by
    simp only [List.any_eq_true, Bool.and_eq_true, beq_iff_eq, Option.isNone_iff_eq_none, coreOf, not_and, not_forall, not_not]
    constructor
    · rintro (h | ⟨p, hp, ⟨h1, h2⟩, h3⟩) hlt
      · omega
      · exact ⟨p, hp, h1, h2, h3⟩
    · intro h
      by_cases hlt : core < 4096
      · obtain ⟨p, hp, h1, h2, h3⟩ := h hlt
        exact .inr ⟨p, hp, ⟨h1, h2⟩, h3⟩
      · exact .inl (by omega)
  have he : exec (.corePowerGating core) s =
      if 4096 ≤ core ∨ (s.ctxs.any fun p => coreOf p.1 == core && p.2.life == .live && p.2.wait.isNone) = true then .next s
      else .next (s.modCore core fun c => { c with gated := true, itlb := [], dtlb := [] }) := rfl
  exact ⟨fun h => he.trans (if_neg (mt hc.1 (not_not.2 h))), fun h => he.trans (if_pos (hc.2 h))⟩

/-! ## Shoot-downs (R401, R402) -/

/-- In `t` the lines of the request's range have left the caches of `s`, their dirty bytes for memory. -/
def State.Back (s t : State) : Prop :=
  (∀ k, (t.cluster k).lines = (s.cluster k).lines.filter fun l => !(s.sdLine l)) ∧
  (memWf s.mem = true → ∀ a,
    ((∀ k, ∀ l ∈ (s.cluster k).lines, ¬ (s.sdLine l = true ∧ l.DirtyAt a)) → memGet t.mem a = memGet s.mem a) ∧
    ((∃ k, ∃ l ∈ (s.cluster k).lines, s.sdLine l = true ∧ l.DirtyAt a) →
      ∃ k, ∃ l ∈ (s.cluster k).lines, (s.sdLine l = true ∧ l.DirtyAt a) ∧ memGet t.mem a = l.byteAt a))

theorem sdWriteBack_eq (s t : State) : s.sdWriteBack t = t.drops s.sdLine (s.clusters.map (·.1)) := rfl

theorem cluster_sdWriteBack {s t : State} {k : Nat} (h : k ∉ s.clusters.map (·.1) → (t.cluster k).lines = []) :
    (s.sdWriteBack t).cluster k = { t.cluster k with lines := (t.cluster k).lines.filter fun l => !(s.sdLine l) } := by
  rw [sdWriteBack_eq, cluster_drops]
  split
  · rfl
  next hk =>
    generalize t.cluster k = c at h
    have hl := h hk
    obtain ⟨⟩ := c
    cases hl
    rfl

theorem cluster_absent {s : State} {k : Nat} (h : k ∉ s.clusters.map (·.1)) : s.cluster k = {} := get_absent h

theorem writtenBack_sdWriteBack {s t : State} (hm : t.mem = s.mem) (hl : ∀ k, (t.cluster k).lines = (s.cluster k).lines) (h : memWf s.mem = true) (a : Nat) :
    WrittenBack (fun l => ∃ k, l ∈ (s.cluster k).lines ∧ s.sdLine l = true) s.mem (s.sdWriteBack t).mem a := by
  have hw := writtenBack_drops s.sdLine (s.clusters.map (·.1)) t (by rw [hm]; exact h) a
  rw [hm] at hw
  refine hw.congr fun l _ => ?_
  simp only [hl]
  constructor
  · rintro ⟨k, -, hk⟩
    exact ⟨k, hk⟩
  · rintro ⟨k, hk, hp⟩
    by_cases hin : k ∈ s.clusters.map (·.1)
    · exact ⟨k, hin, hk, hp⟩
    · rw [cluster_absent hin] at hk
      cases hk

theorem back_sdWriteBack {s t : State} (hm : t.mem = s.mem) (hl : ∀ k, (t.cluster k).lines = (s.cluster k).lines) {u : State}
    (hu : u.mem = (s.sdWriteBack t).mem) (hul : ∀ k, (u.cluster k).lines = ((s.sdWriteBack t).cluster k).lines) : s.Back u := by
  refine ⟨fun k => ?_, fun h a => ?_⟩
  · rw [hul, cluster_sdWriteBack fun hk => by rw [hl, cluster_absent hk], hl]
  · obtain ⟨hc, hd⟩ := writtenBack_sdWriteBack hm hl h a
    rw [hu]
    refine ⟨fun hn => hc fun l ⟨k, hl', hp⟩ hla => hn k l hl' ⟨hp, hla⟩, ?_⟩
    rintro ⟨k, l, hl', hp, hla⟩
    obtain ⟨x, ⟨j, hx, hxp⟩, hxa, hxm⟩ := hd ⟨l, ⟨k, hl', hp⟩, hla⟩
    exact ⟨j, x, hx, ⟨hxp, hxa⟩, hxm⟩

/-- The entries that a request leaves. -/
def State.sdKeep (s : State) (l : List TlbEntry) : List TlbEntry := l.filter fun e => !(s.sdHits e)

/-- A shoot-down begins: its entries leave the TLBs. -/
def State.sdBegin (s : State) : State :=
  { s with sdBegun := true, sdMark := s.nextId + 1, nextId := s.nextId + 1,
           cores := s.cores.map fun (p : Nat × CoreSt) => (p.1, { p.2 with itlb := s.sdKeep p.2.itlb, dtlb := s.sdKeep p.2.dtlb }),
           clusters := s.clusters.map fun (p : Nat × Cluster) => (p.1, { p.2 with tlb := s.sdKeep p.2.tlb }) }

theorem exec_shootdown_begins {s : State} (h1 : s.regBits sdctl 63 63 = 1) (h2 : s.sdBegun = false) :
    exec .shootdown s = if s.regBits sdctl 34 34 = 1 then .next (s.sdWriteBack s.sdBegin) else .next s.sdBegin :=
  if_pos ⟨h1, h2⟩

theorem core_sdBegin (s : State) (k : Nat) :
    s.sdBegin.core k = { s.core k with itlb := s.sdKeep (s.core k).itlb, dtlb := s.sdKeep (s.core k).dtlb } := by
  have h := get_mapVals (fun c : CoreSt => { c with itlb := s.sdKeep c.itlb, dtlb := s.sdKeep c.dtlb }) s.cores k {}
  exact h

theorem cluster_sdBegin (s : State) (k : Nat) : s.sdBegin.cluster k = { s.cluster k with tlb := s.sdKeep (s.cluster k).tlb } := by
  have h := get_mapVals (fun c : Cluster => { c with tlb := s.sdKeep c.tlb }) s.clusters k {}
  exact h

theorem shootdown_begins {s : State} (h1 : s.regBits sdctl 63 63 = 1) (h2 : s.sdBegun = false) : ∃ t, exec .shootdown s = .next t ∧ t.sdBegun = true ∧
    (∀ k, (t.core k).itlb = (s.core k).itlb.filter (fun e => !(s.sdHits e)) ∧ (t.core k).dtlb = (s.core k).dtlb.filter (fun e => !(s.sdHits e))) ∧
    (∀ k, (t.cluster k).tlb = (s.cluster k).tlb.filter (fun e => !(s.sdHits e)) ∧ (t.cluster k).seen = (s.cluster k).seen) ∧
    { t with sdBegun := false, sdMark := s.sdMark, nextId := s.nextId, cores := s.cores, clusters := s.clusters, mem := s.mem } = s ∧
    t.sdMark = s.nextId + 1 ∧ t.nextId = s.nextId + 1 ∧
    (s.regBits sdctl 34 34 = 0 → t.mem = s.mem ∧ ∀ k, (t.cluster k).lines = (s.cluster k).lines) ∧
    (s.regBits sdctl 34 34 = 1 → s.Back t) := by
  have he := exec_shootdown_begins h1 h2
  have hl : ∀ k, (s.sdBegin.cluster k).lines = (s.cluster k).lines := fun k => by rw [cluster_sdBegin]
  by_cases hw : s.regBits sdctl 34 34 = 1
  · refine ⟨s.sdWriteBack s.sdBegin, he.trans (if_pos hw), ?_⟩
    obtain ⟨m, c, hf⟩ := drops_frame s.sdLine (s.clusters.map (·.1)) s.sdBegin
    have hcl : ∀ k, (s.sdWriteBack s.sdBegin).cluster k = _ := fun k =>
      cluster_sdWriteBack (s := s) (t := s.sdBegin) fun hk => by rw [hl, cluster_absent hk]
    have hcore : ∀ k, (s.sdWriteBack s.sdBegin).core k = s.sdBegin.core k := fun k => by rw [sdWriteBack_eq, hf]; rfl
    refine ⟨?_, fun k => ?_, fun k => ?_, ?_, ?_, ?_, fun h0 => ?_, fun _ => back_sdWriteBack (s := s) (t := s.sdBegin) rfl hl rfl fun _ => rfl⟩
    · rw [sdWriteBack_eq, hf]
      rfl
    · rw [hcore, core_sdBegin]
      exact ⟨rfl, rfl⟩
    · rw [hcl, cluster_sdBegin]
      exact ⟨rfl, rfl⟩
    · rw [sdWriteBack_eq, hf, ← h2]
      rfl
    · rw [sdWriteBack_eq, hf]
      rfl
    · rw [sdWriteBack_eq, hf]
      rfl
    · rw [hw] at h0
      cases h0
  · refine ⟨s.sdBegin, he.trans (if_neg hw), rfl, fun k => ?_, fun k => ?_, ?_, rfl, rfl, fun _ => ⟨rfl, hl⟩, fun h => absurd h hw⟩
    · rw [core_sdBegin]
      exact ⟨rfl, rfl⟩
    · rw [cluster_sdBegin]
      exact ⟨rfl, rfl⟩
    · rw [← h2]
      rfl

theorem sdRanges_none_iff (s : State) : s.sdRanges = none ↔ s.regBits sdctl 33 32 ≠ 0 := by
  unfold State.sdRanges
  split
  next h => exact ⟨fun _ => h, fun _ => rfl⟩
  next h => exact ⟨nofun, fun h' => absurd h' h⟩

theorem mem_core_or_empty {α : Type} (m : Map α) (k : Nat) (d : α) : (k, Map.get m k d) ∈ m ∨ Map.get m k d = d := by
  unfold Map.get
  cases hf : Map.find? m k with
  | none => exact .inr rfl
  | some v => exact .inl (mem_of_find? hf)

/-- Every entry of a TLB and every translation that a cluster has had counts for the ranges. -/
theorem mem_sdEntries {s : State} {k : Nat} {e : TlbEntry}
    (he : e ∈ (s.core k).itlb ∨ e ∈ (s.core k).dtlb ∨ e ∈ (s.cluster k).tlb ∨ e ∈ (s.cluster k).seen) :
    e ∈ s.cores.flatMap (fun (p : Nat × CoreSt) => p.2.itlb ++ p.2.dtlb) ++ s.clusters.flatMap fun (p : Nat × Cluster) => p.2.tlb ++ p.2.seen := by
  have hc : ∀ e, e ∈ (s.core k).itlb ++ (s.core k).dtlb → e ∈ s.cores.flatMap (fun (p : Nat × CoreSt) => p.2.itlb ++ p.2.dtlb) := by
    intro e he
    rcases mem_core_or_empty s.cores k {} with h | h
    · exact List.mem_flatMap.2 ⟨_, h, he⟩
    · rw [show s.core k = {} from h] at he
      cases he
  have hk : ∀ e, e ∈ (s.cluster k).tlb ++ (s.cluster k).seen → e ∈ s.clusters.flatMap (fun (p : Nat × Cluster) => p.2.tlb ++ p.2.seen) := by
    intro e he
    rcases mem_core_or_empty s.clusters k {} with h | h
    · exact List.mem_flatMap.2 ⟨_, h, he⟩
    · rw [show s.cluster k = {} from h] at he
      cases he
  rw [List.mem_append]
  rcases he with h | h | h | h
  · exact .inl (hc e (List.mem_append_left _ h))
  · exact .inl (hc e (List.mem_append_right _ h))
  · exact .inr (hk e (List.mem_append_left _ h))
  · exact .inr (hk e (List.mem_append_right _ h))

theorem sdRanges_part {s : State} {rs : List (Nat × Nat)} (h : s.sdRanges = some rs) {k : Nat} {e : TlbEntry}
    (he : e ∈ (s.core k).itlb ∨ e ∈ (s.core k).dtlb ∨ e ∈ (s.cluster k).tlb ∨ e ∈ (s.cluster k).seen) (hh : s.sdHits e = true) :
    let lo := s.regBits (tffBase + 0x18) 51 16 * 65536
    let a := max lo (e.page * 2 ^ e.shift)
    ((leafXl e.pte e.shift a).key, min (lo + s.regBits (tffBase + 0x20) 51 16 * 65536) ((e.page + 1) * 2 ^ e.shift) - a) ∈ rs := by
  unfold State.sdRanges at h
  split at h
  next => cases h
  next =>
    cases h
    exact List.mem_append_left _ (List.mem_map.2 ⟨e, List.mem_filter.2 ⟨mem_sdEntries he, hh⟩, rfl⟩)

theorem sdHits_iff (s : State) (e : TlbEntry) : s.sdHits e = true ↔
    let lo := s.regBits (tffBase + 0x18) 51 16 * 65536
    e.vf = s.regBits sdctl 4 0 ∧ (s.regBits sdctl 32 32 = 1 ∨ e.asid = s.regBits sdctl 31 16) ∧
    (s.regBits sdctl 33 33 = 1 ∨ (e.page * 2 ^ e.shift < lo + s.regBits (tffBase + 0x20) 51 16 * 65536 ∧ lo < (e.page + 1) * 2 ^ e.shift)) := by
  simp only [State.sdHits, Bool.and_eq_true, Bool.or_eq_true, beq_iff_eq, decide_eq_true_eq, and_assoc, Nat.add_mul, Nat.one_mul]

theorem shootdown_idle {s : State} (h : ¬ (s.regBits sdctl 63 63 = 1 ∧ s.sdBegun = false)) : exec .shootdown s = .next s := if_neg h

/-- What a shoot-down writes back again when it is done, before its request ends. -/
def State.sdFinish (s : State) : State :=
  if s.regBits sdctl 34 34 = 1 then
    { s.sdWriteBack s with clusters := (s.sdWriteBack s).clusters.map fun (p : Nat × Cluster) => (p.1, { p.2 with seen := s.sdKeep p.2.seen }) }
  else s

/-- The request of a shoot-down ends. -/
def State.sdEnd (s : State) : State :=
  (({ s with sdBegun := false } : State).setRegBits sdctl 63 63 0).setRegBits (tffBase + 0x28) 31 0 (s.regBits (tffBase + 0x28) 31 0 + 1)

theorem exec_shootdownDone_ends {s : State} (h : s.regBits sdctl 63 63 = 1 ∧ s.sdBegun = true ∧ s.sdQuiet = true) :
    exec .shootdownDone s = .next s.sdFinish.sdEnd := if_pos h

theorem sdFinish_frame (s : State) : ∃ m c, s.sdFinish = { s with mem := m, clusters := c } := by
  obtain ⟨m, c, hf⟩ := drops_frame s.sdLine (s.clusters.map (·.1)) s
  unfold State.sdFinish
  split
  · rw [sdWriteBack_eq, hf]
    exact ⟨_, _, rfl⟩
  · exact ⟨_, _, rfl⟩

theorem cluster_sdFinish {s : State} (h : s.regBits sdctl 34 34 = 1) (k : Nat) : s.sdFinish.cluster k =
    { s.cluster k with lines := (s.cluster k).lines.filter fun l => !(s.sdLine l), seen := s.sdKeep (s.cluster k).seen } := by
  rw [State.sdFinish, if_pos h]
  refine (get_mapVals (fun c : Cluster => { c with seen := s.sdKeep c.seen }) (s.sdWriteBack s).clusters k {}).trans ?_
  have hc := cluster_sdWriteBack (s := s) (t := s) (k := k) fun hk => by rw [cluster_absent hk]
  unfold State.cluster at hc ⊢
  rw [hc]

theorem back_sdFinish {s u : State} (h : s.regBits sdctl 34 34 = 1) (hu : u.mem = s.sdFinish.mem) (hc : u.clusters = s.sdFinish.clusters) : s.Back u := by
  refine back_sdWriteBack (t := s) rfl (fun _ => rfl) ?_ fun k => ?_
  · rw [hu, State.sdFinish, if_pos h]
  · have hk : u.cluster k = s.sdFinish.cluster k := by
      unfold State.cluster
      rw [hc]
    rw [hk, cluster_sdFinish h, cluster_sdWriteBack fun hk => by rw [cluster_absent hk]]

theorem shootdownDone_cases (s : State) :
    (¬ (s.regBits sdctl 63 63 = 1 ∧ s.sdBegun = true ∧ s.sdQuiet = true) → exec .shootdownDone s = .next s) ∧
    (s.regBits sdctl 63 63 = 1 ∧ s.sdBegun = true ∧ s.sdQuiet = true → ∃ t, exec .shootdownDone s = .next t ∧ t.sdBegun = false ∧
      { t with sdBegun := s.sdBegun, admin := s.admin, mem := s.mem, clusters := s.clusters } = s ∧
      t.admin = ((s.setRegBits sdctl 63 63 0).setRegBits (tffBase + 0x28) 31 0 (s.regBits (tffBase + 0x28) 31 0 + 1)).admin ∧
      (s.regBits sdctl 34 34 = 0 → t.mem = s.mem ∧ t.clusters = s.clusters) ∧
      (s.regBits sdctl 34 34 = 1 → s.Back t ∧ ∀ k, (t.cluster k).seen = ((s.cluster k).seen.filter fun e => !(s.sdHits e)) ∧
        { t.cluster k with lines := (s.cluster k).lines, seen := (s.cluster k).seen } = s.cluster k)) := by
  refine ⟨fun h => if_neg h, fun h => ⟨_, exec_shootdownDone_ends h, rfl, ?_, ?_, fun h0 => ?_, fun h1 => ⟨back_sdFinish h1 rfl rfl, fun k => ?_⟩⟩⟩
  · obtain ⟨m, c, hf⟩ := sdFinish_frame s
    rw [hf]
    rfl
  · obtain ⟨m, c, hf⟩ := sdFinish_frame s
    rw [hf]
    rfl
  · have hf : s.sdFinish = s := if_neg (by rw [h0]; decide)
    rw [hf]
    exact ⟨rfl, rfl⟩
  · have hk : s.sdFinish.sdEnd.cluster k = s.sdFinish.cluster k := rfl
    rw [hk, cluster_sdFinish h1]
    exact ⟨rfl, rfl⟩

end Sys2Proof.Machine
end

section
/-! Error records (R417 to R420) and what writes them. -/

namespace Sys2Proof.Machine

/-! ## Words of memory -/

theorem memNat_congr {m m' : List Host.Cell} {k n : Nat} (h : ∀ j, k ≤ j → j < k + n → memGet m j = memGet m' j) : memNat m k n = memNat m' k n := by
  induction n generalizing k with
  | zero => rfl
  | succ n ih =>
    unfold memNat
    rw [h k (Nat.le_refl k) (by omega), ih fun j h1 h2 => h j (by omega) (by omega)]

theorem read64_write64_other (s : State) {k j : Nat} (v : W64) (h : memWf s.mem = true) (hd : j + 8 ≤ k ∨ k + 8 ≤ j) :
    (s.write64 k v).read64 j = s.read64 j :=
  congrArg (BitVec.ofNat 64) (memNat_congr fun i _ _ => memGet_memPut_other _ _ _ _ _ (by omega) h)

theorem memNat_lt (m : List Host.Cell) (k n : Nat) : memNat m k n < 256 ^ n := by
  induction n generalizing k with
  | zero => exact Nat.one_pos
  | succ n ih =>
    have h1 := ih (k + 1)
    have h2 := (memGet m k).isLt
    unfold memNat
    rw [Nat.pow_succ]
    omega

/-- Words written one after the other. -/
def State.writeWords (s : State) (at_ : Nat) (ws : List (W64 × Nat)) : State := ws.foldl (fun s p => s.write64 (at_ + 8 * p.2) p.1) s

theorem writeWords_frame (at_ : Nat) (ws : List (W64 × Nat)) (s : State) : ∃ m, s.writeWords at_ ws = { s with mem := m } := by
  induction ws generalizing s with
  | nil => exact ⟨_, rfl⟩
  | cons p ws ih =>
    obtain ⟨m, hm⟩ := ih (s.write64 (at_ + 8 * p.2) p.1)
    exact ⟨m, hm⟩

theorem memGet_writeWords (at_ : Nat) (ws : List W64) (n : Nat) (s : State) (h : memWf s.mem = true) (a : Nat)
    (ha : a < at_ + 8 * n ∨ at_ + 8 * (n + ws.length) ≤ a) : memGet (s.writeWords at_ (ws.zipIdx n)).mem a = memGet s.mem a := by
  induction ws generalizing n s with
  | nil => rfl
  | cons w ws ih =>
    rw [List.length_cons] at ha
    refine (ih (n + 1) (s.write64 (at_ + 8 * n) w) (memPut_wf _ _ _ _ h) (by omega)).trans ?_
    exact memGet_memPut_other _ _ _ _ _ (by omega) h

theorem read64_writeWords (at_ : Nat) (ws : List W64) (n : Nat) (s : State) (h : memWf s.mem = true) (i : Nat) (hi : i < ws.length) :
    (s.writeWords at_ (ws.zipIdx n)).read64 (at_ + 8 * (n + i)) = ws[i] := by
  induction ws generalizing n s i with
  | nil => exact absurd hi (Nat.not_lt_zero i)
  | cons w ws ih =>
    have hwf : memWf (s.write64 (at_ + 8 * n) w).mem = true := memPut_wf _ _ _ _ h
    cases i with
    | zero =>
      refine (congrArg (BitVec.ofNat 64) (memNat_congr fun j _ _ => ?_)).trans (read64_write64 s (at_ + 8 * n) w h)
      exact memGet_writeWords at_ ws (n + 1) _ hwf j (.inl (by omega))
    | succ i =>
      rw [show n + (i + 1) = n + 1 + i by omega]
      exact ih (n + 1) _ hwf i (Nat.lt_of_succ_lt_succ hi)

/-- A word written with what it holds leaves memory as it was. -/
theorem memGet_write64_same (s : State) (k : Nat) (h : memWf s.mem = true) (a : Nat) : memGet (s.write64 k (s.read64 k)).mem a = memGet s.mem a := by
  by_cases ha : k ≤ a ∧ a < k + 8
  · obtain ⟨j, rfl⟩ : ∃ j, a = k + j := ⟨a - k, by omega⟩
    have hr := congrArg BitVec.toNat (read64_write64 s k (s.read64 k) h)
    have hlt : ∀ (m : List Host.Cell), memNat m k 8 < 2 ^ 64 := fun m => memNat_lt m k 8
    simp only [State.read64, State.read, BitVec.toNat_ofNat, Nat.mod_eq_of_lt (hlt _)] at hr
    rw [← memNat_byte _ k 8 j (by omega), ← memNat_byte s.mem k 8 j (by omega)]
    simp only [State.read64, State.read]
    rw [hr]
  · exact memGet_memPut_other _ _ _ _ _ (by omega) h

/-! ## Error records -/

/-- Where the next record of the error ring goes. -/
def State.errSlot (s : State) : Nat :=
  s.regBits fleetBase 51 6 * 64 + 64 * (s.regBits (fleetBase + 0x18) 31 0 % 2 ^ s.regBits (fleetBase + 8) 3 0)

/-- The error ring has no room, or there is none. -/
def State.ErrFull (s : State) : Prop :=
  s.regBits (fleetBase + 8) 3 0 = 0 ∨ 2 ^ s.regBits (fleetBase + 8) 3 0 ≤
    (s.regBits (fleetBase + 0x18) 31 0 + 2 ^ 32 - s.regBits (fleetBase + 0x10) 31 0) % 2 ^ 32

/-- The record of Table 23.2 has been written, from memory and registers as in `s` to those of `t`, or a dropped one counted. -/
def State.Records (s t : State) (addr source kind vf unit refs : Nat) (handle : W64) : Prop :=
  (s.ErrFull → t.mem = s.mem ∧ t.admin = s.admin ∧ t.errDrops = s.errDrops + 1) ∧
  (¬ s.ErrFull → t.errDrops = s.errDrops ∧ t.regBits (fleetBase + 0x18) 31 0 = (s.regBits (fleetBase + 0x18) 31 0 + 1) % 2 ^ 32 ∧
    (∀ r, r ≠ fleetBase + 0x18 → t.reg r = s.reg r) ∧
    (memWf s.mem = true → t.read64 s.errSlot = BitVec.ofNat 64 addr ∧
      t.read64 (s.errSlot + 8) = BitVec.ofNat 64 (source + 16 * kind + 256 * (vf % 32) + 65536 * (unit % 65536)) ∧
      t.read64 (s.errSlot + 16) = handle ∧ t.read64 (s.errSlot + 24) = BitVec.ofNat 64 refs ∧ t.read64 (s.errSlot + 32) = BitVec.ofNat 64 s.ptp ∧
      t.read64 (s.errSlot + 40) = BitVec.ofNat 64 ((s.regBits (fleetBase + 0x18) 31 0 + 1) % 2 ^ 32) ∧ t.read64 (s.errSlot + 48) = 0 ∧
      t.read64 (s.errSlot + 56) = 0 ∧ ∀ a, a < s.errSlot ∨ s.errSlot + 64 ≤ a → memGet t.mem a = memGet s.mem a))

/-- The words of a record. -/
def State.errWords (s : State) (addr source kind vf unit refs : Nat) (handle : W64) : List W64 :=
  [BitVec.ofNat 64 addr, BitVec.ofNat 64 (source + kind * 16 + vf % 32 * 256 + unit % 65536 * 65536), handle, BitVec.ofNat 64 refs,
    BitVec.ofNat 64 s.ptp, BitVec.ofNat 64 ((s.regBits (fleetBase + 0x18) 31 0 + 1) % 2 ^ 32), 0, 0]

theorem errorRecord_dropped {s : State} {addr source kind vf unit refs : Nat} {handle : W64} (h : s.ErrFull) :
    s.errorRecord addr source kind vf unit handle refs = { s with errDrops := s.errDrops + 1 } := if_pos h

theorem errorRecord_written {s : State} {addr source kind vf unit refs : Nat} {handle : W64} (h : ¬ s.ErrFull) :
    s.errorRecord addr source kind vf unit handle refs =
      (s.writeWords s.errSlot (s.errWords addr source kind vf unit refs handle).zipIdx).setRegBits (fleetBase + 0x18) 31 0
        (s.regBits (fleetBase + 0x18) 31 0 + 1) := if_neg h

theorem errorRecord_frame (s : State) (addr source kind vf unit refs : Nat) (handle : W64) :
    ∃ m a d, s.errorRecord addr source kind vf unit handle refs = { s with mem := m, admin := a, errDrops := d } := by
  by_cases h : s.ErrFull
  · exact ⟨_, _, _, errorRecord_dropped h⟩
  · obtain ⟨m, hm⟩ := writeWords_frame s.errSlot (s.errWords addr source kind vf unit refs handle).zipIdx s
    rw [errorRecord_written h, hm]
    exact ⟨_, _, _, rfl⟩

theorem records_errorRecord (s : State) (addr source kind vf unit refs : Nat) (handle : W64) :
    s.Records (s.errorRecord addr source kind vf unit handle refs) addr source kind vf unit refs handle := by
  refine ⟨fun h => ?_, fun h => ?_⟩
  · rw [errorRecord_dropped h]
    exact ⟨rfl, rfl, rfl⟩
  · obtain ⟨m, hm⟩ := writeWords_frame s.errSlot (s.errWords addr source kind vf unit refs handle).zipIdx s
    rw [errorRecord_written h]
    refine ⟨?_, ?_, fun r hr => ?_, fun hwf => ?_⟩
    · rw [hm]
      rfl
    · exact bits_setRegBits_same _ _ (by decide) (by decide)
    · rw [hm]
      exact get_put_other _ _ _ _ _ hr
    · have hread := read64_writeWords s.errSlot (s.errWords addr source kind vf unit refs handle) 0 s hwf
      have hkeep := memGet_writeWords s.errSlot (s.errWords addr source kind vf unit refs handle) 0 s hwf
      generalize s.writeWords s.errSlot (s.errWords addr source kind vf unit refs handle).zipIdx = u at hread hkeep ⊢
      have hu : ∀ k, (u.setRegBits (fleetBase + 0x18) 31 0 (s.regBits (fleetBase + 0x18) 31 0 + 1)).read64 k = u.read64 k := fun _ => rfl
      have h1 : source + kind * 16 + vf % 32 * 256 + unit % 65536 * 65536 = source + 16 * kind + 256 * (vf % 32) + 65536 * (unit % 65536) := by omega
      simp only [hu]
      refine ⟨hread 0 (by simp [State.errWords]), (hread 1 (by simp [State.errWords])).trans (congrArg (BitVec.ofNat 64) h1),
        hread 2 (by simp [State.errWords]), hread 3 (by simp [State.errWords]), hread 4 (by simp [State.errWords]), hread 5 (by simp [State.errWords]),
        hread 6 (by simp [State.errWords]), hread 7 (by simp [State.errWords]), fun a ha => hkeep a ?_⟩
      simpa [State.errWords] using ha

/-- The record written by a state that has the memory, the registers and the time of `s`. -/
theorem State.Records.of_same {s u t : State} {addr source kind vf unit refs : Nat} {handle : W64} (h : u.Records t addr source kind vf unit refs handle)
    (hm : u.mem = s.mem) (ha : u.admin = s.admin) (hd : u.errDrops = s.errDrops) (hp : u.ptp = s.ptp) :
    s.Records t addr source kind vf unit refs handle := by
  have hr : ∀ r, u.reg r = s.reg r := fun r => by unfold State.reg; rw [ha]
  unfold State.Records State.ErrFull State.errSlot State.regBits at h ⊢
  rw [hm, ha, hd, hp] at h
  simp only [hr] at h
  exact h

end Sys2Proof.Machine
end

section
/-! O41 (R69, R79, R275, R277, R417 to R419). Scrubs and uncorrectable errors. -/

namespace Sys2Proof.Machine

/-! ## Scrubs (R417) -/

/-- The word that a scrub rewrites where it still holds what was read. -/
def State.scrubbed (s : State) (k : Nat) (seen : W64) : State := if s.read64 (wordKey k) = seen then s.write64 (wordKey k) seen else s

theorem scrubbed_frame (s : State) (k : Nat) (seen : W64) : ∃ m, s.scrubbed k seen = { s with mem := m } := by
  unfold State.scrubbed
  split <;> exact ⟨_, rfl⟩

theorem memGet_scrubbed (s : State) (k : Nat) (seen : W64) (h : memWf s.mem = true) (a : Nat) :
    memGet (s.scrubbed k seen).mem a = memGet s.mem a := by
  unfold State.scrubbed
  split
  next hs =>
    subst hs
    exact memGet_write64_same s (wordKey k) h a
  next => rfl

theorem exec_patrolScrub_absent {s : State} {k : Nat} {seen : W64} (h : s.present (wordKey k) 8 = false) : exec (.patrolScrub k seen) s = .next s :=
  if_pos h

theorem exec_patrolScrub_present {s : State} {k : Nat} {seen : W64} (h : s.present (wordKey k) 8 = true) :
    exec (.patrolScrub k seen) s = .next (if isRemoteKey (wordKey k) then s.scrubbed k seen
      else (s.scrubbed k seen).corrected (s.errorUnit (wordKey k)).1 (s.errorUnit (wordKey k)).2) :=
  if_neg (by rw [h]; decide)

/-- The corrected errors of a unit within the hour. -/
def State.timesOf (s : State) (u : Nat) : List Nat := s.ptp :: (s.errTimes.get u []).filter (fun x => decide (s.ptp < x + 3600000000000))

/-- A corrected error of a unit raises an alert: its count within the hour reaches the threshold, and none was raised within the hour. -/
def State.Alerts (s : State) (u : Nat) : Prop :=
  s.regBits (fleetBase + 0x20) 31 0 ≠ 0 ∧ s.regBits (fleetBase + 0x20) 31 0 ≤ (s.timesOf u).length ∧
    ∀ x, s.alerts.find? u = some x → x + 3600000000000 ≤ s.ptp

/-- A corrected error is counted. -/
def State.countError (s : State) (u : Nat) : State :=
  { s with errors := s.errors.put u (s.errors.get u 0 + 1), errTimes := s.errTimes.put u (s.timesOf u) }

theorem alerts_iff (s : State) (u : Nat) :
    (s.regBits (fleetBase + 0x20) 31 0 = 0 ∨ (s.timesOf u).length < s.regBits (fleetBase + 0x20) 31 0 ∨
      (match s.alerts.find? u with | some t => decide (s.ptp < t + 3600000000000) | none => false) = true) ↔ ¬ s.Alerts u := by
  unfold State.Alerts
  generalize s.regBits (fleetBase + 0x20) 31 0 = n
  cases hf : Map.find? s.alerts u with
  | none =>
    simp
    omega
  | some t =>
    simp
    omega

theorem corrected_quiet {s : State} {source unit : Nat} (hs : source ≠ 5) (h : ¬ s.Alerts (source * 65536 + unit)) :
    s.corrected source unit = s.countError (source * 65536 + unit) := by
  unfold State.corrected
  simp only [if_neg hs]
  exact if_pos ((alerts_iff s (source * 65536 + unit)).2 h)

theorem corrected_alert {s : State} {source unit : Nat} (hs : source ≠ 5) (h : s.Alerts (source * 65536 + unit)) :
    s.corrected source unit =
      ({ s.countError (source * 65536 + unit) with alerts := s.alerts.put (source * 65536 + unit) s.ptp } : State).errorRecord 0 source 2 0 unit 0 0 := by
  unfold State.corrected
  simp only [if_neg hs]
  exact if_neg (mt (alerts_iff s (source * 65536 + unit)).1 (not_not.2 h))

theorem errorUnit_ne (s : State) (k : Nat) : (s.errorUnit k).1 ≠ 5 := by
  unfold State.errorUnit
  split
  · exact (by decide : (0 : Nat) ≠ 5)
  · exact (by decide : (1 : Nat) ≠ 5)
  · exact (by decide : (2 : Nat) ≠ 5)
  · split
    · exact (by decide : (3 : Nat) ≠ 5)
    · exact (by decide : (4 : Nat) ≠ 5)

/-- What a scrub of a word of this module does: it counts the corrected error of the word's unit, and raises an alert. -/
theorem patrolScrub_counts {s : State} {k : Nat} {seen : W64} (h : s.present (wordKey k) 8 = true) (hr : isRemoteKey (wordKey k) = false) :
    ∃ t, exec (.patrolScrub k seen) s = .next t ∧
      let unit := s.errorUnit (wordKey k)
      let u := unit.1 * 65536 + unit.2
      t.errors.get u 0 = s.errors.get u 0 + 1 ∧ t.errTimes.get u [] = s.timesOf u ∧
      { t with mem := s.mem, errors := s.errors, errTimes := s.errTimes, alerts := s.alerts, admin := s.admin, errDrops := s.errDrops } = s ∧
      (¬ s.Alerts u → t.alerts = s.alerts ∧ t.admin = s.admin ∧ t.errDrops = s.errDrops ∧ (memWf s.mem = true → ∀ a, memGet t.mem a = memGet s.mem a)) ∧
      (s.Alerts u → t.alerts.find? u = some s.ptp ∧ (s.read64 (wordKey k) ≠ seen → s.Records t 0 unit.1 2 0 unit.2 0 0)) := by
  have he := exec_patrolScrub_present (seen := seen) h
  rw [hr, if_neg Bool.false_ne_true] at he
  refine ⟨_, he, ?_⟩
  obtain ⟨m, hm⟩ := scrubbed_frame s k seen
  have hkeep := memGet_scrubbed s k seen
  have hsame : s.read64 (wordKey k) ≠ seen → s.scrubbed k seen = s := fun hne => if_neg hne
  have hne := errorUnit_ne s (wordKey k)
  generalize s.errorUnit (wordKey k) = unit at hne ⊢
  rw [hm] at hkeep hsame ⊢
  dsimp only
  by_cases ha : s.Alerts (unit.1 * 65536 + unit.2)
  · rw [corrected_alert (s := { s with mem := m }) hne ha]
    have hrec := records_errorRecord ({ ({ s with mem := m } : State).countError (unit.1 * 65536 + unit.2) with
      alerts := s.alerts.put (unit.1 * 65536 + unit.2) s.ptp } : State) 0 unit.1 2 0 unit.2 0 0
    obtain ⟨m', a, d, hf⟩ := errorRecord_frame ({ ({ s with mem := m } : State).countError (unit.1 * 65536 + unit.2) with
      alerts := s.alerts.put (unit.1 * 65536 + unit.2) s.ptp } : State) 0 unit.1 2 0 unit.2 0 0
    rw [hf] at hrec ⊢
    refine ⟨get_put_same _ _ _ _, get_put_same _ _ _ _, rfl, fun h => absurd ha h, fun _ => ⟨find?_put_same _ _ _, fun hs => ?_⟩⟩
    have hmem : m = s.mem := by
      have := congrArg State.mem (hsame hs)
      exact this
    exact hrec.of_same hmem rfl rfl rfl
  · rw [corrected_quiet (s := { s with mem := m }) hne ha]
    exact ⟨get_put_same _ _ _ _, get_put_same _ _ _ _, rfl, fun _ => ⟨rfl, rfl, rfl, hkeep⟩, fun h => absurd h ha⟩

theorem patrolScrub_remote {s : State} {k : Nat} {seen : W64} (h : s.present (wordKey k) 8 = true) (hr : isRemoteKey (wordKey k) = true) :
    ∃ t, exec (.patrolScrub k seen) s = .next t ∧ { t with mem := s.mem } = s ∧ (memWf s.mem = true → ∀ a, memGet t.mem a = memGet s.mem a) := by
  have he := exec_patrolScrub_present (seen := seen) h
  rw [hr, if_pos rfl] at he
  obtain ⟨m, hm⟩ := scrubbed_frame s k seen
  exact ⟨_, he, by rw [hm], memGet_scrubbed s k seen⟩

/-! ## Uncorrectable errors (R79, R275, R277, R419) -/

theorem mem_insertKey_iff (l : List Nat) (k j : Nat) : j ∈ insertKey l k ↔ j = k ∨ j ∈ l := by
  induction l with
  | nil => simp [insertKey]
  | cons x l ih =>
    unfold insertKey
    split
    · rw [List.mem_cons, ih, List.mem_cons]
      tauto
    · split
      next hx =>
        subst hx
        rw [List.mem_cons]
        tauto
      next => rw [List.mem_cons]

theorem isPoisoned_setPoison (s : State) (k a : Nat) : (s.setPoison k true).isPoisoned a = (decide (wordKey a = wordKey k) || s.isPoisoned a) := by
  unfold State.setPoison State.isPoisoned
  rw [Bool.eq_iff_iff]
  simp [mem_insertKey_iff, or_assoc]

theorem exec_uncorrectableError_absent {s : State} {k : Nat} (h : s.present (wordKey k) 8 = false) :
    exec (.uncorrectableError (.word k)) s = .next s := if_pos h

/-- The virtual function that an error record of a word names. -/
def State.errOwner (s : State) (w : Nat) : Nat :=
  s.ownerOf w (if (s.blockAt w).2 = 0 then none else
    some (s.block (handleOf (s.blockAt w).1).stack (handleOf (s.blockAt w).1).pool (handleOf (s.blockAt w).1).index).vf)

theorem exec_uncorrectableError_word {s : State} {k : Nat} (h : s.present (wordKey k) 8 = true) :
    exec (.uncorrectableError (.word k)) s = if isRemoteKey (wordKey k) then .next (s.setPoison (wordKey k) true)
      else .next ((s.setPoison (wordKey k) true).errorRecord (physAddr (wordKey k)) (s.errorUnit (wordKey k)).1 1 (s.errOwner (wordKey k))
        (s.errorUnit (wordKey k)).2 (s.blockAt (wordKey k)).1 (s.blockAt (wordKey k)).2) :=
  if_neg (by rw [h]; decide)

theorem wordKey_wordKey (k : Nat) : wordKey (wordKey k) = wordKey k := by
  unfold wordKey
  omega

theorem uncorrectable_word {s : State} {k : Nat} (h : s.present (wordKey k) 8 = true) :
    ∃ t, exec (.uncorrectableError (.word k)) s = .next t ∧ t.isPoisoned k = true ∧ (∀ a, a / 8 ≠ k / 8 → t.isPoisoned a = s.isPoisoned a) ∧
      { t with poison := s.poison, mem := s.mem, admin := s.admin, errDrops := s.errDrops } = s ∧
      (isRemoteKey (wordKey k) = true → { t with poison := s.poison } = s) ∧
      (isRemoteKey (wordKey k) = false → s.Records t (physAddr (wordKey k)) (s.errorUnit (wordKey k)).1 1 (s.errOwner (wordKey k))
        (s.errorUnit (wordKey k)).2 (s.blockAt (wordKey k)).2 (s.blockAt (wordKey k)).1) := by
  have hp := isPoisoned_setPoison s (wordKey k)
  have hown : (s.setPoison (wordKey k) true).isPoisoned k = true := by rw [hp, wordKey_wordKey]; simp
  have hother : ∀ a, a / 8 ≠ k / 8 → (s.setPoison (wordKey k) true).isPoisoned a = s.isPoisoned a := by
    intro a ha
    rw [hp, wordKey_wordKey, decide_eq_false (by unfold wordKey; omega), Bool.false_or]
  have he := exec_uncorrectableError_word h
  by_cases hr : isRemoteKey (wordKey k) = true
  · exact ⟨_, he.trans (if_pos hr), hown, hother, rfl, fun _ => rfl, fun h' => by rw [hr] at h'; cases h'⟩
  · have hrec := records_errorRecord (s.setPoison (wordKey k) true) (physAddr (wordKey k)) (s.errorUnit (wordKey k)).1 1 (s.errOwner (wordKey k))
      (s.errorUnit (wordKey k)).2 (s.blockAt (wordKey k)).2 (s.blockAt (wordKey k)).1
    obtain ⟨m, a, d, hf⟩ := errorRecord_frame (s.setPoison (wordKey k) true) (physAddr (wordKey k)) (s.errorUnit (wordKey k)).1 1 (s.errOwner (wordKey k))
      (s.errorUnit (wordKey k)).2 (s.blockAt (wordKey k)).2 (s.blockAt (wordKey k)).1
    refine ⟨_, he.trans (if_neg hr), ?_⟩
    rw [hf] at hrec ⊢
    exact ⟨hown, hother, rfl, fun h' => absurd h' hr, fun _ => hrec.of_same rfl rfl rfl rfl⟩

theorem uncorrectable_matrix {s : State} {core : Nat} {word : MatWord} (hc : core < 4096) (hw : matExists word = true) :
    ∃ t, exec (.uncorrectableError (.matrix core word)) s = .next t ∧
      (∀ x, x ∈ (t.core core).matErr ↔ x = word ∨ x ∈ (s.core core).matErr) ∧ (∀ c, c ≠ core → t.core c = s.core c) ∧
      { t.core core with matErr := (s.core core).matErr } = s.core core ∧
      { t with cores := s.cores, mem := s.mem, admin := s.admin, errDrops := s.errDrops } = s ∧ s.Records t 0 5 1 (s.core core).vfid core 0 0 := by
  have he : exec (.uncorrectableError (.matrix core word)) s = _ := if_neg (by rw [hw]; simp; omega)
  refine ⟨_, he, ?_⟩
  generalize hu : (s.modCore core fun c => { c with matErr := if c.matErr.contains word then c.matErr else c.matErr ++ [word] }) = u
  have hrec := records_errorRecord u 0 5 1 (s.core core).vfid core 0 0
  obtain ⟨m, a, d, hf⟩ := errorRecord_frame u 0 5 1 (s.core core).vfid core 0 0
  rw [hf] at hrec ⊢
  have hcore : ∀ c, u.core c = if c = core then { s.core core with matErr := if (s.core core).matErr.contains word then (s.core core).matErr else (s.core core).matErr ++ [word] } else s.core c :=
    fun c => by rw [← hu, core_modCore]
  refine ⟨fun x => ?_, fun c hcc => (hcore c).trans (if_neg hcc), ?_, ?_, ?_⟩
  · show x ∈ (u.core core).matErr ↔ _
    rw [hcore, if_pos rfl]
    dsimp only
    split
    next hin =>
      have hin' : word ∈ (s.core core).matErr := by simpa using hin
      exact ⟨.inr, fun h => h.elim (fun h => h ▸ hin') id⟩
    next => rw [List.mem_append, List.mem_singleton, or_comm]
  · show { u.core core with matErr := (s.core core).matErr } = _
    rw [hcore, if_pos rfl]
  · rw [← hu]
    rfl
  · refine hrec.of_same ?_ ?_ ?_ ?_ <;> rw [← hu] <;> rfl

theorem uncorrectable_context {s : State} {id : Nat} (h : (s.ctxs.find? id).isSome = true) :
    ∃ t, exec (.uncorrectableError (.context id)) s = .next t ∧
      (id / 4096 = 0 → t.ctx id = { s.ctx id with dueTrap := some (0x0C, 0) } ∧
        { t with ctxs := s.ctxs, mem := s.mem, admin := s.admin, errDrops := s.errDrops } = s) ∧
      (id / 4096 ≠ 0 → (t.ctx id).life = .closing ∧ ((s.ctx id).life ≠ .closing → (t.ctx id).failed = true ∧ (t.ctx id).code = 0x010C)) ∧
      (∀ c, c ≠ id → t.ctx c = s.ctx c) ∧ s.Records t 0 5 1 (s.vfOf id) (coreOf id) 0 0 := by
  obtain ⟨c, hc⟩ := Option.isSome_iff_exists.1 h
  have hctx : s.ctx id = c := by unfold State.ctx Map.get; rw [hc]; rfl
  have he : exec (.uncorrectableError (.context id)) s =
      .next ((s.endAsFail id (s.ctx id).hnum 0x0C 0).errorRecord 0 5 1 (s.vfOf id) (coreOf id) 0 0) := if_neg (by simp [hc])
  have hend : s.endAsFail id (s.ctx id).hnum 0x0C 0 =
      if isHelper id = false then s.modCtx id fun c => { c with dueTrap := some (0x0C, 0) } else s.close id true (0x0100 + 0x0C) := by
    unfold State.endAsFail
    simp only [hc, hctx, if_true]
  have hslot : isHelper id = false ↔ id / 4096 = 0 := by simp [isHelper, slotOf]
  refine ⟨_, he, ?_⟩
  rw [hend]
  by_cases hh : isHelper id = false
  · rw [if_pos hh]
    have hown : (s.modCtx id fun c => { c with dueTrap := some (0x0C, 0) }).ctx id = { s.ctx id with dueTrap := some (0x0C, 0) } :=
      (ctx_modCtx s id id _).trans (if_pos rfl)
    have hoth : ∀ j, j ≠ id → (s.modCtx id fun c => { c with dueTrap := some (0x0C, 0) }).ctx j = s.ctx j :=
      fun j hj => (ctx_modCtx s id j _).trans (if_neg hj)
    have hrec := records_errorRecord (s.modCtx id fun c => { c with dueTrap := some (0x0C, 0) }) 0 5 1 (s.vfOf id) (coreOf id) 0 0
    obtain ⟨m, a, d, hf⟩ := errorRecord_frame (s.modCtx id fun c => { c with dueTrap := some (0x0C, 0) }) 0 5 1 (s.vfOf id) (coreOf id) 0 0
    rw [hf] at hrec ⊢
    exact ⟨fun _ => ⟨hown, rfl⟩, fun hn => absurd (hslot.1 hh) hn,
      hoth, hrec.of_same rfl rfl rfl rfl⟩
  · rw [if_neg hh]
    obtain ⟨⟨cs, k, a', ls, im, hcl⟩, hoth⟩ := close_frame s id true (0x0100 + 0x0C)
    have hlife : ((s.close id true (0x0100 + 0x0C)).ctx id).life = .closing ∧
        ((s.ctx id).life ≠ .closing → ((s.close id true (0x0100 + 0x0C)).ctx id).failed = true ∧ ((s.close id true (0x0100 + 0x0C)).ctx id).code = 0x010C) := by
      by_cases hcg : (s.ctx id).life = .closing
      · rw [close_closing s id _ _ hcg]
        exact ⟨hcg, fun hn => absurd hcg hn⟩
      · obtain ⟨ops, ho⟩ := close_ctx s id true (0x0100 + 0x0C) hcg
        rw [ho]
        exact ⟨rfl, fun _ => ⟨rfl, rfl⟩⟩
    have hrec := records_errorRecord (s.close id true (0x0100 + 0x0C)) 0 5 1 (s.vfOf id) (coreOf id) 0 0
    obtain ⟨m, a, d, hf⟩ := errorRecord_frame (s.close id true (0x0100 + 0x0C)) 0 5 1 (s.vfOf id) (coreOf id) 0 0
    rw [hf] at hrec ⊢
    refine ⟨fun hz => absurd (hslot.2 hz) hh, fun _ => hlife, hoth, hrec.of_same ?_ ?_ ?_ ?_⟩ <;> rw [hcl]

end Sys2Proof.Machine

open Sys2Proof Sys2Proof.Machine

/-- Settles O41: each event by its precondition; a shoot-down through what its write-backs leave of memory, an error through the record it writes. -/
theorem modesAndErrors : Obligations.ModesAndErrors := by
  unfold Obligations.ModesAndErrors
  refine ⟨fun s die cluster core => ⟨happens_ite rfl, happens_ite rfl, splitChange_none, fun k => splitChange_happens, shootdown_begins,
      ⟨sdRanges_none_iff s, fun rs hrs k e he hh => sdRanges_part hrs he hh⟩, sdHits_iff s, shootdown_idle, shootdownDone_cases s, corePowerGating_happens s core⟩,
    fun s k id core word seen => ⟨fun h => ⟨exec_patrolScrub_absent h, exec_uncorrectableError_absent h⟩, patrolScrub_remote, patrolScrub_counts,
      uncorrectable_word, fun h => ?_, fun hc hw => ?_, fun h => if_pos h, uncorrectable_context⟩⟩
  · refine if_pos (h.imp_right fun hn => ?_)
    cases word <;> simpa [matExists] using hn
  · refine uncorrectable_matrix hc ?_
    cases word <;> simpa [matExists] using hw
end

section
/-! O48 (R82, R408, R409, R419, R420). Rinsing, pools and operand records. -/

namespace Sys2Proof.Machine

/-! ## Zeroed memory -/

/-- In a canonical memory a byte is what its listed cell holds. -/
theorem memGet_eq_find (m : List Host.Cell) (j : Nat) (h : memWf m = true) : memGet m j = ((m.find? (·.1 == j)).map (·.2)).getD unlisted := by
  rw [memWf_iff] at h
  obtain ⟨hs, -⟩ := h
  induction m with
  | nil => rfl
  | cons q m ih =>
    obtain ⟨i, x⟩ := q
    rw [List.pairwise_cons] at hs
    obtain ⟨hi, hs⟩ := hs
    unfold memGet
    rw [List.find?_cons]
    split
    next hlt =>
      rw [ih hs, beq_false_of_ne (by omega)]
    next hlt =>
      split
      next he => simp [he]
      next he =>
        have hnone : m.find? (·.1 == j) = none := by
          simp only [List.find?_eq_none, beq_iff_eq]
          intro p hp
          have := hi p hp
          dsimp only at this
          omega
        rw [beq_false_of_ne he, hnone]
        rfl

theorem memGet_filter (m : List Host.Cell) (p : Nat → Bool) (j : Nat) (h : memWf m = true) :
    memGet (m.filter fun c => p c.1) j = if p j then memGet m j else unlisted := by
  rw [memGet_eq_find _ _ (memFilter_wf m _ h), memGet_eq_find _ _ h, List.find?_filter]
  by_cases hp : p j = true
  · have hf : (fun c : Host.Cell => decide (p c.1 = true ∧ (c.1 == j) = true)) = fun c => c.1 == j := by
      funext c
      by_cases hc : c.1 = j
      · simp [hc, hp]
      · simp [hc]
    rw [if_pos hp, hf]
  · have hf : (fun c : Host.Cell => decide (p c.1 = true ∧ (c.1 == j) = true)) = fun _ => false := by
      funext c
      by_cases hc : c.1 = j
      · simp [hc, hp]
      · simp [hc]
    rw [if_neg hp, hf, List.find?_eq_none.2 fun _ _ => Bool.false_ne_true]
    rfl

theorem memGet_zeroRange (s : State) (k n j : Nat) (h : memWf s.mem = true) :
    memGet (s.zeroRange k n).mem j = if k ≤ j ∧ j < k + n then 0 else memGet s.mem j := by
  refine (memGet_filter s.mem (fun i => !(decide (k ≤ i) && decide (i < k + n))) j h).trans ?_
  by_cases hj : k ≤ j ∧ j < k + n
  · rw [if_pos hj, if_neg (by simp [hj])]
    rfl
  · rw [if_neg hj, if_pos (by simp; omega)]

/-! ## What the service of waiting accesses leaves of the pools -/

/-- Blocks, lists, quotas and administration registers are as they were. -/
structure PoolsKept (s t : State) : Prop where
  hbm   : t.hbm = s.hbm
  admin : t.admin = s.admin

theorem PoolsKept.refl (s : State) : PoolsKept s s := ⟨rfl, rfl⟩

theorem PoolsKept.trans {s t u : State} (h : PoolsKept s t) (k : PoolsKept t u) : PoolsKept s u :=
  ⟨k.hbm.trans h.hbm, k.admin.trans h.admin⟩

theorem PoolsKept.ite {s t u : State} {p : Prop} [Decidable p] (h : PoolsKept s t) (k : PoolsKept s u) : PoolsKept s (if p then t else u) := by
  split
  · exact h
  · exact k

theorem PoolsKept.foldl {α : Type} {f : State → α → State} (hf : ∀ s a, PoolsKept s (f s a)) (l : List α) (s : State) : PoolsKept s (l.foldl f s) := by
  induction l generalizing s with
  | nil => exact .refl s
  | cons a l ih => exact (hf s a).trans (ih _)

theorem poolsKept_onlyTables {s t : State} (h : OnlyTables s t) : PoolsKept s t := by
  refine ⟨?_, ?_⟩
  · have := congrArg State.hbm h.rest
    exact this
  · have := congrArg State.admin h.rest
    exact this

theorem poolsKept_close (s : State) (ctx : Nat) (failed : Bool) (code : Nat) : PoolsKept s (s.close ctx failed code) := by
  obtain ⟨⟨_, _, _, _, _, h⟩, -⟩ := close_frame s ctx failed code
  rw [h]
  exact ⟨rfl, rfl⟩

theorem poolsKept_takeTrap (s : State) (ctx cause : Nat) (tval pc : W64) (info : Option FaultInfo) :
    PoolsKept s (s.takeTrap ctx cause tval pc info) := by
  have hn : PoolsKept s (s.trapNoted ctx cause tval pc) := ⟨rfl, rfl⟩
  have two (c d : Ctx) : PoolsKept s ((s.setCtx ctx c).setCtx ctx d) := ⟨rfl, rfl⟩
  rw [takeTrap_eq]
  exact .ite (two ..) (.ite (two ..) (.ite (two ..) (hn.trans (poolsKept_close ..))))

theorem poolsKept_endAsFail (s : State) (ctx hnum cause : Nat) (tval : W64) : PoolsKept s (s.endAsFail ctx hnum cause tval) := by
  unfold State.endAsFail
  split
  · exact ⟨rfl, rfl⟩
  · split
    · exact .ite (poolsKept_close ..) (.refl s)
    · exact .refl s

theorem poolsKept_poisonStop (s : State) (f : Flight) : PoolsKept s (s.poisonStop f) := by
  have hd : PoolsKept s (s.dropFlight f.id) := ⟨rfl, rfl⟩
  have hs (u : State) : PoolsKept u (u.dropStall f.ctx f.until_) := ⟨rfl, rfl⟩
  unfold State.poisonStop
  refine .ite hd ?_
  split
  · exact hd.trans (poolsKept_endAsFail ..)
  · exact (hd.trans (hs _)).trans (poolsKept_takeTrap ..)

theorem poolsKept_fillLine (s : State) (cl key : Nat) : PoolsKept s (s.fillLine cl key).1 := by
  have hm : PoolsKept s (s.makeRoom cl) := by
    unfold State.makeRoom
    split
    · exact .refl s
    · refine .ite (.refl s) ?_
      split <;> exact ⟨rfl, rfl⟩
  unfold State.fillLine
  split
  · exact .refl s
  · exact hm.trans ⟨rfl, rfl⟩

theorem poolsKept_fetchData (s : State) (f : Flight) : PoolsKept s (s.fetchData f).1 := by
  unfold State.fetchData
  split
  · exact poolsKept_fillLine ..
  · exact .refl s

theorem poolsKept_clearPoison (s : State) (k n : Nat) : PoolsKept s (s.clearPoison k n) := by
  obtain ⟨_, h⟩ := clearPoison_frame s k n
  rw [h]
  exact ⟨rfl, rfl⟩

theorem poolsKept_storeData (s : State) (f : Flight) (v : Nat) : PoolsKept s (s.storeData f v) := by
  have hw (u : State) (cl key n v : Nat) : PoolsKept u (u.cacheWrite cl key n v) := (poolsKept_fillLine u cl key).trans ⟨rfl, rfl⟩
  have hm : PoolsKept s (s.write f.key f.size v) := ⟨rfl, rfl⟩
  unfold State.storeData
  dsimp only
  exact (PoolsKept.ite (hw ..) hm).trans (poolsKept_clearPoison ..)

theorem poolsKept_landed (s : State) (f : Flight) : PoolsKept s (s.landed f) := by
  obtain ⟨_, h⟩ := landed_frame s f
  rw [h]
  exact ⟨rfl, rfl⟩

theorem poolsKept_replyTo (s : State) (ctx : Nat) (dst : Option Nat) (v : W64) : PoolsKept s (s.replyTo ctx dst v) := by
  obtain ⟨_, h⟩ := replyTo_frame s ctx dst v
  rw [h]
  exact ⟨rfl, rfl⟩

theorem poolsKept_replyBoth (s : State) (ctx : Nat) (d : Option Nat) (v : W64) (e : Option Nat) (w : W64) :
    PoolsKept s (s.replyBoth ctx d v e w) := by
  have hf : PoolsKept s s.freshNat.1 := ⟨rfl, rfl⟩
  unfold State.replyBoth
  exact .ite (hf.trans (poolsKept_replyTo ..)) ((poolsKept_replyTo ..).trans (poolsKept_replyTo ..))

theorem poolsKept_performNow (s : State) (f : Flight) : PoolsKept s (s.performNow f) := by
  have hr : PoolsKept s (if s.recalls f then s.recall f.key else s) := .ite (poolsKept_onlyTables (onlyTables_recall ..)) (.refl s)
  unfold State.performNow
  dsimp only
  generalize (if s.recalls f then s.recall f.key else s) = u at hr ⊢
  refine hr.trans ?_
  have fetched := poolsKept_fetchData u f
  have set (t : State) (b : Bool) : PoolsKept t (t.setTag f.key b) := ⟨rfl, rfl⟩
  have answered (t : State) (v : W64) : PoolsKept t ((t.replyTo f.ctx f.dst v).landed f) := (poolsKept_replyTo ..).trans (poolsKept_landed ..)
  cases f.op
  case load | acq | ldfe | ldff =>
    refine .ite (poolsKept_poisonStop u f) (fetched.trans ?_)
    generalize (u.fetchData f).1 = t
    refine .trans ?_ (poolsKept_landed _ f)
    refine .trans ?_ (.ite (poolsKept_onlyTables (onlyTables_writeBack ..)) (.refl _))
    exact (PoolsKept.ite (set t false) (.refl t)).trans (poolsKept_replyBoth ..)
  case store | rel => exact (poolsKept_storeData u f f.x.toNat).trans ((PoolsKept.ite (set _ true) (.refl _)).trans (poolsKept_landed ..))
  case ldtag => exact answered ..
  case stef | stff => exact .ite (((poolsKept_storeData u f f.x.toNat).trans (set ..)).trans (answered ..)) (answered ..)
  case tclr | tfill => exact (set ..).trans (poolsKept_landed ..)
  case atomic => exact .ite (poolsKept_poisonStop u f) ((fetched.trans (poolsKept_storeData ..)).trans (answered ..))

theorem poolsKept_serve (n key : Nat) (s : State) : PoolsKept s (s.serve key n) := by
  induction n generalizing s with
  | zero => exact .refl s
  | succ n ih =>
    unfold State.serve
    split
    · exact (poolsKept_performNow ..).trans (ih _)
    · exact .refl s

/-- Where no access waits, none is served. -/
theorem serve_idle {s : State} (h : ∀ f ∈ s.flights, f.waiting = none) (key n : Nat) : s.serve key n = s := by
  have hn : s.nextServed key = none := by
    unfold State.nextServed
    have hf : (s.flights.filter fun f => f.waiting.isSome && wordKey f.key == wordKey key && s.tagMet f) = [] := by
      rw [List.filter_eq_nil_iff]
      intro f hf
      simp [h f hf]
    rw [hf]
    rfl
  cases n with
  | zero => rfl
  | succ n =>
    unfold State.serve
    rw [hn]

end Sys2Proof.Machine
end

section
namespace Sys2Proof.Machine

/-! ## Blocks (R82, R420) -/

theorem block_setBlock (s : State) (stack pool index : Nat) (b : Block) : (s.setBlock stack pool index b).block stack pool index = b := by
  unfold State.block State.setBlock
  rw [stack_modStack, if_pos rfl]
  exact get_put_same _ _ _ _

theorem rinsedList_setBlock (s : State) (stack pool index : Nat) (b : Block) :
    (s.setBlock stack pool index b).rinsedList stack pool = s.rinsedList stack pool := by
  unfold State.rinsedList State.setBlock
  rw [stack_modStack, if_pos rfl]

theorem rinsedList_setRinsed (s : State) (stack pool : Nat) (l : List Nat) : (s.setRinsed stack pool l).rinsedList stack pool = l := by
  unfold State.rinsedList State.setRinsed
  rw [stack_modStack, if_pos rfl]
  exact get_put_same _ _ _ _

theorem block_setRinsed (s : State) (stack pool index : Nat) (l : List Nat) :
    (s.setRinsed stack pool l).block stack pool index = s.block stack pool index := by
  unfold State.block State.setRinsed
  rw [stack_modStack, if_pos rfl]

theorem PoolsKept.block {s t : State} (h : PoolsKept s t) (stack pool index : Nat) : t.block stack pool index = s.block stack pool index := by
  unfold State.block State.stack
  rw [h.hbm]

theorem PoolsKept.rinsedList {s t : State} (h : PoolsKept s t) (stack pool : Nat) : t.rinsedList stack pool = s.rinsedList stack pool := by
  unfold State.rinsedList State.stack
  rw [h.hbm]

theorem PoolsKept.reg {s t : State} (h : PoolsKept s t) (a : Nat) : t.reg a = s.reg a := by
  unfold State.reg
  rw [h.admin]

theorem poolsKept_rinseRange (s : State) (a n : Nat) : PoolsKept s (s.rinseRange a n) := by
  have hz (e p : List Nat) : PoolsKept s { s.zeroRange a n with empties := e, poison := p } := ⟨rfl, rfl⟩
  unfold State.rinseRange
  exact (hz _ _).trans (.foldl (fun u w => poolsKept_serve ..) _ _)

/-- Where no access waits, a rinse zeroes its range and fills its words. -/
theorem rinseRange_idle {s : State} (h : ∀ f ∈ s.flights, f.waiting = none) (a n : Nat) :
    ∃ e p, s.rinseRange a n = { s.zeroRange a n with empties := e, poison := p } := by
  have hs : ∀ (u : State) (ws : List Nat), (∀ f ∈ u.flights, f.waiting = none) → ws.foldl (fun s w => s.serve w s.flights.length) u = u := by
    intro u ws hu
    induction ws with
    | nil => rfl
    | cons w ws ih => rw [List.foldl_cons, serve_idle hu, ih]
  exact ⟨_, _, hs { s.zeroRange a n with
    empties := s.empties.filter fun w => !(decide (a ≤ w) && decide (w < a + n)),
    poison := s.poison.filter fun w => !(decide (a ≤ w) && decide (w < a + n)) } _ h⟩

/-- The memory of a rinsed range holds zero, and no other byte changes. -/
theorem memGet_rinseRange {s : State} (hm : memWf s.mem = true) (h : ∀ f ∈ s.flights, f.waiting = none) (a n k : Nat) :
    memGet (s.rinseRange a n).mem k = if a ≤ k ∧ k < a + n then 0 else memGet s.mem k := by
  obtain ⟨e, p, hr⟩ := rinseRange_idle h a n
  rw [hr]
  exact memGet_zeroRange s a n k hm

/-- A released block may be rinsed: the operations that it drains have completed. -/
def State.MayRinse (s : State) (stack pool index : Nat) : Prop :=
  let b := s.block stack pool index
  b.rinsing = true ∧ b.retired = false ∧ ∀ d ∈ b.drain, d.2.2.2 ≤ (match s.images.find? (fun (x : VfImage) => x.vf == d.1) with
    | some x => (x.cores.get d.2.1 {}).tl.get d.2.2.1 0
    | none => (s.core d.2.1).tl.get d.2.2.1 0).toNat

theorem mayRinse_iff (s : State) (stack pool index : Nat) :
    ((s.block stack pool index).rinsing = false ∨ (s.block stack pool index).retired = true ∨ s.drained (s.block stack pool index) = false) ↔
      ¬ s.MayRinse stack pool index := by
  have ht : ∀ vf core ctr, s.timelineOf vf core ctr = (match s.images.find? (fun (x : VfImage) => x.vf == vf) with
      | some x => (x.cores.get core {}).tl.get ctr 0
      | none => (s.core core).tl.get ctr 0).toNat := by
    intro vf core ctr
    unfold State.timelineOf State.timeline
    cases s.images.find? (fun (x : VfImage) => x.vf == vf) <;> rfl
  unfold State.MayRinse
  simp only [← ht]
  rw [show (∀ d ∈ (s.block stack pool index).drain, d.2.2.2 ≤ s.timelineOf d.1 d.2.1 d.2.2.1) ↔ s.drained (s.block stack pool index) = true by
    simp [State.drained]]
  cases (s.block stack pool index).rinsing <;> cases (s.block stack pool index).retired <;> simp

/-- The generation after the one of a block. -/
def Block.nextGen (b : Block) : Nat := if b.gen = 0xFFFF then 1 else b.gen + 1

theorem exec_blockRinse_waits {s : State} {stack pool index fails : Nat} (h : ¬ s.MayRinse stack pool index) :
    exec (.blockRinse stack pool index fails) s = .next s := if_pos ((mayRinse_iff ..).2 h)

/-- A block that holds zero joins its list. -/
theorem exec_blockRinse_rinsed {s : State} {stack pool index : Nat} (h : s.MayRinse stack pool index) :
    exec (.blockRinse stack pool index 0) s =
      .next (((s.rinseRange (s.blockAddr stack pool index) (s.blockSize stack pool)).setBlock stack pool index
          { s.block stack pool index with gen := (s.block stack pool index).nextGen, drain := [], rinsing := false }).setRinsed stack pool
        ((s.rinseRange (s.blockAddr stack pool index) (s.blockSize stack pool)).rinsedList stack pool ++ [index])) :=
  if_neg (mt (mayRinse_iff ..).1 (not_not.2 h))

theorem blockAddr_congr {s t : State} (h : PoolsKept s t) (stack pool index : Nat) : t.blockAddr stack pool index = s.blockAddr stack pool index := by
  simp only [State.blockAddr, State.blockSize, State.regBits, h.reg]

/-- A block that fails read-back retires, and the record says so. -/
theorem exec_blockRinse_retired {s : State} {stack pool index fails : Nat} (h : s.MayRinse stack pool index) (hf : fails ≠ 0) :
    exec (.blockRinse stack pool index fails) s =
      .next (((s.rinseRange (s.blockAddr stack pool index) (s.blockSize stack pool)).setBlock stack pool index
          { s.block stack pool index with gen := (s.block stack pool index).nextGen, drain := [], retired := true }).errorRecord
        (s.blockAddr stack pool index) 3 3 (s.block stack pool index).vf stack (handleWord (s.block stack pool index).nextGen stack pool index) 0) := by
  refine ((if_neg (mt (mayRinse_iff ..).1 (not_not.2 h))).trans (if_neg hf)).trans ?_
  rw [blockAddr_congr (poolsKept_rinseRange ..)]
  rfl

theorem rinsed_cases {s : State} {stack pool index : Nat} (h : s.MayRinse stack pool index) :
    ∃ t, exec (.blockRinse stack pool index 0) s = .next t ∧ (t.block stack pool index).gen = (s.block stack pool index).nextGen ∧
      (t.block stack pool index).retired = false ∧ t.rinsedList stack pool = s.rinsedList stack pool ++ [index] ∧
      (t.block stack pool index).rinsing = false ∧
      (memWf s.mem = true → (∀ f ∈ s.flights, f.waiting = none) →
        (∀ k, s.blockAddr stack pool index ≤ k → k < s.blockAddr stack pool index + s.blockSize stack pool → memGet t.mem k = 0) ∧
        (∀ k, k < s.blockAddr stack pool index ∨ s.blockAddr stack pool index + s.blockSize stack pool ≤ k → memGet t.mem k = memGet s.mem k)) := by
  have hret := h.2.1
  refine ⟨_, exec_blockRinse_rinsed h, ?_, ?_, ?_, ?_, fun hm hw => ⟨fun k h1 h2 => ?_, fun k hk => ?_⟩⟩
  · rw [block_setRinsed, block_setBlock]
  · rw [block_setRinsed, block_setBlock]
    exact hret
  · rw [rinsedList_setRinsed, (poolsKept_rinseRange ..).rinsedList]
  · rw [block_setRinsed, block_setBlock]
  · exact (memGet_rinseRange hm hw _ _ k).trans (if_pos ⟨h1, h2⟩)
  · exact (memGet_rinseRange hm hw _ _ k).trans (if_neg (by omega))

theorem retired_cases {s : State} {stack pool index fails : Nat} (h : s.MayRinse stack pool index) (hf : fails ≠ 0) :
    ∃ t, exec (.blockRinse stack pool index fails) s = .next t ∧ (t.block stack pool index).gen = (s.block stack pool index).nextGen ∧
      (t.block stack pool index).retired = true ∧ t.rinsedList stack pool = s.rinsedList stack pool ∧ (t.block stack pool index).rinsing = true ∧
      ((∀ f ∈ s.flights, f.waiting = none) → s.ErrFull → t.errDrops = s.errDrops + 1 ∧
        t.regBits (fleetBase + 0x18) 31 0 = s.regBits (fleetBase + 0x18) 31 0) ∧
      ((∀ f ∈ s.flights, f.waiting = none) → ¬ s.ErrFull → t.errDrops = s.errDrops ∧
        t.regBits (fleetBase + 0x18) 31 0 = (s.regBits (fleetBase + 0x18) 31 0 + 1) % 2 ^ 32 ∧
        (memWf s.mem = true → t.read64 s.errSlot = BitVec.ofNat 64 (s.blockAddr stack pool index) ∧
          t.read64 (s.errSlot + 8) = BitVec.ofNat 64 (3 + 16 * 3 + 256 * ((s.block stack pool index).vf % 32) + 65536 * (stack % 65536)) ∧
          t.read64 (s.errSlot + 16) = handleWord (s.block stack pool index).nextGen stack pool index ∧ t.read64 (s.errSlot + 24) = 0 ∧
          t.read64 (s.errSlot + 32) = BitVec.ofNat 64 s.ptp ∧
          t.read64 (s.errSlot + 40) = BitVec.ofNat 64 ((s.regBits (fleetBase + 0x18) 31 0 + 1) % 2 ^ 32) ∧
          t.read64 (s.errSlot + 48) = 0 ∧ t.read64 (s.errSlot + 56) = 0)) := by
  have hrin := h.1
  refine ⟨_, exec_blockRinse_retired h hf, ?_⟩
  have hkept := poolsKept_rinseRange s (s.blockAddr stack pool index) (s.blockSize stack pool)
  have hidle := fun hw => rinseRange_idle (s := s) hw (s.blockAddr stack pool index) (s.blockSize stack pool)
  generalize s.rinseRange (s.blockAddr stack pool index) (s.blockSize stack pool) = r at hkept hidle ⊢
  generalize hu : r.setBlock stack pool index
    { s.block stack pool index with gen := (s.block stack pool index).nextGen, drain := [], retired := true } = u
  have hblock : u.block stack pool index = _ := hu ▸ block_setBlock ..
  have hlist : u.rinsedList stack pool = s.rinsedList stack pool := by rw [← hu, rinsedList_setBlock, hkept.rinsedList]
  have hadmin : u.admin = s.admin := by rw [← hu]; exact hkept.admin
  have hreg : ∀ a, u.reg a = s.reg a := fun a => by unfold State.reg; rw [hadmin]
  have hrec := records_errorRecord u (s.blockAddr stack pool index) 3 3 (s.block stack pool index).vf stack 0
    (handleWord (s.block stack pool index).nextGen stack pool index)
  obtain ⟨m, a, d, hf⟩ := errorRecord_frame u (s.blockAddr stack pool index) 3 3 (s.block stack pool index).vf stack 0
    (handleWord (s.block stack pool index).nextGen stack pool index)
  rw [hf] at hrec ⊢
  obtain ⟨hdrop, hwritten⟩ := hrec
  have hfull : u.ErrFull ↔ s.ErrFull := by simp only [State.ErrFull, State.regBits, hreg]
  have hslot : u.errSlot = s.errSlot := by simp only [State.errSlot, State.regBits, hreg]
  have hbits : ∀ a h l, u.regBits a h l = s.regBits a h l := fun a h l => by simp only [State.regBits, hreg]
  have hsame : (∀ f ∈ s.flights, f.waiting = none) → u.errDrops = s.errDrops ∧ u.ptp = s.ptp ∧ (memWf s.mem = true → memWf u.mem = true) := by
    intro hw
    obtain ⟨e, p, hr⟩ := hidle hw
    rw [← hu, hr]
    exact ⟨rfl, rfl, memFilter_wf _ _⟩
  rw [hfull] at hdrop hwritten
  rw [hslot, hbits] at hwritten
  refine ⟨?_, ?_, hlist, ?_, fun hw hd => ?_, fun hw hd => ?_⟩
  · exact congrArg Block.gen hblock
  · exact congrArg Block.retired hblock
  · exact (congrArg Block.rinsing hblock).trans hrin
  · obtain ⟨-, hadm, hdr⟩ := hdrop hd
    refine ⟨hdr.trans (by rw [(hsame hw).1]), ?_⟩
    unfold State.regBits State.reg
    rw [hadm, hadmin]
  · obtain ⟨hdr, htail, -, hmem⟩ := hwritten hd
    obtain ⟨hsd, hsp, hsm⟩ := hsame hw
    refine ⟨hdr.trans hsd, htail, fun hm => ?_⟩
    obtain ⟨h0, h1, h2, h3, h4, h5, h6, h7, -⟩ := hmem (hsm hm)
    rw [hsp] at h4
    exact ⟨h0, h1, h2, h3, h4, h5, h6, h7⟩

/-! ## Pools and operand records (R408, R409) -/

theorem poolReg_ne (stack pool : Nat) {i j : Nat} (h : i ≠ j) : poolReg stack pool i ≠ poolReg stack pool j := by
  unfold poolReg
  omega

theorem reg_setRegBits_other (s : State) {a b : Nat} (hi lo v : Nat) (h : b ≠ a) : (s.setRegBits a hi lo v).reg b = s.reg b :=
  get_put_other _ _ _ _ _ h

/-- The bit that enables a pool leaves its place, its count and its block size. -/
theorem pool_setOn (s : State) (stack pool v : Nat) :
    (s.setRegBits (poolReg stack pool 0) 2 2 v).poolCount stack pool = s.poolCount stack pool ∧
    (s.setRegBits (poolReg stack pool 0) 2 2 v).blockSize stack pool = s.blockSize stack pool ∧
    ∀ i, (s.setRegBits (poolReg stack pool 0) 2 2 v).blockAddr stack pool i = s.blockAddr stack pool i := by
  have hsize : (s.setRegBits (poolReg stack pool 0) 2 2 v).blockSize stack pool = s.blockSize stack pool := by
    unfold State.blockSize
    rw [bits_setRegBits_other _ _ (by decide) (by decide) (by decide)]
  refine ⟨?_, hsize, fun i => ?_⟩
  · unfold State.poolCount State.regBits
    rw [reg_setRegBits_other _ _ _ _ (poolReg_ne stack pool (by decide))]
  · unfold State.blockAddr
    rw [hsize]
    unfold State.regBits
    rw [reg_setRegBits_other _ _ _ _ (poolReg_ne stack pool (by decide))]

theorem poolOn_setOn (s : State) (stack pool v : Nat) (hv : v < 2) :
    (s.setRegBits (poolReg stack pool 0) 2 2 v).poolOn stack pool = (v == 1) := by
  unfold State.poolOn
  rw [bits_setRegBits_same _ _ (by decide) (by decide), show v % 2 ^ (2 + 1 - 2) = v from Nat.mod_eq_of_lt hv]

theorem exec_pool_refused {s : State} {stack pool : Nat} (h : s.cleozRuns = false ∨ s.poolIdle stack pool = false ∨ 16 ≤ stack ∨ 16 ≤ pool) :
    exec (.poolEnable stack pool) s = .next s ∧ exec (.poolDisable stack pool) s = .next s := ⟨if_pos h, if_pos h⟩

/-- Without the blocks of a pool: its blocks are as at reset. -/
def Stack.without (t : Stack) (pool : Nat) : Stack := { t with blocks := t.blocks.filter fun p => !(decide (p.1 / 2 ^ 40 = pool)) }

theorem find?_filter_key {α : Type} (m : Map α) (p : Nat → Bool) (k : Nat) (h : p k = false) : Map.find? (m.filter fun e => p e.1) k = none := by
  induction m with
  | nil => rfl
  | cons e m ih =>
    obtain ⟨j, v⟩ := e
    rw [List.filter_cons]
    split
    next hj =>
      unfold Map.find?
      rw [if_neg, ih]
      rintro rfl
      rw [h] at hj
      cases hj
    next => exact ih

theorem block_without (t : Stack) (pool i : Nat) : (t.without pool).blocks.get (blockId pool (i % 2 ^ 40)) {} = {} := by
  have hk : blockId pool (i % 2 ^ 40) / 2 ^ 40 = pool := by
    unfold blockId
    omega
  unfold Stack.without Map.get
  dsimp only
  rw [find?_filter_key t.blocks (fun k => !(decide (k / 2 ^ 40 = pool))) _ (by rw [hk]; simp)]
  rfl

/-- The pool's range is zeroed, its blocks are as at reset, and they stand on the rinsed list by rising index. -/
theorem exec_poolEnable_eq {s : State} {stack pool : Nat} (h : ¬ (s.cleozRuns = false ∨ s.poolIdle stack pool = false ∨ 16 ≤ stack ∨ 16 ≤ pool)) :
    exec (.poolEnable stack pool) s = .next (let u := s.setRegBits (poolReg stack pool 0) 2 2 1
      let n := u.poolCount stack pool
      ((u.rinseRange (u.blockAddr stack pool 0) (n * u.blockSize stack pool)).modStack stack fun t => t.without pool).setRinsed stack pool
        (List.range n)) := if_neg h

theorem poolEnable_cases {s : State} {stack pool : Nat} (h : ¬ (s.cleozRuns = false ∨ s.poolIdle stack pool = false ∨ 16 ≤ stack ∨ 16 ≤ pool)) :
    ∃ t, exec (.poolEnable stack pool) s = .next t ∧ t.poolOn stack pool = true ∧ t.rinsedList stack pool = List.range (s.poolCount stack pool) ∧
      (∀ i, t.block stack pool (i % 2 ^ 40) = {}) ∧
      (memWf s.mem = true → (∀ f ∈ s.flights, f.waiting = none) → ∀ k, s.blockAddr stack pool 0 ≤ k →
        k < s.blockAddr stack pool 0 + s.poolCount stack pool * s.blockSize stack pool → memGet t.mem k = 0) := by
  obtain ⟨hcount, hsize, haddr⟩ := pool_setOn s stack pool 1
  have he := exec_poolEnable_eq h
  dsimp only at he
  rw [hcount, hsize, haddr] at he
  refine ⟨_, he, ?_, rinsedList_setRinsed .., fun i => ?_, fun hm hw k h1 h2 => ?_⟩
  · refine Eq.trans ?_ (poolOn_setOn s stack pool 1 (by decide))
    unfold State.poolOn State.regBits
    rw [← (poolsKept_rinseRange (s.setRegBits (poolReg stack pool 0) 2 2 1) (s.blockAddr stack pool 0) (s.poolCount stack pool * s.blockSize stack pool)).reg]
    rfl
  · rw [block_setRinsed]
    unfold State.block
    rw [stack_modStack, if_pos rfl]
    exact block_without _ pool i
  · exact (memGet_rinseRange (s := s.setRegBits (poolReg stack pool 0) 2 2 1) hm hw _ _ k).trans (if_pos ⟨h1, h2⟩)

theorem poolDisable_cases {s : State} {stack pool : Nat} (h : ¬ (s.cleozRuns = false ∨ s.poolIdle stack pool = false ∨ 16 ≤ stack ∨ 16 ≤ pool)) :
    ∃ t, exec (.poolDisable stack pool) s = .next t ∧ t.poolOn stack pool = false ∧ t.rinsedList stack pool = [] ∧ t.mem = s.mem :=
  ⟨_, if_neg h, poolOn_setOn s stack pool 0 (by decide), rinsedList_setRinsed .., rfl⟩

/-- The operand records that an invalidation leaves a core. -/
def CoreSt.keepRecords (c : CoreSt) (val : W64) : CoreSt :=
  if c.vfid = bitsOf val 4 0 then { c with orCache := c.orCache.filter fun r => !(bitsOf val 39 16 == 0xFFFFFF || r.1 == bitsOf val 39 16) } else c

theorem exec_operandRecordInvalidate_eq {s : State} {val : W64} (h : s.cleozRuns = true) :
    exec (.operandRecordInvalidate val) s = .next { s with cores := s.cores.map fun (p : Nat × CoreSt) => (p.1, p.2.keepRecords val) } := by
  refine (if_neg (by rw [h]; decide)).trans (congrArg (fun m => Host.Outcome.next { s with cores := m }) (List.map_congr_left fun p _ => ?_))
  unfold CoreSt.keepRecords
  split <;> rfl

theorem orCache_keepRecords (c : CoreSt) (val : W64) : (c.keepRecords val).orCache = if c.vfid = bitsOf val 4 0 then
    c.orCache.filter fun r => !(bitsOf val 39 16 == 0xFFFFFF || r.1 == bitsOf val 39 16) else c.orCache := by
  unfold CoreSt.keepRecords
  split <;> rfl

theorem operandRecordInvalidate_cases {s : State} {val : W64} (h : s.cleozRuns = true) :
    ∃ t, exec (.operandRecordInvalidate val) s = .next t ∧ { t with cores := s.cores } = s ∧
      ∀ k, (t.core k).orCache = if (s.core k).vfid = bitsOf val 4 0 then
        (s.core k).orCache.filter fun r => !(bitsOf val 39 16 == 0xFFFFFF || r.1 == bitsOf val 39 16) else (s.core k).orCache := by
  refine ⟨_, exec_operandRecordInvalidate_eq h, rfl, fun k => ?_⟩
  have hd : ({} : CoreSt).keepRecords val = {} := by
    unfold CoreSt.keepRecords
    split <;> rfl
  have hk := get_mapVals (fun c : CoreSt => c.keepRecords val) s.cores k {}
  rw [hd] at hk
  exact (congrArg CoreSt.orCache hk).trans (orCache_keepRecords ..)

end Sys2Proof.Machine

open Sys2Proof Sys2Proof.Machine

/-- Settles O48: each event by its precondition; a rinse through what it leaves of memory and pools. -/
theorem blockEvents : Obligations.BlockEvents := by
  unfold Obligations.BlockEvents
  intro s stack pool index fails val
  refine ⟨exec_blockRinse_waits, fun h _ => ?_, exec_pool_refused, fun h1 h2 h3 h4 => ?_, fun h => if_pos h, operandRecordInvalidate_cases⟩
  · by_cases hf : fails = 0
    · subst hf
      obtain ⟨t, ht, hgen, hret, hlist, hrin, hmem⟩ := rinsed_cases h
      exact ⟨t, ht, hgen, hret, fun _ => ⟨hlist, hrin, hmem⟩, fun hn => absurd rfl hn⟩
    · obtain ⟨t, ht, hgen, hret, hlist, hrin, hdrop, hrec⟩ := retired_cases h hf
      exact ⟨t, ht, hgen, hret.trans (bne_iff_ne.2 hf).symm, fun h0 => absurd h0 hf, fun _ => ⟨hlist, hrin, hdrop, hrec⟩⟩
  · have hno : ¬ (s.cleozRuns = false ∨ s.poolIdle stack pool = false ∨ 16 ≤ stack ∨ 16 ≤ pool) := by
      rw [h1, h2]
      simp
      omega
    exact ⟨poolEnable_cases hno, poolDisable_cases hno⟩
end

section
/-! O45 (R70, R73, R98, R247, R248, R353). The events of the vector pool. -/

namespace Sys2Proof.Machine

/-! ## VECTOR_COMMAND_START (R353) -/

/-- The pool of cluster `cl` may take the head of a core's vector queue. -/
def State.Fits (s : State) (cl k : Nat) : Prop :=
  (s.core k).vtook ≠ some s.cycle ∧ ∃ q rest, (s.core k).vqueue = q :: rest ∧
    s.lanesBusy cl + (if (s.ctx q.ctx).lanes = 0 then 32 else (s.ctx q.ctx).lanes) ≤ 512 ∧ (∀ r ∈ (s.core k).vrunning, r.ctx ≠ q.ctx) ∧
    ((∃ d f l a, q.op = .load d f l a ∨ q.op = .store d f l a) → ¬ s.OwedBy q.ctx q.after)

theorem isMem_iff (op : VOp) : op.isMem = true ↔ ∃ d f l a, op = .load d f l a ∨ op = .store d f l a := by
  cases op <;> simp [VOp.isMem]

theorem vready_iff (s : State) (k : Nat) : s.vready k = true ↔ s.Fits (clusterOf k) k := by
  unfold State.vready State.Fits
  cases hq : (s.core k).vqueue with
  | nil => simp [hq]
  | cons q rest =>
    have hm := isMem_iff q.op
    have hu := unacked_iff s q.ctx q.after
    simp only [hq, Bool.and_eq_true, bne_iff_ne, Bool.not_eq_true', List.any_eq_false, beq_iff_eq, Ctx.laneCount, and_assoc]
    constructor
    · rintro ⟨h1, h2, h3, h4⟩
      refine ⟨h1, q, rest, rfl, of_decide_eq_true h2, h3, fun hop ho => ?_⟩
      rw [hm.2 hop, hu.2 ho] at h4
      cases h4
    · rintro ⟨h1, q', rest', he, h2, h3, h4⟩
      cases he
      refine ⟨h1, decide_eq_true h2, h3, ?_⟩
      cases hop : q.op.isMem with
      | false => rfl
      | true => exact Bool.eq_false_iff.2 fun ho => h4 (hm.1 hop) (hu.1 ho)

/-- The cores of a cluster in the turn that begins behind the core served last. -/
def State.turn (s : State) (core i : Nat) : Nat := core - core % 8 + ((s.cluster (clusterOf core)).vlast + 1 + i) % 8

theorem coresOf_turn (s : State) (core i : Nat) :
    (coresOf (clusterOf core)).getD (((s.cluster (clusterOf core)).vlast + 1 + i) % 8) 0 = s.turn core i := by
  rw [coresOf_get _ _ (Nat.mod_lt _ (by decide))]
  unfold State.turn clusterOf
  omega

theorem clusterOf_turn (s : State) (core i : Nat) : clusterOf (s.turn core i) = clusterOf core := by
  unfold State.turn
  generalize ((s.cluster (clusterOf core)).vlast + 1 + i) = n
  unfold clusterOf
  omega

theorem exists_turn (s : State) (core : Nat) : ∃ i, i < 8 ∧ s.turn core i = core := by
  refine ⟨(core % 8 + 8 - ((s.cluster (clusterOf core)).vlast + 1) % 8) % 8, Nat.mod_lt _ (by decide), ?_⟩
  unfold State.turn
  omega

theorem turn_inj {s : State} {core i j : Nat} (hi : i < 8) (hj : j < 8) (h : s.turn core i = s.turn core j) : i = j := by
  unfold State.turn at h
  omega

/-- The first of the eight cores in turn that may be served. -/
theorem find?_range_map {α : Type} (f : Nat → α) (p : α → Bool) (n i : Nat) (hi : i < n) (hinj : ∀ j < n, f j = f i → j = i) :
    ((List.range n).map f).find? p = some (f i) ↔ p (f i) = true ∧ ∀ j < i, p (f j) = false := by
  rw [List.find?_eq_some_iff_getElem]
  simp only [List.length_map, List.length_range, List.getElem_map, List.getElem_range, Bool.not_eq_true']
  constructor
  · rintro ⟨hp, j, hj, he, hb⟩
    obtain rfl := hinj j hj he
    exact ⟨hp, hb⟩
  · rintro ⟨hp, hb⟩
    exact ⟨hp, i, hi, rfl, hb⟩

theorem poolNext_iff (s : State) (core : Nat) : s.poolNext (clusterOf core) = some core ↔
    s.Fits (clusterOf core) core ∧ ∀ i < 8, s.turn core i = core → ∀ j < i, ¬ s.Fits (clusterOf core) (s.turn core j) := by
  obtain ⟨i, hi, hc⟩ := exists_turn s core
  have hfit : ∀ j, s.vready (s.turn core j) = false ↔ ¬ s.Fits (clusterOf core) (s.turn core j) := fun j => by
    rw [← Bool.not_eq_true, vready_iff, clusterOf_turn]
  have hnext : s.poolNext (clusterOf core) = some (s.turn core i) ↔ _ :=
    (by simp only [State.poolNext, coresOf_turn] : s.poolNext (clusterOf core) = some (s.turn core i) ↔
      ((List.range 8).map (s.turn core)).find? s.vready = some (s.turn core i)).trans
    (find?_range_map (s.turn core) s.vready 8 i hi fun j hj h => turn_inj hj hi h)
  rw [hc] at hnext
  rw [hnext, vready_iff]
  simp only [hfit]
  refine and_congr_right fun _ => ⟨fun h k hk hkc j hj => ?_, fun h => h i hi hc⟩
  obtain rfl := turn_inj hk hi (hkc.trans hc.symm)
  exact h j hj

theorem vectorCommandStart_empty {s : State} {core : Nat} (h : (s.core core).vqueue = []) : exec (.vectorCommandStart core) s = .next s := by
  show execVectorCommandStart core s = _
  simp only [execVectorCommandStart, h]

theorem vectorCommandStart_happens {s : State} {core : Nat} {q : VCmd} {rest : List VCmd} (h : (s.core core).vqueue = q :: rest) :
    Happens s (.vectorCommandStart core)
      (s.Fits (clusterOf core) core ∧ ∀ i < 8, s.turn core i = core → ∀ j < i, ¬ s.Fits (clusterOf core) (s.turn core j))
      ((s.modCore core fun c => { c with vqueue := rest, vrunning := c.vrunning ++ [{ q with began := s.cycle }], vtook := some s.cycle }).modCluster
        (clusterOf core) fun c => { c with vlast := core % 8 }) := by
  have he : exec (.vectorCommandStart core) s = execVectorCommandStart core s := rfl
  simp only [execVectorCommandStart, h] at he
  exact ⟨fun hc => he.trans (if_pos ((poolNext_iff s core).2 hc)), fun hc => he.trans (if_neg (mt (poolNext_iff s core).1 hc))⟩

/-! ## VECTOR_COMMAND_DONE (R70, R73, R248) -/

/-- A word of another module to which no port leads. -/
def State.Away (s : State) (k : Nat) : Prop := isRemoteKey k = true ∧ s.routeTo (keyDev k) = none

/-- A load waits for a bank or a route, or a store for a route. -/
def State.PoolWaits (s : State) (q : VCmd) : Prop :=
  (∃ d f l a, q.op = .load d f l a ∧ ∃ e ∈ l, q.got.find? e.1 = none ∧ (s.bankBusy e.2.1 = true ∨ s.Away e.2.1)) ∨
    ∃ d f l a, q.op = .store d f l a ∧ ∃ e ∈ l, s.Away e.2.1

/-- The elements that a load may read meanwhile: of the weight store, in a bank that is not under refresh. -/
def State.freeElt (s : State) (q : VCmd) (e : Nat × Nat × Bool) : Bool :=
  (q.got.find? e.1).isNone && !(s.bankBusy e.2.1) && decide (weightBase ≤ e.2.1) && decide (e.2.1 < weightBase + 0x400000000)

theorem routed_false_iff (s : State) (l : List (Nat × Nat × Bool)) :
    s.routed (l.map fun e => (e.2.1, 1)) = false ↔ ∃ e ∈ l, s.Away e.2.1 := by
  simp [State.routed, State.Away]

theorem vloadWaits_load {s : State} {q : VCmd} {d f l a} (h : q.op = .load d f l a) : s.vloadWaits q = true ↔
    ∃ e ∈ l, q.got.find? e.1 = none ∧ (s.bankBusy e.2.1 = true ∨ s.Away e.2.1) := by
  have hu : q.unread = l.filter fun e => (q.got.find? e.1).isNone := by simp only [VCmd.unread, h]
  have hr : s.vrouted q = s.routed (q.unread.map fun e => (e.2.1, 1)) := by simp only [State.vrouted, h]
  unfold State.vloadWaits
  rw [Bool.or_eq_true, hr, Bool.not_eq_true', routed_false_iff, hu, List.any_eq_true]
  simp only [List.mem_filter, Option.isNone_iff_eq_none]
  constructor
  · rintro (⟨e, ⟨he, hn⟩, hb⟩ | ⟨e, ⟨he, hn⟩, hb⟩)
    · exact ⟨e, he, hn, .inl hb⟩
    · exact ⟨e, he, hn, .inr hb⟩
  · rintro ⟨e, he, hn, hb | hb⟩
    · exact .inl ⟨e, ⟨he, hn⟩, hb⟩
    · exact .inr ⟨e, ⟨he, hn⟩, hb⟩

theorem vloadWaits_store {s : State} {q : VCmd} {d f l a} (h : q.op = .store d f l a) : s.vloadWaits q = true ↔ ∃ e ∈ l, s.Away e.2.1 := by
  have hu : q.unread = [] := by simp only [VCmd.unread, h]
  have hr : s.vrouted q = s.routed (l.map fun e => (e.2.1, 1)) := by simp only [State.vrouted, h]
  unfold State.vloadWaits
  rw [hu, hr, Bool.or_eq_true, Bool.not_eq_true', routed_false_iff]
  simp

theorem vloadWaits_iff (s : State) (q : VCmd) : s.vloadWaits q = true ↔ s.PoolWaits q := by
  cases hop : q.op with
  | load d f l a =>
    rw [vloadWaits_load hop]
    simp [State.PoolWaits, hop]
  | store d f l a =>
    rw [vloadWaits_store hop]
    simp [State.PoolWaits, hop]
  | _ => simp [State.PoolWaits, hop, State.vloadWaits, VCmd.unread, State.vrouted]

theorem vreadable_load {s : State} {q : VCmd} {d f l a} (h : q.op = .load d f l a) : s.vreadable q = l.filter (s.freeElt q) := by
  have hu : q.unread = l.filter fun e => (q.got.find? e.1).isNone := by simp only [VCmd.unread, h]
  unfold State.vreadable
  rw [hu, List.filter_filter]
  refine List.filter_congr fun e _ => ?_
  unfold State.freeElt
  by_cases hk : InWeight e.2.1
  · obtain ⟨h1, h2⟩ := hk
    rw [placeOf_weight ⟨h1, h2⟩, decide_eq_true (show weightBase ≤ e.2.1 from h1), decide_eq_true (show e.2.1 < weightBase + 0x400000000 from h2)]
    simp only [Bool.and_true]
    exact Bool.and_comm _ _
  · have hout : (decide (weightBase ≤ e.2.1) && decide (e.2.1 < weightBase + 0x400000000)) = false := by
      rw [← Bool.decide_and]
      exact decide_eq_false hk
    rw [Bool.and_assoc ((q.got.find? e.1).isNone && !(s.bankBusy e.2.1)), hout, Bool.and_false]
    split
    next d o hp => exact absurd hp (placeOf_ne_weight hk d o)
    next => rw [Bool.and_false, Bool.false_and]

theorem vreadable_store {s : State} {q : VCmd} {d f l a} (h : q.op = .store d f l a) : s.vreadable q = [] := by
  simp only [State.vreadable, VCmd.unread, h, List.filter_nil]

/-- A load that has read some elements ahead. -/
def State.readAhead (s : State) (q : VCmd) (f : Nat) (l : List (Nat × Nat × Bool)) : VCmd :=
  { q with got := l.foldl (fun m e => m.put e.1 (s.read e.2.1 (max 1 (fmtWidth f / 8)), s.isPoisoned e.2.1)) q.got }

/-- What the pool writes of an element command is the context's. -/
theorem performVector_elem {s : State} {q : VCmd} {f : VFun} {d a b e fmt : Nat} (hop : q.op = .elem f d a b e fmt) :
    s.performVector q = s.setCtx q.ctx (performV (s.ctx q.ctx) q).1 := by
  have hn : (performV (s.ctx q.ctx) q).2 = none := by
    unfold performV
    simp only [hop]
    split <;> rfl
  unfold State.performVector
  simp only [hop, hn]

theorem performVector_answers {s : State} {q : VCmd} {k : Nat} {v : W64} (hk : q.op.dst? = some k) (hv : (performV (s.ctx q.ctx) q).2 = some v) :
    s.performVector q = (s.setCtx q.ctx (performV (s.ctx q.ctx) q).1).modCtx q.ctx fun c => c.setAt k v := by
  cases hop : q.op with
  | mpop | mfirst | extr | red =>
    rw [hop] at hk
    cases hk
    unfold State.performVector
    simp only [hop, hv, VOp.dst?]
  | claim | reneg =>
    unfold performV at hv
    simp only [hop, reduceCtorEq] at hv
  | _ =>
    rw [hop] at hk
    cases hk

section
variable {s : State} {core slot : Nat} {q : VCmd}
variable (hq : (s.core core).vrunning.find? (fun q => q.ctx == ctxId core slot) = some q)
include hq

theorem exec_vectorCommandDone_eq : exec (.vectorCommandDone core slot) s = if s.vdone q = false then .next s
    else if s.vloadWaits q then .next (s.modCore core fun c => { c with vrunning := c.vrunning.replace q (s.vreadOthers q) })
    else .next ((s.performVector q).modCore core fun c => { c with vrunning := c.vrunning.erase q }).withdrawNotices := by
  show execVectorCommandDone core slot s = _
  simp only [execVectorCommandDone, hq]

theorem vectorCommandDone_early (h : s.cycle ≤ q.began) : exec (.vectorCommandDone core slot) s = .next s := by
  refine (exec_vectorCommandDone_eq hq).trans (if_pos ?_)
  rw [State.vdone, decide_eq_false (Nat.not_lt.2 h), Bool.false_and]

/-- A command that waits and has nothing to read meanwhile stays. -/
theorem vectorCommandDone_stays (hw : s.PoolWaits q) (he : s.vreadable q = []) : exec (.vectorCommandDone core slot) s = .next s := by
  refine (exec_vectorCommandDone_eq hq).trans (if_pos ?_)
  rw [State.vdone, (vloadWaits_iff s q).2 hw, he]
  simp

theorem vectorCommandDone_reads {d f l a} (hop : q.op = .load d f l a) (hb : q.began < s.cycle) (hw : s.PoolWaits q) (he : l.filter (s.freeElt q) ≠ []) :
    exec (.vectorCommandDone core slot) s =
      .next (s.modCore core fun c => { c with vrunning := c.vrunning.replace q (s.readAhead q f (l.filter (s.freeElt q))) }) := by
  have hd : s.vdone q = true := by
    rw [State.vdone, decide_eq_true hb, vreadable_load hop]
    simpa using Or.inr he
  have ho : s.vreadOthers q = s.readAhead q f (l.filter (s.freeElt q)) := by
    unfold State.vreadOthers State.readAhead
    rw [vreadable_load hop]
    simp only [hop]
  rw [exec_vectorCommandDone_eq hq, if_neg (by rw [hd]; decide), if_pos ((vloadWaits_iff s q).2 hw), ho]

theorem vectorCommandDone_performs (hb : q.began < s.cycle) (hw : ¬ s.PoolWaits q) : exec (.vectorCommandDone core slot) s =
    .next ((s.performVector q).modCore core fun c => { c with vrunning := c.vrunning.erase q }).withdrawNotices := by
  have hv : s.vloadWaits q = false := by rw [← Bool.not_eq_true, vloadWaits_iff]; exact hw
  have hd : s.vdone q = true := by
    rw [State.vdone, decide_eq_true hb, hv]
    rfl
  rw [exec_vectorCommandDone_eq hq, if_neg (by rw [hd]; decide), if_neg (by rw [hv]; decide)]

end


/-- A command that is done has its effect: an element command in its context's vector registers, a scalar result in its register. -/
theorem vectorCommandDone_effect {s : State} {core slot : Nat} {q : VCmd}
    (hq : (s.core core).vrunning.find? (fun q => q.ctx == ctxId core slot) = some q) (hb : q.began < s.cycle) (hw : ¬ s.PoolWaits q) :
    ∃ t, exec (.vectorCommandDone core slot) s = .next t ∧
      (t.core core).vrunning = ((s.performVector q).core core).vrunning.erase q ∧ t.ctxs = (s.performVector q).ctxs ∧ t.mem = (s.performVector q).mem ∧
      (∀ f, ∀ d a b e fmt, q.op = .elem f d a b e fmt →
        t.ctx q.ctx = (performV (s.ctx q.ctx) q).1 ∧ (∀ id, id ≠ q.ctx → t.ctx id = s.ctx id) ∧ t.mem = s.mem) ∧
      (∀ k v, q.op.dst? = some k → (performV (s.ctx q.ctx) q).2 = some v → k ≠ 0 → (t.ctx q.ctx).regAt k = v ∧ t.mem = s.mem) := by
  refine ⟨_, vectorCommandDone_performs hq hb hw, ?_⟩
  generalize ht : ((s.performVector q).modCore core fun c => { c with vrunning := c.vrunning.erase q }).withdrawNotices = t
  have hctxs : t.ctxs = (s.performVector q).ctxs := by rw [← ht]; rfl
  have hmem : t.mem = (s.performVector q).mem := by rw [← ht]; rfl
  have hctx : ∀ id, t.ctx id = (s.performVector q).ctx id := fun id => by unfold State.ctx; rw [hctxs]
  refine ⟨?_, hctxs, hmem, fun f d a b e fmt hop => ⟨?_, fun id hid => ?_, ?_⟩, fun k v hk hv h0 => ⟨?_, ?_⟩⟩
  · have hc : t.core core = ((s.performVector q).modCore core fun c => { c with vrunning := c.vrunning.erase q }).core core := by rw [← ht]; rfl
    rw [hc, core_modCore, if_pos rfl]
  · rw [hctx, performVector_elem hop, ctx_setCtx_same]
  · rw [hctx, performVector_elem hop, ctx_setCtx, if_neg hid]
  · rw [hmem, performVector_elem hop]
    rfl
  · rw [hctx, performVector_answers hk hv, ctx_modCtx, if_pos rfl, regAt_setAt, if_pos ⟨rfl, h0⟩]
  · rw [hmem, performVector_answers hk hv]
    rfl

end Sys2Proof.Machine

open Sys2Proof Sys2Proof.Machine

/-- Settles O45: the pool takes a head exactly where `poolNext` names its core, and a command is done where it neither is new nor waits. -/
theorem vectorPoolEvents : Obligations.VectorPoolEvents := by
  unfold Obligations.VectorPoolEvents
  intro s core slot hcore
  have hid : (if slot ≤ 10 then core + 4096 * slot else 45056) = ctxId core slot := by
    unfold ctxId
    simp [hcore]
  dsimp only
  rw [hid]
  refine ⟨vectorCommandStart_empty, fun q rest => vectorCommandStart_happens, fun hn => ?_, fun q hq => ⟨vectorCommandDone_early hq,
    fun d f l a _ hop hw he => vectorCommandDone_stays hq hw ((vreadable_load hop).trans he),
    fun d f l a hb hop hw he => vectorCommandDone_reads hq hop hb hw he,
    fun d f l a hop hw => vectorCommandDone_stays hq hw (vreadable_store hop), vectorCommandDone_effect hq⟩⟩
  show execVectorCommandDone core slot s = _
  simp only [execVectorCommandDone, hn]
end

section
/-! O39 (R82, R84, R85, R312, R316, R318, R319, R320). Block commands and position translation buffers. -/

namespace Sys2Proof.Machine

/-! ## Commands of the block engine (R312, R316) -/

/-- Commands and requests that hold a place in the block engine's queue. -/
def State.blkWaiting (s : State) : Nat :=
  ((s.core s.myCore).queues.get 7 []).length + ((s.requests s.myCore).filter fun r => !(s.requestFree s.myCore r.1 r.2)).length

theorem blkCommand_full {s : State} {o : Op} {srcs : List R6} {d : R6} {op : State → EngOp} (ho : s.Open srcs [d]) (h : 2 ≤ s.blkWaiting) :
    blkCommand o srcs d op s = .next (s.hold (.engine 7)) := by
  obtain ⟨⟨ha, -⟩, hq⟩ := ho
  unfold blkCommand
  rw [hq, if_neg Bool.false_ne_true]
  exact if_pos ⟨ha, decide_eq_false (Nat.not_lt.2 h)⟩

theorem blkCommand_room {s : State} {o : Op} {srcs : List R6} {d : R6} {op : State → EngOp} (ho : s.Open srcs [d]) (h : ¬ 2 ≤ s.blkWaiting) :
    blkCommand o srcs d op s = .next (s.sendEng o 7 (some d) 0 (op s) true false) := by
  obtain ⟨hc, hq⟩ := ho
  unfold blkCommand
  rw [hq, if_neg Bool.false_ne_true]
  refine (if_neg ?_).trans (issue_clear s srcs [d] _ hc)
  rintro ⟨-, hr⟩
  exact h (Nat.not_lt.1 (of_decide_eq_false hr))

/-- A block command waits for a place in the queue of the block engine, and for its acceptance. -/
theorem blkCommand_cases {s : State} {i : Instr} {o : Op} {srcs : List R6} {d : R6} {op : State → EngOp} (hi : exec i s = blkCommand o srcs d op s)
    (ho : s.Open srcs [d]) : (2 ≤ s.blkWaiting → ∃ t, exec i s = .next t ∧ Waits s t (.engine 7)) ∧
      (¬ 2 ≤ s.blkWaiting → Commands s s i 7 (some d) 0 (op s) true false o.len o.st) := by
  refine ⟨fun h => ⟨_, hi.trans (blkCommand_full ho h), waits_hold s _⟩, fun h => ⟨_, hi.trans (blkCommand_room ho h), ?_⟩⟩
  refine sendEng_room s o 7 (some d) 0 (op s) true false ?_
  unfold State.blkWaiting at h
  omega

/-! ## What the block engine does with a command (R82, R312, R316) -/

section
variable {s : State} {q : EngCmd} {w n : W64}

theorem blkCheck_bfree (hq : q.op = .bfree w) : (∀ f, s.handleFault q.vf w = some f → blkCheck q s = .error f) ∧
    (s.handleFault q.vf w = none → blkCheck q s =
      if (s.block (handleOf w).stack (handleOf w).pool (handleOf w).index).loose = 0 then .error (0x05, w) else .ok (s.dropRef true w)) := by
  refine ⟨fun f hf => ?_, fun hf => ?_⟩
  · simp only [blkCheck, hq, hf]
  · simp only [blkCheck, hq, hf]

theorem blkCheck_unknown (hq : q.op = .btrunc w n ∨ q.op = .bseqdrop w) (h : s.seq? q.vf (w.toNat % 2 ^ 24) = none) :
    blkCheck q s = .error (0x05, w) := by
  rcases hq with hq | hq
  · simp only [blkCheck, hq, h]
  · simp only [blkCheck, hq, h]

theorem blkCheck_btrunc {e : Seq} (hq : q.op = .btrunc w n) (h : s.seq? q.vf (w.toNat % 2 ^ 24) = some e) :
    blkCheck q s = .ok (if e.entries.length ≤ n.toNat then s else s.cutSeq e n.toNat) := by
  simp only [blkCheck, hq, h]

theorem blkCheck_bseqdrop {e : Seq} (hq : q.op = .bseqdrop w) (h : s.seq? q.vf (w.toNat % 2 ^ 24) = some e) :
    blkCheck q s = .ok ((s.cutSeq e 0).dropSeq e.vf e.num) := by
  simp only [blkCheck, hq, h]

end

/-- A block whose last reference goes is released. -/
theorem dropRef_eq (s : State) (loose : Bool) (w : W64) :
    let h := handleOf w
    let k := s.block h.stack h.pool h.index
    let left : Block := if loose then { k with loose := k.loose - 1 } else { k with table_ := k.table_ - 1 }
    let u := s.setBlock h.stack h.pool h.index left
    let v := u.setCharged h.stack left.vf h.pool (u.charged h.stack left.vf h.pool - 1)
    s.dropRef loose w = if left.table_ + left.loose ≠ 0 then u
      else v.setBlock h.stack h.pool h.index { left with rinsing := true, drain := v.touching h.stack h.pool h.index } := by
  dsimp only
  unfold State.dropRef
  dsimp only
  generalize hl : (if loose then _ else _ : Block) = left
  unfold Block.refs
  by_cases hz : left.table_ + left.loose = 0
  · rw [if_pos hz, if_neg (not_not.2 hz)]
    unfold State.release
    dsimp only
    rw [block_setBlock]
  · rw [if_neg hz, if_pos hz]

/-! ## Position translation buffers (R84, R318 to R320) -/

theorem ptx_cases {s : State} {i : Instr} {o : Op} {d a b : R6} (hi : exec i s = ptxOp o d a b s) (hc : s.Clear [a, b] [d]) :
    let seq := (s.rd a).toNat % 2 ^ 24
    let blk := (s.rd b).toNat % 2 ^ 20
    let hit (e : PtEntry) : Bool := e.isFor (s.vfOf s.cur) seq blk
    ((s.core s.myCore).ptb.find? hit = none → exec i s = .next (s.trap 0x0A (BitVec.ofNat 64 (seq * 2 ^ 24 + blk)))) ∧
    (∀ e, (s.core s.myCore).ptb.find? hit = some e → ∃ t, exec i s = .next t ∧
      Writes (s.modCore s.myCore fun k => { k with ptb := e :: k.ptb.filter fun o => !(hit o) }) t d e.addr 2 o.len o.st) := by
  have he := hi.trans (issue_clear s _ _ _ hc)
  refine ⟨fun hn => he.trans ?_, fun e hs => ⟨_, he.trans ?_, writes_finish _ d e.addr 2 (by decide) o⟩⟩
  · simp only [hn]
  · simp only [hs]

theorem blockSizes_iff (n : Nat) : blockSizes.contains n = true ↔ n = 0x4000 ∨ n = 0x10000 ∨ n = 0x40000 ∨ n = 0x200000 := by
  simp [blockSizes]

/-- The entry that a PTFILL brings in. -/
def State.ptEntry (s : State) (d a b c : R6) : PtEntry :=
  { vf := s.vfOf s.cur, seq := (s.rd d).toNat % 2 ^ 24, blk := (s.rd a).toNat % 2 ^ 20, addr := s.rd b, size := (s.rd c).toNat }

theorem ptfill_cases {s : State} {i : Instr} {o : Op} {d a b c : R6} (hi : exec i s = ptfillOp o d a b c s) (hc : s.Clear [d, a, b, c] []) :
    let size := (s.rd c).toNat
    let entry := s.ptEntry d a b c
    (¬ (size = 0x4000 ∨ size = 0x10000 ∨ size = 0x40000 ∨ size = 0x200000) → exec i s = .next (s.trap 0x05 (s.rd c))) ∧
    (size = 0x4000 ∨ size = 0x10000 ∨ size = 0x40000 ∨ size = 0x200000 →
      ((s.rd b).toNat % size ≠ 0 → exec i s = .next (s.trap 0x03 (s.rd b))) ∧
      ((s.rd b).toNat % size = 0 → ∃ t, exec i s = .next t ∧ Passes (s.modCore s.myCore fun k =>
        { k with ptb := (entry :: k.ptb.filter fun o => !(o.vf == entry.vf && o.seq == entry.seq && o.blk == entry.blk)).take 64 }) t o.len o.st)) := by
  have he := hi.trans (issue_clear s _ _ _ hc)
  refine ⟨fun hs => he.trans (congrArg Host.Outcome.next (if_pos ?_)), fun hs => ⟨fun ha => he.trans (congrArg Host.Outcome.next ?_),
    fun ha => ⟨_, he.trans (congrArg Host.Outcome.next ?_), goes_finish _ o⟩⟩⟩
  · rw [Bool.not_eq_true', ← Bool.not_eq_true, blockSizes_iff]
    exact hs
  · have hin := (blockSizes_iff _).2 hs
    exact (if_neg (by rw [hin]; decide)).trans (if_pos ha)
  · have hin := (blockSizes_iff _).2 hs
    exact (if_neg (by rw [hin]; decide)).trans (if_neg (not_not.2 ha))

theorem ptinv_passes {s : State} {i : Instr} {o : Op} {a b : R6} (hi : exec i s = ptinvOp o a b s) (hc : s.Clear [a, b] []) :
    ∃ t, exec i s = .next t ∧ Passes (s.modCore s.myCore fun k => { k with ptb := k.ptb.filter fun e =>
      !(s.rd a == -1 || (e.vf == s.vfOf s.cur && e.seq == (s.rd a).toNat % 2 ^ 24 && (s.rd b == -1 || e.blk == (s.rd b).toNat % 2 ^ 20))) }) t o.len o.st :=
  ⟨_, hi.trans (issue_clear s _ _ _ hc), goes_finish _ o⟩

end Sys2Proof.Machine

open Sys2Proof Sys2Proof.Machine

/-- Settles O39: an instruction through `blkCommand` or its own cases, and a command through what `blkCheck` answers. -/
theorem blockCommands : Obligations.BlockCommands := by
  unfold Obligations.BlockCommands
  intro s d a b c st
  refine ⟨fun ho p hp => ?_, fun ho p hp => ?_, fun hc p hp => ?_, fun p hp => ?_, fun q hq => blkCheck_bfree hq,
    fun q hq => ⟨blkCheck_unknown hq, fun e he hq => blkCheck_btrunc hq he, fun e he hq => blkCheck_bseqdrop hq he⟩,
    fun loose => dropRef_eq s loose (s.rd a), fun seq n => rfl, fun hc p hp => ?_⟩
  · simp only [List.mem_cons, List.not_mem_nil, or_false] at hp
    rcases hp with rfl | rfl | rfl | rfl
    · exact blkCommand_cases (o := ⟨4, st⟩) (op := fun s => .bfree (s.rd a)) rfl ho
    · exact blkCommand_cases (o := ⟨12, st⟩) (op := fun s => .bfree (s.rd a)) rfl ho
    · exact blkCommand_cases (o := ⟨4, st⟩) (op := fun s => .bseqdrop (s.rd a)) rfl ho
    · exact blkCommand_cases (o := ⟨12, st⟩) (op := fun s => .bseqdrop (s.rd a)) rfl ho
  · simp only [List.mem_cons, List.not_mem_nil, or_false] at hp
    rcases hp with rfl | rfl
    · exact blkCommand_cases (o := ⟨4, st⟩) (op := fun s => .btrunc (s.rd a) (s.rd b)) rfl ho
    · exact blkCommand_cases (o := ⟨12, st⟩) (op := fun s => .btrunc (s.rd a) (s.rd b)) rfl ho
  · simp only [List.mem_cons, List.not_mem_nil, or_false] at hp
    rcases hp with rfl | rfl
    · exact ptx_cases (o := ⟨4, st⟩) rfl hc
    · exact ptx_cases (o := ⟨12, st⟩) rfl hc
  · simp only [List.mem_cons, List.not_mem_nil, or_false] at hp
    rcases hp with rfl | rfl
    · exact ptfill_cases (c := 0) (o := ⟨4, st⟩) rfl
    · exact ptfill_cases (c := c) (o := ⟨12, st⟩) rfl
  · simp only [List.mem_cons, List.not_mem_nil, or_false] at hp
    rcases hp with rfl | rfl
    · exact ptinv_passes (o := ⟨4, st⟩) rfl hc
    · exact ptinv_passes (o := ⟨12, st⟩) rfl hc
end

section
/-! O38 (R81, R83, R98, R312 to R315, R317). Requests to the block engine. -/

namespace Sys2Proof.Machine

/-! ## How a request issues (R312) -/

theorem regKey_inj {c : Ctx} {r q : R6} (h : c.regKey r = c.regKey q) : r = q := by
  unfold Ctx.regKey at h
  refine BitVec.eq_of_toNat_eq ?_
  have hr := r.isLt
  have hq := q.isLt
  cases hv : c.inView
  · simpa [hv] using h
  · simp only [hv, Bool.true_and, decide_eq_true_eq] at h
    split at h
    · split at h
      · omega
      · omega
    · split at h
      · omega
      · omega

/-- Two results (R317): the registers of the context alone change, and where both are one register it receives one of the two. -/
def TwoResults (s u : State) (i : Instr) (d e : R6) (v w : W64) (len : Nat) (st : St) : Prop :=
  ∃ t, exec i s = .next t ∧ OnlyMe { u with fresh := t.fresh } t ∧ (d ≠ e → t.fresh = u.fresh) ∧
    t.me.pc = u.me.pc + BitVec.ofNat 64 len ∧ t.me.wait = none ∧ t.me.nextIssue = u.cycle + 1 + st.toNat ∧
    (u.me.regKey d ≠ 0 → t.me.regAt (u.me.regKey d) = v ∨ d = e ∧ t.me.regAt (u.me.regKey d) = w) ∧
    (u.me.regKey e ≠ 0 → d ≠ e → t.me.regAt (u.me.regKey e) = w) ∧
    (∀ k, k = 0 ∨ k ≠ u.me.regKey d ∧ k ≠ u.me.regKey e → t.me.regAt k = u.me.regAt k)

/-- What a register holds behind a write and the end of its instruction. -/
theorem regAt_finish_wr (u : State) (d : R6) (v : W64) (o : Op) (k : Nat) :
    ((u.wr d v).finish o).me.regAt k = if k = u.me.regKey d ∧ u.me.regKey d ≠ 0 then v else u.me.regAt k := by
  rw [State.finish, me_modMe, State.wr, me_modMe]
  exact regAt_setAt u.me (u.me.regKey d) k v

theorem me_finish_wr (u : State) (d : R6) (v : W64) (o : Op) : ((u.wr d v).finish o).me.pc = u.me.pc + BitVec.ofNat 64 o.len ∧
    ((u.wr d v).finish o).me.wait = none ∧ ((u.wr d v).finish o).me.nextIssue = u.cycle + 1 + o.st.toNat := by
  rw [State.finish, me_modMe, State.wr, me_modMe]
  refine ⟨congrArg (· + BitVec.ofNat 64 o.len) ?_, rfl, rfl⟩
  unfold Ctx.setAt
  split <;> rfl

theorem regKey_wr (u : State) (e d : R6) (w : W64) : (u.wr e w).me.regKey d = u.me.regKey d := by
  rw [State.wr, me_modMe]
  unfold Ctx.setAt
  split <;> rfl

theorem twoResults_wr2 {s u : State} {i : Instr} {o : Op} {d e : R6} {v w : W64} (hi : exec i s = .next ((u.wr2 d v e w).finish o)) :
    TwoResults s u i d e v w o.len o.st := by
  refine ⟨_, hi, ?_⟩
  by_cases hde : d = e
  · subst hde
    have h2 : u.wr2 d v d w = ({ u with fresh := u.fresh + 1 } : State).wr d (if Config.freeNat u.fresh % 2 = 0 then v else w) := if_pos rfl
    rw [h2]
    obtain ⟨hpc, hwait, hnext⟩ :=
      me_finish_wr ({ u with fresh := u.fresh + 1 } : State) d (if Config.freeNat u.fresh % 2 = 0 then v else w) o
    have hreg := regAt_finish_wr ({ u with fresh := u.fresh + 1 } : State) d (if Config.freeNat u.fresh % 2 = 0 then v else w) o
    refine ⟨(onlyMe_modMe ..).trans (onlyMe_modMe ..), fun hn => absurd rfl hn, hpc, hwait, hnext, fun h0 => ?_, fun _ hn => absurd rfl hn,
      fun k hk => (hreg k).trans (if_neg ?_)⟩
    · have hk : _ = if Config.freeNat u.fresh % 2 = 0 then v else w := (hreg (u.me.regKey d)).trans (if_pos ⟨rfl, h0⟩)
      by_cases hf : Config.freeNat u.fresh % 2 = 0
      · exact .inl (hk.trans (if_pos hf))
      · exact .inr ⟨rfl, hk.trans (if_neg hf)⟩
    · rintro ⟨rfl, h0⟩
      rcases hk with hk | ⟨hk, -⟩
      · exact h0 hk
      · exact hk rfl
  · have h2 : u.wr2 d v e w = (u.wr e w).wr d v := if_neg hde
    rw [h2]
    obtain ⟨hpc, hwait, hnext⟩ := me_finish_wr (u.wr e w) d v o
    have hreg := regAt_finish_wr (u.wr e w) d v o
    have hreg' : ∀ k, (u.wr e w).me.regAt k = if k = u.me.regKey e ∧ u.me.regKey e ≠ 0 then w else u.me.regAt k := fun k => by
      rw [State.wr, me_modMe]
      exact regAt_setAt u.me (u.me.regKey e) k w
    simp only [regKey_wr, hreg'] at hreg
    refine ⟨((onlyMe_modMe ..).trans (onlyMe_modMe ..)).trans (onlyMe_modMe ..), fun _ => rfl, ?_, hwait, hnext, fun h0 => ?_, fun h0 _ => ?_, fun k hk => ?_⟩
    · rw [hpc, State.wr, me_modMe]
      unfold Ctx.setAt
      split <;> rfl
    · exact .inl ((hreg _).trans (if_pos ⟨rfl, h0⟩))
    · refine (hreg _).trans ((if_neg ?_).trans (if_pos ⟨rfl, h0⟩))
      rintro ⟨hk, -⟩
      exact hde (regKey_inj hk).symm
    · have hne : ∀ j, j ≠ 0 ∧ k = j → k ≠ 0 := fun j ⟨h0, hj⟩ => hj ▸ h0
      refine (hreg k).trans ((if_neg ?_).trans (if_neg ?_))
      · rintro ⟨rfl, h0⟩
        rcases hk with hk | ⟨hk, -⟩
        · exact h0 hk
        · exact hk rfl
      · rintro ⟨rfl, h0⟩
        rcases hk with hk | ⟨-, hk⟩
        · exact h0 hk
        · exact hk rfl

/-! ## BALLOC and BSEQNEW (R313, R314) -/

/-- An operation whose answer comes later is under way, and its context goes on. -/
theorem pends_askOp {s : State} {o : Op} {d e : R6} {op : PendOp} (hr : (s.pending op none o.st).isRelease = true) :
    Pends { s with nextId := s.nextId + 1 }
      ((({ s with nextId := s.nextId + 1 } : State).modMe fun c => { c with relMark := s.nextId + 1 }).pendOn o d op (some e)) d op o.len o.st (some e) := by
  refine ⟨(onlyMe_modMe ..).trans ((onlyMe_modMe ..).trans (onlyMe_modMe ..)), ?_⟩
  have hr' : (({ s with nextId := s.nextId + 1 } : State).pending op none o.st).isRelease = true := hr
  rw [hr', if_pos rfl]
  unfold State.pendOn State.finish
  simp only [me_modMe]
  rfl

section
variable {s : State} {i : Instr} {o : Op} {srcs : List R6} {d e : R6} {op : State → Nat → PendOp} {answer : State → Option (State × W64 × Option W64)}
variable (hi : exec i s = askOp o srcs d e op answer s) (ho : s.Open srcs [d, e])
include hi ho

theorem askOp_notTurn (hr : (s.pending (op s s.nextId) none o.st).isRelease = true) (h : ¬ s.requestTurn s.cur s.nextId = true) :
    ∃ t, exec i s = .next t ∧ Pends { s with nextId := s.nextId + 1 } t d (op s s.nextId) o.len o.st (some e) :=
  ⟨_, (hi.trans (issueAcc_open s _ _ _ ho)).trans (congrArg Host.Outcome.next (if_neg h)), pends_askOp hr⟩

theorem askOp_none (hr : (s.pending (op s s.nextId) none o.st).isRelease = true) (h : s.requestTurn s.cur s.nextId = true) (ha : answer s = none) :
    ∃ t, exec i s = .next t ∧ Pends { s with nextId := s.nextId + 1 } t d (op s s.nextId) o.len o.st (some e) := by
  refine ⟨_, (hi.trans (issueAcc_open s _ _ _ ho)).trans ?_, pends_askOp hr⟩
  simp only [h, ha, if_true]

theorem askOp_one (h : s.requestTurn s.cur s.nextId = true) {u : State} {v : W64} (ha : answer s = some (u, v, none)) :
    ∃ t, exec i s = .next t ∧ Writes u t d v 1 o.len o.st := by
  refine ⟨_, (hi.trans (issueAcc_open s _ _ _ ho)).trans ?_, writes_wr_finish u d v o⟩
  simp only [h, ha, if_true]

theorem askOp_two (h : s.requestTurn s.cur s.nextId = true) {u : State} {v w : W64} (ha : answer s = some (u, v, some w)) :
    TwoResults s u i d e v w o.len o.st := by
  refine twoResults_wr2 ((hi.trans (issueAcc_open s _ _ _ ho)).trans ?_)
  simp only [h, ha, if_true]

end

/-- The answers to a BALLOC: a status, a handle with its index, or none yet. -/
theorem allocAnswer_cases {s : State} {vf : Nat} {loose : Bool} {x : W64} {status : W64 → Prop} {later : Prop} {both : State → W64 → W64 → Prop}
    (hs : ∀ v, s.allocAnswer vf loose x = some (s, v, none) → status v) (hl : s.allocAnswer vf loose x = none → later)
    (hb : ∀ u h idx, s.allocAnswer vf loose x = some (u, h, some idx) → both u h idx) :
    (loose = true → (s.quotaLimit (bitsOf x 7 4) vf (bitsOf x 3 0) = 0 → status 4) ∧
      (s.quotaLimit (bitsOf x 7 4) vf (bitsOf x 3 0) ≠ 0 →
        (s.allocate vf true [(bitsOf x 7 4, bitsOf x 3 0)] = .quota → status 1) ∧
        (s.allocate vf true [(bitsOf x 7 4, bitsOf x 3 0)] = .wait → later) ∧
        (∀ u h, s.allocate vf true [(bitsOf x 7 4, bitsOf x 3 0)] = .got u h → both u h 0))) ∧
    (loose = false → (s.seq? vf (x.toNat % 2 ^ 24) = none → status 3) ∧
      (∀ q, s.seq? vf (x.toNat % 2 ^ 24) = some q → if 2 ^ 20 ≤ q.entries.length then status 2 else
        (s.allocate vf false (poolOrder (q.num % 16) q.pool) = .quota → status 1) ∧
        (s.allocate vf false (poolOrder (q.num % 16) q.pool) = .wait → later) ∧
        (∀ u h, s.allocate vf false (poolOrder (q.num % 16) q.pool) = .got u h →
          both (u.setSeq { q with entries := q.entries ++ [h] }) h (BitVec.ofNat 64 q.entries.length)))) := by
  refine ⟨?_, ?_⟩
  · rintro rfl
    refine ⟨fun h0 => hs _ ?_, fun h0 => ⟨fun ha => hs _ ?_, fun ha => hl ?_, fun u h ha => hb _ _ _ ?_⟩⟩
    · simp only [State.allocAnswer, if_true, h0]
    · simp only [State.allocAnswer, if_true, h0, if_false, ha]
    · simp only [State.allocAnswer, if_true, h0, if_false, ha]
    · simp only [State.allocAnswer, if_true, h0, if_false, ha]
  · rintro rfl
    refine ⟨fun h0 => hs _ ?_, fun q hq => ?_⟩
    · simp only [State.allocAnswer, Bool.false_eq_true, if_false, h0]
    · split
      next hn =>
        refine hs _ ?_
        simp only [State.allocAnswer, Bool.false_eq_true, if_false, hq, if_pos hn]
      next hn =>
        refine ⟨fun ha => hs _ ?_, fun ha => hl ?_, fun u h ha => hb _ _ _ ?_⟩
        · simp only [State.allocAnswer, Bool.false_eq_true, if_false, hq, if_neg hn, ha]
        · simp only [State.allocAnswer, Bool.false_eq_true, if_false, hq, if_neg hn, ha]
        · simp only [State.allocAnswer, Bool.false_eq_true, if_false, hq, if_neg hn, ha]

section
variable {s : State} {ctx : Nat} {p : Pend} {id : Nat} {x y : W64} {loose : Bool}

theorem answerBlock_alloc_waits (hp : p.op = .alloc loose x id) (h : s.requestTurn ctx id = false) : s.answerBlock ctx p = s := by
  simp only [State.answerBlock, hp, h, Bool.false_eq_true, if_false]

theorem answerBlock_alloc_none (hp : p.op = .alloc loose x id) (h : s.requestTurn ctx id = true) (ha : s.allocAnswer (s.vfOf ctx) loose x = none) :
    s.answerBlock ctx p = s := by
  simp only [State.answerBlock, hp, h, if_true, ha]

theorem answerBlock_alloc_some (hp : p.op = .alloc loose x id) (h : s.requestTurn ctx id = true) {u : State} {v : W64} {w : Option W64}
    (ha : s.allocAnswer (s.vfOf ctx) loose x = some (u, v, w)) : s.answerBlock ctx p = u.deliver2 ctx p v w := by
  simp only [State.answerBlock, hp, h, if_true, ha]

theorem answerBlock_seqNew_waits (hp : p.op = .seqNew x y id) (h : s.requestTurn ctx id = false) : s.answerBlock ctx p = s := by
  simp only [State.answerBlock, hp, h, Bool.false_eq_true, if_false]

theorem answerBlock_seqNew (hp : p.op = .seqNew x y id) (h : s.requestTurn ctx id = true) :
    s.answerBlock ctx p = (s.seqNewAnswer (s.vfOf ctx) x y).1.deliver ctx p (s.seqNewAnswer (s.vfOf ctx) x y).2 := by
  simp only [State.answerBlock, hp, h, if_true]

end

theorem seqNewAnswer_status {s : State} {vf : Nat} {x y : W64} (h : s.seqNewStatus vf (x.toNat % 2 ^ 24) (y.toNat % 16) ≠ 0) :
    s.seqNewAnswer vf x y = (s, BitVec.ofNat 64 (s.seqNewStatus vf (x.toNat % 2 ^ 24) (y.toNat % 16))) := by
  simp only [State.seqNewAnswer, if_neg h]

theorem seqNewAnswer_made {s : State} {vf : Nat} {x y : W64} (h : s.seqNewStatus vf (x.toNat % 2 ^ 24) (y.toNat % 16) = 0) :
    s.seqNewAnswer vf x y = (s.modStack (x.toNat % 2 ^ 24 % 16) fun k =>
      { k with seqs := k.seqs ++ [{ vf := vf, num := x.toNat % 2 ^ 24, pool := y.toNat % 16, entries := [] }] }, 0) := by
  simp only [State.seqNewAnswer, h, if_true]
  rfl

/-! ## What an allocation takes (R314) -/

section
variable {s : State} {vf : Nat} {l : Bool} {pools : List (Nat × Nat)}

/-- A pool whose quota has room. -/
def State.UnderQuota (s : State) (vf : Nat) (p : Nat × Nat) : Prop := s.charged p.1 vf p.2 < s.quotaLimit p.1 vf p.2

theorem allocate_quota (h : ∀ p ∈ pools, ¬ s.UnderQuota vf p) : s.allocate vf l pools = .quota := by
  refine if_pos (List.filter_eq_nil_iff.2 fun p hp => ?_)
  rw [decide_eq_true_eq]
  exact h p hp

/-- The head of a pool's rinsed list. -/
def State.headOf (s : State) (p : Nat × Nat) : Option (Nat × Nat × Nat × List Nat) :=
  match s.rinsedList p.1 p.2 with
  | i :: rest => some (p.1, p.2, i, rest)
  | [] => none

/-- The block that an allocation takes from the head of a list. -/
def State.takeBlock (s : State) (vf : Nat) (l : Bool) (t p i : Nat) (rest : List Nat) : State :=
  ((s.setRinsed t p rest).setCharged t vf p (s.charged t vf p + 1)).setBlock t p i
    { s.block t p i with table_ := if l then 0 else 1, loose := if l then 1 else 0, vf := vf, rinsing := false }

theorem allocate_eq (h : ∃ p ∈ pools, s.UnderQuota vf p) : s.allocate vf l pools =
    match (pools.filter fun p => decide (s.charged p.1 vf p.2 < s.quotaLimit p.1 vf p.2)).findSome? s.headOf with
    | none => .wait
    | some (t, p, i, rest) => .got (s.takeBlock vf l t p i rest) (handleWord (s.block t p i).gen t p i) := by
  refine if_neg fun hn => ?_
  obtain ⟨p, hp, hu⟩ := h
  exact List.filter_eq_nil_iff.1 hn p hp (decide_eq_true hu)

theorem headOf_none {p : Nat × Nat} (h : s.rinsedList p.1 p.2 = []) : s.headOf p = none := by
  simp only [State.headOf, h]

theorem allocate_wait (h : ∃ p ∈ pools, s.UnderQuota vf p) (he : ∀ p ∈ pools, s.UnderQuota vf p → s.rinsedList p.1 p.2 = []) :
    s.allocate vf l pools = .wait := by
  rw [allocate_eq h, List.findSome?_eq_none_iff.2 fun p hp => ?_]
  obtain ⟨hp, hu⟩ := List.mem_filter.1 hp
  have hu : s.charged p.1 vf p.2 < s.quotaLimit p.1 vf p.2 := of_decide_eq_true hu
  exact headOf_none (he p hp hu)

theorem allocate_got {before after : List (Nat × Nat)} {t p i : Nat} {rest : List Nat} (hp : pools = before ++ (t, p) :: after)
    (hu : s.UnderQuota vf (t, p)) (hl : s.rinsedList t p = i :: rest) (hb : ∀ r ∈ before, s.UnderQuota vf r → s.rinsedList r.1 r.2 = []) :
    s.allocate vf l pools = .got (s.takeBlock vf l t p i rest) (handleWord (s.block t p i).gen t p i) := by
  have hfind : (pools.filter fun p => decide (s.charged p.1 vf p.2 < s.quotaLimit p.1 vf p.2)).findSome? s.headOf = some (t, p, i, rest) := by
    rw [hp, List.filter_append, List.findSome?_append, List.findSome?_eq_none_iff.2 fun r hr => ?_,
      List.filter_cons_of_pos (p := fun p : Nat × Nat => decide (s.charged p.1 vf p.2 < s.quotaLimit p.1 vf p.2)) (decide_eq_true hu), List.findSome?_cons]
    · simp only [State.headOf, hl, Option.none_or]
    · obtain ⟨hr, hru⟩ := List.mem_filter.1 hr
      have hru : s.charged r.1 vf r.2 < s.quotaLimit r.1 vf r.2 := of_decide_eq_true hru
      exact headOf_none (hb r hr hru)
  rw [allocate_eq ⟨(t, p), by rw [hp]; simp, hu⟩, hfind]

theorem stack_takeBlock (s : State) (vf : Nat) (l : Bool) (t p i : Nat) (rest : List Nat) :
    (∀ r, r ≠ t → (s.takeBlock vf l t p i rest).stack r = s.stack r) ∧ (s.takeBlock vf l t p i rest).stack t = { s.stack t with
      rinsed := (s.stack t).rinsed.put p rest, charged := (s.stack t).charged.put (16 * vf + p) (s.charged t vf p + 1),
      blocks := (s.stack t).blocks.put (p * 2 ^ 40 + i)
        { s.block t p i with table_ := if l then 0 else 1, loose := if l then 1 else 0, vf := vf, rinsing := false } } := by
  unfold State.takeBlock State.setBlock State.setCharged State.setRinsed
  simp only [stack_modStack, if_true]
  refine ⟨fun r hr => ?_, rfl⟩
  simp only [if_neg hr]

end

theorem poolOrder_order (home pool : Nat) : ∃ die others, poolOrder home pool = (home :: die ++ others).map (fun t => (t, pool)) ∧
    die.Pairwise (· < ·) ∧ others.Pairwise (· < ·) ∧ (∀ t, t ∈ die ↔ t ≠ home ∧ t / 4 = home / 4) ∧ ∀ t, t ∈ others ↔ t < 16 ∧ t / 4 ≠ home / 4 := by
  refine ⟨((List.range 4).map (4 * (home / 4) + ·)).filter (· ≠ home), (List.range 16).filter fun t => t / 4 ≠ home / 4, rfl, ?_, ?_, fun t => ?_, fun t => ?_⟩
  · refine List.Pairwise.filter _ (List.pairwise_map.2 ((List.pairwise_lt_range).imp fun h => ?_))
    omega
  · exact List.Pairwise.filter _ List.pairwise_lt_range
  · simp only [List.mem_filter, List.mem_map, List.mem_range, decide_eq_true_eq]
    constructor
    · rintro ⟨⟨j, hj, rfl⟩, hn⟩
      exact ⟨hn, by omega⟩
    · rintro ⟨hn, hd⟩
      exact ⟨⟨t % 4, by omega, by omega⟩, hn⟩
  · simp

/-! ## What a handle meets, and the status of a new sequence (R312, R313) -/

theorem handleFault_cases (s : State) (vf : Nat) (w : W64) :
    let h := handleOf w
    let k := s.block h.stack h.pool h.index
    let names := s.poolOn h.stack h.pool = true ∧ h.index < s.poolCount h.stack h.pool
    (¬ names → s.handleFault vf w = some (0x05, w)) ∧
    (names → k.gen ≠ h.gen ∨ k.table_ + k.loose = 0 → s.handleFault vf w = some (0x0B, w)) ∧
    (names → k.gen = h.gen → k.table_ + k.loose ≠ 0 → s.handleFault vf w = if s.quotaLimit h.stack vf h.pool = 0 then some (0x05, w) else none) := by
  dsimp only
  generalize hh : handleOf w = h
  have hn : (!(s.poolOn h.stack h.pool) || decide (s.poolCount h.stack h.pool ≤ h.index)) = true ↔
      ¬ (s.poolOn h.stack h.pool = true ∧ h.index < s.poolCount h.stack h.pool) := by
    cases s.poolOn h.stack h.pool <;> simp
  unfold State.handleFault Block.refs
  simp only [hh]
  refine ⟨fun h0 => if_pos (hn.2 h0), fun h0 h1 => ?_, fun h0 h1 h2 => ?_⟩
  · rw [if_neg (mt hn.1 (not_not.2 h0)), if_pos h1]
  · rw [if_neg (mt hn.1 (not_not.2 h0)), if_neg (by rintro (h | h); exacts [h h1, h2 h])]

theorem handleOf_fields (w : W64) : (handleOf w).gen = w.toNat / 2 ^ 48 ∧ (handleOf w).stack = w.toNat / 2 ^ 44 % 16 ∧
    (handleOf w).pool = w.toNat / 2 ^ 40 % 16 ∧ (handleOf w).index = w.toNat % 2 ^ 40 := by
  have hw := w.isLt
  unfold handleOf bitsOf
  refine ⟨?_, rfl, rfl, ?_⟩
  · show w.toNat / 2 ^ 48 % 2 ^ 16 = _
    omega
  · show w.toNat / 2 ^ 0 % 2 ^ 40 = _
    rw [Nat.pow_zero, Nat.div_one]

theorem seqNewStatus_cases (s : State) (vf num pool : Nat) :
    let n := s.seqNewStatus vf num pool
    let t := num % 16
    let area := (s.reg (0xFF00200000000 + t * 0x10000 + 0x2208)).toNat / 2 ^ 16 % 2 ^ 24
    (area = 0 → n = 6) ∧ (area ≠ 0 → s.quotaLimit t vf pool = 0 → n = 4) ∧
    (area ≠ 0 → s.quotaLimit t vf pool ≠ 0 →
      ((∃ q ∈ (s.stack t).seqs, q.vf = vf ∧ q.num = num) → n = 5) ∧
      ((∀ q ∈ (s.stack t).seqs, q.vf = vf → q.num ≠ num) → n = if Config.seqCapacity area ≤ (s.stack t).seqs.length then 6 else 0)) := by
  have hseq : (s.seq? vf num).isSome = true ↔ ∃ q ∈ (s.stack (num % 16)).seqs, q.vf = vf ∧ q.num = num := by
    simp [State.seq?]
  have harea : s.regBits (blkBase (num % 16) + 0x2208) 39 16 = (s.reg (0xFF00200000000 + num % 16 * 0x10000 + 0x2208)).toNat / 2 ^ 16 % 2 ^ 24 := rfl
  dsimp only
  unfold State.seqNewStatus
  simp only [harea]
  refine ⟨fun h0 => if_pos h0, fun h0 h1 => (if_neg h0).trans (if_pos h1), fun h0 h1 => ⟨fun hq => ?_, fun hq => ?_⟩⟩
  · rw [if_neg h0, if_neg h1, if_pos (hseq.2 hq)]
  · rw [if_neg h0, if_neg h1, if_neg]
    intro hs
    obtain ⟨q, hm, hv, hn⟩ := hseq.1 hs
    exact hq q hm hv hn

/-! ## BSHARE and BQUERY (R315, R317) -/

/-- BSHARE and BQUERY wait for a zero store-acknowledge counter and behind what the block engine has not finished. -/
theorem blkRequest_cases {s : State} {i : Instr} {srcs dsts : List R6} {body : State → State} {goes : Prop}
    (hi : exec i s = blkRequest srcs dsts body s) (ho : s.Open srcs dsts) (hg : exec i s = .next (body s) → goes) :
    (s.acks s.cur ≠ 0 → ∃ t, exec i s = .next t ∧ Waits s t .acks) ∧
    (s.acks s.cur = 0 → s.engineIdle s.myCore 7 = false ∨ s.requestsGone s.myCore s.nextId = false → ∃ t, exec i s = .next t ∧ Waits s t (.engineEmpty 7)) ∧
    (s.acks s.cur = 0 → s.engineIdle s.myCore 7 = true → s.requestsGone s.myCore s.nextId = true → goes) := by
  have he := hi.trans (issueAcc_open s _ _ _ ho)
  refine ⟨fun ha => ⟨_, he.trans (congrArg Host.Outcome.next (if_pos ha)), waits_hold s _⟩,
    fun ha hb => ⟨_, he.trans (congrArg Host.Outcome.next ((if_neg (not_not.2 ha)).trans (if_pos ?_))), waits_hold s _⟩,
    fun ha h1 h2 => hg (he.trans (congrArg Host.Outcome.next ((if_neg (not_not.2 ha)).trans (if_neg ?_))))⟩
  · rcases hb with hb | hb
    · rw [hb]
      rfl
    · rw [hb, Bool.and_false]
      rfl
  · rw [h1, h2]
    decide

end Sys2Proof.Machine
end

section
namespace Sys2Proof.Machine

/-- BSHARE with a sound handle. -/
theorem bshare_cases {s : State} {i : Instr} {o : Op} {d a b : R6} {loose : Bool} (hi : exec i s = bshareOp o d a b loose s) (ho : s.Open [a, b] [d]) :
    let vf := s.vfOf s.cur
    let x := s.rd a
    let w := s.rd b
    let h := handleOf w
    let k := s.block h.stack h.pool h.index
    (s.acks s.cur ≠ 0 → ∃ t, exec i s = .next t ∧ Waits s t .acks) ∧
    (s.acks s.cur = 0 → s.engineIdle s.myCore 7 = false ∨ s.requestsGone s.myCore s.nextId = false → ∃ t, exec i s = .next t ∧ Waits s t (.engineEmpty 7)) ∧
    (s.acks s.cur = 0 → s.engineIdle s.myCore 7 = true → s.requestsGone s.myCore s.nextId = true → Guarded s i (s.handleFault vf w)
      ((loose = true → if 65535 ≤ k.table_ + k.loose then Computes s i d 7 1 o.len o.st
          else ∃ t, exec i s = .next t ∧ Writes (s.setBlock h.stack h.pool h.index { k with loose := k.loose + 1 }) t d 0 1 o.len o.st) ∧
       (loose = false → (s.seq? vf (x.toNat % 2 ^ 24) = none → Computes s i d 3 1 o.len o.st) ∧
         (∀ q, s.seq? vf (x.toNat % 2 ^ 24) = some q →
           if 2 ^ 20 ≤ q.entries.length then Computes s i d 2 1 o.len o.st else if 65535 ≤ k.table_ + k.loose then Computes s i d 7 1 o.len o.st
           else ∃ t, exec i s = .next t ∧ Writes ((s.setBlock h.stack h.pool h.index { k with table_ := k.table_ + 1 }).setSeq
             { q with entries := q.entries ++ [w] }) t d 0 1 o.len o.st)))) := by
  dsimp only
  refine blkRequest_cases hi ho fun he => ⟨fun c v hf => he.trans ?_, fun hf => ?_⟩
  · simp only [hf]
  simp only [hf] at he
  refine ⟨?_, ?_⟩
  · rintro rfl
    simp only [if_true] at he
    split
    next hk => exact ⟨_, he.trans (congrArg Host.Outcome.next (if_pos hk)), writes_wr_finish s d 7 o⟩
    next hk => exact ⟨_, he.trans (congrArg Host.Outcome.next (if_neg hk)), writes_wr_finish _ d 0 o⟩
  · rintro rfl
    simp only [Bool.false_eq_true, if_false] at he
    refine ⟨fun hq => ⟨_, he.trans ?_, writes_wr_finish s d 3 o⟩, fun q hq => ?_⟩
    · simp only [hq]
    · simp only [hq] at he
      split
      next hn => exact ⟨_, he.trans (congrArg Host.Outcome.next (if_pos hn)), writes_wr_finish s d 2 o⟩
      next hn =>
        split
        next hk => exact ⟨_, he.trans (congrArg Host.Outcome.next ((if_neg hn).trans (if_pos hk))), writes_wr_finish s d 7 o⟩
        next hk => exact ⟨_, he.trans (congrArg Host.Outcome.next ((if_neg hn).trans (if_neg hk))), writes_wr_finish _ d 0 o⟩

/-- BQUERY gives the pool's base and the block size. -/
theorem bquery_cases {s : State} {i : Instr} {o : Op} {d e a : R6} (hi : exec i s = bqueryOp o d e a s) (ho : s.Open [a] [d, e]) :
    let vf := s.vfOf s.cur
    let x := s.rd a
    let h := handleOf x
    (s.acks s.cur ≠ 0 → ∃ t, exec i s = .next t ∧ Waits s t .acks) ∧
    (s.acks s.cur = 0 → s.engineIdle s.myCore 7 = false ∨ s.requestsGone s.myCore s.nextId = false → ∃ t, exec i s = .next t ∧ Waits s t (.engineEmpty 7)) ∧
    (s.acks s.cur = 0 → s.engineIdle s.myCore 7 = true → s.requestsGone s.myCore s.nextId = true → Guarded s i (s.handleFault vf x)
      (TwoResults s s i d e (BitVec.ofNat 64 (s.poolVbase h.stack vf h.pool)) (BitVec.ofNat 64 (s.blockSize h.stack h.pool)) o.len o.st)) := by
  dsimp only
  refine blkRequest_cases hi ho fun he => ⟨fun c v hf => he.trans ?_, fun hf => twoResults_wr2 (he.trans ?_)⟩
  · simp only [hf]
  · simp only [hf]

/-- s0 is never interlocked, so an operation without a second result asks for no more registers. -/
theorem open_s0 {s : State} {srcs : List R6} {d : R6} (h : s.Open srcs [d]) : s.Open srcs [d, 0] := by
  obtain ⟨⟨ha, hu⟩, hq⟩ := h
  refine ⟨⟨?_, hu⟩, hq⟩
  have h0 : s.awaited s.cur (s.me.regKey 0) = false := by
    have : s.me.regKey 0 = 0 := by simp [Ctx.regKey]
    rw [this]
    rfl
  unfold State.awaiting at ha ⊢
  rw [show srcs ++ [d, 0] = srcs ++ [d] ++ [0] by simp, List.map_append, List.filter_append, ha]
  simpa using h0

/-- BSEQNEW creates an empty sequence, gives a status, or is under way. -/
theorem bseqnew_cases {s : State} {i : Instr} {o : Op} {d a b : R6} (hi : exec i s = bseqnewOp o d a b s) (ho : s.Open [a, b] [d]) :
    let num := (s.rd a).toNat % 2 ^ 24
    let pool := (s.rd b).toNat % 16
    let n := s.seqNewStatus (s.vfOf s.cur) num pool
    (¬ s.requestTurn s.cur s.nextId = true →
      ∃ t, exec i s = .next t ∧ Pends { s with nextId := s.nextId + 1 } t d (.seqNew (s.rd a) (s.rd b) s.nextId) o.len o.st (some 0)) ∧
    (s.requestTurn s.cur s.nextId = true → (n ≠ 0 → Computes s i d (BitVec.ofNat 64 n) 1 o.len o.st) ∧
      (n = 0 → ∃ t, exec i s = .next t ∧ Writes (s.modStack (num % 16) fun k =>
        { k with seqs := k.seqs ++ [{ vf := s.vfOf s.cur, num := num, pool := pool, entries := [] }] }) t d 0 1 o.len o.st)) := by
  have hs := open_s0 ho
  refine ⟨fun h => askOp_notTurn hi hs rfl h, fun h => ⟨fun hn => askOp_one hi hs h ?_, fun hn => askOp_one hi hs h ?_⟩⟩
  · rw [seqNewAnswer_status hn]
  · rw [seqNewAnswer_made hn]

theorem answer_seqNew {s : State} {x y : W64} {ctx : Nat} {p : Pend} {id : Nat} (hp : p.op = .seqNew x y id) :
    let v := s.vfOf ctx
    let num := x.toNat % 2 ^ 24
    let pool := y.toNat % 16
    (s.requestTurn ctx id = false → s.answerBlock ctx p = s) ∧
    (s.requestTurn ctx id = true → s.seqNewStatus v num pool ≠ 0 →
      s.answerBlock ctx p = s.deliver ctx p (BitVec.ofNat 64 (s.seqNewStatus v num pool))) ∧
    (s.requestTurn ctx id = true → s.seqNewStatus v num pool = 0 → s.answerBlock ctx p = (s.modStack (num % 16) fun k =>
      { k with seqs := k.seqs ++ [{ vf := v, num := num, pool := pool, entries := [] }] }).deliver ctx p 0) := by
  refine ⟨answerBlock_seqNew_waits hp, fun h hn => ?_, fun h hn => ?_⟩
  · rw [answerBlock_seqNew hp h, seqNewAnswer_status hn]
  · rw [answerBlock_seqNew hp h, seqNewAnswer_made hn]

end Sys2Proof.Machine

open Sys2Proof Sys2Proof.Machine

/-- Settles O38: the requests through `askOp` and `blkRequest`, the answers through the tables that `allocAnswer` and `seqNewAnswer` read. -/
theorem blockRequests : Obligations.BlockRequests := by
  unfold Obligations.BlockRequests
  intro s d a b e loose st
  refine ⟨fun p hp => ?_, fun ho => ⟨fun p hp => ?_, fun p hp => ?_⟩, fun p hp => ?_,
    fun w => ⟨handleOf_fields w, handleFault_cases s _ w⟩, fun num pool => seqNewStatus_cases s _ num pool,
    fun l pools => ⟨allocate_quota, allocate_wait, fun before t p after i rest hp hu hl hb => ⟨_, allocate_got hp hu hl hb, rfl, stack_takeBlock ..⟩⟩,
    fun home pool _ => poolOrder_order home pool⟩
  · have answers : ∀ (l : Bool) ctx (p : Pend) id, p.op = .alloc l (s.rd a) id → s.requestTurn ctx id = true → _ := fun l ctx p id hp ht =>
      allocAnswer_cases (s := s) (vf := s.vfOf ctx) (loose := l) (x := s.rd a) (status := fun v => s.answerBlock ctx p = s.deliver2 ctx p v none)
        (later := s.answerBlock ctx p = s) (both := fun u h idx => s.answerBlock ctx p = u.deliver2 ctx p h (some idx))
        (fun v ha => answerBlock_alloc_some hp ht ha) (answerBlock_alloc_none hp ht) fun u h idx ha => answerBlock_alloc_some hp ht ha
    simp only [List.mem_cons, List.not_mem_nil, or_false] at hp
    rcases hp with rfl | rfl
    · intro ho
      have hi : exec (.balloc d a st) s = ballocOp ⟨4, st⟩ d 0 a false s := rfl
      refine ⟨fun h => askOp_notTurn hi ho rfl h, fun h => allocAnswer_cases (fun v ha => askOp_one hi ho h ha) (fun ha => askOp_none hi ho rfl h ha)
        fun u w idx ha => askOp_two hi ho h ha, fun ctx p id hp => ⟨answerBlock_alloc_waits hp, answers _ ctx p id hp⟩⟩
    · intro ho
      have hi : exec (.ballocX d a e loose st) s = ballocOp ⟨12, st⟩ d e a (loose == 1) s := rfl
      refine ⟨fun h => askOp_notTurn hi ho rfl h, fun h => allocAnswer_cases (fun v ha => askOp_one hi ho h ha) (fun ha => askOp_none hi ho rfl h ha)
        fun u w idx ha => askOp_two hi ho h ha, fun ctx p id hp => ⟨answerBlock_alloc_waits hp, answers _ ctx p id hp⟩⟩
  · simp only [List.mem_cons, List.not_mem_nil, or_false] at hp
    rcases hp with rfl | rfl
    · exact bshare_cases (o := ⟨4, st⟩) (loose := false) rfl ho
    · exact bshare_cases (o := ⟨12, st⟩) (loose := loose == 1) rfl ho
  · simp only [List.mem_cons, List.not_mem_nil, or_false] at hp
    rcases hp with rfl | rfl
    · have hc := bseqnew_cases (i := .bseqnew d a b st) (o := ⟨4, st⟩) rfl ho
      exact ⟨hc.1, hc.2, fun ctx p id hp => answer_seqNew hp⟩
    · have hc := bseqnew_cases (i := .bseqnewX d a b st) (o := ⟨12, st⟩) rfl ho
      exact ⟨hc.1, hc.2, fun ctx p id hp => answer_seqNew hp⟩
  · simp only [List.mem_cons, List.not_mem_nil, or_false] at hp
    rcases hp with rfl | rfl
    · exact fun ho => bquery_cases (o := ⟨4, st⟩) rfl ho
    · exact fun ho => bquery_cases (o := ⟨12, st⟩) rfl ho
end

section
/-! O44 (R66, R79, R168, R250, R251, R265, R266). Vector loads and stores at the pool: bytes, lines of the cluster cache, and elements. -/

namespace Sys2Proof.Machine

/-! ## Numbers and their bytes -/

/-- The number whose bytes stand from place `k` on. -/
def sumBytes (f : Nat → Byte) (k n : Nat) : Nat := ((List.range n).map fun j => (f (k + j)).toNat * 256 ^ j).sum

theorem sumBytes_succ (f : Nat → Byte) (k n : Nat) : sumBytes f k (n + 1) = (f k).toNat + 256 * sumBytes f (k + 1) n := by
  unfold sumBytes
  rw [List.range_succ_eq_map, List.map_cons, List.sum_cons, List.map_map, ← List.sum_map_mul_left]
  congr 1
  · simp
  · refine congrArg List.sum (List.map_congr_left fun j _ => ?_)
    simp only [Function.comp_apply, Nat.succ_eq_add_one, Nat.pow_succ]
    rw [show k + (j + 1) = k + 1 + j by omega]
    ring

/-- A number is the sum of its bytes. -/
theorem eq_sumBytes (f : Nat → Byte) (k n N : Nat) (h : N < 256 ^ n) (hb : ∀ j < n, BitVec.ofNat 8 (N / 256 ^ j) = f (k + j)) : N = sumBytes f k n := by
  induction n generalizing k N with
  | zero => exact Nat.lt_one_iff.1 h
  | succ n ih =>
    have h0 := congrArg BitVec.toNat (hb 0 (Nat.succ_pos n))
    have hrest := ih (k + 1) (N / 256) (by rw [Nat.pow_succ] at h; omega) fun j hj => by
      rw [Nat.div_div_eq_div_mul, ← Nat.pow_succ', hb (j + 1) (by omega)]
      congr 1
      omega
    rw [sumBytes_succ, ← hrest]
    simp only [BitVec.toNat_ofNat, Nat.pow_zero, Nat.div_one, Nat.add_zero] at h0
    omega

theorem read_eq_sumBytes (s : State) (k n : Nat) : s.read k n = sumBytes (memGet s.mem) k n :=
  eq_sumBytes _ k n _ (memNat_lt _ _ _) fun _ hj => memNat_byte _ _ _ _ hj

theorem memGet_memPut (m : List Host.Cell) (k v n j : Nat) (h : memWf m = true) :
    memGet (memPut m k v n) j = if k ≤ j ∧ j < k + n then BitVec.ofNat 8 (v / 256 ^ (j - k)) else memGet m j := by
  by_cases hj : k ≤ j ∧ j < k + n
  · rw [if_pos hj]
    obtain ⟨e, rfl⟩ : ∃ e, j = k + e := ⟨j - k, by omega⟩
    have hlt : e < n := by omega
    rw [← memNat_byte _ _ n _ hlt, memNat_memPut _ _ _ _ h, Nat.add_sub_cancel_left]
    refine BitVec.eq_of_toNat_eq ?_
    rw [BitVec.toNat_ofNat, BitVec.toNat_ofNat, show n = e + (n - e) by omega, Nat.pow_add, Nat.mod_mul_right_div_self]
    refine Nat.mod_mod_of_dvd _ ?_
    exact Dvd.dvd.trans (by decide) (dvd_pow_self 256 (by omega))
  · rw [if_neg hj]
    exact memGet_memPut_other _ _ _ _ _ (by omega) h

/-! ## Bytes as a cluster sees them through its cache (R66) -/

/-- A byte of the line that holds it, and else of memory. -/
def State.seenAt (cl : Nat) (s : State) (k : Nat) : Byte :=
  match s.findLine cl k with
  | some m => m.data.extractLsb' (8 * (k % 64)) 8
  | none => memGet s.mem k

/-- Is a byte marked dirty in the line that holds it? -/
def State.dirtyAt (cl : Nat) (s : State) (k : Nat) : Bool :=
  match s.findLine cl k with
  | some m => m.dirty.getLsbD (k % 64)
  | none => false

/-- A line that came from memory. -/
def Line.Clean (m : Line) (s : State) : Prop :=
  m.key = lineKey m.key ∧ m.dirty = 0 ∧ ∀ b < 64, m.data.extractLsb' (8 * b) 8 = memGet s.mem (m.key + b)

/-- From `s` to `u` lines have come to a cluster's cache, and nothing else changed. -/
structure Filled (cl : Nat) (s u : State) : Prop where
  rest   : { u with clusters := s.clusters } = s
  others : ∀ k, k ≠ cl → u.cluster k = s.cluster k
  lines  : ∃ new, u.cluster cl = { s.cluster cl with lines := (s.cluster cl).lines ++ new } ∧ ∀ m ∈ new, m.Clean s

theorem Filled.refl (cl : Nat) (s : State) : Filled cl s s := ⟨rfl, fun _ _ => rfl, [], by simp only [List.append_nil], fun _ hm => absurd hm List.not_mem_nil⟩

theorem Filled.mem {cl : Nat} {s u : State} (h : Filled cl s u) : u.mem = s.mem := by
  have := congrArg State.mem h.rest
  exact this

theorem Filled.trans {cl : Nat} {s t u : State} (h : Filled cl s t) (g : Filled cl t u) : Filled cl s u := by
  obtain ⟨n1, h1, c1⟩ := h.lines
  obtain ⟨n2, h2, c2⟩ := g.lines
  refine ⟨?_, fun k hk => (g.others k hk).trans (h.others k hk), n1 ++ n2, ?_, fun m hm => ?_⟩
  · have := congrArg (fun x : State => { x with clusters := s.clusters }) g.rest
    exact Eq.trans this h.rest
  · rw [h2, h1]
    simp only [List.append_assoc]
  · rcases List.mem_append.1 hm with hm | hm
    · exact c1 m hm
    · obtain ⟨ck, cd, cb⟩ := c2 m hm
      refine ⟨ck, cd, fun b hb => ?_⟩
      rw [cb b hb, h.mem]

/-- A line that came from memory shows what memory holds. -/
theorem Filled.seenAt {cl : Nat} {s u : State} (h : Filled cl s u) (k : Nat) : u.seenAt cl k = s.seenAt cl k := by
  obtain ⟨new, hl, hc⟩ := h.lines
  have hf : u.findLine cl k = (s.findLine cl k).or (new.find? (·.key == lineKey k)) := by
    unfold State.findLine
    rw [hl, List.find?_append]
  unfold State.seenAt
  rw [hf]
  cases hs : s.findLine cl k with
  | some m => rfl
  | none =>
    rw [Option.none_or]
    cases hn : new.find? (·.key == lineKey k) with
    | none => rw [h.mem]
    | some m =>
      have hk : m.key = lineKey k := by simpa using List.find?_some hn
      obtain ⟨-, -, hb⟩ := hc m (List.mem_of_find?_eq_some hn)
      dsimp only
      rw [hb _ (Nat.mod_lt _ (by decide)), hk]
      unfold lineKey
      congr 1
      omega

theorem Filled.dirtyAt {cl : Nat} {s u : State} (h : Filled cl s u) (k : Nat) : u.dirtyAt cl k = s.dirtyAt cl k := by
  obtain ⟨new, hl, hc⟩ := h.lines
  have hf : u.findLine cl k = (s.findLine cl k).or (new.find? (·.key == lineKey k)) := by
    unfold State.findLine
    rw [hl, List.find?_append]
  unfold State.dirtyAt
  rw [hf]
  cases hs : s.findLine cl k with
  | some m => rfl
  | none =>
    rw [Option.none_or]
    cases hn : new.find? (·.key == lineKey k) with
    | none => rfl
    | some m =>
      obtain ⟨-, hd, -⟩ := hc m (List.mem_of_find?_eq_some hn)
      dsimp only
      rw [hd]
      exact BitVec.getLsbD_zero

/-- The cache of a cluster has room for `n` lines more. -/
def State.RoomFor (s : State) (cl n : Nat) : Prop := (s.cluster cl).lines.length + n ≤ cacheLines (s.cluster cl).split

/-- A line that is brought in without one that leaves: it is found then, and room for `n` lines is left. -/
structure State.Brings (s : State) (cl key n : Nat) : Prop where
  filled : Filled cl s (s.fillLine cl key).1
  found  : (s.fillLine cl key).1.findLine cl key = some (s.fillLine cl key).2
  room   : (s.fillLine cl key).1.RoomFor cl n

theorem brings_of_findLine {s : State} {cl key n : Nat} {l : Line} (hl : s.findLine cl key = some l) (h : s.RoomFor cl n) : s.Brings cl key n := by
  have he : s.fillLine cl key = (s, l) := by
    unfold State.fillLine
    rw [hl]
  refine ⟨?_, ?_, ?_⟩ <;> rw [he]
  exacts [.refl cl s, hl, h]

theorem brings_of_room {s : State} {cl key n : Nat} (h : s.RoomFor cl (n + 1)) : s.Brings cl key n := by
  unfold State.RoomFor at h
  cases hf : s.findLine cl key with
  | some l => exact brings_of_findLine hf (show (s.cluster cl).lines.length + n ≤ cacheLines (s.cluster cl).split by omega)
  | none =>
    have he : s.fillLine cl key = (s.modCluster cl fun c => { c with lines := c.lines ++ [s.newLine cl key] }, s.newLine cl key) := by
      unfold State.fillLine
      rw [hf]
      dsimp only
      rw [makeRoom_room (by omega)]
      unfold State.newLine
      rw [makeRoom_room (by omega)]
    have hcl : (s.modCluster cl fun c => { c with lines := c.lines ++ [s.newLine cl key] }).cluster cl =
        { s.cluster cl with lines := (s.cluster cl).lines ++ [s.newLine cl key] } := by rw [cluster_modCluster, if_pos rfl]
    refine ⟨?_, ?_, ?_⟩ <;> rw [he]
    · refine ⟨rfl, fun k hk => ?_, _, hcl, fun m hm => ?_⟩
      · rw [cluster_modCluster, if_neg hk]
      · obtain rfl := List.mem_singleton.1 hm
        refine ⟨?_, rfl, fun b hb => ?_⟩
        · unfold State.newLine lineKey
          dsimp only
          omega
        · rw [newLine_byte s cl key b hb, makeRoom_room (by omega)]
          rfl
    · unfold State.findLine at hf ⊢
      rw [hcl, List.find?_append, hf, Option.none_or]
      exact List.find?_cons_of_pos (by simp [State.newLine])
    · unfold State.RoomFor
      rw [hcl]
      simp only [List.length_append, List.length_singleton]
      omega

theorem findLine_key {s : State} {cl key : Nat} {l : Line} (h : s.findLine cl key = some l) : l.key = lineKey key := by
  simpa using List.find?_some h

/-- What a read through the cache gives: the bytes that the cluster sees. -/
theorem lineRead_eq {s : State} {cl key n : Nat} {l : Line} (h : s.findLine cl key = some l) (hin : key % 64 + n ≤ 64) :
    l.data.toNat / 2 ^ (8 * (key % 64)) % 2 ^ (8 * n) = sumBytes (s.seenAt cl) key n := by
  refine eq_sumBytes _ _ _ _ ?_ fun j hj => ?_
  · rw [show (256 : Nat) = 2 ^ 8 from rfl, ← Nat.pow_mul]
    exact Nat.mod_lt _ (Nat.two_pow_pos _)
  · have hkey : lineKey (key + j) = lineKey key := by
      unfold lineKey
      omega
    have hs : s.findLine cl (key + j) = some l := by
      unfold State.findLine at h ⊢
      rw [hkey]
      exact h
    have hplace : (key + j) % 64 = key % 64 + j := by omega
    unfold State.seenAt
    rw [hs]
    dsimp only
    rw [hplace, ← line_byte l _ (by omega)]
    refine BitVec.eq_of_toNat_eq ?_
    rw [BitVec.toNat_ofNat, BitVec.toNat_ofNat, show (256 : Nat) = 2 ^ 8 from rfl, ← Nat.pow_mul, ← Nat.pow_mul,
      show 8 * n = 8 * j + (8 * n - 8 * j) by omega, Nat.pow_add, Nat.mod_mul_right_div_self, Nat.div_div_eq_div_mul, ← Nat.pow_add, ← Nat.mul_add]
    exact Nat.mod_mod_of_dvd _ (pow_dvd_pow 2 (by omega))

/-! ## A write through the cache -/

theorem findLine_putLine_other {s : State} {cl k : Nat} {m : Line} (h : lineKey k ≠ m.key) : (s.putLine cl m).findLine cl k = s.findLine cl k := by
  unfold State.findLine State.putLine
  rw [cluster_modCluster, if_pos rfl]
  dsimp only
  induction (s.cluster cl).lines with
  | nil => rfl
  | cons x ls ih =>
    rw [List.map_cons, List.find?_cons, List.find?_cons, ih]
    by_cases hx : x.key = m.key
    · have hm : (m.key == lineKey k) = false := beq_false_of_ne (Ne.symm h)
      simp [hx, hm]
    · simp [hx]

/-- What a write through the cache changes: the bytes that it names, which become dirty. -/
theorem cacheWrite_views {s : State} {cl key n v c : Nat} (hr : s.Brings cl key c) (hin : key % 64 + n ≤ 64) (hn : n ≤ 8) (hv : v < 2 ^ 64) :
    (∀ k, (s.cacheWrite cl key n v).seenAt cl k = if key ≤ k ∧ k < key + n then BitVec.ofNat 8 (v / 256 ^ (k - key)) else s.seenAt cl k) ∧
    (∀ k, (s.cacheWrite cl key n v).dirtyAt cl k = (s.dirtyAt cl k || decide (key ≤ k ∧ k < key + n))) := by
  obtain ⟨hfill, hl, -⟩ := hr
  have hkey := findLine_key hl
  have he : s.cacheWrite cl key n v = (s.fillLine cl key).1.putLine cl ((s.fillLine cl key).2.stored key n v) := rfl
  rw [he]
  have hseen := hfill.seenAt
  have hdirty := hfill.dirtyAt
  generalize (s.fillLine cl key).1 = u at hl hseen hdirty ⊢
  generalize (s.fillLine cl key).2 = l at hl hkey ⊢
  have hmk : (l.stored key n v).key = lineKey key := hkey
  have own : ∀ k, lineKey k = lineKey key → (u.putLine cl (l.stored key n v)).findLine cl k = some (l.stored key n v) ∧ u.findLine cl k = some l := by
    intro k hk
    have hl' : u.findLine cl k = some l := by
      unfold State.findLine at hl ⊢
      rw [hk]
      exact hl
    exact ⟨findLine_putLine hl' (hmk.trans hkey.symm), hl'⟩
  have inside : ∀ k, lineKey k = lineKey key → ((key % 64 ≤ k % 64 ∧ k % 64 < key % 64 + n) ↔ key ≤ k ∧ k < key + n) := by
    unfold lineKey
    omega
  have outside : ∀ k, lineKey k ≠ lineKey key → ¬ (key ≤ k ∧ k < key + n) := by
    unfold lineKey
    omega
  refine ⟨fun k => ?_, fun k => ?_⟩
  · by_cases hk : lineKey k = lineKey key
    · obtain ⟨h1, h2⟩ := own k hk
      have hx : v = (BitVec.ofNat 64 v).toNat := by rw [BitVec.toNat_ofNat, Nat.mod_eq_of_lt hv]
      rw [← hseen k]
      unfold State.seenAt
      rw [h1, h2]
      dsimp only
      rw [hx, stored_data l key n _ _ (Nat.mod_lt _ (by decide)), ← hx]
      refine ite_congr (propext (inside k hk)) (fun hin' => ?_) fun _ => rfl
      have hplace : k % 64 - key % 64 = k - key := by
        unfold lineKey at hk
        omega
      rw [hplace]
      exact extract_byte (w := 64) v _ (by omega)
    · rw [if_neg (outside k hk), ← hseen k]
      unfold State.seenAt
      rw [findLine_putLine_other (by rw [hmk]; exact hk)]
      rfl
  · by_cases hk : lineKey k = lineKey key
    · obtain ⟨h1, h2⟩ := own k hk
      rw [← hdirty k]
      unfold State.dirtyAt
      rw [h1, h2]
      dsimp only
      rw [stored_dirty l key n v _ (Nat.mod_lt _ (by decide))]
      exact congrArg (l.dirty.getLsbD (k % 64) || ·) (decide_eq_decide.2 (inside k hk))
    · rw [decide_eq_false (outside k hk), Bool.or_false, ← hdirty k]
      unfold State.dirtyAt
      rw [findLine_putLine_other (by rw [hmk]; exact hk)]

/-- What a write through the cache leaves: memory, the other clusters, and all of its own but its lines. -/
structure Merged (cl : Nat) (s u : State) : Prop where
  rest   : { u with clusters := s.clusters } = s
  others : ∀ k, k ≠ cl → u.cluster k = s.cluster k
  own    : { u.cluster cl with lines := (s.cluster cl).lines } = s.cluster cl

theorem Merged.refl (cl : Nat) (s : State) : Merged cl s s := ⟨rfl, fun _ _ => rfl, rfl⟩

theorem Merged.trans {cl : Nat} {s t u : State} (h : Merged cl s t) (g : Merged cl t u) : Merged cl s u := by
  refine ⟨?_, fun k hk => (g.others k hk).trans (h.others k hk), ?_⟩
  · have := congrArg (fun x : State => { x with clusters := s.clusters }) g.rest
    exact Eq.trans this h.rest
  · have := congrArg (fun x : Cluster => { x with lines := (s.cluster cl).lines }) g.own
    exact Eq.trans this h.own

theorem Filled.merged {cl : Nat} {s u : State} (h : Filled cl s u) : Merged cl s u := by
  obtain ⟨new, hl, -⟩ := h.lines
  exact ⟨h.rest, h.others, by rw [hl]⟩

theorem cacheWrite_merged {s : State} {cl key n v c : Nat} (hr : s.Brings cl key c) :
    Merged cl s (s.cacheWrite cl key n v) ∧ (s.cacheWrite cl key n v).RoomFor cl c := by
  obtain ⟨hfill, -, hroom⟩ := hr
  have he : s.cacheWrite cl key n v = (s.fillLine cl key).1.putLine cl ((s.fillLine cl key).2.stored key n v) := rfl
  rw [he]
  have hput : ∀ m, ((s.fillLine cl key).1.putLine cl m).cluster cl = { (s.fillLine cl key).1.cluster cl with
      lines := ((s.fillLine cl key).1.cluster cl).lines.map fun x => if x.key == m.key then m else x } := fun m => by
    unfold State.putLine
    rw [cluster_modCluster, if_pos rfl]
  refine ⟨hfill.merged.trans ⟨rfl, fun k hk => ?_, ?_⟩, ?_⟩
  · unfold State.putLine
    rw [cluster_modCluster, if_neg hk]
  · rw [hput]
  · unfold State.RoomFor at hroom ⊢
    rw [hput]
    simpa using hroom

end Sys2Proof.Machine
end

section
namespace Sys2Proof.Machine

/-! ## Elements of a vector register (R168, R251) -/

theorem Elt.bits_lt (w mp tp old : Nat) (e : Elt) : e.bits w mp tp old < 2 ^ w := by
  have hp := Nat.two_pow_pos w
  have hm := fun x => Nat.mod_lt x hp
  cases e with
  | val x => exact hm x
  | keep => exact hm old
  | off =>
    change (if mp = 1 then 2 ^ w - 1 else old % 2 ^ w) < 2 ^ w
    split
    · omega
    · exact hm old
  | tail =>
    change (if tp = 1 then 2 ^ w - 1 else old % 2 ^ w) < 2 ^ w
    split
    · omega
    · exact hm old

theorem eltAt_mergeElts (w mp tp : Nat) (es : List Elt) (old i : Nat) (hi : i < es.length) :
    eltAt (mergeElts w mp tp es old) w i = es[i].bits w mp tp (old / 2 ^ (w * i)) := by
  induction es generalizing old i with
  | nil => exact absurd hi (Nat.not_lt_zero i)
  | cons e es ih =>
    have hlt := Elt.bits_lt w mp tp old e
    have hp := Nat.two_pow_pos w
    unfold mergeElts eltAt
    cases i with
    | zero =>
      rw [Nat.mul_zero, Nat.pow_zero, Nat.div_one, Nat.div_one, Nat.add_mul_mod_self_left, Nat.mod_eq_of_lt hlt]
      rfl
    | succ i =>
      rw [Nat.mul_succ, Nat.add_comm (w * i) w, Nat.pow_add, ← Nat.div_div_eq_div_mul, Nat.add_mul_div_left _ _ hp, Nat.div_eq_of_lt hlt, Nat.zero_add,
        ← Nat.div_div_eq_div_mul]
      exact ih (old / 2 ^ w) i (Nat.lt_of_succ_lt_succ hi)

theorem mergeElts_lt (w mp tp : Nat) (es : List Elt) {n old : Nat} (hn : w * es.length ≤ n) (h : old < 2 ^ n) : mergeElts w mp tp es old < 2 ^ n := by
  obtain ⟨r, rfl⟩ := Nat.exists_eq_add_of_le hn
  clear hn
  induction es generalizing old with
  | nil => exact h
  | cons e es ih =>
    have hlt := Elt.bits_lt w mp tp old e
    have hsplit : 2 ^ (w * (es.length + 1) + r) = 2 ^ w * 2 ^ (w * es.length + r) := by
      rw [← Nat.pow_add]
      congr 1
      rw [Nat.mul_succ]
      omega
    rw [List.length_cons, hsplit] at h ⊢
    have hrest := ih (Nat.div_lt_of_lt_mul h)
    unfold mergeElts
    calc e.bits w mp tp old + 2 ^ w * mergeElts w mp tp es (old / 2 ^ w) < 2 ^ w + 2 ^ w * mergeElts w mp tp es (old / 2 ^ w) := Nat.add_lt_add_right hlt _
      _ = 2 ^ w * (mergeElts w mp tp es (old / 2 ^ w) + 1) := by rw [Nat.mul_add, Nat.mul_one, Nat.add_comm]
      _ ≤ 2 ^ w * 2 ^ (w * es.length + r) := Nat.mul_le_mul_left _ hrest

theorem toNat_ofNat_lt_pow {n x : Nat} (h : x < 2 ^ n) : (BitVec.ofNat n x).toNat = x := by rw [BitVec.toNat_ofNat, Nat.mod_eq_of_lt h]

theorem vbits_putElts_same (c : Ctx) (q : VCmd) (d w : Nat) (es : List Elt) (h : w * es.length ≤ 8192) :
    (c.putElts q d w es).vbits d = mergeElts w q.mp q.tp es (c.vbits d) := by
  unfold Ctx.putElts Ctx.vbits
  rw [get_put_same]
  exact toNat_ofNat_lt_pow (mergeElts_lt w q.mp q.tp es h (c.vregs.get d (BitVec.allOnes 8192)).isLt)

theorem vbits_putElts_other (c : Ctx) (q : VCmd) (d w : Nat) (es : List Elt) (r : Nat) (h : r ≠ d) : (c.putElts q d w es).vbits r = c.vbits r := by
  unfold Ctx.putElts Ctx.vbits
  rw [get_put_other _ _ _ _ _ h]

/-! ## What a load reads (R265, R266) -/

/-- The bits and the poison of a load's element: what it has read ahead, or what stands there now. -/
def VCmd.heard (q : VCmd) (bytes : Nat → Byte) (bad : Nat → Bool) (n i k : Nat) : Nat × Bool :=
  match q.got.find? i with
  | some r => r
  | none => (sumBytes bytes k n, bad k)

/-- The bits that the element receives: a nibble for FP4. -/
def nibble (w i x : Nat) : Nat := if w = 4 then x / 16 ^ (i % 2) % 16 else x

/-- One element of a load: what it has read ahead, or a read. -/
def State.heardOrRead (s : State) (got : Map (Nat × Bool)) (cl n i key : Nat) (cached : Bool) : State × Nat × Bool :=
  match got.find? i with
  | some r => (s, r)
  | none => s.eltRead cl key cached n

theorem loadElts_cons (cl w : Nat) (got : Map (Nat × Bool)) (i key : Nat) (cached : Bool) (l : List (Nat × Nat × Bool)) (s : State) :
    loadElts cl w got ((i, key, cached) :: l) s =
      let r := s.heardOrRead got cl (max 1 (w / 8)) i key cached
      let t := loadElts cl w got l r.1
      (t.1, if r.2.2 then t.2.1 else (i, nibble w i r.2.1) :: t.2.1, r.2.2 || t.2.2) := rfl

/-- Reads one after the other give what one read of each would: `P` is what they keep, with the elements still to come. -/
theorem loadElts_spec {q : VCmd} {cl w : Nat} {bytes : Nat → Byte} {bad : Nat → Bool} {P : List (Nat × Nat × Bool) → State → Prop}
    (hskip : ∀ p l u, P (p :: l) u → P l u)
    (hread : ∀ (p : Nat × Nat × Bool) l u, P (p :: l) u → (u.eltRead cl p.2.1 p.2.2 (max 1 (w / 8))).2 = (sumBytes bytes p.2.1 (max 1 (w / 8)), bad p.2.1) ∧
      P l (u.eltRead cl p.2.1 p.2.2 (max 1 (w / 8))).1) (l : List (Nat × Nat × Bool)) (s : State) (h : P l s) :
    let heard := q.heard bytes bad (max 1 (w / 8))
    P [] (loadElts cl w q.got l s).1 ∧
    (loadElts cl w q.got l s).2.1 = ((l.filter fun e => !(heard e.1 e.2.1).2).map fun e => (e.1, nibble w e.1 (heard e.1 e.2.1).1)) ∧
    (loadElts cl w q.got l s).2.2 = l.any fun e => (heard e.1 e.2.1).2 := by
  dsimp only
  induction l generalizing s with
  | nil => exact ⟨h, rfl, rfl⟩
  | cons p l ih =>
    obtain ⟨i, key, cached⟩ := p
    have hstep : P l (s.heardOrRead q.got cl (max 1 (w / 8)) i key cached).1 ∧
        (s.heardOrRead q.got cl (max 1 (w / 8)) i key cached).2 = q.heard bytes bad (max 1 (w / 8)) i key := by
      unfold VCmd.heard State.heardOrRead
      cases q.got.find? i with
      | some r => exact ⟨hskip _ _ _ h, rfl⟩
      | none => exact (hread _ _ _ h).symm
    obtain ⟨hu, he⟩ := hstep
    obtain ⟨h1, h2, h3⟩ := ih _ hu
    rw [loadElts_cons]
    dsimp only
    rw [h2, h3, he]
    refine ⟨h1, ?_, rfl⟩
    by_cases hb : (q.heard bytes bad (max 1 (w / 8)) i key).2 = true
    · rw [if_pos hb, List.filter_cons_of_neg (by simp [hb])]
    · rw [if_neg hb, List.filter_cons_of_pos (by simp [hb]), List.map_cons]

/-- The element that a list of read elements gives register element `i`. -/
def loadedElt (vs : List (Nat × Nat)) (l : List (Nat × Nat × Bool)) (i : Nat) : Elt :=
  match vs.find? (·.1 == i) with
  | some p => .val p.2
  | none => if l.any (·.1 == i) then .keep else .off

theorem performMem_load {s : State} {q : VCmd} {d fmt : Nat} {l : List (Nat × Nat × Bool)} {va : W64} (hop : q.op = .load d fmt l va) :
    s.performMem q =
      let r := loadElts (clusterOf (coreOf q.ctx)) (fmtWidth fmt) q.got l s
      let u := r.1.modCtx q.ctx fun c => c.putElts q d (fmtWidth fmt) ((List.range (vlen (s.ctx q.ctx).laneCount fmt)).map (loadedElt r.2.1 l))
      if r.2.2 then u.endAsFail q.ctx (s.ctx q.ctx).hnum 0x0C va else u := by
  cases q
  dsimp only at hop
  subst hop
  rfl

theorem performVector_load {s : State} {q : VCmd} {d fmt : Nat} {l : List (Nat × Nat × Bool)} {va : W64} (hop : q.op = .load d fmt l va) :
    s.performVector q = s.performMem q := by
  simp only [State.performVector, hop]

theorem performVector_store {s : State} {q : VCmd} {d fmt : Nat} {l : List (Nat × Nat × Bool)} {va : W64} (hop : q.op = .store d fmt l va) :
    s.performVector q = l.foldl (fun u p => u.eltWrite (clusterOf (coreOf q.ctx)) p.1 p.2.1 p.2.2 (fmtWidth fmt)
      (eltAt ((s.ctx q.ctx).vbits d) (fmtWidth fmt) p.1)) s := by
  simp only [State.performVector, State.performMem, hop]

/-- With distinct elements, the one found for an index is the one listed. -/
theorem find?_listed {l : List (Nat × Nat × Bool)} (hn : (l.map (·.1)).Nodup) {heard : Nat → Nat → Nat × Bool} {g : Nat → Nat → Nat} {i k : Nat} {b : Bool}
    (hin : (i, k, b) ∈ l) :
    ((l.filter fun e => !(heard e.1 e.2.1).2).map fun e => (e.1, g e.1 e.2.1)).find? (·.1 == i) =
      if (heard i k).2 then none else some (i, g i k) := by
  induction l with
  | nil => cases hin
  | cons p l ih =>
    obtain ⟨j, k', b'⟩ := p
    rw [List.map_cons, List.nodup_cons] at hn
    obtain ⟨hj, hn⟩ := hn
    have hrest : ∀ i, i ∉ l.map (·.1) → ((l.filter fun e => !(heard e.1 e.2.1).2).map fun e => (e.1, g e.1 e.2.1)).find? (·.1 == i) = none := by
      intro i hi
      rw [List.find?_eq_none]
      intro x hx
      obtain ⟨e, he, rfl⟩ := List.mem_map.1 hx
      have hei := List.mem_map_of_mem (f := (·.1)) (List.mem_filter.1 he).1
      simp only [beq_iff_eq]
      rintro rfl
      exact hi hei
    rcases List.mem_cons.1 hin with he | hin
    · cases he
      by_cases hb : (heard i k).2 = true
      · rw [List.filter_cons_of_neg (by simp [hb]), if_pos hb]
        exact hrest i hj
      · rw [List.filter_cons_of_pos (by simp [hb]), List.map_cons, List.find?_cons_of_pos (by simp), if_neg hb]
    · have hji : j ≠ i := by
        rintro rfl
        exact hj (List.mem_map_of_mem (f := (·.1)) hin)
      by_cases hb : (heard j k').2 = true
      · rw [List.filter_cons_of_neg (by simp [hb])]
        exact ih hn hin
      · rw [List.filter_cons_of_pos (by simp [hb]), List.map_cons, List.find?_cons_of_neg (by simp [hji])]
        exact ih hn hin

theorem find?_unlisted {l : List (Nat × Nat × Bool)} {heard : Nat → Nat → Nat × Bool} {g : Nat → Nat → Nat} {i : Nat} (hno : ∀ k b, (i, k, b) ∉ l) :
    ((l.filter fun e => !(heard e.1 e.2.1).2).map fun e => (e.1, g e.1 e.2.1)).find? (·.1 == i) = none := by
  rw [List.find?_eq_none]
  intro x hx
  obtain ⟨⟨j, k, b⟩, he, rfl⟩ := List.mem_map.1 hx
  simp only [beq_iff_eq]
  rintro rfl
  exact hno k b (List.mem_filter.1 he).1

/-- The registers of a context behind a load. -/
theorem load_registers {c : Ctx} {q : VCmd} {d fmt : Nat} {l : List (Nat × Nat × Bool)} {heard : Nat → Nat → Nat × Bool} (hn : (l.map (·.1)).Nodup)
    (hlanes : c.lanes ≤ 256) {vs : List (Nat × Nat)}
    (hvs : vs = (l.filter fun e => !(heard e.1 e.2.1).2).map fun e => (e.1, nibble (fmtWidth fmt) e.1 (heard e.1 e.2.1).1)) :
    let w := fmtWidth fmt
    let t := c.putElts q d w ((List.range (vlen c.laneCount fmt)).map (loadedElt vs l))
    (∀ i, i < vlen c.laneCount fmt →
      (∀ k b, (i, k, b) ∈ l → eltAt (t.vbits d) w i = if (heard i k).2 then eltAt (c.vbits d) w i else nibble w i (heard i k).1 % 2 ^ w) ∧
      ((∀ k b, (i, k, b) ∉ l) → eltAt (t.vbits d) w i = if q.mp = 1 then 2 ^ w - 1 else eltAt (c.vbits d) w i)) ∧
    (∀ r, r ≠ d → t.vbits r = c.vbits r) ∧ { t with vregs := c.vregs } = c := by
  dsimp only
  have hlen : fmtWidth fmt * ((List.range (vlen c.laneCount fmt)).map (loadedElt vs l)).length ≤ 8192 := by
    have hl : c.laneCount ≤ 256 := by
      unfold Ctx.laneCount
      split <;> omega
    rw [List.length_map, List.length_range]
    unfold vlen
    exact (Nat.mul_div_le _ _).trans (by omega)
  have hat : ∀ i, i < vlen c.laneCount fmt → eltAt ((c.putElts q d (fmtWidth fmt) ((List.range (vlen c.laneCount fmt)).map (loadedElt vs l))).vbits d)
      (fmtWidth fmt) i = (loadedElt vs l i).bits (fmtWidth fmt) q.mp q.tp (c.vbits d / 2 ^ (fmtWidth fmt * i)) := by
    intro i hi
    rw [vbits_putElts_same _ _ _ _ _ hlen, eltAt_mergeElts _ _ _ _ _ _ (by rw [List.length_map, List.length_range]; exact hi)]
    simp only [List.getElem_map, List.getElem_range]
  refine ⟨fun i hi => ⟨fun k b hin => ?_, fun hno => ?_⟩, fun r hr => vbits_putElts_other _ _ _ _ _ _ hr, rfl⟩
  · rw [hat i hi]
    unfold loadedElt
    rw [hvs, find?_listed hn hin (g := fun i k => nibble (fmtWidth fmt) i (heard i k).1)]
    by_cases hb : (heard i k).2 = true
    · have hany : l.any (·.1 == i) = true := List.any_eq_true.2 ⟨_, hin, by simp⟩
      simp only [if_pos hb, hany, if_true]
      rfl
    · simp only [if_neg hb]
      rfl
  · rw [hat i hi]
    unfold loadedElt
    have hany : l.any (·.1 == i) = false := by
      rw [← Bool.not_eq_true, List.any_eq_true]
      rintro ⟨⟨j, k, b⟩, hin, hj⟩
      obtain rfl : j = i := by simpa using hj
      exact hno k b hin
    rw [hvs, find?_unlisted hno (g := fun i k => nibble (fmtWidth fmt) i (heard i k).1)]
    simp only [hany, Bool.false_eq_true, if_false]
    rfl

end Sys2Proof.Machine
end

section
namespace Sys2Proof.Machine

/-! ## One element at memory and at the cluster cache (R66) -/

theorem hasCache_iff (s : State) (cl : Nat) : s.hasCache cl = true ↔ (s.cluster cl).split < 8 := by
  unfold State.hasCache cacheLines
  rw [decide_eq_true_eq]
  omega

theorem eltRead_memory {s : State} {cl key n : Nat} {cached : Bool} (h : (cached && s.hasCache cl) = false) :
    s.eltRead cl key cached n = (s, sumBytes (memGet s.mem) key n, s.isPoisoned key) := by
  simp only [State.eltRead, h, Bool.false_eq_true, if_false, read_eq_sumBytes]

theorem eltRead_cache {s : State} {cl key n c : Nat} {cached : Bool} (h : (cached && s.hasCache cl) = true) (hr : s.Brings cl key c) (hin : key % 64 + n ≤ 64) :
    s.eltRead cl key cached n = ((s.fillLine cl key).1, sumBytes (s.seenAt cl) key n, s.isPoisoned key) := by
  have hv := lineRead_eq hr.found hin
  rw [show (s.fillLine cl key).1.seenAt cl = s.seenAt cl from funext hr.filled.seenAt] at hv
  simp only [State.eltRead, h, if_true, State.cacheRead, hv]

/-- The value that a store puts at an element's place: FP4 keeps the other nibble of the byte there. -/
def storedValue (w i v old : Nat) : Nat := if w = 4 then if i % 2 = 0 then old / 16 * 16 + v % 16 else old % 16 + v % 16 * 16 else v

/-- The bytes behind a store of element `i` at place `key`. -/
def putElt (w i key v : Nat) (f : Nat → Byte) (k : Nat) : Byte :=
  if key ≤ k ∧ k < key + max 1 (w / 8) then BitVec.ofNat 8 (storedValue w i v (f key).toNat / 256 ^ (k - key)) else f k

theorem sumBytes_one (f : Nat → Byte) (k : Nat) : sumBytes f k 1 = (f k).toNat := by
  rw [sumBytes_succ]
  rfl

section Store
variable {w : Nat} (hw : w = 4 ∨ w = 8 ∨ w = 16 ∨ w = 32)
include hw

theorem eltWrite_memory {s : State} {cl i key v : Nat} {cached : Bool} (h : (cached && s.hasCache cl) = false) :
    s.eltWrite cl i key cached w v = s.write key (max 1 (w / 8)) (storedValue w i v (memGet s.mem key).toNat) := by
  unfold State.eltWrite storedValue
  by_cases h4 : w = 4
  · subst h4
    simp only [eltRead_memory h, h, sumBytes_one, Bool.false_eq_true, if_false, if_true]
    rfl
  · rw [show max 1 (w / 8) = w / 8 by omega]
    simp only [h4, h, Bool.false_eq_true, if_false]

theorem storedValue_lt {i v old : Nat} (hv : v < 2 ^ w) (hold : old < 2 ^ 8) : storedValue w i v old < 2 ^ 64 := by
  have hle : 2 ^ w ≤ 2 ^ 32 := Nat.pow_le_pow_right (by decide) (by omega)
  unfold storedValue
  split
  · split <;> omega
  · omega

theorem memory_putElt {s : State} {cl i key v : Nat} {cached : Bool} (h : (cached && s.hasCache cl) = false) (hm : memWf s.mem = true) :
    memGet (s.eltWrite cl i key cached w v).mem = putElt w i key v (memGet s.mem) := by
  rw [eltWrite_memory hw h]
  exact funext fun k => memGet_memPut _ _ _ _ _ hm

theorem eltWrite_cache {s : State} {cl i key v c : Nat} {cached : Bool} (h : (cached && s.hasCache cl) = true) (hr : s.RoomFor cl (c + 1))
    (hin : key % 64 + max 1 (w / 8) ≤ 64) :
    ∃ u, Filled cl s u ∧ u.Brings cl key c ∧ s.eltWrite cl i key cached w v = u.cacheWrite cl key (max 1 (w / 8)) (storedValue w i v (s.seenAt cl key).toNat) := by
  have hb := brings_of_room hr (key := key)
  unfold State.eltWrite storedValue
  by_cases h4 : w = 4
  · subst h4
    have hhas : (cached && (s.fillLine cl key).1.hasCache cl) = true := by
      have hs := congrArg Cluster.split hb.filled.merged.own
      rw [← h]
      unfold State.hasCache
      exact congrArg (fun x => cached && decide (0 < cacheLines x)) hs
    refine ⟨_, hb.filled, brings_of_findLine hb.found hb.room, ?_⟩
    simp only [eltRead_cache h hb (show key % 64 + 1 ≤ 64 from hin), hhas, sumBytes_one, if_true]
    rfl
  · rw [show max 1 (w / 8) = w / 8 by omega] at *
    refine ⟨s, .refl cl s, hb, ?_⟩
    simp only [h4, h, if_false, if_true]

/-- What a store of one element does at the cluster cache. -/
theorem cache_putElt {s : State} {cl i key v c : Nat} {cached : Bool} (h : (cached && s.hasCache cl) = true) (hr : s.RoomFor cl (c + 1))
    (hin : key % 64 + max 1 (w / 8) ≤ 64) (hv : v < 2 ^ w) :
    Merged cl s (s.eltWrite cl i key cached w v) ∧ (s.eltWrite cl i key cached w v).RoomFor cl c ∧
    (s.eltWrite cl i key cached w v).seenAt cl = putElt w i key v (s.seenAt cl) ∧
    (s.eltWrite cl i key cached w v).dirtyAt cl = fun k => s.dirtyAt cl k || decide (key ≤ k ∧ k < key + max 1 (w / 8)) := by
  obtain ⟨u, hf, hb, he⟩ := eltWrite_cache hw (i := i) (v := v) h hr hin
  obtain ⟨hm, hroom⟩ := cacheWrite_merged (n := max 1 (w / 8)) (v := storedValue w i v (s.seenAt cl key).toNat) hb
  obtain ⟨hs, hd⟩ := cacheWrite_views hb hin (by omega) (storedValue_lt hw (i := i) hv (BitVec.isLt (s.seenAt cl key)))
  rw [he]
  refine ⟨hf.merged.trans hm, hroom, funext fun k => ?_, funext fun k => ?_⟩
  · rw [hs k, hf.seenAt k]
    rfl
  · rw [hd k, hf.dirtyAt k]

end Store

/-! ## All elements of a store, one after the other -/

/-- What a step does to a view of the state, the steps of a list do to it one after the other; `P` is what they keep, with the steps still to come. -/
theorem foldl_view {α σ β : Type} {P : List α → σ → Prop} {step : σ → α → σ} {view : σ → β} {F : β → α → β}
    (h : ∀ a l u, P (a :: l) u → P l (step u a) ∧ view (step u a) = F (view u) a) (l : List α) (s : σ) (hs : P l s) :
    P [] (l.foldl step s) ∧ view (l.foldl step s) = l.foldl F (view s) := by
  induction l generalizing s with
  | nil => exact ⟨hs, rfl⟩
  | cons a l ih =>
    obtain ⟨hp, hv⟩ := h a l s hs
    rw [List.foldl_cons, List.foldl_cons, ← hv]
    exact ih _ hp

/-- The bytes behind a store of the elements of a list, `g` their values. -/
def putElts (w : Nat) (g : Nat → Nat) (l : List (Nat × Nat × Bool)) (f : Nat → Byte) : Nat → Byte :=
  l.foldl (fun f p => putElt w p.1 p.2.1 (g p.1) f) f

theorem putElts_append (w : Nat) (g : Nat → Nat) (l1 l2 : List (Nat × Nat × Bool)) (f : Nat → Byte) :
    putElts w g (l1 ++ l2) f = putElts w g l2 (putElts w g l1 f) := List.foldl_append

theorem putElts_uncovered {w : Nat} {g : Nat → Nat} {l : List (Nat × Nat × Bool)} {k : Nat} (h : ∀ p ∈ l, ¬ (p.2.1 ≤ k ∧ k < p.2.1 + max 1 (w / 8)))
    (f : Nat → Byte) : putElts w g l f k = f k := by
  induction l generalizing f with
  | nil => rfl
  | cons p l ih =>
    obtain ⟨hp, hl⟩ := List.forall_mem_cons.1 h
    refine (ih hl _).trans ?_
    exact if_neg hp

theorem putElt_own {w : Nat} (h4 : w ≠ 4) (i k v j : Nat) (f : Nat → Byte) (hj : j < max 1 (w / 8)) :
    putElt w i k v f (k + j) = BitVec.ofNat 8 (v / 256 ^ j) := by
  unfold putElt storedValue
  rw [if_pos ⟨by omega, by omega⟩, if_neg h4, Nat.add_sub_cancel_left]

theorem putElt_nibble (i k v : Nat) (f : Nat → Byte) (hv : v < 16) : (putElt 4 i k v f k).toNat / 16 ^ (i % 2) % 16 = v := by
  have hlt := (f k).isLt
  unfold putElt storedValue
  rw [if_pos ⟨Nat.le_refl _, by omega⟩, if_pos rfl, Nat.sub_self, BitVec.toNat_ofNat]
  rcases Nat.mod_two_eq_zero_or_one i with hi | hi
  · rw [if_pos hi, hi]
    omega
  · rw [if_neg (by omega), hi]
    omega

theorem putElt_other_nibble (i key v k h : Nat) (f : Nat → Byte) (hh : h < 2) (hne : i % 2 ≠ h ∨ key ≠ k) :
    (putElt 4 i key v f k).toNat / 16 ^ h % 16 = (f k).toNat / 16 ^ h % 16 := by
  unfold putElt storedValue
  split
  · next hk =>
    obtain rfl : key = k := by omega
    have hlt := (f key).isLt
    rw [if_pos rfl, Nat.sub_self, BitVec.toNat_ofNat]
    obtain rfl | rfl : h = 0 ∨ h = 1 := by omega
    · rw [if_neg (by omega)]
      omega
    · rw [if_pos (by omega)]
      omega
  · rfl

theorem putElts_other_nibble {g : Nat → Nat} {l : List (Nat × Nat × Bool)} {k h : Nat} (hh : h < 2) (hl : ∀ p ∈ l, p.1 % 2 ≠ h ∨ p.2.1 ≠ k)
    (f : Nat → Byte) : (putElts 4 g l f k).toNat / 16 ^ h % 16 = (f k).toNat / 16 ^ h % 16 := by
  induction l generalizing f with
  | nil => rfl
  | cons p l ih =>
    obtain ⟨hp, hl⟩ := List.forall_mem_cons.1 hl
    exact (ih hl _).trans (putElt_other_nibble _ _ _ _ _ _ hh hp)

/-- The bytes that a store leaves: those outside stay, and of several elements with one place the last one stands. -/
theorem putElts_bytes (w : Nat) (g : Nat → Nat) (hg : ∀ i, g i < 2 ^ w) (l : List (Nat × Nat × Bool)) (f : Nat → Byte) :
    (∀ k, (¬ ∃ p ∈ l, p.2.1 ≤ k ∧ k < p.2.1 + max 1 (w / 8)) → putElts w g l f k = f k) ∧
    (∀ l1 i k b l2, l = l1 ++ (i, k, b) :: l2 →
      (w ≠ 4 → ∀ j < max 1 (w / 8), (∀ p ∈ l2, k + j < p.2.1 ∨ p.2.1 + max 1 (w / 8) ≤ k + j) → putElts w g l f (k + j) = BitVec.ofNat 8 (g i / 256 ^ j)) ∧
      (w = 4 → (∀ p ∈ l2, p.1 % 2 ≠ i % 2 ∨ p.2.1 ≠ k) → (putElts w g l f k).toNat / 16 ^ (i % 2) % 16 = g i)) ∧
    (w = 4 → ∀ k h, h < 2 → (∀ p ∈ l, p.1 % 2 ≠ h ∨ p.2.1 ≠ k) → (putElts w g l f k).toNat / 16 ^ h % 16 = (f k).toNat / 16 ^ h % 16) := by
  refine ⟨fun k hk => putElts_uncovered (fun p hp hc => hk ⟨p, hp, hc⟩) f, fun l1 i k b l2 hl => ?_, ?_⟩
  · rw [hl, putElts_append]
    refine ⟨fun h4 j hj hl2 => ?_, fun h4 hl2 => ?_⟩
    · exact (putElts_uncovered (l := l2) (fun p hp => by have := hl2 p hp; omega) _).trans (putElt_own h4 _ _ _ _ _ hj)
    · subst h4
      exact (putElts_other_nibble (l := l2) (Nat.mod_lt _ (by decide)) hl2 _).trans (putElt_nibble _ _ _ _ (hg i))
  · rintro rfl k h hh hl
    exact putElts_other_nibble hh hl f

/-- The places that a list of elements marks dirty. -/
theorem foldl_dirty (n : Nat) (l : List (Nat × Nat × Bool)) (d : Nat → Bool) (k : Nat) :
    l.foldl (fun d p k => d k || decide (p.2.1 ≤ k ∧ k < p.2.1 + n)) d k = true ↔ d k = true ∨ ∃ p ∈ l, p.2.1 ≤ k ∧ k < p.2.1 + n := by
  induction l generalizing d with
  | nil => simp
  | cons p l ih => rw [List.foldl_cons, ih, Bool.or_eq_true, decide_eq_true_eq, List.exists_mem_cons_iff, or_assoc]

end Sys2Proof.Machine
end

section
namespace Sys2Proof.Machine

/-! ## Loads -/

/-- The elements that a load has read, and whether it met poison, with the bytes of `bytes`. -/
def VCmd.Loads (q : VCmd) (bytes : Nat → Byte) (bad : Nat → Bool) (w : Nat) (l : List (Nat × Nat × Bool)) (r : List (Nat × Nat) × Bool) : Prop :=
  r.1 = ((l.filter fun e => !(q.heard bytes bad (max 1 (w / 8)) e.1 e.2.1).2).map fun e =>
    (e.1, nibble w e.1 (q.heard bytes bad (max 1 (w / 8)) e.1 e.2.1).1)) ∧
  r.2 = l.any fun e => (q.heard bytes bad (max 1 (w / 8)) e.1 e.2.1).2

theorem loadElts_memory {s : State} {q : VCmd} {cl w : Nat} {l : List (Nat × Nat × Bool)} (h : ∀ p ∈ l, (p.2.2 && s.hasCache cl) = false) :
    (loadElts cl w q.got l s).1 = s ∧ q.Loads (memGet s.mem) s.isPoisoned w l (loadElts cl w q.got l s).2 := by
  obtain ⟨⟨hs, -⟩, hr⟩ := loadElts_spec (q := q) (cl := cl) (w := w) (bytes := memGet s.mem) (bad := s.isPoisoned)
    (P := fun l u => u = s ∧ ∀ p ∈ l, (p.2.2 && s.hasCache cl) = false) (fun p l u h => ⟨h.1, (List.forall_mem_cons.1 h.2).2⟩)
    (by
      rintro p l u ⟨rfl, hl⟩
      obtain ⟨hp, hl⟩ := List.forall_mem_cons.1 hl
      rw [eltRead_memory hp]
      exact ⟨rfl, rfl, hl⟩) l s ⟨rfl, h⟩
  exact ⟨hs, hr⟩

/-- The elements of a list lie in lines, one each, of a cluster that has a cache. -/
def Lined (s : State) (cl n : Nat) (l : List (Nat × Nat × Bool)) : Prop := ∀ p ∈ l, (p.2.2 && s.hasCache cl) = true ∧ p.2.1 % 64 + n ≤ 64

theorem Merged.hasCache {cl : Nat} {s u : State} (h : Merged cl s u) : u.hasCache cl = s.hasCache cl := by
  have hs := congrArg Cluster.split h.own
  unfold State.hasCache
  exact congrArg (fun x => decide (0 < cacheLines x)) hs

theorem Filled.isPoisoned {cl : Nat} {s u : State} (h : Filled cl s u) : u.isPoisoned = s.isPoisoned := by
  have := congrArg State.isPoisoned h.rest
  exact this

theorem loadElts_cache {s : State} {q : VCmd} {cl w : Nat} {l : List (Nat × Nat × Bool)} (h : Lined s cl (max 1 (w / 8)) l) (hr : s.RoomFor cl l.length) :
    Filled cl s (loadElts cl w q.got l s).1 ∧ q.Loads (s.seenAt cl) s.isPoisoned w l (loadElts cl w q.got l s).2 := by
  obtain ⟨⟨hs, -⟩, hr⟩ := loadElts_spec (q := q) (cl := cl) (w := w) (bytes := s.seenAt cl) (bad := s.isPoisoned)
    (P := fun l u => Filled cl s u ∧ u.RoomFor cl l.length ∧ Lined s cl (max 1 (w / 8)) l)
    (by
      rintro p l u ⟨hf, hr, hl⟩
      exact ⟨hf, Nat.le_trans (Nat.add_le_add_left (Nat.le_succ _) _) hr, (List.forall_mem_cons.1 hl).2⟩)
    (by
      rintro p l u ⟨hf, hr, hl⟩
      obtain ⟨⟨hp, hin⟩, hl⟩ := List.forall_mem_cons.1 hl
      have hb := brings_of_room hr (key := p.2.1)
      rw [← hf.merged.hasCache] at hp
      rw [eltRead_cache hp hb hin, hf.isPoisoned, show u.seenAt cl = s.seenAt cl from funext hf.seenAt]
      exact ⟨rfl, hf.trans hb.filled, hb.room, hl⟩) l s ⟨.refl cl s, hr, h⟩
  exact ⟨hs, hr⟩

theorem nibble_mod {w i x : Nat} : nibble w i x % 2 ^ w = if w = 4 then x / 16 ^ (i % 2) % 16 else x % 2 ^ w := by
  unfold nibble
  split
  · next h =>
    subst h
    exact Nat.mod_mod _ _
  · rfl

/-- A load that has read its elements through `x`: the registers, the rest of the state, and the poison that ends the issuer. -/
theorem performVector_loads {s x : State} {q : VCmd} {d fmt : Nat} {l : List (Nat × Nat × Bool)} {va : W64} {bytes : Nat → Byte} (hop : q.op = .load d fmt l va)
    (hn : (l.map (·.1)).Nodup) (hlanes : (s.ctx q.ctx).lanes ≤ 256) (hx : (loadElts (clusterOf (coreOf q.ctx)) (fmtWidth fmt) q.got l s).1 = x)
    (hctx : x.ctxs = s.ctxs) (hl : q.Loads bytes s.isPoisoned (fmtWidth fmt) l (loadElts (clusterOf (coreOf q.ctx)) (fmtWidth fmt) q.got l s).2) :
    let w := fmtWidth fmt
    let c := s.ctx q.ctx
    let heard := q.heard bytes s.isPoisoned (max 1 (w / 8))
    ∃ u : State,
      ((∀ i, i < vlen c.laneCount fmt →
        (∀ k b, (i, k, b) ∈ l → eltAt ((u.ctx q.ctx).vbits d) w i = if (heard i k).2 then eltAt (c.vbits d) w i else
          if w = 4 then (heard i k).1 / 16 ^ (i % 2) % 16 else (heard i k).1 % 2 ^ w) ∧
        ((∀ k b, (i, k, b) ∉ l) → eltAt ((u.ctx q.ctx).vbits d) w i = if q.mp = 1 then 2 ^ w - 1 else eltAt (c.vbits d) w i)) ∧
      (∀ r, r ≠ d → (u.ctx q.ctx).vbits r = c.vbits r) ∧ { u.ctx q.ctx with vregs := c.vregs } = c) ∧ (∀ id, id ≠ q.ctx → u.ctx id = s.ctx id) ∧
      { u with ctxs := s.ctxs } = x ∧
      ((∀ p ∈ l, (heard p.1 p.2.1).2 = false) → s.performVector q = u) ∧
      ((∃ p ∈ l, (heard p.1 p.2.1).2 = true) → s.performVector q = u.endAsFail q.ctx c.hnum 0x0C va) := by
  dsimp only
  have hc : ∀ k, x.ctx k = s.ctx k := fun k => congrArg (fun m => (m.get k {} : Ctx)) hctx
  obtain ⟨hvs, hany⟩ := hl
  have hp := (performVector_load (s := s) hop).trans (performMem_load hop)
  have hregs := load_registers (q := q) (d := d) (fmt := fmt) hn hlanes hvs
  dsimp only at hp hregs
  rw [hx] at hp
  generalize (loadElts (clusterOf (coreOf q.ctx)) (fmtWidth fmt) q.got l s).2 = r at hp hvs hany hregs
  refine ⟨_, ?_, fun id hid => ?_, ?_, fun hclean => hp.trans (if_neg ?_), fun hbad => hp.trans (if_pos ?_)⟩
  · rw [ctx_modCtx, if_pos rfl, hc]
    obtain ⟨helts, hrest⟩ := hregs
    refine ⟨fun i hi => ⟨fun k b hin => ?_, (helts i hi).2⟩, hrest⟩
    rw [(helts i hi).1 k b hin, nibble_mod]
  · rw [ctx_modCtx, if_neg hid, hc]
  · rw [← hctx]
    rfl
  · rw [hany, List.any_eq_true]
    rintro ⟨p, hp, hb⟩
    rw [hclean p hp] at hb
    cases hb
  · rw [hany, List.any_eq_true]
    exact hbad

/-! ## Stores -/

section Store
variable {s : State} {cl w : Nat} {g : Nat → Nat} {l : List (Nat × Nat × Bool)} (hw : w = 4 ∨ w = 8 ∨ w = 16 ∨ w = 32)
include hw

theorem storeElts_memory (h : ∀ p ∈ l, (p.2.2 && s.hasCache cl) = false) (hm : memWf s.mem = true) :
    let t := l.foldl (fun u p => u.eltWrite cl p.1 p.2.1 p.2.2 w (g p.1)) s
    { t with mem := s.mem } = s ∧ memGet t.mem = putElts w g l (memGet s.mem) := by
  obtain ⟨⟨-, hr, -⟩, hv⟩ := foldl_view (P := fun l u => (∀ p ∈ l, (p.2.2 && s.hasCache cl) = false) ∧ { u with mem := s.mem } = s ∧ memWf u.mem = true)
    (step := fun u p => u.eltWrite cl p.1 p.2.1 p.2.2 w (g p.1)) (view := fun u => memGet u.mem) (F := fun f p => putElt w p.1 p.2.1 (g p.1) f)
    (by
      rintro p l u ⟨hl, hu, hmu⟩
      obtain ⟨hp, hl⟩ := List.forall_mem_cons.1 hl
      have hpu : (p.2.2 && u.hasCache cl) = false := by
        rw [← hp]
        have := congrArg (fun x : State => p.2.2 && x.hasCache cl) hu
        exact this
      refine ⟨⟨hl, ?_, ?_⟩, memory_putElt hw hpu hmu⟩
      · rw [eltWrite_memory hw hpu]
        exact hu
      · rw [eltWrite_memory hw hpu]
        exact memPut_wf _ _ _ _ hmu) l s ⟨h, rfl, hm⟩
  exact ⟨hr, hv⟩

theorem storeElts_cache (hg : ∀ i, g i < 2 ^ w) (h : Lined s cl (max 1 (w / 8)) l) (hr : s.RoomFor cl l.length) :
    let t := l.foldl (fun u p => u.eltWrite cl p.1 p.2.1 p.2.2 w (g p.1)) s
    Merged cl s t ∧ t.seenAt cl = putElts w g l (s.seenAt cl) ∧
    ∀ k, t.dirtyAt cl k = true ↔ s.dirtyAt cl k = true ∨ ∃ p ∈ l, p.2.1 ≤ k ∧ k < p.2.1 + max 1 (w / 8) := by
  have hstep : ∀ (p : Nat × Nat × Bool) l u, Merged cl s u ∧ u.RoomFor cl (p :: l).length ∧ Lined s cl (max 1 (w / 8)) (p :: l) →
      (Merged cl s (u.eltWrite cl p.1 p.2.1 p.2.2 w (g p.1)) ∧ (u.eltWrite cl p.1 p.2.1 p.2.2 w (g p.1)).RoomFor cl l.length ∧
        Lined s cl (max 1 (w / 8)) l) ∧
      (u.eltWrite cl p.1 p.2.1 p.2.2 w (g p.1)).seenAt cl = putElt w p.1 p.2.1 (g p.1) (u.seenAt cl) ∧
      (u.eltWrite cl p.1 p.2.1 p.2.2 w (g p.1)).dirtyAt cl = fun k => u.dirtyAt cl k || decide (p.2.1 ≤ k ∧ k < p.2.1 + max 1 (w / 8)) := by
    rintro p l u ⟨hf, hr, hl⟩
    obtain ⟨⟨hp, hin⟩, hl⟩ := List.forall_mem_cons.1 hl
    rw [← hf.hasCache] at hp
    obtain ⟨hm, hroom, hview⟩ := cache_putElt hw (i := p.1) hp hr hin (hg p.1)
    exact ⟨⟨hf.trans hm, hroom, hl⟩, hview⟩
  have hstart : Merged cl s s ∧ s.RoomFor cl l.length ∧ Lined s cl (max 1 (w / 8)) l := ⟨.refl cl s, hr, h⟩
  obtain ⟨⟨hm, -⟩, hs⟩ := foldl_view (P := fun l u => Merged cl s u ∧ u.RoomFor cl l.length ∧ Lined s cl (max 1 (w / 8)) l)
    (view := State.seenAt cl) (F := fun f p => putElt w p.1 p.2.1 (g p.1) f) (fun p l u hp => ⟨(hstep p l u hp).1, (hstep p l u hp).2.1⟩) l s hstart
  obtain ⟨-, hd⟩ := foldl_view (P := fun l u => Merged cl s u ∧ u.RoomFor cl l.length ∧ Lined s cl (max 1 (w / 8)) l)
    (view := State.dirtyAt cl) (F := fun d p k => d k || decide (p.2.1 ≤ k ∧ k < p.2.1 + max 1 (w / 8)))
    (fun p l u hp => ⟨(hstep p l u hp).1, (hstep p l u hp).2.2⟩) l s hstart
  refine ⟨hm, hs, fun k => ?_⟩
  rw [congrFun hd k]
  exact foldl_dirty _ _ _ _

end Store

end Sys2Proof.Machine

open Sys2Proof Sys2Proof.Machine

/-- Settles O44: element by element, through memory (`loadElts_memory`, `storeElts_memory`) or through the cluster's cache, whose lines that come from memory
show the same bytes (`Filled.seenAt`). -/
theorem vectorTransfers : Obligations.VectorTransfers := by
  intro s q d fmt l va c cl w n lanes vl t old line dirty seen uncached cached covered hw hlanes look hlook
  have hmem : uncached → ∀ p ∈ l, (p.2.2 && s.hasCache cl) = false := by
    intro h p hp
    rw [Bool.and_eq_false_iff, ← Bool.not_eq_true (s.hasCache cl), hasCache_iff]
    exact (h p hp).imp_right Nat.not_lt.2
  have hline : cached → Lined s cl n l ∧ s.RoomFor cl l.length := by
    rintro ⟨h, hs, hr⟩
    exact ⟨fun p hp => ⟨by rw [(h p hp).1, (hasCache_iff s cl).2 hs, Bool.and_true], (h p hp).2⟩, hr⟩
  refine ⟨fun hop hn => ?_, fun hop hwf => ?_⟩
  · have hclean : uncached → (loadElts cl w q.got l s).1 = s := fun h => (loadElts_memory (hmem h)).1
    have hfill : cached → Filled cl s (loadElts cl w q.got l s).1 := fun h => (loadElts_cache (hline h).1 (hline h).2).1
    have hany : Filled cl s (loadElts cl w q.got l s).1 ∧ q.Loads (look s) s.isPoisoned w l (loadElts cl w q.got l s).2 := by
      rcases hlook with ⟨h, rfl⟩ | ⟨h, rfl⟩
      · obtain ⟨hs, hl⟩ := loadElts_memory (q := q) (w := w) (hmem h)
        rw [hs]
        exact ⟨.refl cl s, hl⟩
      · exact loadElts_cache (hline h).1 (hline h).2
    obtain ⟨hf, hl⟩ := hany
    have hctx := congrArg State.ctxs hf.rest
    obtain ⟨u, ⟨helts, hregs, hframe⟩, hothers, hrest, hgood, hbad⟩ := performVector_loads hop hn hlanes rfl hctx hl
    have hucl := congrArg State.clusters hrest
    refine ⟨u, helts, hregs, hframe, hothers, ?_, fun h => ?_, fun h => ?_, hgood, hbad⟩
    · have := congrArg (fun x : State => { x with clusters := s.clusters }) hrest
      exact Eq.trans this hf.rest
    · exact hucl.trans (congrArg State.clusters (hclean h))
    · have hcl : ∀ k, u.cluster k = (loadElts cl w q.got l s).1.cluster k := fun k => congrArg (fun x => x.cluster k) hrest
      obtain ⟨new, hnew, hcleanLines⟩ := hf.lines
      exact ⟨fun k hk => (hcl k).trans (hf.others k hk), new, (hcl cl).trans hnew, fun m hm => (hcleanLines m hm).2⟩
  · have hg : ∀ i, eltAt (c.vbits d) w i < 2 ^ w := fun i => Nat.mod_lt _ (Nat.two_pow_pos w)
    have ht : t = l.foldl (fun u p => u.eltWrite cl p.1 p.2.1 p.2.2 w (old p.1)) s := performVector_store hop
    rw [ht]
    have hm : uncached → _ := fun h => storeElts_memory (g := old) hw (hmem h) hwf
    have hc : cached → _ := fun h => storeElts_cache (g := old) hw hg (hline h).1 (hline h).2
    generalize l.foldl (fun u p => u.eltWrite cl p.1 p.2.1 p.2.2 w (old p.1)) s = t' at hm hc
    have hbytes : { t' with mem := s.mem, clusters := s.clusters } = s ∧ look t' = putElts w old l (look s) := by
      rcases hlook with ⟨h, rfl⟩ | ⟨h, rfl⟩
      · obtain ⟨hr, hb⟩ := hm h
        have := congrArg (fun x : State => { x with clusters := s.clusters }) hr
        exact ⟨this, hb⟩
      · obtain ⟨hr, hb, -⟩ := hc h
        have := congrArg (fun x : State => { x with mem := s.mem }) hr.rest
        exact ⟨this, hb⟩
    obtain ⟨hrest, hb⟩ := hbytes
    have hput := putElts_bytes w old hg l (look s)
    rw [← hb] at hput
    refine ⟨hrest, fun h => ?_, fun h => ?_, hput⟩
    · have := congrArg State.clusters (hm h).1
      exact this
    · obtain ⟨hr, -, hd⟩ := hc h
      have hmem := congrArg State.mem hr.rest
      exact ⟨hmem, hr.others, hr.own, hd⟩
end

section
/-! O36 (R78, R301, R302). What a plan writes: the bytes of sound sources, and the tags and the poison of whole words. -/

namespace Sys2Proof.Machine

/-! ## Bytes that are put -/

/-- A byte that no pair gives stays. -/
theorem putPairs_missing (l : List (Nat × Option Byte)) (m : List Host.Cell) (k : Nat) (h : ∀ b, (k, some b) ∉ l) (hm : memWf m = true) :
    memGet (putPairs l m) k = memGet m k := by
  induction l generalizing m with
  | nil => rfl
  | cons x l ih =>
    have hl : ∀ b, (k, some b) ∉ l := fun b hb => h b (List.mem_cons_of_mem _ hb)
    obtain ⟨j, _ | b⟩ := x
    · exact ih m hl hm
    · rw [putPairs, ih _ hl (memSet_wf _ _ _ hm)]
      exact memGet_memSet_other _ _ _ _ (fun hk => h b (hk ▸ List.mem_cons_self)) hm

theorem mem_zip_iff {α β : Type} {ks : List α} {vs : List β} {k : α} {x : β} :
    (k, x) ∈ ks.zip vs ↔ ∃ i, ∃ hk : i < ks.length, ∃ hv : i < vs.length, ks[i] = k ∧ vs[i] = x := by
  rw [List.mem_iff_getElem]
  simp only [List.length_zip, List.getElem_zip, Prod.mk.injEq, Nat.lt_min]
  exact ⟨fun ⟨i, ⟨h1, h2⟩, he⟩ => ⟨i, h1, h2, he⟩, fun ⟨i, h1, h2, he⟩ => ⟨i, ⟨h1, h2⟩, he⟩⟩

/-! ## Whole words -/

/-- A word that was written whole: its poison goes, and with `tag` it gets that tag and serves its waiters. -/
def State.wroteWhole (tag : Option Bool) (s : State) (w : Nat) : State :=
  let s := s.setPoison w false
  match tag with
  | some t => (s.setTag w t).serve w s.flights.length
  | none => s

theorem perform_eq (s : State) (p : Plan) (sel : Nat → Bool) (h : p.spoil = false) :
    s.perform p sel = (soundWords ((p.dest.flatMap fun d => wholeWordsIn d.1 d.2).filter sel) (p.out.filter fun x => sel (wordKey x.1))).foldl
      (State.wroteWhole p.tag) { s with mem := putPairs (p.out.filter fun x => sel (wordKey x.1)) s.mem } := by
  unfold State.perform
  dsimp only
  rw [h]
  rfl

/-- The EMPTY words before and after the words `ws` were written with `tag`. -/
def EmptiesBehind (tag : Option Bool) (ws old new : List Nat) : Prop :=
  match tag with
  | none => new = old
  | some true => ∀ x, x ∈ new ↔ x ∈ old ∧ x ∉ ws
  | some false => ∀ x, x ∈ new ↔ x ∈ old ∨ x ∈ ws

/-- Words that were written whole, where no access waits for a tag: their poison is gone and they have the tag. -/
theorem foldl_wroteWhole (tag : Option Bool) (ws : List Nat) (u : State) (hkey : ∀ w ∈ ws, wordKey w = w)
    (hidle : (∀ f ∈ u.flights, f.waiting = none) ∨ tag = none) :
    ∃ po em, ws.foldl (State.wroteWhole tag) u = { u with poison := po, empties := em } ∧ (∀ x, x ∈ po ↔ x ∈ u.poison ∧ x ∉ ws) ∧
      EmptiesBehind tag ws u.empties em := by
  induction ws generalizing u with
  | nil =>
    refine ⟨u.poison, u.empties, rfl, fun x => by simp, ?_⟩
    unfold EmptiesBehind
    split <;> simp
  | cons w ws ih =>
    obtain ⟨hw, hrest⟩ := List.forall_mem_cons.1 hkey
    have hstep : ∃ em, u.wroteWhole tag w = { u with poison := u.poison.filter (· ≠ w), empties := em } ∧ EmptiesBehind tag [w] u.empties em := by
      cases tag with
      | none => exact ⟨u.empties, by simp [State.wroteWhole, State.setPoison, hw], rfl⟩
      | some t =>
        have hs : u.wroteWhole (some t) w = (u.setPoison w false).setTag w t := by
          have hf : ∀ f ∈ ((u.setPoison w false).setTag w t).flights, f.waiting = none := hidle.resolve_right (by simp)
          exact serve_idle hf _ _
        refine ⟨_, hs.trans (by simp [State.setPoison, State.setTag, hw]; rfl), ?_⟩
        cases t with
        | true => simp [EmptiesBehind]
        | false => simp [EmptiesBehind, mem_insertKey_iff, or_comm]
    obtain ⟨em, he, htag⟩ := hstep
    obtain ⟨po, em', he', hpo, htag'⟩ := ih { u with poison := u.poison.filter (· ≠ w), empties := em } hrest hidle
    refine ⟨po, em', ?_, fun x => ?_, ?_⟩
    · rw [List.foldl_cons, he, he']
    · rw [hpo x]
      simp [List.mem_filter, and_assoc]
    · unfold EmptiesBehind at htag htag' ⊢
      split at htag
      · exact htag'.trans htag
      · intro x
        rw [htag' x]
        dsimp only
        rw [htag x]
        simp [and_assoc]
      · intro x
        rw [htag' x]
        dsimp only
        rw [htag x]
        simp [or_assoc]

/-- A plan that is performed, where no access waits for a tag that it sets. -/
theorem perform_spec {s : State} {p : Plan} {sel : Nat → Bool} (hspoil : p.spoil = false) (hidle : (∀ f ∈ s.flights, f.waiting = none) ∨ p.tag = none) :
    ∃ po em, s.perform p sel = { s with mem := putPairs (p.out.filter fun x => sel (wordKey x.1)) s.mem, poison := po, empties := em } ∧
      let ws := soundWords ((p.dest.flatMap fun d => wholeWordsIn d.1 d.2).filter sel) (p.out.filter fun x => sel (wordKey x.1))
      (∀ x, x ∈ po ↔ x ∈ s.poison ∧ x ∉ ws) ∧ EmptiesBehind p.tag ws s.empties em := by
  rw [perform_eq _ _ _ hspoil]
  refine foldl_wroteWhole p.tag _ _ (fun w hw => ?_) hidle
  obtain ⟨d, -, hd⟩ := List.mem_flatMap.1 (List.mem_of_mem_filter (List.mem_of_mem_filter hw))
  exact wordsIn_wordKey (List.mem_of_mem_filter hd)

/-- A whole word of a range is the key of its first byte. -/
theorem mem_byteKeys_of_whole {ds : List (Nat × Nat)} {w : Nat} (h : w ∈ ds.flatMap fun d => wholeWordsIn d.1 d.2) : w ∈ byteKeys ds ∧ wordKey w = w := by
  obtain ⟨d, hd, hw⟩ := List.mem_flatMap.1 h
  obtain ⟨hin, hcover⟩ := List.mem_filter.1 hw
  rw [Bool.and_eq_true, decide_eq_true_eq, decide_eq_true_eq] at hcover
  exact ⟨List.mem_flatMap.2 ⟨d, hd, List.mem_map.2 ⟨w - d.1, List.mem_range.2 (by omega), by omega⟩⟩, wordsIn_wordKey hin⟩

/-! ## Words that lack a byte -/

theorem mem_lacking {ks : List Nat} {a : Nat} {vs : List (Option Byte)} {x : Nat × W64} :
    x ∈ lacking ks a vs ↔ ∃ i, ∃ hk : i < ks.length, ∃ hv : i < vs.length, vs[i] = none ∧ x = (wordKey ks[i], BitVec.ofNat 64 ((a + i) / 8 * 8)) := by
  unfold lacking
  simp only [List.mem_filterMap, Prod.exists, List.mem_zipIdx_iff_getElem?, List.getElem?_eq_some_iff, List.length_zip, List.getElem_zip, Nat.lt_min, Prod.mk.injEq]
  constructor
  · rintro ⟨k, v, i, ⟨⟨hk, hv⟩, hki, hvi⟩, hx⟩
    cases v with
    | some b => simp at hx
    | none => exact ⟨i, hk, hv, hvi, by simpa [hki] using hx.symm⟩
  · rintro ⟨i, hk, hv, hn, rfl⟩
    exact ⟨ks[i], vs[i], i, ⟨⟨hk, hv⟩, rfl, rfl⟩, by simp [hn]⟩

theorem badOf_eq_none {p : Plan} {sel : Nat → Bool} (h : ∀ x ∈ p.bads, sel x.1 = false) : p.badOf sel = none := by
  unfold Plan.badOf
  rw [List.find?_eq_none.2 fun x hx => by simp [h x hx]]
  rfl

theorem badOf_mem {p : Plan} {sel : Nat → Bool} {x : Nat × W64} (hx : x ∈ p.bads) (hs : sel x.1 = true) : ∃ y ∈ p.bads, p.badOf sel = some y.2 := by
  unfold Plan.badOf
  cases hf : p.bads.find? fun x => sel x.1 with
  | none => exact absurd hs (by simpa using List.find?_eq_none.1 hf x hx)
  | some y => exact ⟨y, List.mem_of_find?_eq_some hf, rfl⟩

end Sys2Proof.Machine
end

section
/-! O36 (R78, R301, R302). What a copy plans, and what performing a part of it leaves. -/

namespace Sys2Proof.Machine

/-! ## What a copy plans -/

/-- What copying writes from the bytes `ps` into the pieces `ds`. -/
def copied (a : Nat) (tag : Option Bool) (ks : List Nat) (vals : List (Option Byte)) (ds : List (Nat × Nat)) (list : List Nat) : Plan :=
  { out := (byteKeys ds).zip vals, dest := ds, tag := tag, bads := lacking (byteKeys ds) a vals,
    uses := (if list = [] then [] else [(byteKeys ds, list)]) ++ ((byteKeys ds).zip ks).map fun p => ([p.1], [p.2]) }

theorem copyPlan_ok {s v : State} {core : Nat} {q : EngCmd} {d n : Nat} {ds : List (Nat × Nat)} (h : s.engDest core q d n = (v, .ok ds))
    (a : Nat) (tag : Option Bool) (list : List Nat) (got : Got) :
    s.copyPlan core q d a n tag list got = .write v (copied a tag got.keys got.vals ds list) := by
  simp only [State.copyPlan, h]
  rfl

theorem readKnown_ok {s u : State} {core : Nat} {q : EngCmd} {a n : Nat} {ps : List (Nat × Nat)} (h : s.engSource core q a n = (u, .ok ps)) :
    s.readKnown core q a n = (u, .ok { keys := byteKeys ps, vals := u.fetchFor q (byteKeys ps), bad := poisonAt a (u.fetchFor q (byteKeys ps)) }) := by
  simp only [State.readKnown, h]
  rfl

theorem copyInto_ok {s u v : State} {core : Nat} {q : EngCmd} {d a n : Nat} {ps ds : List (Nat × Nat)} (hs : s.engSource core q a n = (u, .ok ps))
    (hd : u.engDest core q d n = (v, .ok ds)) (tag : Option Bool) :
    copyInto core q d a n tag s = .write v (copied a tag (byteKeys ps) (u.fetchFor q (byteKeys ps)) ds []) := by
  simp only [copyInto, readKnown_ok hs]
  exact copyPlan_ok hd _ _ _ _

theorem length_fetchFor (s : State) (q : EngCmd) (ks : List Nat) : (s.fetchFor q ks).length = ks.length := List.length_map _

/-- A byte that was not read before: the one in memory, and none in a poisoned word. -/
theorem fetchFor_getElem {s : State} {q : EngCmd} {ks : List Nat} (hgot : q.got = []) (hskip : q.skip = false) (hkeys : ∀ k ∈ ks, isNowhere k = false)
    (i : Nat) (h : i < (s.fetchFor q ks).length) :
    (s.fetchFor q ks)[i] = if s.isPoisoned (ks.getD i 0) then none else some (memGet s.mem (ks.getD i 0)) := by
  rw [length_fetchFor] at h
  have hf : q.got.find? ks[i] = none := by rw [hgot]; rfl
  rw [← Option.some_inj, ← List.getElem?_eq_getElem]
  unfold State.fetchFor
  rw [List.getElem?_map, List.getElem?_eq_getElem h, Option.map_some, hf, List.getD_eq_getElem _ _ h]
  dsimp only
  rw [hkeys _ (List.getElem_mem h), hskip, Bool.or_false, Bool.false_and, Bool.or_false]

/-! ## What a part of it does -/

section Copy
variable {u v : State} {q : EngCmd} {a : Nat} {tag : Option Bool} {ks : List Nat} {ds : List (Nat × Nat)} {sel : Nat → Bool} {uses : List Nat}
  (hm : memWf v.mem = true) (hnd : (byteKeys ds).Nodup) (hlen : (byteKeys ds).length = ks.length)
  (hvals : ∀ i, ∀ h : i < (u.fetchFor q ks).length, (u.fetchFor q ks)[i] = if u.isPoisoned (ks.getD i 0) then none else some (memGet u.mem (ks.getD i 0)))
  (hidle : (∀ f ∈ v.flights, f.waiting = none) ∨ tag = none)
include hvals

/-- A pair is one of a byte of the destination. -/
theorem of_mem_copied {k : Nat} {x : Option Byte} (h : (k, x) ∈ ((byteKeys ds).zip (u.fetchFor q ks)).filter fun x => sel (wordKey x.1)) :
    ∃ i, i < (byteKeys ds).length ∧ (byteKeys ds).getD i 0 = k ∧ sel (wordKey k) = true ∧
      x = if u.isPoisoned (ks.getD i 0) then none else some (memGet u.mem (ks.getD i 0)) := by
  obtain ⟨hz, hs⟩ := List.mem_filter.1 h
  obtain ⟨i, hi, hi', rfl, rfl⟩ := mem_zip_iff.1 hz
  exact ⟨i, hi, List.getD_eq_getElem _ _ hi, hs, hvals i hi'⟩

include hlen

/-- The pair of a byte of the destination. -/
theorem copied_pair {i : Nat} (hi : i < (byteKeys ds).length) (hs : sel (wordKey ((byteKeys ds).getD i 0)) = true) :
    ((byteKeys ds).getD i 0, if u.isPoisoned (ks.getD i 0) then none else some (memGet u.mem (ks.getD i 0))) ∈
      ((byteKeys ds).zip (u.fetchFor q ks)).filter fun x => sel (wordKey x.1) := by
  have hi' : i < (u.fetchFor q ks).length := by rw [length_fetchFor]; omega
  exact List.mem_filter.2 ⟨mem_zip_iff.2 ⟨i, hi, hi', (List.getD_eq_getElem _ _ hi).symm, hvals i hi'⟩, hs⟩

omit hvals in
include hnd in
theorem copied_keys_nodup : ((((byteKeys ds).zip (u.fetchFor q ks)).filter fun x => sel (wordKey x.1)).map (·.1)).Nodup := by
  refine List.Nodup.sublist (List.filter_sublist.map _) ?_
  rw [List.map_fst_zip (by rw [length_fetchFor]; omega)]
  exact hnd

include hm hnd hidle

theorem perform_copied (p : Plan) (hp : p = copied a tag uses (u.fetchFor q ks) ds []) :
    let to_ (i : Nat) : Nat := (byteKeys ds).getD i 0
    let lost (i : Nat) : Prop := u.isPoisoned (ks.getD i 0) = true
    let t := v.perform p sel
    (∀ i, i < (byteKeys ds).length → sel (wordKey (to_ i)) = true →
      (¬ lost i → memGet t.mem (to_ i) = memGet u.mem (ks.getD i 0)) ∧ (lost i → memGet t.mem (to_ i) = memGet v.mem (to_ i))) ∧
    (∀ k, k ∉ byteKeys ds ∨ sel (wordKey k) = false → memGet t.mem k = memGet v.mem k) ∧ t.ctxs = v.ctxs ∧ t.flights = v.flights ∧
    (tag = none → t.empties = v.empties) ∧
    (∀ w, w ∈ ds.flatMap (fun r => wholeWordsIn r.1 r.2) → sel w = true → (∀ i, i < (byteKeys ds).length → wordKey (to_ i) = w → ¬ lost i) →
      w ∉ t.poison ∧ (tag = some true → w ∉ t.empties) ∧ (tag = some false → w ∈ t.empties)) := by
  dsimp only
  subst hp
  obtain ⟨po, em, ht, hpo, hem⟩ := perform_spec (s := v) (p := copied a tag uses (u.fetchFor q ks) ds []) (sel := sel) rfl hidle
  rw [ht]
  refine ⟨fun i hi hs => ⟨fun hl => ?_, fun hl => ?_⟩, fun k hk => ?_, rfl, rfl, fun htag => ?_, fun w hw hs hl => ?_⟩
  · refine putPairs_mem _ _ (copied_keys_nodup hnd hlen) hm ?_
    have hpair := copied_pair hlen hvals hi hs
    rwa [if_neg hl] at hpair
  · refine putPairs_missing _ _ _ (fun b hb => ?_) hm
    obtain ⟨j, hj, hji, -, hx⟩ := of_mem_copied hvals hb
    rw [List.getD_eq_getElem _ _ hj, List.getD_eq_getElem _ _ hi] at hji
    obtain rfl := (List.Nodup.getElem_inj_iff hnd).1 hji
    rw [if_pos hl] at hx
    cases hx
  · refine putPairs_missing _ _ _ (fun b hb => ?_) hm
    obtain ⟨j, hj, rfl, hs, -⟩ := of_mem_copied hvals hb
    rcases hk with hk | hk
    · exact hk (by rw [List.getD_eq_getElem _ _ hj]; exact List.getElem_mem hj)
    · rw [hk] at hs
      cases hs
  · subst htag
    exact hem
  · obtain ⟨hin, hkey⟩ := mem_byteKeys_of_whole hw
    obtain ⟨i, hi, hwi⟩ := List.mem_iff_getElem.1 hin
    have hto : (byteKeys ds).getD i 0 = w := (List.getD_eq_getElem _ _ hi).trans hwi
    have hws : w ∈ soundWords ((ds.flatMap fun d => wholeWordsIn d.1 d.2).filter sel) (((byteKeys ds).zip (u.fetchFor q ks)).filter fun x => sel (wordKey x.1)) := by
      refine List.mem_filter.2 ⟨List.mem_filter.2 ⟨hw, hs⟩, ?_⟩
      rw [Bool.and_eq_true, Bool.not_eq_true', ← Bool.not_eq_true, List.any_eq_true, List.any_eq_true]
      refine ⟨⟨_, copied_pair hlen hvals hi (by rw [hto, hkey]; exact hs), by rw [hto, hkey]; exact beq_self_eq_true w⟩, ?_⟩
      rintro ⟨⟨k, x⟩, hx, hnone⟩
      obtain ⟨j, hj, rfl, -, hv⟩ := of_mem_copied hvals hx
      rw [Bool.and_eq_true, beq_iff_eq] at hnone
      rw [if_neg (hl j hj hnone.2)] at hv
      rw [hv] at hnone
      cases hnone.1
    refine ⟨fun hp => ((hpo w).1 hp).2 hws, ?_, ?_⟩
    · rintro rfl hw'
      exact ((hem w).1 hw').2 hws
    · rintro rfl
      exact (hem w).2 (.inr hws)

omit hm hnd hidle

/-- The source word for want of which a word is not whole. -/
theorem badOf_copied :
    let to_ (i : Nat) : Nat := (byteKeys ds).getD i 0
    let lost (i : Nat) : Prop := u.isPoisoned (ks.getD i 0) = true
    let p := copied a tag uses (u.fetchFor q ks) ds []
    ((∀ i, i < (byteKeys ds).length → sel (wordKey (to_ i)) = true → ¬ lost i) → p.badOf sel = none) ∧
    (∀ i, i < (byteKeys ds).length → sel (wordKey (to_ i)) = true → lost i → ∃ j, lost j ∧ p.badOf sel = some (BitVec.ofNat 64 ((a + j) / 8 * 8))) := by
  dsimp only
  have hlost : ∀ i, ∀ h : i < (u.fetchFor q ks).length, (u.fetchFor q ks)[i] = none ↔ u.isPoisoned (ks.getD i 0) = true := by
    intro i h
    rw [hvals i h]
    split
    next hp => exact ⟨fun _ => hp, fun _ => rfl⟩
    next hp => exact ⟨(nomatch ·), fun hl => absurd hl hp⟩
  refine ⟨fun h => badOf_eq_none fun x hx => ?_, fun i hi hs hl => ?_⟩
  · obtain ⟨i, hi, hv, hn, rfl⟩ := mem_lacking.1 hx
    have hi' := h i hi
    rw [List.getD_eq_getElem _ _ hi] at hi'
    exact Bool.eq_false_iff.2 fun hs => hi' hs ((hlost i hv).1 hn)
  · have hv : i < (u.fetchFor q ks).length := by rw [length_fetchFor]; omega
    rw [List.getD_eq_getElem _ _ hi] at hs
    obtain ⟨y, hy, hb⟩ := badOf_mem (p := copied a tag uses (u.fetchFor q ks) ds []) (mem_lacking.2 ⟨i, hi, hv, (hlost i hv).2 hl, rfl⟩) hs
    obtain ⟨j, _, hv', hn, rfl⟩ := mem_lacking.1 hy
    exact ⟨j, (hlost j hv').1 hn, hb⟩

end Copy

/-! ## BARGE, BARGEM, and what BARGEM selects (R304, R305) -/

theorem engEffect_barge {core : Nat} {q : EngCmd} {d a : W64} {n : Nat} (h : q.op = .barge d a n) (hn : 0 < n) (s : State) :
    engEffect core q s = bargeEffect core q d.toNat a.toNat n s := by
  simp only [engEffect, h]
  exact if_neg (by omega)

/-- One remote module for all pieces. -/
def OneModule (ds : List (Nat × Nat)) : Prop := ∃ dev, ∀ p ∈ ds, isRemoteKey p.1 = true ∧ keyDev p.1 = dev

/-- The module of a piece; none for one that is not remote. -/
def moduleOf (p : Nat × Nat) : Option Nat := if isRemoteKey p.1 then some (keyDev p.1) else none

def modulesOf (ds : List (Nat × Nat)) : List (Option Nat) := (ds.filter fun p => !(isNowhere p.1)).map moduleOf

theorem modulesOf_one {ds : List (Nat × Nat)} (h : ∀ p ∈ ds, isNowhere p.1 = false) :
    ((modulesOf ds).all fun x => x.isSome && (modulesOf ds).head? == some x) = true ↔ OneModule ds := by
  have hds : (ds.filter fun p => !(isNowhere p.1)) = ds := List.filter_eq_self.2 fun p hp => by rw [h p hp]; rfl
  unfold modulesOf OneModule
  rw [hds]
  cases ds with
  | nil => simp
  | cons p ds =>
    rw [List.all_eq_true, List.map_cons, List.head?_cons]
    constructor
    · intro hall
      refine ⟨keyDev p.1, fun r hr => ?_⟩
      have hp := hall _ List.mem_cons_self
      have hr := hall _ (List.mem_map_of_mem (f := moduleOf) hr)
      unfold moduleOf at hp hr
      cases hr1 : isRemoteKey r.1 <;> cases hp1 : isRemoteKey p.1 <;> simp [hr1, hp1] at hr hp ⊢
      exact hr.symm
    · rintro ⟨dev, hall⟩ x hx
      obtain ⟨r, hr, rfl⟩ := List.mem_map.1 (show x ∈ (p :: ds).map moduleOf from hx)
      obtain ⟨h1, h2⟩ := hall r hr
      obtain ⟨h3, h4⟩ := hall p List.mem_cons_self
      simp [moduleOf, h1, h2, h3, h4]

theorem bargeEffect_ok {core : Nat} {q : EngCmd} {d a n : Nat} {s u : State} {ds : List (Nat × Nat)} (h : s.engKeys core q accEWrite (chunks d n) = (u, .ok ds)) :
    bargeEffect core q d a n s = if (modulesOf ds).all fun x => x.isSome && (modulesOf ds).head? == some x then copyInto core q d a n none u
      else .stop (.fault (engFault d accEWrite)) := by
  simp only [bargeEffect, h]
  rfl

end Sys2Proof.Machine
end

section
/-! O36 (R303). CPYG in a core's local memory. -/

namespace Sys2Proof.Machine

/-! ## The bytes of a range -/

theorem map_range_append (a x y : Nat) : (List.range x).map (a + ·) ++ (List.range y).map (a + x + ·) = (List.range (x + y)).map (a + ·) := by
  rw [List.range_add, List.map_append, List.map_map]
  simp only [Function.comp_def, Nat.add_assoc]

/-- The chunks of a range hold its bytes in order. -/
theorem byteKeys_chunks (a len : Nat) : byteKeys (chunks a len) = (List.range len).map (a + ·) := by
  have upTo (q : Nat) (hq : q * 65536 ≤ a) (n : Nat) :
      byteKeys ((List.range n).map fun i => (max a ((q + i) * 65536), min (a + len) ((q + i + 1) * 65536) - max a ((q + i) * 65536))) =
        (List.range (min (a + len) (max a ((q + n) * 65536)) - a)).map (a + ·) := by
    induction n with
    | zero =>
      rw [show min (a + len) (max a ((q + 0) * 65536)) - a = 0 by omega]
      rfl
    | succ n ih =>
      unfold byteKeys at ih ⊢
      obtain ⟨c, hc⟩ : ∃ c, min (a + len) (max a ((q + n) * 65536)) - a = c := ⟨_, rfl⟩
      rw [List.range_succ, List.map_append, List.flatMap_append, ih, List.map_singleton, List.flatMap_singleton, hc]
      dsimp only
      by_cases hn : max a ((q + n) * 65536) ≤ a + len
      · rw [show max a ((q + n) * 65536) = a + c by omega, map_range_append]
        exact congrArg (fun m => (List.range m).map (a + ·)) (by omega)
      · rw [show min (a + len) ((q + n + 1) * 65536) - max a ((q + n) * 65536) = 0 by omega, List.range_zero, List.map_nil, List.append_nil]
        exact congrArg (fun m => (List.range m).map (a + ·)) (by omega)
  unfold chunks
  split
  next h =>
    subst h
    rfl
  next h =>
    refine (upTo (a / 65536) (Nat.div_mul_le_self a 65536) _).trans ?_
    have h1 : a / 65536 ≤ (a + len - 1) / 65536 := Nat.div_le_div_right (by omega)
    have h2 := Nat.lt_div_mul_add (a := a + len - 1) (b := 65536) (by omega)
    exact congrArg (fun m => (List.range m).map (a + ·)) (by omega)

theorem chunks_within {a len : Nat} {p : Nat × Nat} (h : p ∈ chunks a len) : a ≤ p.1 ∧ 0 < p.2 ∧ p.1 + p.2 ≤ a + len := by
  unfold chunks at h
  split at h
  · cases h
  · obtain ⟨i, hi, rfl⟩ := List.mem_map.1 h
    rw [List.mem_range] at hi
    dsimp only
    omega

/-- Pieces of one length each, one after the other. -/
theorem getD_flatMap {α β : Type} (l : List α) (f : α → List β) (n : Nat) (hf : ∀ x ∈ l, (f x).length = n) (e : β) (i k : Nat) (hi : i < l.length) (hk : k < n) :
    (l.flatMap f).getD (i * n + k) e = (f l[i]).getD k e := by
  induction l generalizing i with
  | nil => exact absurd hi (Nat.not_lt_zero i)
  | cons x l ih =>
    obtain ⟨hx, hl⟩ := List.forall_mem_cons.1 hf
    rw [List.flatMap_cons]
    cases i with
    | zero =>
      rw [Nat.zero_mul, Nat.zero_add, List.getD_append _ _ _ _ (by rw [hx]; exact hk)]
      rfl
    | succ i =>
      rw [List.getD_append_right _ _ _ _ (by rw [hx, Nat.succ_mul]; omega), hx, show (i + 1) * n + k - n = i * n + k by rw [Nat.succ_mul]; omega]
      exact ih hl i (Nat.lt_of_succ_lt_succ hi)

/-- The number of some bytes is the sum of them by their places. -/
theorem bytesNat_map_range (f : Nat → Byte) (n : Nat) : bytesNat ((List.range n).map f) = ((List.range n).map fun k => (f k).toNat * 256 ^ k).sum := by
  induction n generalizing f with
  | zero => rfl
  | succ n ih =>
    rw [List.range_succ_eq_map, List.map_cons, List.map_cons, List.sum_cons, List.map_map, List.map_map, bytesNat]
    have := ih (f ∘ Nat.succ)
    rw [this, ← List.sum_map_mul_left, Nat.pow_zero, Nat.mul_one]
    refine congrArg (_ + List.sum ·) (List.map_congr_left fun k _ => ?_)
    simp only [Function.comp_apply, Nat.succ_eq_add_one, Nat.pow_succ]
    ring

/-! ## Local memory for an engine (R58, R61) -/

/-- Pieces of a core's local memory. -/
def LocalPieces (core : Nat) (ps : List (Nat × Nat)) : Prop :=
  ∀ p ∈ ps, localKey core 0 ≤ p.1 ∧ 0 < p.2 ∧ p.1 + p.2 ≤ localKey core 0 + 0x20000

/-- The pieces of a range at the addresses that name a core's own local memory. -/
def aliasPieces (core a n : Nat) : List (Nat × Nat) := (chunks a n).map fun p => (localKey core (p.1 - aliasBase), p.2)

/-- A range lies at the addresses that name a core's own local memory. -/
def InAlias (a n : Nat) : Prop := aliasBase ≤ a ∧ a + n ≤ 2 ^ 64

theorem placeOf_alias {a : Nat} (h : aliasBase ≤ a) : placeOf a = .local_ (a - aliasBase) := by
  unfold placeOf
  rw [if_neg (by unfold aliasBase at h; omega), if_pos h]

theorem localPieces_alias {a n : Nat} (core : Nat) (h : InAlias a n) : LocalPieces core (aliasPieces core a n) := by
  obtain ⟨ha, hn⟩ := h
  intro p hp
  obtain ⟨r, hr, rfl⟩ := List.mem_map.1 hp
  obtain ⟨h1, h2, h3⟩ := chunks_within hr
  unfold localKey aliasBase at *
  dsimp only
  omega

theorem localKey_alias_add {a : Nat} (core : Nat) (h : aliasBase ≤ a) (k : Nat) : localKey core (a - aliasBase) + k = localKey core (a + k - aliasBase) := by
  unfold localKey
  rw [Nat.add_assoc, Nat.sub_add_comm h]

theorem byteKeys_alias {a n : Nat} (core : Nat) (h : InAlias a n) :
    byteKeys (aliasPieces core a n) = (List.range n).map fun k => localKey core (a + k - aliasBase) := by
  have hshift : byteKeys (aliasPieces core a n) = (byteKeys (chunks a n)).map fun x => localKey core (x - aliasBase) := by
    unfold byteKeys aliasPieces
    rw [List.flatMap_map, List.map_flatMap]
    refine List.flatMap_congr fun p hp => ?_
    rw [List.map_map]
    refine List.map_congr_left fun k _ => ?_
    rw [Function.comp_apply, localKey_alias_add core (Nat.le_trans h.1 (chunks_within hp).1) k]
  rw [hshift, byteKeys_chunks, List.map_map, Function.comp_def]

theorem engKeyOr_alias {q : EngCmd} {a : Nat} (hp : q.pages = []) (ha : aliasBase ≤ a) (s : State) (core : Nat) (acc : Acc) :
    s.engKeyOr core q acc a = (s, .ok (localKey core (a - aliasBase))) := by
  simp only [State.engKeyOr, State.engKey, hp, placeOf_alias ha]
  rfl

theorem engKeys_alias {q : EngCmd} (hp : q.pages = []) (core : Nat) (acc : Acc) (l : List (Nat × Nat)) (hl : ∀ p ∈ l, aliasBase ≤ p.1) (s : State) :
    s.engKeys core q acc l = (s, .ok (l.map fun p => (localKey core (p.1 - aliasBase), p.2))) := by
  induction l with
  | nil => rfl
  | cons p l ih =>
    obtain ⟨h, hl⟩ := List.forall_mem_cons.1 hl
    simp only [State.engKeys, engKeyOr_alias hp h, ih hl, List.map_cons]

theorem routed_local {core : Nat} (hc : core < 4096) {ps : List (Nat × Nat)} (h : LocalPieces core ps) (s : State) : s.routed ps = true := by
  unfold State.routed
  refine List.all_eq_true.2 fun p hp => ?_
  obtain ⟨h1, h2, h3⟩ := h p hp
  have hlocal : isRemoteKey p.1 = false := by
    have hlow : ¬ p.1 < meshBase := by
      unfold localKey at h1
      omega
    have hhigh : ¬ 2 ^ 64 ≤ p.1 := by
      unfold localKey meshBase at h3
      omega
    rw [isRemoteKey, decide_eq_false hlow, decide_eq_false hhigh]
    simp
  rw [hlocal]
  rfl

theorem bankBusy_local {core w : Nat} (hc : core < 4096) (h1 : localKey core 0 ≤ w) (h2 : w < localKey core 0 + 0x20000) (s : State) : s.bankBusy w = false := by
  have hplace : placeOf w = .mesh ((w - meshBase) / 0x20000) ((w - meshBase) % 0x20000) := by
    unfold placeOf
    unfold localKey meshBase at *
    rw [if_neg (by omega), if_neg (by unfold aliasBase; omega), if_pos (by omega)]
  unfold State.bankBusy
  rw [hplace]

theorem refreshing_local {core : Nat} (hc : core < 4096) {ps : List (Nat × Nat)} (h : LocalPieces core ps) (s : State) (q : EngCmd) : s.refreshing q ps = false := by
  unfold State.refreshing
  rw [← Bool.not_eq_true, List.any_eq_true]
  rintro ⟨w, hw, hbusy⟩
  obtain ⟨p, hp, hw⟩ := List.mem_flatMap.1 hw
  obtain ⟨h1, h2, h3⟩ := h p hp
  have hin : localKey core 0 ≤ w ∧ w < localKey core 0 + 0x20000 := by
    unfold wordsIn at hw
    rw [if_neg (by omega)] at hw
    obtain ⟨i, hi, rfl⟩ := List.mem_map.1 hw
    rw [List.mem_range] at hi
    have h8 : localKey core 0 % 8 = 0 := by
      unfold localKey meshBase
      omega
    omega
  rw [bankBusy_local hc hin.1 hin.2, Bool.false_and] at hbusy
  cases hbusy

/-! ## Reads behind a cache without dirty bytes -/

/-- The lines of a cluster hold no dirty byte. -/
def State.Undirty (s : State) (cl : Nat) : Prop := ∀ l ∈ (s.cluster cl).lines, l.dirty = 0

/-- From `s` to `u` the clusters alone may differ, and the cache of one still holds no dirty byte. -/
structure Reads (cl : Nat) (s u : State) : Prop where
  rest    : { u with clusters := s.clusters } = s
  undirty : u.Undirty cl

theorem Reads.refl {cl : Nat} {s : State} (h : s.Undirty cl) : Reads cl s s := ⟨rfl, h⟩

theorem Reads.trans {cl : Nat} {s t u : State} (h : Reads cl s t) (g : Reads cl t u) : Reads cl s u := by
  refine ⟨?_, g.undirty⟩
  have := congrArg (fun x : State => { x with clusters := s.clusters }) g.rest
  exact Eq.trans this h.rest

theorem Reads.mem {cl : Nat} {s u : State} (h : Reads cl s u) : u.mem = s.mem := by
  have := congrArg State.mem h.rest
  exact this

theorem Reads.isPoisoned {cl : Nat} {s u : State} (h : Reads cl s u) (k : Nat) : u.isPoisoned k = s.isPoisoned k := by
  have := congrArg (fun x => x.isPoisoned k) h.rest
  exact this

/-- Writing back lines without dirty bytes writes nothing. -/
theorem reads_writeBack {s : State} {cl : Nat} (h : s.Undirty cl) (p : Line → Bool) : Reads cl s (s.writeBack cl p false) := by
  have hnone : ((s.cluster cl).lines.filter fun l => p l && l.dirty != 0) = [] := by
    rw [List.filter_eq_nil_iff]
    intro l hl
    simp [h l hl]
  have he : s.writeBack cl p false = s.modCluster cl fun c => { c with lines := (s.cluster cl).lines.map fun l => if p l then { l with dirty := 0 } else l } := by
    unfold State.writeBack
    dsimp only
    rw [hnone]
    rfl
  rw [he]
  refine ⟨rfl, fun l hl => ?_⟩
  rw [cluster_modCluster, if_pos rfl] at hl
  obtain ⟨m, hm, rfl⟩ := List.mem_map.1 hl
  split
  · rfl
  · exact h m hm

/-! ## A range of local memory that is read -/

section LocalRead
variable {core : Nat} {q : EngCmd} (hc : core < 4096) (hpages : q.pages = []) (hmig : q.mig = false) (hissuer : q.issuer / 4096 = 0)
include hc

theorem engReads_local {s : State} (hs : s.Undirty (clusterOf core)) {ps : List (Nat × Nat)} (h : LocalPieces core ps) (q : EngCmd) :
    ∃ u, Reads (clusterOf core) s u ∧ State.engReads core q (s, .ok ps) = (u, .ok ps) := by
  refine ⟨_, reads_writeBack hs (meetsAny ps), ?_⟩
  simp only [State.engReads, refreshing_local hc h, Bool.false_and, Bool.false_eq_true, if_false]

include hpages

theorem engPieces_local {a n : Nat} (h : InAlias a n) (s : State) : s.engPieces core q a n = (s, .ok (aliasPieces core a n)) := by
  have hl : ∀ p ∈ chunks a n, aliasBase ≤ p.1 := fun p hp => Nat.le_trans h.1 (chunks_within hp).1
  simp only [State.engPieces, engKeys_alias hpages core accERead _ hl s]
  exact if_pos (routed_local hc (localPieces_alias core h) s)

theorem engDest_local {a n : Nat} (h : InAlias a n) (s : State) : s.engDest core q a n = (s, .ok (aliasPieces core a n)) := by
  have hl : ∀ p ∈ chunks a n, aliasBase ≤ p.1 := fun p hp => Nat.le_trans h.1 (chunks_within hp).1
  simp only [State.engDest, engKeys_alias hpages core accEWrite _ hl s]
  exact if_pos (routed_local hc (localPieces_alias core h) s)

omit hc hpages
include hmig hissuer

theorem laterFault_local {a n : Nat} (h : InAlias a n) (s : State) : s.laterFault q a n false = false := by
  obtain ⟨ha, hn⟩ := h
  by_cases h0 : n = 0
  · subst h0
    rfl
  have hplace := placeOf_alias ha
  have hend := placeOf_alias (show aliasBase ≤ a + (n - 1) by omega)
  have hrange : rangeFault a n = none := by
    unfold rangeFault
    dsimp only
    rw [if_neg h0, if_neg (by omega), hplace, hend]
  have hhelper : isHelper q.issuer = false := by
    unfold isHelper slotOf
    rw [hissuer]
    rfl
  simp only [State.laterFault, State.windowFault, State.berthFault, hrange, hplace, hmig, hhelper]
  simp

include hc hpages

theorem laterPieces_local {a n : Nat} (h : InAlias a n) (s : State) : s.laterPieces core q a n = (s, .ok (aliasPieces core a n)) := by
  unfold State.laterPieces
  rw [laterFault_local hmig hissuer h, if_neg Bool.false_ne_true]
  exact engPieces_local hc hpages h s

end LocalRead

end Sys2Proof.Machine
end

section
/-! O36 (R303). The records of CPYG in a core's local memory. -/

namespace Sys2Proof.Machine

/-- The key of an address that names a core's own local memory. -/
def aliasKey (core x : Nat) : Nat := localKey core (x - aliasBase)

/-- A command that has read nothing, passes over nothing and comes from a control context: one that reads its core's local memory. -/
structure EngCmd.Fresh (q : EngCmd) : Prop where
  got    : q.got = []
  pages  : q.pages = []
  mig    : q.mig = false
  skip   : q.skip = false
  issuer : q.issuer / 4096 = 0

/-- No word of a core's local memory is poisoned. -/
def State.SoundLocal (s : State) (core : Nat) : Prop := ∀ o, o < 0x20000 → s.isPoisoned (localKey core o) = false

theorem lacking_sound (ks : List Nat) (a : Nat) {vs : List (Option Byte)} (h : ∀ x ∈ vs, x ≠ none) : lacking ks a vs = [] := by
  refine List.eq_nil_iff_forall_not_mem.2 fun x hx => ?_
  obtain ⟨i, _, hv, hn, -⟩ := mem_lacking.1 hx
  exact h _ (List.getElem_mem hv) hn

/-- The numbers of a list of indices that was read whole. -/
theorem indexList_sound (w m : Nat) (f : Nat → Byte) :
    indexList w ((List.range (m * w)).map fun k => some (f k)) m =
      (List.range m).map fun i => some ((List.range w).map fun k => (f (i * w + k)).toNat * 256 ^ k).sum := by
  unfold indexList
  refine List.map_congr_left fun i hi => ?_
  have hle : w * i + w ≤ m * w := by
    rw [← Nat.mul_succ, Nat.mul_comm m w]
    exact Nat.mul_le_mul_left w (List.mem_range.1 hi)
  have hpart : (((List.range (m * w)).map fun k => some (f k)).drop (w * i)).take w = (List.range w).map fun k => some (f (i * w + k)) := by
    refine List.ext_getElem (by simp; omega) fun k h1 h2 => ?_
    simp [Nat.mul_comm w i]
  dsimp only
  rw [hpart, if_neg (by simp), List.map_map]
  exact congrArg some (bytesNat_map_range (fun k => f (i * w + k)) w)

section Local
variable {core : Nat} {q : EngCmd} (hc : core < 4096) (hq : q.Fresh)
include hc hq

theorem fetchFor_local {s : State} (hs : s.SoundLocal core) {a n : Nat} (h : InAlias a n) :
    s.fetchFor q (byteKeys (aliasPieces core a n)) = (List.range n).map fun k => some (memGet s.mem (aliasKey core (a + k))) := by
  obtain ⟨ha, hn⟩ := h
  rw [byteKeys_alias core ⟨ha, hn⟩]
  unfold State.fetchFor
  rw [List.map_map]
  refine List.map_congr_left fun k hk => ?_
  have hk := List.mem_range.1 hk
  have hoff : a + k - aliasBase < 0x20000 := by
    unfold aliasBase at *
    omega
  have hnowhere : isNowhere (localKey core (a + k - aliasBase)) = false := by
    unfold isNowhere nowhere
    refine decide_eq_false ?_
    generalize a + k - aliasBase = o at hoff
    unfold localKey meshBase
    omega
  have hf : q.got.find? (localKey core (a + k - aliasBase)) = none := by rw [hq.got]; rfl
  rw [Function.comp_apply, hf]
  dsimp only
  rw [hs _ hoff, hnowhere, hq.skip]
  rfl

/-- A range of local memory that the engine reads, known at issue or found later. -/
theorem gotFrom_local {s : State} (hu : s.Undirty (clusterOf core)) (hs : s.SoundLocal core) {a n : Nat} (h : InAlias a n) :
    ∃ u got, Reads (clusterOf core) s u ∧ s.readKnown core q a n = (u, .ok got) ∧ s.readLater core q a n = (u, .ok got) ∧
      got.vals = (List.range n).map fun k => some (memGet s.mem (aliasKey core (a + k))) := by
  obtain ⟨u, hr, he⟩ := engReads_local hc hu (localPieces_alias core h) q
  have hvals := fetchFor_local hc hq (s := u) (fun o ho => (hr.isPoisoned _).trans (hs o ho)) h
  rw [hr.mem] at hvals
  refine ⟨u, { keys := byteKeys (aliasPieces core a n), vals := u.fetchFor q (byteKeys (aliasPieces core a n)), bad := poisonAt a (u.fetchFor q (byteKeys (aliasPieces core a n))) },
    hr, ?_, ?_, hvals⟩
  · unfold State.readKnown State.engSource
    rw [engPieces_local hc hq.pages h, he]
    rfl
  · unfold State.readLater State.laterSource
    rw [laterPieces_local hc hq.pages hq.mig hq.issuer h, he]
    rfl

theorem recordPieces_local {a z : Nat} (xs : List Nat) (hx : ∀ x ∈ xs, InAlias (a + x * z) z) (s : State) :
    ∃ ps, recordPieces core q a z (xs.map some) s = (s, .ok ps) ∧ LocalPieces core ps := by
  induction xs with
  | nil => exact ⟨[], rfl, fun p hp => absurd hp List.not_mem_nil⟩
  | cons x xs ih =>
    obtain ⟨h, hx⟩ := List.forall_mem_cons.1 hx
    obtain ⟨ps, he, hps⟩ := ih hx
    refine ⟨aliasPieces core (a + x * z) z ++ ps, ?_, List.forall_mem_append.2 ⟨localPieces_alias core h, hps⟩⟩
    rw [List.map_cons, recordPieces, laterPieces_local hc hq.pages hq.mig hq.issuer h]
    dsimp only
    rw [he]

/-- What a record of index `y.1` writes at place `y.2`. -/
def recordAt (core a d z : Nat) (m : List Host.Cell) (y : Nat × Nat) : List (Nat × Option Byte) :=
  (List.range z).map fun k => (aliasKey core (d + y.2 * z + k), some (memGet m (aliasKey core (a + y.1 * z + k))))

theorem gatherRecords_local {a d z w at_ : Nat} {list : List Nat} (l : List (Nat × Nat)) (hl : ∀ y ∈ l, InAlias (a + y.1 * z) z ∧ InAlias (d + y.2 * z) z)
    (p : Plan) {s : State} (hu : s.Undirty (clusterOf core)) (hs : s.SoundLocal core) :
    ∃ v r, gatherRecords core q d a z w at_ list (l.map fun y => (some y.1, y.2)) p s = .write v r ∧ Reads (clusterOf core) s v ∧ r.tag = p.tag ∧ r.bad = p.bad ∧
      r.bads = p.bads ∧ r.out = p.out ++ l.flatMap (recordAt core a d z s.mem) := by
  induction l generalizing p s with
  | nil => exact ⟨s, p, rfl, .refl hu, rfl, rfl, rfl, by rw [List.flatMap_nil, List.append_nil]⟩
  | cons y l ih =>
    obtain ⟨⟨hsrc, hdst⟩, hl⟩ := List.forall_mem_cons.1 hl
    obtain ⟨u, got, hr, -, hread, hvals⟩ := gotFrom_local hc hq hu hs hsrc
    have hplan := copyPlan_ok (engDest_local hc hq.pages hdst u) (a + y.1 * z) none ((list.drop (w * y.2)).take w) got
    have hlack : lacking (byteKeys (aliasPieces core (d + y.2 * z) z)) (a + y.1 * z) got.vals = [] := lacking_sound _ _ (by rw [hvals]; simp)
    have hout : (byteKeys (aliasPieces core (d + y.2 * z) z)).zip got.vals = recordAt core a d z s.mem y := by
      rw [byteKeys_alias core hdst, hvals, List.zip_map']
      rfl
    obtain ⟨v, r, he, hr', htag, hbad, hbads, hro⟩ := ih hl
      (p.append (copied (a + y.1 * z) none got.keys got.vals (aliasPieces core (d + y.2 * z) z) ((list.drop (w * y.2)).take w))) hr.undirty
      fun o ho => (hr.isPoisoned _).trans (hs o ho)
    refine ⟨v, r, ?_, hr.trans hr', htag, ?_, ?_, ?_⟩
    · rw [List.map_cons, gatherRecords, hread]
      dsimp only
      rw [hplan]
      exact he
    · rw [hbad]
      exact Option.or_none
    · rw [hbads]
      exact (congrArg (p.bads ++ ·) hlack).trans (List.append_nil _)
    · rw [hro, hr.mem, List.flatMap_cons, ← List.append_assoc]
      exact congrArg (p.out ++ · ++ _) hout

/-- CPYG in local memory: record `index i` goes to place `i`. -/
theorem gatherEffect_local {d a l : W64} {z m w : Nat} {s : State} (hu : s.Undirty (clusterOf core)) (hs : s.SoundLocal core) (hl : InAlias l.toNat (m * w))
    (hd : ∀ i < m, InAlias (d.toNat + i * z) z) (index : Nat → Nat)
    (hindex : ∀ i, index i = ((List.range w).map fun k => (memGet s.mem (aliasKey core (l.toNat + i * w + k))).toNat * 256 ^ k).sum)
    (ha : ∀ i < m, InAlias (a.toNat + index i * z) z) :
    ∃ v p, gatherEffect core q d a l z m w s = .write v p ∧ v.mem = s.mem ∧ p.tag = none ∧ p.bad = none ∧ p.bads = [] ∧
      p.out = (List.range m).flatMap fun i => recordAt core a.toNat d.toNat z s.mem (index i, i) := by
  obtain ⟨u, got, hr, hread, -, hvals⟩ := gotFrom_local hc hq hu hs hl
  have hxs : indexList w got.vals m = ((List.range m).map index).map some := by
    rw [hvals, indexList_sound, List.map_map]
    refine List.map_congr_left fun i _ => congrArg some ?_
    rw [hindex i]
    simp only [Nat.add_assoc]
  have hin : ∀ x ∈ (List.range m).map index, InAlias (a.toNat + x * z) z := by
    intro x hx
    obtain ⟨i, hi, rfl⟩ := List.mem_map.1 hx
    exact ha i (List.mem_range.1 hi)
  obtain ⟨ps, hps, hlocal⟩ := recordPieces_local hc hq _ hin u
  obtain ⟨u', hr', he⟩ := engReads_local hc hr.undirty hlocal q
  have hpairs : (((List.range m).map index).map some).zipIdx = ((List.range m).map fun i => (index i, i)).map fun y => (some y.1, y.2) := by
    refine List.ext_getElem (by simp) fun i h1 h2 => ?_
    simp
  have hreads := hr.trans hr'
  obtain ⟨v, p, hg, hv, htag, hbad, hbads, hout⟩ := gatherRecords_local hc hq (at_ := l.toNat) (w := w) (list := got.keys) ((List.range m).map fun i => (index i, i))
    (a := a.toNat) (d := d.toNat) (z := z) (fun y hy => by
      obtain ⟨i, hi, rfl⟩ := List.mem_map.1 hy
      exact ⟨ha i (List.mem_range.1 hi), hd i (List.mem_range.1 hi)⟩) { out := [], dest := [] } hr'.undirty fun o ho => (hreads.isPoisoned _).trans (hs o ho)
  refine ⟨v, p, ?_, hv.mem.trans hreads.mem, htag, hbad, hbads, ?_⟩
  · unfold gatherEffect
    rw [hread]
    dsimp only
    rw [hxs, hps, he, hpairs]
    exact hg
  · rw [hout, hreads.mem, List.flatMap_map]
    rfl

end Local

end Sys2Proof.Machine
end

section
/-! O36 (R182, R183, R305, R321, R322). BARGEM and its targets, and attention requests. -/

namespace Sys2Proof.Machine

/-! ## BARGEM (R305) -/

/-- What writing the bytes that were read at `a` to each of some places writes. -/
def broadcast (keys : List Nat) (a n : Nat) (got : Got) : Plan :=
  let ds := keys.map fun k => (k, n)
  { out := ds.flatMap fun d => (byteKeys [d]).zip got.vals, dest := ds, bads := ds.flatMap fun d => lacking (byteKeys [d]) a got.vals,
    uses := ds.flatMap fun d => ((byteKeys [d]).zip got.keys).map fun p => ([p.1], [p.2]) }

theorem bargemEffect_ok {core : Nat} {q : EngCmd} {keys : List Nat} {a n : Nat} {s u : State} {ps : List (Nat × Nat)} (h : s.engSource core q a n = (u, .ok ps))
    (hsound : ∀ x ∈ u.fetchFor q (byteKeys ps), x ≠ none) :
    ∃ p, bargemEffect core q keys a n s = .write u p ∧ p.tag = none ∧ p.bad = none ∧ p.bads = [] ∧ p.dest = keys.map (fun k => (k, n)) ∧
      p.out = keys.flatMap fun k => (byteKeys [(k, n)]).zip (u.fetchFor q (byteKeys ps)) := by
  refine ⟨broadcast keys a n { keys := byteKeys ps, vals := u.fetchFor q (byteKeys ps), bad := poisonAt a (u.fetchFor q (byteKeys ps)) }, ?_, rfl, rfl, ?_, rfl, ?_⟩
  · simp only [bargemEffect, readKnown_ok h]
    rfl
  · exact List.flatMap_eq_nil_iff.2 fun d _ => lacking_sound _ _ hsound
  · exact List.flatMap_map ..

theorem byteKeys_singleton (k n : Nat) : byteKeys [(k, n)] = (List.range n).map (k + ·) := List.flatMap_singleton ..

/-- A sorted list rises. -/
theorem pairwise_sortedBy {α : Type} {le : α → α → Bool} (htotal : ∀ a b, le a b = true ∨ le b a = true)
    (htrans : ∀ a b c, le a b = true → le b c = true → le a c = true) (l : List α) : (l.sortedBy le).Pairwise fun a b => le a b = true := by
  induction l with
  | nil => exact List.Pairwise.nil
  | cons a l ih =>
    have hs : (a :: l).sortedBy le = (l.sortedBy le).takeWhile (fun b => !(le a b)) ++ a :: (l.sortedBy le).dropWhile (fun b => !(le a b)) := rfl
    rw [hs]
    generalize l.sortedBy le = t at ih
    have hsplit := List.takeWhile_append_dropWhile (p := fun b => !(le a b)) (l := t)
    have hbelow : ∀ b ∈ t.takeWhile fun b => !(le a b), le b a = true := fun b hb => by
      have := List.mem_takeWhile_imp hb
      rw [Bool.not_eq_true'] at this
      exact (htotal b a).resolve_right (by rw [this]; exact Bool.false_ne_true)
    have habove : ∀ b ∈ t.dropWhile fun b => !(le a b), le a b = true := by
      rw [← hsplit, List.pairwise_append] at ih
      obtain ⟨-, hdrop, -⟩ := ih
      cases hd : t.dropWhile fun b => !(le a b) with
      | nil => simp
      | cons b r =>
        have hb : le a b = true := by
          have := List.head_dropWhile_not (p := fun b => !(le a b)) (l := t) (by rw [hd]; simp)
          simpa [hd] using this
        rw [hd, List.pairwise_cons] at hdrop
        exact List.forall_mem_cons.2 ⟨hb, fun c hc => htrans _ _ _ hb (hdrop.1 c hc)⟩
    rw [← hsplit, List.pairwise_append] at ih
    obtain ⟨htake, hdrop, hcross⟩ := ih
    rw [List.pairwise_append, List.pairwise_cons]
    exact ⟨htake, ⟨habove, hdrop⟩, fun b hb => List.forall_mem_cons.2 ⟨hbelow b hb, hcross b hb⟩⟩

/-- The targets of a BARGEM: those that its mask selects, in snake order. -/
theorem bargemTargets_spec (placed : List Nat) (mask : Nat) (cl : Bool) :
    let set := (if cl then placed else placed.flatMap coresOf).sortedBy fun a b => decide (a ≤ b)
    let place (x : Nat) : Nat := if cl then snakeOf (x / 4) (x % 4) 4 else snakeOf (x / 32) (x % 32) 32
    (∀ x, x ∈ bargemTargets placed mask cl ↔ ∃ i, i < set.length ∧ mask.testBit i = true ∧ set.getD i 0 = x) ∧
    (bargemTargets placed mask cl).Pairwise fun x y => place x ≤ place y := by
  dsimp only
  refine ⟨fun x => ?_, ?_⟩
  · unfold bargemTargets
    rw [mem_sortedBy]
    generalize (if cl = true then placed else placed.flatMap coresOf).sortedBy (fun a b => decide (a ≤ b)) = set
    rw [List.mem_map]
    constructor
    · rintro ⟨⟨y, i⟩, hy, rfl⟩
      obtain ⟨hz, hbit⟩ := List.mem_filter.1 hy
      obtain ⟨hi, he⟩ := List.getElem?_eq_some_iff.1 (List.mem_zipIdx_iff_getElem?.1 hz)
      exact ⟨i, hi, by rw [Nat.testBit_eq_decide_div_mod_eq]; exact hbit, (List.getD_eq_getElem _ _ hi).trans he⟩
    · rintro ⟨i, hi, hbit, rfl⟩
      rw [Nat.testBit_eq_decide_div_mod_eq] at hbit
      rw [List.getD_eq_getElem _ _ hi]
      exact ⟨(set[i], i), List.mem_filter.2 ⟨List.mem_zipIdx_iff_getElem?.2 (List.getElem?_eq_getElem hi), hbit⟩, rfl⟩
  · refine (pairwise_sortedBy (fun a b => ?_) (fun a b c => ?_) _).imp fun {a b} h => of_decide_eq_true h
    · simpa only [decide_eq_true_eq] using Nat.le_total _ _
    · simpa only [decide_eq_true_eq] using Nat.le_trans

/-! ## Attention requests (R321, R322) -/

theorem attnPlan_spec (s : State) (vf : Nat) (ws : List W64) :
    (attnFieldsOk ws = false → (s.attnPlan vf ws).1 = 4) ∧
    (attnFieldsOk ws = true → s.seq? vf (attnOf ws).seq = none → (s.attnPlan vf ws).1 = 3) ∧
    (∀ e, attnFieldsOk ws = true → s.seq? vf (attnOf ws).seq = some e →
      let x := attnOf ws
      let size := s.blockSize (e.num % 16) e.pool
      let t := size / x.stride
      let last := (x.first + x.count - 1) / t
      (size % x.stride ≠ 0 → (s.attnPlan vf ws).1 = 4) ∧
      (size % x.stride = 0 → e.entries.length ≤ last → (s.attnPlan vf ws).1 = 1) ∧
      (size % x.stride = 0 → last < e.entries.length →
        s.attnPlan vf ws = (0, size, (e.entries.drop (x.first / t)).take (last + 1 - x.first / t)))) := by
  refine ⟨fun h => by simp [State.attnPlan, h], fun h hs => by simp [State.attnPlan, h, hs], fun e h hs => ⟨fun hd => ?_, fun hd hl => ?_, fun hd hl => ?_⟩⟩
  · simp [State.attnPlan, h, hs, hd]
  · simp [State.attnPlan, h, hs, hd, hl]
  · simp [State.attnPlan, h, hs, hd, Nat.not_le.2 hl]

/-- What a request writes into its result area. -/
def requestPlan (ds : List (Nat × Nat)) (ws : List Nat) (status : Nat) (poison : Bool) (read : List Nat) : Plan :=
  { out := (byteKeys ds).zip ((natBytes status 8).map some ++ if poison then List.replicate (4 * ws.length) none else (ws.flatMap fun w => natBytes w 4).map some),
    dest := ds, spoil := poison, last := ds.head?.map (·.1), uses := [(byteKeys ds, read)] }

/-- What a request writes, where its result area passes the checks. -/
theorem attnWrite_ok {s v : State} {core : Nat} {q : EngCmd} {a n : Nat} {ws : List Nat} {ds : List (Nat × Nat)} (hn : 8 + 4 * ws.length = n)
    (hf : s.laterFault q a n true = false) (hd : s.engDest core q a n = (v, .ok ds)) (status : Nat) (poison : Bool) (read : List Nat) :
    s.attnWrite core q a ws status poison read = .write v (requestPlan ds ws status poison read) := by
  subst hn
  unfold State.attnWrite
  rw [hf, if_neg Bool.false_ne_true, hd]
  rfl

/-- The number of the first bytes of a list; a missing one counts as 0. -/
theorem bytesNat_take (l : List (Option Byte)) (n : Nat) :
    bytesNat ((l.take n).map (·.getD 0)) = ((List.range n).map fun k => ((l.getD k none).getD 0).toNat * 256 ^ k).sum := by
  induction n generalizing l with
  | zero => rfl
  | succ n ih =>
    cases l with
    | nil =>
      refine (List.sum_eq_zero fun x hx => ?_).symm
      obtain ⟨k, -, rfl⟩ := List.mem_map.1 hx
      exact Nat.zero_mul _
    | cons b l =>
      rw [List.range_succ_eq_map, List.map_cons, List.sum_cons, List.map_map, List.take_succ_cons, List.map_cons, bytesNat, ih l, ← List.sum_map_mul_left,
        Nat.pow_zero, Nat.mul_one]
      refine congrArg (_ + List.sum ·) (List.map_congr_left fun k _ => ?_)
      simp only [Function.comp_apply, Nat.succ_eq_add_one, Nat.pow_succ, List.getD_cons_succ]
      ring

theorem bytesNat_word (vals : List (Option Byte)) (i : Nat) :
    bytesNat (((vals.drop (4 * i)).take 4).map (·.getD 0)) = ((List.range 4).map fun k => ((vals.getD (4 * i + k) none).getD 0).toNat * 256 ^ k).sum := by
  rw [bytesNat_take]
  refine congrArg List.sum (List.map_congr_left fun k _ => ?_)
  rw [List.getD_eq_getElem?_getD, List.getElem?_drop, ← List.getD_eq_getElem?_getD]

section Request
variable {s u v : State} {core : Nat} {q : EngCmd} {a : W64} {ws : List W64} {ds : List (Nat × Nat)}

theorem engEffect_attnq (h : q.op = .attnq a) : engEffect core q s = attnEffect core q a s := by
  simp only [engEffect, h]

/-- A request with a status that reads nothing. -/
theorem attnEffect_refused (hb : q.blocks = ws) (hws : ws ≠ []) (hst : (ws.getD 8 0).toNat ≠ 0) :
    attnEffect core q a s = s.attnWrite core q (attnOf ws).out.toNat [] (ws.getD 8 0).toNat false [] := by
  subst hb
  obtain ⟨n, hn⟩ := Nat.exists_eq_succ_of_ne_zero hst
  simp only [attnEffect, if_neg hws, hn]

/-- A request that reads its query: the triple of its records, or the poison that they met. -/
theorem attnEffect_read {got : Got} (hb : q.blocks = ws) (hws : ws ≠ []) (hst : (ws.getD 8 0).toNat = 0)
    (hr : s.readLater core q (attnOf ws).q.toNat (4 * (attnOf ws).hd) = (u, .ok got)) (hbad : got.bad = none) :
    ∃ read, attnEffect core q a s =
      match u.attnTriple q (attnOf ws) ((List.range (attnOf ws).hd).map fun i => bytesNat (((got.vals.drop (4 * i)).take 4).map (·.getD 0)))
        (u.attnRecords (attnOf ws) (ws.getD 9 0).toNat (ws.drop 10)) with
      | some (m, l, o) => u.attnWrite core q (attnOf ws).out.toNat (m :: l :: o) 0 false read
      | none => u.attnWrite core q (attnOf ws).out.toNat (List.replicate (2 + (attnOf ws).hd) 0) 2 true read := by
  subst hb
  refine ⟨got.keys ++ attnReads (attnOf q.blocks) (u.attnRecords (attnOf q.blocks) (q.blocks.getD 9 0).toNat (q.blocks.drop 10)), ?_⟩
  simp only [attnEffect, if_neg hws, hst, hr, hbad]
  rfl

end Request

/-! ## Triples (R182, R322) -/

/-- Are all bytes of a vector of a record there? -/
def SoundVector (s : State) (q : EngCmd) (x : Attn) (k : Nat) : Prop := ∀ b ∈ s.fetchFor q (byteKeys [(k, x.hd * fmtWidth x.fmt / 8)]), b ≠ none

/-- Element `i` of a vector of a record. -/
def vectorElt (s : State) (q : EngCmd) (x : Attn) (k i : Nat) : Nat :=
  rne 9 (numOf x.fmt (bytesNat ((s.fetchFor q (byteKeys [(k, x.hd * fmtWidth x.fmt / 8)])).map (·.getD 0)) / 2 ^ (fmtWidth x.fmt * i)))

theorem percolate_sound {s : State} {q : EngCmd} {x : Attn} {k : Nat} (h : SoundVector s q x k) :
    s.percolate q x.fmt k x.hd = some ((List.range x.hd).map (vectorElt s q x k)) := by
  have hany : (s.fetchFor q (byteKeys [(k, x.hd * fmtWidth x.fmt / 8)])).any (·.isNone) = false := by
    rw [← Bool.not_eq_true, List.any_eq_true]
    rintro ⟨b, hb, hnone⟩
    exact h b hb (Option.isNone_iff_eq_none.1 hnone)
  unfold State.percolate
  dsimp only
  rw [hany, if_neg Bool.false_ne_true]
  rfl

theorem percolate_poisoned {s : State} {q : EngCmd} {x : Attn} {k : Nat} (h : ¬ SoundVector s q x k) : s.percolate q x.fmt k x.hd = none := by
  have hany : (s.fetchFor q (byteKeys [(k, x.hd * fmtWidth x.fmt / 8)])).any (·.isNone) = true := by
    unfold SoundVector at h
    push Not at h
    obtain ⟨b, hb, rfl⟩ := h
    exact List.any_eq_true.2 ⟨none, hb, rfl⟩
  unfold State.percolate
  dsimp only
  rw [hany, if_pos rfl]

theorem positionTriple_sound {s : State} {q : EngCmd} {x : Attn} {k : Nat} (hk : SoundVector s q x k) (hv : SoundVector s q x (k + x.voff)) (qs : List Nat) :
    s.positionTriple q x qs k = some (rne 9 (sumExact ((qs.zip ((List.range x.hd).map (vectorElt s q x k))).map fun p => (numOf 9 p.1).mul (numOf 9 p.2))),
      0x3F800000, (List.range x.hd).map (vectorElt s q x (k + x.voff))) := by
  unfold State.positionTriple
  rw [percolate_sound hk, percolate_sound hv]

theorem positionTriple_poisoned {s : State} {q : EngCmd} {x : Attn} {k : Nat} (h : ¬ (SoundVector s q x k ∧ SoundVector s q x (k + x.voff))) (qs : List Nat) :
    s.positionTriple q x qs k = none := by
  unfold State.positionTriple
  by_cases hk : SoundVector s q x k
  · rw [percolate_sound hk, percolate_poisoned fun hv => h ⟨hk, hv⟩]
  · rw [percolate_poisoned hk]

theorem attnTriple_eq {s : State} {q : EngCmd} {x : Attn} {qs : List Nat} {bs : List (List Nat)} {ts : List Triple} (hlen : bs.length = ts.length)
    (h : ∀ i, i < bs.length → s.blockTriple q x qs (bs.getD i []) (emptyTriple x.hd) = some (ts.getD i (0, 0, []))) (hts : ts ≠ []) :
    s.attnTriple q x qs bs = some (ts.tail.foldl mergeTriple (ts.headD (0, 0, []))) := by
  have hmap : (bs.map fun ks => s.blockTriple q x qs ks (emptyTriple x.hd)) = ts.map some := by
    refine List.ext_getElem (by simp [hlen]) fun i h1 h2 => ?_
    rw [List.length_map] at h1 h2
    have hi := h i h1
    rw [List.getD_eq_getElem _ _ h1, List.getD_eq_getElem _ _ h2] at hi
    rw [List.getElem_map, List.getElem_map, hi]
  have hsome : (ts.map some).any (·.isNone) = false := by simp
  have hid : (ts.map some).filterMap id = ts := by simp
  unfold State.attnTriple
  dsimp only
  rw [hmap, hsome, if_neg Bool.false_ne_true, hid]
  cases ts with
  | nil => exact absurd rfl hts
  | cons t ts => rfl

end Sys2Proof.Machine
end

section
/-! O36. The clauses on gathers, BARGEM and attention requests in the words of the statement. -/

namespace Sys2Proof.Machine

theorem engEffect_cpy {core : Nat} {q : EngCmd} {d a : W64} {n : Nat} {tag : Option Bool} (h : q.op = .cpy d a n tag) (hn : 0 < n) (s : State) :
    engEffect core q s = copyInto core q d.toNat a.toNat n tag s := by
  simp only [engEffect, h]
  exact if_neg (by omega)

theorem engEffect_cpyg {core : Nat} {q : EngCmd} {d a l : W64} {z m w : Nat} (h : q.op = .cpyg d a l z m w) (s : State) :
    engEffect core q s = gatherEffect core q d a l z m w s := by
  simp only [engEffect, h]

theorem engEffect_bargem {core : Nat} {q : EngCmd} {keys : List Nat} {a : W64} {n : Nat} (h : q.op = .bargem keys a n) (hn : 0 < n) (hkeys : keys ≠ []) (s : State) :
    engEffect core q s = bargemEffect core q keys a.toNat n s := by
  simp only [engEffect, h]
  exact if_neg fun hor => hor.elim hkeys (by omega)

theorem length_flatMap_const {α β : Type} (l : List α) (f : α → List β) (n : Nat) (hf : ∀ x ∈ l, (f x).length = n) : (l.flatMap f).length = l.length * n := by
  rw [List.length_flatMap, List.map_congr_left hf, List.map_const', List.sum_replicate, smul_eq_mul]

/-- A place of a range of equal places. -/
theorem InAlias.place {x m z i : Nat} (h : InAlias x (m * z)) (hi : i < m) : InAlias (x + i * z) z := by
  obtain ⟨h1, h2⟩ := h
  have hle : (i + 1) * z ≤ m * z := Nat.mul_le_mul_right z hi
  rw [Nat.succ_mul] at hle
  exact ⟨by omega, by omega⟩

theorem gather_places (core a d z m : Nat) (mem : List Host.Cell) (index : Nat → Nat) :
    let out := (List.range m).flatMap fun i => recordAt core a d z mem (index i, i)
    out.length = m * z ∧ ∀ i k, i < m → k < z →
      out.getD (i * z + k) (0, none) = (aliasKey core (d + i * z + k), some (memGet mem (aliasKey core (a + index i * z + k)))) := by
  have hlen : ∀ i ∈ List.range m, (recordAt core a d z mem (index i, i)).length = z := fun i _ => by simp [recordAt]
  refine ⟨(length_flatMap_const _ _ z hlen).trans (by rw [List.length_range]), fun i k hi hk => ?_⟩
  rw [getD_flatMap _ _ z hlen _ i k (by rw [List.length_range]; exact hi) hk, List.getElem_range]
  unfold recordAt
  rw [List.getD_eq_getElem _ _ (by simpa using hk), List.getElem_map, List.getElem_range]

theorem broadcast_places (keys : List Nat) {n : Nat} {vals : List (Option Byte)} (hv : vals.length = n) :
    let out := keys.flatMap fun k => (byteKeys [(k, n)]).zip vals
    out.length = keys.length * n ∧ ∀ j k, j < keys.length → k < n → out.getD (j * n + k) (0, none) = (keys.getD j 0 + k, vals.getD k none) := by
  have hlen : ∀ x ∈ keys, ((byteKeys [(x, n)]).zip vals).length = n := fun x _ => by
    rw [byteKeys_singleton, List.length_zip, List.length_map, List.length_range, hv, Nat.min_self]
  refine ⟨length_flatMap_const _ _ n hlen, fun j k hj hk => ?_⟩
  rw [getD_flatMap _ _ n hlen _ j k hj hk, List.getD_eq_getElem _ _ (by rw [hlen _ (List.getElem_mem hj)]; exact hk), List.getElem_zip,
    List.getD_eq_getElem _ _ hj, List.getD_eq_getElem _ _ (by rw [hv]; exact hk)]
  simp only [byteKeys_singleton, List.getElem_map, List.getElem_range]

end Sys2Proof.Machine

open Sys2Proof Sys2Proof.Machine

/-- Settles O36, clause by clause: a copy by `perform_copied`, a gather by `gatherEffect_local`, and the rest from what each effect is once its ranges are read. -/
theorem copiesBytes : Obligations.CopiesBytes := by
  refine ⟨?copy, ?gather, ?barge, ?bargem, ?targets, attnPlan_spec, ?attention, ?triples⟩
  case copy =>
    intro s u v core ctr q d a n tag ps ds hm hn hgot hput hskip _ hs hd hkeys hnd hlen to_ lost
    have hvals := fetchFor_getElem (s := u) (ks := byteKeys ps) hgot hskip hkeys
    exact ⟨_, copyInto_ok hs hd tag, rfl, rfl, rfl, fun hop => (engEffect_cpy hop hn s).trans (copyInto_ok hs hd tag),
      fun sel => ⟨fun hidle => perform_copied hm hnd hlen hvals hidle _ rfl, badOf_copied hlen hvals⟩, rfl⟩
  case gather =>
    intro s core q d a l z m w hop hc hgot hpages hmig hskip hissuer hu hz hm hw mine key index hsound hl hd ha
    have hkey : key = aliasKey core := funext fun x => by
      unfold aliasKey localKey meshBase aliasBase
      rfl
    have hindex : ∀ i, index i = ((List.range w).map fun k => (memGet s.mem (aliasKey core (l.toNat + i * w + k))).toNat * 256 ^ k).sum := fun i => by
      rw [← hkey]
    rw [hkey] at hsound
    rw [hkey]
    have hq : q.Fresh := ⟨hgot, hpages, hmig, hskip, hissuer⟩
    have hlocal : s.SoundLocal core := fun o ho => by
      have := hsound o ho
      unfold aliasKey at this
      rwa [show 0xFFFFFFFFFFFE0000 + o - aliasBase = o from Nat.add_sub_cancel_left ..] at this
    obtain ⟨v, p, he, hmem, htag, hbad, hbads, hout⟩ := gatherEffect_local hc hq hu hlocal hl (fun i hi => InAlias.place hd hi) index hindex ha
    obtain ⟨hlen, hplace⟩ := gather_places core a.toNat d.toNat z m s.mem index
    exact ⟨v, p, (engEffect_cpyg hop s).trans he, hmem, htag, hbad, hbads, by rw [hout]; exact hlen, by rw [hout]; exact hplace⟩
  case barge =>
    intro s u core q d a n ds hop hn hskip hds one
    have he := (engEffect_barge hop hn s).trans (bargeEffect_ok (a := a.toNat) hds)
    refine ⟨fun hno hone => ?_, fun hno hone => ?_⟩
    · rw [he, if_pos ((modulesOf_one hno).2 hone)]
    · rw [he, if_neg fun h => hone ((modulesOf_one hno).1 h)]
      unfold engFault
      rw [BitVec.ofNat_toNat, BitVec.setWidth_eq]
  case bargem =>
    intro s u core q keys a n ps hop hn hkeys hs hlen hsound
    obtain ⟨p, he, htag, hbad, hbads, hdest, hout⟩ := bargemEffect_ok (keys := keys) hs hsound
    obtain ⟨hlength, hplace⟩ := broadcast_places keys ((length_fetchFor u q (byteKeys ps)).trans hlen)
    exact ⟨p, (engEffect_bargem hop hn hkeys s).trans he, htag, hbad, hbads, hdest, by rw [hout]; exact hlength, by rw [hout]; exact hplace⟩
  case targets =>
    intro placed mask cl
    have hplace := bargemTargets_spec placed mask cl
    exact hplace
  case attention =>
    intro s u v core q a ws got ds st hop hb hws hst x word qs blocks
    have heff := engEffect_attnq (core := core) (s := s) hop
    refine ⟨fun h0 hf hd => ?_, fun h0 hr hbad hf hd => ?_⟩
    · have he := attnEffect_refused (s := s) (core := core) (a := a) hb hws (by rw [hst]; exact h0)
      rw [attnWrite_ok rfl hf hd, hst] at he
      refine ⟨_, heff.trans he, ?_, rfl, rfl⟩
      unfold requestPlan
      simp
    · obtain ⟨read, he⟩ := attnEffect_read (a := a) hb hws (hst.trans h0) hr hbad
      have hqs : ((List.range x.hd).map fun i => bytesNat (((got.vals.drop (4 * i)).take 4).map (·.getD 0))) = qs :=
        List.map_congr_left fun i _ => bytesNat_word got.vals i
      rw [hqs] at he
      refine ⟨fun m l o ht hlen => ?_, fun ht => ?_⟩
      · have ht' : u.attnTriple q (attnOf ws) qs (u.attnRecords (attnOf ws) (ws.getD 9 0).toNat (ws.drop 10)) = some (m, l, o) := ht
        rw [ht'] at he
        dsimp only at he
        rw [attnWrite_ok (ws := m :: l :: o) (show 8 + 4 * (o.length + 2) = 16 + 4 * x.hd by rw [hlen]; omega) hf hd] at he
        refine ⟨_, heff.trans he, rfl, rfl, rfl, ?_⟩
        unfold requestPlan
        simp
      · have ht' : u.attnTriple q (attnOf ws) qs (u.attnRecords (attnOf ws) (ws.getD 9 0).toNat (ws.drop 10)) = none := ht
        rw [ht'] at he
        dsimp only at he
        rw [attnWrite_ok (ws := List.replicate (2 + x.hd) 0) (by rw [List.length_replicate]; omega) hf hd] at he
        refine ⟨_, heff.trans he, rfl, rfl, ?_⟩
        unfold requestPlan
        rw [if_pos rfl, List.length_replicate]
  case triples =>
    intro s q x qs k ks t bs elt sound
    refine ⟨fun hk hv => positionTriple_sound hk hv qs, fun h => ?_, fun p hp => ?_, rfl, fun m l o m' l' o' => rfl, fun ts hlen h hts => attnTriple_eq hlen h hts⟩
    · have hp := positionTriple_poisoned h qs
      refine ⟨hp, ?_⟩
      rw [State.blockTriple, hp]
    · rw [State.blockTriple, hp]
end
